-- ==== Sys2Proof/Word.lean ====
section
/-! DEFINITION. The word types of the model and the shape of a sparse table (its operations stand in
Machine/Tbl.lean). -/

namespace Sys2Proof

/-- One byte. -/
abbrev Byte := BitVec 8

/-- One 32-bit register or packet word (R8, R403). -/
abbrev Word := BitVec 32

/-- A sparse table: numbered entries, the numbers rising. A number that is not listed has the table's
default entry (each field of `State` names it). -/
abbrev Tbl (α : Type) := List (Nat × α)

end Sys2Proof
end

