-- ==== Sys2Proof/Syntax.lean ====
section
/-! DEFINITION. The commands of the block: one constructor of `Instr` per row of spec/opcode_table.json, in
the table's order, and the structures of their operands. -/

namespace Sys2Proof

/-! ## Operand structures -/

/-- The command packet an opcode runs for (R219 Table 9-9): its queue (8192 = the sideband mailbox of R435),
sequence number, tag, the QUIET and IRQ flags, and the header's `tenant` (0xFF none) and `context`
(0xFFFF none) fields. `life` is the model's own: which life of the queue the packet belongs to, counted from 0 and raised by
each reset of the queue (R236; log entry 47). -/
structure Pkt where
  queue   : Nat
  seq     : BitVec 32
  tag     : BitVec 32
  quiet   : Bool
  irq     : Bool
  tenant  : Nat
  context : Nat
  life    : Nat := 0
  deriving DecidableEq, Repr

/-- A tile's kind (R187). -/
inductive TileKind
  | matrix | vector
  deriving DecidableEq, Repr

/-- A memory grant of a template (R189): a scratch area of the bundle by its index, or the instance's weights on the
context's die (`none`); its first 64-byte unit there, its length in units, its access. -/
structure GrantShape where
  area  : Option Nat
  first : Nat
  units : Nat
  canRd : Bool
  canWr : Bool
  deriving DecidableEq, Repr

/-- A thread shape (R141, Table 8-1) with the arrays firmware chose for it: die, members as (tile × 2 + array, slot) in
chain order, the THREAD_SOURCE descriptors of its round, the list's context whose grants they name. -/
structure ThreadShape where
  die     : Nat
  members : List (Nat × Nat)
  sources : List (BitVec 512)
  ctx     : Nat
  deriving DecidableEq, Repr

/-- A context template of a pattern bundle (R187, Table 8-1, Table 8-2). -/
structure Template where
  kind      : TileKind
  declBytes : Nat
  patBytes  : Nat
  /-- The words of a vector pattern (R166); empty for a matrix pattern. -/
  words     : List (BitVec 64)
  streams   : Nat
  slots     : Nat
  grants    : List GrantShape
  /-- Sheet-list part of local memory (R467): first 64-byte unit and number of units. -/
  listUnit  : Nat
  listUnits : Nat
  deriving DecidableEq, Repr

/-- The energy estimate of a dispatch list on one die (R394): nJ per sequence entry, nJ per appended token. -/
structure DieEst where
  die    : Nat
  perSeq : Nat
  perTok : Nat
  deriving DecidableEq, Repr

/-- One context a dispatch list names: the template, which of the tenant's contexts of that template it is
(counted from the lowest package-wide number), and the entries it serves (`none`: every entry, R233). -/
structure ListCtx where
  template : Nat
  index    : Nat
  serves   : Option (List Nat)
  deriving DecidableEq, Repr

/-- A dispatch list of a bundle (Table 8-1, R231, R394). -/
structure DList where
  ctxs    : List ListCtx
  est     : List DieEst
  periods : Nat
  threads : List ThreadShape
  /-- The knots that firmware ties at dispatch (R203): knot, position of the owner in `ctxs`, initial value. -/
  ties    : List (Nat × Nat × BitVec 64) := []
  deriving DecidableEq, Repr

/-- Attention window and sink tokens of one layer (Table 2-2). -/
structure LayerWin where
  window : Nat
  sinks  : Nat
  deriving DecidableEq, Repr

/-- The content of a pattern bundle as firmware reads it (Table 8-1); its byte format is not published. -/
structure Bundle where
  templates : List Template
  lists     : List DList
  layers    : List LayerWin
  /-- Sizes of the scratch areas (R189, R466) in 64-byte units. -/
  areas     : List Nat
  deriving DecidableEq, Repr

/-- One entry of an EXEC_DISPATCH (Table 9-14). -/
structure ExecEntry where
  seq   : Nat
  nTok  : Nat
  inOff : Nat
  inLen : Nat
  deriving DecidableEq, Repr

/-- A logic cell's mode (Table 10-2). -/
inductive CellMode
  | table | twin | shift | select
  deriving DecidableEq, Repr

/-- Where a flip-flop takes its D from (R241): Y, Z, the carry sum, or its own side input. -/
inductive DSrc
  | y | z | sum | side
  deriving DecidableEq, Repr

/-- The configuration of one flip-flop (R241). -/
structure FfCfg where
  d     : DSrc
  en1   : Bool
  rs1   : Bool
  rsval : Bool
  /-- Clocked on the falling edge. -/
  neg   : Bool
  init  : Bool
  deriving DecidableEq, Repr

/-- The configuration of one cell (R239, R241) but for its table, which the published frames hold (R269). -/
structure CellCfg where
  mode    : CellMode
  chainIn : Bool
  fa      : FfCfg
  fb      : FfCfg
  deriving DecidableEq, Repr

/-- c(0) of a block's carry chain (R242): the carry input from the block below, or a constant. -/
inductive CarryIn
  | chain | zero | one
  deriving DecidableEq, Repr

/-- The configuration of a logic block (R239 to R242): its eight cells, its clock line (0 FCLKr, 1 to 4 UCLK0 to UCLK3, 5 to 8 the
lane receive clocks, 9 the lane transmit clock), whether its reset lines act synchronously, its carry input. -/
structure BlockCfg where
  cells   : List CellCfg
  line    : Nat
  sync    : Bool
  carryIn : CarryIn
  deriving DecidableEq, Repr

/-- The pull of a pin (Table 10-10). -/
inductive Pull
  | none | up | down | keeper
  deriving DecidableEq, Repr

/-- A pin's standard (Table 10-10): LVCMOS by the code of its bank voltage, with drive in mA and slew, or LVDS. -/
inductive PinStd
  | lvcmos (volt drive : Nat) (fast : Bool)
  | lvds (term : Bool)
  deriving DecidableEq, Repr

/-- The configuration of a user I/O pin (R258, R273): an output or an input, its registers on a clock line, double data rate, the
serialiser or deserialiser of an LVDS pair. -/
structure PinCfg where
  std    : PinStd
  output : Bool
  pull   : Pull
  reg    : Bool
  line   : Nat
  ddr    : Bool
  serdes : Bool
  deriving DecidableEq, Repr

/-- What the frames of a region spell whose bits are not published (R244, R269): its logic blocks by number (column × 160 + row),
clock line and width of its memory ports (2 × block + port), its pins, its raw lanes with precoding. -/
structure Design where
  blocks  : List (Nat × BlockCfg)
  fmPorts : List (Nat × Nat × Nat)
  pins    : List (Nat × PinCfg)
  precode : List Nat
  deriving DecidableEq, Repr

/-- What the bytes of an image come to that the model does not compute (log entries 42, 53): the Ed25519 and the ML-DSA-65
signature over the digest (R276); by its frame's byte offset in the body, each select code that is illegal (R244: their bits are
not published); by region (8 × die + region), the design that the frames spell once the image is written; and whether the image
changes the bank's voltage (R290). -/
structure ImgChk where
  edOk    : Bool
  pqOk    : Bool
  illegal : List Nat
  designs : List (Nat × Design)
  newVolt : Bool
  deriving DecidableEq, Repr

/-- One command of R203 on its way to the knot unit. -/
inductive KnotOp
  | add (knot : Nat) (n : BitVec 64)
  | untie (knot : Nat)
  deriving DecidableEq, Repr

/-- Where a probe sits and which one it is (Table 12-13: die, router field, probe). -/
structure ProbeSel where
  die    : Nat
  router : Nat
  probe  : Nat
  deriving DecidableEq, Repr

/-- A probe's filter (Table 12-13). -/
structure ProbeFilter where
  trace   : Bool
  wrap    : Bool
  ports   : BitVec 8
  clsMask : BitVec 4
  vcMask  : BitVec 4
  src     : BitVec 16
  srcMask : BitVec 16
  dst     : BitVec 16
  dstMask : BitVec 16
  op      : BitVec 8
  opMask  : BitVec 8
  deriving DecidableEq, Repr

/-- An entry of the customer identity record (R427). -/
structure SignEntry where
  usage  : Nat
  edHash : BitVec 384
  pqHash : BitVec 384
  deriving DecidableEq, Repr

/-- A debug token (R433): its 5,440 bytes, and what its Ed25519 and ML-DSA-65 signatures come to (log entry 42). -/
structure DebugToken where
  bytes    : List Byte
  edOk     : Bool
  pqOk     : Bool
  deriving DecidableEq, Repr

/-- Bytes 4 to 1,215 of KEY_LOAD's parameters (Table 17-3), and the X25519 and ML-KEM secrets that the device's wrapping keys
compute from `eph` and `ct` (R429 step 1; log entry 42). -/
structure WrapBlk where
  eph     : List Byte
  ct      : List Byte
  nonce   : List Byte
  gtag    : BitVec 128
  wrapped : List Byte
  xSecret : List Byte
  mSecret : List Byte
  deriving DecidableEq, Repr

/-- An SPDM request (R431). -/
inductive SpdmReq
  | getVersion | getCapabilities | negotiateAlgorithms | getDigests
  | getCertificate (slot : Nat)
  | challenge (transcript : BitVec 384)
  | getMeasurements (index : Nat) (signed : Bool) (transcript : BitVec 384)
  | vendorDefined (vendor : Nat) (code : Nat)
  | other (bytes : List Byte)
  deriving DecidableEq, Repr

/-- A packet header on the networks (R306, Table 12-4), with the payload's bytes. -/
structure NetPkt where
  hpar   : BitVec 8
  ptr    : BitVec 4
  txn    : BitVec 14
  lane   : Bool
  epoch  : Bool
  len    : BitVec 16
  opcode : BitVec 8
  cls    : BitVec 2
  dst    : BitVec 11
  src    : BitVec 11
  turns  : BitVec 96
  /-- Virtual channel: 0 request, 1 response, 2 weight thread, 3 management (R304). -/
  vc     : BitVec 2
  /-- The flits' control parity is right (R306 [5]). -/
  ctlOk  : Bool
  deriving DecidableEq, Repr

/-- A route written by an epoch switch (R311): the interface (11-bit endpoint), the destination, its turns. -/
structure RouteWrite where
  iface : Nat
  dst   : Nat
  turns : BitVec 96
  deriving DecidableEq, Repr

/-- What an epoch switch changes (R313): routes, the redirect map (R56), the chains of weight threads
(R151: thread, new members as array numbers), and the units that return to service at its flip (R448). -/
structure EpochChange where
  routes    : List RouteWrite
  redirects : List (Nat × Nat × Nat)      -- die, channel code, wringer
  chains    : List (Nat × Nat × List Nat) -- die, thread, members (tile × 2 + array)
  returns   : List (Nat × Nat × Nat)      -- die, unit kind, unit
  deriving DecidableEq, Repr

/-- Who asks a memory controller (R346), in what R332 and R336 need to know of it. -/
inductive MemWho
  | wringer (w : Nat) | mover | stream (n : Nat) | threadHead (thread : Nat) | image (ctx : Nat)
  | rtp (region : Nat) | firmware
  deriving DecidableEq, Repr

/-- A request waiting at a memory controller (R346): who, class, the channel code (R467), the byte offset in the
channel (a multiple of 64), the key slot, the sheet handle and offset for sheet frames (R332), and the 64 bytes
of a write (`none` for a read). -/
structure MReq where
  who    : MemWho
  cls    : Nat
  chan   : Nat
  off    : Nat
  slot   : Nat
  sheet  : Option (Nat × Nat)
  wdata  : Option (List Byte)
  deriving DecidableEq, Repr

/-- What the storage reports on an access (Table 13-3; R334 for LPDDR5X, where 0, 1 and 3 apply): the severity, 4 for an
uncorrectable error inside the controller itself (R348); and whether the link failed once or twice, 3 for devices that do not
answer (R348). -/
structure MemReport where
  severity  : Nat
  linkFails : Nat
  deriving DecidableEq, Repr

/-- The values that routing brings to one logic block in a clock cycle (R238 to R242): per cell the six
address inputs and J, K; the block's six selects, two enables, two resets. -/
structure BlockIn where
  addr   : List (BitVec 6)
  jk     : List (Bool × Bool)
  sel    : BitVec 6
  en0    : Bool
  en1    : Bool
  rs0    : Bool
  rs1    : Bool
  deriving DecidableEq, Repr

/-- What a raw lane brings at an edge of its receive clock (R264): the symbols of one word, lock, signal detect. -/
structure LaneRx where
  symbols : List Nat
  lock    : Bool
  detect  : Bool
  deriving DecidableEq, Repr

/-- What the fabric gives a raw lane at an edge of the transmit clock (R264): the word, the transmitter's taps (pre2, pre1, main,
post1), and whether receiver adaptation starts. -/
structure LaneTx where
  word  : BitVec 256
  taps  : List Int
  adapt : Bool
  deriving DecidableEq, Repr

/-- What routing, pins, boundary wires and lanes bring to a region's design at an edge, and what the design drives out of the
region: signals by their number in the isolation table (R273: 0 to 3,071 boundary wires, 3,072 on user I/O). A block, signal or
pin that is not listed has its inputs low, its signal as before, its level low; `words` are the words that serialisers take. -/
structure EdgeIn where
  blocks : List (Nat × BlockIn)
  drives : List (Nat × Bool)
  pins   : List (Nat × Bool)
  words  : List (Nat × BitVec 8)
  rx     : Option LaneRx
  tx     : List (Nat × LaneTx)
  deriving DecidableEq, Repr

/-- One word in error in the frame the darner checks (R294, R295): region, word of the frame, uncorrectable or
not, and whether the write-back check failed. -/
structure DarnErr where
  region : Nat
  word   : Nat
  dbl    : Bool
  wbFail : Bool
  deriving DecidableEq, Repr

/-- Which path makes a register access (Table 16-1). -/
inductive RegPath
  | firmware (core : Nat) | sideband | host (func : Nat)
  deriving DecidableEq, Repr

/-- The fields of a vector instruction word but for `op` (Table 7-3). In the wide-immediate form `lvl` and
`imm16` replace `va`, `vb`, `acc`, `x5`. -/
structure VW where
  m     : Bool
  vd    : BitVec 5
  va    : BitVec 5
  vb    : BitVec 5
  acc   : BitVec 3
  x5    : BitVec 5
  ovf   : Bool
  p0    : BitVec 4
  u0    : BitVec 3
  p1    : BitVec 4
  u1    : BitVec 3
  lend  : BitVec 4
  imm13 : BitVec 13
  lvl   : BitVec 2
  imm16 : BitVec 16
  deriving DecidableEq, Repr

/-- The tile a word issues on, and what local memory reports as it reads the word and its operands (R183, R445):
0 no error, 1 an error corrected, 2 an uncorrectable one. A vector tile has `matrix` = none. A matrix pattern's own words
are not published, but R191 and R205 let it end and wait as well: `matrix` = some v names the matrix tile `tile` for HALT,
KADD and KWAIT, v being the value added or the target. -/
structure VAt where
  die    : Nat
  tile   : Nat
  err    : Nat
  matrix : Option (BitVec 64)
  deriving DecidableEq, Repr

/-- An array of a matrix tile: die, tile, array (0 A, 1 B), and what local memory, accumulator store or merge buffer report
in the step (R140, R445): 0 no error, 1 an error corrected, 2 an uncorrectable one. -/
structure AAt where
  die  : Nat
  tile : Nat
  arr  : Nat
  err  : Nat
  deriving DecidableEq, Repr

/-- A tile of either kind. -/
structure TAt where
  die  : Nat
  kind : TileKind
  tile : Nat
  deriving DecidableEq, Repr

/-- A region of a die. -/
structure RAt where
  die    : Nat
  region : Nat
  deriving DecidableEq, Repr

/-- How VIN leaves its range (R454). -/
inductive VinKind
  | below36 | holdUp (mv : Nat) | above63
  deriving DecidableEq, Repr

/-- What Psiurn finds at boot (R421, R422, R340, R316, R28): the ROM self-check; the check of the active slot's
header and body; the channels that fail training (die, channel code); the dies whose controller fails its
self-test; the dies whose LPDDR5X population breaks R352; the dies no UCIe route reaches; the sensors at the
moment Psiurn leaves reset (°C per die, then Psiurn's); what the board has written to the flash while Psiurn did not drive
it (R423). -/
structure BootFacts where
  romOk      : Bool
  chk        : ImgChk
  trainFail  : List (Nat × Nat)
  dieFail    : List Nat
  lpddrBad   : List Nat
  unreached  : List Nat
  temps      : List Int
  psiTemp    : Int
  flash      : List (Nat × List Byte)
  deriving DecidableEq, Repr

/-- The instruction set of the block: one constructor per row of spec/opcode_table.json, in its order. -/
inductive Instr
  -- the command opcodes of chapter 9 and their later steps
  | tenantCreate (p : Pkt) (quantum idleMs resumeS : Nat)
  | tenantDestroy (p : Pkt)
  | tenantSet (p : Pkt) (quantum idleMs resumeS : Nat)
  | ctxCreate (p : Pkt) (inst tmpl die : Nat)
  | ctxDestroy (p : Pkt)
  | ctxRead (p : Pkt) (off len : Nat)
  | modelCreate (p : Pkt) (L h d32 fmt thr wBytes bBytes : Nat)
  | modelWrite (p : Pkt) (inst part die off : Nat) (data : List Byte)
  | modelCommit (p : Pkt) (inst : Nat) (bundle : Bundle)
  | modelDestroy (p : Pkt) (inst : Nat)
  | seqOpen (p : Pkt) (inst die cls : Nat)
  | seqClose (p : Pkt) (seq : Nat)
  | seqSuspend (p : Pkt) (seq cls : Nat)
  | seqResume (p : Pkt) (seq cls : Nat)
  | seqTruncate (p : Pkt) (seq pos : Nat)
  | sheetHintPromote (p : Pkt) (seq layer : Nat)
  | sheetHintDemote (p : Pkt) (seq layer : Nat)
  | sheetHintPin (p : Pkt) (seq layer : Nat)
  | sheetHintUnpin (p : Pkt) (seq layer : Nat)
  | stateIdle (p : Pkt) (dies segs : BitVec 8)
  | idleDrainDone (die : Nat)
  | stateWake (p : Pkt) (dies : BitVec 8)
  | segmentInitDone (die lc seg : Nat)
  | seqQuery (p : Pkt) (seq : Nat)
  | execDispatch (p : Pkt) (inst list outUnits : Nat) (entries : List ExecEntry) (payload : List Byte)
  | dispatchComplete (id : Nat) (outs : List (List Byte))
  | fabricLoadPart (p : Pkt) (at_ : RAt) (tenant : Nat) (last : Bool) (off imageLen : Nat) (data : List Byte)
      (chk : ImgChk)
  | fabricLoadFlash (p : Pkt) (at_ : RAt) (tenant : Nat) (addr : Nat) (chk : ImgChk)
  | fabricLoadBind (p : Pkt) (at_ : RAt) (tenant : Nat)
  | fabricLoadAbandon (p : Pkt) (at_ : RAt)
  | bankVoltageReady (at_ : RAt)
  | regionRelease (at_ : RAt)
  | ioHandover (at_ : RAt)
  | fabricCaptureFlipFlops (p : Pkt) (at_ : RAt) (edge : Nat)
  | fabricCaptureHalt (p : Pkt) (at_ : RAt) (edge : Nat)
  | fabricCaptureResume (p : Pkt) (at_ : RAt) (edge : Nat)
  | captureCopyDone (at_ : RAt)
  | fabricRead (p : Pkt) (at_ : RAt) (first count : Nat)
  | fabricClockSetDivisor (p : Pkt) (at_ : RAt) (divisor edge : Nat)
  | fabricClockHalt (p : Pkt) (at_ : RAt) (edge : Nat)
  | fabricClockRun (p : Pkt) (at_ : RAt) (edge : Nat)
  | fabricClockReadFctr (p : Pkt) (at_ : RAt) (edge : Nat)
  | fctrEdgeReached (at_ : RAt)
  | knotTie (p : Pkt) (die knot owner : Nat) (value : BitVec 64)
  | knotAdd (p : Pkt) (die knot : Nat) (n : BitVec 64)
  | knotWait (p : Pkt) (die knot : Nat) (target : BitVec 64)
  | knotUntie (p : Pkt) (die knot : Nat)
  | knotRead (p : Pkt) (die knot : Nat)
  | knotOpArrival (die idx : Nat) (bad : Bool)
  | knotWake (die ctx : Nat)
  | energyLimit (p : Pkt) (pMw rMw : Nat)
  | energyAllow (p : Pkt) (tenant : Nat) (dies : BitVec 8) (window : Nat) (nj : Nat)
  | energyRead (p : Pkt) (die tenant : Nat)
  | telCounters (p : Pkt) (die kind unit : Nat)
  | telReam (p : Pkt) (die first count : Nat)
  | telCtx (p : Pkt)
  | telProbeSetFilter (p : Pkt) (sel : ProbeSel) (f : ProbeFilter)
  | telProbeStart (p : Pkt) (sel : ProbeSel)
  | telProbeStop (p : Pkt) (sel : ProbeSel)
  | telProbeReadCounts (p : Pkt) (sel : ProbeSel)
  | telProbeReadTrace (p : Pkt) (die : Nat)
  | telProbeClearTrace (p : Pkt) (die : Nat)
  | testRunSelfTest (p : Pkt) (die kind unit : Nat)
  | testRunCalibration (p : Pkt) (die kind unit : Nat)
  | testRunLinkRetrain (p : Pkt) (die kind unit : Nat)
  | testDone (die kind unit : Nat) (pass : Bool)
  | queueCreate (p : Pkt) (queue die cls tenant func vector : Nat) (base : BitVec 64)
      (log2size coalCount coalUs : Nat) (first : BitVec 32)
  | queueDestroy (p : Pkt) (queue : Nat)
  | queueDrained (queue : Nat)
  | eventConfig (p : Pkt) (func queue : Nat) (mask : BitVec 64)
  | deviceInfo (p : Pkt)
  | keyLoadSealingKey (p : Pkt) (tenant : Nat) (dies : BitVec 8) (w : WrapBlk)
  | keyLoadImageKey (p : Pkt) (target : Nat) (w : WrapBlk)
  | keyLoadIdentityRecord (p : Pkt) (entries : List SignEntry)
  | keyRemove (p : Pkt) (tenant : Nat) (dies : BitVec 8)
  | fwUpdateWrite (p : Pkt) (off : Nat) (data : List Byte)
  | fwUpdateActivate (p : Pkt) (chk : ImgChk)
  | fwUpdateRaiseFwMin (p : Pkt) (value : Nat)
  | fwUpdateRaiseCfgMin (p : Pkt) (value : Nat)
  | debugUnlockNonce (p : Pkt)
  | debugUnlockPresent (p : Pkt) (token : DebugToken)
  | debugUnlockLock (p : Pkt)
  | spdmRequest (r : SpdmReq)
  -- the sideband
  | regRead (addr : BitVec 32)
  | regWrite (addr value : BitVec 32)
  | pkgStatus
  | mboxWrite (off : Nat) (data : List Byte)
  | mboxGo
  | mboxRead (off len : Nat)
  -- queues, replies, events and the host port
  | doorbell (func queue : Nat) (value : BitVec 32)
  | packetTake (queue : Nat)
  | packetStart (queue : Nat) (seq : BitVec 32)
  | replyPost (queue : Nat)
  | qrheadWrite (func queue : Nat) (value : BitVec 32)
  | queueEnable (func : Nat) (value : BitVec 32)
  | queueReset (func : Nat) (value : BitVec 32)
  | irqCoalesceTimer (queue : Nat)
  | eventPost
  | hostPerst (level : Bool)
  | functionLevelReset (func : Nat)
  | hotReset
  | d3hotEntry (func : Nat)
  | d3hotExit (func : Nat)
  | hostBarWrite (func bar off : Nat) (data : List Byte) (poisoned : Bool) (replays : Nat)
  -- wringers, the ream table and the mover
  | wringAccept (die w : Nat)
  | requestOpen (die w : Nat)
  | sheetStream (die w : Nat) (uncorrectable : Bool) (corrected : Nat)
  | partial_ (die w : Nat)
  | append (die w : Nat)
  | appendDone (a : AAt) (slot : Nat)
  | appendResume (die w : Nat)
  | wringerFence (die w cause : Nat)
  | resendTimeout (a : AAt) (slot entry : Nat)
  | resendAfterFlip (a : AAt) (slot entry : Nat)
  | agingPeriod (die : Nat)
  | reamPatrol (die : Nat) (bad : List Nat)
  | lostEntryRewrite (die handle : Nat)
  | migrationStart (die : Nat)
  | migrationCopyDone (die handle : Nat) (srcBad dstBad : Bool)
  | migrationRelease (die handle : Nat)
  | seqIdleTimeout (seq : Nat)
  | retentionCheck (elapsedMs : Nat)
  -- matrix tiles, weight threads and stream engines
  | matmul (a : AAt) (addr : Nat)
  | attend (a : AAt) (addr : Nat)
  | descriptorStart (a : AAt)
  | blockLoad (a : AAt) (quarter : Nat) (parityBad : Bool)
  | passSwap (a : AAt) (quarter : Nat)
  | wringSend (a : AAt) (slot : Nat)
  | partialMerge (a : AAt) (slot : Nat)
  | descriptorComplete (a : AAt) (idx : Nat)
  | staggerRow (a : AAt)
  | threadBlockArrive (die thread pos : Nat)
  | threadFetch (die thread : Nat)
  | streamIssue (die ctx idx addr : Nat)
  | streamBurst (die engine : Nat) (uncorrectable : Bool)
  | streamComplete (die stream : Nat)
  -- contexts and time slicing
  | tileGrant (die : Nat) (kind : TileKind)
  | quantumExpiry (t : TAt)
  | contextSwitch (t : TAt)
  | quiesceDone (t : TAt)
  | saveChecked (t : TAt) (ok : Bool)
  | rinseDone (t : TAt)
  | restoreDone (t : TAt) (imageBad : Bool)
  | completionRingDrain (die ctx : Nat)
  -- fabric
  | tpWord (r : RAt) (port : Nat) (word : BitVec 512) (last : Bool)
  | callRingClaim (r : RAt) (port : Nat)
  | callLanded (r : RAt) (port : Nat)
  | rtpTransfer (r : RAt) (ch : Nat)
  | fmAccess (r : RAt) (blk port addr : Nat) (write : Option (BitVec 64)) (meets : Bool) (bitErrors : Nat)
  | fmWriteback (r : RAt) (blk : Nat)
  | fabricClockEdge (r : RAt) (line : Nat) (falling : Bool) (ins : EdgeIn)
  | darnerScan (die : Nat) (testOk : Bool) (errs : List DarnErr)
  | darnerRetry (die : Nat) (testOk : Bool)
  | selfcheckNow (die : Nat) (testOk : Bool)
  -- networks and region power
  | routerForward (die router : Nat) (pkt : NetPkt)
  | packetDeliver (die node : Nat) (ecc : Nat)
  | txnTimeout (die node txn : Nat)
  | epochSwitch (dies : BitVec 8) (change : EpochChange)
  | epochFlip (die : Nat)
  | epochDrainDone (die : Nat)
  | regionSleepDecision (r : RAt)
  | gatePoint (r : RAt)
  | regionPowerOff (r : RAt)
  | regionWake (r : RAt)
  | wakeRailsReady (r : RAt)
  | ucieRetrain (die router module replays : Nat) (trained : Bool)
  -- memory controllers
  | memoryAccess (die mc : Nat) (arrivals : List MReq) (act : Option Nat) (rep : MemReport)
  | refresh (die mc bank : Nat) (postpone : Bool) (reduce : Nat)
  | rfmIssue (die mc bank : Nat) (reduce : Nat)
  | patrolScrub (die lc : Nat) (severity : Nat)
  | hbmScrubPoll (die mc corrections : Nat)
  | retrainPause (die chan : Nat) (inRange : Bool) (nclk : Nat)
  -- Felt links
  | trainingFrame (die port lane : Nat) (frame : List Byte) (lock : Bool)
  | signalDetect (die port : Nat)
  | linkRetry (die port : Nat)
  | trainingTimeout (die port : Nat)
  | alignMeasureDone (die port : Nat) (lanes : List Nat) (skewNs : Nat) (errPer1e7 : Nat)
  | linkIdle (die port : Nat)
  | heartbeatSend (die port : Nat)
  | heartbeatLoss (die port : Nat)
  | alignmentLoss (die port : Nat)
  | feltFrameRx (die port : Nat) (frame : List Byte) (corrected uncorr : Nat)
  | feltSend (die ring port : Nat)
  | ackTimer (die ring : Nat)
  | e2eRetransmit (die ring : Nat)
  | fold (die port : Nat)
  | foldAck (die port : Nat)
  | wake (die port : Nat) (fromPartner : Bool)
  | wakingTimeout (die port : Nat)
  | foldRetry (die port : Nat)
  | retrain (die port : Nat)
  -- registers
  | pwWrite (path : RegPath) (die : Nat) (off value : BitVec 32)
  | pressGo (path : RegPath) (die : Nat) (mask : BitVec 32)
  | pressCancel (path : RegPath) (die : Nat) (mask : BitVec 32)
  | commit (path : RegPath) (die block : Nat)
  | cfgCrcPass (die block : Nat)
  | readClear (path : RegPath) (die : Nat) (off : BitVec 32)
  | snapshotRead (path : RegPath) (die : Nat) (off : BitVec 32)
  | registerWrite (path : RegPath) (die : Nat) (off value : BitVec 32)
  -- ledger, clocks, package
  | ledgerPeriod (die : Nat) (dieNj : Nat) (fabNj : List Nat) (nclk : Nat) (tempC : Int)
      (refreshed : Nat × Nat)
  | backstopWindow (psiNj : Nat)
  | staticCalibration (die : Nat) (mw : Nat) (tempC : Int)
  | thermalShutdown (die : Nat) (tempC : Int)
  | vinExcursion (k : VinKind)
  | pllLockLoss (die : Nat)
  | dieControllerTimeout (die : Nat)
  | fwRehash (isSame : Bool)
  | packageReset
  | packageResetRelease (f : BootFacts)
  | startUpImageLoad (primary fallback : ImgChk)
  | cfgDoneHigh (die : Nat)
  -- vector words (Table 7-5)
  | nop (t : VAt) (w : VW)
  | rep (t : VAt) (w : VW)
  | halt (t : VAt) (w : VW)
  | fence (t : VAt) (w : VW)
  | press (t : VAt) (w : VW)
  | kadd (t : VAt) (w : VW)
  | kwait (t : VAt) (w : VW)
  | sissue (t : VAt) (w : VW)
  | pbase (t : VAt) (w : VW)
  | plen (t : VAt) (w : VW)
  | pstride (t : VAt) (w : VW)
  | psetp (t : VAt) (w : VW)
  | vstat (t : VAt) (w : VW)
  | vld (t : VAt) (w : VW)
  | vst (t : VAt) (w : VW)
  | vldx (t : VAt) (w : VW)
  | vstx (t : VAt) (w : VW)
  | vmovi (t : VAt) (w : VW)
  | vmov (t : VAt) (w : VW)
  | vbcstH (t : VAt) (w : VW)
  | vbcstW (t : VAt) (w : VW)
  | vaddH (t : VAt) (w : VW)
  | vsubH (t : VAt) (w : VW)
  | vaddW (t : VAt) (w : VW)
  | vsubW (t : VAt) (w : VW)
  | vmulH (t : VAt) (w : VW)
  | vmaxH (t : VAt) (w : VW)
  | vminH (t : VAt) (w : VW)
  | vabsH (t : VAt) (w : VW)
  | vnegH (t : VAt) (w : VW)
  | vand (t : VAt) (w : VW)
  | vor (t : VAt) (w : VW)
  | vxor (t : VAt) (w : VW)
  | vsel (t : VAt) (w : VW)
  | vcmpH (t : VAt) (w : VW)
  | vshlH (t : VAt) (w : VW)
  | vshrH (t : VAt) (w : VW)
  | vclr (t : VAt) (w : VW)
  | vaccLd (t : VAt) (w : VW)
  | vmacH (t : VAt) (w : VW)
  | vmsuH (t : VAt) (w : VW)
  | vmacsH (t : VAt) (w : VW)
  | vmacWh (t : VAt) (w : VW)
  | vrndH (t : VAt) (w : VW)
  | vrndWe (t : VAt) (w : VW)
  | vrndWo (t : VAt) (w : VW)
  | normH (t : VAt) (w : VW)
  | normW (t : VAt) (w : VW)
  | expxH (t : VAt) (w : VW)
  | expxW (t : VAt) (w : VW)
  | bshH (t : VAt) (w : VW)
  | bshW (t : VAt) (w : VW)
  | faddS (t : VAt) (w : VW)
  | fsubS (t : VAt) (w : VW)
  | fmulS (t : VAt) (w : VW)
  | ffmaS (t : VAt) (w : VW)
  | fmaxS (t : VAt) (w : VW)
  | fminS (t : VAt) (w : VW)
  | frcpS (t : VAt) (w : VW)
  | fexp2S (t : VAt) (w : VW)
  | faddB (t : VAt) (w : VW)
  | fsubB (t : VAt) (w : VW)
  | fmulB (t : VAt) (w : VW)
  | ffmaB (t : VAt) (w : VW)
  | fcvtSx (t : VAt) (w : VW)
  | fcvtXs (t : VAt) (w : VW)
  | fcvtSb (t : VAt) (w : VW)
  | fcvtBs (t : VAt) (w : VW)
  | fcvtHs (t : VAt) (w : VW)
  -- four later rows of the table
  | regionReturn (r : RAt) (passMask : BitVec 64)
  | loopsRelocked (die port : Nat)
  | uncorrectableCodewordRatio (die port : Nat) (per1e7 : Nat)
  | sensorMinimumReached
  deriving DecidableEq, Repr

end Sys2Proof
end

