-- ==== Sys2Proof/Machine/Tbl.lean ====
section
/-! DEFINITION. The operations of sparse tables and of byte lists (R8 little-endian; R220 CRC-32C). -/

namespace Sys2Proof.Machine

/-- The first listed entry under `k`. -/
def tfind {α : Type} : Tbl α → Nat → Option α
  | [], _ => none
  | (j, w) :: r, k => if j = k then some w else tfind r k

/-- The entry under `k`, `d` where none is listed. -/
def tget {α : Type} (t : Tbl α) (k : Nat) (d : α) : α := (tfind t k).getD d

/-- `t` with `v` under `k`; keeps the numbers rising. -/
def tput {α : Type} : Tbl α → Nat → α → Tbl α
  | [], k, v => [(k, v)]
  | (j, w) :: r, k, v =>
    if k < j then (k, v) :: (j, w) :: r else if j = k then (k, v) :: r else (j, w) :: tput r k v

/-- `t` without its entries under `k`. -/
def tdel {α : Type} (t : Tbl α) (k : Nat) : Tbl α := t.filter fun e => e.1 != k

/-- `t` with `f` applied to the entry under `k` (or to the default `d`). -/
def tmod {α : Type} (t : Tbl α) (k : Nat) (d : α) (f : α → α) : Tbl α := tput t k (f (tget t k d))

/-- Whether an entry is listed under `k`. -/
def thas {α : Type} (t : Tbl α) (k : Nat) : Bool := (tfind t k).isSome

/-- The listed numbers. -/
def tkeys {α : Type} (t : Tbl α) : List Nat := t.map (·.1)

/-- The listed entries, each rewritten. -/
def tmapv {α : Type} (t : Tbl α) (f : Nat → α → α) : Tbl α := t.map fun e => (e.1, f e.1 e.2)

/-- The least number below `n` (from `i` on, `fuel` tries) that `p` accepts. -/
def leastFrom (p : Nat → Bool) : Nat → Nat → Option Nat
  | 0, _ => none
  | fuel + 1, i => if p i then some i else leastFrom p fuel (i + 1)

/-- The least number below `n` that `p` accepts. -/
def least (n : Nat) (p : Nat → Bool) : Option Nat := leastFrom p n 0

/-- The greatest number below `n` that `p` accepts. -/
def greatest : Nat → (Nat → Bool) → Option Nat
  | 0, _ => none
  | n + 1, p => if p n then some n else greatest n p

/-- The first element of `l` with the least key, `none` of the empty list. -/
def argmin {α : Type} (key : α → Nat) : List α → Option α
  | [] => none
  | a :: r =>
    match argmin key r with
    | none => some a
    | some b => if key a ≤ key b then some a else some b

/-- The first element of `l` with the greatest key. -/
def argmax {α : Type} (key : α → Nat) : List α → Option α
  | [] => none
  | a :: r =>
    match argmax key r with
    | none => some a
    | some b => if key b ≤ key a then some a else some b

/-- `a` put before the first element with a greater or equal key. -/
def insertBy {α : Type} (key : α → Nat) (a : α) : List α → List α
  | [] => [a]
  | b :: r => if key a ≤ key b then a :: b :: r else b :: insertBy key a r

/-- The list by rising key, equal keys in their order. -/
def sortBy {α : Type} (key : α → Nat) (l : List α) : List α := l.foldr (insertBy key) []

/-- The requester that R24 grants: one that has waited through 64 grants to higher classes first, then the best class; in
each case the one granted longest ago (`ord`), which is the round-robin. -/
def grantPick {α : Type} (cls waited ord : α → Nat) (l : List α) : Option α :=
  match argmin ord (l.filter fun a => decide (64 ≤ waited a)) with
  | some a => some a
  | none =>
    match argmin cls l with
    | some a => argmin ord (l.filter fun b => cls b == cls a)
    | none => none

/-- The count of R24 of a requester of class `c` after a grant to class `g`. -/
def waitCount (c g n : Nat) : Nat := if g < c then n + 1 else 0

/-- `b` as a number. -/
def b2n (b : Bool) : Nat := if b then 1 else 0

/-- Bits `hi` to `lo` of a number. -/
def bitsOf (x hi lo : Nat) : Nat := x / 2 ^ lo % 2 ^ (hi + 1 - lo)

/-- Bit `i` of a number. -/
def bitAt (x i : Nat) : Bool := x / 2 ^ i % 2 == 1

/-- Quotient rounded up. -/
def ceilDiv (a b : Nat) : Nat := (a + b - 1) / b

/-- The `n` low bytes of `x`, lowest first (R8). -/
def le : Nat → Nat → List Byte
  | 0, _ => []
  | n + 1, x => BitVec.ofNat 8 x :: le n (x / 256)

/-- The number a byte list spells, lowest byte first (R8). -/
def leNat : List Byte → Nat
  | [] => 0
  | b :: r => b.toNat + 256 * leNat r

/-- `n` zero bytes. -/
def zeros (n : Nat) : List Byte := List.replicate n 0

/-- The number in `n` bytes of `l` from offset `i`. -/
def fieldAt (l : List Byte) (i n : Nat) : Nat := leNat ((l.drop i).take n)

/-- `l` filled with zero bytes to a multiple of `n`. -/
def padTo (n : Nat) (l : List Byte) : List Byte := l ++ zeros (ceilDiv l.length n * n - l.length)

/-- One bit of the reflected CRC-32C (R220: polynomial 0x1EDC6F41, 0x82F63B78 reflected). -/
def crcBit (c : Nat) : Nat := if c % 2 == 1 then Nat.xor (c / 2) 0x82F63B78 else c / 2

/-- One byte of CRC-32C. -/
def crcByte (c : Nat) (b : Byte) : Nat :=
  crcBit (crcBit (crcBit (crcBit (crcBit (crcBit (crcBit (crcBit (Nat.xor c b.toNat))))))))

/-- CRC-32C of a byte list (R220: initial value and final XOR all ones). -/
def crc32c (l : List Byte) : BitVec 32 := BitVec.ofNat 32 (Nat.xor (l.foldl crcByte 0xFFFFFFFF) 0xFFFFFFFF)

end Sys2Proof.Machine
end

