-- ==== Sys2Proof/Machine/Line.lean ====
section
/-! DEFINITION. The line code of the Felt links and of the raw lanes (R264, R355): PAM4 symbols, precoding, PRBS31, RS(544,514)
codewords and their place on the lanes. The tables of IEEE 802.3 that the spec cites without printing them are PRESUMED (log
entry 79): the Gray map, the precoder, the PRBS31 polynomial, the code's field and generator. -/

namespace Sys2Proof.Machine

/-! ## Symbols -/

/-- The PAM4 level of two bits, the first on the line first (Gray-coded). -/
def pam4Of (a b : Bool) : Nat := if a then (if b then 2 else 3) else if b then 1 else 0

/-- The two bits of a PAM4 level. -/
def pam4Bits (n : Nat) : List Bool := [decide (2 ≤ n), decide (n = 1) || decide (n = 2)]

/-- Bits as PAM4 levels, two by two. -/
def pam4Map : List Bool → List Nat
  | a :: b :: r => pam4Of a b :: pam4Map r
  | _ => []

/-- Precoding by 1/(1+D) after the level `prev` (R264). -/
def precode : Nat → List Nat → List Nat
  | _, [] => []
  | prev, g :: r =>
    let p := (g + 4 - prev % 4) % 4
    p :: precode p r

/-- The levels before their precoding. -/
def unprecode : Nat → List Nat → List Nat
  | _, [] => []
  | prev, p :: r => (p + prev) % 4 :: unprecode p r

/-- The first `n` bits of a word, bit 0 first on the line (R264). -/
def wordBits (n w : Nat) : List Bool := (List.range n).map fun i => w.testBit i

/-- Bits as a word, the first as bit 0. -/
def bitsWord (l : List Bool) : Nat := l.foldr (fun b n => 2 * n + (if b then 1 else 0)) 0

/-- Bits on a lane: as they are (NRZ), or as PAM4 levels, precoded where `pre` says so. -/
def laneSymbols (pam4 pre : Bool) (prev : Nat) (l : List Bool) : List Nat :=
  if pam4 then (if pre then precode prev (pam4Map l) else pam4Map l) else l.map fun b => if b then 1 else 0

/-- The bits that a lane's symbols carry. -/
def symbolBits (pam4 pre : Bool) (prev : Nat) (l : List Nat) : List Bool :=
  if pam4 then (if pre then unprecode prev l else l).flatMap pam4Bits else l.map fun n => n == 1

/-- PRBS31, x^31 + x^28 + 1: a check over the bits in order, with the 31 bits before them, the last one as bit 0. Answers the history
after them and whether a bit broke the sequence (R264). -/
def prbs31 : Nat → List Bool → Nat × Bool
  | h, [] => (h, false)
  | h, b :: r =>
    let q := prbs31 ((2 * h + if b then 1 else 0) % 2 ^ 31) r
    (q.1, q.2 || (b != (h.testBit 30 != h.testBit 27)))

/-! ## RS(544,514) (R355) -/

/-- Product in GF(2^10), modulo x^10 + x^3 + 1. -/
def gfMul (a b : Nat) : Nat :=
  (List.range 10).foldl (fun r i =>
    let r2 := if r.testBit 9 then Nat.xor (2 * r % 1024) 9 else 2 * r
    if b.testBit (9 - i) then Nat.xor r2 a else r2) 0

/-- The generator: the product of (x + α^j) for j from 0 to 29, highest power first, without the leading 1. -/
def rsGen : List Nat :=
  let g := (List.range 30).foldl (fun (p : List Nat × Nat) _ =>
    (List.zipWith Nat.xor (p.1 ++ [0]) (0 :: p.1.map fun c => gfMul c p.2), gfMul p.2 2)) ([1], 1)
  g.1.drop 1

/-- The 30 parity symbols of a message. -/
def rsParity (msg : List Nat) : List Nat :=
  msg.foldl (fun p m =>
    let f := Nat.xor m (p.headD 0)
    List.zipWith Nat.xor (p.drop 1 ++ [0]) (rsGen.map fun g => gfMul g f)) (List.replicate 30 0)

/-- A codeword: 514 symbols of payload and 30 of parity. -/
def rsWord (msg : List Nat) : List Nat := msg ++ rsParity msg

/-- A stream of bytes as bits, the low bit of a byte first. -/
def byteBits (l : List Byte) : List Bool := l.flatMap fun b => wordBits 8 b.toNat

/-- Ten bits a symbol. -/
def symbols10 : Nat → List Bool → List Nat
  | 0, _ => []
  | n + 1, l => bitsWord (l.take 10) :: symbols10 n (l.drop 10)

/-- The codewords that a series of bytes fills: 5,140 bits each; what does not fill one waits. -/
def rsWords : Nat → List Bool → List (List Nat)
  | 0, _ => []
  | n + 1, l => if l.length < 5140 then [] else rsWord (symbols10 514 l) :: rsWords n (l.drop 5140)

/-- What a lane carries in one codeword interval: its alignment marker, or its 136 symbols of a codeword. -/
inductive LaneSlot
  | marker (lane : Nat)
  | word (symbols : List Nat)
  deriving DecidableEq, Repr

/-- Lane `k`'s symbols of a codeword: symbol i goes to lane i mod 4. -/
def laneShare (k : Nat) (w : List Nat) : List Nat := (List.range 136).map fun j => w.getD (4 * j + k) 0

/-- A lane's codeword intervals from interval `n` on: of every 1,024 one is a marker. -/
def laneSlots (k : Nat) : Nat → List (List Nat) → List LaneSlot
  | _, [] => []
  | n, w :: r =>
    (if n % 1023 = 0 then [.marker k] else []) ++ .word (laneShare k w) :: laneSlots k (n + 1) r

/-- The symbols of a codeword interval on the line, by rate: PAM4 levels at the PAM4 rates, without precoding. -/
def slotSymbols (pam4 : Bool) (s : LaneSlot) : Option (List Nat) :=
  match s with
  | .marker _ => none
  | .word l => some (laneSymbols pam4 false 0 (l.flatMap fun n => wordBits 10 n))

end Sys2Proof.Machine
end

