-- ==== Sys2Proof/Config.lean ====
section
/-! DEFINITION. The free values: constants without a body, about which nothing can be proved. Each is
named in a row of notes/assumptions/. -/

namespace Sys2Proof

/-- Log entry 7. What a sealed 16-byte unit decrypts to under another key or tweak than the ones it was
written with (R331): XTS-AES-256 of unrelated keys. Arguments: the key the reader used, the reader's tweak,
the key the unit was written under, the unit's own tweak, the stored plaintext byte, the byte's number. -/
opaque Config.unsealOther : Nat → Nat → Nat → Nat → Byte → Nat → Byte

/-- Log entry 8. A digest the spec names (SHA-384, R230, R276, R432) and does not define: any function of
the bytes. -/
opaque Config.sha384 : List Byte → BitVec 384

/-- Log entry 8. AES-256-GCM, which the spec names (R277, R278) and does not define: the byte of the key stream at a place of the
text, and the tag. Arguments: the key, the IV; then the place, or the additional data and the ciphertext. -/
opaque Config.gcmStream : BitVec 256 → List Byte → Nat → Byte
opaque Config.gcmTag : BitVec 256 → List Byte → List Byte → List Byte → BitVec 128

/-- Log entry 83. What Psiurn's ROM derives from the device secret (R420, R426): the public halves of the Ed25519 and ML-DSA-65
identity keys and of the X25519 and ML-KEM-768 wrapping keys. -/
opaque Config.identityEd : BitVec 256 → List Byte
opaque Config.identityPq : BitVec 256 → List Byte
opaque Config.wrapX : BitVec 256 → List Byte
opaque Config.wrapMl : BitVec 256 → List Byte

/-- Log entry 83. The certificate chain of an SPDM slot (R426), another standard's bytes: of the slot, the identity key that it
certifies and the wrapping keys that it carries as extensions. -/
opaque Config.certChain : Nat → List Byte → List Byte → List Byte

/-- Log entry 8. HKDF-SHA-384 with a salt of 48 zero bytes and 32 bytes of output (R429): of the input keying material and the
info. -/
opaque Config.hkdf384 : List Byte → List Byte → BitVec 256

/-- Log entry 9. Bytes the spec calls for and leaves to another standard: an SPDM response (R431) as a
function of the request's bytes, the device's identity and the measurements it reports. -/
opaque Config.spdmBody : List Byte → BitVec 64 → List Byte → List Byte

/-- Log entry 34. The eight check bits that SECDED stores beside a 64-bit word (R247, R269): the spec names the code's
power, not its matrix. -/
opaque Config.secded : BitVec 64 → BitVec 8

/-- Log entry 34. The four check bytes that an LPDDR5X controller stores for a data unit (R334): a Reed-Solomon code over GF(2^8)
whose field and generator the spec does not print. -/
opaque Config.lpCheck : List Byte → BitVec 32

/-- Log entry 10. The `n`-th value the spec leaves open where the machine goes on; each use advances
`State.freeCount`. -/
opaque Config.freeNat : Nat → Nat

/-- Log entry 10. The `n`-th open 256-bit key generated inside the package at boot (R330: sealing slot 0). -/
opaque Config.freeKey : Nat → BitVec 256

/-- Log entry 11. The bits of a 16-bit or 32-bit word that an integer narrowing of an infinite operand keeps
with `ovf` = 0 (FCVT.SX: R175 keeps "the low 32 bits of the rounded integer", and an infinity has none).
Argument: the sign. -/
opaque Config.infLow32 : Bool → BitVec 32

/-- Log entry 48. Bytes of each die's firmware reserve that are left for copies of pattern bundles (R466): the sizes of the other
tables there are not published. -/
opaque Config.bundleRoom : Nat

end Sys2Proof
end

