-- ==== Sys2Proof/Machine/Counters.lean ====
section
/-! DEFINITION. The telemetry counters (R87, R106, R139, R161, R185, R210, R266, R298, R327, R350, R379, R398): their
unit kind, their place in the kind's order and their width. The order within a kind is that of the chapters' tables; where
two tables give one kind counters, the earlier chapter's stand first (log entry 13). -/

namespace Sys2Proof.Machine

/-- A counter: the unit kind of Table 18-6 that keeps it, its place, and whether it is 32 bits wide. -/
structure Ctr where
  kind : Nat
  idx  : Nat
  w32  : Bool
  deriving DecidableEq, Repr

/-! ### Counters of a matrix array (0x02; Table 4-8, then Table 5-8) -/

/-- MT_FLUSH. -/
def mtFlush : Ctr := ⟨2, 0, true⟩
/-- MT_OUT_LOSS. -/
def mtOutLoss : Ctr := ⟨2, 1, true⟩
/-- MT_OUT_SAT. -/
def mtOutSat : Ctr := ⟨2, 2, true⟩
/-- MT_NAN_BLOCKS. -/
def mtNanBlocks : Ctr := ⟨2, 3, true⟩
/-- MT_BUSY_CYCLES. -/
def mtBusyCycles : Ctr := ⟨2, 4, false⟩
/-- MT_PASSES. -/
def mtPasses : Ctr := ⟨2, 5, false⟩
/-- MT_LOAD_STALL. -/
def mtLoadStall : Ctr := ⟨2, 6, false⟩
/-- MT_STAGGER_IDLE. -/
def mtStaggerIdle : Ctr := ⟨2, 7, false⟩
/-- MT_STRAY_PARTIALS. -/
def mtStrayPartials : Ctr := ⟨2, 8, true⟩

/-! ### Counters of a vector tile (0x03; Table 4-8, then Table 7-14) -/

/-- VT_FLUSH. -/
def vtFlush : Ctr := ⟨3, 0, true⟩
/-- VT_SAT. -/
def vtSat : Ctr := ⟨3, 1, true⟩
/-- VT_WORDS. -/
def vtWords : Ctr := ⟨3, 2, false⟩
/-- VT_BUSY_CYCLES. -/
def vtBusyCycles : Ctr := ⟨3, 3, false⟩
/-- VT_STALL_CYCLES. -/
def vtStallCycles : Ctr := ⟨3, 4, false⟩
/-- VT_BANK_CYCLES. -/
def vtBankCycles : Ctr := ⟨3, 5, false⟩
/-- VT_PTR_WRAPS. -/
def vtPtrWraps : Ctr := ⟨3, 6, true⟩

/-! ### Counters of a wringer (0x04; Table 3-10) -/

/-- WR_BYTES_READ. -/
def wrBytesRead : Ctr := ⟨4, 0, false⟩
/-- WR_REMOTE_BYTES. -/
def wrRemoteBytes : Ctr := ⟨4, 1, false⟩
/-- WR_STALL_CYCLES. -/
def wrStallCycles : Ctr := ⟨4, 2, false⟩
/-- WR_REQUESTS. -/
def wrRequests : Ctr := ⟨4, 3, true⟩
/-- WR_SHEETS_READ. -/
def wrSheetsRead : Ctr := ⟨4, 4, true⟩
/-- WR_SHEETS_SKIPPED. -/
def wrSheetsSkipped : Ctr := ⟨4, 5, true⟩
/-- WR_APPEND_TOKENS. -/
def wrAppendTokens : Ctr := ⟨4, 6, true⟩
/-- WR_APPEND_UNDERFLOW. -/
def wrAppendUnderflow : Ctr := ⟨4, 7, true⟩
/-- WR_APPEND_SATURATE. -/
def wrAppendSaturate : Ctr := ⟨4, 8, true⟩
/-- WR_APPEND_NAN_BLOCKS. -/
def wrAppendNanBlocks : Ctr := ⟨4, 9, true⟩
/-- WR_FLUSH. -/
def wrFlush : Ctr := ⟨4, 10, true⟩
/-- WR_NAN_ROWS. -/
def wrNanRows : Ctr := ⟨4, 11, true⟩

/-! ### Counters of a HBM3E controller (0x05) and LPDDR5X controller (0x06): Table 13-5; the kind stands in `mcCtr` -/

/-- MC_READ_BYTES. -/
def mcReadBytes : Ctr := ⟨5, 0, false⟩
/-- MC_WRITE_BYTES. -/
def mcWriteBytes : Ctr := ⟨5, 1, false⟩
/-- MC_CE. -/
def mcCe : Ctr := ⟨5, 2, true⟩
/-- MC_UE. -/
def mcUe : Ctr := ⟨5, 3, true⟩
/-- MC_LINK_RETRY. -/
def mcLinkRetry : Ctr := ⟨5, 4, true⟩
/-- MC_SCRUB_CORR. -/
def mcScrubCorr : Ctr := ⟨5, 5, true⟩
/-- MC_RFM. -/
def mcRfm : Ctr := ⟨5, 6, true⟩
/-- MC_PAUSES. -/
def mcPauses : Ctr := ⟨5, 7, true⟩
/-- MC_PAUSE_NCLK. -/
def mcPauseNclk : Ctr := ⟨5, 8, false⟩
/-- MC_PANIC_GRANTS. -/
def mcPanicGrants : Ctr := ⟨5, 9, false⟩

/-! ### Counters of a tile router (0x07) and die router (0x08): Table 12-15; the kind stands in the router's number -/

/-- RT_FLITS. -/
def rtFlits : Ctr := ⟨7, 0, false⟩
/-- RT_HDR_PARITY. -/
def rtHdrParity : Ctr := ⟨7, 1, true⟩
/-- RT_WAKE_HOLDS. -/
def rtWakeHolds : Ctr := ⟨7, 2, true⟩
/-- RT_ISO_DISCARDS. -/
def rtIsoDiscards : Ctr := ⟨7, 3, true⟩
/-- RT_UCIE_REPLAYS. -/
def rtUcieReplays : Ctr := ⟨7, 4, true⟩

/-! ### Counters of a network interface (0x09; Table 12-15) -/

/-- NI_BYTES_OUT. -/
def niBytesOut : Ctr := ⟨9, 0, false⟩
/-- NI_BYTES_IN. -/
def niBytesIn : Ctr := ⟨9, 1, false⟩
/-- NI_PKTS_OUT. -/
def niPktsOut : Ctr := ⟨9, 2, false⟩
/-- NI_PKTS_IN. -/
def niPktsIn : Ctr := ⟨9, 3, false⟩
/-- NI_LAT_BIN0. -/
def niLatBin0 : Ctr := ⟨9, 4, true⟩
/-- NI_LAT_BIN1. -/
def niLatBin1 : Ctr := ⟨9, 5, true⟩
/-- NI_LAT_BIN2. -/
def niLatBin2 : Ctr := ⟨9, 6, true⟩
/-- NI_LAT_BIN3. -/
def niLatBin3 : Ctr := ⟨9, 7, true⟩
/-- NI_LAT_BIN4. -/
def niLatBin4 : Ctr := ⟨9, 8, true⟩
/-- NI_LAT_BIN5. -/
def niLatBin5 : Ctr := ⟨9, 9, true⟩
/-- NI_LAT_BIN6. -/
def niLatBin6 : Ctr := ⟨9, 10, true⟩
/-- NI_LAT_BIN7. -/
def niLatBin7 : Ctr := ⟨9, 11, true⟩
/-- NI_LAT_BIN8. -/
def niLatBin8 : Ctr := ⟨9, 12, true⟩
/-- NI_LAT_BIN9. -/
def niLatBin9 : Ctr := ⟨9, 13, true⟩
/-- NI_LAT_BIN10. -/
def niLatBin10 : Ctr := ⟨9, 14, true⟩
/-- NI_LAT_BIN11. -/
def niLatBin11 : Ctr := ⟨9, 15, true⟩
/-- NI_LAT_BIN12. -/
def niLatBin12 : Ctr := ⟨9, 16, true⟩
/-- NI_LAT_BIN13. -/
def niLatBin13 : Ctr := ⟨9, 17, true⟩
/-- NI_LAT_BIN14. -/
def niLatBin14 : Ctr := ⟨9, 18, true⟩
/-- NI_LAT_BIN15. -/
def niLatBin15 : Ctr := ⟨9, 19, true⟩
/-- NI_TXN_WAIT. -/
def niTxnWait : Ctr := ⟨9, 20, false⟩
/-- NI_TIMEOUTS. -/
def niTimeouts : Ctr := ⟨9, 21, true⟩
/-- NI_ECC_CORR. -/
def niEccCorr : Ctr := ⟨9, 22, true⟩
/-- NI_ECC_UNCORR. -/
def niEccUncorr : Ctr := ⟨9, 23, true⟩

/-! ### Counters of a Felt port (0x0A; Table 14-15; unit: the port of the die) -/

/-- FL_FRAMES_TX. -/
def flFramesTx : Ctr := ⟨10, 0, false⟩
/-- FL_FRAMES_RX. -/
def flFramesRx : Ctr := ⟨10, 1, false⟩
/-- FL_FEC_CORR. -/
def flFecCorr : Ctr := ⟨10, 2, false⟩
/-- FL_FEC_UNCORR. -/
def flFecUncorr : Ctr := ⟨10, 3, true⟩
/-- FL_CRC_ERR. -/
def flCrcErr : Ctr := ⟨10, 4, true⟩
/-- FL_REPLAYS. -/
def flReplays : Ctr := ⟨10, 5, true⟩
/-- FL_E2E_RETX. -/
def flE2eRetx : Ctr := ⟨10, 6, true⟩
/-- FL_SEQ_DROPS. -/
def flSeqDrops : Ctr := ⟨10, 7, true⟩
/-- FL_FWD_DROPS. -/
def flFwdDrops : Ctr := ⟨10, 8, true⟩
/-- FL_DEPARTS. -/
def flDeparts : Ctr := ⟨10, 9, true⟩

/-! ### Counters of a stream engine (0x0C; Table 6-9) -/

/-- SE_BYTES. -/
def seBytes : Ctr := ⟨12, 0, false⟩
/-- SE_RESERVE_ONLY. -/
def seReserveOnly : Ctr := ⟨12, 1, false⟩
/-- SE_QUEUE_FULL. -/
def seQueueFull : Ctr := ⟨12, 2, true⟩

/-! ### Counters of a region (0x0E; Table 10-13) -/

/-- TP_WORDS_IN. -/
def tpWordsIn : Ctr := ⟨14, 0, false⟩
/-- TP_WORDS_OUT. -/
def tpWordsOut : Ctr := ⟨14, 1, false⟩
/-- TP_CALLS. -/
def tpCalls : Ctr := ⟨14, 2, false⟩
/-- TP_CALL_CUT. -/
def tpCallCut : Ctr := ⟨14, 3, true⟩
/-- TP_CALL_DROP. -/
def tpCallDrop : Ctr := ⟨14, 4, true⟩
/-- RTP_PANICS. -/
def rtpPanics : Ctr := ⟨14, 5, true⟩
/-- RTP_PANIC_CYCLES. -/
def rtpPanicCycles : Ctr := ⟨14, 6, false⟩
/-- RTP_FULL_CYCLES. -/
def rtpFullCycles : Ctr := ⟨14, 7, false⟩
/-- RTP_EMPTY_CYCLES. -/
def rtpEmptyCycles : Ctr := ⟨14, 8, false⟩
/-- FM_CORRECTED. -/
def fmCorrected : Ctr := ⟨14, 9, true⟩
/-- FM_UNCORRECTED. -/
def fmUncorrected : Ctr := ⟨14, 10, true⟩
/-- FB_ILLEGAL_SEL. -/
def fbIllegalSel : Ctr := ⟨14, 11, true⟩

/-! ### Counters of a die (0x0F; Table 8-9, Table 11-15, the host port's rows of Table 14-15, Table 15-10) -/

/-- CX_SWITCHES. -/
def cxSwitches : Ctr := ⟨15, 0, false⟩
/-- CX_SWITCH_CYCLES. -/
def cxSwitchCycles : Ctr := ⟨15, 1, false⟩
/-- CX_PREEMPTS. -/
def cxPreempts : Ctr := ⟨15, 2, true⟩
/-- CX_SAVE_RETRIES. -/
def cxSaveRetries : Ctr := ⟨15, 3, true⟩
/-- KN_ADDS. -/
def knAdds : Ctr := ⟨15, 4, false⟩
/-- KN_WAKES. -/
def knWakes : Ctr := ⟨15, 5, false⟩
/-- KN_STRAY_ADDS. -/
def knStrayAdds : Ctr := ⟨15, 6, true⟩
/-- KN_OWNER_LOST. -/
def knOwnerLost : Ctr := ⟨15, 7, true⟩
/-- DN_ROUNDS. -/
def dnRounds : Ctr := ⟨15, 8, false⟩
/-- DN_CORRECTED. -/
def dnCorrected : Ctr := ⟨15, 9, true⟩
/-- DN_UNCORRECTED. -/
def dnUncorrected : Ctr := ⟨15, 10, true⟩
/-- DN_SELFCHECK_FAIL. -/
def dnSelfcheckFail : Ctr := ⟨15, 11, true⟩
/-- CF_LOADS. -/
def cfLoads : Ctr := ⟨15, 12, true⟩
/-- CF_ABORTS. -/
def cfAborts : Ctr := ⟨15, 13, true⟩
/-- HP_WRITES_IN. -/
def hpWritesIn : Ctr := ⟨15, 14, false⟩
/-- HP_WRITES_OUT. -/
def hpWritesOut : Ctr := ⟨15, 15, false⟩
/-- HP_REPLAYS. -/
def hpReplays : Ctr := ⟨15, 16, true⟩
/-- HP_POISONED. -/
def hpPoisoned : Ctr := ⟨15, 17, true⟩
/-- LG_DEFERRALS. -/
def lgDeferrals : Ctr := ⟨15, 18, true⟩
/-- LG_STEP_DOWNS. -/
def lgStepDowns : Ctr := ⟨15, 19, true⟩
/-- LG_STEPPED_PERIODS. -/
def lgSteppedPeriods : Ctr := ⟨15, 20, false⟩
/-- LG_BACKSTOPS. -/
def lgBackstops : Ctr := ⟨15, 21, true⟩

/-! ### Counters of a thread slot (0x12; Table 6-9) -/

/-- TH_FETCHED. -/
def thFetched : Ctr := ⟨18, 0, false⟩
/-- TH_FORWARDED. -/
def thForwarded : Ctr := ⟨18, 1, false⟩
/-- TH_LEAD_WAIT. -/
def thLeadWait : Ctr := ⟨18, 2, false⟩
/-- TH_GAP_BLOCKS. -/
def thGapBlocks : Ctr := ⟨18, 3, true⟩
/-- TH_MISMATCH. -/
def thMismatch : Ctr := ⟨18, 4, true⟩

/-- How many counters a unit of the kind keeps, and which of them are 32 bits wide. -/
def ctrWidths (kind : Nat) : List Bool :=
  match kind with
  | 2 => [mtFlush.w32, mtOutLoss.w32, mtOutSat.w32, mtNanBlocks.w32, mtBusyCycles.w32, mtPasses.w32, mtLoadStall.w32, mtStaggerIdle.w32, mtStrayPartials.w32]
  | 3 => [vtFlush.w32, vtSat.w32, vtWords.w32, vtBusyCycles.w32, vtStallCycles.w32, vtBankCycles.w32, vtPtrWraps.w32]
  | 4 => [wrBytesRead.w32, wrRemoteBytes.w32, wrStallCycles.w32, wrRequests.w32, wrSheetsRead.w32, wrSheetsSkipped.w32, wrAppendTokens.w32, wrAppendUnderflow.w32, wrAppendSaturate.w32, wrAppendNanBlocks.w32, wrFlush.w32, wrNanRows.w32]
  | 5 | 6 => [mcReadBytes.w32, mcWriteBytes.w32, mcCe.w32, mcUe.w32, mcLinkRetry.w32, mcScrubCorr.w32, mcRfm.w32, mcPauses.w32, mcPauseNclk.w32, mcPanicGrants.w32]
  | 7 | 8 => [rtFlits.w32, rtHdrParity.w32, rtWakeHolds.w32, rtIsoDiscards.w32, rtUcieReplays.w32]
  | 9 => [niBytesOut.w32, niBytesIn.w32, niPktsOut.w32, niPktsIn.w32, niLatBin0.w32, niLatBin1.w32, niLatBin2.w32, niLatBin3.w32, niLatBin4.w32, niLatBin5.w32, niLatBin6.w32, niLatBin7.w32, niLatBin8.w32, niLatBin9.w32, niLatBin10.w32, niLatBin11.w32, niLatBin12.w32, niLatBin13.w32, niLatBin14.w32, niLatBin15.w32, niTxnWait.w32, niTimeouts.w32, niEccCorr.w32, niEccUncorr.w32]
  | 10 => [flFramesTx.w32, flFramesRx.w32, flFecCorr.w32, flFecUncorr.w32, flCrcErr.w32, flReplays.w32, flE2eRetx.w32, flSeqDrops.w32, flFwdDrops.w32, flDeparts.w32]
  | 12 => [seBytes.w32, seReserveOnly.w32, seQueueFull.w32]
  | 14 => [tpWordsIn.w32, tpWordsOut.w32, tpCalls.w32, tpCallCut.w32, tpCallDrop.w32, rtpPanics.w32, rtpPanicCycles.w32, rtpFullCycles.w32, rtpEmptyCycles.w32, fmCorrected.w32, fmUncorrected.w32, fbIllegalSel.w32]
  | 15 => [cxSwitches.w32, cxSwitchCycles.w32, cxPreempts.w32, cxSaveRetries.w32, knAdds.w32, knWakes.w32, knStrayAdds.w32, knOwnerLost.w32, dnRounds.w32, dnCorrected.w32, dnUncorrected.w32, dnSelfcheckFail.w32, cfLoads.w32, cfAborts.w32, hpWritesIn.w32, hpWritesOut.w32, hpReplays.w32, hpPoisoned.w32, lgDeferrals.w32, lgStepDowns.w32, lgSteppedPeriods.w32, lgBackstops.w32]
  | 18 => [thFetched.w32, thForwarded.w32, thLeadWait.w32, thGapBlocks.w32, thMismatch.w32]
  | _ => []

/-- The key of a unit's counter in `Die.ctrs`. -/
def ctrKey (kind unit idx : Nat) : Nat := kind * 2 ^ 24 + unit * 2 ^ 6 + idx

end Sys2Proof.Machine
end

