-- ==== Sys2Proof/Machine/State.lean ====
section
/-! DEFINITION. The state of the block, as plain data, and the state right after reset. Each field's comment
gives its width (or kind), the rule of spec/ that names it and its reset value. `DC n` = DESIGN CHOICE, log
entry n; `PR n` = PRESUMED, log entry n. -/

namespace Sys2Proof.Machine

/-- Byte memory in one canonical form: addresses strictly rising, no entry equal to 0, which is what an
unlisted address reads as (log entry 3). -/
abbrev Memory := List Host.Cell

/-! ## Small closed types -/

/-- The status codes of Table 9-11 (R224). -/
inductive Status
  | ok | deferredEnergy | deferredCapacity | badOpcode | badParam | noSheets | queueFull | authFail
  | sigClassicFail | sigPqFail | stateLost | ownerLost | unitFenced | regionUnconfigured | deckleViolation
  | imageCrc
  deriving DecidableEq, Repr

/-- A value of the accumulator kind (R96) or an exact operand: (-1)^neg × m × 2^e, an infinity, or NaN. -/
inductive Num
  | fin (neg : Bool) (m : Nat) (e : Int)
  | inf (neg : Bool)
  | nan
  deriving DecidableEq, Repr

/-- Sequence states (Table 2-3). A sequence that is not open is not in the table. -/
inductive SeqState | active | suspended | lost
  deriving DecidableEq, Repr

/-- Sheet states (Table 2-8). -/
inductive SheetState | free | tail | full | moving | dropped | lost
  deriving DecidableEq, Repr

/-- Context states (Table 8-3). -/
inductive CtxState | created | ready | running | saving | waiting | failed
  deriving DecidableEq, Repr

/-- Queue states (Table 9-2, Table 9-5). -/
inductive QState | disabled | enabled | error | draining
  deriving DecidableEq, Repr

/-- Fabric configuration states (Table 11-11). -/
inductive FabState | unconfigured | loading | configured
  deriving DecidableEq, Repr

/-- Region power states (Table 12-12). -/
inductive PState | awake | draining | asleep | waking
  deriving DecidableEq, Repr

/-- Felt link states (Table 14-3). -/
inductive LState | down | detect | discover | equalise | align | active | idle | folded | waking | claimed
  deriving DecidableEq, Repr

/-- Channel states (Table 13-4). -/
inductive ChState | active | selfRefresh | absent | lost
  deriving DecidableEq, Repr

/-- Where the package stands: held in reset; boot waiting for temperature (R456); booting; running; boot stopped
(R423); package-fatal (R29). -/
inductive PkgState | inReset | cold | running | bootStopped | fatal
  deriving DecidableEq, Repr

/-- The variant (Table 0-1). -/
inductive Variant | skz2 | skz4 | skz8
  deriving DecidableEq, Repr

/-- The phase of a context switch on a tile (Table 8-4). -/
inductive SwPhase | none | quiescing | saving | rinsing | restoring
  deriving DecidableEq, Repr

/-! ## The part, the pins and the package -/

/-- The part as built. -/
structure Part where
  /-- 2, 4 or 8 dies; R1, R2 (00_scope), R11; reset: by part, DC 1 (SKZ-8) -/
  variant : Variant
  /-- 1 bit; R2 speed grade B; by part, DC 1 (A) -/
  gradeB  : Bool
  /-- 1 bit; R2 junction range I; by part, DC 1 (C) -/
  gradeI  : Bool
  /-- 1 bit; R2, R5 -P; by part, DC 1 (not provisioned) -/
  prov    : Bool
  /-- 8 bits; R417 silicon revision, "counted from 0x01"; by part, DC 1 (1) -/
  silicon : BitVec 8
  /-- 256 bits OTP; R420 device secret; by part, DC 1 (0) -/
  secret  : BitVec 256
  /-- 16 bits; R465 PCI-SIG vendor ID; by part, DC 1 (0) -/
  vendor  : Nat
  deriving DecidableEq, Repr

/-- `ident`: the first 8 bytes of the SHA-384 of the Ed25519 identity public key (Table 14-2). -/
def Part.ident (p : Part) : BitVec 64 := (Config.sha384 (Config.identityEd p.secret)).setWidth 64

/-- The public halves of the four key pairs (R420, Table 17-1). -/
structure DevKeys where
  identityEd : List Byte
  identityPq : List Byte
  wrapX      : List Byte
  wrapMl     : List Byte
  deriving DecidableEq, Repr

/-- The package-level pins and what the board drives on them (R459, Table 19-6). -/
structure Pins where
  /-- level; R459 PKG_RST_N; DC 2 (low: in reset) -/
  pkgRstN : Bool
  /-- level; R377 PERST_N; DC 2 (low) -/
  perstN  : Bool
  /-- strap; R279 PULL_SEL as the board ties it; DC 2 (low) -/
  pullSel : Bool
  /-- strap; R279 CFG_SRC as the board ties it; DC 2 (high) -/
  cfgSrc  : Bool
  /-- mV; R454 VIN; DC 2 (48,000) -/
  vinMv   : Nat
  /-- output; R459 PWR_OK; 0 -/
  pwrOk   : Bool
  /-- output; R281 the package releases CFG_DONE; 0 (pulled low) -/
  cfgDone : Bool
  deriving DecidableEq, Repr

/-- Firmware that runs (R421, R465). -/
structure FwInfo where
  /-- 32 bits; R465 `fw_version`; DC 1 (0) -/
  version : BitVec 32
  /-- R271, R465 `sec_version` of the running image; 0 until boot -/
  secVersion : Nat
  /-- 384 bits; R432 index 1; 0 until boot -/
  digest  : BitVec 384
  deriving DecidableEq, Repr

/-- Debug unlock (R434). -/
structure Debug where
  /-- 128 bits or none; R434; none -/
  nonce   : Option (BitVec 128)
  /-- count; R434 failed presentations since package reset; 0 -/
  failed  : Nat
  /-- 8 bits; R433 scope of the token in force; 0 (locked) -/
  scope   : BitVec 8
  /-- 8 bits; R433 dies unlocked; 0 -/
  dies    : BitVec 8
  deriving DecidableEq, Repr

/-- An SPDM responder's memory (R431). -/
structure Spdm where
  /-- 384 bits or none; R431 transcript hash that the last CHALLENGE_AUTH or signed MEASUREMENTS signed; none -/
  signed : Option (BitVec 384)
  /-- bytes; R431 the last response; empty -/
  resp   : List Byte
  /-- 1 bit; R431 the last response was an SPDM ERROR with UnexpectedRequest; 0 -/
  unexpected : Bool
  deriving DecidableEq, Repr

/-- A packet taken from a window (R219, R221). -/
structure TakenPkt where
  barrier : Bool
  quiet   : Bool
  irq     : Bool
  opcode  : Nat
  seq     : BitVec 32
  tenant  : Nat
  context : Nat
  tag     : BitVec 32
  params  : List Byte
  payload : List Byte
  deriving DecidableEq, Repr

/-- The sideband (R435). -/
structure Sideband where
  /-- 8 KiB; R435 mailbox; zeros (DC 4) -/
  mbox   : Memory
  /-- bytes or none; R435 the mailbox's reply entry; none -/
  reply  : Option (List Byte)
  /-- R435 the mailbox's packet that passed its checks and has not replied; none -/
  pkt    : Option TakenPkt := none
  /-- 32 bits; R435 the mailbox's own sequence counter; 0 -/
  seq    : BitVec 32
  /-- bytes; R435 response to the last command; empty -/
  resp   : List Byte
  deriving DecidableEq, Repr

/-- Psiurn (R420 to R435, R390, R391). -/
structure Psiurn where
  /-- R29, R423, R435 state; inReset -/
  state     : PkgState
  /-- 0 to 6; R435 fatal cause in R29's order; 0 -/
  cause     : Nat
  /-- status; R435, R418 status of the last start-up failure; OK -/
  status    : Status
  /-- 1 to 10; R418 `cfg_step`; 1 -/
  cfgStep   : Nat
  /-- strap; R279, R417 sampled CFG_SRC; 0 (DC 4) -/
  strapCfg  : Bool
  /-- strap; R279, R417 sampled PULL_SEL; 0 (DC 4) -/
  strapPull : Bool
  /-- 1 bit; R418 `fallback`; 0 -/
  fallback  : Bool
  /-- Boot facts held while boot waits at step 1 for temperature (R456); none -/
  coldBoot  : Option BootFacts
  /-- °C; R456 Psiurn's hotter sensor; DC 2 (25) -/
  tempC     : Int
  /-- 8 entries; R420 signing entries 0 to 7 of the key store; DC 1 (0 and 1 by part, 2 to 7 empty) -/
  signing   : Tbl SignEntry
  /-- R420, R422 step 2 the key pairs derived at this boot; none -/
  keys      : Option DevKeys := none
  /-- R426 SPDM certificate slots 0 and 1; none before the keys are derived -/
  certs     : Tbl (List Byte) := []
  /-- 16 entries of 256 bits; R420 image keys; empty -/
  imageKeys : Tbl (BitVec 256)
  /-- 0 to 63; R420 firmware minimum; DC 1 (0) -/
  fwMin     : Nat
  /-- 0 to 63; R420 configuration minimum; DC 1 (0) -/
  cfgMin    : Nat
  /-- R421, R465 running firmware -/
  fw        : FwInfo
  /-- 4 GiB; R280, R421 configuration flash (on the board); DC 4 (zeros) -/
  flash     : Memory
  /-- R434 -/
  dbg       : Debug
  /-- R431 -/
  spdm      : Spdm
  /-- R435 -/
  sideband  : Sideband
  /-- mW; R390 package power limit P; the variant's limit -/
  pMw       : Nat
  /-- mW; R390 real-time reserve R; 5,000 -/
  rMw       : Nat
  /-- nJ per die; R391 DIE_ENERGY at the last window's reading; 0 -/
  lastNj    : Tbl Nat
  /-- nJ; R391 sum of the latest window; 0 -/
  windowNj  : Nat
  deriving DecidableEq, Repr

/-! ## Replies, events, queues and functions (chapters 9, 18) -/

/-- A completed reply on its way to the ring (R222, R223). -/
structure Reply where
  opcode  : Nat
  seq     : BitVec 32
  status  : Status
  detail  : BitVec 32
  params  : List Byte
  payload : List Byte
  tag     : BitVec 32
  seqErr  : Bool
  more    : Bool
  irq     : Bool
  deriving DecidableEq, Repr

/-- An event (R441, R442): its code and the 32-byte record's fields; 0xFF or 0xFFFF for none. -/
structure Event where
  code     : Nat
  kind     : Nat
  level    : Nat
  die      : Nat
  region   : Nat
  unitKind : Nat
  unit     : Nat
  tenant   : Nat
  seq      : Nat
  arg0     : Nat
  arg1     : Nat
  time     : Nat
  status   : Status
  detail   : BitVec 32
  deriving DecidableEq, Repr

/-- One entry the device wrote into a reply ring (R222): its first unit, its length in units, its header's
fields and its body. -/
structure RingEntry where
  unit    : Nat
  units   : Nat
  phase   : Bool
  event   : Bool
  pad     : Bool
  seqErr  : Bool
  more    : Bool
  opcode  : Nat
  seq     : BitVec 32
  status  : Status
  detail  : BitVec 32
  params  : List Byte
  payload : List Byte
  crc     : BitVec 32
  tag     : BitVec 32
  floor   : BitVec 32
  deriving DecidableEq, Repr

/-- One hardware command queue (R212, R215 to R222, R235). -/
structure Queue where
  /-- 2 bits; R215 `qstate`; DISABLED -/
  st        : QState
  /-- R212 home die; 0 -/
  home      : Nat
  /-- R212 class 0 to 3; queue 0 management (3), DC 4 for the others (3) -/
  cls       : Nat
  /-- R212 tenant binding, 0xFF none; 0xFF -/
  tenant    : Nat
  /-- R212 function; 0 -/
  func      : Nat
  /-- 64 bits; R218 reply ring base; 0 -/
  base      : BitVec 64
  /-- 5 bits; R218 `log2size`; 0x13 -/
  log2size  : Nat
  /-- 9 bits; R216 window write pointer; 0 -/
  wr        : Nat
  /-- 9 bits; R216 window read pointer; 0 -/
  rd        : Nat
  /-- 32 bits; R218 `exp_seq`; 0 -/
  expSeq    : BitVec 32
  /-- 20 bits; R218 `head`; 0 -/
  head      : Nat
  /-- 20 bits; R218 `tail`; 0 -/
  tail      : Nat
  /-- 1 bit; R218 `phase`; 1 -/
  phase     : Bool
  /-- 1 bit RC; R218 `err_die`; 0 -/
  errDie    : Bool
  /-- 1 bit RC; R218 `err_frame`; 0 -/
  errFrame  : Bool
  /-- 1 bit RC; R218 `err_win`; 0 -/
  errWin    : Bool
  /-- 11 bits; R218 `vector`; 0 -/
  vector    : Nat
  /-- 1 bit; R218 `irq_en`; 0 -/
  irqEn     : Bool
  /-- 8 bits; R218 `coal_count`; 1 -/
  coalCount : Nat
  /-- 12 bits; R218 `coal_us`; 0 -/
  coalUs    : Nat
  /-- count; R235 replies since the vector was last raised; 0 -/
  coalDone  : Nat
  /-- 16 KiB; R216 window; zeros (DC 4) -/
  window    : Memory
  /-- bytes; R216 the part of the next packet already taken; empty -/
  asm       : List Byte
  /-- R225 framed packets that wait to start; empty -/
  taken     : List TakenPkt
  /-- R225 packets started and not completed; empty -/
  started   : List TakenPkt
  /-- MODEL'S OWN: how often the queue was reset (R236), which tells a packet of an earlier life from one of this; 0 -/
  life      : Nat := 0
  /-- R236 packets that had started when the queue was reset, with their life: they complete and post no reply any more;
  empty -/
  old       : List (Nat × TakenPkt)
  /-- R227 completed replies not yet posted; empty -/
  held      : List Reply
  /-- R222 entries written into the ring, oldest first; empty -/
  posted    : List RingEntry
  /-- R230 packet of the QUEUE_DESTROY that waits for the drain; none -/
  destroyer : Option Pkt
  deriving DecidableEq, Repr

/-- One PCI Express function (R234, R374, R377). -/
structure Func where
  /-- R234 event queue or none; function 0: queue 0, others none -/
  evQueue : Option Nat
  /-- 64 bits; R234 kind mask; all kinds -/
  mask    : BitVec 64
  /-- 32 bits; R234 event number; 0 -/
  evNo    : BitVec 32
  /-- R234 events held while the ring is full (at most 1,024); empty -/
  held    : List (BitVec 32 × Event)
  /-- R234 events discarded since the last events-lost event; 0 -/
  lost    : Nat
  /-- 1 bit; R377 the function is in D3hot; 0 -/
  d3      : Bool
  /-- 64 KiB; R374 BAR4, MSI-X table and PBA; zeros, PR 5 -/
  bar4    : Memory
  deriving DecidableEq, Repr

/-! ## Tenants, models, sequences, dispatches (chapter 2, R229 to R233) -/

/-- A tenant (R32, R193, R51). -/
structure Tenant where
  /-- ACLK cycles; R193; by TENANT_CREATE -/
  quantum : Nat
  /-- ms; R35 idle time; by TENANT_CREATE -/
  idleMs  : Nat
  /-- s, 0 none; R51 resume lifetime; by TENANT_CREATE -/
  resumeS : Nat
  /-- R230 packet of the TENANT_DESTROY that waits for queues and keys; none -/
  destroy : Option Pkt
  deriving DecidableEq, Repr

/-- A model instance (R33, R230, R466). -/
structure Model where
  tenant  : Nat
  layers  : Nat
  h       : Nat
  d       : Nat
  fmt     : Nat
  thr     : Nat
  wBytes  : Nat
  bBytes  : Nat
  /-- Written bundle bytes (R230 MODEL_WRITE part 1). -/
  bundleMem : Memory
  /-- Written weight bytes, keyed die × 2^40 + offset (R230 MODEL_WRITE part 0). -/
  weightMem : Memory
  /-- R466 frames of the scratch areas allocated so far, keyed die × 65,536 + area, in the order dealt. -/
  areas   : Tbl (List Nat)
  /-- R230 committed, with the bundle as read. -/
  bundle  : Option Bundle
  /-- 384 bits; R230 MODEL_COMMIT digest. -/
  digest  : BitVec 384
  /-- R151 a weight block of the instance was unreadable: its dispatches end UNIT_FENCED until reloaded. -/
  poisoned : Bool
  /-- R466 its bundle copies lie outside the firmware reserve; 0 -/
  bundleOut : Bool := false
  deriving DecidableEq, Repr

/-- One sheet as firmware's own sequence records list it (R44): handle, layer, index, first token. -/
structure SheetRec where
  handle : Nat
  layer  : Nat
  index  : Nat
  deriving DecidableEq, Repr

/-- A sequence (R34 to R37, R47, R51, R53). -/
structure Sequence where
  /-- R35 -/
  st      : SeqState
  tenant  : Nat
  model   : Nat
  /-- R34 home region (the home die is number ÷ 2,048) -/
  region  : Nat
  /-- R37 position counter, 0 to 2^24 -/
  pos     : Nat
  /-- R51 retention class 0 to 2 -/
  cls     : Nat
  /-- R47 die spread has begun -/
  dieSpread : Bool
  /-- R44 firmware's record of the sequence's handles -/
  sheets  : List SheetRec
  /-- R226 the admitted step that holds the sequence -/
  heldBy  : Option Nat
  /-- R48, R55 when it was last stepped, as a count of admissions -/
  stepped : Nat
  /-- R51 ms since it last became SUSPENDED -/
  suspMs  : Nat
  /-- R51 SUSPENDED since the last check; 0 -/
  suspNew : Bool := false
  /-- R35 SEQ_LOST was posted (or the reply to STATE_IDLE reported it) -/
  lostTold : Bool
  deriving DecidableEq, Repr

/-- The outcome of one entry of a running dispatch (Table 9-15). -/
structure EntryRun where
  seq    : Nat
  nTok   : Nat
  inOff  : Nat
  inLen  : Nat
  status : Status
  fp     : Nat
  /-- Tail sheets touched by the step with their token count before it (R37): handle, count, taken at admission. -/
  tails  : List (Nat × Nat × Bool)
  /-- First lost token to report with STATE_LOST. -/
  lostTok : Nat
  deriving DecidableEq, Repr

/-- A completion record and the context that wrote it (R118, R190, R233). -/
structure RecOut where
  ctx    : Nat
  tag    : Nat
  status : Status
  fp     : Nat
  deriving DecidableEq, Repr

/-- A dispatch that runs (R231 to R233, R394, R395). -/
structure Dispatch where
  pkt     : Pkt
  model   : Nat
  list    : Nat
  cls     : Nat
  outUnits : Nat
  entries : List EntryRun
  payload : List Byte
  /-- Contexts of the list (package-wide numbers) with the entries each serves, those still to end first. -/
  ctxs    : List (Nat × List Nat)
  /-- R467 the sheet list of each sequence and layer, keyed sequence × 256 + layer, as words. -/
  lists   : Tbl (List Nat)
  recs    : List RecOut
  /-- R394 planned energy (nJ) per die and its duration in periods. -/
  planned : List (Nat × Nat)
  periods : Nat
  /-- Ledger periods gone since admission, per die (for the `detail` of R395). -/
  age     : List (Nat × Nat)
  deriving DecidableEq, Repr

/-- A STATE_IDLE in progress (R52): the packet, what its reply will report, the dies still to finish. -/
structure IdleOp where
  pkt   : Pkt
  bytes : List (BitVec 8)
  left  : List Nat
  deriving DecidableEq, Repr

/-! ## Memory places, the ream table and the mover (chapter 2) -/

/-- A frame of a channel (Table 2-5 word 8). -/
structure Loc where
  /-- false HBM3E, true LPDDR5X -/
  tier  : Bool
  stack : Nat
  chan  : Nat
  frame : Nat
  deriving DecidableEq, Repr

/-- A ream table entry (R40, Table 2-5). -/
structure Ream where
  /-- 3 bits; R45 -/
  st    : SheetState
  /-- 2 bits; R51 -/
  cls   : Nat
  /-- 3 bits; R41 -/
  fmt   : Nat
  /-- 6 bits; R40 -/
  tenant : Nat
  /-- 14 bits; R34 -/
  seq   : Nat
  /-- 8 bits; R40 -/
  layer : Nat
  /-- 24 bits; R40 -/
  first : Nat
  /-- 1 + 1 + 5 + 15 bits; R40 -/
  loc   : Loc
  /-- 8 bits; R40, R50: the seal slot -/
  slot  : Nat
  /-- 14 bits; R43 -/
  tok   : Nat
  /-- 8 bits; R43 -/
  acc   : Nat
  /-- 1 bit; R48 -/
  pin   : Bool
  deriving DecidableEq, Repr

/-- A copy of the mover under way (Table 2-11): the sheet, its old place, the reserved place, its state before, and
whether the entry has flipped (steps 6 and 7 remain). -/
structure Copy where
  handle : Nat
  src    : Loc
  dst    : Loc
  prev   : SheetState
  flipped : Bool
  deriving DecidableEq, Repr

/-- What a 16-byte unit of device memory was sealed under (R331): data key and tweak. -/
structure Seal where
  key   : Nat
  tweak : Nat
  deriving DecidableEq, Repr

/-! ## Wringers (chapter 3) -/

/-- A wring or append request (R58, R59). -/
structure WReq where
  isAppend : Bool
  causal   : Bool
  winFlag  : Bool
  sinkFlag : Bool
  padFlag  : Bool
  bias     : Nat
  tag      : Nat
  seq      : Nat
  layer    : Nat
  tenant   : Nat
  cls      : Nat
  h        : Nat
  g        : Nat
  t        : Nat
  qFmt     : Nat
  d        : Nat
  handles  : List Nat
  pos0     : Nat
  window   : Nat
  sinks    : Nat
  scale    : BitVec 32
  pad0lo   : Nat
  pad0hi   : Nat
  pad1lo   : Nat
  pad1hi   : Nat
  /-- Where the reply goes: die, tile, array, merge slot. -/
  rDie     : Nat
  rTile    : Nat
  rArr     : Nat
  rSlot    : Nat
  /-- R9: every reserved bit is zero. -/
  resZero  : Bool
  /-- Bias part: binary32 slopes, or bfloat16 table entries (R59). -/
  biasTab  : List Nat
  /-- Query rows, or keys and values, as bytes (R59). -/
  body     : List Byte
  /-- The channel the request is addressed to (R56) and the wringer its epoch's map named. -/
  chan     : Nat
  w        : Nat
  epoch    : Bool
  deriving DecidableEq, Repr

/-- A wringer reply (R63, R64). -/
structure WRep where
  isAppend : Bool
  empty    : Bool
  nan      : Bool
  redirected : Bool
  remote   : Bool
  lpddr    : Bool
  tag      : Nat
  status   : Status
  w        : Nat
  die      : Nat
  seq      : Nat
  layer    : Nat
  fp       : Nat
  /-- Row records: m, l and the o values (R64). -/
  rows     : List (BitVec 32 × BitVec 32 × List (BitVec 32))
  lostIdx  : Nat
  lostTok  : Nat
  countA   : Nat
  countB   : Nat
  rDie     : Nat
  rTile    : Nat
  rArr     : Nat
  rSlot    : Nat
  chan     : Nat
  deriving DecidableEq, Repr

/-- A row under computation (R69): running maximum, sum, output, and whether it is a NaN row (R72). -/
structure WRow where
  m   : BitVec 32
  l   : BitVec 32
  o   : List (BitVec 32)
  nan : Bool
  deriving DecidableEq, Repr

/-- A resolved handle (R61, R62). -/
structure Resolved where
  handle : Nat
  loc    : Loc
  fmt    : Nat
  first  : Nat
  tok    : Nat
  slot   : Nat
  deriving DecidableEq, Repr

/-- A request that is open at a wringer (R57, R61, R62). -/
structure WOpen where
  req    : WReq
  res    : List Resolved
  /-- Sheets done so far, in request order (R69). -/
  done   : Nat
  rows   : List WRow
  fp     : Nat
  scores : Nat
  skipped : Nat
  lost   : Nat
  sat    : Nat
  remote : Bool
  lpddr  : Bool
  /-- The status that ends the request early, with lost_index and lost_tok. -/
  fail   : Option (Status × Nat × Nat)
  /-- Consecutive grants to higher classes while it waited (R24). -/
  waited : Nat
  /-- An append held on a MOVING tail (R73). -/
  hold   : Bool
  deriving DecidableEq, Repr

/-- A wringer (R57). -/
structure Wringer where
  /-- 128 KiB; R57 requests in the input buffer, in arrival order; empty -/
  input : List WReq
  /-- R57 at most 8 open requests (512 KiB row store); empty -/
  openR : List WOpen
  deriving DecidableEq, Repr

/-! ## Matrix tiles (chapter 5) -/

/-- A stationary block in the front or back registers (R111, R120): its place in the pass order, and for each column
the K values with their block scale. -/
structure Blk where
  mc   : Nat
  nb   : Nat
  kb   : Nat
  cols : List (List Num)
  deriving DecidableEq, Repr

/-- A MATMUL that has started (R117 to R122). -/
structure Run where
  /-- 512 bits; R115 the descriptor -/
  desc   : BitVec 512
  /-- R124 the quarter it runs in (0 in normal mode) -/
  quarter : Nat
  /-- The context that issued it (per-die number). -/
  ctx    : Nat
  /-- R119 the next block to load: index in the pass order -/
  loadIx : Nat
  /-- R119 passes streamed -/
  passIx : Nat
  /-- R127 rows of the current staggered pass already taken -/
  rowIx  : Nat
  /-- R120 the pass token has passed (no pass streams) -/
  token  : Bool
  /-- R129, R134 words of the tile at `outTile` already in the output FIFO -/
  outIx  : Nat
  /-- R122 the bank of its first (chunk, N block); the later ones alternate -/
  bank0  : Nat := 0
  /-- R122 (chunk, N block)s whose bank the epilogue has read to its end -/
  outTile : Nat := 0
  /-- R118, R131 converted rows of C that are not yet written: byte address in local memory and bytes -/
  out    : List (Nat × List Byte) := []
  /-- R140 64-byte units that the tile's other array has written since the descriptor started -/
  rival  : List Nat := []
  /-- The status it ends with, once it is known. -/
  status : Option Status
  /-- R117 it passed its check, so that its knot is its tenant's. -/
  checked : Bool := false
  /-- 8 bits; R105 -/
  fp     : Nat
  deriving DecidableEq, Repr

/-- One WRING entry of an open ATTEND (R136, R85). -/
structure WEntry where
  chan    : Nat
  handles : List Nat
  /-- 0 not sent, 1 sent, 2 answered UNIT_FENCED and waiting for its re-send, 3 answered, 4 merged or discarded. -/
  st      : Nat
  /-- The interface's flips (`Die.flips`) when it was last sent, which name the epoch it was sent under, and how often it was sent. -/
  flips   : Nat
  sends   : Nat
  /-- R59, R85 query rows and bias values as its first send read them: a re-send carries the same. -/
  rows    : Option (List Byte × List Nat)
  rep     : Option WRep
  deriving DecidableEq, Repr

/-- One APPEND of an open ATTEND (R73, R136): tail handle, its channel, first token of the step and tokens; the state as in
`WEntry` (4: answered OK). -/
structure AEntry where
  chan   : Nat
  handle : Nat
  first  : Nat
  count  : Nat
  st     : Nat
  flips  : Nat
  sends  : Nat
  /-- R59, R85 its keys and values, read as the ATTEND starts. -/
  body   : List Byte
  deriving DecidableEq, Repr

/-- An open ATTEND (R136 to R138). -/
structure Att where
  /-- 512 bits; R135 the descriptor -/
  desc    : BitVec 512
  ctx     : Nat
  slot    : Nat
  appends : List AEntry
  entries : List WEntry
  /-- R137 the running result's room is reserved -/
  room    : Bool
  running : List WRow
  /-- R140 64-byte units that the tile's other array has written since the descriptor started -/
  rival   : List Nat := []
  /-- The first failure (R138). -/
  fail    : Option Status
  /-- R233 the failure is the descriptor's own (R112, R140), not one of the sequence's wring or append. -/
  wide    : Bool := false
  /-- 8 bits; R105 -/
  fp      : Nat
  deriving DecidableEq, Repr

/-- One array with its feeder, loader, accumulator store and merge stage (R110). -/
structure Arr where
  /-- 4 descriptors; R114 queue with the issuing context; empty -/
  queue   : List (BitVec 512 × Nat)
  /-- R114 an issue that found the queue full; none -/
  stalled : Option (BitVec 512 × Nat)
  /-- R118 MATMULs started and not completed; empty -/
  runs    : List Run
  /-- R136 ATTENDs open; empty -/
  atts    : List Att
  /-- 2 banks of 256 rows × 64 columns; R110, R122 accumulators, keyed (bank × 256 + row) × 64 + column; +0 -/
  store   : Tbl Num := []
  /-- R122 the bank that the next (chunk, N block) of a quarter takes; 0 -/
  bank    : Tbl Nat := []
  /-- 8 bits; R105 the array's part of the tile context's sticky `fpstat`; 0 -/
  fp      : Nat := 0
  /-- R120 front registers per quarter; empty -/
  front   : Tbl Blk
  /-- R120 back registers per quarter; empty -/
  back    : Tbl Blk
  /-- R112 the last load of this quarter failed its check; empty -/
  badLoad : Tbl Nat
  /-- 64 rows; R129 staggered FIFO; empty -/
  fifo    : List (BitVec 512)
  /-- 64 words; R129 C output FIFO; empty -/
  cfifo   : List (BitVec 512)
  deriving DecidableEq, Repr

/-- One block in an entry of a thread slot (R142, R143). -/
structure TEntry where
  index  : Nat
  last   : Bool
  poison : Bool
  bytes  : List Byte
  forwarded : Bool
  loaded : Bool
  /-- R148 the slot fetched it itself, in gap-fill -/
  own : Bool := false
  deriving DecidableEq, Repr

/-- A bound thread slot (R142, R148). -/
structure TSlot where
  thread   : Nat
  /-- 4 entries; R142; empty -/
  entries  : List TEntry
  /-- 1 bit; R148; 0 -/
  detached : Bool
  /-- R147, R148 the first block it takes from the chain again; 0 -/
  attachFrom : Nat := 0
  /-- R148 the next block its gap-fill fetches, where below `attachFrom`; 0 -/
  gapNext  : Nat := 0
  /-- R148 blocks of the round that its own array has taken; 0 -/
  taken    : Nat
  /-- R144 blocks of the round that have swapped into its array's front registers; 0 -/
  swapped  : Nat
  deriving DecidableEq, Repr

/-- A matrix tile (R110). -/
structure MTile where
  /-- 1.5 MiB; R110 local memory; zeros (DC 4) -/
  mem  : Memory
  a    : Arr
  b    : Arr
  /-- R142 bound slots, keyed array × 16 + slot; empty -/
  slots : Tbl TSlot
  deriving DecidableEq, Repr

/-! ## Vector tiles (chapter 7) -/

/-- An address pointer (R178, R179). -/
structure Ptr where
  base   : Nat
  len    : Nat
  pend   : Option Nat
  stride : Int
  p      : Nat
  deriving DecidableEq, Repr

/-- A loop level (R177). -/
structure Loop where
  start  : Nat
  left   : Nat
  /-- Table 7-11 the end word -/
  stop   : Nat := 0
  deriving DecidableEq, Repr

/-- The state of Table 7-11 (R184). -/
structure VCore where
  /-- 32 × 2,048 bits; R163; 0 -/
  v     : Tbl (BitVec 2048)
  /-- 8 × 6,144 bits; R163; 0 -/
  acc   : Tbl (BitVec 6144)
  /-- 16; R178; linear, 0 -/
  ptr   : Tbl Ptr
  /-- 4 levels; R177; none active -/
  loops : Tbl Loop
  /-- R184 next word; 0 -/
  next  : Nat
  /-- 8 bits; R105; 0 -/
  fp    : Nat
  /-- 8 bits; R180; 0 -/
  xstat : Nat
  /-- 16 bits; R180; 0 -/
  pwrap : BitVec 16
  deriving DecidableEq, Repr

/-- When results become ready (R169, R171): the tile's ACLK count and, per register and accumulator, the cycle its
producing word was issued with the latencies its consumers see. -/
structure VTime where
  now   : Nat
  vAt   : Tbl Nat
  aMac  : Tbl Nat
  aRnd  : Tbl Nat
  deriving DecidableEq, Repr

/-- A vector tile (R163). -/
structure VTile where
  /-- 256 KiB; R163 local memory; zeros (DC 4) -/
  mem  : Memory
  core : VCore
  time : VTime
  deriving DecidableEq, Repr

/-! ## Contexts, knots (chapter 8) -/

/-- A memory grant (R189): a scratch area of the instance or its weights (`none`), first 64-byte unit, length, access. -/
structure Grant where
  area  : Option Nat
  first : Nat
  units : Nat
  canRd : Bool
  canWr : Bool
  deriving DecidableEq, Repr

/-- A saved image (R184, Table 8-2, Table 8-4). -/
inductive Image
  | none
  | vec (core : VCore) (mem : Memory)
  | mat (a b : Arr) (mem : Memory)
  deriving DecidableEq, Repr

/-- A completion record (R118). -/
structure CRec where
  tag    : Nat
  status : Status
  fp     : Nat
  deriving DecidableEq, Repr

/-- A context (R187 to R191). -/
structure Ctx where
  tenant  : Nat
  model   : Nat
  tmpl    : Nat
  kind    : TileKind
  /-- R188 home region and the pseudo-channel its image lies on (0 to 7 in the region), and the bytes reserved -/
  region  : Nat
  imgPc   : Nat
  imgBytes : Nat
  st      : CtxState
  /-- The tile it is resident on. -/
  tile    : Option Nat
  lastTile : Option Nat
  image   : Image
  /-- Class of the dispatch that made it READY (R192), the dispatch, and the order in which it became READY. -/
  cls     : Nat
  disp    : Option Nat
  readyNo : Nat
  /-- R192 consecutive grants of its tile kind to higher classes -/
  waited  : Nat
  /-- R205 the knot it waits on and the target -/
  wait    : Option (Nat × BitVec 64)
  /-- R205 the wait was met while it was resident; KNOT_WAKE follows -/
  woken   : Bool
  /-- R193 when its current quantum started, as a count -/
  quantNo : Nat
  /-- R205 order in which it began waiting -/
  waitNo  : Nat
  /-- 256 records; R190 completion ring; empty -/
  ring    : List CRec
  /-- R190 records whose writers wait for room; empty -/
  ringWait : List CRec
  grants  : Tbl Grant
  /-- R152 streams bound, by index. -/
  streams : List Nat
  /-- R191 status it failed with; OK -/
  failSt  : Status
  /-- Seal of the declared memory range, bytes (R187). -/
  declared : Nat
  deriving DecidableEq, Repr

/-- A knot entry (R202, Table 8-6). -/
structure Knot where
  /-- 64 bits; R202; DC 4 (0) -/
  value  : BitVec 64
  /-- R202 TIED; DC 4 (UNTIED) -/
  tied   : Bool
  /-- 1 bit; R203; DC 4 (0) -/
  wrap   : Bool
  /-- 6 bits; R202; DC 4 (0) -/
  tenant : Nat
  /-- 12 bits; R202; DC 4 (0) -/
  owner  : Nat
  /-- R205 waiting contexts with their targets (at most 1,024); none -/
  waits  : List (Nat × BitVec 64)
  /-- R209 outstanding KNOT_WAITs with their targets (at most 255); none -/
  hosts  : List (Pkt × BitVec 64)
  deriving DecidableEq, Repr

/-! ## Threads, streams and rings (chapter 6) -/

/-- A block fetch under way (R144, R148): the slot it is for as (tile × 2 + array, slot), the block, and whether the slot
gap-fills. -/
structure TFetch where
  slot  : Nat × Nat
  block : Nat
  gap   : Bool
  deriving DecidableEq, Repr

/-- A weight thread (R141, R144), for the rounds of its dispatch (R149). -/
structure Thread where
  /-- R141 members as (tile × 2 + array, slot), head first -/
  members : List (Nat × Nat)
  /-- R144 the armed THREAD_SOURCE descriptors of the round -/
  sources : List (BitVec 512)
  /-- R144 index of the next block to fetch -/
  next    : Nat
  /-- R153 the context whose grants the sources name -/
  ctx     : Nat
  /-- R146 records on their way to a member position -/
  transit : List (Nat × TEntry)
  /-- R149 the dispatch whose round it is -/
  disp    : Nat
  /-- R143 number of its first round -/
  round   : Nat := 0
  /-- R144, R152 the stream that fetches its blocks -/
  stream  : Nat := 0
  /-- R144 fetches issued, oldest first; none -/
  fetch   : List TFetch := []
  /-- R155 bytes of the oldest fetch that its bursts have moved; none -/
  part    : List Byte := []
  /-- R151 a burst of the oldest fetch met an uncorrectable error; 0 -/
  bad     : Bool := false
  /-- R155 so did a block of the source descriptor in progress; 0 -/
  srcBad  : Bool := false
  deriving DecidableEq, Repr

/-- A stream descriptor in progress (R155): the descriptor, row, 64-byte units done in the row. -/
structure SRun where
  desc : BitVec 512
  row  : Nat
  col  : Nat
  /-- Every byte is written; its completion record is due (R155). -/
  finished : Bool
  /-- The status it ends with. -/
  status : Status
  deriving DecidableEq, Repr

/-- A stream (R152, R156, R158). -/
structure Stream where
  /-- R152 the context and its index there -/
  ctx    : Nat
  index  : Nat
  /-- R156 the running descriptor; none -/
  cur    : Option SRun
  /-- R156 the shadow; empty -/
  shadow : Option (BitVec 512)
  /-- R158 no new burst while its context is off the tile; 0 -/
  stopped : Bool
  /-- R24 consecutive grants to higher classes while it waited; 0 -/
  waited : Nat
  /-- R24 stamp of its last grant, for the round-robin; 0 -/
  granted : Nat
  /-- R144 the thread whose sources it runs; none for a context's stream -/
  thread : Option Nat := none
  /-- R157 its bursts in flight, with the kind and bytes of each, oldest first; none -/
  flight : List (Nat × Nat) := []
  deriving DecidableEq, Repr

/-- The Felt channel state of a bound ring (R365, R369). -/
structure Chan where
  /-- Sender: next `cseq`, oldest unacknowledged, units in each unacknowledged frame, SYNC due. -/
  next   : Nat
  acked  : Nat
  frames : List Nat
  sync   : Bool
  /-- Receiver: expected `cseq`, accepted frames not yet acknowledged. -/
  expect : Nat
  toAck  : Nat
  /-- An ack frame is due. -/
  ackDue : Bool
  /-- The port of the die that served the ring last (R365; log entry 33). -/
  port   : Nat
  deriving DecidableEq, Repr

/-- A stream ring (R159, R368). -/
structure Ring where
  /-- 24 bits; R159; 0 -/
  wr     : Nat
  /-- 24 bits; R159; 0 -/
  rd     : Nat
  /-- 1 bit RC; R159; 0 -/
  wrapWr : Bool
  /-- 1 bit RC; R159; 0 -/
  wrapRd : Bool
  /-- R159 tenant firmware assigned the ring to; 0xFF none -/
  tenant : Nat
  /-- the ring's 64-byte units; R159; DC 4 (0) -/
  data   : Tbl (BitVec 512)
  chan   : Chan
  /-- R466 the frames that firmware took for it, in order, as keys of the reservation; none -/
  frames : List Nat := []
  deriving DecidableEq, Repr

/-! ## Fabric and configuration (chapters 10, 11) -/

/-- A port binding (R272). -/
structure PortBind where
  kind  : Nat
  ring  : Nat
  knInc : Nat
  knot  : Nat
  deriving DecidableEq, Repr

/-- A call in a call port's buffer (R252). -/
structure Call where
  words   : List (BitVec 512)
  isDone  : Bool
  claimed : Bool
  /-- The binding it was made under (R254: complete calls are written even if the region is reconfigured). -/
  bind    : PortBind
  deriving DecidableEq, Repr

/-- One tile port of a region (R250 to R255). -/
structure Port where
  /-- 1 bit; R250 ABSENT; 1 -/
  absent : Bool
  /-- R252 at most two calls; empty -/
  calls  : List Call
  /-- 1,024 units; R255 buffer of a real-time channel; empty -/
  buf    : List (BitVec 512)
  /-- 6 bits; R254, R255 the ring that the buffered units belong to; 0 -/
  ring   : Nat
  /-- 1 bit; R256 `ch_panic`; 0 -/
  panic  : Bool
  /-- the last word that passed to the fabric; R250; 0 -/
  out    : BitVec 512
  /-- R246, R250 the FCTR value of the edge at which its last word passed; none -/
  edge   : Option Nat := none
  deriving DecidableEq, Repr

/-- A fabric memory block (R247 to R249). -/
structure FmBlk where
  /-- 512 × 64 bits; R247; 0 (R283) -/
  words : Tbl (BitVec 64)
  /-- R249 a corrected word waits for the port's idle cycle: its address -/
  wback : Option Nat
  /-- the last read's data and DERR per port; R248, R249; 0 -/
  outA  : BitVec 64 × Bool
  outB  : BitVec 64 × Bool
  /-- R248 the last access: its port, its word's number, the word before it, whether it wrote; none -/
  last  : Option (Nat × Nat × BitVec 64 × Bool) := none
  deriving DecidableEq, Repr

/-- What a logic block shows to the routing at the last edge (R239, R240, R242): Y and Z of its cells, its select tree, c(8), and its
cells' shift bit upward. -/
structure BlkOut where
  ys    : List Bool
  zs    : List Bool
  wy    : Bool
  carry : Bool
  shift : Bool
  deriving DecidableEq, Repr

/-- The registers of a user I/O pin (R258). -/
structure PinReg where
  /-- input register: the samples of the rising and (double data rate) falling edge; 0 -/
  inRise  : Bool
  inFall  : Bool
  /-- output register; 0 -/
  out     : Bool
  /-- 8 bits; the deserialiser's last eight samples, the newest as bit 7; 0 -/
  des     : BitVec 8
  /-- 8 bits; the serialiser's bits still to send, the next as bit 0; 0 -/
  ser     : BitVec 8
  deriving DecidableEq, Repr

/-- One raw lane of a region's link (R264). -/
structure RawLane where
  /-- receive word, lock, signal detect; 0 -/
  word   : BitVec 256
  lock   : Bool
  detect : Bool
  /-- PRBS31 check: the last 31 bits, and whether the last word broke the sequence; 0 -/
  prbs   : Nat
  prbsBad : Bool
  /-- the symbol received last, for the precoding; 0 -/
  lastRx : Nat
  /-- transmitter: taps that the fabric set (pre2, pre1, main, post1); none set -/
  taps   : List Int
  /-- receiver adaptation started; 0 -/
  adapt  : Bool
  /-- the symbols on the line for the last word; none: electrical idle (R265) -/
  tx     : Option (List Nat)
  deriving DecidableEq, Repr

/-- What a signal that leaves a region carries (Table 11-8, R273). -/
inductive Drive
  | low | high
  | hiZ (pull : Pull)
  deriving DecidableEq, Repr

/-- A FABRIC_LOAD session (R285, R287). -/
structure Session where
  pkt    : Pkt
  queue  : Nat
  tenant : Nat
  len    : Nat
  next   : Nat
  /-- Image bytes received so far. -/
  bytes  : List Byte
  /-- Table 11-10 step reached. -/
  step   : Nat
  /-- Body bytes already turned into frames; the run in progress: address and frames left. -/
  used   : Nat
  run    : Option (Nat × Nat)
  digest : BitVec 384
  /-- R290 the image changes the bank's voltage -/
  newVolt : Bool
  deriving DecidableEq, Repr

/-- A clock or capture action that waits for its FCTR edge (R246, R262). -/
structure ClkAct where
  pkt     : Pkt
  /-- 0 to 3 clock actions of Table 10-3; 4 to 6 capture modes 0 to 2. -/
  action  : Nat
  divisor : Nat
  edge    : Nat
  deriving DecidableEq, Repr

/-- The fabric of a region (R238 to R265, R284 to R291). -/
structure Fabric where
  /-- R291; UNCONFIGURED -/
  st      : FabState
  /-- R286 tenant, 0xFF none; 0xFF -/
  tenant  : Nat
  session : Option Session
  /-- 64 bits; R246 FCTR; 0 (DC 4) -/
  fctr    : Nat
  /-- R246 FCLKr and UCLKs halted; 1 until released -/
  halted  : Bool
  /-- 8 bits; R246 divisor; DC 4 (0: none set) -/
  divisor : Nat
  /-- R263 actions waiting, in order; empty -/
  acts    : List ClkAct
  /-- R262 a capture's copy is under way -/
  copying : Option ClkAct
  /-- user flip-flops set to 1, keyed column block × 16 + n (R241, R269); all 0 (R283) -/
  ff      : Tbl Bool
  /-- R247; zero -/
  fm      : Tbl FmBlk
  /-- R261, R262 the shadow: flip-flops and memory blocks of the last capture; DC 4 (0, none) -/
  shadowFf : Tbl Bool
  shadowFm : Option (Tbl (Tbl (BitVec 64)))
  /-- 16 ports; R250; ABSENT -/
  ports   : Tbl Port
  /-- R272 bindings of TP4 to TP15; unbound -/
  binds   : Tbl PortBind
  /-- 2 bits; R258 bank voltage code in force; 0 (1.0 V) -/
  bankV   : Nat
  /-- R290 the regulator has reported the new voltage -/
  bankOk  : Bool
  /-- R287 step 8 done, IO_HANDOVER due -/
  released : Bool
  /-- R283 pins and wires belong to the design -/
  handed  : Bool
  /-- R283 isolation codes in force rather than the state of a never-configured region -/
  isoCodes : Bool
  /-- R264 lane rate claimed, 0 none; 0 -/
  claim   : Nat
  /-- R292 loaded from an encrypted image without `readback_ok` -/
  noRead  : Bool
  /-- 384 bits; R432 image digest; 0 -/
  digest  : BitVec 384
  /-- R244, R269 what the frames spell whose bits are not published; nothing configured -/
  design  : Design := { blocks := [], fmPorts := [], pins := [], precode := [] }
  /-- R239, R262 tables of cells in shift mode where they differ from their frames' contents, keyed 8 × block + cell; none -/
  shift   : Tbl (BitVec 64) := []
  /-- R238 to R242 what the blocks show to the routing; nothing -/
  outs    : Tbl BlkOut := []
  /-- R245, R273 the signals that the design drives out of the region, by number; low -/
  sig     : Tbl Bool := []
  /-- R273 their values when isolation began; low -/
  held    : Tbl Bool := []
  /-- R258; 24 pins; 0 -/
  pinRegs : Tbl PinReg := []
  /-- R264; four lanes; silent -/
  lanes   : Tbl RawLane := []
  deriving DecidableEq, Repr

/-! ## Networks, power, memory controllers (chapters 12, 13) -/

/-- A region's own level state (R23, R26, R319 to R322). -/
structure Region where
  /-- R23; 0 -/
  isolated : Bool
  /-- R26 units already fenced when the isolation began -/
  fencedBefore : List Nat
  /-- 2 bits; R322 `pstate`; AWAKE -/
  power    : PState
  /-- R320 step 4 done (a wake during draining waits for it) -/
  offDone  : Bool
  /-- R320 the down port is closed for sleep -/
  gated    : Bool
  /-- R320 step 5 firmware has dispatched to the region, or a remote access waits for it (R82), while its port was closed; 0 -/
  asked    : Bool := false
  /-- 1 bit RC; R322; 0 -/
  cancelSeen : Bool
  /-- 1 bit RC; R322; 0 -/
  wakeSeen : Bool
  /-- 1 bit RC; R256 `panic_seen`; 0 -/
  panicSeen : Bool
  deriving DecidableEq, Repr

/-- What an output port of a router remembers for its next grant (R24, R305). -/
structure PortArb where
  /-- R305 per channel: flits in a row that went to other channels while it waited; 0 -/
  starved : Tbl Nat := []
  /-- R24 per input port and channel (8 × channel + port): grants in a row that went to higher classes while it waited; 0 -/
  waited  : Tbl Nat := []
  /-- R24 input ports in the order of their last grants, for the round-robin; empty -/
  order   : List Nat := []
  deriving DecidableEq, Repr

/-- A router (R305, R307, R317). -/
structure Router where
  /-- packets received and not yet forwarded, in order of arrival, with the input port (as R310 codes ports); R305; empty -/
  inbox : List (Nat × NetPkt)
  /-- R305 grants of each output port; none yet -/
  arb   : Tbl PortArb := []
  /-- 64 flits per channel; R321 wake buffer (die routers); empty -/
  wakeBuf : List NetPkt
  /-- R82, R321 wring and append requests in the wake buffer, which they share; empty -/
  wakeReq : List WReq := []
  /-- R307 headers discarded and reported; empty -/
  discards : List NetPkt
  deriving DecidableEq, Repr

/-- A network interface (R309, R311). -/
structure Iface where
  /-- 2,048 entries; R311 route banks, keyed by destination; bank 0 and bank 1; not valid -/
  bank0 : Tbl (BitVec 96)
  bank1 : Tbl (BitVec 96)
  /-- R309 transactions in flight: number ↦ network opcode and destination; none -/
  txns  : Tbl (Nat × Nat)
  /-- packets that arrived; R308; empty -/
  inbox : List NetPkt
  /-- packets delivered to the endpoint; R308; empty -/
  outbox : List NetPkt
  /-- transactions that ended with UNIT_FENCED, newest first; R309; empty -/
  ended : List Nat
  deriving DecidableEq, Repr

/-- A packet probe (R323, R324). -/
structure Probe where
  filter  : ProbeFilter
  running : Bool
  pkts    : Nat
  flits   : Nat
  deriving DecidableEq, Repr

/-- A trace record (R325). -/
structure TraceRec where
  time   : Nat
  router : Nat
  port   : Nat
  probe  : Nat
  pkt    : NetPkt
  deriving DecidableEq, Repr

/-- A request at a controller with its waiting (R346). -/
structure MWait where
  req    : MReq
  waited : Nat
  deriving DecidableEq, Repr

/-- The outcome a controller returned (R332, R336): who asked, the status, the data of a read. -/
structure MDone where
  who    : MemWho
  status : Status
  data   : List Byte
  deriving DecidableEq, Repr

/-- A memory controller (R329 to R350). -/
structure MC where
  /-- 2 bits; R349 `ch0_state`; ABSENT -/
  ch0    : ChState
  /-- 2 bits; R349 `ch1_state`; ABSENT -/
  ch1    : ChState
  /-- 1 bit; R349 `pause`; 0 -/
  pause  : Bool
  /-- 1 bit RC; R349; 0 -/
  rfmHold : Bool
  /-- 1 bit RC; R349; 0 -/
  ueSeen : Bool
  /-- 1 bit RC; R349; 0 -/
  ceSeen : Bool
  /-- R346 requests waiting; empty -/
  queue  : List MWait
  /-- R24 requesters in the order of their last grants, for the round-robin; empty -/
  order  : List MemWho := []
  /-- R24, R81 per wringer: grants in a row to higher classes while its remote read waited here; 0 -/
  askWait : Tbl Nat := []
  /-- the last outcome; R336; none -/
  done   : List MDone
  /-- R339 rolling activation counts per bank; 0 -/
  rfm    : Tbl Nat
  /-- R339 the devices' mode registers: refresh management required (always so on LPDDR5X), its initial and its maximum
  threshold, as read at training; false, 0, 0 -/
  rfmReq : Bool
  rfmInit : Nat
  rfmMax : Nat
  /-- R338 refresh intervals postponed per bank, at most 4; 0 -/
  postponed : Tbl Nat
  /-- R342 failures in succession, per channel of the controller; 0 -/
  pauseFails : Tbl Nat
  /-- R336 per frame (channel code × 2^15 + frame) the NCLK count of its last weak report, 1 higher; 0 -/
  weak   : Tbl Nat
  /-- R348 frames with an uncorrectable error, each with the NCLK count of its last one; none -/
  ueFrames : List (Nat × Nat)
  /-- R337 next block of the patrol; 0 -/
  scrub  : Nat
  /-- R341 extra pauses asked for by TEST_RUN; 0 -/
  extra  : Nat
  deriving DecidableEq, Repr

/-! ## Felt links (chapter 14) -/

/-- A lane's transmitter taps (R362). -/
structure Taps where
  pre2  : Nat
  pre1  : Nat
  main  : Nat
  post1 : Nat
  deriving DecidableEq, Repr

/-- A Felt frame as it travels (R363): the fields of Table 14-7 and the payload. -/
structure FFrame where
  ftype  : Nat
  units  : Nat
  hops   : Nat
  replay : Bool
  sync   : Bool
  dPkg   : Nat
  dDie   : Nat
  dRing  : Nat
  sPkg   : Nat
  sDie   : Nat
  sRing  : Nat
  lseq   : Nat
  lack   : Nat
  cseq   : Nat
  payload : List Byte
  /-- R368, R392 the tenant its bits are charged to, not on the line; none: the device account -/
  bill   : Option Nat := none
  deriving DecidableEq, Repr

/-- A Felt port (R359 to R372). -/
structure Felt where
  /-- 4 bits; R359; DOWN -/
  st      : LState
  /-- 2 bits; R371 `rate`; 0 -/
  rate    : Nat
  /-- R361 highest rate still to try -/
  tryRate : Nat
  /-- 6 bits; R371; 0 -/
  pPkg    : Nat
  /-- 6 bits; R371; 0 -/
  pLink   : Nat
  /-- 64 bits; R371 PID; 0 -/
  pIdent  : BitVec 64
  /-- 8 bits; R358 partner's `kind`; 0 -/
  pKind   : Nat
  /-- 3 bits; R361 partner's `rates` and how often it was seen unchanged; 0 -/
  pRates  : Nat
  seen    : Nat
  /-- 1 bit RC; R371; 0 -/
  departed : Bool
  /-- 1 bit RC; R371; 0 -/
  arrived : Bool
  /-- R359 lanes with valid training frames; R362 lanes on which each side reports `ready` -/
  lanesOk : BitVec 4
  pReady  : BitVec 4
  myReady : BitVec 4
  /-- R362 taps per lane; P1 -/
  taps    : Tbl Taps
  /-- R362 answer to the partner's last request, per lane -/
  tapStat : Tbl Nat
  /-- R364 transmitter: next `lseq`, frames kept; receiver: last `lseq` in order, replay asked -/
  txNext  : Nat
  kept    : List FFrame
  rxLast  : Nat
  rxReplay : Bool
  /-- R366 frames queued for transmission (at most 256); empty -/
  txq     : List FFrame
  /-- frames put on the line, oldest first (output); R363 -/
  line    : List FFrame
  /-- R367 FOLD sent and not answered; 0 -/
  foldSent : Bool
  /-- R367 the partner's FOLD, not answered; 0 -/
  foldSeen : Bool
  /-- R367 the partner's FOLD_ACK; 0 -/
  ackSeen : Bool
  /-- R360 WAKING failed: a departure is due if training does not complete; 0 -/
  wakeFailed : Bool
  /-- R367 WAKE tone to send -/
  wakeTone : Bool
  /-- R355 where in `line` the present series of codewords began; 0 -/
  lineFrom : Nat := 0
  /-- R356 frames since the last filler; 0 -/
  sinceFill : Nat := 0
  /-- R357 4 bits: lanes whose polarity the receiver corrects; 0 -/
  flipped : BitVec 4 := 0
  /-- R357 the partner's lane that each lane's markers name; none before ALIGN -/
  laneMap : List Nat := []
  deriving DecidableEq, Repr

/-! ## Registers (chapter 16) -/

/-- A register with PW fields (R411): the applied value (with its RW `press_grp`) and the pending value. -/
structure PReg where
  applied : BitVec 32
  pend    : Option (BitVec 32)
  deriving DecidableEq, Repr

/-- The configuration check of a block (R414, R415). -/
structure Cfg where
  /-- 1 bit RW; R415; 0 -/
  chkEn    : Bool
  /-- 32 bits RW; R415; 0 -/
  ref      : BitVec 32
  /-- 32 bits RO; R415; 0 -/
  crc      : BitVec 32
  /-- 1 bit RC; R415; 0 -/
  restored : Bool
  /-- 1 bit RC; R415; 0 -/
  crcErr   : Bool
  /-- `commit` waits for the next pass; R415; 0 -/
  commitPend : Bool
  /-- firmware's copy of the applied values; R415; reset values -/
  copy     : Tbl (BitVec 32)
  /-- a mismatch within the last second; R415; 0 -/
  recent   : Option Nat
  deriving DecidableEq, Repr

/-! ## The ledger (chapter 15) -/

/-- Who is charged for an activity (R392): a tenant or the device account, and the dispatch whose work it is (R394). -/
structure Payer where
  tenant : Option Nat
  disp   : Option Nat
  deriving DecidableEq, Repr

/-- The device account. -/
def Payer.device : Payer := { tenant := none, disp := none }

/-- What a die has done since its last period (Table 15-7): who pays, the activity's row in the table (0 to 7), its count. -/
structure Activity where
  who   : Payer
  row   : Nat
  count : Nat
  deriving DecidableEq, Repr

/-- What the work of a dispatch was charged on a die (R394): nJ so far; once the dispatch has ended, the key of its correction
factor and its estimate. -/
structure Tally where
  nj    : Nat
  ended : Option (Nat × Nat)
  deriving DecidableEq, Repr

/-- A tenant's account on one die (R392, R393). -/
structure Acct where
  /-- 64 bits modular; R392; 0 -/
  charged : BitVec 64
  /-- nJ per window or none (unlimited); R393; unlimited -/
  allow   : Option Nat
  /-- periods; R393; 262,144 -/
  window  : Nat
  /-- nJ left in the window, negative is debt; R393 -/
  left    : Int
  /-- periods left; R397 -/
  periods : Nat
  /-- 32 bits; R397 window number; 0 -/
  number  : BitVec 32
  /-- R393 allowance and length of the window that opens at the next period, after ENERGY_ALLOW; none -/
  next    : Option (Option Nat × Nat)
  deriving DecidableEq, Repr

/-- A die's ledger and clock control (R384, R388 to R398, R456). -/
structure Ledger where
  /-- 64 bits; R388 DIE_ENERGY; 0 -/
  dieNj   : BitVec 64
  /-- 8 × 64 bits; R388 FAB_ENERGYr; DC 4 (0) -/
  fabNj   : Tbl (BitVec 64)
  /-- 64 bits; R385; 0 -/
  cycA    : BitVec 64
  /-- 64 bits; R385; 0 -/
  cycN    : BitVec 64
  /-- 2 bits; R384 step in force; 0 -/
  step    : Nat
  /-- R396 the ledger's own step; 0 -/
  own     : Nat
  /-- R456 the thermal step; 0 -/
  thermal : Nat
  /-- R391 the backstop's step; 0 -/
  backstopStep : Nat
  /-- R391 the window of step 3 is under way; 0 -/
  backstopOn : Bool
  /-- R396 periods in the run of 16, its energy (nJ) and its budget; 0 -/
  runLen  : Nat
  runNj   : Nat
  runBudget : Int
  /-- R396 periods in succession below 85 %; 0 -/
  low     : Nat
  /-- R456 periods in succession at or above Tmax − 5, and below Tmax − 10; 0 -/
  hot     : Nat
  cool    : Nat
  /-- R399 `why_host`; 0 -/
  whyHost : Bool
  /-- R389 LEDGER_STAT RC bits; 0 -/
  scBackstop : Bool
  scStepped  : Bool
  scDeferred : Bool
  scWrap     : Bool
  /-- R397 `wrap` seen since the last ENERGY_READ; 0 -/
  erWrap  : Bool
  /-- mW and °C per step; R392 calibration; DC 4 (0, 25) -/
  cal     : Tbl (Nat × Int)
  /-- °C; R456 hottest sensor; DC 2 (25) -/
  tempC   : Int
  /-- mW; R390 S and R the die applies; from the variant's limit and 5,000 -/
  sMw     : Nat
  rMw     : Nat
  /-- R392, R393; none -/
  accts   : Tbl Acct
  /-- nJ, 64 bits; R392 device account; 0 -/
  devAcct : BitVec 64
  /-- R394 correction factors keyed instance × 65,536 + list; 1 -/
  fcorr   : Tbl Rat
  deriving DecidableEq, Repr

/-- The darner of a die (R293 to R297). -/
structure Darner where
  /-- R293 next frame index per region; 0 -/
  at_      : Tbl Nat
  /-- 1 bit; R297; 0 -/
  stopped  : Bool
  /-- 1 bit RC; R297; 0 -/
  selfFail : Bool
  /-- 1 bit RC; R297; 0 -/
  dblSeen  : Bool
  /-- 1 bit RC; R297; 0 -/
  sglSeen  : Bool
  /-- 32 bits; R297 DN_FRAME; 0 -/
  frame    : BitVec 32
  deriving DecidableEq, Repr

/-- What runs on a tile (R192, R196). -/
structure Occ where
  /-- the resident context (per-die number); R192; none -/
  res    : Option Nat
  /-- R196 switch phase; none -/
  phase  : SwPhase
  /-- R199 the first save failed its check -/
  retried : Bool
  /-- the context that comes in; R196; none -/
  inc    : Option Nat
  /-- R191 the resident leaves for this state once the rinse is done -/
  after  : Option CtxState
  /-- R211, R446 no context is granted the tile: a test waits -/
  drain  : Bool
  deriving DecidableEq, Repr

/-- A unit under test (R446). -/
structure TestRec where
  pkt  : Pkt
  test : Nat
  /-- R448 the test passed; the unit waits for the flip of its return -/
  passed : Bool
  deriving DecidableEq, Repr

/-- STATE_IDLE on a die (R52). -/
structure DieIdle where
  /-- which STATE_IDLE (key of `State.idles`) and its drop set after step 3 -/
  op   : Nat
  segs : BitVec 8
  /-- handles marked DROPPED at step 4 -/
  handles : List Nat
  deriving DecidableEq, Repr

/-- One die (R11 to R22): its units, tables and registers. -/
structure Die where
  /-- R28 lost; 0 -/
  lost     : Bool
  /-- R402, R422 the die controller runs; 0 until boot step 7 -/
  running  : Bool
  /-- R418 `lpddr_absent`; 0 -/
  lpAbsent : Bool
  /-- R418 `train_done`; 0 -/
  trained  : Bool
  /-- R418 `fw_ok`; 0 -/
  fwOk     : Bool
  /-- R281 the die has seen CFG_DONE high; 0 -/
  sawDone  : Bool
  regions  : Tbl Region
  mtiles   : Tbl MTile
  vtiles   : Tbl VTile
  /-- R192, R196, keyed tile for matrix, 64 + tile for vector -/
  occ      : Tbl Occ
  wringers : Tbl Wringer
  mcs      : Tbl MC
  felts    : Tbl Felt
  rings    : Tbl Ring
  streams  : Tbl Stream
  threads  : Tbl Thread
  /-- R143 rounds each thread number has had, modulo 65,536; 0 -/
  thRounds : Tbl Nat := []
  ctxs     : Tbl Ctx
  knots    : Tbl Knot
  /-- R206 knot operations in flight to the knot unit, in order; empty -/
  knotNet  : List KnotOp
  /-- R39 ream table; FREE -/
  ream     : Tbl Ream
  /-- R44 entries found uncorrectable and not yet rewritten; none -/
  reamBad  : List Nat
  /-- R49 copies under way; none -/
  copies   : List Copy
  /-- R48 hinted copies: handle, promote; none -/
  hints    : List (Nat × Bool)
  /-- R43 aging period in ACLK cycles; 2^28 -/
  aging    : Nat
  /-- R48 low watermark, high watermark, hot threshold; 2,048, 8,192, 8 -/
  lowMark  : Nat
  highMark : Nat
  hotMark  : Nat
  /-- R466 frames reserved (channel code × 2^15 + frame ↦ owner: 0 firmware, 1 + instance, 300 + ring); firmware's -/
  reserved : Tbl Nat
  /-- R466 pseudo-channel after the one on which the last allocation ended; 0 -/
  dealNext : Nat
  /-- R336 retired frames; none -/
  retired  : List Nat
  /-- R52 segments dropped on every LPDDR5X channel; 0 -/
  dropped  : BitVec 8
  /-- R392 the activities of the ledger period so far; none -/
  acts     : List Activity := []
  /-- R391, R397 the ledger as Psiurn's latest window read it; none -/
  ledSeen  : Option Ledger := none
  /-- R394 what dispatches were charged, by dispatch; none -/
  tallies  : Tbl Tally := []
  /-- R345 segments being initialised (channel × 8 + segment); none -/
  initSegs : List Nat
  /-- R52 STATE_IDLE under way; none -/
  idle     : Option DieIdle
  /-- 255 × (256 + 256 bits, tenant); R330 sealing slots 1 to 255: data key, tweak key, tenant; EMPTY -/
  sealSlots : Tbl (BitVec 256 × BitVec 256 × Nat)
  /-- device memory, keyed channel code × 2^36 + byte; R39, DC 4 (0) -/
  dram     : Memory
  /-- R331 what each 16-byte unit was sealed under; none -/
  seals    : Tbl Seal
  /-- R56 requests in flight, oldest first; none -/
  reqNet   : List WReq
  /-- R63 replies in flight, oldest first; none -/
  repNet   : List WRep
  /-- R56 redirect maps of the die's interfaces, bank 0 and bank 1, keyed die × 128 + channel code; the wringer on the
  channel -/
  redir0   : Tbl Nat
  redir1   : Tbl Nat
  /-- 1 bit; R314 `epoch`; 0 -/
  epoch    : Bool
  /-- MODEL'S OWN: flips of the die's interfaces so far, which tell one epoch from the next of the same bit (R85); 0 -/
  flips    : Nat := 0
  /-- 1 bit; R314 `switching`; 0 -/
  switching : Bool
  /-- R313 the flip of the switch under way is done on this die; 0 -/
  flipped  : Bool
  routers  : Tbl Router
  ifaces   : Tbl Iface
  /-- R23, R444 fenced units: kind × 65,536 + unit ↦ cause; none -/
  fenced   : Tbl Nat
  /-- R446 units under test, same key; none -/
  tests    : Tbl TestRec
  /-- R445 corrected errors in the rolling window, same key; 0 -/
  errs     : Tbl (List (Nat × Nat))
  /-- R316 UCIe modules out of service (router × 4 + module); none -/
  ucieOut  : List Nat
  probes   : Tbl Probe
  /-- 131,072 records; R325; empty -/
  trace    : List TraceRec
  /-- R324 records lost to a full buffer; 0 -/
  traceLost : Nat
  fabrics  : Tbl Fabric
  /-- 1,024 bits per frame address; R267; 0 (R283) -/
  frames   : Tbl (BitVec 1024)
  darner   : Darner
  /-- registers with PW fields, keyed by offset (R411); reset values of their tables -/
  pregs    : Tbl PReg
  /-- R414, R415 keyed by block number -/
  cfgs     : Tbl Cfg
  /-- R410 snapshots: reader × 16 + pair ↦ 64 bits; none -/
  snaps    : Tbl (BitVec 64)
  /-- telemetry counters, keyed unit kind × 2^24 + unit × 2^6 + index (R106); 0 -/
  ctrs     : Tbl Nat
  /-- R106 wrap bits, same key; 0 -/
  wraps    : Tbl Bool
  led      : Ledger
  deriving DecidableEq, Repr

/-- The machine. -/
structure State where
  /-- The waiting commands, first in, first out. -/
  pending  : List Instr
  part     : Part
  pins     : Pins
  psi      : Psiurn
  /-- R375 1 bit: the host port's link is up; 0 -/
  hostUp   : Bool
  /-- R212; queue 0 management and DISABLED, others DISABLED -/
  queues   : Tbl Queue
  /-- R234, R374; reset settings -/
  funcs    : Tbl Func
  /-- MSI-X messages raised: function, vector; R235; none -/
  msix     : List (Nat × Nat)
  /-- R440 events raised and not yet posted, oldest first; none -/
  raised   : List Event
  tenants  : Tbl Tenant
  models   : Tbl Model
  seqs     : Tbl Sequence
  disps    : Tbl Dispatch
  idles    : Tbl IdleOp
  /-- R50, R430 KEY_REMOVEs that wait: the packet, the tenant, the dies still to clear; none -/
  keyWaits : List (Pkt × Nat × List Nat)
  /-- R390 ENERGY_LIMITs whose reply waits: the packet, the dies that have not applied the new limit; none -/
  limits   : List (Pkt × List Nat)
  /-- R52, R226, R446 commands that wait for a step, an idle operation or a test to end, in the order in which firmware
  admitted them; none -/
  waiting  : List Instr
  dies     : Tbl Die
  /-- R313 the change being switched to; none -/
  epochOp  : Option (BitVec 8 × EpochChange)
  /-- 32 bits; the word the last register read returned (R404, R406) -/
  regOut   : BitVec 32
  /-- MODEL'S OWN: free values used so far (log entry 10); DC 10 (0) -/
  freeCount : Nat
  /-- MODEL'S OWN: a count of admissions, grants and waits, for the "first" and "least recently" of R48, R55, R192 to
  R194 (log entry 12); 0 -/
  stamp    : Nat
  deriving DecidableEq, Repr

/-- Why the block would stop at a command. -/
inductive Fault
  /-- The block has stopped. Raised by no meaning: the spec stops the block at no command (log entry 74). Safe. -/
  | stopped
  deriving DecidableEq, Repr

/-- Why the block has no answer. -/
inductive Refusal
  /-- No meaning is written for the command. Raised by no meaning. Safe. -/
  | notModelled (mnemonic : String)
  deriving DecidableEq, Repr

/-- What a meaning answers. -/
abbrev Out := Host.Outcome State Fault Refusal

/-! ## Reset -/

/-- The part the model takes (log entry 1). -/
def Part.reset : Part :=
  { variant := .skz8, gradeB := false, gradeI := false, prov := false, silicon := 1, secret := 0, vendor := 0 }

/-- The pins right after package reset (log entry 2). -/
def Pins.reset : Pins :=
  { pkgRstN := false, perstN := false, pullSel := false, cfgSrc := true, vinMv := 48000, pwrOk := false,
    cfgDone := false }

/-- Psiurn right after package reset (R390, R418, R420, R434, R435). -/
def Psiurn.reset : Psiurn :=
  { state := .inReset, cause := 0, status := .ok, cfgStep := 1, strapCfg := false, strapPull := false,
    fallback := false, coldBoot := none, tempC := 25, signing := [], imageKeys := [], fwMin := 0, cfgMin := 0,
    fw := { version := 0, secVersion := 0, digest := 0 }, flash := [],
    dbg := { nonce := none, failed := 0, scope := 0, dies := 0 },
    spdm := { signed := none, resp := [], unexpected := false },
    sideband := { mbox := [], reply := none, seq := 0, resp := [] },
    pMw := 1500000, rMw := 5000, lastNj := [], windowNj := 0 }

/-- The machine right after package reset: every die in reset, queue 0 DISABLED, nothing created (R214, R236, R283,
R459). -/
def State.reset : State :=
  { pending := [], part := Part.reset, pins := Pins.reset, psi := Psiurn.reset, hostUp := false, queues := [],
    funcs := [], msix := [], raised := [], tenants := [], models := [], seqs := [], disps := [], idles := [],
    keyWaits := [], limits := [], waiting := [], dies := [], epochOp := none, regOut := 0, freeCount := 0, stamp := 0 }

end Sys2Proof.Machine
end

