-- ==== Sys2Proof/Machine/Mem.lean ====
section
/-! DEFINITION. Byte memories: a list of Host.Cell in one canonical form (log entry 3). -/

namespace Sys2Proof.Machine

/-- What an unlisted address reads as (log entry 3). -/
def memDefault : Byte := 0

/-- One byte. -/
def mread (m : Memory) (a : Nat) : Byte := tget m a memDefault

/-- One byte written. Writing what an unlisted address reads as removes the entry. -/
def mwrite (m : Memory) (a : Nat) (b : Byte) : Memory := if b = memDefault then tdel m a else tput m a b

/-- `n` bytes from `a` on. -/
def mreadN (m : Memory) (a : Nat) : Nat → List Byte
  | 0 => []
  | n + 1 => mread m a :: mreadN m (a + 1) n

/-- Bytes written from `a` on. -/
def mwriteN (m : Memory) (a : Nat) : List Byte → Memory
  | [] => m
  | b :: r => mwriteN (mwrite m a b) (a + 1) r

/-- `m` without the bytes from `lo` to `hi - 1`: they read as unlisted. -/
def mclear (m : Memory) (lo hi : Nat) : Memory := m.filter fun c => !(decide (lo ≤ c.1) && decide (c.1 < hi))

/-- Addresses from `lo` on rise strictly. -/
def risesFrom : Nat → Memory → Bool
  | _, [] => true
  | lo, c :: r => decide (lo ≤ c.1) && risesFrom (c.1 + 1) r

/-- The canonical form: addresses strictly rising, no entry equal to what an unlisted address reads as. -/
def Memory.wf (m : Memory) : Bool := risesFrom 0 m && m.all fun c => c.2 != memDefault

end Sys2Proof.Machine
end

