-- ==== Sys2Proof/Machine/Ops.lean ====
section
/-! DEFINITION. The shared operations: figures of the part, reset entries, access to the parts of the state, events,
replies, the gate of the command opcodes and of the events. -/

namespace Sys2Proof.Machine

/-! ## The part's figures (R1, R2, R12, R17, R20) -/

/-- Fabric dies of a variant (R1). -/
def Variant.dies : Variant → Nat
  | .skz2 => 2
  | .skz4 => 4
  | .skz8 => 8

/-- Columns of the package grid (R12). -/
def Variant.cols : Variant → Nat
  | .skz2 => 2
  | .skz4 => 2
  | .skz8 => 4

/-- Package power limit in mW (R17). -/
def Variant.limitMw : Variant → Nat
  | .skz2 => 390000
  | .skz4 => 760000
  | .skz8 => 1500000

/-- Dies of the part. -/
def State.dieCount (s : State) : Nat := s.part.variant.dies

/-- A die's power share S in mW (R390): (P − 20 W) ÷ n, rounded down. -/
def shareMw (pMw n : Nat) : Nat := (pMw - 20000) / n

/-! ## Reset entries of the tables -/

/-- A queue's control block at reset (R214, R218). -/
def Queue.reset : Queue :=
  { st := .disabled, home := 0, cls := 3, tenant := 0xFF, func := 0, base := 0, log2size := 0x13, wr := 0, rd := 0,
    expSeq := 0, head := 0, tail := 0, phase := true, errDie := false, errFrame := false, errWin := false, vector := 0,
    irqEn := false, coalCount := 1, coalUs := 0, coalDone := 0, window := [], asm := [], taken := [], started := [], life := 0,
    old := [],
    held := [], posted := [], destroyer := none }

/-- A function at reset (R234): events of function 0 go to queue 0, the others' nowhere, every kind enabled. Every MSI-X vector
is masked, as PCI Express has it (log entry 5). -/
def Func.reset (f : Nat) : Func :=
  { evQueue := if f = 0 then some 0 else none, mask := BitVec.allOnes 64, evNo := 0, held := [], lost := 0, d3 := false,
    bar4 := (List.range (if f = 0 then 2048 else 64)).map fun v => (16 * v + 12, 1) }

/-- A region at reset. -/
def Region.reset : Region :=
  { isolated := false, fencedBefore := [], power := .awake, offDone := false, gated := false, cancelSeen := false,
    wakeSeen := false, panicSeen := false }

/-- A matrix array at reset, or after a rinse (R197). -/
def Arr.reset : Arr :=
  { queue := [], stalled := none, runs := [], atts := [], front := [], back := [], badLoad := [], fifo := [], cfifo := [] }

/-- A matrix tile at reset. -/
def MTile.reset : MTile := { mem := [], a := Arr.reset, b := Arr.reset, slots := [] }

/-- A linear pointer at 0 (R178). -/
def Ptr.reset : Ptr := { base := 0, len := 0, pend := none, stride := 0, p := 0 }

/-- A rinsed vector core (Table 7-11). -/
def VCore.reset : VCore :=
  { v := [], acc := [], ptr := [], loops := [], next := 0, fp := 0, xstat := 0, pwrap := 0 }

/-- No result outstanding. -/
def VTime.reset : VTime := { now := 0, vAt := [], aMac := [], aRnd := [] }

/-- A vector tile at reset. -/
def VTile.reset : VTile := { mem := [], core := VCore.reset, time := VTime.reset }

/-- An empty tile. -/
def Occ.reset : Occ := { res := none, phase := .none, retried := false, inc := none, after := none, drain := false }

/-- An idle wringer (R57). -/
def Wringer.reset : Wringer := { input := [], openR := [] }

/-- A memory controller at reset (R349). -/
def MC.reset : MC :=
  { ch0 := .absent, ch1 := .absent, pause := false, rfmHold := false, ueSeen := false, ceSeen := false, queue := [],
    done := [], rfm := [], rfmReq := false, rfmInit := 0, rfmMax := 0, postponed := [], pauseFails := [], weak := [], ueFrames := [], scrub := 0, extra := 0 }

/-- Preset P1 of Table 14-5. -/
def Taps.p1 : Taps := { pre2 := 0, pre1 := 0, main := 63, post1 := 0 }

/-- A Felt port at reset (R359, R371). -/
def Felt.reset : Felt :=
  { st := .down, rate := 0, tryRate := 2, pPkg := 0, pLink := 0, pIdent := 0, pKind := 0, pRates := 0, seen := 0,
    departed := false, arrived := false, lanesOk := 0, pReady := 0, myReady := 0, taps := [], tapStat := [], txNext := 0,
    kept := [], rxLast := 0xFFF, rxReplay := false, txq := [], line := [], foldSent := false, foldSeen := false,
    ackSeen := false, wakeFailed := false, wakeTone := false }

/-- A ring's Felt channel at reset (R365). -/
def Chan.reset : Chan :=
  { next := 0, acked := 0, frames := [], sync := false, expect := 0, toAck := 0, ackDue := false, port := 0 }

/-- A ring at reset (R159). -/
def Ring.reset : Ring :=
  { wr := 0, rd := 0, wrapWr := false, wrapRd := false, tenant := 0xFF, data := [], chan := Chan.reset }

/-- An UNTIED knot (R202). -/
def Knot.reset : Knot := { value := 0, tied := false, wrap := false, tenant := 0, owner := 0, waits := [], hosts := [] }

/-- Place 0 of pseudo-channel 0. -/
def Loc.zero : Loc := { tier := false, stack := 0, chan := 0, frame := 0 }

/-- A FREE ream table entry (R40, R45). -/
def Ream.free : Ream :=
  { st := .free, cls := 0, fmt := 0, tenant := 0, seq := 0, layer := 0, first := 0, loc := Loc.zero, slot := 0, tok := 0,
    acc := 0, pin := false }

/-- A router with nothing in flight. -/
def Router.reset : Router := { inbox := [], wakeBuf := [], discards := [] }

/-- A network interface at reset: no valid route (R311). -/
def Iface.reset : Iface := { bank0 := [], bank1 := [], txns := [], inbox := [], outbox := [], ended := [] }

/-- A probe's filter that nothing has set. -/
def ProbeFilter.zero : ProbeFilter :=
  { trace := false, wrap := false, ports := 0, clsMask := 0, vcMask := 0, src := 0, srcMask := 0, dst := 0, dstMask := 0,
    op := 0, opMask := 0 }

/-- A stopped probe (R324). -/
def Probe.reset : Probe := { filter := ProbeFilter.zero, running := false, pkts := 0, flits := 0 }

/-- A tile port at reset (R250). -/
def Port.reset : Port := { absent := true, calls := [], buf := [], ring := 0, panic := false, out := 0 }

/-- A fabric memory block at reset (R247, R283). -/
def FmBlk.reset : FmBlk := { words := [], wback := none, outA := (0, false), outB := (0, false) }

/-- An unconfigured region's fabric (R283, R291). -/
def Fabric.reset : Fabric :=
  { st := .unconfigured, tenant := 0xFF, session := none, fctr := 0, halted := true, divisor := 0, acts := [],
    copying := none, ff := [], fm := [], shadowFf := [], shadowFm := none, ports := [], binds := [], bankV := 0, bankOk := false, released := false,
    handed := false, isoCodes := false, claim := 0, noRead := false, digest := 0 }

/-- The configuration check of a block at reset (R415). -/
def Cfg.reset : Cfg :=
  { chkEn := false, ref := 0, crc := 0, restored := false, crcErr := false, commitPend := false, copy := [],
    recent := none }

/-- The darner at reset (R297). -/
def Darner.reset : Darner :=
  { at_ := [], stopped := false, selfFail := false, dblSeen := false, sglSeen := false, frame := 0 }

/-- A tenant's account on a die before any allowance (R393). -/
def Acct.reset : Acct :=
  { charged := 0, allow := none, window := 262144, left := 0, periods := 262144, number := 0, next := none }

/-- A die's ledger at reset (R384 to R396). -/
def Ledger.reset (v : Variant) : Ledger :=
  { dieNj := 0, fabNj := [], cycA := 0, cycN := 0, step := 0, own := 0, thermal := 0, backstopStep := 0,
    backstopOn := false, runLen := 0, runNj := 0, runBudget := 0, low := 0, hot := 0, cool := 0, whyHost := false,
    scBackstop := false, scStepped := false, scDeferred := false, scWrap := false, erWrap := false, cal := [],
    tempC := 25, sMw := shareMw v.limitMw v.dies, rMw := 5000, accts := [], devAcct := 0, fcorr := [] }

/-- A die right after package reset (R11, R43, R48, R283). -/
def Die.reset (v : Variant) : Die :=
  { lost := false, running := false, lpAbsent := false, trained := false, fwOk := false, sawDone := false, regions := [],
    mtiles := [], vtiles := [], occ := [], wringers := [], mcs := [], felts := [], rings := [], streams := [],
    threads := [], ctxs := [], knots := [], knotNet := [], ream := [], reamBad := [], copies := [], hints := [],
    aging := 2 ^ 28, lowMark := 2048, highMark := 8192, hotMark := 8, reserved := [], dealNext := 0, retired := [],
    dropped := 0, initSegs := [], idle := none, sealSlots := [], dram := [], seals := [], reqNet := [], repNet := [],
    redir0 := [], redir1 := [], epoch := false, switching := false, flipped := false, routers := [],
    ifaces := [], fenced := [], tests := [], errs := [], ucieOut := [], probes := [], trace := [], traceLost := 0,
    fabrics := [], frames := [], darner := Darner.reset, pregs := [], cfgs := [], snaps := [], ctrs := [], wraps := [],
    led := Ledger.reset v }

/-! ## Access to the parts of the state -/

/-- Die `d`. -/
def State.die (s : State) (d : Nat) : Die := tget s.dies d (Die.reset s.part.variant)

/-- `s` with die `d` replaced. -/
def State.setDie (s : State) (d : Nat) (x : Die) : State := { s with dies := tput s.dies d x }

/-- `s` with `f` applied to die `d`. -/
def State.modDie (s : State) (d : Nat) (f : Die → Die) : State := s.setDie d (f (s.die d))

/-- Tenant `t` exists, and is not being destroyed. -/
def State.hasTenant (s : State) (t : Nat) : Bool :=
  match tfind s.tenants t with
  | some x => x.destroy.isNone
  | none => false

/-- Queue `q`. -/
def State.queue (s : State) (q : Nat) : Queue := tget s.queues q Queue.reset

/-- `s` with queue `q` replaced. -/
def State.setQueue (s : State) (q : Nat) (x : Queue) : State := { s with queues := tput s.queues q x }

/-- `s` with `f` applied to queue `q`. -/
def State.modQueue (s : State) (q : Nat) (f : Queue → Queue) : State := s.setQueue q (f (s.queue q))

/-- Function `f`. -/
def State.func (s : State) (f : Nat) : Func := tget s.funcs f (Func.reset f)

/-- `s` with `g` applied to function `f`. -/
def State.modFunc (s : State) (f : Nat) (g : Func → Func) : State :=
  { s with funcs := tput s.funcs f (g (s.func f)) }

/-- The die is part of the variant and in service (R28). -/
def State.usable (s : State) (d : Nat) : Bool := decide (d < s.dieCount) && !(s.die d).lost

/-- The package runs: every die out of reset, firmware at work (R29, R423). -/
def State.running (s : State) : Bool := s.psi.state == .running

/-- Die `d` exists and its firmware and hardware run. -/
def State.live (s : State) (d : Nat) : Bool := s.running && s.usable d && (s.die d).running

/-- The numbers of the usable dies, rising. -/
def State.usableDies (s : State) : List Nat := (List.range s.dieCount).filter s.usable

/-- The dies a mask names (bit n: Dn). -/
def maskDies (m : BitVec 8) : List Nat := (List.range 8).filter fun d => m.getLsbD d

/-- Region `r` of a die. -/
def Die.region (x : Die) (r : Nat) : Region := tget x.regions r Region.reset
/-- `x` with `f` applied to region `r`. -/
def Die.modRegion (x : Die) (r : Nat) (f : Region → Region) : Die :=
  { x with regions := tmod x.regions r Region.reset f }

/-- Matrix tile `t`. -/
def Die.mtile (x : Die) (t : Nat) : MTile := tget x.mtiles t MTile.reset
/-- `x` with `f` applied to matrix tile `t`. -/
def Die.modMTile (x : Die) (t : Nat) (f : MTile → MTile) : Die := { x with mtiles := tmod x.mtiles t MTile.reset f }

/-- Vector tile `t`. -/
def Die.vtile (x : Die) (t : Nat) : VTile := tget x.vtiles t VTile.reset
/-- `x` with `f` applied to vector tile `t`. -/
def Die.modVTile (x : Die) (t : Nat) (f : VTile → VTile) : Die := { x with vtiles := tmod x.vtiles t VTile.reset f }

/-- The key of a tile in `Die.occ`. -/
def tileKey (k : TileKind) (t : Nat) : Nat :=
  match k with
  | .matrix => t
  | .vector => 64 + t

/-- What occupies a tile. -/
def Die.tileOcc (x : Die) (k : TileKind) (t : Nat) : Occ := tget x.occ (tileKey k t) Occ.reset
/-- `x` with `f` applied to a tile's occupancy. -/
def Die.modOcc (x : Die) (k : TileKind) (t : Nat) (f : Occ → Occ) : Die :=
  { x with occ := tmod x.occ (tileKey k t) Occ.reset f }

/-- Wringer `w`. -/
def Die.wringer (x : Die) (w : Nat) : Wringer := tget x.wringers w Wringer.reset
/-- `x` with `f` applied to wringer `w`. -/
def Die.modWringer (x : Die) (w : Nat) (f : Wringer → Wringer) : Die :=
  { x with wringers := tmod x.wringers w Wringer.reset f }

/-- Memory controller `m` (0 to 31 HMC, 32 to 47 LMC). -/
def Die.mc (x : Die) (m : Nat) : MC := tget x.mcs m MC.reset
/-- `x` with `f` applied to controller `m`. -/
def Die.modMC (x : Die) (m : Nat) (f : MC → MC) : Die := { x with mcs := tmod x.mcs m MC.reset f }

/-- Felt port `p`. -/
def Die.felt (x : Die) (p : Nat) : Felt := tget x.felts p Felt.reset
/-- `x` with `f` applied to Felt port `p`. -/
def Die.modFelt (x : Die) (p : Nat) (f : Felt → Felt) : Die := { x with felts := tmod x.felts p Felt.reset f }

/-- Ring `n`. -/
def Die.ring (x : Die) (n : Nat) : Ring := tget x.rings n Ring.reset
/-- `x` with `f` applied to ring `n`. -/
def Die.modRing (x : Die) (n : Nat) (f : Ring → Ring) : Die := { x with rings := tmod x.rings n Ring.reset f }

/-- Knot `k`. -/
def Die.knot (x : Die) (k : Nat) : Knot := tget x.knots k Knot.reset
/-- `x` with `f` applied to knot `k`. -/
def Die.modKnot (x : Die) (k : Nat) (f : Knot → Knot) : Die := { x with knots := tmod x.knots k Knot.reset f }

/-- Ream table entry of handle `h`. -/
def Die.entry (x : Die) (h : Nat) : Ream := tget x.ream h Ream.free
/-- `x` with entry `h` replaced in one indivisible write (R42). -/
def Die.setEntry (x : Die) (h : Nat) (e : Ream) : Die := { x with ream := tput x.ream h e }

/-- Fabric of region `r`. -/
def Die.fabric (x : Die) (r : Nat) : Fabric := tget x.fabrics r Fabric.reset
/-- `x` with `f` applied to the fabric of region `r`. -/
def Die.modFabric (x : Die) (r : Nat) (f : Fabric → Fabric) : Die :=
  { x with fabrics := tmod x.fabrics r Fabric.reset f }

/-- Router `k` (0 to 127 tile routers as Table 18-6 numbers them, 128 + k die router k). -/
def Die.router (x : Die) (k : Nat) : Router := tget x.routers k Router.reset
/-- `x` with `f` applied to router `k`. -/
def Die.modRouter (x : Die) (k : Nat) (f : Router → Router) : Die :=
  { x with routers := tmod x.routers k Router.reset f }

/-- The network interface of an endpoint. -/
def Die.iface (x : Die) (n : Nat) : Iface := tget x.ifaces n Iface.reset
/-- `x` with `f` applied to an interface. -/
def Die.modIface (x : Die) (n : Nat) (f : Iface → Iface) : Die := { x with ifaces := tmod x.ifaces n Iface.reset f }

/-- The check of CFG block `b`. -/
def Die.cfg (x : Die) (b : Nat) : Cfg := tget x.cfgs b Cfg.reset
/-- `x` with `f` applied to a block's check. -/
def Die.modCfg (x : Die) (b : Nat) (f : Cfg → Cfg) : Die := { x with cfgs := tmod x.cfgs b Cfg.reset f }

/-- A tenant's account on a die. -/
def Die.acct (x : Die) (t : Nat) : Acct := tget x.led.accts t Acct.reset

/-- `x` with `f` applied to its ledger. -/
def Die.modLed (x : Die) (f : Ledger → Ledger) : Die := { x with led := f x.led }

/-- An activity added to those of the period: one entry for each payer and row. -/
def addAct : List Activity → Activity → List Activity
  | [], a => [a]
  | b :: r, a => if b.who = a.who ∧ b.row = a.row then { b with count := b.count + a.count } :: r else b :: addAct r a

/-- `n` more of an activity (Table 15-7). -/
def Die.act (x : Die) (row : Nat) (who : Payer) (n : Nat) : Die :=
  { x with acts := addAct x.acts { who := who, row := row, count := n } }

/-- `n` bytes of a channel read or written (Table 15-7: HBM3E row 4, LPDDR5X row 5). -/
def Die.memAct (x : Die) (c : Nat) (who : Payer) (n : Nat) : Die := x.act (if c < 64 then 4 else 5) who (8 * n)

/-- Who pays for what a context does. -/
def Ctx.payer (y : Ctx) : Payer := { tenant := some y.tenant, disp := y.disp }

/-- Who pays for what moves in a ring (R368): the tenant it is assigned to. -/
def Ring.payer (r : Ring) : Payer := { tenant := if r.tenant = 0xFF then none else some r.tenant, disp := none }

/-- Who pays for a request that names a key slot (R332): the slot's tenant, or the device account. -/
def Die.slotPayer (x : Die) (slot : Nat) : Payer :=
  { tenant := (if slot = 0 then none else (tfind x.sealSlots slot).map fun e => e.2.2), disp := none }

/-- The region a channel or wringer lies in (R20): 8r to 8r + 7 and 64 + 2r, 65 + 2r. -/
def chanRegion (c : Nat) : Nat := if c < 64 then c / 8 else (c - 64) / 2

/-- The channel code of a place: PC n of stack k is 32k + n, LC n is 64 + n. -/
def Loc.code (l : Loc) : Nat := if l.tier then 64 + l.chan else 32 * l.stack + l.chan

/-- The place of frame `f` of channel code `c`. -/
def locOf (c f : Nat) : Loc :=
  if c < 64 then { tier := false, stack := c / 32, chan := c % 32, frame := f }
  else { tier := true, stack := 0, chan := c - 64, frame := f }

/-- The key of a frame of a channel. -/
def frameKey (c f : Nat) : Nat := c * 2 ^ 15 + f

/-- The first byte of frame `f` of channel code `c` in `Die.dram`. -/
def frameAddr (c f : Nat) : Nat := c * 2 ^ 36 + f * 524288

/-- The region a tile lies in (R20). -/
def tileRegion (k : TileKind) (t : Nat) : Nat :=
  match k with
  | .matrix => t / 8
  | .vector => t / 4

/-- The matrix arrays of a tile. -/
def MTile.arr (t : MTile) (a : Nat) : Arr := if a = 0 then t.a else t.b
/-- `t` with `f` applied to array `a`. -/
def MTile.modArr (t : MTile) (a : Nat) (f : Arr → Arr) : MTile :=
  if a = 0 then { t with a := f t.a } else { t with b := f t.b }

/-! ## Transactions in flight (R16) -/

/-- Wring and append requests and replies of a die's units that a die holds: on the network, in its wringers. -/
def Die.owedTo (x : Die) (d : Nat) : Nat :=
  (x.reqNet.filter fun q => q.rDie == d).length + (x.repNet.filter fun q => q.rDie == d).length +
    (x.routers.map fun r => (r.2.wakeReq.filter fun q => q.rDie == d).length).sum +
    (x.wringers.map fun w => (w.2.input.filter fun q => q.rDie == d).length +
      (w.2.openR.filter fun o => o.req.rDie == d).length).sum

/-- Memory and network transactions that a die's units have in flight: those of its network interfaces, its wring and append
requests, its streams' bursts, its threads' block fetches, its mover's copies, the requests at its memory controllers. -/
def State.inFlight (s : State) (d : Nat) : Nat :=
  let x := s.die d
  (x.ifaces.map fun f => f.2.txns.length).sum + (s.dies.map fun e => e.2.owedTo d).sum +
    (x.streams.map fun q => q.2.flight.length).sum + (x.threads.map fun h => h.2.fetch.length).sum +
    (x.copies.filter fun c => !c.flipped).length + (x.mcs.map fun m => m.2.queue.length).sum

/-- A new transaction of the die need not wait at its interface. -/
def State.mayIssue (s : State) (d : Nat) : Bool := decide (s.inFlight d < 16384)

/-! ## Counters (R106) -/

/-- A counter's addition: 32-bit counters are modular and set their wrap bit (R106). -/
def Die.countAt (x : Die) (kind unit idx : Nat) (w32 : Bool) (n : Nat) : Die :=
  let k := ctrKey kind unit idx
  let v := tget x.ctrs k 0 + n
  if w32 then
    { x with ctrs := tput x.ctrs k (v % 2 ^ 32), wraps := if v < 2 ^ 32 then x.wraps else tput x.wraps k true }
  else { x with ctrs := tput x.ctrs k (v % 2 ^ 64) }

/-- `n` more on a unit's counter. -/
def Die.count (x : Die) (c : Ctr) (unit n : Nat) : Die := x.countAt c.kind unit c.idx c.w32 n

/-- `n` more on a controller's counter: HMC 0 to 31 as kind 5, LMC as kind 6 (Table 18-6). -/
def Die.countMC (x : Die) (c : Ctr) (m n : Nat) : Die :=
  if m < 32 then x.countAt 5 m c.idx c.w32 n else x.countAt 6 (m - 32) c.idx c.w32 n

/-- `n` more on a router's counter: tile routers 0 to 127 as kind 7, die router k as kind 8. -/
def Die.countRT (x : Die) (c : Ctr) (k n : Nat) : Die :=
  if k < 128 then x.countAt 7 k c.idx c.w32 n else x.countAt 8 (k - 128) c.idx c.w32 n

/-! ## Status codes (Table 9-11) -/

/-- A status's code. -/
def Status.code : Status → Nat
  | .ok => 0x0000
  | .deferredEnergy => 0x0101
  | .deferredCapacity => 0x0102
  | .badOpcode => 0x0201
  | .badParam => 0x0202
  | .noSheets => 0x0301
  | .queueFull => 0x0302
  | .authFail => 0x0401
  | .sigClassicFail => 0x0402
  | .sigPqFail => 0x0403
  | .stateLost => 0x0501
  | .ownerLost => 0x0502
  | .unitFenced => 0x0503
  | .regionUnconfigured => 0x0601
  | .deckleViolation => 0x0602
  | .imageCrc => 0x0603

/-- `detail` of UNIT_FENCED: [31:24] unit kind, [23:16] die, [15:0] unit. -/
def fencedDetail (kind d unit : Nat) : Nat := kind * 2 ^ 24 + d * 2 ^ 16 + unit

/-- `detail` of OWNER_LOST: [18:16] die, [15:0] knot. -/
def ownerDetail (d k : Nat) : Nat := d * 2 ^ 16 + k

/-- `detail` of REGION_UNCONFIGURED: [5:3] die, [2:0] region. -/
def regionDetail (d r : Nat) : Nat := d * 8 + r

/-! ## Events (R440 to R444) -/

/-- An event with every field that does not apply at its "none" (Table 18-4). -/
def Event.blank (code kind level : Nat) (st : Status) : Event :=
  { code := code, kind := kind, level := level, die := 0xFF, region := 0xFF, unitKind := 0, unit := 0, tenant := 0xFF,
    seq := 0xFFFF, arg0 := 0, arg1 := 0, time := 0, status := st, detail := 0 }

/-- The next free value, and the state that has used it (log entry 10). -/
def State.freeNat (s : State) : Nat × State :=
  (Config.freeNat s.freeCount, { s with freeCount := s.freeCount + 1 })

/-- An event raised: it waits for EVENT_POST. Its time is CYC_NCLK of the die it names, or Psiurn's own count, which no rule
gives a value (Table 18-4, log entry 10). -/
def State.emit (s : State) (e : Event) : State :=
  if e.die < 8 then { s with raised := s.raised ++ [{ e with time := (s.die e.die).led.cycN.toNat }] }
  else
    let (n, s1) := s.freeNat
    { s1 with raised := s1.raised ++ [{ e with time := n % 2 ^ 64 }] }

/-- UNIT_FENCED of a unit of die `d` (R442, R444). A Felt port's number is its package link number. -/
def fenceEvent (d kind unit cause : Nat) : Event :=
  let u := if kind = 0x0A then d * 8 + unit else unit
  { Event.blank 0x0002 1 1 .unitFenced with
    die := d, unitKind := kind, unit := u, arg0 := cause, detail := BitVec.ofNat 32 (fencedDetail kind d u) }

/-- The key of a unit in `Die.fenced`, `Die.tests` and `Die.errs`. -/
def unitKey (kind unit : Nat) : Nat := kind * 65536 + unit

/-- Whether a unit is fenced (R23). -/
def Die.isFenced (x : Die) (kind unit : Nat) : Bool := thas x.fenced (unitKey kind unit)

/-- A unit of die `d` is fenced (R23): out of service, UNIT_FENCED posted. A unit already fenced changes nothing; a unit
in an isolated region, or on a lost die, is recorded and posts nothing of its own (R26, R28). -/
def State.fence (s : State) (d kind unit cause : Nat) (region : Option Nat) : State :=
  let x := s.die d
  if x.isFenced kind unit then s
  else
    let s1 := s.modDie d fun x => { x with fenced := tput x.fenced (unitKey kind unit) cause }
    let quiet := x.lost || match region with
      | some r => (x.region r).isolated
      | none => false
    if quiet then s1
    else s1.emit { fenceEvent d kind unit cause with region := region.getD 0xFF }

/-- A unit of die `d` returns: UNIT_RETURNED carries the new route epoch bit (R442, R448). -/
def State.unfence (s : State) (d kind unit : Nat) (region : Option Nat) : State :=
  let s1 := s.modDie d fun x => { x with fenced := tdel x.fenced (unitKey kind unit) }
  let u := if kind = 0x0A then d * 8 + unit else unit
  s1.emit { Event.blank 0x0003 1 1 .ok with
    die := d, unitKind := kind, unit := u, region := region.getD 0xFF, arg0 := b2n (s1.die d).epoch }

/-- NCLK cycles of a second (1.4667 GHz: the 4.4 GHz root divided by 3). -/
def nclkSecond : Nat := 1466666666

/-- NCLK edges in one hour. -/
def nclkHour : Nat := 3600 * nclkSecond

/-- The errors of a block in the rolling window of `win` NCLK edges (R445). -/
def Die.errIn (x : Die) (key win : Nat) : Nat :=
  (((tget x.errs key []).filter fun e => decide (x.led.cycN.toNat ≤ e.1 + win)).map (·.2)).sum

/-- `n` more errors of a block now; those that have left the window are forgotten. -/
def Die.addErr (x : Die) (key win n : Nat) : Die :=
  let l := (tget x.errs key []).filter fun e => decide (x.led.cycN.toNat ≤ e.1 + win)
  { x with errs := tput x.errs key (l ++ [(x.led.cycN.toNat, n)]) }

/-- Corrected errors of a block (R445): the count over the window rises, CORRECTED_REPORT goes out when it reaches `report`, and a
count that reaches `fenceAt` fences the block with cause 3. -/
def State.correctedIn (s : State) (win d kind unit n report : Nat) (fenceAt : Option Nat) (region : Option Nat) : State :=
  let old := (s.die d).errIn (unitKey kind unit) win
  let new := old + n
  let s1 := s.modDie d fun x => x.addErr (unitKey kind unit) win n
  let s2 := if old < report ∧ report ≤ new then
      s1.emit { Event.blank 0x0001 0 1 .ok with
        die := d, unitKind := kind, unit := if kind = 0x0A then d * 8 + unit else unit, region := region.getD 0xFF,
        arg0 := new }
    else s1
  match fenceAt with
  | some f => if f ≤ new then s2.fence d kind unit 3 region else s2
  | none => s2

/-- Corrected errors of a block whose window is 1 h (Table 18-7). -/
def State.corrected (s : State) (d kind unit n report : Nat) (fenceAt : Option Nat) (region : Option Nat) : State :=
  s.correctedIn nclkHour d kind unit n report fenceAt region

/-! ## Free values and stamps -/

/-- The next stamp: a rising count for the orders of R48, R55, R192 to R194 (log entry 12). -/
def State.tick (s : State) : Nat × State := (s.stamp, { s with stamp := s.stamp + 1 })

/-! ## Answers -/

/-- The answer of an event command: its effect if its units exist and the event can come about now. A row that names a unit the
part does not have, or a step that is not under way, names nothing that happens: the state stays (log entry 74). -/
def event (s : State) (units enabled : Bool) (t : State) : Out := .next (if units && enabled then t else s)

/-! ## Replies (R222, R223) -/

/-- The queue number the model gives the sideband mailbox (R435). -/
def mboxQueue : Nat := 8192

/-- The 32-byte reply header of Table 9-10. -/
def replyHeader (rflags opcode : Nat) (seq : BitVec 32) (st : Nat) (rlen : Nat) (detail : BitVec 32) (plen : Nat)
    (crc tag floor : BitVec 32) : List Byte :=
  [1, BitVec.ofNat 8 rflags] ++ le 2 opcode ++ le 4 seq.toNat ++ le 2 st ++ le 2 rlen ++ le 4 detail.toNat ++
    le 4 plen ++ le 4 crc.toNat ++ le 4 tag.toNat ++ le 4 floor.toNat

/-- A reply as the bytes of the mailbox's one reply (R435). -/
def Reply.bytes (r : Reply) (floor : BitVec 32) : List Byte :=
  padTo 64 (replyHeader (4 * b2n r.seqErr + 8 * b2n r.more) r.opcode r.seq r.status.code r.params.length r.detail
    r.payload.length (crc32c r.payload) r.tag floor ++ r.params) ++ r.payload

/-- Replies of packet `p` enter the wait for the ring (R227); those of a DISABLED queue are discarded (R236); the
mailbox's stands in the mailbox (R435). -/
def State.addReplies (s : State) (q : Nat) (l : List Reply) : State :=
  if q = mboxQueue then
    { s with psi := { s.psi with sideband := { s.psi.sideband with
        reply := some (l.flatMap fun r => r.bytes s.psi.sideband.seq) } } }
  else s.modQueue q fun x => if x.st == .disabled then x else { x with held := x.held ++ l }

/-- The packet is no longer one that its queue waits for: the queue was reset, or its die was lost, since it started. Its reply is
discarded (R236). -/
def State.orphaned (s : State) (p : Pkt) : Bool :=
  p.queue != mboxQueue && !((s.queue p.queue).life == p.life && (s.queue p.queue).started.any fun t => t.seq == p.seq)

/-- Packet `p` is complete: it leaves the queue's started packets, or those of an earlier life of the queue. -/
def State.complete (s : State) (p : Pkt) : State :=
  if p.queue = mboxQueue then { s with psi := { s.psi with sideband := { s.psi.sideband with pkt := none } } }
  else s.modQueue p.queue fun x =>
    if x.life = p.life then { x with started := x.started.filter fun t => t.seq != p.seq }
    else { x with old := x.old.filter fun t => !(t.1 == p.life && t.2.seq == p.seq) }

/-- A reply in one entry. -/
def mkReply (code : Nat) (p : Pkt) (st : Status) (detail : Nat) (params payload : List Byte) (more : Bool) : Reply :=
  { opcode := code, seq := p.seq, status := st, detail := BitVec.ofNat 32 detail, params := params, payload := payload,
    tag := p.tag, seqErr := false, more := more, irq := p.irq }

/-- The packet ends with these entries; with QUIET and status OK it posts none (R223). -/
def State.finishMany (s : State) (code : Nat) (p : Pkt) (st : Status) (detail : Nat)
    (parts : List (List Byte × List Byte)) : State :=
  let s1 := s.complete p
  if (p.quiet && st == .ok) || s.orphaned p then s1
  else
    let n := parts.length
    s1.addReplies p.queue
      (parts.mapIdx fun i e => mkReply code p st detail e.1 e.2 (decide (i + 1 < n)))

/-- The packet ends with one entry. -/
def State.finish (s : State) (code : Nat) (p : Pkt) (st : Status) (detail : Nat) (params payload : List Byte) : State :=
  s.finishMany code p st detail [(params, payload)]

/-- The packet is refused: the reply is its only effect (R224). -/
def State.refuse (s : State) (code : Nat) (p : Pkt) (st : Status) (detail : Nat) : State :=
  s.finish code p st detail [] []

/-- The packet ends with OK and nothing else to say. -/
def State.ok (s : State) (code : Nat) (p : Pkt) : State := s.finish code p .ok 0 [] []

/-! ## The gate of the command opcodes (R221, R229) -/

/-- Where an opcode is permitted (the Queue column of Table 9-13). -/
inductive Perm
  | m | t | x
  deriving DecidableEq, Repr

/-- The code of a command opcode, the queues that may carry it, and its packet (R229, Table 9-13). -/
def opcodeOf : Instr → Option (Nat × Perm × Pkt)
  | .tenantCreate p _ _ _ => some (0x0001, .m, p)
  | .tenantDestroy p => some (0x0002, .m, p)
  | .tenantSet p _ _ _ => some (0x0003, .m, p)
  | .ctxCreate p _ _ _ => some (0x0010, .t, p)
  | .ctxDestroy p => some (0x0011, .t, p)
  | .ctxRead p _ _ => some (0x0012, .t, p)
  | .modelCreate p _ _ _ _ _ _ _ => some (0x0101, .t, p)
  | .modelWrite p _ _ _ _ _ => some (0x0102, .t, p)
  | .modelCommit p _ _ => some (0x0103, .t, p)
  | .modelDestroy p _ => some (0x0104, .t, p)
  | .seqOpen p _ _ _ => some (0x0201, .t, p)
  | .seqClose p _ => some (0x0202, .t, p)
  | .seqSuspend p _ _ => some (0x0203, .t, p)
  | .seqResume p _ _ => some (0x0204, .t, p)
  | .seqTruncate p _ _ => some (0x0205, .t, p)
  | .sheetHintPromote p _ _ => some (0x0206, .t, p)
  | .sheetHintDemote p _ _ => some (0x0206, .t, p)
  | .sheetHintPin p _ _ => some (0x0206, .t, p)
  | .sheetHintUnpin p _ _ => some (0x0206, .t, p)
  | .stateIdle p _ _ => some (0x0207, .m, p)
  | .stateWake p _ => some (0x0208, .m, p)
  | .seqQuery p _ => some (0x0209, .t, p)
  | .execDispatch p _ _ _ _ _ => some (0x0301, .x, p)
  | .fabricLoadPart p _ _ _ _ _ _ _ => some (0x0401, .m, p)
  | .fabricLoadFlash p _ _ _ _ => some (0x0401, .m, p)
  | .fabricLoadBind p _ _ => some (0x0401, .m, p)
  | .fabricLoadAbandon p _ => some (0x0401, .m, p)
  | .fabricCaptureFlipFlops p _ _ => some (0x0402, .m, p)
  | .fabricCaptureHalt p _ _ => some (0x0402, .m, p)
  | .fabricCaptureResume p _ _ => some (0x0402, .m, p)
  | .fabricRead p _ _ _ => some (0x0403, .m, p)
  | .fabricClockSetDivisor p _ _ _ => some (0x0404, .m, p)
  | .fabricClockHalt p _ _ => some (0x0404, .m, p)
  | .fabricClockRun p _ _ => some (0x0404, .m, p)
  | .fabricClockReadFctr p _ _ => some (0x0404, .m, p)
  | .knotTie p _ _ _ _ => some (0x0501, .t, p)
  | .knotAdd p _ _ _ => some (0x0502, .t, p)
  | .knotWait p _ _ _ => some (0x0503, .t, p)
  | .knotUntie p _ _ => some (0x0504, .t, p)
  | .knotRead p _ _ => some (0x0505, .t, p)
  | .energyLimit p _ _ => some (0x0601, .m, p)
  | .energyAllow p _ _ _ _ => some (0x0602, .m, p)
  | .energyRead p _ _ => some (0x0603, .t, p)
  | .telCounters p _ _ _ => some (0x0701, .m, p)
  | .telReam p _ _ _ => some (0x0702, .m, p)
  | .telCtx p => some (0x0703, .t, p)
  | .telProbeSetFilter p _ _ => some (0x0704, .m, p)
  | .telProbeStart p _ => some (0x0704, .m, p)
  | .telProbeStop p _ => some (0x0704, .m, p)
  | .telProbeReadCounts p _ => some (0x0704, .m, p)
  | .telProbeReadTrace p _ => some (0x0704, .m, p)
  | .telProbeClearTrace p _ => some (0x0704, .m, p)
  | .testRunSelfTest p _ _ _ => some (0x0710, .m, p)
  | .testRunCalibration p _ _ _ => some (0x0710, .m, p)
  | .testRunLinkRetrain p _ _ _ => some (0x0710, .m, p)
  | .queueCreate p _ _ _ _ _ _ _ _ _ _ _ => some (0x0E01, .m, p)
  | .queueDestroy p _ => some (0x0E02, .m, p)
  | .eventConfig p _ _ _ => some (0x0E03, .m, p)
  | .deviceInfo p => some (0x0E04, .m, p)
  | .keyLoadSealingKey p _ _ _ => some (0x0E10, .m, p)
  | .keyLoadImageKey p _ _ => some (0x0E10, .m, p)
  | .keyLoadIdentityRecord p _ => some (0x0E10, .m, p)
  | .keyRemove p _ _ => some (0x0E11, .m, p)
  | .fwUpdateWrite p _ _ => some (0x0E12, .m, p)
  | .fwUpdateActivate p _ => some (0x0E12, .m, p)
  | .fwUpdateRaiseFwMin p _ => some (0x0E12, .m, p)
  | .fwUpdateRaiseCfgMin p _ => some (0x0E12, .m, p)
  | .debugUnlockNonce p => some (0x0E13, .m, p)
  | .debugUnlockPresent p _ => some (0x0E13, .m, p)
  | .debugUnlockLock p => some (0x0E13, .m, p)
  | _ => none

/-- Step 4 of R221: the queue may carry the opcode, and its binding is the packet's tenant. The mailbox counts as a
management queue for the two opcodes it accepts (R435). -/
def State.permitted (s : State) (perm : Perm) (p : Pkt) : Bool :=
  let x := s.queue p.queue
  let mgmt := decide (p.queue = mboxQueue) || x.cls == 3
  match perm with
  | .m => mgmt
  | .t => mgmt || x.tenant == p.tenant
  | .x => !mgmt && x.tenant == p.tenant

/-- An opcode's packet is refused with what its own checks give, or has its effect `t`. -/
def State.decide1 (s : State) (code : Nat) (p : Pkt) (chk : Option (Status × Nat)) (t : State) : State :=
  match chk with
  | none => t
  | some (st, det) => s.refuse code p st det

/-- The packet of a command opcode as its queue names it. -/
def TakenPkt.pkt (t : TakenPkt) (q life : Nat) : Pkt :=
  { queue := q, seq := t.seq, tag := t.tag, quiet := t.quiet, irq := t.irq, tenant := t.tenant, context := t.context,
    life := life }

/-- Packet `p` is a started packet of opcode `code` on its queue (R225), one of an earlier life of the queue that had started
(R236), or the mailbox's packet (R435). -/
def State.isStarted (s : State) (code : Nat) (p : Pkt) : Bool :=
  let fits (t : TakenPkt) : Bool := t.opcode == code && t.pkt p.queue p.life == p
  if p.queue = mboxQueue then s.psi.sideband.pkt.any fits
  else if (s.queue p.queue).life = p.life then (s.queue p.queue).started.any fits
  else (s.queue p.queue).old.any fun t => t.1 == p.life && fits t.2

/-- Packets whose work is under way on a die: waits on knots, fabric sessions and actions, tests. -/
def Die.underWay (x : Die) : List Pkt :=
  x.knots.flatMap (fun k => k.2.hosts.map (·.1)) ++
    x.fabrics.flatMap (fun f => (f.2.session.toList.map (·.pkt)) ++ f.2.acts.map (·.pkt) ++ f.2.copying.toList.map (·.pkt)) ++
    x.tests.map (·.2.pkt)

/-- Packets whose opcode has begun its work and has not replied: the ones that wait, and those whose work is under way. -/
def State.underWay (s : State) : List Pkt :=
  s.waiting.filterMap (fun i => (opcodeOf i).map (·.2.2)) ++ s.disps.map (·.2.pkt) ++ s.idles.map (·.2.pkt) ++
    s.keyWaits.map (·.1) ++ s.limits.map (·.1) ++ s.queues.filterMap (·.2.destroyer) ++ s.tenants.filterMap (·.2.destroy) ++
    s.dies.flatMap (·.2.underWay)

/-- An opcode's command acts for packet `p`: the package runs, the packet is a started one of that opcode, and its work has not
begun (R221, R225). -/
def State.due (s : State) (code : Nat) (p : Pkt) : Bool := s.running && s.isStarted code p && !(s.underWay.contains p)

/-- An opcode's packet runs if it is due and the queue may carry it (R221 step 4). A command whose packet is not due acts for
nothing: the state stays (log entry 14). -/
def gate (code : Nat) (perm : Perm) (p : Pkt) (t s : State) : Out :=
  .next (if s.due code p then if s.permitted perm p then t else s.refuse code p .authFail 0 else s)

/-- An opcode's packet runs: AUTH_FAIL where it is not permitted (R221 step 4), the refusal its own checks give, or its
effect `t`. -/
def opcode (code : Nat) (perm : Perm) (p : Pkt) (chk : Option (Status × Nat)) (t s : State) : Out :=
  gate code perm p (s.decide1 code p chk t) s

/-- A command waits until what holds it ends (R52, R226, R446). -/
def State.park (s : State) (i : Instr) : State := { s with waiting := s.waiting ++ [i] }

/-- The first refusal of a list of checks (R221: in order, stopping at the first failure). -/
def firstOf : List (Bool × Status × Nat) → Option (Status × Nat)
  | [] => none
  | (bad, st, det) :: r => if bad then some (st, det) else firstOf r

/-- BAD_PARAM at parameter byte `off` (Table 9-11: `detail` is the offset in the packet). -/
def badAt (bad : Bool) (off : Nat) : Bool × Status × Nat := (bad, .badParam, 32 + off)

/-- BAD_PARAM for a header field, at its offset. -/
def badHdr (bad : Bool) (off : Nat) : Bool × Status × Nat := (bad, .badParam, off)

/-- BAD_PARAM with no single field. -/
def badAll (bad : Bool) : Bool × Status × Nat := (bad, .badParam, 0xFFFFFFFF)

/-- DEFERRED_CAPACITY with its `detail`. -/
def deferAt (bad : Bool) (det : Nat) : Bool × Status × Nat := (bad, .deferredCapacity, det)

/-- Any other refusal. -/
def refuseIf (bad : Bool) (st : Status) (det : Nat) : Bool × Status × Nat := (bad, st, det)

/-! ## Memory of a die, sealed (R331, R332) -/

/-- The tweak of 16-byte unit `u` of a sheet (Table 13-2). -/
def sheetTweak (d handle u : Nat) : Nat := d * 2 ^ 34 + handle * 2 ^ 15 + u

/-- The tweak of the 16-byte unit at byte `off` of channel code `c` (Table 13-2, other memory). -/
def placeTweak (d c off : Nat) : Nat :=
  2 ^ 127 + d * 2 ^ 37 + (if c < 64 then 0 else 2 ^ 36) + (if c < 64 then c / 32 * 2 ^ 35 else 0) +
    (if c < 64 then c % 32 else c - 64) * 2 ^ 30 + off / 16

/-- The name of the key a slot holds: two loads of one slot hold different keys unless the keys are equal. -/
def Die.keyOf (x : Die) (slot : Nat) : Nat :=
  match tfind x.sealSlots slot with
  | some (dk, tk, _) => 1 + dk.toNat + tk.toNat * 2 ^ 256
  | none => 0

/-- A LOADED slot (R330). -/
def Die.slotLoaded (x : Die) (slot : Nat) : Bool := thas x.sealSlots slot

/-- What `n` bytes at address `a` of `dram` read as under a key and a tweak (R331): the bytes written, if they were sealed
under the same two (or never written), else what decryption under the wrong ones yields (log entry 7). -/
def Die.readSealed (x : Die) (a n key : Nat) (tweakOf : Nat → Nat) : List Byte :=
  (List.range n).map fun i =>
    let b := mread x.dram (a + i)
    match tfind x.seals ((a + i) / 16) with
    | none => b
    | some q => if q.key = key ∧ q.tweak = tweakOf i then b
                else Config.unsealOther key (tweakOf i) q.key q.tweak b i

/-- Bytes written at address `a` of `dram` under a key and tweaks. A write covers whole 16-byte units. -/
def Die.writeSealed (x : Die) (a key : Nat) (tweakOf : Nat → Nat) (bs : List Byte) : Die :=
  { x with
    dram := mwriteN x.dram a bs
    seals := (List.range (ceilDiv bs.length 16)).foldl
      (fun t i => tput t (a / 16 + i) { key := key, tweak := tweakOf (16 * i) }) x.seals }

/-- A tenant's sealing slot on a die (R429: at most one). -/
def Die.tenantSlot (x : Die) (t : Nat) : Option Nat :=
  (x.sealSlots.find? fun e => e.1 != 0 && e.2.2.2 == t).map (·.1)

end Sys2Proof.Machine
end

