-- ==== Sys2Proof/Machine/Sheets.lean ====
section
/-! DEFINITION. Sequences, the ream table and frames (chapter 2): the operations the commands share. -/

namespace Sys2Proof.Machine

/-! ## Geometry of a sheet (R38, R41) -/

/-- Element width of a state format in bits (Table 2-6). -/
def fmtBits (fmt : Nat) : Nat := if fmt = 0 then 4 else if fmt ≤ 2 then 6 else 8

/-- Bytes of one token slot: B = h × d × (e + 0.25) ÷ 4 (R38). -/
def slotBytes (h d fmt : Nat) : Nat := h * d * (4 * fmtBits fmt + 1) / 16

/-- Token slots of a sheet: S = ⌊524,288 ÷ B⌋ (R38). -/
def sheetSpan (h d fmt : Nat) : Nat := 524288 / slotBytes h d fmt

/-- A model's sheet span. -/
def Model.span (m : Model) : Nat := sheetSpan m.h m.d m.fmt

/-! ## Frames (R40, R336, R466) -/

/-- Frames of a channel (R40): 2,304 on a pseudo-channel, 23,040 on an LPDDR5X channel. -/
def chanFrames (c : Nat) : Nat := if c < 64 then 2304 else 23040

/-- Frames of a channel outside the firmware reserve (R466). -/
def chanOpen (c : Nat) : Nat := if c < 64 then 2272 else 23040

/-- The controller of a channel: HMC c ÷ 2, or LMC (R15). -/
def chanMC (c : Nat) : Nat := if c < 64 then c / 2 else 32 + (c - 64)

/-- The channels of a controller. -/
def mcChans (m : Nat) : List Nat := if m < 32 then [2 * m, 2 * m + 1] else [m + 32]

/-- The state of a channel (R349). -/
def Die.chanState (x : Die) (c : Nat) : ChState :=
  let m := x.mc (chanMC c)
  if c < 64 ∧ c % 2 = 1 then m.ch1 else m.ch0

/-- The channel can hold data: trained and not lost. -/
def Die.chanUp (x : Die) (c : Nat) : Bool :=
  match x.chanState c with
  | .active => true
  | .selfRefresh => true
  | .absent => false
  | .lost => false

/-- Keys of the frames in use as sheet frames: those of issued entries but DROPPED ones (R52, R55), the destinations that
copies reserved and the old places that wait for their release (R49). -/
def Die.sheetFrames (x : Die) : List Nat :=
  ((x.ream.filter fun e => e.2.st != .free && e.2.st != .dropped).map fun e => frameKey e.2.loc.code e.2.loc.frame) ++
    x.copies.map fun c => if c.flipped then frameKey c.src.code c.src.frame else frameKey c.dst.code c.dst.frame

/-- A frame whose segment is dropped or being initialised holds nothing (R52, R345). -/
def Die.segOut (x : Die) (c f : Nat) : Bool :=
  decide (64 ≤ c) && (x.dropped.getLsbD (f / 2880) || x.initSegs.contains ((c - 64) * 8 + f / 2880))

/-- A free frame (R466): not issued, not reserved, not retired, in refreshed memory of a channel in service. -/
def Die.frameFree (x : Die) (c f : Nat) : Bool :=
  decide (f < chanOpen c) && x.chanUp c && !(x.segOut c f) && !(x.sheetFrames.contains (frameKey c f)) &&
    !(thas x.reserved (frameKey c f)) && !(x.retired.contains (frameKey c f))

/-- The lowest free frame of a channel (R47). -/
def Die.lowFrame (x : Die) (c : Nat) : Option Nat := least (chanOpen c) (x.frameFree c)

/-- How many frames of a channel are free. -/
def Die.freeCount (x : Die) (c : Nat) : Nat := ((List.range (chanOpen c)).filter (x.frameFree c)).length

/-- Free HBM3E frames of a die. -/
def Die.freeHbm (x : Die) : Nat := ((List.range 64).map x.freeCount).sum

/-- Free HBM3E frames of a region. -/
def Die.freeHbmRegion (x : Die) (r : Nat) : Nat := ((List.range 8).map fun i => x.freeCount (8 * r + i)).sum

/-- `l` from its `i`-th element on, wrapping. -/
def rotate {α : Type} (l : List α) (i : Nat) : List α := l.drop (i % l.length) ++ l.take (i % l.length)

/-- The channel lists of Table 2-10, as channel codes. -/
def chanList (tier dieSpread : Bool) (region : Nat) : List Nat :=
  match tier, dieSpread with
  | false, false => (List.range 8).map (8 * region + ·)
  | false, true => List.range 64
  | true, false => [64 + 2 * region, 65 + 2 * region]
  | true, true => (List.range 16).map (64 + ·)

/-- The first channel of a list with a frame that `free` accepts, and its lowest such frame. -/
def firstFrame (cap : Nat → Nat) (free : Nat → Nat → Bool) : List Nat → Option (Nat × Nat)
  | [] => none
  | c :: r =>
    match least (cap c) (free c) with
    | some f => some (c, f)
    | none => firstFrame cap free r

/-- A frame for index `i` of a channel list (R47): that channel, then the following ones, wrapping. -/
def Die.placeFrame (x : Die) (l : List Nat) (i : Nat) : Option (Nat × Nat) :=
  firstFrame chanOpen x.frameFree (rotate l i)

/-- A frame for sheet `j` of layer `ly` in one tier (R47). -/
def Die.placeSheet (x : Die) (tier dieSpread : Bool) (region ly j : Nat) : Option (Nat × Nat) :=
  x.placeFrame (chanList tier dieSpread region) (ly + j)

/-! ## Handles and entries (R39, R42, R45) -/

/-- The lowest handle that is not issued (R39). -/
def Die.newHandle (x : Die) : Option Nat := least 516096 fun h => (x.entry h).st == .free

/-- The issued entries of a sequence. -/
def Die.seqEntries (x : Die) (n : Nat) : List (Nat × Ream) :=
  x.ream.filter fun e => e.2.st != .free && e.2.seq == n

/-- A copy of this sheet that has not flipped. -/
def Die.copyOf (x : Die) (h : Nat) : Option Copy := x.copies.find? fun c => c.handle == h && !c.flipped

/-- A copy is cancelled (Table 2-12, step 4 path): the entry returns to its state before, the destination to the pool. -/
def Die.cancelCopy (x : Die) (h : Nat) : Die :=
  match x.copyOf h with
  | none => x
  | some c =>
    let e := x.entry h
    { x.setEntry h { e with st := c.prev } with copies := x.copies.filter fun k => k.handle != h || k.flipped }

/-- A sheet is freed (R46): its copy is cancelled first, its handle may be issued again. R45 names only the state FREE; that every
other field of a FREE entry reads as zero is the model's choice (DESIGN CHOICE, log entry 76). -/
def Die.freeSheet (x : Die) (h : Nat) : Die :=
  let y := x.cancelCopy h
  { y with
    ream := tdel y.ream h
    hints := y.hints.filter fun k => k.1 != h
    reamBad := y.reamBad.filter (· != h) }

/-- The home die of a sequence (R34). -/
def seqDie (n : Nat) : Nat := n / 2048

/-- Sheets that are DROPPED or LOST. -/
def Ream.gone (e : Ream) : Bool := e.st == .dropped || e.st == .lost

/-- The lost sheets of a sequence, lowest first token first. -/
def Die.lostSheets (x : Die) (n : Nat) : List (Nat × Ream) := (x.seqEntries n).filter fun e => e.2.gone

/-- A sequence's first lost token (R53): the lowest `first_tok` among its DROPPED and LOST sheets. -/
def Die.firstLost (x : Die) (n : Nat) : Option Nat :=
  (argmin (fun e => e.2.first) (x.lostSheets n)).map fun e => e.2.first

/-- A sequence. -/
def State.seq (s : State) (n : Nat) : Option Sequence := tfind s.seqs n

/-- `s` with `f` applied to an open sequence. -/
def State.modSeq (s : State) (n : Nat) (f : Sequence → Sequence) : State :=
  match s.seq n with
  | some q => { s with seqs := tput s.seqs n (f q) }
  | none => s

/-- SEQ_LOST of a sequence (R35, R442). -/
def State.seqLostEvent (s : State) (n : Nat) (q : Sequence) : Event :=
  let x := s.die (seqDie n)
  let e := argmin (fun e => e.2.first) (x.lostSheets n)
  let tok := (e.map fun e => e.2.first).getD 0
  { Event.blank 0x0010 3 1 .stateLost with
    die := seqDie n, region := q.region, tenant := q.tenant, seq := n, arg0 := tok, arg1 := (e.map (·.1)).getD 0,
    detail := BitVec.ofNat 32 tok }

/-- A sequence with a DROPPED or LOST sheet becomes LOST (R35); SEQ_LOST goes out once, unless a STATE_IDLE did it. -/
def State.loseSeq (s : State) (byIdle : Bool) (n : Nat) : State :=
  match s.seq n with
  | none => s
  | some q =>
    if q.st == .lost then s
    else
      let s1 := s.modSeq n fun q => { q with st := .lost, lostTold := true }
      if byIdle then s1 else s1.emit (s.seqLostEvent n q)

/-- The sheets `hs` of die `d` become `st` (DROPPED or LOST), and their sequences LOST. -/
def State.markGone (s : State) (d : Nat) (hs : List Nat) (st : SheetState) (byIdle : Bool) : State :=
  let x := s.die d
  let y := hs.foldl (fun y h => let z := y.cancelCopy h; z.setEntry h { z.entry h with st := st }) x
  let seqs := (hs.map fun h => (x.entry h).seq).eraseDups
  seqs.foldl (fun s n => s.loseSeq byIdle n) (s.setDie d y)

/-! ## Counting sequences (R18, R36) -/

/-- Sequences homed on a die. -/
def State.seqsOn (s : State) (d : Nat) : List (Nat × Sequence) := s.seqs.filter fun e => seqDie e.1 == d

/-- Resident sequences of a die. -/
def State.resident (s : State) (d : Nat) : Nat := (s.seqsOn d).length

/-- ACTIVE sequences of a die. -/
def State.active (s : State) (d : Nat) : Nat := ((s.seqsOn d).filter fun e => e.2.st == .active).length

/-- A tenant holds a sealing key on a die (R429). -/
def State.hasKey (s : State) (d t : Nat) : Bool := ((s.die d).tenantSlot t).isSome

/-- Some region of the die is not isolated. -/
def Die.someRegion (x : Die) : Bool := (List.range 8).any fun r => !(x.region r).isolated

/-- The home region of a new sequence (R34): not isolated, the most free HBM3E frames, the lowest number among equals. -/
def Die.homeRegion (x : Die) : Nat :=
  (argmax x.freeHbmRegion ((List.range 8).filter fun r => !(x.region r).isolated)).getD 0

/-- A sequence's sheets are all freed and its number is free (R35, R46). -/
def State.closeSeq (s : State) (n : Nat) : State :=
  let d := seqDie n
  let s1 := s.modDie d fun x => (x.seqEntries n).foldl (fun x e => x.freeSheet e.1) x
  { s1 with seqs := tdel s1.seqs n }

/-! ## Key removal (R50, R430) -/

/-- Some entry of the die names the slot. -/
def Die.slotNamed (x : Die) (slot : Nat) : Bool := x.ream.any fun e => e.2.st != .free && e.2.slot == slot

/-- The tenant's slot on a die is cleared if no entry names it. -/
def Die.clearKey (x : Die) (t : Nat) : Die :=
  match x.tenantSlot t with
  | some k => if x.slotNamed k then x else { x with sealSlots := tdel x.sealSlots k }
  | none => x

/-- The tenant's key still stands on the die. -/
def State.keyLeft (s : State) (t d : Nat) : Bool := s.hasKey d t

/-- One waiting KEY_REMOVE: its dies that can be cleared are; its reply goes out when none is left. Number 0xFFFF as the
packet's queue marks the removal that TENANT_DESTROY started (R430), which has no reply of its own. -/
def State.settleKey (s : State) (k : Pkt × Nat × List Nat) : State :=
  let s1 := k.2.2.foldl (fun s d => s.modDie d fun x => x.clearKey k.2.1) s
  let left := k.2.2.filter fun d => s1.keyLeft k.2.1 d
  if left.isEmpty then (if k.1.queue = 0xFFFF then s1 else s1.ok 0x0E11 k.1)
  else { s1 with keyWaits := s1.keyWaits ++ [(k.1, k.2.1, left)] }

/-- Every waiting KEY_REMOVE is looked at again (R50). -/
def State.settleKeys (s : State) : State :=
  s.keyWaits.foldl (fun s k => s.settleKey k) { s with keyWaits := [] }

/-! ## Reservations (R466) -/

/-- `n` free frames of a channel from the highest downward. -/
def Die.highFrames (x : Die) (c : Nat) : Nat → Nat → List Nat
  | 0, _ => []
  | _, 0 => []
  | top + 1, n + 1 => if x.frameFree c top then top :: x.highFrames c top n else x.highFrames c top (n + 1)

/-- `n` frames of every pseudo-channel reserved for `owner`. -/
def Die.reserveAll (x : Die) (n owner : Nat) : Die :=
  let put1 (c : Nat) (t : Tbl Nat) : Tbl Nat := (x.highFrames c 2272 n).foldl (fun t f => tput t (frameKey c f) owner) t
  { x with reserved := (List.range 64).foldl (fun t c => put1 c t) x.reserved }

/-- `n` frames dealt round-robin over the pseudo-channels, one at a time, highest free frame first (R466), with their keys in
the order dealt; `none` when a channel that is due has none. -/
def Die.deal (x : Die) (owner : Nat) : Nat → Option (Die × List Nat)
  | 0 => some (x, [])
  | n + 1 =>
    match x.deal owner n with
    | none => none
    | some (y, l) =>
      let c := y.dealNext % 64
      match y.highFrames c 2272 1 with
      | [] => none
      | f :: _ =>
        some ({ y with reserved := tput y.reserved (frameKey c f) owner, dealNext := (y.dealNext + 1) % 64 },
          l ++ [frameKey c f])

/-- `n` frames dealt round-robin over the pseudo-channels `on`, starting after the one on which the die's last allocation ended. -/
def Die.dealOn (x : Die) (on : List Nat) (owner : Nat) : Nat → Option (Die × List Nat)
  | 0 => some (x, [])
  | n + 1 =>
    match x.dealOn on owner n with
    | none => none
    | some (y, l) =>
      match (on.find? fun c => decide (y.dealNext % 64 ≤ c)).or on.head? with
      | none => none
      | some c =>
        match y.highFrames c 2272 1 with
        | [] => none
        | f :: _ => some ({ y with reserved := tput y.reserved (frameKey c f) owner, dealNext := (c + 1) % 64 }, l ++ [frameKey c f])

/-- Reserved frames of an owner are given back. -/
def Die.unreserve (x : Die) (owner : Nat) : Die := { x with reserved := x.reserved.filter fun e => e.2 != owner }

end Sys2Proof.Machine
end

