-- ==== Sys2Proof/Machine/CtxOps.lean ====
section
/-! DEFINITION. Contexts, tiles and knots (chapter 8): the operations the commands share. -/

namespace Sys2Proof.Machine

/-! ## Access -/

/-- Bits `hi` to `lo` of word `n` (byte offset 4 × n) of a 64-byte descriptor. -/
def dw (desc : BitVec 512) (n hi lo : Nat) : Nat := bitsOf desc.toNat (32 * n + hi) (32 * n + lo)

/-- Tiles of a kind on a die. -/
def tileCount : TileKind → Nat
  | .matrix => 64
  | .vector => 32

/-- The unit kind of a tile (Table 18-6). -/
def tileUnit : TileKind → Nat
  | .matrix => 1
  | .vector => 3

/-- Context `c` of a die. -/
def Die.ctx (x : Die) (c : Nat) : Option Ctx := tfind x.ctxs c

/-- `x` with `f` applied to context `c`, if there is one. -/
def Die.modCtx (x : Die) (c : Nat) (f : Ctx → Ctx) : Die :=
  match x.ctx c with
  | some k => { x with ctxs := tput x.ctxs c (f k) }
  | none => x

/-- `s` with `f` applied to context `c` of die `d`. -/
def State.modCtx (s : State) (d c : Nat) (f : Ctx → Ctx) : State := s.modDie d fun x => x.modCtx c f

/-- The package-wide number of a context (R187). -/
def ctxNo (d c : Nat) : Nat := d * 4096 + c

/-- Knots a tenant owns (R201): 1,024 + 1,008 t to 1,024 + 1,008 t + 1,007. -/
def knotOfTenant (t k : Nat) : Bool := decide (1024 + 1008 * t ≤ k) && decide (k ≤ 1024 + 1008 * t + 1007)

/-- Bytes of local memory a context's image can hold outside its declared memory (Table 8-2). -/
def imageRoom (k : TileKind) (declBytes : Nat) : Nat :=
  match k with
  | .matrix => 2097920 - 1179648 + declBytes
  | .vector => 14656 + declBytes

/-! ## Completion records and the end of a context's work for a dispatch -/

/-- A completion record goes to the context's ring; a writer that finds the ring full waits (R190). -/
def State.writeRec (s : State) (d c : Nat) (r : CRec) : State :=
  s.modCtx d c fun k =>
    if k.ring.length < 256 then { k with ring := k.ring ++ [r] } else { k with ringWait := k.ringWait ++ [r] }

/-- The records firmware reports: status not OK, or `fpstat` nonzero (R190). -/
def reported (pc : Nat) (l : List CRec) : List RecOut :=
  (l.filter fun r => r.status != .ok || r.fp != 0).map fun r => { ctx := pc, tag := r.tag, status := r.status, fp := r.fp }

/-- Records drained into a dispatch (R190, R233): `fpstat` is gathered into the entries the context serves. -/
def Dispatch.take (x : Dispatch) (pc : Nat) (l : List CRec) : Dispatch :=
  let served := ((x.ctxs.find? fun e => e.1 == pc).map (·.2)).getD []
  let fp := l.foldl (fun a r => Nat.lor a r.fp) 0
  { x with
    recs := x.recs ++ reported pc l
    entries := x.entries.mapIdx fun i e => if served.contains i then { e with fp := Nat.lor e.fp fp } else e }

/-- The context served its entries to the end, or gives them its failure (R233: the first failure stands). -/
def Dispatch.endCtx (x : Dispatch) (pc : Nat) (st : Status) : Dispatch :=
  let served := ((x.ctxs.find? fun e => e.1 == pc).map (·.2)).getD []
  { x with
    ctxs := x.ctxs.filter fun e => e.1 != pc
    entries := x.entries.mapIdx fun i e =>
      if served.contains i && e.status == .ok then { e with status := st } else e }

/-- A descriptor's failure gives its status to every entry its context serves, a failure confined to one sequence's wring or append
to that sequence's (R53, R233). -/
def State.failServed (s : State) (d c : Nat) (st : Status) (only : Option Nat) : State :=
  match ((s.die d).ctx c).bind (·.disp) with
  | none => s
  | some id =>
    match tfind s.disps id with
    | none => s
    | some x =>
      let served := ((x.ctxs.find? fun e => e.1 == ctxNo d c).map (·.2)).getD []
      { s with disps := tput s.disps id { x with
          entries := x.entries.mapIdx fun i e =>
            if served.contains i && e.status == .ok && (only == none || only == some e.seq) then { e with status := st } else e } }

/-- A record drained from a ring reaches the dispatch that runs the context. -/
def State.drained (s : State) (d c : Nat) (l : List CRec) : State :=
  match ((s.die d).ctx c).bind (·.disp) with
  | none => s
  | some id =>
    match tfind s.disps id with
    | none => s
    | some x => { s with disps := tput s.disps id (x.take (ctxNo d c) l) }

/-- The context's work for its dispatch has ended: its ring is drained and its entries have their status. -/
def State.endCtx (s : State) (d c : Nat) (st : Status) : State :=
  match (s.die d).ctx c with
  | none => s
  | some k =>
    let s1 := s.drained d c (k.ring ++ k.ringWait)
    let s2 := match k.disp with
      | none => s1
      | some id =>
        match tfind s1.disps id with
        | none => s1
        | some x => { s1 with disps := tput s1.disps id (x.endCtx (ctxNo d c) st) }
    s2.modCtx d c fun k => { k with ring := [], ringWait := [], disp := none }

/-! ## The end of an array's descriptor (R118) -/

/-- A knot add on its way from a pattern, a descriptor or a stream to the knot unit (R203, R206). -/
def State.sendAdd (s : State) (d k : Nat) (n : BitVec 64) : State :=
  s.modDie d fun x => { x with knotNet := x.knotNet ++ [.add k n] }
/-- `tag` of a descriptor (Table 5-3, Table 5-7). -/
def descTag (d : BitVec 512) : Nat := if dw d 0 31 28 = 2 then dw d 15 31 16 else dw d 12 31 16
/-- `knot_en` of a descriptor. -/
def descKnotEn (d : BitVec 512) : Bool := if dw d 0 31 28 = 2 then dw d 0 11 11 == 1 else dw d 0 23 23 == 1
/-- `done_knot` of a descriptor. -/
def descKnot (d : BitVec 512) : Nat := if dw d 0 31 28 = 2 then dw d 15 15 0 else dw d 12 15 0

/-- The record, the knot add and the status of the entries at the end of a descriptor (R118, R233): `checked` says that it passed
its check, so that its add goes out though its context is destroyed (R211); `only` names the sequence that a failure is confined
to. -/
def State.endDesc (s : State) (d ctx : Nat) (desc : BitVec 512) (st : Status) (fp : Nat) (checked : Bool) (only : Option Nat) :
    State :=
  let s1 := s.writeRec d ctx { tag := descTag desc, status := st, fp := fp }
  let s2 := if st = .ok then s1 else s1.failServed d ctx st only
  let own := checked || match (s.die d).ctx ctx with
    | some y => knotOfTenant y.tenant (descKnot desc)
    | none => false
  if descKnotEn desc && own then s2.sendAdd d (descKnot desc) 1 else s2

/-! ## Tiles -/

/-- The tile can be granted: in service with both its arrays, no test waiting for it, no switch under way; one that is rinsed after
its resident left is free already (R192, R199, R211). -/
def Die.tileOk (x : Die) (k : TileKind) (t : Nat) : Bool :=
  let o := x.tileOcc k t
  let half : Bool := match k with
    | .matrix => x.isFenced 2 (2 * t) || x.isFenced 2 (2 * t + 1)
    | .vector => false
  !(x.isFenced (tileUnit k) t) && !half && !(x.region (tileRegion k t)).isolated && !o.drain &&
    (o.phase == .none || (o.phase == .rinsing && o.res.isNone)) && o.inc.isNone && o.after.isNone

/-- The resident of a tile. -/
def Die.resident (x : Die) (k : TileKind) (t : Nat) : Option (Nat × Ctx) :=
  match (x.tileOcc k t).res with
  | some c => (x.ctx c).map fun y => (c, y)
  | none => none

/-- A tile with no resident. -/
def Die.tileEmpty (x : Die) (k : TileKind) (t : Nat) : Bool := x.tileOk k t && (x.tileOcc k t).res.isNone

/-- A tile whose resident is WAITING and not being resumed (R192, R205). -/
def Die.tileWaiting (x : Die) (k : TileKind) (t : Nat) : Bool :=
  x.tileOk k t && match x.resident k t with
    | some (_, y) => y.st == .waiting && !y.woken
    | none => false

/-- A context that waits to come in on some tile. -/
def Die.incoming (x : Die) (c : Nat) : Bool := x.occ.any fun e => e.2.inc == some c

/-- READY contexts of a kind that no tile has been granted to. -/
def Die.readyCtxs (x : Die) (k : TileKind) : List (Nat × Ctx) :=
  x.ctxs.filter fun e => e.2.st == .ready && decide (e.2.kind = k) && !(x.incoming e.1)

/-- The READY context that a grant goes to (R192): one that has waited through 64 grants to higher classes first, then by
class, then in the order of becoming READY. `only` narrows the candidates. -/
def Die.pickReady (x : Die) (k : TileKind) (only : Ctx → Bool) : Option (Nat × Ctx) :=
  let l := (x.readyCtxs k).filter fun e => only e.2
  match argmin (fun e => e.2.readyNo) (l.filter fun e => decide (64 ≤ e.2.waited)) with
  | some e => some e
  | none =>
    match argmin (fun e => e.2.cls) l with
    | some e => argmin (fun e => e.2.readyNo) (l.filter fun f => f.2.cls == e.2.cls)
    | none => none

/-- The counts of R192 after a grant of the kind to class `g`. -/
def Die.countGrant (x : Die) (k : TileKind) (c g : Nat) : Die :=
  { x with ctxs := tmapv x.ctxs fun n y =>
      if decide (y.kind = k) && y.st == .ready && n != c then
        { y with waited := if g < y.cls then y.waited + 1 else 0 }
      else if n = c then { y with waited := 0 } else y }

/-- A matrix tile has a thread slot that the dispatch of the context bound (R141). -/
def Die.threadTile (x : Die) (k : TileKind) (y : Ctx) (t : Nat) : Bool :=
  match k with
  | .vector => false
  | .matrix => (x.mtile t).slots.any fun q => match tfind x.threads q.2.thread with
    | some h => y.disp == some h.disp
    | none => false

/-- The tile a context prefers among some (R192): where it last ran, its home region, the lowest number. A tile that firmware
chose for a weight thread of its dispatch (R141) comes before the home region (log entry 32). -/
def Die.preferTile (x : Die) (k : TileKind) (y : Ctx) (l : List Nat) : Option Nat :=
  match l.find? fun t => y.lastTile == some t with
  | some t => some t
  | none =>
    match l.find? fun t => x.threadTile k y t with
    | some t => some t
    | none =>
      match l.find? fun t => tileRegion k t == y.region with
      | some t => some t
      | none => l.head?

/-- The free tile a context is granted (R192): one with no resident, else the one whose resident began waiting first. -/
def Die.pickTile (x : Die) (k : TileKind) (y : Ctx) : Option Nat :=
  match x.preferTile k y ((List.range (tileCount k)).filter (x.tileEmpty k)) with
  | some t => some t
  | none => argmin (fun t => ((x.resident k t).map fun e => e.2.waitNo).getD 0)
      ((List.range (tileCount k)).filter (x.tileWaiting k))

/-- The running context a real-time one pre-empts (R194): lowest class, latest quantum; never a real-time one. -/
def Die.victim (x : Die) (k : TileKind) : Option Nat :=
  let l := (List.range (tileCount k)).filter fun t => x.tileOk k t && match x.resident k t with
    | some (_, y) => y.st == .running && decide (0 < y.cls)
    | none => false
  let cls t := ((x.resident k t).map fun e => e.2.cls).getD 0
  let q t := ((x.resident k t).map fun e => e.2.quantNo).getD 0
  match argmax cls l with
  | some t => argmax q (l.filter fun u => cls u == cls t)
  | none => none

/-- A real-time context became READY (R194): with no tile of its kind free it pre-empts a running context; the tile is
then due to switch to it. -/
def State.preempt (s : State) (d c : Nat) : State :=
  let x := s.die d
  match x.ctx c with
  | none => s
  | some y =>
    if y.cls = 0 ∧ y.st = .ready ∧ (x.pickTile y.kind y).isNone then
      match x.victim y.kind with
      | some t => s.modDie d fun x =>
          ((x.modOcc y.kind t fun o => { o with inc := some c }).countGrant y.kind c 0).count cxPreempts 0 1
      | none => s
    else s

/-- A context becomes READY (Table 8-3); a real-time one may pre-empt (R194). -/
def State.makeReady (s : State) (d c : Nat) : State :=
  let (n, s1) := s.tick
  (s1.modCtx d c fun k => { k with st := .ready, readyNo := n, waited := 0, wait := none, woken := false }).preempt d c

/-- What precedes the rinse of a tile whose resident is not saved (R196: only step 3 is skipped): a matrix tile quiesces first. -/
def unsavedPhase (k : TileKind) : SwPhase :=
  match k with
  | .matrix => .quiescing
  | .vector => .rinsing

/-- The resident of a tile ends its pattern (R182, R183): its tile is rinsed, then it is CREATED or FAILED. HALT finds the arrays idle;
a halt with another status lets a matrix tile quiesce first (R195, R196). -/
def State.haltOn (s : State) (d : Nat) (k : TileKind) (t : Nat) (st : Status) : State :=
  match (s.die d).resident k t with
  | none => s
  | some (c, _) =>
    (s.modDie d fun x => x.modOcc k t fun o =>
        { o with phase := if st = .ok then .rinsing else unsavedPhase k, retried := false
                 after := some (if st = .ok then .created else .failed) }).modCtx d c
      fun y => { y with failSt := st, wait := none, woken := false }

/-- The streams of a context end at a burst boundary (R158). -/
def Die.endStreams (x : Die) (y : Ctx) : Die := { x with streams := x.streams.filter fun e => !(y.streams.contains e.1) }

/-! ## Knots (R203 to R209) -/

/-- A waiter of a knot met its target (R205): a resident one is woken and resumes at KNOT_WAKE, a saved one is READY, one
being saved will be READY once the save is checked. -/
def State.wakeCtx (s : State) (d c : Nat) : State :=
  match (s.die d).ctx c with
  | none => s
  | some y =>
    match y.st with
    | .waiting => if y.tile.isSome then s.modCtx d c fun y => { y with woken := true } else s.makeReady d c
    | .saving => s.modCtx d c fun y => { y with wait := none }
    | .created => s
    | .ready => s
    | .running => s
    | .failed => s

/-- `n` is added to a knot, and each waiter is tested in the same update (R203, R204). -/
def State.knotAddNow (s : State) (d k : Nat) (n : BitVec 64) : State :=
  let kn := (s.die d).knot k
  if kn.tied then
    let v := kn.value + n
    let carry := decide (2 ^ 64 ≤ kn.value.toNat + n.toNat)
    let met := kn.waits.filter fun w => decide (w.2.toNat ≤ v.toNat)
    let hmet := kn.hosts.filter fun w => decide (w.2.toNat ≤ v.toNat)
    let s1 := s.modDie d fun x =>
      ((x.modKnot k fun kn => { kn with
          value := v, wrap := kn.wrap || carry
          waits := kn.waits.filter fun w => !decide (w.2.toNat ≤ v.toNat)
          hosts := kn.hosts.filter fun w => !decide (w.2.toNat ≤ v.toNat) }).count knAdds 0 1).count knWakes 0
        (met.length + hmet.length)
    let s2 := met.foldl (fun s w => s.wakeCtx d w.1) s1
    hmet.foldl (fun s w => s.finish 0x0503 w.1 .ok 0 (le 8 v.toNat) []) s2
  else s.modDie d fun x => x.count knStrayAdds 0 1

/-- A context whose knot's owner is lost ends with OWNER_LOST (R181, R207): on its tile it is rinsed away, while saving it
fails once the save is done (R211), saved it fails at once. -/
def State.orphan (s : State) (d c : Nat) (st : Status) : State :=
  match (s.die d).ctx c with
  | none => s
  | some y =>
    match y.st with
    | .waiting =>
      match y.tile with
      | some t => (s.haltOn d y.kind t st).writeRec d c { tag := 0, status := st, fp := 0 }
      | none =>
        (((s.writeRec d c { tag := 0, status := st, fp := 0 }).endCtx d c st).modCtx d c
          fun y => { y with st := .failed, image := .none, wait := none, failSt := st }).modDie d fun x => x.endStreams y
    | .saving => (s.modCtx d c fun y => { y with wait := none, failSt := st }).writeRec d c { tag := 0, status := st, fp := 0 }
    | .created => s
    | .ready => s
    | .running => s
    | .failed => s

/-- One knot is untied (R203): every waiter is woken with OWNER_LOST; the contexts among them are named. -/
def State.untieOne (s : State) (d k : Nat) : State × List Nat :=
  let kn := (s.die d).knot k
  let s1 := s.modDie d fun x =>
    (x.modKnot k fun kn => { kn with tied := false, waits := [], hosts := [] }).count knOwnerLost 0
      (kn.waits.length + kn.hosts.length)
  let s2 := kn.hosts.foldl (fun s w => s.finish 0x0503 w.1 .ownerLost (ownerDetail d k) [] []) s1
  (kn.waits.foldl (fun s w => s.orphan d w.1 .ownerLost) s2, kn.waits.map (·.1))

/-- The knots a context owns (R202, R207). -/
def Die.owned (x : Die) (c : Nat) : List Nat :=
  (x.knots.filter fun e => e.2.tied && e.2.owner == c && decide (1024 ≤ e.1)).map (·.1)

/-- Every knot of the lost owners is untied, and of the waiters that are lost with them in turn (R207). -/
def State.unwind (d : Nat) : Nat → List Nat → State → State
  | 0, _, s => s
  | _, [], s => s
  | fuel + 1, c :: r, s =>
    let step (p : State × List Nat) (k : Nat) : State × List Nat :=
      let q := p.1.untieOne d k
      (q.1, p.2 ++ q.2)
    let p := ((s.die d).owned c).foldl step (s, [])
    State.unwind d fuel (r ++ p.2) p.1

/-- The owner is lost: its knots are untied, the chain of waiters unwinds (R207). -/
def State.loseOwner (s : State) (d c : Nat) : State :=
  State.unwind d ((s.die d).ctxs.length + (s.die d).knots.length + 1) [c] s

/-- A knot is untied by command (KNOT_UNTIE, or an entry lost, R207). -/
def State.untie (s : State) (d k : Nat) : State :=
  let p := s.untieOne d k
  State.unwind d ((s.die d).ctxs.length + (s.die d).knots.length + 1) p.2 p.1

/-! ## Ends of contexts (R191, R199, R207, R208) -/

/-- A context stops waiting on its knot without being woken. -/
def Die.unwait (x : Die) (c : Nat) : Die :=
  { x with knots := tmapv x.knots fun _ k => { k with waits := k.waits.filter fun w => w.1 != c } }

/-- No context comes in any more; a tile that was being restored is rinsed again (R196). -/
def Occ.noInc (o : Occ) : Occ := { o with inc := none, phase := if o.phase == .restoring then .rinsing else o.phase }

/-- A context comes in on no tile any more. -/
def Die.dropInc (x : Die) (c : Nat) : Die :=
  { x with occ := tmapv x.occ fun _ o => if o.inc == some c then o.noInc else o }

/-- A context becomes FAILED with `st` and keeps its number (Table 8-3); its knots are untied. -/
def State.failCtx (s : State) (d c : Nat) (st : Status) : State :=
  (((s.endCtx d c st).modCtx d c fun y =>
      { y with st := .failed, image := .none, tile := none, wait := none, woken := false, failSt := st }).modDie d
    fun x => match x.ctx c with
      | some y => ((x.unwait c).dropInc c).endStreams y
      | none => x).loseOwner d c

/-- A resident context loses what it holds on its tile, and no image is saved (R199, R208). -/
def State.failOn (s : State) (d : Nat) (k : TileKind) (t : Nat) (st : Status) : State :=
  match (s.die d).resident k t with
  | none => s
  | some (c, _) =>
    (s.modDie d fun x => x.modOcc k t fun o =>
      { o with res := none, phase := .rinsing, retried := false, after := none }).failCtx d c st

/-- A context is destroyed and its number is free (Table 8-3): its streams end, its tile quiesces and is rinsed (R196), its reservation in the
image store is given back, its knots are untied. -/
def State.destroyCtx (s : State) (d c : Nat) (st : Status) : State :=
  match (s.die d).ctx c with
  | none => s
  | some y =>
    let s1 := s.endCtx d c st
    let s2 := s1.modDie d fun x =>
      let x1 := (x.unwait c).endStreams y
      let x2 := match y.tile with
        | some t => x1.modOcc y.kind t fun o => { o with
            res := none, retried := false, after := none
            phase := if o.phase = SwPhase.none ∨ o.phase = SwPhase.quiescing then unsavedPhase y.kind else .rinsing }
        | none => x1
      { x2.dropInc c with ctxs := tdel x2.ctxs c }
    s2.loseOwner d c

/-! ## The image store (R188) -/

/-- Bytes reserved on pseudo-channel `pc` (0 to 7) of a region's image store. -/
def Die.imgUsed (x : Die) (r pc : Nat) : Nat :=
  (x.ctxs.map fun e => if e.2.region = r ∧ e.2.imgPc = pc then e.2.imgBytes else 0).sum

/-- Free bytes on a pseudo-channel of an image store: 8 MiB each, none on a lost channel. -/
def Die.imgFree (x : Die) (r pc : Nat) : Nat := if x.chanUp (8 * r + pc) then 8388608 - x.imgUsed r pc else 0

/-- Free bytes of a region's image store. -/
def Die.imgFreeRegion (x : Die) (r : Nat) : Nat := ((List.range 8).map (x.imgFree r)).sum

/-- The pseudo-channel of a region with the most free image store, if it has room. -/
def Die.imgPlace (x : Die) (r bytes : Nat) : Option Nat :=
  match argmax (x.imgFree r) (List.range 8) with
  | some pc => if bytes ≤ x.imgFree r pc then some pc else none
  | none => none

/-- The home region of a new context (R188): of the regions with room (an isolated one has none) the one with the most free
space, the lowest number among equals. -/
def Die.ctxRegion (x : Die) (bytes : Nat) : Option Nat :=
  argmax x.imgFreeRegion
    ((List.range 8).filter fun r => !(x.region r).isolated && (x.imgPlace r bytes).isSome)

end Sys2Proof.Machine
end

