-- ==== Sys2Proof/Machine/RegOps.lean ====
section
/-! DEFINITION. Registers with PW fields (R411, R416) and stream rings (R159, R160). -/

namespace Sys2Proof.Machine

/-! ## Configuration-class registers -/

/-- The PW bits of the register at an offset (`press_grp` in [31:28] is RW); `none` where no such register stands
(R416; Table 12-11, 11-13, 10-8, 14-9, 14-10, 14-11, 6-6, 14-8). -/
def pwMask (off : Nat) : Option Nat :=
  if off % 4 ≠ 0 then none
  else if off = 0x2004 then some 0x00FFFFFF
  else if off = 0x3000 then some 0x0000FF05
  else if 0x4000 ≤ off ∧ off < 0x4080 ∧ off % 16 = 0 then some 0x003FFFFF
  else if off = 0x5000 then some 0x0000013F
  else if 0x5100 ≤ off ∧ off < 0x5200 ∧ off % 32 = 0 then some 0x0FF00305
  else if 0x5400 ≤ off ∧ off < 0x5500 then some 0x00007FBF
  else if 0x6000 ≤ off ∧ off < 0x6800 ∧ off % 32 = 0 then some 0x01FFFFFF
  else if 0x6000 ≤ off ∧ off < 0x6800 ∧ off % 32 = 16 then some 0x0CFFFE00
  else none

/-- The reset value of a configuration-class register. -/
def pwReset (off : Nat) : Nat :=
  if off = 0x2004 then 0x000400FF
  else if off = 0x3000 then 0x00001005
  else if 0x4000 ≤ off ∧ off < 0x4080 then 0x00100100
  else if 0x5100 ≤ off ∧ off < 0x5200 then 0x00500301
  else 0

/-- The offsets of a block's configuration-class registers, rising (R414). -/
def pwOffsets (block : Nat) : List Nat :=
  if block = 2 then [0x2004]
  else if block = 3 then [0x3000]
  else if block = 4 then (List.range 8).map fun r => 0x4000 + 16 * r
  else if block = 5 then 0x5000 :: ((List.range 8).map fun p => 0x5100 + 32 * p) ++
    (List.range 64).map fun q => 0x5400 + 4 * q
  else if block = 6 then (List.range 64).flatMap fun n => [0x6000 + 32 * n, 0x6010 + 32 * n]
  else []

/-- The blocks with configuration-class registers (R414): NET, DARNER, RTP, FELT, RING. -/
def cfgBlocks : List Nat := [2, 3, 4, 5, 6]

/-- A configuration-class register. -/
def Die.preg (x : Die) (off : Nat) : PReg :=
  tget x.pregs off { applied := BitVec.ofNat 32 (pwReset off), pend := none }

/-- Its applied value. -/
def Die.regv (x : Die) (off : Nat) : Nat := (x.preg off).applied.toNat

/-- The press group a register names (R411). -/
def Die.grpOf (x : Die) (off : Nat) : Nat := bitsOf (x.regv off) 31 28

/-- The register replaced. -/
def Die.setPreg (x : Die) (off : Nat) (r : PReg) : Die := { x with pregs := tput x.pregs off r }

/-- A block's running CRC (R414): CRC-32C over the applied values, 4 little-endian bytes each, offsets rising. -/
def Die.blockCrc (x : Die) (b : Nat) : BitVec 32 := crc32c ((pwOffsets b).flatMap fun o => le 4 (x.regv o))

/-! ## Rings (R159) -/

/-- The length in force of ring `n`: `len`, at most 16,777,216 (Table 6-6). -/
def Die.ringLen (x : Die) (n : Nat) : Nat := min (bitsOf (x.regv (0x6000 + 32 * n)) 24 0) 16777216

/-- Units a ring holds: (wr − rd) mod `len`. -/
def Die.ringHeld (x : Die) (n : Nat) : Nat :=
  let l := x.ringLen n
  let r := x.ring n
  if l = 0 then 0 else (r.wr + l - r.rd % l) % l

/-- Room of a ring: it is full at `len` − 1 units. -/
def Die.ringRoom (x : Die) (n : Nat) : Nat := x.ringLen n - 1 - x.ringHeld n

/-- Firmware takes the frames of a ring: as many as its length needs, on the pseudo-channels `on` (R466). A ring that finds too few
has no frames: no command asks for them that could be refused (log entry 81). -/
def Die.placeRing (x : Die) (n : Nat) (on : List Nat) : Die :=
  let x1 := x.unreserve (65536 + n)
  match x1.dealOn on (65536 + n) ((x.ringLen n * 64 + 524287) / 524288) with
  | some (y, l) => y.modRing n fun r => { r with frames := l }
  | none => x1.modRing n fun r => { r with frames := [] }

/-- The byte of a channel at which a unit of a ring lies: the channel's code, the byte offset there. -/
def Ring.placeOf (r : Ring) (unit : Nat) : Option (Nat × Nat) :=
  r.frames[unit * 64 / 524288]?.map fun k => (k / 2 ^ 15, k % 2 ^ 15 * 524288 + unit * 64 % 524288)

/-- A unit written at the write pointer, which advances. -/
def Die.ringPush (x : Die) (n : Nat) (u : BitVec 512) : Die :=
  let l := x.ringLen n
  x.modRing n fun r => { r with data := tput r.data r.wr u, wr := (r.wr + 1) % l }

/-- The unit at the read pointer. -/
def Die.ringFront (x : Die) (n : Nat) : BitVec 512 := tget (x.ring n).data (x.ring n).rd 0

/-- The read pointer advances. -/
def Die.ringPop (x : Die) (n : Nat) : Die :=
  let l := x.ringLen n
  x.modRing n fun r => { r with rd := (r.rd + 1) % l }

/-- `mode` of RINGn_FELT (Table 14-8; 3 acts as 0): 0 unbound, 1 send, 2 receive. -/
def Die.ringMode (x : Die) (n : Nat) : Nat :=
  let m := bitsOf (x.regv (0x6010 + 32 * n)) 27 26
  if m = 3 then 0 else m

/-- The peer of a bound ring: package, die, ring. -/
def Die.ringPeer (x : Die) (n : Nat) : Nat × Nat × Nat :=
  let v := x.regv (0x6010 + 32 * n)
  (bitsOf v 23 18, bitsOf v 17 15, bitsOf v 14 9)

/-! ## Port bindings (R251 to R255) -/

/-- Ports of the die bound to a ring: region and port number with the kind of Table 11-5. -/
def Die.boundPorts (x : Die) (n : Nat) : List (Nat × Nat × Nat) :=
  x.fabrics.flatMap fun f =>
    (f.2.binds.filter fun b => b.2.kind != 0 && b.2.ring == n).map fun b => (f.1, b.1, b.2.kind)

/-- A tile port. -/
def Fabric.port (f : Fabric) (n : Nat) : Port := tget f.ports n Port.reset
/-- The unit of its ring that a real-time channel's port (TP12 to TP15) would move now: the ring and the unit's number (R255). -/
def Die.rtpUnit (x : Die) (r port : Nat) : Option (Nat × Nat) :=
  let p := (x.fabric r).port port
  if port ≤ 13 then if p.buf.isEmpty || decide (x.ringRoom p.ring = 0) then none else some (p.ring, (x.ring p.ring).wr)
  else if p.absent || decide (x.ringHeld p.ring = 0) || decide (1024 ≤ p.buf.length) then none
  else some (p.ring, (x.ring p.ring).rd)

/-- `f` with `g` applied to a port. -/
def Fabric.modPort (f : Fabric) (n : Nat) (g : Port → Port) : Fabric :=
  { f with ports := tmod f.ports n Port.reset g }

/-- Units a port still holds go to its ring while there is room (R254). -/
def Die.flushPort (x : Die) (ring : Nat) : Nat → List (BitVec 512) → Die × List (BitVec 512)
  | _, [] => (x, [])
  | 0, l => (x, l)
  | fuel + 1, u :: l => if x.ringRoom ring = 0 then (x, u :: l) else (x.ringPush ring u).flushPort ring fuel l

/-! ## Descriptors of an array that end before their time (R112, R130, R147) -/

/-- A MATMUL that ends with `st` unless it has a status already: nothing of C is written (R130, R147). -/
def Run.stop (u : Run) (st : Status) : Run := { u with status := some (u.status.getD st), out := [] }

/-- The stationary blocks that stand in the registers of the quarter for the run `u` leave them. `streams` says that the run is the
one that the quarter streams. -/
def Arr.dropBlocks (r : Arr) (u : Run) (streams : Bool) : Arr :=
  let front := streams && thas r.front u.quarter
  { r with
    front := if front then tdel r.front u.quarter else r.front
    back := if u.passIx + b2n front < u.loadIx then tdel r.back u.quarter else r.back }

/-- A staggered descriptor that runs and takes rows from the fabric (R126; Table 5-3 for the fields). -/
def Run.fromFabric (u : Run) : Bool :=
  dw u.desc 0 24 24 == 1 && u.status.isNone && dw u.desc 1 23 0 != 0 && dw u.desc 2 31 16 != 0 && dw u.desc 2 15 0 != 0

/-- The array's source is absent: every staggered descriptor that runs ends with REGION_UNCONFIGURED (R130). -/
def Arr.sourceLost (r : Arr) : Arr :=
  { (r.runs.filter Run.fromFabric).foldl
      (fun r u => r.dropBlocks u ((r.runs.find? fun v => v.quarter == u.quarter && v.status.isNone) == some u)) r with
    runs := r.runs.map fun u => if u.fromFabric then u.stop .regionUnconfigured else u }

/-- The same in the image of a context that is away (R126: its claim on the ports stands). -/
def Image.sourceLost (m : Image) : Image :=
  match m with
  | .mat a b mem => .mat a.sourceLost b.sourceLost mem
  | .vec c mem => .vec c mem
  | .none => .none

/-- The staggered-entry tile of region `r` loses its source (R130). -/
def Die.staggerLost (x : Die) (r : Nat) : Die :=
  { (x.modMTile (8 * r + 7) fun t => { t with a := t.a.sourceLost, b := t.b.sourceLost }) with
    ctxs := tmapv x.ctxs fun _ y => if y.kind == .matrix && y.tile.isNone && y.lastTile == some (8 * r + 7) then
      { y with image := y.image.sourceLost } else y }

/-- A region's ports when it becomes unconfigured, is reconfigured or isolated (R254): partial calls are dropped and
counted, unread units of return rings and read channels are discarded, units already buffered by write channels are
written, every port is ABSENT, and the staggered descriptors that run lose their source (R130). -/
def Die.closePorts (x : Die) (r : Nat) : Die :=
  let f := x.fabric r
  let cut := (f.ports.map fun p => if 4 ≤ p.1 ∧ p.1 ≤ 11 then (p.2.calls.filter fun c => !c.isDone).length else 0).sum
  let readers := f.binds.filter fun b => b.2.kind == 2 || b.2.kind == 4
  let x1 := readers.foldl (fun x b => x.modRing b.2.ring fun g => { g with rd := g.wr }) (x.count tpCallDrop r cut)
  let one (x : Die) (n : Nat) : Die :=
    let p := (x.fabric r).port n
    let (y, left) := x.flushPort p.ring p.buf.length p.buf
    y.modFabric r fun f => f.modPort n fun p => { p with buf := left }
  let x2 := [12, 13].foldl one (x1.staggerLost r)
  x2.modFabric r fun f => { f with
    ports := tmapv f.ports fun n p =>
      { p with
        absent := true, panic := false
        calls := p.calls.filter fun c => c.isDone
        buf := if n = 14 ∨ n = 15 then [] else p.buf } }

/-- Whether a frame address is of a frame of types 0 to 3 of region `r` (R267, R268), the isolation table apart. -/
def clearedByAbort (d r a : Nat) : Bool :=
  decide (bitsOf a 28 26 = d) && decide (bitsOf a 25 23 = r) && decide (bitsOf a 22 20 ≤ 3) &&
    !(decide (bitsOf a 22 20 = 3) && decide (56 ≤ bitsOf a 10 0))

/-- The design of a region stops (R283): flip-flops, memory blocks, shift tables and what the blocks show are cleared; the signals
that leave keep the value they had when isolation began (R273); its raw lanes fall silent (R265). -/
def Fabric.stop (f : Fabric) : Fabric :=
  { f with
    halted := true, acts := [], copying := none, ff := [], fm := [], shift := [], outs := [], bankOk := false
    released := false, handed := false, isoCodes := true, held := if f.handed then f.sig else f.held
    lanes := tmapv f.lanes fun _ l => { l with tx := none, word := 0 } }

/-- R289: the region is left unconfigured, without tenant, its codes in force; frames 0 to 3 cleared but for the isolation
table. -/
def Die.unconfigure (x : Die) (d r : Nat) : Die :=
  let x1 := x.closePorts r
  { (x1.modFabric r fun f => { f.stop with
      st := .unconfigured, tenant := 0xFF, session := none, binds := [], noRead := false, digest := 0 })
    with frames := x1.frames.filter fun e => !(clearedByAbort d r e.1) }

/-- A session of the region ends with `st` (R285, R289). Before step 4 the region is unchanged; from step 4 on it is left
unconfigured. The packet during which it ends replies, if one is open (`now`), as does one that waits for step 9. -/
def State.endSession (s : State) (d r : Nat) (st : Status) (detail : Nat) (now : Option Pkt) : State :=
  match ((s.die d).fabric r).session with
  | none => s
  | some q =>
    let s1 := s.modDie d fun x =>
      if 4 ≤ q.step then (x.unconfigure d r).count cfAborts 0 1
      else x.modFabric r fun f => { f with session := none }
    match now with
    | some p => s1.finish 0x0401 p st detail [] []
    | none => if 7 ≤ q.step then s1.finish 0x0401 q.pkt st detail [] [] else s1

end Sys2Proof.Machine
end

