-- ==== Sys2Proof/Machine/FeltOps.lean ====
section
/-! DEFINITION. Felt links (chapter 14): states, training fields, frames and their way through the package. -/

namespace Sys2Proof.Machine

/-! ## Settings (Tables 14-9 to 14-11) -/

/-- FELTp_CTL of a port. -/
def Die.feltCtl (x : Die) (p : Nat) : Nat := x.regv (0x5100 + 32 * p)

/-- `enable`. -/
def Die.feltEnable (x : Die) (p : Nat) : Bool := bitAt (x.feltCtl p) 0

/-- `fold`. -/
def Die.feltFold (x : Die) (p : Nat) : Bool := bitAt (x.feltCtl p) 2

/-- `idle_us`. -/
def Die.feltIdleUs (x : Die) (p : Nat) : Nat := bitsOf (x.feltCtl p) 27 20

/-- `max_rate`: 0 acts as 1. -/
def Die.feltMax (x : Die) (p : Nat) : Nat := max 1 (bitsOf (x.feltCtl p) 9 8)

/-- The package number, while `pkg_valid` is set. -/
def Die.feltPkg (x : Die) : Option Nat :=
  let v := x.regv 0x5000
  if bitAt v 8 then some (bitsOf v 5 0) else none

/-! ## States (R359, R360) -/

/-- A link that carries or can carry frames: ACTIVE, IDLE, FOLDED, WAKING (R366). -/
def LState.up : LState → Bool
  | .down => false
  | .detect => false
  | .discover => false
  | .equalise => false
  | .align => false
  | .active => true
  | .idle => true
  | .folded => true
  | .waking => true
  | .claimed => false

/-- `lstate` (Table 14-3). -/
def LState.code : LState → Nat
  | .down => 0
  | .detect => 1
  | .discover => 2
  | .equalise => 3
  | .align => 4
  | .active => 5
  | .idle => 6
  | .folded => 7
  | .waking => 8
  | .claimed => 9

/-- A link that leaves its partner: frames queued or kept are lost, training starts afresh. The link sequence starts at 0 again
(log entry 33). -/
def Felt.cut (f : Felt) : Felt :=
  { f with
    lanesOk := 0, pReady := 0, myReady := 0, taps := [], tapStat := [], seen := 0, pRates := 0, txNext := 0, kept := [],
    rxLast := 0xFFF, rxReplay := false, txq := [], foldSent := false, foldSeen := false, ackSeen := false, wakeTone := false,
    lineFrom := f.line.length, flipped := 0, laneMap := [] }

/-- DOWN. -/
def Felt.goDown (f : Felt) : Felt := { f.cut with st := .down, rate := 0, wakeFailed := false }

/-- DETECT at 28.125 Gb/s. -/
def Felt.goDetect (f : Felt) : Felt := { f.cut with st := .detect, rate := 1 }

/-- LINK_ARRIVAL or LINK_DEPARTURE (R372, R442). -/
def linkEvent (code d p : Nat) (f : Felt) (left : LState) : Event :=
  { Event.blank code 4 1 .ok with
    die := d, region := p, unitKind := 0x0A, unit := 8 * d + p,
    arg0 := f.pLink + f.pPkg * 2 ^ 8 + left.code * 2 ^ 16 + f.pKind * 2 ^ 24, arg1 := f.pIdent.toNat }

/-- The partner departs: event, `departed`, FL_DEPARTS. -/
def State.depart (s : State) (d p : Nat) (left : LState) : State :=
  (s.modDie d fun x => (x.modFelt p fun f => { f with departed := true }).count flDeparts p 1).emit
    (linkEvent 0x0021 d p ((s.die d).felt p) left)

/-- A link goes DOWN: a departure if it was up, or if one was due (R360). -/
def State.linkDown (s : State) (d p : Nat) : State :=
  let f := (s.die d).felt p
  let s1 := s.modDie d fun x => x.modFelt p Felt.goDown
  if f.st == .claimed then s
  else if f.st.up then s1.depart d p f.st
  else if f.wakeFailed then s1.depart d p .waking else s1

/-- A link goes to DETECT, with a departure where its row of Table 14-4 posts one. -/
def State.linkDetect (s : State) (d p : Nat) (departs : Bool) : State :=
  let f := (s.die d).felt p
  let s1 := s.modDie d fun x => x.modFelt p Felt.goDetect
  if departs then s1.depart d p f.st else s1

/-- A released image claims the lanes, or no longer does (R265). -/
def State.feltClaim (s : State) (d p : Nat) (claim : Bool) : State :=
  let f := (s.die d).felt p
  if claim then
    s.modDie d fun x => x.modFelt p fun f => { f.cut with st := .claimed, rate := 0, wakeFailed := false }
  else if f.st == .claimed then s.linkDetect d p false else s

/-- `enable` pressed (R359). -/
def State.feltPressed (s : State) (d p : Nat) (was : Bool) : State :=
  let x := s.die d
  let now := x.feltEnable p
  if was && !now then s.linkDown d p
  else if !was && now && (x.felt p).st == .down && !(x.isFenced 10 p) && !(x.region p).isolated then s.linkDetect d p false
  else s

/-! ## Training (R358, R361, R362) -/

/-- A valid training frame: 32 bytes, `sync`, CRC. -/
def trainOk (l : List Byte) : Bool :=
  decide (l.length = 32) && decide (fieldAt l 0 4 = 0x544C4546) && decide (fieldAt l 28 4 = (crc32c (l.take 28)).toNat)

/-- Rates that two masks share, as the highest code at or below `top`. -/
def commonRate (a b top : Nat) : Option Nat :=
  if 3 ≤ top ∧ bitAt a 2 ∧ bitAt b 2 then some 3
  else if 2 ≤ top ∧ bitAt a 1 ∧ bitAt b 1 then some 2
  else if 1 ≤ top ∧ bitAt a 0 ∧ bitAt b 0 then some 1 else none

/-- The preset of a code (Table 14-5). -/
def presetTaps (n : Nat) : Taps :=
  if n = 2 then { pre2 := 0, pre1 := 4, main := 53, post1 := 6 }
  else if n = 3 then { pre2 := 1, pre1 := 6, main := 46, post1 := 10 }
  else if n = 4 then { pre2 := 2, pre1 := 10, main := 38, post1 := 13 }
  else Taps.p1

/-- One step on a pre or post tap of value `v` up to `top`, balanced by main: the tap, main, the answer. -/
def stepTap (req v top main : Nat) : Nat × Nat × Nat :=
  if req = 1 then (if v + 1 ≤ top ∧ 24 ≤ main - 1 ∧ 1 ≤ main then (v + 1, main - 1, 0) else (v, main, 3))
  else if req = 2 then (if 1 ≤ v then (v - 1, main + 1, 0) else (v, main, 2))
  else (v, main, 1)

/-- A request applied (R362): the taps and the answer byte. A request on main alone is held, since the sum stands at 63 (log
entry 33). -/
def applyReq (t : Taps) (req : Nat) : Taps × Nat :=
  let a := stepTap (bitsOf req 1 0) t.pre2 7 t.main
  let b := stepTap (bitsOf req 3 2) t.pre1 15 a.2.1
  let c := stepTap (bitsOf req 7 6) t.post1 15 b.2.1
  ({ pre2 := a.1, pre1 := b.1, main := c.2.1, post1 := c.1 }, a.2.2 + 4 * b.2.2 + 16 * 1 + 64 * c.2.2)

/-! ## Frames (R363) -/

/-- A frame's header but for its CRC (Table 14-7). -/
def FFrame.head (f : FFrame) : List Byte :=
  le 1 (f.ftype + 8 * f.units) ++ le 1 (f.hops + 16 * b2n f.replay + 32 * b2n f.sync) ++
    le 4 (f.dPkg + f.dDie * 2 ^ 6 + f.dRing * 2 ^ 9 + f.sPkg * 2 ^ 15 + f.sDie * 2 ^ 21 + f.sRing * 2 ^ 24) ++
    le 3 (f.lseq + f.lack * 2 ^ 12) ++ le 3 f.cseq

/-- A frame's 272 bytes. -/
def FFrame.bytes (f : FFrame) : List Byte := f.head ++ le 4 (crc32c (f.head ++ f.payload)).toNat ++ f.payload

/-- The frame that 272 bytes spell; `none` where its CRC, its type or a reserved field is not valid. -/
def parseFrame (l : List Byte) : Option FFrame :=
  let b0 := fieldAt l 0 1
  let b1 := fieldAt l 1 1
  let a := fieldAt l 2 4
  let k := fieldAt l 6 3
  let ty := b0 % 8
  let un := bitsOf b0 5 3
  if l.length = 272 ∧ fieldAt l 12 4 = (crc32c (l.take 12 ++ l.drop 16)).toNat ∧ ty ≤ 4 ∧ b0 < 64 ∧ b1 < 64 ∧ a < 2 ^ 30 ∧
      (if ty = 1 then 1 ≤ un ∧ un ≤ 4 else un = 0) then
    some { ftype := ty, units := un, hops := b1 % 16, replay := bitAt b1 4, sync := bitAt b1 5, dPkg := bitsOf a 5 0,
           dDie := bitsOf a 8 6, dRing := bitsOf a 14 9, sPkg := bitsOf a 20 15, sDie := bitsOf a 23 21,
           sRing := bitsOf a 29 24, lseq := k % 4096, lack := k / 4096, cseq := fieldAt l 9 3, payload := l.drop 16 }
  else none

/-- A frame of a type with nothing in it. -/
def FFrame.blank (ty : Nat) : FFrame :=
  { ftype := ty, units := 0, hops := 0, replay := false, sync := false, dPkg := 0, dDie := 0, dRing := 0, sPkg := 0, sDie := 0,
    sRing := 0, lseq := 0, lack := 0, cseq := 0, payload := zeros 256 }

/-- A control frame. -/
def controlFrame (n : Nat) : FFrame := { FFrame.blank 4 with payload := BitVec.ofNat 8 n :: zeros 255 }

/-- `kind` of this package (Table 14-2). -/
def State.feltKind (s : State) : Nat :=
  match s.part.variant with
  | .skz2 => 1
  | .skz4 => 2
  | .skz8 => 3

/-- A heartbeat of port `p` of die `d`. -/
def State.heartbeat (s : State) (d p : Nat) : FFrame :=
  { FFrame.blank 3 with
    payload := le 8 s.part.ident.toNat ++ le 1 (((s.die d).feltPkg).getD 0xFF) ++ le 1 (8 * d + p) ++ le 1 s.feltKind ++ zeros 245 }

/-! ## The transmitter (R355, R356, R364) -/

/-- A frame goes on the line; at least one frame of every 2,048 is a filler (R356). -/
def Felt.put (f : Felt) (q : FFrame) : Felt :=
  if 2047 ≤ f.sinceFill then
    { f with line := f.line ++ [{ FFrame.blank 0 with lack := f.rxLast, replay := f.rxReplay }, q], sinceFill := 1 }
  else { f with line := f.line ++ [q], sinceFill := f.sinceFill + 1 }

/-- A frame goes on port `p`'s line, its bits charged (R368, R392); a filler's to the device account. -/
def Die.putLine (x : Die) (p : Nat) (q : FFrame) : Die :=
  let y := (x.modFelt p fun f => f.put q).act 6 { tenant := q.bill, disp := none } 2176
  if 2047 ≤ (x.felt p).sinceFill then y.act 6 .device 2176 else y

/-- The frames of the present series that stand on the line, as one stream of bytes. -/
def Felt.stream (f : Felt) : List Byte := (f.line.drop f.lineFrom).flatMap FFrame.bytes

/-- What lane `k` carries: the markers and the lane's symbols of the codewords that the frames have filled (R355). -/
def Felt.lane (f : Felt) (k : Nat) : List LaneSlot :=
  let l := byteBits f.stream
  laneSlots k 0 (rsWords (l.length / 5140) l)

/-- Queued frames go on the line while the link is ACTIVE and fewer than 256 are unacknowledged. -/
def Die.pumpLink (x : Die) (p : Nat) : Nat → Die
  | 0 => x
  | n + 1 =>
    let f := x.felt p
    match f.txq with
    | [] => x
    | q :: r =>
      if f.st == .active && decide (f.kept.length < 256) then
        let q1 : FFrame := { q with lseq := f.txNext, lack := f.rxLast, replay := f.rxReplay }
        let x1 := (x.modFelt p fun f => { f with
          txq := r, txNext := (f.txNext + 1) % 4096, kept := f.kept ++ [q1] }).putLine p q1
        ((if q.ftype = 1 then x1.count flFramesTx p 1 else x1)).pumpLink p n
      else x

/-- Every queued frame that can go goes. -/
def Die.pumpAll (x : Die) (p : Nat) : Die := x.pumpLink p 256

/-- A frame enters a link's queue: an IDLE link turns ACTIVE; a FOLDED one keeps it until it is awake. -/
def Die.enqueue (x : Die) (p : Nat) (q : FFrame) : Die :=
  (x.modFelt p fun f => { f with txq := f.txq ++ [q], st := if f.st == .idle then .active else f.st }).pumpAll p

/-- Frames that a `lack` covers are dropped: those up to it in the window. -/
def Felt.acked (f : Felt) (lack : Nat) : Felt :=
  match f.kept.findIdx? fun q => q.lseq == lack with
  | some i => { f with kept := f.kept.drop (i + 1) }
  | none => f

/-- Frames kept are sent again (R364). -/
def Die.replayLink (x : Die) (p : Nat) : Die :=
  let f := x.felt p
  if f.kept.isEmpty then x
  else (f.kept.foldl (fun (x : Die) q => x.putLine p { q with lack := f.rxLast, replay := f.rxReplay }) x).count flReplays p 1

/-! ## Routes through the package (R366, R370) -/

/-- A package link in service for frames. -/
def State.linkUsable (s : State) (l : Nat) : Bool := s.usable (l / 8) && ((s.die (l / 8)).felt (l % 8)).st.up

/-- The link that a die's table names for a package. -/
def State.feltRoute (s : State) (d pkg : Nat) : Option Nat :=
  let v := (s.die d).regv (0x5400 + 4 * pkg)
  if bitAt v 14 && s.linkUsable (bitsOf v 13 8) then some (bitsOf v 13 8)
  else if bitAt v 7 && s.linkUsable (bitsOf v 5 0) then some (bitsOf v 5 0) else none

/-- A frame goes out by a die's table, or is discarded and counted on port `p`. -/
def State.sendOut (s : State) (d p : Nat) (q : FFrame) : State :=
  match s.feltRoute d q.dPkg with
  | none => s.modDie d fun x => x.count flFwdDrops p 1
  | some l =>
    if 256 ≤ ((s.die (l / 8)).felt (l % 8)).txq.length then s.modDie d fun x => x.count flFwdDrops p 1
    else s.modDie (l / 8) fun x => x.enqueue (l % 8) q

/-! ## Channels (R365, R368, R369) -/

/-- The frames of ring `n` from index `i` on, each with its units read from the ring. -/
def Die.unitsAt (x : Die) (n first count : Nat) : List Byte :=
  let l := x.ringLen n
  (List.range count).flatMap fun i => le 64 (tget (x.ring n).data (((x.ring n).rd + first + i) % max 1 l) 0).toNat

/-- A data frame of `count` units that start `first` units after the read pointer. -/
def Die.dataFrame (x : Die) (d n pkg first count cseq : Nat) (sync : Bool) : FFrame :=
  let (pp, pd, pr) := x.ringPeer n
  { FFrame.blank 1 with
    units := count, sync := sync, dPkg := pp, dDie := pd, dRing := pr, sPkg := pkg, sDie := d, sRing := n,
    cseq := cseq % 2 ^ 24, payload := (x.unitsAt n first count) ++ zeros (64 * (4 - count)) }

/-- An ack frame of receive ring `n`. -/
def Die.ackFrame (x : Die) (d n pkg : Nat) : FFrame :=
  let (pp, pd, pr) := x.ringPeer n
  { FFrame.blank 2 with
    dPkg := pp, dDie := pd, dRing := pr, sPkg := pkg, sDie := d, sRing := n, cseq := (x.ring n).chan.expect }

/-- The unacknowledged frames of a send ring, oldest first; `sync` on the first where it is due. -/
def Die.unackedFrames (x : Die) (d n pkg : Nat) : List FFrame :=
  let c := (x.ring n).chan
  let rec' (l : List Nat) : List FFrame :=
    (l.foldl (fun (a : Nat × Nat × List FFrame) (u : Nat) =>
      (a.1 + u, a.2.1 + 1, x.dataFrame d n pkg a.1 u (c.acked + a.2.1) (c.sync && a.2.1 == 0) :: a.2.2)) (0, 0, [])).2.2.reverse
  rec' c.frames

/-- A channel end as a changed binding leaves it (R369). -/
def Chan.rebound (c : Chan) : Chan := { Chan.reset with sync := true, port := c.port }

/-- A frame on its way inside the package: the die and port that send it, and the frame. -/
structure Sent where
  die   : Nat
  port  : Nat
  frame : FFrame
  deriving DecidableEq, Repr

/-- The receiving port's ack frame, and the state that has sent it. -/
def State.makeAck (s : State) (d n : Nat) : State × List Sent :=
  match (s.die d).feltPkg with
  | none => (s, [])
  | some pkg =>
    (s.modDie d fun x => x.modRing n fun r => { r with chan := { r.chan with toAck := 0, ackDue := false } },
      [{ die := d, port := ((s.die d).ring n).chan.port, frame := (s.die d).ackFrame d n pkg }])

/-- The sender sends again from its oldest unacknowledged frame; FL_E2E_RETX rises. -/
def State.resend (s : State) (d n : Nat) : State × List Sent :=
  match (s.die d).feltPkg with
  | none => (s, [])
  | some pkg =>
    let c := ((s.die d).ring n).chan
    let l := (s.die d).unackedFrames d n pkg
    (s.modDie d fun x => (x.modRing n fun r => { r with
        chan := { r.chan with sync := r.chan.sync && l.isEmpty } }).count flE2eRetx c.port 1,
      l.map fun q => { die := d, port := c.port, frame := q })

/-- A data frame reaches the die that holds its ring by port `p` (R365): written in order while there is room; acknowledged
after 16, or when discarded. -/
def State.takeData (s : State) (p : Nat) (q : FFrame) : State × List Sent :=
  let x := s.die q.dDie
  let n := q.dRing
  let c := (x.ring n).chan
  let e := if q.sync then q.cseq else c.expect
  if !(s.usable q.dDie) || x.ringMode n != 2 || x.ringPeer n != (q.sPkg, q.sDie, q.sRing) then (s, [])
  else if q.cseq = e ∧ q.units ≤ x.ringRoom n then
    let units := (List.range q.units).map fun i => BitVec.ofNat 512 (fieldAt q.payload (64 * i) 64)
    let s1 := s.modDie q.dDie fun x => ((units.foldl (fun x u => x.ringPush n u) x).modRing n fun r => { r with
      chan := { r.chan with expect := (e + 1) % 2 ^ 24, toAck := c.toAck + 1, ackDue := true, port := p } }).memAct 0
        (x.ring n).payer (64 * q.units)
    if 16 ≤ c.toAck + 1 then s1.makeAck q.dDie n else (s1, [])
  else
    (s.modDie q.dDie fun x => (x.modRing n fun r => { r with chan := { r.chan with expect := e, port := p } }).count flSeqDrops p
      1).makeAck q.dDie n

/-- An ack reaches the die that holds its send ring (R365): the frames it covers leave the ring; outside the window the sender
sends again, its next frame with `sync`. -/
def State.takeAck (s : State) (q : FFrame) : State × List Sent :=
  let x := s.die q.dDie
  let n := q.dRing
  let c := (x.ring n).chan
  if !(s.usable q.dDie) || x.ringMode n != 1 || x.ringPeer n != (q.sPkg, q.sDie, q.sRing) then (s, [])
  else
    let k := (q.cseq + 2 ^ 24 - c.acked) % 2 ^ 24
    if k ≤ c.frames.length then
      let units := (c.frames.take k).sum
      let l := x.ringLen n
      (s.modDie q.dDie fun x => x.modRing n fun r => { r with
        rd := if l = 0 then r.rd else (r.rd + units) % l
        chan := { r.chan with acked := q.cseq, frames := c.frames.drop k } }, [])
    else (s.modDie q.dDie fun x => x.modRing n fun r => { r with chan := { r.chan with sync := true } }).resend q.dDie n

/-- One frame sent: to a ring of this package, or out by the sending die's table (R366). -/
def State.sendOne (s : State) (q : Sent) : State × List Sent :=
  if (s.die q.die).feltPkg == some q.frame.dPkg then
    if q.frame.ftype = 1 then s.takeData q.port q.frame else s.takeAck q.frame
  else (s.sendOut q.die q.port { q.frame with bill := ((s.die q.die).ring q.frame.sRing).payer.tenant }, [])

/-- Frames sent, and those that their delivery brings about in this package. -/
def State.sendAll (s : State) : Nat → List Sent → State
  | 0, _ => s
  | _, [] => s
  | fuel + 1, q :: r =>
    let a := s.sendOne q
    a.1.sendAll fuel (r ++ a.2)

/-- Frames that one command can bring about: 256 sent again, their acks, and the acks' own. -/
def feltFuel : Nat := 1024

end Sys2Proof.Machine
end

