-- ==== Sys2Proof/Machine/QueueOps.lean ====
section
/-! DEFINITION. Queues, reply rings, interrupts and the posting of events (R212 to R236, R374, R440): the operations the
commands share. -/

namespace Sys2Proof.Machine

/-! ## The reply ring (R222) -/

/-- Units of the reply ring. -/
def Queue.ringUnits (x : Queue) : Nat := 2 ^ (x.log2size - 6)

/-- Units an entry takes: header and parameters padded to a unit, then the payload. -/
def entryUnits (params payload : Nat) : Nat := ceilDiv (32 + params) 64 + ceilDiv payload 64

/-- Units a PAD entry must cover before an entry of `n` units. -/
def Queue.padUnits (x : Queue) (n : Nat) : Nat := if x.ringUnits < x.tail + n then x.ringUnits - x.tail else 0

/-- Units between `head` and `tail`. -/
def Queue.usedUnits (x : Queue) : Nat := (x.tail + x.ringUnits - x.head % x.ringUnits) % x.ringUnits

/-- An entry of `n` units can be posted: afterwards at least one unit remains unwritten. -/
def Queue.room (x : Queue) (n : Nat) : Bool := decide (x.usedUnits + x.padUnits n + n + 1 ≤ x.ringUnits)

/-- Units of a held reply. -/
def Reply.units (r : Reply) : Nat := entryUnits r.params.length r.payload.length

/-- QSTAT as it reads (Table 9-5). -/
def Queue.stat (x : Queue) : Nat :=
  (match x.st with
    | .disabled => 0
    | .enabled => 1
    | .error => 2
    | .draining => 3) + 256 * b2n x.errWin + 512 * b2n x.errFrame + 1024 * b2n x.errDie +
    2048 * b2n (match x.held with
      | r :: _ => !(x.room r.units)
      | [] => false)

/-- The tail advances; at the end of the ring it returns to 0 and the phase toggles. -/
def Queue.advance (x : Queue) (n : Nat) : Queue :=
  if x.ringUnits ≤ x.tail + n then { x with tail := 0, phase := !x.phase } else { x with tail := x.tail + n }

/-- A PAD entry of `n` units at the tail. -/
def Queue.padEntry (x : Queue) (n : Nat) : RingEntry :=
  { unit := x.tail, units := n, phase := x.phase, event := false, pad := true, seqErr := false, more := false, opcode := 0,
    seq := 0, status := .ok, detail := 0, params := [], payload := [], crc := 0, tag := 0, floor := 0 }

/-- An entry is written at the tail, after the PAD entry it may need; its place and phase are the ring's. -/
def Queue.write (x : Queue) (e : RingEntry) : Queue :=
  let p := x.padUnits e.units
  let y := if p = 0 then x else { x with posted := x.posted ++ [x.padEntry p] }.advance p
  { y with posted := y.posted ++ [{ e with unit := y.tail, phase := y.phase }] }.advance e.units

/-- Number `a` precedes number `b` by serial arithmetic (R225). -/
def seqBefore (a b : BitVec 32) : Bool := let n := (b - a).toNat; decide (1 ≤ n) && decide (n < 2 ^ 31)

/-- `floor` (Table 9-10, R227): the lowest number of the queue whose packet is not completed, or whose replies are not all
posted. -/
def Queue.floor (x : Queue) : BitVec 32 :=
  ((x.taken ++ x.started).map (·.seq) ++ (x.held.filter (!·.seqErr)).map (·.seq)).foldl (fun m n => if seqBefore n m then n else m) x.expSeq

/-- The entry of a reply (Table 9-10). -/
def Queue.entryOf (x : Queue) (r : Reply) : RingEntry :=
  { unit := 0, units := r.units, phase := false, event := false, pad := false, seqErr := r.seqErr, more := r.more,
    opcode := r.opcode, seq := r.seq, status := r.status, detail := r.detail, params := r.params, payload := r.payload,
    crc := crc32c r.payload, tag := r.tag, floor := x.floor }

/-! ## Interrupts (R235, R374) -/

/-- Byte of the PBA that holds a vector's pending bit (log entry 5: the table takes the first 32 KiB of BAR4). -/
def pbaByte (v : Nat) : Nat := 0x8000 + v / 8

/-- A vector's mask bit in the MSI-X table. -/
def Func.masked (f : Func) (v : Nat) : Bool := (mread f.bar4 (16 * v + 12)).getLsbD 0

/-- A vector's pending bit. -/
def Func.pendingVec (f : Func) (v : Nat) : Bool := (mread f.bar4 (pbaByte v)).getLsbD (v % 8)

/-- A vector's pending bit set or cleared. -/
def Func.setPending (f : Func) (v : Nat) (b : Bool) : Func :=
  let old := mread f.bar4 (pbaByte v)
  let bit : Byte := BitVec.ofNat 8 (2 ^ (v % 8))
  { f with bar4 := mwrite f.bar4 (pbaByte v) (if b then old ||| bit else old &&& ~~~bit) }

/-- MSI-X vectors of a function. -/
def vecCount (f : Nat) : Nat := if f = 0 then 2048 else 64

/-- A vector is raised: a message, or its pending bit while it is masked. A vector the function does not have sends
nothing. -/
def State.raiseVec (s : State) (f v : Nat) : State :=
  if vecCount f ≤ v then s
  else if (s.func f).masked v then s.modFunc f fun g => g.setPending v true
  else ({ s with msix := s.msix ++ [(f, v)] }).modDie 0 fun x => x.count hpWritesOut 0 1

/-- Memory writes of an entry (R375): its body in 512-byte pieces, then its header (log entry 15). -/
def entryWrites (units : Nat) : Nat := 1 + ceilDiv (64 * units) 512

/-- After an entry is posted: the queue's vector is raised by `coal_count`, IRQ or an event (R235). -/
def State.signal (s : State) (q : Nat) (force : Bool) : State :=
  let x := s.queue q
  if !x.irqEn then s
  else if force || decide (max 1 x.coalCount ≤ x.coalDone + 1) then
    (s.modQueue q fun x => { x with coalDone := 0 }).raiseVec x.func x.vector
  else s.modQueue q fun x => { x with coalDone := x.coalDone + 1 }

/-- An entry is posted in queue `q`'s ring. -/
def State.post (s : State) (q : Nat) (e : RingEntry) (force : Bool) : State :=
  ((s.modQueue q fun x => x.write e).modDie 0 fun x => x.count hpWritesOut 0 (entryWrites e.units)).signal q force

/-! ## Events (R234, R440 to R442) -/

/-- The 32-byte event record (Table 18-4). -/
def Event.record (e : Event) : List Byte :=
  le 1 e.kind ++ le 1 e.level ++ le 1 e.die ++ le 1 e.region ++ le 1 e.unitKind ++ [0] ++ le 2 e.unit ++ le 1 e.tenant ++
    [0] ++ le 2 e.seq ++ le 4 e.arg0 ++ le 8 e.time ++ le 8 e.arg1

/-- The entry of an event. -/
def eventEntry (n : BitVec 32) (e : Event) : RingEntry :=
  { unit := 0, units := entryUnits 32 0, phase := false, event := true, pad := false, seqErr := false, more := false,
    opcode := e.code, seq := n, status := e.status, detail := e.detail, params := e.record, payload := [], crc := 0,
    tag := 0, floor := 0 }

/-- Functions an event goes to (R440): function 0, and each virtual function with a queue bound to the tenant it names. -/
def State.eventFuncs (s : State) (e : Event) : List Nat :=
  0 :: if e.tenant = 0xFF then []
    else ((s.queues.filter fun q => q.2.st != .disabled && q.2.func != 0 && q.2.tenant == e.tenant).map
      (·.2.func)).eraseDups

/-- An event entry can be posted for function `f` now. -/
def State.eventRoom (s : State) (f : Nat) : Bool :=
  let g := s.func f
  match g.evQueue with
  | none => false
  | some q => !g.d3 && s.hostUp && (s.queue q).st == .enabled && (s.queue q).room (entryUnits 32 0)

/-- A numbered event is posted for function `f`. -/
def State.postEvent (s : State) (f : Nat) (n : BitVec 32) (e : Event) : State :=
  match (s.func f).evQueue with
  | none => s
  | some q => s.post q (eventEntry n e) true

/-- An event reaches function `f`: masked or unrouted events are not posted and take no number; one that cannot be posted is
held, and the 1,025th is discarded and counted (R234). -/
def State.routeEvent (s : State) (e : Event) (f : Nat) : State :=
  let g := s.func f
  if !(g.mask.getLsbD e.kind) || g.evQueue.isNone then s
  else
    let n := g.evNo
    let s1 := s.modFunc f fun g => { g with evNo := g.evNo + 1 }
    if g.held.isEmpty && g.lost == 0 && s.eventRoom f then s1.postEvent f n e
    else if g.held.length < 1024 then s1.modFunc f fun g => { g with held := g.held ++ [(n, e)] }
    else s1.modFunc f fun g => { g with lost := g.lost + 1 }

/-- EVENTS_LOST (Table 18-5). -/
def lostEvent (n time : Nat) : Event := { Event.blank 0x0051 11 3 .ok with arg0 := n, time := time % 2 ^ 64 }

/-- A function whose held events, or whose events-lost event, can be posted. -/
def State.eventDue (s : State) (f : Nat) : Bool :=
  let g := s.func f
  (!g.held.isEmpty || g.lost != 0) && s.eventRoom f

/-- The first held event of a function is posted, or its events-lost event. -/
def State.postHeld (s : State) (f : Nat) : State :=
  let g := s.func f
  match g.held with
  | (n, e) :: r => (s.modFunc f fun g => { g with held := r }).postEvent f n e
  | [] =>
    if g.mask.getLsbD 11 then
      let (t, s1) := (s.modFunc f fun g => { g with lost := 0, evNo := g.evNo + 1 }).freeNat
      s1.postEvent f g.evNo (lostEvent g.lost t)
    else s.modFunc f fun g => { g with lost := 0 }

/-! ## Draining and resets (R215, R236, R237) -/

/-- The KNOT_WAITs of a queue are withdrawn without replies. -/
def State.withdrawWaits (s : State) (q : Nat) : State :=
  let clear (x : Die) : Die := { x with
    knots := tmapv x.knots fun _ k => { k with hosts := k.hosts.filter fun w => w.1.queue != q } }
  ({ s with dies := tmapv s.dies fun _ x => clear x }).modQueue q fun x => { x with
    started := x.started.filter fun t => t.opcode != 0x0503
    taken := x.taken.filter fun t => t.opcode != 0x0503 }

/-- QUEUE_DESTROY begins: an ENABLED or ERROR queue is DRAINING, its KNOT_WAITs are withdrawn. -/
def State.drainQueue (s : State) (q : Nat) : State :=
  match (s.queue q).st with
  | .disabled => s
  | .draining => s
  | .enabled => (s.withdrawWaits q).modQueue q fun x => { x with st := .draining }
  | .error => (s.withdrawWaits q).modQueue q fun x => { x with st := .draining }

/-- Every packet the queue took has completed and its reply is posted. -/
def Queue.drained (x : Queue) : Bool := x.st == .draining && x.started.isEmpty && x.taken.isEmpty && x.held.isEmpty

/-- A DISABLED queue with its reset settings; what it wrote into its ring stands (R236: replies are discarded, started packets
complete). -/
def Queue.disable (x : Queue) : Queue :=
  { Queue.reset with life := x.life + 1, old := x.old ++ x.started.map fun t => (x.life, t), posted := x.posted }

/-- A function's event routing returns to its reset settings (R234). -/
def Func.rerouted (f : Nat) (g : Func) : Func :=
  { g with evQueue := (Func.reset f).evQueue, mask := (Func.reset f).mask }

end Sys2Proof.Machine
end

