-- ==== Sys2Proof/Machine/Slots.lean ====
section
/-! DEFINITION. The slots of weight threads (R141 to R151): rounds, entries, forwarding, detaching, gap-fill; and what reaches
for a region that sleeps. -/

namespace Sys2Proof.Machine

/-! ## Regions that are reached for (R82, R320, R321) -/

/-- A power-down before its gate point is cancelled by what reaches the region (R82, R320 step 2). -/
def Region.stay (g : Region) : Region :=
  if g.power == .draining && !g.gated then { g with power := .awake, cancelSeen := true } else g

/-- A region's port is closed for sleep, and it is not isolated: what it is asked for waits for its wake (R320, R321). -/
def Region.closed (g : Region) : Bool :=
  !g.isolated && match g.power with
    | .awake => false
    | .draining => g.gated
    | .asleep => true
    | .waking => true

/-- Something other than a packet reaches for a region: before the gate point it cancels the power-down, after it the region's
wake is asked for (R82, R320 steps 2 and 5). -/
def Region.reach (g : Region) : Region := if g.closed then { g with asked := true } else g.stay

/-! ## Slots -/

/-- Slot `slot` of array `m` (tile × 2 + array). -/
def Die.tslot (x : Die) (m slot : Nat) : Option TSlot := tfind (x.mtile (m / 2)).slots (m % 2 * 16 + slot)

/-- `x` with a bound slot replaced. -/
def Die.setTSlot (x : Die) (m slot : Nat) (q : TSlot) : Die :=
  x.modMTile (m / 2) fun t => { t with slots := tput t.slots (m % 2 * 16 + slot) q }

/-- `x` with `f` applied to a bound slot. -/
def Die.modTSlot (x : Die) (m slot : Nat) (f : TSlot → TSlot) : Die :=
  match x.tslot m slot with
  | some q => x.setTSlot m slot (f q)
  | none => x

/-- The unit number of a slot's counters (Table 18-6). -/
def slotUnit (m slot : Nat) : Nat := m * 16 + slot

/-- A fresh slot of thread `th`. -/
def TSlot.bound (th : Nat) : TSlot := { thread := th, entries := [], detached := false, taken := 0, swapped := 0 }

/-- The slots bound to a thread, as (array, slot). -/
def Die.thSlots (x : Die) (th : Nat) : List (Nat × Nat) :=
  x.mtiles.flatMap fun t => (t.2.slots.filter fun q => q.2.thread == th).map fun q => (2 * t.1 + q.1 / 16, q.1 % 16)

/-! ## Rounds (R143, R149) -/

/-- Blocks of a source descriptor. -/
def srcRows (d : BitVec 512) : Nat := dw d 4 31 16

/-- Blocks of all the rounds that are armed. -/
def roundBlocks (l : List (BitVec 512)) : Nat := (l.map srcRows).sum

/-- A block of the rounds: its source descriptor and row, its round, its index there, and whether it is the round's last. -/
structure BlkPos where
  desc  : BitVec 512
  row   : Nat
  round : Nat
  index : Nat
  last  : Bool
  deriving DecidableEq, Repr

/-- Block `i` of the rounds that `l` arms; `round_end` marks the last descriptor of each. `ro` rounds and `b` blocks of the round come before `l`. -/
def blockAt : List (BitVec 512) → Nat → Nat → Nat → Option BlkPos
  | [], _, _, _ => none
  | d :: r, i, ro, b =>
    if i < srcRows d then
      some { desc := d, row := i, round := ro, index := b + i
             last := decide (i + 1 = srcRows d) && (dw d 0 24 24 == 1 || r.isEmpty) }
    else if dw d 0 24 24 = 1 then blockAt r (i - srcRows d) (ro + 1) 0
    else blockAt r (i - srcRows d) ro (b + srcRows d)

/-- The first block at or after `i` that begins a round, or the end of all. `n` blocks come before `l`. -/
def roundFrom : List (BitVec 512) → Nat → Nat → Nat
  | [], _, n => n
  | d :: r, i, n => if dw d 0 24 24 = 1 ∧ i ≤ n + srcRows d then n + srcRows d else roundFrom r i (n + srcRows d)

/-- Rounds that a thread's sources arm. -/
def roundCount (l : List (BitVec 512)) : Nat := max 1 (l.filter fun d => dw d 0 24 24 == 1).length

/-- Every slot that is bound to a thread is freed, and the thread with its stream. -/
def Die.unbindThread (x : Die) (th : Nat) : Die :=
  match tfind x.threads th with
  | none => x
  | some h =>
    { x with
      mtiles := tmapv x.mtiles fun _ t => { t with slots := t.slots.filter fun q => q.2.thread != th }
      threads := tdel x.threads th, streams := tdel x.streams h.stream
      thRounds := tput x.thRounds th ((h.round + roundCount h.sources) % 65536) }

/-! ## Entries (R142, R145) -/

/-- Entries of a slot that are taken, or claimed by a record on its way or a fetch. -/
def Die.entriesUsed (x : Die) (h : Thread) (e : Nat × Nat) : Nat :=
  ((x.tslot e.1 e.2).map (·.entries.length)).getD 0 + (h.transit.filter fun t => h.members[t.1]? == some e).length +
    (h.fetch.filter fun f => f.slot == e).length

/-- The slot takes block `i` from the chain (R148). -/
def TSlot.attached (q : TSlot) (i : Nat) : Bool := !q.detached && decide (q.attachFrom ≤ i)

/-- The slot has blocks left to fetch itself. -/
def TSlot.gapping (q : TSlot) : Bool := !q.detached && decide (q.gapNext < q.attachFrom)

/-- A slot has an entry for block `i` of the chain: a block of a later round waits while the slot gap-fills. -/
def Die.entryFor (x : Die) (h : Thread) (e : Nat × Nat) (i : Nat) : Bool :=
  decide (x.entriesUsed h e < 4) && match x.tslot e.1 e.2 with
    | some q => !q.gapping || decide (i < q.attachFrom)
    | none => false

/-- The pacing member (R144): the most upstream attached one. -/
def Die.pacing (x : Die) (h : Thread) : Option TSlot :=
  (h.members.filterMap fun e => x.tslot e.1 e.2).find? fun q => q.attached h.next

/-- The first entry that waits to be forwarded. -/
def TSlot.toForward (q : TSlot) : Option TEntry := q.entries.find? fun e => !e.forwarded

/-- What its member does not load is discarded: all that a detached one holds, and chain blocks that it is not to take (R148). -/
def TSlot.discard (q : TSlot) : TSlot :=
  { q with entries := q.entries.map fun t =>
      if q.detached || (!t.own && (decide (t.index < q.attachFrom) || decide (t.index < q.taken))) then { t with loaded := true } else t }

/-- An entry is dropped once it is forwarded and loaded (R145). -/
def TSlot.free (q : TSlot) : TSlot :=
  let q := q.discard
  { q with entries := q.entries.filter fun e => !(e.forwarded && e.loaded) }

/-- Flits of a record (Table 6-3). -/
def TEntry.flits (t : TEntry) : Nat := ceilDiv t.bytes.length 64

/-- The network interface of a member's tile is fenced or its region isolated (R151). -/
def Die.memberDown (x : Die) (e : Nat × Nat) : Bool :=
  (x.region (e.1 / 16)).isolated ||
    (tkeys x.fenced).any fun k => k / 65536 == 9 && k % 256 == e.1 / 16 * 32 + e.1 / 2 % 8

/-- Thread records that the wake buffer before region `r` holds, its port being closed (R151, R321). -/
def Die.wakeBlks (x : Die) (r : Nat) : List TEntry :=
  if (x.region r).closed then
    x.threads.flatMap fun h => (h.2.transit.filter fun t =>
      match h.2.members[t.1]? with
      | some e => e.1 / 16 == r
      | none => false).map (·.2)
  else []

/-- A record can leave for a member: an entry there is free, its interface works, and before a closed port the wake buffer has
room (R146, R151, R321). -/
def Die.canForward (x : Die) (h : Thread) (e : Nat × Nat) (t : TEntry) : Bool :=
  x.entryFor h e t.index && !(x.memberDown e) &&
    (!(x.region (e.1 / 16)).closed || decide ((((x.wakeBlks (e.1 / 16)).map TEntry.flits).sum + t.flits) ≤ 64))

/-- A record leaves for position `p` of its thread; before a closed port it is held and the region's wake asked for. -/
def Die.putTransit (x : Die) (th : Nat) (h : Thread) (p r : Nat) (t : TEntry) : Die :=
  let y := { x with threads := tput x.threads th { h with
    transit := h.transit ++ [(p, { t with forwarded := false, loaded := false })] } }
  (if (x.region r).closed then y.countRT rtWakeHolds (128 + r) 1 else y).modRegion r Region.reach

/-- Member `p` forwards its first waiting entry, unchanged, if the next member has a free one; at the tail nothing is left to
forward (R145, R146). What it does not load it discards (R148). -/
def Die.pumpOne (x : Die) (th p : Nat) : Die :=
  match tfind x.threads th with
  | none => x
  | some h =>
    match h.members[p]? with
    | none => x
    | some e =>
      match x.tslot e.1 e.2 with
      | none => x
      | some q =>
        match h.members[p + 1]?, q.toForward with
        | none, _ => x.setTSlot e.1 e.2 (TSlot.free { q with entries := q.entries.map fun t => { t with forwarded := true } })
        | some _, none => x.setTSlot e.1 e.2 q.free
        | some n, some t =>
          if x.canForward h n t then
            ((x.setTSlot e.1 e.2 (TSlot.free { q with
              entries := q.entries.map fun u => if u = t then { u with forwarded := true } else u })).putTransit
                th h (p + 1) (n.1 / 16) t).count thForwarded (slotUnit e.1 e.2) 1
          else x.setTSlot e.1 e.2 q.free

/-- Every member forwards what it can, from the tail upstream, four times: an entry each. -/
def Die.pump (x : Die) (th : Nat) : Die :=
  let n := ((tfind x.threads th).map (·.members.length)).getD 0
  ((List.range 4).flatMap fun _ => (List.range n).reverse).foldl (fun x p => x.pumpOne th p) x

/-! ## Detaching, gap-fill and failed members (R147, R148, R151) -/

/-- A member's slot detaches (R148): it forwards on and discards. -/
def Die.detachSlot (x : Die) (m slot : Nat) : Die :=
  match x.tslot m slot with
  | none => x
  | some q => (x.setTSlot m slot (TSlot.free { q with detached := true })).pump q.thread

/-- Every slot of array `m` detaches. -/
def Die.detachArray (x : Die) (m : Nat) : Die := (List.range 16).foldl (fun x k => x.detachSlot m k) x

/-- The slot detaches until the end of the round (R147). -/
def TSlot.skipRound (h : Thread) (q : TSlot) : TSlot :=
  let n := roundFrom h.sources (q.taken + 1) 0
  { q with attachFrom := n, gapNext := n, taken := n, swapped := n }

/-- The slot gap-fills (R148): it fetches every block from the first that its progress lacks to the end of the round that the
chain is in; off the chain, to the end of all. -/
def TSlot.startGap (h : Thread) (onChain : Bool) (q : TSlot) : TSlot :=
  { q with
    detached := false, gapNext := q.taken
    attachFrom := if onChain then roundFrom h.sources (max h.next q.taken) 0 else roundBlocks h.sources }

/-- A slot gap-fills in its thread. -/
def Die.gapSlot (x : Die) (e : Nat × Nat) : Die :=
  match x.tslot e.1 e.2 with
  | none => x
  | some q => match tfind x.threads q.thread with
    | none => x
    | some h => (x.setTSlot e.1 e.2 (q.startGap h (h.members.contains e)).free).pump q.thread

/-- Members of a thread fail with their interface or region (R151): blocks in flight to them are lost, and members downstream
that miss one gap-fill. -/
def Die.cutThread (x : Die) (th : Nat) : Die :=
  match tfind x.threads th with
  | none => x
  | some h =>
    let down := h.members.filter x.memberDown
    let atDown (p : Nat) : Bool := match h.members[p]? with
      | some e => down.contains e
      | none => false
    let held (e : Nat × Nat) : Bool := match x.tslot e.1 e.2 with
      | some q => q.entries.any fun t => !t.forwarded
      | none => false
    let lost := h.members.head?.all (fun e => !(down.contains e)) &&
      ((h.transit.any fun t => atDown t.1) || down.any held)
    let x1 := down.foldl (fun x e => x.modTSlot e.1 e.2 fun q => { q with entries := [], detached := true })
      { x with threads := tput x.threads th { h with
          transit := h.transit.filter fun t => !(atDown t.1), fetch := h.fetch.filter fun f => !(down.contains f.slot)
          part := if (h.fetch.head?.map fun f => down.contains f.slot) = some true then [] else h.part } }
    if lost then
      ((h.members.dropWhile fun e => !(down.contains e)).filter fun e => !(down.contains e) && (match x1.tslot e.1 e.2 with
        | some q => !q.detached
        | none => false)).foldl (fun x e => x.gapSlot e) x1
    else x1

/-- Every thread with a failed member loses what was in flight to it. -/
def Die.cutThreads (x : Die) : Die :=
  ((x.threads.filter fun h => h.2.members.any x.memberDown).map (·.1)).foldl (fun x th => x.cutThread th) x

/-- Slots of array `m` whose thread the dispatch `id` built. -/
def Die.slotsOf (x : Die) (m : Nat) (id : Option Nat) : List Nat :=
  (List.range 16).filter fun k => match x.tslot m k with
    | some q => match tfind x.threads q.thread with
      | some h => id == some h.disp
      | none => false
    | none => false

end Sys2Proof.Machine
end

