-- ==== Sys2Proof/Machine/Faults.lean ====
section
/-! DEFINITION. Errors at the levels of R23: isolation of a region, loss of a channel, loss of a die, package-fatal errors,
package reset. -/

namespace Sys2Proof.Machine

/-! ## The size of a request (R57 to R59) -/

/-- Bytes of the bias part (R59). -/
def biasBytes (kind h g : Nat) : Nat := if kind = 1 then 4 * h * g else if kind = 2 then 64 * h * g else 0

/-- Query rows of a request; none of an APPEND, whose `g` is 0. -/
def WReq.rows (q : WReq) : Nat := q.h * q.g * q.t

/-- A length rounded up to whole 64-byte units (R58). -/
def pad64 (n : Nat) : Nat := ceilDiv n 64 * 64

/-- Bytes of the body part after the handles and the bias: queries, or keys and values (Table 3-2). -/
def WReq.bodyBytes (q : WReq) : Nat := if q.isAppend then q.t * q.h * 4 * q.d else q.rows * (q.d + q.d / 32)

/-- Bytes of a request in the input buffer (R58, R59). -/
def WReq.bytes (q : WReq) : Nat :=
  64 + pad64 (4 * q.handles.length) + pad64 (biasBytes q.bias q.h q.g) + pad64 q.bodyBytes

/-- Flits of a request on the network: 64 bytes each (R303). -/
def WReq.flits (q : WReq) : Nat := ceilDiv q.bytes 64

/-! ## Replies of wringers that can do no work -/

/-- A reply without rows to a request (R63, R64): the request's fields, a status, and where it came from. -/
def WReq.answer (q : WReq) (st : Status) (d w lostIdx lostTok : Nat) : WRep :=
  { isAppend := q.isAppend, empty := false, nan := false, redirected := decide (w ≠ q.chan), remote := false,
    lpddr := false, tag := q.tag, status := st, w := w, die := d, seq := q.seq, layer := q.layer, fp := 0, rows := [],
    lostIdx := lostIdx, lostTok := lostTok, countA := 0, countB := 0, rDie := q.rDie, rTile := q.rTile, rArr := q.rArr,
    rSlot := q.rSlot, chan := q.chan }

/-- `lost_tok` of an answer (Table 3-4): of an APPEND_DONE the `tok_count` of its tail as it is, of a PARTIAL what the status gives. -/
def Die.answerTok (x : Die) (q : WReq) (tok : Nat) : Nat := if q.isAppend then (x.entry (q.handles.headD 0)).tok else tok

/-- The reply of a request that has done all it can (Table 3-4). -/
def WOpen.reply (o : WOpen) (d w : Nat) : WRep :=
  let q := o.req
  match o.fail with
  | some (st, i, tok) =>
    { q.answer st d w i tok with
      remote := o.remote, lpddr := o.lpddr, fp := o.fp, countA := o.scores, countB := o.skipped }
  | none =>
    { q.answer .ok d w 0xFFFF 0 with
      empty := o.rows.all fun r => !r.nan && r.l == 0
      nan := o.rows.any WRow.nan
      remote := o.remote, lpddr := o.lpddr, fp := o.fp, rows := o.rows.map fun r => (r.m, r.l, r.o)
      countA := o.scores, countB := o.skipped }

/-- Every request a wringer has accepted is answered UNIT_FENCED (R85), an open one with what it has gathered (R63), and counts as
completed (R87). -/
def Die.answerFenced (x : Die) (d w : Nat) : Die :=
  let g := x.wringer w
  let l := (g.openR.map fun o => { o with fail := some (.unitFenced, 0xFFFF, x.answerTok o.req 0) }.reply d w) ++
    g.input.map fun q => q.answer .unitFenced d w 0xFFFF (x.answerTok q 0)
  { (x.modWringer w fun _ => Wringer.reset) with repNet := x.repNet ++ l }.count wrRequests w l.length

/-- The panic signal of a region's real-time memory port (R256): high while any of its channels is in panic. -/
def Die.portPanic (x : Die) (r : Nat) : Bool := [12, 13, 14, 15].any fun n => ((x.fabric r).port n).panic

/-- What waits in a wake buffer goes back on the network: its region is closed for another reason now (R318, R321). -/
def Die.unwake (x : Die) (r : Nat) : Die :=
  { x with reqNet := (x.router (128 + r)).wakeReq ++ x.reqNet }.modRouter (128 + r) fun q =>
    { q with inbox := q.inbox ++ q.wakeBuf.map (fun k => (7, k)), wakeBuf := [], wakeReq := [] }

/-! ## Regions (R23, R26, R208) -/

/-- Fabric actions that wait when a region is reconfigured or isolated end with REGION_UNCONFIGURED (R299). -/
def State.endActs (s : State) (d r : Nat) : State :=
  let f := (s.die d).fabric r
  let l := f.acts ++ f.copying.toList
  let s1 := l.foldl (fun s a =>
    s.finish (if a.action < 4 then 0x0404 else 0x0402) a.pkt .regionUnconfigured (regionDetail d r) [] []) s
  s1.modDie d fun x => x.modFabric r fun f => { f with acts := [], copying := none }

/-- A region's fabric goes to UNCONFIGURED by R289 for another cause than its own session (R291). -/
def State.unconfigureRegion (s : State) (d r : Nat) : State :=
  let s1 := s.endActs d r
  match ((s1.die d).fabric r).session with
  | some q => if 4 ≤ q.step then s1.endSession d r .unitFenced (fencedDetail 0x0E d r) none
              else (s1.endSession d r .unitFenced 0 none).modDie d fun x =>
                if (x.fabric r).st == .configured then x.unconfigure d r else x
  | none => s1.modDie d fun x =>
      if (x.fabric r).st == .unconfigured then x.modFabric r fun f => { f with isoCodes := true } else x.unconfigure d r

/-- The bit of a block in the mask of R443, of a unit kind and number. -/
def blockBit (r kind unit : Nat) : Nat :=
  if kind = 1 then 2 ^ (unit - 8 * r)
  else if kind = 2 then 2 ^ (unit / 2 - 8 * r)
  else if kind = 3 then 2 ^ (8 + unit - 4 * r)
  else if kind = 4 then (if unit < 64 then 2 ^ (12 + unit - 8 * r) else 2 ^ (20 + unit - 64 - 2 * r))
  else if kind = 5 then 2 ^ (22 + unit - 4 * r)
  else if kind = 6 then 2 ^ (26 + unit - 2 * r)
  else if kind = 10 then 2 ^ 28
  else if kind = 7 then 2 ^ (29 + unit % 16)
  else if kind = 11 then 2 ^ 41
  else 0

/-- The region a unit belongs to (R20), `none` for a unit outside the regions. -/
def unitRegion (kind unit : Nat) : Option Nat :=
  if kind = 1 then some (unit / 8)
  else if kind = 2 then some (unit / 16)
  else if kind = 3 then some (unit / 4)
  else if kind = 4 then some (chanRegion unit)
  else if kind = 5 then some (unit / 4)
  else if kind = 6 then some (unit / 2)
  else if kind = 7 then some (unit / 16)
  else if kind = 9 then (if unit % 32 < 20 then some (unit / 32 % 8) else none)
  else if kind = 10 then some (unit % 8)
  else if kind = 11 then some (unit / 320)
  else if kind = 14 then some unit
  else if kind = 18 then some (unit / 256)
  else none

/-- Fenced units of a region, as their keys. -/
def Die.fencedIn (x : Die) (r : Nat) : List Nat :=
  (tkeys x.fenced).filter fun k => unitRegion (k / 65536) (k % 65536) == some r

/-- The mask of the fenced blocks of a region (R443). -/
def Die.fencedMask (x : Die) (r : Nat) : Nat :=
  (x.fencedIn r).foldl (fun m k => Nat.lor m (blockBit r (k / 65536) (k % 65536))) 0

/-- The ten channels of a region (Table 1-5). -/
def regionChans (r : Nat) : List Nat := (List.range 8).map (8 * r + ·) ++ [64 + 2 * r, 65 + 2 * r]

/-- Sequences homed in a region, or with sheets on its channels, are suspended (R23). -/
def State.suspendRegion (s : State) (d r : Nat) : State :=
  let x := s.die d
  let onIt n := (x.seqEntries n).any fun e => decide (chanRegion e.2.loc.code = r)
  { s with seqs := tmapv s.seqs fun n q =>
      if decide (seqDie n = d) && (decide (q.region = r) || onIt n) && q.st == .active then
        { q with st := .suspended, suspMs := 0, suspNew := true } else q }

/-- Copies with an end on the region's channels are cancelled (Table 2-12). -/
def Die.cancelRegion (x : Die) (r : Nat) : Die :=
  (x.copies.filter fun c => !c.flipped && (chanRegion c.src.code == r || chanRegion c.dst.code == r)).foldl
    (fun x c => x.cancelCopy c.handle) x

/-- Every descriptor queued or running on an array of a matrix tile completes with `st` at once (R112, R140). -/
def State.endArray (s : State) (d t arr : Nat) (st : Status) : State :=
  let r := ((s.die d).mtile t).arr arr
  let s1 := r.runs.foldl (fun s u => s.endDesc d u.ctx u.desc (u.status.getD st) u.fp u.checked none) s
  let s2 := r.atts.foldl (fun s u =>
    s.endDesc d u.ctx u.desc (u.fail.getD st) u.fp true (if u.fail.isSome && !u.wide then some (dw u.desc 1 13 0) else none)) s1
  let s3 := (r.queue ++ r.stalled.toList).foldl (fun s e => s.endDesc d e.2 e.1 st 0 false none) s2
  s3.modDie d fun x => x.modMTile t fun m => m.modArr arr fun _ => Arr.reset

/-- A region's tiles lose what they hold, its contexts are destroyed and residents from elsewhere FAILED (R208). -/
def State.evictRegion (s : State) (d r : Nat) : State :=
  let homed := ((s.die d).ctxs.filter fun e => e.2.region == r).map (·.1)
  let s0 := (List.range 8).foldl (fun s i => (s.endArray d (8 * r + i) 0 .unitFenced).endArray d (8 * r + i) 1 .unitFenced) s
  let s1 := homed.foldl (fun s c => s.destroyCtx d c .unitFenced) s0
  let tiles : List (TileKind × Nat) :=
    ((List.range 8).map fun i => (TileKind.matrix, 8 * r + i)) ++ (List.range 4).map fun i => (TileKind.vector, 4 * r + i)
  tiles.foldl (fun s t => (s.failOn d t.1 t.2 .unitFenced).modDie d fun x =>
    x.modOcc t.1 t.2 Occ.noInc) s1

/-- A region is isolated (R23, R26): its boundary closes, its fabric takes its isolation values, its Felt link goes DOWN (R359),
its contexts are lost, its sequences suspended, its wringers answer UNIT_FENCED, weight blocks on their way to it are lost (R151);
refresh goes on (R21). `mask` names the blocks that caused it;
`quiet` where the loss of the die is reported instead (R28). -/
def State.isolate (s : State) (d r cause mask : Nat) (quiet : Bool) : State :=
  if ((s.die d).region r).isolated then s
  else
    let s1 := s.modDie d fun x =>
      let ws := (List.range 8).map (8 * r + ·) ++ [64 + 2 * r, 65 + 2 * r]
      let x1 := ws.foldl (fun x w => x.answerFenced d w) ((x.cancelRegion r).unwake r)
      x1.modRegion r fun g => { g with isolated := true, fencedBefore := x1.fencedIn r }
    let s2 := ((((s1.evictRegion d r).suspendRegion d r).unconfigureRegion d r).linkDown d r).modDie d Die.cutThreads
    if quiet then s2
    else s2.emit { Event.blank 0x0004 2 2 .unitFenced with
      die := d, region := r, unitKind := 0x0E, unit := r, arg0 := cause, arg1 := mask,
      detail := BitVec.ofNat 32 (fencedDetail 0x0E d r) }

/-- A tile is fenced as a whole: its resident becomes FAILED with UNIT_FENCED and no image is saved, a context that was to
come in is READY still (R199). The descriptors of a matrix tile end UNIT_FENCED, its slots detach and forward on (R140, R148, R162). -/
def State.fenceTile (s : State) (d : Nat) (k : TileKind) (t cause : Nat) : State :=
  let s0 := match k with
    | .vector => s
    | .matrix => (s.endArray d t 0 .unitFenced).endArray d t 1 .unitFenced
  let s1 := ((s0.fence d (tileUnit k) t cause (some (tileRegion k t))).modDie d fun x =>
    x.modOcc k t Occ.noInc).failOn d k t .unitFenced
  match k with
  | .vector => s1
  | .matrix => s1.modDie d fun x => (x.detachArray (2 * t)).detachArray (2 * t + 1)

/-! ## Channels (R188, R336, R348) -/

/-- Images on a lost pseudo-channel (R188): a context whose image is there fails; one that is resident or holds no image
moves its reservation to another pseudo-channel of its region with room. -/
def State.loseImages (s : State) (d c : Nat) : State :=
  let r := chanRegion c
  let on := ((s.die d).ctxs.filter fun e => decide (c < 64) && e.2.region == r && e.2.imgPc == c % 8)
  on.foldl (fun s e =>
    let stored : Bool := match e.2.st with
      | .ready => e.2.image != .none
      | .waiting => e.2.tile.isNone
      | .saving => true
      | .created => false
      | .running => false
      | .failed => false
    if stored then
      match e.2.st, e.2.tile with
      | .saving, some t => s.failOn d e.2.kind t .unitFenced
      | _, _ => s.failCtx d e.1 .unitFenced
    else
      match (s.die d).imgPlace r e.2.imgBytes with
      | some pc => s.modCtx d e.1 fun y => { y with imgPc := pc }
      | none => s) s

/-- The rings with frames on a lost channel lose what they hold, and firmware moves them to other channels (R348, R466; log entry
81). -/
def Die.loseRings (x : Die) (c : Nat) : Die :=
  (x.rings.filter fun e => e.2.frames.any fun k => k / 2 ^ 15 == c).foldl (fun (x : Die) e =>
    let on := match (x.boundPorts e.1).find? fun p => p.2.2 == 3 || p.2.2 == 4 with
      | some p => (List.range 8).map (8 * p.1 + ·)
      | none => List.range 64
    (x.modRing e.1 fun r => { r with rd := r.wr, data := [] }).placeRing e.1 (on.filter (· != c))) x

/-- Every pending request of a channel's controller for that channel ends with UNIT_FENCED (R348). -/
def MC.endChan (m : MC) (c : Nat) : MC :=
  { m with
    queue := m.queue.filter fun w => w.req.chan != c
    done := m.done ++ (m.queue.filter fun w => w.req.chan == c).map fun w =>
      { who := w.req.who, status := .unitFenced, data := [] } }

/-- A channel's state set (R349). -/
def Die.setChan (x : Die) (c : Nat) (st : ChState) : Die :=
  x.modMC (chanMC c) fun m => if c < 64 ∧ c % 2 = 1 then { m with ch1 := st } else { m with ch0 := st }

/-- `arg0` of FRAME_RETIRED and the channel of CHANNEL_LOST (R442): [31] tier, [30] stack, [29:25] channel, [24:10] frame. -/
def frameArg (c f : Nat) : Nat :=
  if c < 64 then c / 32 * 2 ^ 30 + c % 32 * 2 ^ 25 + f * 2 ^ 10 else 2 ^ 31 + (c - 64) * 2 ^ 25 + f * 2 ^ 10

/-- The unit kind and number of a controller (Table 18-6). -/
def mcUnit (m : Nat) : Nat × Nat := if m < 32 then (5, m) else (6, m - 32)

/-- Copies that meet the loss of a channel (Table 2-12): a lost destination cancels the copy, a lost source leaves the
sheet to become LOST. -/
def Die.cancelDst (x : Die) (c : Nat) : Die :=
  (x.copies.filter fun k => !k.flipped && k.dst.code == c).foldl (fun x k => x.cancelCopy k.handle) x

/-- A channel is lost (R348): its controller is fenced, it is LOST, its entries become LOST, its frames are issued no more,
CHANNEL_LOST goes out. -/
def State.loseChannel (s : State) (d c cause : Nat) : State :=
  if !((s.die d).chanUp c) then s
  else
    let u := mcUnit (chanMC c)
    let s1 := s.fence d u.1 u.2 cause (some (chanRegion c))
    let s2 := s1.modDie d fun x => ((x.setChan c .lost).modMC (chanMC c) fun m => m.endChan c).cancelDst c
    let hs := ((s2.die d).ream.filter fun e =>
      decide (e.2.loc.code = c) && (e.2.st == .tail || e.2.st == .full || e.2.st == .moving)).map (·.1)
    let n := ((hs.map fun h => ((s2.die d).entry h).seq).eraseDups.filter fun q =>
      match s2.seq q with
      | some q => q.st != .lost
      | none => false).length
    (((s2.markGone d hs .lost false).loseImages d c).modDie d fun x => x.loseRings c).emit { Event.blank 0x0012 6 1 .unitFenced with
      die := d, region := chanRegion c, unitKind := u.1, unit := u.2, arg0 := frameArg c 0, arg1 := n,
      detail := BitVec.ofNat 32 (fencedDetail u.1 d u.2) }

/-- A frame is retired (R336): never issued again, FRAME_RETIRED with its cause (1 uncorrectable, 2 weak twice). -/
def State.retire (s : State) (d c f cause : Nat) : State :=
  if (s.die d).retired.contains (frameKey c f) then s
  else
    (s.modDie d fun x => { x with retired := x.retired ++ [frameKey c f] }).emit
      { Event.blank 0x0011 6 1 .ok with
        die := d, region := chanRegion c, unitKind := (mcUnit (chanMC c)).1, unit := (mcUnit (chanMC c)).2,
        arg0 := frameArg c f, arg1 := cause }

/-- The sheet in a frame, if one is valid there. -/
def Die.sheetAt (x : Die) (c f : Nat) : Option (Nat × Ream) :=
  x.ream.find? fun e => decide (e.2.loc = locOf c f) && (e.2.st == .tail || e.2.st == .full || e.2.st == .moving)

/-- An uncorrectable error in a frame (R336): a sheet in it becomes LOST, the frame is retired, and a channel with more
than 64 such frames within a second is lost (R348). -/
def State.frameUe (s : State) (d c f : Nat) : State :=
  let now := (s.die d).led.cycN.toNat
  let s1 := s.modDie d fun x => (x.modMC (chanMC c) fun m =>
    { m with
      ueSeen := true
      ueFrames := (m.ueFrames.filter fun k => k.1 != frameKey c f && decide (now ≤ k.2 + nclkSecond)) ++ [(frameKey c f, now)] }).countMC
        mcUe (chanMC c) 1
  let s2 := match (s1.die d).sheetAt c f with
    | some (h, _) => s1.markGone d [h] .lost false
    | none => s1
  let s3 := s2.retire d c f 1
  if 64 < (((s3.die d).mc (chanMC c)).ueFrames.filter fun k => k.1 / 2 ^ 15 == c).length then s3.loseChannel d c 1 else s3

/-! ## The package (R28, R29, R236) -/

/-- The package-fatal state (R29): every die held in reset, CFG_DONE and PWR_OK low, the host link down; Psiurn reports the
cause. Everything the dies held is lost. -/
def State.fatal (s : State) (cause : Nat) : State :=
  if s.psi.state == .fatal then s
  else
    { s with
      psi := { s.psi with state := .fatal, cause := cause }
      pins := { s.pins with pwrOk := false, cfgDone := false }
      hostUp := false, queues := [], funcs := [], raised := [], tenants := [], models := [], seqs := [], disps := [],
      idles := [], keyWaits := [], limits := [], waiting := [], dies := [], epochOp := none }

/-- Outstanding packets of a queue end with UNIT_FENCED, those taken and not started too (R236). -/
def State.endQueue (s : State) (q detail : Nat) : State :=
  let x := s.queue q
  let l := x.started ++ x.taken
  let reply (t : TakenPkt) : Reply :=
    { opcode := t.opcode, seq := t.seq, status := .unitFenced, detail := BitVec.ofNat 32 detail, params := [],
      payload := [], tag := t.tag, seqErr := false, more := false, irq := t.irq }
  s.modQueue q fun x => { x with
    started := [], taken := [], asm := []
    held := if x.st == .disabled then x.held else x.held ++ l.map reply }

/-- QUEUE_ERROR (R215, R442). `stat` is the value of QSTAT. -/
def queueErrorEvent (q stat : Nat) : Event :=
  { Event.blank 0x0050 10 3 .badParam with arg0 := q, arg1 := stat, detail := 0xFFFFFFFF }

/-- Queues homed on a lost die go to ERROR with `err_die` (R215, R236); their packets complete with UNIT_FENCED. -/
def State.loseQueues (s : State) (d : Nat) : State :=
  (s.queues.filter fun e => e.2.home == d).foldl (fun s e =>
    let s1 := s.endQueue e.1 (fencedDetail 0x0F d d)
    let was := (s1.queue e.1).st
    let s2 := s1.modQueue e.1 fun x => { x with errDie := true, st := if x.st == .enabled then .error else x.st }
    if was == .enabled then s2.emit (queueErrorEvent e.1 (s2.queue e.1).stat) else s2) s

/-- A die is lost (R28): its eight regions are isolated, its contexts destroyed, its sequences LOST, its queues in ERROR; one
DIE_LOST goes out. D0's loss is package-fatal. `cause`: 1 die controller, 2 root PLL. -/
def State.loseDie (s : State) (d cause : Nat) : State :=
  if d = 0 then s.fatal 5
  else if (s.die d).lost then s
  else
    let s1 := s.modDie d fun x => { x with lost := true, running := false }
    let s2 := (List.range 8).foldl (fun s r => s.isolate d r 1 0 true) s1
    let s3 := ((s2.die d).ctxs.map (·.1)).foldl (fun s c => s.destroyCtx d c .unitFenced) s2
    let hs := ((s3.die d).ream.filter fun e => e.2.st == .tail || e.2.st == .full || e.2.st == .moving).map (·.1)
    let s4 := s3.markGone d hs .lost false
    let homed := (s4.seqsOn d).map (·.1)
    let s5 := homed.foldl (fun s n => s.loseSeq false n) s4
    (s5.loseQueues d).emit { Event.blank 0x0006 2 3 .unitFenced with
      die := d, unitKind := 0x0F, unit := d, arg0 := cause, detail := BitVec.ofNat 32 (fencedDetail 0x0F d d) }

/-- Package reset (R29, R236, R283, R434, R459): everything but what is one-time programmable, in flash or outside the
package goes to its reset value. -/
def State.packageReset (s : State) : State :=
  { State.reset with
    pending := s.pending, part := s.part
    pins := { s.pins with pkgRstN := false, pwrOk := false, cfgDone := false }
    psi := { Psiurn.reset with
      signing := s.psi.signing, imageKeys := s.psi.imageKeys, fwMin := s.psi.fwMin, cfgMin := s.psi.cfgMin,
      fw := { version := s.psi.fw.version, secVersion := 0, digest := 0 }, flash := s.psi.flash, tempC := s.psi.tempC,
      pMw := s.part.variant.limitMw }
    freeCount := s.freeCount, stamp := s.stamp }

end Sys2Proof.Machine
end

