-- ==== Sys2Proof/Machine/StreamOps.lean ====
section
/-! DEFINITION. Local memory, memory grants and stream descriptors (R152 to R159, R189): the operations that the vector
words, the streams and the threads share. -/

namespace Sys2Proof.Machine

/-! ## Descriptors as words -/

/-- Every word from `n` to 15 is zero. -/
def dwZeroFrom (desc : BitVec 512) (n : Nat) : Bool := desc.toNat / 2 ^ (32 * n) == 0

/-- 64 bytes as a descriptor or ring unit. -/
def unitOf (l : List Byte) : BitVec 512 := BitVec.ofNat 512 (leNat l)

/-- A unit as 64 bytes. -/
def unitBytes (u : BitVec 512) : List Byte := le 64 u.toNat

/-! ## Local memory -/

/-- A tile's local memory. -/
def Die.tileMem (x : Die) (k : TileKind) (t : Nat) : Memory :=
  match k with
  | .matrix => (x.mtile t).mem
  | .vector => (x.vtile t).mem

/-- A tile's local memory with `f` applied. -/
def Die.modTileMem (x : Die) (k : TileKind) (t : Nat) (f : Memory → Memory) : Die :=
  match k with
  | .matrix => x.modMTile t fun m => { m with mem := f m.mem }
  | .vector => x.modVTile t fun m => { m with mem := f m.mem }

/-- Local memory of a context: its tile's while it is resident. -/
def Die.ctxTile (x : Die) (c : Nat) : Option (Ctx × Nat) :=
  match x.ctx c with
  | some y => y.tile.map fun t => (y, t)
  | none => none

/-! ## Memory grants (R189) -/

/-- Where a byte of a grant lies: the instance's weights (`none`) and the byte there, or the channel code and byte of a
scratch area (R466). -/
def Model.place (m : Model) (d : Nat) (g : Grant) (off : Nat) : Option (Nat × Nat) × Nat :=
  let byte := g.first * 64 + off
  match g.area with
  | none => (none, d * 2 ^ 40 + byte)
  | some a =>
    let f := (tget m.areas (d * 65536 + a) []).getD (byte / 524288) 0
    (some (f / 2 ^ 15, f % 2 ^ 15 * 524288 + byte % 524288), 0)

/-- `n` bytes of a grant from byte `off` on, in whole 64-byte units, as the tenant's key decrypts them. -/
def State.grantRead (s : State) (d tenant model : Nat) (g : Grant) (off units : Nat) : List Byte :=
  match tfind s.models model with
  | none => zeros (64 * units)
  | some m =>
    let x := s.die d
    (List.range units).flatMap fun i =>
      match m.place d g (off + 64 * i) with
      | (none, a) => mreadN m.weightMem a 64
      | (some (c, b), _) =>
        x.readSealed (c * 2 ^ 36 + b) 64 (x.keyOf ((x.tenantSlot tenant).getD 0)) fun j => placeTweak d c (b + j)

/-- 64 bytes written at byte `off` of a grant of context `y`. -/
def State.grantWrite1 (s : State) (d : Nat) (y : Ctx) (g : Grant) (off : Nat) (bs : List Byte) : State :=
  match tfind s.models y.model with
  | none => s
  | some m =>
    match m.place d g off with
    | (none, a) => ({ s with models := tput s.models y.model { m with weightMem := mwriteN m.weightMem a bs } }).modDie d fun x =>
        x.memAct 0 y.payer bs.length
    | (some (c, b), _) => s.modDie d fun x =>
        ((x.writeSealed (c * 2 ^ 36 + b) (x.keyOf ((x.tenantSlot y.tenant).getD 0)) (fun j => placeTweak d c (b + j)) bs).countMC
          mcWriteBytes (chanMC c) bs.length).memAct c y.payer bs.length

/-- The controllers count the bytes of a read from a grant (R350), and the ledger its bits (R392); weights have no frames of their
own here (log entry 36). -/
def State.grantCount (s : State) (d : Nat) (y : Ctx) (g : Grant) (off units : Nat) : State :=
  match tfind s.models y.model with
  | none => s
  | some m => (List.range units).foldl (fun s i =>
      match m.place d g (off + 64 * i) with
      | (none, _) => s.modDie d fun x => x.memAct 0 y.payer 64
      | (some (c, _), _) => s.modDie d fun x => (x.countMC mcReadBytes (chanMC c) 64).memAct c y.payer 64) s

/-- Whole 64-byte units written at byte `off` of a grant. -/
def State.grantWrite (s : State) (d : Nat) (y : Ctx) (g : Grant) (off : Nat) : Nat → List Byte → State
  | 0, _ => s
  | n + 1, bs => (s.grantWrite1 d y g off (bs.take 64)).grantWrite d y g (off + 64) n (bs.drop 64)

/-! ## Stream descriptors (Table 6-5) -/

/-- A stream kind that moves memory (1, 2) or a ring (4, 5). -/
def sdRing (desc : BitVec 512) : Bool := dw desc 0 31 28 == 4 || dw desc 0 31 28 == 5

/-- Byte offset in the grant. -/
def sdOff (desc : BitVec 512) : Nat := dw desc 1 31 0 + 2 ^ 32 * dw desc 2 3 0

/-- The reserved bits are zero (R9), and the fields that the table fixes at 0 for a kind. -/
def sdReserved (desc : BitVec 512) : Bool :=
  let k := dw desc 0 31 28
  dw desc 0 19 8 == 0 && dw desc 2 31 4 == 0 && dw desc 3 31 15 == 0 && dw desc 6 31 16 == 0 && dw desc 7 31 24 == 0 &&
    dw desc 8 15 7 == 0 && dwZeroFrom desc 9 && dw desc 1 5 0 == 0 && dw desc 5 5 0 == 0 &&
    (k == 3 || (dw desc 0 24 24 == 0 && dw desc 8 6 0 == 0)) &&
    (if sdRing desc then dw desc 0 7 0 == 0 && sdOff desc == 0 && dw desc 5 31 0 == 0 else dw desc 7 23 16 == 0) &&
    (k != 3 || (dw desc 3 14 0 == 0 && dw desc 6 15 0 == 0))

/-- R253, R368: no stream of the kind writes a ring that the fabric writes (a call port, a real-time write channel), or reads one
that it reads (a return port, a real-time read channel); of the rings bound to Felt it writes send rings and reads receive rings. -/
def Die.ringDir (x : Die) (k n : Nat) : Bool :=
  (x.ringMode n == 0 || x.ringMode n == if k = 5 then 1 else 2) && (x.boundPorts n).all fun p => if k = 5 then p.2.2 == 2 || p.2.2 == 4 else p.2.2 == 1 || p.2.2 == 3

/-- R154, R253 on a descriptor that a pattern of context `y` issues. -/
def Die.streamOk (x : Die) (y : Ctx) (desc : BitVec 512) : Bool :=
  let k := dw desc 0 31 28
  let rows := dw desc 4 31 16
  let len := dw desc 4 15 0
  let ms := dw desc 5 31 0
  let ts := dw desc 6 15 0
  let burst := dw desc 0 23 20
  let knot := dw desc 7 15 0
  sdReserved desc && (k == 1 || k == 2 || k == 4 || k == 5) && decide (6 ≤ burst ∧ burst ≤ 12) && decide (1 ≤ rows) &&
    decide (1 ≤ len) && decide (len ≤ ts) &&
    (if sdRing desc then decide (dw desc 7 23 16 < 64) && decide (x.ringLen (dw desc 7 23 16) ≠ 0) && x.ringDir k (dw desc 7 23 16)
     else decide (len * 64 ≤ ms) && match tfind y.grants (dw desc 0 7 0) with
       | some g => decide (sdOff desc + (rows - 1) * ms + len * 64 ≤ g.units * 64) && (if k = 1 then g.canRd else g.canWr)
       | none => false) &&
    decide (64 * (dw desc 3 14 0 + (rows - 1) * ts + len) ≤ y.declared) &&
    (dw desc 0 25 25 == 0 || knotOfTenant y.tenant knot)

/-- A descriptor at its start. -/
def SRun.start (desc : BitVec 512) : SRun := { desc := desc, row := 0, col := 0, finished := false, status := .ok }

/-- A stream bound to a context (R152). -/
def Stream.bound (c i : Nat) : Stream :=
  { ctx := c, index := i, cur := none, shadow := none, stopped := false, waited := 0, granted := 0 }

/-- The completion record of a stream descriptor. -/
def sdRec (desc : BitVec 512) (st : Status) : CRec := { tag := dw desc 8 31 16, status := st, fp := 0 }

/-- A descriptor is issued to stream index `idx` of context `c` (R154, R156): refused with a record, started, or shadowed.
An index that no stream is bound to is refused like a descriptor that fails R154 (log entry 21). -/
def State.issueStream (s : State) (d c idx : Nat) (desc : BitVec 512) : State :=
  let x := s.die d
  match x.ctx c with
  | none => s
  | some y =>
    match y.streams[idx]? with
    | none => s.writeRec d c (sdRec desc .badParam)
    | some n =>
      if x.streamOk y desc then
        match tfind x.streams n with
        | none => s.writeRec d c (sdRec desc .badParam)
        | some q =>
          match q.cur, q.shadow with
          | none, _ => s.modDie d fun x =>
              { x with streams := tput x.streams n { q with cur := some (SRun.start desc) } }
          | some _, none => s.modDie d fun x => { x with streams := tput x.streams n { q with shadow := some desc } }
          | some _, some _ =>
            (s.modDie d fun x => x.count seQueueFull (n / 64) 1).writeRec d c (sdRec desc .queueFull)
      else s.writeRec d c (sdRec desc .badParam)


end Sys2Proof.Machine
end

