-- ==== Sys2Proof/Machine/FabricOps.lean ====
section
/-! DEFINITION. Frames, images and the load session of a region (R267 to R278, R284 to R291), the port table's bindings and
the panic of the real-time port (R256). -/

namespace Sys2Proof.Machine

/-! ## Frame addresses (R267, R268) -/

/-- Minors per major of a frame type (Table 11-2); 0 for a type that does not exist. -/
def frameMinors (t : Nat) : Nat :=
  if t = 0 then 256 else if t = 1 then 64 else if t = 2 then 32 else if t = 3 then 64 else if t = 5 then 3
  else if t = 6 then 36 else 0

/-- Majors of a frame type. -/
def frameMajors (t : Nat) : Nat :=
  if t = 0 then 96 else if t = 1 then 8 else if t = 2 then 320 else if t = 3 then 1 else if t = 5 then 96
  else if t = 6 then 320 else 0

/-- The fields of a frame address. -/
def faDie (a : Nat) : Nat := bitsOf a 28 26
/-- Its region. -/
def faRegion (a : Nat) : Nat := bitsOf a 25 23
/-- Its type. -/
def faType (a : Nat) : Nat := bitsOf a 22 20
/-- Its major. -/
def faMajor (a : Nat) : Nat := bitsOf a 19 11
/-- Its minor. -/
def faMinor (a : Nat) : Nat := bitsOf a 10 0

/-- The address of a frame (Table 11-1). -/
def frameAt (d r t major minor : Nat) : Nat := d * 2 ^ 26 + r * 2 ^ 23 + t * 2 ^ 20 + major * 2 ^ 11 + minor

/-- The address names a frame (R268). -/
def namesFrame (a : Nat) : Bool :=
  decide (a < 2 ^ 29) && decide (faMajor a < frameMajors (faType a)) && decide (faMinor a < frameMinors (faType a))

/-- The place of a frame in its type's order (R274: `minor` rises first). -/
def frameIx (a : Nat) : Nat := faMajor a * frameMinors (faType a) + faMinor a

/-- The frame at a place of a type's order. -/
def frameOfIx (d r t ix : Nat) : Nat := frameAt d r t (ix / frameMinors t) (ix % frameMinors t)

/-- The next frame address of a run. -/
def frameNext (a : Nat) : Nat := frameOfIx (faDie a) (faRegion a) (faType a) (frameIx a + 1)

/-- A run of frames stays within the frames of its first one's type, which images may hold (R274). -/
def runOk (a count : Nat) : Bool :=
  namesFrame a && decide (faType a ≤ 3) && decide (1 ≤ count) && decide (count ≤ 65536) &&
    decide (frameIx a + count ≤ frameMinors (faType a) * frameMajors (faType a))

/-- A frame's 1,024 bits. -/
def Die.frameBits (x : Die) (a : Nat) : BitVec 1024 := tget x.frames a 0

/-- Word `w` of a frame (R269). -/
def Die.frameWord (x : Die) (a w : Nat) : BitVec 64 := (x.frameBits a).extractLsb' (64 * w) 64

/-- A frame written. A frame of zeros is not listed. -/
def frameWrite (t : Tbl (BitVec 1024)) (a : Nat) (v : BitVec 1024) : Tbl (BitVec 1024) :=
  if v = 0 then tdel t a else tput t a v

/-- Word `w` of a frame replaced. -/
def Die.setFrameWord (x : Die) (a w : Nat) (v : BitVec 64) : Die :=
  let m : BitVec 1024 := (BitVec.allOnes 64).setWidth 1024 <<< (64 * w)
  { x with frames := frameWrite x.frames a ((x.frameBits a &&& ~~~m) ||| (v.setWidth 1024 <<< (64 * w))) }

/-- Byte `b` of a frame. -/
def Die.frameByte (x : Die) (a b : Nat) : Nat := ((x.frameBits a).extractLsb' (8 * b) 8).toNat

/-! ## The image's header (R271 to R273) -/

/-- `n` bytes of an image from an offset are zero. -/
def zeroAt (l : List Byte) (i n : Nat) : Bool := ((l.drop i).take n).all fun b => b == 0

/-- `flags` bit 0. -/
def imgEncrypted (h : List Byte) : Bool := fieldAt h 7 1 % 2 == 1
/-- `body_len`. -/
def imgBodyLen (h : List Byte) : Nat := fieldAt h 28 8
/-- `deckle_lo`. -/
def imgLo (h : List Byte) : Nat := fieldAt h 20 4
/-- `deckle_hi`. -/
def imgHi (h : List Byte) : Nat := fieldAt h 24 4
/-- Bytes 0 to 7 of `image_id`. -/
def imgId (h : List Byte) : Nat := fieldAt h 100 8
/-- The image digest (R276): of the 2,048-byte header. -/
def imgDigest (h : List Byte) : BitVec 384 := Config.sha384 (h.take 2048)

/-- The bit of `variants` that names a variant. -/
def Variant.bit : Variant → Nat
  | .skz2 => 0
  | .skz4 => 1
  | .skz8 => 2

/-- Reserved fields of the header and the fields that only an encrypted image sets (R271, R272, R273, R277). -/
def imgReserved (h : List Byte) : Bool :=
  decide (fieldAt h 7 1 < 4) && decide (fieldAt h 8 1 < 8) && zeroAt h 11 1 && zeroAt h 38 2 && zeroAt h 120 136 &&
    zeroAt h 448 64 && zeroAt h 1286 762 && (imgEncrypted h || (zeroAt h 36 2 && zeroAt h 40 12)) &&
    (List.range 12).all fun n => zeroAt h (256 + 16 * n + 1) 1 && zeroAt h (256 + 16 * n + 6) 10

/-- What every image's header must be: magic, version, kind, the part's variant, the length. -/
def imgFixed (v : Variant) (kind len : Nat) (h : List Byte) : Bool :=
  decide (fieldAt h 0 4 = 0x46494B53) && decide (fieldAt h 4 2 = 1) && decide (fieldAt h 6 1 = kind) &&
    bitAt (fieldAt h 8 1) v.bit && decide (imgBodyLen h % 64 = 0) && decide (len = 7488 + imgBodyLen h)

/-- An end of a deckle window: a frame of the region that images may hold, and no port or isolation table (Table 11-10
step 1). -/
def deckleEnd (d r a : Nat) : Bool :=
  namesFrame a && decide (faDie a = d) && decide (faRegion a = r) && decide (faType a ≤ 3) &&
    !(decide (faType a = 3) && decide (48 ≤ faMinor a))

/-- Step 1 of Table 11-10. -/
def imgStep1 (v : Variant) (d r len : Nat) (h : List Byte) : Bool :=
  imgFixed v 2 len h && imgReserved h && decide (fieldAt h 9 1 = d) && decide (fieldAt h 10 1 = r) && zeroAt h 12 8 &&
    decide (imgLo h ≤ imgHi h) && deckleEnd d r (imgLo h) && deckleEnd d r (imgHi h)

/-- The keys of a signature block (R276) are those of one of the entries. -/
def sigKeysOk (keys : List SignEntry) (b : List Byte) : Bool :=
  keys.any fun e => e.edHash == Config.sha384 (b.take 32) && e.pqHash == Config.sha384 ((b.drop 96).take 1952)

/-- The image-signing entries of the key store: usage 1 among entries 2 to 7 (Table 17-1). -/
def Psiurn.imgKeys (y : Psiurn) : List SignEntry :=
  (y.signing.filter fun e => decide (2 ≤ e.1) && decide (e.2.usage = 1)).map (·.2)

/-- The checks of the signature block `b` (R276), with the keys and the minimum in force. Padding that is not zero is
BAD_PARAM, as R9 has it for reserved bytes (log entry 80). -/
def imgStep2 (keys : List SignEntry) (least : Nat) (h b : List Byte) (chk : ImgChk) : Option Status :=
  if !(zeroAt b 5357 19) then some .badParam
  else if !(sigKeysOk keys b) || decide (fieldAt h 116 4 < least) then some .authFail
  else if !(chk.edOk) then some .sigClassicFail
  else if !(chk.pqOk) then some .sigPqFail
  else none

/-- The image key that an encrypted image names, where it is there (R277, R420). -/
def State.imgKey (s : State) (h : List Byte) : Option (BitVec 256) :=
  if fieldAt h 36 2 < 16 then tfind s.psi.imageKeys (fieldAt h 36 2) else none

/-- The binding of port `n` (4 to 15) in a port table (R272). -/
def tableBind (tbl : List Byte) (n : Nat) : PortBind :=
  let e := tbl.drop (16 * (n - 4))
  { kind := fieldAt e 0 1, ring := fieldAt e 2 1, knInc := fieldAt e 3 1, knot := fieldAt e 4 2 }

/-- The ports of a table that bind a ring. -/
def tableBinds (tbl : List Byte) : Tbl PortBind :=
  ((List.range 12).map fun i => (i + 4, tableBind tbl (i + 4))).filter fun e => e.2.kind != 0

/-- The kinds a port may have (R272). -/
def kindOk (n kind : Nat) : Bool :=
  decide (kind = 0) || (decide (n ≤ 11) && (decide (kind = 1) || decide (kind = 2))) ||
    ((decide (n = 12) || decide (n = 13)) && decide (kind = 3)) || ((decide (n = 14) || decide (n = 15)) && decide (kind = 4))

/-- A port table entry is well formed (Table 11-5). -/
def bindShape (n : Nat) (b : PortBind) : Bool :=
  kindOk n b.kind && (if b.kind = 1 then decide (1 ≤ b.knInc) else decide (b.knInc = 0) && decide (b.knot = 0)) &&
    (decide (b.kind ≠ 0) || decide (b.ring = 0)) && decide (b.ring < 64)

/-- The port table passes R251, R272 and R368 for a tenant of region `r`. -/
def Die.portsOk (x : Die) (r tenant : Nat) (tbl : List Byte) : Bool :=
  let l := tableBinds tbl
  ((List.range 12).all fun i => bindShape (i + 4) (tableBind tbl (i + 4))) &&
    (l.map fun e => e.2.ring).Nodup && l.all fun e =>
      decide (tenant ≠ 0xFF) && decide ((x.ring e.2.ring).tenant = tenant) && decide (x.ringLen e.2.ring ≠ 0) &&
        decide (x.ringMode e.2.ring = 0) && !((x.boundPorts e.2.ring).any fun p => p.1 != r) &&
        (decide (e.2.kind ≠ 1) || knotOfTenant tenant e.2.knot)

/-- Two bits of the isolation table from byte `i` on, signal `n` (R273). -/
def isoCode (h : List Byte) (i n : Nat) : Nat := bitsOf (fieldAt h (512 + i + n / 4) 1) (n % 4 * 2 + 1) (n % 4 * 2)

/-- The boundary part from byte `i` on holds no code 3, and no code at all where the region has no such boundary. -/
def isoPartOk (h : List Byte) (i : Nat) (has : Bool) : Bool :=
  if has then (List.range 1024).all fun n => isoCode h i n != 3 else zeroAt h (512 + i) 256

/-- The isolation table of region `r` (R273). -/
def isoOk (r : Nat) (h : List Byte) : Bool :=
  isoPartOk h 0 (decide (r % 4 ≠ 0)) && isoPartOk h 256 (decide (r % 4 ≠ 3)) && isoPartOk h 512 true

/-- Whether the deckle window covers the whole region (R286). -/
def wholeWindow (d r : Nat) (h : List Byte) : Bool :=
  decide (imgLo h = frameAt d r 0 0 0) && decide (imgHi h = frameAt d r 3 0 47)

/-- Step 3 of Table 11-10. -/
def Die.imgStep3 (x : Die) (d r tenant : Nat) (h : List Byte) : Bool :=
  x.portsOk r tenant (h.drop 256) && isoOk r h && (decide (tenant = (x.fabric r).tenant) || wholeWindow d r h)

/-! ## The body (R274, R288) -/

/-- Where the reading of a body stands: bytes used, the run in progress (next address, frames left), the frames, the illegal
select codes met (R244), and what ended it. -/
structure BodyAt where
  used   : Nat
  run    : Option (Nat × Nat)
  frames : Tbl (BitVec 1024)
  bad    : List Nat
  ended  : Option (Status × Nat)
  deriving DecidableEq, Repr

/-- A pin's standard is one of its bank's voltage (R258, Table 10-10): LVCMOS of that voltage, 12 mA only at 1.5 and 1.8 V; LVDS at
1.8 V only, on a whole pair. -/
def pinOk (bank : Nat) (pins : List (Nat × PinCfg)) (n : Nat) (p : PinCfg) : Bool :=
  decide (n < 24) && match p.std with
    | .lvcmos v mA _ => decide (v = bank) && (decide (mA = 2) || decide (mA = 4) || decide (mA = 8) || (decide (mA = 12) && decide (2 ≤ bank)))
    | .lvds _ => decide (bank = 3) && match tfind pins (if n % 2 = 0 then n + 1 else n - 1) with
        | some q => match q.std with
            | .lvds _ => q.output == p.output
            | .lvcmos _ _ _ => false
        | none => false

/-- The design of a region agrees with its bank's voltage (R258) and with what a block and a port can be (R238, R247). -/
def designOk (g : Design) (bank : Nat) : Bool :=
  (g.pins.all fun p => pinOk bank g.pins p.1 p.2) &&
    (g.blocks.all fun b => decide (b.1 < 15360) && decide (b.2.cells.length = 8) && decide (b.2.line < 10)) &&
    g.fmPorts.all fun p => decide (p.1 < 640) && decide (p.2.1 < 10) &&
      (decide (p.2.2 = 64) || decide (p.2.2 = 32) || decide (p.2.2 = 16) || decide (p.2.2 = 8))

/-- The design that an image's frames spell in a region: nothing where the command names none. -/
def chkDesign (chk : ImgChk) (d r : Nat) : Design :=
  (tfind chk.designs (8 * d + r)).getD { blocks := [], fmPorts := [], pins := [], precode := [] }

/-- A frame of type 3, minor 0 holds a bank voltage, a divisor and a claim that Table 11-2 knows (R269); the reserved
minors 50 to 55 hold zero. -/
def frameContentOk (a : Nat) (l : List Byte) : Bool :=
  if faType a ≠ 3 then true
  else if faMinor a = 0 then
    decide (fieldAt l 0 1 ≤ 3) && decide (6 ≤ fieldAt l 1 1) && decide (fieldAt l 2 1 ≤ 3)
  else if 50 ≤ faMinor a ∧ faMinor a ≤ 55 then zeroAt l 0 128
  else true

/-- The body read on as far as it has arrived. `here` judges a frame's address; `full` where a full image's illegal codes are
reported and loaded (R244). -/
def eatBody (here : Nat → Option (Status × Nat)) (full : Bool) (illegal : List Nat) (total : Nat) :
    Nat → List Byte → BodyAt → BodyAt
  | 0, _, b => b
  | fuel + 1, l, b =>
    match b.run with
    | some (a, n + 1) =>
      if l.length < 128 then b
      else
        let f := l.take 128
        match here a with
        | some e => { b with ended := some e }
        | none =>
          let ill := illegal.filter (· == b.used)
          if (!ill.isEmpty && !full) || !(frameContentOk a f) then { b with ended := some (.badParam, 7424 + b.used) }
          else
            eatBody here full illegal total fuel (l.drop 128)
              { b with
                used := b.used + 128
                run := if n = 0 then none else some (frameNext a, n)
                frames := frameWrite b.frames a (BitVec.ofNat 1024 (leNat f))
                bad := b.bad ++ ill.map fun _ => a }
    | _ =>
      if l.length < 64 then b
      else
        let a := fieldAt l 0 4
        let n := fieldAt l 4 4
        if !(runOk a n) || !(zeroAt l 8 56) || decide (total < b.used + 64 + 128 * n) then
          { b with ended := some (.badParam, 0xFFFFFFFF) }
        else
          eatBody here full illegal total fuel (l.drop 64) { b with used := b.used + 64, run := some (a, n) }

/-- The IV of an encrypted image. -/
def imgNonce (h : List Byte) : List Byte := (h.drop 40).take 12

/-- The body of an image as it is read: decrypted with its key where it is encrypted (R277). What an image decrypts to whose key is
not there is open; it fails at its end (R420). -/
def imgBody (h : List Byte) (stored : List Byte) (key : Option (BitVec 256)) : List Byte :=
  if imgEncrypted h then stored.mapIdx fun i c => c ^^^ Config.gcmStream (key.getD 0) (imgNonce h) i else stored

/-- The GCM tag of an encrypted image verifies under its key (R277, R278). -/
def tagOk (h trailer stored : List Byte) (key : Option (BitVec 256)) : Bool :=
  match key with
  | none => false
  | some k => decide (fieldAt trailer 0 16 = (Config.gcmTag k (imgNonce h) (h.take 2048) stored).toNat)

/-- The checks after the last byte (R275, R277, R278). -/
def imgEnd (h trailer img : List Byte) (key : Option (BitVec 256)) : Option Status :=
  let stored := (img.drop 7424).take (imgBodyLen h)
  if !(zeroAt trailer 16 44) || (!(imgEncrypted h) && !(zeroAt trailer 0 16)) then some .badParam
  else if fieldAt h 52 48 ≠ (Config.sha384 stored).toNat then some .authFail
  else if imgEncrypted h && !(tagOk h trailer stored key) then some .authFail
  else if fieldAt trailer 60 4 ≠ (crc32c (img.take (img.length - 4))).toNat then some .imageCrc
  else none

/-! ## Events (R282, R244, R442) -/

/-- IMAGE_FAILED: `which` 0 primary, 1 fallback, 2 partial. -/
def imageFailed (d r which : Nat) (st : Status) (detail : Nat) (id : Nat) : Event :=
  { Event.blank 0x0030 5 2 st with
    die := d, region := r, unitKind := if d = 0xFF then 0 else 0x0E, unit := if d = 0xFF then 0 else r, arg0 := which,
    arg1 := id, detail := BitVec.ofNat 32 detail }

/-- ILLEGAL_SELECT for the frame at `a`. -/
def illegalSelect (a : Nat) : Event :=
  { Event.blank 0x0031 5 2 .ok with
    die := faDie a, region := faRegion a, unitKind := 0x0E, unit := faRegion a, arg0 := a }

/-! ## The real-time port's panic (R256, R257, R263) -/

/-- The level of a channel: free units of a write channel, filled units of a read channel. -/
def rtpLevel (n : Nat) (p : Port) : Nat := if n ≤ 13 then 1024 - p.buf.length else p.buf.length

/-- `panic_lvl` in force. -/
def Die.panicLvl (x : Die) (r : Nat) : Nat := min 1024 (bitsOf (x.regv (0x4000 + 16 * r)) 10 0)
/-- `calm_lvl` in force: not below `panic_lvl`. -/
def Die.calmLvl (x : Die) (r : Nat) : Nat := max (x.panicLvl r) (min 1024 (bitsOf (x.regv (0x4000 + 16 * r)) 21 11))

/-- The panic of channel port `n`: an unbound channel has none, nor has a read channel of a halted region. -/
def Die.chanPanic (x : Die) (r n : Nat) : Bool :=
  let f := x.fabric r
  let p := f.port n
  if p.absent || (f.halted && decide (14 ≤ n)) then false
  else if p.panic then decide (rtpLevel n p < x.calmLvl r)
  else decide (rtpLevel n p < x.panicLvl r)

/-- The four channels are tested against the levels in force. -/
def Die.testPanic (x : Die) (r : Nat) : Die :=
  let was := x.portPanic r
  let y := [12, 13, 14, 15].foldl (fun (x : Die) n =>
    if thas (x.fabric r).ports n then
      let b := x.chanPanic r n
      x.modFabric r fun f => f.modPort n fun p => { p with panic := b }
    else x) x
  if !was && y.portPanic r then
    (y.modRegion r fun g => { g with panicSeen := true }).count rtpPanics r 1
  else y

/-! ## Steps of a load (Table 11-10) -/

/-- Step 4: isolation entry. -/
def State.loadStep4 (s : State) (d r tenant : Nat) (h : List Byte) : State :=
  (s.endActs d r).modDie d fun x =>
    let x1 := (x.closePorts r).modRegion r Region.reach
    let put (t : Tbl (BitVec 1024)) (minor i : Nat) : Tbl (BitVec 1024) :=
      frameWrite t (frameAt d r 3 0 minor) (BitVec.ofNat 1024 (fieldAt h i 128))
    let f0 := x1.frames.filter fun e => !(decide (imgLo h ≤ e.1) && decide (e.1 ≤ imgHi h))
    let f1 := (List.range 8).foldl (fun t i => put t (56 + i) (512 + 128 * i)) f0
    let f2 := (List.range 2).foldl (fun t i => put t (48 + i) (256 + 128 * i)) f1
    { (x1.modFabric r fun f => { f.stop with st := .loading, tenant := tenant, binds := [], noRead := false, digest := 0 }) with
      frames := f2 }

/-- R288: a frame outside the deckle window ends the session. -/
def inDeckle (h : List Byte) (a : Nat) : Option (Status × Nat) :=
  if imgLo h ≤ a ∧ a ≤ imgHi h then none else some (.deckleViolation, a)

/-- The bank voltage code of a region's frames (R269). -/
def Die.bankCode (x : Die) (d r : Nat) : Nat := x.frameByte (frameAt d r 3 0 0) 0

/-- The initial contents of a region's memory blocks, from its type 2 frames (R269). -/
def Die.fmInit (x : Die) (d r : Nat) : Tbl FmBlk :=
  (x.frames.filter fun e => decide (faDie e.1 = d) && decide (faRegion e.1 = r) && decide (faType e.1 = 2)).foldl
    (fun t e =>
      tmod t (faMajor e.1) FmBlk.reset fun b => { b with
        words := (List.range 16).foldl (fun w i =>
          let v := e.2.extractLsb' (64 * i) 64
          if v = 0 then w else tput w (16 * faMinor e.1 + i) v) b.words }) []

/-- The flip-flops that a design starts at 1 (R241), by number (16 × block + 2 × cell, FB one higher). -/
def ffInit (g : Design) : Tbl Bool :=
  g.blocks.foldl (fun t b => (b.2.cells.mapIdx fun k c => (k, c)).foldl (fun (t : Tbl Bool) (e : Nat × CellCfg) =>
    let n := 16 * b.1 + 2 * e.1
    let t1 := if e.2.fa.init then tput t n true else t
    if e.2.fb.init then tput t1 (n + 1) true else t1) t) []

/-- Flip-flops, memory blocks and shift-register tables take their initial contents (R260, R283). -/
def Die.initFabric (x : Die) (d r : Nat) : Die :=
  let fm := x.fmInit d r
  x.modFabric r fun f => { f with ff := ffInit f.design, fm := fm, shift := [], outs := [] }

/-- A region takes its design (Table 11-7 step 6, Table 11-10 step 7). -/
def Die.startDesign (x : Die) (d r : Nat) (g : Design) : Die :=
  (x.modFabric r fun f => { f with design := g, sig := [], pinRegs := [] }).initFabric d r

/-- A session's failure: IMAGE_FAILED, and its end with the status (R285, R289). -/
def State.loadFails (s : State) (d r : Nat) (p : Pkt) (h : List Byte) (st : Status) (detail : Nat) : State :=
  (s.emit (imageFailed d r 2 st detail (imgId h))).endSession d r st detail (some p)

/-- Steps 5 to 7 as far as the image has arrived. `p` is the packet that brought what there is. -/
def State.loadBody (s : State) (d r : Nat) (p : Pkt) (chk : ImgChk) (last : Bool) : State :=
  match ((s.die d).fabric r).session with
  | none => s
  | some q =>
    let h := q.bytes.take 2048
    let n := imgBodyLen h
    let body := imgBody h ((q.bytes.drop 7424).take n) (s.imgKey h)
    let b := eatBody (inDeckle h) false chk.illegal n (body.length / 64 + 1) (body.drop q.used)
      { used := q.used, run := q.run, frames := (s.die d).frames, bad := [], ended := none }
    let s1 := s.modDie d fun x => { (x.modFabric r fun f => { f with
      session := some { q with used := b.used, run := b.run, step := 5 } }) with frames := b.frames }
    match b.ended with
    | some (st, det) => s1.loadFails d r p h st det
    | none =>
      if !last then s1.ok 0x0401 p
      else if !(designOk (chkDesign chk d r) ((s1.die d).bankCode d r)) then s1.loadFails d r p h .badParam 0xFFFFFFFF
      else
        match imgEnd h (q.bytes.drop (7424 + n)) q.bytes (s.imgKey h) with
        | some st => s1.loadFails d r p h st (if st = .badParam then 0xFFFFFFFF else 0)
        | none => s1.modDie d fun x =>
            let v := x.bankCode d r
            let new : Bool := v != (x.fabric r).bankV
            (x.modFabric r fun f => { f with
              bankV := v, bankOk := !new, noRead := imgEncrypted h && !(bitAt (fieldAt h 7 1) 1)
              digest := imgDigest h
              session := some { q with pkt := p, used := b.used, run := b.run, step := 7, newVolt := new
                                       digest := imgDigest h } }).startDesign d r (chkDesign chk d r)

/-- Steps 1 to 4, once the header and the signature block are there; then the body. -/
def State.loadOpen (s : State) (d r : Nat) (p : Pkt) (q : Session) (chk : ImgChk) (last : Bool) : State :=
  let h := q.bytes.take 2048
  let s1 := s.modDie d fun x => x.modFabric r fun f => { f with session := some { q with step := 1 } }
  if !(imgStep1 s.part.variant d r q.len h) then s1.loadFails d r p h .badParam 0xFFFFFFFF
  else
    match imgStep2 s.psi.imgKeys s.psi.cfgMin h ((q.bytes.drop 2048).take 5376) chk with
    | some st => s1.loadFails d r p h st (if st = .badParam then 0xFFFFFFFF else 0)
    | none =>
      if !((s.die d).imgStep3 d r q.tenant h) then s1.loadFails d r p h .badParam 0xFFFFFFFF
      else
        let s2 := s1.loadStep4 d r q.tenant h
        (s2.modDie d fun x => x.modFabric r fun f =>
          { f with session := some { q with step := 4, newVolt := chk.newVolt } }).loadBody d r p chk last

/-! ## Release and handover (Table 11-7 steps 9 and 10, Table 11-10 steps 8 and 9) -/

/-- The port table that the frames of a region hold. -/
def Die.portTable (x : Die) (d r : Nat) : List Byte :=
  le 128 (x.frameBits (frameAt d r 3 0 48)).toNat ++ le 128 (x.frameBits (frameAt d r 3 0 49)).toNat

/-- A region's ports take the bindings of its port table (R250, R251, R287 step 9); TP0 to TP3 are as they are. -/
def Die.bindPorts (x : Die) (d r : Nat) : Die :=
  let l := tableBinds (x.portTable d r)
  let x1 := x.modFabric r fun f => { f with
    binds := l
    ports := ([0, 1, 2, 3] ++ tkeys l).foldl (fun t n => tmod t n Port.reset fun p =>
      { p with absent := false, ring := match tfind l n with
          | some b => b.ring
          | none => p.ring }) f.ports }
  ((l.filter fun e => e.2.kind == 3 || e.2.kind == 4).foldl (fun (x : Die) e =>
    x.placeRing e.2.ring ((List.range 8).map (8 * r + ·))) x1).testPanic r

/-- Fenced memory blocks of a region that a covering image was loaded into re-run self-test: those that pass return (R249); the
test's outcome is a free value (log entry 10). -/
def State.retestFm (s : State) (d r : Nat) : State :=
  ((s.die d).fencedIn r).foldl (fun s k =>
    if k / 65536 = 11 then
      let (n, s1) := s.freeNat
      if n % 2 = 1 then s1.unfence d 11 (k % 65536) (some r) else s1
    else s) s

end Sys2Proof.Machine
end

