-- ==== Sys2Proof/Machine/FabricLoad.lean ====
section
/-! DEFINITION. FABRIC_LOAD and the steps of a load that follow it: bank voltage, release, handover (R281 to R291). -/

namespace Sys2Proof.Machine

/-- FABRIC_LOAD waits until start-up has released the region (R282, R299). -/
def State.loadWaits (s : State) (d r : Nat) : Bool :=
  let x := s.die d
  let f := x.fabric r
  !x.sawDone || (f.st == .loading && f.session.isNone && !f.released)

/-- Die, region and tenant of a FABRIC_LOAD (Table 11-9); an isolated region is out of service (R23). -/
def State.loadNames (s : State) (a : RAt) (tenant : Option Nat) : List (Bool × Status × Nat) :=
  [badAt (!(s.usable a.die)) 1, badAt (decide (8 ≤ a.region)) 2,
    badAt (match tenant with
      | none => false
      | some t => decide (t ≠ 0xFF) && !(decide (t < 64) && s.hasTenant t)) 3,
    refuseIf ((s.die a.die).region a.region).isolated .unitFenced (fencedDetail 0x0E a.die a.region)]

/-- The conditions of R285 on a part. -/
def partChecks (f : Fabric) (p : Pkt) (last : Bool) (off imageLen : Nat) (data : List Byte) : List (Bool × Status × Nat) :=
  match f.session with
  | none =>
    [badAt (decide (off ≠ 0)) 8, badHdr (decide (data.length < 7424) || decide (imageLen < off + data.length)) 16,
      badAt (last != decide (off + data.length = imageLen)) 4]
  | some q =>
    [badAt (decide (off ≠ q.next) || decide (7 ≤ q.step)) 8, badAll (decide (p.queue ≠ q.queue)),
      badAt (decide (imageLen ≠ q.len)) 16, badHdr (decide (imageLen < off + data.length)) 16,
      badAt (last != decide (off + data.length = imageLen)) 4]

/-- A session that opens with these bytes. -/
def newSession (p : Pkt) (tenant len : Nat) (bytes : List Byte) : Session :=
  { pkt := p, queue := p.queue, tenant := tenant, len := len, next := bytes.length, bytes := bytes, step := 1, used := 0,
    run := none, digest := 0, newVolt := false }

/-- A part that R285 accepts. -/
def State.takePart (s : State) (p : Pkt) (a : RAt) (tenant : Nat) (last : Bool) (imageLen : Nat) (data : List Byte)
    (chk : ImgChk) : State :=
  match ((s.die a.die).fabric a.region).session with
  | none => s.loadOpen a.die a.region p (newSession p tenant imageLen data) chk last
  | some q =>
    (s.modDie a.die fun x => x.modFabric a.region fun f =>
      { f with session := some { q with bytes := q.bytes ++ data, next := q.next + data.length } }).loadBody
      a.die a.region p chk last

/-- FABRIC_LOAD action 0, once it may run. -/
def State.runLoadPart (s : State) (p : Pkt) (a : RAt) (tenant : Nat) (last : Bool) (off imageLen : Nat) (data : List Byte)
    (chk : ImgChk) : State :=
  match firstOf (s.loadNames a (some tenant)) with
  | some (st, det) => s.refuse 0x0401 p st det
  | none =>
    if s.loadWaits a.die a.region then s.park (.fabricLoadPart p a tenant last off imageLen data chk)
    else
      s.decide1 0x0401 p (firstOf (partChecks ((s.die a.die).fabric a.region) p last off imageLen data))
        (s.takePart p a tenant last imageLen data chk)

/-- FABRIC_LOAD_PART: a part of a partial image in the payload (R285, R287). -/
def execFabricLoadPart (p : Pkt) (a : RAt) (tenant : Nat) (last : Bool) (off imageLen : Nat) (data : List Byte)
    (chk : ImgChk) (s : State) : Out :=
  gate 0x0401 .m p (s.runLoadPart p a tenant last off imageLen data chk) s

/-- FABRIC_LOAD action 1, once it may run: the image's length is in its header; an image that leaves the flash is no image. -/
def State.runLoadFlash (s : State) (p : Pkt) (a : RAt) (tenant addr : Nat) (chk : ImgChk) : State :=
  match firstOf (s.loadNames a (some tenant)) with
  | some (st, det) => s.refuse 0x0401 p st det
  | none =>
    if s.loadWaits a.die a.region then s.park (.fabricLoadFlash p a tenant addr chk)
    else
      let len := 7488 + leNat (mreadN s.psi.flash (addr + 28) 8)
      let f := (s.die a.die).fabric a.region
      s.decide1 0x0401 p (firstOf [badAll f.session.isSome, badAt (decide (2 ^ 32 < addr + len)) 8])
        (s.loadOpen a.die a.region p (newSession p tenant len (mreadN s.psi.flash addr len)) chk true)

/-- FABRIC_LOAD_FLASH: a whole session from flash (R285). -/
def execFabricLoadFlash (p : Pkt) (a : RAt) (tenant addr : Nat) (chk : ImgChk) (s : State) : Out :=
  gate 0x0401 .m p (s.runLoadFlash p a tenant addr chk) s

/-- FABRIC_LOAD action 2, once it may run: the region takes the tenant, its ports their bindings (R286). -/
def State.runLoadBind (s : State) (p : Pkt) (a : RAt) (tenant : Nat) : State :=
  match firstOf (s.loadNames a (some tenant)) with
  | some (st, det) => s.refuse 0x0401 p st det
  | none =>
    if s.loadWaits a.die a.region then s.park (.fabricLoadBind p a tenant)
    else
      let x := s.die a.die
      let f := x.fabric a.region
      s.decide1 0x0401 p (firstOf [badAt (decide (64 ≤ tenant)) 3, badAt (f.st != .configured || f.tenant != 0xFF) 2,
          badAll (!(x.portsOk a.region tenant (x.portTable a.die a.region)))])
        ((s.modDie a.die fun x =>
          (x.modFabric a.region fun f => { f with tenant := tenant }).bindPorts a.die a.region).finish 0x0401 p .ok 0
          (le 48 f.digest.toNat) [])

/-- FABRIC_LOAD_BIND: a region without tenant gets one (R286). -/
def execFabricLoadBind (p : Pkt) (a : RAt) (tenant : Nat) (s : State) : Out :=
  gate 0x0401 .m p (s.runLoadBind p a tenant) s

/-- FABRIC_LOAD action 3, once it may run. A packet that waits for step 9 ends with REGION_UNCONFIGURED (R289). -/
def State.runLoadAbandon (s : State) (p : Pkt) (a : RAt) : State :=
  match firstOf (s.loadNames a none) with
  | some (st, det) => s.refuse 0x0401 p st det
  | none =>
    if s.loadWaits a.die a.region then s.park (.fabricLoadAbandon p a)
    else
      s.decide1 0x0401 p (firstOf [badAll ((s.die a.die).fabric a.region).session.isNone])
        ((s.endSession a.die a.region .regionUnconfigured (regionDetail a.die a.region) none).ok 0x0401 p)

/-- FABRIC_LOAD_ABANDON: the session ends (R285, R289). -/
def execFabricLoadAbandon (p : Pkt) (a : RAt) (s : State) : Out := gate 0x0401 .m p (s.runLoadAbandon p a) s

/-- BANK_VOLTAGE_READY: the regulator reports the new voltage in regulation (R290). -/
def execBankVoltageReady (a : RAt) (s : State) : Out :=
  let f := (s.die a.die).fabric a.region
  event s (decide (a.die < s.dieCount) && decide (a.region < 8)) (s.live a.die && f.st == .loading && !f.bankOk &&
      (match f.session with
        | some q => decide (q.step = 7)
        | none => true))
    (s.modDie a.die fun x => x.modFabric a.region fun f => { f with bankOk := true })

/-- The region may be released: step 7 is done (or start-up has brought its image and the die has seen CFG_DONE), its bank's
voltage is in regulation, its power is on (R281, R287, R290). -/
def State.releaseDue (s : State) (a : RAt) : Bool :=
  let x := s.die a.die
  let f := x.fabric a.region
  s.live a.die && x.sawDone && f.st == .loading && !f.released && f.bankOk &&
    (x.region a.region).power == .awake && match f.session with
      | some q => decide (q.step = 7)
      | none => true

/-- Global set and reset are released (R260, R281, R287): flip-flops, shift tables and memory blocks hold their initial contents,
FCTR is 0, the divisor is the image's. -/
def State.doRelease (s : State) (a : RAt) : State :=
  s.modDie a.die fun x => (x.modFabric a.region fun f => { f with
    released := true, halted := false, fctr := 0, divisor := x.frameByte (frameAt a.die a.region 3 0 0) 1
    ports := tmapv f.ports fun _ p => { p with edge := none } }).initFabric a.die a.region

/-- Pins, wires and ports pass to the design (R281, R287): the region is CONFIGURED, scanned from its first frame, its claim
is in force, the packet of a load replies with the digest. -/
def State.doHandover (s : State) (a : RAt) : State :=
  let d := a.die
  let r := a.region
  let claim := (s.die d).frameByte (frameAt d r 3 0 0) 2
  let q := ((s.die d).fabric r).session
  let s1 := s.modDie d fun x =>
    let x1 := x.modFabric r fun f => { f with
      st := .configured, handed := true, isoCodes := false, fctr := max 16 f.fctr, claim := claim, session := none }
    let x2 := { x1 with darner := { x1.darner with at_ := tdel x1.darner.at_ r } }
    if (x2.fabric r).tenant = 0xFF then x2 else x2.bindPorts d r
  let s2 := (s1.feltClaim d r (decide (claim ≠ 0))).retestFm d r
  match q with
  | none => s2
  | some q => (s2.modDie d fun x => x.count cfLoads 0 1).finish 0x0401 q.pkt .ok 0 (le 48 q.digest.toNat) []

/-- IO_HANDOVER can come: FCTR reaches 16. -/
def State.handoverDue (s : State) (a : RAt) : Bool :=
  let f := (s.die a.die).fabric a.region
  s.live a.die && f.st == .loading && f.released && !f.halted

end Sys2Proof.Machine
end

