-- ==== Sys2Proof/Machine/Capture.lean ====
section
/-! DEFINITION. FABRIC_CAPTURE, FABRIC_READ and FABRIC_CLOCK (R246, R261 to R263, R292). -/

namespace Sys2Proof.Machine

/-- Edges that FCLKr has counted since the region was last looked at: any number while it runs, but none
beyond the edge that an action waits for (R246; log entry 10). -/
def State.fclkRuns (s : State) (a : RAt) : State :=
  if ((s.die a.die).fabric a.region).halted then s
  else
    let (n, s1) := s.freeNat
    s1.modDie a.die fun x => x.modFabric a.region fun f => { f with fctr := match f.acts with
      | [] => (f.fctr + n) % 2 ^ 64
      | k :: _ => if k.edge = 0 ∨ k.edge ≤ f.fctr then f.fctr else min ((f.fctr + n) % 2 ^ 64) k.edge }

/-- Die and region of a FABRIC_CAPTURE, FABRIC_READ or FABRIC_CLOCK, and the region's state (R246, R263, R292). -/
def State.regionChecks (s : State) (a : RAt) : List (Bool × Status × Nat) :=
  [badAt (!(s.usable a.die)) 0, badAt (decide (8 ≤ a.region)) 1]

/-- The refusal of a region that is not configured. -/
def State.unconfigured (s : State) (a : RAt) : Bool × Status × Nat :=
  refuseIf (((s.die a.die).fabric a.region).st != .configured) .regionUnconfigured (regionDetail a.die a.region)

/-- The edge rules of Table 10-3, when the packet is taken: an edge too near; a run of a clock that is not halted, where no action
before it is still to come. -/
def Fabric.edgeBad (f : Fabric) (action edge : Nat) : Bool :=
  (decide (edge ≠ 0) && decide (edge < f.fctr + 256)) ||
    (decide (action = 2) && !f.halted && f.acts.isEmpty && f.copying.isNone)

/-- A clock or capture action: refused, or it waits for its edge behind those before it (R246, R263). -/
def State.runAct (s : State) (code : Nat) (p : Pkt) (a : RAt) (action divisor edge : Nat)
    (more : List (Bool × Status × Nat)) : State :=
  match firstOf (s.regionChecks a ++ more) with
  | some (st, det) => s.refuse code p st det
  | none =>
    let s1 := s.fclkRuns a
    s1.decide1 code p (firstOf
        [s1.unconfigured a, (((s1.die a.die).fabric a.region).edgeBad action edge, .badParam, 8)])
      (s1.modDie a.die fun x => x.modFabric a.region fun f =>
        { f with acts := f.acts ++ [{ pkt := p, action := action, divisor := divisor, edge := edge }] })

/-- FABRIC_CAPTURE mode 0: the flip-flops, the clock running. -/
def execFabricCaptureFlipFlops (p : Pkt) (a : RAt) (edge : Nat) (s : State) : Out :=
  gate 0x0402 .m p (s.runAct 0x0402 p a 4 0 edge []) s

/-- FABRIC_CAPTURE mode 1: halt, copy, stay halted. -/
def execFabricCaptureHalt (p : Pkt) (a : RAt) (edge : Nat) (s : State) : Out :=
  gate 0x0402 .m p (s.runAct 0x0402 p a 5 0 edge []) s

/-- FABRIC_CAPTURE mode 2: as mode 1, then run. -/
def execFabricCaptureResume (p : Pkt) (a : RAt) (edge : Nat) (s : State) : Out :=
  gate 0x0402 .m p (s.runAct 0x0402 p a 6 0 edge []) s

/-- A divisor out of range (R246). -/
def divisorBad (n : Nat) : Bool × Status × Nat := badAt (!(decide (6 ≤ n) && decide (n ≤ 255))) 3

/-- FABRIC_CLOCK action 0: set the divisor. -/
def execFabricClockSetDivisor (p : Pkt) (a : RAt) (divisor edge : Nat) (s : State) : Out :=
  gate 0x0404 .m p
    (s.runAct 0x0404 p a 0 divisor edge [divisorBad divisor]) s

/-- FABRIC_CLOCK action 1: halt. -/
def execFabricClockHalt (p : Pkt) (a : RAt) (edge : Nat) (s : State) : Out :=
  gate 0x0404 .m p (s.runAct 0x0404 p a 1 0 edge []) s

/-- FABRIC_CLOCK action 2: run. -/
def execFabricClockRun (p : Pkt) (a : RAt) (edge : Nat) (s : State) : Out :=
  gate 0x0404 .m p (s.runAct 0x0404 p a 2 0 edge []) s

/-- FABRIC_CLOCK action 3: read FCTR. -/
def execFabricClockReadFctr (p : Pkt) (a : RAt) (edge : Nat) (s : State) : Out :=
  gate 0x0404 .m p (s.runAct 0x0404 p a 3 0 edge []) s

/-- The FCTR value at which a waiting action takes effect: its edge, or the next one where it names none or its edge went by while it
waited for another; a halted clock has none to come, and an action for the next edge takes effect where it stands. -/
def Fabric.edgeOf (f : Fabric) (k : ClkAct) : Nat :=
  if f.halted then f.fctr else if k.edge < f.fctr ∨ k.edge = 0 then f.fctr + 1 else k.edge

/-- The edge of the waiting action can come: FCLKr runs, or the action waits for no numbered edge. -/
def State.edgeDue (s : State) (a : RAt) : Bool :=
  let f := (s.die a.die).fabric a.region
  s.live a.die && f.copying.isNone && match f.acts with
    | [] => false
    | k :: _ => !f.halted || decide (k.edge = 0)

/-- The reply of a capture: the edge, the blocks copied, those with a port on a lane clock (R261). -/
def captureReply (edge blocks lanes : Nat) : List Byte := le 8 edge ++ le 4 blocks ++ le 4 lanes

/-- The waiting action takes effect (R246, R262). -/
def State.doEdge (s : State) (a : RAt) : State :=
  let f := (s.die a.die).fabric a.region
  match f.acts with
  | [] => s
  | k :: rest =>
    let e := f.edgeOf k
    let set (g : Fabric → Fabric) : State := s.modDie a.die fun x => x.modFabric a.region fun f =>
      g { f with acts := rest, fctr := e }
    if k.action = 2 ∧ f.halted = false then
      (s.modDie a.die fun x => x.modFabric a.region fun f => { f with acts := rest }).finish 0x0404 k.pkt .badParam 8 [] []
    else if k.action < 4 then
      let s1 := set fun f => { f with
        divisor := if k.action = 0 then k.divisor else f.divisor
        halted := if k.action = 1 then true else if k.action = 2 then false else f.halted }
      (s1.modDie a.die fun x => x.testPanic a.region).finish 0x0404 k.pkt .ok 0 (le 8 e) []
    else if k.action = 4 then
      (set fun f => { f with shadowFf := f.ff }).finish 0x0402 k.pkt .ok 0 (captureReply e 0 0) []
    else
      (set fun f => { f with shadowFf := f.ff, halted := true, copying := some { k with edge := e } }).modDie a.die
        fun x => x.testPanic a.region

/-- A capture's copy is under way. -/
def State.copyDue (s : State) (a : RAt) : Bool :=
  s.live a.die && ((s.die a.die).fabric a.region).copying.isSome

/-- The memory blocks with a port on a lane clock (R261). -/
def Fabric.laneBlocks (f : Fabric) : Nat :=
  ((f.design.fmPorts.filter fun p => decide (5 ≤ p.2.1)).map fun p => p.1 / 2).dedup.length

/-- The copy of the memory blocks ends (R262): the reply, and the clocks run again in mode 2. -/
def State.doCopyDone (s : State) (a : RAt) : State :=
  match ((s.die a.die).fabric a.region).copying with
  | none => s
  | some k =>
    let s1 := s.modDie a.die fun x =>
      (x.modFabric a.region fun f => { f with
        copying := none, shadowFm := some (f.fm.map fun e => (e.1, e.2.words))
        halted := if k.action = 6 then false else f.halted }).testPanic a.region
    s1.finish 0x0402 k.pkt .ok 0 (captureReply k.edge 320 ((s.die a.die).fabric a.region).laneBlocks) []

/-! ## FABRIC_READ (R292) -/

/-- Bits of the flip-flop shadow: minor `k` of a column (R269). -/
def Fabric.ffFrame (f : Fabric) (major minor : Nat) : BitVec 1024 :=
  (f.shadowFf.filter fun e => decide (major * 2560 + 1024 * minor ≤ e.1) &&
      decide (e.1 < major * 2560 + min 2560 (1024 * minor + 1024)) && e.2).foldl
    (fun v e => v ||| BitVec.ofNat 1024 (2 ^ (e.1 - major * 2560 - 1024 * minor))) 0

/-- Bits of the memory-block shadow: frame `minor` of a block's 512 stored words of 72 bits, data below check bits (R269,
log entry 34). -/
def Fabric.fmFrame (f : Fabric) (blk minor : Nat) : BitVec 1024 :=
  match f.shadowFm with
  | none => 0
  | some t =>
    let words := tget t blk []
    let w (j : Nat) : Nat :=
      let v : BitVec 64 := tget words j 0
      v.toNat + (Config.secded v).toNat * 2 ^ 64
    let first := 1024 * minor / 72
    let v := (List.range 16).foldl (fun n i => n + (if first + i < 512 then w (first + i) else 0) * 2 ^ (72 * i)) 0
    BitVec.ofNat 1024 (v / 2 ^ (1024 * minor - 72 * first))

/-- A frame of look-up tables with its shift registers as they stand (R262). -/
def Die.liveFrame (x : Die) (d r ix : Nat) : BitVec 1024 :=
  let major := ix / 256
  let minor := ix % 256
  if 80 ≤ minor then x.frameBits (frameOfIx d r 0 ix)
  else (List.range 16).foldl (fun v w =>
    match tfind (x.fabric r).shift (8 * (160 * major + 2 * minor + w / 8) + w % 8) with
    | some t => (v &&& ~~~((BitVec.allOnes 64).setWidth 1024 <<< (64 * w))) ||| (t.setWidth 1024 <<< (64 * w))
    | none => v) (x.frameBits (frameOfIx d r 0 ix))

/-- A frame as FABRIC_READ returns it. -/
def Die.readFrame (x : Die) (d r t ix : Nat) : BitVec 1024 :=
  if t = 5 then (x.fabric r).ffFrame (ix / 3) (ix % 3)
  else if t = 6 then (x.fabric r).fmFrame (ix / 36) (ix % 36)
  else if t = 0 then x.liveFrame d r ix
  else x.frameBits (frameOfIx d r t ix)

/-- The checks of a FABRIC_READ. -/
def State.chkFabricRead (s : State) (a : RAt) (first count : Nat) : Option (Status × Nat) :=
  let f := (s.die a.die).fabric a.region
  firstOf (s.regionChecks a ++
    [badAt (!(namesFrame first) || decide (faDie first ≠ a.die) || decide (faRegion first ≠ a.region)) 4,
      badAt (!(decide (1 ≤ count) && decide (count ≤ 2048) &&
        decide (frameIx first + count ≤ frameMinors (faType first) * frameMajors (faType first)))) 8,
      s.unconfigured a, refuseIf f.noRead .authFail 0])

/-- FABRIC_READ, once no capture of the region runs. -/
def State.runFabricRead (s : State) (p : Pkt) (a : RAt) (first count : Nat) : State :=
  match s.chkFabricRead a first count with
  | some (st, det) => s.refuse 0x0403 p st det
  | none =>
    if ((s.die a.die).fabric a.region).copying.isSome || ((s.die a.die).fabric a.region).acts.any fun k => 4 ≤ k.action then
      s.park (.fabricRead p a first count)
    else
      let x := s.die a.die
      s.finish 0x0403 p .ok 0 [] ((List.range count).flatMap fun i =>
        le 128 (x.readFrame a.die a.region (faType first) (frameIx first + i)).toNat)

/-- FABRIC_READ: frames in the payload (R292). -/
def execFabricRead (p : Pkt) (a : RAt) (first count : Nat) (s : State) : Out :=
  gate 0x0403 .m p (s.runFabricRead p a first count) s

end Sys2Proof.Machine
end

