-- ==== Sys2Proof/Machine/Darner.lean ====
section
/-! DEFINITION. The darner (R293 to R297) and the return of an isolated region (R26, R318). -/

namespace Sys2Proof.Machine

/-- Frames of types 0 to 3 of a region (R268). -/
def scanFrames : Nat := 35392

/-- The frame at a place of the darner's order: types 0 to 3 by address (R293). -/
def scanAddr (d r n : Nat) : Nat :=
  if n < 24576 then frameOfIx d r 0 n
  else if n < 25088 then frameOfIx d r 1 (n - 24576)
  else if n < 35328 then frameOfIx d r 2 (n - 25088)
  else frameOfIx d r 3 (n - 35328)

/-- The CONFIGURED regions of a die. -/
def Die.configured (x : Die) : List Nat := (List.range 8).filter fun r => (x.fabric r).st == .configured

/-- A mask of regions. -/
def regionMask (l : List Nat) : Nat := l.foldl (fun m r => Nat.lor m (2 ^ r)) 0

/-- An event of the darner (Table 18-5). -/
def darnerEvent (d code : Nat) (st : Status) (mask : Nat) : Event :=
  { Event.blank code 5 1 st with
    die := d, unitKind := 0x10, unit := 0, arg1 := mask
    detail := BitVec.ofNat 32 (if st = .unitFenced then fencedDetail 0x10 d 0 else 0) }

/-- The darner's self-check comes out (R296): a failure stops it and is reported once; a pass after a stop starts it again at
each region's first frame. -/
def State.selfCheck (s : State) (d : Nat) (ok : Bool) : State :=
  let x := s.die d
  if ok then
    if x.darner.stopped then
      (s.modDie d fun x => { x with darner := { x.darner with stopped := false, at_ := [] } }).emit
        (darnerEvent d 0x0034 .ok 0)
    else s
  else
    let s1 := s.modDie d fun x =>
      { x with darner := { x.darner with stopped := true, selfFail := true } }.count dnSelfcheckFail 0 1
    if x.darner.stopped then s1 else s1.emit (darnerEvent d 0x0033 .unitFenced (regionMask x.configured))

/-- FRAME_UNCORRECTABLE: `isolated` 1 where the region is isolated for it. -/
def frameEvent (d r a : Nat) (isolated : Bool) : Event :=
  { Event.blank 0x0032 5 2 .unitFenced with
    die := d, region := r, unitKind := 0x0E, unit := r, arg0 := a, arg1 := b2n isolated,
    detail := BitVec.ofNat 32 (fencedDetail 0x0E d r) }

/-- One word in error in the frame under the darner (R294, R295). An uncorrectable word stays as the upset left it, which
the spec does not say: a free value (log entry 10). A frame whose region an earlier word has isolated is no longer scanned. -/
def State.darnWord (s : State) (d : Nat) (e : DarnErr) : State :=
  let x := s.die d
  if (x.fabric e.region).st != .configured then s else
  let a := scanAddr d e.region (tget x.darner.at_ e.region 0)
  if e.dbl then
    let iso := bitAt (x.regv 0x3000) 2
    let (n, s1) := s.freeNat
    let s2 := s1.modDie d fun x =>
      ({ x with darner := { x.darner with dblSeen := true, frame := BitVec.ofNat 32 a } }.setFrameWord a e.word
        (BitVec.ofNat 64 n)).count dnUncorrected 0 1
    let s3 := s2.emit (frameEvent d e.region a iso)
    if iso then s3.isolate d e.region 1 0 false else s3
  else s.modDie d fun x => { x with darner := { x.darner with sglSeen := true } }.count dnCorrected 0 1

/-- The darner scans: enabled and not stopped, a region to scan (R293, R297). -/
def Die.scanning (x : Die) : Bool := bitAt (x.regv 0x3000) 0 && !x.darner.stopped && !x.configured.isEmpty

/-- A word of the frame at `a` is the table of a cell in shift mode, which the darner skips (R262, R293). -/
def Die.shiftWord (x : Die) (r a w : Nat) : Bool :=
  decide (faType a = 0) && decide (faMinor a < 80) &&
    match tfind (x.fabric r).design.blocks (160 * faMajor a + 2 * faMinor a + w / 8) with
    | none => false
    | some b => match b.cells[w % 8]? with
      | none => false
      | some c => c.mode == .shift

/-- The words in error are words of frames that are scanned. -/
def Die.errsOk (x : Die) (d : Nat) (errs : List DarnErr) : Bool :=
  errs.all fun e => decide (e.word < 16) && x.configured.contains e.region &&
    !(x.shiftWord e.region (scanAddr d e.region (tget x.darner.at_ e.region 0)) e.word)

/-- Each scanned region goes on to its next frame; a region at its last one has completed its round. -/
def Die.advance (x : Die) (l : List Nat) : Die :=
  l.foldl (fun (x : Die) r =>
    let n := tget x.darner.at_ r 0 + 1
    let y := { x with darner := { x.darner with at_ := tput x.darner.at_ r (if n < scanFrames then n else 0) } }
    if n < scanFrames then y else y.count dnRounds 0 1) x

/-- One frame of every CONFIGURED region (R293 to R296): at the start of a round the test frame first. -/
def doDarnerScan (d : Nat) (testOk : Bool) (errs : List DarnErr) (s : State) : State :=
  let x := s.die d
  let starts := x.configured.any fun r => tget x.darner.at_ r 0 == 0
  if starts && !testOk then s.selfCheck d false
  else
    let s1 := errs.foldl (fun s e => s.darnWord d e) s
    let s2 := s1.modDie d fun x' => x'.advance (x.configured.filter fun r => (x'.fabric r).st == .configured)
    if errs.any fun e => !e.dbl && e.wbFail then s2.selfCheck d false else s2

/-- DARNER_SCAN (R293). -/
def execDarnerScan (die : Nat) (testOk : Bool) (errs : List DarnErr) (s : State) : Out :=
  event s (decide (die < s.dieCount)) (s.live die && (s.die die).scanning && (s.die die).errsOk die errs)
    (doDarnerScan die testOk errs s)

/-- DARNER_RETRY: firmware resets a stopped darner and repeats its self-check, every second (R296). -/
def execDarnerRetry (die : Nat) (testOk : Bool) (s : State) : Out :=
  event s (decide (die < s.dieCount)) (s.live die && (s.die die).darner.stopped) (s.selfCheck die testOk)

/-- SELFCHECK_NOW: `selfcheck_now` starts a self-check at once (R297). -/
def execSelfcheckNow (die : Nat) (testOk : Bool) (s : State) : Out :=
  event s (decide (die < s.dieCount)) (s.live die) (s.selfCheck die testOk)

/-! ## Return from isolation (R26, R318) -/

/-- The blocks of region `r` as (unit kind, unit), in the order of R443's mask. -/
def regionBlocks (r : Nat) : List (Nat × Nat) :=
  ((List.range 8).map fun i => (1, 8 * r + i)) ++ ((List.range 4).map fun i => (3, 4 * r + i)) ++
    ((List.range 8).map fun i => (4, 8 * r + i)) ++ ((List.range 2).map fun i => (4, 64 + 2 * r + i)) ++
    ((List.range 4).map fun i => (5, 4 * r + i)) ++ ((List.range 2).map fun i => (6, 2 * r + i)) ++ [(10, r)] ++
    (List.range 12).map fun i => (7, 16 * r + i)

/-- The blocks of region `r` that have no bit of their own in R443's mask, each with the bit of the block it belongs to, whose test
covers it (log entry 75): arrays with their tile, network interfaces with the unit behind them (the fabric ports' with the
memory blocks), fabric memory blocks with their shared bit. -/
def innerBlocks (d r : Nat) : List ((Nat × Nat) × Nat) :=
  ((List.range 16).map fun i => ((2, 16 * r + i), 2 ^ (i / 2))) ++
    ((List.range 20).map fun n => ((9, 256 * d + 32 * r + n),
      if n < 12 then 2 ^ n else if n < 16 then 2 ^ (22 + n - 12) else if n < 18 then 2 ^ (26 + n - 16)
      else if n = 18 then 2 ^ 28 else 2 ^ 41)) ++
    (List.range 320).map fun i => ((11, 320 * r + i), 2 ^ 41)

/-- A block without a bit of its own: fenced during the isolation, it rejoins where the test of its bit passes; else it stays as it
is. -/
def State.rejoinInner (s : State) (d r passMask : Nat) (u : (Nat × Nat) × Nat) : State :=
  let key := unitKey u.1.1 u.1.2
  if bitAt (passMask / u.2) 0 && !(((s.die d).region r).fencedBefore.contains key) then
    s.modDie d fun x => { x with fenced := tdel x.fenced key }
  else s

/-- A block of the returning region has re-run its self-test: one that passes rejoins, unless it was fenced before the
isolation; one that fails is fenced. -/
def State.rejoin (s : State) (d r passMask : Nat) (u : Nat × Nat) : State :=
  let key := unitKey u.1 u.2
  let before := ((s.die d).region r).fencedBefore.contains key
  if bitAt (passMask / blockBit r u.1 u.2) 0 then
    if before then s else s.modDie d fun x => { x with fenced := tdel x.fenced key }
  else if before then s
  else s.modDie d fun x => { x with fenced := tput x.fenced key 2 }

/-- A controller of the region that failed during the isolation passes its test now: firmware recovers it by a reset of the region
(R21; log entry 75). -/
def Die.recovers (x : Die) (r passMask : Nat) : Bool :=
  (regionBlocks r).any fun u => (u.1 == 5 || u.1 == 6) && x.isFenced u.1 u.2 &&
    !((x.region r).fencedBefore.contains (unitKey u.1 u.2)) && bitAt (passMask / blockBit r u.1 u.2) 0

/-- A region reset issued by firmware (R21): the contents of the region's channels are lost, and with them every sheet there;
its sequences receive STATE_LOST. -/
def State.regionReset (s : State) (d r : Nat) : State :=
  let hs := ((s.die d).ream.filter fun e => chanRegion e.2.loc.code == r &&
    (e.2.st == .tail || e.2.st == .full || e.2.st == .moving)).map (·.1)
  (s.modDie d fun x => (regionChans r).foldl (fun x c =>
    { (x.cancelDst c) with dram := mclear x.dram (frameAddr c 0) (frameAddr (c + 1) 0) }) x).markGone d hs .lost false

/-- REGION_RETURN's work: the blocks re-run self-test, the down port reopens, REGION_RETURNED names the blocks still
fenced (R26, R318, R443). The region stays unconfigured until a load; its Felt link trains again if it is enabled. -/
def doRegionReturn (d r passMask : Nat) (s : State) : State :=
  let s0 := if (s.die d).recovers r passMask then s.regionReset d r else s
  let s1 := (innerBlocks d r).foldl (fun s u => s.rejoinInner d r passMask u)
    ((regionBlocks r).foldl (fun s u => s.rejoin d r passMask u) s0)
  let s2 := s1.modDie d fun x => x.modRegion r fun g => { g with isolated := false, fencedBefore := [] }
  let s3 := s2.emit { Event.blank 0x0005 2 2 .ok with
    die := d, region := r, unitKind := 0x0E, unit := r, arg1 := (s2.die d).fencedMask r }
  if (s3.die d).feltEnable r && ((s3.die d).felt r).st == .down && !((s3.die d).isFenced 10 r) then s3.linkDetect d r false
  else s3

/-- REGION_RETURN (R26). -/
def execRegionReturn (a : RAt) (passMask : BitVec 64) (s : State) : Out :=
  event s (decide (a.die < s.dieCount) && decide (a.region < 8)) (s.live a.die && ((s.die a.die).region a.region).isolated)
    (doRegionReturn a.die a.region passMask.toNat s)

end Sys2Proof.Machine
end

