-- ==== Sys2Proof/Machine/Tenants.lean ====
section
/-! DEFINITION. Tenants and contexts: TENANT_CREATE, TENANT_DESTROY, TENANT_SET, CTX_CREATE, CTX_DESTROY, CTX_READ. -/

namespace Sys2Proof.Machine

/-! ## Tenants (R32, R51, R193, R229, R230) -/

/-- A quantum R193 accepts. -/
def quantumOk (q : Nat) : Bool := decide (4096 ≤ q) && decide (q ≤ 1048576) && q % 4096 == 0

/-- The idle time a parameter names: 0 is 1,000 ms (Table 9-13). -/
def idleOf (ms : Nat) : Nat := if ms = 0 then 1000 else ms

/-- The checks of TENANT_CREATE. -/
def chkTenantCreate (p : Pkt) (quantum : Nat) (s : State) : Option (Status × Nat) :=
  firstOf [badHdr (decide (64 ≤ p.tenant)) 8, badAt (!quantumOk quantum) 0,
    deferAt (decide (64 ≤ s.tenants.length)) 6, badHdr (thas s.tenants p.tenant) 8]

/-- A tenant with fresh accounts on every die. -/
def doTenantCreate (p : Pkt) (quantum idleMs resumeS : Nat) (s : State) : State :=
  let s1 := { s with
    tenants := tput s.tenants p.tenant { quantum := quantum, idleMs := idleOf idleMs, resumeS := resumeS, destroy := none }
    dies := tmapv s.dies fun _ x => x.modLed fun l => { l with accts := tdel l.accts p.tenant } }
  s1.ok 0x0001 p

/-- TENANT_CREATE (R32, R229, Table 9-13). -/
def execTenantCreate (p : Pkt) (quantum idleMs resumeS : Nat) (s : State) : Out :=
  opcode 0x0001 .m p (chkTenantCreate p quantum s) (doTenantCreate p quantum idleMs resumeS s) s

/-- Contexts of a tenant on a die. -/
def Die.ctxsOf (x : Die) (t : Nat) : List Nat := (x.ctxs.filter fun e => e.2.tenant == t).map (·.1)

/-- TIED knots of a tenant on a die. -/
def Die.knotsOf (x : Die) (t : Nat) : List Nat := (x.knots.filter fun e => e.2.tied && knotOfTenant t e.1).map (·.1)

/-- Regions of a die whose configuration is the tenant's (R286). -/
def Die.regionsOf (x : Die) (t : Nat) : List Nat := (x.fabrics.filter fun e => e.2.tenant == t).map (·.1)

/-- A model instance is removed; the frames that R466 reserved for it are free (R230). -/
def State.removeModel (s : State) (i : Nat) : State :=
  { s with models := tdel s.models i, dies := tmapv s.dies fun _ x => x.unreserve (1 + i) }

/-- What is left of a tenant once its queues are gone (R230): contexts, sequences, knots, regions, model instances, keys. -/
def State.endTenant (s : State) (t : Nat) : State :=
  let ds := List.range s.dieCount
  let s1 := ds.foldl (fun s d => ((s.die d).ctxsOf t).foldl (fun s c => s.destroyCtx d c .ownerLost) s) s
  let s2 := ((s1.seqs.filter fun e => e.2.tenant == t).map (·.1)).foldl (fun s n => s.closeSeq n) s1
  let s3 := ds.foldl (fun s d => ((s.die d).knotsOf t).foldl (fun s k => s.untie d k) s) s2
  let s4 := ds.foldl (fun s d => ((s.die d).regionsOf t).foldl (fun s r => s.unconfigureRegion d r) s) s3
  let s5 := ((s4.models.filter fun e => e.2.tenant == t).map (·.1)).foldl (fun s i => s.removeModel i) s4
  let keyed := ds.filter fun d => s5.hasKey d t
  let pk : Pkt := { queue := 0xFFFF, seq := 0, tag := 0, quiet := true, irq := false, tenant := t, context := 0xFFFF }
  { s5 with keyWaits := s5.keyWaits ++ [(pk, t, keyed)] }.settleKeys

/-- Every queue bound to the tenant is DISABLED. -/
def State.queuesGone (s : State) (t : Nat) : Bool := s.queues.all fun e => e.2.tenant != t || e.2.st == .disabled

/-- A TENANT_DESTROY whose queues have drained ends: its reply is posted (R223, R230). -/
def State.settleTenant (s : State) (t : Nat) : State :=
  match tfind s.tenants t with
  | none => s
  | some x =>
    match x.destroy with
    | none => s
    | some p =>
      if s.queuesGone t then
        let s1 := s.endTenant t
        { s1 with tenants := tdel s1.tenants t }.ok 0x0002 p
      else s

/-- The queues of the tenant drain. -/
def doTenantDestroy (p : Pkt) (s : State) : State :=
  let s1 := { s with tenants := match tfind s.tenants p.tenant with
    | some x => tput s.tenants p.tenant { x with destroy := some p }
    | none => s.tenants }
  let qs := (s1.queues.filter fun e => e.2.tenant == p.tenant).map (·.1)
  (qs.foldl (fun s q => s.drainQueue q) s1).settleTenant p.tenant

/-- TENANT_DESTROY (R230, R430). -/
def execTenantDestroy (p : Pkt) (s : State) : Out :=
  opcode 0x0002 .m p (firstOf [badHdr (!(s.hasTenant p.tenant)) 8]) (doTenantDestroy p s) s

/-- The tenant's parameters change; they apply from the next quantum or check (Table 9-13, R51). -/
def doTenantSet (p : Pkt) (quantum idleMs resumeS : Nat) (s : State) : State :=
  { s with tenants := match tfind s.tenants p.tenant with
    | some x => tput s.tenants p.tenant { x with quantum := quantum, idleMs := idleOf idleMs, resumeS := resumeS }
    | none => s.tenants }.ok 0x0003 p

/-- TENANT_SET (R51, Table 9-13). -/
def execTenantSet (p : Pkt) (quantum idleMs resumeS : Nat) (s : State) : Out :=
  opcode 0x0003 .m p (firstOf [badHdr (!(s.hasTenant p.tenant)) 8, badAt (!quantumOk quantum) 0])
    (doTenantSet p quantum idleMs resumeS s) s

/-! ## Contexts (R187 to R191, R207, R230) -/

/-- An instance of the packet's tenant. -/
def State.modelOf (s : State) (p : Pkt) (i : Nat) : Option Model :=
  match tfind s.models i with
  | some m => if m.tenant = p.tenant then some m else none
  | none => none

/-- An instance of the tenant that is committed, with its bundle. -/
def State.bundleOf (s : State) (p : Pkt) (i : Nat) : Option Bundle := (s.modelOf p i).bind (·.bundle)

/-- A template of an instance. -/
def State.tmplOf (s : State) (p : Pkt) (i t : Nat) : Option Template := (s.bundleOf p i).bind fun b => b.templates[t]?

/-- Scratch areas that a template's grants name and that have no frames on the die yet (R466). -/
def Model.areasDue (m : Model) (d : Nat) (t : Template) : List Nat :=
  ((t.grants.filterMap (·.area)).eraseDups).filter fun a => !(thas m.areas (d * 65536 + a))

/-- Frames of a scratch area: its size in 512 KiB frames, rounded up (R466). -/
def Model.areaFrames (m : Model) (a : Nat) : Nat :=
  match m.bundle with
  | some b => ceilDiv (b.areas.getD a 0 * 64) 524288
  | none => 0

/-- Areas dealt on a die, one after another. -/
def dealAreas (m : Model) (i d : Nat) : List Nat → Die → Option (Die × Model)
  | [], x => some (x, m)
  | a :: r, x =>
    match x.deal (1 + i) (m.areaFrames a) with
    | none => none
    | some (y, l) => dealAreas { m with areas := tput m.areas (d * 65536 + a) l } i d r y

/-- The areas that a context of template `t` needs, dealt. -/
def State.areasFor (s : State) (p : Pkt) (i t d : Nat) : Option (Die × Model) :=
  match s.modelOf p i, s.tmplOf p i t with
  | some m, some tp => dealAreas m i d (m.areasDue d tp) (s.die d)
  | _, _ => none

/-- The lowest context number free on a die (log entry 16). -/
def Die.newCtx (x : Die) : Option Nat := least 4096 fun c => !(thas x.ctxs c)

/-- Bytes that a context of a template reserves in its image store (R188, Table 8-2). -/
def tmplImage (t : Template) : Nat := imageRoom t.kind t.declBytes

/-- The checks of CTX_CREATE (R187, R188, R429, R466). -/
def chkCtxCreate (p : Pkt) (inst tmpl die : Nat) (s : State) : Option (Status × Nat) :=
  let x := s.die die
  let room := ((s.tmplOf p inst tmpl).map fun t => (x.ctxRegion (tmplImage t)).isSome).getD false
  firstOf [badHdr (!(s.hasTenant p.tenant)) 8, badAt (s.bundleOf p inst).isNone 0, badAt (s.tmplOf p inst tmpl).isNone 2,
    badAt (!(s.usable die)) 4, refuseIf (!(s.hasKey die p.tenant)) .authFail 0, deferAt x.newCtx.isNone 3, deferAt (!room) 4,
    deferAt (s.areasFor p inst tmpl die).isNone 7]

/-- A grant of a context. -/
def grantOf (g : GrantShape) : Grant := { area := g.area, first := g.first, units := g.units, canRd := g.canRd, canWr := g.canWr }

/-- A CREATED context of a template (Table 8-3), its grants numbered from 1 (R189). -/
def newCtx (tenant inst tmpl region pc : Nat) (t : Template) : Ctx :=
  { tenant := tenant, model := inst, tmpl := tmpl, kind := t.kind, region := region, imgPc := pc, imgBytes := tmplImage t,
    st := .created, tile := none, lastTile := none, image := .none, cls := 3, disp := none, readyNo := 0, waited := 0,
    wait := none, woken := false, quantNo := 0, waitNo := 0, ring := [], ringWait := [],
    grants := t.grants.mapIdx fun i g => (i + 1, grantOf g), streams := [], failSt := .ok, declared := t.declBytes }

/-- The context is created in the home region with the most free image store. -/
def doCtxCreate (p : Pkt) (inst tmpl die : Nat) (s : State) : State :=
  match s.tmplOf p inst tmpl, s.areasFor p inst tmpl die, (s.die die).newCtx with
  | some t, some (x, m), some c =>
    let r := ((s.die die).ctxRegion (tmplImage t)).getD 0
    let pc := ((s.die die).imgPlace r (tmplImage t)).getD 0
    let y := { x with ctxs := tput x.ctxs c (newCtx p.tenant inst tmpl r pc t) }
    ({ s with models := tput s.models inst m }.setDie die y).finish 0x0010 p .ok 0 (padTo 4 (le 2 (ctxNo die c))) []
  | _, _, _ => s

/-- CTX_CREATE (R187, R188, Table 9-13). -/
def execCtxCreate (p : Pkt) (inst tmpl die : Nat) (s : State) : Out :=
  opcode 0x0010 .t p (chkCtxCreate p inst tmpl die s) (doCtxCreate p inst tmpl die s) s

/-- The context that a packet's header names, if the tenant has it. -/
def State.ctxOf (s : State) (p : Pkt) : Option Ctx :=
  match (s.die (p.context / 4096)).ctx (p.context % 4096) with
  | some y => if y.tenant = p.tenant ∧ p.context < 32768 then some y else none
  | none => none

/-- CTX_DESTROY (R207, Table 8-3): the context's waiters and the entries it served end with OWNER_LOST. -/
def execCtxDestroy (p : Pkt) (s : State) : Out :=
  opcode 0x0011 .t p (firstOf [badHdr (!(s.hasTenant p.tenant)) 8, badHdr (s.ctxOf p).isNone 10])
    ((s.destroyCtx (p.context / 4096) (p.context % 4096) .ownerLost).ok 0x0011 p) s

/-- The local memory that an image holds. -/
def imageMem : Image → Memory
  | .none => []
  | .vec _ m => m
  | .mat _ _ m => m

/-- Where CTX_READ reads: the tile of a resident RUNNING or WAITING context, else the saved image (R230). -/
def Die.ctxMem (x : Die) (y : Ctx) : Memory :=
  match y.st, y.tile with
  | .running, some t => x.tileMem y.kind t
  | _, _ => imageMem y.image

/-- The checks of CTX_READ. -/
def chkCtxRead (p : Pkt) (off len : Nat) (s : State) : Option (Status × Nat) :=
  let decl := ((s.ctxOf p).map (·.declared)).getD 0
  let none1 := match s.ctxOf p with
    | some y => y.st == .created || y.st == .failed
    | none => true
  firstOf [badHdr (!(s.hasTenant p.tenant)) 8, badHdr none1 10, badAt (off % 64 != 0 || decide (decl < off)) 0,
    badAt (len % 64 != 0 || decide (262144 < len) || decide (decl < off + len)) 4]

/-- CTX_READ's work: a SAVING context, and a WAITING one that is still on its tile, is read once its save is checked (R230); the
packet is looked at again when the context's state changes. -/
def State.runCtxRead (s : State) (p : Pkt) (off len : Nat) : State :=
  match s.ctxOf p with
  | none => s.decide1 0x0012 p (chkCtxRead p off len s) s
  | some y =>
    if y.st = .saving ∨ (y.st = .waiting ∧ y.tile.isSome = true) then s.park (.ctxRead p off len)
    else s.decide1 0x0012 p (chkCtxRead p off len s)
      (s.finish 0x0012 p .ok 0 [] (mreadN ((s.die (p.context / 4096)).ctxMem y) off len))

/-- CTX_READ (R230, Table 9-13). -/
def execCtxRead (p : Pkt) (off len : Nat) (s : State) : Out := gate 0x0012 .t p (s.runCtxRead p off len) s

end Sys2Proof.Machine
end

