-- ==== Sys2Proof/Machine/Sequences.lean ====
section
/-! DEFINITION. The sequence opcodes: SEQ_OPEN to SEQ_TRUNCATE, SHEET_HINT, SEQ_QUERY (R34 to R37, R46 to R53). -/

namespace Sys2Proof.Machine

/-! ## Shared -/

/-- A sequence of the packet's tenant. -/
def State.seqOf (s : State) (p : Pkt) (n : Nat) : Option Sequence :=
  match s.seq n with
  | some q => if q.tenant = p.tenant then some q else none
  | none => none

/-- An admitted step holds the sequence (R226). -/
def State.seqHeld (s : State) (n : Nat) : Bool :=
  match s.seq n with
  | some q => q.heldBy.isSome
  | none => false

/-- The state of the packet's sequence is `st`. -/
def State.seqIs (s : State) (p : Pkt) (n : Nat) (st : SeqState) : Bool :=
  match s.seqOf p n with
  | some q => q.st == st
  | none => false

/-- The checks that every sequence opcode starts with: the tenant, the sequence. -/
def seqChecks (p : Pkt) (n : Nat) (s : State) : List (Bool × Status × Nat) :=
  [badHdr (!(s.hasTenant p.tenant)) 8, badAt (s.seqOf p n).isNone 0]

/-- A sequence opcode's work: it waits while an admitted step holds the sequence (R226), then its checks, then `t`. -/
def State.seqOp (s : State) (code : Nat) (p : Pkt) (n : Nat) (i : Instr) (more : List (Bool × Status × Nat)) (t : State) :
    State :=
  if s.seqHeld n && (s.seqOf p n).isSome then s.park i else s.decide1 code p (firstOf (seqChecks p n s ++ more)) t

/-- A class parameter: 0 to 2, or 0xFF to keep the class. -/
def classOk (c : Nat) : Bool := decide (c ≤ 2) || c == 0xFF

/-- A sequence's class set, in every entry of it (R51). -/
def State.setClass (s : State) (n c : Nat) : State :=
  if c = 0xFF then s
  else
    (s.modSeq n fun q => { q with cls := c }).modDie (seqDie n) fun x =>
      { x with ream := tmapv x.ream fun _ e => if e.st != .free && e.seq == n then { e with cls := c } else e }

/-- Sheets of a sequence are freed, in the ream table and in firmware's records (R46). -/
def State.freeSheets (s : State) (n : Nat) (hs : List Nat) : State :=
  (s.modDie (seqDie n) fun x => hs.foldl (fun x h => x.freeSheet h) x).modSeq n fun q =>
    { q with sheets := q.sheets.filter fun r => !(hs.contains r.handle) }

/-! ## SEQ_OPEN (R34, R36) -/

/-- A die that firmware may choose: usable, with a key of the tenant. -/
def State.keyedDies (s : State) (t : Nat) : List Nat := s.usableDies.filter fun d => s.hasKey d t

/-- The candidates of R34. -/
def State.openDies (s : State) (t : Nat) : List Nat := (s.keyedDies t).filter fun d => (s.die d).someRegion

/-- The home die: the one named, or the candidate with the most free resident slots, the lowest number among equals. -/
def State.openDie (s : State) (t die : Nat) : Nat :=
  if die = 0xFF then (argmax (fun d => 2048 - s.resident d) (s.openDies t)).getD 0 else die

/-- The lowest free slot of a die. -/
def State.freeSlot (s : State) (d : Nat) : Option Nat := least 2048 fun i => !(thas s.seqs (d * 2048 + i))

/-- The checks of SEQ_OPEN. -/
def chkSeqOpen (p : Pkt) (inst die cls : Nat) (s : State) : Option (Status × Nat) :=
  let named := die != 0xFF
  let d := s.openDie p.tenant die
  firstOf [badHdr (!(s.hasTenant p.tenant)) 8, badAt (s.modelOf p inst).isNone 0, badAt (named && !(s.usable die)) 2,
    badAt (decide (2 < cls)) 3,
    refuseIf (if named then !(s.hasKey die p.tenant) else (s.keyedDies p.tenant).isEmpty) .authFail 0,
    deferAt (if named then !((s.die die).someRegion) else (s.openDies p.tenant).isEmpty) 7, deferAt (s.freeSlot d).isNone 2]

/-- A sequence as it is opened: SUSPENDED, position 0, no sheets (R36); a threshold of 0 means die spread (R47). -/
def newSequence (tenant inst region cls thr : Nat) : Sequence :=
  { st := .suspended, tenant := tenant, model := inst, region := region, pos := 0, cls := cls,
    dieSpread := thr == 0, sheets := [], heldBy := none, stepped := 0, suspMs := 0, suspNew := true, lostTold := false }

/-- The sequence is opened on its home die and region. -/
def doSeqOpen (p : Pkt) (inst die cls : Nat) (s : State) : State :=
  let d := s.openDie p.tenant die
  match s.freeSlot d, s.modelOf p inst with
  | some i, some m =>
    let n := d * 2048 + i
    let r := (s.die d).homeRegion
    { s with seqs := tput s.seqs n (newSequence p.tenant inst r cls m.thr) }.finish 0x0201 p .ok 0
      (le 2 n ++ le 1 (d * 8 + r) ++ [0] ++ le 4 0) []
  | _, _ => s

/-- SEQ_OPEN (R34, R36, R429). -/
def execSeqOpen (p : Pkt) (inst die cls : Nat) (s : State) : Out :=
  opcode 0x0201 .t p (chkSeqOpen p inst die cls s) (doSeqOpen p inst die cls s) s

/-! ## SEQ_CLOSE, SEQ_SUSPEND, SEQ_RESUME (R35, R36, R46) -/

/-- SEQ_CLOSE's work. -/
def State.runSeqClose (s : State) (p : Pkt) (n : Nat) : State :=
  s.seqOp 0x0202 p n (.seqClose p n) [] ((s.closeSeq n).settleKeys.ok 0x0202 p)

/-- SEQ_CLOSE (R35, R46). -/
def execSeqClose (p : Pkt) (seq : Nat) (s : State) : Out := gate 0x0202 .t p (s.runSeqClose p seq) s

/-- SEQ_SUSPEND's work. -/
def State.runSeqSuspend (s : State) (p : Pkt) (n c : Nat) : State :=
  s.seqOp 0x0203 p n (.seqSuspend p n c) [badAt (!(s.seqIs p n .active)) 0, badAt (!classOk c) 2]
    (((s.modSeq n fun q => { q with st := .suspended, suspMs := 0, suspNew := true }).setClass n c).ok 0x0203 p)

/-- SEQ_SUSPEND (R35). -/
def execSeqSuspend (p : Pkt) (seq cls : Nat) (s : State) : Out := gate 0x0203 .t p (s.runSeqSuspend p seq cls) s

/-- SEQ_RESUME's work. -/
def State.runSeqResume (s : State) (p : Pkt) (n c : Nat) : State :=
  s.seqOp 0x0204 p n (.seqResume p n c)
    [badAt (!(s.seqIs p n .suspended)) 0, badAt (!classOk c) 2, deferAt (decide (128 ≤ s.active (seqDie n))) 1]
    (((s.modSeq n fun q => { q with st := .active }).setClass n c).ok 0x0204 p)

/-- SEQ_RESUME (R35, R36). -/
def execSeqResume (p : Pkt) (seq cls : Nat) (s : State) : Out := gate 0x0204 .t p (s.runSeqResume p seq cls) s

/-! ## SEQ_TRUNCATE (R53) -/

/-- A sheet that straddles the new position is shortened (Table 2-9). -/
def Die.shorten (x : Die) (n pos : Nat) : Die :=
  (x.seqEntries n).foldl (fun x e =>
    if e.2.first < pos ∧ pos < e.2.first + e.2.tok then
      let y := x.cancelCopy e.1
      y.setEntry e.1 { y.entry e.1 with st := .tail, tok := pos - e.2.first }
    else x) x

/-- Every sheet wholly above `pos` is freed, those that straddle it are shortened, the sequence is SUSPENDED at `pos`. -/
def State.truncate (s : State) (n pos : Nat) : State :=
  let hs := (((s.die (seqDie n)).seqEntries n).filter fun e => decide (pos ≤ e.2.first)).map (·.1)
  ((s.freeSheets n hs).modDie (seqDie n) fun x => x.shorten n pos).modSeq n fun q =>
    { q with st := .suspended, pos := pos, suspMs := 0, suspNew := true, lostTold := false }

/-- SEQ_TRUNCATE's work: only a LOST sequence leaves by it (Table 2-3), to a position at or below its first lost token. -/
def State.runSeqTruncate (s : State) (p : Pkt) (n pos : Nat) : State :=
  let fl := ((s.die (seqDie n)).firstLost n).getD (2 ^ 24)
  let now := ((s.seqOf p n).map (·.pos)).getD 0
  s.seqOp 0x0205 p n (.seqTruncate p n pos)
    [badAt (!(s.seqIs p n .lost)) 0, refuseIf (decide (fl < pos)) .stateLost fl, badAt (decide (now < pos)) 4]
    ((s.truncate n pos).settleKeys.ok 0x0205 p)

/-- SEQ_TRUNCATE (R53). -/
def execSeqTruncate (p : Pkt) (seq pos : Nat) (s : State) : Out := gate 0x0205 .t p (s.runSeqTruncate p seq pos) s

/-! ## SHEET_HINT (R48) -/

/-- The entries a hint names, in ascending layer and sheet index: those of the sequence that can be read. -/
def State.hinted (s : State) (n layer : Nat) : List (Nat × Ream) :=
  let x := s.die (seqDie n)
  let recs := ((s.seq n).map (·.sheets)).getD []
  let l := recs.filter fun r => (layer == 0xFF || r.layer == layer) && !(x.reamBad.contains r.handle)
  ((List.range 256).flatMap fun ly => l.filter fun r => r.layer == ly).map fun r => (r.handle, x.entry r.handle)

/-- The check of a hint's layer. -/
def State.layerBad (s : State) (n layer : Nat) : Bool :=
  match (s.seq n).bind fun q => tfind s.models q.model with
  | some m => layer != 0xFF && decide (m.layers ≤ layer)
  | none => true

/-- A sheet is queued or being copied already. -/
def Die.queuedCopy (x : Die) (h : Nat) : Bool := x.hints.any (fun k => k.1 == h) || (x.copyOf h).isSome

/-- Copies queued for the named sheets: promotions of LPDDR5X sheets, demotions of unpinned HBM3E sheets. -/
def State.queueHints (s : State) (n layer : Nat) (promote : Bool) : State :=
  let l := (s.hinted n layer).filter fun e =>
    e.2.loc.tier == promote && (promote || !e.2.pin) && !e.2.gone && !((s.die (seqDie n)).queuedCopy e.1)
  s.modDie (seqDie n) fun x => { x with hints := x.hints ++ l.map fun e => (e.1, promote) }

/-- `pin` written in every named entry. -/
def State.setPins (s : State) (n layer : Nat) (b : Bool) : State :=
  let l := s.hinted n layer
  s.modDie (seqDie n) fun x => l.foldl (fun x e => x.setEntry e.1 { x.entry e.1 with pin := b }) x

/-- SHEET_HINT promote's work. -/
def State.runHintPromote (s : State) (p : Pkt) (n layer : Nat) : State :=
  s.seqOp 0x0206 p n (.sheetHintPromote p n layer) [badAt (s.layerBad n layer) 2] ((s.queueHints n layer true).ok 0x0206 p)

/-- SHEET_HINT demote's work. -/
def State.runHintDemote (s : State) (p : Pkt) (n layer : Nat) : State :=
  s.seqOp 0x0206 p n (.sheetHintDemote p n layer) [badAt (s.layerBad n layer) 2] ((s.queueHints n layer false).ok 0x0206 p)

/-- SHEET_HINT pin's work. -/
def State.runHintPin (s : State) (p : Pkt) (n layer : Nat) : State :=
  s.seqOp 0x0206 p n (.sheetHintPin p n layer) [badAt (s.layerBad n layer) 2] ((s.setPins n layer true).ok 0x0206 p)

/-- SHEET_HINT unpin's work. -/
def State.runHintUnpin (s : State) (p : Pkt) (n layer : Nat) : State :=
  s.seqOp 0x0206 p n (.sheetHintUnpin p n layer) [badAt (s.layerBad n layer) 2] ((s.setPins n layer false).ok 0x0206 p)

/-- SHEET_HINT, action 0 (R48). -/
def execSheetHintPromote (p : Pkt) (seq layer : Nat) (s : State) : Out := gate 0x0206 .t p (s.runHintPromote p seq layer) s

/-- SHEET_HINT, action 1 (R48). -/
def execSheetHintDemote (p : Pkt) (seq layer : Nat) (s : State) : Out := gate 0x0206 .t p (s.runHintDemote p seq layer) s

/-- SHEET_HINT, action 2 (R48). -/
def execSheetHintPin (p : Pkt) (seq layer : Nat) (s : State) : Out := gate 0x0206 .t p (s.runHintPin p seq layer) s

/-- SHEET_HINT, action 3 (R48). -/
def execSheetHintUnpin (p : Pkt) (seq layer : Nat) (s : State) : Out := gate 0x0206 .t p (s.runHintUnpin p seq layer) s

/-! ## SEQ_QUERY (R53, Table 9-13) -/

/-- A state's code in the reply. -/
def SeqState.code : SeqState → Nat
  | .active => 0
  | .suspended => 1
  | .lost => 2

/-- Sheets of a sequence in one tier: TAIL, FULL and MOVING ones. -/
def Die.sheetCount (x : Die) (n : Nat) (tier : Bool) : Nat :=
  ((x.seqEntries n).filter fun e => e.2.loc.tier == tier && !e.2.gone).length

/-- The reply parameters of SEQ_QUERY. -/
def State.queryBytes (s : State) (n : Nat) (q : Sequence) : List Byte :=
  let x := s.die (seqDie n)
  le 1 q.st.code ++ le 1 q.cls ++ le 1 (seqDie n * 8 + q.region) ++ [0] ++ le 4 q.pos ++
    le 4 ((x.firstLost n).getD 0xFFFFFFFF) ++ le 4 (x.sheetCount n false) ++ le 4 (x.sheetCount n true)

/-- SEQ_QUERY's work. -/
def State.runSeqQuery (s : State) (p : Pkt) (n : Nat) : State :=
  s.seqOp 0x0209 p n (.seqQuery p n) []
    (match s.seqOf p n with
      | some q => s.finish 0x0209 p .ok 0 (s.queryBytes n q) []
      | none => s)

/-- SEQ_QUERY (R229). -/
def execSeqQuery (p : Pkt) (seq : Nat) (s : State) : Out := gate 0x0209 .t p (s.runSeqQuery p seq) s

end Sys2Proof.Machine
end

