-- ==== Sys2Proof/Machine/Idle.lean ====
section
/-! DEFINITION. STATE_IDLE and STATE_WAKE: the segments of the LPDDR5X tier (R52, R226, R344, R345). -/

namespace Sys2Proof.Machine

/-! ## Moving a sheet (R47, R49, R50) -/

/-- 512 KiB copied as stored, with what its units were sealed under. -/
def Die.copyFrame (x : Die) (src dst : Loc) : Die :=
  let a := frameAddr src.code src.frame
  let b := frameAddr dst.code dst.frame
  let cells := x.dram.filter fun c => decide (a ≤ c.1) && decide (c.1 < a + 524288)
  let units := x.seals.filter fun c => decide (a / 16 ≤ c.1) && decide (c.1 < a / 16 + 32768)
  { x with
    dram := cells.foldl (fun m c => mwrite m (c.1 - a + b) c.2) (mclear x.dram b (b + 524288))
    seals := units.foldl (fun t c => tput t (c.1 - a / 16 + b / 16) c.2)
      (x.seals.filter fun c => !(decide (b / 16 ≤ c.1) && decide (c.1 < b / 16 + 32768))) }

/-- The mover may copy the sheet (Table 2-9): FULL, or the TAIL of a SUSPENDED sequence; an unreadable entry is passed
over (R44). -/
def State.movable (s : State) (d h : Nat) : Bool :=
  let x := s.die d
  let e := x.entry h
  !(x.reamBad.contains h) && (e.st == .full || (e.st == .tail && match s.seq e.seq with
    | some q => q.st == .suspended
    | none => false))

/-- The LPDDR5X segment of a place. -/
def Loc.seg (l : Loc) : Nat := l.frame / 2880

/-- A sheet of LPDDR5X in one of the segments. -/
def Ream.inSegs (e : Ream) (segs : BitVec 8) : Bool := e.loc.tier && segs.getLsbD e.loc.seg

/-- Home region, spread and index of a sheet for its placement (R47). -/
def State.spreadOf (s : State) (e : Ream) : Nat × Bool × Nat :=
  match s.seq e.seq with
  | some q =>
    let sp := ((tfind s.models q.model).map (·.span)).getD 1
    (q.region, q.dieSpread, e.layer + e.first / max 1 sp)
  | none => (0, false, e.layer)

/-- A free frame for a sheet in one tier that `ok` accepts: by R47 in the list of the sequence's spread, then anywhere on the
die in index order (log entry 18). -/
def State.placeFor (s : State) (d : Nat) (e : Ream) (tier : Bool) (ok : Nat → Nat → Bool) : Option Loc :=
  let (r, sp, i) := s.spreadOf e
  let x := s.die d
  let free (c f : Nat) : Bool := x.frameFree c f && ok c f
  (firstFrame chanOpen free (rotate (chanList tier sp r) i ++ rotate (chanList tier true r) i)).map fun cf =>
    locOf cf.1 cf.2

/-- No open wring resolved the entry at the copy's old place (Table 2-11 step 6). -/
def Die.drainedFrom (x : Die) (c : Copy) : Bool :=
  x.wringers.all fun w => w.2.openR.all fun o => o.res.all fun r => !(r.handle == c.handle && decide (r.loc = c.src))

/-- A sheet moved as part of another command (R52 steps 2 and 3, R55, R336): copied and flipped at once. Its old frame is free once
no open wring has resolved the entry there, and until then it waits for its release (Table 2-11 steps 6 and 7). -/
def State.moveSheet (s : State) (d h : Nat) (dst : Loc) : State :=
  s.modDie d fun x =>
    let e := x.entry h
    let c : Copy := { handle := h, src := e.loc, dst := dst, prev := e.st, flipped := true }
    let y := (x.copyFrame e.loc dst).setEntry h { e with loc := dst }
    if x.drainedFrom c then y else { y with copies := y.copies ++ [c] }

/-! ## STATE_IDLE (R52) -/

/-- Sheets of the die in ascending handle. -/
def State.sheetsOf (s : State) (d : Nat) (p : Nat → Ream → Bool) : List Nat :=
  ((s.die d).ream.filter fun e => (e.2.st == .tail || e.2.st == .full) && p e.1 e.2).map (·.1)

/-- Step 2: class 2 sheets leave the keep segments for free frames of the drop set, as long as there are some. -/
def State.idleGather (s : State) (d : Nat) (drop : BitVec 8) : State :=
  let hs := s.sheetsOf d fun h e =>
    e.loc.tier && e.cls == 2 && !(e.inSegs drop) && !(e.inSegs (s.die d).dropped) && s.movable d h
  hs.foldl (fun s h =>
    match s.placeFor d ((s.die d).entry h) true fun _ f => drop.getLsbD (f / 2880) with
    | some l => s.moveSheet d h l
    | none => s) s

/-- Segments of the drop set that hold a class 0 or class 1 sheet that `p` accepts. -/
def State.keptSegs (s : State) (d : Nat) (drop : BitVec 8) (p : Nat → Bool) : BitVec 8 :=
  (s.sheetsOf d fun h e => decide (e.cls < 2) && e.inSegs drop && p h).foldl
    (fun m h => m ||| BitVec.ofNat 8 (2 ^ ((s.die d).entry h).loc.seg)) 0

/-- The highest segment of a set. -/
def highSeg (m : BitVec 8) : BitVec 8 :=
  match greatest 8 fun i => m.getLsbD i with
  | some i => BitVec.ofNat 8 (2 ^ i)
  | none => 0

/-- Step 3: class 0 and class 1 sheets leave the drop set, for the keep segments first, then HBM3E; when room runs out the
highest segment that still holds one leaves the drop set. -/
def State.idleRescue (d : Nat) : Nat → State → BitVec 8 → State × BitVec 8
  | 0, s, drop => (s, drop)
  | fuel + 1, s, drop =>
    match s.sheetsOf d fun h e => decide (e.cls < 2) && e.inSegs drop && s.movable d h with
    | [] => (s, drop)
    | h :: _ =>
      let e := (s.die d).entry h
      match s.placeFor d e true fun _ f => !(drop.getLsbD (f / 2880)) with
      | some l => State.idleRescue d fuel (s.moveSheet d h l) drop
      | none =>
        match s.placeFor d e false fun _ _ => true with
        | some l => State.idleRescue d fuel (s.moveSheet d h l) drop
        | none => State.idleRescue d fuel s (drop &&& ~~~highSeg (s.keptSegs d drop fun _ => true))

/-- Steps 1 to 4 on one die for operation `op`: copies under way are cancelled (log entry 18), sheets move, what is left in the
drop set becomes DROPPED. -/
def State.idleDie (s : State) (op : Nat) (segs : BitVec 8) (d : Nat) : State :=
  let s0 := s.modDie d fun x => (x.copies.filter fun c => !c.flipped).foldl (fun x c => x.cancelCopy c.handle) x
  let drop0 := segs &&& ~~~(s0.die d).dropped
  let s1 := s0.idleGather d drop0
  let drop1 := drop0 &&& ~~~(s1.keptSegs d drop0 fun h => !(s1.movable d h))
  let (s2, drop) := State.idleRescue d ((s1.die d).ream.length + 9) s1 drop1
  let hs := s2.sheetsOf d fun h e => e.inSegs drop && !((s2.die d).reamBad.contains h)
  (s2.markGone d hs .dropped true).modDie d fun x => { x with idle := some { op := op, segs := drop, handles := hs } }

/-- A die that a mask names is absent or lost. -/
def State.maskBad (s : State) (m : BitVec 8) : Bool := (maskDies m).any fun d => !(s.usable d)

/-- One of the named dies runs a STATE_IDLE, or an operation admitted earlier waits that names one of them (R226). -/
def State.idleBusy (s : State) (m : BitVec 8) : Bool :=
  ((maskDies m).any fun d => (s.die d).idle.isSome) || s.waiting.any fun i => match i with
    | .stateIdle _ o _ => o &&& m != 0
    | .stateWake _ o => o &&& m != 0
    | _ => false

/-- The bytes that a STATE_IDLE starts from: none is known yet. -/
def idleBytes : List (BitVec 8) := List.replicate 8 0

/-- The reply to a STATE_IDLE whose dies have all finished. -/
def State.endIdle (s : State) (id : Nat) : State :=
  match tfind s.idles id with
  | none => s
  | some o =>
    if o.left.isEmpty then { s with idles := tdel s.idles id }.finish 0x0207 o.pkt .ok 0 o.bytes [] else s

/-- STATE_IDLE's work: it waits for an operation under way on one of its dies (R226). -/
def State.runStateIdle (s : State) (p : Pkt) (m segs : BitVec 8) : State :=
  if s.maskBad m then s.refuse 0x0207 p .badParam 32
  else if s.idleBusy m then s.park (.stateIdle p m segs)
  else
    let id := s.idles.length + ((argmax id (tkeys s.idles)).getD 0)
    let s1 := { s with idles := tput s.idles id { pkt := p, bytes := idleBytes, left := maskDies m } }
    ((maskDies m).foldl (fun s d => s.idleDie id segs d) s1).endIdle id

/-- STATE_IDLE (R52). -/
def execStateIdle (p : Pkt) (dies segs : BitVec 8) (s : State) : Out := gate 0x0207 .m p (s.runStateIdle p dies segs) s

/-- Every wring that resolved one of the entries has completed, and so has every one that still reads a frame of the segments that
a sheet has left (R52 step 5, R49). -/
def Die.wringsGone (x : Die) (hs : List Nat) (segs : BitVec 8) : Bool :=
  (x.wringers.all fun w => w.2.openR.all fun o => o.res.all fun r => !(hs.contains r.handle)) &&
    x.copies.all fun c => !(c.flipped && c.src.tier && segs.getLsbD c.src.seg)

/-- Step 6 on a die: self-refresh masks the drop set, and the reply's byte is known. -/
def State.doIdleDone (s : State) (d : Nat) : State :=
  match (s.die d).idle with
  | none => s
  | some i =>
    let all := (s.die d).dropped ||| i.segs
    let s1 := s.modDie d fun x => { x with
      idle := none, dropped := all, initSegs := x.initSegs.filter fun k => !(i.segs.getLsbD (k % 8)) }
    match tfind s1.idles i.op with
    | none => s1
    | some o =>
      let o1 : IdleOp := { o with bytes := o.bytes.set d all, left := o.left.filter (· != d) }
      { s1 with idles := tput s1.idles i.op o1 }.endIdle i.op

/-! ## STATE_WAKE (R52, R345) -/

/-- LPDDR5X channels of a die that can hold data. -/
def Die.lpUp (x : Die) : List Nat := (List.range 16).filter fun l => x.chanUp (64 + l)

/-- Refresh is restored on a die; its former drop set is to be initialised. -/
def Die.wakeSegs (x : Die) : Die :=
  let segs := (List.range 8).filter fun i => x.dropped.getLsbD i
  { x with
    dropped := 0
    initSegs := x.initSegs ++ x.lpUp.flatMap fun l => segs.map fun i => l * 8 + i }

/-- STATE_WAKE's work. -/
def State.runStateWake (s : State) (p : Pkt) (m : BitVec 8) : State :=
  if s.maskBad m then s.refuse 0x0208 p .badParam 32
  else if s.idleBusy m then s.park (.stateWake p m)
  else ((maskDies m).foldl (fun s d => s.modDie d fun x => x.wakeSegs) s).ok 0x0208 p

/-- STATE_WAKE (R52, R345). -/
def execStateWake (p : Pkt) (dies : BitVec 8) (s : State) : Out := gate 0x0208 .m p (s.runStateWake p dies) s

/-- A segment is initialised: it reads as zero and its frames return to the pool. -/
def Die.initSeg (x : Die) (lc seg : Nat) : Die :=
  let a := frameAddr (64 + lc) (2880 * seg)
  let b := frameAddr (64 + lc) (2880 * (seg + 1))
  { x with
    initSegs := x.initSegs.filter (· != lc * 8 + seg)
    dram := mclear x.dram a b
    seals := x.seals.filter fun c => !(decide (a / 16 ≤ c.1) && decide (c.1 < b / 16)) }

end Sys2Proof.Machine
end

