-- ==== Sys2Proof/Machine/LedgerOps.lean ====
section
/-! DEFINITION. Periods, static power and energy budgets of a die (R383, R384, R390 to R395): the operations the commands
share. -/

namespace Sys2Proof.Machine

/-- The root divisor of an ACLK step (Table 15-2). -/
def stepDiv (k : Nat) : Nat := if k = 0 then 4 else if k = 1 then 5 else if k = 2 then 6 else 8

/-- The ledger period in µs: 4,096 ACLK cycles (R384), with the edges that grade B suppresses at step 0 (R383). -/
def periodUs (gradeB : Bool) (k : Nat) : Rat :=
  let t : Rat := 4096 * stepDiv k / 4400
  if gradeB && k == 0 then t * 22 / 19 else t

/-- The greatest `m` below `2^fuel` + `m` with `p m`, for a `p` that falls once. -/
def bisect (p : Nat → Bool) : Nat → Nat → Nat
  | 0, m => m
  | f + 1, m => bisect p f (if p (m + 2 ^ f) then m + 2 ^ f else m)

/-- ⌊a × 2^(t ÷ 25)⌋: the greatest m with m^25 ≤ a^25 × 2^t. -/
def scale25 (a : Nat) (t : Int) : Nat :=
  bisect (fun m => decide (if 0 ≤ t then m ^ 25 ≤ a ^ 25 * 2 ^ t.toNat else m ^ 25 * 2 ^ (-t).toNat ≤ a ^ 25))
    (a.log2 + 2 + t.toNat / 25) 0

/-- The calibration figure of a step: mW and °C (R392). -/
def Ledger.calOf (l : Ledger) (k : Nat) : Nat × Int := tget l.cal k (0, 25)

/-- Static power in µW at the current step and reading: P_cal × 2^((T − T_cal) ÷ 25 °C), rounded down (R392). -/
def Ledger.staticUw (l : Ledger) : Nat := scale25 ((l.calOf l.step).1 * 1000) (l.tempC - (l.calOf l.step).2)

/-- Static energy of a period, in nJ. -/
def Ledger.staticNj (l : Ledger) (gradeB : Bool) : Nat :=
  ((l.staticUw : Rat) / 1000 * periodUs gradeB l.step).floor.toNat

/-- mW over one period, in nJ. -/
def periodNj (gradeB : Bool) (k mw : Nat) : Rat := (mw : Rat) * periodUs gradeB k

/-! ## Planning a dispatch (R394, R395) -/

/-- The correction factor of (instance, list) on a die. -/
def Die.factor (x : Die) (inst list : Nat) : Rat := tget x.led.fcorr (inst * 65536 + list) 1

/-- The correction factor moves one eighth of the way towards measured ÷ estimate, within 0.5 to 4 (R394). -/
def moveFactor (f measured est : Rat) : Rat := max (1 / 2) (min 4 (f + (measured / est - f) / 8))

/-- A die's estimate for `n` entries and `t` tokens. -/
def estNj (e : DieEst) (n t : Nat) : Nat := e.perSeq * n + e.perTok * t

/-- The planned energy: the estimate times the factor, in whole nJ. -/
def Die.plannedNj (x : Die) (inst list : Nat) (e : DieEst) (n t : Nat) : Nat :=
  ((estNj e n t : Rat) * x.factor inst list).floor.toNat

/-- Planned energy per period. -/
def perPeriod (nj periods : Nat) : Rat := (nj : Rat) / (max 1 periods : Nat)

/-- A dispatch's planned energy on a die. -/
def Dispatch.plannedOn (x : Dispatch) (d : Nat) : Option Nat := (x.planned.find? fun e => e.1 == d).map (·.2)

/-- Periods until a dispatch is due to end on a die. -/
def Dispatch.dueIn (x : Dispatch) (d : Nat) : Nat :=
  x.periods - ((x.age.find? fun e => e.1 == d).map (·.2)).getD 0

/-- Admitted dispatches of a die of the real-time class or of the others: planned energy per period and periods until they
are due to end. -/
def State.admitted (s : State) (d : Nat) (rt : Bool) : List (Rat × Nat) :=
  s.disps.filterMap fun e =>
    if (e.2.cls == 0) == rt then (e.2.plannedOn d).map fun n => (perPeriod n e.2.periods, e.2.dueIn d) else none

/-- What still draws after `t` periods. -/
def drawAfter (l : List (Rat × Nat)) (t : Nat) : Rat := ((l.filter fun e => decide (t < e.2)).map (·.1)).sum

/-- Tests 2 and 3 of R395 once the dispatches due within `t` periods have ended. -/
def State.fitsAfter (s : State) (d cls : Nat) (q : Rat) (t : Nat) : Bool :=
  let l := (s.die d).led
  let b := s.part.gradeB
  let share := periodNj b l.step l.sMw - (l.staticNj b : Rat)
  let res := periodNj b l.step l.rMw
  let rt := drawAfter (s.admitted d true) t
  let non := drawAfter (s.admitted d false) t
  if cls = 0 then decide (rt + q ≤ res) || decide (rt + q ≤ share - non) else decide (non + q ≤ share - res)

/-- The tests as the die stands now: every admitted dispatch counts, overdue ones too. -/
def State.fitsNow (s : State) (d cls : Nat) (q : Rat) : Bool :=
  let l := (s.die d).led
  let b := s.part.gradeB
  let share := periodNj b l.step l.sMw - (l.staticNj b : Rat)
  let res := periodNj b l.step l.rMw
  let rt := ((s.admitted d true).map (·.1)).sum
  let non := ((s.admitted d false).map (·.1)).sum
  if cls = 0 then decide (rt + q ≤ res) || decide (rt + q ≤ share - non) else decide (non + q ≤ share - res)

/-- Periods until enough admitted dispatches are due to end; 0 where that is not known (Table 9-11). -/
def State.deferPeriods (s : State) (d cls : Nat) (q : Rat) : Nat :=
  let ts := (s.admitted d true ++ s.admitted d false).map (·.2)
  (argmin id (ts.filter (s.fitsAfter d cls q))).getD 0

/-- R395 on one die: the `detail` of DEFERRED_ENERGY if a test fails. -/
def State.energyBad (s : State) (d t cls nj periods : Nat) : Option Nat :=
  let a := (s.die d).acct t
  let q := perPeriod nj periods
  let tenant : Option Nat := match a.allow with
    | none => none
    | some w => if (nj : Int) ≤ a.left then none else some (if w < nj then 0xFFFFFFFF else a.periods)
  match tenant with
  | some n => some n
  | none => if s.fitsNow d cls q then none else some (s.deferPeriods d cls q)

end Sys2Proof.Machine
end

