-- ==== Sys2Proof/Machine/Telemetry.lean ====
section
/-! DEFINITION. Telemetry: counters, ream table entries, context status, probes and traces (R106, R229, R323 to R327). -/

namespace Sys2Proof.Machine

/-! ## TEL_COUNTERS (R106, R229) -/

/-- The unit exists on die `d` in the numbering of Table 18-6. -/
def unitOn (d kind unit : Nat) : Bool :=
  if kind = 1 then decide (unit < 64)
  else if kind = 2 then decide (unit < 128)
  else if kind = 3 then decide (unit < 32)
  else if kind = 4 then decide (unit < 80)
  else if kind = 5 then decide (unit < 32)
  else if kind = 6 then decide (unit < 16)
  else if kind = 7 then decide (unit < 128) && decide (unit % 16 < 12)
  else if kind = 8 then decide (unit < 8)
  else if kind = 9 then decide (unit / 256 = d) &&
    (decide (unit % 32 < 20) || (decide (24 ≤ unit % 32) && decide (unit % 32 < 29)) || (decide (unit % 32 = 29) && decide (d = 0)))
  else if kind = 10 then decide (unit / 8 = d)
  else if kind = 11 then decide (unit < 2560)
  else if kind = 12 then decide (unit < 16)
  else if kind = 13 then decide (unit < 32)
  else if kind = 14 then decide (unit < 8)
  else if kind = 15 then decide (unit = d)
  else if kind = 16 then decide (unit = 0)
  else if kind = 17 then decide (unit ∈ [2, 3, 4, 5, 6])
  else if kind = 18 then decide (unit < 2048)
  else false

/-- The number under which a die keeps a unit's counters. -/
def ctrUnit (kind unit : Nat) : Nat := if kind = 10 then unit % 8 else if kind = 15 then 0 else unit

/-- One counter as it is read: 8 bytes; a 32-bit counter has its wrap bit above it (log entry 13). -/
def Die.counter (x : Die) (kind unit idx : Nat) (w32 : Bool) : Nat :=
  let k := ctrKey kind (ctrUnit kind unit) idx
  tget x.ctrs k 0 + (if w32 && tget x.wraps k false then 2 ^ 32 else 0)

/-- A unit's counters in the order of its kind. -/
def Die.counters (x : Die) (kind unit : Nat) : List Byte :=
  ((ctrWidths kind).mapIdx fun i w => le 8 (x.counter kind unit i w)).flatten

/-- The wrap bits of a unit are cleared by the read. -/
def Die.clearWraps (x : Die) (kind unit : Nat) : Die :=
  let n := (ctrWidths kind).length
  { x with wraps := (List.range n).foldl (fun t i => tdel t (ctrKey kind (ctrUnit kind unit) i)) x.wraps }

/-- The checks of TEL_COUNTERS. -/
def chkTelCounters (die kind unit : Nat) (s : State) : Option (Status × Nat) :=
  firstOf [badAt (!(s.usable die)) 0, badAt (ctrWidths kind).isEmpty 1, badAt (!(unitOn die kind unit)) 2]

/-- The counters are read and their wrap bits cleared. -/
def doTelCounters (p : Pkt) (die kind unit : Nat) (s : State) : State :=
  (s.modDie die fun x => x.clearWraps kind unit).finish 0x0701 p .ok 0 [] (padTo 64 ((s.die die).counters kind unit))

/-- TEL_COUNTERS (R229). -/
def execTelCounters (p : Pkt) (die kind unit : Nat) (s : State) : Out :=
  opcode 0x0701 .m p (chkTelCounters die kind unit s) (doTelCounters p die kind unit s) s

/-! ## TEL_REAM (R40, R44) -/

/-- The code of a sheet state (Table 2-8). -/
def SheetState.code : SheetState → Nat
  | .free => 0
  | .tail => 1
  | .full => 2
  | .moving => 3
  | .dropped => 4
  | .lost => 5

/-- A ream table entry as Table 2-5 lays it out. -/
def Ream.bytes (e : Ream) : List Byte :=
  le 4 (e.st.code * 2 ^ 29 + e.cls * 2 ^ 27 + e.fmt * 2 ^ 24 + e.tenant * 2 ^ 18 + e.seq) ++
    le 4 (e.layer * 2 ^ 24 + e.first) ++
    le 4 (b2n e.loc.tier * 2 ^ 31 + e.loc.stack * 2 ^ 30 + e.loc.chan * 2 ^ 25 + e.loc.frame * 2 ^ 10 + e.slot * 4) ++
    le 4 (e.tok * 2 ^ 18 + e.acc * 2 ^ 10 + b2n e.pin * 2 ^ 9)

/-- An entry as firmware reads it; an uncorrectable one gives bytes that no rule states (R44, log entry 10). -/
def State.readEntry (s : State) (d h : Nat) : List Byte × State :=
  if (s.die d).reamBad.contains h then
    let (n, s1) := s.freeNat
    (le 16 n, s1)
  else (((s.die d).entry h).bytes, s)

/-- `count` entries from handle `first` on. -/
def State.readEntries (s : State) (d first count : Nat) : List Byte × State :=
  (List.range count).foldl (fun (q : List (List Byte) × State) (i : Nat) =>
    let r := q.2.readEntry d (first + i)
    (r.1 :: q.1, r.2)) ([], s) |> fun q => (q.1.reverse.flatten, q.2)

/-- The checks of TEL_REAM. -/
def chkTelReam (die first count : Nat) (s : State) : Option (Status × Nat) :=
  firstOf [badAt (!(s.usable die)) 0, badAt (decide (count = 0) || decide (16384 < count)) 8,
    badAt (decide (524288 < first + count)) 4]

/-- The entries are read. -/
def doTelReam (p : Pkt) (die first count : Nat) (s : State) : State :=
  let r := s.readEntries die first count
  r.2.finish 0x0702 p .ok 0 [] (padTo 64 r.1)

/-- TEL_REAM (R229). -/
def execTelReam (p : Pkt) (die first count : Nat) (s : State) : Out :=
  opcode 0x0702 .m p (chkTelReam die first count s) (doTelReam p die first count s) s

/-! ## TEL_CTX (R105, R180) -/

/-- The code of a context state: its place in Table 8-3 (log entry 28). -/
def CtxState.code : CtxState → Nat
  | .created => 0
  | .ready => 1
  | .running => 2
  | .saving => 3
  | .waiting => 4
  | .failed => 5

/-- The vector core of a context: on its tile, or in its image; none for a matrix context or an empty image. -/
def Die.coreOf (x : Die) (y : Ctx) : Option VCore :=
  match y.kind with
  | .matrix => none
  | .vector =>
    match y.tile, y.image with
    | some t, _ => some (x.vtile t).core
    | none, .vec core _ => some core
    | none, .none => none
    | none, .mat _ _ _ => none

/-- `fpstat` of a context (R105): a vector context's register, what a matrix context's arrays hold. -/
def Die.fpOf (x : Die) (y : Ctx) : Nat :=
  match y.kind with
  | .vector => ((x.coreOf y).map (·.fp)).getD 0
  | .matrix =>
    match y.tile, y.image with
    | some t, _ => Nat.lor (x.mtile t).a.fp (x.mtile t).b.fp
    | none, .mat a b _ => Nat.lor a.fp b.fp
    | none, .none => 0
    | none, .vec _ _ => 0

/-- The reply of TEL_CTX. -/
def Die.ctxBytes (x : Die) (y : Ctx) : List Byte :=
  le 1 y.st.code ++ le 1 (x.fpOf y) ++ le 1 (((x.coreOf y).map (·.xstat)).getD 0) ++ [0] ++
    le 2 (((x.coreOf y).map fun c => c.pwrap.toNat).getD 0)

/-- The context a header names. -/
def State.hdrCtx (s : State) (p : Pkt) : Option Ctx :=
  if s.usable (p.context / 4096) then (s.die (p.context / 4096)).ctx (p.context % 4096) else none

/-- The checks of TEL_CTX: a context of the tenant. -/
def chkTelCtx (p : Pkt) (s : State) : Option (Status × Nat) :=
  firstOf [badHdr (!(s.hasTenant p.tenant)) 8, badHdr (match s.hdrCtx p with
    | some y => y.tenant != p.tenant
    | none => true) 10]

/-- The context's status is read. -/
def doTelCtx (p : Pkt) (s : State) : State :=
  match s.hdrCtx p with
  | some y => s.finish 0x0703 p .ok 0 ((s.die (p.context / 4096)).ctxBytes y) []
  | none => s

/-- TEL_CTX (R229). -/
def execTelCtx (p : Pkt) (s : State) : Out := opcode 0x0703 .t p (chkTelCtx p s) (doTelCtx p s) s

/-! ## TEL_PROBE (R323 to R325) -/

/-- The router a `router` field names, in the numbering of `Die.router`; `none` where it names none. -/
def probeRouter (f : Nat) : Option Nat :=
  let r := bitsOf f 5 3
  let t := bitsOf f 9 6
  if f % 8 ≠ 0 ∨ 1024 ≤ f then none
  else if t = 15 then some (128 + r)
  else if t < 12 then some (16 * r + t)
  else none

/-- The `router` field of a router. -/
def routerField (k : Nat) : Nat := if k < 128 then k % 16 * 64 + k / 16 * 8 else 15 * 64 + (k - 128) * 8

/-- The key of a probe in `Die.probes`. -/
def ProbeKey (router probe : Nat) : Nat := router * 2 + probe

/-- The probe that a selector names. -/
def selKey (sel : ProbeSel) : Nat := ProbeKey ((probeRouter sel.router).getD 0) sel.probe

/-- A probe. -/
def Die.probe (x : Die) (k : Nat) : Probe := tget x.probes k Probe.reset

/-- `x` with `f` applied to a probe. -/
def Die.modProbe (x : Die) (k : Nat) (f : Probe → Probe) : Die := { x with probes := tmod x.probes k Probe.reset f }

/-- The checks that the actions on one probe share. -/
def probeChecks (sel : ProbeSel) (s : State) : List (Bool × Status × Nat) :=
  [badAt (!(s.usable sel.die)) 1, badAt (probeRouter sel.router).isNone 2, badAt (decide (2 ≤ sel.probe)) 4]

/-- TEL_PROBE action 0: the filter of a stopped probe is set. -/
def execTelProbeSetFilter (p : Pkt) (sel : ProbeSel) (f : ProbeFilter) (s : State) : Out :=
  opcode 0x0704 .m p
    (firstOf (probeChecks sel s ++ [badAt ((s.die sel.die).probe (selKey sel)).running 0]))
    ((s.modDie sel.die fun x => x.modProbe (selKey sel) fun q => { q with filter := f }).ok 0x0704 p) s

/-- TEL_PROBE action 1: the probe starts. -/
def execTelProbeStart (p : Pkt) (sel : ProbeSel) (s : State) : Out :=
  opcode 0x0704 .m p (firstOf (probeChecks sel s))
    ((s.modDie sel.die fun x => x.modProbe (selKey sel) fun q => { q with running := true }).ok 0x0704 p) s

/-- TEL_PROBE action 2: the probe stops. -/
def execTelProbeStop (p : Pkt) (sel : ProbeSel) (s : State) : Out :=
  opcode 0x0704 .m p (firstOf (probeChecks sel s))
    ((s.modDie sel.die fun x => x.modProbe (selKey sel) fun q => { q with running := false }).ok 0x0704 p) s

/-- TEL_PROBE action 3: packets and flits matched. -/
def execTelProbeReadCounts (p : Pkt) (sel : ProbeSel) (s : State) : Out :=
  let q := (s.die sel.die).probe (selKey sel)
  opcode 0x0704 .m p (firstOf (probeChecks sel s)) (s.finish 0x0704 p .ok 0 (le 8 q.pkts ++ le 8 q.flits) []) s

/-- A trace record as Table 12-14 lays it out. -/
def TraceRec.bytes (r : TraceRec) : List Byte :=
  le 8 r.time ++ le 2 (routerField r.router) ++ le 1 (r.port + 8 * r.pkt.vc.toNat + 32 * b2n r.pkt.lane) ++ le 1 r.probe ++
    le 2 r.pkt.src.toNat ++ le 2 r.pkt.dst.toNat ++ le 1 r.pkt.opcode.toNat ++
    le 1 (r.pkt.cls.toNat + 4 * b2n r.pkt.epoch) ++ le 2 r.pkt.len.toNat ++ le 2 r.pkt.txn.toNat ++ zeros 10

/-- The trace buffer in entries of 8,192 records; an empty buffer gives one entry without records. -/
def traceParts : Nat → List TraceRec → List (List TraceRec)
  | 0, l => [l]
  | n + 1, l => if l.length ≤ 8192 then [l] else l.take 8192 :: traceParts n (l.drop 8192)

/-- TEL_PROBE action 4: the buffer is read out, oldest first, and is empty. -/
def doReadTrace (p : Pkt) (die : Nat) (s : State) : State :=
  let x := s.die die
  let parts := (traceParts 16 x.trace).map fun l =>
    (le 4 l.length ++ le 4 x.traceLost, l.flatMap TraceRec.bytes)
  (s.modDie die fun x => { x with trace := [] }).finishMany 0x0704 p .ok 0 parts

/-- TEL_PROBE read trace (R324). -/
def execTelProbeReadTrace (p : Pkt) (die : Nat) (s : State) : Out :=
  opcode 0x0704 .m p (firstOf [badAt (!(s.usable die)) 1]) (doReadTrace p die s) s

/-- TEL_PROBE action 5: the trace buffer is cleared with its count of lost records. -/
def execTelProbeClearTrace (p : Pkt) (die : Nat) (s : State) : Out :=
  opcode 0x0704 .m p (firstOf [badAt (!(s.usable die)) 1])
    ((s.modDie die fun x => { x with trace := [], traceLost := 0 }).ok 0x0704 p) s

end Sys2Proof.Machine
end

