-- ==== Sys2Proof/Machine/ThreadOps.lean ====
section
/-! DEFINITION. Weight threads (R141 to R154): chains, source descriptors, the records that the head writes. -/

namespace Sys2Proof.Machine

/-- A chain within the limits of Table 6-1. -/
def chainOk (l : List Nat) : Bool :=
  let tiles := l.map (· / 2)
  let regs := (tiles.map (· / 8))
  decide (1 ≤ l.length) && decide (l.length ≤ 64) && l.all (fun m => decide (m < 128)) && decide tiles.Nodup &&
    decide ((regs.splitBy (· == ·)).map (fun g => g.headD 0)).Nodup

/-- R154 on a THREAD_SOURCE descriptor that firmware is to arm for a tenant, with the grants of its context: `grant` gives a
grant's 64-byte units and whether it can be read. Firmware writes `thread`; `row_len` is one of Table 6-3. -/
def sourceOk (tenant : Nat) (grant : Nat → Option (Nat × Bool)) (desc : BitVec 512) : Bool :=
  let rows := srcRows desc
  let len := dw desc 4 15 0
  let ms := dw desc 5 31 0
  sdReserved desc && dw desc 0 31 28 == 3 && decide (6 ≤ dw desc 0 23 20 ∧ dw desc 0 23 20 ≤ 12) && decide (1 ≤ rows) &&
    [10, 14, 18, 33].contains len && decide (len * 64 ≤ ms) && dw desc 7 23 16 == 0 &&
    (match grant (dw desc 0 7 0) with
      | some (units, rd) => rd && decide (sdOff desc + (rows - 1) * ms + len * 64 ≤ units * 64)
      | none => false) &&
    (dw desc 0 25 25 == 0 || knotOfTenant tenant (dw desc 7 15 0))

/-- The position of a block in the rounds of its thread. -/
def Thread.block (h : Thread) (i : Nat) : Option BlkPos := blockAt h.sources i h.round 0

/-- A record with the fields the head writes (Table 6-2). -/
def headRec (th : Nat) (k : BlkPos) (poison : Bool) (r : List Byte) : List Byte :=
  let b0 := (r.getD 0 0).toNat
  [BitVec.ofNat 8 (b0 % 64 + 64 * b2n poison + b0 / 128 * 128)] ++ ((r.drop 1).take 7) ++ le 4 k.index ++
    le 2 (k.round % 65536) ++ [BitVec.ofNat 8 (th % 128), BitVec.ofNat 8 (b2n k.last)] ++ r.drop 16

/-- The block entry of block `i`. -/
def headEntry (th i : Nat) (k : BlkPos) (poison : Bool) (r : List Byte) : TEntry :=
  { index := i, last := k.last, poison := poison, bytes := headRec th k poison r, forwarded := false, loaded := false }

/-! ## Fetches (R144, R148) -/

/-- The head may fetch but for room (R144): a block is left whose source is armed, within the lead of 4 of an attached member. -/
def Die.headWants (x : Die) (h : Thread) : Bool :=
  (h.block h.next).isSome && h.members.head?.all (fun e => !(x.memberDown e)) && match x.pacing h with
    | some q => decide (h.next < q.swapped + 4)
    | none => false

/-- A gap-filling slot may fetch but for room (R148): by the lead rule, counted against its own array. -/
def Die.gapWants (x : Die) (e : Nat × Nat) : Bool :=
  !(x.memberDown e) && match x.tslot e.1 e.2 with
    | some q => q.gapping && decide (q.gapNext < q.swapped + 4)
    | none => false

/-- The head's next fetch, if it has room. -/
def Die.headFetch (x : Die) (h : Thread) : Option TFetch :=
  match h.members.head? with
  | some e => if x.headWants h && x.entryFor h e h.next then some { slot := e, block := h.next, gap := false } else none
  | none => none

/-- The next fetch of a gap-filling slot of the thread, if one has room. -/
def Die.gapFetch (x : Die) (th : Nat) (h : Thread) : Option TFetch :=
  ((x.thSlots th).find? fun e => x.gapWants e && decide (x.entriesUsed h e < 4)).bind fun e =>
    (x.tslot e.1 e.2).map fun q => { slot := e, block := q.gapNext, gap := true }

/-- The slots with a due fetch that waits for a free entry (R161). -/
def Die.leadWaits (x : Die) (th : Nat) (h : Thread) : List (Nat × Nat) :=
  ((h.members.take 1).filter fun e => x.headWants h && !(x.entryFor h e h.next)) ++
    (x.thSlots th).filter fun e => x.gapWants e && !(decide (x.entriesUsed h e < 4))

/-- The position that a stream bursts from (R155): of a thread's stream that of its oldest fetch. -/
def Die.streamRun (x : Die) (q : Stream) : Option SRun :=
  match q.thread with
  | none => q.cur
  | some th => (tfind x.threads th).bind fun h => h.fetch.head?.bind fun f => (h.block f.block).map fun k =>
      { desc := k.desc, row := k.row, col := h.part.length / 64, finished := false, status := .ok }

/-- A record is whole in the slot it was fetched for (R143, R146, R161): the head's goes on down the chain, a gap-filling slot's
is its own. -/
def Die.deliverBlock (x : Die) (th : Nat) (f : TFetch) (t : TEntry) : Die :=
  let u := slotUnit f.slot.1 f.slot.2
  let y := x.modTSlot f.slot.1 f.slot.2 fun q =>
    { q with entries := q.entries ++ [{ t with own := f.gap, forwarded := f.gap }] }
  ((y.count thFetched u 1).count thGapBlocks u (b2n f.gap)).pump th

end Sys2Proof.Machine
end

