-- ==== Sys2Proof/Machine/NetOps.lean ====
section
/-! DEFINITION. The networks (chapter 12): routers, routes and their checks, interfaces, probes; and the return of a unit to
service (R448), which an epoch flip brings about. -/

namespace Sys2Proof.Machine

/-! ## Topology (R300 to R302) -/

/-- A router: tile router (x, y) of region k, or die router k (then x, y are 0). -/
structure Spot where
  die  : Nat
  k    : Nat
  tile : Bool
  x    : Nat
  y    : Nat
  deriving DecidableEq, Repr

/-- The router of a number (`Die.router`). -/
def spotOf (d k : Nat) : Spot :=
  if k < 128 then { die := d, k := k / 16, tile := true, x := k % 4, y := k % 16 / 4 }
  else { die := d, k := k - 128, tile := false, x := 0, y := 0 }

/-- A router's number on its die. -/
def Spot.no (p : Spot) : Nat := if p.tile then 16 * p.k + 4 * p.y + p.x else 128 + p.k

/-- The router exists. -/
def routerOn (k : Nat) : Bool := (decide (k < 128) && decide (k % 16 < 12)) || (decide (128 ≤ k) && decide (k < 136))

/-- A router's unit kind and number (Table 18-6). -/
def routerUnit (k : Nat) : Nat × Nat := if k < 128 then (7, k) else (8, k - 128)

/-- The node on a local port of a tile router (Table 12-1). -/
def localNode (x y port : Nat) : Option Nat :=
  if port = 4 then (if y = 0 then some x else if y = 1 then some (12 + x) else some (4 + x))
  else if y = 0 then some (8 + x)
  else if y = 1 then (if x = 0 then some 16 else if x = 2 then some 18 else if x = 3 then some 17 else none)
  else if x = 3 then some 19 else none

/-- The router an endpoint stands at: its tile router, or the die router of the hub port it names (R301). -/
def nodeSpot (id : Nat) : Spot :=
  let d := id / 256
  let r := id / 32 % 8
  let n := id % 32
  let t (x y : Nat) : Spot := { die := d, k := r, tile := true, x := x, y := y }
  if n < 4 then t n 0 else if n < 8 then t (n - 4) 2 else if n < 12 then t (n - 8) 0 else if n < 16 then t (n - 12) 1
  else if n = 16 then t 0 1 else if n = 17 then t 3 1 else if n = 18 then t 2 1 else if n = 19 then t 3 2
  else { die := d, k := r, tile := false, x := 0, y := 0 }

/-- The endpoint exists (R301). -/
def State.endpoint (s : State) (id : Nat) : Bool := decide (id / 256 < s.dieCount) && unitOn (id / 256) 9 id

/-- The router next to die router k in a direction (0 north, 1 east, 2 south, 3 west; R302). -/
def State.hubNext (s : State) (d k dir : Nat) : Option (Nat × Nat) :=
  let c := s.part.variant.cols
  let n := s.dieCount
  if dir = 0 then (if 4 ≤ k then some (d, k - 4) else if c ≤ d then some (d - c, k + 4) else none)
  else if dir = 2 then (if k < 4 then some (d, k + 4) else if d + c < n then some (d + c, k - 4) else none)
  else if dir = 1 then
    (if k % 4 < 3 then some (d, k + 1) else if d % c + 1 < c ∧ d + 1 < n then some (d + 1, k - 3) else none)
  else (if 0 < k % 4 then some (d, k - 1) else if 0 < d % c then some (d - 1, k + 3) else none)

/-- Modules of a crossing in a direction: 0 and 1 east or west, 2 north or south (log entry 30). -/
def crossModules (dir : Nat) : List Nat := if dir % 2 = 1 then [0, 1] else [2]

/-- A module works at both of its ends. -/
def State.moduleUp (s : State) (d k e j m : Nat) : Bool :=
  !((s.die d).ucieOut.contains (4 * k + m)) && !((s.die e).ucieOut.contains (4 * j + m))

/-- The link between two neighbouring die routers is there: within a die, or by a module that works (R316). -/
def State.linkUp (s : State) (d k e j dir : Nat) : Bool :=
  decide (d = e) || (crossModules dir).any fun m => s.moduleUp d k e j m

/-- Where a packet goes from a router by a port. -/
inductive Hop
  | go (p : Spot)
  | arrive (id : Nat)
  deriving DecidableEq, Repr

/-- A hop by port code (R310); `none` where the port leads nowhere. `dst` tells which hub unit a hub port reaches. -/
def State.hop (s : State) (p : Spot) (port dst : Nat) : Option Hop :=
  if p.tile then
    if port = 0 then (if 0 < p.y then some (.go { p with y := p.y - 1 }) else none)
    else if port = 1 then (if p.x < 3 then some (.go { p with x := p.x + 1 }) else none)
    else if port = 2 then (if p.y < 2 then some (.go { p with y := p.y + 1 }) else none)
    else if port = 3 then (if 0 < p.x then some (.go { p with x := p.x - 1 }) else none)
    else if port = 6 then
      (if p.x = 1 ∧ p.y = 1 then some (.go { die := p.die, k := p.k, tile := false, x := 0, y := 0 }) else none)
    else if port = 7 then none
    else (localNode p.x p.y port).map fun n => .arrive (256 * p.die + 32 * p.k + n)
  else if port < 4 then
    match s.hubNext p.die p.k port with
    | some (e, j) => if s.linkUp p.die p.k e j port then some (.go { die := e, k := j, tile := false, x := 0, y := 0 }) else none
    | none => none
  else if port = 4 then some (.go { die := p.die, k := p.k, tile := true, x := 1, y := 1 })
  else if port = 5 then
    (if dst / 256 = p.die ∧ dst / 32 % 8 = p.k ∧ 24 ≤ dst % 32 then some (.arrive dst) else none)
  else none

/-! ## Routes (R310 to R312) -/

/-- Entry `e` of a route: port and count. -/
def turnAt (t : BitVec 96) (e : Nat) : Nat × Nat :=
  ((t.extractLsb' (6 * e + 3) 3).toNat, (t.extractLsb' (6 * e) 3).toNat + 1)

/-- The ports of a route in order, with nothing but 0x38 after the first end; `none` where ports 4 to 6 carry a count. -/
def routePorts (t : BitVec 96) : Option (List Nat) :=
  let es := (List.range 16).map (turnAt t)
  let used := es.takeWhile fun e => e.1 != 7
  let rest := es.drop used.length
  if (rest.all fun e => e == (7, 1)) && used.all fun e => decide (e.1 < 4) || e.2 == 1 then
    some (used.flatMap fun e => List.replicate e.2 e.1)
  else none

/-- The opposite direction. -/
def opposite (a b : Nat) : Bool := decide (a < 4) && decide (b < 4) && decide (a ≠ b) && decide (a % 2 = b % 2)

/-- A router of the package that is not fenced. -/
def State.routerOk (s : State) (p : Spot) : Bool :=
  let u := routerUnit p.no
  !((s.die p.die).isFenced u.1 u.2)

/-- A route walked from a router: levels, west first, bounds, health and end (R312). `seen` holds the routers visited, `mesh`
the directions taken in the present stretch, `ups` and `downs` the entries between levels so far. -/
def State.walk (s : State) (dst : Nat) : List Nat → Spot → List Spot → List Nat → Nat → Nat → Bool
  | [], _, _, _, _, _ => false
  | port :: r, p, seen, mesh, ups, downs =>
    s.routerOk p &&
    match s.hop p port dst with
    | none => false
    | some (.arrive id) => r.isEmpty && id == dst
    | some (.go q) =>
      !(seen.contains q) &&
      (if port < 4 then
        (port != 3 || mesh.all fun m => m == 3) && !(mesh.any fun m => opposite m port) &&
          s.walk dst r q (q :: seen) (port :: mesh) ups downs
      else if port = 6 then ups == 0 && downs == 0 && s.walk dst r q (q :: seen) [] 1 downs
      else downs == 0 && !((s.die q.die).region q.k).isolated && s.walk dst r q (q :: seen) [] ups 1)

/-- A route that R312 allows from one endpoint to another. -/
def State.routeOk (s : State) (src dst : Nat) (t : BitVec 96) : Bool :=
  match routePorts t with
  | none => false
  | some l => s.walk dst l (nodeSpot src) [nodeSpot src] [] 0 0

/-- The routers a route passes. -/
def State.visits (s : State) (dst : Nat) : List Nat → Spot → List Spot
  | [], p => [p]
  | port :: r, p =>
    match s.hop p port dst with
    | some (.go q) => p :: s.visits dst r q
    | some (.arrive _) => [p]
    | none => [p]

/-- The active bank of an interface. -/
def Iface.active (f : Iface) (epoch : Bool) : Tbl (BitVec 96) := if epoch then f.bank1 else f.bank0

/-- Some valid route in an active bank of the package passes the router. -/
def State.routeThrough (s : State) (p : Spot) : Bool :=
  s.usableDies.any fun d =>
    let x := s.die d
    x.ifaces.any fun f => (f.2.active x.epoch).any fun e =>
      match routePorts e.2 with
      | some l => (s.visits e.1 l (nodeSpot (256 * d + f.1))).contains p
      | none => false

/-! ## Headers (R306, Table 12-4) -/

/-- Header bits 0 to 183. -/
def NetPkt_body (q : NetPkt) : BitVec 184 :=
  q.ptr ++ q.txn ++ BitVec.ofBool q.lane ++ BitVec.ofBool q.epoch ++ q.len ++ q.opcode ++ q.cls ++ q.dst ++ q.src ++
    (0 : BitVec 20) ++ q.turns

/-- `hpar`: bit p is the even parity of the bits i with i mod 8 = p. -/
def hparOf (q : NetPkt) : BitVec 8 :=
  (List.range 23).foldl (fun a i => a ^^^ (NetPkt_body q).extractLsb' (8 * i) 8) 0

/-- The packet as the router sends it on (R307, R310): the entry's count goes down, or `ptr` advances; lane 1 after a down
port; `hpar` is made anew. -/
def sentOn (q : NetPkt) (down : Bool) : NetPkt :=
  let e := q.ptr.toNat
  let n := (turnAt q.turns e).2
  let q1 : NetPkt :=
    if n ≤ 1 then { q with ptr := q.ptr + 1 } else { q with turns := q.turns - (1 : BitVec 96) <<< (6 * e) }
  let q2 : NetPkt := { q1 with lane := q1.lane || down }
  { q2 with hpar := hparOf q2 }

/-! ## Probes (R323 to R325) -/

/-- A masked field matches. -/
def maskEq {n : Nat} (a v m : BitVec n) : Bool := (a ^^^ v) &&& m == 0

/-- A probe's filter matches a packet that leaves by a port. -/
def probeHit (f : ProbeFilter) (q : NetPkt) (port : Nat) : Bool :=
  f.ports.getLsbD port && f.clsMask.getLsbD q.cls.toNat && f.vcMask.getLsbD q.vc.toNat &&
    maskEq (q.src.zeroExtend 16) f.src f.srcMask && maskEq (q.dst.zeroExtend 16) f.dst f.dstMask &&
    maskEq q.opcode f.op f.opMask

/-- A trace record is written, or lost to a full buffer: with `wrap` the oldest gives way (R324). -/
def Die.addTrace (x : Die) (wrap : Bool) (r : TraceRec) : Die :=
  if x.trace.length < 131072 then { x with trace := x.trace ++ [r] }
  else if wrap then { x with trace := x.trace.drop 1 ++ [r], traceLost := x.traceLost + 1 }
  else { x with traceLost := x.traceLost + 1 }

/-- One probe sees a packet leave. -/
def Die.probeSees (x : Die) (rt n : Nat) (q : NetPkt) (port : Nat) : Die :=
  let b := x.probe (ProbeKey rt n)
  if b.running && probeHit b.filter q port then
    let y := x.modProbe (ProbeKey rt n) fun b => { b with pkts := b.pkts + 1, flits := b.flits + q.len.toNat }
    if b.filter.trace then
      y.addTrace b.filter.wrap { time := x.led.cycN.toNat, router := rt, port := port, probe := n, pkt := q }
    else y
  else x

/-- A packet leaves router `rt` by a port: its flits are counted, its probes look. -/
def Die.leaves (x : Die) (rt : Nat) (q : NetPkt) (port : Nat) : Die :=
  (((x.countRT rtFlits rt q.len.toNat).probeSees rt 0 q port).probeSees rt 1 q port)

/-! ## Interfaces and transactions (R308, R309) -/


/-- A knot operation that is lost: the first on its way to the die, and with it the knot's entry (R309, R207; log entry 31). -/
def State.loseKnotOp (s : State) (d : Nat) : State :=
  match (s.die d).knotNet with
  | [] => s
  | o :: r =>
    let k := match o with
      | .add k _ => k
      | .untie k => k
    let s1 := s.modDie d fun x => { x with knotNet := r }
    if ((s1.die d).knot k).tied then s1.untie d k else s1

/-- A transaction ends; `fenced`: with UNIT_FENCED (R309). -/
def State.endTxn (s : State) (d node txn : Nat) (fenced : Bool) : State :=
  match tfind ((s.die d).iface node).txns txn with
  | none => s
  | some (op, dst) =>
    let s1 := s.modDie d fun x => x.modIface node fun f =>
      { f with txns := tdel f.txns txn, ended := if fenced then txn :: f.ended else f.ended }
    if fenced && op == 0x30 then s1.loseKnotOp (dst / 256) else s1

/-- A NACK for a request reaches its source's interface (R308, R318; log entry 31). -/
def State.nack (s : State) (q : NetPkt) : State :=
  let n : NetPkt := { q with
    opcode := 0x7F, vc := 1, src := q.dst, dst := q.src, len := 1, lane := true, ptr := 15, turns := BitVec.allOnes 96, ctlOk := true }
  let n1 : NetPkt := { n with hpar := hparOf n }
  s.modDie (q.src.toNat / 256) fun x => x.modIface (q.src.toNat % 256) fun f => { f with inbox := f.inbox ++ [n1] }

/-- The latency bin of a completed transaction (R326): the time that passed is no part of the state (log entry 10). -/
def niLatBin (b : Nat) : Ctr := ⟨9, 4 + b % 16, true⟩

/-! ## Forwarding (R305 to R310, R317, R318, R320) -/

/-- The region of a tile router sees packets: it is powered, its gate open. -/
def State.tileNetUp (s : State) (d r : Nat) : Bool :=
  let g := (s.die d).region r
  match g.power with
  | .awake => true
  | .draining => !g.gated
  | .asleep => false
  | .waking => false

/-- The input port that a packet sent out on `port` enters by: the facing mesh port, the down port from the region, the up port
from the die router. -/
def inPort (port : Nat) : Nat := if port < 4 then (port + 2) % 4 else if port = 6 then 4 else 6

/-- A packet enters the next router by an input port. -/
def State.enterRouter (s : State) (p : Spot) (i : Nat) (q : NetPkt) : State :=
  s.modDie p.die fun x => x.modRouter p.no fun r => { r with inbox := r.inbox ++ [(i, q)] }

/-! ## Arbitration (R24, R305) -/

/-- The order of the channels at an output port: management, response, weight thread, request. -/
def chanRank (vc : BitVec 2) : Nat := if vc = 3 then 0 else if vc = 0 then 3 else vc.toNat

/-- The key of a requester of an output port. -/
def arbKey (e : Nat × NetPkt) : Nat := 8 * e.2.vc.toNat + e.1

/-- The place of an input port in the round-robin. -/
def PortArb.turn (a : PortArb) (i : Nat) : Nat :=
  match a.order.findIdx? (· == i) with
  | some k => k + 1
  | none => 0

/-- The packet that an output port grants (R305): of a channel that 64 flits in a row have passed over, else of the first channel
in order; among the packets of one channel by R24. -/
def PortArb.pick (a : PortArb) (l : List (Nat × NetPkt)) : Option (Nat × NetPkt) :=
  let late := l.filter fun e => decide (64 ≤ tget a.starved e.2.vc.toNat 0)
  match argmin (fun e => chanRank e.2.vc) (if late.isEmpty then l else late) with
  | none => none
  | some c => grantPick (fun e => e.2.cls.toNat) (fun e => tget a.waited (arbKey e) 0) (fun e => a.turn e.1)
      (l.filter fun e => e.2.vc == c.2.vc)

/-- What the port remembers after a grant to `g`, with `l` the packets that asked. -/
def PortArb.after (a : PortArb) (g : Nat × NetPkt) (l : List (Nat × NetPkt)) : PortArb :=
  let rest := l.filter fun e => e != g
  { starved := (rest.filter fun e => e.2.vc != g.2.vc).foldl
      (fun t e => tput t e.2.vc.toNat (tget a.starved e.2.vc.toNat 0 + g.2.len.toNat)) []
    waited := (rest.filter fun e => e.2.vc == g.2.vc).foldl
      (fun t e => tput t (arbKey e) (waitCount e.2.cls.toNat g.2.cls.toNat (tget a.waited (arbKey e) 0))) (tdel a.waited (arbKey g))
    order := a.order.filter (· != g.1) ++ [g.1] }

/-- Flits of a channel in the wake buffer of die router `k`. -/
def Die.wakeFlits (x : Die) (k : Nat) (vc : BitVec 2) : Nat :=
  let r := x.router (128 + k)
  ((r.wakeBuf.filter fun q => q.vc == vc).map fun q => q.len.toNat).sum +
    (if vc = 0 then (r.wakeReq.map WReq.flits).sum else 0) +
    (if vc = 2 then ((x.wakeBlks k).map TEntry.flits).sum else 0)

/-- DRk has a packet for its region: NACK or discard at an isolated boundary, the wake buffer behind a closed port, a power-down
cancelled before its gate point. -/
def State.goDown (s : State) (p q : Spot) (k : NetPkt) : State :=
  let g := (s.die p.die).region p.k
  if g.isolated then
    if k.vc = 0 then s.nack k else s.modDie p.die fun x => x.countRT rtIsoDiscards p.no 1
  else if !(s.tileNetUp p.die p.k) then
    s.modDie p.die fun x => (x.modRouter p.no fun r => { r with wakeBuf := r.wakeBuf ++ [k] }).countRT rtWakeHolds p.no 1
  else
    let s1 := s.modDie p.die fun x => x.modRegion p.k Region.stay
    let k1 := sentOn k true
    (s1.modDie p.die fun x => x.leaves p.no k1 4).enterRouter q (inPort 4) k1

/-- A checked packet is forwarded by its current entry. -/
def State.sendOn (s : State) (p : Spot) (k : NetPkt) (h : Hop) : State :=
  let port := (turnAt k.turns k.ptr.toNat).1
  match h with
  | .arrive id =>
    let k1 := sentOn k false
    (s.modDie p.die fun x => x.leaves p.no k1 port).modDie p.die fun x =>
      x.modIface (id % 256) fun f => { f with inbox := f.inbox ++ [k1] }
  | .go q =>
    if !p.tile && q.tile then s.goDown p q k
    else if p.tile && !q.tile && ((s.die p.die).region p.k).isolated then
      s.modDie p.die fun x => x.countRT rtIsoDiscards q.no 1
    else
      let k1 := sentOn k false
      (s.modDie p.die fun x => x.leaves p.no k1 port).enterRouter q (inPort port) k1

/-- A packet fails its parity checks: discarded, counted, reported with its header (R307, Table 18-7). -/
def State.parityDiscard (s : State) (p : Spot) (k : NetPkt) : State :=
  let u := routerUnit p.no
  let n := (s.die p.die).errIn (unitKey u.1 u.2) nclkHour
  (s.modDie p.die fun x => (x.modRouter p.no fun r => { r with discards := r.discards ++ [k] }).countRT rtHdrParity p.no 1).corrected
    p.die u.1 u.2 1 (n + 1) none (if p.tile then some p.k else none)

/-- The wake buffer has no room for a packet: it waits where it stands (R321). -/
def State.wakeFull (s : State) (p : Spot) (k : NetPkt) (h : Hop) : Bool :=
  match h with
  | .arrive _ => false
  | .go q => !p.tile && q.tile && !((s.die p.die).region p.k).isolated && !(s.tileNetUp p.die p.k) &&
      decide (64 < (s.die p.die).wakeFlits p.k k.vc + k.len.toNat)

/-- Flits that an input port of a router holds per channel and lane (R305). -/
def Spot.depth (p : Spot) : Nat := if p.tile then 8 else 16

/-- The next router has no space at the input port, channel and lane that a packet would enter by: flits move only against credits
(R305). A packet whose head finds a place moves on whole (log entry 75). -/
def State.nextFull (s : State) (p : Spot) (k : NetPkt) (h : Hop) : Bool :=
  match h with
  | .arrive _ => false
  | .go q =>
    let i := inPort (turnAt k.turns k.ptr.toNat).1
    let lane := k.lane || (!p.tile && q.tile)
    decide (q.depth ≤ ((((s.die q.die).router q.no).inbox.filter fun e =>
      e.1 == i && e.2.vc == k.vc && e.2.lane == lane).map fun e => e.2.len.toNat).sum)

/-! ## Return to service (R443, R446, R448) -/

/-- The reply of a TEST_RUN (R446): result code and rate code. -/
def State.testReply (s : State) (p : Pkt) (result rate : Nat) : State :=
  s.finish 0x0710 p .ok 0 (le 1 result ++ le 1 rate ++ zeros 2) []

/-- The endpoints that a tile router connects, as units (Table 12-1, R317). -/
def routerUnits (p : Spot) : List (Nat × Nat) :=
  let at_ (port : Nat) : List (Nat × Nat) :=
    match localNode p.x p.y port with
    | none => []
    | some n =>
      if n < 8 then [(1, 8 * p.k + n)]
      else if n < 12 then [(3, 4 * p.k + (n - 8))]
      else if n < 16 then [(5, 4 * p.k + (n - 12)), (4, 8 * p.k + 2 * (n - 12)), (4, 8 * p.k + 2 * (n - 12) + 1)]
      else if n < 18 then [(6, 2 * p.k + (n - 16)), (4, 64 + 2 * p.k + (n - 16))]
      else if n = 18 then [(10, p.k)] else []
  if p.tile then at_ 4 ++ at_ 5 else []

/-- The router is its region's only way to the other networks: router (1,1), and the die router behind its up port (R300, R302). -/
def Spot.gate (p : Spot) : Bool := !p.tile || (p.x == 1 && p.y == 1)

/-- An error of a region's gate cuts the whole region off, which no block of the region can contain: the region is isolated (R23;
log entry 75). A test that was asked for is no error. -/
def State.gateError (s : State) (p : Spot) (cause : Nat) : State :=
  if p.gate && cause != 5 then
    s.isolate p.die p.k cause (if p.tile then blockBit p.k 7 p.no else 0) false
  else s

/-- A router is fenced, and with a tile router the units it connects (R317). -/
def State.fenceRouter (s : State) (p : Spot) (cause : Nat) : State :=
  let u := routerUnit p.no
  let s1 := s.fence p.die u.1 u.2 cause (if p.tile then some p.k else none)
  ((routerUnits p).foldl (fun s v =>
    if v.1 = 1 then s.fenceTile p.die .matrix v.2 cause
    else if v.1 = 3 then s.fenceTile p.die .vector v.2 cause
    else if v.1 = 4 then (s.fence p.die 4 v.2 cause (some p.k)).modDie p.die fun x => x.answerFenced p.die v.2
    else s.fence p.die v.1 v.2 cause (some p.k)) s1).gateError p cause

/-- A tested unit of die `d` is back in service: its fence is gone, with a router those of its units, with a matrix tile those of its arrays, UNIT_RETURNED and the
TEST_RUN's reply go out. A unit that passed no test stays fenced. -/
def State.returnUnit (s : State) (d kind number : Nat) : State :=
  let unit := ctrUnit kind number
  let key := unitKey kind unit
  match tfind (s.die d).tests key with
  | none => s
  | some t =>
    if !t.passed then s
    else
      let s1 := s.modDie d fun x => { x with tests := tdel x.tests key, errs := tdel x.errs key }
      let s2 := s1.unfence d kind unit (unitRegion kind unit)
      let s3 := if kind = 7 then
          (routerUnits (spotOf d unit)).foldl (fun s v => s.unfence d v.1 v.2 (some (unit / 16))) s2
        else if kind = 1 then
          ([2 * unit, 2 * unit + 1].filter fun a => (s2.die d).isFenced 2 a).foldl (fun s a => s.unfence d 2 a (some (unit / 8))) s2
        else s2
      (s3.modDie d fun x =>
        if kind = 1 then x.modOcc .matrix unit fun o => { o with drain := false }
        else if kind = 3 then x.modOcc .vector unit fun o => { o with drain := false } else x).testReply t.pkt 0 0

/-- A Felt port that is back in service trains again if it is enabled (R372). -/
def State.returnPort (s : State) (d p : Nat) : State :=
  if (s.die d).feltEnable p && ((s.die d).felt p).st == .down && !((s.die d).isFenced 10 p) then s.linkDetect d p false else s

end Sys2Proof.Machine
end

