-- ==== Sys2Proof/Machine/DispatchOps.lean ====
section
/-! DEFINITION. Admission of a step: its sheets (R47, R55), its sheet lists (R467), its commit and rollback (R37, R54),
what it binds (R141, R149, R152). -/

namespace Sys2Proof.Machine

/-! ## Sheets at admission (R55) -/

/-- A frame of HBM3E: by R47 in the list of the sequence's spread, else anywhere on the die (R55, sources 1 and 2). -/
def State.hbmFrame (s : State) (d : Nat) (e : Ream) : Option Loc :=
  let (r, sp, i) := s.spreadOf e
  let x := s.die d
  match x.placeSheet false sp r i 0 with
  | some cf => some (locOf cf.1 cf.2)
  | none => (x.placeFrame (chanList false true r) i).map fun cf => locOf cf.1 cf.2

/-- SUSPENDED sequences homed on a die, least recently stepped first. -/
def State.coldSeqs (s : State) (d : Nat) : List Nat :=
  let l := (s.seqsOn d).filter fun e => e.2.st == .suspended
  (sortBy (fun e => e.2.stepped) l).map (·.1)

/-- Unpinned HBM3E sheets of a sequence that the mover may copy, in the order they are demoted: ascending handle (DESIGN CHOICE, log
entry 35: R55 orders the sequences only). -/
def State.demotable (s : State) (d n : Nat) : List Nat :=
  (((s.die d).seqEntries n).filter fun e => !e.2.loc.tier && !e.2.pin && s.movable d e.1).map (·.1)

/-- One sheet of a SUSPENDED sequence is demoted to a free LPDDR5X frame (R55, source 3). -/
def State.demoteOne (s : State) (d : Nat) : Option State :=
  (s.coldSeqs d).findSome? fun n =>
    (s.demotable d n).findSome? fun h =>
      (s.placeFor d ((s.die d).entry h) true fun _ _ => true).map fun l => s.moveSheet d h l

/-- A free LPDDR5X frame by R47 (R55, source 4). -/
def State.lpFrame (s : State) (d : Nat) (e : Ream) : Option Loc :=
  let (r, sp, i) := s.spreadOf e
  ((s.die d).placeSheet true sp r i 0).map fun cf => locOf cf.1 cf.2

/-- Class 2 sheets of a sequence. -/
def Die.class2 (x : Die) (n : Nat) : List Nat :=
  ((x.seqEntries n).filter fun e => e.2.cls == 2 && (e.2.st == .tail || e.2.st == .full || e.2.st == .moving)).map (·.1)

/-- Every class 2 sheet of one SUSPENDED sequence is dropped (R55, source 5). -/
def State.dropOne (s : State) (d : Nat) : Option State :=
  match (s.coldSeqs d).find? fun n => !((s.die d).class2 n).isEmpty with
  | some n => some (s.markGone d ((s.die d).class2 n) .dropped false)
  | none => none

/-- A frame for a new sheet by the sources of R55, with what finding it did. -/
def State.findFrame (d : Nat) (e : Ream) : Nat → State → Option (State × Loc)
  | 0, _ => none
  | fuel + 1, s =>
    match s.hbmFrame d e with
    | some l => some (s, l)
    | none =>
      match s.demoteOne d with
      | some s1 => State.findFrame d e fuel s1
      | none =>
        match s.lpFrame d e with
        | some l => some (s, l)
        | none =>
          match s.dropOne d with
          | some s1 => State.findFrame d e fuel s1
          | none => none

/-- The entry of sheet `j` of a layer of a sequence, before it has a frame. -/
def freshSheet (q : Sequence) (m : Model) (n ly j slot : Nat) : Ream :=
  { st := .tail, cls := q.cls, fmt := m.fmt, tenant := q.tenant, seq := n, layer := ly, first := j * m.span, loc := Loc.zero,
    slot := slot, tok := 0, acc := 0, pin := false }

/-- One new tail for a sequence (Table 2-9): the lowest handle, a frame, the entry, firmware's record. -/
def State.takeSheet (s : State) (q : Sequence) (m : Model) (n ly j : Nat) : Option (State × Nat) :=
  let d := seqDie n
  let e := freshSheet q m n ly j (((s.die d).tenantSlot q.tenant).getD 0)
  match State.findFrame d e (s.seqs.length + (s.die d).ream.length + 1) s with
  | none => none
  | some (s1, l) =>
    match (s1.die d).newHandle with
    | none => none
    | some h =>
      some ((s1.modDie d fun x => x.setEntry h { e with loc := l }).modSeq n fun q =>
        { q with sheets := q.sheets ++ [{ handle := h, layer := ly, index := j }] }, h)

/-- The sheet indices that a step of `t` tokens from position `pos` newly needs in a layer. -/
def newSheets (span pos t : Nat) : List Nat :=
  (List.range (ceilDiv (pos + t) span - ceilDiv pos span)).map fun i => ceilDiv pos span + i

/-- The sheet with room that a layer has, with its count. -/
def Die.tailOf (x : Die) (n ly span : Nat) : List (Nat × Nat × Bool) :=
  ((x.seqEntries n).filter fun e =>
    e.2.layer == ly && (e.2.st == .tail || (e.2.st == .moving && decide (e.2.tok < span)))).map fun e => (e.1, e.2.tok, false)

/-- Sheets for one layer of an entry, added to its record of tails. -/
def State.takeLayer (q : Sequence) (m : Model) (n ly : Nat) : List Nat → State × List (Nat × Nat × Bool) →
    Option (State × List (Nat × Nat × Bool))
  | [], p => some p
  | j :: r, (s, l) =>
    match s.takeSheet q m n ly j with
    | none => none
    | some (s1, h) => State.takeLayer q m n ly r (s1, l ++ [(h, 0, true)])

/-- Sheets for every layer of an entry: the tails it will touch, in order. -/
def State.takeLayers (q : Sequence) (m : Model) (n t : Nat) : List Nat → State × List (Nat × Nat × Bool) →
    Option (State × List (Nat × Nat × Bool))
  | [], p => some p
  | ly :: r, (s, l) =>
    match State.takeLayer q m n ly (newSheets m.span q.pos t) (s, l ++ (s.die (seqDie n)).tailOf n ly m.span) with
    | none => none
    | some p => State.takeLayers q m n t r p

/-- Sheets for every entry that is not LOST; the entries as they will run. -/
def State.takeAll (m : Model) : List EntryRun → State → Option (State × List EntryRun)
  | [], s => some (s, [])
  | e :: r, s =>
    if e.status = .ok then
      match s.seq e.seq with
      | none => none
      | some q =>
        match State.takeLayers q m e.seq e.nTok (List.range m.layers) (s, []) with
        | none => none
        | some (s1, l) => (State.takeAll m r s1).map fun p => (p.1, { e with tails := l } :: p.2)
    else (State.takeAll m r s).map fun p => (p.1, e :: p.2)

/-! ## Sheet lists (R135, R467) -/

/-- Entries of a channel: its handles, 1,024 to an entry. -/
def chanEntries (c : Nat) : Nat → List Nat → List (List Nat)
  | 0, _ => []
  | _, [] => []
  | n + 1, hs => ((c + (min 1024 hs.length) * 2 ^ 16) :: hs.take 1024) :: chanEntries c n (hs.drop 1024)

/-- The sheet list of a sequence and layer in words: its tails (log entry 24), then channels rising, handles by `first_tok`. -/
def Die.sheetList (x : Die) (n ly : Nat) (tails : List Nat) : List Nat :=
  let l := (x.seqEntries n).filter fun e => e.2.layer == ly
  let l1 := sortBy (fun e => e.2.first) l
  let es := (List.range 80).flatMap fun c =>
    let hs := (l1.filter fun e => e.2.loc.code == c).map (·.1)
    chanEntries c (hs.length / 1024 + 1) hs
  let t := tails.take 2
  (t.length * 2 ^ 8 + es.length * 2 ^ 16) :: t ++ es.flatten

/-- The sheet lists of an entry. -/
def Die.listsOf (x : Die) (layers : Nat) (e : EntryRun) (t : Tbl (List Nat)) : Tbl (List Nat) :=
  if e.status = .ok then
    (List.range layers).foldl (fun t ly =>
      let tails := (e.tails.filter fun k => (x.entry k.1).layer == ly && (x.entry k.1).st != .full).map (·.1)
      tput t (e.seq * 256 + ly) (x.sheetList e.seq ly tails)) t
  else t

/-- The sheet lists of a step. -/
def State.listsFor (s : State) (layers : Nat) (es : List EntryRun) : Tbl (List Nat) :=
  es.foldl (fun t e => (s.die (seqDie e.seq)).listsOf layers e t) []

/-! ## The contexts of a list (R231, R232) -/

/-- Package-wide numbers of the tenant's contexts of a template, rising. -/
def State.ctxsFrom (s : State) (t inst tmpl : Nat) : List Nat :=
  s.dies.flatMap fun x =>
    (x.2.ctxs.filter fun c => c.2.tenant == t && c.2.model == inst && c.2.tmpl == tmpl).map fun c => ctxNo x.1 c.1

/-- The contexts a list names, with the entries each serves; `none` for an absent one. -/
def State.listCtxs (s : State) (t inst : Nat) (l : DList) (n : Nat) : List (Option (Nat × List Nat)) :=
  l.ctxs.map fun c =>
    ((s.ctxsFrom t inst c.template)[c.index]?).map fun k => (k, c.serves.getD (List.range n))

/-- A context that a dispatch can start: CREATED or FAILED, and off its tile. -/
def State.ctxIdle (s : State) (k : Nat) : Bool :=
  match (s.die (k / 4096)).ctx (k % 4096) with
  | some y => (y.st == .created || y.st == .failed) && y.disp.isNone
  | none => false

/-- Free streams of a die, lowest first (log entry 16). -/
def Die.freeStreams (x : Die) (n : Nat) : List Nat :=
  ((List.range 1024).filter fun i => !(thas x.streams i)).take n

/-- A context's streams are bound. -/
def Die.bindStreams (x : Die) (c n : Nat) : Die :=
  let x0 := match x.ctx c with
    | some y => x.endStreams y
    | none => x
  let l := x0.freeStreams n
  { x0 with streams := (l.mapIdx fun i k => (k, i)).foldl (fun t (e : Nat × Nat) => tput t e.1 (Stream.bound c e.2)) x0.streams }.modCtx c
    fun y => { y with streams := l }

/-- The context becomes READY for dispatch `id` in its class (R192, R232 step 6). -/
def State.startCtx (s : State) (id cls n k : Nat) : State :=
  let d := k / 4096
  let c := k % 4096
  let s1 := s.modDie d fun x => (x.bindStreams c n).modCtx c fun y =>
    { y with cls := cls, disp := some id, image := .none, failSt := .ok, ring := [], ringWait := [], tile := none }
  s1.makeReady d c

/-- Streams of each context of a list, by its template. -/
def streamsOf (b : Bundle) (l : DList) : List Nat := l.ctxs.map fun c => ((b.templates[c.template]?).map (·.streams)).getD 0

/-- A die has streams for all the contexts of a list that start on it, and for its threads' sources. -/
def State.streamsFit (s : State) (cs : List (Nat × List Nat)) (ns : List Nat) (threads : List ThreadShape) : Bool :=
  ((cs.map fun (c : Nat × List Nat) => c.1 / 4096) ++ threads.map (fun (t : ThreadShape) => t.die)).eraseDups.all fun d =>
    let need := ((cs.zip ns).map fun e => if e.1.1 / 4096 = d then e.2 else 0).sum + (threads.filter fun t => t.die == d).length
    decide (need ≤ ((s.die d).freeStreams 1024).length)

/-! ## Threads (R141, R142, R149) -/

/-- The node of an array's tile. -/
def memberNode (d m : Nat) : Nat := 256 * d + 32 * (m / 16) + m / 2 % 8

/-- The ports from one tile router to another of its region, or of another region by the die routers: east or west first, then
north or south (R312). -/
def meshPorts (x y x' y' : Nat) : List Nat :=
  List.replicate (x - x') 3 ++ List.replicate (x' - x) 1 ++ List.replicate (y - y') 0 ++ List.replicate (y' - y) 2

/-- The ports between two endpoints of a die that stand on port 4 of their tile routers. -/
def dieRoute (a b : Nat) : List Nat :=
  let p := nodeSpot a
  let q := nodeSpot b
  if p.k = q.k then meshPorts p.x p.y q.x q.y ++ [4]
  else meshPorts p.x p.y 1 1 ++ [6] ++ meshPorts (p.k % 4) (p.k / 4) (q.k % 4) (q.k / 4) ++ [4] ++ meshPorts 1 1 q.x q.y ++ [4]

/-- The chain is a route that the turn model allows, hop by hop, through routers in service (R141, R312). -/
def State.chainRoute (s : State) (d : Nat) (ms : List Nat) : Bool :=
  (ms.zip (ms.drop 1)).all fun e =>
    let a := memberNode d e.1
    let b := memberNode d e.2
    s.walk b (dieRoute a b) (nodeSpot a) [nodeSpot a] [] 0 0

/-- A thread of a shape can be built: its slots and a thread number are free, its chain is a route. -/
def State.threadFits (s : State) (t : ThreadShape) : Bool :=
  let x := s.die t.die
  t.members.all (fun e => (x.tslot e.1 e.2).isNone && !(x.memberDown e)) && (least 128 fun i => !(thas x.threads i)).isSome &&
    s.chainRoute t.die (t.members.map (·.1))

/-- A source descriptor with the thread that firmware arms it for. -/
def armed (th : Nat) (d : BitVec 512) : BitVec 512 := d ||| BitVec.ofNat 512 (th * 2 ^ 256)

/-- The thread of a shape is built for dispatch `id`, its sources armed on a stream of its own; `c` is the context whose grants they
name. -/
def Die.bindThread (x : Die) (id c : Nat) (t : ThreadShape) : Die :=
  match least 128 fun i => !(thas x.threads i) with
  | none => x
  | some th =>
    let n := ((x.freeStreams 1).head?).getD 0
    let y := t.members.foldl (fun y e => y.setTSlot e.1 e.2 (TSlot.bound th)) x
    let h : Thread := { members := t.members, sources := t.sources.map (armed th), next := 0, ctx := c, transit := [], disp := id,
                        round := tget x.thRounds th 0, stream := n }
    { y with threads := tput y.threads th h, streams := tput y.streams n { Stream.bound c 0 with thread := some th } }

/-- The threads of a dispatch are unbound. -/
def Die.unbindDispatch (x : Die) (id : Nat) : Die :=
  ((x.threads.filter fun e => e.2.disp == id).map (·.1)).foldl (fun x th => x.unbindThread th) x

/-! ## The end of a step (R37, R54, R233) -/

/-- Every layer holds the step's last token. -/
def Die.appended (x : Die) (n pos layers : Nat) : Bool :=
  (List.range layers).all fun ly => (x.seqEntries n).any fun e =>
    e.2.layer == ly && !e.2.gone && decide (e.2.first < pos) && decide (pos ≤ e.2.first + e.2.tok)

/-- R37: a touched tail goes back to its count before the step; one taken at admission is FREE. -/
def State.rollback (s : State) (e : EntryRun) : State :=
  let d := seqDie e.seq
  let back (x : Die) (k : Nat × Nat × Bool) : Die :=
    let f := x.entry k.1
    if f.st = .free ∨ f.seq ≠ e.seq ∨ f.gone = true ∨ f.tok = k.2.1 then x
    else
      let y := x.cancelCopy k.1
      y.setEntry k.1 { y.entry k.1 with st := .tail, tok := k.2.1 }
  let taken := (e.tails.filter fun k => k.2.2 && ((s.die d).entry k.1).seq == e.seq && !((s.die d).entry k.1).gone).map (·.1)
  (s.modDie d fun x => (e.tails.filter fun k => !k.2.2).foldl back x).freeSheets e.seq taken

/-- R54: sheets wholly outside the window and the sinks of their layer are freed. -/
def State.releaseWindow (s : State) (n pos span : Nat) (ls : List LayerWin) : State :=
  let old (e : Ream) : Bool :=
    match ls[e.layer]? with
    | some w => w.window != 0 && decide (e.first + span - 1 + w.window ≤ pos) && decide (w.sinks ≤ e.first)
    | none => false
  s.freeSheets n ((((s.die (seqDie n)).seqEntries n).filter fun e => old e.2).map (·.1))

/-- The step of an entry commits: the position counter advances, die spread may begin (R37, R47). -/
def State.commitEntry (s : State) (m : Model) (e : EntryRun) : State :=
  let s1 := s.modSeq e.seq fun q =>
    { q with pos := q.pos + e.nTok, dieSpread := q.dieSpread || decide (m.thr ≤ q.pos + e.nTok) }
  let pos := ((s1.seq e.seq).map (·.pos)).getD 0
  s1.releaseWindow e.seq pos m.span ((m.bundle.map (·.layers)).getD [])

end Sys2Proof.Machine
end

