-- ==== Sys2Proof/Machine/Flags.lean ====
section
/-! DEFINITION. Arithmetic status: what an operation adds to `fpstat`, `xstat` and the counters (R105, R106, R180). -/

namespace Sys2Proof.Machine

/-- What an operation reports: `fpstat` bits (Table 4-7), `xstat` bits (Table 7-10), binary32 inputs and results flushed,
output elements saturated and lost, output blocks with scale 0xFF, fixed-point narrowings that saturated. -/
structure Ev where
  fp    : Nat
  xs    : Nat
  flush : Nat
  sat   : Nat
  loss  : Nat
  nanb  : Nat
  vsat  : Nat
  deriving DecidableEq, Repr

/-- Nothing to report. -/
def Ev.none : Ev := { fp := 0, xs := 0, flush := 0, sat := 0, loss := 0, nanb := 0, vsat := 0 }

/-- Both reports: status bits are sticky, counts add. -/
def Ev.join (a b : Ev) : Ev :=
  { fp := Nat.lor a.fp b.fp, xs := Nat.lor a.xs b.xs, flush := a.flush + b.flush, sat := a.sat + b.sat,
    loss := a.loss + b.loss, nanb := a.nanb + b.nanb, vsat := a.vsat + b.vsat }

/-- The reports of a list. -/
def Ev.all (l : List Ev) : Ev := l.foldl Ev.join Ev.none

/-! ## `fpstat` bits (Table 4-7) -/

/-- INVALID. -/
def fpInvalid : Nat := 1
/-- NAN_MET. -/
def fpNan : Nat := 2
/-- OVERFLOW. -/
def fpOverflow : Nat := 4
/-- FLUSH. -/
def fpFlush : Nat := 8
/-- LOSS. -/
def fpLoss : Nat := 16

/-! ## `xstat` bits (Table 7-10) -/

/-- SAT. -/
def xsSat : Nat := 1
/-- WRAP. -/
def xsWrap : Nat := 2
/-- ACC_WRAP. -/
def xsAccWrap : Nat := 4
/-- PTR_WRAP. -/
def xsPtrWrap : Nat := 8

/-- A NaN operand met or a NaN delivered. -/
def Ev.nan : Ev := { Ev.none with fp := fpNan }
/-- A NaN made of operands that are none. -/
def Ev.invalid : Ev := { Ev.none with fp := fpNan + fpInvalid }
/-- A NaN converted to an integer (R104). -/
def Ev.nanToInt : Ev := { Ev.none with fp := fpNan + fpInvalid }
/-- One binary32 input or result flushed (R99). -/
def Ev.flushed : Ev := { Ev.none with fp := fpFlush, flush := 1 }
/-- An output element saturated (R102 to R104). -/
def Ev.saturated : Ev := { Ev.none with fp := fpOverflow, sat := 1 }
/-- An infinity from a finite value. -/
def Ev.overflow : Ev := { Ev.none with fp := fpOverflow }
/-- A nonzero value became zero (R102, R103). -/
def Ev.lost : Ev := { Ev.none with fp := fpLoss, loss := 1 }
/-- An output block written with scale 0xFF (R103). -/
def Ev.nanBlock : Ev := { Ev.none with fp := fpNan, nanb := 1 }
/-- A fixed-point narrowing saturated (R173). -/
def Ev.fixSat : Ev := { Ev.none with xs := xsSat, vsat := 1 }
/-- A fixed-point narrowing kept the low bits of a value out of range (R173). -/
def Ev.fixWrap : Ev := { Ev.none with xs := xsWrap }
/-- An accumulator sum wrapped (R172). -/
def Ev.accWrap : Ev := { Ev.none with xs := xsAccWrap }

end Sys2Proof.Machine
end

