-- ==== Sys2Proof/Machine/Num.lean ====
section
/-! DEFINITION. Number formats and exact arithmetic (chapter 4). -/

namespace Sys2Proof.Machine

/-! ## Rounding (R100) -/

/-- The number of bits of `m`. -/
def bitLen (m : Nat) : Nat := if m = 0 then 0 else Nat.log2 m + 1

/-- m ÷ 2^k rounded to nearest, ties to even. -/
def rneShr (m k : Nat) : Nat :=
  let q := m / 2 ^ k
  let r := 2 * (m % 2 ^ k)
  if r < 2 ^ k then q else if 2 ^ k < r then q + 1 else q + q % 2

/-- The rounding of a signed integer ÷ 2^k. -/
def rneShrInt (x : Int) (k : Nat) : Int := if x < 0 then -(rneShr x.natAbs k : Int) else (rneShr x.natAbs k : Int)

/-- m × 2^e rounded to `p` significand bits, its last bit at 2^`emin` or above. -/
def roundSig (p : Nat) (emin : Int) (m : Nat) (e : Int) : Nat × Int :=
  let k := max (e + bitLen m - p) emin - e
  if k ≤ 0 then (m, e) else (rneShr m k.toNat, e + k)

/-- m × 2^e rounded to `p` significand bits, whatever its exponent. -/
def roundWide (p : Nat) (m : Nat) (e : Int) : Nat × Int :=
  let k := bitLen m - p
  if k = 0 then (m, e) else (rneShr m k, e + k)

/-! ## Exact operations -/

/-- +0. -/
def Num.zero : Num := .fin false 0 0

/-- A value is NaN. -/
def Num.isNan : Num → Bool
  | .nan => true
  | .inf _ => false
  | .fin _ _ _ => false

/-- A value is an infinity. -/
def Num.isInf : Num → Bool
  | .nan => false
  | .inf _ => true
  | .fin _ _ _ => false

/-- A value is a zero of either sign. -/
def Num.isZero : Num → Bool
  | .fin _ m _ => m == 0
  | .inf _ => false
  | .nan => false

/-- −x. -/
def Num.neg : Num → Num
  | .fin s m e => .fin (!s) m e
  | .inf s => .inf (!s)
  | .nan => .nan

/-- An integer × 2^e; zero is +0. -/
def Num.ofInt (k : Int) (e : Int) : Num := .fin (decide (k < 0)) k.natAbs e

/-- x × 2^k. -/
def Num.scale (x : Num) (k : Int) : Num :=
  match x with
  | .fin s m e => .fin s m (e + k)
  | .inf s => .inf s
  | .nan => .nan

/-- The signed integer x ÷ 2^e0 of a finite value with e0 at most its exponent. -/
def alignInt (s : Bool) (m : Nat) (e e0 : Int) : Int :=
  let k : Int := (m * 2 ^ (e - e0).toNat : Nat)
  if s then -k else k

/-- The exact sum, with the signs of IEEE 754 (R97). -/
def Num.add : Num → Num → Num
  | .nan, _ => .nan
  | .inf _, .nan => .nan
  | .inf s, .inf t => if s = t then .inf s else .nan
  | .inf s, .fin _ _ _ => .inf s
  | .fin _ _ _, .nan => .nan
  | .fin _ _ _, .inf t => .inf t
  | .fin s m e, .fin t n f =>
    if m = 0 ∧ n = 0 then .fin (s && t) 0 0
    else
      let g := min e f
      .ofInt (alignInt s m e g + alignInt t n f g) g

/-- The exact product. -/
def Num.mul : Num → Num → Num
  | .nan, _ => .nan
  | .inf _, .nan => .nan
  | .inf s, .inf t => .inf (s != t)
  | .inf s, .fin t n _ => if n = 0 then .nan else .inf (s != t)
  | .fin _ _ _, .nan => .nan
  | .fin s m _, .inf t => if m = 0 then .nan else .inf (s != t)
  | .fin s m e, .fin t n f => .fin (s != t) (m * n) (e + f)

/-- x < y of two numbers neither of which is NaN; −0 stands below +0 when `zeros` is set (R175). -/
def Num.lt (zeros : Bool) : Num → Num → Bool
  | .nan, _ => false
  | _, .nan => false
  | .inf s, .inf t => s && !t
  | .inf s, .fin _ _ _ => s
  | .fin _ _ _, .inf t => !t
  | .fin s m e, .fin t n f =>
    if m = 0 ∧ n = 0 then zeros && s && !t
    else
      let g := min e f
      decide (alignInt s m e g < alignInt t n f g)

/-- One rounding to 24 significand bits, whatever the exponent (R96). -/
def Num.round24 : Num → Num
  | .fin s m e => let p := roundWide 24 m e; .fin s p.1 p.2
  | .inf s => .inf s
  | .nan => .nan

/-! ## The group sum and the accumulator (R95 to R97) -/

/-- The exact group sum G of the products: NaN if one is NaN or infinities of both signs meet; zero is +0. -/
def groupSum (l : List Num) : Num :=
  let g := l.foldl Num.add (.fin true 0 0)
  match g with
  | .fin s m e => if m = 0 then .zero else .fin s m e
  | .inf s => .inf s
  | .nan => .nan

/-- One update of an accumulator (R96): round(acc + G), with what it reports: `nanIn` says that an operand was NaN. DESIGN CHOICE,
log entry 76: a group with a NaN operand, or one that meets a NaN accumulator, reports NAN_MET only, whatever else it holds. -/
def accUpdate (acc : Num) (prods : List Num) (nanIn : Bool) : Num × Ev :=
  let r := (acc.add (groupSum prods)).round24
  (r, if nanIn then Ev.nan else if r.isNan && !acc.isNan then Ev.invalid else if r.isNan then Ev.nan else Ev.none)

/-! ## Floating-point formats (R90, Table 4-2) -/

/-- A sign, exponent and mantissa format: mantissa and exponent bits, bias, largest finite positive code, whether it has
infinities, the first positive NaN code. -/
structure FFmt where
  mb   : Nat
  eb   : Nat
  bias : Nat
  top  : Nat
  inf  : Option Nat
  nan  : Option Nat
  deriving DecidableEq, Repr

/-- binary32. -/
def fB32 : FFmt := { mb := 23, eb := 8, bias := 127, top := 0x7F7FFFFF, inf := some 0x7F800000, nan := some 0x7F800001 }
/-- binary16. -/
def fB16 : FFmt := { mb := 10, eb := 5, bias := 15, top := 0x7BFF, inf := some 0x7C00, nan := some 0x7C01 }
/-- bfloat16. -/
def fBf16 : FFmt := { mb := 7, eb := 8, bias := 127, top := 0x7F7F, inf := some 0x7F80, nan := some 0x7F81 }
/-- E4M3. -/
def fE4M3 : FFmt := { mb := 3, eb := 4, bias := 7, top := 0x7E, inf := none, nan := some 0x7F }
/-- E5M2. -/
def fE5M2 : FFmt := { mb := 2, eb := 5, bias := 15, top := 0x7B, inf := some 0x7C, nan := some 0x7D }
/-- E3M2. -/
def fE3M2 : FFmt := { mb := 2, eb := 3, bias := 3, top := 0x1F, inf := none, nan := none }
/-- E2M3. -/
def fE2M3 : FFmt := { mb := 3, eb := 2, bias := 1, top := 0x1F, inf := none, nan := none }
/-- E2M1. -/
def fE2M1 : FFmt := { mb := 1, eb := 2, bias := 1, top := 0x7, inf := none, nan := none }

/-- The sign bit's weight. -/
def FFmt.sign (f : FFmt) : Nat := 2 ^ (f.mb + f.eb)

/-- The value of a code (R90, R93). -/
def FFmt.dec (f : FFmt) (c : Nat) : Num :=
  let s := c / f.sign % 2 == 1
  let a := c % f.sign
  let ex := a / 2 ^ f.mb
  let mt := a % 2 ^ f.mb
  if f.inf = some a then .inf s
  else if (match f.nan with
      | some n => decide (n ≤ a)
      | none => false) then .nan
  else if ex = 0 then .fin s mt (1 - (f.bias : Int) - f.mb)
  else .fin s (2 ^ f.mb + mt) ((ex : Int) - f.bias - f.mb)

/-- The positive code of m × 2^e rounded once (R100); a value that rounds above the largest finite gives a code above
`top`. -/
def FFmt.pack (f : FFmt) (m : Nat) (e : Int) : Nat :=
  let emin : Int := 1 - (f.bias : Int) - f.mb
  let p := roundSig (f.mb + 1) emin m e
  let b := bitLen p.1
  if p.1 = 0 then 0
  else
    let lead : Int := p.2 + b - 1
    if lead < 1 - (f.bias : Int) then p.1 * 2 ^ (p.2 - emin).toNat
    else
      let sig := if b ≤ f.mb + 1 then p.1 * 2 ^ (f.mb + 1 - b) else p.1 / 2 ^ (b - f.mb - 1)
      (lead + f.bias).toNat * 2 ^ f.mb + (sig - 2 ^ f.mb)

/-- The canonical NaN of a scalar format (R101). -/
def FFmt.qnan (f : FFmt) : Nat := f.top + 1 + 2 ^ (f.mb - 1)

/-- A code with a sign. -/
def FFmt.signed (f : FFmt) (s : Bool) (c : Nat) : Nat := if s then f.sign + c else c

/-- Conversion to binary32, bfloat16 or binary16 (R99, R102), `ovfInf` the field `ovf_inf`. -/
def FFmt.conv (f : FFmt) (ovfInf : Bool) : Num → Nat × Ev
  | .nan => (f.qnan, Ev.nan)
  | .inf s => (f.signed s (f.top + 1), Ev.none)
  | .fin s m e =>
    if f.mb = 23 then
      let p := roundWide 24 m e
      if p.1 ≠ 0 ∧ p.2 + bitLen p.1 - 1 < -126 then (f.signed s 0, Ev.flushed)
      else
        let c := f.pack m e
        if c ≤ f.top then (f.signed s c, Ev.none)
        else if ovfInf then (f.signed s (f.top + 1), Ev.overflow) else (f.signed s f.top, Ev.saturated)
    else
      let c := f.pack m e
      if c ≤ f.top then (f.signed s c, if c = 0 ∧ m ≠ 0 then Ev.lost else Ev.none)
      else if ovfInf then (f.signed s (f.top + 1), Ev.overflow) else (f.signed s f.top, Ev.saturated)

/-- A binary32 input (R99): a subnormal is read as a zero of its sign. -/
def b32In (c : Nat) : Num × Ev :=
  if c % 2 ^ 31 ≠ 0 ∧ c % 2 ^ 31 < 2 ^ 23 then (.fin (bitAt c 31) 0 0, Ev.flushed) else (fB32.dec c, Ev.none)

/-- The result of a floating-point operation with its flags: NaN met, or made of operands that are none (Table 4-7). -/
def FFmt.result (f : FFmt) (nanIn : Bool) (x : Num) : Nat × Ev :=
  match x with
  | .nan => (f.qnan, if nanIn then Ev.nan else Ev.invalid)
  | .inf s => f.conv true (.inf s)
  | .fin s m e => f.conv true (.fin s m e)

/-- A binary32 operation of two operands. -/
def b32Op2 (g : Num → Num → Num) (a b : Nat) : Nat × Ev :=
  let x := b32In a
  let y := b32In b
  let r := fB32.result (x.1.isNan || y.1.isNan) (g x.1 y.1)
  (r.1, (x.2.join y.2).join r.2)

/-- a + b in binary32. -/
def b32Add : Nat → Nat → Nat × Ev := b32Op2 Num.add
/-- a − b in binary32. -/
def b32Sub : Nat → Nat → Nat × Ev := b32Op2 fun x y => x.add y.neg
/-- a × b in binary32. -/
def b32Mul : Nat → Nat → Nat × Ev := b32Op2 Num.mul

/-- a × b + c in binary32, one rounding. -/
def b32Fma (a b c : Nat) : Nat × Ev :=
  let x := b32In a
  let y := b32In b
  let z := b32In c
  let r := fB32.result (x.1.isNan || y.1.isNan || z.1.isNan) ((x.1.mul y.1).add z.1)
  (r.1, ((x.2.join y.2).join z.2).join r.2)

/-- The larger (or smaller) operand; the canonical NaN if one is NaN; −0 below +0, as R175 states for VMAX. DESIGN CHOICE, log
entry 76: scoring and merging (R69, R78), whose rules name no zero of a maximum, take it the same way. -/
def b32Pick (wantMax : Bool) (a b : Nat) : Nat × Ev :=
  let x := b32In a
  let y := b32In b
  let ev := x.2.join y.2
  if x.1.isNan || y.1.isNan then (fB32.qnan, ev.join Ev.nan)
  else
    let r := if (Num.lt true x.1 y.1) == wantMax then y.1 else x.1
    ((fB32.conv true r).1, ev)

/-- 1 ÷ x to more than 76 bits, the last of them sticky. -/
def Num.recip : Num → Num
  | .nan => .nan
  | .inf s => .fin s 0 0
  | .fin s m e =>
    if m = 0 then .inf s
    else
      let q := 2 ^ 100 / m
      .fin s (2 * q + (if 2 ^ 100 % m = 0 then 0 else 1)) (-e - 101)

/-- rcp: the binary32 value nearest to 1 ÷ a (R78, R175). -/
def b32Rcp (a : Nat) : Nat × Ev :=
  let x := b32In a
  let r := fB32.result x.1.isNan x.1.recip
  (r.1, x.2.join r.2)

/-- ln 2 × 2^224, rounded down. -/
def ln2Fix : Nat := 18687211020381960287278961438292188228571477255688502128730264377179

/-- Terms `k` on of the series of e^y, y and the terms in units of 2^-224. -/
def expSeries (y : Nat) : Nat → Nat → Nat → Nat
  | 0, _, _ => 0
  | fuel + 1, k, term => term + expSeries y fuel (k + 1) (term * y / 2 ^ 224 / (k + 1))

/-- 2^x of a finite x with at most 149 fraction bits, to more than 200 bits, the last of them sticky: 2^x is no dyadic
number unless x is an integer, and no binary32 operand brings it so near a rounding boundary (log entry 20). -/
def exp2Fin (s : Bool) (m : Nat) (e : Int) : Num :=
  let x : Int := alignInt s m (e + 224) 0
  let n := x / 2 ^ 224
  let f := (x % 2 ^ 224).toNat
  if f = 0 then .fin false 1 n
  else .fin false (2 * expSeries (f * ln2Fix / 2 ^ 224) 60 0 (2 ^ 224) + 1) (n - 225)

/-- exp2 of the wringers and the merge stage (R70): arguments at most 0. Below −126 it is +0 with a flush, at −∞ +0. -/
def b32Exp2Neg (a : Nat) : Nat × Ev :=
  let x := b32In a
  match x.1 with
  | .nan => (fB32.qnan, x.2.join Ev.nan)
  | .inf s => (if s then 0 else 0x7F800000, x.2)
  | .fin s m e =>
    if m = 0 then (0x3F800000, x.2)
    else if Num.lt false (.fin s m e) (.fin true 126 0) then (0, x.2.join Ev.flushed)
    else
      let r := fB32.conv true (exp2Fin s m e)
      (r.1, x.2.join r.2)

/-- 2^a of FEXP2.S (R175). -/
def b32Exp2 (a : Nat) : Nat × Ev :=
  let x := b32In a
  match x.1 with
  | .nan => (fB32.qnan, x.2.join Ev.nan)
  | .inf s => (if s then 0 else 0x7F800000, x.2)
  | .fin s m e =>
    if s || m == 0 then b32Exp2Neg a
    else if Num.lt false (.fin s m e) (.fin false 128 0) then
      let r := fB32.conv true (exp2Fin s m e)
      (r.1, x.2.join r.2)
    else (0x7F800000, x.2.join Ev.overflow)

/-! ## bfloat16 operations (R98, R175) -/

/-- A bfloat16 operation of two operands: exact, rounded once; subnormals are kept. -/
def bfOp2 (g : Num → Num → Num) (a b : Nat) : Nat × Ev :=
  let x := fBf16.dec a
  let y := fBf16.dec b
  fBf16.result (x.isNan || y.isNan) (g x y)

/-- a × b + c in bfloat16, one rounding. -/
def bfFma (a b c : Nat) : Nat × Ev :=
  let x := fBf16.dec a
  let y := fBf16.dec b
  let z := fBf16.dec c
  fBf16.result (x.isNan || y.isNan || z.isNan) ((x.mul y).add z)

/-! ## Integers (R91, R104) -/

/-- A two's-complement field of `n` bits as an integer. -/
def toSigned (n c : Nat) : Int := let d := c % 2 ^ n; if d < 2 ^ (n - 1) then (d : Int) else (d : Int) - 2 ^ n

/-- The low `n` bits of an integer. -/
def toBits (n : Nat) (x : Int) : Nat := (x % (2 ^ n : Int)).toNat

/-- The nearest integer in the range of `n` bits, and whether it had to be moved. -/
def clampInt (n : Nat) (x : Int) : Int × Bool :=
  if x < -(2 ^ (n - 1) : Int) then (-(2 ^ (n - 1) : Int), true)
  else if (2 ^ (n - 1) : Int) - 1 < x then ((2 ^ (n - 1) : Int) - 1, true) else (x, false)

/-- A finite value rounded to an integer. -/
def numToInt (s : Bool) (m : Nat) (e : Int) : Int :=
  let k : Nat := if 0 ≤ e then m * 2 ^ e.toNat else rneShr m (-e).toNat
  if s then -(k : Int) else k

/-- Conversion to an `n`-bit integer (R104), the value already divided by 2^t. -/
def toIntSat (n : Nat) : Num → Nat × Ev
  | .nan => (0, Ev.nanToInt)
  | .inf s => (toBits n (clampInt n (if s then -(2 ^ n : Int) else 2 ^ n)).1, Ev.saturated)
  | .fin s m e =>
    let c := clampInt n (numToInt s m e)
    (toBits n c.1, if c.2 then Ev.saturated else Ev.none)

/-! ## MX blocks (R91, R92, R103) -/

/-- The element format of a code 0x00 to 0x04; `none` for MXINT8. -/
def mxFmt (fmt : Nat) : Option FFmt :=
  if fmt = 0 then some fE2M1
  else if fmt = 1 then some fE2M3
  else if fmt = 2 then some fE3M2
  else if fmt = 3 then some fE4M3
  else if fmt = 4 then some fE5M2
  else none

/-- `emax` of Table 3-5. -/
def mxEmax (fmt : Nat) : Int :=
  if fmt = 0 then 2 else if fmt = 1 then 2 else if fmt = 2 then 4 else if fmt = 3 then 8 else if fmt = 4 then 15 else 0

/-- An element's value, its scale apart (R90, R91). -/
def mxElem (fmt c : Nat) : Num :=
  match mxFmt fmt with
  | some f => f.dec c
  | none => .ofInt (toSigned 8 c) (-6)

/-- An element under its block's scale (R92). -/
def mxDec (fmt scale c : Nat) : Num :=
  if scale = 0xFF then .nan else (mxElem fmt c).scale ((scale : Int) - 127)

/-- floor(log2 |x|) of a finite nonzero value; `none` of a zero. -/
def Num.lead : Num → Option Int
  | .fin _ m e => if m = 0 then none else some (e + bitLen m - 1)
  | .inf _ => none
  | .nan => none

/-- The largest of the leads. -/
def maxLead (l : List Num) : Option Int :=
  l.foldl (fun a x => match a, x.lead with
    | none, b => b
    | some p, none => some p
    | some p, some q => some (max p q)) none

/-- One element of an output block: x ÷ 2^scale in the element format (R74, R103). -/
def mxEncElem (fmt : Nat) (scale : Int) : Num → Nat × Ev
  | .fin s m e =>
    match mxFmt fmt with
    | some f =>
      let c := f.pack m (e - scale)
      if c ≤ f.top then (f.signed s c, if c = 0 ∧ m ≠ 0 then Ev.lost else Ev.none)
      else (f.signed s f.top, Ev.saturated)
    | none =>
      let k := numToInt s m (e - scale + 6)
      if 127 < k then (127, Ev.saturated)
      else if k < -127 then (toBits 8 (-127), Ev.saturated)
      else (toBits 8 k, if k = 0 ∧ m ≠ 0 then Ev.lost else Ev.none)
  | .inf _ => (0, Ev.none)
  | .nan => (0, Ev.none)

/-- Conversion of a block to an MX format (R103): scale code, element codes, what it reports. -/
def mxEncode (fmt : Nat) (l : List Num) : Nat × List Nat × Ev :=
  if l.any fun x => x.isNan || x.isInf then (0xFF, l.map fun _ => 0, Ev.nanBlock)
  else
    match maxLead l with
    | none => (0, l.map fun _ => 0, Ev.none)
    | some q =>
      let sc := max (-127) (min 127 (q - mxEmax fmt))
      let r := l.map (mxEncElem fmt sc)
      ((sc + 127).toNat, r.map (·.1), Ev.all (r.map (·.2)))

/-- Bits of an element of a format (Table 4-1). -/
def elemBits (fmt : Nat) : Nat :=
  if fmt = 0 ∨ fmt = 0x10 then 4
  else if fmt = 1 ∨ fmt = 2 then 6
  else if fmt = 0x09 ∨ fmt = 0x0A ∨ fmt = 0x0B then 16
  else if fmt = 0x0C then 32
  else 8

/-- The format codes of Table 4-1. -/
def fmtKnown (fmt : Nat) : Bool :=
  decide (fmt ≤ 5) || decide (8 ≤ fmt ∧ fmt ≤ 0x0C) || fmt == 0x10 || fmt == 0x11

/-- `n` fields of `w` bits of a number, the lowest first. -/
def fields (w n x : Nat) : List Nat := (List.range n).map fun i => x / 2 ^ (w * i) % 2 ^ w

/-- Fields of `w` bits put together, the first lowest. -/
def packFields (w : Nat) : List Nat → Nat
  | [] => 0
  | c :: r => c % 2 ^ w + 2 ^ w * packFields w r

/-- Element codes of a block as its bytes (R92). -/
def elemBytes (fmt : Nat) (l : List Nat) : List Byte :=
  le (l.length * elemBits fmt / 8) (packFields (elemBits fmt) l)

/-- The element codes in a block's bytes (R92). -/
def byteElems (fmt n : Nat) (b : List Byte) : List Nat := fields (elemBits fmt) n (leNat b)

end Sys2Proof.Machine
end

