-- ==== Sys2Proof/Machine/Operands.lean ====
section
/-! DEFINITION. The operands of the vector words (chapter 7): the layout of a word, which fields each opcode uses, element
views, pointers, operand b, narrowing. -/

namespace Sys2Proof.Machine

/-! ## The word (R166, Table 7-3) -/

/-- What an opcode's row says of its word (Table 7-5): its code, the wide-immediate form, which of the fields it uses
(`m`, `vd`, `va`, `vb`, `acc`, `x5` up to a greatest value, `ovf`, `imm13` below a bound), what it reads and writes, and
the latency of its result (R171). -/
structure VRow where
  code   : Nat
  wide   : Bool
  useLvl : Nat
  useImm : Bool
  useVd  : Bool
  useA   : Bool
  useB   : Bool
  useAcc : Bool
  x5Max  : Nat
  useOvf : Bool
  immMax : Nat
  /-- reads Vd's prior value -/
  readD  : Bool
  /-- writes Vd (and V(d+1) for NORM) -/
  writeD : Bool
  readAcc : Bool
  writeAcc : Bool
  lat    : Nat
  deriving DecidableEq, Repr

/-- A row that uses nothing. -/
def VRow.bare (code : Nat) : VRow :=
  { code := code, wide := false, useLvl := 0, useImm := false, useVd := false, useA := false, useB := false,
    useAcc := false, x5Max := 0, useOvf := false, immMax := 0, readD := false, writeD := false, readAcc := false,
    writeAcc := false, lat := 1 }

/-- A row in the wide-immediate form; `lvl` up to `l`. -/
def VRow.wideRow (code l : Nat) (imm : Bool) : VRow :=
  { VRow.bare code with wide := true, useLvl := l, useImm := imm }

/-- A row Vd ← f(a). -/
def VRow.una (code lat : Nat) : VRow := { VRow.bare code with useVd := true, useA := true, writeD := true, lat := lat }

/-- A row Vd ← f(a, b). -/
def VRow.bin (code lat : Nat) : VRow := { VRow.una code lat with useB := true }

/-- A row ACC ← f(ACC, a, b). -/
def VRow.mac (code : Nat) : VRow :=
  { VRow.bare code with useA := true, useB := true, useAcc := true, readAcc := true, writeAcc := true }

/-- A row Vd ← f(ACC), rounded. -/
def VRow.rnd (code : Nat) : VRow :=
  { VRow.bare code with
    useVd := true, writeD := true, useAcc := true, readAcc := true, x5Max := 31, useOvf := true, lat := 2 }

/-- Table 7-5 with the latencies of Table 7-6. -/
def vrow (op : Nat) : Option VRow :=
  if op = 0x00 then some (.bare 0x00)
  else if op = 0x01 then some (.wideRow 0x01 3 true)
  else if op = 0x02 then some (.wideRow 0x02 1 true)
  else if op = 0x03 then some (.bare 0x03)
  else if op = 0x04 then some (.bare 0x04)
  else if op = 0x05 then some { VRow.wideRow 0x05 0 true with useVd := true, readD := true }
  else if op = 0x06 then some { VRow.wideRow 0x06 0 true with useVd := true, readD := true }
  else if op = 0x07 then some { VRow.bare 0x07 with x5Max := 15 }
  else if 0x08 ≤ op ∧ op ≤ 0x0B then some { VRow.wideRow op 0 true with useVd := true }
  else if op = 0x0C then some { VRow.bare 0x0C with useVd := true, writeD := true }
  else if op = 0x10 then some { VRow.bare 0x10 with useVd := true, writeD := true, lat := 4 }
  else if op = 0x11 then some { VRow.bare 0x11 with useVd := true, readD := true }
  else if op = 0x12 then
    some { VRow.bare 0x12 with useVd := true, writeD := true, x5Max := 17, useOvf := true, lat := 4 }
  else if op = 0x13 then some { VRow.bare 0x13 with useVd := true, readD := true, x5Max := 17, useOvf := true }
  else if op = 0x14 then some { VRow.wideRow 0x14 0 true with useVd := true, writeD := true }
  else if op = 0x15 then some (.una 0x15 1)
  else if op = 0x16 then some { VRow.una 0x16 1 with immMax := 128 }
  else if op = 0x17 then some { VRow.una 0x17 1 with immMax := 64 }
  else if 0x20 ≤ op ∧ op ≤ 0x23 then some { VRow.bin op 1 with useOvf := true }
  else if op = 0x24 then some { VRow.bin 0x24 1 with useOvf := true, x5Max := 31 }
  else if op = 0x25 ∨ op = 0x26 then some (.bin op 1)
  else if op = 0x27 ∨ op = 0x28 then some { VRow.una op 1 with useOvf := true }
  else if 0x29 ≤ op ∧ op ≤ 0x2B then some (.bin op 1)
  else if op = 0x2C then some { VRow.bin 0x2C 1 with readD := true }
  else if op = 0x2D then some { VRow.bin 0x2D 1 with x5Max := 3 }
  else if op = 0x2E ∨ op = 0x2F then some { VRow.una op 1 with useOvf := true, x5Max := 31 }
  else if op = 0x30 then some { VRow.bare 0x30 with useAcc := true, writeAcc := true }
  else if op = 0x31 then some { VRow.bare 0x31 with useA := true, useAcc := true, writeAcc := true, x5Max := 31 }
  else if op = 0x32 ∨ op = 0x33 then some (.mac op)
  else if op = 0x34 then some { VRow.mac 0x34 with useA := false }
  else if op = 0x35 then some { VRow.mac 0x35 with x5Max := 31, useOvf := true }
  else if 0x36 ≤ op ∧ op ≤ 0x38 then some (.rnd op)
  else if op = 0x3A ∨ op = 0x3B then some (.una op 2)
  else if op = 0x3C then some { VRow.una 0x3C 2 with x5Max := 7 }
  else if op = 0x3D then some { VRow.una 0x3D 2 with x5Max := 6 }
  else if op = 0x3E ∨ op = 0x3F then some { VRow.bin op 2 with useOvf := true }
  else if 0x40 ≤ op ∧ op ≤ 0x42 then some (.bin op 4)
  else if op = 0x43 then some { VRow.bin 0x43 4 with readD := true }
  else if op = 0x44 ∨ op = 0x45 then some (.bin op 4)
  else if op = 0x46 ∨ op = 0x47 then some (.una op 8)
  else if 0x48 ≤ op ∧ op ≤ 0x4A then some (.bin op 4)
  else if op = 0x4B then some { VRow.bin 0x4B 4 with readD := true }
  else if op = 0x4C ∨ op = 0x4D then some { VRow.una op 4 with x5Max := 31, useOvf := true }
  else if op = 0x4E then some { VRow.bin 0x4E 4 with useOvf := true }
  else if op = 0x4F then some { VRow.una 0x4F 4 with useAcc := true }
  else if op = 0x50 then some { VRow.una 0x50 4 with useAcc := true, x5Max := 31, useOvf := true }
  else none

/-- The word that an opcode and its fields spell (Table 7-3). -/
def vwordOf (op : Nat) (w : VW) : BitVec 64 :=
  let wide := ((vrow op).map (·.wide)).getD false
  let mid := if wide then w.lvl.toNat * 2 ^ 48 + w.imm16.toNat * 2 ^ 32
    else w.va.toNat * 2 ^ 45 + w.vb.toNat * 2 ^ 40 + w.acc.toNat * 2 ^ 37 + w.x5.toNat * 2 ^ 32
  BitVec.ofNat 64 (op * 2 ^ 56 + b2n w.m * 2 ^ 55 + w.vd.toNat * 2 ^ 50 + mid + b2n w.ovf * 2 ^ 31 + w.p0.toNat * 2 ^ 27 +
    w.u0.toNat * 2 ^ 24 + w.p1.toNat * 2 ^ 20 + w.u1.toNat * 2 ^ 17 + w.lend.toNat * 2 ^ 13 + w.imm13.toNat)

/-- The fields of a word. -/
def vfields (x : BitVec 64) : Nat × VW :=
  let n := x.toNat
  (bitsOf n 63 56,
    { m := bitAt n 55, vd := BitVec.ofNat 5 (bitsOf n 54 50), va := BitVec.ofNat 5 (bitsOf n 49 45),
      vb := BitVec.ofNat 5 (bitsOf n 44 40), acc := BitVec.ofNat 3 (bitsOf n 39 37), x5 := BitVec.ofNat 5 (bitsOf n 36 32),
      ovf := bitAt n 31, p0 := BitVec.ofNat 4 (bitsOf n 30 27), u0 := BitVec.ofNat 3 (bitsOf n 26 24),
      p1 := BitVec.ofNat 4 (bitsOf n 23 20), u1 := BitVec.ofNat 3 (bitsOf n 19 17), lend := BitVec.ofNat 4 (bitsOf n 16 13),
      imm13 := BitVec.ofNat 13 (bitsOf n 12 0), lvl := BitVec.ofNat 2 (bitsOf n 49 48),
      imm16 := BitVec.ofNat 16 (bitsOf n 47 32) })

/-! ## Memory accesses of a word (R165, R167, R176) -/

/-- An access: bytes, element alignment, whether it stores. -/
structure VAcc where
  bytes : Nat
  align : Nat
  store : Bool
  deriving DecidableEq, Repr

/-- Elements' bytes of a converting load or store (Table 7-9). -/
def vxBytes (fmt : Nat) : Nat :=
  if fmt = 0 then 32 else if fmt = 1 ∨ fmt = 2 then 48 else if fmt ≤ 5 then 64
  else if fmt = 0x08 ∨ fmt = 0x0B ∨ fmt = 0x11 then 128 else if fmt = 0x10 then 64 else 256

/-- Table 7-9 lists the format. -/
def vxKnown (fmt : Nat) : Bool := fmtKnown fmt

/-- The access at slot 0's address. -/
def vacc0 (op : Nat) (w : VW) : Option VAcc :=
  let x := w.x5.toNat
  if op = 0x07 then some { bytes := 64, align := 64, store := false }
  else if op = 0x10 then some { bytes := 256, align := 2, store := false }
  else if op = 0x11 then some { bytes := 256, align := 2, store := true }
  else if op = 0x12 ∨ op = 0x13 then
    some { bytes := vxBytes x, align := if elemBits x = 16 ∨ elemBits x = 32 then 2 else 1, store := decide (op = 0x13) }
  else if w.m then some { bytes := 256, align := 2, store := false }
  else none

/-- The access at slot 1's address: the scalar of VMACS.H, the two scale bytes of an MX format. -/
def vacc1 (op : Nat) (w : VW) : Option VAcc :=
  if op = 0x34 then some { bytes := 2, align := 2, store := false }
  else if (op = 0x12 ∨ op = 0x13) ∧ w.x5.toNat ≤ 5 then some { bytes := 2, align := 1, store := decide (op = 0x13) }
  else none

/-! ## The check of a word (R168) -/

/-- A word whose every field its opcode's row permits (R168), for a pattern of tenant `t`. -/
def vwordOk (t op : Nat) (w : VW) : Bool :=
  match vrow op with
  | none => false
  | some r =>
    let z (use : Bool) (n : Nat) : Bool := use || n == 0
    let setup := decide (0x08 ≤ op ∧ op ≤ 0x0B)
    let knot := op == 0x05 || op == 0x06 || (op == 0x02 && w.lvl.toNat % 2 == 1)
    z r.useB (b2n w.m) && z r.useVd w.vd.toNat && (!setup || decide (w.vd.toNat < 16)) &&
      (if r.wide then decide (w.lvl.toNat ≤ r.useLvl) && z r.useImm w.imm16.toNat &&
         (!(op == 0x02) || w.lvl.toNat == 1 || w.imm16.toNat == 0) && (!(op == 0x01) || w.imm16.toNat != 0) &&
         (!knot || knotOfTenant t w.imm16.toNat)
       else z r.useA w.va.toNat && z (r.useB && !w.m) w.vb.toNat && z r.useAcc w.acc.toNat &&
         decide (w.x5.toNat ≤ r.x5Max) && (!(op == 0x4F || op == 0x50) || decide (w.acc.toNat ≤ 1)) &&
         (!(op == 0x12 || op == 0x13) || vxKnown w.x5.toNat) &&
         (!(op == 0x3A || op == 0x3B) || w.vd.toNat % 2 == 0)) &&
      z r.useOvf (b2n w.ovf) && decide (w.u0.toNat ≤ 4) && decide (w.u1.toNat ≤ 4) &&
      z ((vacc0 op w).isSome || w.u0.toNat != 0) w.p0.toNat && z ((vacc1 op w).isSome || w.u1.toNat != 0) w.p1.toNat &&
      !(w.u0.toNat != 0 && w.u1.toNat != 0 && w.p0 == w.p1) &&
      (if r.immMax = 0 then z (w.u0.toNat == 3 || w.u1.toNat == 3) w.imm13.toNat
       else decide (w.imm13.toNat < r.immMax) && w.u0.toNat != 3 && w.u1.toNat != 3) &&
      (!(op == 0x01) || w.lend.toNat == 0)

/-- The loop structure of the words left (R177) with `n` levels open: a REP opens the next level, `lend` bits close the
innermost open ones, none is left open. -/
def vloopsOk : List (BitVec 64) → Nat → Bool
  | [], n => n == 0
  | x :: r, n =>
    let f := vfields x
    if f.1 = 0x01 then f.2.lvl.toNat == n && f.2.lend.toNat == 0 && vloopsOk r (n + 1)
    else
      let ends := (List.range 4).filter fun k => f.2.lend.getLsbD k
      decide (ends.length ≤ n) && ends == (List.range ends.length).map (n - ends.length + ·) &&
        vloopsOk r (n - ends.length)

/-- Every check of R168 on a pattern of tenant `t`. -/
def vpatternOk (t : Nat) (ws : List (BitVec 64)) : Bool :=
  (ws.all fun x => let f := vfields x; vwordOk t f.1 f.2 && vwordOf f.1 f.2 == x) && vloopsOk ws 0

/-! ## Pointers (R167, R178, R179) -/

/-- Pointer `n`. -/
def VCore.pt (c : VCore) (n : Nat) : Ptr := tget c.ptr n Ptr.reset

/-- `c` with pointer `n` replaced. -/
def VCore.setPt (c : VCore) (n : Nat) (p : Ptr) : VCore := { c with ptr := tput c.ptr n p }

/-- A signed offset reduced by R178. -/
def Ptr.reduce (p : Ptr) (x : Int) : Nat := if p.len = 0 then (x % 2 ^ 18).toNat else (x % (p.len : Int)).toNat

/-- The address of the byte at offset `o` of an access (R178). -/
def Ptr.addr (p : Ptr) (o : Nat) : Nat :=
  if p.len = 0 then (p.base + p.p + o) % 2 ^ 18 else p.base + (p.p + o) % p.len

/-- The addresses of an access. -/
def Ptr.addrs (p : Ptr) (n : Nat) : List Nat := (List.range n).map p.addr

/-- A slot's update (Table 7-4). -/
def Ptr.update (p : Ptr) (code : Nat) (imm : Int) : Ptr :=
  if code = 1 then { p with p := p.reduce (p.p + p.stride) }
  else if code = 2 then { p with p := p.reduce (p.p - p.stride) }
  else if code = 3 then { p with p := p.reduce (p.p + imm) }
  else if code = 4 then { p with p := 0 }
  else p

/-- Both updates of a word. -/
def VCore.updates (c : VCore) (w : VW) : VCore :=
  let imm := toSigned 13 w.imm13.toNat
  let upd (c : VCore) (n u : Nat) : VCore := if u = 0 then c else c.setPt n ((c.pt n).update u imm)
  upd (upd c w.p0.toNat w.u0.toNat) w.p1.toNat w.u1.toNat

/-- One pending length applied (R179, steps 3 and 4). -/
def VCore.pressOne (c : VCore) (n : Nat) : VCore :=
  let p := c.pt n
  match p.pend with
  | none => c
  | some l =>
    if l ≠ 0 ∧ l ≤ p.p then
      { c.setPt n { p with len := l, pend := none, p := p.p % l } with
        pwrap := c.pwrap ||| BitVec.ofNat 16 (2 ^ n), xstat := Nat.lor c.xstat xsPtrWrap }
    else c.setPt n { p with len := l, pend := none }

/-- Pointers that PRESS reduces. -/
def VCore.pressWraps (c : VCore) : Nat :=
  ((List.range 16).filter fun n => match (c.pt n).pend with
    | some l => decide (l ≠ 0 ∧ l ≤ (c.pt n).p)
    | none => false).length

/-- Every pending length applied. -/
def VCore.press (c : VCore) : VCore := (List.range 16).foldl VCore.pressOne c

/-! ## Loops (R177) -/

/-- The levels that a word at `at_` ends, from the innermost outward: the first that loops back gives the next word. -/
def VCore.endLoops (c : VCore) (w : VW) : Nat → VCore × Option Nat
  | 0 => (c, none)
  | k + 1 =>
    if w.lend.getLsbD k then
      match tfind c.loops k with
      | some l =>
        if 1 < l.left then ({ c with loops := tput c.loops k { l with left := l.left - 1 } }, some l.start)
        else VCore.endLoops { c with loops := tdel c.loops k } w k
      | none => VCore.endLoops c w k
    else VCore.endLoops c w k

/-- The next word after word `c.next`. -/
def VCore.advance (c : VCore) (w : VW) : VCore :=
  match c.endLoops w 4 with
  | (c1, some n) => { c1 with next := n }
  | (c1, none) => { c1 with next := c.next + 1 }

/-! ## Element views (R164) -/

/-- Register `n`. -/
def VCore.reg (c : VCore) (n : Nat) : BitVec 2048 := tget c.v n 0

/-- Accumulator `n`. -/
def VCore.accu (c : VCore) (n : Nat) : BitVec 6144 := tget c.acc n 0

/-- The .H elements as codes. -/
def vH (v : BitVec 2048) : List Nat := fields 16 128 v.toNat
/-- The .W elements as codes. -/
def vW (v : BitVec 2048) : List Nat := fields 32 64 v.toNat
/-- The .H elements as signed integers. -/
def vHi (v : BitVec 2048) : List Int := (vH v).map (toSigned 16)
/-- The .W elements as signed integers. -/
def vWi (v : BitVec 2048) : List Int := (vW v).map (toSigned 32)
/-- The elements of an accumulator. -/
def vAi (a : BitVec 6144) : List Int := (fields 48 128 a.toNat).map (toSigned 48)

/-- A register of .H codes. -/
def ofH (l : List Nat) : BitVec 2048 := BitVec.ofNat 2048 (packFields 16 l)
/-- A register of .W codes. -/
def ofW (l : List Nat) : BitVec 2048 := BitVec.ofNat 2048 (packFields 32 l)
/-- An accumulator of codes. -/
def ofA (l : List Nat) : BitVec 6144 := BitVec.ofNat 6144 (packFields 48 l)

/-! ## Narrowing (R172, R173) -/

/-- A value fitted to `n` bits: with `ovf` the nearest limit and SAT, without it the low bits and WRAP. -/
def narrow (n : Nat) (ovf : Bool) (x : Int) : Nat × Ev :=
  let c := clampInt n x
  if c.2 then (if ovf then (toBits n c.1, Ev.fixSat) else (toBits n x, Ev.fixWrap)) else (toBits n x, Ev.none)

/-- x ÷ 2^k rounded, then fitted. -/
def narrowShr (n : Nat) (ovf : Bool) (x : Int) (k : Nat) : Nat × Ev := narrow n ovf (rneShrInt x k)

/-- A sum into an accumulator element, modulo 2^48 (R172). -/
def accSum (x : Int) : Nat × Ev := (toBits 48 x, if (clampInt 48 x).2 then Ev.accWrap else Ev.none)

/-! ## Operands and results -/

/-- What a word reads: a, b (register or memory), Vd before, its accumulator, the scalar at slot 1, the bytes at slot 0 and
the scale bytes at slot 1. -/
structure VIn where
  a  : BitVec 2048
  b  : BitVec 2048
  d  : BitVec 2048
  ac : BitVec 6144
  sc : Nat
  b0 : List Byte
  b1 : List Byte
  deriving DecidableEq, Repr

/-- What a word writes: Vd, V(d+1), its accumulator, the bytes at slot 0 and slot 1, and what it reports. -/
structure VRes where
  vd  : Option (BitVec 2048)
  vd1 : Option (BitVec 2048)
  acc : Option (BitVec 6144)
  st0 : List Byte
  st1 : List Byte
  ev  : Ev
  deriving DecidableEq, Repr

/-- A word that writes nothing. -/
def VRes.nothing : VRes := { vd := none, vd1 := none, acc := none, st0 := [], st1 := [], ev := Ev.none }

/-- A word that writes Vd. -/
def VRes.reg (v : BitVec 2048) (ev : Ev) : VRes := { VRes.nothing with vd := some v, ev := ev }

/-- A word that writes Vd from .H elements with their reports. -/
def VRes.ofH (l : List (Nat × Ev)) : VRes := .reg (Machine.ofH (l.map (·.1))) (Ev.all (l.map (·.2)))

/-- A word that writes Vd from .W elements with their reports. -/
def VRes.ofW (l : List (Nat × Ev)) : VRes := .reg (Machine.ofW (l.map (·.1))) (Ev.all (l.map (·.2)))

/-- A word that writes its accumulator. -/
def VRes.ofAcc (l : List (Nat × Ev)) : VRes :=
  { VRes.nothing with acc := some (Machine.ofA (l.map (·.1))), ev := Ev.all (l.map (·.2)) }

end Sys2Proof.Machine
end

