-- ==== Sys2Proof/Machine/Models.lean ====
section
/-! DEFINITION. Model instances: MODEL_CREATE, MODEL_WRITE, MODEL_COMMIT, MODEL_DESTROY (R33, R230, R466). -/

namespace Sys2Proof.Machine

/-! ## MODEL_CREATE -/

/-- Frames that an instance reserves on every pseudo-channel (R466). -/
def weightFrames (wBytes : Nat) : Nat := ceilDiv wBytes (64 * 524288)

/-- A die has the frames on every pseudo-channel. -/
def Die.hasShare (x : Die) (n : Nat) : Bool := (List.range 64).all fun c => (x.highFrames c 2272 n).length == n

/-- A bundle's copy lies in the firmware reserve while room remains there (R466; log entry 48). -/
def State.inReserve (s : State) (bBytes : Nat) : Bool :=
  decide ((s.models.map fun m => if m.2.bundleOut then 0 else m.2.bBytes).sum + bBytes ≤ Config.bundleRoom)

/-- A die's reservation for an instance: its weight frames, then the frames of a bundle copy outside the reserve, dealt (R466). -/
def Die.shareOf (x : Die) (w b owner : Nat) : Option Die :=
  if x.hasShare w then ((x.reserveAll w owner).deal owner b).map (·.1) else none

/-- Frames of a bundle's copy on each die: none in the reserve. -/
def State.bundleFrames (s : State) (bBytes : Nat) : Nat := if s.inReserve bBytes then 0 else ceilDiv bBytes 524288

/-- The lowest instance number free (log entry 16). -/
def State.newModel (s : State) : Option Nat := least 256 fun i => !(thas s.models i)

/-- The checks of MODEL_CREATE (R33 Table 2-2, R230). -/
def chkModelCreate (p : Pkt) (L h d32 fmt thr wBytes bBytes : Nat) (s : State) : Option (Status × Nat) :=
  firstOf [badHdr (!(s.hasTenant p.tenant)) 8, badAt (!(decide (1 ≤ L) && decide (L ≤ 256))) 0,
    badAt (!(decide (1 ≤ h) && decide (h ≤ 16))) 2, badAt (!(decide (1 ≤ d32) && decide (d32 ≤ 8))) 3,
    badAt (decide (5 < fmt)) 4, badAt (decide (16777215 < thr)) 8, deferAt s.newModel.isNone 5,
    deferAt (!(s.usableDies.all fun d => ((s.die d).shareOf (weightFrames wBytes) (s.bundleFrames bBytes) 0).isSome)) 7]

/-- A fresh instance. -/
def newModel (t L h d32 fmt thr wBytes bBytes : Nat) (out : Bool) : Model :=
  { tenant := t, layers := L, h := h, d := 32 * d32, fmt := fmt, thr := thr, wBytes := wBytes, bBytes := bBytes,
    bundleMem := [], weightMem := [], areas := [], bundle := none, digest := 0, poisoned := false, bundleOut := out }

/-- The correction factors of instance `i` start at 1 again (R394): nothing of an earlier instance of its number stays. -/
def Die.freshFactors (x : Die) (i : Nat) : Die :=
  { x with
    led := { x.led with fcorr := x.led.fcorr.filter fun e => e.1 / 65536 != i }
    tallies := x.tallies.filter fun e => match e.2.ended with
      | some (k, _) => k / 65536 != i
      | none => true }

/-- The instance is created; every usable die reserves its weight frames, and those of its bundle copy. -/
def doModelCreate (p : Pkt) (L h d32 fmt thr wBytes bBytes : Nat) (s : State) : State :=
  match s.newModel with
  | none => s
  | some i =>
    let s1 := s.usableDies.foldl (fun s d => s.modDie d fun x =>
      ((x.shareOf (weightFrames wBytes) (s.bundleFrames bBytes) (1 + i)).getD x).freshFactors i) s
    { s1 with models := tput s1.models i (newModel p.tenant L h d32 fmt thr wBytes bBytes (!(s.inReserve bBytes))) }.finish 0x0101 p .ok 0
      (padTo 4 (le 1 i)) []

/-- MODEL_CREATE (R33, R230, R466). -/
def execModelCreate (p : Pkt) (L h d32 fmt thr wBytes bBytes : Nat) (s : State) : Out :=
  opcode 0x0101 .t p (chkModelCreate p L h d32 fmt thr wBytes bBytes s) (doModelCreate p L h d32 fmt thr wBytes bBytes s) s

/-! ## MODEL_WRITE -/

/-- The size declared for a part (0 weights, 1 bundle). -/
def Model.partBytes (m : Model) (part : Nat) : Nat := if part = 0 then m.wBytes else m.bBytes

/-- The checks of MODEL_WRITE (R230). -/
def chkModelWrite (p : Pkt) (inst part die off : Nat) (data : List Byte) (s : State) : Option (Status × Nat) :=
  let size := ((s.modelOf p inst).map fun m => m.partBytes part).getD 0
  let committed := ((s.modelOf p inst).map fun m => m.bundle.isSome).getD true
  firstOf [badHdr (!(s.hasTenant p.tenant)) 8, badAt committed 0, badAt (decide (1 < part)) 1,
    badAt (if part = 0 then !(s.usable die) else die != 0) 2, badAt (off % 64 != 0) 8,
    badAt (decide (ceilDiv size 64 * 64 < off + data.length)) 8]

/-- The bytes below the declared size are written. -/
def doModelWrite (p : Pkt) (inst part die off : Nat) (data : List Byte) (s : State) : State :=
  match s.modelOf p inst with
  | none => s
  | some m =>
    let bs := data.take (m.partBytes part - off)
    let m' := if part = 0 then { m with weightMem := mwriteN m.weightMem (die * 2 ^ 40 + off) bs }
      else { m with bundleMem := mwriteN m.bundleMem off bs }
    { s with models := tput s.models inst m' }.ok 0x0102 p

/-- MODEL_WRITE (R230). -/
def execModelWrite (p : Pkt) (inst part die off : Nat) (data : List Byte) (s : State) : Out :=
  opcode 0x0102 .t p (chkModelWrite p inst part die off data s) (doModelWrite p inst part die off data s) s

/-! ## MODEL_COMMIT -/

/-- A grant shape lies in the instance's memory (R189). -/
def grantShapeOk (m : Model) (b : Bundle) (g : GrantShape) : Bool :=
  decide (g.units ≤ 2 ^ 30) && match g.area with
    | none => decide (64 * (g.first + g.units) ≤ ceilDiv m.wBytes 64 * 64)
    | some a => decide (a < b.areas.length) && decide (g.first + g.units ≤ b.areas.getD a 0)

/-- A template within Table 8-2, its words by R168 (R187, R230). What a matrix tile's local memory holds of it fits: the declared part
and the sheet lists, the pattern, and 8,448 bytes for each thread slot of both arrays (R142). -/
def templateOk (m : Model) (b : Bundle) (t : Template) : Bool :=
  let common := decide (64 ≤ t.declBytes) && t.declBytes % 64 == 0 && decide (t.streams ≤ 16) &&
    decide (t.grants.length ≤ 255) && t.grants.all (grantShapeOk m b)
  common && match t.kind with
    | .matrix => decide (t.declBytes ≤ 1179648) && decide (t.patBytes ≤ 65536) && decide (t.slots ≤ 16) && t.words.isEmpty &&
        decide (t.declBytes ≤ 64 * t.listUnit) &&
        decide (64 * (t.listUnit + t.listUnits) + t.patBytes + 16896 * t.slots ≤ 1572864)
    | .vector => decide (t.declBytes ≤ 229376) && decide (t.patBytes ≤ 32768) && t.slots == 0 &&
        t.patBytes == 8 * t.words.length && vpatternOk m.tenant t.words

/-- A layer's window and sinks within Table 2-2. -/
def layerOk (w : LayerWin) : Bool := decide (w.window ≤ 16777215) && decide (w.sinks ≤ 64)

/-- The grants of a template by number, from 1 (R189), as `sourceOk` asks for them. -/
def templateGrant (t : Template) (g : Nat) : Option (Nat × Bool) :=
  if g = 0 then none else (t.grants[g - 1]?).map fun e => (e.units, e.canRd)

/-- A thread shape of a list names a chain of the die's arrays and a slot of each, within Table 6-1, a context of the list, and
source descriptors that pass R154 (R141, R142). -/
def threadShapeOk (m : Model) (b : Bundle) (l : DList) (t : ThreadShape) : Bool :=
  decide (t.die < 8) && chainOk (t.members.map (·.1)) && t.members.all (fun e => decide (e.2 < 16)) && match l.ctxs[t.ctx]? with
    | none => false
    | some c => match b.templates[c.template]? with
      | none => false
      | some p => t.sources.all (sourceOk m.tenant (templateGrant p))

/-- A dispatch list that names templates of the bundle, and no context twice (R230). -/
def listOk (m : Model) (b : Bundle) (l : DList) : Bool :=
  let keys := l.ctxs.map fun c => (c.template, c.index)
  l.ctxs.all (fun c => decide (c.template < b.templates.length)) && decide (keys.eraseDups.length = keys.length) &&
    l.threads.all (threadShapeOk m b l)

/-- The bundle is not faulty (R230). -/
def bundleOk (m : Model) (b : Bundle) : Bool :=
  b.templates.all (templateOk m b) && decide (b.layers.length = m.layers) && b.layers.all layerOk && b.lists.all (listOk m b)

/-- The bytes that the instance's measurement covers: the bundle, then each die's weights (R230; log entry 17). -/
def State.modelBytes (s : State) (m : Model) : List Byte :=
  mreadN m.bundleMem 0 m.bBytes ++ (List.range s.dieCount).flatMap fun d => mreadN m.weightMem (d * 2 ^ 40) m.wBytes

/-- The instance is committed, with the bundle as firmware reads it. -/
def State.commitModel (s : State) (p : Pkt) (inst : Nat) (m : Model) (b : Bundle) : State :=
  let dg := Config.sha384 (s.modelBytes m)
  { s with models := tput s.models inst { m with bundle := some b, digest := dg } }.finish 0x0103 p .ok 0
    (le 48 dg.toNat) []

/-- MODEL_COMMIT's work: a committed instance answers its digest; a faulty bundle is refused, its `detail` being the byte
offset of the fault in a form that is not published, a free value (log entry 10). -/
def State.runCommit (s : State) (p : Pkt) (inst : Nat) (b : Bundle) : State :=
  match s.modelOf p inst with
  | none => s.decide1 0x0103 p (firstOf [badHdr (!(s.hasTenant p.tenant)) 8, badAt true 0]) s
  | some m =>
    if s.hasTenant p.tenant then
      if m.bundle.isSome then s.finish 0x0103 p .ok 0 (le 48 m.digest.toNat) []
      else if bundleOk m b then s.commitModel p inst m b
      else
        let (n, s1) := s.freeNat
        s1.refuse 0x0103 p .badParam n
    else s.refuse 0x0103 p .badParam 8

/-- MODEL_COMMIT (R187, R230). -/
def execModelCommit (p : Pkt) (inst : Nat) (bundle : Bundle) (s : State) : Out :=
  gate 0x0103 .t p (s.runCommit p inst bundle) s

/-! ## MODEL_DESTROY -/

/-- Contexts or sequences of the instance exist. -/
def State.modelUsed (s : State) (i : Nat) : Bool :=
  (s.seqs.any fun e => e.2.model == i) || s.dies.any fun e => e.2.ctxs.any fun c => c.2.model == i

/-- MODEL_DESTROY (R230). -/
def execModelDestroy (p : Pkt) (inst : Nat) (s : State) : Out :=
  opcode 0x0104 .t p
    (firstOf [badHdr (!(s.hasTenant p.tenant)) 8, badAt (s.modelOf p inst).isNone 0, badAt (s.modelUsed inst) 0])
    ((s.removeModel inst).ok 0x0104 p) s

end Sys2Proof.Machine
end

