-- ==== Sys2Proof/Machine/Execute.lean ====
section
/-! DEFINITION. EXEC_DISPATCH and the end of a step (R231 to R233, R394, R395). -/

namespace Sys2Proof.Machine

/-! ## The checks of step 1 (R231, R232) -/

/-- The checks of one entry, numbered `i`. -/
def State.entryChecks (s : State) (p : Pkt) (inst payload : Nat) (seen : List Nat) (i : Nat) (e : ExecEntry) :
    List (Bool × Status × Nat) :=
  let q := s.seqOf p e.seq
  let mine := match q with
    | some q => q.model == inst
    | none => false
  let pos := (q.map (·.pos)).getD 0
  [badAt (!mine || seen.contains e.seq) (16 + 8 * i), badAt (!(decide (1 ≤ e.nTok) && decide (e.nTok ≤ 65535))) (18 + 8 * i),
    badAt (decide (payload < 64 * (e.inOff + e.inLen))) (20 + 8 * i), badAt (decide (16777216 < pos + e.nTok)) (18 + 8 * i)]

/-- The checks of the entries in turn. -/
def State.entriesChecks (s : State) (p : Pkt) (inst payload : Nat) : Nat → List Nat → List ExecEntry →
    List (Bool × Status × Nat)
  | _, _, [] => []
  | i, seen, e :: r =>
    s.entryChecks p inst payload seen i e ++ s.entriesChecks p inst payload (i + 1) (e.seq :: seen) r

/-- The dispatch list of a committed instance. -/
def State.dlist (s : State) (p : Pkt) (inst list : Nat) : Option DList := (s.bundleOf p inst).bind fun b => b.lists[list]?

/-- The contexts of the list, where every one is there. -/
def State.dispatchCtxs (s : State) (p : Pkt) (inst list n : Nat) : Option (List (Nat × List Nat)) :=
  match s.dlist p inst list with
  | none => none
  | some l => (s.listCtxs p.tenant inst l n).mapM id

/-- Step 1 but for the sheet lists. -/
def State.execChecks (s : State) (p : Pkt) (inst list outUnits : Nat) (entries : List ExecEntry) (payload : Nat) :
    List (Bool × Status × Nat) :=
  let n := entries.length
  let ctxs := s.dispatchCtxs p inst list n
  [badHdr (!(s.hasTenant p.tenant)) 8, badAt (s.bundleOf p inst).isNone 0, badAt (s.dlist p inst list).isNone 2,
    badAt (!(decide (1 ≤ n) && decide (n ≤ 1024))) 4,
    badAt (decide (4096 < outUnits) || decide (262144 < n * outUnits * 64)) 6] ++
  s.entriesChecks p inst payload 0 [] entries ++
  [badAll (match ctxs with
    | none => true
    | some l => !(l.all fun c => s.ctxIdle c.1))]

/-! ## Steps 2 to 5 -/

/-- The entries as the step begins: a LOST sequence's reports STATE_LOST and takes no part (R232). -/
def State.entryRuns (s : State) (entries : List ExecEntry) : List EntryRun :=
  entries.map fun e =>
    let lost : Bool := match s.seq e.seq with
      | some q => q.st == .lost
      | none => true
    { seq := e.seq, nTok := e.nTok, inOff := e.inOff, inLen := e.inLen, status := cond lost .stateLost .ok, fp := 0,
      tails := [], lostTok := ((s.die (seqDie e.seq)).firstLost e.seq).getD 0 }

/-- Sequences of the step that run. -/
def liveSeqs (es : List EntryRun) : List Nat := (es.filter fun e => e.status == .ok).map (·.seq)

/-- SUSPENDED sequences of the step resume (R36). -/
def State.resumeAll (s : State) (ns : List Nat) : State :=
  ns.foldl (fun s n => s.modSeq n fun q => if q.st = .suspended then { q with st := .active } else q) s

/-- Step 3: a die on which an idle operation runs, or whose 128 ACTIVE sequences the step would pass. -/
def State.capacityBad (s : State) (ns : List Nat) : Option Nat :=
  if ns.any fun n => (s.die (seqDie n)).idle.isSome then some 8
  else
    let t := s.resumeAll ns
    if (ns.map seqDie).any fun d => decide (128 < t.active d) then some 1 else none

/-- Step 4: the dies of the list with what is planned on each. -/
def State.planOf (s : State) (inst list : Nat) (l : DList) (es : List EntryRun) : List (Nat × Nat) :=
  let live := es.filter fun e => e.status == .ok
  let t := (live.map (·.nTok)).sum
  (l.est.filter fun e => s.usable e.die).map fun e => (e.die, (s.die e.die).plannedNj inst list e live.length t)

/-- The first die of the plan that defers the dispatch, with the `detail`. -/
def State.energyDefers (s : State) (t cls periods : Nat) (plan : List (Nat × Nat)) : Option (Nat × Nat) :=
  plan.findSome? fun e => (s.energyBad e.1 t cls e.2 periods).map fun n => (e.1, n)

/-- A list that some context of the step serves does not fit the part its template reserves (R467); a template that reserves none has
no lists. Where the step finds no frames, its lists are those of the sheets that stand. -/
def listsBad (b : Bundle) (l : DList) (cs : List (Nat × List Nat)) (layers : Nat) (es : List EntryRun)
    (lists : Tbl (List Nat)) : Bool :=
  (l.ctxs.zip cs).any fun c =>
    match b.templates[c.1.template]? with
    | none => false
    | some t =>
      t.kind == .matrix && t.listUnits != 0 && c.2.2.any fun i =>
        match es[i]? with
        | none => false
        | some e => (List.range layers).any fun ly =>
            decide (64 * t.listUnits < 4 * (tget lists (e.seq * 256 + ly) []).length)

/-- The dispatch as admitted. -/
def newDispatch (p : Pkt) (inst list cls outUnits periods : Nat) (es : List EntryRun) (payload : List Byte)
    (cs : List (Nat × List Nat)) (lists : Tbl (List Nat)) (plan : List (Nat × Nat)) : Dispatch :=
  { pkt := p, model := inst, list := list, cls := cls, outUnits := outUnits, entries := es, payload := payload, ctxs := cs,
    lists := lists, recs := [], planned := plan, periods := periods, age := plan.map fun e => (e.1, 0) }

/-- A fresh number for a dispatch. -/
def State.newDisp (s : State) : Nat := s.disps.length + ((argmax id (tkeys s.disps)).getD 0)

/-- Firmware ties a knot of the tenant to a context, unless it is TIED (R203). -/
def State.tieAt (s : State) (tenant ctx k : Nat) (value : BitVec 64) : State :=
  s.modDie (ctx / 4096) fun x =>
    if (x.knot k).tied || !(knotOfTenant tenant k) then x
    else x.modKnot k fun n => { n with tied := true, owner := ctx % 4096, tenant := tenant, value := value, wrap := false }

/-- Step 6: the dispatch runs. Its sequences are held and counted as stepped, its threads and streams bound, the knots that firmware
ties at dispatch tied, its contexts READY. -/
def State.runStep (s : State) (inst : Nat) (l : DList) (b : Bundle) (x : Dispatch) : State :=
  let id := s.newDisp
  let (now, s0) := s.tick
  let s1 := { s0 with disps := tput s0.disps id x }
  let s2 := (liveSeqs x.entries).foldl (fun s n => s.modSeq n fun q => { q with heldBy := some id, stepped := now }) s1
  let s3 := l.threads.foldl (fun s t =>
    let c := ((x.ctxs[t.ctx]?).map (·.1)).getD 0
    s.modDie t.die fun y => y.bindThread id (c % 4096) t) s2
  let s3 := l.ties.foldl (fun s e => s.tieAt x.pkt.tenant ((x.ctxs.map (·.1)).getD e.2.1 0) e.1 e.2.2) s3
  let s4 := (x.ctxs.zip (streamsOf b l)).foldl (fun s c => s.startCtx id x.cls c.2 c.1.1) s3
  match tfind s4.models inst with
  | some m => if m.poisoned then
      { s4 with disps := tput s4.disps id { x with
          entries := x.entries.map fun e => if e.status = .ok then { e with status := .unitFenced } else e } }
    else s4
  | none => s4

/-- The die that NO_SHEETS names: the first whose sequences find no frame. -/
def State.noSheetsDie (s : State) (m : Model) (es : List EntryRun) : Nat :=
  let t := s.resumeAll (liveSeqs es)
  ((es.find? fun e => e.status == .ok &&
    (State.takeAll m (es.filter fun f => seqDie f.seq == seqDie e.seq) t).isNone).map fun e => seqDie e.seq).getD 0

/-- A die's refusal for energy is counted (R389, R398). -/
def State.countDefer (s : State) (d : Nat) : State :=
  s.modDie d fun x => (x.modLed fun l => { l with scDeferred := true }).count lgDeferrals 0 1

/-- EXEC_DISPATCH's work from step 3 on, with every part of the list found. -/
def State.admission (s : State) (p : Pkt) (inst list outUnits : Nat) (payload : List Byte) (m : Model) (b : Bundle) (l : DList)
    (cs : List (Nat × List Nat)) (es : List EntryRun) : State :=
  let cls := (s.queue p.queue).cls
  let ns := liveSeqs es
  let plan := s.planOf inst list l es
  let got := State.takeAll m es (s.resumeAll ns)
  let lists := match got with
    | some g => g.1.listsFor m.layers g.2
    | none => s.listsFor m.layers es
  if listsBad b l cs m.layers es lists then s.refuse 0x0301 p .badParam 0xFFFFFFFF
  else
    match s.capacityBad ns with
    | some n => s.refuse 0x0301 p .deferredCapacity n
    | none =>
      match s.energyDefers p.tenant cls l.periods plan with
      | some (d, n) => (s.countDefer d).refuse 0x0301 p .deferredEnergy n
      | none =>
        match got with
        | none => s.refuse 0x0301 p .noSheets (s.noSheetsDie m es)
        | some (s1, es1) =>
          s1.runStep inst l b (newDispatch p inst list cls outUnits l.periods es1 payload cs lists plan)

/-- The step must wait: another admitted step holds one of its sequences (R226), or the thread slots or streams it binds are
in use (R200; log entry 19). -/
def State.mustWait (s : State) (entries : List ExecEntry) (b : Bundle) (l : DList) (cs : List (Nat × List Nat)) : Bool :=
  (entries.any fun e => s.seqHeld e.seq) || !(l.threads.all s.threadFits) ||
    !(s.streamsFit cs (streamsOf b l) l.threads)

/-- EXEC_DISPATCH's work. -/
def State.runExec (s : State) (p : Pkt) (inst list outUnits : Nat) (entries : List ExecEntry) (payload : List Byte) : State :=
  match firstOf (s.execChecks p inst list outUnits entries payload.length) with
  | some (st, det) => s.refuse 0x0301 p st det
  | none =>
    match s.modelOf p inst, s.bundleOf p inst, s.dlist p inst list, s.dispatchCtxs p inst list entries.length with
    | some m, some b, some l, some cs =>
      if s.mustWait entries b l cs then s.park (.execDispatch p inst list outUnits entries payload)
      else s.admission p inst list outUnits payload m b l cs (s.entryRuns entries)
    | _, _, _, _ => s

/-- EXEC_DISPATCH (R231, R232). -/
def execExecDispatch (p : Pkt) (inst list outUnits : Nat) (entries : List ExecEntry) (payload : List Byte) (s : State) : Out :=
  gate 0x0301 .x p (s.runExec p inst list outUnits entries payload) s

/-! ## The end of a step (R37, R190, R233, R394) -/

/-- The status an entry ends with: a sequence that was LOST during the step reports it (R53). -/
def State.endStatus (s : State) (e : EntryRun) : Status :=
  match s.seq e.seq with
  | some q => if e.status == .ok && q.st == .lost then .stateLost else e.status
  | none => if e.status = .ok then .stateLost else e.status

/-- One entry ends: it commits or rolls back, and its sequence is held no more. A step that left a layer without its tokens
keeps the counter (R37). The reply's status and position go with the state. -/
def State.endEntry (id : Nat) (m : Model) (p : State × List (EntryRun × Nat)) (e : EntryRun) :
    State × List (EntryRun × Nat) :=
  let st := p.1.endStatus e
  let pos := ((p.1.seq e.seq).map (·.pos)).getD 0
  let s1 :=
    if st = .ok ∧ (p.1.die (seqDie e.seq)).appended e.seq (pos + e.nTok) m.layers = true then p.1.commitEntry m e
    else
      let t := p.1.rollback e
      if st = .stateLost then t.loseSeq false e.seq else t
  let s2 := s1.modSeq e.seq fun q => if q.heldBy = some id then { q with heldBy := none } else q
  let now := ((s2.seq e.seq).map (·.pos)).getD 0
  let tok := ((s2.die (seqDie e.seq)).firstLost e.seq).getD e.lostTok
  (s2, p.2 ++ [({ e with status := st }, if st = .stateLost then tok else now)])

/-- An entry of the reply (Table 9-15). -/
def entryBytes (e : EntryRun × Nat) : List Byte :=
  le 2 e.1.status.code ++ le 1 e.1.fp ++ [0] ++ le 4 (e.2 % 2 ^ 25)

/-- A completion record of the reply (Table 9-15, R118). -/
def recBytes (r : RecOut) : List Byte :=
  le 2 r.ctx ++ zeros 6 ++ le 8 (r.tag % 65536 + r.status.code * 2 ^ 16 + r.fp % 256 * 2 ^ 32)

/-- Records that did not fit, in continuation entries of 1,021 records each. -/
def moreRecs : Nat → List RecOut → List (List Byte × List Byte)
  | 0, _ => []
  | _, [] => []
  | n + 1, r :: l =>
    let part := (r :: l).take 1021
    (le 2 0 ++ le 2 part.length ++ zeros 12 ++ part.flatMap recBytes, []) :: moreRecs n ((r :: l).drop 1021)

/-- The entries of the reply to a dispatch (Table 9-15). -/
def dispatchReply (es : List (EntryRun × Nat)) (recs : List RecOut) (payload : List Byte) : List (List Byte × List Byte) :=
  let k := (16352 - 16 - 8 * es.length) / 16
  let first := recs.take k
  (le 2 es.length ++ le 2 first.length ++ zeros 12 ++ es.flatMap entryBytes ++ first.flatMap recBytes, payload) ::
    moreRecs (recs.length / 1021 + 1) (recs.drop k)

/-- The output of one entry: its bytes to `out_units` units, zeros where it is not OK (R233). -/
def outBytes (units : Nat) (st : Status) (bs : List Byte) : List Byte :=
  if st = .ok then (bs ++ zeros (64 * units)).take (64 * units) else zeros (64 * units)

/-- The factor of a die will follow what the dispatch's work was charged there, once the period of its end is charged (R394). -/
def State.learn (s : State) (id : Nat) (x : Dispatch) (e : DieEst) : State :=
  let live := x.entries.filter fun e => !(e.status == .stateLost && e.tails.isEmpty)
  let est := estNj e live.length (live.map (·.nTok)).sum
  s.modDie e.die fun y =>
    if est = 0 ∨ (x.plannedOn e.die).isNone then { y with tallies := tdel y.tallies id }
    else
      let nj := (tget y.tallies id { nj := 0, ended := none }).nj
      { y with tallies := tput y.tallies id { nj := nj, ended := some (x.model * 65536 + x.list, est) } }

/-- The step ends: entries commit or roll back, threads are unbound, factors move, the reply is built. -/
def State.endStep (s : State) (id : Nat) (x : Dispatch) (outs : List (List Byte)) : State :=
  match tfind s.models x.model with
  | none => { s with disps := tdel s.disps id }
  | some m =>
    let (s1, es) := x.entries.foldl (State.endEntry id m) (s, [])
    let s2 := (List.range s.dieCount).foldl (fun s d => s.modDie d fun y => y.unbindDispatch id) s1
    let s3 := match m.bundle.bind fun b => b.lists[x.list]? with
      | some l => l.est.foldl (fun (t : State) e => t.learn id x e) s2
      | none => s2
    let payload := (es.mapIdx fun i e => outBytes x.outUnits e.1.status (outs.getD i [])).flatten
    let fp := (es.map fun e => e.1.fp) ++ x.recs.map (·.fp)
    ({ s3 with disps := tdel s3.disps id }).settleKeys.finishMany 0x0301 x.pkt .ok (fp.foldl Nat.lor 0)
      (dispatchReply es x.recs payload)

end Sys2Proof.Machine
end

