-- ==== Sys2Proof/Machine/MatMath.lean ====
section
/-! DEFINITION. What a MATMUL computes (R110 to R134): shapes, layout, checks, passes, epilogue. -/

namespace Sys2Proof.Machine

/-! ## Fields of a MATMUL descriptor (Table 5-3) -/

/-- `quire`. -/
def mmQuire (d : BitVec 512) : Bool := dw d 0 27 27 == 1
/-- `quarter`. -/
def mmQuarter (d : BitVec 512) : Nat := dw d 0 26 25
/-- `stagger`. -/
def mmStagger (d : BitVec 512) : Bool := dw d 0 24 24 == 1
/-- `c_port`. -/
def mmPort (d : BitVec 512) : Bool := dw d 0 22 22 == 1
/-- `a_fmt`. -/
def mmA (d : BitVec 512) : Nat := dw d 0 20 16
/-- `b_fmt`. -/
def mmB (d : BitVec 512) : Nat := dw d 0 15 11
/-- `c_fmt`. -/
def mmC (d : BitVec 512) : Nat := dw d 0 10 6
/-- `c_block`. -/
def mmBlock (d : BitVec 512) : Bool := dw d 0 5 5 == 1
/-- `b_src`. -/
def mmSrc (d : BitVec 512) : Bool := dw d 0 4 4 == 1
/-- M. -/
def mmM (d : BitVec 512) : Nat := dw d 1 23 0
/-- K. -/
def mmK (d : BitVec 512) : Nat := dw d 2 31 16
/-- N. -/
def mmN (d : BitVec 512) : Nat := dw d 2 15 0

/-- Double rate (Table 5-2): stationary MXFP4 against MXFP4 or MXFP8. -/
def mmDouble (d : BitVec 512) : Bool := !(mmQuire d) && mmB d == 0 && (mmA d == 0 || mmA d == 3 || mmA d == 4)

/-- K elements of a group: 32, or 16 in quire mode (R95). -/
def mmGroup (d : BitVec 512) : Nat := if mmQuire d then 16 else 32

/-- Columns of a stationary block (Table 5-2). -/
def mmCols (d : BitVec 512) : Nat := if mmQuire d then 16 else if mmDouble d then 64 else 32

/-- Passes along K, blocks along N, chunks along M (R119). -/
def mmPasses (d : BitVec 512) : Nat × Nat × Nat :=
  (ceilDiv (mmK d) (mmGroup d), ceilDiv (mmN d) (mmCols d), ceilDiv (mmM d) 256)

/-- Passes of the descriptor. -/
def mmTotal (d : BitVec 512) : Nat := (mmPasses d).1 * (mmPasses d).2.1 * (mmPasses d).2.2

/-- Chunk, N block and K block of pass `i` (R119). -/
def mmPassAt (d : BitVec 512) (i : Nat) : Nat × Nat × Nat :=
  let p := mmPasses d
  (i / (p.1 * p.2.1), i / p.1 % p.2.1, i % p.1)

/-- Rows of chunk `mc`. -/
def mmRows (d : BitVec 512) (mc : Nat) : Nat := min 256 (mmM d - 256 * mc)

/-! ## Layout (R116) -/

/-- An MX format. -/
def isMx (fmt : Nat) : Bool := decide (fmt ≤ 5)

/-- Bytes of a row of `n` elements: whole blocks for an MX format. -/
def rowBytes (fmt n : Nat) : Nat :=
  if isMx fmt then ceilDiv n 32 * (4 * elemBits fmt) else ceilDiv (n * elemBits fmt) 8

/-- A range of local memory in bytes. -/
structure Span where
  lo : Nat
  hi : Nat
  deriving DecidableEq, Repr

/-- `rows` rows of `bytes` bytes, `stride` 64-byte units apart, from unit `base` on; empty without rows or bytes. -/
def span (base rows stride bytes : Nat) : Span :=
  if rows = 0 ∨ bytes = 0 then { lo := 0, hi := 0 }
  else { lo := 64 * base, hi := 64 * base + (rows - 1) * (64 * stride) + bytes }

/-- Two ranges meet. -/
def Span.meets (a b : Span) : Bool := decide (a.lo < b.hi) && decide (b.lo < a.hi)

/-- A's range. -/
def mmSpanA (d : BitVec 512) : Span :=
  if mmStagger d then span 0 0 0 0 else span (dw d 3 14 0) (mmM d) (dw d 3 30 16) (rowBytes (mmA d) (mmK d))
/-- The range of A's scales. -/
def mmSpanAs (d : BitVec 512) : Span :=
  if isMx (mmA d) && !(mmStagger d) then span (dw d 4 14 0) 1 0 (mmM d * ceilDiv (mmK d) 32) else span 0 0 0 0
/-- B's range. -/
def mmSpanB (d : BitVec 512) : Span :=
  if mmSrc d then span 0 0 0 0 else span (dw d 5 14 0) (mmK d) (dw d 5 30 16) (rowBytes (mmB d) (mmN d))
/-- The range of B's scales. -/
def mmSpanBs (d : BitVec 512) : Span :=
  if isMx (mmB d) && !(mmSrc d) then span (dw d 6 14 0) 1 0 (ceilDiv (mmK d) 32 * mmN d) else span 0 0 0 0
/-- Rows of C as written and their length: transposed with `c_block` = 1. -/
def mmShapeC (d : BitVec 512) : Nat × Nat := if mmBlock d then (mmN d, mmM d) else (mmM d, mmN d)
/-- C's range. -/
def mmSpanC (d : BitVec 512) : Span :=
  if mmPort d then span 0 0 0 0
  else span (dw d 7 14 0) (mmShapeC d).1 (dw d 7 30 16) (rowBytes (mmC d) (mmShapeC d).2)
/-- The range of C's scales. -/
def mmSpanCs (d : BitVec 512) : Span :=
  if isMx (mmC d) && !(mmPort d) then span (dw d 6 30 16) 1 0 ((mmShapeC d).1 * ceilDiv (mmShapeC d).2 32) else span 0 0 0 0
/-- The scale values the epilogue reads. -/
def mmSpanScale (d : BitVec 512) : Span :=
  if dw d 0 3 3 = 1 then span (dw d 9 14 0) 1 0 (if dw d 9 15 15 = 1 then 4 else 4 * mmN d) else span 0 0 0 0
/-- The bias vector. -/
def mmSpanBias (d : BitVec 512) : Span := if dw d 0 2 2 = 1 then span (dw d 9 30 16) 1 0 (4 * mmN d) else span 0 0 0 0
/-- The activation table. -/
def mmSpanAct (d : BitVec 512) : Span := if dw d 0 1 1 = 1 then span (dw d 10 14 0) 1 0 384 else span 0 0 0 0
/-- The rotation table. -/
def mmSpanRot (d : BitVec 512) : Span :=
  if dw d 0 0 0 = 1 then span (dw d 10 30 16) (mmM d) (dw d 11 14 0) (4 * mmN d) else span 0 0 0 0
/-- The initial vector. -/
def mmSpanInit (d : BitVec 512) : Span := if dw d 8 17 16 = 1 then span (dw d 8 14 0) 1 0 (4 * mmN d) else span 0 0 0 0

/-! ## Reading -/

/-- The code of element `i` of a row at byte `base`. -/
def elemAt (m : Memory) (base fmt i : Nat) : Nat :=
  let w := elemBits fmt
  if w = 32 then leNat (mreadN m (base + 4 * i) 4)
  else leNat (mreadN m (base + i * w / 8) 2) / 2 ^ (i * w % 8) % 2 ^ w

/-- An element's value: MX under its scale code, Ziken under its exponent t (R91, R95). -/
def elemVal (fmt code scale : Nat) (t : Int) : Num :=
  if isMx fmt then mxDec fmt scale code
  else if fmt = 0x08 then .ofInt (toSigned 8 code) 0
  else if fmt = 0x0A then fBf16.dec code
  else if fmt = 0x10 then .ofInt (toSigned 4 code) t
  else .ofInt (toSigned 8 code) t

/-- Row `m` of A for K block `kb`. -/
def rowOfA (mem : Memory) (d : BitVec 512) (m kb : Nat) : List Num :=
  let g := mmGroup d
  let base := 64 * (dw d 3 14 0 + m * dw d 3 30 16)
  let sc := (mread mem (64 * dw d 4 14 0 + m * ceilDiv (mmK d) 32 + kb)).toNat
  (List.range g).map fun i =>
    if g * kb + i < mmK d then elemVal (mmA d) (elemAt mem base (mmA d) (g * kb + i)) sc (toSigned 8 (dw d 1 31 24))
    else Num.zero

/-- The stationary block (N block, K block) of B in local memory, column by column. -/
def blockOfB (mem : Memory) (d : BitVec 512) (nb kb : Nat) : List (List Num) :=
  let g := mmGroup d
  (List.range (mmCols d)).map fun j =>
    let n := mmCols d * nb + j
    let sc := (mread mem (64 * dw d 6 14 0 + kb * mmN d + n)).toNat
    (List.range g).map fun i =>
      if g * kb + i < mmK d ∧ n < mmN d then
        elemVal (mmB d) (elemAt mem (64 * (dw d 5 14 0 + (g * kb + i) * dw d 5 30 16)) (mmB d) n) sc
          (toSigned 8 (dw d 4 23 16))
      else Num.zero

/-- The stationary block of a thread's record (R143): elements row by row, scales in its last 64 bytes. -/
def blockOfRec (d : BitVec 512) (nb kb : Nat) (r : List Byte) : List (List Num) :=
  let bn := mmCols d
  let mem : Memory := r.mapIdx fun i b => (i, b)
  let rb := rowBytes (mmB d) bn
  (List.range bn).map fun j =>
    let sc := (r.getD (64 + 32 * rb + j) 0).toNat
    (List.range 32).map fun i =>
      if 32 * kb + i < mmK d ∧ bn * nb + j < mmN d then elemVal (mmB d) (elemAt mem (64 + i * rb) (mmB d) j) sc 0
      else Num.zero

/-- R147: the record is the block that the pass expects next. -/
def recMatches (d : BitVec 512) (nb kb : Nat) (r : List Byte) : Bool :=
  let b (i : Nat) : Nat := (r.getD i 0).toNat
  b 0 % 32 == mmB d && b 0 / 32 % 2 == b2n (mmDouble d) && b 0 / 128 == 0 && b 1 == 0 && fieldAt r 2 2 == kb &&
    fieldAt r 4 2 == nb && fieldAt r 6 2 == dw d 12 31 16 && b 14 / 128 == 0 && b 15 / 2 == 0 &&
    ((r.drop 16).take 48).all fun x => x == 0

/-- One row of one pass in a port word (R127), zero beyond K. -/
def rowOfWord (d : BitVec 512) (m : BitVec 512) (kb : Nat) : List Num :=
  let bs := unitBytes m
  let mem : Memory := bs.mapIdx fun i b => (i, b)
  let g := mmGroup d
  let base := if mmQuire d then 16 * mmQuarter d else 0
  (List.range g).map fun i =>
    if g * kb + i < mmK d then
      elemVal (mmA d) (elemAt mem base (mmA d) i) (bs.getD 63 0).toNat (toSigned 8 (dw d 1 31 24))
    else Num.zero

/-! ## Passes (R95, R96, R111) -/

/-- Key of the accumulator of (m, n) in a bank (R110, R122): row m of its chunk, column n of its N block, in quire mode in the
quarter's own 16 columns (R124). -/
def accKey (d : BitVec 512) (bank m n : Nat) : Nat :=
  (256 * bank + m % 256) * 64 + (if mmQuire d then 16 * mmQuarter d + n % 16 else n % mmCols d)

/-- The initial value of column `n` (R96, R99, R115). -/
def initVal (mem : Memory) (d : BitVec 512) (n : Nat) : Num × Ev :=
  if dw d 8 17 16 = 1 then b32In (leNat (mreadN mem (64 * dw d 8 14 0 + 4 * n) 4)) else (Num.zero, Ev.none)

/-- One row through one block: its group enters the accumulator of every column that is in range, in the bank. -/
def streamRow (mem : Memory) (d : BitVec 512) (bank : Nat) (b : Blk) (m : Nat) (row : List Num) (acc : Tbl Num) : Tbl Num × Ev :=
  b.cols.zipIdx.foldl (fun (p : Tbl Num × Ev) c =>
    let n := mmCols d * b.nb + c.2
    if n < mmN d then
      let start := if b.kb = 0 then initVal mem d n else (tget p.1 (accKey d bank m n) Num.zero, Ev.none)
      let prods := List.zipWith Num.mul row c.1
      let nanIn := (row.zip c.1).any fun q => q.1.isNan || q.2.isNan
      let u := accUpdate start.1 prods nanIn
      (tput p.1 (accKey d bank m n) u.1, (p.2.join start.2).join u.2)
    else p) (acc, Ev.none)

/-- A whole pass under broadcast entry. -/
def streamPass (mem : Memory) (d : BitVec 512) (bank : Nat) (b : Blk) (acc : Tbl Num) : Tbl Num × Ev :=
  (List.range (mmRows d b.mc)).foldl (fun (p : Tbl Num × Ev) i =>
    let m := 256 * b.mc + i
    let q := streamRow mem d bank b m (rowOfA mem d m b.kb) p.1
    (q.1, p.2.join q.2)) (acc, Ev.none)

/-! ## The epilogue (R131 to R134) -/

/-- A binary32 value that a stage reads (R99). -/
def stageVal (mem : Memory) (byte : Nat) : Num × Ev := b32In (leNat (mreadN mem byte 4))

/-- A stage operation's result, rounded once (R131), with its flags. -/
def stageOut (nanIn : Bool) (x : Num) : Num × Ev :=
  (x.round24, if x.isNan then (if nanIn then Ev.nan else Ev.invalid) else Ev.none)

/-- A stage's sum. -/
def stageAdd (a b : Num × Ev) : Num × Ev :=
  let r := stageOut (a.1.isNan || b.1.isNan) (a.1.add b.1)
  (r.1, (a.2.join b.2).join r.2)

/-- A stage's product. -/
def stageMul (a b : Num × Ev) : Num × Ev :=
  let r := stageOut (a.1.isNan || b.1.isNan) (a.1.mul b.1)
  (r.1, (a.2.join b.2).join r.2)

/-- The activation (R132). The breakpoints are binary32 values that the stage reads, so that what their reading reports counts
(R99, R106). -/
def activate (mem : Memory) (base : Nat) (x : Num × Ev) : Num × Ev :=
  match x.1 with
  | .nan => (.nan, x.2.join Ev.nan)
  | _ =>
    let bs := (List.range 31).map fun i => stageVal mem (base + 4 * i)
    let k := (bs.filter fun b => !(Num.lt false x.1 b.1)).length
    let x := (x.1, x.2.join (Ev.all (bs.map (·.2))))
    let a := stageVal mem (base + 128 + 4 * k)
    let c := stageVal mem (base + 256 + 4 * k)
    if a.1.isZero then (c.1, (x.2.join a.2).join c.2) else stageAdd (stageMul a x) c

/-- Scale, bias and activation of the accumulator of (m, n) in a bank. DESIGN CHOICE, log entry 76: an initial value, a scale, a
bias or a table value that R99 flushes counts once for each accumulator that takes it. -/
def stages3 (mem : Memory) (d : BitVec 512) (acc : Tbl Num) (bank m n : Nat) : Num × Ev :=
  let x0 : Num × Ev := if mmK d = 0 then initVal mem d n else (tget acc (accKey d bank m n) Num.zero, Ev.none)
  let x1 := if dw d 0 3 3 = 1 then
      stageMul x0 (stageVal mem (64 * dw d 9 14 0 + (if dw d 9 15 15 = 1 then 0 else 4 * n))) else x0
  let x2 := if dw d 0 2 2 = 1 then stageAdd x1 (stageVal mem (64 * dw d 9 30 16 + 4 * n)) else x1
  if dw d 0 1 1 = 1 then activate mem (64 * dw d 10 14 0) x2 else x2

/-- A value without its reports. -/
def hush (x : Num × Ev) : Num × Ev := (x.1, Ev.none)

/-- The value of C at (m, n) before its conversion, and what the stages report for it. Rotation reads the pair's two values,
cos and sin once; what they report counts with the even column (R133). -/
def stagesAll (mem : Memory) (d : BitVec 512) (acc : Tbl Num) (bank m n : Nat) : Num × Ev :=
  if dw d 0 0 0 = 1 then
    let i := n / 2
    let x0 := stages3 mem d acc bank m (2 * i)
    let x1 := stages3 mem d acc bank m (2 * i + 1)
    let base := 64 * (dw d 10 30 16 + m * dw d 11 14 0) + 8 * i
    let c := stageVal mem base
    let s := stageVal mem (base + 4)
    if n % 2 = 0 then
      let p := stageMul x1 s
      stageAdd (stageMul x0 c) (p.1.neg, p.2)
    else stageAdd (stageMul (hush x0) (hush s)) (stageMul (hush x1) (hush c))
  else stages3 mem d acc bank m n

/-- A value in a scalar format (R102, R104), t the exponent of a Ziken format. -/
def scalarOut (fmt : Nat) (ovf : Bool) (t : Int) (x : Num) : Nat × Ev :=
  if fmt = 0x0C then fB32.conv ovf x
  else if fmt = 0x0A then fBf16.conv ovf x
  else if fmt = 0x0B then fB16.conv ovf x
  else if fmt = 0x09 then toIntSat 16 x
  else if fmt = 0x10 then toIntSat 4 (x.scale (-t))
  else if fmt = 0x11 then toIntSat 8 (x.scale (-t))
  else toIntSat 8 x

/-- `n` values cut into runs of 32. -/
def runs32 (l : List Num) : List (List Num) := (List.range (ceilDiv l.length 32)).map fun i => (l.drop (32 * i)).take 32

/-- One row of C in its format: element codes (whole blocks for MX, code 0 beyond the row), scale codes, reports. -/
def rowOut (fmt : Nat) (ovf : Bool) (t : Int) (l : List Num) : List Nat × List Nat × Ev :=
  if isMx fmt then
    let bs := (runs32 l).map fun b => mxEncode fmt (b ++ List.replicate (32 - b.length) Num.zero)
    let codes := (bs.map (·.2.1)).flatten
    (codes.mapIdx fun i c => if i < l.length then c else 0, bs.map (·.1), Ev.all (bs.map (·.2.2)))
  else
    let r := l.map (scalarOut fmt ovf t)
    (r.map (·.1), [], Ev.all (r.map (·.2)))

/-- Codes of a row as bytes, the last byte filled with zero bits. -/
def codeBytes (fmt : Nat) (l : List Nat) : List Byte := le (ceilDiv (l.length * elemBits fmt) 8) (packFields (elemBits fmt) l)

/-! ## C, tile by tile (R116, R119, R122, R134) -/

/-- (chunk, N block)s of the descriptor, in the order of R119; none of an empty C (R123). -/
def mmTiles (d : BitVec 512) : Nat := if mmM d = 0 ∨ mmN d = 0 then 0 else (mmPasses d).2.1 * (mmPasses d).2.2

/-- Chunk and N block of tile `t`. -/
def mmTileAt (d : BitVec 512) (t : Nat) : Nat × Nat := (t / (mmPasses d).2.1, t % (mmPasses d).2.1)

/-- The rows of C, as written, that a tile holds a part of: the row, the first element of the part, and the (m, n) of each
element. -/
def tileParts (d : BitVec 512) (mc nb : Nat) : List (Nat × Nat × List (Nat × Nat)) :=
  let ms := (List.range (mmRows d mc)).map (256 * mc + ·)
  let ns := (List.range (min (mmCols d) (mmN d - mmCols d * nb))).map (mmCols d * nb + ·)
  if mmBlock d then ns.map fun n => (n, 256 * mc, ms.map fun m => (m, n))
  else ms.map fun m => (m, mmCols d * nb, ns.map fun n => (m, n))

/-- A part of a row of C in its format: the row, its first element, element codes and scale codes. -/
structure CPart where
  row    : Nat
  first  : Nat
  codes  : List Nat
  scales : List Nat
  deriving DecidableEq, Repr

/-- The epilogue of a tile whose accumulators stand in `bank`, with what it reports (R131 to R134). -/
def tileOut (mem : Memory) (d : BitVec 512) (acc : Tbl Num) (bank mc nb : Nat) : List CPart × Ev :=
  let l := (tileParts d mc nb).map fun p =>
    let vals := p.2.2.map fun e => stagesAll mem d acc bank e.1 e.2
    let o := rowOut (mmC d) (dw d 0 21 21 == 1) (toSigned 8 (dw d 4 31 24)) (vals.map (·.1))
    (({ row := p.1, first := p.2.1, codes := o.1, scales := o.2.1 } : CPart), (Ev.all (vals.map (·.2))).join o.2.2)
  (l.map (·.1), Ev.all (l.map (·.2)))

/-- Where a part of C is written in local memory, and its bytes (R116). -/
def CPart.writes (d : BitVec 512) (p : CPart) : List (Nat × List Byte) :=
  let w := elemBits (mmC d)
  let el := (64 * (dw d 7 14 0 + p.row * dw d 7 30 16) + p.first * w / 8, codeBytes (mmC d) p.codes)
  if isMx (mmC d) then
    [el, (64 * dw d 6 30 16 + p.row * ceilDiv (mmShapeC d).2 32 + p.first / 32, p.scales.map (BitVec.ofNat 8))]
  else [el]

/-- Elements of C in a port word: 32, 16 in quire mode or of binary32 (log entry 23). -/
def portElems (d : BitVec 512) : Nat := if mmQuire d || mmC d == 0x0C then 16 else 32

/-- The port words of a tile's parts of C (R127, R134; log entry 23): each part padded to a whole number of words. -/
def mmWords (d : BitVec 512) (parts : List CPart) : List (BitVec 512) :=
  let k := portElems d
  let off := if mmQuire d && decide (elemBits (mmC d) ≤ 8) then 16 * mmQuarter d else 0
  parts.flatMap fun r => (List.range (ceilDiv r.codes.length k)).map fun i =>
    let bs := codeBytes (mmC d) ((r.codes.drop (k * i)).take k)
    let body := zeros off ++ bs
    let sc := if isMx (mmC d) then (r.scales.getD i 0) * 2 ^ 504 else 0
    BitVec.ofNat 512 (leNat body + sc)

/-! ## The check (R117) -/

/-- R89, R94: the format pair is legal. -/
def mmFmtOk (d : BitVec 512) : Bool :=
  let n (f : Nat) : Bool := decide (f ≤ 5) || f == 0x08
  let q (f : Nat) : Bool := f == 0x10 || f == 0x11
  fmtKnown (mmC d) &&
    if mmQuire d then
      ((mmA d == 0x08 && mmB d == 0x08) || (q (mmA d) && q (mmB d)) || (mmA d == 0x0A && mmB d == 0x0A)) && !(isMx (mmC d))
    else (n (mmA d) && n (mmB d)) || (mmA d == 0x0A && mmB d == 0x0A)

/-- R9 on a MATMUL: reserved bits, and the fields that Table 5-3 fixes at 0. -/
def mmReserved (d : BitVec 512) : Bool :=
  dw d 3 31 31 == 0 && dw d 3 15 15 == 0 && dw d 4 15 15 == 0 && dw d 5 31 31 == 0 && dw d 5 15 15 == 0 && dw d 6 31 31 == 0 &&
    dw d 6 15 15 == 0 && dw d 7 31 31 == 0 && dw d 7 15 15 == 0 && dw d 8 31 18 == 0 && dw d 8 15 15 == 0 &&
    dw d 9 31 31 == 0 && dw d 10 31 31 == 0 && dw d 10 15 15 == 0 && dw d 11 31 15 == 0 && dwZeroFrom d 13 &&
    (mmQuire d || mmQuarter d == 0) && (isMx (mmA d) || dw d 4 14 0 == 0) &&
    (!(mmSrc d) || (dw d 5 30 16 == 0 && dw d 6 14 0 == 0 && dw d 5 14 4 == 0))

/-- The strides reach over the rows they step over. -/
def mmStrideOk (d : BitVec 512) : Bool :=
  let ok (stride bytes : Nat) : Bool := decide (bytes ≤ 64 * stride)
  (mmStagger d || ok (dw d 3 30 16) (rowBytes (mmA d) (mmK d))) && (mmSrc d || ok (dw d 5 30 16) (rowBytes (mmB d) (mmN d))) &&
    (mmPort d || ok (dw d 7 30 16) (rowBytes (mmC d) (mmShapeC d).2)) &&
    (dw d 0 0 0 == 0 || ok (dw d 11 14 0) (4 * mmN d))

/-- The ranges lie in the declared memory, and C meets none that it may not (R117). -/
def mmRangeOk (decl : Nat) (d : BitVec 512) : Bool :=
  let ins := [mmSpanA d, mmSpanB d, mmSpanAs d, mmSpanBs d, mmSpanScale d, mmSpanBias d, mmSpanAct d, mmSpanRot d]
  let outs := [mmSpanC d, mmSpanCs d]
  ((ins ++ outs ++ [mmSpanInit d]).all fun p => decide (p.hi ≤ decl)) &&
    (outs.all fun o => ins.all fun i => !(o.meets i)) && !((mmSpanC d).meets (mmSpanCs d))

/-- The activation table's breakpoints are finite and strictly ascending, its word 31 zero (R132). -/
def actOk (mem : Memory) (base : Nat) : Bool :=
  let b := (List.range 31).map fun i => fB32.dec (leNat (mreadN mem (base + 4 * i) 4))
  (b.all fun x => !(x.isNan || x.isInf)) && (b.zip (b.drop 1)).all (fun p => Num.lt false p.1 p.2) &&
    leNat (mreadN mem (base + 124) 4) == 0

/-- The checks of R117, R130, R132 and R142 on a MATMUL of tile `tile`: `decl` the context's declared memory, `bound` whether
the thread slot it names is bound. -/
def mmOk (mem : Memory) (tile decl tenant : Nat) (bound : Bool) (d : BitVec 512) : Bool :=
  dw d 0 31 28 == 1 && mmReserved d && mmFmtOk d && decide (dw d 8 17 16 ≤ 1) && mmStrideOk d && mmRangeOk decl d &&
    (!(mmStagger d || mmPort d) || tile % 8 == 7) && (dw d 0 0 0 == 0 || mmN d % 2 == 0) &&
    (dw d 0 23 23 == 0 || knotOfTenant tenant (dw d 12 15 0)) && (!(mmSrc d) || (bound && !(mmQuire d))) &&
    !(mmStagger d && mmQuire d && mmA d == 0x0A) && (dw d 0 1 1 == 0 || actOk mem (64 * dw d 10 14 0))

end Sys2Proof.Machine
end

