-- ==== Sys2Proof/Machine/MatrixOps.lean ====
section
/-! DEFINITION. Arrays of matrix tiles (chapter 5): their descriptors, blocks, passes and endings. -/

namespace Sys2Proof.Machine

/-! ## Access -/

/-- The array exists. -/
def State.aUnits (s : State) (a : AAt) : Bool :=
  decide (a.die < s.dieCount) && decide (a.tile < 64) && decide (a.arr < 2)

/-- The array's number (tile × 2 + array). -/
def arrNo (a : AAt) : Nat := a.tile * 2 + a.arr % 2

/-- The array. -/
def State.array (s : State) (a : AAt) : Arr := ((s.die a.die).mtile a.tile).arr (a.arr % 2)

/-- `s` with `f` applied to the array. -/
def State.modArray (s : State) (a : AAt) (f : Arr → Arr) : State :=
  s.modDie a.die fun x => x.modMTile a.tile fun t => t.modArr (a.arr % 2) f

/-- Local memory of the array's tile. -/
def State.aMem (s : State) (a : AAt) : Memory := ((s.die a.die).mtile a.tile).mem

/-- The context on the tile, while it runs or quiesces (R195). -/
def State.aCtx (s : State) (a : AAt) : Option (Nat × Ctx) :=
  (s.die a.die).resident .matrix a.tile

/-- The array works: its die runs, it is not fenced, no save, rinse or restore is under way on its tile. -/
def State.aLive (s : State) (a : AAt) : Bool :=
  let x := s.die a.die
  let ph := (x.tileOcc .matrix a.tile).phase
  s.live a.die && !(x.isFenced 1 a.tile) && !(x.isFenced 2 (arrNo a)) && (ph == .none || ph == .quiescing)

/-- No switch is under way on the tile: new work may enter (R195, R196). -/
def State.aOpen (s : State) (a : AAt) : Bool := s.aLive a && ((s.die a.die).tileOcc .matrix a.tile).phase == .none

/-! ## Endings -/

/-- A descriptor as it starts (R117): with the status it is refused with, if any. -/
def Run.start (d : BitVec 512) (quarter ctx : Nat) (st : Option Status) : Run :=
  { desc := d, quarter := quarter, ctx := ctx, loadIx := 0, passIx := 0, rowIx := 0, token := true, outIx := 0, status := st,
    fp := 0 }

/-- A fenced array's descriptors (R112): those queued or running complete with UNIT_FENCED at their DESCRIPTOR_COMPLETE. -/
def Arr.fail (r : Arr) (st : Status) : Arr :=
  let q : List Run := (r.queue ++ r.stalled.toList).map fun e => Run.start e.1 0 e.2 (some st)
  { r with
    queue := [], stalled := none
    runs := (r.runs.map fun u => u.stop st) ++ q
    atts := r.atts.map fun t => { t with fail := some (t.fail.getD st), wide := t.wide || t.fail.isNone }
    front := [], back := [], badLoad := [] }

/-- An array is fenced (R112): its slots detach (R148), its descriptors end UNIT_FENCED; with both arrays fenced the tile is. -/
def State.fenceArray (s : State) (a : AAt) (cause : Nat) : State :=
  let s1 := s.fence a.die 2 (arrNo a) cause (some (a.tile / 8))
  let s2 := (s1.modArray a fun r => r.fail .unitFenced).modDie a.die fun x => x.detachArray (arrNo a)
  if (s2.die a.die).isFenced 2 (2 * a.tile) && (s2.die a.die).isFenced 2 (2 * a.tile + 1) then
    s2.fenceTile a.die .matrix a.tile cause
  else s2

/-! ## Issue (R114) -/

/-- Descriptors that hold a place in the queue: from their issue to their completion (R114: a full queue stalls the pattern until
one completes; log entry 77). -/
def Arr.held (r : Arr) : Nat := r.queue.length + r.runs.length + r.atts.length

/-- A descriptor enters the array's queue, or waits for room in it. -/
def Arr.issue (r : Arr) (d : BitVec 512) (c : Nat) : Arr :=
  if r.held < 4 ∧ r.stalled.isNone then { r with queue := r.queue ++ [(d, c)] } else { r with stalled := some (d, c) }

/-- A descriptor has completed: a waiting issue enters. -/
def Arr.unstall (r : Arr) : Arr :=
  match r.stalled with
  | some e => if r.held < 4 then { r with queue := r.queue ++ [e], stalled := none } else r
  | none => r

/-- The pattern can issue to the array: it runs, no issue of it waits. -/
def State.aIssue (s : State) (a : AAt) : Bool :=
  let t := (s.die a.die).mtile a.tile
  s.live a.die && ((s.die a.die).tileOcc .matrix a.tile).phase == .none && t.a.stalled.isNone && t.b.stalled.isNone &&
    match s.aCtx a with
    | some (_, y) => y.st == .running && decide (y.kind = .matrix)
    | none => false

/-- The descriptor at byte `addr` of the tile's local memory. -/
def State.aDesc (s : State) (a : AAt) (addr : Nat) : BitVec 512 := unitOf (mreadN (s.aMem a) addr 64)

/-- The pattern issues the descriptor at `addr` (R114). One that is not on a 64-byte boundary of the declared memory ends with
BAD_PARAM (log entry 21); on a fenced array it ends UNIT_FENCED (R112). -/
def State.doIssue (s : State) (a : AAt) (addr : Nat) : State :=
  match s.aCtx a with
  | none => s
  | some (c, y) =>
    if addr % 64 = 0 ∧ addr + 64 ≤ y.declared then
      let s1 := s.modArray a fun r => r.issue (s.aDesc a addr) c
      if (s.die a.die).isFenced 2 (arrNo a) then s1.modArray a fun r => r.fail .unitFenced else s1
    else s.writeRec a.die c { tag := 0, status := .badParam, fp := 0 }

/-! ## Starting a MATMUL (R114, R117, R125) -/

/-- A MATMUL that has started and runs in normal mode. -/
def Run.normal (u : Run) : Bool := !(mmQuire u.desc)

/-- Every pass has streamed, or the descriptor has its status: it reads no more input. -/
def Run.read (u : Run) : Bool := u.status.isSome || decide (mmTotal u.desc ≤ u.passIx)

/-- The output range of an ATTEND (R136): rows × d elements in `y_fmt`, an MX format's scales after them. -/
def ySpan (desc : BitVec 512) : Span :=
  let rows := dw desc 2 7 0 * dw desc 2 15 8 * dw desc 2 23 16
  let d := dw desc 3 15 0
  let f := dw desc 0 19 15
  let el := rows * rowBytes f d
  span (dw desc 14 14 0) 1 0 (if isMx f then ceilDiv el 64 * 64 + rows * ceilDiv d 32 else el)

/-- Partials or appends are owed to the ATTEND. -/
def Att.owed (t : Att) : Bool := (t.entries.any fun e => e.st == 1) || t.appends.any fun e => e.st == 1

/-- The ATTEND reads no more input: every WRING has left once, or none will (R114). -/
def Att.read (t : Att) : Bool := t.fail.isSome || t.entries.all fun e => e.st != 0

/-- Everything a MATMUL reads in local memory (Table 5-3). -/
def mmInputs (d : BitVec 512) : List Span :=
  [mmSpanA d, mmSpanAs d, mmSpanB d, mmSpanBs d, mmSpanInit d, mmSpanScale d, mmSpanBias d, mmSpanAct d, mmSpanRot d]

/-- The head of the queue can start (R114, R125): a MATMUL that reads an open ATTEND's output waits for its completion. -/
def Arr.canStart (r : Arr) : Bool :=
  match r.queue with
  | [] => false
  | (d, _) :: _ => r.atts.all Att.read &&
    if dw d 0 31 28 = 2 then r.runs.all Run.read
    else
      (if mmQuire d then r.runs.all fun u => if u.normal then false else u.quarter != mmQuarter d
       else r.runs.all fun u => u.normal && u.read) &&
        r.atts.all fun t => !(dw t.desc 0 12 12 == 1 && (mmInputs d).any fun i => i.meets (ySpan t.desc))

/-- The fabric port that feeds an array's staggered rows is absent (R130, Table 5-6). -/
def State.sourceAbsent (s : State) (a : AAt) : Bool :=
  (((s.die a.die).fabric (a.tile / 8)).port (a.arr % 2)).absent

/-- A MATMUL starts or is refused (R117, R123, R130). DESIGN CHOICE, log entry 76: a staggered descriptor that has no pass (M, N or
K is 0) takes no row, and ends OK though its source is absent. -/
def State.startRun (s : State) (a : AAt) (d : BitVec 512) (c : Nat) : State :=
  match (s.die a.die).ctx c with
  | none => s
  | some y =>
    let bound := ((s.die a.die).tslot (arrNo a) (dw d 5 3 0)).isSome
    let st : Option Status :=
      if !(mmOk (s.aMem a) a.tile y.declared y.tenant bound d) then some .badParam
      else if mmStagger d && mmTotal d != 0 && s.sourceAbsent a then some .regionUnconfigured else none
    s.modArray a fun r => { r with
      runs := r.runs ++ [{ Run.start d (if mmQuire d then mmQuarter d else 0) c st with checked := decide (st ≠ some .badParam) }] }

/-! ## Blocks (R112, R119, R121, R146 to R148) -/

/-- The run of a quarter that streams or waits to swap: the first with passes left. -/
def Run.streaming (q : Nat) (u : Run) : Bool := u.quarter == q && u.status.isNone && decide (u.passIx < mmTotal u.desc)

/-- The run that the quarter streams. -/
def Arr.passRun (r : Arr) (q : Nat) : Option Run := r.runs.find? (Run.streaming q)

/-- The run whose next block the loader of a quarter is due to load. -/
def Arr.loading (r : Arr) (q : Nat) : Option Run :=
  r.runs.find? fun u => u.quarter == q && u.status.isNone && decide (u.loadIx < mmTotal u.desc)

/-- `r` with `f` applied to the first run of quarter `q` that `p` accepts. -/
def modFirst (p : Run → Bool) (f : Run → Run) : List Run → List Run
  | [] => []
  | u :: l => if p u then f u :: l else u :: modFirst p f l

/-- The same with the run chosen by `loading`. -/
def Arr.modLoading (r : Arr) (q : Nat) (f : Run → Run) : Arr :=
  { r with runs := modFirst (fun u => u.quarter == q && u.status.isNone && decide (u.loadIx < mmTotal u.desc)) f r.runs }

/-- Where the loader finds its block: local memory, or an entry of a thread slot. -/
inductive BlkSrc
  | mem | entry (t : TEntry) | none
  deriving DecidableEq, Repr

/-- The source of the next block of a run. -/
def State.blkSrc (s : State) (a : AAt) (u : Run) : BlkSrc :=
  if mmSrc u.desc then
    match (s.die a.die).tslot (arrNo a) (dw u.desc 5 3 0) with
    | none => .none
    | some q =>
      if q.detached then .none
      else
        match q.entries.find? fun t => !t.loaded && t.index == q.taken && (t.own || decide (q.attachFrom ≤ t.index)) with
        | some t => .entry t
        | none => .none
  else .mem

/-- A block of the quarter is due and at hand. -/
def State.blkReady (s : State) (a : AAt) (q : Nat) : Bool :=
  match (s.array a).loading q with
  | none => false
  | some u => match s.blkSrc a u with
    | .mem => true
    | .entry _ => true
    | .none => false

/-- The quarter's load is pending: a block is at hand and the back registers are empty. -/
def State.loadPending (s : State) (a : AAt) (q : Nat) : Bool := s.blkReady a q && !(thas (s.array a).back q)

/-- The loader can turn to the quarter (R121): its block is at hand, and no load of a quarter before it is pending (R124: in
quarter order; log entry 77). -/
def State.loadDue (s : State) (a : AAt) (q : Nat) : Bool :=
  s.aLive a && s.blkReady a q && (thas (s.array a).back q || (List.range q).all fun p => !(s.loadPending a p))

/-- The block stands in the back registers. -/
def Arr.loaded (r : Arr) (q : Nat) (b : Blk) : Arr :=
  { (r.modLoading q fun u => { u with loadIx := u.loadIx + 1 }) with back := tput r.back q b, badLoad := tdel r.badLoad q }

/-- A run ends with `st` before its time (R147): nothing of C is written, a member of the thread detaches until the end of the
round and counts it. -/
def State.endRun (s : State) (a : AAt) (u : Run) (st : Status) : State :=
  let s1 := s.modArray a fun r =>
    { (r.dropBlocks u (r.passRun u.quarter == some u)) with
      runs := modFirst (fun v => decide (v = u)) (fun v => v.stop st) r.runs }
  s1.modDie a.die fun x =>
    if mmSrc u.desc then
      let m := arrNo a
      let k := dw u.desc 5 3 0
      match x.tslot m k with
      | none => x
      | some q => match tfind x.threads q.thread with
        | none => x
        | some h => ((x.setTSlot m k (q.skipRound h).free).pump q.thread).count thMismatch (slotUnit m k) 1
    else x

/-- A block whose check failed (R112): reloaded once and counted, the second time in succession it fences the array. -/
def State.badBlock (s : State) (a : AAt) (q : Nat) : State :=
  if thas (s.array a).badLoad q then s.fenceArray a 3
  else
    let s1 := (s.modArray a fun r => { r with badLoad := tput r.badLoad q 1 }).corrected a.die 2 (arrNo a) 1 16 (some 256)
      (some (a.tile / 8))
    if (s1.die a.die).isFenced 2 (arrNo a) then s1.fenceArray a 3 else s1

/-- The loader's step; a third load is held and counted (R121). -/
def State.doLoad (s : State) (a : AAt) (q : Nat) (bad : Bool) : State :=
  match (s.array a).loading q with
  | none => s
  | some u =>
    let (mc, nb, kb) := mmPassAt u.desc u.loadIx
    let slot := dw u.desc 5 3 0
    if thas (s.array a).back q then s.modDie a.die fun x => x.count mtLoadStall (arrNo a) 1
    else if bad then s.badBlock a q
    else
      match s.blkSrc a u with
      | .none => s
      | .mem => s.modArray a fun r =>
          r.loaded q { mc := mc, nb := nb, kb := kb, cols := blockOfB (s.aMem a) u.desc nb kb }
      | .entry t =>
        let th := (((s.die a.die).tslot (arrNo a) slot).map (·.thread)).getD 0
        let s1 := s.modDie a.die fun x => (x.modTSlot (arrNo a) slot fun z =>
          TSlot.free { z with
            taken := z.taken + 1
            entries := z.entries.map fun (e : TEntry) => if e = t then { e with loaded := true } else e }).pump th
        if t.poison then s1.endRun a u .unitFenced
        else if recMatches u.desc nb kb t.bytes then
          s1.modArray a fun r => r.loaded q { mc := mc, nb := nb, kb := kb, cols := blockOfRec u.desc nb kb t.bytes }
        else s1.endRun a u .badParam

/-! ## Passes (R120, R122, R150) -/

/-- R150: an earlier descriptor's output, not yet written, meets the run's A or A-scale range. -/
def Arr.mustWait (r : Arr) (u : Run) : Bool :=
  (r.runs.takeWhile fun v => decide (v ≠ u)).any fun v =>
    v.status.isNone && [mmSpanA u.desc, mmSpanAs u.desc].any fun i => i.meets (mmSpanC v.desc) || i.meets (mmSpanCs v.desc)

/-- Passes along K of each (chunk, N block). -/
def Run.perTile (u : Run) : Nat := max 1 (mmPasses u.desc).1

/-- (chunk, N block)s whose last group is in their bank; all of them where no pass is needed (R123). -/
def Run.tilesDone (u : Run) : Nat := if mmK u.desc = 0 then mmTiles u.desc else u.passIx / u.perTile

/-- (chunk, N block)s that have taken a row. -/
def Run.tilesBegun (u : Run) : Nat := ceilDiv (u.passIx + b2n (decide (u.rowIx ≠ 0))) u.perTile

/-- The bank of (chunk, N block) `t` (R122). -/
def Run.bankOf (u : Run) (t : Nat) : Nat := (u.bank0 + t) % 2

/-- The next row is the first of a (chunk, N block). -/
def Run.newTile (u : Run) : Bool := u.rowIx == 0 && decide (u.passIx % u.perTile = 0)

/-- Banks of a quarter that hold what the epilogue has not read to its end. -/
def Arr.banksHeld (r : Arr) (q : Nat) : Nat :=
  (r.runs.map fun u => if u.quarter = q ∧ u.status = none then u.tilesBegun - u.outTile else 0).sum

/-- The run's next row may enter: no earlier output holds it (R150), and a (chunk, N block) that begins has a bank (R122, R129). -/
def Arr.rowMay (r : Arr) (u : Run) : Bool := !(r.mustWait u) && (!u.newTile || decide (r.banksHeld u.quarter < 2))

/-- A run as its next row enters: the bank of its first (chunk, N block) is settled (R122). -/
def Arr.enter (r : Arr) (u : Run) : Run :=
  if u.passIx = 0 ∧ u.rowIx = 0 then { u with bank0 := tget r.bank u.quarter 0 } else u

/-- The bank after the one that run `u`'s current (chunk, N block) uses. -/
def Arr.turnBank (r : Arr) (u : Run) : Arr :=
  { r with bank := tput r.bank u.quarter (1 - u.bankOf (u.passIx / u.perTile)) }

/-- The swap can happen (R120): the token has passed, the front is empty, the back registers hold the block; while the tile
quiesces no new pass starts (R195). -/
def State.swapDue (s : State) (a : AAt) (q : Nat) : Bool :=
  let r := s.array a
  s.aOpen a && match r.passRun q with
    | none => false
    | some u => u.token && thas r.back q && !(thas r.front q)

/-- Row of Table 15-7 of an array operation: bfloat16, a 4-bit operand, or 8-bit operands. -/
def mmActRow (d : BitVec 512) : Nat := if mmA d = 0x0A then 2 else if mmA d = 0 ∨ mmB d = 0 then 1 else 0

/-- Operations of one row against a block: a multiply and an add for each element that the descriptor has there (R15). -/
def mmOps (d : BitVec 512) (b : Blk) : Nat :=
  2 * min (mmGroup d) (mmK d - mmGroup d * b.kb) * min (mmCols d) (mmN d - mmCols d * b.nb)

/-- What a pass adds to the array's counters. -/
def Die.passCount (x : Die) (a : AAt) (d : BitVec 512) (rows passes : Nat) (ev : Ev) : Die :=
  ((x.count mtFlush (arrNo a) ev.flush).count mtPasses (arrNo a) passes).count mtBusyCycles (arrNo a)
    (rows * (if mmA d = 0x0A then 2 else 1))

/-- What `n` rows against a block charge the context that issued them (R392). -/
def Die.passAct (x : Die) (a : AAt) (d : BitVec 512) (b : Blk) (n : Nat) : Die :=
  match x.resident .matrix a.tile with
  | some (_, y) => x.act (mmActRow d) y.payer (n * mmOps d b)
  | none => x.act (mmActRow d) .device (n * mmOps d b)

/-- A block of the thread has swapped in (R144). -/
def Die.swapCount (x : Die) (a : AAt) (d : BitVec 512) : Die :=
  if mmSrc d then x.modTSlot (arrNo a) (dw d 5 3 0) fun z => { z with swapped := z.swapped + 1 } else x

/-- The swap (R120): rows may enter from now on. -/
def State.doSwap (s : State) (a : AAt) (q : Nat) : State :=
  let r := s.array a
  match r.passRun q, tfind r.back q with
  | some u, some b =>
    (s.modDie a.die fun x => x.swapCount a u.desc).modArray a fun r => { r with
      front := tput r.front q b, back := tdel r.back q
      runs := modFirst (Run.streaming q) (fun u => { u with token := false }) r.runs }
  | _, _ => s

/-- The array after rows of a run of quarter `q` have entered its store, as `u`, with what they report. -/
def Arr.took (r : Arr) (q : Nat) (u : Run) (p : Tbl Num × Ev) (ends : Bool) : Arr :=
  { r.turnBank u with
    store := p.1
    front := if ends then tdel r.front q else r.front
    runs := modFirst (Run.streaming q) (fun _ => { u with
      rowIx := if ends then 0 else u.rowIx + 1, token := ends, passIx := if ends then u.passIx + 1 else u.passIx,
      fp := Nat.lor u.fp p.2.fp }) r.runs }

/-- A quarter whose block stands in front and whose pass of broadcast rows may enter. -/
def Arr.streams (r : Arr) (q : Nat) : Bool :=
  match r.passRun q with
  | none => false
  | some u => !(mmStagger u.desc) && !u.token && thas r.front q && r.rowMay u

/-- The pass of a quarter under broadcast entry (R111, R119). -/
def State.doPass (s : State) (a : AAt) (q : Nat) : State :=
  let r := s.array a
  match r.passRun q, tfind r.front q with
  | some v, some b =>
    let u := r.enter v
    let p := streamPass (s.aMem a) u.desc (u.bankOf (u.passIx / u.perTile)) b r.store
    (s.modArray a fun r => r.took q u p true).modDie a.die fun x => (x.passCount a u.desc (mmRows u.desc b.mc) 1 p.2).passAct a u.desc b
      (mmRows u.desc b.mc)
  | _, _ => s

/-- Quarters with a staggered run that has passes left. -/
def Arr.staggerQ (r : Arr) : List Nat :=
  (List.range 4).filter fun q => match r.passRun q with
    | some u => mmStagger u.desc
    | none => false

/-- The array is ready for a row of its FIFO (R129): every quarter that a staggered descriptor runs in has its block in front, and
a row may enter there. -/
def State.rowDue (s : State) (a : AAt) : Bool :=
  let r := s.array a
  s.aOpen a && !r.staggerQ.isEmpty && r.staggerQ.all fun q => match r.passRun q with
    | some u => !u.token && r.rowMay u
    | none => false

/-- One row word through the quarter `q` (R127, R128); `first` says that it is the word's first quarter, with which the word's
cycles count (R139). -/
def State.rowQuarter (s : State) (a : AAt) (word : BitVec 512) (first : Bool) (q : Nat) : State :=
  let r := s.array a
  match r.passRun q, tfind r.front q with
  | some v, some b =>
    let u := r.enter v
    let p := streamRow (s.aMem a) u.desc (u.bankOf (u.passIx / u.perTile)) b (256 * b.mc + u.rowIx)
      (rowOfWord u.desc word b.kb) r.store
    let ends := decide (mmRows u.desc b.mc ≤ u.rowIx + 1)
    (s.modArray a fun r => r.took q u p ends).modDie a.die fun x => (x.passCount a u.desc (b2n first) (b2n ends) p.2).passAct a u.desc b 1
  | _, _ => s

/-- The array takes the oldest row of its FIFO; an empty FIFO leaves it idle for the cycle (R129). -/
def State.doRow (s : State) (a : AAt) : State :=
  match (s.array a).fifo with
  | [] => s.modDie a.die fun x => x.count mtStaggerIdle (arrNo a) 1
  | w :: rest =>
    let qs := (s.array a).staggerQ
    (qs.foldl (fun (p : State × Bool) q => (p.1.rowQuarter a w p.2 q, false))
      (s.modArray a fun r => { r with fifo := rest }, true)).1

/-! ## The epilogue (R122, R129, R131, R134) -/

/-- What the epilogue adds to the array's counters (R106). -/
def Die.outCount (x : Die) (a : AAt) (ev : Ev) : Die :=
  (((x.count mtFlush (arrNo a) ev.flush).count mtOutLoss (arrNo a) ev.loss).count mtOutSat (arrNo a) ev.sat).count mtNanBlocks (arrNo a) ev.nanb

/-- The run of a quarter whose output is the next: the first that has some to come. -/
def Run.emitting (q : Nat) (u : Run) : Bool := u.quarter == q && u.status.isNone && decide (u.outTile < mmTiles u.desc)

/-- The epilogue of a quarter can go on: its next (chunk, N block) is finished, and with `c_port` the output FIFO has room. -/
def Arr.epiDue (r : Arr) (q : Nat) : Bool :=
  match r.runs.find? (Run.emitting q) with
  | none => false
  | some u => decide (u.outTile < u.tilesDone) && (!(mmPort u.desc) || decide (r.cfifo.length < 64))

/-- The epilogue reads the finished bank: port words enter the output FIFO as far as it has room (R129), other output waits for
the descriptor's end (R118; log entry 77). -/
def State.doEpi (s : State) (a : AAt) (q : Nat) : State :=
  let r := s.array a
  match r.runs.find? (Run.emitting q) with
  | none => s
  | some u =>
    let at_ := mmTileAt u.desc u.outTile
    let o := tileOut (s.aMem a) u.desc r.store (u.bankOf u.outTile) at_.1 at_.2
    let ws := if mmPort u.desc then (mmWords u.desc o.1).drop u.outIx else []
    let now := ws.take (64 - r.cfifo.length)
    let ends := decide (ws.length = now.length)
    let ev := if ends then o.2 else Ev.none
    (s.modArray a fun r => { r with
      cfifo := r.cfifo ++ now
      runs := modFirst (Run.emitting q) (fun u => { u with
        outIx := if ends then 0 else u.outIx + now.length
        outTile := if ends then u.outTile + 1 else u.outTile
        out := if mmPort u.desc then u.out else u.out ++ o.1.flatMap (CPart.writes u.desc)
        fp := Nat.lor u.fp ev.fp }) r.runs }).modDie a.die fun x => x.outCount a ev

/-- `fpstat` of the tile's context takes up what the array's descriptors have set (R105). -/
def Arr.gather (r : Arr) : Arr :=
  { r with fp := (r.atts.map (·.fp)).foldl Nat.lor ((r.runs.map (·.fp)).foldl Nat.lor r.fp) }

/-- One thing that the array does by itself: a pass of broadcast rows, or the epilogue of a finished bank. -/
def State.arrStep (s : State) (a : AAt) : Option State :=
  match (if s.aOpen a then (List.range 4).find? (s.array a).streams else none) with
  | some q => some (s.doPass a q)
  | none => ((if s.aLive a then (List.range 4).find? (s.array a).epiDue else none)).map fun q => s.doEpi a q

/-- At most `n` such things. -/
def State.arrSteps : Nat → State → AAt → State
  | 0, s, _ => s
  | n + 1, s, a => match s.arrStep a with
    | some t => State.arrSteps n t a
    | none => s

/-- The array does what it can by itself (R120, R122). -/
def State.settle (s : State) (a : AAt) : State :=
  let n := ((s.array a).runs.map fun u => 2 + mmTiles u.desc).sum + 64
  (State.arrSteps n s a).modArray a Arr.gather

/-- A step of the array under what its memories report (R140, R445): an uncorrectable error fences it. -/
def State.aword (s : State) (a : AAt) (go : State → State) : State :=
  if 2 ≤ a.err then s.fenceArray a 1
  else if a.err = 1 then
    let s1 := s.corrected a.die 2 (arrNo a) 1 16 (some 256) (some (a.tile / 8))
    if (s1.die a.die).isFenced 2 (arrNo a) then s1.fenceArray a 3 else (go s1).settle a
  else (go s).settle a

/-! ## The end of a MATMUL (R118) -/

/-- 64-byte units that a list of writes touches. -/
def unitsOf (l : List (Nat × List Byte)) : List Nat :=
  (l.flatMap fun w => if w.2.isEmpty then [] else
    (List.range ((w.1 + w.2.length - 1) / 64 - w.1 / 64 + 1)).map (w.1 / 64 + ·)).eraseDups

/-- Output is written to local memory, each 64-byte unit whole (R140): a unit that the other array has written meanwhile keeps
nothing of that write; what its other bytes hold then is open (log entry 77). -/
def State.writeOut (s : State) (a : AAt) (rival : List Nat) (l : List (Nat × List Byte)) : State :=
  let us := unitsOf l
  let (n, s1) := s.freeNat
  let fill (m : Memory) (u : Nat) : Memory := mwriteN m (64 * u) (le 64 (n / 2 ^ (512 * u)))
  let other : AAt := { a with arr := 1 - a.arr % 2 }
  ((if us.any rival.contains then s1 else s).modDie a.die fun x => x.modMTile a.tile fun t =>
    { t with mem := l.foldl (fun m w => mwriteN m w.1 w.2) ((us.filter rival.contains).foldl fill t.mem) }).modArray other fun r =>
      { r with
        runs := r.runs.map fun u => { u with rival := (u.rival ++ us).eraseDups }
        atts := r.atts.map fun t => { t with rival := (t.rival ++ us).eraseDups } }

/-- The MATMUL has its status, or all its passes and output. -/
def Run.finished (u : Run) : Bool :=
  u.status.isSome || (decide (mmTotal u.desc ≤ u.passIx) && decide (mmTiles u.desc ≤ u.outTile))

/-- The MATMUL can complete: it has finished, no earlier one of its quarter is left, and its record has room (R190). -/
def State.runDue (s : State) (a : AAt) (idx : Nat) : Bool :=
  let r := s.array a
  match r.runs[idx]? with
  | none => false
  | some u =>
    s.live a.die && u.finished && ((r.runs.take idx).all fun v => v.quarter != u.quarter) &&
      match (s.die a.die).ctx u.ctx with
      | some y => decide (y.ring.length < 256)
      | none => true

/-- The end of a MATMUL (R118): with OK its output is written; otherwise nothing of C is. -/
def State.doRunEnd (s : State) (a : AAt) (idx : Nat) : State :=
  match (s.array a).runs[idx]? with
  | none => s
  | some u =>
    let st : Status := u.status.getD .ok
    let s1 := if st = .ok then s.writeOut a u.rival u.out else s
    (s1.modArray a fun (r : Arr) => Arr.unstall { r with
      runs := r.runs.eraseIdx idx
      fp := Nat.lor r.fp u.fp }).endDesc a.die u.ctx u.desc st u.fp u.checked none

end Sys2Proof.Machine
end

