-- ==== Sys2Proof/Machine/AttendOps.lean ====
section
/-! DEFINITION. The feeder and the merge stage of an array: ATTEND (R76 to R78, R85, R135 to R138, R467). -/

namespace Sys2Proof.Machine

/-! ## Fields of an ATTEND descriptor (Table 5-7 over Table 3-1) -/

/-- `merge_slot`. -/
def atSlot (d : BitVec 512) : Nat := dw d 0 27 20
/-- `y_fmt`. -/
def atY (d : BitVec 512) : Nat := dw d 0 19 15
/-- `do_append`. -/
def atApp (d : BitVec 512) : Bool := dw d 0 13 13 == 1
/-- `do_wring`. -/
def atWring (d : BitVec 512) : Bool := dw d 0 12 12 == 1
/-- `seq`. -/
def atSeq (d : BitVec 512) : Nat := dw d 1 13 0
/-- `layer`. -/
def atLayer (d : BitVec 512) : Nat := dw d 1 23 16
/-- State heads. -/
def atH (d : BitVec 512) : Nat := dw d 2 7 0
/-- Query heads per state head. -/
def atG (d : BitVec 512) : Nat := dw d 2 15 8
/-- Tokens. -/
def atT (d : BitVec 512) : Nat := dw d 2 23 16
/-- Head dimension. -/
def atD (d : BitVec 512) : Nat := dw d 3 15 0
/-- `pos0`. -/
def atPos (d : BitVec 512) : Nat := dw d 4 23 0
/-- The request flags. -/
def atFlags (d : BitVec 512) : Nat := dw d 12 7 0
/-- Query rows h × g × t (R59). -/
def atRows (d : BitVec 512) : Nat := atH d * atG d * atT d
/-- Bytes of a result of the rows: rows × 4 × (d + 2). -/
def atBytes (d : BitVec 512) : Nat := atRows d * 4 * (atD d + 2)

/-- R9 on an ATTEND: reserved bits of Table 5-7 and of the header bytes it carries. -/
def atReserved (d : BitVec 512) : Bool :=
  dw d 0 10 0 == 0 && dw d 1 15 14 == 0 && dw d 3 31 16 == 0 && dw d 4 31 24 == 0 && dw d 5 31 24 == 0 && dw d 6 31 8 == 0 &&
    dw d 8 31 24 == 0 && dw d 9 31 24 == 0 && dw d 10 31 24 == 0 && dw d 11 31 24 == 0 && dw d 12 31 23 == 0 &&
    dw d 12 7 6 == 0 && dw d 13 31 31 == 0 && dw d 13 15 15 == 0 && dw d 14 31 31 == 0 && dw d 14 15 15 == 0

/-! ## Sheet lists (R135, R467) -/

/-- The sheet list that the context's dispatch holds for the ATTEND's sequence and layer. -/
def State.listOf (s : State) (y : Ctx) (d : BitVec 512) : List Nat :=
  match y.disp with
  | none => []
  | some id =>
    match tfind s.disps id with
    | none => []
    | some x => tget x.lists (atSeq d * 256 + atLayer d) []

/-- Entries of a sheet list from its words (R135): channel and handles. -/
def listEntries : Nat → List Nat → List (Nat × List Nat)
  | 0, _ => []
  | _, [] => []
  | n + 1, e :: r => (e % 128, r.take (bitsOf e 26 16)) :: listEntries n (r.drop (bitsOf e 26 16))

/-- Tail handles and WRING entries of a sheet list. -/
def listParts (l : List Nat) : List Nat × List (Nat × List Nat) :=
  let w0 := l.getD 0 0
  let nt := bitsOf w0 15 8
  ((l.drop 1).take nt, listEntries (w0 / 65536) (l.drop (1 + nt)))

/-- The part of local memory that the context's template reserves for sheet lists, in bytes. -/
def State.listPart (s : State) (y : Ctx) : Span :=
  match (tfind s.models y.model).bind (·.bundle) with
  | none => { lo := 0, hi := 0 }
  | some b =>
    match b.templates[y.tmpl]? with
    | none => { lo := 0, hi := 0 }
    | some t => { lo := 64 * t.listUnit, hi := 64 * (t.listUnit + t.listUnits) }

/-! ## The check (R136) -/

/-- The checks of R117 and R136 on an ATTEND; `slots` the merge slots in use. Two points are the model's (DESIGN CHOICE, log entry 76):
a `q_fmt` other than 0 or 1 is left to the wringers, which refuse it (R60), after any appends have run; and a `list_addr` outside the
template's list part, or a (sequence, layer) without a list, is refused BAD_PARAM. -/
def State.attOk (s : State) (y : Ctx) (slots : List Nat) (d : BitVec 512) : Bool :=
  let part := s.listPart y
  let list := s.listOf y d
  let inDecl (p : Span) : Bool := decide (p.hi ≤ y.declared)
  atReserved d && (atApp d || atWring d) && decide (atT d ≤ (if atWring d then 8 else 32)) &&
    (decide (atY d ≤ 5) || atY d == 0x0A || atY d == 0x0C) && !(slots.contains (atSlot d)) &&
    (!(atWring d) || decide (2 * atBytes d + 64 ≤ 262144)) &&
    (!(atWring d) || (inDecl (span (dw d 12 22 8) 1 0 (atRows d * (atD d + atD d / 32))) &&
      inDecl (ySpan d) &&
      inDecl (span (dw d 14 30 16) 1 0 (biasBytes (bitsOf (atFlags d) 5 4) (atH d) (atG d))))) &&
    (!(atApp d) || inDecl (span (dw d 13 14 0) 1 0 (atT d * atH d * 4 * atD d))) && !list.isEmpty &&
    decide (part.lo ≤ 64 * dw d 13 30 16) && decide (64 * dw d 13 30 16 + 4 * list.length ≤ part.hi) &&
    (!(descKnotEn d) || knotOfTenant y.tenant (descKnot d))

/-! ## Requests (R56, R58, R59, R73, R85) -/

/-- The wringer that the map of a requester's die names under an epoch for channel `c` of die `d` (R56, log entry 29). -/
def Die.redirect (x : Die) (epoch : Bool) (d c : Nat) : Nat :=
  tget (if epoch then x.redir1 else x.redir0) (128 * d + c) c

/-- Elements of `w` bytes in local memory, as codes. -/
def memElems (m : Memory) (base w n : Nat) : List Nat := (List.range n).map fun i => leNat (mreadN m (base + w * i) w)

/-- A request of an ATTEND, its header from the descriptor (R135). -/
def State.mkReq (s : State) (a : AAt) (d : BitVec 512) (isAppend : Bool) (tag t pos0 chan : Nat) (handles : List Nat)
    (body : List Byte) (biasTab : List Nat) : WReq :=
  let fl := if isAppend then 0 else atFlags d
  let kind := bitsOf fl 5 4
  let ep := (s.die a.die).epoch
  { isAppend := isAppend, causal := bitAt fl 0, winFlag := bitAt fl 1, sinkFlag := bitAt fl 2, padFlag := bitAt fl 3,
    bias := kind, tag := tag, seq := atSeq d, layer := atLayer d, tenant := dw d 1 29 24, cls := dw d 1 31 30, h := atH d,
    g := if isAppend then 0 else atG d, t := t, qFmt := if isAppend then 0 else dw d 2 31 24, d := atD d,
    handles := handles, pos0 := pos0, window := dw d 5 23 0, sinks := dw d 6 7 0, scale := BitVec.ofNat 32 (dw d 7 31 0),
    pad0lo := dw d 8 23 0, pad0hi := dw d 9 23 0, pad1lo := dw d 10 23 0, pad1hi := dw d 11 23 0, rDie := a.die,
    rTile := a.tile, rArr := a.arr % 2, rSlot := atSlot d, resZero := true,
    biasTab := biasTab, body := body, chan := chan, w := (s.die a.die).redirect ep (seqDie (atSeq d)) chan, epoch := ep }

/-- A request leaves for the wringers of its sequence's die (R56). -/
def State.sendReq (s : State) (q : WReq) : State :=
  s.modDie (seqDie q.seq) fun x => { x with reqNet := x.reqNet ++ [q] }

/-- Keys and values of `count` tokens from `first` on at `kv_addr` (R59, R135). -/
def State.kvBytes (s : State) (a : AAt) (d : BitVec 512) (first count : Nat) : List Byte :=
  let per := atH d * 4 * atD d
  mreadN (s.aMem a) (64 * dw d 13 14 0 + first * per) (count * per)

/-- Query rows and bias values as they stand at `q_addr` and `bias_addr` (R59, R135). -/
def State.rowBytesOf (s : State) (a : AAt) (d : BitVec 512) : List Byte × List Nat :=
  let m := s.aMem a
  let kind := bitsOf (atFlags d) 5 4
  (mreadN m (64 * dw d 12 22 8) (atRows d * (atD d + atD d / 32)),
    if kind = 1 then memElems m (64 * dw d 14 30 16) 4 (atH d * atG d)
    else if kind = 2 then memElems m (64 * dw d 14 30 16) 2 (32 * atH d * atG d) else [])

/-- An APPEND of the ATTEND leaves (R73, R136). -/
def State.sendAppend (s : State) (a : AAt) (d : BitVec 512) (i : Nat) (e : AEntry) : State :=
  s.sendReq (s.mkReq a d true i e.count (atPos d + e.first) e.chan [e.handle] e.body [])

/-- A WRING of the ATTEND leaves (R136). -/
def State.sendWring (s : State) (a : AAt) (d : BitVec 512) (i : Nat) (e : WEntry) : State :=
  let b := e.rows.getD (s.rowBytesOf a d)
  s.sendReq (s.mkReq a d false i (atT d) (atPos d) e.chan e.handles b.1 b.2)

/-- The list's element with index `i` replaced by `f` of it. -/
def modAt {α : Type} (f : α → α) : Nat → List α → List α
  | _, [] => []
  | 0, a :: r => f a :: r
  | i + 1, a :: r => a :: modAt f i r

/-- `s` with `f` applied to the open ATTEND of a merge slot. -/
def State.modAtt (s : State) (a : AAt) (slot : Nat) (f : Att → Att) : State :=
  s.modArray a fun r => { r with atts := r.atts.map fun t => if t.slot = slot then f t else t }

/-- The open ATTEND of a merge slot. -/
def State.att (s : State) (a : AAt) (slot : Nat) : Option Att := (s.array a).atts.find? fun t => t.slot == slot

/-- An entry as sent once more. -/
def WEntry.sent (e : WEntry) (flips : Nat) : WEntry := { e with st := 1, flips := flips, sends := e.sends + 1 }
/-- An append as sent once more. -/
def AEntry.sent (e : AEntry) (flips : Nat) : AEntry := { e with st := 1, flips := flips, sends := e.sends + 1 }

/-- WRING entry `i` of the ATTEND is sent. -/
def State.goWring (s : State) (a : AAt) (slot i : Nat) : State :=
  match s.att a slot with
  | none => s
  | some t =>
    match t.entries[i]? with
    | none => s
    | some e =>
      (s.sendWring a t.desc i e).modAtt a slot fun t =>
        { t with entries := modAt (fun e => e.sent (s.die a.die).flips) i t.entries }

/-- APPEND `i` of the ATTEND is sent. -/
def State.goAppend (s : State) (a : AAt) (slot i : Nat) : State :=
  match s.att a slot with
  | none => s
  | some t =>
    match t.appends[i]? with
    | none => s
    | some e =>
      (s.sendAppend a t.desc i e).modAtt a slot fun t =>
        { t with appends := modAt (fun e => e.sent (s.die a.die).flips) i t.appends }

/-! ## Starting an ATTEND (R136) -/

/-- The channel of a listed handle: its WRING entry's, else its location's. -/
def State.handleChan (s : State) (d : BitVec 512) (es : List (Nat × List Nat)) (h : Nat) : Nat :=
  match es.find? fun e => e.2.contains h with
  | some e => e.1
  | none => ((s.die (seqDie (atSeq d))).entry h).loc.code

/-- The handle, of the tails or else of the whole list, whose sheet covers position `p` (R73), else the first tail. -/
def State.tailAt (s : State) (d : BitVec 512) (tails : List Nat) (es : List (Nat × List Nat)) (sp p : Nat) : Nat :=
  let x := s.die (seqDie (atSeq d))
  match (tails ++ es.flatMap (·.2)).find? fun h => decide ((x.entry h).first ≤ p) && decide (p < (x.entry h).first + sp) with
  | some h => h
  | none => tails.headD 0

/-- The APPENDs of an ATTEND: one per tail sheet, split at the sheet boundary (R73). -/
def State.attAppends (s : State) (a : AAt) (y : Ctx) (d : BitVec 512) (tails : List Nat) (es : List (Nat × List Nat)) : List AEntry :=
  let sp := max 1 (((tfind s.models y.model).map Model.span).getD 1)
  let n0 := min (atT d) (sp - atPos d % sp)
  let mk (first count : Nat) : AEntry :=
    let h := s.tailAt d tails es sp (atPos d + first)
    { chan := s.handleChan d es h, handle := h, first := first, count := count, st := 0, flips := 0, sends := 0,
      body := s.kvBytes a d first count }
  if n0 < atT d then [mk 0 n0, mk n0 (atT d - n0)] else [mk 0 (atT d)]

/-- A row with nothing merged (R64). -/
def WRow.empty (d : Nat) : WRow := { m := 0xFF800000#32, l := 0, o := List.replicate d 0, nan := false }

/-- An ATTEND starts or is refused (R117, R136): firmware's sheet list stands at `list_addr` (log entry 24), its APPENDs are
sent. -/
def State.startAtt (s : State) (a : AAt) (d : BitVec 512) (c : Nat) : State :=
  match (s.die a.die).ctx c with
  | none => s
  | some y =>
    if s.attOk y ((s.array a).atts.map (·.slot)) d then
      let list := s.listOf y d
      let parts := listParts list
      let t : Att :=
        { desc := d, ctx := c, slot := atSlot d,
          appends := if atApp d then s.attAppends a y d parts.1 parts.2 else []
          entries := if atWring d then parts.2.map fun e =>
              { chan := e.1, handles := e.2, st := 0, flips := 0, sends := 0, rows := none, rep := none } else []
          room := false, running := [], fail := none, fp := 0 }
      let s1 := s.modDie a.die fun x => x.modMTile a.tile fun m =>
        { m with mem := mwriteN m.mem (64 * dw d 13 30 16) (list.flatMap (le 4)) }
      let s2 := s1.modArray a fun r => { r with atts := r.atts ++ [t] }
      (List.range t.appends.length).foldl (fun s i => s.goAppend a t.slot i) s2
    else
      s.modArray a fun r => { r with runs := r.runs ++ [Run.start d 0 c (some .badParam)] }

/-- The head of the array's queue can start (R114); an ATTEND's APPENDs are transactions of the die's (R16). -/
def State.startDue (s : State) (a : AAt) : Bool :=
  s.aOpen a && (s.array a).canStart && match (s.array a).queue with
    | [] => false
    | (d, _) :: _ => dw d 0 31 28 != 2 || s.inFlight a.die + 2 ≤ 16384

/-- The head of the array's queue starts (R114). -/
def State.doStart (s : State) (a : AAt) : State :=
  match (s.array a).queue with
  | [] => s
  | (d, c) :: rest =>
    let s1 := s.modArray a fun (r : Arr) => { r with queue := rest }
    if dw d 0 31 28 = 2 then s1.startAtt a d c else s1.startRun a d c

/-! ## Merge buffer (R77, R137) -/

/-- Bytes of the merge buffer in use: running results, and a place for every partial owed or not yet merged. -/
def Arr.mergeUsed (r : Arr) : Nat :=
  (r.atts.map fun t =>
    (if t.room then atBytes t.desc else 0) +
      (t.entries.filter fun e => e.st == 1 || e.st == 2 || e.st == 3).length * (64 + atBytes t.desc)).sum

/-- Every APPEND of the ATTEND is done. -/
def Att.appended (t : Att) : Bool := t.appends.all fun e => e.st == 4

/-- R76: an APPEND of the same sequence and layer is still owed to the array. -/
def Arr.heldBy (r : Arr) (t : Att) : Bool :=
  r.atts.any fun u => atSeq u.desc == atSeq t.desc && atLayer u.desc == atLayer t.desc && u.fail.isNone && !u.appended

/-- The next WRING of the ATTEND can leave (R76, R137), as a transaction of the die's (R16). -/
def State.wringDue (s : State) (a : AAt) (slot : Nat) : Bool :=
  let r := s.array a
  s.aLive a && s.mayIssue a.die && match s.att a slot with
    | none => false
    | some t =>
      let need := (if t.room then 0 else atBytes t.desc) + 64 + atBytes t.desc
      t.fail.isNone && !(r.heldBy t) && (t.entries.any fun e => e.st == 0) && decide (r.mergeUsed + need ≤ 262144)

/-- The next WRING leaves, space reserved for its partial. -/
def State.doWringSend (s : State) (a : AAt) (slot : Nat) : State :=
  match s.att a slot with
  | none => s
  | some t =>
    match t.entries.findIdx? fun e => e.st == 0 with
    | none => s
    | some i =>
      (s.modAtt a slot fun t =>
        let t1 : Att := { t with entries := modAt (fun e => { e with rows := some (s.rowBytesOf a t.desc) }) i t.entries }
        if t.room then t1
        else { t1 with room := true, running := List.replicate (atRows t.desc) (WRow.empty (atD t.desc)) }).goWring a slot i

/-! ## Replies (R78, R85, R138) -/

/-- The oldest reply of a kind for a merge slot, with the die it left. -/
def State.repFor (s : State) (a : AAt) (slot : Nat) (isAppend : Bool) : Option (Nat × WRep) :=
  s.dies.findSome? fun e =>
    (e.2.repNet.find? fun p => p.isAppend == isAppend && p.rDie == a.die && p.rTile == a.tile && p.rArr == a.arr % 2 &&
      p.rSlot == slot).map fun p => (e.1, p)

/-- A reply has arrived. -/
def State.takeRep (s : State) (d : Nat) (p : WRep) : State := s.modDie d fun x => { x with repNet := x.repNet.erase p }

/-- One partial row merged into the running row (R78). -/
def mergeRow (a : WRow) (p : BitVec 32 × BitVec 32 × List (BitVec 32)) : WRow × Ev :=
  if (fB32.dec p.1.toNat).isNan || a.nan then
    ({ a with m := 0x7FC00000#32, l := 0x7FC00000#32, o := a.o.map fun _ => 0x7FC00000#32, nan := true }, Ev.nan)
  else if p.2.1 = 0 then (a, Ev.none)
  else if a.l = 0 then ({ a with m := p.1, l := p.2.1, o := p.2.2 }, Ev.none)
  else
    let m := (b32Pick true a.m.toNat p.1.toNat).1
    let ea := b32Sub a.m.toNat m
    let eb := b32Sub p.1.toNat m
    let ca := b32Exp2Neg ea.1
    let cb := b32Exp2Neg eb.1
    let mix (x y : BitVec 32) : Nat × Ev :=
      let u := b32Mul x.toNat ca.1
      let v := b32Mul y.toNat cb.1
      let w := b32Add u.1 v.1
      (w.1, (u.2.join v.2).join w.2)
    let l := mix a.l p.2.1
    let o := List.zipWith mix a.o p.2.2
    ({ a with m := BitVec.ofNat 32 m, l := BitVec.ofNat 32 l.1, o := o.map fun q => BitVec.ofNat 32 q.1 },
      ((((ea.2.join eb.2).join ca.2).join cb.2).join l.2).join (Ev.all (o.map (·.2))))

/-- A partial merged into the running result. -/
def Att.mergeRep (t : Att) (p : WRep) : Att × Ev :=
  let q := List.zipWith mergeRow t.running p.rows
  let ev := Ev.all (q.map (·.2))
  ({ t with running := q.map (·.1), fp := Nat.lor t.fp ev.fp }, ev)

/-- Every partial that has its turn is merged, in request order (R78). -/
def Att.mergeTurn : Nat → Att → Att × Ev
  | 0, t => (t, Ev.none)
  | n + 1, t =>
    match t.entries.findIdx? fun e => e.st != 4 with
    | none => (t, Ev.none)
    | some i =>
      match t.entries[i]? with
      | none => (t, Ev.none)
      | some e =>
        match e.st == 3, e.rep with
        | true, some p =>
          let q := t.mergeRep p
          let r := Att.mergeTurn n { q.1 with entries := modAt (fun e => { e with st := 4, rep := none }) i q.1.entries }
          (r.1, q.2.join r.2)
        | _, _ => (t, Ev.none)

/-- A partial for an open ATTEND (R138): merged in its turn, or it ends the ATTEND, or its request waits to be sent again. -/
def State.takePartial (s : State) (a : AAt) (slot : Nat) (t : Att) (p : WRep) : State :=
  let i := p.tag
  let set (f : WEntry → WEntry) (g : Att → Att) : State :=
    s.modAtt a slot fun t => g { t with entries := modAt f i t.entries, fp := Nat.lor t.fp p.fp }
  if t.fail.isSome then set (fun e => { e with st := 4 }) id
  else
    match p.status with
    | .ok =>
      let t1 := { t with entries := modAt (fun e => { e with st := 3, rep := some p }) i t.entries, fp := Nat.lor t.fp p.fp }
      let q := Att.mergeTurn t.entries.length t1
      (s.modAtt a slot fun _ => q.1).modDie a.die fun x => x.count mtFlush (arrNo a) q.2.flush
    | .unitFenced =>
      match t.entries[i]? with
      | none => s
      | some e =>
        if 3 ≤ e.sends then set (fun e => { e with st := 4 }) fun t => { t with fail := some .unitFenced }
        else if e.flips != (s.die a.die).flips && s.mayIssue a.die then
          (set (fun e => { e with st := 2 }) id).goWring a slot i
        else set (fun e => { e with st := 2 }) id
    | st => set (fun e => { e with st := 4 }) fun t => { t with fail := some st }

/-- A PARTIAL reaches the array (R78, R138): one that names a merge slot with no open ATTEND, or that nothing waits for, is
discarded and counted. -/
def State.doPartial (s : State) (a : AAt) (slot : Nat) : State :=
  match s.repFor a slot false with
  | none => s
  | some (d, p) =>
    let s1 := s.takeRep d p
    match s1.att a slot with
    | none => s1.modDie a.die fun x => x.count mtStrayPartials (arrNo a) 1
    | some t =>
      match t.entries[p.tag]? with
      | none => s1.modDie a.die fun x => x.count mtStrayPartials (arrNo a) 1
      | some e => if e.st = 1 then s1.takePartial a slot t p
                  else s1.modDie a.die fun x => x.count mtStrayPartials (arrNo a) 1

/-- The ATTENDs of the array for the same sequence and layer that have sent no WRING end with an APPEND's status (R76). -/
def State.failHeld (s : State) (a : AAt) (t : Att) (st : Status) : State :=
  s.modArray a fun r => { r with
    atts := r.atts.map fun u =>
      if decide (u.slot = t.slot) || (atSeq u.desc == atSeq t.desc && atLayer u.desc == atLayer t.desc &&
          u.entries.all fun e => e.st == 0) then
        { u with fail := some (u.fail.getD st) } else u }

/-- An APPEND_DONE reaches the array (R76, R85, R138). -/
def State.doAppendDone (s : State) (a : AAt) (slot : Nat) : State :=
  match s.repFor a slot true with
  | none => s
  | some (d, p) =>
    let s1 := s.takeRep d p
    match s1.att a slot with
    | none => s1
    | some t =>
      let i := p.tag
      let set (st : Nat) : State :=
        s1.modAtt a slot fun t => { t with appends := modAt (fun e => { e with st := st }) i t.appends, fp := Nat.lor t.fp p.fp }
      match t.appends[i]? with
      | none => s1
      | some e =>
        if e.st ≠ 1 then s1
        else
          match p.status with
          | .ok => set 4
          | .unitFenced =>
            if 3 ≤ e.sends then (set 4).failHeld a t .unitFenced
            else if e.flips != (s.die a.die).flips && s.mayIssue a.die then (set 2).goAppend a slot i else set 2
          | st => (set 4).failHeld a t st

/-! ## Re-sends (R85) -/

/-- Entry `i` (WRING entries first, then the APPENDs) waits for its re-send; `flipped` asks for one whose epoch its interface
has left. A re-send is a transaction of the die's (R16). -/
def State.resendDue (s : State) (a : AAt) (slot i : Nat) (flipped : Bool) : Bool :=
  s.aLive a && s.mayIssue a.die && match s.att a slot with
    | none => false
    | some t =>
      let left (n : Nat) : Bool := !flipped || n != (s.die a.die).flips
      t.fail.isNone &&
        if i < t.entries.length then
          match t.entries[i]? with
          | some e => e.st == 2 && left e.flips
          | none => false
        else
          match t.appends[i - t.entries.length]? with
          | some e => e.st == 2 && left e.flips
          | none => false

/-- The request is sent again under its interface's map. -/
def State.doResend (s : State) (a : AAt) (slot i : Nat) : State :=
  match s.att a slot with
  | none => s
  | some t => if i < t.entries.length then s.goWring a slot i else s.goAppend a slot (i - t.entries.length)

/-! ## The end of an ATTEND (R118, R136, R138) -/

/-- One row of y (R78): o × rcp(l); 0 of an empty row. -/
def yRow (r : WRow) : List Nat × Ev :=
  if r.nan then (r.o.map fun _ => fB32.qnan, Ev.nan)
  else if r.l = 0 then (r.o.map fun _ => 0, Ev.none)
  else
    let c := b32Rcp r.l.toNat
    let y := r.o.map fun x => b32Mul x.toNat c.1
    (y.map (·.1), c.2.join (Ev.all (y.map (·.2))))

/-- The output of the ATTEND: elements and scales in `y_fmt`, and what the merge stage and the conversion report. -/
def Att.out (t : Att) : List Byte × Ev :=
  let f := atY t.desc
  let ys := t.running.map yRow
  let rows := ys.map fun y => rowOut f (dw t.desc 0 14 14 == 1) 0 (y.1.map fun c => (b32In c).1)
  let el := rows.flatMap fun r => codeBytes f r.1
  let sc := rows.flatMap fun r => r.2.1.map (BitVec.ofNat 8)
  ((if isMx f then padTo 64 el ++ sc else el), (Ev.all (ys.map (·.2))).join (Ev.all (rows.map (·.2.2))))

/-- The ATTEND can complete: its status is known and nothing is owed, or every partial is merged; its record has room. -/
def State.attDue (s : State) (a : AAt) (idx : Nat) : Bool :=
  match (s.array a).atts[idx]? with
  | none => false
  | some t =>
    s.live a.die && (if t.fail.isSome then !t.owed else t.appended && t.entries.all fun e => e.st == 4) &&
      match (s.die a.die).ctx t.ctx with
      | some y => decide (y.ring.length < 256)
      | none => true

/-- The end of an ATTEND. -/
def State.doAttEnd (s : State) (a : AAt) (idx : Nat) : State :=
  match (s.array a).atts[idx]? with
  | none => s
  | some t =>
    let st : Status := t.fail.getD .ok
    let o : List Byte × Ev := if st = .ok ∧ atWring t.desc then t.out else ([], Ev.none)
    let fp := Nat.lor t.fp o.2.fp
    let s1 := (if o.1.isEmpty then s else s.writeOut a t.rival [(64 * dw t.desc 14 14 0, o.1)]).modDie a.die fun x => x.outCount a o.2
    let s2 := s1.modArray a fun (r : Arr) => Arr.unstall { r with atts := r.atts.eraseIdx idx, fp := Nat.lor r.fp fp }
    s2.endDesc a.die t.ctx t.desc st fp true (if t.wide then none else some (atSeq t.desc))

end Sys2Proof.Machine
end

