-- ==== Sys2Proof/Machine/Matrix.lean ====
section
/-! DEFINITION. Matrix tiles (chapter 5): the steps of their arrays. -/

namespace Sys2Proof.Machine

/-- MATMUL (R114, R115): the running pattern issues a descriptor that is no ATTEND; a full queue stalls the pattern. -/
def execMatmul (a : AAt) (addr : Nat) (s : State) : Out :=
  event s (s.aUnits a) (s.aIssue a && dw (s.aDesc a addr) 0 31 28 != 2) (s.aword a fun s => s.doIssue a addr)

/-- ATTEND (R114, R135, R136): the running pattern issues an ATTEND descriptor. -/
def execAttend (a : AAt) (addr : Nat) (s : State) : Out :=
  event s (s.aUnits a) (s.aIssue a && dw (s.aDesc a addr) 0 31 28 == 2) (s.aword a fun s => s.doIssue a addr)

/-- DESCRIPTOR_START (R114, R117, R125, R136): the head of the queue is checked and starts. -/
def execDescriptorStart (a : AAt) (s : State) : Out :=
  event s (s.aUnits a) (s.startDue a) (s.aword a fun s => s.doStart a)

/-- BLOCK_LOAD (R112, R121, R146, R147): the loader takes the next stationary block into empty back registers. -/
def execBlockLoad (a : AAt) (quarter : Nat) (parityBad : Bool) (s : State) : Out :=
  event s (s.aUnits a && decide (quarter < 4)) (s.loadDue a quarter) (s.aword a fun s => s.doLoad a quarter parityBad)

/-- PASS_SWAP (R120, R122, R150): the block enters the front registers; under broadcast entry its pass streams as soon as its rows
may enter. -/
def execPassSwap (a : AAt) (quarter : Nat) (s : State) : Out :=
  event s (s.aUnits a && decide (quarter < 4)) (s.swapDue a quarter)
    (s.aword a fun s => s.doSwap a quarter)

/-- WRING_SEND (R76, R77, R137): space is reserved and the ATTEND's next WRING leaves. -/
def execWringSend (a : AAt) (slot : Nat) (s : State) : Out :=
  event s (s.aUnits a && decide (slot < 256)) (s.wringDue a slot) (s.aword a fun s => s.doWringSend a slot)

/-- PARTIAL_MERGE (R78, R85, R138): an arriving PARTIAL is merged in request order. -/
def execPartialMerge (a : AAt) (slot : Nat) (s : State) : Out :=
  event s (s.aUnits a && decide (slot < 256)) (s.live a.die && (s.repFor a slot false).isSome)
    (s.aword a fun s => s.doPartial a slot)

/-- DESCRIPTOR_COMPLETE (R118, R131 to R136): `idx` counts the array's MATMULs in start order, then its ATTENDs. -/
def execDescriptorComplete (a : AAt) (idx : Nat) (s : State) : Out :=
  let n := (s.array a).runs.length
  event s (s.aUnits a) (if idx < n then s.runDue a idx else s.attDue a (idx - n))
    (s.aword a fun s => if idx < n then s.doRunEnd a idx else s.doAttEnd a (idx - n))

/-- STAGGER_ROW (R127 to R129): the array takes a row of its FIFO, or idles because it is empty. -/
def execStaggerRow (a : AAt) (s : State) : Out :=
  event s (s.aUnits a) (s.rowDue a) (s.aword a fun s => s.doRow a)

/-! ## Feeder steps of chapter 3 -/

/-- APPEND_DONE (R76, R138): the feeder receives an APPEND's reply. -/
def execAppendDone (a : AAt) (slot : Nat) (s : State) : Out :=
  event s (s.aUnits a && decide (slot < 256)) (s.live a.die && (s.repFor a slot true).isSome)
    (s.aword a fun s => s.doAppendDone a slot)

/-- RESEND_TIMEOUT (R85): 1 ms after UNIT_FENCED with no flip the request is sent again. -/
def execResendTimeout (a : AAt) (slot entry : Nat) (s : State) : Out :=
  event s (s.aUnits a && decide (slot < 256)) (s.resendDue a slot entry false) (s.aword a fun s => s.doResend a slot entry)

/-- RESEND_AFTER_FLIP (R85): at the interface's flip the request is sent again under the new map. -/
def execResendAfterFlip (a : AAt) (slot entry : Nat) (s : State) : Out :=
  event s (s.aUnits a && decide (slot < 256)) (s.resendDue a slot entry true) (s.aword a fun s => s.doResend a slot entry)

end Sys2Proof.Machine
end

