-- ==== Sys2Proof/Machine/WringMath.lean ====
section
/-! DEFINITION. The score pipeline of a wringer and append quantisation (R58 to R60, R66 to R72, R74): arithmetic only. -/

namespace Sys2Proof.Machine

/-! ## The request (R57 to R60) -/

/-- Row state of a request (R57). -/
def WReq.rowState (q : WReq) : Nat := q.rows * 4 * (q.d + 2)

/-- The checks of R60. -/
def WReq.ok (q : WReq) : Bool :=
  q.resZero && decide (q.bias < 3) && decide (q.seq < 16384) && decide (q.layer < 256) && decide (q.tenant < 64) &&
    decide (q.cls < 4) && decide (1 ≤ q.h ∧ q.h ≤ 16) && decide (32 ≤ q.d ∧ q.d ≤ 256 ∧ q.d % 32 = 0) &&
    (if q.isAppend then q.g == 0 && q.qFmt == 0 && decide (1 ≤ q.t ∧ q.t ≤ 32) && decide (q.handles.length = 1)
     else decide (1 ≤ q.g ∧ q.g ≤ 8) && decide (q.qFmt < 2) && decide (1 ≤ q.t ∧ q.t ≤ 8) &&
       decide (1 ≤ q.handles.length ∧ q.handles.length ≤ 1024)) &&
    decide (q.pos0 < 2 ^ 24) && decide (q.window < 2 ^ 24) && decide (q.sinks ≤ 64) && decide (q.pad0lo < 2 ^ 24) &&
    decide (q.pad0hi < 2 ^ 24) && decide (q.pad1lo < 2 ^ 24) && decide (q.pad1hi < 2 ^ 24) && decide (q.rows ≤ 256) &&
    decide (q.pos0 + q.t - 1 ≤ 16777215) && q.handles.all (fun h => decide (h < 516096)) &&
    (!(q.winFlag || q.bias == 2) || q.causal) && !(q.winFlag && q.window == 0)

/-! ## Visibility and bias (R66 to R68) -/

/-- The token at position `pos` is visible to query token `i`, the slot itself being written (R66). -/
def WReq.sees (q : WReq) (i pos : Nat) : Bool :=
  let qp := q.pos0 + i
  let inside (lo hi : Nat) : Bool := decide (lo ≤ pos) && decide (pos < hi)
  (!q.causal || decide (pos ≤ qp)) && !(q.padFlag && (inside q.pad0lo q.pad0hi || inside q.pad1lo q.pad1hi)) &&
    (!q.winFlag || decide (qp - pos < q.window) || (q.sinkFlag && decide (pos < q.sinks)))

/-- The slots of a sheet visible to query token `i`. -/
def WReq.visible (q : WReq) (r : Resolved) (i : Nat) : List Nat :=
  (List.range r.tok).filter fun t => q.sees i (r.first + t)

/-- The slots of a sheet visible to some row. -/
def WReq.seen (q : WReq) (r : Resolved) : List Nat :=
  (List.range r.tok).filter fun t => (List.range q.t).any fun i => q.sees i (r.first + t)

/-- The 32-slot blocks that are read, by their first slot (R67): every block from that of the first visible slot to that of
the last. -/
def WReq.blocks (q : WReq) (r : Resolved) : List Nat :=
  match (q.seen r).head?, (q.seen r).getLast? with
  | some a, some b => (List.range (b / 32 + 1 - a / 32)).map fun k => 32 * (a / 32 + k)
  | _, _ => []

/-- Scores computed on a sheet (Table 3-4): over the rows, the slots visible to each. -/
def WReq.scoresOn (q : WReq) (r : Resolved) : Nat :=
  ((List.range q.t).map fun i => q.h * q.g * (q.visible r i).length).sum

/-- Bucket of a distance (R68). -/
def bucketOf (delta : Nat) : Nat := if delta < 16 then delta else 16 + min 15 (Nat.log2 delta - 4)

/-- The position bias of query head `qh` at distance `delta` (R68), in binary32; nothing of kind 0. -/
def WReq.biasOf (q : WReq) (qh : Nat) (delta : Int) : Option (Nat × Ev) :=
  if q.bias = 1 then
    some (b32Mul (Nat.xor (q.biasTab.getD qh 0) 0x80000000) (fB32.conv true (Num.ofInt delta 0)).1)
  else if q.bias = 2 then some (q.biasTab.getD (32 * qh + bucketOf delta.toNat) 0 * 65536, Ev.none)
  else none

/-! ## Sheet slots (R38) and rows of queries (R59) -/

/-- A vector of MX blocks: element values under their scales, and whether a scale is 0xFF or an E5M2 element is no finite
number (R72). -/
structure MxVec where
  vals : List Num
  bad  : Bool
  deriving DecidableEq, Repr

/-- `d` elements in `fmt`, then their d ÷ 32 scales. -/
def mxVec (fmt d : Nat) (b : List Byte) : MxVec :=
  let n := d * elemBits fmt / 8
  let el := byteElems fmt d (b.take n)
  let sc := ((b.drop n).take (d / 32)).map (·.toNat)
  { vals := el.mapIdx fun i c => mxDec fmt (sc.getD (i / 32) 0) c
    bad := sc.contains 0xFF || (fmt == 4 && el.any fun c => (fE5M2.dec c).isNan || (fE5M2.dec c).isInf) }

/-- Bytes of a key or of a value of one state head in a slot (R38). -/
def headBytes (fmt d : Nat) : Nat := d * fmtBits fmt / 8 + d / 32

/-- Key and value of state head `k` in a slot's bytes (R38). -/
def slotHead (fmt d k : Nat) (b : List Byte) : MxVec × MxVec :=
  let n := headBytes fmt d
  (mxVec fmt d (b.drop (2 * k * n)), mxVec fmt d (b.drop ((2 * k + 1) * n)))

/-- Query row `r` of a request. -/
def WReq.query (q : WReq) (r : Nat) : MxVec := mxVec (3 + q.qFmt) q.d (q.body.drop (r * (q.d + q.d / 32)))

/-! ## Scores (R69) -/

/-- sat32: to binary32, saturating at the largest finite magnitude (R69). -/
def sat32 (nanIn : Bool) : Num → Nat × Ev
  | .nan => (fB32.qnan, if nanIn then Ev.nan else Ev.invalid)
  | .inf s => (fB32.signed s fB32.top, Ev.overflow)
  | .fin s m e => fB32.conv false (.fin s m e)

/-- A binary32 operation whose result passes sat32. -/
def satOp (g : Num → Num → Num) (a b : Nat) : Nat × Ev :=
  let x := b32In a
  let y := b32In b
  let r := sat32 (x.1.isNan || y.1.isNan) (g x.1 y.1)
  (r.1, (x.2.join y.2).join r.2)

/-- A list in groups of 32. -/
def groups32 {α : Type} : Nat → List α → List (List α)
  | 0, _ => []
  | n + 1, l => l.take 32 :: groups32 n (l.drop 32)

/-- The dot product of a query and a key: groups of 32 along d, ascending, in one accumulator (R95, R96), then sat32. -/
def dot32 (a b : List Num) : Nat × Ev :=
  let prods := List.zipWith Num.mul a b
  let nanIn := a.any Num.isNan || b.any Num.isNan
  let r := (groups32 (prods.length / 32) prods).foldl (fun (p : Num × Ev) g =>
    let u := accUpdate p.1 g nanIn
    (u.1, p.2.join u.2)) (Num.zero, Ev.none)
  let s := sat32 true r.1
  (s.1, r.2.join s.2)

/-- The score of a key for a query (R69). DESIGN CHOICE, log entry 76: with bias kind 0 (R68: no bias) the last line of the
pseudocode, the addition of a bias, is not performed, so that a score of -0 stays -0. -/
def scoreOf (qv kv : List Num) (scale : Nat) (bias : Option (Nat × Ev)) : Nat × Ev :=
  let s0 := dot32 qv kv
  let s1 := satOp Num.mul s0.1 scale
  let ev := s0.2.join s1.2
  match bias with
  | none => (s1.1, ev)
  | some b =>
    let s2 := satOp Num.add s1.1 b.1
    (s2.1, (ev.join b.2).join s2.2)

/-- One slot of a block as a row meets it: its number in the block, its key, its value, its bias. -/
structure SlotIn where
  at_  : Nat
  key  : MxVec
  val  : MxVec
  bias : Option (Nat × Ev)
  deriving DecidableEq, Repr

/-- The scores of the visible slots in their order, `none` as soon as the row becomes a NaN row (R72). -/
def scoreAll (qv : List Num) (scale : Nat) : List SlotIn → Option (List Nat) × Ev
  | [] => (some [], Ev.none)
  | t :: r =>
    if t.key.bad || t.val.bad then (none, Ev.nan)
    else
      let s := scoreOf qv t.key.vals scale t.bias
      if (fB32.dec s.1).isNan then (none, s.2)
      else
        let q := scoreAll qv scale r
        (q.1.map (s.1 :: ·), s.2.join q.2)

/-- A NaN row (R64, R72). -/
def WRow.nanRow (r : WRow) : WRow :=
  { m := 0x7FC00000#32, l := 0x7FC00000#32, o := r.o.map fun _ => 0x7FC00000#32, nan := true }

/-- A binary32 value plus an exact one, rounded once. -/
def b32AddExact (a : Nat) (x : Num) (nanIn : Bool) : Nat × Ev :=
  let y := b32In a
  let r := fB32.result (y.1.isNan || nanIn) (y.1.add x)
  (r.1, y.2.join r.2)

/-- The products of the value stage, for each of the `d` columns (R69). -/
def valueCols (d : Nat) (l : List (Num × List Num)) : List (List Num) :=
  l.foldr (fun (e : Num × List Num) acc => List.zipWith (fun v c => e.1.mul v :: c) e.2 acc) (List.replicate d [])

/-- A block's scores fold into the running row (R69, R71). -/
def WRow.fold (r : WRow) (sl : List SlotIn) (sc : List Nat) : WRow × Ev :=
  let mb := sc.foldl (fun a b => (b32Pick true a b).1) 0xFF800000
  let mn := (b32Pick true r.m.toNat mb).1
  let e0 := b32Sub r.m.toNat mn
  let c := b32Exp2Neg e0.1
  let ps := sc.map fun s =>
    let e := b32Sub s mn
    let p := b32Exp2Neg e.1
    (p.1, e.2.join p.2)
  let slots := sl.map (·.at_)
  let full := (List.range 32).map fun t =>
    match (slots.zip ps).find? fun e => e.1 == t with
    | some e => fB32.dec e.2.1
    | none => Num.zero
  let pq := mxEncode 3 full
  let pd := slots.map fun t => mxDec 3 pq.1 (pq.2.1.getD t 0)
  let l0 := b32Mul r.l.toNat c.1
  let l1 := pd.foldl (fun (a : Nat × Ev) p =>
    let u := b32AddExact a.1 p false
    (u.1, a.2.join u.2)) l0
  let vals := sl.map fun t => t.val.vals
  let nanIn := vals.any fun v => v.any Num.isNan
  let o := List.zipWith (fun (x : BitVec 32) col =>
    let u := b32Mul x.toNat c.1
    let w := b32AddExact u.1 (groupSum col) nanIn
    (w.1, u.2.join w.2)) r.o (valueCols r.o.length (pd.zip vals))
  ({ r with m := BitVec.ofNat 32 mn, l := BitVec.ofNat 32 l1.1, o := o.map fun x => BitVec.ofNat 32 x.1 },
    ((((e0.2.join c.2).join (Ev.all (ps.map (·.2)))).join pq.2.2).join l1.2).join (Ev.all (o.map (·.2))))

/-- One block of slots for one row (R69, R72): a row that sees none of them is left as it is. -/
def WRow.block (r : WRow) (qv : List Num) (scale : Nat) (sl : List SlotIn) : WRow × Ev :=
  if r.nan || sl.isEmpty then (r, Ev.none)
  else
    let s := scoreAll qv scale sl
    match s.1 with
    | none => (r.nanRow, s.2)
    | some sc =>
      let f := r.fold sl sc
      (f.1, s.2.join f.2)

/-- The slots of a block that row `r` of the request sees. `heads` holds, for each written slot of the block from its first
on, the key and value of every state head. -/
def WReq.slotsFor (q : WReq) (w : Resolved) (b r : Nat) (heads : List (List (MxVec × MxVec))) : List SlotIn :=
  let i := r / (q.h * q.g)
  let qh := r % (q.h * q.g)
  (heads.mapIdx fun j hs => (j, hs)).filterMap fun e =>
    let pos := w.first + b + e.1
    if q.sees i pos then
      (e.2[qh / q.g]?).map fun kv =>
        { at_ := e.1, key := kv.1, val := kv.2, bias := q.biasOf qh ((q.pos0 + i : Nat) - (pos : Int)) }
    else none

/-- A block of a sheet for every row. -/
def WReq.doBlock (q : WReq) (w : Resolved) (b : Nat) (heads : List (List (MxVec × MxVec))) (rows : List WRow) :
    List WRow × Ev :=
  let l := rows.mapIdx fun r row => row.block (q.query r).vals q.scale.toNat (q.slotsFor w b r heads)
  (l.map (·.1), Ev.all (l.map (·.2)))

/-- The blocks of a sheet in ascending order; `slot t` gives the bytes of slot t. -/
def WReq.doSheet (q : WReq) (w : Resolved) (slot : Nat → List Byte) (rows : List WRow) : List WRow × Ev :=
  (q.blocks w).foldl (fun (p : List WRow × Ev) b =>
    let heads := (List.range (min 32 (w.tok - b))).map fun j =>
      (List.range q.h).map fun k => slotHead w.fmt q.d k (slot (b + j))
    let u := q.doBlock w b heads p.1
    (u.1, p.2.join u.2)) (rows, Ev.none)

/-- The rows of a request as it opens (R69); a query that R72 names makes a NaN row. -/
def WReq.openRows (q : WReq) : List WRow × Ev :=
  let l := (List.range q.rows).map fun r =>
    if (q.query r).bad then ((WRow.empty q.d).nanRow, Ev.nan) else (WRow.empty q.d, Ev.none)
  (l.map (·.1), Ev.all (l.map (·.2)))

/-! ## Append quantisation (R74) -/

/-- `n` groups of 32 bfloat16 codes as MX blocks of a format: element bytes, scale bytes, what they report. -/
def quantVec (fmt : Nat) (codes : List Nat) : List Byte × Ev :=
  let bl := (groups32 (codes.length / 32) codes).map fun g => mxEncode fmt (g.map fBf16.dec)
  (elemBytes fmt (bl.flatMap (·.2.1)) ++ bl.map (fun b => BitVec.ofNat 8 b.1), Ev.all (bl.map (·.2.2)))

/-- The slot bytes of token `i` of an APPEND (R38, R59, R74). -/
def WReq.slotOf (q : WReq) (fmt i : Nat) : List Byte × Ev :=
  let l := (List.range (2 * q.h)).map fun k =>
    quantVec fmt ((List.range q.d).map fun j => fieldAt q.body (2 * ((i * 2 * q.h + k) * q.d + j)) 2)
  (l.flatMap (·.1), Ev.all (l.map (·.2)))

/-- The slots of an APPEND, in order. -/
def WReq.slots (q : WReq) (fmt : Nat) : List Byte × Ev :=
  let l := (List.range q.t).map (q.slotOf fmt)
  (l.flatMap (·.1), Ev.all (l.map (·.2)))

end Sys2Proof.Machine
end

