-- ==== Sys2Proof/Machine/Wringers.lean ====
section
/-! DEFINITION. The wringers (chapter 3): requests accepted, opened, streamed and answered; appends; fences. -/

namespace Sys2Proof.Machine

/-! ## The grant of a memory controller (R24, R338, R346, R347) -/

/-- The region of a controller. -/
def ctlRegion (m : Nat) : Nat := chanRegion ((mcChans m).headD 0)

/-- A request of the region's real-time memory port. -/
def reqIsPort (q : MReq) : Bool :=
  match q.who with
  | .rtp _ => true
  | .wringer _ => false
  | .mover => false
  | .stream _ => false
  | .threadHead _ => false
  | .image _ => false
  | .firmware => false

/-- Whether the port's panic reorders the controller's grants (R347). -/
def Die.mcPanic (x : Die) (m : Nat) : Bool := x.portPanic (ctlRegion m)

/-- The place of a requester in the round-robin (R24): one that was never granted first, then the one granted longest ago. -/
def MC.turn (g : MC) (who : MemWho) : Nat :=
  match g.order.findIdx? (· == who) with
  | some k => k + 1
  | none => 0

/-- The request that is granted (R346, R347): the port's oldest under panic, else by R24: the class order, within a class the
requesters in turn, each with its oldest request. -/
def Die.mcGrant (x : Die) (m : Nat) (l : List MWait) : Option (Nat × MWait) :=
  let il := l.mapIdx fun i w => (i, w)
  match (if x.mcPanic m then il.find? fun e => reqIsPort e.2.req else none) with
  | some e => some e
  | none => grantPick (fun e => e.2.req.cls) (fun e => e.2.waited) (fun e => (x.mc m).turn e.2.req.who) il

/-- A refresh at its postponement limit goes ahead of every request (R338). -/
def MC.refreshDue (g : MC) : Bool := g.postponed.any fun e => decide (4 ≤ e.2)

/-! ## Access -/

/-- A wringer's region can be reached: it is powered, its gate open (R82, R320). -/
def State.wringerUp (s : State) (d w : Nat) : Bool := s.tileNetUp d (chanRegion w)

/-- A wringer that does no work: fenced (R85), in an isolated region (R86), or on a lost die (R28). -/
def Die.wringerOut (x : Die) (w : Nat) : Bool :=
  x.lost || x.isFenced 4 w || (x.region (chanRegion w)).isolated

/-- Bytes of a wringer's input buffer in use: a request keeps its space until it closes (R57, R83; log entry 37). -/
def Wringer.used (g : Wringer) : Nat := (g.input.map WReq.bytes).sum + (g.openR.map fun o => o.req.bytes).sum

/-- Bytes of a wringer's row store in use (R57). -/
def Wringer.rowsUsed (g : Wringer) : Nat := (g.openR.map fun o => o.req.rowState).sum

/-- A reply leaves the wringer: its request is complete (R63, R87). -/
def State.sendRep (s : State) (d w : Nat) (p : WRep) : State :=
  s.modDie d fun x => { x with repNet := x.repNet ++ [p] }.count wrRequests w 1

/-- `s` with `f` applied to a wringer. -/
def State.modWringer (s : State) (d w : Nat) (f : Wringer → Wringer) : State := s.modDie d fun x => x.modWringer w f

/-! ## WRING_ACCEPT (R57, R82, R85, R86) -/

/-- The oldest request on its way to a wringer. -/
def Die.arriving (x : Die) (w : Nat) : Option WReq := x.reqNet.find? fun q => q.w == w

/-- The request can be taken: answered UNIT_FENCED at once, held in the wake buffer of a closed region if that has a flit of room
(R82, R321), or accepted into a buffer with room. -/
def State.acceptDue (s : State) (d w : Nat) : Bool :=
  let x := s.die d
  s.running && match x.arriving w with
    | none => false
    | some q => x.wringerOut w ||
        (x.running &&
          (if s.wringerUp d w then decide ((x.wringer w).used + q.bytes ≤ 131072)
           else decide (x.wakeFlits (chanRegion w) 0 < 64)))

/-- The request enters the input buffer or the wake buffer, or its answer leaves: that of a fenced wringer's interface, which
counts it (R85, R87), or of the region's boundary router (R86). -/
def doWringAccept (d w : Nat) (s : State) : State :=
  match (s.die d).arriving w with
  | none => s
  | some q =>
    let r := chanRegion w
    let s1 := s.modDie d fun x => { x with reqNet := x.reqNet.erase q }
    if (s.die d).wringerOut w then
      let a := q.answer .unitFenced d w 0xFFFF ((s.die d).answerTok q 0)
      s1.modDie d fun x =>
        { x with repNet := x.repNet ++ [a] }.count wrRequests w (if x.lost || (x.region r).isolated then 0 else 1)
    else if s.wringerUp d w then
      s1.modDie d fun x => (x.modRegion r Region.stay).modWringer w fun g => { g with input := g.input ++ [q] }
    else
      s1.modDie d fun x =>
        (x.modRouter (128 + r) fun k => { k with wakeReq := k.wakeReq ++ [q] }).countRT rtWakeHolds (128 + r) 1

/-- The units of a wringer. -/
def State.wOn (s : State) (d w : Nat) : Bool := decide (d < s.dieCount) && decide (w < 80)

/-- WRING_ACCEPT (R57). -/
def execWringAccept (die w : Nat) (s : State) : Out :=
  event s (s.wOn die w) (s.acceptDue die w) (doWringAccept die w s)

/-! ## REQUEST_OPEN (R57, R60 to R62) -/

/-- The first request, in order of arrival, whose row state fits (R57). -/
def Wringer.nextOpen (g : Wringer) : Option WReq :=
  if g.openR.length < 8 then g.input.find? fun q => decide (g.rowsUsed + (if q.ok then q.rowState else 0) ≤ 524288) else none

/-- The context whose ATTEND sent a request: package-wide number, or all ones when it is gone (R442). -/
def State.senderOf (s : State) (q : WReq) : Nat :=
  let t := (s.die q.rDie).mtile q.rTile
  match (t.arr q.rArr).atts.find? fun a => a.slot == q.rSlot with
  | some a => if ((s.die q.rDie).ctx a.ctx).isSome then ctxNo q.rDie a.ctx else 0xFFFFFFFF
  | none => 0xFFFFFFFF

/-- DISPATCH_FAULT (R61, R442). -/
def State.dispatchFault (s : State) (d w : Nat) (q : WReq) : State :=
  s.emit { Event.blank 0x0053 12 1 .badParam with
    die := d, region := chanRegion w, unitKind := 4, unit := w, tenant := q.tenant, seq := q.seq, arg0 := s.senderOf q,
    arg1 := q.tag, detail := 0xFFFFFFFF }

/-- What resolving the handles comes to (Table 3-3). -/
inductive Resolve
  | wrong
  | lost (index tok : Nat)
  | found (l : List Resolved)
  deriving DecidableEq, Repr

/-- An entry that no request of this (tenant, sequence, layer) may name (Table 3-3, first row). -/
def Ream.foreign (e : Ream) (q : WReq) : Bool :=
  e.st == .free || e.tenant != q.tenant || e.seq != q.seq || e.layer != q.layer

/-- The entries that a request names, as they are now. -/
def Die.entriesOf (x : Die) (q : WReq) : List (Nat × Ream) := q.handles.map fun h => (h, x.entry h)

/-- Resolving a request's handles (R61, R44): an unreadable entry counts as LOST with the fields firmware recorded. -/
def Die.resolve (x : Die) (q : WReq) : Resolve :=
  let es := x.entriesOf q
  if es.any fun e => !(x.reamBad.contains e.1) && e.2.foreign q then .wrong
  else
    let gone := (es.mapIdx fun i e => (i, e.2)).filter fun e => (q.handles[e.1]?.any x.reamBad.contains) || e.2.gone
    match argmin (fun e => e.2.first) gone with
    | some e => .lost e.1 e.2.first
    | none => .found (es.map fun e =>
        { handle := e.1, loc := e.2.loc, fmt := e.2.fmt, first := e.2.first, tok := e.2.tok, slot := e.2.slot })

/-- A request as it opens. -/
def WOpen.start (q : WReq) (res : List Resolved) (fp : Nat) (rows : List WRow) (hold : Bool) : WOpen :=
  { req := q, res := res, done := 0, rows := rows, fp := fp, scores := 0, skipped := 0, lost := 0, sat := 0,
    remote := false, lpddr := false, fail := none, waited := 0, hold := hold }

/-- A handle is MOVING: an append waits (R73). -/
def Die.tailMoving (x : Die) (q : WReq) : Bool := (x.entriesOf q).any fun e => e.2.st == .moving

/-- The request is refused, or opens (R60, R61, R73). -/
def doRequestOpen (d w : Nat) (s : State) : State :=
  match ((s.die d).wringer w).nextOpen with
  | none => s
  | some q =>
    let s1 := s.modWringer d w fun g => { g with input := g.input.erase q }
    if q.ok then
      match (s.die d).resolve q with
      | .wrong => (s1.dispatchFault d w q).sendRep d w (q.answer .badParam d w 0xFFFF ((s.die d).answerTok q 0))
      | .lost i tok => s1.sendRep d w (q.answer .stateLost d w i ((s.die d).answerTok q tok))
      | .found res =>
        let p := if q.isAppend then ([], Ev.none) else q.openRows
        let o := WOpen.start q res p.2.fp p.1 (q.isAppend && (s.die d).tailMoving q)
        s1.modWringer d w fun g => { g with openR := g.openR ++ [o] }
    else s1.sendRep d w (q.answer .badParam d w 0xFFFF ((s.die d).answerTok q 0))

/-- A wringer that works. -/
def State.wLive (s : State) (d w : Nat) : Bool := s.live d && !((s.die d).wringerOut w) && s.wringerUp d w

/-- REQUEST_OPEN (R57, R60 to R62). -/
def execRequestOpen (die w : Nat) (s : State) : Out :=
  event s (s.wOn die w) (s.wLive die w && ((s.die die).wringer w).nextOpen.isSome) (doRequestOpen die w s)

/-! ## SHEET_STREAM (R57, R62, R67 to R69, R81, R86) -/

/-- A WRING that still has sheets to do. -/
def WOpen.wants (o : WOpen) : Bool := !o.req.isAppend && o.fail.isNone && decide (o.done < o.res.length)

/-- A request that takes its turn: a WRING with sheets to do, an APPEND that no MOVING tail holds (R57, R73). -/
def Die.asks (x : Die) (o : WOpen) : Bool := if o.req.isAppend then !(o.hold && x.tailMoving o.req) else o.wants

/-- The open request that has the next turn (R24, R57), WRINGs and APPENDs alike, by its place in the list, which is the
round-robin order. -/
def Die.wringGrant (x : Die) (w : Nat) : Option (Nat × WOpen) :=
  grantPick (fun e => e.2.req.cls) (fun e => e.2.waited) (fun e => e.1)
    (((x.wringer w).openR.mapIdx fun i o => (i, o)).filter fun e => x.asks e.2)

/-- The granted request, if it is a WRING. -/
def Die.granted (x : Die) (w : Nat) : Option (Nat × WOpen) := (x.wringGrant w).filter fun e => !e.2.req.isAppend

/-- The granted request, if it is an APPEND that is held (`true`) or not. -/
def Die.appendNext (x : Die) (w : Nat) (held : Bool) : Option (Nat × WOpen) :=
  (x.wringGrant w).filter fun e => e.2.req.isAppend && e.2.hold == held

/-- The other open requests after a grant to place `i` in class `c`, with the counts of R24. -/
def Die.othersAfter (x : Die) (l : List WOpen) (i c : Nat) : List WOpen :=
  (l.eraseIdx i).map fun k => if x.asks k then { k with waited := waitCount k.req.cls c k.waited } else k

/-- The list after a grant to place `i` in class `c`: the request itself last, as `o`. -/
def Die.afterGrant (x : Die) (l : List WOpen) (i c : Nat) (o : WOpen) : List WOpen :=
  x.othersAfter l i c ++ [{ o with waited := 0 }]

/-- A read of place `l` that wringer `w` makes for a request to channel `c` goes over the networks (R81, Table 3-9): it is not
its own channel, nor its pair partner's under a redirect. -/
def remoteRead (w c : Nat) (l : Loc) : Bool :=
  !(decide (l.code = w) || (decide (l.code = c) && decide (c < 64) && decide (c / 2 = w / 2)))

/-- The bytes of slot `t` of a resolved sheet, decrypted (R38, R331). -/
def Die.slotBytesAt (x : Die) (d : Nat) (q : WReq) (r : Resolved) (t : Nat) : List Byte :=
  let b := slotBytes q.h q.d r.fmt
  x.readSealed (frameAddr r.loc.code r.loc.frame + t * b) b (x.keyOf r.slot) fun i =>
    sheetTweak d r.handle ((t * b + i) / 16)

/-- SEALING_FAULT of a request of a wringer (R332, R442): the slot and the endpoint of its node (Table 12-1). -/
def State.wringSealFault (s : State) (d w slot : Nat) : State :=
  let node := if w < 64 then 12 + w % 8 / 2 else 16 + w % 2
  s.emit { Event.blank 0x0014 8 1 .authFail with
    die := d, region := chanRegion w, unitKind := 4, unit := w, arg0 := slot, arg1 := d * 256 + chanRegion w * 32 + node }

/-- `acc_count` rises by one, saturating at 255 (R43, R62). -/
def Die.bumpAcc (x : Die) (h : Nat) : Die :=
  let e := x.entry h
  if e.st == .free || x.reamBad.contains h then x else x.setEntry h { e with acc := min 255 (e.acc + 1) }

/-- The controller of channel `c` has no refresh at its limit that goes ahead of every request (R338). -/
def Die.refreshFree (x : Die) (c : Nat) : Bool := !(((x.mc (chanMC c)).refreshDue))

/-- The WRING that a wringer is granted, with the sheet that is its next. -/
def Die.nextSheet (x : Die) (w : Nat) : Option (Nat × WOpen × Resolved) :=
  (x.granted w).bind fun e => (e.2.res[e.2.done]?).map fun r => (e.1, e.2, r)

/-- Why a sheet cannot be read: an EMPTY slot (R332), a channel that is gone (R336, R348), an isolated region (R318). -/
def State.readStop (s : State) (d w : Nat) (o : WOpen) (r : Resolved) : Option (Status × Nat × Nat) :=
  let x := s.die d
  if !(x.slotLoaded r.slot) then some (.authFail, 0xFFFF, 0)
  else if (x.region (chanRegion r.loc.code)).isolated && remoteRead w o.req.chan r.loc then some (.unitFenced, 0xFFFF, 0)
  else if !(x.chanUp r.loc.code) then some (.stateLost, o.done, r.first)
  else none

/-- The request of a wringer for its remote read at the controller that owns the channel, in the bulk class (R81). -/
def State.remoteAsk (s : State) (d w : Nat) : Option MWait :=
  match (s.die d).nextSheet w with
  | none => none
  | some (_, o, r) =>
    if s.wLive d w && remoteRead w o.req.chan r.loc && !(o.req.seen r).isEmpty && (s.readStop d w o r).isNone then
      some { req := { who := .wringer w, cls := 2, chan := r.loc.code, off := 524288 * r.loc.frame, slot := r.slot,
                      sheet := some (r.handle, 0), wdata := none },
             waited := tget ((s.die d).mc (chanMC r.loc.code)).askWait w 0 }
    else none

/-- The request of a real-time channel's port for the unit that it would move now, in the real-time class (R255). The unit's bytes
are in the ring (log entry 36). -/
def State.rtAsk (s : State) (d r port : Nat) : Option MWait :=
  match (s.die d).rtpUnit r port with
  | none => none
  | some (n, u) => (((s.die d).ring n).placeOf u).map fun k =>
      { req := { who := .rtp r, cls := 0, chan := k.1, off := k.2, slot := 0, sheet := none, wdata := none }, waited := 0 }

/-- The requests that wait for a controller outside its queue: remote reads by wringer, and units of real-time ports. -/
def State.remoteAsks (s : State) (d m : Nat) : List MWait :=
  ((s.die d).wringers.filterMap fun g => s.remoteAsk d g.1).filter (fun k => chanMC k.req.chan == m) ++
    (((s.die d).fabrics.flatMap fun f => [12, 13, 14, 15].filterMap fun n => s.rtAsk d f.1 n).filter fun k =>
      chanMC k.req.chan == m)

/-- What a controller would grant next: of its queue and of the remote reads that wait for it. -/
def State.mcNext (s : State) (d m : Nat) : Option (Nat × MWait) :=
  (s.die d).mcGrant m (((s.die d).mc m).queue ++ s.remoteAsks d m)

/-- A remote read may go on: the controller grants it. -/
def State.askGranted (s : State) (d w m : Nat) : Bool :=
  match s.mcNext d m with
  | none => false
  | some (i, k) => decide (((s.die d).mc m).queue.length ≤ i) && k.req.who == .wringer w

/-- A controller after a grant: to place `i` of its queue, or (beyond it) to a remote read; under panic every other request counts
a grant of the port (R24, R347). -/
def MC.afterAccess (g : MC) (asks : List MWait) (i : Nat) (panic : Bool) (w : MWait) : MC :=
  let up (k : MWait) : Nat := if panic then k.waited + 1 else waitCount k.req.cls w.req.cls k.waited
  { g with
    queue := (g.queue.eraseIdx i).map fun k => { k with waited := up k }
    askWait := asks.foldl (fun t k => match k.req.who with
      | .wringer n => if k.req.who = w.req.who ∧ g.queue.length ≤ i then tdel t n else tput t n (up k)
      | .mover => t | .stream _ => t | .threadHead _ => t | .image _ => t | .rtp _ => t | .firmware => t) g.askWait
    order := g.order.filter (· != w.req.who) ++ [w.req.who] }

/-- The unit of a real-time channel's port may move: its controller grants it, or none is asked. -/
def State.rtGranted (s : State) (d r port : Nat) : Bool :=
  match s.rtAsk d r port with
  | none => true
  | some a => match s.mcNext d (chanMC a.req.chan) with
      | none => false
      | some (i, k) =>
        let g := (s.die d).mc (chanMC a.req.chan)
        decide (g.queue.length ≤ i) && k.req == a.req && !g.pause && !g.refreshDue

/-- The controller of a remote read has granted it. -/
def State.grantAsk (s : State) (d m : Nat) : State :=
  match s.mcNext d m with
  | none => s
  | some (i, k) => 
    let pan := (s.die d).mcPanic m && reqIsPort k.req
    s.modDie d fun x => (x.modMC m fun g => g.afterAccess (s.remoteAsks d m) i pan k).countMC mcPanicGrants m (b2n pan)

/-- Who pays for a request: its tenant, and the step that holds its sequence (R87, R392). -/
def State.wringPayer (s : State) (q : WReq) : Payer :=
  { tenant := some q.tenant, disp := match s.seq q.seq with
      | some z => z.heldBy
      | none => none }

/-- The lane operations of a sheet: a multiply and an add for each element of key and of value that a score meets. -/
def WReq.laneOps (q : WReq) (r : Resolved) : Nat := 4 * q.d * q.scoresOn r

/-- The rows after a sheet that was read, with the counts of Table 3-10. `acc_count` rises here, when the sheet streams (DEDUCED
from R62's 'for each sheet it reads, and for no sheet it skips', log entry 76; Table 3-8 shows both counts raised by the time the
handles are resolved). -/
def State.readSheet (s : State) (d w i : Nat) (o : WOpen) (r : Resolved) : State :=
  let x := s.die d
  let q := o.req
  let u := q.doSheet r (x.slotBytesAt d q r) o.rows
  let lo := ((q.blocks r).head?).getD 0
  let hi := ((q.blocks r).getLast?.map (· + 32)).getD 0
  let n := (min hi r.tok - lo) * slotBytes q.h q.d r.fmt
  let rem := remoteRead w q.chan r.loc
  let o1 : WOpen := { o with done := o.done + 1, rows := u.1, fp := Nat.lor o.fp u.2.fp, scores := o.scores + q.scoresOn r, remote := o.remote || rem, lpddr := o.lpddr || r.loc.tier }
  s.modDie d fun x =>
    ((((((((x.modWringer w fun g => { g with openR := x.afterGrant g.openR i q.cls o1 }).bumpAcc r.handle).count wrBytesRead w n).count
      wrRemoteBytes w (if rem then n else 0)).count wrSheetsRead w 1).count wrFlush w u.2.flush).countMC mcReadBytes
        (chanMC r.loc.code) n).memAct r.loc.code (s.wringPayer q) n).act (if r.fmt = 0 then 1 else 0) (s.wringPayer q)
          (q.laneOps r)

/-- The sheet whose data was bad becomes LOST also where its entry has moved on since it was resolved (R86). -/
def State.loseRead (s : State) (d : Nat) (q : WReq) (r : Resolved) : State :=
  let e := (s.die d).entry r.handle
  if e.gone || e.foreign q then s else s.markGone d [r.handle] .lost false

/-- The granted request does its next sheet: skipped, read, or the end of the request; a remote sheet in a region that sleeps asks
for its wake (R82). -/
def doSheetStream (d w : Nat) (bad : Bool) (s : State) : State :=
  match (s.die d).nextSheet w with
  | none => s
  | some (i, o, r) =>
    let c := r.loc.code
    let put (s : State) (o1 : WOpen) : State :=
      s.modDie d fun x => x.modWringer w fun g => { g with openR := x.afterGrant g.openR i o.req.cls o1 }
    if (o.req.seen r).isEmpty then
      (put s { o with done := o.done + 1, skipped := o.skipped + 1 }).modDie d fun x => x.count wrSheetsSkipped w 1
    else if ((s.die d).region (chanRegion c)).closed then s.modDie d fun x => x.modRegion (chanRegion c) Region.reach
    else
      match s.readStop d w o r with
      | some f =>
        let s1 := put s { o with fail := some f }
        if f.1 = .authFail then s1.wringSealFault d w r.slot else s1
      | none =>
        let s0 := if remoteRead w o.req.chan r.loc then
            (s.grantAsk d (chanMC c)).modDie d fun x => x.modRegion (chanRegion c) Region.reach else s
        if bad then
          ((put s0 { o with fail := some (.stateLost, o.done, r.first) }).frameUe d c r.loc.frame).loseRead d o.req r
        else s0.readSheet d w i o r

/-- The granted sheet can go on: it is skipped, waits for a sleeping region or fails at once, or its controller has no refresh
ahead of it (R338) and, for a remote read, grants it (R81). -/
def State.streamDue (s : State) (d w : Nat) : Bool :=
  s.wLive d w && match (s.die d).nextSheet w with
    | none => false
    | some (_, o, r) =>
      (o.req.seen r).isEmpty || ((s.die d).region (chanRegion r.loc.code)).closed || (s.readStop d w o r).isSome ||
        ((s.die d).refreshFree r.loc.code &&
          (!(remoteRead w o.req.chan r.loc) || s.askGranted d w (chanMC r.loc.code)))

/-- SHEET_STREAM (R69); `corrected` errors in the wringer's own buffers count towards its thresholds (R445). -/
def execSheetStream (die w : Nat) (uncorrectable : Bool) (corrected : Nat) (s : State) : Out :=
  event s (s.wOn die w) (s.streamDue die w)
    (let s1 := doSheetStream die w uncorrectable s
     if corrected = 0 then s1 else
       let s2 := s1.corrected die 4 w corrected 16 (some 256) (some (chanRegion w))
       if (s2.die die).isFenced 4 w then s2.modDie die fun x => x.answerFenced die w else s2)

/-! ## PARTIAL (R63, R64) -/

/-- A WRING that is done: every sheet is, or it has failed. -/
def WOpen.over_ (o : WOpen) : Bool := !o.req.isAppend && (o.fail.isSome || decide (o.done = o.res.length))

/-- The first finished WRING is answered and closed (R64, R83). -/
def doPartialSend (d w : Nat) (s : State) : State :=
  match ((s.die d).wringer w).openR.find? WOpen.over_ with
  | none => s
  | some o =>
    let n := if o.fail.isSome then 0 else (o.rows.filter WRow.nan).length
    ((s.modWringer d w fun g => { g with openR := g.openR.erase o }).modDie d fun x => x.count wrNanRows w n).sendRep d w
      (o.reply d w)

/-- PARTIAL (R64). -/
def execPartial (die w : Nat) (s : State) : Out :=
  event s (s.wOn die w) (s.wLive die w && ((s.die die).wringer w).openR.any WOpen.over_) (doPartialSend die w s)

/-! ## APPEND and APPEND_RESUME (R73 to R75) -/

/-- Bytes written from byte `off` of a sheet on, under its key and tweaks; the 16-byte units at the ends keep their other
bytes. -/
def Die.writeSheet (x : Die) (d : Nat) (h : Nat) (e : Ream) (off : Nat) (bs : List Byte) : Die :=
  let a := frameAddr e.loc.code e.loc.frame
  let k := x.keyOf e.slot
  let tw (o : Nat) (i : Nat) : Nat := sheetTweak d h ((o + i) / 16)
  let lo := off / 16 * 16
  let hi := ceilDiv (off + bs.length) 16 * 16
  let pre := x.readSealed (a + lo) (off - lo) k (tw lo)
  let post := x.readSealed (a + off + bs.length) (hi - (off + bs.length)) k (tw (off + bs.length))
  x.writeSealed (a + lo) k (tw lo) (pre ++ bs ++ post)

/-- The step that holds the sequence admitted it (R73). -/
def State.admittedSeq (s : State) (n : Nat) : Bool :=
  match s.seq n with
  | some q => q.heldBy.isSome
  | none => false

/-- R73: the tail can take the append. -/
def State.appendOk (s : State) (q : WReq) (e : Ream) : Bool :=
  let sp := sheetSpan q.h q.d e.fmt
  e.st == .tail && s.admittedSeq q.seq && decide (q.pos0 = e.first + e.tok) && decide (q.t + e.tok ≤ sp)

/-- What the append's reply says beside its status (Table 3-4). -/
def WReq.appendReply (q : WReq) (st : Status) (d w tok : Nat) (ev : Ev) : WRep :=
  { q.answer st d w (if st = .stateLost then 0 else 0xFFFF) tok with fp := ev.fp, countA := ev.loss, countB := ev.sat }

/-- The slots are written, then `tok_count` rises in one entry write; FULL at the last slot (R43, R75). -/
def State.writeAppend (s : State) (d w : Nat) (q : WReq) (h : Nat) (e : Ream) : State :=
  let p := q.slots e.fmt
  let b := slotBytes q.h q.d e.fmt
  let tok := e.tok + q.t
  let full := decide (tok = sheetSpan q.h q.d e.fmt)
  (s.modDie d fun x =>
    ((((((((x.writeSheet d h e (e.tok * b) p.1).setEntry h { e with tok := tok, st := if full then .full else .tail }).count
      wrAppendTokens w q.t).count wrAppendUnderflow w p.2.loss).count wrAppendSaturate w p.2.sat).count wrAppendNanBlocks w
        p.2.nanb).count wrFlush w p.2.flush).countMC mcWriteBytes (chanMC e.loc.code) (q.t * b)).memAct e.loc.code (s.wringPayer q) (q.t * b)).sendRep d w
    (q.appendReply .ok d w tok p.2)

/-- The granted APPEND, at place `i`, runs against the entry as it is now (R73 to R75, Table 3-3). -/
def State.runAppend (s : State) (d w i : Nat) (o : WOpen) : State :=
  let q := o.req
  let h := q.handles.headD 0
  let e := (s.die d).entry h
  let s1 := s.modDie d fun x =>
    (x.modWringer w fun g => { g with openR := x.othersAfter g.openR i q.cls }).modRegion (chanRegion e.loc.code) Region.reach
  match (s.die d).resolve q with
  | .wrong => (s1.dispatchFault d w q).sendRep d w (q.appendReply .badParam d w e.tok Ev.none)
  | .lost _ _ => s1.sendRep d w (q.appendReply .stateLost d w e.tok Ev.none)
  | .found _ =>
    if !(s.appendOk q e) then s1.sendRep d w (q.appendReply .badParam d w e.tok Ev.none)
    else if !((s.die d).slotLoaded e.slot) then
      (s1.wringSealFault d w e.slot).sendRep d w (q.appendReply .authFail d w e.tok Ev.none)
    else if ((s.die d).region (chanRegion e.loc.code)).isolated && remoteRead w q.chan e.loc then
      s1.sendRep d w (q.appendReply .unitFenced d w e.tok Ev.none)
    else s1.writeAppend d w q h e

/-- The channel of an append's tail, as its entry is now. -/
def Die.tailChan (x : Die) (o : WOpen) : Nat := (x.entry (o.req.handles.headD 0)).loc.code

/-- The granted APPEND can go on: its tail lies in a sleeping region, whose wake it asks for, or its controller has no refresh
ahead of it (R82, R338). -/
def State.appendReach (s : State) (d : Nat) (o : WOpen) : Bool :=
  let c := (s.die d).tailChan o
  ((s.die d).region (chanRegion c)).closed || ((s.die d).region (chanRegion c)).isolated || (s.die d).refreshFree c

/-- The granted APPEND waits on a MOVING tail (R73) or for a region's wake (R82), or runs. -/
def State.doAppend (s : State) (d w i : Nat) (o : WOpen) : State :=
  let r := chanRegion ((s.die d).tailChan o)
  if (s.die d).tailMoving o.req then
    s.modWringer d w fun g => { g with openR := modAt (fun k => { k with hold := true }) i g.openR }
  else if ((s.die d).region r).closed then s.modDie d fun x => x.modRegion r Region.reach
  else s.runAppend d w i o

/-- APPEND (R75). -/
def execAppend (die w : Nat) (s : State) : Out :=
  match (s.die die).appendNext w false with
  | some (i, o) => event s (s.wOn die w) (s.wLive die w && s.appendReach die o) (s.doAppend die w i o)
  | none => event s (s.wOn die w) false s

/-- APPEND_RESUME (R73): a held append whose tail is MOVING no more proceeds in its turn. -/
def execAppendResume (die w : Nat) (s : State) : Out :=
  match (s.die die).appendNext w true with
  | some (i, o) => event s (s.wOn die w) (s.wLive die w && s.appendReach die o) (s.doAppend die w i o)
  | none => event s (s.wOn die w) false s

/-! ## WRINGER_FENCE (R84, R85, R445, R447) -/

/-- Nothing is addressed to the wringer any more: its channels are redirected under every interface's current map, and it has
completed what it accepted (R447). -/
def State.wringerDrained (s : State) (d w : Nat) : Bool :=
  let x := s.die d
  (x.wringer w).input.isEmpty && (x.wringer w).openR.isEmpty && x.reqNet.all (fun q => q.w != w) &&
    s.usableDies.all fun e => (List.range 80).all fun c => (s.die e).redirect (s.die e).epoch d c != w

/-- A fence for its own fault (causes 1 to 3), or, drained, for a requested test (cause 5). -/
def State.wringFenceDue (s : State) (d w cause : Nat) : Bool :=
  let x := s.die d
  s.live d && !(x.isFenced 4 w) &&
    (cause == 1 || cause == 2 || cause == 3 || (cause == 5 && s.wringerDrained d w && match tfind x.tests (unitKey 4 w) with
      | some t => !t.passed
      | none => false))

/-- The wringer is fenced; what it accepted is answered UNIT_FENCED (R85). -/
def doWringerFence (d w cause : Nat) (s : State) : State :=
  (s.modDie d fun x => x.answerFenced d w).fence d 4 w cause (some (chanRegion w))

/-- WRINGER_FENCE (R85). -/
def execWringerFence (die w cause : Nat) (s : State) : Out :=
  event s (s.wOn die w) (s.wringFenceDue die w cause) (doWringerFence die w cause s)

end Sys2Proof.Machine
end

