-- ==== Sys2Proof/Machine/Fabric.lean ====
section
/-! DEFINITION. The fabric at work: tile ports (R250 to R253), the real-time port (R255), memory blocks (R247 to R249), logic
blocks (R239 to R242), user I/O and boundary wires (R245, R258, R273, R283), raw lanes (R264, R265). -/

namespace Sys2Proof.Machine

/-! ## Tile ports -/

/-- The region's design runs on FCLKr: configured and not halted (R250, R263). -/
def State.fclkOn (s : State) (a : RAt) : Bool :=
  let f := (s.die a.die).fabric a.region
  s.live a.die && f.st == .configured && !f.halted

/-- The array behind TP0 to TP3 of a region: A of MT(8r + 7) takes TP0 and feeds TP2, B takes TP1 and feeds TP3. -/
def stagArr (a : RAt) (port : Nat) : AAt := { die := a.die, tile := 8 * a.region + 7, arr := port % 2, err := 0 }

/-- The image holds a descriptor of array `arr` that runs and claims the array's input port (or with `out` its output port) for its
whole run (R126). -/
def Image.claims (m : Image) (arr : Nat) (out : Bool) : Bool :=
  match m with
  | .mat a b _ => (if arr = 0 then a else b).runs.any fun u => u.status.isNone && if out then mmPort u.desc else mmStagger u.desc
  | .vec _ _ => false
  | .none => false

/-- A context that is away holds a claim on the array's input or output port (R126). -/
def State.claimedAway (s : State) (k : AAt) (out : Bool) : Bool :=
  (s.die k.die).ctxs.any fun e =>
    e.2.kind == .matrix && e.2.tile.isNone && e.2.lastTile == some k.tile && e.2.image.claims k.arr out

/-- The tile is with the context whose rows the port carries: no switch is under way there, and no context that is away
holds a claim on the port (R129, R211). -/
def State.stagHere (s : State) (k : AAt) : Bool :=
  ((s.die k.die).tileOcc .matrix k.tile).phase == .none && !(s.claimedAway k false)

/-- The words of the output FIFO may leave: they are the claimant's, on its tile or being quiesced there (R126, R195). -/
def State.outHere (s : State) (k : AAt) : Bool :=
  let ph := ((s.die k.die).tileOcc .matrix k.tile).phase
  (ph == .none || ph == .quiescing) && !(s.claimedAway k true)

/-- A call port can take a word: fewer than two complete calls stand in its buffers (R252). -/
def Port.callReady (p : Port) : Bool :=
  decide (((p.calls.filter fun c => !c.claimed).filter fun c => c.isDone).length < 2)

/-- A word into a call port (R252). -/
def Port.callWord (p : Port) (bind : PortBind) (word : BitVec 512) (last : Bool) : Port × Bool :=
  match p.calls.reverse with
  | c :: r =>
    if c.isDone then
      ({ p with calls := p.calls ++ [{ words := [word], isDone := last, claimed := false, bind := bind }] }, false)
    else
      let ws := c.words ++ [word]
      let cut := decide (64 ≤ ws.length) && !last
      ({ p with calls := (({ c with words := ws, isDone := last || cut } : Call) :: r).reverse }, cut)
  | [] => ({ p with calls := [{ words := [word], isDone := last, claimed := false, bind := bind }] }, false)

/-- A word passes from the fabric to the device on TP4 to TP11. -/
def State.tpCall (s : State) (a : RAt) (port : Nat) (bind : PortBind) (word : BitVec 512) (last : Bool) : State :=
  s.modDie a.die fun x =>
    let q := ((x.fabric a.region).port port).callWord bind word last
    ((x.modFabric a.region fun f => f.modPort port fun _ => q.1).count tpWordsIn a.region 1).count tpCallCut a.region
      (b2n q.2)

/-- A word passes to the fabric: the port's output holds it. -/
def Die.tpOut (x : Die) (r port : Nat) (w : BitVec 512) : Die := x.modFabric r fun f => f.modPort port fun p => { p with out := w }

/-- One port word at an FCLKr edge, by the port's function (Table 10-6); `none` where no word can pass. A full write channel
counts the refused edge, an empty read channel the unserved one (R255). -/
def State.tpStep (s : State) (a : RAt) (port : Nat) (word : BitVec 512) (last : Bool) : Option State :=
  let x := s.die a.die
  let f := x.fabric a.region
  let p := f.port port
  let k := stagArr a port
  let bind := tfind f.binds port
  if p.absent then none
  else if port < 2 then
    if 64 ≤ (s.array k).fifo.length || !(s.stagHere k) then none
    else some (s.modArray k fun r => { r with fifo := r.fifo ++ [word] })
  else if port < 4 then
    match (s.array k).cfifo with
    | [] => none
    | w :: rest =>
      if s.outHere k then
        some (((s.modArray k fun r => { r with cfifo := rest }).settle k).modDie a.die fun x => x.tpOut a.region port w)
      else none
  else
    match bind with
    | none => none
    | some b =>
      if b.kind = 1 then if p.callReady then some (s.tpCall a port b word last) else none
      else if b.kind = 2 then
        if x.ringHeld b.ring = 0 then none
        else some (s.modDie a.die fun x =>
          ((x.tpOut a.region port (x.ringFront b.ring)).ringPop b.ring).count tpWordsOut a.region 1)
      else if b.kind = 3 then
        if 1024 ≤ p.buf.length then some (s.modDie a.die fun x => x.count rtpFullCycles a.region 1)
        else some (s.modDie a.die fun x =>
          ((x.modFabric a.region fun f => f.modPort port fun p => { p with buf := p.buf ++ [word] }).count tpWordsIn
            a.region 1).testPanic a.region)
      else
        match p.buf with
        | [] => some (s.modDie a.die fun x => x.count rtpEmptyCycles a.region 1)
        | w :: rest => some (s.modDie a.die fun x =>
            (((x.tpOut a.region port w).modFabric a.region fun f => f.modPort port fun p => { p with buf := rest }).count
              tpWordsOut a.region 1).testPanic a.region)

/-- FCLKr may give its next edge before the action that waits: that one waits for a later edge, or for no numbered one (R246). -/
def Fabric.edgeFree (f : Fabric) : Bool :=
  match f.acts with
  | [] => true
  | k :: _ => decide (k.edge = 0) || decide (f.fctr < k.edge)

/-- FCTR counts an edge. -/
def State.fctrTick (s : State) (a : RAt) : State :=
  s.modDie a.die fun x => x.modFabric a.region fun f => { f with fctr := (f.fctr + 1) % 2 ^ 64 }

/-- The state at the edge at which a port's next word passes: this one, or the next where a word has passed the port at this one. -/
def State.tpEdge (s : State) (a : RAt) (port : Nat) : Option State :=
  let f := (s.die a.die).fabric a.region
  if (f.port port).edge = some f.fctr then if f.edgeFree then some (s.fctrTick a) else none else some s

/-- A word passes at an edge. -/
def State.tpPass (s : State) (a : RAt) (port : Nat) (word : BitVec 512) (last : Bool) : Option State :=
  match s.tpEdge a port with
  | none => none
  | some s1 => (s1.tpStep a port word last).map fun t => t.modDie a.die fun x => x.modFabric a.region fun f =>
      f.modPort port fun p => { p with edge := some f.fctr }

/-- TP_WORD: an FCLKr edge with VALID and READY high (R250 to R253, R127, R129, R255). -/
def execTpWord (a : RAt) (port : Nat) (word : BitVec 512) (last : Bool) (s : State) : Out :=
  let t := s.tpPass a port word last
  event s (decide (a.die < s.dieCount) && decide (a.region < 8) && decide (port < 16)) (s.fclkOn a && t.isSome) (t.getD s)

/-- The first complete call of a port that has not claimed its units. -/
def Port.nextCall (p : Port) : Option Call :=
  match p.calls.find? fun c => !c.claimed with
  | some c => if c.isDone then some c else none
  | none => none

/-- The first call of a list that `p` accepts, rewritten. -/
def markCall (p : Call → Bool) (g : Call → Call) : List Call → List Call
  | [] => []
  | c :: r => if p c then g c :: r else c :: markCall p g r

/-- CALL_RING_CLAIM: a complete call claims units of its ring, which has room, and writes them (R252). -/
def execCallRingClaim (a : RAt) (port : Nat) (s : State) : Out :=
  let x := s.die a.die
  let c := ((x.fabric a.region).port port).nextCall
  event s (decide (a.die < s.dieCount) && decide (a.region < 8) && decide (4 ≤ port) && decide (port ≤ 11))
    (s.live a.die && match c with
      | some c => decide (c.words.length ≤ x.ringRoom c.bind.ring)
      | none => false)
    (match c with
      | some c => s.modDie a.die fun x =>
          (c.words.foldl (fun (x : Die) w => x.ringPush c.bind.ring w) x).modFabric a.region fun f =>
            f.modPort port fun p => { p with calls := markCall (fun c => !c.claimed) (fun c => { c with claimed := true }) p.calls }
      | none => s)

/-- The first element `p` accepts, taken out. -/
def dropCall (p : Call → Bool) : List Call → List Call
  | [] => []
  | c :: r => if p c then r else c :: dropCall p r

/-- CALL_LANDED: the hub has confirmed the call's last unit; `kn_inc` goes to the knot (R252). -/
def execCallLanded (a : RAt) (port : Nat) (s : State) : Out :=
  let c := ((s.die a.die).fabric a.region).port port |>.calls.find? fun c => c.claimed
  event s (decide (a.die < s.dieCount) && decide (a.region < 8) && decide (4 ≤ port) && decide (port ≤ 11))
    (s.live a.die && c.isSome)
    (match c with
      | some c => (s.modDie a.die fun x =>
          (x.modFabric a.region fun f => f.modPort port fun p =>
            { p with calls := dropCall (fun c => c.claimed) p.calls }).count tpCalls a.region 1).sendAdd a.die c.bind.knot
            (BitVec.ofNat 64 c.bind.knInc)
      | none => s)

/-! ## The real-time port (R255, R256) -/

/-- One unit between a channel's buffer and its ring; `none` where none can move. -/
def Die.rtpMove (x : Die) (r port : Nat) : Option Die :=
  match x.rtpUnit r port with
  | none => none
  | some (n, _) =>
    let x := x.memAct 0 (x.ring n).payer 64
    if port ≤ 13 then
      some (((x.ringPush n (((x.fabric r).port port).buf.headD 0)).modFabric r fun f =>
        f.modPort port fun p => { p with buf := p.buf.drop 1 }).testPanic r)
    else
      let u := x.ringFront n
      some (((x.ringPop n).modFabric r fun f => f.modPort port fun p => { p with buf := p.buf ++ [u] }).testPanic r)

/-- RTP_TRANSFER: channel `ch` (TP12 + ch) moves a unit to or from memory, which its controller grants (R255). -/
def execRtpTransfer (a : RAt) (ch : Nat) (s : State) : Out :=
  let t := (s.die a.die).rtpMove a.region (12 + ch)
  let s1 := match s.rtAsk a.die a.region (12 + ch) with
    | none => s
    | some k => s.grantAsk a.die (chanMC k.req.chan)
  event s (decide (a.die < s.dieCount) && decide (a.region < 8) && decide (ch < 4))
    (s.live a.die && t.isSome && s.rtGranted a.die a.region (12 + ch))
    (match (s1.die a.die).rtpMove a.region (12 + ch) with
      | some y => s1.setDie a.die y
      | none => s1)

/-! ## Memory blocks (R247 to R249) -/

/-- A narrow address: the word, and the place of its lowest bit. -/
def fmPlace (width addr : Nat) : Nat × Nat := (addr * width / 64, addr * width % 64)

/-- `width` bits of a word from bit `lo` on. -/
def fmBits (w : BitVec 64) (width lo : Nat) : BitVec 64 := BitVec.ofNat 64 (w.toNat / 2 ^ lo % 2 ^ width)

/-- A word with `width` bits from bit `lo` on replaced. -/
def fmMerge (w : BitVec 64) (width lo : Nat) (v : BitVec 64) : BitVec 64 :=
  let m := BitVec.ofNat 64 ((2 ^ width - 1) * 2 ^ lo)
  (w &&& ~~~m) ||| (BitVec.ofNat 64 (v.toNat % 2 ^ width * 2 ^ lo))

/-- The output of a port. -/
def FmBlk.setOut (b : FmBlk) (port : Nat) (v : BitVec 64) (derr : Bool) : FmBlk :=
  if port = 0 then { b with outA := (v, derr) } else { b with outB := (v, derr) }

/-- A word stored. -/
def FmBlk.store (b : FmBlk) (j : Nat) (v : BitVec 64) : FmBlk :=
  { b with words := if v = 0 then tdel b.words j else tput b.words j v }

/-- Clock line and width of a port, as configured (R247); FCLKr and 64 bits where the design does not name the port. -/
def Fabric.fmPort (f : Fabric) (blk port : Nat) : Nat × Nat := (tfind f.design.fmPorts (2 * blk + port)).getD (0, 64)

/-- The word that an access works on, whether the word then stays, and the state after free values are drawn (R248). `meets` says
that the access meets the last one of the other port: in one cycle of a common clock line, or at the same time on different ones.
A read on A that meets a write on B of one clock line is not in the rules: a free value (log entry 82). -/
def State.fmMeet (s : State) (b : FmBlk) (common : Bool) (port j : Nat) (write meets : Bool) (w : BitVec 64) :
    BitVec 64 × Bool × State :=
  match b.last with
  | none => (w, false, s)
  | some (q, k, v, wrote) =>
    if !(meets && wrote && q != port && k == j) then (w, false, s)
    else if write then if common && port == 1 then (w, true, s) else (v, false, s)
    else if common && port == 1 then (v, false, s)
    else
      let (n, s1) := s.freeNat
      (if common then BitVec.ofNat 64 n else if n % 2 = 0 then v else w, false, s1)

/-- One access to a memory block. `bitErrors` is what the word's check bits show: 1 is corrected, 2 uncorrectable. A
whole-word write reads nothing and meets no error. -/
def State.fmStep (s : State) (a : RAt) (blk port addr : Nat) (write : Option (BitVec 64)) (meets : Bool) (bitErrors : Nat) :
    State :=
  let u := 320 * a.region + blk
  let f := (s.die a.die).fabric a.region
  let width := (f.fmPort blk port).2
  let b := tget f.fm blk FmBlk.reset
  let (j, lo) := fmPlace width addr
  let w := tget b.words j 0
  let set (s : State) (b : FmBlk) : State := s.modDie a.die fun x => x.modFabric a.region fun f => { f with fm := tput f.fm blk b }
  if (s.die a.die).isFenced 11 u then
    match write with
    | some _ => s
    | none => set s (b.setOut port 0 true)
  else
    let (base, stays, s0) :=
      s.fmMeet b (decide ((f.fmPort blk 0).1 = (f.fmPort blk 1).1)) port j write.isSome meets w
    let out : FmBlk := { b.setOut port (fmBits base width lo) false with last := some (port, j, w, write.isSome) }
    let stored : FmBlk := match write with
      | some v => if stays then out else out.store j (fmMerge base width lo v)
      | none => out
    if bitErrors = 0 ∨ (write.isSome ∧ width = 64) then set s0 stored
    else if bitErrors = 1 then
      let s1 := set s0 (if write.isSome then stored else { stored with wback := some j })
      (s1.modDie a.die fun x => x.count fmCorrected a.region 1).corrected a.die 11 u 1 16 none (some a.region)
    else
      let (n, s1) := s0.freeNat
      let v := BitVec.ofNat 64 n
      let s2 := set s1 ((b.store j v).setOut port (fmBits v width lo) true)
      (s2.modDie a.die fun x => x.count fmUncorrected a.region 1).fence a.die 11 u 1 (some a.region)

/-- The design of a region runs, on FCLKr or another clock line. -/
def State.designRuns (s : State) (a : RAt) : Bool :=
  let f := (s.die a.die).fabric a.region
  s.live a.die && f.released && f.st != .unconfigured

/-- The clock line of a region gives edges: FCLKr and UCLK0 to UCLK3 while they are not halted, lane clocks always (R246). -/
def Fabric.lineRuns (f : Fabric) (line : Nat) : Bool := decide (5 ≤ line) || !f.halted

/-- FM_ACCESS: port A (0) or B (1) of a memory block reads, or writes `write`, at its width, at an edge of its clock line (R247 to
R249). -/
def execFmAccess (a : RAt) (blk port addr : Nat) (write : Option (BitVec 64)) (meets : Bool) (bitErrors : Nat) (s : State) : Out :=
  let k := ((s.die a.die).fabric a.region).fmPort blk port
  event s (decide (a.die < s.dieCount) && decide (a.region < 8) && decide (blk < 320) && decide (port < 2))
    (s.designRuns a && ((s.die a.die).fabric a.region).lineRuns k.1 && decide (addr * k.2 < 32768))
    (s.fmStep a blk port addr write meets bitErrors)

/-- FM_WRITEBACK: a corrected word goes back in the port's idle cycle (R249). -/
def execFmWriteback (a : RAt) (blk : Nat) (s : State) : Out :=
  let f := (s.die a.die).fabric a.region
  event s (decide (a.die < s.dieCount) && decide (a.region < 8) && decide (blk < 320))
    (s.designRuns a && (f.lineRuns (f.fmPort blk 0).1 || f.lineRuns (f.fmPort blk 1).1) &&
      (tget f.fm blk FmBlk.reset).wback.isSome)
    (s.modDie a.die fun x => x.modFabric a.region fun f =>
      { f with fm := tmod f.fm blk FmBlk.reset fun b => { b with wback := none } })

/-! ## Logic blocks (R239 to R242) -/

/-- Bit `i` of a table. -/
def tableBit (t : BitVec 64) (i : Nat) : Bool := t.getLsbD i

/-- Outputs Y and Z of a cell (Table 10-2). -/
def cellOut (mode : CellMode) (t : BitVec 64) (addr : BitVec 6) (j k : Bool) (sel : BitVec 6) : Bool × Bool :=
  let a := addr.toNat
  match mode with
  | .table => (tableBit t a, tableBit t a)
  | .twin => (tableBit t (32 + a / 32 * 16 + a % 16), tableBit t (a % 32))
  | .shift => (tableBit t a, tableBit t 63)
  | .select =>
    let n := sel.toNat % 8
    let y := if n < 6 then addr.getLsbD n else if n = 6 then j else k
    (y, y)

/-- The address and side inputs of cell `k`. -/
def blkAddr (i : BlockIn) (k : Nat) : BitVec 6 := i.addr.getD k 0
/-- J and K of cell `k`. -/
def blkJk (i : BlockIn) (k : Nat) : Bool × Bool := i.jk.getD k (false, false)

/-- Outputs of the eight cells. -/
def blkOuts (cfg : List CellCfg) (tbl : Nat → BitVec 64) (i : BlockIn) : List (Bool × Bool) :=
  cfg.mapIdx fun k c => cellOut c.mode (tbl k) (blkAddr i k) (blkJk i k).1 (blkJk i k).2 i.sel

/-- c(k) of the carry chain: c(k + 1) = g(k) OR (p(k) AND c(k)), with p = Y and g = Z (R242). -/
def blkCarry (outs : List (Bool × Bool)) (c0 : Bool) : Nat → Bool
  | 0 => c0
  | k + 1 =>
    let o := outs.getD k (false, false)
    o.2 || (o.1 && blkCarry outs c0 k)

/-- WY of the select tree: the Y of cell C(L5 L4 L3) (R240). -/
def blkWy (outs : List (Bool × Bool)) (sel : BitVec 6) : Bool := (outs.getD (sel.toNat / 8) (false, false)).1

/-- D of a flip-flop (R241). -/
def ffD (c : FfCfg) (o : Bool × Bool) (carry side : Bool) : Bool :=
  match c.d with
  | .y => o.1
  | .z => o.2
  | .sum => o.1 != carry
  | .side => side

/-- A flip-flop after what comes (R241): `edge` is its own active edge. Its reset line overrides its enable; a synchronous reset
waits for the edge, an asynchronous one does not. -/
def ffNext (c : FfCfg) (i : BlockIn) (edge syncReset old d : Bool) : Bool :=
  let en := if c.en1 then i.en1 else i.en0
  let rs := if c.rs1 then i.rs1 else i.rs0
  if rs && (edge || !syncReset) then c.rsval else if edge && en then d else old

/-- The table of a cell in shift mode after a rising edge (Table 10-2, R239). -/
def shiftNext (c : CellCfg) (i : BlockIn) (rising below j : Bool) (t : BitVec 64) : BitVec 64 :=
  if c.mode = .shift ∧ rising ∧ i.en0 then
    (t <<< 1) ||| (if (if c.chainIn then below else j) then 1 else 0)
  else t

/-- The place of cell `k`'s table of block `blk` (column × 160 + row): its frame and word (R269). -/
def tablePlace (d r blk k : Nat) : Nat × Nat :=
  (frameAt d r 0 (blk / 160) (blk % 160 / 2), blk % 160 % 2 * 8 + k)

/-- A cell's table: as its shift register stands, else as its frame holds it. -/
def Die.cellTable (x : Die) (d r blk k : Nat) : BitVec 64 :=
  match tfind (x.fabric r).shift (8 * blk + k) with
  | some t => t
  | none => x.frameWord (tablePlace d r blk k).1 (tablePlace d r blk k).2

/-- Inputs that routing brings nothing to. -/
def lowIn : BlockIn :=
  { addr := List.replicate 8 0, jk := List.replicate 8 (false, false), sel := 0, en0 := false, en1 := false, rs0 := false, rs1 := false }

/-- The inputs of a block at an edge. -/
def edgeInOf (e : EdgeIn) (blk : Nat) : BlockIn := (tfind e.blocks blk).getD lowIn

/-- Outputs of the eight cells of a block; low where the design has no such block. -/
def Die.cellOuts (x : Die) (d r : Nat) (e : EdgeIn) (blk : Nat) : List (Bool × Bool) :=
  match tfind (x.fabric r).design.blocks blk with
  | some c => blkOuts c.cells (x.cellTable d r blk) (edgeInOf e blk)
  | none => List.replicate 8 (false, false)

/-- c(0) of the block in row `n` of a column: the carry input from the block below, or the constant at the bottom of a chain
(R242). -/
def colCarry (outs : Nat → List (Bool × Bool)) (cin : Nat → CarryIn) : Nat → Bool
  | 0 => match cin 0 with
    | .one => true
    | .zero => false
    | .chain => false
  | n + 1 => match cin (n + 1) with
    | .one => true
    | .zero => false
    | .chain => blkCarry (outs n) (colCarry outs cin n) 8

/-- c(0) of a block. -/
def Die.carryOf (x : Die) (d r : Nat) (e : EdgeIn) (blk : Nat) : Bool :=
  let base := blk / 160 * 160
  colCarry (fun n => x.cellOuts d r e (base + n))
    (fun n => match tfind (x.fabric r).design.blocks (base + n) with
      | some c => c.carryIn
      | none => .zero) (blk % 160)

/-- The shift bit that comes from the block below in the column: Z of its C7 (R239). -/
def Die.shiftOf (x : Die) (d r : Nat) (e : EdgeIn) (blk : Nat) : Bool :=
  if blk % 160 = 0 then false else ((x.cellOuts d r e (blk - 1)).getD 7 (false, false)).2

/-- What a block shows to the routing (R239, R240, R242). -/
def Die.blkShows (x : Die) (d r : Nat) (e : EdgeIn) (blk : Nat) : BlkOut :=
  let outs := x.cellOuts d r e blk
  { ys := outs.map (·.1), zs := outs.map (·.2), wy := blkWy outs (edgeInOf e blk).sel
    carry := blkCarry outs (x.carryOf d r e blk) 8, shift := (outs.getD 7 (false, false)).2 }

/-- A flag in a sparse table of flags. -/
def setFlag (t : Tbl Bool) (n : Nat) (v : Bool) : Tbl Bool := if v then tput t n true else tdel t n

/-- Block `blk` at an edge of `line`, from what the die `x` holds before it: flip-flops and shift tables of the fabric `f` after it
(R239 to R242). A block on another line has its asynchronous resets only. -/
def Die.clockBlock (x : Die) (d r line : Nat) (falling : Bool) (e : EdgeIn) (f : Fabric) (b : Nat × BlockCfg) : Fabric :=
  let i := edgeInOf e b.1
  let outs := x.cellOuts d r e b.1
  let c0 := x.carryOf d r e b.1
  let on := decide (b.2.line = line) && (x.fabric r).lineRuns line
  let old := (x.fabric r).ff
  (b.2.cells.mapIdx fun k c => (k, c)).foldl (fun (f : Fabric) (q : Nat × CellCfg) =>
    let o := outs.getD q.1 (false, false)
    let c := blkCarry outs c0 q.1
    let jk := blkJk i q.1
    let n := 16 * b.1 + 2 * q.1
    let next (g : FfCfg) (m : Nat) (side : Bool) : Bool :=
      ffNext g i (on && g.neg == falling) b.2.sync (tget old m false) (ffD g o c side)
    let below := if q.1 = 0 then x.shiftOf d r e b.1 else (outs.getD (q.1 - 1) (false, false)).2
    { f with
      ff := setFlag (setFlag f.ff n (next q.2.fa n jk.1)) (n + 1) (next q.2.fb (n + 1) jk.2)
      shift := if q.2.mode = .shift then
          tput f.shift (8 * b.1 + q.1) (shiftNext q.2 i (on && !falling) below jk.1 (x.cellTable d r b.1 q.1))
        else f.shift }) f

/-! ## Wires (R243, R244) -/

/-- Bits of the select field of a multiplexer with `n` inputs: ceil(log2(n + 1)). -/
def selWidth (n : Nat) : Nat := Nat.clog 2 (n + 1)

/-- A select code that names no input and is not 0. -/
def selIllegal (n code : Nat) : Bool := decide (n < code) && decide (code < 2 ^ selWidth n)

/-- A wire: the input that the code selects; low where it selects nothing or is illegal. It has no other driver. -/
def wireOut (inputs : List Bool) (code : Nat) : Bool := if code = 0 then false else inputs.getD (code - 1) false

/-! ## User I/O and boundary wires (R245, R258, R273, R283) -/

/-- A pin's registers that nothing has clocked. -/
def PinReg.reset : PinReg := { inRise := false, inFall := false, out := false, des := 0, ser := 0 }

/-- A pin's registers at an edge of their line (R258): an input's sample, an output's value; on an LVDS pair the deserialiser takes
the sample, the serialiser its next bit or the word it is given (bit 0 first: log entry 82). -/
def PinReg.clock (g : PinReg) (c : PinCfg) (falling level sig : Bool) (word : Option (BitVec 8)) : PinReg :=
  if falling && !c.ddr then g
  else if c.output then
    { g with out := sig, ser := if c.serdes then word.getD (g.ser >>> 1) else g.ser }
  else
    { g with
      inRise := if falling then g.inRise else level, inFall := if falling then level else g.inFall
      des := if c.serdes then (g.des >>> 1) ||| (if level then 0x80 else 0) else g.des }

/-- The pins of a region at an edge of `line`. -/
def Fabric.clockPins (f : Fabric) (line : Nat) (falling : Bool) (e : EdgeIn) : Fabric :=
  { f with pinRegs := f.design.pins.foldl (fun t p =>
      if p.2.reg && decide (p.2.line = line) && f.lineRuns line then
        tput t p.1 ((tget t p.1 PinReg.reset).clock p.2 falling (tget e.pins p.1 false) (tget f.sig (3072 + p.1) false)
          (tfind e.words p.1))
      else t) f.pinRegs }

/-- The isolation code of signal `i` of a region, as its frames hold it (R273). -/
def Die.isoCodeOf (x : Die) (d r i : Nat) : Nat :=
  bitsOf (x.frameBits (frameAt d r 3 0 (56 + i / 512))).toNat (i % 512 * 2 + 1) (i % 512 * 2)

/-- The value that the design gives an output pin. -/
def Fabric.pinValue (f : Fabric) (n : Nat) (c : PinCfg) : Bool :=
  let g := tget f.pinRegs n PinReg.reset
  if c.serdes then g.ser.getLsbD 0 else if c.reg then g.out else tget f.sig (3072 + n) false

/-- A level as a drive. -/
def levelOf (b : Bool) : Drive := if b then .high else .low

/-- What signal `i` that leaves a region carries (Table 11-8, R245, R273, R290): the design's once it is handed over; before any
load low wires, and pins with the strap's pull; else the isolation codes, which act on output pins only and give way to high
impedance while the bank's voltage changes. -/
def State.leaving (s : State) (d r i : Nat) : Drive :=
  let x := s.die d
  let f := x.fabric r
  let pin := tfind f.design.pins (i - 3072)
  let pull := match pin with
    | some c => c.pull
    | none => Pull.none
  let code := x.isoCodeOf d r i
  let byCode : Drive :=
    if code = 0 then .low else if code = 1 then .high else if code = 2 then levelOf (tget f.held i false) else .hiZ pull
  if i < 3072 then
    if f.handed then levelOf (tget f.sig i false) else if f.isoCodes then byCode else .low
  else if !f.handed && !f.isoCodes then .hiZ (if s.psi.strapPull then .up else .none)
  else
    match pin with
    | none => .hiZ .none
    | some c =>
      if !c.output then .hiZ c.pull
      else if f.handed then levelOf (f.pinValue (i - 3072) c)
      else if (match f.session with
        | some q => decide (4 ≤ q.step) && q.newVolt
        | none => false) then .hiZ c.pull
      else byCode

/-- What region `r` sees on boundary wire `n` from its neighbour of the same row below (0) or above (1), or of the other row (2);
nothing where it has no such neighbour (R245). -/
def State.boundaryIn (s : State) (d r side n : Nat) : Option Drive :=
  if side = 0 then if r % 4 = 0 then none else some (s.leaving d (r - 1) (1024 + n))
  else if side = 1 then if r % 4 = 3 then none else some (s.leaving d (r + 1) n)
  else some (s.leaving d (if r < 4 then r + 4 else r - 4) (2048 + n))

/-! ## Raw lanes (R264, R265) -/

/-- A silent lane. -/
def RawLane.reset : RawLane :=
  { word := 0, lock := false, detect := false, prbs := 0, prbsBad := false, lastRx := 0, taps := [], adapt := false, tx := none }

/-- Bits of a raw lane's word, by the claim's code (Table 10-12). -/
def laneWidth (claim : Nat) : Nat := if claim = 1 then 64 else if claim = 2 then 128 else 256

/-- A lane's receive word arrives: its symbols as bits, bit 0 first, and the PRBS31 check over them. -/
def RawLane.receive (l : RawLane) (claim : Nat) (pre : Bool) (q : LaneRx) : RawLane :=
  let bits := (symbolBits (decide (2 ≤ claim)) pre l.lastRx q.symbols).take (laneWidth claim)
  let c := prbs31 l.prbs bits
  { l with
    word := BitVec.ofNat 256 (bitsWord bits), lock := q.lock, detect := q.detect, prbs := c.1, prbsBad := c.2
    lastRx := (q.symbols.getLast?).getD l.lastRx }

/-- A lane's transmit word goes on the line, with the taps and the adaptation that the fabric sets. -/
def RawLane.send (l : RawLane) (claim : Nat) (pre : Bool) (q : LaneTx) : RawLane :=
  let prev := ((l.tx.getD []).getLast?).getD 0
  { l with
    taps := q.taps, adapt := q.adapt
    tx := some (laneSymbols (decide (2 ≤ claim)) pre prev (wordBits (laneWidth claim) q.word.toNat)) }

/-- The raw lanes at a rising edge of a lane clock. Without a claim in force, or before the design has its signals, words are
discarded and the transmitters hold electrical idle. -/
def Fabric.clockLanes (f : Fabric) (line : Nat) (e : EdgeIn) : Fabric :=
  if !f.handed || decide (f.claim = 0) then f
  else if line = 9 then
    let send (t : Tbl RawLane) (q : Nat × LaneTx) : Tbl RawLane :=
      tput t q.1 ((tget t q.1 RawLane.reset).send f.claim (f.design.precode.contains q.1) q.2)
    { f with lanes := e.tx.foldl send f.lanes }
  else match e.rx with
    | none => f
    | some q =>
      let got (l : RawLane) : RawLane := l.receive f.claim (f.design.precode.contains (line - 5)) q
      { f with lanes := tmod f.lanes (line - 5) RawLane.reset got }

/-! ## The edge -/

/-- An edge of a clock line of a region (R238 to R242, R246, R258, R264): FCTR counts a rising edge of FCLKr; blocks, pins and lanes on
the line are clocked. A halted line has no edge: then only asynchronous resets and the design's signals follow the inputs. -/
def State.fabricEdge (s : State) (a : RAt) (line : Nat) (falling : Bool) (e : EdgeIn) : State :=
  let runs := ((s.die a.die).fabric a.region).lineRuns line
  let s1 := if runs && decide (line = 0) && !falling then s.fctrTick a else s
  s1.modDie a.die fun x => x.modFabric a.region fun f =>
    let f1 := f.design.blocks.foldl (fun f b => x.clockBlock a.die a.region line falling e f b) f
    let outs := f.design.blocks.foldl (fun t b => tput t b.1 (x.blkShows a.die a.region e b.1)) f1.outs
    let f2 : Fabric := { f1 with outs := outs, sig := e.drives.foldl (fun t q => setFlag t q.1 q.2) f1.sig }
    let f3 := f2.clockPins line falling e
    if decide (5 ≤ line) && !falling then f3.clockLanes line e else f3

/-- FABRIC_CLOCK_EDGE: an edge of clock line `line` (0 FCLKr, 1 to 4 UCLK0 to UCLK3, 5 to 8 the lane receive clocks, 9 the
lane transmit clock) of a region's design, with what routing, pins and lanes bring. -/
def execFabricClockEdge (a : RAt) (line : Nat) (falling : Bool) (e : EdgeIn) (s : State) : Out :=
  let f := (s.die a.die).fabric a.region
  event s (decide (a.die < s.dieCount) && decide (a.region < 8) && decide (line < 10))
    (s.designRuns a && !(f.lineRuns line && decide (line = 0) && !falling && !f.edgeFree)) (s.fabricEdge a line falling e)

end Sys2Proof.Machine
end

