-- ==== Sys2Proof/Machine/Felt.lean ====
section
/-! DEFINITION. The steps of Felt links and of their channels (R354 to R372). -/

namespace Sys2Proof.Machine

/-- The port exists. -/
def State.portOn (s : State) (d p : Nat) : Bool := decide (d < s.dieCount) && decide (p < 8)

/-- The port works: its die runs, it is not fenced, its region is powered and not isolated. -/
def State.portLive (s : State) (d p : Nat) : Bool :=
  let x := s.die d
  s.live d && !(x.isFenced 10 p) && !(x.region p).isolated && (x.region p).power != .asleep && (x.region p).power != .waking

/-- The state of a link. -/
def State.linkSt (s : State) (d p : Nat) : LState := ((s.die d).felt p).st

/-- ACTIVE or IDLE. -/
def LState.awake : LState → Bool
  | .active => true
  | .idle => true
  | .down => false
  | .detect => false
  | .discover => false
  | .equalise => false
  | .align => false
  | .folded => false
  | .waking => false
  | .claimed => false

/-! ## Training (R358 to R362) -/

/-- What a training frame tells of the partner. -/
def Felt.learn (f : Felt) (l : List Byte) : Felt :=
  { f with
    pIdent := BitVec.ofNat 64 (fieldAt l 12 8), pPkg := fieldAt l 20 1 % 64, pLink := fieldAt l 21 1 % 64,
    pKind := fieldAt l 11 1 }

/-- A frame in DETECT: a lane whose loop is locked counts; with all four the link is in DISCOVER. -/
def Felt.inDetect (f : Felt) (lane : Nat) (l : List Byte) (lock : Bool) : Felt :=
  if lock then
    let m := f.lanesOk ||| BitVec.ofNat 4 (2 ^ lane)
    if m = 15 then { (f.learn l) with lanesOk := m, st := .discover, seen := 0, pRates := fieldAt l 10 1 % 8 }
    else { f with lanesOk := m }
  else { f with lanesOk := f.lanesOk &&& ~~~(BitVec.ofNat 4 (2 ^ lane)) }

/-- A frame in DISCOVER: after the partner's rates were seen three times unchanged, the next frame moves the link to the highest
rate that both offer. -/
def Felt.inDiscover (f : Felt) (own : Nat) (l : List Byte) : Felt :=
  let r := fieldAt l 10 1 % 8
  let g := f.learn l
  if 3 ≤ f.seen then
    match commonRate own f.pRates 3 with
    | some k => { g with st := .equalise, rate := k, tryRate := k, taps := [], tapStat := [], pReady := 0, myReady := 0 }
    | none => g
  else if r = f.pRates then { g with seen := f.seen + 1 } else { g with seen := 1, pRates := r }

/-- A frame in EQUALISE: the partner's request for this lane's transmitter is answered; `ready` of both sides. -/
def Felt.inEqualise (f : Felt) (lane : Nat) (l : List Byte) (ready : Bool) : Felt :=
  let preset := fieldAt l 8 1
  let t := tget f.taps lane Taps.p1
  let a : Taps × Nat := if 1 ≤ preset ∧ preset ≤ 4 then (presetTaps preset, 0) else applyReq t (fieldAt l 6 1)
  let bit := BitVec.ofNat 4 (2 ^ lane)
  let p := if bitAt (fieldAt l 9 1) 0 then f.pReady ||| bit else f.pReady &&& ~~~bit
  let m := if ready then f.myReady ||| bit else f.myReady &&& ~~~bit
  { f with
    taps := tput f.taps lane a.1, tapStat := tput f.tapStat lane a.2, pReady := p, myReady := m
    st := if p = 15 ∧ m = 15 then .align else .equalise }

/-- A training frame that lies in 32 received bytes, and whether the lane's polarity is inverted, which the receiver corrects
(R357; DEDUCED: inverted bytes that spell a valid frame are that frame, log entry 33). -/
def trainIn (l : List Byte) : Option (List Byte × Bool) :=
  if trainOk l then some (l, false)
  else if trainOk (l.map fun b => ~~~b) then some (l.map fun b => ~~~b, true) else none

/-- A valid training frame acts by the state it finds. -/
def Felt.trained (f : Felt) (own lane : Nat) (l : List Byte) (lock : Bool) : Felt :=
  match f.st with
    | .detect => f.inDetect lane l lock
    | .discover => f.inDiscover own l
    | .equalise => f.inEqualise lane l lock
    | .down => f
    | .align => f
    | .active => f
    | .idle => f
    | .folded => f
    | .waking => f
    | .claimed => f

/-- A training frame is received: one that is not valid is ignored (R358); the lane's polarity is kept (R357). -/
def Felt.train (f : Felt) (own lane : Nat) (l : List Byte) (lock : Bool) : Felt :=
  match trainIn l with
  | none => f
  | some (m, inv) =>
    let bit := BitVec.ofNat 4 (2 ^ lane)
    { f with flipped := if inv then f.flipped ||| bit else f.flipped &&& ~~~bit }.trained own lane m lock

/-- The rates this side offers. -/
def Die.feltOffer (x : Die) (p : Nat) : Nat := 2 ^ x.feltMax p - 1

/-- The training frame that a port sends on a lane (R358, Table 14-2), with its receiver's request `req` and preset request
`preset` (its receiver's own choice, R362); none outside training. -/
def State.trainingFrame (s : State) (d p lane req preset : Nat) : Option (List Byte) :=
  let x := s.die d
  let f := x.felt p
  let phase := f.st.code
  if 1 ≤ phase ∧ phase ≤ 4 then
    let l := le 4 0x544C4546 ++ le 1 phase ++ le 1 (lane % 4) ++ le 1 req ++ le 1 (tget f.tapStat lane 0) ++ le 1 preset ++
      le 1 (b2n (f.myReady.getLsbD lane)) ++ le 1 (x.feltOffer p) ++ le 1 s.feltKind ++ le 8 s.part.ident.toNat ++
      le 1 (x.feltPkg.getD 0xFF) ++ le 1 (8 * d + p) ++ zeros 6
    some (l ++ le 4 (crc32c l).toNat)
  else none

/-- TRAINING_FRAME (R358, R361, R362). `lock`: in DETECT the lane's loop is locked, in EQUALISE its receiver is satisfied. -/
def execTrainingFrame (die port lane : Nat) (frame : List Byte) (lock : Bool) (s : State) : Out :=
  event s (s.portOn die port && decide (lane < 4)) (s.portLive die port && s.linkSt die port != .claimed)
    (s.modDie die fun x => x.modFelt port fun f => f.train (x.feltOffer port) lane frame lock)

/-- SIGNAL_DETECT (R359, R360): a DOWN link enters DETECT, an IDLE one is ACTIVE. -/
def execSignalDetect (die port : Nat) (s : State) : Out :=
  let st := s.linkSt die port
  event s (s.portOn die port)
    (s.portLive die port && ((st == .down && (s.die die).feltEnable port) || st == .idle))
    (if st = .down then s.linkDetect die port false
     else s.modDie die fun x => (x.modFelt port fun f => { f with st := .active }).pumpAll port)

/-- LINK_RETRY (R360): every 100 ms. -/
def execLinkRetry (die port : Nat) (s : State) : Out :=
  event s (s.portOn die port) (s.portLive die port && s.linkSt die port == .down && (s.die die).feltEnable port)
    (s.linkDetect die port false)

/-- Training fails at the present rate: the next lower common rate, or DOWN (R359). -/
def State.trainFail (s : State) (d p : Nat) : State :=
  let f := (s.die d).felt p
  match if f.rate ≤ 1 then none else commonRate ((s.die d).feltOffer p) f.pRates (f.rate - 1) with
  | some k => s.modDie d fun x => x.modFelt p fun f =>
      { f with st := .equalise, rate := k, tryRate := k, taps := [], tapStat := [], pReady := 0, myReady := 0 }
  | none => s.linkDown d p

/-- TRAINING_TIMEOUT (R359): 10 ms without progress. -/
def execTrainingTimeout (die port : Nat) (s : State) : Out :=
  let st := s.linkSt die port
  event s (s.portOn die port) (s.portLive die port && (st == .detect || st == .equalise || st == .align))
    (if st = .detect then s.linkDown die port else s.trainFail die port)

/-- The link is ACTIVE: arrival (R359, R372). -/
def State.linkUpNow (s : State) (d p : Nat) : State :=
  (s.modDie d fun x => (x.modFelt p fun f => { f with st := .active, arrived := true, wakeFailed := false }).pumpAll p).emit
    (linkEvent 0x0020 d p ((s.die d).felt p) .align)

/-- The lane numbers that the four lanes' markers carry name every lane once (R357). -/
def lanesMapped (l : List Nat) : Bool := decide (l.length = 4) && (List.range 4).all fun k => l.contains k

/-- ALIGN_MEASURE_DONE (R357, R359): the markers found on lanes 0 to 3 name `lanes`; a skew of at most 40 ns and an error ratio of
at most 10^−5. -/
def execAlignMeasureDone (die port : Nat) (lanes : List Nat) (skewNs : Nat) (errPer1e7 : Nat) (s : State) : Out :=
  event s (s.portOn die port) (s.portLive die port && s.linkSt die port == .align)
    (if lanesMapped lanes = true ∧ skewNs ≤ 40 ∧ errPer1e7 ≤ 100 then
       (s.modDie die fun x => x.modFelt port fun f => { f with laneMap := lanes }).linkUpNow die port
     else s.trainFail die port)

/-! ## Losses and retraining (R357, R359, R371) -/

/-- HEARTBEAT_LOSS (R359): 30 µs without a valid heartbeat. -/
def execHeartbeatLoss (die port : Nat) (s : State) : Out :=
  event s (s.portOn die port) (s.portLive die port && (s.linkSt die port).awake) (s.linkDetect die port true)

/-- ALIGNMENT_LOSS (R357, R359). -/
def execAlignmentLoss (die port : Nat) (s : State) : Out :=
  event s (s.portOn die port) (s.portLive die port && (s.linkSt die port).awake) (s.linkDetect die port true)

/-- UNCORRECTABLE_CODEWORD_RATIO (R359): above 10^−6 over 1 ms; the codewords themselves are counted as their frames arrive. -/
def execUncorrectableCodewordRatio (die port : Nat) (per1e7 : Nat) (s : State) : Out :=
  event s (s.portOn die port) (s.portLive die port && (s.linkSt die port).awake && decide (10 < per1e7))
    (s.linkDetect die port true)

/-- `retrain` written to FELTp_CTL (R371): DETECT at once, from any state but CLAIMED. -/
def State.linkRetrain (s : State) (d p : Nat) : State :=
  if s.linkSt d p == .claimed || !(s.portLive d p) then s else s.linkDetect d p false

/-- RETRAIN (R371). -/
def execRetrain (die port : Nat) (s : State) : Out :=
  event s (s.portOn die port) (s.portLive die port && s.linkSt die port != .claimed) (s.linkRetrain die port)

/-! ## IDLE, FOLDED, WAKING (R359, R367) -/

/-- LINK_IDLE (R359). -/
def execLinkIdle (die port : Nat) (s : State) : Out :=
  event s (s.portOn die port)
    (s.portLive die port && s.linkSt die port == .active && ((s.die die).felt port).txq.isEmpty &&
      decide ((s.die die).feltIdleUs port ≠ 0))
    (s.modDie die fun x => x.modFelt port fun f => { f with st := .idle })

/-- HEARTBEAT_SEND (R367). -/
def execHeartbeatSend (die port : Nat) (s : State) : Out :=
  event s (s.portOn die port) (s.portLive die port && (s.linkSt die port).awake)
    (s.modDie die fun x => x.putLine port
      { s.heartbeat die port with lack := (x.felt port).rxLast, replay := (x.felt port).rxReplay })

/-- This side may fold (R367): its `fold` is 1, or its region is being put to sleep; nothing is queued. -/
def Die.mayFold (x : Die) (p : Nat) : Bool :=
  (x.feltFold p || (bitAt (x.regv 0x2004) p && decide (bitsOf (x.regv 0x2004) 23 8 ≠ 0))) && (x.felt p).txq.isEmpty &&
    (x.felt p).st.awake

/-- A FOLD frame leaves. -/
def Die.sendFold (x : Die) (p : Nat) : Die :=
  (x.enqueue p (controlFrame 1)).modFelt p fun f => { f with foldSent := true, ackSeen := false }

/-- FOLD (R367). -/
def execFold (die port : Nat) (s : State) : Out :=
  event s (s.portOn die port)
    (s.portLive die port && (s.die die).mayFold port && !((s.die die).felt port).foldSent)
    (s.modDie die fun x => x.sendFold port)

/-- FOLD_RETRY (R367): an unanswered FOLD is sent again. -/
def execFoldRetry (die port : Nat) (s : State) : Out :=
  let f := (s.die die).felt port
  event s (s.portOn die port) (s.portLive die port && (s.die die).mayFold port && f.foldSent && !f.ackSeen)
    (s.modDie die fun x => x.sendFold port)

/-- FOLDED: loops off. -/
def Felt.folded (f : Felt) : Felt := { f with st := .folded, foldSent := false, foldSeen := false, ackSeen := false }

/-- FOLD_ACK's work: the partner's answer folds the link, or this side answers and folds. -/
def Die.foldNow (x : Die) (p : Nat) : Die :=
  if (x.felt p).foldSent && (x.felt p).ackSeen then x.modFelt p Felt.folded
  else (x.enqueue p (controlFrame 2)).modFelt p Felt.folded

/-- FOLD_ACK (R367): the handshake completes. -/
def execFoldAck (die port : Nat) (s : State) : Out :=
  let f := (s.die die).felt port
  event s (s.portOn die port)
    (s.portLive die port && f.st.awake && ((f.foldSent && f.ackSeen) || (f.foldSeen && (s.die die).mayFold port)))
    (s.modDie die fun x => x.foldNow port)

/-- A FOLDED link wakes; the region it lies in is reached for, and wakes if it sleeps (R320, R367). -/
def doWake (d p : Nat) (fromPartner : Bool) (s : State) : State :=
  s.modDie d fun x =>
    (x.modFelt p fun f => { f with st := .waking, wakeTone := !fromPartner }).modRegion p Region.reach

/-- WAKE (R367): the partner's tone, or a frame that waits in the queue. The wake detector works in a sleeping region. -/
def execWake (die port : Nat) (fromPartner : Bool) (s : State) : Out :=
  let x := s.die die
  event s (s.portOn die port)
    (s.live die && !(x.isFenced 10 port) && !(x.region port).isolated && s.linkSt die port == .folded &&
      (fromPartner || !(x.felt port).txq.isEmpty))
    (doWake die port fromPartner s)

/-- WAKING_TIMEOUT (R359, R360): DETECT; the departure is due if training does not complete. -/
def execWakingTimeout (die port : Nat) (s : State) : Out :=
  event s (s.portOn die port) (s.portLive die port && s.linkSt die port == .waking)
    ((s.linkDetect die port false).modDie die fun x => x.modFelt port fun f => { f with wakeFailed := true })

/-- LOOPS_RELOCKED (R359): WAKING to ACTIVE. -/
def execLoopsRelocked (die port : Nat) (s : State) : Out :=
  event s (s.portOn die port) (s.portLive die port && s.linkSt die port == .waking)
    (s.modDie die fun x => (x.modFelt port fun f => { f with st := .active, wakeTone := false }).pumpAll port)

/-! ## Frames (R363 to R366) -/

/-- A frame that was not valid, or a gap: later frames are discarded until the expected one, which a replay brings (R364). -/
def Felt.askReplay (f : Felt) : Felt := { f with rxReplay := true }

/-- A data or ack frame in order: to a ring of this package, or on its way by this die's table (R366). -/
def State.routeFrame (s : State) (d p : Nat) (q : FFrame) : State :=
  match (s.die d).feltPkg with
  | none => s
  | some pkg =>
    if q.dPkg = pkg then
      let a := if q.ftype = 1 then s.takeData p q else s.takeAck q
      a.1.sendAll feltFuel a.2
    else if 15 ≤ q.hops then s.modDie d fun x => x.count flFwdDrops p 1
    else s.sendOut d p { q with hops := q.hops + 1 }

/-- A control frame (R363, R367). -/
def Felt.control (f : Felt) (n : Nat) : Felt :=
  if n = 1 then { f with foldSeen := true } else if n = 2 then { f with ackSeen := true } else f

/-- A heartbeat with another identity or package number: the partner changed (R359). -/
def State.takeHeartbeat (s : State) (d p : Nat) (q : FFrame) : State :=
  let f := (s.die d).felt p
  if f.pIdent = BitVec.ofNat 64 (fieldAt q.payload 0 8) ∧ f.pPkg = fieldAt q.payload 8 1 % 64 then s
  else s.linkDetect d p true

/-- A sequenced frame that is the expected one. -/
def State.takeInOrder (s : State) (d p : Nat) (q : FFrame) : State :=
  let s1 := s.modDie d fun x => x.modFelt p fun f => { f with rxLast := q.lseq, rxReplay := false }
  if q.ftype = 4 then s1.modDie d fun x => x.modFelt p fun f => f.control (fieldAt q.payload 0 1)
  else (if q.ftype = 1 then s1.modDie d fun x => x.count flFramesRx p 1 else s1).routeFrame d p q

/-- A valid frame: `lack` and `replay` act on the transmitter, then the frame on the receiver. -/
def State.takeFrame (s : State) (d p : Nat) (q : FFrame) : State :=
  let s1 := s.modDie d fun x =>
    let y := x.modFelt p fun f => { f.acked q.lack with st := if f.st == .idle && q.ftype != 3 then .active else f.st }
    (if q.replay then y.replayLink p else y).pumpAll p
  if q.ftype = 0 then s1
  else if q.ftype = 3 then s1.takeHeartbeat d p q
  else
    let f := (s1.die d).felt p
    let gap := (q.lseq + 4096 - (f.rxLast + 1) % 4096) % 4096
    if gap = 0 then s1.takeInOrder d p q
    else if gap < 2048 then s1.modDie d fun x => x.modFelt p Felt.askReplay
    else s1

/-- Who pays for a frame received (R368, R392): the tenant of the ring of this package that it is for; the device account for one
forwarded or without a ring. -/
def State.framePayer (s : State) (d : Nat) (frame : List Byte) : Payer :=
  match parseFrame frame with
  | none => .device
  | some q => if (q.ftype = 1 ∨ q.ftype = 2) ∧ (s.die d).feltPkg = some q.dPkg then ((s.die q.dDie).ring q.dRing).payer else .device

/-- FELT_FRAME_RX (R363 to R366). `corrected` and `uncorr`: symbols corrected, and codewords that were not correctable, in the
codewords that brought the frame (R355, R379); a corrected codeword changes no frame, and 10^6 symbols corrected in 1 s are
reported (Table 18-7). -/
def execFeltFrameRx (die port : Nat) (frame : List Byte) (corrected uncorr : Nat) (s : State) : Out :=
  let s1 := (s.modDie die fun x =>
    ((x.count flFecCorr port corrected).count flFecUncorr port uncorr).act 6 (s.framePayer die frame) 2176).correctedIn nclkSecond die
      10 port corrected 1000000 none (some port)
  event s (s.portOn die port) (s.portLive die port && (s.linkSt die port).awake)
    (match parseFrame frame with
      | some q => s1.takeFrame die port q
      | none => s1.modDie die fun x => (x.modFelt port Felt.askReplay).count flCrcErr port 1)

/-! ## Channels (R365) -/

/-- Units of a send ring that no frame has taken. -/
def Die.unsent (x : Die) (n : Nat) : Nat := x.ringHeld n - (x.ring n).chan.frames.sum

/-- FELT_SEND's work: up to 4 units in one frame. -/
def doFeltSend (d n p : Nat) (s : State) : State :=
  match (s.die d).feltPkg with
  | none => s
  | some pkg =>
    let x := s.die d
    let c := (x.ring n).chan
    let k := min 4 (x.unsent n)
    let q := x.dataFrame d n pkg c.frames.sum k c.next c.sync
    let s1 := s.modDie d fun x => x.modRing n fun r => { r with
      chan := { r.chan with next := (c.next + 1) % 2 ^ 24, frames := c.frames ++ [k], sync := false, port := p } }
    let s1 := s1.modDie d fun x => x.memAct 0 (x.ring n).payer (64 * k)
    s1.sendAll feltFuel [{ die := d, port := p, frame := q }]

/-- FELT_SEND (R365): a send ring with units, fewer than 256 frames unacknowledged, `pkg_valid` set. -/
def execFeltSend (die ring port : Nat) (s : State) : Out :=
  let x := s.die die
  event s (s.portOn die port && decide (ring < 64))
    (s.live die && !(x.isFenced 10 port) && x.ringMode ring == 1 && x.feltPkg.isSome && decide (0 < x.unsent ring) &&
      decide ((x.ring ring).chan.frames.length < 256))
    (doFeltSend die ring port s)

/-- ACK_TIMER (R365): 2 µs after the first frame not yet acknowledged. -/
def execAckTimer (die ring : Nat) (s : State) : Out :=
  let x := s.die die
  let a := s.makeAck die ring
  event s (decide (die < s.dieCount) && decide (ring < 64))
    (s.live die && x.ringMode ring == 2 && (x.ring ring).chan.ackDue && x.feltPkg.isSome) (a.1.sendAll feltFuel a.2)

/-- E2E_RETRANSMIT (R365): 100 µs without an ack that covers the oldest frame. -/
def execE2eRetransmit (die ring : Nat) (s : State) : Out :=
  let x := s.die die
  let a := s.resend die ring
  event s (decide (die < s.dieCount) && decide (ring < 64))
    (s.live die && x.ringMode ring == 1 && x.feltPkg.isSome && !(x.ring ring).chan.frames.isEmpty)
    (a.1.sendAll feltFuel a.2)

end Sys2Proof.Machine
end

