-- ==== Sys2Proof/Machine/Knots.lean ====
section
/-! DEFINITION. The knot opcodes, the arrival of knot operations and the resume of a resident waiter (R201 to R209). -/

namespace Sys2Proof.Machine

/-! ## The opcodes (Table 8-7) -/

/-- The checks that every knot opcode starts with: the tenant, the die, a knot of the tenant. -/
def knotChecks (p : Pkt) (die knot : Nat) (s : State) : List (Bool × Status × Nat) :=
  [badHdr (!(s.hasTenant p.tenant)) 8, badAt (!(s.usable die)) 0, badAt (!(knotOfTenant p.tenant knot)) 2]

/-- The knot is TIED. -/
def State.knotTied (s : State) (d k : Nat) : Bool := ((s.die d).knot k).tied

/-- The checks of KNOT_TIE. -/
def chkKnotTie (p : Pkt) (die knot owner : Nat) (s : State) : Option (Status × Nat) :=
  let own : Bool := match (s.die die).ctx owner with
    | some y => y.tenant == p.tenant
    | none => false
  firstOf (knotChecks p die knot s ++ [badAt (s.knotTied die knot) 2, badAt (!own) 4])

/-- The knot is TIED with its owner and initial value. -/
def doKnotTie (p : Pkt) (die knot owner : Nat) (value : BitVec 64) (s : State) : State :=
  (s.modDie die fun x => x.modKnot knot fun k =>
    { k with tied := true, owner := owner, tenant := p.tenant, value := value, wrap := false }).ok 0x0501 p

/-- KNOT_TIE (R203). -/
def execKnotTie (p : Pkt) (die knot owner : Nat) (value : BitVec 64) (s : State) : Out :=
  opcode 0x0501 .t p (chkKnotTie p die knot owner s) (doKnotTie p die knot owner value s) s

/-- KNOT_ADD (R203): on an UNTIED knot the add is discarded and counted. -/
def execKnotAdd (p : Pkt) (die knot : Nat) (n : BitVec 64) (s : State) : Out :=
  opcode 0x0502 .t p (firstOf (knotChecks p die knot s)) ((s.knotAddNow die knot n).ok 0x0502 p) s

/-- KNOT_WAITs outstanding on a die. -/
def Die.hostWaits (x : Die) : Nat := (x.knots.map fun e => e.2.hosts.length).sum

/-- KNOT_WAIT's work (R203, R209). -/
def doKnotWait (p : Pkt) (die knot : Nat) (target : BitVec 64) (s : State) : State :=
  let k := (s.die die).knot knot
  if !k.tied then s.finish 0x0503 p .ownerLost (ownerDetail die knot) [] []
  else if target.toNat ≤ k.value.toNat then s.finish 0x0503 p .ok 0 (le 8 k.value.toNat) []
  else if 255 ≤ k.hosts.length then s.refuse 0x0503 p .queueFull 3
  else if 1024 ≤ (s.die die).hostWaits then s.refuse 0x0503 p .queueFull 4
  else s.modDie die fun x => x.modKnot knot fun k => { k with hosts := k.hosts ++ [(p, target)] }

/-- KNOT_WAIT (R209). -/
def execKnotWait (p : Pkt) (die knot : Nat) (target : BitVec 64) (s : State) : Out :=
  opcode 0x0503 .t p (firstOf (knotChecks p die knot s)) (doKnotWait p die knot target s) s

/-- KNOT_UNTIE (R203, R207): every waiter is woken with OWNER_LOST. -/
def execKnotUntie (p : Pkt) (die knot : Nat) (s : State) : Out :=
  opcode 0x0504 .t p (firstOf (knotChecks p die knot s ++ [badAt (!(s.knotTied die knot)) 2])) ((s.untie die knot).ok 0x0504 p) s

/-- A knot entry as Table 8-6 lays it out. -/
def Knot.bytes (k : Knot) : List Byte :=
  le 8 k.value.toNat ++
    le 4 (b2n k.tied * 2 ^ 30 + b2n k.wrap * 2 ^ 29 + k.tenant * 2 ^ 22 + k.owner) ++
    le 4 (k.waits.length * 2 ^ 8 + k.hosts.length)

/-- KNOT_READ (R202). -/
def execKnotRead (p : Pkt) (die knot : Nat) (s : State) : Out :=
  opcode 0x0505 .t p (firstOf (knotChecks p die knot s)) (s.finish 0x0505 p .ok 0 ((s.die die).knot knot).bytes []) s

/-! ## The knot unit (R204, R205) -/

/-- A knot operation is applied. -/
def State.knotOp (s : State) (d : Nat) (o : KnotOp) : State :=
  match o with
  | .add k n => s.knotAddNow d k n
  | .untie k => if s.knotTied d k then s.untie d k else s

/-- The knot of an operation. -/
def KnotOp_knot : KnotOp → Nat
  | .add k _ => k
  | .untie k => k

/-- Operation `idx` of those in flight reaches the knot unit. With `bad` the knot's entry has an uncorrectable error: that knot alone
is lost, and the operation finds it UNTIED (R207, R211). -/
def doKnotOpArrival (d idx : Nat) (bad : Bool) (s : State) : State :=
  match (s.die d).knotNet[idx]? with
  | some o =>
    let s1 := s.modDie d fun x => { x with knotNet := x.knotNet.eraseIdx idx }
    (if bad && s1.knotTied d (KnotOp_knot o) then s1.untie d (KnotOp_knot o) else s1).knotOp d o
  | none => s

/-- KNOT_OP_ARRIVAL (R203, R204, R207). -/
def execKnotOpArrival (die idx : Nat) (bad : Bool) (s : State) : Out :=
  event s (decide (die < s.dieCount)) (s.live die && decide (idx < (s.die die).knotNet.length)) (doKnotOpArrival die idx bad s)

/-- A context whose wait was met on its tile, with no switch decided there. -/
def Die.wakeTile (x : Die) (c : Nat) : Option Nat :=
  match x.ctx c with
  | some y =>
    match y.tile with
    | some t =>
      let o := x.tileOcc y.kind t
      if y.st == .waiting && y.woken && o.phase == .none && o.inc.isNone then some t else none
    | none => none
  | none => none

/-- The waiter runs on with a fresh quantum (R193, R205). -/
def doKnotWake (d c : Nat) (s : State) : State :=
  let (n, s1) := s.tick
  s1.modCtx d c fun y => { y with st := .running, woken := false, wait := none, quantNo := n }

end Sys2Proof.Machine
end

