-- ==== Sys2Proof/Machine/Ledger.lean ====
section
/-! DEFINITION. The energy ledger: limits, allowances, readings, the ledger period, the backstop, calibration and the thermal
limits (R384, R388 to R399, R456). -/

namespace Sys2Proof.Machine

/-! ## ENERGY_LIMIT (R390) -/

/-- The checks of ENERGY_LIMIT: P between a quarter of the variant's limit and the limit, R at most 30 % of the die share. -/
def chkEnergyLimit (pMw rMw : Nat) (s : State) : Option (Status × Nat) :=
  let lim := s.part.variant.limitMw
  firstOf [badAt (decide (4 * pMw < lim) || decide (lim < pMw)) 0,
    badAt (decide (3 * shareMw pMw s.dieCount < 10 * rMw)) 4]

/-- One ENERGY_LIMIT is looked at again: it replies when every usable die has applied it. -/
def State.settleLimit (s : State) (k : Pkt × List Nat) : State :=
  let left := k.2.filter s.usable
  if left.isEmpty then s.ok 0x0601 k.1 else { s with limits := s.limits ++ [(k.1, left)] }

/-- Every waiting ENERGY_LIMIT is looked at again; die `d` has applied the limit. -/
def State.settleLimits (s : State) (d : Nat) : State :=
  (s.limits.map fun k => (k.1, k.2.filter (· != d))).foldl (fun s k => s.settleLimit k) { s with limits := [] }

/-- P and R are set; each die applies them at its next period. -/
def doEnergyLimit (p : Pkt) (pMw rMw : Nat) (s : State) : State :=
  { s with
    psi := { s.psi with pMw := pMw, rMw := rMw }
    limits := s.limits ++ [(p, s.usableDies)] }

/-- ENERGY_LIMIT (R390). -/
def execEnergyLimit (p : Pkt) (pMw rMw : Nat) (s : State) : Out :=
  opcode 0x0601 .m p (chkEnergyLimit pMw rMw s) (doEnergyLimit p pMw rMw s) s

/-! ## ENERGY_ALLOW (R393) -/

/-- `x` with `f` applied to a tenant's account. -/
def Die.modAcct (x : Die) (t : Nat) (f : Acct → Acct) : Die :=
  x.modLed fun l => { l with accts := tmod l.accts t Acct.reset f }

/-- A die mask with a die beyond the variant. -/
def State.maskAbsent (s : State) (m : BitVec 8) : Bool := (maskDies m).any fun d => decide (s.dieCount ≤ d)

/-- The checks of ENERGY_ALLOW. -/
def chkEnergyAllow (tenant : Nat) (dies : BitVec 8) (window : Nat) (s : State) : Option (Status × Nat) :=
  firstOf [badAt (!(s.hasTenant tenant)) 0, badAt (s.maskAbsent dies) 1,
    badAt (decide (window < 4096) || decide (16777216 < window)) 4]

/-- The allowance that a parameter names. -/
def allowOf (nj : Nat) : Option Nat := if nj = 2 ^ 64 - 1 then none else some nj

/-- A new window opens on each named die at its next period. -/
def doEnergyAllow (p : Pkt) (tenant : Nat) (dies : BitVec 8) (window nj : Nat) (s : State) : State :=
  ((maskDies dies).foldl (fun s d => s.modDie d fun x => x.modAcct tenant fun a =>
    { a with next := some (allowOf nj, window) }) s).ok 0x0602 p

/-- ENERGY_ALLOW (R393). -/
def execEnergyAllow (p : Pkt) (tenant : Nat) (dies : BitVec 8) (window : Nat) (nj : Nat) (s : State) : Out :=
  opcode 0x0602 .m p (chkEnergyAllow tenant dies window s) (doEnergyAllow p tenant dies window nj s) s

/-! ## ENERGY_READ (R397) -/

/-- A 64-bit number as it stands in a reply, signed. -/
def signed64 (i : Int) : Nat := (i % (2 ^ 64 : Int)).toNat

/-- Remaining allowance as Table 15-9 gives it. -/
def Acct.remaining (a : Acct) : Nat :=
  match a.allow with
  | none => 2 ^ 63 - 1
  | some _ => signed64 a.left

/-- The reply for one die. -/
def Ledger.readBytes (l : Ledger) (a : Acct) : List Byte :=
  le 8 l.dieNj.toNat ++ le 8 a.charged.toNat ++ le 8 a.remaining ++ le 4 a.periods ++ le 4 a.number.toNat ++ le 4 l.sMw ++
    le 1 l.step ++ le 1 (b2n l.erWrap) ++ zeros 2 ++ le 8 l.devAcct.toNat

/-- The sum of a field over the usable dies. -/
def State.sumDies (s : State) (f : Nat → Nat) : Nat := (s.usableDies.map f).sum

/-- The reply for the package: the per-die fields summed as Psiurn's latest window read them (R391, R397; log entry 27). -/
def State.packageBytes (s : State) (t : Nat) : List Byte :=
  let l d := ((s.die d).ledSeen).getD (Ledger.reset s.part.variant)
  let a d := tget (l d).accts t Acct.reset
  le 8 (s.sumDies fun d => (l d).dieNj.toNat) ++ le 8 (s.sumDies fun d => (a d).charged.toNat) ++ le 8 0 ++ le 4 0 ++
    le 4 (s.sumDies fun d => (a d).number.toNat) ++ le 4 (s.sumDies fun d => (l d).sMw) ++
    le 1 (s.sumDies fun d => (l d).step) ++ le 1 (b2n (s.usableDies.any fun d => (s.die d).led.erWrap)) ++ zeros 2 ++
    le 8 (s.sumDies fun d => (l d).devAcct.toNat)

/-- The checks of ENERGY_READ. -/
def chkEnergyRead (p : Pkt) (die tenant : Nat) (s : State) : Option (Status × Nat) :=
  let x := s.queue p.queue
  let mgmt := x.cls == 3
  firstOf [refuseIf (!mgmt && (x.tenant != tenant || die == 0xFF)) .authFail 0, badAt (die != 0xFF && !(s.usable die)) 0,
    badAt (!(s.hasTenant tenant)) 1]

/-- `wrap` seen is cleared on the dies read. -/
def doEnergyRead (p : Pkt) (die tenant : Nat) (s : State) : State :=
  let bytes := if die = 0xFF then s.packageBytes tenant else (s.die die).led.readBytes ((s.die die).acct tenant)
  let ds := if die = 0xFF then s.usableDies else [die]
  (ds.foldl (fun s d => s.modDie d fun x => x.modLed fun l => { l with erWrap := false }) s).finish 0x0603 p .ok 0 bytes []

/-- ENERGY_READ (R397). -/
def execEnergyRead (p : Pkt) (die tenant : Nat) (s : State) : Out :=
  opcode 0x0603 .t p (chkEnergyRead p die tenant s) (doEnergyRead p die tenant s) s

/-! ## The ledger period: charging (R388, R392) -/

/-- Coefficients of Table 15-7 in hundredths of a picojoule. -/
def coefOf (row : Nat) : Nat := [32, 18, 64, 45, 360, 420, 450, 360].getD row 0

/-- The weight of an activity. -/
def actWeight (a : Activity) : Nat := a.count * coefOf a.row

/-- The weights of the payers that `p` names, in a period. -/
def weightOf (acts : List Activity) (p : Payer → Bool) : Nat := ((acts.filter fun a => p a.who).map actWeight).sum

/-- The share of the dynamic energy of those payers, in whole nJ (R392). -/
def dynOf (acts : List Activity) (dyn : Nat) (p : Payer → Bool) : Nat :=
  let all := (acts.map actWeight).sum
  if all = 0 then 0 else dyn * weightOf acts p / all

/-- An amount charged to a tenant's account: the counter, and the allowance, which may become a debt. -/
def Acct.charge (a : Acct) (nj : Nat) : Acct :=
  { a with
    charged := a.charged + BitVec.ofNat 64 nj
    left := match a.allow with
      | none => a.left
      | some _ => a.left - nj }

/-- What each tenant is charged in a period: the fabric rails of its regions, and its share of the dynamic energy. -/
def Die.chargeOf (x : Die) (fabNj : List Nat) (acts : List Activity) (dyn t : Nat) : Nat :=
  (fabNj.mapIdx fun r n => if (x.fabric r).tenant = t then n else 0).sum + dynOf acts dyn fun k => k.tenant == some t

/-- The tally of a dispatch grows by its share (R394); one that has ended moves its factor and goes. -/
def Die.tally (x : Die) (acts : List Activity) (dyn : Nat) : Die :=
  let ids := (acts.filterMap fun a => a.who.disp) ++ tkeys x.tallies
  ids.eraseDups.foldl (fun (x : Die) id =>
    let z := tget x.tallies id { nj := 0, ended := none }
    let nj := z.nj + dynOf acts dyn fun k => k.disp == some id
    match z.ended with
    | none => { x with tallies := tput x.tallies id { z with nj := nj } }
    | some (key, est) => { x with
        tallies := tdel x.tallies id
        led := { x.led with fcorr := tput x.led.fcorr key (moveFactor (tget x.led.fcorr key 1) nj est) } }) x

/-- The energy of the real-time dispatches' work in a period (R396; log entry 27). -/
def State.rtNj (s : State) (acts : List Activity) (dyn : Nat) : Nat :=
  dynOf acts dyn fun k => match k.disp.bind fun id => tfind s.disps id with
    | some e => e.cls == 0
    | none => false

/-- A die charges the energy of a period (R392): what no tenant is charged goes to the device account. A reading below its own
fabric rails and static figure leaves no dynamic energy (log entry 27). -/
def Die.charge (x : Die) (ts : List Nat) (dieNj : Nat) (fabNj : List Nat) (static : Nat) (acts : List Activity) : Die :=
  let dyn := dieNj - fabNj.sum - static
  let each := ts.map fun t => (t, x.chargeOf fabNj acts dyn t)
  let paid := (each.map (·.2)).sum
  let y := each.foldl (fun y e => y.modAcct e.1 fun a => a.charge e.2) x
  y.modLed fun l => { l with devAcct := l.devAcct + BitVec.ofNat 64 (dieNj - paid) }

/-- The meters after a period (R388). -/
def Ledger.meter (l : Ledger) (dieNj : Nat) (fabNj : List Nat) (nclk : Nat) (tempC : Int) : Ledger :=
  let wrap := decide (2 ^ 64 ≤ l.dieNj.toNat + dieNj)
  { l with
    dieNj := l.dieNj + BitVec.ofNat 64 dieNj
    fabNj := (fabNj.mapIdx fun r n => (r, n)).foldl (fun (t : Tbl (BitVec 64)) (e : Nat × Nat) =>
      tput t e.1 (tget t e.1 0 + BitVec.ofNat 64 e.2)) l.fabNj
    scWrap := l.scWrap || wrap, erWrap := l.erWrap || wrap
    cycA := l.cycA + 4096, cycN := l.cycN + BitVec.ofNat 64 nclk, tempC := tempC }

/-! ## Windows (R393) -/

/-- A window opens: the allowance less the debt of the one before. -/
def Acct.open_ (a : Acct) (allow : Option Nat) (window : Nat) : Acct :=
  let debt : Int := min a.left 0
  { a with
    allow := allow, window := window, periods := window, number := a.number + 1, next := none
    left := match allow with
      | none => debt
      | some n => n + debt }

/-- A tenant's window at a period boundary. -/
def Acct.step (a : Acct) : Acct :=
  match a.next with
  | some (n, w) => a.open_ n w
  | none => if a.periods ≤ 1 then a.open_ a.allow a.window else { a with periods := a.periods - 1 }

/-! ## Steps (R384, R391, R396, R456) -/

/-- The grade's maximum junction temperature (R456). -/
def Part.tMax (p : Part) : Int := if p.gradeI then 105 else 100

/-- The comparison of R396 at the end of a period: energy that is neither static nor real-time within R, against S minus static
power minus R; a run has 16 periods. The answer: the ledger after it, and whether it steps down. -/
def Ledger.compare (l : Ledger) (gradeB : Bool) (dieNj static rtNj : Nat) : Ledger × Bool :=
  let res := (periodNj gradeB l.step l.rMw).floor.toNat
  let share := (periodNj gradeB l.step l.sMw).floor.toNat
  let run := l.runNj + (dieNj - static - min rtNj res)
  let budget : Int := l.runBudget + share - static - res
  if 16 ≤ l.runLen + 1 then
    ({ l with runLen := 0, runNj := 0, runBudget := 0 }, decide (budget < (run : Int)) && decide (l.own < 3))
  else ({ l with runLen := l.runLen + 1, runNj := run, runBudget := budget }, false)

/-- Periods in succession below 85 % of S; the 256th is answered by a step up. -/
def Ledger.calm (l : Ledger) (gradeB : Bool) (dieNj : Nat) (down : Bool) : Ledger :=
  let below := decide ((dieNj : Rat) * 100 < 85 * periodNj gradeB l.step l.sMw)
  if down then { l with own := l.own + 1, low := 0 }
  else if !below then { l with low := 0 }
  else if 256 ≤ l.low + 1 ∧ 0 < l.own then { l with own := l.own - 1, low := 0 }
  else { l with low := min 256 (l.low + 1) }

/-- The thermal step at a boundary (Table 19-4). -/
def Ledger.heat (l : Ledger) (tMax : Int) : Ledger :=
  if tMax - 5 ≤ l.tempC then
    { l with thermal := if l.hot % 16 = 0 then min 3 (l.thermal + 1) else l.thermal, hot := l.hot + 1, cool := 0 }
  else if l.tempC < tMax - 10 then
    if 256 ≤ l.cool + 1 then { l with thermal := l.thermal - 1, hot := 0, cool := 0 }
    else { l with hot := 0, cool := l.cool + 1 }
  else { l with hot := 0, cool := 0 }

/-- The backstop's step at a boundary (R391): 3 while its window lasts, then one step up at a time until the die's own steps
choose. -/
def Ledger.back (l : Ledger) : Ledger :=
  if l.backstopOn then { l with backstopStep := 3 }
  else if l.backstopStep - 1 ≤ max l.own l.thermal then { l with backstopStep := 0 }
  else { l with backstopStep := l.backstopStep - 1 }

/-- The step in force is the lowest clock of the three (R456); `stepped` when ACLK leaves step 0. -/
def Ledger.force (l : Ledger) : Ledger :=
  let k := max l.own (max l.thermal l.backstopStep)
  { l with step := k, scStepped := l.scStepped || (l.step == 0 && k != 0) }

/-- A new S and R are applied (R390). `why_host` follows a limit lowered below the present draw, and ends when the ledger's own
step is back at 0 (Table 15-11, log entry 27). -/
def Ledger.limit (l : Ledger) (gradeB : Bool) (sMw rMw dieNj : Nat) : Ledger :=
  let low := decide (sMw < l.sMw) && decide (periodNj gradeB l.step sMw < (dieNj : Rat))
  { l with sMw := sMw, rMw := rMw, whyHost := low || (l.whyHost && (l.own != 0 || l.runLen != 0)) }

/-- THERMAL_STEP (R456). -/
def thermalEvent (d : Nat) (l : Ledger) : Event :=
  { Event.blank 0x0041 9 3 .ok with die := d, arg0 := (l.tempC + 64).toNat, arg1 := l.step }

/-- Every admitted dispatch of the die is one period older. -/
def State.ageDispatches (s : State) (d : Nat) : State :=
  { s with disps := tmapv s.disps fun _ x => { x with
      age := if x.age.any (fun e => e.1 == d) then x.age.map fun e => if e.1 = d then (d, e.2 + 1) else e
             else x.age ++ [(d, 1)] } }

/-- A ledger period of a die ends: meters, charges, windows, limits, steps (R384, R388 to R396, R456). -/
def doLedgerPeriod (d dieNj : Nat) (fabNj : List Nat) (nclk : Nat) (tempC : Int) (refreshed : Nat × Nat)
    (s : State) : State :=
  let b := s.part.gradeB
  let x0 := ((s.die d).act 4 .device refreshed.1).act 5 .device refreshed.2
  let acts := x0.acts
  let x1 := x0.modLed fun l => l.meter dieNj fabNj nclk tempC
  let static := x1.led.staticNj b
  let dyn := dieNj - fabNj.sum - static
  let x2 := { (x1.charge (tkeys s.tenants) dieNj fabNj static acts).tally acts dyn with acts := [] }
  let x3 := (tkeys s.tenants).foldl (fun x t => x.modAcct t fun a => a.step) x2
  let (l1, down) := x3.led.compare b dieNj static (s.rtNj acts dyn)
  let l2 := ((l1.calm b dieNj down).heat s.part.tMax).back.force
  let l3 := l2.limit b (shareMw s.psi.pMw s.dieCount) s.psi.rMw dieNj
  let x4 := ((x3.modLed fun _ => l3).count lgStepDowns 0 (b2n down)).count lgSteppedPeriods 0 (b2n (x0.led.step != 0))
  let s1 := (s.setDie d x4).ageDispatches d
  let s2 := if l3.thermal = x0.led.thermal then s1 else s1.emit (thermalEvent d l3)
  s2.settleLimits d

/-- LEDGER_PERIOD (R384, R392, R396): what the meters and the hottest sensor read (log entry 51), and the bits of HBM3E
and of LPDDR5X that refreshes and firmware's own accesses have moved in the period, which no tenant pays for; every other activity
has been counted as it happened. -/
def execLedgerPeriod (die : Nat) (dieNj : Nat) (fabNj : List Nat) (nclk : Nat) (tempC : Int) (refreshed : Nat × Nat)
    (s : State) : Out :=
  event s (decide (die < s.dieCount)) (s.live die && decide (fabNj.length ≤ 8))
    (doLedgerPeriod die dieNj fabNj nclk tempC refreshed s)

/-! ## The backstop (R391) -/

/-- Energy of a die since the last window's reading. -/
def State.sinceWindow (s : State) (d : Nat) : Nat :=
  ((s.die d).led.dieNj - BitVec.ofNat 64 (tget s.psi.lastNj d 0)).toNat

/-- ENERGY_BACKSTOP (Table 18-5). -/
def backstopEvent (sum : Nat) : Event := { Event.blank 0x0040 7 3 .ok with arg0 := sum / 1000000 }

/-- A window of Psiurn ends; above 1.05 × P × 1 ms every die is ordered to step 3 for the next one. -/
def doBackstopWindow (psiNj : Nat) (s : State) : State :=
  let sum := s.sumDies s.sinceWindow + psiNj
  let high := decide (105 * s.psi.pMw * 1000 < 100 * sum)
  let s1 := { s with psi := { s.psi with
    windowNj := sum, lastNj := s.usableDies.foldl (fun t d => tput t d (s.die d).led.dieNj.toNat) s.psi.lastNj } }
  let s2 := s1.usableDies.foldl (fun s d => s.modDie d fun x =>
    ({ x with ledSeen := some x.led }.modLed fun l => { l with backstopOn := high, scBackstop := l.scBackstop || high }).count lgBackstops 0 (b2n high)) s1
  if high then s2.emit (backstopEvent sum) else s2

/-- BACKSTOP_WINDOW (R391). -/
def execBackstopWindow (psiNj : Nat) (s : State) : Out := event s true s.running (doBackstopWindow psiNj s)

/-! ## Calibration and the shutdown limit (R392, R456) -/

/-- No context runs on the die. -/
def Die.quiet (x : Die) : Bool := x.ctxs.all fun e => e.2.st != .running

/-- STATIC_CALIBRATION: the figure of the step in force, measured while the die is idle (R392). -/
def execStaticCalibration (die : Nat) (mw : Nat) (tempC : Int) (s : State) : Out :=
  event s (decide (die < s.dieCount)) (s.live die && (s.die die).quiet)
    (s.modDie die fun x => x.modLed fun l => { l with cal := tput l.cal l.step (mw, tempC) })

/-- THERMAL_SHUTDOWN: a sensor above Tmax + 10 °C for 100 µs is package-fatal (R29, R456). Die 0xFF names Psiurn's sensors. -/
def execThermalShutdown (die : Nat) (tempC : Int) (s : State) : Out :=
  event s (decide (die < s.dieCount) || die == 0xFF) (s.running && decide (s.part.tMax + 10 < tempC)) (s.fatal 2)

end Sys2Proof.Machine
end

