-- ==== Sys2Proof/Machine/Mover.lean ====
section
/-! DEFINITION. Aging and patrol of the ream table, the mover, idle sequences and retention (R35, R43, R44, R48 to R51). -/

namespace Sys2Proof.Machine

/-- The die of a unit. -/
def State.dOn (s : State) (d : Nat) : Bool := decide (d < s.dieCount)

/-! ## The ream table (R43, R44) -/

/-- AGING_PERIOD (R43): every entry's `acc_count` is halved, rounding down. -/
def execAgingPeriod (die : Nat) (s : State) : Out :=
  event s (s.dOn die) (s.live die)
    (s.modDie die fun x => { x with ream := tmapv x.ream fun _ e => { e with acc := e.acc / 2 } })

/-- Handles that the patrol found uncorrectable are reported to firmware (R44). -/
def Die.foundBad (x : Die) (bad : List Nat) : Die :=
  { x with reamBad := x.reamBad ++ (bad.eraseDups.filter fun h => (x.entry h).st != .free && !(x.reamBad.contains h)) }

/-- REAM_PATROL (R44): the hub has read every issued entry; `bad` are the handles of uncorrectable ones. -/
def execReamPatrol (die : Nat) (bad : List Nat) (s : State) : Out :=
  event s (s.dOn die) (s.live die) (s.modDie die fun x => x.foundBad bad)

/-- Firmware rewrites an unreadable entry as LOST, its sequence becomes LOST (R44). -/
def doLostEntryRewrite (die handle : Nat) (s : State) : State :=
  (s.modDie die fun x => { x with reamBad := x.reamBad.filter (· != handle) }).markGone die [handle] .lost false

/-- LOST_ENTRY_REWRITE (R44). -/
def execLostEntryRewrite (die handle : Nat) (s : State) : Out :=
  event s (s.dOn die) (s.live die && (s.die die).reamBad.contains handle) (doLostEntryRewrite die handle s)

/-! ## MIGRATION_START (R47 to R49, Table 2-11 step 1) -/

/-- Copies under way; one that has flipped only waits for its release (log entry 35). -/
def Die.running_ (x : Die) : List Copy := x.copies.filter fun c => !c.flipped

/-- The place a sheet would move to (R47, R48): the first channel of the destination tier's list, from the sheet's index on,
with a free frame outside isolated regions; nothing while another copy writes to that channel. -/
def State.copyDst (s : State) (d : Nat) (e : Ream) (tier : Bool) : Option Loc :=
  let p := s.spreadOf e
  let x := s.die d
  let free (c f : Nat) : Bool := x.frameFree c f && !(x.region (chanRegion c)).isolated
  match firstFrame chanOpen free (rotate (chanList tier p.2.1 p.1) p.2.2) with
  | none => none
  | some (c, f) => if x.running_.any fun k => k.dst.code == c then none else some (locOf c f)

/-- The mover may copy the sheet now: by its state, and out of a region that is not isolated (Table 2-12). -/
def State.canCopy (s : State) (d h : Nat) : Bool :=
  s.movable d h && !((s.die d).region (chanRegion ((s.die d).entry h).loc.code)).isolated && ((s.die d).copyOf h).isNone

/-- The first of some sheets that can start. -/
def State.firstCopy (s : State) (d : Nat) (tier : Bool) (hs : List Nat) : Option (Nat × Loc) :=
  hs.findSome? fun h => (s.copyDst d ((s.die d).entry h) tier).map fun l => (h, l)

/-- When a sheet's sequence was last stepped. -/
def State.steppedOf (s : State) (e : Ream) : Nat := ((s.seq e.seq).map (·.stepped)).getD 0

/-- Sheets to demote for the low watermark, in order (R48): unpinned, lowest `acc_count`, then the sequence stepped least
recently; among sheets equal in both, ascending handle (DESIGN CHOICE, log entry 35). -/
def State.coldSheets (s : State) (d : Nat) : List Nat :=
  let l := (s.die d).ream.filter fun e => !e.2.loc.tier && !e.2.pin && s.canCopy d e.1
  (sortBy (fun e => e.2.acc) (sortBy (fun e => s.steppedOf e.2) l)).map (·.1)

/-- LPDDR5X sheets at the hot threshold, the most read first (log entry 35). -/
def State.hotSheets (s : State) (d : Nat) : List Nat :=
  let l := (s.die d).ream.filter fun e => e.2.loc.tier && decide ((s.die d).hotMark ≤ e.2.acc) && s.canCopy d e.1
  (sortBy (fun e => 255 - e.2.acc) l).map (·.1)

/-- A hint whose sheet cannot be moved, or is pinned, or is already where it asks, is passed over (R48). -/
def State.hintLive (s : State) (d : Nat) (k : Nat × Bool) : Bool :=
  let e := (s.die d).entry k.1
  s.canCopy d k.1 && e.loc.tier == k.2 && (k.2 || !e.pin)

/-- The hinted copy that can start first; a promotion waits while free HBM3E frames are at or below the low watermark. -/
def State.hintCopy (s : State) (d : Nat) : Option (Nat × Loc) :=
  (s.die d).hints.findSome? fun k =>
    if !(s.hintLive d k) then none
    else if k.2 && decide ((s.die d).freeHbm ≤ (s.die d).lowMark) then none
    else (s.copyDst d ((s.die d).entry k.1) (!k.2)).map fun l => (k.1, l)

/-- The demotion that the low watermark asks for. -/
def State.coldCopy (s : State) (d : Nat) : Option (Nat × Loc) :=
  if (s.die d).freeHbm < (s.die d).lowMark then s.firstCopy d true (s.coldSheets d) else none

/-- The promotion that the hot threshold asks for. -/
def State.hotCopy (s : State) (d : Nat) : Option (Nat × Loc) :=
  if (s.die d).highMark < (s.die d).freeHbm then s.firstCopy d false (s.hotSheets d) else none

/-- The copy the mover starts next, in the order of R48. -/
def State.nextCopy (s : State) (d : Nat) : Option (Nat × Loc) :=
  match s.coldCopy d with
  | some c => some c
  | none =>
    match s.hintCopy d with
    | some c => some c
    | none => s.hotCopy d

/-- The hints left once the mover has started a copy of sheet `h` (R48): where it came to the hints, those whose turn came before and
that are passed over leave the list, and the others keep their places. -/
def State.hintsAfter (s : State) (d h : Nat) : List (Nat × Bool) :=
  let l := (s.die d).hints
  if (s.coldCopy d).isSome then l.filter fun k => k.1 != h
  else (l.takeWhile fun k => k.1 != h).filter (s.hintLive d) ++ (l.dropWhile fun k => k.1 != h).drop 1

/-- The destination is reserved and the entry becomes MOVING; the mover's accesses wake both regions (Table 2-12). -/
def State.startCopy (s : State) (d h : Nat) (l : Loc) : State :=
  let hints := s.hintsAfter d h
  s.modDie d fun x =>
    let e := x.entry h
    let c : Copy := { handle := h, src := e.loc, dst := l, prev := e.st, flipped := false }
    let y : Die := { x.setEntry h { e with st := .moving } with copies := x.copies ++ [c], hints := hints }
    (y.modRegion (chanRegion e.loc.code) Region.reach).modRegion (chanRegion l.code) Region.reach

/-- A copy can start: a slot of the sixteen is free, the die may have one more transaction (R16), and no STATE_IDLE runs on it (R48,
R52). -/
def State.moverDue (s : State) (d : Nat) : Bool :=
  s.live d && s.mayIssue d && decide ((s.die d).running_.length < 16) && (s.die d).idle.isNone

/-- MIGRATION_START (R48, R49). -/
def execMigrationStart (die : Nat) (s : State) : Out :=
  match s.nextCopy die with
  | some (h, l) => event s (s.dOn die) (s.moverDue die) (s.startCopy die h l)
  | none => event s (s.dOn die) false s

/-! ## MIGRATION_COPY_DONE and MIGRATION_RELEASE (Table 2-11 steps 2 to 7) -/

/-- The entry flips to the destination, where the data lies as stored (R50). -/
def Die.flipCopy (x : Die) (c : Copy) : Die :=
  let e := x.entry c.handle
  let y : Die := (x.copyFrame c.src c.dst).setEntry c.handle { e with st := c.prev, loc := c.dst }
  { y with copies := x.copies.map fun k => if k = c then { k with flipped := true } else k }

/-- The copy ends: an uncorrectable error at the source loses the sheet, a failed check or destination retires the destination
frame and restores the entry, else the entry flips (R49). -/
def doCopyEnd (d h : Nat) (srcBad dstBad : Bool) (s : State) : State :=
  match (s.die d).copyOf h with
  | none => s
  | some c =>
    let s1 := s.modDie d fun x => (((x.countMC mcReadBytes (chanMC c.src.code) 524288).countMC mcWriteBytes (chanMC c.dst.code)
      524288).memAct c.src.code .device 524288).memAct c.dst.code .device 524288
    if srcBad then s1.frameUe d c.src.code c.src.frame
    else
      let s2 := s1.modDie d fun x => (x.countMC mcReadBytes (chanMC c.dst.code) 524288).memAct c.dst.code .device 524288
      if dstBad then (s2.modDie d fun x => x.cancelCopy h).retire d c.dst.code c.dst.frame 1
      else s2.modDie d fun x => x.flipCopy c

/-- Both ends of the copy are powered. -/
def State.copyUp (s : State) (d h : Nat) : Bool :=
  s.live d && match (s.die d).copyOf h with
    | some c => s.tileNetUp d (chanRegion c.src.code) && s.tileNetUp d (chanRegion c.dst.code)
    | none => false

/-- MIGRATION_COPY_DONE (R49). -/
def execMigrationCopyDone (die handle : Nat) (srcBad dstBad : Bool) (s : State) : Out :=
  event s (s.dOn die) (s.copyUp die handle) (doCopyEnd die handle srcBad dstBad s)

/-- The flipped copy of a handle that waits for its release. -/
def Die.flippedOf (x : Die) (h : Nat) : Option Copy := x.copies.find? fun c => c.handle == h && c.flipped

/-- The old frame returns to the free pool. -/
def doRelease_ (d h : Nat) (s : State) : State :=
  s.modDie d fun x =>
    match x.flippedOf h with
    | some c => { x with copies := x.copies.erase c }
    | none => x

/-- MIGRATION_RELEASE (R49). -/
def execMigrationRelease (die handle : Nat) (s : State) : Out :=
  event s (s.dOn die)
    (s.live die && match (s.die die).flippedOf handle with
      | some c => (s.die die).drainedFrom c
      | none => false)
    (doRelease_ die handle s)

/-! ## Idle sequences and retention (R35, R51) -/

/-- SEQ_IDLE_TIMEOUT (R35): an ACTIVE sequence that no step holds becomes SUSPENDED. -/
def execSeqIdleTimeout (seq : Nat) (s : State) : Out :=
  event s (s.dOn (seqDie seq))
    (s.live (seqDie seq) && match s.seq seq with
      | some q => q.st == .active && q.heldBy.isNone
      | none => false)
    (s.modSeq seq fun q => { q with st := .suspended, suspMs := 0, suspNew := true })

/-- The time since the last check is added to every SUSPENDED sequence's; one suspended within it gains a part that is open (log
entry 38). -/
def State.ageSuspended (s : State) (ms : Nat) : State :=
  (tkeys s.seqs).eraseDups.foldl (fun s n =>
    let (f, s1) := s.freeNat
    s1.modSeq n fun q =>
      if q.st == .suspended then { q with suspMs := q.suspMs + (if q.suspNew then f % (ms + 1) else ms), suspNew := false } else q) s

/-- A class 1 sequence that has been SUSPENDED for longer than its tenant's resume lifetime (R51). -/
def State.outlived (s : State) (q : Sequence) : Bool :=
  match tfind s.tenants q.tenant with
  | some t => q.st == .suspended && q.cls == 1 && t.resumeS != 0 && decide (t.resumeS * 1000 < q.suspMs)
  | none => false

/-- The check of R51. -/
def doRetention (ms : Nat) (s : State) : State :=
  let s1 := s.ageSuspended ms
  ((s1.seqs.filter fun e => s1.outlived e.2).map (·.1)).foldl (fun s n => s.setClass n 2) s1

/-- RETENTION_CHECK (R51): at least once per second. -/
def execRetentionCheck (elapsedMs : Nat) (s : State) : Out :=
  event s true (s.running && decide (elapsedMs ≤ 1000)) (doRetention elapsedMs s)

end Sys2Proof.Machine
end

