-- ==== Sys2Proof/Machine/Networks.lean ====
section
/-! DEFINITION. The steps of the networks and of region power (chapter 12). -/

namespace Sys2Proof.Machine

/-! ## ROUTER_FORWARD (R304 to R310) -/

/-- The packet is one that the router has received. -/
def State.received (s : State) (d rt : Nat) (k : NetPkt) : Bool := ((s.die d).router rt).inbox.any fun e => e.2 == k

/-- The input port by which a node's packets enter its router: the local port it is on, or the hub port. -/
def nodePort (node : Nat) : Nat := if node < 8 ∨ (12 ≤ node ∧ node < 16) then 4 else 5

/-- A packet at router `rt` with its input port: as it was received, or from the interface that injects it. -/
def State.atInput (s : State) (d rt : Nat) (k : NetPkt) : Nat × NetPkt :=
  (((s.die d).router rt).inbox.find? fun e => e.2 == k).getD (nodePort (k.src.toNat % 32), k)

/-- The packet is one that an interface at this router injects now (R306, R311, R16): a header of the source's, a place in
flight for a new transaction. -/
def State.injects (s : State) (d rt : Nat) (k : NetPkt) : Bool :=
  let x := s.die d
  let id := k.src.toNat
  let f := x.iface (id % 256)
  decide ((nodeSpot id).no = rt) && decide (id / 256 = d) && s.endpoint id && s.endpoint k.dst.toNat && !(x.isFenced 9 id) &&
    k.ptr == 0 && !k.lane && k.epoch == x.epoch && decide (1 ≤ k.len.toNat) &&
    (k.vc != 0 || (s.mayIssue d && !(thas f.txns k.txn.toNat))) &&
    (match tfind (f.active x.epoch) k.dst.toNat with
      | some t => k.turns == t
      | none => true)

/-- The source has a valid route to the packet's destination. -/
def State.hasRoute (s : State) (d : Nat) (k : NetPkt) : Bool :=
  let x := s.die d
  thas ((x.iface (k.src.toNat % 256)).active x.epoch) k.dst.toNat

/-- The packet enters the network: a transaction opens with a request, the interface counts. -/
def State.inject (s : State) (d : Nat) (k : NetPkt) : State :=
  let id := k.src.toNat
  s.modDie d fun x =>
    ((x.modIface (id % 256) fun f =>
      if k.vc = 0 then { f with txns := tput f.txns k.txn.toNat (k.opcode.toNat, k.dst.toNat) } else f).count niBytesOut id
        (64 * k.len.toNat)).count niPktsOut id 1

/-- The router takes the packet off its input. -/
def State.takeIn (s : State) (d rt : Nat) (k : NetPkt) : State :=
  s.modDie d fun x => x.modRouter rt fun r => { r with inbox := r.inbox.eraseP fun e => e.2 == k }

/-- The router checks the packet and forwards it; a fenced router discards what it holds or receives (R317). -/
def State.routePacket (s : State) (d rt : Nat) (k : NetPkt) : State :=
  let p := spotOf d rt
  if !(s.routerOk p) then s
  else if k.hpar != hparOf k || !k.ctlOk then s.parityDiscard p k
  else match s.hop p (turnAt k.turns k.ptr.toNat).1 k.dst.toNat with
    | some h => s.sendOn p k h
    | none => s

/-- The router can deal with the packet now: it is fenced, the packet is bad, or its next place has room. -/
def State.routable (s : State) (d rt : Nat) (k : NetPkt) : Bool :=
  let p := spotOf d rt
  !(s.routerOk p) || k.hpar != hparOf k || !k.ctlOk || match s.hop p (turnAt k.turns k.ptr.toNat).1 k.dst.toNat with
    | some h => !(s.wakeFull p k h) && !(s.nextFull p k h)
    | none => false

/-- The output port that a packet asks for. -/
def outPort (k : NetPkt) : Nat := (turnAt k.turns k.ptr.toNat).1

/-- The packet needs a grant of an output port: the router works and the packet is whole (R305, R307). -/
def State.arbitrated (s : State) (d rt : Nat) (k : NetPkt) : Bool :=
  s.routerOk (spotOf d rt) && k.hpar == hparOf k && k.ctlOk

/-- The packets that ask for an output port of a router: the first of each input port, channel and lane that goes that way and has
room at its next place, and the packet `k` at hand. -/
def State.askers (s : State) (d rt : Nat) (k : NetPkt) : List (Nat × NetPkt) :=
  let r := (s.die d).router rt
  let heads := r.inbox.filter fun e =>
    (r.inbox.find? fun f => f.1 == e.1 && f.2.vc == e.2.vc && f.2.lane == e.2.lane) == some e &&
      outPort e.2 == outPort k && s.arbitrated d rt e.2 && s.routable d rt e.2
  let me := s.atInput d rt k
  if s.received d rt k then heads else heads ++ [me]

/-- The packet is the one that its output port grants now (R24, R305), or needs no grant. -/
def State.granted (s : State) (d rt : Nat) (k : NetPkt) : Bool :=
  !(s.arbitrated d rt k) ||
    (tget ((s.die d).router rt).arb (outPort k) {}).pick (s.askers d rt k) == some (s.atInput d rt k)

/-- The output port has granted the packet. -/
def State.noteGrant (s : State) (d rt : Nat) (k : NetPkt) : State :=
  if s.arbitrated d rt k then
    s.modDie d fun x => x.modRouter rt fun r =>
      { r with arb := tmod r.arb (outPort k) {} fun a => a.after (s.atInput d rt k) (s.askers d rt k) }
  else s

/-- ROUTER_FORWARD's work. -/
def doRouterForward (d rt : Nat) (k : NetPkt) (s : State) : State :=
  if s.received d rt k then ((s.noteGrant d rt k).takeIn d rt k).routePacket d rt k
  else if s.hasRoute d k then ((s.noteGrant d rt k).inject d k).routePacket d rt k
  else if k.vc = 0 then (s.inject d k).endTxn d (k.src.toNat % 256) k.txn.toNat true
  else s

/-- ROUTER_FORWARD (R307, R310): a router deals with a packet it has received, or one injected by an interface it connects. -/
def execRouterForward (die router : Nat) (pkt : NetPkt) (s : State) : Out :=
  event s (decide (die < s.dieCount) && routerOn router)
    (s.live die && (decide (128 ≤ router) || s.tileNetUp die (router / 16)) &&
      (s.received die router pkt || s.injects die router pkt) &&
      ((s.routable die router pkt && s.granted die router pkt) || (!(s.received die router pkt) && !(s.hasRoute die pkt))))
    (doRouterForward die router pkt s)

/-! ## PACKET_DELIVER and TXN_TIMEOUT (R308, R309, R326) -/

/-- A packet is delivered to its endpoint; a response ends its transaction. -/
def State.delivered (s : State) (d node : Nat) (k : NetPkt) : State :=
  let id := 256 * d + node
  let s1 := s.modDie d fun x =>
    ((x.modIface node fun f => { f with outbox := f.outbox ++ [k] }).count niBytesIn id (64 * k.len.toNat)).count niPktsIn id 1
  if k.vc = 1 then
    if k.opcode = 0x7F then s1.endTxn d node k.txn.toNat true
    else
      let (n, s2) := s1.freeNat
      (s2.endTxn d node k.txn.toNat false).modDie d fun x => x.count (niLatBin n) id 1
  else s1

/-- D0's host port or die controller is lost: its interface at every hub port is fenced (R29, R301; log entry 75). -/
def State.d0Cut (s : State) : Bool :=
  [28, 29].any fun n => (List.range 8).all fun r => (s.die 0).isFenced 9 (32 * r + n)

/-- A discarded packet: a request is answered with a NACK, a response's transaction ends with UNIT_FENCED. -/
def State.undelivered (s : State) (d node : Nat) (k : NetPkt) : State :=
  let id := 256 * d + node
  let s1 := s.modDie d fun x => (x.count niEccUncorr id 1)
  let n := (s1.die d).errIn (unitKey 73 id) nclkHour + 1
  let s2 := s1.modDie d fun x => x.addErr (unitKey 73 id) nclkHour 1
  let s3 := if 4 ≤ n then (s2.fence d 9 id 3 (if node % 32 < 20 then some (node / 32) else none)).modDie d Die.cutThreads else s2
  let s4 := if k.vc = 0 then s3.nack k else if k.vc = 1 then s3.endTxn d node k.txn.toNat true else s3
  if s4.d0Cut then s4.fatal 5 else s4

/-- PACKET_DELIVER's work. `ecc`: 0 no error, 1 a bit corrected, 2 uncorrectable. -/
def doPacketDeliver (d node ecc : Nat) (s : State) : State :=
  match ((s.die d).iface node).inbox with
  | [] => s
  | k :: r =>
    let s1 := s.modDie d fun x => x.modIface node fun f => { f with inbox := r }
    if ecc = 0 then s1.delivered d node k
    else if ecc = 1 then
      (((s1.modDie d fun x => x.count niEccCorr (256 * d + node) 1).corrected d 9 (256 * d + node) 1 16 none
        (if node % 32 < 20 then some (node / 32) else none))).delivered d node k
    else s1.undelivered d node k

/-- PACKET_DELIVER (R308): the oldest packet that has arrived at an interface. -/
def execPacketDeliver (die node : Nat) (ecc : Nat) (s : State) : Out :=
  event s (decide (die < s.dieCount) && decide (node < 256) && s.endpoint (256 * die + node))
    (s.live die && decide (ecc < 3) && !((s.die die).iface node).inbox.isEmpty) (doPacketDeliver die node ecc s)

/-- TXN_TIMEOUT (R309): no response 2^30 NCLK cycles after the head flit left. -/
def execTxnTimeout (die node txn : Nat) (s : State) : Out :=
  event s (decide (die < s.dieCount) && decide (node < 256) && s.endpoint (256 * die + node))
    (s.live die && thas ((s.die die).iface node).txns txn)
    ((s.modDie die fun x => x.count niTimeouts (256 * die + node) 1).endTxn die node txn true)

/-! ## Epoch switches (R56, R151, R313, R448) -/

/-- A wringer is healthy under a change: one that the change returns, or one in service that no test is about to fence. -/
def State.healthy (s : State) (c : EpochChange) (d w : Nat) : Bool :=
  c.returns.contains (d, 4, w) ||
    (!((s.die d).isFenced 4 w) && !(thas (s.die d).tests (unitKey 4 w)) && !((s.die d).region (chanRegion w)).isolated)

/-- The wringer that serves a channel (Table 3-9): its own, else the first healthy one in the order of the table. -/
def servedBy (ok : Nat → Bool) (c : Nat) : Option Nat :=
  let r := chanRegion c
  ([c, if c % 2 = 0 then c + 1 else c - 1] ++ (List.range 8).map (8 * r + ·) ++ List.range 80).find? ok

/-- A redirect is the one that Table 3-9 gives; with no healthy wringer on the die the entry names the channel's own. -/
def State.redirectOk (s : State) (c : EpochChange) (r : Nat × Nat × Nat) : Bool :=
  decide (r.1 < s.dieCount) && decide (r.2.1 < 80) && (servedBy (s.healthy c r.1) r.2.1).getD r.2.1 == r.2.2

/-- Every part of a change passes its checks (R301, R312, R141, R84). -/
def State.changeOk (s : State) (c : EpochChange) : Bool :=
  (c.routes.all fun r => s.endpoint r.iface && s.endpoint r.dst && s.routeOk r.iface r.dst r.turns) &&
    c.redirects.all (s.redirectOk c) &&
    c.chains.all fun h => thas (s.die h.1).threads h.2.1 && chainOk h.2.2

/-- The dies that a change touches besides the redirect map, which the dies in scope hold. -/
def touched (c : EpochChange) : List Nat :=
  c.routes.map (fun r => r.iface / 256) ++ c.chains.map (·.1) ++ c.returns.map (·.1)

/-- A route written into a bank. -/
def Iface.setRoute (f : Iface) (bank : Bool) (dst : Nat) (t : BitVec 96) : Iface :=
  if bank then { f with bank1 := tput f.bank1 dst t } else { f with bank0 := tput f.bank0 dst t }

/-- The inactive bank takes the active one's content, then the change (R313 step 2). -/
def Die.writeBanks (x : Die) (d : Nat) (c : EpochChange) : Die :=
  let e := x.epoch
  let copied := tmapv x.ifaces fun _ f => if e then { f with bank0 := f.bank1 } else { f with bank1 := f.bank0 }
  let x1 := { x with
    ifaces := copied
    redir0 := if e then x.redir1 else x.redir0
    redir1 := if e then x.redir1 else x.redir0, switching := true, flipped := false }
  let x2 := (c.routes.filter fun r => r.iface / 256 == d).foldl
    (fun x r => x.modIface (r.iface % 256) fun f => f.setRoute (!e) r.dst r.turns) x1
  c.redirects.foldl (fun x r =>
    if e then { x with redir0 := tput x.redir0 (128 * r.1 + r.2.1) r.2.2 }
    else { x with redir1 := tput x.redir1 (128 * r.1 + r.2.1) r.2.2 }) x2

/-- EPOCH_SWITCH steps 1 and 2: a change that fails its checks is abandoned, the old epoch stays. -/
def doEpochSwitch (m : BitVec 8) (c : EpochChange) (s : State) : State :=
  if s.changeOk c then
    { (maskDies m).foldl (fun s d => s.modDie d fun x => x.writeBanks d c) s with epochOp := some (m, c) }
  else s

/-- EPOCH_SWITCH (R313): a second switch waits until the first has released its bank. -/
def execEpochSwitch (dies : BitVec 8) (change : EpochChange) (s : State) : Out :=
  event s ((maskDies dies).all fun d => decide (d < s.dieCount))
    (s.running && s.epochOp.isNone && !(maskDies dies).isEmpty && (maskDies dies).all s.live &&
      (touched change).all fun d => (maskDies dies).contains d)
    (doEpochSwitch dies change s)

/-- The slot a member of a thread has, on the chain or off it, or the lowest free one of a new member. -/
def Die.memberSlot (x : Die) (th : Nat) (h : Thread) (m : Nat) : Nat :=
  match h.members.find? fun e => e.1 == m with
  | some e => e.2
  | none => match (x.thSlots th).find? fun e => e.1 == m with
    | some e => e.2
    | none => (least 16 fun k => (x.tslot m k).isNone).getD 0

/-- The block after the highest one that a slot holds or has taken (R151). -/
def TSlot.nextBlock (q : TSlot) : Nat := q.entries.foldl (fun n e => max n (e.index + 1)) q.taken

/-- The position in the new chain of a record on its way to position `p` of the old one: its member, else the next member
downstream that stays (R151). -/
def newPos (old new : List (Nat × Nat)) (p : Nat) : Option Nat :=
  match ((old.drop p).find? fun e => new.contains e) with
  | some e => new.findIdx? (· == e)
  | none => none

/-- The records of the old chain that the new one still owes its members (R151): those on their way, and those that a member
which leaves has not forwarded, whose network interface goes on forwarding; the oldest first. -/
def Die.carried (x : Die) (h : Thread) (new : List (Nat × Nat)) : List (Nat × TEntry) :=
  (List.range (h.members.length + 1)).reverse.flatMap fun p =>
    let left : List TEntry := match h.members[p - 1]? with
      | some e =>
        if p = 0 ∨ new.contains e then []
        else ((x.tslot e.1 e.2).map fun q => q.entries.filter fun t => !t.forwarded).getD []
      | none => []
    match newPos h.members new p with
    | some k => ((h.transit.filter fun t => t.1 == p).map fun t => (k, t.2)) ++ left.map fun t => (k, t)
    | none => []

/-- A thread takes its new chain at the flip (R151): slots of members that leave are freed, those of new ones bound. A new
member that has missed blocks gap-fills (R148). Where a member becomes head, the source goes on after the blocks that it
holds or that are still on their way to it. -/
def Die.relink (x : Die) (th : Nat) (ms : List Nat) : Die :=
  match tfind x.threads th with
  | none => x
  | some h =>
    let new := ms.map fun m => (m, x.memberSlot th h m)
    let gone := h.members.filter fun e => !(new.contains e)
    let transit := x.carried h new
    let x1 := gone.foldl (fun x e => x.modMTile (e.1 / 2) fun t => { t with slots := tdel t.slots (e.1 % 2 * 16 + e.2) }) x
    let x2 := (new.filter fun e => !(h.members.contains e)).foldl
      (fun x e => x.setTSlot e.1 e.2 (((x.tslot e.1 e.2).getD (TSlot.bound th)).startGap h true)) x1
    let next := match new.head? with
      | some e =>
        if h.members.head? = some e ∨ !(h.members.contains e) then h.next
        else match x2.tslot e.1 e.2 with
          | some q => (transit.filter fun t => t.1 == 0).foldl (fun n t => max n (t.2.index + 1)) q.nextBlock
          | none => h.next
      | none => h.next
    let fetch := h.fetch.filter fun f => new.contains f.slot && (f.gap || new.head? == some f.slot)
    { x2 with threads := tput x2.threads th { h with
        members := new, next := next, transit := transit, fetch := fetch
        part := if fetch.head? = h.fetch.head? then h.part else [], bad := h.bad && fetch.head? == h.fetch.head? } }.pump th

/-- Every interface of the die flips (R313 step 3); its chains change and its tested units return (R448). -/
def doEpochFlip (d : Nat) (s : State) : State :=
  match s.epochOp with
  | none => s
  | some (_, c) =>
    let s1 := s.modDie d fun x =>
      (c.chains.filter fun h => h.1 == d).foldl (fun x h => x.relink h.2.1 h.2.2)
        { x with epoch := !x.epoch, flipped := true, flips := x.flips + 1 }
    (c.returns.filter fun r => r.1 == d).foldl (fun s r =>
      let s2 := s.returnUnit d r.2.1 r.2.2
      if r.2.1 = 10 then s2.returnPort d (r.2.2 % 8) else s2) s1

/-- The die is in the scope of the switch under way. -/
def State.inSwitch (s : State) (d : Nat) : Bool :=
  match s.epochOp with
  | some (m, _) => m.getLsbD d
  | none => false

/-- `old_pkts` of NET_EPOCH (R314): packets of the other epoch in the die's routers. -/
def Die.oldPkts (x : Die) : Nat :=
  min 0xFFFF ((x.routers.map fun r => ((r.2.inbox.map (·.2) ++ r.2.wakeBuf).filter fun q => q.epoch != x.epoch).length).sum)

/-- Every usable die in the switch's scope has flipped. -/
def State.allFlipped (s : State) : Bool :=
  match s.epochOp with
  | some (m, _) => (maskDies m).all fun d => !(s.usable d) || (s.die d).flipped || !(s.die d).switching
  | none => false

/-- A router of the die that is due to be fenced once no route passes it: a test asked for it, or its parity discards passed
the threshold (R317, R447, Table 18-7). -/
def State.routerDue (s : State) (d k : Nat) : Option Nat :=
  let x := s.die d
  let u := routerUnit k
  if !(routerOn k) || x.isFenced u.1 u.2 || s.routeThrough (spotOf d k) then none
  else if thas x.tests (unitKey u.1 u.2) then some 5
  else if 4 ≤ x.errIn (unitKey u.1 u.2) nclkHour then some 3 else none

/-- Routers with a test or with errors of a die. -/
def Die.routerSuspects (x : Die) : List Nat :=
  (List.range 136).filter fun k =>
    let u := routerUnit k
    thas x.tests (unitKey u.1 u.2) || thas x.errs (unitKey u.1 u.2)

/-- Old packets are gone: the old bank is released; routers that no route passes any more are fenced. -/
def doEpochDrainDone (d : Nat) (s : State) : State :=
  let s1 := s.modDie d fun x => { x with switching := false }
  let s2 := (s1.die d).routerSuspects.foldl (fun s k => match s.routerDue d k with
    | some c => s.fenceRouter (spotOf d k) c
    | none => s) s1
  if s2.usableDies.any fun e => s2.inSwitch e && (s2.die e).switching then s2 else { s2 with epochOp := none }

/-- EPOCH_DRAIN_DONE (R313 steps 4 and 5). -/
def execEpochDrainDone (die : Nat) (s : State) : Out :=
  event s (decide (die < s.dieCount))
    (s.live die && s.inSwitch die && (s.die die).switching && s.allFlipped && decide ((s.die die).oldPkts = 0))
    (doEpochDrainDone die s)

/-! ## Region power (R319 to R322) -/

/-- The tiles of a region. -/
def regionTiles (r : Nat) : List (TileKind × Nat) :=
  ((List.range 8).map fun i => (TileKind.matrix, 8 * r + i)) ++ (List.range 4).map fun i => (TileKind.vector, 4 * r + i)

/-- A stream uses the region's channels: one of its context's grants lies there, or the weights, which lie on every channel. -/
def State.streamUses (s : State) (d r : Nat) (q : Stream) : Bool :=
  if q.cur.isNone && q.shadow.isNone && q.thread.isNone then false
  else match (s.die d).ctx q.ctx with
    | none => false
    | some y => y.grants.any fun g => match g.2.area with
        | none => true
        | some a => match tfind s.models y.model with
          | some m => (tget m.areas (65536 * d + a) []).any fun f => chanRegion (f / 2 ^ 15) == r
          | none => false

/-- The region may be put to sleep (R319). -/
def State.maySleep (s : State) (d r : Nat) : Bool :=
  let x := s.die d
  let g := x.region r
  let v := x.regv 0x2004
  let f := x.fabric r
  let link : Bool := match (x.felt r).st with
    | .folded => true
    | .down => true
    | .detect => true
    | .discover => false
    | .equalise => false
    | .align => false
    | .active => false
    | .idle => false
    | .waking => false
    | .claimed => false
  bitAt v r && decide (bitsOf v 23 8 ≠ 0) && f.st == .unconfigured && f.session.isNone &&
    (regionTiles r).all (fun t => (x.tileOcc t.1 t.2).res.isNone && (x.tileOcc t.1 t.2).inc.isNone) &&
    x.wringers.all (fun w => chanRegion w.1 != r || (w.2.input.isEmpty && w.2.openR.isEmpty)) &&
    x.reqNet.all (fun q => chanRegion q.w != r) &&
    x.streams.all (fun q => !(s.streamUses d r q.2)) &&
    x.copies.all (fun c => chanRegion c.src.code != r && chanRegion c.dst.code != r) &&
    x.occ.all (fun o => match o.2.phase, o.2.res, o.2.inc with
      | .none, _, _ => true
      | .quiescing, _, _ => true
      | .saving, some c, _ => ((x.ctx c).map (·.region)) != some r
      | .saving, none, _ => true
      | .rinsing, _, _ => true
      | .restoring, _, some c => ((x.ctx c).map (·.region)) != some r
      | .restoring, _, none => true) &&
    link && !g.isolated && g.power == .awake

/-- The units of a region part. -/
def State.rAt (s : State) (r : RAt) : Bool := decide (r.die < s.dieCount) && decide (r.region < 8)

/-- REGION_SLEEP_DECISION (R319, R320 step 1). -/
def execRegionSleepDecision (r : RAt) (s : State) : Out :=
  event s (s.rAt r) (s.live r.die && s.maySleep r.die r.region)
    (s.modDie r.die fun x => x.modRegion r.region fun g => { g with power := .draining, gated := false, offDone := false })

/-- The region's interfaces have no transaction outstanding and its routers hold no flit (R320 step 2). -/
def Die.netIdle (x : Die) (r : Nat) : Bool :=
  x.ifaces.all (fun f => decide (f.1 / 32 ≠ r) || decide (20 ≤ f.1 % 32) || f.2.txns.isEmpty) &&
    x.routers.all fun k => decide (128 ≤ k.1) || decide (k.1 / 16 ≠ r) || k.2.inbox.isEmpty

/-- GATE_POINT (R320 step 3). -/
def execGatePoint (r : RAt) (s : State) : Out :=
  let g := (s.die r.die).region r.region
  event s (s.rAt r) (s.live r.die && g.power == .draining && !g.gated && (s.die r.die).netIdle r.region)
    (s.modDie r.die fun x => x.modRegion r.region fun g => { g with gated := true })

/-- The region's ACTIVE channels enter self-refresh (R343). -/
def Die.sleepChans (x : Die) (r : Nat) : Die :=
  (regionChans r).foldl (fun x c => if x.chanState c == .active then x.setChan c .selfRefresh else x) x

/-- A channel leaves self-refresh and takes one pause (R343), whose length is open (log entry 10): at most 400 ns. -/
def State.wakeChan (s : State) (d c : Nat) : State :=
  if (s.die d).chanState c == .selfRefresh then
    let (n, s1) := s.freeNat
    s1.modDie d fun x => ((x.setChan c .active).countMC mcPauses (chanMC c) 1).countMC mcPauseNclk (chanMC c) (n % 587)
  else s

/-- REGION_POWER_OFF (R320 step 4, R343): a wake that came first waits for it. -/
def execRegionPowerOff (r : RAt) (s : State) : Out :=
  let g := (s.die r.die).region r.region
  event s (s.rAt r) (s.live r.die && g.gated && !g.offDone)
    (s.modDie r.die fun x => (x.sleepChans r.region).modRegion r.region fun g =>
      { g with offDone := true, power := if g.power == .draining then .asleep else g.power })

/-- A region's wake is asked for (R320 step 5): something waits for it at its die router, or firmware or a remote access has
reached for it. -/
def Die.wakeAsked (x : Die) (r : Nat) : Bool :=
  (x.region r).asked || !((x.router (128 + r)).wakeBuf.isEmpty) || !((x.router (128 + r)).wakeReq.isEmpty)

/-- REGION_WAKE (R320 step 5): after the gate point. -/
def execRegionWake (r : RAt) (s : State) : Out :=
  let g := (s.die r.die).region r.region
  event s (s.rAt r)
    (s.live r.die && g.gated && (g.power == .asleep || g.power == .draining) && (s.die r.die).wakeAsked r.region)
    (s.modDie r.die fun x => x.modRegion r.region fun g => { g with power := .waking, asked := false })

/-- The down port opens and the waiting packets proceed in arrival order (R320 steps 6 and 7). -/
def doWakeRailsReady (d r : Nat) (s : State) : State :=
  let k := 128 + r
  let l := ((s.die d).router k).wakeBuf
  let s0 := (regionChans r).foldl (fun s c => s.wakeChan d c) s
  let s1 := s0.modDie d fun x =>
    ({ x with reqNet := (x.router k).wakeReq ++ x.reqNet }.modRegion r fun g =>
      { g with power := .awake, wakeSeen := true, gated := false, offDone := false }).modRouter k fun q =>
      { q with wakeBuf := [], wakeReq := [] }
  l.foldl (fun s q => s.goDown (spotOf d k) { die := d, k := r, tile := true, x := 1, y := 1 } q) s1

/-- WAKE_RAILS_READY (R320 steps 6 and 7). -/
def execWakeRailsReady (r : RAt) (s : State) : Out :=
  let g := (s.die r.die).region r.region
  event s (s.rAt r) (s.live r.die && g.power == .waking && g.offDone) (doWakeRailsReady r.die r.region s)

/-! ## UCIe modules (R302, R315, R316) -/

/-- A die router has the module: its port in that direction crosses to another die. -/
def State.hasModule (s : State) (d k m : Nat) : Bool :=
  let cross (dir : Nat) : Bool := match s.hubNext d k dir with
    | some (e, _) => decide (e ≠ d)
    | none => false
  if m < 2 then cross 1 || cross 3 else decide (m = 2) && (cross 0 || cross 2)

/-- One round of a search from die routers (as die × 8 + k) by the directions of a turn model. -/
def State.spread (s : State) (dirs : List Nat) (l : List Nat) : List Nat :=
  (l ++ l.flatMap fun a => dirs.filterMap fun dir =>
    match s.hubNext (a / 8) (a % 8) dir with
    | some (e, j) =>
      if s.linkUp (a / 8) (a % 8) e j dir && s.routerOk (spotOf e (128 + j)) then some (8 * e + j) else none
    | none => none).eraseDups

/-- The search repeated. -/
def State.spreadN (s : State) (dirs : List Nat) : Nat → List Nat → List Nat
  | 0, l => l
  | n + 1, l => s.spreadN dirs n (s.spread dirs l)

/-- A legal route (west first, no turn back) from D0 reaches the die (R312, R316): D0 stands in the first column and row, so a
route that reaches another die goes east, and then north or south, never both. -/
def State.reached (s : State) (d : Nat) : Bool :=
  let seeds := (List.range 8).filter fun k => s.routerOk (spotOf 0 (128 + k))
  let from_ (dirs : List Nat) : Bool := (s.spreadN dirs 20 seeds).any fun a => a / 8 == d
  d == 0 || from_ [1, 2] || from_ [1, 0]

/-- The module trains again, or is out of service; a die that no route reaches any more is package-fatal (R29, R316). -/
def doUcieRetrain (d k m : Nat) (trained : Bool) (s : State) : State :=
  let s1 := s.modDie d fun x =>
    { x with ucieOut := if trained then x.ucieOut.filter (· != 4 * k + m)
                        else if x.ucieOut.contains (4 * k + m) then x.ucieOut else x.ucieOut ++ [4 * k + m] }
  if s1.usableDies.all s1.reached then s1 else s1.fatal 6

/-- The replays of a module: counted, reported at 1,000 in 1 s (Table 18-7); at 10,000 in 1 s it trains again (R316). -/
def doUcieReplays (d k m replays : Nat) (trained : Bool) (s : State) : State :=
  let s1 := (s.modDie d fun x => x.countRT rtUcieReplays (128 + k) replays).correctedIn nclkSecond d 13 (4 * k + m) replays 1000
    none none
  if 10000 ≤ (s1.die d).errIn (unitKey 13 (4 * k + m)) nclkSecond then doUcieRetrain d k m trained s1 else s1

/-- UCIE_RETRAIN (R316): `replays` of the module's link, and whether a retraining that they cause succeeds. -/
def execUcieRetrain (die router module replays : Nat) (trained : Bool) (s : State) : Out :=
  event s (decide (die < s.dieCount) && decide (router < 8) && decide (module < 4) && s.hasModule die router module)
    (s.live die) (doUcieReplays die router module replays trained s)

end Sys2Proof.Machine
end

