-- ==== Sys2Proof/Machine/Switch.lean ====
section
/-! DEFINITION. Tiles shared by time: grants, quanta, context switches and completion rings (R190 to R199). -/

namespace Sys2Proof.Machine

/-! ## TILE_GRANT and QUANTUM_EXPIRY (R192 to R194) -/

/-- The grant that firmware makes next for a tile kind: context and tile. -/
def Die.nextGrant (x : Die) (k : TileKind) : Option (Nat × Nat) :=
  match x.pickReady k fun _ => true with
  | none => none
  | some (c, y) => (x.pickTile k y).map fun t => (c, t)

/-- A context is to come in on a tile: at once on an empty one, after its resident's save on another (Table 8-4). A sleeping region is
woken for it (R186, R192, R211). -/
def Die.bring (x0 : Die) (k : TileKind) (t c : Nat) : Die :=
  let x := x0.modRegion (tileRegion k t) Region.reach
  let cls := ((x.ctx c).map (·.cls)).getD 3
  (x.modOcc k t fun o =>
    { o with inc := some c, phase := if o.res.isNone && o.phase == .none then .restoring else o.phase }).countGrant k c cls

/-- TILE_GRANT's work. -/
def doTileGrant (d : Nat) (k : TileKind) (s : State) : State :=
  match (s.die d).nextGrant k with
  | some (c, t) => s.modDie d fun x => x.bring k t c
  | none => s

/-- TILE_GRANT (R192): a free tile goes to a READY context. -/
def execTileGrant (die : Nat) (kind : TileKind) (s : State) : Out :=
  event s (decide (die < s.dieCount)) (s.live die && ((s.die die).nextGrant kind).isSome) (doTileGrant die kind s)

/-- The tile exists. -/
def State.tileOn (s : State) (t : TAt) : Bool := decide (t.die < s.dieCount) && decide (t.tile < tileCount t.kind)

/-- What occupies a tile. -/
def State.occOf (s : State) (t : TAt) : Occ := (s.die t.die).tileOcc t.kind t.tile

/-- The resident of a tile is in a state. -/
def State.residentIs (s : State) (t : TAt) (st : CtxState) : Bool :=
  match (s.die t.die).resident t.kind t.tile with
  | some (_, y) => y.st == st
  | none => false

/-- The READY context that an expired quantum makes room for: a real-time resident only for another real-time one, and none
that a free tile waits for (R193, R194). -/
def Die.successor (x : Die) (k : TileKind) (t : Nat) : Option Nat :=
  let rt : Bool := match x.resident k t with
    | some (_, y) => y.cls == 0
    | none => false
  match x.pickReady k fun y => !rt || y.cls == 0 with
  | some (c, y) => if (x.pickTile k y).isNone then some c else none
  | none => none

/-- A switch is decided on a tile (R195, R196 steps 1 and 2): no new work enters it, the streams stop, the slots detach. -/
def Die.startSwitch (x : Die) (k : TileKind) (t : Nat) : Die :=
  match x.resident k t with
  | none => x
  | some (c, y) =>
    let x1 := (x.modOcc k t fun o => { o with phase := .quiescing, retried := false }).modCtx c fun y =>
      { y with st := .saving, wait := if y.woken then none else y.wait, woken := false }
    let x2 := y.streams.foldl (fun x n => match tfind x.streams n with
      | some q => { x with streams := tput x.streams n { q with stopped := true } }
      | none => x) x1
    match k with
    | .vector => x2
    | .matrix => [2 * t, 2 * t + 1].foldl (fun x m => (x.slotsOf m y.disp).foldl (fun x n => x.detachSlot m n) x) x2

/-- QUANTUM_EXPIRY's work: the resident is switched out for a READY context or for a test, else its quantum starts again. -/
def doQuantumExpiry (t : TAt) (s : State) : State :=
  let x := s.die t.die
  if (s.occOf t).drain then s.modDie t.die fun x => x.startSwitch t.kind t.tile
  else
    match x.successor t.kind t.tile, (s.occOf t).res with
    | some c, _ => s.modDie t.die fun x => x.bring t.kind t.tile c
    | none, some r =>
      let (n, s1) := s.tick
      s1.modCtx t.die r fun y => { y with quantNo := n }
    | none, none => s

/-- QUANTUM_EXPIRY (R193, R211). -/
def execQuantumExpiry (t : TAt) (s : State) : Out :=
  event s (s.tileOn t)
    (s.live t.die && s.residentIs t .running && (s.occOf t).phase == .none && (s.occOf t).inc.isNone) (doQuantumExpiry t s)

/-! ## The switch (Table 8-4) -/

/-- One array of the tile is fenced (R199). -/
def Die.halfFenced (x : Die) (k : TileKind) (t : Nat) : Bool :=
  match k with
  | .matrix => x.isFenced 2 (2 * t) || x.isFenced 2 (2 * t + 1)
  | .vector => false

/-- CONTEXT_SWITCH (R195, R196 steps 1 and 2): a context is to come in, an array of the tile is fenced (R199), or a test waits
for a tile whose resident is WAITING (R211). -/
def execContextSwitch (t : TAt) (s : State) : Out :=
  let o := s.occOf t
  event s (s.tileOn t)
    (s.live t.die && o.phase == .none && (s.residentIs t .running || s.residentIs t .waiting) &&
      (o.inc.isSome || (s.die t.die).halfFenced t.kind t.tile || (o.drain && s.residentIs t .waiting)))
    (s.modDie t.die fun x => x.startSwitch t.kind t.tile)

/-- A request of an ATTEND that has not failed waits to be sent again (R85), or its partial waits for an earlier one (R78): a
partial is still to be merged. -/
def Att.unmerged (t : Att) : Bool :=
  t.fail.isNone && ((t.entries.any fun e => e.st == 2 || e.st == 3) || t.appends.any fun e => e.st == 2)

/-- An array has quiesced (R195): every finished MATMUL has written its output and every finished bank is read, every partial owed to
an open ATTEND is merged. -/
def Arr.quiet (r : Arr) : Bool :=
  r.runs.all (fun u => !u.read && decide (u.tilesDone ≤ u.outTile)) && r.atts.all fun t => !t.owed && !t.unmerged

/-- An array as an image holds it (R140): blocks are loaded again on restore, a staggered pass keeps its row. -/
def Arr.saved (r : Arr) : Arr :=
  { r with
    runs := r.runs.map fun u => { u with loadIx := u.passIx, token := true }
    front := [], back := [], badLoad := [] }

/-- Blocks of a slot that an array loaded and its descriptors have not streamed: the slot's progress goes back by them. -/
def Die.rewindSlots (x : Die) (m : Nat) (r : Arr) : Die :=
  r.runs.foldl (fun x u =>
    if mmSrc u.desc then x.modTSlot m (dw u.desc 5 3 0) fun q =>
      { q with taken := q.taken - (u.loadIx - u.passIx), swapped := q.swapped - b2n (!u.token) }
    else x) x

/-- The declared part of a local memory. -/
def declaredPart (m : Memory) (n : Nat) : Memory := m.filter fun c => decide (c.1 < n)

/-- The image of a tile's resident (Table 7-11, R140, R184). -/
def Die.imageOf (x : Die) (k : TileKind) (t declared : Nat) : Image :=
  match k with
  | .vector => .vec (x.vtile t).core (declaredPart (x.vtile t).mem declared)
  | .matrix => .mat (x.mtile t).a.saved (x.mtile t).b.saved (declaredPart (x.mtile t).mem declared)

/-- The tile has quiesced. -/
def Die.tileQuiet (x : Die) (k : TileKind) (t : Nat) : Bool :=
  match k with
  | .vector => true
  | .matrix => (x.mtile t).a.quiet && (x.mtile t).b.quiet

/-- The bursts in flight have landed (R158), and the image is written (R196 step 3). -/
def Die.saveImage (x : Die) (k : TileKind) (t : Nat) : Die :=
  match x.resident k t with
  | none => x
  | some (c, y) =>
    let x0 := { x with streams := tmapv x.streams fun n q => if y.streams.contains n then { q with flight := [] } else q }
    let x1 := (x0.modOcc k t fun o => { o with phase := .saving }).modCtx c fun y => { y with image := x.imageOf k t y.declared }
    match k with
    | .vector => x1
    | .matrix => (x1.rewindSlots (2 * t) (x.mtile t).a).rewindSlots (2 * t + 1) (x.mtile t).b

/-- The tile has quiesced: its resident's image is written, or the rinse follows where there is none to save (R196). -/
def Die.quiesced (x : Die) (k : TileKind) (t : Nat) : Die :=
  if (x.tileOcc k t).res.isNone || (x.tileOcc k t).after.isSome then x.modOcc k t fun o => { o with phase := .rinsing }
  else x.saveImage k t

/-- QUIESCE_DONE (R195, R196 step 3). -/
def execQuiesceDone (t : TAt) (s : State) : Out :=
  event s (s.tileOn t) (s.live t.die && (s.occOf t).phase == .quiescing && (s.die t.die).tileQuiet t.kind t.tile)
    (s.modDie t.die fun x => x.quiesced t.kind t.tile)

/-- The resident has left the tile, which is rinsed next. -/
def Die.leave (x : Die) (k : TileKind) (t c : Nat) : Die :=
  (x.modOcc k t fun o => { o with res := none, phase := .rinsing, retried := false, after := none }).modCtx c fun y =>
    { y with tile := none, lastTile := some t }

/-- The place of a second attempt (R199): the same pseudo-channel, or another of the region with room. -/
def Die.retryPlace (x : Die) (y : Ctx) : Option Nat :=
  if y.imgBytes ≤ x.imgFree y.region y.imgPc then some y.imgPc else x.imgPlace y.region y.imgBytes

/-- The resident's image was checked (R196 step 4, R199): READY, or WAITING if its wait stands; FAILED if its knot's owner was
lost meanwhile (R211), if no channel holds its image (R188) or if two attempts failed. -/
def State.saved (s : State) (t : TAt) (ok : Bool) : State :=
  match (s.die t.die).resident t.kind t.tile with
  | none => s
  | some (c, y) =>
    let d := t.die
    let out (s : State) : State := s.modDie d fun x => x.leave t.kind t.tile c
    if !((s.die d).chanUp (8 * y.region + y.imgPc)) then (out s).failCtx d c .unitFenced
    else if ok then
      if y.failSt != .ok then (out s).failCtx d c y.failSt
      else if y.wait.isSome then (out s).modCtx d c fun y => { y with st := .waiting }
      else (out s).makeReady d c
    else if (s.occOf t).retried then (out s).failCtx d c .unitFenced
    else
      match (s.die d).retryPlace y with
      | none => (out s).failCtx d c .unitFenced
      | some pc => s.modDie d fun x =>
          ((x.modOcc t.kind t.tile fun o => { o with retried := true }).modCtx c fun y => { y with imgPc := pc }).count
            cxSaveRetries 0 1

/-- A rinse (R197): registers, queues and local memory; the thread slots stay. -/
def Die.rinse (x : Die) (k : TileKind) (t : Nat) : Die :=
  match k with
  | .vector => x.modVTile t fun _ => VTile.reset
  | .matrix => x.modMTile t fun m => { MTile.reset with slots := m.slots }

/-- A context that halted leaves its tile (Table 8-3): CREATED with its streams ended (R158), or FAILED. -/
def State.leaveHalted (s : State) (t : TAt) (st : CtxState) : State :=
  match (s.die t.die).resident t.kind t.tile with
  | none => s
  | some (c, y) =>
    let s1 := s.modDie t.die fun x => x.leave t.kind t.tile c
    if st == .failed then s1.failCtx t.die c y.failSt
    else ((s1.endCtx t.die c .ok).modDie t.die fun x => x.endStreams y).modCtx t.die c fun y =>
      { y with st := .created, image := .none, wait := none, woken := false, streams := [] }

/-- A drained tile is fenced for the test that waits for it (R211, Table 18-8). -/
def State.fenceForTest (s : State) (d : Nat) (k : TileKind) (t : Nat) : State :=
  let o := (s.die d).tileOcc k t
  if o.drain && o.res.isNone && o.phase == .none && thas (s.die d).tests (unitKey (tileUnit k) t) then s.fenceTile d k t 5 else s

/-- The rinse is done (R196 step 5): the next context comes in, or the tile is empty. -/
def doRinseDone (t : TAt) (s : State) : State :=
  let s1 := s.modDie t.die fun x => x.rinse t.kind t.tile
  let s2 := match (s.occOf t).after with
    | some st => s1.leaveHalted t st
    | none => s1
  let s3 := s2.modDie t.die fun x => x.modOcc t.kind t.tile fun o =>
    { o with after := none, phase := if o.inc.isSome then .restoring else .none }
  s3.fenceForTest t.die t.kind t.tile

/-- An image into the tile; a context without one starts on its rinsed tile. -/
def Die.loadImage (x : Die) (k : TileKind) (t : Nat) (i : Image) : Die :=
  match k, i with
  | .vector, .vec core mem => x.modVTile t fun _ => { mem := mem, core := core, time := VTime.reset }
  | .matrix, .mat a b mem => x.modMTile t fun m => { m with a := a, b := b, mem := mem }
  | .vector, .none => x
  | .vector, .mat _ _ _ => x
  | .matrix, .none => x
  | .matrix, .vec _ _ => x

/-- The slots of a restored context gap-fill (R148); on another tile than before they stand there with its progress. -/
def Die.gapFill (x : Die) (t : Nat) (y : Ctx) : Die :=
  let one (x : Die) (a : Nat) : Die :=
    let m := 2 * t + a
    let old := match y.lastTile with
      | some u => if u = t then [] else (x.slotsOf (2 * u + a) y.disp).filterMap fun n =>
          (x.tslot (2 * u + a) n).map fun (q : TSlot) => (n, q)
      | none => []
    let x1 := old.foldl (fun (x : Die) (e : Nat × TSlot) =>
      if (x.tslot m e.1).isNone then x.setTSlot m e.1 { e.2 with entries := [], detached := true } else x) x
    (x1.slotsOf m y.disp).foldl (fun x n => match x.tslot m n with
      | some q => if q.detached then x.gapSlot (m, n) else x
      | none => x) x1
  one (one x 0) 1

/-- The incoming context runs (R196 steps 6 and 7, R158). -/
def State.restore (s : State) (t : TAt) (c : Nat) (y : Ctx) : State :=
  let (n, s1) := s.tick
  s1.modDie t.die fun x =>
    let x1 := x.loadImage t.kind t.tile y.image
    let x2 := match t.kind with
      | .vector => x1
      | .matrix => match y.image with
        | .mat _ _ _ => x1.gapFill t.tile y
        | .none => x1
        | .vec _ _ => x1
    let x3 := (x2.modOcc t.kind t.tile fun o => { o with res := some c, inc := none, phase := .none }).modCtx c fun y =>
      { y with st := .running, tile := some t.tile, lastTile := some t.tile, image := .none, quantNo := n, wait := none,
               woken := false }
    let x4 := y.streams.foldl (fun (x : Die) (k : Nat) => match tfind x.streams k with
      | some q => { x with streams := tput x.streams k { q with stopped := false } }
      | none => x) x3
    (x4.count cxSwitches 0 1).act 7 y.payer (8 * y.imgBytes)

/-- RESTORE_DONE's work; an unreadable image fails the context and the tile is rinsed again (R199). -/
def doRestoreDone (t : TAt) (bad : Bool) (s : State) : State :=
  match (s.occOf t).inc with
  | none => s
  | some c =>
    match (s.die t.die).ctx c with
    | none => s
    | some y =>
      if bad then
        (s.modDie t.die fun x => x.modOcc t.kind t.tile fun o => { o with inc := none, phase := .rinsing }).failCtx t.die c
          .unitFenced
      else s.restore t c y

/-- RESTORE_DONE (R196 steps 6 and 7): the tile's region is awake. -/
def execRestoreDone (t : TAt) (imageBad : Bool) (s : State) : Out :=
  event s (s.tileOn t)
    (s.live t.die && (s.occOf t).phase == .restoring && (s.occOf t).inc.isSome &&
      ((s.die t.die).region (tileRegion t.kind t.tile)).power == .awake)
    (doRestoreDone t imageBad s)

/-! ## COMPLETION_RING_DRAIN (R190) -/

/-- Firmware drains the ring into the reply of the dispatch; writers that waited write their records. -/
def doRingDrain (d c : Nat) (s : State) : State :=
  match (s.die d).ctx c with
  | none => s
  | some y => (s.drained d c y.ring).modCtx d c fun y => { y with ring := y.ringWait.take 256, ringWait := y.ringWait.drop 256 }

/-- COMPLETION_RING_DRAIN (R190). -/
def execCompletionRingDrain (die ctx : Nat) (s : State) : Out :=
  let full : Bool := match (s.die die).ctx ctx with
    | some y => !y.ring.isEmpty
    | none => false
  event s (decide (die < s.dieCount) && decide (ctx < 4096)) (s.live die && full) (doRingDrain die ctx s)

end Sys2Proof.Machine
end

