-- ==== Sys2Proof/Machine/SelfTest.lean ====
section
/-! DEFINITION. TEST_RUN and the end of a test (R446 to R448, Table 18-8). -/

namespace Sys2Proof.Machine

/-- The unit kinds that TEST_RUN knows (Table 18-8). -/
def testKinds : List Nat := [1, 3, 4, 5, 6, 7, 8, 10, 13, 16]

/-- The tests of a kind: 0 self-test, 1 calibration, 2 link retrain. -/
def testOkFor (kind test : Nat) : Bool :=
  if kind = 1 ∨ kind = 3 ∨ kind = 5 ∨ kind = 6 then decide (test < 2)
  else if kind = 10 then test == 0 || test == 2
  else if kind = 13 then test == 2
  else test == 0

/-- The checks of a TEST_RUN (R446). -/
def State.chkTest (s : State) (die kind unit test : Nat) : Option (Status × Nat) :=
  let iso := match unitRegion kind (ctrUnit kind unit) with
    | some r => ((s.die die).region r).isolated
    | none => false
  firstOf [badAt (decide (s.dieCount ≤ die)) 0, badAt (!(testKinds.contains kind)) 1, badAt (!(unitOn die kind unit)) 2,
    badAt (!(testOkFor kind test)) 4, refuseIf (s.die die).lost .unitFenced (fencedDetail 0x0F die die),
    refuseIf iso .unitFenced (fencedDetail kind die unit)]

/-- ACTIVE channels of a controller. -/
def Die.activeChans (x : Die) (m : Nat) : Nat :=
  ((mcChans m).filter fun c => (if c < 64 ∧ c % 2 = 1 then (x.mc m).ch1 else (x.mc m).ch0) == .active).length

/-- The controller that a unit kind and number name. -/
def mcOf (kind unit : Nat) : Nat := if kind = 5 then unit else 32 + unit

/-- A test begins (Table 18-8): a tile drains, a controller takes extra pauses, a link goes DOWN or through DETECT. Wringers
and routers drain behind an epoch switch. -/
def State.startTest (s : State) (p : Pkt) (die kind unit test : Nat) : State :=
  let u := ctrUnit kind unit
  let s1 := s.modDie die fun x =>
    { x with tests := tput x.tests (unitKey kind u) { pkt := p, test := test, passed := false } }
  if kind = 1 then
    (s1.modDie die fun x => x.modOcc .matrix u fun o => { o with drain := true }).fenceForTest die .matrix u
  else if kind = 3 then
    (s1.modDie die fun x => x.modOcc .vector u fun o => { o with drain := true }).fenceForTest die .vector u
  else if kind = 5 ∨ kind = 6 then
    s1.modDie die fun x => x.modMC (mcOf kind u) fun m => { m with extra := m.extra + x.activeChans (mcOf kind u) }
  else if kind = 10 then if test = 2 then s1.linkRetrain die u else s1.linkDown die u
  else s1

/-- TEST_RUN, once the unit is under no other test (R446). -/
def State.runTest (s : State) (i : Instr) (p : Pkt) (die kind unit test : Nat) : State :=
  match s.chkTest die kind unit test with
  | some (st, det) => s.refuse 0x0710 p st det
  | none =>
    if thas (s.die die).tests (unitKey kind (ctrUnit kind unit)) then s.park i else s.startTest p die kind unit test

/-- TEST_RUN_SELF_TEST (R446, R447). -/
def execTestRunSelfTest (p : Pkt) (die kind unit : Nat) (s : State) : Out :=
  gate 0x0710 .m p (s.runTest (.testRunSelfTest p die kind unit) p die kind unit 0) s

/-- TEST_RUN_CALIBRATION (R446, R341). -/
def execTestRunCalibration (p : Pkt) (die kind unit : Nat) (s : State) : Out :=
  gate 0x0710 .m p (s.runTest (.testRunCalibration p die kind unit) p die kind unit 1) s

/-- TEST_RUN_LINK_RETRAIN (R372, R316). -/
def execTestRunLinkRetrain (p : Pkt) (die kind unit : Nat) (s : State) : Out :=
  gate 0x0710 .m p (s.runTest (.testRunLinkRetrain p die kind unit) p die kind unit 2) s

/-- The test of a unit can end: tiles, wringers and routers are fenced first, a controller has taken its extra pauses, a link
that is said to have retrained is up. -/
def State.testCanEnd (s : State) (d kind u : Nat) (t : TestRec) (pass : Bool) : Bool :=
  let x := s.die d
  !t.passed &&
    (if kind = 1 ∨ kind = 3 ∨ kind = 4 ∨ kind = 7 ∨ kind = 8 then x.isFenced kind u
     else if kind = 5 ∨ kind = 6 then decide ((x.mc (mcOf kind u)).extra = 0)
     else if kind = 10 ∧ t.test = 2 ∧ pass then (x.felt u).st == .active || (x.felt u).st == .idle || (x.felt u).st == .folded
     else true)

/-- A cell of a matrix tile failed self-test: its array is fenced (R112). Which arrays have such a cell is open (log entry 77). -/
def State.arraysFail (s : State) (d t : Nat) : State :=
  let (n, s1) := s.freeNat
  let one (s : State) (a : Nat) : State := s.fenceArray { die := d, tile := t, arr := a, err := 0 } 2
  if n % 3 = 0 then one s1 0 else if n % 3 = 1 then one s1 1 else one (one s1 0) 1

/-- A unit that failed its test: fenced with cause 2, or kept fenced with that cause reported (R447). -/
def State.testFails (s : State) (d kind u : Nat) : State :=
  let region := unitRegion kind u
  if (s.die d).isFenced kind u then
    let s1 := (s.modDie d fun x => { x with fenced := tput x.fenced (unitKey kind u) 2 }).emit
      { fenceEvent d kind u 2 with region := region.getD 0xFF }
    if kind = 1 then s1.arraysFail d u
    else if kind = 7 then s1.gateError (spotOf d u) 2 else if kind = 8 then s1.gateError (spotOf d (128 + u)) 2 else s1
  else if kind = 5 ∨ kind = 6 then (mcChans (mcOf kind u)).foldl (fun s c => s.loseChannel d c 2) (s.fence d kind u 2 region)
  else if kind = 10 then (s.linkDown d u).fence d kind u 2 region
  else if kind = 13 then (doUcieRetrain d (u / 4) (u % 4) false s).fence d kind u 2 none
  else if kind = 16 then s.selfCheck d false
  else s.fence d kind u 2 region

/-- A test ends (R446 to R448): a fenced unit that passed waits for the epoch switch that returns it, another one is in
service at once; the reply says how it went. -/
def doTestDone (d kind unit : Nat) (pass : Bool) (s : State) : State :=
  let u := ctrUnit kind unit
  let key := unitKey kind u
  match tfind (s.die d).tests key with
  | none => s
  | some t =>
    if pass && (s.die d).isFenced kind u then
      s.modDie d fun x => { x with tests := tput x.tests key { t with passed := true } }
    else
      let s1 := s.modDie d fun x => { x with tests := tdel x.tests key }
      if pass then
        let s2 := if kind = 10 ∧ t.test = 0 then s1.returnPort d u
          else if kind = 13 then doUcieRetrain d (u / 4) (u % 4) true s1
          else if kind = 16 then s1.selfCheck d true else s1
        s2.testReply t.pkt 0 (if kind = 10 ∧ t.test = 2 then ((s.die d).felt u).rate else 0)
      else
        ((s1.testFails d kind u).modDie d fun x =>
          if kind = 1 then x.modOcc .matrix u fun o => { o with drain := false }
          else if kind = 3 then x.modOcc .vector u fun o => { o with drain := false } else x).testReply t.pkt 1 0

/-- TEST_DONE can come about. -/
def State.testDue (s : State) (d kind unit : Nat) (pass : Bool) : Bool :=
  let u := ctrUnit kind unit
  s.live d && match tfind (s.die d).tests (unitKey kind u) with
    | some t => s.testCanEnd d kind u t pass
    | none => false

end Sys2Proof.Machine
end

