-- ==== Sys2Proof/Machine/MemCtl.lean ====
section
/-! DEFINITION. The memory controllers (chapter 13): accesses, refresh, scrub, training pauses. -/

namespace Sys2Proof.Machine

/-- The units of a controller: 0 to 31 HMC, 32 to 47 LMC (R349). -/
def State.mOn (s : State) (d m : Nat) : Bool := decide (d < s.dieCount) && decide (m < 48)

/-- `s` with `f` applied to a controller. -/
def State.modMC (s : State) (d m : Nat) (f : MC → MC) : State := s.modDie d fun x => x.modMC m f

/-- A channel of the controller is ACTIVE. -/
def Die.mcActive (x : Die) (m : Nat) : Bool := (mcChans m).any fun c => x.chanState c == .active

/-! ## MEMORY_ACCESS (R331 to R336, R338, R339, R346 to R348) -/

/-- A request that this controller can be asked: one of its channels, a 64-byte unit of its data, 64 bytes of write data. -/
def reqOn (m : Nat) (q : MReq) : Bool :=
  (mcChans m).contains q.chan && q.off % 64 == 0 && decide (q.off < chanFrames q.chan * 524288) &&
    match q.wdata with
    | some b => b.length == 64
    | none => true

/-- The tweak of a byte of a request (Table 13-2). -/
def reqTweak (q : MReq) (d i : Nat) : Nat :=
  match q.sheet with
  | some (h, o) => sheetTweak d h ((o + i) / 16)
  | none => placeTweak d q.chan (q.off + i)

/-- The status an uncorrectable or lost access has for its requester (R336): the wringer's answer is STATE_LOST. -/
def reqFail (q : MReq) : Status :=
  match q.who with
  | .wringer _ => .stateLost
  | .mover => .unitFenced
  | .stream _ => .unitFenced
  | .threadHead _ => .unitFenced
  | .image _ => .unitFenced
  | .rtp _ => .unitFenced
  | .firmware => .unitFenced

/-- The outcome reaches the requester. -/
def State.mcDone (s : State) (d m : Nat) (q : MReq) (st : Status) (data : List Byte) : State :=
  s.modMC d m fun g => { g with done := g.done ++ [{ who := q.who, status := st, data := data }] }

/-- SEALING_FAULT of a request with an EMPTY slot (R332, R442): a wringer's endpoint is its node, another requester's is open
(log entry 10). -/
def State.mcSealFault (s : State) (d : Nat) (q : MReq) : State :=
  match q.who with
  | .wringer w => s.wringSealFault d w q.slot
  | _ =>
    let (n, s1) := s.freeNat
    s1.emit { Event.blank 0x0014 8 1 .authFail with
      die := d, region := chanRegion q.chan, arg0 := q.slot, arg1 := d * 256 + n % 256 }

/-- The mover copies what is stored and names no slot (R332). -/
def reqNoSlot (q : MReq) : Bool :=
  match q.who with
  | .mover => true
  | .wringer _ => false
  | .stream _ => false
  | .threadHead _ => false
  | .image _ => false
  | .rtp _ => false
  | .firmware => false

/-- Who pays for a request at a controller (R332, R392): a stream's context, the mover the device account, any other the tenant of
the slot it names. -/
def Die.reqPayer (x : Die) (q : MReq) : Payer :=
  match q.who with
  | .mover => .device
  | .stream n => match (tfind x.streams n).bind fun z => x.ctx z.ctx with
    | some y => y.payer
    | none => x.slotPayer q.slot
  | .wringer _ => x.slotPayer q.slot
  | .threadHead _ => x.slotPayer q.slot
  | .image _ => x.slotPayer q.slot
  | .rtp _ => x.slotPayer q.slot
  | .firmware => x.slotPayer q.slot

/-- A corrected storage error (R333, R335, R445). -/
def State.mcCorrected (s : State) (d m : Nat) (ctr : Ctr) (n : Nat) : State :=
  let u := mcUnit m
  (s.modDie d fun x => (x.modMC m fun g => { g with ceSeen := true }).countMC ctr m n).corrected d u.1 u.2 n 64 none
    (some (ctlRegion m))

/-- A sheet in a frame moves away, if the mover may copy it (R336 step 1; log entry 39). -/
def State.moveAway (s : State) (d c f : Nat) : State :=
  match (s.die d).sheetAt c f with
  | none => s
  | some (h, e) =>
    if s.movable d h then
      match s.placeFor d e e.loc.tier fun c1 f1 => c1 != c || f1 != f with
      | some l => s.moveSheet d h l
      | none =>
        match s.placeFor d e (!e.loc.tier) fun _ _ => true with
        | some l => s.moveSheet d h l
        | none => s
    else s

/-- A weak report of a frame (R333, R336): the second within 24 hours retires it. -/
def State.weakReport (s : State) (d c f : Nat) : State :=
  let m := chanMC c
  let now := (s.die d).led.cycN.toNat
  let last := tget ((s.die d).mc m).weak (frameKey c f) 0
  let s1 := s.modMC d m fun g => { g with weak := tput g.weak (frameKey c f) (now + 1) }
  if last = 0 ∨ last + 86400 * nclkSecond < now then s1 else (s1.moveAway d c f).retire d c f 2

/-- What the storage or the link reports on an access that moved data (Table 13-3, R334, R335): the effects on counters and
frames, and whether the access is uncorrectable. -/
def State.mcReport (s : State) (d m : Nat) (q : MReq) (r : MemReport) : State × Bool :=
  let f := q.off / 524288
  let s1 := if r.linkFails = 0 then s else s.modDie d fun x => x.countMC mcLinkRetry m 1
  if 2 ≤ r.linkFails ∨ (q.wdata.isNone ∧ r.severity = 3) then (s1.frameUe d q.chan f, true)
  else if q.wdata.isNone ∧ r.severity ≠ 0 then
    let s2 := s1.mcCorrected d m mcCe 1
    (if r.severity = 2 ∧ m < 32 then s2.weakReport d q.chan f else s2, false)
  else (s1, false)

/-- The granted request is performed: an EMPTY slot, a dropped segment or a lost channel move no data, else 64 bytes are read or
written under the request's key and tweak. -/
def State.perform (s : State) (d m : Nat) (q : MReq) (r : MemReport) : State :=
  let x := s.die d
  let a := q.chan * 2 ^ 36 + q.off
  if !(x.chanUp q.chan) then s.mcDone d m q .unitFenced []
  else if 64 ≤ q.chan ∧ x.dropped.getLsbD (q.off / 524288 / 2880) = true then s.mcDone d m q .stateLost []
  else if !(reqNoSlot q) && !(x.slotLoaded q.slot) then (s.mcSealFault d q).mcDone d m q .authFail []
  else if r.linkFails = 3 then (s.loseChannel d q.chan 1).mcDone d m q .unitFenced []
  else if r.severity = 4 then ((mcChans m).foldl (fun s c => s.loseChannel d c 1) s).mcDone d m q .unitFenced []
  else
    let p := s.mcReport d m q r
    if p.2 then p.1.mcDone d m q (reqFail q) []
    else
      let y := p.1.die d
      match q.wdata with
      | none =>
        let data := if reqNoSlot q then mreadN y.dram a 64 else y.readSealed a 64 (y.keyOf q.slot) (reqTweak q d)
        (p.1.modDie d fun x => (x.countMC mcReadBytes m 64).memAct q.chan (x.reqPayer q) 64).mcDone d m q .ok data
      | some b =>
        (p.1.modDie d fun x =>
          ((if reqNoSlot q then { x with dram := mwriteN x.dram a b } else x.writeSealed a (x.keyOf q.slot) (reqTweak q d) b).countMC
            mcWriteBytes m 64).memAct q.chan (x.reqPayer q) 64).mcDone d m q .ok []

/-- An activation that refresh management holds back (R339). -/
def MC.held (g : MC) (m : Nat) (act : Option Nat) : Bool :=
  match act with
  | some b => (decide (32 ≤ m) || g.rfmReq) && decide (g.rfmMax < tget g.rfm b 0 + 1)
  | none => false

/-- The count of an activation (R339). -/
def MC.activate (g : MC) (m : Nat) (act : Option Nat) : MC :=
  match act with
  | some b => if 32 ≤ m ∨ g.rfmReq = true then { g with rfm := tmod g.rfm b 0 (· + 1) } else g
  | none => g

/-- Requests arrive and one is granted, unless the grant is a wringer's remote read's (R81); `act` is the bank it activates, none where its row is open. -/
def doMemoryAccess (d m : Nat) (arrivals : List MReq) (act : Option Nat) (r : MemReport) (s : State) : State :=
  let s1 := s.modMC d m fun g => { g with queue := g.queue ++ arrivals.map fun q => { req := q, waited := 0 } }
  let g := (s1.die d).mc m
  match s1.mcNext d m with
  | none => s1
  | some (i, w) =>
    if g.queue.length ≤ i then s1
    else if g.held m act then s1.modMC d m fun g => { g with rfmHold := true }
    else
      let pan := (s1.die d).mcPanic m && reqIsPort w.req
      let s2 := s1.modMC d m fun g => (g.afterAccess (s1.remoteAsks d m) i pan w).activate m act
      let s3 := if pan then s2.modDie d fun x => x.countMC mcPanicGrants m 1 else s2
      s3.perform d m w.req r

/-- The controller serves: in a powered region, with a channel trained once, no refresh ahead of everything. -/
def State.mcServes (s : State) (d m : Nat) : Bool :=
  s.live d && s.tileNetUp d (ctlRegion m) && !(((s.die d).mc m).refreshDue)

/-- MEMORY_ACCESS (R333). Requests arrive only within the die's transactions in flight (R16). A request for a channel of a region
whose down port is closed waits and wakes the region (R82, R320, R351). -/
def execMemoryAccess (die mc : Nat) (arrivals : List MReq) (act : Option Nat) (rep : MemReport) (s : State) : Out :=
  event s (s.mOn die mc)
    ((s.mcServes die mc || (s.live die && ((s.die die).region (ctlRegion mc)).closed && !arrivals.isEmpty)) && arrivals.all (reqOn mc) && decide (s.inFlight die + arrivals.length ≤ 16384 ∨ arrivals = []) && !(arrivals.isEmpty && ((s.die die).mc mc).queue.isEmpty))
    (if s.mcServes die mc then doMemoryAccess die mc arrivals act rep s
    else s.modDie die fun x => (x.modMC mc fun g =>
      { g with queue := g.queue ++ arrivals.map fun q => { req := q, waited := 0 } }).modRegion (ctlRegion mc) Region.reach)

/-- The check unit of an LPDDR5X block of 15 data units (R334): four check bytes for each, and four bytes of zero. -/
def checkUnit (units : List (List Byte)) : List Byte := (units.take 15).flatMap (fun u => le 4 (Config.lpCheck u).toNat) ++ zeros 4

/-! ## Refresh and refresh management (R338, R339) -/

/-- A bank's refresh: postponed by one interval more, or issued, whereupon the rolling count falls by what the standard lays
down. -/
def MC.refresh (g : MC) (bank : Nat) (postpone : Bool) (reduce : Nat) : MC :=
  if postpone then { g with postponed := tmod g.postponed bank 0 (· + 1) }
  else { g with postponed := tdel g.postponed bank, rfm := tmod g.rfm bank 0 (· - reduce) }

/-- REFRESH (R338): postponed by at most four intervals. -/
def execRefresh (die mc bank : Nat) (postpone : Bool) (reduce : Nat) (s : State) : Out :=
  event s (s.mOn die mc)
    (s.live die && (s.die die).mcActive mc && !(postpone && decide (4 ≤ tget ((s.die die).mc mc).postponed bank 0)))
    (s.modMC die mc fun g => g.refresh bank postpone reduce)

/-- RFM_ISSUE (R339): the count has reached the initial threshold of devices that want refresh management. -/
def execRfmIssue (die mc bank : Nat) (reduce : Nat) (s : State) : Out :=
  let g := (s.die die).mc mc
  event s (s.mOn die mc)
    (s.live die && (s.die die).mcActive mc && (decide (32 ≤ mc) || g.rfmReq) && decide (g.rfmInit ≤ tget g.rfm bank 0) &&
      decide (1 ≤ tget g.rfm bank 0))
    (s.modDie die fun x =>
      (x.modMC mc fun g => { g with rfm := tmod g.rfm bank 0 (· - reduce) }).countMC mcRfm mc 1)

/-! ## Scrub (R337) -/

/-- Blocks of 1,024 bytes raw, 960 of data, in one segment of a channel (R334, R344). -/
def segBlocks : Nat := 1572864

/-- The next block of a patrol at or after block `b` (wrapping) that lies in a refreshed segment. -/
def patrolFrom (dropped : BitVec 8) : Nat → Nat → Option Nat
  | 0, _ => none
  | n + 1, b =>
    let c := b % (8 * segBlocks)
    if dropped.getLsbD (c / segBlocks) then patrolFrom dropped n ((c / segBlocks + 1) * segBlocks) else some c

/-- The block an LPDDR5X controller scrubs next. -/
def Die.patrolNext (x : Die) (lc : Nat) : Option Nat := patrolFrom x.dropped 9 (x.mc (32 + lc)).scrub

/-- A block is read, its corrected units written back; an uncorrectable one follows R336 with no requester. -/
def doPatrolScrub (d lc sev b : Nat) (s : State) : State :=
  let m := 32 + lc
  let s1 := (s.modMC d m fun g => { g with scrub := (b + 1) % (8 * segBlocks) }).modDie d fun x => x.memAct (64 + lc) .device 1024
  if sev = 0 then s1
  else if sev = 3 then s1.frameUe d (64 + lc) (960 * b / 524288)
  else s1.mcCorrected d m mcScrubCorr 1

/-- PATROL_SCRUB (R337): of an ACTIVE channel; it pauses in self-refresh. -/
def execPatrolScrub (die lc : Nat) (severity : Nat) (s : State) : Out :=
  match (s.die die).patrolNext lc with
  | some b => event s (decide (die < s.dieCount) && decide (lc < 16))
      (s.live die && (s.die die).chanState (64 + lc) == .active) (doPatrolScrub die lc severity b s)
  | none => event s (decide (die < s.dieCount) && decide (lc < 16)) false s

/-- HBM_SCRUB_POLL (R337): the stack's hourly report. -/
def execHbmScrubPoll (die mc corrections : Nat) (s : State) : Out :=
  event s (decide (die < s.dieCount) && decide (mc < 32)) (s.live die && (s.die die).mcActive mc)
    (s.modDie die fun x => x.countMC mcScrubCorr mc corrections)

/-! ## Training pauses (R341, R342) -/

/-- One pause of a channel: in range it adjusts, out of range it schedules another; the third failure in succession loses the
channel (R342). It serves an extra pause that a test asked for (R341). -/
def doRetrainPause (d c : Nat) (inRange : Bool) (nclk : Nat) (s : State) : State :=
  let m := chanMC c
  let fails := if inRange then 0 else tget ((s.die d).mc m).pauseFails c 0 + 1
  let s1 := s.modDie d fun x =>
    ((x.modMC m fun g => { g with pauseFails := tput g.pauseFails c fails, extra := g.extra - 1 }).countMC mcPauses m 1).countMC
      mcPauseNclk m nclk
  if 3 ≤ fails then s1.loseChannel d c 1 else s1

/-- RETRAIN_PAUSE (R341): an ACTIVE channel, at most 400 ns (586 NCLK cycles). -/
def execRetrainPause (die chan : Nat) (inRange : Bool) (nclk : Nat) (s : State) : Out :=
  event s (decide (die < s.dieCount) && decide (chan < 80))
    (s.live die && (s.die die).chanState chan == .active && decide (nclk ≤ 586))
    (doRetrainPause die chan inRange nclk s)

end Sys2Proof.Machine
end

