-- ==== Sys2Proof/Machine/Queues.lean ====
section
/-! DEFINITION. Queues and the host port: QUEUE_CREATE to DEVICE_INFO, the queue control blocks, doorbells, replies, events,
resets of functions (R212 to R237, R374 to R378, R465). -/

namespace Sys2Proof.Machine

/-! ## The control block (Tables 9-3 to 9-8, R218, R405) -/

/-- QIRQ as it reads. -/
def Queue.irqWord (x : Queue) : Nat := x.coalUs * 2 ^ 20 + x.coalCount * 2 ^ 12 + 2048 * b2n x.irqEn + x.vector

/-- The word at byte `o` of queue `q`'s control block. -/
def State.qcbRead (s : State) (q o : Nat) : Nat :=
  let x := s.queue q
  if o = 0x00 then x.rd * 2 ^ 16
  else if o = 0x04 then x.stat
  else if o = 0x08 then x.expSeq.toNat
  else if o = 0x0C then bitsOf x.base.toNat 31 12 * 4096
  else if o = 0x10 then bitsOf x.base.toNat 63 32
  else if o = 0x14 then 256 * b2n (x.st != .disabled) + x.log2size
  else if o = 0x18 then x.head
  else if o = 0x1C then 2 ^ 31 * b2n x.phase + x.tail
  else if o = 0x20 then x.irqWord
  else 0

/-- Units that the window holds (R216). -/
def Queue.winHeld (x : Queue) : Nat := (x.wr + 512 - x.rd) % 512

/-- A queue goes to ERROR and posts QUEUE_ERROR (R215, R442). -/
def State.queueError (s : State) (q : Nat) (f : Queue → Queue) : State :=
  let s1 := s.modQueue q fun x => { f x with st := .error }
  s1.emit (queueErrorEvent q (s1.queue q).stat)

/-- A doorbell (R217). -/
def State.ringDoorbell (s : State) (q v : Nat) : State :=
  if (s.queue q).st = .enabled then
    let s1 := s.modQueue q fun x => { x with wr := v % 512 }
    if 256 < (s1.queue q).winHeld then s1.queueError q fun x => { x with errWin := true } else s1
  else s

/-- `qreset` of queue 0 (Table 9-6): packets taken and not started are discarded, started ones complete without replies
(R236). -/
def Queue.qreset (x : Queue) : Queue :=
  { x with
    st := .disabled, rd := 0, wr := 0, head := 0, tail := 0, expSeq := 0, phase := true, coalDone := 0, asm := [], taken := [],
    started := [], life := x.life + 1, old := x.old ++ x.started.map fun t => (x.life, t), held := [] }

/-- A write of QRCTL of queue 0 (R214, R218). -/
def Queue.writeCtl (x : Queue) (v : Nat) : Queue :=
  if bitAt v 9 then x.qreset
  else if x.st = .disabled then
    let n := bitsOf v 4 0
    if bitAt v 8 && decide (19 ≤ n) && decide (n ≤ 26) then
      { x with log2size := n, st := .enabled, posted := [] }
    else { x with log2size := n }
  else x

/-- A write of QIRQ (Table 9-8). -/
def Queue.writeIrq (x : Queue) (v : Nat) : Queue :=
  { x with vector := bitsOf v 10 0, irqEn := bitAt v 11, coalCount := bitsOf v 19 12, coalUs := bitsOf v 31 20 }

/-- Low and high word of the ring base written. -/
def setBase (b : BitVec 64) (hi : Bool) (v : Nat) : BitVec 64 :=
  if hi then BitVec.ofNat 64 (v * 2 ^ 32 + b.toNat % 2 ^ 32)
  else BitVec.ofNat 64 (b.toNat / 2 ^ 32 * 2 ^ 32 + bitsOf v 31 12 * 4096)

/-- A write of the word at byte `o` of queue `q`'s control block (R218). -/
def State.qcbWrite (s : State) (q o v : Nat) : State :=
  let x := s.queue q
  let base0 := q == 0 && x.st == .disabled
  if o = 0x00 then s.ringDoorbell q v
  else if o = 0x0C ∧ base0 = true then s.setQueue q { x with base := setBase x.base false v }
  else if o = 0x10 ∧ base0 = true then s.setQueue q { x with base := setBase x.base true v }
  else if o = 0x14 ∧ q = 0 then s.setQueue q (x.writeCtl v)
  else if o = 0x18 then s.setQueue q { x with head := bitsOf v 19 0 }
  else if o = 0x20 then s.setQueue q (x.writeIrq v)
  else s

/-- A read of QSTAT clears its RC bits (R406, Table 9-5). -/
def Queue.clearStat (x : Queue) : Queue := { x with errWin := false, errFrame := false, errDie := false }

/-! ## Access of the host (R212, R376, R377) -/

/-- A host write can reach function `f`: the link is up and the function is not in D3hot (log entry 25). -/
def State.hostReaches (s : State) (f : Nat) : Bool := s.hostUp && !(s.func f).d3

/-- A memory write received. -/
def State.countIn (s : State) : State := s.modDie 0 fun x => x.count hpWritesIn 0 1

/-- A host write of a control block word: ignored where the queue belongs to another function (R212), or the function is in
D3hot. -/
def State.hostReg (s : State) (f q o v : Nat) : State :=
  let s1 := s.countIn
  if s.hostReaches f && (s.queue q).func == f then s1.qcbWrite q o v else s1

/-- A queue number and a function number of the part. -/
def queueOk (f q : Nat) : Bool := decide (f < 64) && decide (q < 8192)

/-- DOORBELL (R217). -/
def execDoorbell (func queue : Nat) (value : BitVec 32) (s : State) : Out :=
  event s (queueOk func queue) s.hostUp (s.hostReg func queue 0x00 value.toNat)

/-- QRHEAD_WRITE (R222). -/
def execQrheadWrite (func queue : Nat) (value : BitVec 32) (s : State) : Out :=
  event s (queueOk func queue) s.hostUp (s.hostReg func queue 0x18 value.toNat)

/-- QUEUE_ENABLE: a write of QRCTL of queue 0 (R214). -/
def execQueueEnable (func : Nat) (value : BitVec 32) (s : State) : Out :=
  event s (queueOk func 0) s.hostUp (s.hostReg func 0 0x14 value.toNat)

/-- QUEUE_RESET: a write of QRCTL of queue 0 (R218, R236). -/
def execQueueReset (func : Nat) (value : BitVec 32) (s : State) : Out :=
  event s (queueOk func 0) s.hostUp (s.hostReg func 0 0x14 value.toNat)

/-! ## HOST_BAR_WRITE (R376, R403) -/

/-- Bytes of a BAR (Table 14-14). -/
def barSize (bar : Nat) : Nat := if bar = 0 then 134217728 else if bar = 2 then 524288 else 65536

/-- One byte of a window (R216): dropped unless the queue is the function's and ENABLED. -/
def State.windowByte (s : State) (f a : Nat) (b : Byte) : State :=
  let q := a / 16384
  let x := s.queue q
  if x.func = f ∧ x.st = .enabled then s.setQueue q { x with window := mwrite x.window (a % 16384) b } else s

/-- Words of a BAR2 write: one aligned word, or two for 8 bytes, the lower first; any other write is ignored (R403). -/
def State.barWords (s : State) (f off : Nat) (data : List Byte) : State :=
  let one (s : State) (a : Nat) (l : List Byte) : State :=
    let q := a / 64
    if (s.queue q).func = f then s.qcbWrite q (a % 64) (leNat l) else s
  if off % 4 ≠ 0 then s
  else if data.length = 4 then one s off data
  else if data.length = 8 then one (one s off (data.take 4)) (off + 4) (data.drop 4)
  else s

/-- Vectors whose pending bit is set and whose mask bit is clear send their messages (R235). -/
def State.unmasked (s : State) (f : Nat) : State :=
  (List.range (vecCount f)).foldl (fun s v =>
    if (s.func f).pendingVec v && !((s.func f).masked v) then (s.modFunc f fun g => g.setPending v false).raiseVec f v else s) s

/-- A write of the MSI-X table; the pending bits are read-only (log entry 5). -/
def State.msixWrite (s : State) (f off : Nat) (data : List Byte) : State :=
  let n := 16 * vecCount f
  (s.modFunc f fun g => { g with bar4 := mwriteN g.bar4 off (data.take (n - off)) }).unmasked f

/-- The bytes of a host write, by BAR. -/
def State.barWrite (s : State) (f bar off : Nat) (data : List Byte) : State :=
  if bar = 0 then (data.zipIdx.foldl (fun s e => s.windowByte f (off + e.2) e.1) s)
  else if bar = 2 then s.barWords f off data
  else s.msixWrite f off data

/-- A host memory write: a poisoned one is discarded and counted (R376). -/
def doHostBarWrite (f bar off : Nat) (data : List Byte) (poisoned : Bool) (s : State) : State :=
  let s1 := s.countIn
  if poisoned then s1.modDie 0 fun x => x.count hpPoisoned 0 1
  else if s.hostReaches f then s1.barWrite f bar off data
  else s1

/-- HOST_BAR_WRITE (R212 to R218, R376). `replays`: the link replays that the write took (HP_REPLAYS, R379). -/
def execHostBarWrite (func bar off : Nat) (data : List Byte) (poisoned : Bool) (replays : Nat) (s : State) : Out :=
  event s (decide (func < 64) && (bar == 0 || bar == 2 || bar == 4) && decide (off + data.length ≤ barSize bar)) s.hostUp
    (doHostBarWrite func bar off data poisoned (s.modDie 0 fun x => x.count hpReplays 0 replays))

/-! ## QUEUE_CREATE, QUEUE_DESTROY, QUEUE_DRAINED (R212, R213, R215, R230) -/

/-- The checks of QUEUE_CREATE. -/
def chkQueueCreate (queue die cls tenant func vector : Nat) (base : BitVec 64) (log2size coalUs : Nat) (s : State) :
    Option (Status × Nat) :=
  let bind := if cls = 3 then tenant != 0xFF else !(s.hasTenant tenant)
  firstOf [badAt (queue == 0 || decide (8192 ≤ queue) || (s.queue queue).st != .disabled) 0, badAt (!(s.usable die)) 2,
    badAt (decide (3 < cls)) 3, badAt bind 4, badAt (decide (63 < func) || (cls == 3 && func != 0)) 5,
    badAt (vector != 0xFFFF && decide (vecCount func ≤ vector)) 6, badAt (base.toNat % 4096 != 0) 8,
    badAt (decide (log2size < 19) || decide (26 < log2size)) 16, badAt (decide (4095 < coalUs)) 18]

/-- The queue as it is created: ENABLED, its ring empty. -/
def newQueue (x : Queue) (die cls tenant func vector : Nat) (base : BitVec 64) (log2size coalCount coalUs : Nat)
    (first : BitVec 32) : Queue :=
  { Queue.reset with
    st := .enabled, home := die, cls := cls, tenant := tenant, func := func, base := base, log2size := log2size,
    expSeq := first, vector := if vector = 0xFFFF then 0 else vector, irqEn := vector != 0xFFFF, coalCount := coalCount,
    coalUs := coalUs, life := x.life, old := x.old }

/-- The queue is created. -/
def doQueueCreate (p : Pkt) (queue die cls tenant func vector : Nat) (base : BitVec 64)
    (log2size coalCount coalUs : Nat) (first : BitVec 32) (s : State) : State :=
  (s.modQueue queue fun x => newQueue x die cls tenant func vector base log2size coalCount coalUs first).ok 0x0E01 p

/-- QUEUE_CREATE (R212, R213, R230). -/
def execQueueCreate (p : Pkt) (queue die cls tenant func vector : Nat) (base : BitVec 64)
    (log2size coalCount coalUs : Nat) (first : BitVec 32) (s : State) : Out :=
  opcode 0x0E01 .m p (chkQueueCreate queue die cls tenant func vector base log2size coalUs s)
    (doQueueCreate p queue die cls tenant func vector base log2size coalCount coalUs first s) s

/-- A queue that QUEUE_DESTROY accepts. -/
def Queue.destroyable (x : Queue) : Bool := x.st == .enabled || x.st == .error

/-- The queue drains; the packet replies once it is DISABLED (R223). One sent on the queue itself does not wait for itself, and
its reply is discarded with the queue (log entry 26). -/
def doQueueDestroy (p : Pkt) (q : Nat) (s : State) : State :=
  let s1 := (s.drainQueue q).modQueue q fun x => { x with destroyer := some p }
  if p.queue = q then s1.complete p else s1

/-- QUEUE_DESTROY (R215, R230, R237). -/
def execQueueDestroy (p : Pkt) (queue : Nat) (s : State) : Out :=
  opcode 0x0E02 .m p
    (firstOf [badAt (queue == 0 || decide (8192 ≤ queue) || !((s.queue queue).destroyable)) 0]) (doQueueDestroy p queue s) s

/-- The queue is DISABLED: the QUEUE_DESTROY and the TENANT_DESTROY that waited for it go on. -/
def State.dropQueue (s : State) (q : Nat) : State :=
  let x := s.queue q
  let s1 := s.setQueue q x.disable
  let s2 := match x.destroyer with
    | some p => s1.ok 0x0E02 p
    | none => s1
  s2.settleTenant x.tenant

/-- QUEUE_DRAINED (R215). -/
def execQueueDrained (queue : Nat) (s : State) : Out :=
  event s (decide (queue < 8192)) (s.queue queue).drained (s.dropQueue queue)

/-! ## EVENT_CONFIG (R234) -/

/-- A queue that a function's events can go to. -/
def State.eventQueueOk (s : State) (f q : Nat) : Bool :=
  decide (q < 8192) && (s.queue q).func == f && (q == 0 || (s.queue q).st != .disabled)

/-- EVENT_CONFIG: the function's event queue and kind mask. -/
def execEventConfig (p : Pkt) (func queue : Nat) (mask : BitVec 64) (s : State) : Out :=
  opcode 0x0E03 .m p
    (firstOf [badAt (decide (63 < func)) 0, badAt (queue != 0xFFFF && !(s.eventQueueOk func queue)) 2])
    ((s.modFunc func fun g => { g with evQueue := if queue = 0xFFFF then none else some queue, mask := mask }).ok 0x0E03 p) s

/-! ## DEVICE_INFO (R465, R17) -/

/-- MAC rates in GOPS at step 0 of the grade, rounded down: `macs` multiply-accumulates per cycle and die. -/
def Part.gops (p : Part) (macs : Nat) : Nat :=
  2 * macs * p.variant.dies * (if p.gradeB then 950 else 1100) / 1000

/-- Channels of a list on a die that trained and are not lost. -/
def Die.upCount (x : Die) (l : List Nat) : Nat := (l.filter x.chanUp).length

/-- Memory of a die as it stands, in MiB (R340, R465). -/
def State.dieMib (s : State) (d : Nat) : Nat × Nat :=
  let x := s.die d
  if s.usable d then
    (1152 * x.upCount (List.range 64), if x.lpAbsent then 0 else 11520 * x.upCount ((List.range 16).map (64 + ·)))
  else (0, 0)

/-- The 160 bytes of Table 9-20. -/
def State.deviceInfo (s : State) : List Byte :=
  let p := s.part
  let n := s.dieCount
  let usable := (s.usableDies.map (2 ^ ·)).sum
  le 1 n ++ le 1 (b2n p.gradeB + 2 * b2n p.gradeI + 4 * b2n p.prov) ++ le 1 usable ++ le 1 p.silicon.toNat ++
    le 4 s.psi.fw.version.toNat ++ le 4 s.psi.fw.secVersion ++ le 1 s.psi.fwMin ++ le 1 s.psi.cfgMin ++ le 2 p.vendor ++
    le 4 (128 * n) ++ le 2 (32 * n) ++ le 2 (80 * n) ++ le 4 (983040 * n) ++ le 2 (8 * n) ++ le 2 (32 * n) ++
    le 2 (128 * n) ++ le 2 (2048 * n) ++ le 2 8192 ++ zeros 2 ++ le 4 p.variant.limitMw ++ le 4 s.psi.pMw ++
    le 4 (p.gops 262144) ++ le 4 (p.gops 131072) ++ le 4 (p.gops 65536) ++ le 4 (p.gops 40960) ++
    le 4 (73728 * n) ++ le 4 (2457600 * n) ++ le 4 (184320 * n) ++ le 4 (196608 * n) ++ le 4 (341344 * n) ++
    le 4 (258048 * n) ++ zeros 8 ++
    (List.range 8).flatMap fun d => le 4 (s.dieMib d).1 ++ le 4 (s.dieMib d).2

/-- DEVICE_INFO (R465). -/
def execDeviceInfo (p : Pkt) (s : State) : Out :=
  opcode 0x0E04 .m p none (s.finish 0x0E04 p .ok 0 s.deviceInfo []) s

/-! ## Replies, interrupts and events (R222, R227, R228, R234, R235) -/

/-- A reply can leave the wait: the ring has room and the function is in D0; or the host port is down and it is discarded. -/
def State.replyDue (s : State) (q : Nat) : Bool :=
  let x := s.queue q
  match x.held with
  | [] => false
  | r :: _ => !s.hostUp || (!(s.func x.func).d3 && x.room r.units)

/-- The oldest held reply is posted, or discarded where the host port cannot deliver it (R236). -/
def State.postReply (s : State) (q : Nat) : State :=
  match (s.queue q).held with
  | [] => s
  | r :: rest =>
    let s1 := s.modQueue q fun x => { x with held := rest }
    if s.hostUp then s1.post q ((s1.queue q).entryOf r) r.irq else s1

/-- REPLY_POST (R222, R223, R227). -/
def execReplyPost (queue : Nat) (s : State) : Out := event s (decide (queue < 8192)) (s.replyDue queue) (s.postReply queue)

/-- The coalescing timer of a queue runs (R235). -/
def Queue.timerOn (x : Queue) : Bool := x.st != .disabled && x.irqEn && x.coalUs != 0 && x.coalDone != 0

/-- The timer expires. -/
def doIrqCoalesceTimer (q : Nat) (s : State) : State :=
  let x := s.queue q
  (s.modQueue q fun x => { x with coalDone := 0 }).raiseVec x.func x.vector

/-- IRQ_COALESCE_TIMER (R235). -/
def execIrqCoalesceTimer (queue : Nat) (s : State) : Out :=
  event s (decide (queue < 8192)) (s.queue queue).timerOn (doIrqCoalesceTimer queue s)

/-- The first function with an event due. -/
def State.dueFunc (s : State) : Option Nat := least 64 s.eventDue

/-- Firmware posts a held event, or takes the oldest raised one to its functions (R234, R440). -/
def doEventPost (s : State) : State :=
  match s.dueFunc with
  | some f => s.postHeld f
  | none =>
    match s.raised with
    | [] => s
    | e :: r => let s1 := { s with raised := r }
      (s1.eventFuncs e).foldl (fun s f => s.routeEvent e f) s1

/-- EVENT_POST (R234, R440). -/
def execEventPost (s : State) : Out := event s true (s.dueFunc.isSome || !s.raised.isEmpty) (doEventPost s)

/-! ## Resets of the host port (R234, R236, R377) -/

/-- A function's own registers after its reset (log entry 5): MSI-X as at reset, D0. -/
def Func.portReset (f : Nat) (g : Func) : Func := { g with bar4 := (Func.reset f).bar4, d3 := false }

/-- Events that wait for a virtual function that no longer names a queue are discarded (R234). -/
def Func.dropHeld (f : Nat) (g : Func) : Func := if f = 0 then g else { g with held := [], lost := 0 }

/-- A function goes back to its reset settings. -/
def Func.flr (f : Nat) (g : Func) : Func := ((g.rerouted f).dropHeld f).portReset f

/-- A function-level reset of a virtual function. -/
def State.flrOne (s : State) (f : Nat) : State :=
  let qs := (s.queues.filter fun e => e.2.func == f && e.2.st != .disabled).map (·.1)
  (qs.foldl (fun s q => s.dropQueue q) s).modFunc f fun g => g.flr f

/-- Function-level reset of function 0, or a hot reset: every queue DISABLED, every function's settings as after reset. -/
def State.flrAll (s : State) : State :=
  let qs := (s.queues.filter fun e => e.2.st != .disabled || e.1 == 0).map (·.1)
  let s1 := qs.foldl (fun s q => s.dropQueue q) s
  { s1 with funcs := tmapv s1.funcs fun f g => g.flr f }

/-- FUNCTION_LEVEL_RESET (R236). -/
def execFunctionLevelReset (func : Nat) (s : State) : Out :=
  event s (decide (func < 64)) s.hostUp (if func = 0 then s.flrAll else s.flrOne func)

/-- HOT_RESET (R236). -/
def execHotReset (s : State) : Out := event s true s.hostUp s.flrAll

/-- Boot has finished step 2 of Table 11-7, and the dies are out of reset (R377). -/
def State.portReady (s : State) : Bool := s.running && decide (3 ≤ s.psi.cfgStep)

/-- PERST_N changes: low holds the port in reset, with what a hot reset does to the queues (log entry 25); high lets it train
once boot step 2 is done. -/
def doHostPerst (level : Bool) (s : State) : State :=
  let s1 := { s with pins := { s.pins with perstN := level } }
  if level then { s1 with hostUp := s1.portReady }
  else { s1 with hostUp := false }.flrAll

/-- HOST_PERST (R377). -/
def execHostPerst (level : Bool) (s : State) : Out := event s true true (doHostPerst level s)

/-- D3HOT_ENTRY (R377). -/
def execD3hotEntry (func : Nat) (s : State) : Out :=
  event s (decide (func < 64)) s.hostUp (s.modFunc func fun g => { g with d3 := true })

/-- D3HOT_EXIT: queues and objects are kept (R377). -/
def execD3hotExit (func : Nat) (s : State) : Out :=
  event s (decide (func < 64)) (s.hostUp && (s.func func).d3) (s.modFunc func fun g => { g with d3 := false })

end Sys2Proof.Machine
end

