-- ==== Sys2Proof/Machine/Packets.lean ====
section
/-! DEFINITION. Packets on their way from a window to their start: framing, the ordered checks, the order of starts (R216, R219
to R221, R225, R228). -/

namespace Sys2Proof.Machine

/-! ## Framing (R216, R219) -/

/-- Unit `u` of a queue's window. -/
def Queue.winUnit (x : Queue) (u : Nat) : List Byte := mreadN x.window (64 * (u % 256)) 64

/-- `n` units from the read pointer on. -/
def Queue.winUnits (x : Queue) (n : Nat) : List Byte := (List.range n).flatMap fun i => x.winUnit (x.rd + i)

/-- A header that cannot be framed (R219). -/
def frameBad (h : List Byte) : Bool :=
  let pl := fieldAt h 12 2
  let yl := fieldAt h 16 4
  fieldAt h 0 1 != 1 || decide (16352 < pl) || pl % 4 != 0 || decide (262144 < yl) || yl % 64 != 0

/-- Units of a packet with `params` parameter bytes and `payload` payload bytes (R219). -/
def packetUnits (params payload : Nat) : Nat := ceilDiv (32 + params) 64 + payload / 64

/-- Units of the packet that begins with these bytes. -/
def needUnits (h : List Byte) : Nat := packetUnits (fieldAt h 12 2) (fieldAt h 16 4)

/-- A framed packet. -/
def parsePacket (l : List Byte) : TakenPkt :=
  let fl := fieldAt l 1 1
  let pl := fieldAt l 12 2
  { barrier := bitAt fl 0, quiet := bitAt fl 1, irq := bitAt fl 2, opcode := fieldAt l 2 2,
    seq := BitVec.ofNat 32 (fieldAt l 4 4), tenant := fieldAt l 8 1, context := fieldAt l 10 2,
    tag := BitVec.ofNat 32 (fieldAt l 24 4), params := (l.drop 32).take pl,
    payload := (l.drop (64 * ceilDiv (32 + pl) 64)).take (fieldAt l 16 4) }

/-! ## Die staging (R228) -/

/-- Bytes that a packet takes in its die's staging. -/
def TakenPkt.bytes (t : TakenPkt) : Nat := 64 * packetUnits t.params.length t.payload.length

/-- Bytes that a queue's packets hold: those in parts, those that wait and those that are not completed. -/
def Queue.staged (x : Queue) : Nat :=
  (if x.asm.isEmpty then 0 else 64 * needUnits x.asm) + ((x.taken ++ x.started).map (·.bytes)).sum

/-- Staging in use on a die, by the queues that `p` accepts. -/
def State.stagedOn (s : State) (d : Nat) (p : Queue → Bool) : Nat :=
  (s.queues.map fun e => if e.2.home = d ∧ p e.2 = true then e.2.staged else 0).sum

/-- Room in a die's staging: 64 MiB, of which bulk and management packets hold at most 56 MiB. -/
def State.stagingRoom (s : State) (d cls n : Nat) : Bool :=
  decide (s.stagedOn d (fun _ => true) + n ≤ 67108864) &&
    (decide (cls < 2) || decide (s.stagedOn d (fun x => decide (2 ≤ x.cls)) + n ≤ 58720256))

/-! ## The opcodes and their parameters (Table 9-13, R229) -/

/-- Where an opcode is permitted, and the byte ranges (offset, length) of its parameters; the other bytes are reserved. -/
def opcodeRow (code : Nat) : Option (Perm × List (Nat × Nat)) :=
  match code with
  | 0x0001 => some (.m, [(0, 12)])
  | 0x0002 => some (.m, [])
  | 0x0003 => some (.m, [(0, 12)])
  | 0x0010 => some (.t, [(0, 5)])
  | 0x0011 => some (.t, [])
  | 0x0012 => some (.t, [(0, 8)])
  | 0x0101 => some (.t, [(0, 5), (8, 4), (16, 12)])
  | 0x0102 => some (.t, [(0, 3), (8, 8)])
  | 0x0103 => some (.t, [(0, 1)])
  | 0x0104 => some (.t, [(0, 1)])
  | 0x0201 => some (.t, [(0, 4)])
  | 0x0202 => some (.t, [(0, 2)])
  | 0x0203 => some (.t, [(0, 3)])
  | 0x0204 => some (.t, [(0, 3)])
  | 0x0205 => some (.t, [(0, 2), (4, 4)])
  | 0x0206 => some (.t, [(0, 4)])
  | 0x0207 => some (.m, [(0, 2)])
  | 0x0208 => some (.m, [(0, 1)])
  | 0x0209 => some (.t, [(0, 2)])
  | 0x0301 => some (.x, [(0, 8)])
  | 0x0401 => some (.m, [(0, 5), (8, 16)])
  | 0x0402 => some (.m, [(0, 3), (8, 8)])
  | 0x0403 => some (.m, [(0, 2), (4, 8)])
  | 0x0404 => some (.m, [(0, 4), (8, 8)])
  | 0x0501 => some (.t, [(0, 1), (2, 4), (8, 8)])
  | 0x0502 => some (.t, [(0, 1), (2, 2), (8, 8)])
  | 0x0503 => some (.t, [(0, 1), (2, 2), (8, 8)])
  | 0x0504 => some (.t, [(0, 1), (2, 2)])
  | 0x0505 => some (.t, [(0, 1), (2, 2)])
  | 0x0601 => some (.m, [(0, 8)])
  | 0x0602 => some (.m, [(0, 2), (4, 12)])
  | 0x0603 => some (.t, [(0, 2)])
  | 0x0701 => some (.m, [(0, 4)])
  | 0x0702 => some (.m, [(0, 1), (4, 8)])
  | 0x0703 => some (.t, [])
  | 0x0704 => some (.m, [(0, 18)])
  | 0x0710 => some (.m, [(0, 5)])
  | 0x0E01 => some (.m, [(0, 24)])
  | 0x0E02 => some (.m, [(0, 2)])
  | 0x0E03 => some (.m, [(0, 1), (2, 2), (8, 8)])
  | 0x0E04 => some (.m, [])
  | 0x0E10 => some (.m, [(0, 3), (4, 1212)])
  | 0x0E11 => some (.m, [(0, 2)])
  | 0x0E12 => some (.m, [(0, 1), (4, 12)])
  | 0x0E13 => some (.m, [(0, 1)])
  | _ => none

/-- Bytes that the parameters of a packet must reach. -/
def rowEnd (code : Nat) (params : List Byte) (l : List (Nat × Nat)) : Nat :=
  if code = 0x0301 then 16 + 8 * fieldAt params 4 2 else ((argmax (fun e => e.1 + e.2) l).map fun e => e.1 + e.2).getD 0

/-- A parameter byte that no field covers. -/
def byteFree (code : Nat) (params : List Byte) (l : List (Nat × Nat)) (i : Nat) : Bool :=
  if code = 0x0301 then !(decide (i < 8) || (decide (16 ≤ i) && decide (i < 16 + 8 * fieldAt params 4 2)))
  else l.all fun e => !(decide (e.1 ≤ i) && decide (i < e.1 + e.2))

/-- The first reserved parameter byte that is not zero. -/
def reservedBad (code : Nat) (params : List Byte) (l : List (Nat × Nat)) : Option Nat :=
  least params.length fun i => byteFree code params l i && params.getD i 0 != 0

/-- A value outside a range. -/
def outside (lo hi n : Nat) : Bool := decide (n < lo) || decide (hi < n)

/-- The entries of EXEC_DISPATCH whose fields are outside their ranges (Table 9-14). -/
def entryCodedBad (l : List Byte) : List (Bool × Nat) :=
  (List.range (min 1024 (fieldAt l 4 2))).flatMap fun i =>
    [(decide (16384 ≤ fieldAt l (16 + 8 * i) 2), 16 + 8 * i), (fieldAt l (18 + 8 * i) 2 == 0, 18 + 8 * i)]

/-- The first field whose encoding is outside its range (R221 step 5), as the packet alone shows it; the opcode's own checks see to
those that depend on the state: objects, dies, widths of the part. -/
def codedBad (code : Nat) (l : List Byte) : Option Nat :=
  let f i n := fieldAt l i n
  let bad : List (Bool × Nat) :=
    match code with
    | 0x0001 | 0x0003 => [(outside 4096 1048576 (f 0 4) || f 0 4 % 4096 != 0, 0)]
    | 0x0012 => [(f 0 4 % 64 != 0, 0), (f 4 4 % 64 != 0 || decide (262144 < f 4 4), 4)]
    | 0x0101 => [(outside 1 256 (f 0 2), 0), (outside 1 16 (f 2 1), 2), (outside 1 8 (f 3 1), 3), (decide (5 < f 4 1), 4),
        (decide (16777215 < f 8 4), 8)]
    | 0x0102 => [(decide (1 < f 1 1), 1), (f 1 1 == 1 && f 2 1 != 0, 2), (f 8 8 % 64 != 0, 8)]
    | 0x0201 => [(decide (2 < f 3 1), 3)]
    | 0x0203 | 0x0204 => [(decide (2 < f 2 1) && f 2 1 != 0xFF, 2)]
    | 0x0301 => [(outside 1 1024 (f 4 2), 4), (decide (4096 < f 6 2) || decide (262144 < f 4 2 * f 6 2 * 64), 6)] ++
        entryCodedBad l
    | 0x0403 => [(outside 1 2048 (f 8 4), 8)]
    | 0x0501 | 0x0502 | 0x0503 | 0x0504 | 0x0505 => [(decide (4096 ≤ f 2 2), 2), (code == 0x0501 && decide (4096 ≤ f 4 2), 4)]
    | 0x0602 => [(outside 4096 16777216 (f 4 4), 4)]
    | 0x0702 => [(decide (524288 ≤ f 4 4), 4), (outside 1 16384 (f 8 4), 8)]
    | 0x0E01 => [(outside 1 8191 (f 0 2), 0), (decide (3 < f 3 1), 3),
        (if f 3 1 = 3 then f 4 1 != 0xFF else decide (63 < f 4 1), 4), (decide (63 < f 5 1) || (f 3 1 == 3 && f 5 1 != 0), 5),
        (f 6 2 != 0xFFFF && decide (vecCount (f 5 1) ≤ f 6 2), 6), (f 8 8 % 4096 != 0, 8), (outside 19 26 (f 16 1), 16),
        (decide (4095 < f 18 2), 18)]
    | 0x0E02 => [(outside 1 8191 (f 0 2), 0)]
    | 0x0E03 => [(decide (63 < f 0 1), 0), (decide (8192 ≤ f 2 2) && f 2 2 != 0xFFFF, 2)]
    | 0x0206 => [(decide (3 < f 3 1), 3)]
    | 0x0401 => [(decide (3 < f 0 1), 0), (f 0 1 == 3 && f 3 1 != 0xFF, 3),
        (decide (1 < f 4 1) || (f 0 1 != 0 && f 4 1 != 0), 4), (decide (2 ≤ f 0 1) && f 8 8 != 0, 8),
        (f 0 1 != 0 && f 16 8 != 0, 16)]
    | 0x0402 => [(decide (8 ≤ f 1 1), 1), (decide (2 < f 2 1), 2)]
    | 0x0404 => [(decide (8 ≤ f 1 1), 1), (decide (3 < f 2 1), 2), (if f 2 1 = 0 then outside 6 255 (f 3 1) else f 3 1 != 0, 3)]
    | 0x0704 => [(decide (5 < f 0 1), 0), (f 2 2 % 8 != 0 || decide (1024 ≤ f 2 2), 2), (decide (1 < f 4 1), 4),
        (decide (3 < f 5 1), 5)]
    | 0x0710 => [(decide (2 < f 4 1), 4)]
    | 0x0E10 => [(f 0 1 == 0 || decide (3 < f 0 1), 0), ((f 0 1 == 1 && decide (64 ≤ f 1 1)) || (f 0 1 == 2 && decide (16 ≤ f 1 1)) ||
          (f 0 1 == 3 && f 1 1 != 0), 1), (f 0 1 != 1 && f 2 1 != 0, 2), (f 0 1 == 3 && (l.drop 4).any (· != 0), 4)]
    | 0x0E11 => [(decide (64 ≤ f 0 1), 0)]
    | 0x0E12 => [(decide (3 < f 0 1), 0)]
    | 0x0E13 => [(decide (2 < f 0 1), 0)]
    | _ => []
  (bad.find? (·.1)).map (·.2)

/-! ## The checks (R221) -/

/-- The first reserved header field that is not zero (R9), or the CRC (R220). -/
def headerBad (l : List Byte) (t : TakenPkt) : Option Nat :=
  let crc : Nat := if t.payload.isEmpty then 0 else (crc32c t.payload).toNat
  (([(decide (8 ≤ fieldAt l 1 1), 1), (fieldAt l 9 1 != 0, 9),
    (fieldAt l 14 2 != 0, 14), (fieldAt l 20 4 != crc, 20), (fieldAt l 28 4 != 0, 28)] :
      List (Bool × Nat)).find? (·.1)).map (·.2)

/-- Packets of a die that have started and are not completed (Table 9-12). -/
def State.outstanding (s : State) (d : Nat) : Nat :=
  (s.queues.map fun e => if e.2.home = d then e.2.started.length else 0).sum

/-- The opcode names a tenant in its header: the T and X opcodes, and those of tenants (R229). -/
def namesTenant (code : Nat) (perm : Perm) : Bool := perm != .m || (decide (1 ≤ code) && decide (code ≤ 3))

/-- The opcode names a context in its header (Table 9-13). -/
def namesContext (code : Nat) : Bool := code == 0x0011 || code == 0x0012 || code == 0x0703

/-- The `tenant` or `context` field has an encoding that Table 9-9 does not define for the opcode (R9): a tenant is 0 to 63, or
0xFF where the opcode names none, and a context that it does not name is 0xFFFF. -/
def namesBad (t : TakenPkt) (perm : Perm) : Option Nat :=
  if (if namesTenant t.opcode perm then decide (64 ≤ t.tenant) else t.tenant != 0xFF) then some 8
  else if !(namesContext t.opcode) && t.context != 0xFFFF then some 10
  else none

/-- The first reserved byte of an identity record that is not zero (R9, R427): bytes 1 to 3, and bytes 1 to 3 of each entry of 100
bytes, where the payload holds them. -/
def recordBad (t : TakenPkt) : Option Nat :=
  if t.opcode = 0x0E10 ∧ fieldAt t.params 0 1 = 3 then
    ((List.range t.payload.length).find? fun i =>
      (decide (1 ≤ i ∧ i < 4) || (decide (4 ≤ i ∧ i < 4 + 100 * fieldAt t.payload 0 1) && decide (1 ≤ (i - 4) % 100 ∧ (i - 4) % 100 < 4))) &&
        t.payload.getD i 0 != 0).map fun i => 64 * ceilDiv (32 + t.params.length) 64 + i
  else none

/-- Step 5 of R221, as the packet alone shows it: the offset of the first header, parameter or payload field outside its range or
encoding, or not there at all. -/
def paramBad (t : TakenPkt) (perm : Perm) (rows : List (Nat × Nat)) : Option Nat :=
  match namesBad t perm with
  | some off => some off
  | none =>
    if t.params.length < rowEnd t.opcode t.params rows then some 12
    else
      match reservedBad t.opcode t.params rows, codedBad t.opcode t.params with
      | some i, some j => some (32 + min i j)
      | some i, none => some (32 + i)
      | none, some j => some (32 + j)
      | none, none => recordBad t

/-- Steps 2 to 6 of R221: the status and `detail` of the first failure. -/
def State.packetBad (s : State) (q : Nat) (l : List Byte) (t : TakenPkt) : Option (Status × Nat) :=
  let x := s.queue q
  match headerBad l t with
  | some off => some (.badParam, off)
  | none =>
    match opcodeRow t.opcode with
    | none => some (.badOpcode, 0)
    | some (perm, rows) =>
      if !(s.permitted perm (t.pkt q x.life)) then some (.authFail, 0)
      else
        match paramBad t perm rows with
        | some off => some (.badParam, off)
        | none =>
          if 256 ≤ x.started.length then some (.queueFull, 1)
          else if 8192 ≤ s.outstanding x.home then some (.queueFull, 2)
          else none

/-- The reply to a packet that a check refuses. -/
def TakenPkt.refusal (t : TakenPkt) (st : Status) (detail : Nat) (seqErr : Bool) : Reply :=
  { opcode := t.opcode, seq := t.seq, status := st, detail := BitVec.ofNat 32 detail, params := [], payload := [],
    tag := t.tag, seqErr := seqErr, more := false, irq := t.irq }

/-- A whole packet is checked (R221): refused with a reply, or it waits to start. -/
def State.checkPacket (s : State) (q : Nat) (l : List Byte) : State :=
  let t := parsePacket l
  let x := s.queue q
  if t.seq ≠ x.expSeq then s.addReplies q [t.refusal .badParam x.expSeq.toNat true]
  else
    let s1 := s.modQueue q fun x => { x with expSeq := x.expSeq + 1 }
    match s.packetBad q l t with
    | some (st, det) => s1.addReplies q [t.refusal st det false]
    | none => s1.modQueue q fun x => { x with taken := x.taken ++ [t] }

/-! ## PACKET_TAKE -/

/-- The first bytes of the packet at hand. -/
def Queue.front (x : Queue) : List Byte := if x.asm.isEmpty then x.winUnit x.rd else x.asm

/-- A packet can be taken: the queue is ENABLED, its window holds units, and the die's staging has room for the packet. -/
def State.takeDue (s : State) (q : Nat) : Bool :=
  let x := s.queue q
  s.live x.home && x.st == .enabled && x.winHeld != 0 &&
    (!x.asm.isEmpty || frameBad x.front || s.stagingRoom x.home x.cls (64 * needUnits x.front))

/-- The units at hand are taken; a packet that is whole is checked. A header that cannot be framed puts the queue in ERROR. -/
def doPacketTake (q : Nat) (s : State) : State :=
  let x := s.queue q
  if x.asm.isEmpty && frameBad x.front then s.queueError q fun x => { x with errFrame := true }
  else
    let got := x.asm.length / 64
    let need := needUnits x.front
    let n := min x.winHeld (need - got)
    let l := x.asm ++ x.winUnits n
    let whole := decide (need ≤ got + n)
    let s1 := s.modQueue q fun x => { x with rd := (x.rd + n) % 512, asm := if whole then [] else l }
    if whole then s1.checkPacket q l else s1

/-- PACKET_TAKE (R216, R219, R221, R228). -/
def execPacketTake (queue : Nat) (s : State) : Out :=
  event s (decide (queue < 8192)) (s.takeDue queue) (doPacketTake queue s)

/-! ## PACKET_START (R225, R228) -/

/-- The objects a packet names: 0 tenant, 1 instance, 2 context, 3 sequence, 4 knot, 5 region, 6 queue, 7 die. -/
def TakenPkt.objects (t : TakenPkt) : List (Nat × Nat) :=
  let f i n := fieldAt t.params i n
  let knot := (4, f 0 1 * 65536 + f 2 2)
  match t.opcode with
  | 0x0001 | 0x0002 | 0x0003 => [(0, t.tenant)]
  | 0x0010 | 0x0201 => [(1, f 0 2)]
  | 0x0011 | 0x0012 | 0x0703 => [(2, t.context)]
  | 0x0102 | 0x0103 | 0x0104 => [(1, f 0 1)]
  | 0x0202 | 0x0203 | 0x0204 | 0x0205 | 0x0206 | 0x0209 => [(3, f 0 2)]
  | 0x0207 | 0x0208 => (maskDies (BitVec.ofNat 8 (f 0 1))).map fun d => (7, d)
  | 0x0301 => (1, f 0 2) :: (List.range (f 4 2)).map fun i => (3, f (16 + 8 * i) 2)
  | 0x0401 => [(5, f 1 1 * 8 + f 2 1)]
  | 0x0402 | 0x0403 | 0x0404 => [(5, f 0 1 * 8 + f 1 1)]
  | 0x0501 => [knot, (2, f 0 1 * 4096 + f 4 2)]
  | 0x0502 | 0x0503 | 0x0504 | 0x0505 => [knot]
  | 0x0602 | 0x0E11 => [(0, f 0 1)]
  | 0x0E10 => if f 0 1 = 1 then [(0, f 1 1)] else []
  | 0x0E01 | 0x0E02 => [(6, f 0 2)]
  | 0x0E03 => [(6, f 2 2)]
  | _ => []

/-- A KNOT_WAIT: it holds no later packet, and no packet waits for it. -/
def TakenPkt.isWait (t : TakenPkt) : Bool := t.opcode == 0x0503

/-- An earlier packet that is not completed keeps `t` from starting. -/
def TakenPkt.holds (o t : TakenPkt) : Bool :=
  !o.isWait && (t.barrier || (!(t.opcode == 0x0102 && o.opcode == 0x0102) && o.objects.any fun k => t.objects.contains k))

/-- Packet `n` of queue `q` may start: every earlier packet that waits is a KNOT_WAIT, no started one holds it, and fewer than
256 replies are held. -/
def Queue.startable (x : Queue) (n : BitVec 32) : Bool :=
  let before := x.taken.takeWhile fun t => t.seq != n
  match x.taken.find? fun t => t.seq == n with
  | none => false
  | some t =>
    before.all (·.isWait) && (x.started.filter fun o => seqBefore o.seq t.seq).all (fun o => !(o.holds t)) &&
      decide (x.held.length < 256)

/-- The packet leaves the wait: it is started and not completed. -/
def Queue.start (x : Queue) (n : BitVec 32) : Queue :=
  { x with
    taken := x.taken.filter fun t => t.seq != n
    started := x.started ++ x.taken.filter fun t => t.seq == n }

/-- PACKET_START (R225). -/
def execPacketStart (queue : Nat) (seq : BitVec 32) (s : State) : Out :=
  event s (decide (queue < 8192)) (s.live (s.queue queue).home && (s.queue queue).startable seq)
    (s.modQueue queue fun x => x.start seq)

end Sys2Proof.Machine
end

