-- ==== Sys2Proof/Machine/Security.lean ====
section
/-! DEFINITION. Psiurn's key store, firmware update, debug unlock, attestation and the sideband mailbox (R420 to R435). -/

namespace Sys2Proof.Machine

/-- `s` with `f` applied to Psiurn. -/
def State.modPsi (s : State) (f : Psiurn → Psiurn) : State := { s with psi := f s.psi }

/-! ## KEY_LOAD and KEY_REMOVE (R427 to R430) -/

/-- A die that a mask names is absent or lost. -/
def State.namesAbsent (s : State) (m : BitVec 8) : Bool := (maskDies m).any fun d => !(s.usable d)

/-- The lowest free sealing slot of a die (R429). -/
def Die.freeSlot (x : Die) : Nat := (leastFrom (fun k => !(thas x.sealSlots k)) 255 1).getD 0

/-- A tenant's keys go into the lowest free slot of each named die; byte n of the reply is the slot on Dn (R429). -/
def State.loadSealing (s : State) (p : Pkt) (t : Nat) (m : BitVec 8) (k : BitVec 256 × BitVec 256) : State :=
  let slots := (List.range 8).map fun d => if m.getLsbD d then (s.die d).freeSlot else 0
  ((maskDies m).foldl (fun s d => s.modDie d fun x =>
    { x with sealSlots := tput x.sealSlots x.freeSlot (k.1, k.2, t) }) s).finish 0x0E10 p .ok 0 (slots.flatMap (le 1)) []

/-- Parameter bytes 0 to 1,123 of a KEY_LOAD: the additional data, and part of the info (R429). -/
def wrapHead (kind target : Nat) (dies : BitVec 8) (w : WrapBlk) : List Byte :=
  [BitVec.ofNat 8 kind, BitVec.ofNat 8 target, dies, 0] ++ w.eph ++ w.ct

/-- The ASCII string "SKZ-WRAP". -/
def wrapLabel : List Byte := [0x53, 0x4B, 0x5A, 0x2D, 0x57, 0x52, 0x41, 0x50]

/-- The key-encryption key (R429 step 2). -/
def wrapKek (kind target : Nat) (dies : BitVec 8) (w : WrapBlk) : BitVec 256 :=
  Config.hkdf384 (w.xSecret ++ w.mSecret) (wrapLabel ++ wrapHead kind target dies w)

/-- The 64 bytes unwrapped (R429 step 3); none for an all-zero X25519 secret, a tag that fails or, in kind 2, padding that is not
zero. -/
def unwrap (kind target : Nat) (dies : BitVec 8) (w : WrapBlk) : Option (List Byte) :=
  let k := wrapKek kind target dies w
  let plain := w.wrapped.mapIdx fun i c => c ^^^ Config.gcmStream k w.nonce i
  if (w.xSecret.all fun b => b == 0) || decide (w.gtag ≠ Config.gcmTag k w.nonce (wrapHead kind target dies w) w.wrapped) then none
  else if kind = 2 ∧ zeroAt plain 32 32 = false then none
  else some plain

/-- A 256-bit key as its bytes stand, the first byte lowest. -/
def keyAt (l : List Byte) (o : Nat) : BitVec 256 := BitVec.ofNat 256 (fieldAt l o 32)

/-- KEY_LOAD_SEALING_KEY: nothing is loaded where unwrapping fails (R429). -/
def execKeyLoadSealingKey (p : Pkt) (tenant : Nat) (dies : BitVec 8) (w : WrapBlk) (s : State) : Out :=
  let keys := unwrap 1 tenant dies w
  opcode 0x0E10 .m p (firstOf [badAt (!(decide (tenant < 64) && s.hasTenant tenant)) 1, badAt (s.namesAbsent dies) 2,
      badAt ((maskDies dies).any fun d => s.hasKey d tenant) 2, refuseIf keys.isNone .authFail 0])
    (match keys with
      | some k => s.loadSealing p tenant dies (keyAt k 0, keyAt k 32)
      | none => s) s

/-- KEY_LOAD_IMAGE_KEY: an image key is written once (R420, R429). -/
def execKeyLoadImageKey (p : Pkt) (target : Nat) (w : WrapBlk) (s : State) : Out :=
  let key := unwrap 2 target 0 w
  opcode 0x0E10 .m p (firstOf [badAt (decide (16 ≤ target) || thas s.psi.imageKeys target) 1,
      refuseIf key.isNone .authFail 0])
    (match key with
      | some k => (s.modPsi fun y => { y with imageKeys := tput y.imageKeys target (keyAt k 0) }).ok 0x0E10 p
      | none => s) s

/-- KEY_LOAD_IDENTITY_RECORD: entries 2 and on, once (R427). A -P part has its record from the factory. -/
def execKeyLoadIdentityRecord (p : Pkt) (entries : List SignEntry) (s : State) : Out :=
  opcode 0x0E10 .m p (firstOf [badAll (s.part.prov || s.psi.signing.any fun e => decide (2 ≤ e.1)),
      badAll (!(decide (1 ≤ entries.length) && decide (entries.length ≤ 6))),
      badAll (entries.any fun e => e.usage != 1 && e.usage != 2)])
    ((s.modPsi fun y => { y with
      signing := (entries.mapIdx fun i e => (i, e)).foldl (fun t (e : Nat × SignEntry) => tput t (2 + e.1) e.2) y.signing }).ok
      0x0E10 p) s

/-- KEY_REMOVE: it waits on each named die until no entry names the slot (R50, R430). -/
def execKeyRemove (p : Pkt) (tenant : Nat) (dies : BitVec 8) (s : State) : Out :=
  opcode 0x0E11 .m p (firstOf [badAt (decide (64 ≤ tenant)) 0, badAt (s.namesAbsent dies) 1,
      badAt ((maskDies dies).any fun d => !(s.hasKey d tenant)) 1])
    ({ s with keyWaits := s.keyWaits ++ [(p, tenant, maskDies dies)] }.settleKeys) s

/-! ## Firmware in flash (R421, R422, R425) -/

/-- A copy of the firmware directory is valid: magic, CRC, reserved bytes (R421). -/
def fwDirOk (l : List Byte) : Bool :=
  decide (fieldAt l 0 4 = 0x57444946) && zeroAt l 25 35 && decide (fieldAt l 24 1 < 2) &&
    decide (fieldAt l 60 4 = (crc32c (l.take 60)).toNat)

/-- The directory copy at an address. -/
def State.fwDirAt (s : State) (a : Nat) : List Byte := mreadN s.psi.flash a 64

/-- The valid copy with the higher generation: its address; `none` without a valid copy. -/
def State.fwDir (s : State) : Option Nat :=
  let a := s.fwDirAt 0
  let b := s.fwDirAt 0x8000
  if fwDirOk a && fwDirOk b then some (if fieldAt a 4 4 < fieldAt b 4 4 then 0x8000 else 0)
  else if fwDirOk a then some 0
  else if fwDirOk b then some 0x8000
  else none

/-- The address of a firmware slot (0 A, 1 B) by a directory. -/
def fwSlot (dir : List Byte) (n : Nat) : Nat := if n = 0 then fieldAt dir 8 8 else fieldAt dir 16 8

/-- The header of a firmware image (R421): kind 3, with neither tables nor window nor encryption. -/
def fwHeaderOk (v : Variant) (h : List Byte) : Bool :=
  decide (fieldAt h 0 4 = 0x57464B53) && decide (fieldAt h 4 2 = 1) && decide (fieldAt h 6 1 = 3) && zeroAt h 7 1 &&
    decide (fieldAt h 8 1 < 8) && bitAt (fieldAt h 8 1) v.bit && zeroAt h 9 19 && decide (imgBodyLen h % 64 = 0) &&
    zeroAt h 36 16 && zeroAt h 120 1928

/-- Steps 3 to 6 of Table 17-2 on the image at a flash address. -/
def State.fwCheck (s : State) (a : Nat) (chk : ImgChk) : Option Status :=
  let h := mreadN s.psi.flash a 2048
  if !(fwHeaderOk s.part.variant h) || decide (2 ^ 32 < a + 7488 + imgBodyLen h) then some .badParam
  else
    match imgStep2 ((tfind s.psi.signing 0).toList) s.psi.fwMin h (mreadN s.psi.flash (a + 2048) 5376) chk with
    | some st => some st
    | none =>
      let img := mreadN s.psi.flash a (7488 + imgBodyLen h)
      imgEnd h (img.drop (7424 + imgBodyLen h)) img none

/-- The inactive slot by the directory in force. -/
def State.fwInactive (s : State) : Option Nat :=
  (s.fwDir).map fun a => fwSlot (s.fwDirAt a) (1 - fieldAt (s.fwDirAt a) 24 1)

/-- FW_UPDATE_WRITE: a part of the inactive slot (R425). -/
def execFwUpdateWrite (p : Pkt) (off : Nat) (data : List Byte) (s : State) : Out :=
  opcode 0x0E12 .m p (firstOf [badAll s.fwInactive.isNone, badAt (match s.fwInactive with
      | some a => decide (2 ^ 32 < a + off + data.length)
      | none => false) 8])
    ((s.modPsi fun y => { y with flash := match s.fwInactive with
      | some a => mwriteN y.flash (a + off) data
      | none => y.flash }).ok 0x0E12 p) s

/-- The directory that makes the other slot active: the generation raised by 1 (R425). -/
def fwDirNext (l : List Byte) : List Byte :=
  let b := l.take 4 ++ le 4 (fieldAt l 4 4 + 1) ++ (l.drop 8).take 16 ++ le 1 (1 - fieldAt l 24 1) ++ zeros 35
  b ++ le 4 (crc32c b).toNat

/-- FW_UPDATE_ACTIVATE: the inactive slot passes steps 4 to 6, and the older copy of the directory names it (R425). -/
def execFwUpdateActivate (p : Pkt) (chk : ImgChk) (s : State) : Out :=
  let st := match s.fwInactive with
    | some a => s.fwCheck a chk
    | none => some Status.badParam
  opcode 0x0E12 .m p (st.map fun e => (e, if e = .badParam then 0xFFFFFFFF else 0))
    (match s.fwDir, s.fwInactive with
      | some d, some a =>
        (s.modPsi fun y => { y with flash := mwriteN y.flash (0x8000 - d) (fwDirNext (s.fwDirAt d)) }).finish 0x0E12 p .ok 0
          (le 48 (imgDigest (mreadN s.psi.flash a 2048)).toNat) []
      | _, _ => s) s

/-- FW_UPDATE_RAISE_FW_MIN (R425). -/
def execFwUpdateRaiseFwMin (p : Pkt) (value : Nat) (s : State) : Out :=
  opcode 0x0E12 .m p (firstOf [badAt (!(decide (s.psi.fwMin ≤ value) && decide (value ≤ min 63 s.psi.fw.secVersion))) 4])
    ((s.modPsi fun y => { y with fwMin := value }).ok 0x0E12 p) s

/-- FW_UPDATE_RAISE_CFG_MIN (R425). -/
def execFwUpdateRaiseCfgMin (p : Pkt) (value : Nat) (s : State) : Out :=
  opcode 0x0E12 .m p (firstOf [badAt (!(decide (s.psi.cfgMin ≤ value) && decide (value ≤ 63))) 4])
    ((s.modPsi fun y => { y with cfgMin := value }).ok 0x0E12 p) s

/-! ## DEBUG_UNLOCK (R433, R434) -/

/-- Debug's part of Psiurn rewritten. -/
def State.modDebug (s : State) (f : Debug → Debug) : State := s.modPsi fun y => { y with dbg := f y.dbg }

/-- DEBUG_UNLOCK_NONCE: a fresh nonce, a free value (log entry 10), voids any earlier one. -/
def execDebugUnlockNonce (p : Pkt) (s : State) : Out :=
  let (n, s1) := s.freeNat
  let v := BitVec.ofNat 128 n
  opcode 0x0E13 .m p none ((s1.modDebug fun g => { g with nonce := some v }).finish 0x0E13 p .ok 0 (le 16 v.toNat) []) s

/-- The debug-authority entries in force: usage 2 among entries 2 to 7, and entry 1 while those are empty (Table 17-1, R427). -/
def Psiurn.dbgKeys (y : Psiurn) : List SignEntry :=
  let l := y.signing.filter fun e => decide (2 ≤ e.1)
  if l.isEmpty then (tfind y.signing 1).toList else (l.filter fun e => decide (e.2.usage = 2)).map (·.2)

/-- The body of a token is in order but for its nonce: length, magic, reserved fields, `ident` (R434). -/
def State.tokenBody (s : State) (l : List Byte) : Bool :=
  decide (l.length = 5440) && decide (fieldAt l 0 4 = 0x54474244) && decide (fieldAt l 4 1 < 2) && zeroAt l 6 2 && zeroAt l 32 32 &&
    zeroAt l 5421 19 && decide (fieldAt l 8 8 = s.part.ident.toNat)

/-- The checks on a presented token, in order (R434). -/
def State.tokenBad (s : State) (k : DebugToken) : Option Status :=
  if decide (8 ≤ s.psi.dbg.failed) || !(s.tokenBody k.bytes) ||
      decide (s.psi.dbg.nonce ≠ some (BitVec.ofNat 128 (fieldAt k.bytes 16 16))) || !(sigKeysOk s.psi.dbgKeys (k.bytes.drop 64)) then
    some .authFail
  else if !(k.edOk) then some .sigClassicFail
  else if !(k.pqOk) then some .sigPqFail
  else none

/-- A token presented: any outcome voids the nonce; a failure counts (R434). -/
def State.present (s : State) (p : Pkt) (k : DebugToken) : State :=
  match s.tokenBad k with
  | some st =>
    (s.modDebug fun g => { g with nonce := none, failed := if 8 ≤ g.failed then g.failed else g.failed + 1 }).refuse 0x0E13 p
      st 0
  | none => (s.modDebug fun g => { g with
      nonce := none, scope := BitVec.ofNat 8 (fieldAt k.bytes 4 1), dies := BitVec.ofNat 8 (fieldAt k.bytes 5 1) }).ok 0x0E13 p

/-- DEBUG_UNLOCK_PRESENT. -/
def execDebugUnlockPresent (p : Pkt) (token : DebugToken) (s : State) : Out := opcode 0x0E13 .m p none (s.present p token) s

/-- DEBUG_UNLOCK_LOCK: every die is locked at once. -/
def execDebugUnlockLock (p : Pkt) (s : State) : Out :=
  opcode 0x0E13 .m p none ((s.modDebug fun g => { g with scope := 0, dies := 0 }).ok 0x0E13 p) s

/-! ## SPDM (R431, R432) -/

/-- A signing entry as stored. -/
def SignEntry_bytes (e : Option SignEntry) : List Byte :=
  match e with
  | some e => le 4 e.usage ++ le 48 e.edHash.toNat ++ le 48 e.pqHash.toNat
  | none => zeros 100

/-- The raw list at index 0x51: committed instances, rising. -/
def State.modelList (s : State) : List Byte :=
  (s.models.filter fun e => e.2.bundle.isSome).flatMap fun e => le 1 e.1 ++ zeros 1 ++ le 48 e.2.digest.toNat

/-- A measurement (Table 17-4). -/
def State.measure (s : State) (i : Nat) : List Byte :=
  if i = 1 then le 48 s.psi.fw.digest.toNat
  else if i = 2 then le 1 s.psi.fwMin ++ le 1 s.psi.cfgMin ++ le 4 s.psi.fw.secVersion
  else if i = 3 then
    le 48 (Config.sha384 ((List.range 8).flatMap fun n => SignEntry_bytes (tfind s.psi.signing n))).toNat
  else if i = 4 then le 1 s.psi.dbg.scope.toNat ++ le 1 s.psi.dbg.dies.toNat
  else if 0x10 ≤ i ∧ i < 0x50 then
    let f := (s.die ((i - 0x10) / 8)).fabric ((i - 0x10) % 8)
    if f.st == .configured then le 48 f.digest.toNat else zeros 48
  else if i = 0x50 then le 48 (Config.sha384 s.modelList).toNat
  else if i = 0x51 then s.modelList
  else []

/-- The measurement indices of the part. -/
def State.measIndices (s : State) : List Nat := [1, 2, 3, 4] ++ (List.range (8 * s.dieCount)).map (0x10 + ·) ++ [0x50, 0x51]

/-- The measurements that a GET_MEASUREMENTS asks for: all of them (0xFF), their number (0), or one. -/
def State.measured (s : State) (i : Nat) : List Byte :=
  if i = 0 then le 1 s.measIndices.length
  else if i = 0xFF then s.measIndices.flatMap s.measure
  else s.measure i

/-- The bytes by which the model names a request to `Config.spdmBody` (log entry 9). -/
def spdmCode : SpdmReq → List Byte
  | .getVersion => [0x84]
  | .getCapabilities => [0xE1]
  | .negotiateAlgorithms => [0xE3]
  | .getDigests => [0x81]
  | .getCertificate slot => 0x82 :: le 2 slot
  | .challenge t => 0x83 :: le 48 t.toNat
  | .getMeasurements i g t => [0xE0, BitVec.ofNat 8 i, BitVec.ofNat 8 (b2n g)] ++ le 48 t.toNat
  | .vendorDefined v c => 0xFE :: (le 2 v ++ le 2 c)
  | .other l => l

/-- Both chains, each as its digest (GET_DIGESTS; R426). -/
def Psiurn.certDigests (y : Psiurn) : List Byte := y.certs.flatMap fun e => le 1 e.1 ++ le 48 (Config.sha384 e.2).toNat

/-- What a request leaves in the responder (R431): the transcript hash last signed, and whether the answer is an ERROR with
UnexpectedRequest; the second list is what the response reports. -/
def State.spdmNext (s : State) (r : SpdmReq) : Option (BitVec 384) × Bool × List Byte :=
  let old := s.psi.spdm.signed
  match r with
  | .getVersion => (none, false, [])
  | .getCapabilities => (old, false, [])
  | .negotiateAlgorithms => (old, false, [])
  | .getDigests => (old, false, s.psi.certDigests)
  | .getCertificate n => (old, false, tget s.psi.certs n [])
  | .challenge t => (some t, false, s.measIndices.flatMap s.measure)
  | .getMeasurements i g t => (if g then some t else old, false, s.measured i)
  | .vendorDefined v c =>
    if v = s.part.vendor ∧ c = 1 then
      match old with
      | some t => (old, false, le 48 t.toNat)
      | none => (old, true, [])
    else (old, false, [])
  | .other _ => (old, false, [])

/-- SPDM_REQUEST over DOE on PF0: the response stands in Psiurn; its bytes beyond what R431 and R432 fix are another standard's
(log entry 9). -/
def execSpdmRequest (r : SpdmReq) (s : State) : Out :=
  let n := s.spdmNext r
  event s true (s.running && s.hostUp) (s.modPsi fun y => { y with spdm :=
    { signed := n.1, unexpected := n.2.1, resp := Config.spdmBody (spdmCode r) s.part.ident n.2.2 } })

/-! ## The sideband: PKG_STATUS and the mailbox (R435) -/

/-- Psiurn answers on the sideband from the moment it leaves reset. -/
def State.sideOn (s : State) : Bool := s.psi.state != .inReset

/-- A response on the sideband. -/
def State.sideReply (s : State) (l : List Byte) : State :=
  s.modPsi fun y => { y with sideband := { y.sideband with resp := l } }

/-- `s` with `f` applied to the sideband. -/
def State.modSide (s : State) (f : Sideband → Sideband) : State := s.modPsi fun y => { y with sideband := f y.sideband }

/-- State, as PKG_STATUS codes it. -/
def PkgState.code : PkgState → Nat
  | .inReset => 0
  | .cold => 0
  | .running => 1
  | .bootStopped => 2
  | .fatal => 3

/-- The highest junction temperature. -/
def State.hottest (s : State) : Int :=
  (List.range s.dieCount).foldl (fun m d => max m (s.die d).led.tempC) s.psi.tempC

/-- The six bytes of PKG_STATUS (Table 17-6). -/
def State.pkgStatusBytes (s : State) : List Byte :=
  le 1 s.psi.state.code ++ le 1 s.psi.cause ++ le 2 s.psi.status.code ++
    le 1 (min 255 (s.hottest + 64).toNat) ++ le 1 (min 255 (s.pins.vinMv / 500))

/-- PKG_STATUS. -/
def execPkgStatus (s : State) : Out := event s true s.sideOn (s.sideReply s.pkgStatusBytes)

/-- MBOX_WRITE: up to 32 bytes into the 8 KiB mailbox; what lies beyond it is not written. -/
def execMboxWrite (off : Nat) (data : List Byte) (s : State) : Out :=
  event s (decide (data.length ≤ 32)) s.sideOn
    (s.modSide fun b => { b with mbox := mwriteN b.mbox off (data.take (8192 - off)) })

/-- The mailbox packet is refused at R221's steps: its sequence number, its header and CRC, its opcode, its parameters. -/
def mboxBad (l : List Byte) (t : TakenPkt) : Option (Status × Nat) :=
  match headerBad l t with
  | some off => some (.badParam, off)
  | none =>
    if t.opcode ≠ 0x0E13 ∧ t.opcode ≠ 0x0E04 then some (.authFail, 0)
    else
      match opcodeRow t.opcode with
      | none => some (.badOpcode, 0)
      | some (perm, rows) => (paramBad t perm rows).map fun off => (.badParam, off)

/-- MBOX_GO's work: the mailbox's packet is checked against the mailbox's own counter; one that cannot be framed gets no
reply, one that passes runs by its own command (DEBUG_UNLOCK, DEVICE_INFO). -/
def doMboxGo (s : State) : State :=
  let b := s.psi.sideband
  let head := mreadN b.mbox 0 64
  let l := mreadN b.mbox 0 (64 * needUnits head)
  let t := parsePacket l
  let s1 := s.modSide fun b => { b with reply := none, pkt := none }
  if frameBad head || decide (8192 < 64 * needUnits head) then s1
  else if t.seq ≠ b.seq then s1.addReplies mboxQueue [t.refusal .badParam b.seq.toNat true]
  else
    let s2 := s1.modSide fun b => { b with seq := b.seq + 1 }
    match mboxBad l t with
    | some (st, det) => s2.addReplies mboxQueue [t.refusal st det false]
    | none => s2.modSide fun b => { b with pkt := some t }

/-- MBOX_GO. -/
def execMboxGo (s : State) : Out := event s true s.sideOn (doMboxGo s)

/-- The reply as MBOX_READ shows it: a header whose status reads 0xFFFF until the reply exists. -/
def Sideband.replyBytes (b : Sideband) : List Byte :=
  match b.reply with
  | some l => l
  | none => zeros 8 ++ le 2 0xFFFF

/-- MBOX_READ: up to 32 bytes of the reply. -/
def execMboxRead (off len : Nat) (s : State) : Out :=
  event s (decide (len ≤ 32)) s.sideOn
    (s.sideReply (((s.psi.sideband.replyBytes ++ zeros (off + len)).drop off).take len))

end Sys2Proof.Machine
end

