-- ==== Sys2Proof/Machine/Registers.lean ====
section
/-! DEFINITION. The register space of a die and its rules (chapter 16): reads, read-clear bits, snapshots, bit aliases, pressed
writes, the configuration check, and the sideband's REG_READ and REG_WRITE. -/

namespace Sys2Proof.Machine

/-! ## Words as they stand (R416) -/

/-- DIE_ID (Table 16-5). -/
def Part.dieId (p : Part) (d : Nat) : Nat :=
  p.silicon.toNat * 2 ^ 24 + p.variant.dies * 2 ^ 16 + 2048 * b2n p.gradeB + 1024 * b2n p.gradeI + 512 * b2n p.prov + d

/-- STRAP_STAT (R417). -/
def Psiurn.straps (y : Psiurn) : Nat := 2 * b2n y.strapCfg + b2n y.strapPull

/-- BOOT_STAT (Table 16-6). -/
def State.bootStat (s : State) (d : Nat) : Nat :=
  let x := s.die d
  s.psi.status.code * 2 ^ 16 + s.psi.cfgStep * 16 + 8 * b2n x.lpAbsent + 4 * b2n s.psi.fallback + 2 * b2n x.trained +
    b2n x.fwOk

/-- CLK_STAT (Table 15-6). -/
def State.clkStat (s : State) (d : Nat) : Nat :=
  let l := (s.die d).led
  let on (n : Nat) : Bool := decide (l.step ≠ 0) && decide (n = l.step)
  2048 * b2n (s.die d).running + 1024 * b2n s.part.gradeB + 256 * l.step + 8 * b2n l.whyHost + 4 * b2n (on l.thermal) +
    2 * b2n (on l.backstopStep) + b2n (on l.own)

/-- PRESS_PEND: groups that hold a pending value (R413). -/
def Die.pressPend (x : Die) : Nat :=
  x.pregs.foldl (fun m e => if e.2.pend.isSome then Nat.lor m (2 ^ x.grpOf e.1) else m) 0

/-- NET_EPOCH (R314). -/
def Die.netEpoch (x : Die) : Nat := 2 ^ 31 * b2n x.switching + 2 ^ 16 * b2n x.epoch + x.oldPkts

/-- `pstate` (Table 12-12). -/
def PState.code : PState → Nat
  | .awake => 0
  | .draining => 1
  | .asleep => 2
  | .waking => 3

/-- RGNPWR_STAT (Table 12-12). -/
def Die.rgnStat (x : Die) : Nat :=
  (List.range 8).foldl (fun n r =>
    let g := x.region r
    n + g.power.code * 4 ^ r + b2n g.wakeSeen * 2 ^ (16 + r) + b2n g.cancelSeen * 2 ^ (24 + r)) 0

/-- Whether a register's value is pending. -/
def Die.isPend (x : Die) (off : Nat) : Nat := b2n (x.preg off).pend.isSome

/-- DN_STAT (Table 11-14). -/
def Die.dnStat (x : Die) : Nat :=
  (if x.scanning then regionMask x.configured else 0) * 2 ^ 24 + 16 * x.isPend 0x3000 + 8 * b2n x.darner.stopped +
    4 * b2n x.darner.selfFail + 2 * b2n x.darner.dblSeen + b2n x.darner.sglSeen

/-- RTPr_STAT (Table 10-9). -/
def Die.rtpStat (x : Die) (r : Nat) : Nat :=
  (List.range 4).foldl (fun n c => n + b2n ((x.fabric r).port (12 + c)).panic * 2 ^ (4 + c)) 0 +
    4 * b2n (x.region r).panicSeen + 2 * x.isPend (0x4000 + 16 * r) + b2n (x.portPanic r)

/-- Partner fields read zero outside DISCOVER to WAKING (R371). -/
def LState.meets : LState → Bool
  | .down => false
  | .detect => false
  | .discover => true
  | .equalise => true
  | .align => true
  | .active => true
  | .idle => true
  | .folded => true
  | .waking => true
  | .claimed => false

/-- FELTp_STAT (Table 14-12). -/
def Felt.stat (f : Felt) : Nat :=
  f.pPkg * 2 ^ 20 + f.pLink * 2 ^ 14 + f.rate * 2 ^ 10 + 512 * b2n f.departed + 256 * b2n f.arrived + f.st.code

/-- `ident` of the partner, as the two PID words read. -/
def Felt.pid (f : Felt) : Nat := if f.st.meets then f.pIdent.toNat else 0

/-- RINGn_STAT (Table 6-8). -/
def Die.ringStat (x : Die) (n : Nat) : Nat :=
  let r := x.ring n
  16 * x.isPend (0x6000 + 32 * n) + 8 * b2n r.wrapWr + 4 * b2n r.wrapRd +
    2 * b2n (decide (x.ringLen n ≠ 0) && decide (x.ringHeld n = x.ringLen n - 1)) + b2n (decide (x.ringHeld n = 0))

/-- A channel state's code (Table 13-4). -/
def ChState.code : ChState → Nat
  | .active => 0
  | .selfRefresh => 1
  | .absent => 2
  | .lost => 3

/-- The region of a controller (R20). -/
def mcRegion (m : Nat) : Nat := if m < 32 then m / 4 else (m - 32) / 2

/-- MCn_STAT (Table 13-4). -/
def Die.mcStat (x : Die) (m : Nat) : Nat :=
  let c := x.mc m
  2048 * b2n (x.portPanic (mcRegion m)) + 1024 * b2n c.pause + 512 * b2n c.rfmHold + 256 * b2n c.ueSeen + 128 * b2n c.ceSeen +
    4 * (if m < 32 then c.ch1.code else 2) + c.ch0.code

/-- LEDGER_STAT (Table 15-5). -/
def Ledger.stat (l : Ledger) : Nat := 8 * b2n l.scBackstop + 4 * b2n l.scStepped + 2 * b2n l.scDeferred + b2n l.scWrap

/-- CFG_CTL (Table 16-3). -/
def Cfg.ctl (c : Cfg) : Nat := 8 * b2n c.restored + 4 * b2n c.crcErr + b2n c.chkEn

/-- Queue control blocks in D0's space. -/
def isQcb (d off : Nat) : Bool := decide (d = 0) && decide (0x80000 ≤ off) && decide (off < 0x100000)

/-- The 64-bit pair a word belongs to, and whether it is the high one (R410): 0 CYC_ACLK, 1 CYC_NCLK, 2 DIE_ENERGY,
3 + r FAB_ENERGYr. -/
def pairOf (off : Nat) : Option (Nat × Bool) :=
  if off = 0x10 then some (0, false) else if off = 0x14 then some (0, true)
  else if off = 0x18 then some (1, false) else if off = 0x1C then some (1, true)
  else if off = 0x1000 then some (2, false) else if off = 0x1004 then some (2, true)
  else if 0x1010 ≤ off ∧ off < 0x1050 ∧ off % 4 = 0 then some (3 + (off - 0x1010) / 8, off % 8 == 4)
  else none

/-- The live value of a pair. -/
def Die.pairVal (x : Die) (k : Nat) : BitVec 64 :=
  if k = 0 then x.led.cycA else if k = 1 then x.led.cycN else if k = 2 then x.led.dieNj else tget x.led.fabNj (k - 3) 0

/-- A block's registers of the word space, each aligned word as it stands; a pair's words read live here (their reads go
through `State.pairRead`). Reserved places read zero (R405). -/
def State.wordAt (s : State) (d off : Nat) : Nat :=
  let x := s.die d
  let blk := off / 4096
  let o := off % 4096
  if isQcb d off then s.qcbRead ((off - 0x80000) / 64) (off % 64)
  else if off % 4 ≠ 0 then 0
  else if off = 0 then s.part.dieId d
  else if off = 4 then s.psi.straps
  else if off = 8 then s.bootStat d
  else if off = 0xC then s.clkStat d
  else if off = 0x28 then x.pressPend
  else if off = 0x1008 then x.led.stat
  else if off = 0x2000 then x.netEpoch
  else if off = 0x2008 then x.rgnStat
  else if off = 0x3004 then x.dnStat
  else if off = 0x3008 then x.darner.frame.toNat
  else if blk = 4 ∧ o < 0x80 ∧ o % 16 = 4 then x.rtpStat (o / 16)
  else if blk = 5 ∧ 0x100 ≤ o ∧ o < 0x200 ∧ o % 32 = 4 then (x.felt ((o - 0x100) / 32)).stat
  else if blk = 5 ∧ 0x100 ≤ o ∧ o < 0x200 ∧ o % 32 = 8 then bitsOf (x.felt ((o - 0x100) / 32)).pid 31 0
  else if blk = 5 ∧ 0x100 ≤ o ∧ o < 0x200 ∧ o % 32 = 12 then bitsOf (x.felt ((o - 0x100) / 32)).pid 63 32
  else if blk = 6 ∧ o < 0x800 ∧ o % 32 = 4 then (x.ring (o / 32)).wr
  else if blk = 6 ∧ o < 0x800 ∧ o % 32 = 8 then (x.ring (o / 32)).rd
  else if blk = 6 ∧ o < 0x800 ∧ o % 32 = 12 then x.ringStat (o / 32)
  else if blk = 6 ∧ o < 0x800 ∧ o % 32 = 16 then x.regv off + x.isPend off
  else if blk = 8 ∧ o < 0xC00 ∧ o % 64 = 0 then x.mcStat (o / 64)
  else if blk = 15 ∧ cfgBlocks.contains (o / 16) ∧ o % 16 = 0 then (x.cfg (o / 16)).ctl
  else if blk = 15 ∧ cfgBlocks.contains (o / 16) ∧ o % 16 = 4 then (x.cfg (o / 16)).ref.toNat
  else if blk = 15 ∧ cfgBlocks.contains (o / 16) ∧ o % 16 = 8 then (x.cfg (o / 16)).crc.toNat
  else if (pwMask off).isSome then x.regv off
  else
    match pairOf off with
    | some (k, hi) => if hi then (x.pairVal k).toNat / 2 ^ 32 else (x.pairVal k).toNat % 2 ^ 32
    | none => 0

/-! ## Read-clear bits (R406) -/

/-- The RC bits of a register. -/
def rcMask (d off : Nat) : Nat :=
  let blk := off / 4096
  let o := off % 4096
  if isQcb d off then (if off % 64 = 4 then 0x700 else 0)
  else if off = 0x1008 then 0xF
  else if off = 0x2008 then 0xFFFF0000
  else if off = 0x3004 then 0x7
  else if blk = 4 ∧ o < 0x80 ∧ o % 16 = 4 then 0x4
  else if blk = 5 ∧ 0x100 ≤ o ∧ o < 0x200 ∧ o % 32 = 4 then 0x300
  else if blk = 6 ∧ o < 0x800 ∧ o % 32 = 12 then 0xC
  else if blk = 8 ∧ o < 0xC00 ∧ o % 64 = 0 then 0x380
  else if blk = 15 ∧ cfgBlocks.contains (o / 16) ∧ o % 16 = 0 then 0xC
  else 0

/-- The RC bits of `m` cleared in a register of a die. -/
def Die.clearRc (x : Die) (off m : Nat) : Die :=
  let blk := off / 4096
  let o := off % 4096
  let keep (i : Nat) (b : Bool) : Bool := b && !(bitAt m i)
  if off = 0x1008 then x.modLed fun l => { l with
    scBackstop := keep 3 l.scBackstop, scStepped := keep 2 l.scStepped, scDeferred := keep 1 l.scDeferred
    scWrap := keep 0 l.scWrap }
  else if off = 0x2008 then
    (List.range 8).foldl (fun (x : Die) r =>
      if bitAt m (16 + r) || bitAt m (24 + r) then
        x.modRegion r fun g => { g with wakeSeen := keep (16 + r) g.wakeSeen, cancelSeen := keep (24 + r) g.cancelSeen }
      else x) x
  else if off = 0x3004 then { x with darner := { x.darner with
    selfFail := keep 2 x.darner.selfFail, dblSeen := keep 1 x.darner.dblSeen, sglSeen := keep 0 x.darner.sglSeen } }
  else if blk = 4 then x.modRegion (o / 16) fun g => { g with panicSeen := keep 2 g.panicSeen }
  else if blk = 5 then x.modFelt ((o - 0x100) / 32) fun f => { f with
    departed := keep 9 f.departed, arrived := keep 8 f.arrived }
  else if blk = 6 then x.modRing (o / 32) fun r => { r with wrapWr := keep 3 r.wrapWr, wrapRd := keep 2 r.wrapRd }
  else if blk = 8 then x.modMC (o / 64) fun c => { c with
    rfmHold := keep 9 c.rfmHold, ueSeen := keep 8 c.ueSeen, ceSeen := keep 7 c.ceSeen }
  else x.modCfg (o / 16) fun c => { c with restored := keep 3 c.restored, crcErr := keep 2 c.crcErr }

/-- The RC bits of `m` cleared in a register. -/
def State.clearRc (s : State) (d off m : Nat) : State :=
  if isQcb d off then
    s.modQueue ((off - 0x80000) / 64) fun x => { x with
      errDie := x.errDie && !(bitAt m 10), errFrame := x.errFrame && !(bitAt m 9), errWin := x.errWin && !(bitAt m 8) }
  else s.modDie d fun x => x.clearRc off m

/-! ## Paths (R400 to R402) -/

/-- Debug is unlocked for the sideband's accesses to a die (R433). -/
def State.unlocked (s : State) (d : Nat) : Bool := s.psi.dbg.scope.getLsbD 0 && s.psi.dbg.dies.getLsbD d

/-- The die's controller performs accesses. -/
def State.ctlRuns (s : State) (d : Nat) : Bool := s.live d

/-- The path clears the RC bits it reads (R406). -/
def State.clears (s : State) (path : RegPath) (d : Nat) : Bool :=
  match path with
  | .firmware _ => true
  | .sideband => s.unlocked d
  | .host _ => true

/-- The path may read the register: the host its own functions' control blocks only (R400). -/
def State.mayRead (s : State) (path : RegPath) (d off : Nat) : Bool :=
  match path with
  | .firmware _ => true
  | .sideband => true
  | .host f => isQcb d off && decide ((s.queue ((off - 0x80000) / 64)).func = f)

/-- The reader whose snapshots a read uses (R410): a core of the die controller, or Psiurn. -/
def readerOf (path : RegPath) : Nat :=
  match path with
  | .firmware core => core + 1
  | .sideband => 0
  | .host _ => 0

/-! ## Reads -/

/-- A read of a pair's word (R410): the low word takes a snapshot, CYC_ACLK's of both counters. -/
def State.pairRead (s : State) (path : RegPath) (d k : Nat) (hi : Bool) : Nat × State :=
  let x := s.die d
  let key (n : Nat) : Nat := readerOf path * 16 + n
  if hi then ((tget x.snaps (key k) (x.pairVal k)).toNat / 2 ^ 32, s)
  else
    let y := { x with snaps := tput x.snaps (key k) (x.pairVal k) }
    let z := if k = 0 then { y with snaps := tput y.snaps (key 1) (x.pairVal 1) } else y
    ((x.pairVal k).toNat % 2 ^ 32, s.setDie d z)

/-- A whole aligned word read through a path, with its side effects. -/
def State.readWord (s : State) (path : RegPath) (d off : Nat) : Nat × State :=
  if !(s.mayRead path d off) then (0, s)
  else
    match pairOf off with
    | some (k, hi) => s.pairRead path d k hi
    | none =>
      let v := s.wordAt d off
      let m := Nat.land v (rcMask d off)
      (v, if s.clears path d && m != 0 then s.clearRc d off m else s)

/-- The word offset and bit that an alias offset names (R407). -/
def aliasOf (off : Nat) : Option (Nat × Nat) :=
  if 0x2000000 ≤ off ∧ off < 0x4000000 then some ((off - 0x2000000) / 128 * 4, (off - 0x2000000) % 128 / 4) else none

/-- A bit read through its alias: reading an RC bit clears that bit alone. -/
def State.readBit (s : State) (path : RegPath) (d off b : Nat) : Nat × State :=
  if !(s.mayRead path d off) then (0, s)
  else
    let v := bitsOf (s.wordAt d off) b b
    (v, if s.clears path d && bitAt (rcMask d off) b && v == 1 then s.clearRc d off (2 ^ b) else s)

/-- A read at an offset of a die's space (R402 to R407): a narrow or misaligned one returns its bytes of the containing
word. -/
def State.readOff (s : State) (path : RegPath) (d off : Nat) : Nat × State :=
  let base := off / 4 * 4
  let cut (p : Nat × State) : Nat × State := (p.1 / 2 ^ (8 * (off % 4)), p.2)
  if s.dieCount ≤ d ∨ (s.die d).lost = true then (0, s)
  else if !(s.ctlRuns d) then (if base ≤ 8 then cut (s.wordAt d base, s) else (0, s))
  else
    match aliasOf base with
    | some (a, b) => cut (s.readBit path d a b)
    | none => if base < 0x100000 then cut (s.readWord path d base) else (0, s)

/-- A host read of `n` bytes (R376, R403), `none` where it completes with Unsupported Request: BAR0 reads zero, BAR2 one word or two,
BAR4 the MSI-X table. -/
def State.barRead (s : State) (f bar off n : Nat) : Option (List Byte) × State :=
  if bar = 0 then (some (zeros n), s)
  else if bar = 2 then
    if 8 < n then (none, s)
    else
      let a := s.readOff (.host f) 0 (0x80000 + off)
      if n ≤ 4 then (some (le n a.1), a.2)
      else
        let b := a.2.readOff (.host f) 0 (0x80000 + off + 4)
        (some (le 4 a.1 ++ le (n - 4) b.1), b.2)
  else (some (mreadN (s.func f).bar4 off n), s)

/-! ## Presses (R411, R412, R160, R369) -/

/-- A ring's pointers under a new length (R160). -/
def Die.newLen (x : Die) (n : Nat) : Die :=
  let l := x.ringLen n
  x.modRing n fun r =>
    if l = 0 then r
    else { r with
      wr := r.wr % l, rd := r.rd % l, wrapWr := r.wrapWr || decide (l ≤ r.wr), wrapRd := r.wrapRd || decide (l ≤ r.rd) }

/-- The pseudo-channels that a ring may lie on: all, or those of the region whose real-time port it is bound to (R466). -/
def Die.ringChans (x : Die) (n : Nat) : List Nat :=
  match (x.boundPorts n).find? fun p => p.2.2 == 3 || p.2.2 == 4 with
  | some p => (List.range 8).map (8 * p.1 + ·)
  | none => List.range 64

/-- A register's PW fields take a value; what hangs on them follows: a ring's pointers (R160), a channel's end (R369), the
panic levels (R257), a link's `enable` (R359). -/
def State.applyPw (s : State) (d off v : Nat) : State :=
  let x := s.die d
  let m := (pwMask off).getD 0
  let old := x.regv off
  let new := old - Nat.land old m + Nat.land v m
  let s1 := s.modDie d fun x => x.setPreg off { applied := BitVec.ofNat 32 new, pend := none }
  if 0x6000 ≤ off ∧ off < 0x6800 ∧ off % 32 = 0 then s1.modDie d fun x => (x.newLen ((off - 0x6000) / 32)).placeRing ((off - 0x6000) / 32) (x.ringChans ((off - 0x6000) / 32))
  else if 0x6000 ≤ off ∧ off < 0x6800 ∧ off % 32 = 16 ∧ new ≠ old then
    s1.modDie d fun x => x.modRing ((off - 0x6000) / 32) fun r => { r with chan := r.chan.rebound }
  else if 0x4000 ≤ off ∧ off < 0x4080 then s1.modDie d fun x => x.testPanic ((off - 0x4000) / 16)
  else if 0x5100 ≤ off ∧ off < 0x5200 then s1.feltPressed d ((off - 0x5100) / 32) (bitAt old 0)
  else s1

/-- The offsets that a press of the groups reaches, rising. -/
def Die.pressed (x : Die) (groups : Nat) : List Nat :=
  (x.pregs.filter fun e => e.2.pend.isSome && bitAt groups (x.grpOf e.1)).map (·.1)

/-- PRESS_GO (R412): every pending value of the groups is applied at one edge. -/
def State.press (s : State) (d groups : Nat) : State :=
  ((s.die d).pressed groups).foldl (fun s off =>
    match ((s.die d).preg off).pend with
    | some v => s.applyPw d off v.toNat
    | none => s) s

/-- PRESS_CANCEL (R412): the pending values of the groups are discarded. -/
def State.cancelPress (s : State) (d groups : Nat) : State :=
  s.modDie d fun x => (x.pressed groups).foldl (fun (x : Die) off => x.setPreg off { x.preg off with pend := none }) x

/-! ## Writes -/

/-- A write of the FELT block that the sideband may make before an unlock (R401): `v` is the word written to a register with
PW fields. -/
def sideFelt (off v : Nat) : Bool :=
  decide (0x5000 ≤ off) && decide (off < 0x6000) && (pwMask off).isSome && decide (12 ≤ bitsOf v 31 28) &&
    !(decide (0x5100 ≤ off) && decide (off < 0x5200) && bitAt v 1)

/-- The word that an alias write makes of a register's RW and PW bits: pending bits start from the applied value (R407). -/
def Die.aliasWord (x : Die) (off b d : Nat) : Nat :=
  let p := x.preg off
  let m := (pwMask off).getD 0
  let now := p.applied.toNat - Nat.land p.applied.toNat m + Nat.land (p.pend.getD p.applied).toNat m
  now - bitsOf now b b * 2 ^ b + d * 2 ^ b

/-- A path's write is permitted (R400, R401). `bit` is the alias's bit, `none` for a whole word. -/
def State.mayWrite (s : State) (path : RegPath) (d off v : Nat) (bit : Option Nat) : Bool :=
  match path with
  | .firmware _ => true
  | .host f => isQcb d off && bit.isNone && decide ((s.queue ((off - 0x80000) / 64)).func = f)
  | .sideband =>
    s.unlocked d || (match bit with
      | none => sideFelt off v
      | some b =>
        sideFelt off ((s.die d).aliasWord off b (v % 2)) &&
          (decide (28 ≤ b) || bitAt ((pwMask off).getD 0) b)) || decide (off = 0xF050) ||
      (decide (off = 0x20) || decide (off = 0x24))

/-- Press groups that a path's write of PRESS_GO or PRESS_CANCEL acts on (R401). -/
def State.groupsOf (s : State) (path : RegPath) (d v : Nat) : Nat :=
  match path with
  | .firmware _ => v % 2 ^ 16
  | .sideband => if s.unlocked d then v % 2 ^ 16 else Nat.land v 0xF000
  | .host _ => 0

/-- A block out of service takes no writes (R23, R415). -/
def Die.blockFenced (x : Die) (off : Nat) : Bool := decide (off < 0x80000) && x.isFenced 17 (off / 4096)

/-- A permitted whole-word write (R403 to R415). `selfcheck_now` acts by its own command (SELFCHECK_NOW). -/
def State.writeWord (s : State) (path : RegPath) (d off v : Nat) : State :=
  let blk := off / 4096
  let o := off % 4096
  if isQcb d off then s.qcbWrite ((off - 0x80000) / 64) (off % 64) v
  else if (s.die d).blockFenced off then s
  else if off = 0x20 then s.press d (s.groupsOf path d v)
  else if off = 0x24 then s.cancelPress d (s.groupsOf path d v)
  else if blk = 15 ∧ cfgBlocks.contains (o / 16) ∧ o % 16 = 0 then
    s.modDie d fun x => x.modCfg (o / 16) fun c => { c with chkEn := bitAt v 0, commitPend := c.commitPend || bitAt v 1 }
  else if blk = 15 ∧ cfgBlocks.contains (o / 16) ∧ o % 16 = 4 then
    s.modDie d fun x => x.modCfg (o / 16) fun c => { c with ref := BitVec.ofNat 32 v }
  else
    match pwMask off with
    | none => s
    | some m =>
      let s1 := s.modDie d fun x =>
        let a := (x.preg off).applied.toNat
        x.setPreg off { applied := BitVec.ofNat 32 (a % 2 ^ 28 + bitsOf v 31 28 * 2 ^ 28)
                        pend := some (BitVec.ofNat 32 (Nat.land v m)) }
      if 0x5100 ≤ off ∧ off < 0x5200 ∧ bitAt v 1 = true then s1.linkRetrain d ((off - 0x5100) / 32) else s1

/-- A permitted alias write of one bit (R407). -/
def State.writeBit (s : State) (d off b v : Nat) : State :=
  let blk := off / 4096
  let o := off % 4096
  let one := v % 2
  if isQcb d off then
    if off % 64 = 0 then s
    else
      let now := s.qcbRead ((off - 0x80000) / 64) (off % 64)
      s.qcbWrite ((off - 0x80000) / 64) (off % 64) (now - bitsOf now b b * 2 ^ b + one * 2 ^ b)
  else if (s.die d).blockFenced off then s
  else if blk = 15 ∧ cfgBlocks.contains (o / 16) ∧ o % 16 = 0 then
    s.modDie d fun x => x.modCfg (o / 16) fun c => { c with
      chkEn := if b = 0 then one == 1 else c.chkEn, commitPend := c.commitPend || (b == 1 && one == 1) }
  else if blk = 15 ∧ cfgBlocks.contains (o / 16) ∧ o % 16 = 4 then
    s.modDie d fun x => x.modCfg (o / 16) fun c =>
      { c with ref := BitVec.ofNat 32 (c.ref.toNat - bitsOf c.ref.toNat b b * 2 ^ b + one * 2 ^ b) }
  else
    match pwMask off with
    | none => s
    | some m =>
      let w := (s.die d).aliasWord off b one
      if 28 ≤ b then
        s.modDie d fun x => x.setPreg off { x.preg off with
          applied := BitVec.ofNat 32 ((x.preg off).applied.toNat % 2 ^ 28 + bitsOf w 31 28 * 2 ^ 28) }
      else if bitAt m b then
        s.modDie d fun x => x.setPreg off { x.preg off with pend := some (BitVec.ofNat 32 (Nat.land w m)) }
      else if 0x5100 ≤ off ∧ off < 0x5200 ∧ b = 1 ∧ one = 1 then s.linkRetrain d ((off - 0x5100) / 32)
      else s

/-- The sideband's answer to a write: 0 done, 1 refused (Table 17-6). -/
def State.writeAnswer (s : State) (path : RegPath) (done : Bool) : State :=
  match path with
  | .firmware _ => s
  | .host _ => s
  | .sideband => s.sideReply [if done then 0 else 1]

/-- A write at an offset of a die's space (R400 to R407). -/
def State.writeOff (s : State) (path : RegPath) (d off v : Nat) : State :=
  if s.dieCount ≤ d ∨ (s.die d).lost = true then s.writeAnswer path true
  else if !(s.ctlRuns d) then s.writeAnswer path false
  else if off % 4 ≠ 0 then s.writeAnswer path true
  else
    match aliasOf off with
    | some (a, b) =>
      if s.mayWrite path d a v (some b) then (s.writeBit d a b v).writeAnswer path true else s.writeAnswer path false
    | none =>
      if 0x100000 ≤ off then s.writeAnswer path true
      else if s.mayWrite path d off v none then (s.writeWord path d off v).writeAnswer path true
      else s.writeAnswer path false

/-! ## The commands -/

/-- The path exists now: the die's firmware runs, Psiurn answers, the host's link is up. -/
def State.pathOn (s : State) (path : RegPath) (d : Nat) : Bool :=
  match path with
  | .firmware _ => s.live d
  | .sideband => s.sideOn
  | .host f => s.running && s.hostReaches f

/-- A read's value is put out (R404); on the sideband it is the response. -/
def State.putRead (p : Nat × State) (path : RegPath) : State :=
  let s1 := { p.2 with regOut := BitVec.ofNat 32 p.1 }
  match path with
  | .firmware _ => s1
  | .host _ => s1
  | .sideband => s1.sideReply (le 4 p.1)

/-- REG_READ: the sideband reads a word by its package address (R402, R404). -/
def execRegRead (addr : BitVec 32) (s : State) : Out :=
  event s true s.sideOn (State.putRead (s.readOff .sideband (addr.toNat / 2 ^ 26) (addr.toNat % 2 ^ 26)) .sideband)

/-- REG_WRITE: the sideband writes a word; the answer says whether it was refused (R400 to R402). -/
def execRegWrite (addr value : BitVec 32) (s : State) : Out :=
  event s true s.sideOn (s.writeOff .sideband (addr.toNat / 2 ^ 26) (addr.toNat % 2 ^ 26) value.toNat)

/-- The register an offset names, directly or through an alias. -/
def regOf (off : Nat) : Nat :=
  match aliasOf off with
  | some (a, _) => a
  | none => off

/-- PW_WRITE: a write to a register with PW fields is pending until its press (R411). -/
def execPwWrite (path : RegPath) (die : Nat) (off value : BitVec 32) (s : State) : Out :=
  event s (decide (die < s.dieCount) && (pwMask (regOf off.toNat)).isSome) (s.pathOn path die)
    (s.writeOff path die off.toNat value.toNat)

/-- PRESS_GO (R412). -/
def execPressGo (path : RegPath) (die : Nat) (mask : BitVec 32) (s : State) : Out :=
  event s (decide (die < s.dieCount)) (s.pathOn path die) (s.writeOff path die 0x20 mask.toNat)

/-- PRESS_CANCEL (R412). -/
def execPressCancel (path : RegPath) (die : Nat) (mask : BitVec 32) (s : State) : Out :=
  event s (decide (die < s.dieCount)) (s.pathOn path die) (s.writeOff path die 0x24 mask.toNat)

/-- COMMIT: `commit` of a block's CFG_CTL written through its alias (R407, R415). -/
def execCommit (path : RegPath) (die block : Nat) (s : State) : Out :=
  event s (decide (die < s.dieCount) && cfgBlocks.contains block) (s.pathOn path die)
    (s.writeOff path die (0x2000000 + 32 * (0xF000 + 16 * block) + 4) 1)

/-- READ_CLEAR: a read of a register with RC bits (R406). -/
def execReadClear (path : RegPath) (die : Nat) (off : BitVec 32) (s : State) : Out :=
  event s (decide (die < s.dieCount) && decide (rcMask die (regOf (off.toNat / 4 * 4)) ≠ 0)) (s.pathOn path die)
    (State.putRead (s.readOff path die off.toNat) path)

/-- SNAPSHOT_READ: a read of a word of a 64-bit pair (R410). -/
def execSnapshotRead (path : RegPath) (die : Nat) (off : BitVec 32) (s : State) : Out :=
  event s (decide (die < s.dieCount) && (pairOf (off.toNat / 4 * 4)).isSome) (s.pathOn path die)
    (State.putRead (s.readOff path die off.toNat) path)

/-- REGISTER_WRITE: any other word or alias write (R400, R403 to R407). -/
def execRegisterWrite (path : RegPath) (die : Nat) (off value : BitVec 32) (s : State) : Out :=
  event s (decide (die < s.dieCount)) (s.pathOn path die) (s.writeOff path die off.toNat value.toNat)

/-! ## The configuration check (R414, R415) -/

/-- A block's registers rewritten from firmware's copy and pressed (R415). -/
def State.restoreBlock (s : State) (d b : Nat) : State :=
  let copy := ((s.die d).cfg b).copy
  (pwOffsets b).foldl (fun s off =>
    let v := tget copy off (BitVec.ofNat 32 (pwReset off))
    (s.modDie d fun x => x.setPreg off { x.preg off with
      applied := BitVec.ofNat 32 ((x.preg off).applied.toNat % 2 ^ 28 + bitsOf v.toNat 31 28 * 2 ^ 28) }).applyPw d off v.toNat) s

/-- REGISTER_RESTORED (Table 18-5). -/
def restoredEvent (d b : Nat) : Event :=
  { Event.blank 0x0052 12 1 .ok with die := d, unitKind := 0x11, unit := b, arg0 := b }

/-- A pass that differs from CFG_REF (R415, R296); the second within 1 s of the die's NCLK (log entry 43) is a block-level error. -/
def State.mismatch (s : State) (d b : Nat) : State :=
  let c := (s.die d).cfg b
  let now := (s.die d).led.cycN.toNat
  let second := match c.recent with
    | some t => decide (now ≤ t + nclkSecond)
    | none => false
  let s1 := s.modDie d fun x => x.modCfg b fun c => { c with crcErr := true, recent := some now }
  if second && b != 3 then s1.fence d 17 b 4 none
  else
    let s2 := ((s1.restoreBlock d b).modDie d fun x => x.modCfg b fun c =>
      { c with restored := true, commitPend := true }).emit (restoredEvent d b)
    if b = 3 then s2.selfCheck d false else s2

/-- One full pass of a block (R414): the result into CFG_CRC; a commit that waits takes it; a comparison otherwise. -/
def doCfgCrcPass (d b : Nat) (s : State) : State :=
  let x := s.die d
  let crc := x.blockCrc b
  let c := x.cfg b
  let s1 := s.modDie d fun x => x.modCfg b fun c => { c with crc := crc }
  if c.commitPend then
    s1.modDie d fun x => x.modCfg b fun c => { c with
      ref := crc, chkEn := true, commitPend := false
      copy := (pwOffsets b).map fun off => (off, (x.preg off).applied) }
  else if c.chkEn && crc != c.ref then s1.mismatch d b else s1

/-- CFG_CRC_PASS (R414). -/
def execCfgCrcPass (die block : Nat) (s : State) : Out :=
  event s (decide (die < s.dieCount) && cfgBlocks.contains block) (s.live die) (doCfgCrcPass die block s)

end Sys2Proof.Machine
end

