-- ==== Sys2Proof/Machine/Package.lean ====
section
/-! DEFINITION. The package: supply and firmware checks (R424, R454), package reset, boot (R420 to R424, R456) and the start-up
image (R279 to R283). -/

namespace Sys2Proof.Machine

/-! ## The supply, the clock and running firmware -/

/-- VIN in the bands that only a hold-up time bridges (R454). -/
def holdUpBand (mv : Nat) : Bool := (decide (36000 ≤ mv) && decide (mv < 40000)) || (decide (60000 < mv) && decide (mv ≤ 63000))

/-- VIN leaves its range: below 36 V Psiurn returns to reset; elsewhere the error is package-fatal. Where the command names no
voltage it is a free value in its band (log entry 10). -/
def doVinExcursion (k : VinKind) (s : State) : State :=
  let (n, s1) := s.freeNat
  match k with
  | .below36 =>
    let s2 := { s1 with pins := { s1.pins with vinMv := n % 36000 } }.packageReset
    { s2 with pins := { s2.pins with pkgRstN := true } }
  | .holdUp mv => ({ s with pins := { s.pins with vinMv := mv } }).fatal 1
  | .above63 => ({ s1 with pins := { s1.pins with vinMv := 63001 + n } }).fatal 1

/-- VIN_EXCURSION (R29, R454): watched once Psiurn has left reset, while PKG_RST_N is high. -/
def execVinExcursion (k : VinKind) (s : State) : Out :=
  event s true (s.pins.pkgRstN && s.psi.state != .inReset && (match k with
      | .below36 => true
      | .holdUp mv => holdUpBand mv
      | .above63 => true))
    (doVinExcursion k s)

/-- FW_REHASH (R424): a mismatch is package-fatal. -/
def execFwRehash (isSame : Bool) (s : State) : Out := event s true s.running (if isSame then s else s.fatal 4)

/-- PACKAGE_RESET (R459): PKG_RST_N has been low for 100 reference edges. -/
def execPackageReset (s : State) : Out := event s true true s.packageReset

/-! ## Boot (Table 17-2) -/

/-- The grade minimum (Table 0-2). -/
def Part.tMin (p : Part) : Int := if p.gradeI then -40 else 0

/-- The free value `k` places after the next one. -/
def State.freeAt (s : State) (k : Nat) : Nat := Config.freeNat (s.freeCount + k)

/-- Boot stops (R423): nothing of the dies has left reset. -/
def State.bootStop (s : State) (st : Status) : State :=
  s.modPsi fun y => { y with state := .bootStopped, cfgStep := 2, status := st }

/-- A controller's channels after training, and the refresh management its devices' mode registers ask for: open to the devices,
a free value (R339, log entry 10). -/
def bootMC (f : BootFacts) (d m n req ini mx : Nat) : MC :=
  let bad (c : Nat) : Bool := f.trainFail.contains (d, c) || (decide (64 ≤ c) && f.lpddrBad.contains d)
  let st (c : Nat) : ChState := if bad c then .absent else .active
  { MC.reset with
    ch0 := st n, ch1 := if m < 32 then st (n + 1) else .absent
    rfmReq := decide (32 ≤ m) || decide (req % 2 = 1), rfmInit := 1 + ini, rfmMax := 1 + ini + mx }

/-- The first channel of a controller. -/
def mcFirst (m : Nat) : Nat := if m < 32 then 2 * m else 32 + m

/-- Every block of configuration registers is committed (R415, boot step 8). -/
def Die.commitAll (x : Die) : Die :=
  { x with cfgs := cfgBlocks.map fun b => (b, { Cfg.reset with
      chkEn := true, ref := x.blockCrc b, crc := x.blockCrc b
      copy := (pwOffsets b).map fun o => (o, (x.preg o).applied) }) }

/-- A die as boot steps 7 and 8 leave it. Free values from place `k` on: 0 and 1 the keys of slot 0, 4 to 11 the calibration
figures of the four ACLK steps (R392), 16 on those of the controllers. -/
def State.bootedDie (s : State) (f : BootFacts) (d k : Nat) (tempC : Int) : Die :=
  let x := Die.reset s.part.variant
  let mcs := (List.range 48).map fun m =>
    (m, bootMC f d m (mcFirst m) (s.freeAt (k + 16 + 4 * m)) (s.freeAt (k + 17 + 4 * m)) (s.freeAt (k + 18 + 4 * m)))
  { x with
    running := true, fwOk := true, trained := true, lpAbsent := f.lpddrBad.contains d, mcs := mcs
    sealSlots := [(0, Config.freeKey (s.freeCount + k), Config.freeKey (s.freeCount + k + 1), 0xFF)]
    led := { x.led with
      tempC := tempC
      cal := (List.range 4).map fun i => (i, (s.freeAt (k + 4 + 2 * i), (s.freeAt (k + 5 + 2 * i) : Int))) } }.commitAll

/-- CHANNEL_ABSENT (R340, R442): `cause` 1 training, 2 LPDDR5X population. -/
def channelAbsent (d c cause : Nat) : Event :=
  let u := mcUnit (chanMC c)
  { Event.blank 0x0013 6 1 .unitFenced with
    die := d, region := chanRegion c, unitKind := u.1, unit := u.2, arg0 := frameArg c 0, arg1 := cause,
    detail := BitVec.ofNat 32 (fencedDetail u.1 d u.2) }

/-- The channels of a die that boot found absent, with the cause. -/
def BootFacts_absent (f : BootFacts) (d : Nat) : List (Nat × Nat) :=
  (List.range 80).filterMap fun c =>
    if 64 ≤ c ∧ f.lpddrBad.contains d = true then some (c, 2)
    else if f.trainFail.contains (d, c) then some (c, 1) else none

/-- A die starts (boot step 7): one whose controller fails its self-test is lost (R28); the others report their absent channels
and their enabled Felt links start (R359). -/
def State.bootDie (s : State) (f : BootFacts) (d : Nat) : State :=
  let t := f.temps.getD d 25
  if f.dieFail.contains d then s.loseDie d 1
  else
    let s1 := { s.setDie d (s.bootedDie f d 0 t) with freeCount := s.freeCount + 256 }
    let s2 := (BootFacts_absent f d).foldl (fun s e => s.emit (channelAbsent d e.1 e.2)) s1
    (List.range 8).foldl (fun s p => if (s.die d).feltEnable p then s.linkDetect d p false else s) s2

/-- Boot step 7 on: every die starts, PWR_OK goes high, start-up continues at step 3, or at step 7 where CFG_SRC is high (Table
11-7). The running image's version is not in its header: a free value (log entry 10). -/
def State.bootDies (s : State) (f : BootFacts) (h : List Byte) : State :=
  if f.dieFail.contains 0 then s.fatal 5
  else if f.unreached.any fun d => decide (d < s.dieCount) then s.fatal 6
  else
    let (v, s1) := s.freeNat
    let s2 := s1.modPsi fun y => { y with
      state := .running, cfgStep := if y.strapCfg then 7 else 3
      fw := { version := BitVec.ofNat 32 v, secVersion := fieldAt h 116 4, digest := imgDigest h } }
    let s3 := (List.range s2.dieCount).foldl (fun s d => s.bootDie f d) s2
    { s3 with
      pins := { s3.pins with pwrOk := true, cfgDone := s3.psi.strapCfg }
      hostUp := s3.pins.perstN }

/-- The four key pairs, from the device secret (boot step 2, R420). -/
def Part.keys (p : Part) : DevKeys :=
  { identityEd := Config.identityEd p.secret, identityPq := Config.identityPq p.secret,
    wrapX := Config.wrapX p.secret, wrapMl := Config.wrapMl p.secret }

/-- The chains of slots 0 and 1: each certifies an identity key and carries both wrapping keys (R426). -/
def DevKeys.chains (k : DevKeys) : Tbl (List Byte) :=
  [(0, Config.certChain 0 k.identityEd (k.wrapX ++ k.wrapMl)), (1, Config.certChain 1 k.identityPq (k.wrapX ++ k.wrapMl))]

/-- Boot steps 3 to 8 (Table 17-2). -/
def State.bootImage (s : State) (f : BootFacts) : State :=
  match s.fwDir with
  | none => s.bootStop .imageCrc
  | some a =>
    let slot := fwSlot (s.fwDirAt a) (fieldAt (s.fwDirAt a) 24 1)
    match s.fwCheck slot f.chk with
    | some st => s.bootStop st
    | none => s.bootDies f (mreadN s.psi.flash slot 2048)

/-- Boot from the ROM's self-check on (Table 17-2). -/
def State.boot (s : State) (f : BootFacts) : State :=
  if !(f.romOk) then s.fatal 3
  else (s.modPsi fun y => { y with keys := some s.part.keys, certs := s.part.keys.chains }).bootImage f

/-- A sensor below the grade minimum (R456). -/
def State.tooCold (s : State) (f : BootFacts) : Bool :=
  decide (f.psiTemp < s.part.tMin) || (f.temps.take s.dieCount).any fun t => decide (t < s.part.tMin)

/-- Psiurn leaves reset: VIN is in its range (its value there free), the board's writes to the flash are in force, the straps are
sampled (R279); a cold sensor holds boot (R456). -/
def State.leaveReset (s : State) (f : BootFacts) : State :=
  let (n, s1) := s.freeNat
  let s2 := { s1 with pins := { s1.pins with pkgRstN := true, vinMv := 40000 + n % 20001 } }
  let s3 := s2.modPsi fun y => { y with
    state := .cold, cfgStep := 1, strapCfg := s.pins.cfgSrc, strapPull := s.pins.pullSel, tempC := f.psiTemp
    flash := f.flash.foldl (fun m w => mwriteN m w.1 w.2) y.flash }
  if s.tooCold f then
    (List.range s.dieCount).foldl (fun s d => s.modDie d fun x => x.modLed fun l => { l with tempC := f.temps.getD d 25 })
      (s3.modPsi fun y => { y with coldBoot := some f })
  else s3.boot f

/-- PACKAGE_RESET_RELEASE: with VIN, the reference and PKG_RST_N good, Psiurn leaves reset and boots (R422, R458). -/
def execPackageResetRelease (f : BootFacts) (s : State) : Out :=
  event s true (s.psi.state == .inReset) (s.leaveReset f)

/-- A sensor that was below the minimum has reached it: its value then is free from the minimum up (log entry 10). -/
def warmed (tMin t : Int) (n : Nat) : Int := if t < tMin then tMin + n else t

/-- SENSOR_MINIMUM_REACHED: boot continues (R456). -/
def execSensorMinimumReached (s : State) : Out :=
  event s true (s.psi.state == .cold && s.psi.coldBoot.isSome) (match s.psi.coldBoot with
    | none => s
    | some f =>
      let (n, s1) := s.freeNat
      let g := { f with temps := f.temps.map fun t => warmed s.part.tMin t n, psiTemp := warmed s.part.tMin f.psiTemp n }
      (s1.modPsi fun y => { y with coldBoot := none, tempC := g.psiTemp }).boot g)

/-! ## The start-up image (Table 11-7 steps 3 to 8) -/

/-- The configuration directory (R280). -/
def State.cfgDir (s : State) : List Byte := mreadN s.psi.flash 0x10000 64

/-- Its form: the magic, and zero in every byte without a meaning. -/
def cfgDirOk (l : List Byte) : Bool := decide (fieldAt l 0 4 = 0x52494443) && zeroAt l 4 4 && zeroAt l 24 40

/-- `die_regions` of a full image names the region. -/
def imgNames (h : List Byte) (d r : Nat) : Bool := bitAt (fieldAt h (12 + d) 1) r

/-- The header of a full image (R271, step 3): it is full, names the part, and no die that is absent or unusable. -/
def State.fullOk (s : State) (h : List Byte) : Bool :=
  imgFixed s.part.variant 1 (7488 + imgBodyLen h) h && imgReserved h && zeroAt h 9 2 && zeroAt h 20 8 &&
    (List.range 8).all fun d => decide (fieldAt h (12 + d) 1 = 0) || s.usable d

/-- Step 4: a frame outside the regions of `die_regions` ends the image. -/
def inRegions (h : List Byte) (a : Nat) : Option (Status × Nat) :=
  if imgNames h (faDie a) (faRegion a) then none else some (.badParam, 0xFFFFFFFF)

/-- The designs of a full image agree with the bank voltages that its frames set (R258). -/
def designsOk (h : List Byte) (t : Tbl (BitVec 1024)) (chk : ImgChk) : Bool :=
  (List.range 64).all fun k => !(imgNames h (k / 8) (k % 8)) ||
    designOk (chkDesign chk (k / 8) (k % 8)) ((tget t (frameAt (k / 8) (k % 8) 3 0 0) 0).extractLsb' 0 8).toNat

/-- Steps 3 to 5 on the image at a flash address: what it fails with (status, detail), or the frames it writes and for each illegal
select code its frame. -/
def State.readFull (s : State) (a : Nat) (chk : ImgChk) : Sum (Status × Nat) (Tbl (BitVec 1024) × List Nat) :=
  let h := mreadN s.psi.flash a 2048
  if !(s.fullOk h) || decide (2 ^ 32 < a + 7488 + imgBodyLen h) then .inl (.badParam, 0xFFFFFFFF)
  else
    match imgStep2 s.psi.imgKeys s.psi.cfgMin h (mreadN s.psi.flash (a + 2048) 5376) chk with
    | some st => .inl (st, if st = .badParam then 0xFFFFFFFF else 0)
    | none =>
      let n := imgBodyLen h
      let img := mreadN s.psi.flash a (7488 + n)
      let body := imgBody h ((img.drop 7424).take n) (s.imgKey h)
      let b := eatBody (inRegions h) true chk.illegal n (n / 64 + 1) body
        { used := 0, run := none, frames := [], bad := [], ended := none }
      match b.ended with
      | some e => .inl e
      | none =>
        if !(designsOk h b.frames chk) then .inl (.badParam, 0xFFFFFFFF)
        else match imgEnd h (img.drop (7424 + n)) img (s.imgKey h) with
        | some st => .inl (st, if st = .badParam then 0xFFFFFFFF else 0)
        | none => .inr (b.frames, b.bad)

/-- The frames of a die among an image's. -/
def dieFrames (t : Tbl (BitVec 1024)) (d : Nat) : Tbl (BitVec 1024) := t.filter fun e => faDie e.1 == d

/-- Step 6 on one region: it waits for its release with its bank at the image's voltage. -/
def Die.startRegion (x : Die) (h : List Byte) (d r : Nat) (g : Design) : Die :=
  (x.modFabric r fun f => { f with
    st := .loading, tenant := 0xFF, halted := true, bankV := x.bankCode d r, bankOk := true, released := false
    isoCodes := false, noRead := imgEncrypted h && !(bitAt (fieldAt h 7 1) 1), digest := imgDigest h }).startDesign d r g

/-- Step 6: the image's frames and regions on every die. -/
def State.startRegions (s : State) (h : List Byte) (t : Tbl (BitVec 1024)) (chk : ImgChk) : State :=
  (s.usableDies).foldl (fun s d => s.modDie d fun x =>
    ((List.range 8).filter (imgNames h d)).foldl (fun x r => x.startRegion h d r (chkDesign chk d r)) { x with frames := dieFrames t d }) s

/-- Step 7: CFG_DONE is released. -/
def State.releaseCfgDone (s : State) : State :=
  { s.modPsi (fun y => { y with cfgStep := 7 }) with pins := { s.pins with cfgDone := true } }

/-- An image has passed: its frames, its regions, the illegal codes of its frames (R244). -/
def State.startImage (s : State) (a : Nat) (t : Tbl (BitVec 1024)) (bad : List Nat) (chk : ImgChk) : State :=
  let s1 := s.startRegions (mreadN s.psi.flash a 2048) t chk
  bad.foldl (fun s a => (s.modDie (faDie a) fun x => x.count fbIllegalSel (faRegion a) 1).emit (illegalSelect a)) s1

/-- An image has failed: its status stands, its failure is reported (R282, R418). `which`: 0 primary, 1 fallback. -/
def State.startFails (s : State) (which a : Nat) (st : Status) (detail : Nat) : State :=
  (s.modPsi fun y => { y with status := st }).emit
    (imageFailed 0xFF 0xFF which st detail (imgId (mreadN s.psi.flash a 2048)))

/-- The fallback image, once the primary has failed (R282). -/
def State.startFallback (s : State) (b : Nat) (chk : ImgChk) : State :=
  if b = 0 then s
  else
    match s.readFull b chk with
    | .inl (st, det) => s.startFails 1 b st det
    | .inr (t, bad) => (s.modPsi fun y => { y with fallback := true }).startImage b t bad chk

/-- Steps 3 to 7. A malformed directory counts as the primary's failure, with IMAGE_CRC, and names no fallback. -/
def doStartUpImageLoad (primary fallback : ImgChk) (s : State) : State :=
  let dir := s.cfgDir
  if !(cfgDirOk dir) then
    ((s.modPsi fun y => { y with status := .imageCrc }).emit (imageFailed 0xFF 0xFF 0 .imageCrc 0 0)).releaseCfgDone
  else
    let a := fieldAt dir 8 8
    match s.readFull a primary with
    | .inr (t, bad) => (s.startImage a t bad primary).releaseCfgDone
    | .inl (st, det) => ((s.startFails 0 a st det).startFallback (fieldAt dir 16 8) fallback).releaseCfgDone

/-- START_UP_IMAGE_LOAD (R281, R282): once, after boot, where CFG_SRC was low. -/
def execStartUpImageLoad (primary fallback : ImgChk) (s : State) : Out :=
  event s true (s.running && !(s.psi.strapCfg) && s.psi.cfgStep == 3) (doStartUpImageLoad primary fallback s)

/-- `cfg_step` has reached a step of Table 11-7. -/
def State.reachStep (s : State) (n : Nat) : State := s.modPsi fun y => { y with cfgStep := max n y.cfgStep }

/-- The CFG_DONE line may be seen high by a die: the package has released it, and the die has not seen it yet (R281). -/
def State.cfgDoneDue (s : State) (d : Nat) : Bool := s.live d && s.pins.cfgDone && !((s.die d).sawDone)

/-- A die sees CFG_DONE high (step 8). -/
def doCfgDoneHigh (d : Nat) (s : State) : State := (s.modDie d fun x => { x with sawDone := true }).reachStep 8

end Sys2Proof.Machine
end

