-- ==== Sys2Proof/Machine/Streams.lean ====
section
/-! DEFINITION. Weight threads and stream engines (chapter 6). -/

namespace Sys2Proof.Machine

/-! ## Weight threads -/

/-- A fetch is issued: the head's first, else that of a gap-filling slot (R144, R148). With none to issue, a due one that waits for
a free entry is counted (R161). -/
def State.doThreadFetch (s : State) (d th : Nat) : State :=
  match tfind (s.die d).threads th with
  | none => s
  | some h =>
    let x := s.die d
    let issue (f : TFetch) : State := s.modDie d fun x =>
      let y := { x with threads := tput x.threads th { h with
        fetch := h.fetch ++ [f], next := if f.gap then h.next else h.next + 1 } }
      if f.gap then y.modTSlot f.slot.1 f.slot.2 fun q => { q with gapNext := q.gapNext + 1 } else y
    match x.headFetch h, x.gapFetch th h with
    | some f, _ => issue f
    | none, some f => issue f
    | none, none => s.modDie d fun x => (x.leadWaits th h).foldl (fun x e => x.count thLeadWait (slotUnit e.1 e.2) 1) x

/-- A fetch of the thread is due: it is issued if the die may have one more transaction (R16), or waits for an entry. -/
def State.fetchDue (s : State) (d th : Nat) : Bool :=
  let x := s.die d
  match tfind x.threads th with
  | none => false
  | some h => ((x.headFetch h).isSome || (x.gapFetch th h).isSome) && s.mayIssue d || !(x.leadWaits th h).isEmpty

/-- THREAD_FETCH (R144): a block fetch is issued at the swap that makes it due, or when an entry frees; its bursts follow by
STREAM_BURST. -/
def execThreadFetch (die thread : Nat) (s : State) : Out :=
  event s (decide (die < s.dieCount) && decide (thread < 128)) (s.live die && s.fetchDue die thread) (s.doThreadFetch die thread)

/-- A record is whole in the entry of member `pos` (R146). -/
def State.doBlockArrive (s : State) (d th pos : Nat) : State :=
  match tfind (s.die d).threads th with
  | none => s
  | some h =>
    match h.transit.find? fun t => t.1 == pos, h.members[pos]? with
    | some t, some e =>
      s.modDie d fun x =>
        (({ x with threads := tput x.threads th { h with transit := h.transit.erase t } }).modTSlot e.1 e.2 fun q =>
          { q with entries := q.entries ++ [t.2] }).pump th
    | _, _ => s

/-- THREAD_BLOCK_ARRIVE (R146): a weight block is whole in a free entry of a member, whose region is awake (R151); it is forwarded as soon as the next member has a free
entry, and its array's loader takes it at BLOCK_LOAD. -/
def execThreadBlockArrive (die thread pos : Nat) (s : State) : Out :=
  let x := s.die die
  let due := match tfind x.threads thread with
    | some h => (h.transit.any fun t => t.1 == pos) && match h.members[pos]? with
      | some e => !(x.region (e.1 / 16)).closed && (x.tslot e.1 e.2).all fun q => decide (q.entries.length < 4)
      | none => false
    | none => false
  event s (decide (die < s.dieCount) && decide (thread < 128)) (s.live die && due) (s.doBlockArrive die thread pos)

/-! ## Streams -/

/-- The context is resident on a tile of the kind, runs, and no switch is under way. -/
def Die.runsOn (x : Die) (c : Nat) (k : TileKind) : Bool :=
  match x.ctx c with
  | some y => y.st == .running && decide (y.kind = k) && match y.tile with
    | some t => (x.tileOcc k t).phase == .none
    | none => false
  | none => false

/-- The descriptor at byte `addr` of the context's tile. -/
def State.descAt (s : State) (d c addr : Nat) : BitVec 512 :=
  match (s.die d).ctxTile c with
  | some (y, t) => unitOf (mreadN ((s.die d).tileMem y.kind t) addr 64)
  | none => 0

/-- STREAM_ISSUE (R152, R154, R156): the running matrix context issues the descriptor at `addr` to stream index `idx`; a vector
context issues with SISSUE. A descriptor that is not on a 64-byte boundary of the declared memory is refused like one that
fails R154 (log entry 21). -/
def execStreamIssue (die ctx idx addr : Nat) (s : State) : Out :=
  let decl := (((s.die die).ctx ctx).map (·.declared)).getD 0
  event s (decide (die < s.dieCount) && decide (idx < 16)) (s.live die && (s.die die).runsOn ctx .matrix)
    (if addr % 64 = 0 ∧ addr + 64 ≤ decl then s.issueStream die ctx idx (s.descAt die ctx addr)
     else s.writeRec die ctx { tag := 0, status := .badParam, fp := 0 })

/-- 64-byte units of the next burst (R155): 2^`burst` bytes, or the rest of the row. -/
def SRun.units (r : SRun) : Nat := min (2 ^ (dw r.desc 0 23 20 - 6)) (dw r.desc 4 15 0 - r.col)

/-- The stream can move a burst now: its descriptor runs, its context is on a tile, its ring holds the units or has room. A thread's
stream needs no tile. -/
def Die.streamDue (x : Die) (q : Stream) : Bool :=
  match q.cur with
  | none => false
  | some r =>
    !q.stopped && !r.finished && (q.thread.isSome || (x.ctxTile q.ctx).isSome) &&
      (if dw r.desc 0 31 28 = 4 then decide (r.units ≤ x.ringHeld (dw r.desc 7 23 16))
       else if dw r.desc 0 31 28 = 5 then decide (r.units ≤ x.ringRoom (dw r.desc 7 23 16)) else true)

/-- The class of a stream's running descriptor. -/
def Stream.cls (q : Stream) : Nat :=
  match q.cur with
  | some r => dw r.desc 0 27 26
  | none => 3

/-- The streams of an engine that ask for a burst, each with the position it bursts from. -/
def Die.burstAsk (x : Die) (e : Nat) : List (Nat × Stream) :=
  ((x.streams.filter fun q => q.1 / 64 == e).map fun q => (q.1, { q.2 with cur := x.streamRun q.2 })).filter fun q =>
    x.streamDue q.2

/-- The stream that the engine's grant goes to (R24, R152). -/
def Die.burstPick (x : Die) (e : Nat) : Option (Nat × Stream) :=
  grantPick (fun q => q.2.cls) (fun q => q.2.waited) (fun q => q.2.granted) (x.burstAsk e)

/-- The next position after a burst (R155): along the row, then to the next row; past the last row every byte is written. -/
def SRun.next (r : SRun) : SRun :=
  let c := r.col + r.units
  if c < dw r.desc 4 15 0 then { r with col := c }
  else { r with col := 0, row := r.row + 1, finished := decide (dw r.desc 4 31 16 ≤ r.row + 1) }

/-- Byte address of the burst in local memory. -/
def SRun.tileAt (r : SRun) : Nat := 64 * (dw r.desc 3 14 0 + r.row * dw r.desc 6 15 0 + r.col)

/-- Byte offset of the burst in its grant. -/
def SRun.memAt (r : SRun) : Nat := sdOff r.desc + r.row * dw r.desc 5 31 0 + 64 * r.col

/-- Units taken from a ring. -/
def Die.ringTake (x : Die) (n : Nat) : Nat → Die × List Byte
  | 0 => (x, [])
  | k + 1 =>
    let u := unitBytes (x.ringFront n)
    let p := (x.ringPop n).ringTake n k
    (p.1, u ++ p.2)

/-- Units put into a ring. -/
def Die.ringGive (x : Die) (n : Nat) : Nat → List Byte → Die
  | 0, _ => x
  | k + 1, bs => (x.ringPush n (unitOf (bs.take 64))).ringGive n k (bs.drop 64)

/-- The bytes of one burst move. -/
def State.moveBurst (s : State) (d : Nat) (y : Ctx) (t : Nat) (r : SRun) : State :=
  let k := dw r.desc 0 31 28
  let u := r.units
  let ring := dw r.desc 7 23 16
  let x := s.die d
  let fromTile := mreadN (x.tileMem y.kind t) r.tileAt (64 * u)
  let toTile (s : State) (bs : List Byte) : State :=
    s.modDie d fun x => x.modTileMem y.kind t fun m => mwriteN m r.tileAt bs
  if k = 4 then
    let p := x.ringTake ring u
    toTile (s.setDie d (p.1.memAct 0 y.payer (64 * u))) p.2
  else if k = 5 then s.setDie d ((x.ringGive ring u fromTile).memAct 0 y.payer (64 * u))
  else
    match tfind y.grants (dw r.desc 0 7 0) with
    | none => s
    | some g =>
      if k = 1 then toTile (s.grantCount d y g r.memAt u) (s.grantRead d y.tenant y.model g r.memAt u)
      else s.grantWrite d y g r.memAt u fromTile

/-- A memory kind whose tenant's slot is EMPTY moves no data (R332). -/
def State.sealOut (s : State) (d : Nat) (y : Ctx) (r : SRun) : Bool := !(sdRing r.desc) && !(s.hasKey d y.tenant)

/-- SEALING_FAULT (R332, R442). The slot that a tenant without a key names is open (log entry 10). -/
def State.sealFault (s : State) (d node : Nat) : State :=
  let (n, s1) := s.freeNat
  s1.emit { Event.blank 0x0014 8 1 .authFail with die := d, arg0 := n % 256, arg1 := d * 256 + node }

/-- A burst with an uncorrectable error on the memory side (R155, R336): it writes nothing, its frame is dealt with. -/
def State.burstError (s : State) (d : Nat) (y : Ctx) (r : SRun) : State :=
  match tfind s.models y.model, tfind y.grants (dw r.desc 0 7 0) with
  | some m, some g =>
    match (m.place d g r.memAt).1 with
    | some (c, b) => s.frameUe d c (b / 524288)
    | none => s
  | _, _ => s

/-! ### Staging (R157) -/

/-- The streams that use a buffer, with their bursts' bytes there: read staging (0), write staging (1), the inbound buffer of a
tile (2). -/
def inBuffer (buf kind : Nat) : Bool :=
  if buf = 0 then kind == 1 || kind == 3 || kind == 4 else if buf = 1 then kind == 2 || kind == 5 else kind == 1 || kind == 4

/-- Bytes of a stream's bursts in flight in a buffer. -/
def Stream.staged (q : Stream) (buf : Nat) : Nat := ((q.flight.filter fun f => inBuffer buf f.1).map (·.2)).sum

/-- The streams that share a buffer with `q`: those of the die, or those of the context that is on its tile. -/
def Die.sharers (x : Die) (q : Stream) (buf : Nat) : List Stream :=
  (x.streams.map (·.2)).filter fun z => decide (buf < 2) || (z.thread.isNone && z.ctx == q.ctx)

/-- Bytes of a buffer (R157): 8 MiB, 4 MiB, 128 KiB. -/
def bufBytes (buf : Nat) : Nat := if buf = 0 then 8388608 else if buf = 1 then 4194304 else 131072

/-- A burst of `n` bytes has room in a buffer: in what is left of the stream's reservation of 4 KiB and of the shared space, which no
other stream has taken (R157). -/
def Die.bufRoom (x : Die) (q : Stream) (buf n : Nat) : Bool :=
  let l := x.sharers q buf
  let shared := bufBytes buf - 4096 * l.length
  let taken := (l.map fun z => z.staged buf - 4096).sum
  decide (q.staged buf + n ≤ 4096 + (shared - (taken - (q.staged buf - 4096))))

/-- A burst has room in every buffer of its kind. -/
def Die.burstRoom (x : Die) (q : Stream) (kind n : Nat) : Bool :=
  [0, 1, 2].all fun b => !(inBuffer b kind) || x.bufRoom q b n

/-- A burst enters the buffers. Without shared space the stream moves on its reservation alone, which is empty once its bursts in
flight have landed (R157, R161). -/
def Die.stage (x : Die) (n : Nat) (q : Stream) (kind bytes : Nat) : Die :=
  if x.burstRoom q kind bytes then
    { x with streams := tput x.streams n { q with flight := q.flight ++ [(kind, bytes)] } }
  else
    ({ x with streams := tput x.streams n { q with flight := [(kind, bytes)] } }).count seReserveOnly (n / 64) 1

/-! ### Bursts of thread sources (R143, R144, R151) -/

/-- The instance's weights are to be reloaded: its dispatches end UNIT_FENCED (R151). -/
def State.poisonModel (s : State) (model : Nat) : State :=
  match tfind s.models model with
  | some m => { s with models := tput s.models model { m with poisoned := true } }
  | none => s

/-- A record is whole in the hub: it goes to the slot it was fetched for, `poison` set if a burst of it failed. After the last
block of a source descriptor its completion record is written and its knot added to (R155). -/
def State.doneFetch (s : State) (d th : Nat) (h : Thread) (f : TFetch) (k : BlkPos) (bytes : List Byte) (bad : Bool) : State :=
  let last := !f.gap && decide (k.row + 1 = srcRows k.desc)
  let anyBad := h.srcBad || (bad && !f.gap)
  let s1 := s.modDie d fun x =>
    ({ x with threads := tput x.threads th { h with
        fetch := h.fetch.drop 1, part := [], bad := false, srcBad := anyBad && !last } }).deliverBlock th f
      (headEntry th f.block k bad bytes)
  if last then
    let s2 := s1.writeRec d h.ctx (sdRec k.desc (cond anyBad .unitFenced .ok))
    if dw k.desc 0 25 25 = 1 then s2.sendAdd d (dw k.desc 7 15 0) 1 else s2
  else s1

/-- A burst of a thread's stream: one more part of its oldest fetch. -/
def State.sourceBurst (s : State) (d e th : Nat) (r : SRun) (bad : Bool) : State :=
  match tfind (s.die d).threads th with
  | none => s
  | some h =>
    match h.fetch.head?, (s.die d).ctx h.ctx with
    | some f, some y =>
      match h.block f.block, tfind y.grants (dw r.desc 0 7 0) with
      | some k, some g =>
        let sealed := s.sealOut d y r
        let s0 := if sealed then s.sealFault d 26 else if bad then s.burstError d y r else s.grantCount d y g r.memAt r.units
        let fails := bad || sealed
        let s1 := if fails then s0.poisonModel y.model else s0
        let s2 := s1.modDie d fun x => x.count seBytes e (64 * r.units)
        let part := h.part ++ s.grantRead d y.tenant y.model g r.memAt r.units
        if dw r.desc 4 15 0 ≤ r.col + r.units then s2.doneFetch d th h f k part (h.bad || fails)
        else s2.modDie d fun x => { x with threads := tput x.threads th { h with part := part, bad := h.bad || fails } }
      | _, _ => s
    | _, _ => s

/-! ### Bursts of a context's streams -/

/-- A ring that feeds a return port of a region that is unconfigured, being reconfigured or isolated takes nothing (R253). -/
def Die.returnClosed (x : Die) (r : SRun) : Bool :=
  dw r.desc 0 31 28 == 5 && (x.boundPorts (dw r.desc 7 23 16)).any fun p =>
    p.2.2 == 2 && ((x.region p.1).isolated || (x.fabric p.1).st != .configured)

/-- A burst of a context's stream, and the position it leaves. Memory is read by MEM_TO_TILE and RING_TO_TILE, and an error there
ends the descriptor: the burst writes nothing (R155). -/
def State.ctxBurst (s : State) (d e : Nat) (y : Ctx) (t : Nat) (r : SRun) (bad : Bool) : State × SRun :=
  let ended (st : Status) : SRun := { r with finished := true, status := st }
  let bad := bad && (dw r.desc 0 31 28 == 1 || dw r.desc 0 31 28 == 4)
  if s.sealOut d y r then (s.sealFault d 26, ended .authFail)
  else if (s.die d).returnClosed r then (s, ended .regionUnconfigured)
  else if bad && sdRing r.desc then
    (s.modDie d fun x => (x.ringTake (dw r.desc 7 23 16) r.units).1, ended .unitFenced)
  else if bad then (s.burstError d y r, ended .unitFenced)
  else ((s.moveBurst d y t r).modDie d fun x => x.count seBytes e (64 * r.units), r.next)

/-- The region of the pseudo-channel that a stream's next burst of a scratch area needs, where its down port is closed (R82, R320). -/
def State.burstBehind (s : State) (d : Nat) (q : Stream) : Option Nat :=
  match q.cur, (s.die d).ctx q.ctx with
  | some r, some y =>
    if sdRing r.desc then none
    else match tfind y.grants (dw r.desc 0 7 0), tfind s.models y.model with
      | some g, some m => match m.place d g r.memAt with
        | (some (c, _), _) => if ((s.die d).region (chanRegion c)).closed then some (chanRegion c) else none
        | (none, _) => none
      | _, _ => none
  | _, _ => none

/-- One granted burst. -/
def State.doBurst (s : State) (d e : Nat) (bad : Bool) : State :=
  match (s.die d).burstPick e with
  | none => s
  | some (n, q) =>
    match q.cur with
    | none => s
    | some r =>
      match s.burstBehind d q with
      | some k => s.modDie d fun x => x.modRegion k Region.reach
      | none =>
      let (now, s0) := s.tick
      let ask := ((s.die d).burstAsk e).map (·.1)
      let s1 := s0.modDie d fun x => (match tfind x.streams n with
        | some z => x.stage n z (dw r.desc 0 31 28) (64 * r.units)
        | none => x)
      let s2 := match q.thread, (s.die d).ctxTile q.ctx with
        | some th, _ => s1.sourceBurst d e th r bad
        | none, none => s1
        | none, some (y, t) =>
          let o := s1.ctxBurst d e y t r bad
          o.1.modDie d fun x => { x with streams := tmod x.streams n (Stream.bound q.ctx q.index) fun z => { z with cur := some o.2 } }
      s2.modDie d fun x => { x with
        streams := tmapv x.streams fun j z =>
          if j = n then { z with waited := 0, granted := now }
          else if ask.contains j then
            { z with waited := waitCount (({ z with cur := (s.die d).streamRun z } : Stream).cls) q.cls z.waited }
          else z }

/-- STREAM_BURST (R152, R155): an engine grants one burst, if the die may have one more transaction (R16). An error on the memory
side ends the descriptor UNIT_FENCED, and poisons the block of a thread. -/
def execStreamBurst (die engine : Nat) (uncorrectable : Bool) (s : State) : Out :=
  event s (decide (die < s.dieCount) && decide (engine < 16))
    (s.live die && s.mayIssue die && ((s.die die).burstPick engine).isSome) (s.doBurst die engine uncorrectable)

/-- The descriptor of stream `n` is done and its record can be written (R155, R190). -/
def Die.streamDone (x : Die) (n : Nat) : Bool :=
  match tfind x.streams n with
  | none => false
  | some q => (match q.cur with
      | some r => r.finished
      | none => false) && match x.ctx q.ctx with
      | some y => decide (y.ring.length < 256)
      | none => false

/-- The completion of a stream descriptor (R155, R156): its bursts have landed, then record, knot add, and the shadow starts. A status other than OK
reaches the entries the context serves (R233). -/
def State.doStreamComplete (s : State) (d n : Nat) : State :=
  match tfind (s.die d).streams n with
  | none => s
  | some q =>
    match q.cur with
    | none => s
    | some r =>
      let s1 := s.writeRec d q.ctx (sdRec r.desc r.status)
      let s2 := if r.status = .ok then s1 else s1.failServed d q.ctx r.status none
      let s3 := if dw r.desc 0 25 25 = 1 then s2.sendAdd d (dw r.desc 7 15 0) 1 else s2
      s3.modDie d fun x =>
        { x with streams := tput x.streams n { q with cur := q.shadow.map SRun.start, shadow := none, flight := [] } }

/-- STREAM_COMPLETE (R155). -/
def execStreamComplete (die stream : Nat) (s : State) : Out :=
  event s (decide (die < s.dieCount) && decide (stream < 1024)) (s.live die && (s.die die).streamDone stream)
    (s.doStreamComplete die stream)

end Sys2Proof.Machine
end

