-- ==== Sys2Proof/Machine/VecOps.lean ====
section
/-! DEFINITION. How a vector tile runs a word (chapter 7): when it can issue, what stops it, its timing, its results. -/

namespace Sys2Proof.Machine

/-- The words of a context's pattern (R166). -/
def State.vpattern (s : State) (y : Ctx) : List (BitVec 64) :=
  match tfind s.models y.model with
  | none => []
  | some m =>
    match m.bundle with
    | none => []
    | some b => ((b.templates[y.tmpl]?).map (·.words)).getD []

/-- The tile exists and is a vector tile. -/
def State.vUnits (s : State) (t : VAt) : Bool := decide (t.die < s.dieCount) && decide (t.tile < 32) && t.matrix.isNone

/-- The tile's core. -/
def State.vcore (s : State) (t : VAt) : VCore := ((s.die t.die).vtile t.tile).core

/-- A context runs on the tile and its next word is this one (R169, R195: no switch is under way). -/
def State.vReady (s : State) (op : Nat) (t : VAt) (w : VW) : Bool :=
  let x := s.die t.die
  s.live t.die && (x.tileOcc .vector t.tile).phase == .none && !(x.isFenced 3 t.tile) &&
    match x.resident .vector t.tile with
    | some (_, y) => y.st == .running && decide (y.kind = .vector) &&
        (s.vpattern y)[(s.vcore t).next]? == some (vwordOf op w)
    | none => false

/-- The kind of tile that a word's command names. -/
def vKind (t : VAt) : TileKind := if t.matrix.isSome then .matrix else .vector

/-- The running context (per-die number and record). -/
def State.vctx (s : State) (t : VAt) : Nat × Option Ctx :=
  match (s.die t.die).resident (vKind t) t.tile with
  | some (c, y) => (c, some y)
  | none => (0, none)

/-! ## Accesses -/

/-- The addresses of the word's access at slot 0. -/
def VCore.at0 (c : VCore) (w : VW) (a : VAcc) : List Nat := (c.pt w.p0.toNat).addrs a.bytes
/-- The addresses of the word's access at slot 1. -/
def VCore.at1 (c : VCore) (w : VW) (a : VAcc) : List Nat := (c.pt w.p1.toNat).addrs a.bytes

/-- An access lies in the declared memory, aligned (R165, R183). -/
def accOk (decl : Nat) (p : Ptr) (a : VAcc) : Bool :=
  (a.align == 1 || p.addr 0 % a.align == 0) && (p.addrs a.bytes).all fun i => decide (i < decl)

/-- What stops the word (R183): a word that is not defined, an access outside the declared memory or misaligned. -/
def VCore.stop (c : VCore) (tenant decl op : Nat) (w : VW) : Option Status :=
  let ok (a : Option VAcc) (n : Nat) : Bool := match a with
    | some a => accOk decl (c.pt n) a
    | none => true
  if !(vwordOk tenant op w) then some .badOpcode
  else if ok (vacc0 op w) w.p0.toNat && ok (vacc1 op w) w.p1.toNat then none
  else some .badParam

/-- The bytes at some addresses. -/
def readAt (m : Memory) (l : List Nat) : List Byte := l.map (mread m)

/-- Bytes written at some addresses, the later ones last (R178: the higher element is kept). -/
def writeAt (m : Memory) (l : List Nat) (b : List Byte) : Memory := (l.zip b).foldl (fun m e => mwrite m e.1 e.2) m

/-- What the word reads. -/
def VTile.gather (v : VTile) (op : Nat) (w : VW) : VIn :=
  let c := v.core
  let m0 := match vacc0 op w with
    | some a => if a.store then [] else readAt v.mem (c.at0 w a)
    | none => []
  let m1 := match vacc1 op w with
    | some a => if a.store then [] else readAt v.mem (c.at1 w a)
    | none => []
  let ac := if op = 0x4F ∨ op = 0x50 then 0 else w.acc.toNat
  { a := c.reg w.va.toNat
    b := if w.m then BitVec.ofNat 2048 (leNat m0) else c.reg w.vb.toNat
    d := c.reg w.vd.toNat, ac := c.accu ac, sc := leNat (m1.take 2), b0 := m0, b1 := m1 }

/-- The bytes the word stores. -/
def VTile.stores (v : VTile) (op : Nat) (w : VW) (r : VRes) : Memory :=
  let m0 := match vacc0 op w with
    | some a => if a.store then writeAt v.mem (v.core.at0 w a) r.st0 else v.mem
    | none => v.mem
  match vacc1 op w with
  | some a => if a.store then writeAt m0 (v.core.at1 w a) r.st1 else m0
  | none => m0

/-- The registers after the word's result, pointers apart. -/
def VCore.result (c : VCore) (w : VW) (r : VRes) : VCore :=
  let v1 := match r.vd with
    | some x => tput c.v w.vd.toNat x
    | none => c.v
  let v2 := match r.vd1 with
    | some x => tput v1 (w.vd.toNat + 1) x
    | none => v1
  let a1 := match r.acc with
    | some x => tput c.acc w.acc.toNat x
    | none => c.acc
  { c with v := v2, acc := a1, fp := Nat.lor c.fp r.ev.fp, xstat := Nat.lor c.xstat r.ev.xs }

/-! ## Timing (R165, R169, R171) -/

/-- Extra cycles of the vector access: the most distinct 16-bit units of one bank, less one. A linear access of at most 256
bytes has none. -/
def VCore.bankExtra (c : VCore) (op : Nat) (w : VW) : Nat :=
  match vacc0 op w with
  | none => 0
  | some a =>
    if (c.pt w.p0.toNat).len = 0 then 0
    else
      let us := ((c.at0 w a).map (· / 2)).eraseDups
      us.foldl (fun n u => max n ((us.filter fun v => v % 128 == u % 128).length)) 1 - 1

/-- The first cycle at which the word can issue (R169): every result it reads is ready. -/
def VTime.ready (z : VTime) (op : Nat) (w : VW) : Nat :=
  match vrow op with
  | none => z.now
  | some r =>
    let reg (use : Bool) (n : Nat) : Nat := if use then tget z.vAt n 0 else 0
    let rnd := decide (0x36 ≤ op ∧ op ≤ 0x38)
    let ac := if r.readAcc then (if rnd then tget z.aRnd w.acc.toNat 0 else tget z.aMac w.acc.toNat 0) else 0
    max z.now (max (reg r.useA w.va.toNat) (max (reg (r.useB && !w.m) w.vb.toNat) (max (reg r.readD w.vd.toNat) ac)))

/-- The tile's time after the word has issued at cycle `at_` with `extra` bank cycles. -/
def VTime.issue (z : VTime) (op : Nat) (w : VW) (at_ extra : Nat) : VTime :=
  match vrow op with
  | none => z
  | some r =>
    let v1 := if r.writeD then tput z.vAt w.vd.toNat (at_ + r.lat) else z.vAt
    let v2 := if op = 0x3A ∨ op = 0x3B then tput v1 (w.vd.toNat + 1) (at_ + r.lat) else v1
    { now := at_ + 1 + extra, vAt := v2
      aMac := if r.writeAcc then tput z.aMac w.acc.toNat (at_ + 1) else z.aMac
      aRnd := if r.writeAcc then tput z.aRnd w.acc.toNat (at_ + 3) else z.aRnd }

/-! ## A word -/

/-- The arithmetic status that HALT's record carries: the context's on a vector tile; a matrix pattern has none of its own. -/
def State.vfp (s : State) (t : VAt) : Nat := if t.matrix.isSome then 0 else (s.vcore t).fp

/-- The context halts with `st` (R183): completion record, no further word. -/
def State.vhalt (s : State) (t : VAt) (st : Status) : State :=
  let c := (s.vctx t).1
  (s.writeRec t.die c { tag := 0, status := st, fp := s.vfp t }).haltOn t.die (vKind t) t.tile st

/-! ## The words every pattern has (R181, R182, R191, R205) -/

/-- The tile of a word that every pattern has exists. -/
def State.pUnits (s : State) (t : VAt) : Bool :=
  decide (t.die < s.dieCount) && decide (t.tile < tileCount (vKind t))

/-- A matrix pattern can go on: it runs, no switch is under way, no issue of it waits (R114). -/
def State.mReady (s : State) (t : VAt) : Bool :=
  let x := s.die t.die
  s.live t.die && (x.tileOcc .matrix t.tile).phase == .none && (x.mtile t.tile).a.stalled.isNone &&
    (x.mtile t.tile).b.stalled.isNone && match x.resident .matrix t.tile with
      | some (_, y) => y.st == .running && decide (y.kind = .matrix)
      | none => false

/-- An array has nothing queued, running or open. -/
def Arr.idle (r : Arr) : Bool := r.queue.isEmpty && r.runs.isEmpty && r.atts.isEmpty && r.stalled.isNone

/-- The pattern can issue the word. -/
def State.pReady (s : State) (op : Nat) (t : VAt) (w : VW) : Bool :=
  if t.matrix.isSome then s.mReady t else s.vReady op t w

/-- The counters of a word (R106, R185). -/
def Die.vcount (x : Die) (t stall extra wraps : Nat) (ev : Ev) : Die :=
  (((((((x.count vtWords t 1).count vtBusyCycles t (stall + 1 + extra)).count vtStallCycles t stall).count
    vtBankCycles t extra).count vtFlush t ev.flush).count vtSat t ev.vsat).count vtPtrWraps t wraps)

/-- Operations of a word (R15, Table 15-7): one for each element it computes, two for a multiply-accumulate. -/
def vops (op : Nat) : Nat :=
  if op < 0x20 ∨ op = 0x30 then 0
  else if 0x32 ≤ op ∧ op ≤ 0x35 then 256
  else if op = 0x43 then 128
  else if op = 0x4B then 256
  else if op = 0x22 ∨ op = 0x23 ∨ (0x29 ≤ op ∧ op ≤ 0x2C) ∨ op = 0x37 ∨ op = 0x38 ∨ op = 0x3B ∨ op = 0x3D ∨ op = 0x3F ∨
      (0x40 ≤ op ∧ op ≤ 0x47) ∨ op = 0x4C ∨ op = 0x4D ∨ op = 0x4F ∨ op = 0x50 then 64
  else 128

/-- What a word charges its context (R392). -/
def Die.vact (x : Die) (t op : Nat) : Die :=
  match x.resident .vector t with
  | some (_, y) => x.act 3 y.payer (vops op)
  | none => x

/-- The word issues and its effect is written: `f` what it computes of what it reads, `pre` what it does to the core itself
before the pointer updates, `post` after them, with the pointers it reduced. -/
def State.vcommit (s : State) (op : Nat) (t : VAt) (w : VW) (f : VCore → VIn → VRes) (pre : VCore → VCore)
    (post : VCore → VCore × Nat) : State :=
  let v := (s.die t.die).vtile t.tile
  let r := f v.core (v.gather op w)
  let at_ := v.time.ready op w
  let extra := v.core.bankExtra op w
  let c1 := pre (v.core.result w r)
  let c2 := post (c1.updates w)
  s.modDie t.die fun x =>
    ((x.modVTile t.tile fun _ =>
      { mem := v.stores op w r, core := c2.1.advance w, time := v.time.issue op w at_ extra }).vcount t.tile
      (at_ - v.time.now) extra c2.2 r.ev).vact t.tile op

/-- A word on the running context: an uncorrectable error fences the tile, a word that cannot run halts the context (R183),
any other has its effect `go`. -/
def State.vword (s : State) (op : Nat) (t : VAt) (w : VW) (go : State → State) : State :=
  match (s.vctx t).2 with
  | none => s
  | some y =>
    if 2 ≤ t.err then
      (s.writeRec t.die (s.vctx t).1 { tag := 0, status := .unitFenced, fp := (s.vcore t).fp }).fenceTile t.die .vector
        t.tile 1
    else
      let s1 := if t.err = 1 then s.corrected t.die 3 t.tile 1 16 (some 256) (some (t.tile / 4)) else s
      if (s1.die t.die).isFenced 3 t.tile then s1.fenceTile t.die .vector t.tile 3
      else
        match (s.vcore t).stop y.tenant y.declared op w with
        | some st => s1.vhalt t st
        | none => go s1

/-- A word that computes from registers and memory. -/
def State.vplain (s : State) (op : Nat) (t : VAt) (w : VW) (f : VIn → VRes) : State :=
  s.vword op t w fun s => s.vcommit op t w (fun _ => f) id fun c => (c, 0)

/-- The answer of a word's command. -/
def vans (op : Nat) (t : VAt) (w : VW) (u s : State) : Out := event s (s.vUnits t) (s.vReady op t w) u

end Sys2Proof.Machine
end

