-- ==== Sys2Proof/Machine/Vector.lean ====
section
/-! DEFINITION. The words of a vector pattern (Table 7-5): one meaning per opcode. -/

namespace Sys2Proof.Machine

/-! ## Control words -/

/-- NOP (R170): no operation; pointer updates and loops as in every word. -/
def execNop (t : VAt) (w : VW) (s : State) : Out :=
  vans 0x00 t w (s.vplain 0x00 t w fun _ => VRes.nothing) s

/-- The end word of a body (R177): the first from its first word on whose `lend` bit for the level is set. -/
def State.bodyEnd (s : State) (t : VAt) (lvl first : Nat) : Nat :=
  match ((s.vctx t).2.map fun y => s.vpattern y) with
  | some ws => first + ((ws.drop first).findIdx fun x => (vfields x).2.lend.getLsbD lvl)
  | none => first

/-- REP (R177): a block repeat starts at level `lvl`; its body begins at the next word. -/
def execRep (t : VAt) (w : VW) (s : State) : Out :=
  vans 0x01 t w (s.vword 0x01 t w fun s => s.vcommit 0x01 t w (fun _ _ => VRes.nothing)
    (fun c =>
      let l : Loop := { start := c.next + 1, left := w.imm16.toNat, stop := s.bodyEnd t w.lvl.toNat (c.next + 1) }
      { c with loops := tput c.loops w.lvl.toNat l })
    fun c => (c, 0)) s

/-- HALT's effect once the pattern's earlier work is done (R182): the record, the add of `lvl`[0], the rinse (R191). -/
def State.doHalt (s : State) (t : VAt) (w : VW) : State :=
  let s1 := s.writeRec t.die (s.vctx t).1 { tag := 0, status := .ok, fp := s.vfp t }
  let s2 := if w.lvl.toNat % 2 = 1 then s1.sendAdd t.die w.imm16.toNat 1 else s1
  s2.haltOn t.die (vKind t) t.tile .ok

/-- HALT (R182, R190, R191): it waits while the completion ring is full, and on a matrix tile until both arrays are idle. -/
def execHalt (t : VAt) (w : VW) (s : State) : Out :=
  let room := match (s.vctx t).2 with
    | some y => decide (y.ring.length < 256)
    | none => false
  let m := (s.die t.die).mtile t.tile
  event s (s.pUnits t) (s.pReady 0x02 t w && room && (t.matrix.isNone || (m.a.idle && m.b.idle)))
    (if t.matrix.isSome then s.doHalt t w
     else s.vword 0x02 t w fun s => (s.vcommit 0x02 t w (fun _ _ => VRes.nothing) id fun c => (c, 0)).doHalt t w)

/-- FENCE (R182): earlier stores are written and earlier stream issues accepted or refused when their words end, so the
stall ends at once (log entry 22). -/
def execFence (t : VAt) (w : VW) (s : State) : Out :=
  vans 0x03 t w (s.vplain 0x03 t w fun _ => VRes.nothing) s

/-- PRESS (R179): after the word's updates every pending length takes effect. -/
def execPress (t : VAt) (w : VW) (s : State) : Out :=
  vans 0x04 t w (s.vword 0x04 t w fun s => s.vcommit 0x04 t w (fun _ _ => VRes.nothing) id
    fun c => (c.press, c.pressWraps)) s

/-- The 64-bit value in lanes 0 and 1 of Vd; a matrix pattern's own value. -/
def State.vd64 (s : State) (t : VAt) (w : VW) : BitVec 64 :=
  t.matrix.getD (BitVec.ofNat 64 ((s.vcore t).reg w.vd.toNat).toNat)

/-- KADD (R181, R203, R206): the add leaves for the knot unit. A matrix pattern's add to another tenant's knot was refused when
its instance was loaded (R203). -/
def execKadd (t : VAt) (w : VW) (s : State) : Out :=
  let own := match (s.vctx t).2 with
    | some y => knotOfTenant y.tenant w.imm16.toNat
    | none => false
  event s (s.pUnits t) (s.pReady 0x05 t w && (t.matrix.isNone || own))
    (if t.matrix.isSome then s.sendAdd t.die w.imm16.toNat (s.vd64 t w)
     else s.vword 0x05 t w fun s =>
      (s.vcommit 0x05 t w (fun _ _ => VRes.nothing) id fun c => (c, 0)).sendAdd t.die w.imm16.toNat (s.vd64 t w))

/-- The wait of KWAIT at the knot (R203, R205, R207): met at once, OWNER_LOST on an UNTIED knot, QUEUE_FULL beyond 1,024
waiters, else the context is WAITING, resident. -/
def State.kwaitNow (s : State) (t : VAt) (k : Nat) (target : BitVec 64) : State :=
  let c := (s.vctx t).1
  let kn := (s.die t.die).knot k
  if !kn.tied then s.vhalt t .ownerLost
  else if target.toNat ≤ kn.value.toNat then s
  else if 1024 ≤ kn.waits.length then s.vhalt t .queueFull
  else
    let (n, s1) := s.tick
    (s1.modDie t.die fun x => x.modKnot k fun kn => { kn with waits := kn.waits ++ [(c, target)] }).modCtx t.die c
      fun y => { y with st := .waiting, wait := some (k, target), woken := false, waitNo := n }

/-- KWAIT (R181, R205). A context that waits resumes after it. A matrix pattern that names another tenant's knot halts BAD_PARAM
(Table 8-7). -/
def execKwait (t : VAt) (w : VW) (s : State) : Out :=
  let own := match (s.vctx t).2 with
    | some y => knotOfTenant y.tenant w.imm16.toNat
    | none => false
  event s (s.pUnits t) (s.pReady 0x06 t w)
    (if t.matrix.isSome && !own then s.vhalt t .badParam else if t.matrix.isSome then s.kwaitNow t w.imm16.toNat (s.vd64 t w)
     else s.vword 0x06 t w fun s =>
      (s.vcommit 0x06 t w (fun _ _ => VRes.nothing) id fun c => (c, 0)).kwaitNow t w.imm16.toNat (s.vd64 t w))

/-- SISSUE (R152, R154, R156, R181): the descriptor at slot 0's address goes to the stream. -/
def execSissue (t : VAt) (w : VW) (s : State) : Out :=
  vans 0x07 t w (s.vword 0x07 t w fun s =>
    let i := ((s.die t.die).vtile t.tile).gather 0x07 w
    (s.vcommit 0x07 t w (fun _ _ => VRes.nothing) id fun c => (c, 0)).issueStream t.die (s.vctx t).1
      (w.x5.toNat % 16) (unitOf i.b0)) s

/-- A word that sets a field of the pointer in [53:50] (R178, R179). -/
def State.vsetup (s : State) (op : Nat) (t : VAt) (w : VW) (f : Ptr → Ptr) : State :=
  s.vword op t w fun s => s.vcommit op t w (fun _ _ => VRes.nothing)
    (fun c => c.setPt (w.vd.toNat % 16) (f (c.pt (w.vd.toNat % 16)))) fun c => (c, 0)

/-- PBASE (R178): base ← `imm16` × 4. -/
def execPbase (t : VAt) (w : VW) (s : State) : Out :=
  vans 0x08 t w (s.vsetup 0x08 t w fun p => { p with base := w.imm16.toNat * 4 }) s

/-- PLEN (R179): pending length ← `imm16` × 4. -/
def execPlen (t : VAt) (w : VW) (s : State) : Out :=
  vans 0x09 t w (s.vsetup 0x09 t w fun p => { p with pend := some (w.imm16.toNat * 4) }) s

/-- PSTRIDE (R178): stride ← `imm16`, signed bytes. -/
def execPstride (t : VAt) (w : VW) (s : State) : Out :=
  vans 0x0A t w (s.vsetup 0x0A t w fun p => { p with stride := toSigned 16 w.imm16.toNat }) s

/-- PSETP (R178): p ← `imm16` × 4, signed, reduced. -/
def execPsetp (t : VAt) (w : VW) (s : State) : Out :=
  vans 0x0B t w (s.vsetup 0x0B t w fun p => { p with p := p.reduce (toSigned 16 w.imm16.toNat * 4) }) s

/-- VSTAT (R180): lane 0 ← `fpstat`, `xstat`, `pwrap`; the `pwrap` bits returned are cleared. -/
def execVstat (t : VAt) (w : VW) (s : State) : Out :=
  vans 0x0C t w (s.vword 0x0C t w fun s => s.vcommit 0x0C t w
    (fun c _ => VRes.reg (BitVec.ofNat 2048 (c.fp + c.xstat * 2 ^ 8 + c.pwrap.toNat * 2 ^ 16)) Ev.none)
    (fun c => { c with pwrap := 0 }) fun c => (c, 0)) s

/-! ## Loads, stores and moves -/

/-- VLD (R165): Vd ← 256 bytes. -/
def execVld (t : VAt) (w : VW) (s : State) : Out :=
  vans 0x10 t w (s.vplain 0x10 t w fun i => VRes.reg (BitVec.ofNat 2048 (leNat i.b0)) Ev.none) s

/-- VST (R165): 256 bytes ← Vd. -/
def execVst (t : VAt) (w : VW) (s : State) : Out :=
  vans 0x11 t w (s.vplain 0x11 t w fun i => { VRes.nothing with st0 := le 256 i.d.toNat }) s

/-- An MX load (Table 7-9): two blocks of 32 elements, converted to binary32; a NaN block gives 64 canonical NaNs. -/
def vloadMx (fmt : Nat) (ovf : Bool) (b0 b1 : List Byte) : VRes :=
  let es := byteElems fmt 64 b0
  let nan := (b1.take 2).any fun c => c == 0xFF
  let sc (i : Nat) : Nat := if nan then 0xFF else (b1.getD (i / 32) 0).toNat
  VRes.ofW (es.mapIdx fun i c => fB32.conv ovf (mxDec fmt (sc i) c))

/-- An integer load: elements of `n` bits sign-extended to .H. -/
def vloadInt (n : Nat) (b0 : List Byte) : VRes :=
  VRes.ofH ((fields n 128 (leNat b0)).map fun c => (toBits 16 (toSigned n c), Ev.none))

/-- VLDX (R176). -/
def vldxRes (w : VW) (i : VIn) : VRes :=
  let f := w.x5.toNat
  if f ≤ 5 then vloadMx f w.ovf i.b0 i.b1
  else if f = 0x08 ∨ f = 0x11 then vloadInt 8 i.b0
  else if f = 0x10 then vloadInt 4 i.b0
  else if f = 0x0B then VRes.ofW ((fields 16 64 (leNat i.b0)).map fun c => fB32.conv w.ovf (fB16.dec c))
  else VRes.reg (BitVec.ofNat 2048 (leNat i.b0)) Ev.none

/-- VLDX (R176, Table 7-9). -/
def execVldx (t : VAt) (w : VW) (s : State) : Out := vans 0x12 t w (s.vplain 0x12 t w (vldxRes w)) s

/-- An MX store (Table 7-9): the two blocks of 32 .W elements by R103, their binary32 inputs under R99. -/
def vstoreMx (fmt : Nat) (d : BitVec 2048) : VRes :=
  let xs := (vW d).map b32In
  let b := mxEncode fmt ((xs.take 32).map (·.1))
  let c := mxEncode fmt ((xs.drop 32).map (·.1))
  { VRes.nothing with
    st0 := elemBytes fmt (b.2.1 ++ c.2.1), st1 := [BitVec.ofNat 8 b.1, BitVec.ofNat 8 c.1]
    ev := ((Ev.all (xs.map (·.2))).join b.2.2).join c.2.2 }

/-- An integer store: .H elements saturated to `n` bits (OVERFLOW, VT_SAT). -/
def vstoreInt (fmt n : Nat) (d : BitVec 2048) : VRes :=
  let r := (vHi d).map fun x => clampInt n x
  { VRes.nothing with
    st0 := elemBytes fmt (r.map fun c => toBits n c.1)
    ev := Ev.all (r.map fun c => if c.2 then { Ev.saturated with vsat := 1 } else Ev.none) }

/-- VSTX (R176). -/
def vstxRes (w : VW) (i : VIn) : VRes :=
  let f := w.x5.toNat
  if f ≤ 5 then vstoreMx f i.d
  else if f = 0x08 ∨ f = 0x11 then vstoreInt f 8 i.d
  else if f = 0x10 then vstoreInt f 4 i.d
  else if f = 0x0B then
    let r := (vW i.d).map fun c => let x := b32In c; let y := fB16.conv w.ovf x.1; (y.1, x.2.join y.2)
    { VRes.nothing with st0 := elemBytes f (r.map (·.1)), ev := Ev.all (r.map (·.2)) }
  else { VRes.nothing with st0 := le 256 i.d.toNat }

/-- VSTX (R176, Table 7-9). -/
def execVstx (t : VAt) (w : VW) (s : State) : Out := vans 0x13 t w (s.vplain 0x13 t w (vstxRes w)) s

/-- VMOVI (R170): every .H element ← `imm16`. -/
def execVmovi (t : VAt) (w : VW) (s : State) : Out :=
  vans 0x14 t w (s.vplain 0x14 t w fun _ => VRes.reg (ofH (List.replicate 128 w.imm16.toNat)) Ev.none) s

/-- VMOV (R170). -/
def execVmov (t : VAt) (w : VW) (s : State) : Out := vans 0x15 t w (s.vplain 0x15 t w fun i => VRes.reg i.a Ev.none) s

/-- VBCST.H (R170). -/
def execVbcstH (t : VAt) (w : VW) (s : State) : Out :=
  vans 0x16 t w (s.vplain 0x16 t w fun i =>
    VRes.reg (ofH (List.replicate 128 ((vH i.a).getD (w.imm13.toNat % 128) 0))) Ev.none) s

/-- VBCST.W (R170). -/
def execVbcstW (t : VAt) (w : VW) (s : State) : Out :=
  vans 0x17 t w (s.vplain 0x17 t w fun i =>
    VRes.reg (ofW (List.replicate 64 ((vW i.a).getD (w.imm13.toNat % 64) 0))) Ev.none) s

/-! ## Fixed-point words (R172 to R174) -/

/-- Elementwise over the .H elements of a and b. -/
def hh (f : Int → Int → Nat × Ev) (i : VIn) : VRes := VRes.ofH (List.zipWith f (vHi i.a) (vHi i.b))
/-- Elementwise over the .W elements of a and b. -/
def ww (f : Int → Int → Nat × Ev) (i : VIn) : VRes := VRes.ofW (List.zipWith f (vWi i.a) (vWi i.b))
/-- Elementwise over the .H elements of a. -/
def h1 (f : Int → Nat × Ev) (i : VIn) : VRes := VRes.ofH ((vHi i.a).map f)
/-- Elementwise over the .W elements of a. -/
def w1 (f : Int → Nat × Ev) (i : VIn) : VRes := VRes.ofW ((vWi i.a).map f)

/-- VADD.H (R173). -/
def execVaddH (t : VAt) (w : VW) (s : State) : Out := vans 0x20 t w (s.vplain 0x20 t w (hh fun a b => narrow 16 w.ovf (a + b))) s

/-- VSUB.H (R173). -/
def execVsubH (t : VAt) (w : VW) (s : State) : Out := vans 0x21 t w (s.vplain 0x21 t w (hh fun a b => narrow 16 w.ovf (a - b))) s

/-- VADD.W (R173). -/
def execVaddW (t : VAt) (w : VW) (s : State) : Out := vans 0x22 t w (s.vplain 0x22 t w (ww fun a b => narrow 32 w.ovf (a + b))) s

/-- VSUB.W (R173). -/
def execVsubW (t : VAt) (w : VW) (s : State) : Out := vans 0x23 t w (s.vplain 0x23 t w (ww fun a b => narrow 32 w.ovf (a - b))) s

/-- VMUL.H (R172, R173). -/
def execVmulH (t : VAt) (w : VW) (s : State) : Out := vans 0x24 t w (s.vplain 0x24 t w (hh fun a b => narrowShr 16 w.ovf (a * b) w.x5.toNat)) s

/-- VMAX.H (R170). -/
def execVmaxH (t : VAt) (w : VW) (s : State) : Out := vans 0x25 t w (s.vplain 0x25 t w (hh fun a b => (toBits 16 (max a b), Ev.none))) s

/-- VMIN.H (R170). -/
def execVminH (t : VAt) (w : VW) (s : State) : Out := vans 0x26 t w (s.vplain 0x26 t w (hh fun a b => (toBits 16 (min a b), Ev.none))) s

/-- VABS.H (R173). -/
def execVabsH (t : VAt) (w : VW) (s : State) : Out := vans 0x27 t w (s.vplain 0x27 t w (h1 fun a => narrow 16 w.ovf a.natAbs)) s

/-- VNEG.H (R173). -/
def execVnegH (t : VAt) (w : VW) (s : State) : Out := vans 0x28 t w (s.vplain 0x28 t w (h1 fun a => narrow 16 w.ovf (-a))) s

/-- VAND (R170). -/
def execVand (t : VAt) (w : VW) (s : State) : Out := vans 0x29 t w (s.vplain 0x29 t w fun i => VRes.reg (i.a &&& i.b) Ev.none) s

/-- VOR (R170). -/
def execVor (t : VAt) (w : VW) (s : State) : Out := vans 0x2A t w (s.vplain 0x2A t w fun i => VRes.reg (i.a ||| i.b) Ev.none) s

/-- VXOR (R170). -/
def execVxor (t : VAt) (w : VW) (s : State) : Out := vans 0x2B t w (s.vplain 0x2B t w fun i => VRes.reg (i.a ^^^ i.b) Ev.none) s

/-- VSEL (R170): Vd's prior value is the mask. -/
def execVsel (t : VAt) (w : VW) (s : State) : Out := vans 0x2C t w (s.vplain 0x2C t w fun i => VRes.reg ((i.a &&& i.d) ||| (i.b &&& ~~~i.d)) Ev.none) s

/-- The relation of VCMP.H (Table 7-5). -/
def vrel (x : Nat) (a b : Int) : Bool :=
  if x = 0 then a == b else if x = 1 then a != b else if x = 2 then decide (a < b) else decide (a ≤ b)

/-- VCMP.H (R170). -/
def execVcmpH (t : VAt) (w : VW) (s : State) : Out := vans 0x2D t w (s.vplain 0x2D t w (hh fun a b => (if vrel w.x5.toNat a b then 0xFFFF else 0, Ev.none))) s

/-- VSHL.H (R173). -/
def execVshlH (t : VAt) (w : VW) (s : State) : Out := vans 0x2E t w (s.vplain 0x2E t w (h1 fun a => narrow 16 w.ovf (a * 2 ^ w.x5.toNat))) s

/-- VSHR.H (R173). -/
def execVshrH (t : VAt) (w : VW) (s : State) : Out := vans 0x2F t w (s.vplain 0x2F t w (h1 fun a => narrowShr 16 w.ovf a w.x5.toNat)) s

/-- VCLR (R170). -/
def execVclr (t : VAt) (w : VW) (s : State) : Out := vans 0x30 t w (s.vplain 0x30 t w fun _ => { VRes.nothing with acc := some 0 }) s

/-- VACC.LD (R170): sign-extended a.h[e] × 2^`x5`. -/
def execVaccLd (t : VAt) (w : VW) (s : State) : Out := vans 0x31 t w (s.vplain 0x31 t w fun i => VRes.ofAcc ((vHi i.a).map fun a => (toBits 48 (a * 2 ^ w.x5.toNat), Ev.none))) s

/-- VMAC.H (R172). -/
def execVmacH (t : VAt) (w : VW) (s : State) : Out := vans 0x32 t w (s.vplain 0x32 t w fun i => VRes.ofAcc (List.zipWith (fun c p => accSum (c + p)) (vAi i.ac) (List.zipWith (· * ·) (vHi i.a) (vHi i.b)))) s

/-- VMSU.H (R172). -/
def execVmsuH (t : VAt) (w : VW) (s : State) : Out := vans 0x33 t w (s.vplain 0x33 t w fun i => VRes.ofAcc (List.zipWith (fun c p => accSum (c - p)) (vAi i.ac) (List.zipWith (· * ·) (vHi i.a) (vHi i.b)))) s

/-- VMACS.H (R172): the scalar at slot 1. -/
def execVmacsH (t : VAt) (w : VW) (s : State) : Out := vans 0x34 t w (s.vplain 0x34 t w fun i => VRes.ofAcc (List.zipWith (fun c b => accSum (c + b * toSigned 16 i.sc)) (vAi i.ac) (vHi i.b))) s

/-- VMAC.WH (R172): a.w[i] × b.h[2i + j], divided and rounded, then added. -/
def execVmacWh (t : VAt) (w : VW) (s : State) : Out := vans 0x35 t w (s.vplain 0x35 t w fun i => VRes.ofAcc (List.zipWith (fun c p => accSum (c + rneShrInt p w.x5.toNat)) (vAi i.ac) (List.zipWith (· * ·) ((vWi i.a).flatMap fun a => [a, a]) (vHi i.b)))) s

/-- VRND.H (R173). -/
def execVrndH (t : VAt) (w : VW) (s : State) : Out := vans 0x36 t w (s.vplain 0x36 t w fun i => VRes.ofH ((vAi i.ac).map fun a => narrowShr 16 w.ovf a w.x5.toNat)) s

/-- Accumulator elements 2i + j. -/
def accHalf (j : Nat) (a : BitVec 6144) : List Int := (List.range 64).map fun i => (vAi a).getD (2 * i + j) 0

/-- VRND.WE (R173). -/
def execVrndWe (t : VAt) (w : VW) (s : State) : Out := vans 0x37 t w (s.vplain 0x37 t w fun i => VRes.ofW ((accHalf 0 i.ac).map fun a => narrowShr 32 w.ovf a w.x5.toNat)) s

/-- VRND.WO (R173). -/
def execVrndWo (t : VAt) (w : VW) (s : State) : Out := vans 0x38 t w (s.vplain 0x38 t w fun i => VRes.ofW ((accHalf 1 i.ac).map fun a => narrowShr 32 w.ovf a w.x5.toNat)) s

/-- The count c of NORM (R174): bits after the sign bit that equal it. -/
def normCount (n : Nat) (x : Int) : Nat := n - 1 - bitLen (if x < 0 then (-x - 1).natAbs else x.natAbs)

/-- NORM.H (R174). -/
def execNormH (t : VAt) (w : VW) (s : State) : Out := vans 0x3A t w (s.vplain 0x3A t w fun i => { VRes.reg (ofH ((vHi i.a).map fun a => toBits 16 (a * 2 ^ normCount 16 a))) Ev.none with
    vd1 := some (ofH ((vHi i.a).map (normCount 16))) }) s

/-- NORM.W (R174). -/
def execNormW (t : VAt) (w : VW) (s : State) : Out := vans 0x3B t w (s.vplain 0x3B t w fun i => { VRes.reg (ofW ((vWi i.a).map fun a => toBits 32 (a * 2 ^ normCount 32 a))) Ev.none with
    vd1 := some (ofW ((vWi i.a).map (normCount 32))) }) s

/-- The smallest of each group of 2^`x` consecutive counts, in every element of the group (R174). -/
def groupMin (x : Nat) (l : List Nat) : List Nat :=
  l.mapIdx fun i c => ((l.drop (i / 2 ^ x * 2 ^ x)).take (2 ^ x)).foldl min c

/-- One element of BSH (R174): shifted by the signed count, from −31 to 31. -/
def bshElem (n : Nat) (ovf : Bool) (a c : Int) : Nat × Ev :=
  if 0 ≤ c then narrow n ovf (a * 2 ^ (min 31 c.toNat)) else narrowShr n ovf a (min 31 (-c).toNat)

/-- EXPX.H (R174). -/
def execExpxH (t : VAt) (w : VW) (s : State) : Out := vans 0x3C t w (s.vplain 0x3C t w fun i => VRes.reg (ofH (groupMin w.x5.toNat ((vHi i.a).map (normCount 16)))) Ev.none) s

/-- EXPX.W (R174). -/
def execExpxW (t : VAt) (w : VW) (s : State) : Out := vans 0x3D t w (s.vplain 0x3D t w fun i => VRes.reg (ofW (groupMin w.x5.toNat ((vWi i.a).map (normCount 32)))) Ev.none) s

/-- BSH.H (R174). -/
def execBshH (t : VAt) (w : VW) (s : State) : Out := vans 0x3E t w (s.vplain 0x3E t w (hh (bshElem 16 w.ovf))) s

/-- BSH.W (R174). -/
def execBshW (t : VAt) (w : VW) (s : State) : Out := vans 0x3F t w (s.vplain 0x3F t w (ww (bshElem 32 w.ovf))) s

/-! ## Floating-point words (R175) -/

/-- Elementwise over the binary32 codes of a and b. -/
def ff (f : Nat → Nat → Nat × Ev) (i : VIn) : VRes := VRes.ofW (List.zipWith f (vW i.a) (vW i.b))
/-- Elementwise over the bfloat16 codes of a and b. -/
def bb (f : Nat → Nat → Nat × Ev) (i : VIn) : VRes := VRes.ofH (List.zipWith f (vH i.a) (vH i.b))
/-- Elementwise over three lists. -/
def zip3 (f : Nat → Nat → Nat → Nat × Ev) (a b c : List Nat) : List (Nat × Ev) :=
  List.zipWith (fun p z => f p.1 p.2 z) (a.zip b) c

/-- FADD.S (R175). -/
def execFaddS (t : VAt) (w : VW) (s : State) : Out := vans 0x40 t w (s.vplain 0x40 t w (ff b32Add)) s

/-- FSUB.S (R175). -/
def execFsubS (t : VAt) (w : VW) (s : State) : Out := vans 0x41 t w (s.vplain 0x41 t w (ff b32Sub)) s

/-- FMUL.S (R175). -/
def execFmulS (t : VAt) (w : VW) (s : State) : Out := vans 0x42 t w (s.vplain 0x42 t w (ff b32Mul)) s

/-- FFMA.S (R175). -/
def execFfmaS (t : VAt) (w : VW) (s : State) : Out := vans 0x43 t w (s.vplain 0x43 t w fun i => VRes.ofW (zip3 b32Fma (vW i.a) (vW i.b) (vW i.d))) s

/-- FMAX.S (R175). -/
def execFmaxS (t : VAt) (w : VW) (s : State) : Out := vans 0x44 t w (s.vplain 0x44 t w (ff (b32Pick true))) s

/-- FMIN.S (R175). -/
def execFminS (t : VAt) (w : VW) (s : State) : Out := vans 0x45 t w (s.vplain 0x45 t w (ff (b32Pick false))) s

/-- FRCP.S (R175). -/
def execFrcpS (t : VAt) (w : VW) (s : State) : Out := vans 0x46 t w (s.vplain 0x46 t w fun i => VRes.ofW ((vW i.a).map b32Rcp)) s

/-- FEXP2.S (R175). -/
def execFexp2S (t : VAt) (w : VW) (s : State) : Out := vans 0x47 t w (s.vplain 0x47 t w fun i => VRes.ofW ((vW i.a).map b32Exp2)) s

/-- FADD.B (R175). -/
def execFaddB (t : VAt) (w : VW) (s : State) : Out := vans 0x48 t w (s.vplain 0x48 t w (bb (bfOp2 Num.add))) s

/-- FSUB.B (R175). -/
def execFsubB (t : VAt) (w : VW) (s : State) : Out := vans 0x49 t w (s.vplain 0x49 t w (bb (bfOp2 fun x y => x.add y.neg))) s

/-- FMUL.B (R175). -/
def execFmulB (t : VAt) (w : VW) (s : State) : Out := vans 0x4A t w (s.vplain 0x4A t w (bb (bfOp2 Num.mul))) s

/-- FFMA.B (R175). -/
def execFfmaB (t : VAt) (w : VW) (s : State) : Out := vans 0x4B t w (s.vplain 0x4B t w fun i => VRes.ofH (zip3 bfFma (vH i.a) (vH i.b) (vH i.d))) s

/-- One element of FCVT.SX (R104, R175): with `ovf` saturated and OVERFLOW, without it the low 32 bits and WRAP; those of
an infinity are open (log entry 11). DESIGN CHOICE, log entry 76: a saturated result is no narrowing of a fixed-point value and
is not counted in VT_SAT. -/
def cvtSx (ovf : Bool) (k c : Nat) : Nat × Ev :=
  let x := b32In c
  let r : Nat × Ev := if ovf then toIntSat 32 (x.1.scale k)
    else match x.1.scale k with
      | .nan => (0, Ev.nanToInt)
      | .inf g => ((Config.infLow32 g).toNat, Ev.fixWrap)
      | .fin g m e => narrow 32 false (numToInt g m e)
  (r.1, x.2.join r.2)

/-- FCVT.SX (R175). -/
def execFcvtSx (t : VAt) (w : VW) (s : State) : Out := vans 0x4C t w (s.vplain 0x4C t w fun i => VRes.ofW ((vW i.a).map (cvtSx w.ovf w.x5.toNat))) s

/-- FCVT.XS (R170). -/
def execFcvtXs (t : VAt) (w : VW) (s : State) : Out := vans 0x4D t w (s.vplain 0x4D t w (w1 fun a => fB32.conv w.ovf (.ofInt a (-(w.x5.toNat : Int))))) s

/-- A binary32 element to bfloat16 (R102). -/
def cvtSb (ovf : Bool) (c : Nat) : Nat × Ev := let x := b32In c; let r := fBf16.conv ovf x.1; (r.1, x.2.join r.2)

/-- FCVT.SB (R170): even elements from a, odd ones from b. -/
def execFcvtSb (t : VAt) (w : VW) (s : State) : Out := vans 0x4E t w (s.vplain 0x4E t w fun i => VRes.ofH (((vW i.a).zip (vW i.b)).flatMap fun p => [cvtSb w.ovf p.1, cvtSb w.ovf p.2])) s

/-- The .H codes 2i + `sel`. -/
def halves (sel : Nat) (v : BitVec 2048) : List Nat := (List.range 64).map fun i => (vH v).getD (2 * i + sel) 0

/-- FCVT.BS (R170): bfloat16 widened; a binary32 result is subject to R99 and R101. -/
def execFcvtBs (t : VAt) (w : VW) (s : State) : Out := vans 0x4F t w (s.vplain 0x4F t w fun i => VRes.ofW ((halves (w.acc.toNat % 2) i.a).map fun c => fB32.conv true (fBf16.dec c))) s

/-- FCVT.HS (R170). -/
def execFcvtHs (t : VAt) (w : VW) (s : State) : Out := vans 0x50 t w (s.vplain 0x50 t w fun i => VRes.ofW ((halves (w.acc.toNat % 2) i.a).map fun c =>
    fB32.conv w.ovf (.ofInt (toSigned 16 c) (-(w.x5.toNat : Int))))) s

end Sys2Proof.Machine
end

