-- ==== Sys2Proof/Machine/Waiting.lean ====
section
/-! DEFINITION. Commands that wait for a step, an idle operation, a save, a load, a capture or a test to end, and the events after
which they are looked at again, in the order in which firmware admitted them (R52, R226, R263, R282, R446; log entry 40). -/

namespace Sys2Proof.Machine

/-- A waiting command runs, or waits on. No other command ever waits. -/
def State.rerun (s : State) (i : Instr) : State :=
  match i with
  | .ctxRead p off len => s.runCtxRead p off len
  | .seqClose p n => s.runSeqClose p n
  | .seqSuspend p n c => s.runSeqSuspend p n c
  | .seqResume p n c => s.runSeqResume p n c
  | .seqTruncate p n pos => s.runSeqTruncate p n pos
  | .sheetHintPromote p n l => s.runHintPromote p n l
  | .sheetHintDemote p n l => s.runHintDemote p n l
  | .sheetHintPin p n l => s.runHintPin p n l
  | .sheetHintUnpin p n l => s.runHintUnpin p n l
  | .seqQuery p n => s.runSeqQuery p n
  | .stateIdle p m segs => s.runStateIdle p m segs
  | .stateWake p m => s.runStateWake p m
  | .execDispatch p inst list out es pay => s.runExec p inst list out es pay
  | .testRunSelfTest p d k u => s.runTest (.testRunSelfTest p d k u) p d k u 0
  | .testRunCalibration p d k u => s.runTest (.testRunCalibration p d k u) p d k u 1
  | .testRunLinkRetrain p d k u => s.runTest (.testRunLinkRetrain p d k u) p d k u 2
  | .fabricLoadPart p a t last off len data chk => s.runLoadPart p a t last off len data chk
  | .fabricLoadFlash p a t addr chk => s.runLoadFlash p a t addr chk
  | .fabricLoadBind p a t => s.runLoadBind p a t
  | .fabricLoadAbandon p a => s.runLoadAbandon p a
  | .fabricRead p a first count => s.runFabricRead p a first count
  | _ => s

/-- Every waiting command is looked at again. -/
def State.resume (s : State) : State := s.waiting.foldl State.rerun { s with waiting := [] }

/-- A region of the part. -/
def State.regionOn (s : State) (a : RAt) : Bool := decide (a.die < s.dieCount) && decide (a.region < 8)

/-! ## Ends of steps, idle operations and saves -/

/-- The wrings that STATE_IDLE waits for on a die are done (R52 step 5). -/
def State.idleDue (s : State) (d : Nat) : Bool :=
  s.live d && match (s.die d).idle with
    | some i => (s.die d).wringsGone i.handles i.segs
    | none => false

/-- IDLE_DRAIN_DONE (R52 step 6). -/
def execIdleDrainDone (die : Nat) (s : State) : Out :=
  event s (decide (die < s.dieCount)) (s.idleDue die) (s.doIdleDone die).resume

/-- SEGMENT_INIT_DONE (R345). -/
def execSegmentInitDone (die lc seg : Nat) (s : State) : Out :=
  event s (decide (die < s.dieCount) && decide (lc < 16) && decide (seg < 8))
    (s.live die && (s.die die).initSegs.contains (lc * 8 + seg)) (s.modDie die fun x => x.initSeg lc seg)

/-- Every context of a dispatch has ended (R233). -/
def State.dispatchDue (s : State) (id : Nat) : Bool :=
  s.running && match tfind s.disps id with
    | some x => x.ctxs.isEmpty
    | none => false

/-- A step's end. -/
def doDispatchComplete (id : Nat) (outs : List (List Byte)) (s : State) : State :=
  match tfind s.disps id with
  | some x => s.endStep id x outs
  | none => s

/-- DISPATCH_COMPLETE (R37, R233). -/
def execDispatchComplete (id : Nat) (outs : List (List Byte)) (s : State) : Out :=
  event s true (s.dispatchDue id) (doDispatchComplete id outs s).resume

/-- SAVE_CHECKED (R196 step 4, R199). -/
def execSaveChecked (t : TAt) (ok : Bool) (s : State) : Out :=
  event s (s.tileOn t) (s.live t.die && (s.occOf t).phase == .saving) (s.saved t ok).resume

/-- RINSE_DONE (R196 step 5, R197). -/
def execRinseDone (t : TAt) (s : State) : Out :=
  event s (s.tileOn t) (s.live t.die && (s.occOf t).phase == .rinsing) (doRinseDone t s).resume

/-- KNOT_WAKE (R205). -/
def execKnotWake (die ctx : Nat) (s : State) : Out :=
  event s (decide (die < s.dieCount) && decide (ctx < 4096)) (s.live die && ((s.die die).wakeTile ctx).isSome)
    (doKnotWake die ctx s).resume

/-! ## Start-up and loads -/

/-- CFG_DONE_HIGH (R281 step 8): FABRIC_LOAD packets that waited for it go on (R282). -/
def execCfgDoneHigh (die : Nat) (s : State) : Out :=
  event s (decide (die < s.dieCount)) (s.cfgDoneDue die) (doCfgDoneHigh die s).resume

/-- A start-up region (no session) reaches a step of Table 11-7. -/
def State.reachFor (s : State) (a : RAt) (n : Nat) (t : State) : State :=
  if ((s.die a.die).fabric a.region).session.isNone then t.reachStep n else t

/-- REGION_RELEASE (R281 step 9, R287 step 8). -/
def execRegionRelease (a : RAt) (s : State) : Out :=
  event s (s.regionOn a) (s.releaseDue a) (s.reachFor a 9 (s.doRelease a)).resume

/-- IO_HANDOVER (R281 step 10, R287 step 9). -/
def execIoHandover (a : RAt) (s : State) : Out :=
  event s (s.regionOn a) (s.handoverDue a) (s.reachFor a 10 (s.doHandover a)).resume

/-! ## Captures and clock actions -/

/-- CAPTURE_COPY_DONE (R262). -/
def execCaptureCopyDone (a : RAt) (s : State) : Out :=
  event s (s.regionOn a) (s.copyDue a) (s.doCopyDone a).resume

/-- FCTR_EDGE_REACHED (R246, R262). -/
def execFctrEdgeReached (a : RAt) (s : State) : Out := event s (s.regionOn a) (s.edgeDue a) (s.doEdge a).resume

/-! ## Tests and returns -/

/-- TEST_DONE (R448). -/
def execTestDone (die kind unit : Nat) (pass : Bool) (s : State) : Out :=
  event s (decide (die < s.dieCount) && unitOn die kind unit) (s.testDue die kind unit pass) (doTestDone die kind unit pass s).resume

/-- EPOCH_FLIP (R313 step 3, R448). -/
def execEpochFlip (die : Nat) (s : State) : Out :=
  event s (decide (die < s.dieCount)) (s.live die && s.inSwitch die && (s.die die).switching && !(s.die die).flipped)
    (doEpochFlip die s).resume

/-! ## Loss of a die (R28, R386) -/

/-- A lost die is waited for no more by STATE_IDLE, ENERGY_LIMIT or KEY_REMOVE packets (R28; log entry 41). -/
def State.unwaitDie (s : State) (d : Nat) : State :=
  let s1 := s.settleLimits d
  let s2 := { s1 with keyWaits := s1.keyWaits.map fun (k : Pkt × Nat × List Nat) => (k.1, k.2.1, k.2.2.filter (· != d)) }.settleKeys
  (tkeys s2.idles).foldl (fun s id =>
    { s with idles := tmapv s.idles fun k o => if k = id then { o with left := o.left.filter (· != d) } else o }.endIdle id) s2

/-- A die is lost in operation. -/
def doDieLoss (d cause : Nat) (s : State) : State := ((s.loseDie d cause).unwaitDie d).resume

/-- PLL_LOCK_LOSS (R386). -/
def execPllLockLoss (die : Nat) (s : State) : Out :=
  event s (decide (die < s.dieCount)) (s.live die) (doDieLoss die 2 s)

/-- DIE_CONTROLLER_TIMEOUT (R28): no answer to Psiurn's heartbeat for 10 ms. -/
def execDieControllerTimeout (die : Nat) (s : State) : Out :=
  event s (decide (die < s.dieCount)) (s.live die) (doDieLoss die 1 s)

end Sys2Proof.Machine
end

