-- ==== Sys2Proof/Machine/Dispatch.lean ====
section
/-! DEFINITION. The dispatch: one arm per command, one direct call of its meaning. -/

namespace Sys2Proof.Machine

/-- The effect of a command on everything but the queue of waiting commands. -/
def exec (i : Instr) (s : State) : Host.Outcome State Fault Refusal :=
  match i with
  | .tenantCreate p quantum idleMs resumeS => Sys2Proof.Machine.execTenantCreate p quantum idleMs resumeS s
  | .tenantDestroy p => Sys2Proof.Machine.execTenantDestroy p s
  | .tenantSet p quantum idleMs resumeS => Sys2Proof.Machine.execTenantSet p quantum idleMs resumeS s
  | .ctxCreate p inst tmpl die => Sys2Proof.Machine.execCtxCreate p inst tmpl die s
  | .ctxDestroy p => Sys2Proof.Machine.execCtxDestroy p s
  | .ctxRead p off len => Sys2Proof.Machine.execCtxRead p off len s
  | .modelCreate p L h d32 fmt thr wBytes bBytes => Sys2Proof.Machine.execModelCreate p L h d32 fmt thr wBytes bBytes s
  | .modelWrite p inst part die off data => Sys2Proof.Machine.execModelWrite p inst part die off data s
  | .modelCommit p inst bundle => Sys2Proof.Machine.execModelCommit p inst bundle s
  | .modelDestroy p inst => Sys2Proof.Machine.execModelDestroy p inst s
  | .seqOpen p inst die cls => Sys2Proof.Machine.execSeqOpen p inst die cls s
  | .seqClose p seq => Sys2Proof.Machine.execSeqClose p seq s
  | .seqSuspend p seq cls => Sys2Proof.Machine.execSeqSuspend p seq cls s
  | .seqResume p seq cls => Sys2Proof.Machine.execSeqResume p seq cls s
  | .seqTruncate p seq pos => Sys2Proof.Machine.execSeqTruncate p seq pos s
  | .sheetHintPromote p seq layer => Sys2Proof.Machine.execSheetHintPromote p seq layer s
  | .sheetHintDemote p seq layer => Sys2Proof.Machine.execSheetHintDemote p seq layer s
  | .sheetHintPin p seq layer => Sys2Proof.Machine.execSheetHintPin p seq layer s
  | .sheetHintUnpin p seq layer => Sys2Proof.Machine.execSheetHintUnpin p seq layer s
  | .stateIdle p dies segs => Sys2Proof.Machine.execStateIdle p dies segs s
  | .idleDrainDone die => Sys2Proof.Machine.execIdleDrainDone die s
  | .stateWake p dies => Sys2Proof.Machine.execStateWake p dies s
  | .segmentInitDone die lc seg => Sys2Proof.Machine.execSegmentInitDone die lc seg s
  | .seqQuery p seq => Sys2Proof.Machine.execSeqQuery p seq s
  | .execDispatch p inst list outUnits entries payload => Sys2Proof.Machine.execExecDispatch p inst list outUnits entries payload s
  | .dispatchComplete id outs => Sys2Proof.Machine.execDispatchComplete id outs s
  | .fabricLoadPart p at_ tenant last off imageLen data chk => Sys2Proof.Machine.execFabricLoadPart p at_ tenant last off imageLen data chk s
  | .fabricLoadFlash p at_ tenant addr chk => Sys2Proof.Machine.execFabricLoadFlash p at_ tenant addr chk s
  | .fabricLoadBind p at_ tenant => Sys2Proof.Machine.execFabricLoadBind p at_ tenant s
  | .fabricLoadAbandon p at_ => Sys2Proof.Machine.execFabricLoadAbandon p at_ s
  | .bankVoltageReady at_ => Sys2Proof.Machine.execBankVoltageReady at_ s
  | .regionRelease at_ => Sys2Proof.Machine.execRegionRelease at_ s
  | .ioHandover at_ => Sys2Proof.Machine.execIoHandover at_ s
  | .fabricCaptureFlipFlops p at_ edge => Sys2Proof.Machine.execFabricCaptureFlipFlops p at_ edge s
  | .fabricCaptureHalt p at_ edge => Sys2Proof.Machine.execFabricCaptureHalt p at_ edge s
  | .fabricCaptureResume p at_ edge => Sys2Proof.Machine.execFabricCaptureResume p at_ edge s
  | .captureCopyDone at_ => Sys2Proof.Machine.execCaptureCopyDone at_ s
  | .fabricRead p at_ first count => Sys2Proof.Machine.execFabricRead p at_ first count s
  | .fabricClockSetDivisor p at_ divisor edge => Sys2Proof.Machine.execFabricClockSetDivisor p at_ divisor edge s
  | .fabricClockHalt p at_ edge => Sys2Proof.Machine.execFabricClockHalt p at_ edge s
  | .fabricClockRun p at_ edge => Sys2Proof.Machine.execFabricClockRun p at_ edge s
  | .fabricClockReadFctr p at_ edge => Sys2Proof.Machine.execFabricClockReadFctr p at_ edge s
  | .fctrEdgeReached at_ => Sys2Proof.Machine.execFctrEdgeReached at_ s
  | .knotTie p die knot owner value => Sys2Proof.Machine.execKnotTie p die knot owner value s
  | .knotAdd p die knot n => Sys2Proof.Machine.execKnotAdd p die knot n s
  | .knotWait p die knot target => Sys2Proof.Machine.execKnotWait p die knot target s
  | .knotUntie p die knot => Sys2Proof.Machine.execKnotUntie p die knot s
  | .knotRead p die knot => Sys2Proof.Machine.execKnotRead p die knot s
  | .knotOpArrival die idx bad => Sys2Proof.Machine.execKnotOpArrival die idx bad s
  | .knotWake die ctx => Sys2Proof.Machine.execKnotWake die ctx s
  | .energyLimit p pMw rMw => Sys2Proof.Machine.execEnergyLimit p pMw rMw s
  | .energyAllow p tenant dies window nj => Sys2Proof.Machine.execEnergyAllow p tenant dies window nj s
  | .energyRead p die tenant => Sys2Proof.Machine.execEnergyRead p die tenant s
  | .telCounters p die kind unit => Sys2Proof.Machine.execTelCounters p die kind unit s
  | .telReam p die first count => Sys2Proof.Machine.execTelReam p die first count s
  | .telCtx p => Sys2Proof.Machine.execTelCtx p s
  | .telProbeSetFilter p sel f => Sys2Proof.Machine.execTelProbeSetFilter p sel f s
  | .telProbeStart p sel => Sys2Proof.Machine.execTelProbeStart p sel s
  | .telProbeStop p sel => Sys2Proof.Machine.execTelProbeStop p sel s
  | .telProbeReadCounts p sel => Sys2Proof.Machine.execTelProbeReadCounts p sel s
  | .telProbeReadTrace p die => Sys2Proof.Machine.execTelProbeReadTrace p die s
  | .telProbeClearTrace p die => Sys2Proof.Machine.execTelProbeClearTrace p die s
  | .testRunSelfTest p die kind unit => Sys2Proof.Machine.execTestRunSelfTest p die kind unit s
  | .testRunCalibration p die kind unit => Sys2Proof.Machine.execTestRunCalibration p die kind unit s
  | .testRunLinkRetrain p die kind unit => Sys2Proof.Machine.execTestRunLinkRetrain p die kind unit s
  | .testDone die kind unit pass => Sys2Proof.Machine.execTestDone die kind unit pass s
  | .queueCreate p queue die cls tenant func vector base log2size coalCount coalUs first => Sys2Proof.Machine.execQueueCreate p queue die cls tenant func vector base log2size coalCount coalUs first s
  | .queueDestroy p queue => Sys2Proof.Machine.execQueueDestroy p queue s
  | .queueDrained queue => Sys2Proof.Machine.execQueueDrained queue s
  | .eventConfig p func queue mask => Sys2Proof.Machine.execEventConfig p func queue mask s
  | .deviceInfo p => Sys2Proof.Machine.execDeviceInfo p s
  | .keyLoadSealingKey p tenant dies w => Sys2Proof.Machine.execKeyLoadSealingKey p tenant dies w s
  | .keyLoadImageKey p target w => Sys2Proof.Machine.execKeyLoadImageKey p target w s
  | .keyLoadIdentityRecord p entries => Sys2Proof.Machine.execKeyLoadIdentityRecord p entries s
  | .keyRemove p tenant dies => Sys2Proof.Machine.execKeyRemove p tenant dies s
  | .fwUpdateWrite p off data => Sys2Proof.Machine.execFwUpdateWrite p off data s
  | .fwUpdateActivate p chk => Sys2Proof.Machine.execFwUpdateActivate p chk s
  | .fwUpdateRaiseFwMin p value => Sys2Proof.Machine.execFwUpdateRaiseFwMin p value s
  | .fwUpdateRaiseCfgMin p value => Sys2Proof.Machine.execFwUpdateRaiseCfgMin p value s
  | .debugUnlockNonce p => Sys2Proof.Machine.execDebugUnlockNonce p s
  | .debugUnlockPresent p token => Sys2Proof.Machine.execDebugUnlockPresent p token s
  | .debugUnlockLock p => Sys2Proof.Machine.execDebugUnlockLock p s
  | .spdmRequest r => Sys2Proof.Machine.execSpdmRequest r s
  | .regRead addr => Sys2Proof.Machine.execRegRead addr s
  | .regWrite addr value => Sys2Proof.Machine.execRegWrite addr value s
  | .pkgStatus => Sys2Proof.Machine.execPkgStatus s
  | .mboxWrite off data => Sys2Proof.Machine.execMboxWrite off data s
  | .mboxGo => Sys2Proof.Machine.execMboxGo s
  | .mboxRead off len => Sys2Proof.Machine.execMboxRead off len s
  | .doorbell func queue value => Sys2Proof.Machine.execDoorbell func queue value s
  | .packetTake queue => Sys2Proof.Machine.execPacketTake queue s
  | .packetStart queue seq => Sys2Proof.Machine.execPacketStart queue seq s
  | .replyPost queue => Sys2Proof.Machine.execReplyPost queue s
  | .qrheadWrite func queue value => Sys2Proof.Machine.execQrheadWrite func queue value s
  | .queueEnable func value => Sys2Proof.Machine.execQueueEnable func value s
  | .queueReset func value => Sys2Proof.Machine.execQueueReset func value s
  | .irqCoalesceTimer queue => Sys2Proof.Machine.execIrqCoalesceTimer queue s
  | .eventPost => Sys2Proof.Machine.execEventPost s
  | .hostPerst level => Sys2Proof.Machine.execHostPerst level s
  | .functionLevelReset func => Sys2Proof.Machine.execFunctionLevelReset func s
  | .hotReset => Sys2Proof.Machine.execHotReset s
  | .d3hotEntry func => Sys2Proof.Machine.execD3hotEntry func s
  | .d3hotExit func => Sys2Proof.Machine.execD3hotExit func s
  | .hostBarWrite func bar off data poisoned replays => Sys2Proof.Machine.execHostBarWrite func bar off data poisoned replays s
  | .wringAccept die w => Sys2Proof.Machine.execWringAccept die w s
  | .requestOpen die w => Sys2Proof.Machine.execRequestOpen die w s
  | .sheetStream die w uncorrectable corrected => Sys2Proof.Machine.execSheetStream die w uncorrectable corrected s
  | .partial_ die w => Sys2Proof.Machine.execPartial die w s
  | .append die w => Sys2Proof.Machine.execAppend die w s
  | .appendDone a slot => Sys2Proof.Machine.execAppendDone a slot s
  | .appendResume die w => Sys2Proof.Machine.execAppendResume die w s
  | .wringerFence die w cause => Sys2Proof.Machine.execWringerFence die w cause s
  | .resendTimeout a slot entry => Sys2Proof.Machine.execResendTimeout a slot entry s
  | .resendAfterFlip a slot entry => Sys2Proof.Machine.execResendAfterFlip a slot entry s
  | .agingPeriod die => Sys2Proof.Machine.execAgingPeriod die s
  | .reamPatrol die bad => Sys2Proof.Machine.execReamPatrol die bad s
  | .lostEntryRewrite die handle => Sys2Proof.Machine.execLostEntryRewrite die handle s
  | .migrationStart die => Sys2Proof.Machine.execMigrationStart die s
  | .migrationCopyDone die handle srcBad dstBad => Sys2Proof.Machine.execMigrationCopyDone die handle srcBad dstBad s
  | .migrationRelease die handle => Sys2Proof.Machine.execMigrationRelease die handle s
  | .seqIdleTimeout seq => Sys2Proof.Machine.execSeqIdleTimeout seq s
  | .retentionCheck elapsedMs => Sys2Proof.Machine.execRetentionCheck elapsedMs s
  | .matmul a addr => Sys2Proof.Machine.execMatmul a addr s
  | .attend a addr => Sys2Proof.Machine.execAttend a addr s
  | .descriptorStart a => Sys2Proof.Machine.execDescriptorStart a s
  | .blockLoad a quarter parityBad => Sys2Proof.Machine.execBlockLoad a quarter parityBad s
  | .passSwap a quarter => Sys2Proof.Machine.execPassSwap a quarter s
  | .wringSend a slot => Sys2Proof.Machine.execWringSend a slot s
  | .partialMerge a slot => Sys2Proof.Machine.execPartialMerge a slot s
  | .descriptorComplete a idx => Sys2Proof.Machine.execDescriptorComplete a idx s
  | .staggerRow a => Sys2Proof.Machine.execStaggerRow a s
  | .threadBlockArrive die thread pos => Sys2Proof.Machine.execThreadBlockArrive die thread pos s
  | .threadFetch die thread => Sys2Proof.Machine.execThreadFetch die thread s
  | .streamIssue die ctx idx addr => Sys2Proof.Machine.execStreamIssue die ctx idx addr s
  | .streamBurst die engine uncorrectable => Sys2Proof.Machine.execStreamBurst die engine uncorrectable s
  | .streamComplete die stream => Sys2Proof.Machine.execStreamComplete die stream s
  | .tileGrant die kind => Sys2Proof.Machine.execTileGrant die kind s
  | .quantumExpiry t => Sys2Proof.Machine.execQuantumExpiry t s
  | .contextSwitch t => Sys2Proof.Machine.execContextSwitch t s
  | .quiesceDone t => Sys2Proof.Machine.execQuiesceDone t s
  | .saveChecked t ok => Sys2Proof.Machine.execSaveChecked t ok s
  | .rinseDone t => Sys2Proof.Machine.execRinseDone t s
  | .restoreDone t imageBad => Sys2Proof.Machine.execRestoreDone t imageBad s
  | .completionRingDrain die ctx => Sys2Proof.Machine.execCompletionRingDrain die ctx s
  | .tpWord r port word last => Sys2Proof.Machine.execTpWord r port word last s
  | .callRingClaim r port => Sys2Proof.Machine.execCallRingClaim r port s
  | .callLanded r port => Sys2Proof.Machine.execCallLanded r port s
  | .rtpTransfer r ch => Sys2Proof.Machine.execRtpTransfer r ch s
  | .fmAccess r blk port addr write meets bitErrors => Sys2Proof.Machine.execFmAccess r blk port addr write meets bitErrors s
  | .fmWriteback r blk => Sys2Proof.Machine.execFmWriteback r blk s
  | .fabricClockEdge r line falling ins => Sys2Proof.Machine.execFabricClockEdge r line falling ins s
  | .darnerScan die testOk errs => Sys2Proof.Machine.execDarnerScan die testOk errs s
  | .darnerRetry die testOk => Sys2Proof.Machine.execDarnerRetry die testOk s
  | .selfcheckNow die testOk => Sys2Proof.Machine.execSelfcheckNow die testOk s
  | .routerForward die router pkt => Sys2Proof.Machine.execRouterForward die router pkt s
  | .packetDeliver die node ecc => Sys2Proof.Machine.execPacketDeliver die node ecc s
  | .txnTimeout die node txn => Sys2Proof.Machine.execTxnTimeout die node txn s
  | .epochSwitch dies change => Sys2Proof.Machine.execEpochSwitch dies change s
  | .epochFlip die => Sys2Proof.Machine.execEpochFlip die s
  | .epochDrainDone die => Sys2Proof.Machine.execEpochDrainDone die s
  | .regionSleepDecision r => Sys2Proof.Machine.execRegionSleepDecision r s
  | .gatePoint r => Sys2Proof.Machine.execGatePoint r s
  | .regionPowerOff r => Sys2Proof.Machine.execRegionPowerOff r s
  | .regionWake r => Sys2Proof.Machine.execRegionWake r s
  | .wakeRailsReady r => Sys2Proof.Machine.execWakeRailsReady r s
  | .ucieRetrain die router module replays trained => Sys2Proof.Machine.execUcieRetrain die router module replays trained s
  | .memoryAccess die mc arrivals act rep => Sys2Proof.Machine.execMemoryAccess die mc arrivals act rep s
  | .refresh die mc bank postpone reduce => Sys2Proof.Machine.execRefresh die mc bank postpone reduce s
  | .rfmIssue die mc bank reduce => Sys2Proof.Machine.execRfmIssue die mc bank reduce s
  | .patrolScrub die lc severity => Sys2Proof.Machine.execPatrolScrub die lc severity s
  | .hbmScrubPoll die mc corrections => Sys2Proof.Machine.execHbmScrubPoll die mc corrections s
  | .retrainPause die chan inRange nclk => Sys2Proof.Machine.execRetrainPause die chan inRange nclk s
  | .trainingFrame die port lane frame lock => Sys2Proof.Machine.execTrainingFrame die port lane frame lock s
  | .signalDetect die port => Sys2Proof.Machine.execSignalDetect die port s
  | .linkRetry die port => Sys2Proof.Machine.execLinkRetry die port s
  | .trainingTimeout die port => Sys2Proof.Machine.execTrainingTimeout die port s
  | .alignMeasureDone die port lanes skewNs errPer1e7 => Sys2Proof.Machine.execAlignMeasureDone die port lanes skewNs errPer1e7 s
  | .linkIdle die port => Sys2Proof.Machine.execLinkIdle die port s
  | .heartbeatSend die port => Sys2Proof.Machine.execHeartbeatSend die port s
  | .heartbeatLoss die port => Sys2Proof.Machine.execHeartbeatLoss die port s
  | .alignmentLoss die port => Sys2Proof.Machine.execAlignmentLoss die port s
  | .feltFrameRx die port frame corrected uncorr => Sys2Proof.Machine.execFeltFrameRx die port frame corrected uncorr s
  | .feltSend die ring port => Sys2Proof.Machine.execFeltSend die ring port s
  | .ackTimer die ring => Sys2Proof.Machine.execAckTimer die ring s
  | .e2eRetransmit die ring => Sys2Proof.Machine.execE2eRetransmit die ring s
  | .fold die port => Sys2Proof.Machine.execFold die port s
  | .foldAck die port => Sys2Proof.Machine.execFoldAck die port s
  | .wake die port fromPartner => Sys2Proof.Machine.execWake die port fromPartner s
  | .wakingTimeout die port => Sys2Proof.Machine.execWakingTimeout die port s
  | .foldRetry die port => Sys2Proof.Machine.execFoldRetry die port s
  | .retrain die port => Sys2Proof.Machine.execRetrain die port s
  | .pwWrite path die off value => Sys2Proof.Machine.execPwWrite path die off value s
  | .pressGo path die mask => Sys2Proof.Machine.execPressGo path die mask s
  | .pressCancel path die mask => Sys2Proof.Machine.execPressCancel path die mask s
  | .commit path die block => Sys2Proof.Machine.execCommit path die block s
  | .cfgCrcPass die block => Sys2Proof.Machine.execCfgCrcPass die block s
  | .readClear path die off => Sys2Proof.Machine.execReadClear path die off s
  | .snapshotRead path die off => Sys2Proof.Machine.execSnapshotRead path die off s
  | .registerWrite path die off value => Sys2Proof.Machine.execRegisterWrite path die off value s
  | .ledgerPeriod die dieNj fabNj nclk tempC refreshed => Sys2Proof.Machine.execLedgerPeriod die dieNj fabNj nclk tempC refreshed s
  | .backstopWindow psiNj => Sys2Proof.Machine.execBackstopWindow psiNj s
  | .staticCalibration die mw tempC => Sys2Proof.Machine.execStaticCalibration die mw tempC s
  | .thermalShutdown die tempC => Sys2Proof.Machine.execThermalShutdown die tempC s
  | .vinExcursion k => Sys2Proof.Machine.execVinExcursion k s
  | .pllLockLoss die => Sys2Proof.Machine.execPllLockLoss die s
  | .dieControllerTimeout die => Sys2Proof.Machine.execDieControllerTimeout die s
  | .fwRehash isSame => Sys2Proof.Machine.execFwRehash isSame s
  | .packageReset => Sys2Proof.Machine.execPackageReset s
  | .packageResetRelease f => Sys2Proof.Machine.execPackageResetRelease f s
  | .startUpImageLoad primary fallback => Sys2Proof.Machine.execStartUpImageLoad primary fallback s
  | .cfgDoneHigh die => Sys2Proof.Machine.execCfgDoneHigh die s
  | .nop t w => Sys2Proof.Machine.execNop t w s
  | .rep t w => Sys2Proof.Machine.execRep t w s
  | .halt t w => Sys2Proof.Machine.execHalt t w s
  | .fence t w => Sys2Proof.Machine.execFence t w s
  | .press t w => Sys2Proof.Machine.execPress t w s
  | .kadd t w => Sys2Proof.Machine.execKadd t w s
  | .kwait t w => Sys2Proof.Machine.execKwait t w s
  | .sissue t w => Sys2Proof.Machine.execSissue t w s
  | .pbase t w => Sys2Proof.Machine.execPbase t w s
  | .plen t w => Sys2Proof.Machine.execPlen t w s
  | .pstride t w => Sys2Proof.Machine.execPstride t w s
  | .psetp t w => Sys2Proof.Machine.execPsetp t w s
  | .vstat t w => Sys2Proof.Machine.execVstat t w s
  | .vld t w => Sys2Proof.Machine.execVld t w s
  | .vst t w => Sys2Proof.Machine.execVst t w s
  | .vldx t w => Sys2Proof.Machine.execVldx t w s
  | .vstx t w => Sys2Proof.Machine.execVstx t w s
  | .vmovi t w => Sys2Proof.Machine.execVmovi t w s
  | .vmov t w => Sys2Proof.Machine.execVmov t w s
  | .vbcstH t w => Sys2Proof.Machine.execVbcstH t w s
  | .vbcstW t w => Sys2Proof.Machine.execVbcstW t w s
  | .vaddH t w => Sys2Proof.Machine.execVaddH t w s
  | .vsubH t w => Sys2Proof.Machine.execVsubH t w s
  | .vaddW t w => Sys2Proof.Machine.execVaddW t w s
  | .vsubW t w => Sys2Proof.Machine.execVsubW t w s
  | .vmulH t w => Sys2Proof.Machine.execVmulH t w s
  | .vmaxH t w => Sys2Proof.Machine.execVmaxH t w s
  | .vminH t w => Sys2Proof.Machine.execVminH t w s
  | .vabsH t w => Sys2Proof.Machine.execVabsH t w s
  | .vnegH t w => Sys2Proof.Machine.execVnegH t w s
  | .vand t w => Sys2Proof.Machine.execVand t w s
  | .vor t w => Sys2Proof.Machine.execVor t w s
  | .vxor t w => Sys2Proof.Machine.execVxor t w s
  | .vsel t w => Sys2Proof.Machine.execVsel t w s
  | .vcmpH t w => Sys2Proof.Machine.execVcmpH t w s
  | .vshlH t w => Sys2Proof.Machine.execVshlH t w s
  | .vshrH t w => Sys2Proof.Machine.execVshrH t w s
  | .vclr t w => Sys2Proof.Machine.execVclr t w s
  | .vaccLd t w => Sys2Proof.Machine.execVaccLd t w s
  | .vmacH t w => Sys2Proof.Machine.execVmacH t w s
  | .vmsuH t w => Sys2Proof.Machine.execVmsuH t w s
  | .vmacsH t w => Sys2Proof.Machine.execVmacsH t w s
  | .vmacWh t w => Sys2Proof.Machine.execVmacWh t w s
  | .vrndH t w => Sys2Proof.Machine.execVrndH t w s
  | .vrndWe t w => Sys2Proof.Machine.execVrndWe t w s
  | .vrndWo t w => Sys2Proof.Machine.execVrndWo t w s
  | .normH t w => Sys2Proof.Machine.execNormH t w s
  | .normW t w => Sys2Proof.Machine.execNormW t w s
  | .expxH t w => Sys2Proof.Machine.execExpxH t w s
  | .expxW t w => Sys2Proof.Machine.execExpxW t w s
  | .bshH t w => Sys2Proof.Machine.execBshH t w s
  | .bshW t w => Sys2Proof.Machine.execBshW t w s
  | .faddS t w => Sys2Proof.Machine.execFaddS t w s
  | .fsubS t w => Sys2Proof.Machine.execFsubS t w s
  | .fmulS t w => Sys2Proof.Machine.execFmulS t w s
  | .ffmaS t w => Sys2Proof.Machine.execFfmaS t w s
  | .fmaxS t w => Sys2Proof.Machine.execFmaxS t w s
  | .fminS t w => Sys2Proof.Machine.execFminS t w s
  | .frcpS t w => Sys2Proof.Machine.execFrcpS t w s
  | .fexp2S t w => Sys2Proof.Machine.execFexp2S t w s
  | .faddB t w => Sys2Proof.Machine.execFaddB t w s
  | .fsubB t w => Sys2Proof.Machine.execFsubB t w s
  | .fmulB t w => Sys2Proof.Machine.execFmulB t w s
  | .ffmaB t w => Sys2Proof.Machine.execFfmaB t w s
  | .fcvtSx t w => Sys2Proof.Machine.execFcvtSx t w s
  | .fcvtXs t w => Sys2Proof.Machine.execFcvtXs t w s
  | .fcvtSb t w => Sys2Proof.Machine.execFcvtSb t w s
  | .fcvtBs t w => Sys2Proof.Machine.execFcvtBs t w s
  | .fcvtHs t w => Sys2Proof.Machine.execFcvtHs t w s
  | .regionReturn r passMask => Sys2Proof.Machine.execRegionReturn r passMask s
  | .loopsRelocked die port => Sys2Proof.Machine.execLoopsRelocked die port s
  | .uncorrectableCodewordRatio die port per1e7 => Sys2Proof.Machine.execUncorrectableCodewordRatio die port per1e7 s
  | .sensorMinimumReached => Sys2Proof.Machine.execSensorMinimumReached s

end Sys2Proof.Machine
end

