-- ==== Sys2Proof/Safety.lean ====
section
/-! DEFINITION. The terms in which the claims are stated. -/

namespace Sys2Proof.Machine

/-- The command answers a next state, and that state has the property. -/
def Runs (i : Instr) (s : State) (P : State → Prop) : Prop := ∃ t, exec i s = .next t ∧ P t

/-- The command has an effect with the property, and the commands that wait are then looked at again (log entry 40). -/
def RunsThen (i : Instr) (s : State) (P : State → Prop) : Prop := ∃ u, exec i s = .next u.resume ∧ P u

/-- Nothing differs but queues and the sideband: what a reply, and a refusal, may change. -/
def OnlyReplies (s t : State) : Prop :=
  t = { s with queues := t.queues, psi := { s.psi with sideband := t.psi.sideband } }

/-- A packet of an open queue of a running package, with QUIET clear (R215, R219, R236): the setting in which a reply is
posted. -/
structure OnQueue (s : State) (p : Pkt) : Prop where
  running : s.running = true
  ring : p.queue ≠ mboxQueue
  opened : (s.queue p.queue).st ≠ .disabled
  started : s.orphaned p = false
  loud : p.quiet = false

/-- The queue of the packet holds one reply more, with status OK and these parameters and payload (R222, R223). -/
def Replies (s t : State) (code : Nat) (p : Pkt) (params payload : List Byte) : Prop :=
  (t.queue p.queue).held = (s.queue p.queue).held ++ [mkReply code p .ok 0 params payload false]

/-- The queue of the packet holds one reply more, with a status and a `detail` and nothing else (R224). -/
def Refuses (s t : State) (code : Nat) (p : Pkt) (st : Status) (detail : Nat) : Prop :=
  (t.queue p.queue).held = (s.queue p.queue).held ++ [mkReply code p st detail [] [] false]

/-- Two packets that no reply can confuse: of different queues, or with different sequence numbers (R225). -/
def Apart (p q : Pkt) : Prop := q.queue ≠ p.queue ∨ q.seq ≠ p.seq

/-- No packet that waits on a knot or in a fabric region can be confused with `p`. -/
structure Alone (s : State) (p : Pkt) : Prop where
  hosts    : ∀ d k, ∀ w ∈ ((s.die d).knot k).hosts, Apart p w.1
  sessions : ∀ d r q, ((s.die d).fabric r).session = some q → Apart p q.pkt
  acts     : ∀ d r, ∀ k ∈ ((s.die d).fabric r).acts, Apart p k.pkt
  copies   : ∀ d r k, ((s.die d).fabric r).copying = some k → Apart p k.pkt

/-- The reply with status OK, these parameters and payload is the last that the queue of the packet holds more; the replies of
packets that end with it stand before it. -/
def RepliesLast (s t : State) (code : Nat) (p : Pkt) (params payload : List Byte) : Prop :=
  ∃ l, (t.queue p.queue).held = (s.queue p.queue).held ++ l ++ [mkReply code p .ok 0 params payload false]

/-- The body of a partial image (R274, R288) read on from where session `q` stands, with the bytes there are now. -/
def bodyRead (frames : Tbl (BitVec 1024)) (q : Session) (bytes : List Byte) (key : Option (BitVec 256)) (chk : ImgChk) : BodyAt :=
  let h := bytes.take 2048
  let body := imgBody h ((bytes.drop 7424).take (imgBodyLen h)) key
  eatBody (inDeckle h) false chk.illegal (imgBodyLen h) (body.length / 64 + 1) (body.drop q.used)
    { used := q.used, run := q.run, frames := frames, bad := [], ended := none }

/-- The same of a region of the state, under the key that the image names (R277). -/
def State.bodyHere (s : State) (a : RAt) (q : Session) (bytes : List Byte) (chk : ImgChk) : BodyAt :=
  bodyRead (s.die a.die).frames q bytes (s.imgKey (bytes.take 2048)) chk

/-- What the body has written is a design that the region can take (log entry 80). -/
def BodyAt.designOk (b : BodyAt) (a : RAt) (chk : ImgChk) : Bool :=
  Machine.designOk (chkDesign chk a.die a.region) (({ Die.reset .skz2 with frames := b.frames } : Die).bankCode a.die a.region)

/-- A clock or capture action of a region waits for its edge of FCLKr, and nothing else has happened (R246, R262, R263). -/
def AwaitsEdge (s : State) (i : Instr) (a : RAt) (k : ClkAct) : Prop :=
  Runs i s fun t => ((t.die a.die).fabric a.region).acts = [k] ∧ t.queues = s.queues ∧
    ((t.die a.die).fabric a.region).halted = ((s.die a.die).fabric a.region).halted ∧
    ((t.die a.die).fabric a.region).ff = ((s.die a.die).fabric a.region).ff

/-- The other dies are as they were. -/
def OtherDies (s t : State) (d : Nat) : Prop := ∀ e, e ≠ d → t.die e = s.die e

/-- The output of a port of a fabric memory block: its data and DERR. -/
def FmBlk.out (b : FmBlk) (port : Nat) : BitVec 64 × Bool := if port = 0 then b.outA else b.outB

/-- The modules out of service after module `m` trained, or did not (R316). -/
def moduleList (l : List Nat) (m : Nat) (trained : Bool) : List Nat :=
  if trained then l.filter (· != m) else if l.contains m then l else l ++ [m]

/-! ## Vector words -/

/-- Element `e` of the 128 .H elements of a register (R164). -/
def hLane (v : BitVec 2048) (e : Nat) : BitVec 16 := v.extractLsb' (16 * e) 16

/-- Element `e` of the 64 .W elements of a register (R164). -/
def wLane (v : BitVec 2048) (e : Nat) : BitVec 32 := v.extractLsb' (32 * e) 32

/-- Element `e` of the 128 elements of an accumulator (R163). -/
def aLane (v : BitVec 6144) (e : Nat) : BitVec 48 := v.extractLsb' (48 * e) 48

/-- A vector tile of the state. -/
def State.vAt (s : State) (t : VAt) : VTile := (s.die t.die).vtile t.tile

/-- What the word reads on its tile. -/
def State.vIn (s : State) (op : Nat) (t : VAt) (w : VW) : VIn := (s.vAt t).gather op w

/-- The next word of the running context is `w` with opcode `op`, one that the pattern may hold and whose accesses lie in the
declared memory, aligned (R165, R168, R183), and local memory reports no error. -/
structure WordRuns (s : State) (op : Nat) (t : VAt) (w : VW) : Prop where
  units : s.vUnits t = true
  ready : s.vReady op t w = true
  clean : t.err = 0
  legal : ∀ y, (s.vctx t).2 = some y → (s.vcore t).stop y.tenant y.declared op w = none

/-- Nothing differs but one vector tile and the counters of its die. -/
structure TileOnly (s u : State) (t : VAt) : Prop where
  rest : u = { s with dies := u.dies }
  dies : OtherDies s u t.die
  die : u.die t.die = { s.die t.die with
    vtiles := (u.die t.die).vtiles, ctrs := (u.die t.die).ctrs, wraps := (u.die t.die).wraps }
  tiles : ∀ n, n ≠ t.tile → (u.die t.die).vtile n = (s.die t.die).vtile n

/-- The word writes Vd, a value with the property, and neither another register, an accumulator nor local memory. -/
def WritesVd (i : Instr) (s : State) (t : VAt) (w : VW) (P : BitVec 2048 → Prop) : Prop :=
  Runs i s fun u => TileOnly s u t ∧ (u.vAt t).mem = (s.vAt t).mem ∧ (∀ n, (u.vcore t).accu n = (s.vcore t).accu n) ∧
    (∀ n, n ≠ w.vd.toNat → (u.vcore t).reg n = (s.vcore t).reg n) ∧ P ((u.vcore t).reg w.vd.toNat)

/-- The word writes its accumulator, a value with the property, and neither a register, another accumulator nor local memory. -/
def WritesAcc (i : Instr) (s : State) (t : VAt) (w : VW) (P : BitVec 6144 → Prop) : Prop :=
  Runs i s fun u => TileOnly s u t ∧ (u.vAt t).mem = (s.vAt t).mem ∧ (∀ n, (u.vcore t).reg n = (s.vcore t).reg n) ∧
    (∀ n, n ≠ w.acc.toNat → (u.vcore t).accu n = (s.vcore t).accu n) ∧ P ((u.vcore t).accu w.acc.toNat)

/-- The word writes no register, no accumulator and no memory; the core has the property. -/
def WritesCore (i : Instr) (s : State) (t : VAt) (P : VCore → Prop) : Prop :=
  Runs i s fun u => TileOnly s u t ∧ (u.vAt t).mem = (s.vAt t).mem ∧ (∀ n, (u.vcore t).reg n = (s.vcore t).reg n) ∧
    (∀ n, (u.vcore t).accu n = (s.vcore t).accu n) ∧ P (u.vcore t)

/-- `r` is x ÷ 2^k rounded to nearest, ties to even (R173). -/
def Nearest (x : Int) (k : Nat) (r : Int) : Prop :=
  2 * (x - r * 2 ^ k).natAbs < 2 ^ k ∨ (2 * (x - r * 2 ^ k).natAbs = 2 ^ k ∧ r % 2 = 0)

/-- A value fitted to `n` bits: the nearest limit with `ovf`, the low bits without it (R173). -/
def fitted (n : Nat) (ovf : Bool) (x : Int) : BitVec n :=
  BitVec.ofInt n (if ovf then max (-(2 ^ (n - 1))) (min (2 ^ (n - 1) - 1) x) else x)

/-- `c` bits after the sign bit of the `n`-bit value `x` equal it, and no more (R174). -/
def SignBits (n : Nat) (x : Int) (c : Nat) : Prop :=
  c < n ∧ -(2 ^ (n - 1)) ≤ x * 2 ^ c ∧ x * 2 ^ c < 2 ^ (n - 1) ∧
    (c + 1 < n → x * 2 ^ (c + 1) < -(2 ^ (n - 1)) ∨ 2 ^ (n - 1) ≤ x * 2 ^ (c + 1))

/-- A binary32 code that is a NaN (R90). -/
def isNan32 (c : BitVec 32) : Prop := c.extractLsb' 23 8 = 0xFF ∧ c.extractLsb' 0 23 ≠ 0

/-! ## What every step keeps -/

/-- What holds of Psiurn's key store, its flash and its limits: the minimums lie in 0 to 63 and the entries in the store's places
(R420), the flash is in canonical form (log entry 3), P and R lie in the range of R390. -/
structure Psiurn.Sound (y : Psiurn) (p : Part) : Prop where
  firmware : y.fwMin ≤ 63
  config   : y.cfgMin ≤ 63
  images   : ∀ n, thas y.imageKeys n = true → n < 16
  signers  : ∀ n, thas y.signing n = true → n < 8
  flashed  : Memory.wf y.flash = true
  limitLow : p.variant.limitMw ≤ 4 * y.pMw
  limitTop : y.pMw ≤ p.variant.limitMw
  reserve  : 10 * y.rMw ≤ 3 * shareMw y.pMw p.variant.dies

end Sys2Proof.Machine
end

