-- ==== Sys2Proof/Certificates/Slice0/Obligations.lean ====
section
/-! DEFINITION. The statements about the block. Each docstring names the rules of spec/ it rests on; a choice of the model's own is
named with its log entry. -/

open Sys2Proof Sys2Proof.Machine

/-! ## Tenants, contexts, models, sequences -/

/-- R32, R51, R193, R229 (Table 9-13): TENANT_CREATE and TENANT_SET give the tenant named in the header its quantum, idle time
(0 means 1,000 ms) and resume lifetime, and touch no other tenant; TENANT_DESTROY of a tenant to which no queue is bound removes
it. The conditions are those of R193 and R229. -/
def Obligations.TenantCommandsComplete : Prop :=
  (∀ (s : State) (p : Pkt) (quantum idleMs resumeS : Nat), OnQueue s p → s.due 0x0001 p = true → s.permitted .m p = true → p.tenant < 64 →
    4096 ≤ quantum → quantum ≤ 1048576 → quantum % 4096 = 0 → s.tenants.length < 64 → thas s.tenants p.tenant = false →
    Runs (.tenantCreate p quantum idleMs resumeS) s fun t => Replies s t 0x0001 p [] [] ∧
      tfind t.tenants p.tenant = some { quantum := quantum, idleMs := if idleMs = 0 then 1000 else idleMs, resumeS := resumeS,
                                        destroy := none } ∧
      (∀ u, u ≠ p.tenant → tfind t.tenants u = tfind s.tenants u) ∧ t.seqs = s.seqs ∧ t.models = s.models) ∧
  (∀ (s : State) (p : Pkt) (quantum idleMs resumeS : Nat) (x : Tenant), OnQueue s p → s.due 0x0003 p = true → s.permitted .m p = true →
    tfind s.tenants p.tenant = some x → x.destroy = none → 4096 ≤ quantum → quantum ≤ 1048576 → quantum % 4096 = 0 →
    Runs (.tenantSet p quantum idleMs resumeS) s fun t => Replies s t 0x0003 p [] [] ∧
      tfind t.tenants p.tenant = some { quantum := quantum, idleMs := if idleMs = 0 then 1000 else idleMs, resumeS := resumeS,
                                        destroy := none } ∧
      (∀ u, u ≠ p.tenant → tfind t.tenants u = tfind s.tenants u) ∧ t.dies = s.dies) ∧
  (∀ (s : State) (p : Pkt) (x : Tenant), OnQueue s p → s.due 0x0002 p = true → s.permitted .m p = true → tfind s.tenants p.tenant = some x →
    x.destroy = none → (∀ e ∈ s.queues, e.2.tenant ≠ p.tenant) →
    Runs (.tenantDestroy p) s fun t => tfind t.tenants p.tenant = none)

/-- R187, R188, R207, R229, R230 (Table 8-3): CTX_CREATE makes a CREATED context of the tenant, instance and template on the die and
replies with its package-wide number; CTX_DESTROY frees the number; CTX_READ returns the declared memory of a context that is
neither CREATED, FAILED nor SAVING nor, WAITING, still on its tile; TEL_CTX returns the context's status. The two reads change nothing. -/
def Obligations.ContextCommandsComplete : Prop :=
  (∀ (s : State) (p : Pkt) (inst tmpl die : Nat) (tp : Template) (x : Die) (m : Model) (c : Nat), OnQueue s p →
    s.due 0x0010 p = true → s.permitted .t p = true → chkCtxCreate p inst tmpl die s = none → s.tmplOf p inst tmpl = some tp →
    s.areasFor p inst tmpl die = some (x, m) → (s.die die).newCtx = some c →
    Runs (.ctxCreate p inst tmpl die) s fun t => Replies s t 0x0010 p (padTo 4 (le 2 (ctxNo die c))) [] ∧
      OtherDies s t die ∧ ∃ y, tfind (t.die die).ctxs c = some y ∧ y.st = .created ∧ y.tenant = p.tenant ∧ y.model = inst ∧
        y.tmpl = tmpl ∧ y.kind = tp.kind ∧ y.declared = tp.declBytes) ∧
  (∀ (s : State) (p : Pkt) (y : Ctx), OnQueue s p → s.due 0x0011 p = true → s.permitted .t p = true → s.hasTenant p.tenant = true →
    s.ctxOf p = some y →
    Runs (.ctxDestroy p) s fun t => tfind (t.die (p.context / 4096)).ctxs (p.context % 4096) = none) ∧
  (∀ (s : State) (p : Pkt) (off len : Nat) (y : Ctx), OnQueue s p → s.due 0x0012 p = true → s.permitted .t p = true → s.hasTenant p.tenant = true →
    s.ctxOf p = some y → y.st ≠ .created → y.st ≠ .failed → y.st ≠ .saving →
    (y.st = .waiting → y.tile = none) → off % 64 = 0 → len % 64 = 0 → len ≤ 262144 →
    off + len ≤ y.declared →
    Runs (.ctxRead p off len) s fun t => OnlyReplies s t ∧
      Replies s t 0x0012 p [] (mreadN ((s.die (p.context / 4096)).ctxMem y) off len)) ∧
  (∀ (s : State) (p : Pkt) (y : Ctx), OnQueue s p → s.due 0x0703 p = true → s.permitted .t p = true → s.hasTenant p.tenant = true →
    s.hdrCtx p = some y → y.tenant = p.tenant →
    Runs (.telCtx p) s fun t => OnlyReplies s t ∧ Replies s t 0x0703 p ((s.die (p.context / 4096)).ctxBytes y) [])

/-- R33, R230, R466: MODEL_CREATE makes an instance of the tenant with its geometry under the lowest free number (log entry 16) and
replies with it; MODEL_WRITE puts the bytes below the declared size where a later read finds them; MODEL_COMMIT fixes the bundle
and the digest; MODEL_DESTROY of an unused instance removes it. -/
def Obligations.ModelCommandsComplete : Prop :=
  (∀ (s : State) (p : Pkt) (L h d32 fmt thr wBytes bBytes i : Nat), OnQueue s p → s.due 0x0101 p = true → s.permitted .t p = true →
    chkModelCreate p L h d32 fmt thr wBytes bBytes s = none → s.newModel = some i →
    Runs (.modelCreate p L h d32 fmt thr wBytes bBytes) s fun t => Replies s t 0x0101 p (padTo 4 (le 1 i)) [] ∧
      ∃ m, tfind t.models i = some m ∧ m.tenant = p.tenant ∧ m.layers = L ∧ m.h = h ∧ m.d = 32 * d32 ∧ m.fmt = fmt ∧
        m.bundle = none ∧ ∀ j, j ≠ i → tfind t.models j = tfind s.models j) ∧
  (∀ (s : State) (p : Pkt) (inst die off : Nat) (data : List Byte) (m : Model), OnQueue s p → s.due 0x0102 p = true → s.permitted .t p = true →
    s.hasTenant p.tenant = true → s.modelOf p inst = some m → m.bundle = none → s.usable die = true → off % 64 = 0 →
    off + data.length ≤ m.wBytes →
    Runs (.modelWrite p inst 0 die off data) s fun t => Replies s t 0x0102 p [] [] ∧ t.dies = s.dies ∧
      ∃ m', tfind t.models inst = some m' ∧ mreadN m'.weightMem (die * 2 ^ 40 + off) data.length = data ∧
        m'.bundleMem = m.bundleMem) ∧
  (∀ (s : State) (p : Pkt) (inst : Nat) (b : Bundle) (m : Model), OnQueue s p → s.due 0x0103 p = true → s.permitted .t p = true →
    s.hasTenant p.tenant = true → s.modelOf p inst = some m → m.bundle = none → bundleOk m b = true →
    Runs (.modelCommit p inst b) s fun t => t.dies = s.dies ∧
      ∃ m', tfind t.models inst = some m' ∧ m'.bundle = some b ∧ Replies s t 0x0103 p (le 48 m'.digest.toNat) []) ∧
  (∀ (s : State) (p : Pkt) (inst : Nat) (m : Model), OnQueue s p → s.due 0x0104 p = true → s.permitted .t p = true → s.hasTenant p.tenant = true →
    s.modelOf p inst = some m → s.modelUsed inst = false →
    Runs (.modelDestroy p inst) s fun t => Replies s t 0x0104 p [] [] ∧ tfind t.models inst = none)

/-- R34, R35, R36, R46, R53, R226: the sequence opcodes. SEQ_OPEN leaves a SUSPENDED sequence at position 0 and replies with its
number, its home and that position; SEQ_SUSPEND and SEQ_RESUME move between SUSPENDED and ACTIVE (with fewer than 128 active on the
die); SEQ_TRUNCATE takes a LOST sequence to SUSPENDED at a position at or below its first lost token; SEQ_CLOSE removes it;
SEQ_QUERY changes nothing. All of them need a sequence that no admitted step holds. -/
def Obligations.SequenceCommandsComplete : Prop :=
  (∀ (s : State) (p : Pkt) (inst die cls i : Nat) (m : Model), OnQueue s p → s.due 0x0201 p = true → s.permitted .t p = true →
    chkSeqOpen p inst die cls s = none → s.modelOf p inst = some m → s.freeSlot (s.openDie p.tenant die) = some i →
    Runs (.seqOpen p inst die cls) s fun t =>
      Replies s t 0x0201 p (le 2 (s.openDie p.tenant die * 2048 + i) ++
        le 1 (s.openDie p.tenant die * 8 + (s.die (s.openDie p.tenant die)).homeRegion) ++ [0] ++ le 4 0) [] ∧
      t.dies = s.dies ∧ ∃ q, tfind t.seqs (s.openDie p.tenant die * 2048 + i) = some q ∧ q.st = .suspended ∧ q.pos = 0 ∧
        q.tenant = p.tenant ∧ q.model = inst ∧ q.cls = cls) ∧
  (∀ (s : State) (p : Pkt) (n : Nat) (q : Sequence), OnQueue s p → s.due 0x0202 p = true → s.permitted .t p = true → s.hasTenant p.tenant = true →
    s.seqOf p n = some q → q.heldBy = none →
    Runs (.seqClose p n) s fun t => tfind t.seqs n = none) ∧
  (∀ (s : State) (p : Pkt) (n c : Nat) (q : Sequence), OnQueue s p → s.due 0x0203 p = true → s.permitted .t p = true → s.hasTenant p.tenant = true →
    s.seqOf p n = some q → q.heldBy = none → q.st = .active → c ≤ 2 →
    Runs (.seqSuspend p n c) s fun t => Replies s t 0x0203 p [] [] ∧
      tfind t.seqs n = some { q with st := .suspended, suspMs := 0, suspNew := true, cls := c }) ∧
  (∀ (s : State) (p : Pkt) (n c : Nat) (q : Sequence), OnQueue s p → s.due 0x0204 p = true → s.permitted .t p = true → s.hasTenant p.tenant = true →
    s.seqOf p n = some q → q.heldBy = none → q.st = .suspended → c ≤ 2 → s.active (seqDie n) < 128 →
    Runs (.seqResume p n c) s fun t => Replies s t 0x0204 p [] [] ∧
      tfind t.seqs n = some { q with st := .active, cls := c }) ∧
  (∀ (s : State) (p : Pkt) (n pos lo : Nat) (q : Sequence), OnQueue s p → s.due 0x0205 p = true → s.permitted .t p = true →
    s.hasTenant p.tenant = true → s.seqOf p n = some q → q.heldBy = none → q.st = .lost →
    (s.die (seqDie n)).firstLost n = some lo → pos ≤ lo → pos ≤ q.pos → s.keyWaits = [] →
    Runs (.seqTruncate p n pos) s fun t => Replies s t 0x0205 p [] [] ∧
      ∃ r, tfind t.seqs n = some r ∧ r.st = .suspended ∧ r.pos = pos) ∧
  (∀ (s : State) (p : Pkt) (n : Nat) (q : Sequence), OnQueue s p → s.due 0x0209 p = true → s.permitted .t p = true → s.hasTenant p.tenant = true →
    s.seqOf p n = some q → q.heldBy = none →
    Runs (.seqQuery p n) s fun t => OnlyReplies s t ∧ Replies s t 0x0209 p (s.queryBytes n q) [])

/-- R48: the four actions of SHEET_HINT on a sequence that no step holds complete. Promote and demote only queue copies for the
mover; pin and unpin write `pin` in every entry the hint names and leave its sheet where it is. -/
def Obligations.SheetHintsComplete : Prop :=
  ∀ (s : State) (p : Pkt) (n layer : Nat) (q : Sequence), OnQueue s p → s.due 0x0206 p = true → s.permitted .t p = true →
    s.hasTenant p.tenant = true → s.seqOf p n = some q → q.heldBy = none → s.layerBad n layer = false →
    (Runs (.sheetHintPromote p n layer) s fun t => Replies s t 0x0206 p [] [] ∧ t.seqs = s.seqs ∧
      (t.die (seqDie n)).ream = (s.die (seqDie n)).ream ∧
      ∃ l, (t.die (seqDie n)).hints = (s.die (seqDie n)).hints ++ l ∧ ∀ e ∈ l, e.2 = true ∧
        ((s.die (seqDie n)).entry e.1).loc.tier = true) ∧
    (Runs (.sheetHintDemote p n layer) s fun t => Replies s t 0x0206 p [] [] ∧ t.seqs = s.seqs ∧
      (t.die (seqDie n)).ream = (s.die (seqDie n)).ream ∧
      ∃ l, (t.die (seqDie n)).hints = (s.die (seqDie n)).hints ++ l ∧ ∀ e ∈ l, e.2 = false ∧
        ((s.die (seqDie n)).entry e.1).loc.tier = false ∧ ((s.die (seqDie n)).entry e.1).pin = false) ∧
    (Runs (.sheetHintPin p n layer) s fun t => Replies s t 0x0206 p [] [] ∧ t.seqs = s.seqs ∧
      (∀ e ∈ s.hinted n layer, ((t.die (seqDie n)).entry e.1).pin = true) ∧
      ∀ h, ((t.die (seqDie n)).entry h).loc = ((s.die (seqDie n)).entry h).loc) ∧
    (Runs (.sheetHintUnpin p n layer) s fun t => Replies s t 0x0206 p [] [] ∧ t.seqs = s.seqs ∧
      (∀ e ∈ s.hinted n layer, ((t.die (seqDie n)).entry e.1).pin = false) ∧
      ∀ h, ((t.die (seqDie n)).entry h).loc = ((s.die (seqDie n)).entry h).loc)

/-! ## Segments and dispatches -/

/-- R52, R226, R345: STATE_IDLE on dies where none runs or waits marks each of them, with a drop set within the segments asked for, and
leaves the other dies; STATE_WAKE restores every segment and replies, with the former drop set to be initialised; the end of an
idle operation adds its drop set to the dropped segments; an initialised segment reads as zero and nothing outside it changes. -/
def Obligations.SegmentCommandsComplete : Prop :=
  (∀ (s : State) (p : Pkt) (m segs : BitVec 8), s.due 0x0207 p = true → s.permitted .m p = true → m ≠ 0 →
    (∀ d ∈ maskDies m, s.usable d = true) → s.idleBusy m = false →
    Runs (.stateIdle p m segs) s fun t =>
      (∀ d ∈ maskDies m, ∃ i, (t.die d).idle = some i ∧ i.segs &&& ~~~segs = 0) ∧
      ∀ d, d ∉ maskDies m → t.die d = s.die d) ∧
  (∀ (s : State) (p : Pkt) (m : BitVec 8), OnQueue s p → s.due 0x0208 p = true → s.permitted .m p = true →
    (∀ d ∈ maskDies m, s.usable d = true) → s.idleBusy m = false →
    Runs (.stateWake p m) s fun t => Replies s t 0x0208 p [] [] ∧
      (∀ d ∈ maskDies m, (t.die d).dropped = 0 ∧ (t.die d).ream = (s.die d).ream ∧
        ∀ l < 16, ∀ i < 8, (s.die d).chanUp (64 + l) = true → (s.die d).dropped.getLsbD i = true →
          l * 8 + i ∈ (t.die d).initSegs) ∧
      ∀ d, d ∉ maskDies m → t.die d = s.die d) ∧
  (∀ (s : State) (d : Nat) (i : DieIdle), s.live d = true → (s.die d).idle = some i →
    (s.die d).wringsGone i.handles i.segs = true →
    RunsThen (.idleDrainDone d) s fun u => OtherDies s u d ∧ (u.die d).idle = none ∧
      (u.die d).dropped = (s.die d).dropped ||| i.segs ∧ (u.die d).ream = (s.die d).ream) ∧
  (∀ (s : State) (d lc seg : Nat), s.live d = true → lc < 16 → seg < 8 → lc * 8 + seg ∈ (s.die d).initSegs →
    Runs (.segmentInitDone d lc seg) s fun t => OtherDies s t d ∧ lc * 8 + seg ∉ (t.die d).initSegs ∧
      ∀ a, mread (t.die d).dram a =
        if frameAddr (64 + lc) (2880 * seg) ≤ a ∧ a < frameAddr (64 + lc) (2880 * (seg + 1)) then 0
        else mread (s.die d).dram a)

/-- R231, R232, R226: EXEC_DISPATCH whose checks pass, whose capacity and energy tests pass and whose sheets are found, starts
without a reply: it holds its sequences, and each context of its list is READY for it. -/
def Obligations.DispatchStarts : Prop :=
  ∀ (s s1 : State) (p : Pkt) (inst list out : Nat) (es : List ExecEntry) (payload : List Byte) (m : Model) (b : Bundle)
    (l : DList) (cs : List (Nat × List Nat)) (es1 : List EntryRun), s.due 0x0301 p = true → s.permitted .x p = true →
    firstOf (s.execChecks p inst list out es payload.length) = none → s.modelOf p inst = some m →
    s.bundleOf p inst = some b → s.dlist p inst list = some l → s.dispatchCtxs p inst list es.length = some cs →
    s.mustWait es b l cs = false → s.capacityBad (liveSeqs (s.entryRuns es)) = none →
    s.energyDefers p.tenant (s.queue p.queue).cls l.periods (s.planOf inst list l (s.entryRuns es)) = none →
    State.takeAll m (s.entryRuns es) (s.resumeAll (liveSeqs (s.entryRuns es))) = some (s1, es1) →
    listsBad b l cs m.layers (s.entryRuns es) (s1.listsFor m.layers es1) = false →
    Runs (.execDispatch p inst list out es payload) s fun t => t.queues = s.queues ∧
      ∃ id x, tfind s.disps id = none ∧ tfind t.disps id = some x ∧ x.pkt = p ∧ x.ctxs = cs ∧
        (∀ n ∈ liveSeqs es1, ∃ q, tfind t.seqs n = some q ∧ q.heldBy = some id) ∧
        ∀ c ∈ cs, ∃ y, tfind (t.die (c.1 / 4096)).ctxs (c.1 % 4096) = some y ∧ y.st = .ready ∧ y.disp = some id

/-- R37, R226, R233: once every context of a dispatch has ended, the dispatch is gone, none of its sequences is held by it, and its
queue holds a reply with status OK to its packet. -/
def Obligations.DispatchEnds : Prop :=
  ∀ (s : State) (id : Nat) (outs : List (List Byte)) (x : Dispatch) (m : Model),
    OnQueue s x.pkt → tfind s.disps id = some x → x.ctxs = [] → tfind s.models x.model = some m →
    (∀ k ∈ s.keyWaits, Apart x.pkt k.1) →
    RunsThen (.dispatchComplete id outs) s fun u => tfind u.disps id = none ∧
      (∀ e ∈ x.entries, ∀ q, tfind u.seqs e.seq = some q → q.heldBy ≠ some id) ∧
      ∃ a r c, (u.queue x.pkt.queue).held = (s.queue x.pkt.queue).held ++ a ++ r :: c ∧ r.opcode = 0x0301 ∧
        r.seq = x.pkt.seq ∧ r.status = .ok

/-! ## The fabric: loads, captures, clocks -/

/-- R284, R285, R287: the parts of a partial image. The first part of an image whose header and signatures pass opens a session
and isolates the region; a further part is kept behind what the session holds; with the last byte of an image whose
body, design (log entry 80), digest, tag and CRC pass the session waits for its bank's voltage and release, and keeps its packet;
a design that the region cannot take ends it instead, and leaves the region UNCONFIGURED (the model's choice, log entry 80).

R285, R286, R289, R290: a whole image from flash takes its session to the wait for release under its own digest;
binding gives an untenanted CONFIGURED region its tenant and the bindings of its port table, and replies with the image's digest;
abandoning ends the session and leaves the region UNCONFIGURED where it was open already; the regulator's report is kept.

R241, R260, R281, R287: at its release a region counts FCLKr from 0 with the image's divisor, its flip-flops at the initial
values of its design, its memory blocks at those of their frames, its shift-register tables unshifted; at handover, at edge 16 or later, it is CONFIGURED, its pins belong to the design, and the packet of the load replies
with the digest. -/
def Obligations.FabricLoads : Prop :=
  ((∀ (s : State) (p : Pkt) (a : RAt) (tenant len : Nat) (data : List Byte) (chk : ImgChk), OnQueue s p →
    s.due 0x0401 p = true → s.permitted .m p = true → firstOf (s.loadNames a (some tenant)) = none → s.loadWaits a.die a.region = false →
    ((s.die a.die).fabric a.region).session = none → ((s.die a.die).fabric a.region).acts = [] →
    ((s.die a.die).fabric a.region).copying = none → data.length = 7424 → 7424 < len →
    imgStep1 s.part.variant a.die a.region len (data.take 2048) = true →
    imgStep2 s.psi.imgKeys s.psi.cfgMin (data.take 2048) ((data.drop 2048).take 5376) chk = none →
    (s.die a.die).imgStep3 a.die a.region tenant (data.take 2048) = true →
    Runs (.fabricLoadPart p a tenant false 0 len data chk) s fun t => Replies s t 0x0401 p [] [] ∧ OtherDies s t a.die ∧
      ((t.die a.die).fabric a.region).st = .loading ∧ ((t.die a.die).fabric a.region).halted = true ∧
      ∃ q, ((t.die a.die).fabric a.region).session = some q ∧ q.bytes = data ∧ q.len = len ∧ q.next = 7424) ∧
  (∀ (s : State) (p : Pkt) (a : RAt) (tenant off len : Nat) (data : List Byte) (chk : ImgChk) (q : Session), OnQueue s p →
    s.due 0x0401 p = true → s.permitted .m p = true → firstOf (s.loadNames a (some tenant)) = none → s.loadWaits a.die a.region = false →
    ((s.die a.die).fabric a.region).session = some q →
    firstOf (partChecks ((s.die a.die).fabric a.region) p false off len data) = none →
    (s.bodyHere a q (q.bytes ++ data) chk).ended = none →
    Runs (.fabricLoadPart p a tenant false off len data chk) s fun t => Replies s t 0x0401 p [] [] ∧ OtherDies s t a.die ∧
      (t.die a.die).frames = (s.bodyHere a q (q.bytes ++ data) chk).frames ∧
      ∃ r, ((t.die a.die).fabric a.region).session = some r ∧ r.bytes = q.bytes ++ data ∧ r.next = q.next + data.length) ∧
  (∀ (s : State) (p : Pkt) (a : RAt) (tenant off len : Nat) (data : List Byte) (chk : ImgChk) (q : Session),
    s.due 0x0401 p = true → s.permitted .m p = true → firstOf (s.loadNames a (some tenant)) = none →
    s.loadWaits a.die a.region = false → ((s.die a.die).fabric a.region).session = some q →
    firstOf (partChecks ((s.die a.die).fabric a.region) p true off len data) = none →
    (s.bodyHere a q (q.bytes ++ data) chk).ended = none →
    (s.bodyHere a q (q.bytes ++ data) chk).designOk a chk = true →
    imgEnd ((q.bytes ++ data).take 2048) ((q.bytes ++ data).drop (7424 + imgBodyLen ((q.bytes ++ data).take 2048)))
      (q.bytes ++ data) (s.imgKey ((q.bytes ++ data).take 2048)) = none →
    Runs (.fabricLoadPart p a tenant true off len data chk) s fun t => t.queues = s.queues ∧ OtherDies s t a.die ∧
      ∃ r, ((t.die a.die).fabric a.region).session = some r ∧ r.step = 7 ∧ r.pkt = p ∧
        r.digest = imgDigest ((q.bytes ++ data).take 2048)) ∧
  (∀ (s : State) (p : Pkt) (a : RAt) (tenant off len : Nat) (data : List Byte) (chk : ImgChk) (q : Session),
    s.due 0x0401 p = true → s.permitted .m p = true → firstOf (s.loadNames a (some tenant)) = none →
    s.loadWaits a.die a.region = false → ((s.die a.die).fabric a.region).session = some q →
    firstOf (partChecks ((s.die a.die).fabric a.region) p true off len data) = none →
    (s.bodyHere a q (q.bytes ++ data) chk).ended = none →
    (s.bodyHere a q (q.bytes ++ data) chk).designOk a chk = false →
    Runs (.fabricLoadPart p a tenant true off len data chk) s fun t =>
      ((t.die a.die).fabric a.region).session = none ∧ ((t.die a.die).fabric a.region).st = .unconfigured)) ∧
  ((∀ (s : State) (p : Pkt) (a : RAt) (tenant addr : Nat) (chk : ImgChk) (img : List Byte), s.running = true →
    s.due 0x0401 p = true → s.permitted .m p = true → firstOf (s.loadNames a (some tenant)) = none → s.loadWaits a.die a.region = false →
    ((s.die a.die).fabric a.region).session = none →
    img = mreadN s.psi.flash addr (7488 + leNat (mreadN s.psi.flash (addr + 28) 8)) → addr + img.length ≤ 2 ^ 32 →
    imgStep1 s.part.variant a.die a.region img.length (img.take 2048) = true →
    imgStep2 s.psi.imgKeys s.psi.cfgMin (img.take 2048) ((img.drop 2048).take 5376) chk = none →
    (s.die a.die).imgStep3 a.die a.region tenant (img.take 2048) = true →
    (∀ u, u = s.loadStep4 a.die a.region tenant (img.take 2048) →
      (u.bodyHere a (newSession p tenant img.length img) img chk).ended = none ∧
        (u.bodyHere a (newSession p tenant img.length img) img chk).designOk a chk = true) →
    imgEnd (img.take 2048) (img.drop (7424 + imgBodyLen (img.take 2048))) img (s.imgKey (img.take 2048)) = none →
    Runs (.fabricLoadFlash p a tenant addr chk) s fun t => OtherDies s t a.die ∧
      ((t.die a.die).fabric a.region).st = .loading ∧ ((t.die a.die).fabric a.region).tenant = tenant ∧
      ∃ q, ((t.die a.die).fabric a.region).session = some q ∧ q.step = 7 ∧ q.pkt = p ∧
        q.digest = imgDigest (img.take 2048)) ∧
  (∀ (s : State) (p : Pkt) (a : RAt) (tenant : Nat), OnQueue s p → s.due 0x0401 p = true → s.permitted .m p = true →
    firstOf (s.loadNames a (some tenant)) = none → s.loadWaits a.die a.region = false → tenant < 64 →
    ((s.die a.die).fabric a.region).st = .configured → ((s.die a.die).fabric a.region).tenant = 0xFF →
    (s.die a.die).portsOk a.region tenant ((s.die a.die).portTable a.die a.region) = true →
    Runs (.fabricLoadBind p a tenant) s fun t =>
      Replies s t 0x0401 p (le 48 ((s.die a.die).fabric a.region).digest.toNat) [] ∧ OtherDies s t a.die ∧
      ((t.die a.die).fabric a.region).tenant = tenant ∧ ((t.die a.die).fabric a.region).st = .configured ∧
      ((t.die a.die).fabric a.region).binds = tableBinds ((s.die a.die).portTable a.die a.region)) ∧
  (∀ (s : State) (p : Pkt) (a : RAt) (q : Session), OnQueue s p → s.due 0x0401 p = true → s.permitted .m p = true →
    firstOf (s.loadNames a none) = none → s.loadWaits a.die a.region = false →
    ((s.die a.die).fabric a.region).session = some q → (q.step = 7 → Apart p q.pkt) →
    Runs (.fabricLoadAbandon p a) s fun t => RepliesLast s t 0x0401 p [] [] ∧ OtherDies s t a.die ∧
      ((t.die a.die).fabric a.region).session = none ∧
      (4 ≤ q.step → ((t.die a.die).fabric a.region).st = .unconfigured)) ∧
  (∀ (s : State) (a : RAt), s.live a.die = true → a.region < 8 → ((s.die a.die).fabric a.region).st = .loading →
    ((s.die a.die).fabric a.region).bankOk = false →
    (∀ q, ((s.die a.die).fabric a.region).session = some q → q.step = 7) →
    Runs (.bankVoltageReady a) s fun t => OtherDies s t a.die ∧
      (t.die a.die).fabric a.region = { (s.die a.die).fabric a.region with bankOk := true } ∧
      ∀ r, r ≠ a.region → (t.die a.die).fabric r = (s.die a.die).fabric r)) ∧
  ((∀ (s : State) (a : RAt), s.live a.die = true → a.region < 8 → s.releaseDue a = true →
    RunsThen (.regionRelease a) s fun u => OtherDies s u a.die ∧
      ((u.die a.die).fabric a.region).released = true ∧ ((u.die a.die).fabric a.region).halted = false ∧
      ((u.die a.die).fabric a.region).fctr = 0 ∧
      ((u.die a.die).fabric a.region).divisor = (s.die a.die).frameByte (frameAt a.die a.region 3 0 0) 1 ∧
      ((u.die a.die).fabric a.region).ff = ffInit ((s.die a.die).fabric a.region).design ∧
      ((u.die a.die).fabric a.region).fm = (s.die a.die).fmInit a.die a.region ∧
      ((u.die a.die).fabric a.region).shift = [] ∧
      (u.die a.die).frames = (s.die a.die).frames) ∧
  (∀ (s : State) (a : RAt), s.live a.die = true → a.region < 8 → s.handoverDue a = true →
    RunsThen (.ioHandover a) s fun u => OtherDies s u a.die ∧ ((u.die a.die).fabric a.region).st = .configured ∧
      ((u.die a.die).fabric a.region).handed = true ∧ ((u.die a.die).fabric a.region).isoCodes = false ∧
      16 ≤ ((u.die a.die).fabric a.region).fctr ∧ ((u.die a.die).fabric a.region).session = none ∧
      ∀ q, ((s.die a.die).fabric a.region).session = some q → OnQueue s q.pkt →
        Replies s u 0x0401 q.pkt (le 48 q.digest.toNat) []))

/-- R246, R262, R263: a capture or clock action of a CONFIGURED region, with none before it, waits for its edge of FCLKr and
replies nothing yet.

R246, R261, R262, R292: at the edge an action waits for it takes effect: the divisor, the halt or the run, with FCTR in the
reply; a run of a clock that runs already when its turn comes is refused and changes no clock; a capture takes the flip-flops, and with a halt goes on to copy the memory blocks, which end in the shadow and in a
reply that names the edge, all 320 blocks and those with a port on a lane clock. FABRIC_READ returns frames and changes nothing. -/
def Obligations.ClockActions : Prop :=
  (∀ (s : State) (p : Pkt) (a : RAt) (edge : Nat), s.running = true → s.permitted .m p = true → s.usable a.die = true →
    a.region < 8 → ((s.die a.die).fabric a.region).st = .configured → ((s.die a.die).fabric a.region).acts = [] →
    ((s.die a.die).fabric a.region).copying = none →
    (edge = 0 ∨ (((s.die a.die).fabric a.region).halted = true ∧ ((s.die a.die).fabric a.region).fctr + 256 ≤ edge)) →
    (s.due 0x0402 p = true → AwaitsEdge s (.fabricCaptureFlipFlops p a edge) a ⟨p, 4, 0, edge⟩ ∧
      AwaitsEdge s (.fabricCaptureHalt p a edge) a ⟨p, 5, 0, edge⟩ ∧
      AwaitsEdge s (.fabricCaptureResume p a edge) a ⟨p, 6, 0, edge⟩) ∧
    (s.due 0x0404 p = true →
      (∀ n, 6 ≤ n → n ≤ 255 → AwaitsEdge s (.fabricClockSetDivisor p a n edge) a ⟨p, 0, n, edge⟩) ∧
      AwaitsEdge s (.fabricClockHalt p a edge) a ⟨p, 1, 0, edge⟩ ∧
      (((s.die a.die).fabric a.region).halted = true → AwaitsEdge s (.fabricClockRun p a edge) a ⟨p, 2, 0, edge⟩) ∧
      AwaitsEdge s (.fabricClockReadFctr p a edge) a ⟨p, 3, 0, edge⟩)) ∧
  ((∀ (s : State) (a : RAt) (k : ClkAct) (rest : List ClkAct) (f : Fabric), f = (s.die a.die).fabric a.region →
    s.live a.die = true → a.region < 8 → f.copying = none → f.acts = k :: rest → (f.halted = false ∨ k.edge = 0) →
    (k.action = 2 → f.halted = true) →
    RunsThen (.fctrEdgeReached a) s fun u => OtherDies s u a.die ∧
      ∃ g, g = (u.die a.die).fabric a.region ∧ g.acts = rest ∧ g.fctr = f.edgeOf k ∧ g.ff = f.ff ∧ g.fm = f.fm ∧
        (k.action = 0 → g.divisor = k.divisor ∧ g.halted = f.halted) ∧
        (k.action = 1 → g.halted = true ∧ g.divisor = f.divisor) ∧
        (k.action = 2 → g.halted = false ∧ g.divisor = f.divisor) ∧
        (k.action = 3 → g.halted = f.halted ∧ g.divisor = f.divisor) ∧
        (4 ≤ k.action → g.shadowFf = f.ff) ∧
        (5 ≤ k.action → g.halted = true ∧ g.copying = some { k with edge := f.edgeOf k } ∧ u.queues = s.queues) ∧
        (OnQueue s k.pkt → k.action < 4 → Replies s u 0x0404 k.pkt (le 8 (f.edgeOf k)) []) ∧
        (OnQueue s k.pkt → k.action = 4 → Replies s u 0x0402 k.pkt (captureReply (f.edgeOf k) 0 0) [])) ∧
  (∀ (s : State) (a : RAt) (k : ClkAct) (rest : List ClkAct) (f : Fabric), f = (s.die a.die).fabric a.region →
    s.live a.die = true → a.region < 8 → f.copying = none → f.acts = k :: rest → k.action = 2 → f.halted = false →
    OnQueue s k.pkt →
    RunsThen (.fctrEdgeReached a) s fun u => OtherDies s u a.die ∧ Refuses s u 0x0404 k.pkt .badParam 8 ∧
      (u.die a.die).fabric a.region = { f with acts := rest }) ∧
  (∀ (s : State) (a : RAt) (k : ClkAct) (f : Fabric), f = (s.die a.die).fabric a.region →
    s.live a.die = true → a.region < 8 → f.copying = some k → OnQueue s k.pkt →
    RunsThen (.captureCopyDone a) s fun u => OtherDies s u a.die ∧
      Replies s u 0x0402 k.pkt (captureReply k.edge 320 f.laneBlocks) [] ∧
      ∃ g, g = (u.die a.die).fabric a.region ∧ g.copying = none ∧ g.fm = f.fm ∧ g.shadowFf = f.shadowFf ∧
        g.shadowFm = some (f.fm.map fun e => (e.1, e.2.words)) ∧
        g.halted = (if k.action = 6 then false else f.halted)) ∧
  (∀ (s : State) (p : Pkt) (a : RAt) (first count : Nat), OnQueue s p → s.due 0x0403 p = true → s.permitted .m p = true →
    s.chkFabricRead a first count = none → ((s.die a.die).fabric a.region).copying = none →
    (∀ k ∈ ((s.die a.die).fabric a.region).acts, k.action < 4) →
    Runs (.fabricRead p a first count) s fun t => OnlyReplies s t ∧
      ∃ bytes, Replies s t 0x0403 p [] bytes ∧ bytes.length = 128 * count))

/-! ## Knots -/

/-- R201, R202, R203, R209: the knot opcodes. KNOT_TIE sets owner, tenant and value; KNOT_ADD adds modulo 2^64 and lets go exactly
the waiters whose target is met; KNOT_WAIT replies at once where the knot is UNTIED or its value has reached the target, and else
waits; KNOT_UNTIE leaves the knot UNTIED without waiters; KNOT_READ changes nothing.

R203, R204, R205, R207: an operation that reaches the knot unit leaves the network and is applied to its knot; one that finds an
uncorrectable error in the entry leaves that knot UNTIED; a context whose wait
was met on its tile runs on. -/
def Obligations.KnotCommands : Prop :=
  (∀ (s : State) (p : Pkt) (d k : Nat) (kn : Knot), OnQueue s p → s.permitted .t p = true → s.hasTenant p.tenant = true →
    s.usable d = true → knotOfTenant p.tenant k = true → kn = (s.die d).knot k →
    (∀ (c : Nat) (v : BitVec 64) (y : Ctx), s.due 0x0501 p = true → kn.tied = false → tfind (s.die d).ctxs c = some y → y.tenant = p.tenant →
      Runs (.knotTie p d k c v) s fun t => Replies s t 0x0501 p [] [] ∧ OtherDies s t d ∧
        (t.die d).knot k = { kn with tied := true, owner := c, tenant := p.tenant, value := v, wrap := false } ∧
        ∀ j, j ≠ k → (t.die d).knot j = (s.die d).knot j) ∧
    (∀ n : BitVec 64, s.due 0x0502 p = true → kn.tied = true → (∀ w ∈ kn.hosts, Apart p w.1) →
      Runs (.knotAdd p d k n) s fun t => RepliesLast s t 0x0502 p [] [] ∧ OtherDies s t d ∧
        (t.die d).knot k = { kn with
          value := kn.value + n, wrap := kn.wrap || decide (2 ^ 64 ≤ kn.value.toNat + n.toNat)
          waits := kn.waits.filter fun w => decide ((kn.value + n).toNat < w.2.toNat)
          hosts := kn.hosts.filter fun w => decide ((kn.value + n).toNat < w.2.toNat) }) ∧
    (∀ n : BitVec 64, s.due 0x0502 p = true → kn.tied = false →
      Runs (.knotAdd p d k n) s fun t => Replies s t 0x0502 p [] [] ∧ (t.die d).knots = (s.die d).knots) ∧
    (∀ v : BitVec 64, s.due 0x0503 p = true → kn.tied = true → kn.value.toNat < v.toNat → kn.hosts.length < 255 → (s.die d).hostWaits < 1024 →
      Runs (.knotWait p d k v) s fun t => t.queues = s.queues ∧ OtherDies s t d ∧
        (t.die d).knot k = { kn with hosts := kn.hosts ++ [(p, v)] }) ∧
    (∀ v : BitVec 64, s.due 0x0503 p = true → kn.tied = true → v.toNat ≤ kn.value.toNat →
      Runs (.knotWait p d k v) s fun t => OnlyReplies s t ∧ Replies s t 0x0503 p (le 8 kn.value.toNat) []) ∧
    (∀ v : BitVec 64, s.due 0x0503 p = true → kn.tied = false →
      Runs (.knotWait p d k v) s fun t => OnlyReplies s t ∧ Refuses s t 0x0503 p .ownerLost (ownerDetail d k)) ∧
    (s.due 0x0504 p = true → kn.tied = true → Alone s p →
      Runs (.knotUntie p d k) s fun t => RepliesLast s t 0x0504 p [] [] ∧ OtherDies s t d ∧
        ((t.die d).knot k).tied = false ∧ ((t.die d).knot k).waits = [] ∧ ((t.die d).knot k).hosts = []) ∧
    (s.due 0x0505 p = true → Runs (.knotRead p d k) s fun t => OnlyReplies s t ∧ Replies s t 0x0505 p kn.bytes [])) ∧
  ((∀ (s : State) (d i k : Nat) (n : BitVec 64), s.live d = true → (s.die d).knotNet[i]? = some (.add k n) →
    ((s.die d).knot k).tied = true →
    Runs (.knotOpArrival d i false) s fun t => OtherDies s t d ∧ (t.die d).knotNet = (s.die d).knotNet.eraseIdx i ∧
      ((t.die d).knot k).value = ((s.die d).knot k).value + n) ∧
  (∀ (s : State) (d i k : Nat), s.live d = true → (s.die d).knotNet[i]? = some (.untie k) →
    Runs (.knotOpArrival d i false) s fun t => OtherDies s t d ∧ (t.die d).knotNet = (s.die d).knotNet.eraseIdx i ∧
      ((t.die d).knot k).tied = false) ∧
  (∀ (s : State) (d i k : Nat) (n : BitVec 64), s.live d = true → (s.die d).knotNet[i]? = some (.add k n) →
    ((s.die d).knot k).tied = true →
    Runs (.knotOpArrival d i true) s fun t => OtherDies s t d ∧ (t.die d).knotNet = (s.die d).knotNet.eraseIdx i ∧
      ((t.die d).knot k).tied = false) ∧
  (∀ (s : State) (d i k : Nat) (n : BitVec 64), s.live d = true → (s.die d).knotNet[i]? = some (.add k n) →
    ((s.die d).knot k).tied = false →
    Runs (.knotOpArrival d i false) s fun t => OtherDies s t d ∧ (t.die d).knotNet = (s.die d).knotNet.eraseIdx i ∧
      (t.die d).knots = (s.die d).knots) ∧
  (∀ (s : State) (d c t0 : Nat), s.live d = true → c < 4096 → (s.die d).wakeTile c = some t0 →
    Runs (.knotWake d c) s fun t => OtherDies s t d ∧ ∃ y, tfind (t.die d).ctxs c = some y ∧ y.st = .running ∧
      y.woken = false ∧ y.wait = none))

/-! ## Energy, telemetry, tests -/

/-- R390, R393, R397: ENERGY_LIMIT sets P and R for the package and waits until the dies have applied them; ENERGY_ALLOW leaves the
new allowance and window for the next period on each named die; ENERGY_READ replies with the die's figures and clears `wrap` seen
there only.

R106, R229, R323, R324: telemetry reads. TEL_COUNTERS clears the wrap bits of the unit and nothing else of the die; TEL_REAM
reads entries and changes no die; the probe actions change the probe they name, a read of the trace empties it and keeps the
count of lost records, which only a clear sets to 0. -/
def Obligations.EnergyAndTelemetry : Prop :=
  ((∀ (s : State) (p : Pkt) (pMw rMw : Nat), s.due 0x0601 p = true → s.permitted .m p = true →
    s.part.variant.limitMw ≤ 4 * pMw → pMw ≤ s.part.variant.limitMw → 10 * rMw ≤ 3 * shareMw pMw s.dieCount →
    Runs (.energyLimit p pMw rMw) s fun t => t.psi.pMw = pMw ∧ t.psi.rMw = rMw ∧ t.dies = s.dies ∧ t.queues = s.queues ∧
      t.limits = s.limits ++ [(p, s.usableDies)]) ∧
  (∀ (s : State) (p : Pkt) (tenant : Nat) (dies : BitVec 8) (window nj : Nat), OnQueue s p → s.due 0x0602 p = true → s.permitted .m p = true →
    s.hasTenant tenant = true → (∀ d ∈ maskDies dies, d < s.dieCount) → 4096 ≤ window → window ≤ 16777216 →
    Runs (.energyAllow p tenant dies window nj) s fun t => Replies s t 0x0602 p [] [] ∧
      (∀ d ∈ maskDies dies, (t.die d).acct tenant = { (s.die d).acct tenant with next := some (allowOf nj, window) } ∧
        ∀ u, u ≠ tenant → (t.die d).acct u = (s.die d).acct u) ∧
      ∀ d, d ∉ maskDies dies → t.die d = s.die d) ∧
  (∀ (s : State) (p : Pkt) (d tenant : Nat), OnQueue s p → s.due 0x0603 p = true → s.permitted .t p = true → s.usable d = true →
    s.hasTenant tenant = true → ((s.queue p.queue).cls = 3 ∨ (s.queue p.queue).tenant = tenant) →
    Runs (.energyRead p d tenant) s fun t =>
      Replies s t 0x0603 p ((s.die d).led.readBytes ((s.die d).acct tenant)) [] ∧ OtherDies s t d ∧
      t.die d = { s.die d with led := { (s.die d).led with erWrap := false } })) ∧
  ((∀ (s : State) (p : Pkt) (d kind unit : Nat), OnQueue s p → s.due 0x0701 p = true → s.permitted .m p = true → s.usable d = true →
    ctrWidths kind ≠ [] → unitOn d kind unit = true →
    Runs (.telCounters p d kind unit) s fun t => OtherDies s t d ∧
      Replies s t 0x0701 p [] (padTo 64 ((s.die d).counters kind unit)) ∧
      t.die d = { s.die d with wraps := (t.die d).wraps } ∧
      ∀ i < (ctrWidths kind).length, tget (t.die d).wraps (ctrKey kind (ctrUnit kind unit) i) false = false) ∧
  (∀ (s : State) (p : Pkt) (d first count : Nat), OnQueue s p → s.due 0x0702 p = true → s.permitted .m p = true → s.usable d = true → 0 < count →
    count ≤ 16384 → first + count ≤ 524288 →
    Runs (.telReam p d first count) s fun t => t.dies = s.dies ∧
      ∃ bytes, Replies s t 0x0702 p [] (padTo 64 bytes) ∧ bytes.length = 16 * count ∧
        ∀ i < count, first + i ∉ (s.die d).reamBad →
          (bytes.drop (16 * i)).take 16 = ((s.die d).entry (first + i)).bytes) ∧
  (∀ (s : State) (p : Pkt) (sel : ProbeSel), OnQueue s p → s.due 0x0704 p = true → s.permitted .m p = true → s.usable sel.die = true →
    (probeRouter sel.router).isSome = true → sel.probe < 2 →
    (∀ f : ProbeFilter, ((s.die sel.die).probe (selKey sel)).running = false →
      Runs (.telProbeSetFilter p sel f) s fun t => Replies s t 0x0704 p [] [] ∧
        (t.die sel.die).probe (selKey sel) = { (s.die sel.die).probe (selKey sel) with filter := f } ∧
        ∀ j, j ≠ selKey sel → (t.die sel.die).probe j = (s.die sel.die).probe j) ∧
    (Runs (.telProbeStart p sel) s fun t => Replies s t 0x0704 p [] [] ∧
      (t.die sel.die).probe (selKey sel) = { (s.die sel.die).probe (selKey sel) with running := true } ∧
      ∀ j, j ≠ selKey sel → (t.die sel.die).probe j = (s.die sel.die).probe j) ∧
    (Runs (.telProbeStop p sel) s fun t => Replies s t 0x0704 p [] [] ∧
      (t.die sel.die).probe (selKey sel) = { (s.die sel.die).probe (selKey sel) with running := false } ∧
      ∀ j, j ≠ selKey sel → (t.die sel.die).probe j = (s.die sel.die).probe j) ∧
    Runs (.telProbeReadCounts p sel) s fun t => OnlyReplies s t ∧ Replies s t 0x0704 p
      (le 8 ((s.die sel.die).probe (selKey sel)).pkts ++ le 8 ((s.die sel.die).probe (selKey sel)).flits) []) ∧
  (∀ (s : State) (p : Pkt) (d : Nat), s.due 0x0704 p = true → s.permitted .m p = true → s.usable d = true →
    (Runs (.telProbeReadTrace p d) s fun t => OtherDies s t d ∧ t.die d = { s.die d with trace := [] }) ∧
    Runs (.telProbeClearTrace p d) s fun t => OtherDies s t d ∧ t.die d = { s.die d with trace := [], traceLost := 0 }))

/-- R446, R447, R448, R23: a test that its unit accepts, with none under way there, is recorded with its packet; its end removes the
record unless a fenced unit passed, which keeps it until the switch that returns the unit; a unit that fails its self-test is
fenced. -/
def Obligations.TestCommands : Prop :=
  (∀ (s : State) (p : Pkt) (d kind unit : Nat), s.due 0x0710 p = true → s.permitted .m p = true →
    tfind (s.die d).tests (unitKey kind (ctrUnit kind unit)) = none →
    (s.chkTest d kind unit 0 = none → Runs (.testRunSelfTest p d kind unit) s fun t => OtherDies s t d ∧
      tfind (t.die d).tests (unitKey kind (ctrUnit kind unit)) = some { pkt := p, test := 0, passed := false }) ∧
    (s.chkTest d kind unit 1 = none → Runs (.testRunCalibration p d kind unit) s fun t => OtherDies s t d ∧
      tfind (t.die d).tests (unitKey kind (ctrUnit kind unit)) = some { pkt := p, test := 1, passed := false }) ∧
    (s.chkTest d kind unit 2 = none → Runs (.testRunLinkRetrain p d kind unit) s fun t => OtherDies s t d ∧
      tfind (t.die d).tests (unitKey kind (ctrUnit kind unit)) = some { pkt := p, test := 2, passed := false })) ∧
  (∀ (s : State) (d kind unit : Nat) (r : TestRec), unitOn d kind unit = true → s.testDue d kind unit true = true →
    tfind (s.die d).tests (unitKey kind (ctrUnit kind unit)) = some r →
    (s.die d).isFenced kind (ctrUnit kind unit) = true →
    RunsThen (.testDone d kind unit true) s fun u => OtherDies s u d ∧ u.queues = s.queues ∧
      tfind (u.die d).tests (unitKey kind (ctrUnit kind unit)) = some { r with passed := true }) ∧
  (∀ (s : State) (d kind unit : Nat) (r : TestRec), unitOn d kind unit = true → s.testDue d kind unit true = true →
    tfind (s.die d).tests (unitKey kind (ctrUnit kind unit)) = some r →
    (s.die d).isFenced kind (ctrUnit kind unit) = false → kind ≠ 13 → OnQueue s r.pkt →
    RunsThen (.testDone d kind unit true) s fun u => OtherDies s u d ∧
      tfind (u.die d).tests (unitKey kind (ctrUnit kind unit)) = none ∧
      ∃ rate, Replies s u 0x0710 r.pkt ([0] ++ le 1 rate ++ [0, 0]) []) ∧
  (∀ (s : State) (d kind unit : Nat) (r : TestRec), unitOn d kind unit = true → s.testDue d kind unit false = true →
    tfind (s.die d).tests (unitKey kind (ctrUnit kind unit)) = some r → kind ≠ 13 → kind ≠ 16 → OnQueue s r.pkt →
    Alone s r.pkt →
    RunsThen (.testDone d kind unit false) s fun u => OtherDies s u d ∧
      tfind (u.die d).tests (unitKey kind (ctrUnit kind unit)) = none ∧
      (u.die d).isFenced kind (ctrUnit kind unit) = true ∧
      RepliesLast s u 0x0710 r.pkt ([1, 0] ++ [0, 0]) [])

/-! ## Queues, events and the host port -/

/-- R212, R213, R215, R230: QUEUE_CREATE that passes its checks leaves an ENABLED queue with an empty ring, its first expected
number, and touches no third queue; QUEUE_DESTROY leaves the queue DRAINING with its KNOT_WAITs withdrawn; a drained queue becomes
DISABLED.

R216, R219, R221, R225: taking and starting packets. A header that cannot be framed puts the queue in ERROR; units short of a
packet are kept; a whole packet with the expected number that passes its checks waits to start, and the expected number rises;
one with another number is answered BAD_PARAM with SEQ_ERR and changes nothing else. Starting moves the packet from those that
wait to those that run. -/
def Obligations.QueuesAndPackets : Prop :=
  ((∀ (s : State) (p : Pkt) (q d cls tenant func vector : Nat) (base : BitVec 64) (lg cc cu : Nat) (first : BitVec 32),
    OnQueue s p → s.due 0x0E01 p = true → s.permitted .m p = true → chkQueueCreate q d cls tenant func vector base lg cu s = none →
    Runs (.queueCreate p q d cls tenant func vector base lg cc cu first) s fun t => Replies s t 0x0E01 p [] [] ∧
      (t.queue q).st = .enabled ∧ (t.queue q).home = d ∧ (t.queue q).cls = cls ∧ (t.queue q).tenant = tenant ∧
      (t.queue q).func = func ∧ (t.queue q).base = base ∧ (t.queue q).log2size = lg ∧ (t.queue q).expSeq = first ∧
      (t.queue q).taken = [] ∧ (t.queue q).held = [] ∧ (t.queue q).posted = [] ∧ (t.queue q).coalCount = cc ∧
      (t.queue q).coalUs = cu ∧ t.dies = s.dies ∧ ∀ r, r ≠ q → r ≠ p.queue → t.queue r = s.queue r) ∧
  (∀ (s : State) (p : Pkt) (q : Nat), s.due 0x0E02 p = true → s.permitted .m p = true → 0 < q → q < 8192 →
    (s.queue q).destroyable = true →
    Runs (.queueDestroy p q) s fun t => (t.queue q).st = .draining ∧ (t.queue q).destroyer = some p ∧
      (t.queue q).held = (s.queue q).held ∧
      ∀ d k, ((t.die d).knot k).hosts = ((s.die d).knot k).hosts.filter fun w => w.1.queue != q) ∧
  (∀ (s : State) (q : Nat), q < 8192 → (s.queue q).drained = true →
    Runs (.queueDrained q) s fun t => (t.queue q).st = .disabled ∧
      ∀ p, (s.queue q).destroyer = some p → p.queue ≠ q → OnQueue s p →
        ∃ l, (t.queue p.queue).held = (s.queue p.queue).held ++ [mkReply 0x0E02 p .ok 0 [] [] false] ++ l)) ∧
  ((∀ (s : State) (q : Nat), q < 8192 → s.takeDue q = true → (s.queue q).asm = [] → frameBad (s.queue q).front = true →
    Runs (.packetTake q) s fun t => (t.queue q).st = .error ∧ (t.queue q).errFrame = true ∧ (t.queue q).rd = (s.queue q).rd ∧
      t.raised.length = s.raised.length + 1) ∧
  (∀ (s : State) (q got n : Nat), q < 8192 → s.takeDue q = true → ((s.queue q).asm = [] → frameBad (s.queue q).front = false) →
    got = (s.queue q).asm.length / 64 → n = min (s.queue q).winHeld (needUnits (s.queue q).front - got) →
    got + n < needUnits (s.queue q).front →
    Runs (.packetTake q) s fun t =>
      t.queue q = { s.queue q with
        rd := ((s.queue q).rd + n) % 512, asm := (s.queue q).asm ++ (s.queue q).winUnits n }) ∧
  (∀ (s : State) (q got n : Nat) (l : List Byte) (r : TakenPkt), q < 8192 → s.takeDue q = true →
    ((s.queue q).asm = [] → frameBad (s.queue q).front = false) → got = (s.queue q).asm.length / 64 →
    n = min (s.queue q).winHeld (needUnits (s.queue q).front - got) → needUnits (s.queue q).front ≤ got + n →
    l = (s.queue q).asm ++ (s.queue q).winUnits n → r = parsePacket l →
    (r.seq = (s.queue q).expSeq →
      (s.modQueue q fun x => { x with rd := (x.rd + n) % 512, asm := [] }).packetBad q l r = none →
      Runs (.packetTake q) s fun t =>
        t.queue q = { s.queue q with
          rd := ((s.queue q).rd + n) % 512, asm := [], expSeq := (s.queue q).expSeq + 1
          taken := (s.queue q).taken ++ [r] } ∧ ∀ j, j ≠ q → t.queue j = s.queue j) ∧
    (r.seq ≠ (s.queue q).expSeq →
      Runs (.packetTake q) s fun t => (t.queue q).expSeq = (s.queue q).expSeq ∧ (t.queue q).taken = (s.queue q).taken ∧
        (t.queue q).held = (s.queue q).held ++ [r.refusal .badParam (s.queue q).expSeq.toNat true])) ∧
  (∀ (s : State) (q : Nat) (n : BitVec 32), q < 8192 → s.live (s.queue q).home = true → (s.queue q).startable n = true →
    Runs (.packetStart q n) s fun t => t.dies = s.dies ∧ (∀ j, j ≠ q → t.queue j = s.queue j) ∧
      (∀ r ∈ (t.queue q).taken, r.seq ≠ n) ∧ (∃ r ∈ (t.queue q).started, r.seq = n) ∧
      (t.queue q).held = (s.queue q).held))

/-- R214, R216, R217, R218, R222: the host's writes of a control block. A doorbell of an ENABLED queue sets `wr`, and puts the queue
in ERROR where more than 256 units would then be held; `head` takes the low 20 bits; QRCTL of the DISABLED queue 0 enables it with
a size from 19 to 26; `qreset` leaves it DISABLED and empty.

R236, R377: PERST_N low, a hot reset and the function-level reset of function 0 leave every queue DISABLED; that of a virtual
function its own queues; D3hot is entered and left with the queues as they are; with PERST_N high the link comes up once the port
is ready. -/
def Obligations.HostPortCommands : Prop :=
  ((∀ (s : State) (f q : Nat) (v : BitVec 32), f < 64 → q < 8192 → s.hostReaches f = true → (s.queue q).func = f →
    (s.queue q).st = .enabled →
    Runs (.doorbell f q v) s fun t => (t.queue q).wr = v.toNat % 512 ∧ (t.queue q).rd = (s.queue q).rd ∧
      (∀ j, j ≠ q → t.queue j = s.queue j) ∧
      ((v.toNat % 512 + 512 - (s.queue q).rd) % 512 ≤ 256 → (t.queue q).st = .enabled ∧ t.raised = s.raised) ∧
      (256 < (v.toNat % 512 + 512 - (s.queue q).rd) % 512 → (t.queue q).st = .error ∧ (t.queue q).errWin = true)) ∧
  (∀ (s : State) (f q : Nat) (v : BitVec 32), f < 64 → q < 8192 → s.hostReaches f = true → (s.queue q).func = f →
    Runs (.qrheadWrite f q v) s fun t => t.queue q = { s.queue q with head := v.toNat % 2 ^ 20 } ∧
      ∀ j, j ≠ q → t.queue j = s.queue j) ∧
  (∀ (s : State) (f : Nat) (v : BitVec 32), f < 64 → s.hostReaches f = true → (s.queue 0).func = f →
    (s.queue 0).st = .disabled → v.getLsbD 9 = false → v.getLsbD 8 = true → 19 ≤ v.toNat % 32 → v.toNat % 32 ≤ 26 →
    Runs (.queueEnable f v) s fun t => (t.queue 0).st = .enabled ∧ (t.queue 0).log2size = v.toNat % 32 ∧
      ∀ j, j ≠ 0 → t.queue j = s.queue j) ∧
  (∀ (s : State) (f : Nat) (v : BitVec 32), f < 64 → s.hostReaches f = true → (s.queue 0).func = f → v.getLsbD 9 = true →
    Runs (.queueReset f v) s fun t => (t.queue 0).st = .disabled ∧ (t.queue 0).rd = 0 ∧ (t.queue 0).wr = 0 ∧
      (t.queue 0).expSeq = 0 ∧ (t.queue 0).taken = [] ∧ (t.queue 0).started = [] ∧ (t.queue 0).held = [] ∧
      (t.queue 0).phase = true ∧ ∀ j, j ≠ 0 → t.queue j = s.queue j) ∧
  (∀ (s : State) (f q o replays : Nat) (data : List Byte), f < 64 → q < 8192 → o + data.length ≤ 16384 → s.hostReaches f = true →
    (s.queue q).func = f → (s.queue q).st = .enabled →
    Runs (.hostBarWrite f 0 (q * 16384 + o) data false replays) s fun t => mreadN (t.queue q).window o data.length = data ∧
      (∀ a, a < o ∨ o + data.length ≤ a → mread (t.queue q).window a = mread (s.queue q).window a) ∧
      t.queue q = { s.queue q with window := (t.queue q).window } ∧ ∀ j, j ≠ q → t.queue j = s.queue j)) ∧
  ((∀ s : State, Runs (.hostPerst false) s fun t => t.hostUp = false ∧ t.pins.perstN = false ∧
    ∀ q, (t.queue q).st = .disabled) ∧
  (∀ s : State, Runs (.hostPerst true) s fun t => t.hostUp = s.portReady ∧ t.pins.perstN = true ∧ t.queues = s.queues ∧
    t.dies = s.dies) ∧
  (∀ s : State, s.hostUp = true → Runs .hotReset s fun t => ∀ q, (t.queue q).st = .disabled) ∧
  (∀ s : State, s.hostUp = true → Runs (.functionLevelReset 0) s fun t => ∀ q, (t.queue q).st = .disabled) ∧
  (∀ (s : State) (f : Nat), s.hostUp = true → 0 < f → f < 64 →
    Runs (.functionLevelReset f) s fun t => (∀ q, (s.queue q).func = f → (t.queue q).st = .disabled) ∧
      (t.func f).held = [] ∧ (t.func f).evQueue = none ∧ (t.func f).d3 = false) ∧
  (∀ (s : State) (f : Nat), s.hostUp = true → f < 64 →
    Runs (.d3hotEntry f) s fun t => t.func f = { s.func f with d3 := true } ∧ (∀ g, g ≠ f → t.func g = s.func g) ∧
      t.queues = s.queues ∧ t.dies = s.dies) ∧
  (∀ (s : State) (f : Nat), s.hostUp = true → f < 64 → (s.func f).d3 = true →
    Runs (.d3hotExit f) s fun t => t.func f = { s.func f with d3 := false } ∧ (∀ g, g ≠ f → t.func g = s.func g) ∧
      t.queues = s.queues ∧ t.dies = s.dies))

/-- R222, R227, R234, R235, R440: posting. The oldest held reply goes to the ring, and is discarded where the host port is down;
EVENT_CONFIG sets the function's queue and mask; the coalescing timer clears the count and raises an unmasked vector; the oldest
raised event leaves the wait, with a number of function 0 where it is routed; a held event is posted first; DEVICE_INFO replies
with 160 bytes. -/
def Obligations.PostingCommands : Prop :=
  (∀ (s : State) (q : Nat) (r : Reply) (rest : List Reply), q < 8192 → (s.queue q).held = r :: rest →
    (s.hostUp = true → (s.func (s.queue q).func).d3 = false ∧ (s.queue q).room r.units = true) →
    Runs (.replyPost q) s fun t => (t.queue q).held = rest ∧ (∀ j, j ≠ q → t.queue j = s.queue j) ∧
      (s.hostUp = false → (t.queue q).posted = (s.queue q).posted) ∧
      (s.hostUp = true → ∃ l e, (t.queue q).posted = (s.queue q).posted ++ l ++ [e] ∧ e.opcode = r.opcode ∧ e.seq = r.seq ∧
        e.status = r.status ∧ e.detail = r.detail ∧ e.params = r.params ∧ e.payload = r.payload ∧ e.tag = r.tag)) ∧
  (∀ (s : State) (p : Pkt) (f q : Nat) (mask : BitVec 64), OnQueue s p → s.due 0x0E03 p = true → s.permitted .m p = true → f < 64 →
    (q = 0xFFFF ∨ s.eventQueueOk f q = true) →
    Runs (.eventConfig p f q mask) s fun t => Replies s t 0x0E03 p [] [] ∧ t.dies = s.dies ∧
      t.func f = { s.func f with evQueue := if q = 0xFFFF then none else some q, mask := mask } ∧
      ∀ g, g ≠ f → t.func g = s.func g) ∧
  (∀ (s : State) (p : Pkt), OnQueue s p → s.due 0x0E04 p = true → s.permitted .m p = true →
    Runs (.deviceInfo p) s fun t => OnlyReplies s t ∧ Replies s t 0x0E04 p s.deviceInfo [] ∧ s.deviceInfo.length = 160) ∧
  (∀ (s : State) (q : Nat), q < 8192 → (s.queue q).timerOn = true →
    Runs (.irqCoalesceTimer q) s fun t => t.queue q = { s.queue q with coalDone := 0 } ∧
      ((s.queue q).vector < vecCount (s.queue q).func → (s.func (s.queue q).func).masked (s.queue q).vector = false →
        t.msix = s.msix ++ [((s.queue q).func, (s.queue q).vector)])) ∧
  (∀ (s : State) (e : Event) (r : List Event), s.dueFunc = none → s.raised = e :: r →
    Runs .eventPost s fun t => t.raised = r ∧ (t.func 0).evNo =
      if (s.func 0).mask.getLsbD e.kind = true ∧ (s.func 0).evQueue ≠ none then (s.func 0).evNo + 1 else (s.func 0).evNo) ∧
  (∀ (s : State) (f : Nat) (h : BitVec 32 × Event) (r : List (BitVec 32 × Event)), s.dueFunc = some f →
    (s.func f).held = h :: r →
    Runs .eventPost s fun t => (t.func f).held = r ∧ (t.func f).evNo = (s.func f).evNo ∧ t.raised = s.raised)

/-! ## Keys, firmware, debug, attestation, the sideband -/

/-- R420, R427, R429, R430: KEY_LOAD of a sealing key that unwraps takes the lowest free slot of each named die, and one that does
not is refused with AUTH_FAIL and changes nothing; an image key is written where none is; the identity record fills entries 2 and on; KEY_REMOVE clears a slot that no entry names, and one that an entry names
waits. -/
def Obligations.KeyCommands : Prop :=
  (∀ (s : State) (p : Pkt) (tenant : Nat) (m : BitVec 8) (w : WrapBlk), OnQueue s p →
    s.due 0x0E10 p = true → s.permitted .m p = true → tenant < 64 → s.hasTenant tenant = true →
    (∀ d ∈ maskDies m, s.usable d = true ∧ s.hasKey d tenant = false) →
    (unwrap 1 tenant m w = none → Runs (.keyLoadSealingKey p tenant m w) s fun t => OnlyReplies s t ∧
      Refuses s t 0x0E10 p .authFail 0) ∧
    ∀ k, unwrap 1 tenant m w = some k → Runs (.keyLoadSealingKey p tenant m w) s fun t =>
      Replies s t 0x0E10 p ((List.range 8).flatMap fun d => le 1 (if m.getLsbD d then (s.die d).freeSlot else 0)) [] ∧
      (∀ d ∈ maskDies m, tfind (t.die d).sealSlots (s.die d).freeSlot = some (keyAt k 0, keyAt k 32, tenant) ∧
        ∀ j, j ≠ (s.die d).freeSlot → tfind (t.die d).sealSlots j = tfind (s.die d).sealSlots j) ∧
      ∀ d, d ∉ maskDies m → t.die d = s.die d) ∧
  (∀ (s : State) (p : Pkt) (n : Nat) (w : WrapBlk) (k : List Byte), OnQueue s p → s.due 0x0E10 p = true → s.permitted .m p = true → n < 16 →
    tfind s.psi.imageKeys n = none →
    unwrap 2 n 0 w = some k → Runs (.keyLoadImageKey p n w) s fun t => Replies s t 0x0E10 p [] [] ∧ t.dies = s.dies ∧
      tfind t.psi.imageKeys n = some (keyAt k 0) ∧ (∀ j, j ≠ n → tfind t.psi.imageKeys j = tfind s.psi.imageKeys j) ∧
      t.psi.signing = s.psi.signing ∧ t.psi.fwMin = s.psi.fwMin ∧ t.psi.cfgMin = s.psi.cfgMin) ∧
  (∀ (s : State) (p : Pkt) (l : List SignEntry), OnQueue s p → s.due 0x0E10 p = true → s.permitted .m p = true → s.part.prov = false →
    (∀ e ∈ s.psi.signing, e.1 < 2) → 1 ≤ l.length → l.length ≤ 6 → (∀ e ∈ l, e.usage = 1 ∨ e.usage = 2) →
    Runs (.keyLoadIdentityRecord p l) s fun t => Replies s t 0x0E10 p [] [] ∧ t.dies = s.dies ∧
      (∀ i < l.length, tfind t.psi.signing (2 + i) = l[i]?) ∧
      ∀ j < 2, tfind t.psi.signing j = tfind s.psi.signing j) ∧
  (∀ (s : State) (p : Pkt) (tenant : Nat) (m : BitVec 8), s.due 0x0E11 p = true → s.permitted .m p = true → tenant < 64 →
    (∀ d ∈ maskDies m, s.usable d = true ∧ s.hasKey d tenant = true) →
    Runs (.keyRemove p tenant m) s fun t => ∀ d ∈ maskDies m, ∀ k, (s.die d).tenantSlot tenant = some k →
      (t.die d).slotLoaded k = (s.die d).slotNamed k)

/-- R421, R425: a firmware part lands in the inactive slot and nowhere else; activating makes the older directory copy name that slot
and replies with the digest; the minimums rise within their bounds, and with them nothing else of the key store.

R433, R434: debug unlock. A nonce is issued and replied (its value is free, log entry 10); a token that passes the checks unlocks
its scope on its dies; one that fails changes neither and counts; either way the nonce is void; a lock takes both to 0. -/
def Obligations.FirmwareAndDebugCommands : Prop :=
  ((∀ (s : State) (p : Pkt) (off a : Nat) (data : List Byte), OnQueue s p → s.due 0x0E12 p = true → s.permitted .m p = true →
    s.fwInactive = some a → a + off + data.length ≤ 2 ^ 32 →
    Runs (.fwUpdateWrite p off data) s fun t => Replies s t 0x0E12 p [] [] ∧ t.dies = s.dies ∧
      mreadN t.psi.flash (a + off) data.length = data ∧
      ∀ b, b < a + off ∨ a + off + data.length ≤ b → mread t.psi.flash b = mread s.psi.flash b) ∧
  (∀ (s : State) (p : Pkt) (chk : ImgChk) (d a : Nat), OnQueue s p → s.due 0x0E12 p = true → s.permitted .m p = true → s.fwDir = some d →
    s.fwInactive = some a → s.fwCheck a chk = none →
    Runs (.fwUpdateActivate p chk) s fun t =>
      Replies s t 0x0E12 p (le 48 (imgDigest (mreadN s.psi.flash a 2048)).toNat) [] ∧
      mreadN t.psi.flash (0x8000 - d) 64 = fwDirNext (s.fwDirAt d) ∧
      ∀ b, b < 0x8000 - d ∨ 0x8000 - d + 64 ≤ b → mread t.psi.flash b = mread s.psi.flash b) ∧
  (∀ (s : State) (p : Pkt) (v : Nat), OnQueue s p → s.due 0x0E12 p = true → s.permitted .m p = true → s.psi.fwMin ≤ v → v ≤ 63 →
    v ≤ s.psi.fw.secVersion →
    Runs (.fwUpdateRaiseFwMin p v) s fun t => Replies s t 0x0E12 p [] [] ∧ t.psi.fwMin = v ∧
      t.psi.cfgMin = s.psi.cfgMin ∧ t.psi.signing = s.psi.signing ∧ t.psi.imageKeys = s.psi.imageKeys) ∧
  (∀ (s : State) (p : Pkt) (v : Nat), OnQueue s p → s.due 0x0E12 p = true → s.permitted .m p = true → s.psi.cfgMin ≤ v → v ≤ 63 →
    Runs (.fwUpdateRaiseCfgMin p v) s fun t => Replies s t 0x0E12 p [] [] ∧ t.psi.cfgMin = v ∧
      t.psi.fwMin = s.psi.fwMin ∧ t.psi.signing = s.psi.signing ∧ t.psi.imageKeys = s.psi.imageKeys)) ∧
  (∀ (s : State) (p : Pkt), OnQueue s p → s.due 0x0E13 p = true → s.permitted .m p = true →
    (Runs (.debugUnlockNonce p) s fun t => t.dies = s.dies ∧ t.psi.dbg.scope = s.psi.dbg.scope ∧
      ∃ v, t.psi.dbg.nonce = some v ∧ Replies s t 0x0E13 p (le 16 v.toNat) []) ∧
    (∀ k : DebugToken, s.tokenBad k = none →
      Runs (.debugUnlockPresent p k) s fun t => Replies s t 0x0E13 p [] [] ∧
        t.psi.dbg = { s.psi.dbg with
          nonce := none
          scope := BitVec.ofNat 8 (fieldAt k.bytes 4 1)
          dies := BitVec.ofNat 8 (fieldAt k.bytes 5 1) }) ∧
    (∀ (k : DebugToken) (st : Status), s.tokenBad k = some st →
      Runs (.debugUnlockPresent p k) s fun t => Refuses s t 0x0E13 p st 0 ∧ t.psi.dbg.nonce = none ∧
        t.psi.dbg.scope = s.psi.dbg.scope ∧ t.psi.dbg.dies = s.psi.dbg.dies ∧
        (s.psi.dbg.failed < 8 → t.psi.dbg.failed = s.psi.dbg.failed + 1)) ∧
    (Runs (.debugUnlockLock p) s fun t => Replies s t 0x0E13 p [] [] ∧ t.psi.dbg.scope = 0 ∧ t.psi.dbg.dies = 0))

/-- R431, R435: SPDM keeps the transcript hash it last signed, which GET_VERSION forgets; PKG_STATUS answers six bytes; the mailbox
holds what was written below 8 KiB and shows its reply; a mailbox packet whose number is the expected one moves the mailbox's
counter on. None of them touches a die, a queue or the key store. -/
def Obligations.SidebandCommands : Prop :=
  (∀ (s : State) (r : SpdmReq), s.running = true → s.hostUp = true →
    Runs (.spdmRequest r) s fun t => t.dies = s.dies ∧ t.queues = s.queues ∧
      (r = .getVersion → t.psi.spdm.signed = none) ∧ (∀ h, r = .challenge h → t.psi.spdm.signed = some h) ∧
      (∀ i h, r = .getMeasurements i true h → t.psi.spdm.signed = some h) ∧
      (∀ i h, r = .getMeasurements i false h → t.psi.spdm.signed = s.psi.spdm.signed) ∧
      (r = .vendorDefined s.part.vendor 1 → t.psi.spdm.unexpected = s.psi.spdm.signed.isNone)) ∧
  (∀ s : State, s.sideOn = true →
    Runs .pkgStatus s fun t => t = { s with psi := { s.psi with sideband := { s.psi.sideband with
        resp := s.pkgStatusBytes } } } ∧ s.pkgStatusBytes.length = 6) ∧
  (∀ (s : State) (off : Nat) (data : List Byte), s.sideOn = true → data.length ≤ 32 → off + data.length ≤ 8192 →
    Runs (.mboxWrite off data) s fun t => mreadN t.psi.sideband.mbox off data.length = data ∧
      (∀ a, a < off ∨ off + data.length ≤ a → mread t.psi.sideband.mbox a = mread s.psi.sideband.mbox a) ∧
      t.psi.sideband.seq = s.psi.sideband.seq ∧ t.dies = s.dies ∧ t.queues = s.queues) ∧
  (∀ (s : State) (h l : List Byte), s.sideOn = true → h = mreadN s.psi.sideband.mbox 0 64 →
    l = mreadN s.psi.sideband.mbox 0 (64 * needUnits h) → frameBad h = false → 64 * needUnits h ≤ 8192 →
    Runs .mboxGo s fun t => t.dies = s.dies ∧ t.queues = s.queues ∧
      t.psi.sideband.seq = (if (parsePacket l).seq = s.psi.sideband.seq then s.psi.sideband.seq + 1
        else s.psi.sideband.seq) ∧
      (t.psi.sideband.reply = none ↔
        (parsePacket l).seq = s.psi.sideband.seq ∧ mboxBad l (parsePacket l) = none)) ∧
  (∀ (s : State) (off len : Nat), s.sideOn = true → len ≤ 32 →
    Runs (.mboxRead off len) s fun t => t.psi.sideband.resp.length = len ∧ t.psi.sideband.mbox = s.psi.sideband.mbox ∧
      ∀ i < len, t.psi.sideband.resp.getD i 0 = s.psi.sideband.replyBytes.getD (off + i) 0)

/-! ## Wringers -/

/-- R57, R60, R61, R82, R85, R86: a request that arrives at a working wringer with room enters its input buffer, in a region that
sleeps it waits in the boundary router, at a wringer out of service it is answered UNIT_FENCED; the next request that fits opens with its handles resolved, and is answered BAD_PARAM or STATE_LOST
instead where R60 or R61 refuses it.

R43, R57, R62, R64, R69, R82: a granted sheet without visible slots is skipped; one in a region that sleeps asks for its wake; one that can be read raises its entry's `acc_count`,
saturating at 255, and writes no memory; an uncorrectable one ends its request with STATE_LOST. A request whose sheets are done is
answered and closed. -/
def Obligations.WringRequests : Prop :=
  ((∀ (s : State) (d w : Nat) (q : WReq), d < s.dieCount → w < 80 → s.acceptDue d w = true → (s.die d).arriving w = some q →
    ((s.die d).wringerOut w = false → s.wringerUp d w = true →
      Runs (.wringAccept d w) s fun t => OtherDies s t d ∧ (t.die d).reqNet = (s.die d).reqNet.erase q ∧
        (t.die d).repNet = (s.die d).repNet ∧ (t.die d).dram = (s.die d).dram ∧
        (t.die d).wringer w = { (s.die d).wringer w with input := ((s.die d).wringer w).input ++ [q] }) ∧
    ((s.die d).wringerOut w = false → s.wringerUp d w = false →
      Runs (.wringAccept d w) s fun t => OtherDies s t d ∧ (t.die d).wringers = (s.die d).wringers ∧
        (t.die d).reqNet = (s.die d).reqNet.erase q ∧ (t.die d).repNet = (s.die d).repNet ∧
        ((t.die d).router (128 + chanRegion w)).wakeReq = ((s.die d).router (128 + chanRegion w)).wakeReq ++ [q]) ∧
    ((s.die d).wringerOut w = true →
      Runs (.wringAccept d w) s fun t => OtherDies s t d ∧ (t.die d).wringers = (s.die d).wringers ∧
        (t.die d).reqNet = (s.die d).reqNet.erase q ∧
        (t.die d).repNet = (s.die d).repNet ++ [q.answer .unitFenced d w 0xFFFF ((s.die d).answerTok q 0)])) ∧
  (∀ (s : State) (d w : Nat) (q : WReq), d < s.dieCount → w < 80 → s.wLive d w = true →
    ((s.die d).wringer w).nextOpen = some q →
    (∀ res, q.ok = true → (s.die d).resolve q = .found res →
      Runs (.requestOpen d w) s fun t => OtherDies s t d ∧ (t.die d).repNet = (s.die d).repNet ∧
        ((t.die d).wringer w).input = ((s.die d).wringer w).input.erase q ∧
        ∃ o, ((t.die d).wringer w).openR = ((s.die d).wringer w).openR ++ [o] ∧ o.req = q ∧ o.res = res ∧ o.done = 0 ∧
          o.hold = (q.isAppend && (s.die d).tailMoving q)) ∧
    (q.ok = false →
      Runs (.requestOpen d w) s fun t => OtherDies s t d ∧
        ((t.die d).wringer w).openR = ((s.die d).wringer w).openR ∧
        (t.die d).repNet = (s.die d).repNet ++ [q.answer .badParam d w 0xFFFF ((s.die d).answerTok q 0)]) ∧
    (q.ok = true → (s.die d).resolve q = .wrong →
      Runs (.requestOpen d w) s fun t => OtherDies s t d ∧ t.raised.length = s.raised.length + 1 ∧
        (t.die d).repNet = (s.die d).repNet ++ [q.answer .badParam d w 0xFFFF ((s.die d).answerTok q 0)]) ∧
    (∀ i tok, q.ok = true → (s.die d).resolve q = .lost i tok →
      Runs (.requestOpen d w) s fun t => OtherDies s t d ∧
        (t.die d).repNet = (s.die d).repNet ++ [q.answer .stateLost d w i ((s.die d).answerTok q tok)]))) ∧
  ((∀ (s : State) (d w i : Nat) (o : WOpen) (r : Resolved), d < s.dieCount → w < 80 → s.streamDue d w = true →
    (s.die d).granted w = some (i, o) → o.res[o.done]? = some r →
    (∀ bad, o.req.seen r = [] →
      Runs (.sheetStream d w bad 0) s fun t => OtherDies s t d ∧ (t.die d).ream = (s.die d).ream ∧
        (t.die d).dram = (s.die d).dram ∧ (t.die d).repNet = (s.die d).repNet ∧
        { o with done := o.done + 1, skipped := o.skipped + 1, waited := 0 } ∈ ((t.die d).wringer w).openR) ∧
    (o.req.seen r ≠ [] → ((s.die d).region (chanRegion r.loc.code)).closed = true →
      Runs (.sheetStream d w false 0) s fun t => OtherDies s t d ∧ (t.die d).wringers = (s.die d).wringers ∧
        (t.die d).repNet = (s.die d).repNet ∧ ((t.die d).region (chanRegion r.loc.code)).asked = true) ∧
    (o.req.seen r ≠ [] → ((s.die d).region (chanRegion r.loc.code)).closed = false → s.readStop d w o r = none →
      Runs (.sheetStream d w false 0) s fun t => OtherDies s t d ∧ (t.die d).dram = (s.die d).dram ∧
        (t.die d).repNet = (s.die d).repNet ∧
        (((s.die d).entry r.handle).st ≠ .free → r.handle ∉ (s.die d).reamBad →
          (t.die d).entry r.handle = { (s.die d).entry r.handle with acc := min 255 (((s.die d).entry r.handle).acc + 1) }) ∧
        (∀ h, h ≠ r.handle → (t.die d).entry h = (s.die d).entry h) ∧
        ∃ o', o' ∈ ((t.die d).wringer w).openR ∧ o'.req = o.req ∧ o'.done = o.done + 1 ∧
          o'.scores = o.scores + o.req.scoresOn r) ∧
    (o.req.seen r ≠ [] → ((s.die d).region (chanRegion r.loc.code)).closed = false → s.readStop d w o r = none →
      Runs (.sheetStream d w true 0) s fun t => OtherDies s t d ∧
        frameKey r.loc.code r.loc.frame ∈ (t.die d).retired)) ∧
  (∀ (s : State) (d w : Nat) (o : WOpen), d < s.dieCount → w < 80 → s.wLive d w = true →
    ((s.die d).wringer w).openR.find? WOpen.over_ = some o →
    Runs (.partial_ d w) s fun t => OtherDies s t d ∧ (t.die d).repNet = (s.die d).repNet ++ [o.reply d w] ∧
      ((t.die d).wringer w).openR = ((s.die d).wringer w).openR.erase o ∧
      ((t.die d).wringer w).input = ((s.die d).wringer w).input ∧ (t.die d).ream = (s.die d).ream ∧
      (t.die d).dram = (s.die d).dram))

/-- R43, R73, R75, R331: an append whose tail a MOVING copy holds is held; one that may run writes its slots behind the tail's
tokens, where they read back under the sheet's key, raises `tok_count` in one entry write, makes the sheet FULL at its last slot,
and replies OK. No byte outside the 16-byte units it writes changes, and no other entry.

R85: a wringer that is fenced answers UNIT_FENCED to everything it has accepted, the open requests first, and holds nothing any
more. -/
def Obligations.WringerAppendsAndFences : Prop :=
  ((∀ (s : State) (d w k : Nat) (o : WOpen), d < s.dieCount → w < 80 → s.wLive d w = true →
    (s.die d).appendNext w false = some (k, o) → s.appendReach d o = true → (s.die d).tailMoving o.req = true →
    Runs (.append d w) s fun t => OtherDies s t d ∧ (t.die d).ream = (s.die d).ream ∧ (t.die d).dram = (s.die d).dram ∧
      (t.die d).repNet = (s.die d).repNet ∧ { o with hold := true } ∈ ((t.die d).wringer w).openR) ∧
  (∀ (s : State) (i : Instr) (d w h k : Nat) (o : WOpen) (e : Ream) (res : List Resolved) (off : Nat) (bs : List Byte),
    d < s.dieCount → w < 80 → s.wLive d w = true → s.appendReach d o = true →
    ((i = .append d w ∧ (s.die d).appendNext w false = some (k, o) ∧ (s.die d).tailMoving o.req = false) ∨
      (i = .appendResume d w ∧ (s.die d).appendNext w true = some (k, o))) →
    ((s.die d).region (chanRegion ((s.die d).tailChan o))).closed = false →
    h = o.req.handles.headD 0 → e = (s.die d).entry h → (s.die d).resolve o.req = .found res →
    s.appendOk o.req e = true → (s.die d).slotLoaded e.slot = true →
    ((s.die d).region (chanRegion e.loc.code)).isolated = false →
    off = e.tok * slotBytes o.req.h o.req.d e.fmt → bs = (o.req.slots e.fmt).1 →
    Runs i s fun t => OtherDies s t d ∧
      (t.die d).entry h = { e with
        tok := e.tok + o.req.t
        st := if e.tok + o.req.t = sheetSpan o.req.h o.req.d e.fmt then .full else .tail } ∧
      (∀ g, g ≠ h → (t.die d).entry g = (s.die d).entry g) ∧
      (t.die d).readSealed (frameAddr e.loc.code e.loc.frame + off) bs.length ((t.die d).keyOf e.slot)
        (fun j => sheetTweak d h ((off + j) / 16)) = bs ∧
      (∀ a, a < frameAddr e.loc.code e.loc.frame + off / 16 * 16 ∨
          frameAddr e.loc.code e.loc.frame + ceilDiv (off + bs.length) 16 * 16 ≤ a →
        mread (t.die d).dram a = mread (s.die d).dram a) ∧
      ∃ r, (t.die d).repNet = (s.die d).repNet ++ [r] ∧ r.status = .ok ∧ r.isAppend = o.req.isAppend ∧
        r.tag = o.req.tag ∧ r.lostTok = e.tok + o.req.t)) ∧
  (∀ (s : State) (d w cause : Nat), d < s.dieCount → w < 80 → s.wringFenceDue d w cause = true →
    Runs (.wringerFence d w cause) s fun t => OtherDies s t d ∧ (t.die d).isFenced 4 w = true ∧
      ((t.die d).wringer w).input = [] ∧ ((t.die d).wringer w).openR = [] ∧
      (∀ v, v ≠ w → (t.die d).wringer v = (s.die d).wringer v) ∧
      ∃ l, (t.die d).repNet = (s.die d).repNet ++ l ∧
        l.length = ((s.die d).wringer w).openR.length + ((s.die d).wringer w).input.length ∧
        ∀ r ∈ l, r.status = .unitFenced ∧ r.w = w ∧ r.die = d)

/-! ## The ream table and the mover -/

/-- R35, R43, R44, R51: aging halves every `acc_count` and changes nothing else; the patrol reports unreadable issued entries, which
firmware rewrites as LOST with their sequences; an ACTIVE sequence that no step holds becomes SUSPENDED; retention counts
the time since its last check, for a sequence suspended since then no more than that (log entry 38), and takes a sequence beyond its
resume lifetime to class 2.

R48, R49, R50: the mover. A copy that starts makes its entry MOVING, reserves the destination and leaves memory; a copy that ends
well leaves the entry at its destination, where the frame's bytes are those of the source; one whose destination fails leaves the
entry where it was and retires the destination; one whose source fails retires the source; the old place is given back once no
open wring resolved it. -/
def Obligations.ReamAndMover : Prop :=
  ((∀ (s : State) (d : Nat), s.live d = true →
    Runs (.agingPeriod d) s fun t => OtherDies s t d ∧ t.die d = { s.die d with ream := (t.die d).ream } ∧
      ∀ h, (t.die d).entry h = { (s.die d).entry h with acc := ((s.die d).entry h).acc / 2 }) ∧
  (∀ (s : State) (d : Nat) (bad : List Nat), s.live d = true →
    Runs (.reamPatrol d bad) s fun t => OtherDies s t d ∧ t.die d = { s.die d with reamBad := (t.die d).reamBad } ∧
      ∀ h, h ∈ (t.die d).reamBad ↔ h ∈ (s.die d).reamBad ∨ (h ∈ bad ∧ ((s.die d).entry h).st ≠ .free)) ∧
  (∀ (s : State) (d h : Nat), s.live d = true → h ∈ (s.die d).reamBad →
    Runs (.lostEntryRewrite d h) s fun t => OtherDies s t d ∧ ((t.die d).entry h).st = .lost ∧ h ∉ (t.die d).reamBad ∧
      (∀ q, tfind s.seqs ((s.die d).entry h).seq = some q →
        ∃ r, tfind t.seqs ((s.die d).entry h).seq = some r ∧ r.st = .lost)) ∧
  (∀ (s : State) (n : Nat) (q : Sequence), s.live (seqDie n) = true → tfind s.seqs n = some q → q.st = .active →
    q.heldBy = none →
    Runs (.seqIdleTimeout n) s fun t => t.dies = s.dies ∧ tfind t.seqs n = some { q with st := .suspended, suspMs := 0, suspNew := true } ∧
      ∀ j, j ≠ n → tfind t.seqs j = tfind s.seqs j) ∧
  (∀ (s : State) (ms : Nat), s.running = true → ms ≤ 1000 →
    Runs (.retentionCheck ms) s fun t => t.queues = s.queues ∧ t.raised = s.raised ∧
      ∀ n q, tfind s.seqs n = some q → ∃ r, tfind t.seqs n = some r ∧ r.st = q.st ∧
        (q.st ≠ .suspended → r.suspMs = q.suspMs) ∧
        (q.st = .suspended → r.suspNew = false ∧ q.suspMs ≤ r.suspMs ∧ r.suspMs ≤ q.suspMs + ms ∧
          (q.suspNew = false → r.suspMs = q.suspMs + ms)) ∧
        (s.outlived { q with suspMs := r.suspMs } = true → r.cls = 2))) ∧
  ((∀ (s : State) (d h : Nat) (l : Loc), d < s.dieCount → s.moverDue d = true → s.nextCopy d = some (h, l) →
    Runs (.migrationStart d) s fun t => OtherDies s t d ∧
      (t.die d).entry h = { (s.die d).entry h with st := .moving } ∧
      (∀ g, g ≠ h → (t.die d).entry g = (s.die d).entry g) ∧ (t.die d).dram = (s.die d).dram ∧
      (t.die d).copies = (s.die d).copies ++
        [{ handle := h, src := ((s.die d).entry h).loc, dst := l, prev := ((s.die d).entry h).st, flipped := false }]) ∧
  (∀ (s : State) (d h : Nat) (c : Copy), d < s.dieCount → s.copyUp d h = true → (s.die d).copyOf h = some c →
    (Memory.wf (s.die d).dram = true →
      Runs (.migrationCopyDone d h false false) s fun t => OtherDies s t d ∧
        (t.die d).entry h = { (s.die d).entry h with st := c.prev, loc := c.dst } ∧
        (∀ g, g ≠ h → (t.die d).entry g = (s.die d).entry g) ∧
        (∀ i < 524288, mread (t.die d).dram (frameAddr c.dst.code c.dst.frame + i) =
          mread (s.die d).dram (frameAddr c.src.code c.src.frame + i)) ∧
        (∀ a, a < frameAddr c.dst.code c.dst.frame ∨ frameAddr c.dst.code c.dst.frame + 524288 ≤ a →
          mread (t.die d).dram a = mread (s.die d).dram a) ∧
        { c with flipped := true } ∈ (t.die d).copies) ∧
    (Runs (.migrationCopyDone d h false true) s fun t => OtherDies s t d ∧
      (t.die d).entry h = { (s.die d).entry h with st := c.prev } ∧ (t.die d).dram = (s.die d).dram ∧
      frameKey c.dst.code c.dst.frame ∈ (t.die d).retired ∧ (t.die d).copyOf h = none) ∧
    ∀ dstBad, Runs (.migrationCopyDone d h true dstBad) s fun t => OtherDies s t d ∧
      frameKey c.src.code c.src.frame ∈ (t.die d).retired) ∧
  (∀ (s : State) (d h : Nat) (c : Copy), s.live d = true → (s.die d).flippedOf h = some c → (s.die d).drainedFrom c = true →
    Runs (.migrationRelease d h) s fun t => OtherDies s t d ∧
      t.die d = { s.die d with copies := (s.die d).copies.erase c }))

/-! ## Matrix tiles -/

/-- R112, R114, R115, R117, R130, R136: an issued descriptor enters the queue of its array, or stalls the pattern where four stand
between issue and completion (log entry 77); the head of the queue starts as a MATMUL or an ATTEND, with BAD_PARAM as its status
where the checks refuse it and REGION_UNCONFIGURED where the source of its staggered rows is absent. Memory is as it was, but for
the sheet list that firmware places for an ATTEND.

R112, R119 to R122, R127 to R129: a block from memory stands in the back registers of its quarter, and a third load is held; a block
whose check fails leaves them empty and is loaded again; the swap takes it to the front, where a broadcast pass whose rows may enter
streams at once into the accumulator store; a staggered row leaves the FIFO and goes through every quarter that waits for it. None of
them writes memory.

R118, R122, R134, R138, R190: the epilogue reads a finished bank; a descriptor that completes leaves its array and puts one record with
its tag and status in its context's ring; a MATMUL that ends OK writes its output, one that does not writes nothing. -/
def Obligations.MatrixDescriptors : Prop :=
  ((∀ (s : State) (i : Instr) (a : AAt) (addr c : Nat) (y : Ctx), s.aUnits a = true → a.err = 0 → s.aIssue a = true →
    ((i = .matmul a addr ∧ dw (s.aDesc a addr) 0 31 28 ≠ 2) ∨ (i = .attend a addr ∧ dw (s.aDesc a addr) 0 31 28 = 2)) →
    s.aCtx a = some (c, y) → addr % 64 = 0 → addr + 64 ≤ y.declared → (s.die a.die).isFenced 2 (arrNo a) = false →
    Runs i s fun t => OtherDies s t a.die ∧ t.aMem a = s.aMem a ∧ (t.array a).atts = (s.array a).atts ∧
      (t.array a).runs.map (·.desc) = (s.array a).runs.map (·.desc) ∧
      ((s.array a).held < 4 → (t.array a).queue = (s.array a).queue ++ [(s.aDesc a addr, c)] ∧ (t.array a).stalled = none) ∧
      (4 ≤ (s.array a).held → (t.array a).queue = (s.array a).queue ∧ (t.array a).stalled = some (s.aDesc a addr, c))) ∧
  (∀ (s : State) (a : AAt) (d : BitVec 512) (c : Nat) (rest : List (BitVec 512 × Nat)) (y : Ctx), s.aUnits a = true →
    a.err = 0 → s.startDue a = true → (s.array a).queue = (d, c) :: rest → tfind (s.die a.die).ctxs c = some y →
    (dw d 0 31 28 ≠ 2 →
      Runs (.descriptorStart a) s fun t => OtherDies s t a.die ∧ t.aMem a = s.aMem a ∧ (t.array a).queue = rest ∧
        (t.array a).runs.map (·.desc) = (s.array a).runs.map (·.desc) ++ [d] ∧
        ∃ u, (t.array a).runs.getLast? = some u ∧ u.ctx = c ∧ u.loadIx = 0 ∧ u.passIx = 0 ∧
          (mmOk (s.aMem a) a.tile y.declared y.tenant ((s.die a.die).tslot (arrNo a) (dw d 5 3 0)).isSome d = false →
            u.status = some .badParam) ∧
          (mmOk (s.aMem a) a.tile y.declared y.tenant ((s.die a.die).tslot (arrNo a) (dw d 5 3 0)).isSome d = true →
            (mmStagger d = true → mmTotal d ≠ 0 → s.sourceAbsent a = true → u.status = some .regionUnconfigured) ∧
            (mmStagger d = false ∨ s.sourceAbsent a = false → u.status = none))) ∧
    (dw d 0 31 28 = 2 → s.attOk y ((s.array a).atts.map (·.slot)) d = true →
      Runs (.descriptorStart a) s fun t => (t.array a).queue = rest ∧
        (t.array a).runs.map (·.desc) = (s.array a).runs.map (·.desc) ∧
        (t.array a).atts.map (·.slot) = (s.array a).atts.map (·.slot) ++ [atSlot d]) ∧
    (dw d 0 31 28 = 2 → s.attOk y ((s.array a).atts.map (·.slot)) d = false →
      Runs (.descriptorStart a) s fun t => OtherDies s t a.die ∧ t.aMem a = s.aMem a ∧ (t.array a).queue = rest ∧
        (t.array a).atts = (s.array a).atts ∧
        ∃ u, (t.array a).runs.getLast? = some u ∧ u.desc = d ∧ u.status = some .badParam))) ∧
  ((∀ (s : State) (a : AAt) (q mc nb kb : Nat) (u : Run), s.aUnits a = true → a.err = 0 → q < 4 → s.loadDue a q = true →
    (s.array a).loading q = some u → mmPassAt u.desc u.loadIx = (mc, nb, kb) →
    (s.blkSrc a u = .mem → thas (s.array a).back q = false →
      Runs (.blockLoad a q false) s fun t => OtherDies s t a.die ∧ t.aMem a = s.aMem a ∧
        tfind (t.array a).back q = some { mc := mc, nb := nb, kb := kb, cols := blockOfB (s.aMem a) u.desc nb kb } ∧
        ∃ v, v ∈ (t.array a).runs ∧ v.desc = u.desc ∧ v.quarter = q ∧ v.loadIx = u.loadIx + 1) ∧
    (∀ b, thas (s.array a).back q = true →
      Runs (.blockLoad a q b) s fun t => OtherDies s t a.die ∧ t.aMem a = s.aMem a ∧ (t.array a).back = (s.array a).back ∧
        (t.array a).runs.map (·.loadIx) = (s.array a).runs.map (·.loadIx)) ∧
    (thas (s.array a).back q = false → tfind (s.array a).badLoad q = none →
      (s.die a.die).errIn (unitKey 2 (arrNo a)) nclkHour < 255 →
      Runs (.blockLoad a q true) s fun t => t.aMem a = s.aMem a ∧ (t.array a).back = (s.array a).back ∧
        (t.array a).runs.map (·.loadIx) = (s.array a).runs.map (·.loadIx) ∧ thas (t.array a).badLoad q = true)) ∧
  (∀ (s : State) (a : AAt) (q : Nat) (u : Run) (b : Blk), s.aUnits a = true → a.err = 0 → q < 4 → s.swapDue a q = true →
    (s.array a).passRun q = some u → tfind (s.array a).back q = some b →
    Runs (.passSwap a q) s fun t => OtherDies s t a.die ∧ t.aMem a = s.aMem a ∧ tfind (t.array a).back q = none ∧
      (mmStagger u.desc = true → tfind (t.array a).front q = some b) ∧
      (mmStagger u.desc = false → (∀ p, p ≠ q → (s.array a).passRun p = none) →
        ((s.doSwap a q).array a).rowMay { u with token := false } = true →
        tfind (t.array a).front q = none ∧
        (∃ v, v ∈ (t.array a).runs ∧ v.desc = u.desc ∧ v.quarter = q ∧ v.passIx = u.passIx + 1) ∧
        (t.array a).store = (streamPass (s.aMem a) u.desc (((s.array a).enter { u with token := false }).bankOf
          (u.passIx / u.perTile)) b (s.array a).store).1)) ∧
  (∀ (s : State) (a : AAt) (w : BitVec 512) (rest : List (BitVec 512)), s.aUnits a = true → a.err = 0 → s.rowDue a = true →
    (s.array a).fifo = w :: rest →
    Runs (.staggerRow a) s fun t => OtherDies s t a.die ∧ t.aMem a = s.aMem a ∧ (t.array a).fifo = rest ∧
      ∀ q ∈ (s.array a).staggerQ, ∀ u b, (s.array a).passRun q = some u → tfind (s.array a).front q = some b →
        (∃ v, v ∈ (t.array a).runs ∧ v.desc = u.desc ∧ v.quarter = q ∧
          v.rowIx = (if mmRows u.desc b.mc ≤ u.rowIx + 1 then 0 else u.rowIx + 1) ∧
          v.passIx = (if mmRows u.desc b.mc ≤ u.rowIx + 1 then u.passIx + 1 else u.passIx)) ∧
        ((∀ p, p ≠ q → (s.array a).passRun p = none) →
          (t.array a).store = (streamRow (s.aMem a) u.desc (((s.array a).enter u).bankOf (u.passIx / u.perTile)) b
            (256 * b.mc + u.rowIx) (rowOfWord u.desc w b.kb) (s.array a).store).1))) ∧
  ((∀ (s : State) (a : AAt) (q : Nat) (u : Run), (s.array a).runs.find? (Run.emitting q) = some u → mmPort u.desc = false →
    OtherDies s (s.doEpi a q) a.die ∧ (s.doEpi a q).aMem a = s.aMem a ∧
      ∃ v, v ∈ ((s.doEpi a q).array a).runs ∧ v.desc = u.desc ∧ v.outTile = u.outTile + 1 ∧
        v.out = u.out ++ ((tileOut (s.aMem a) u.desc (s.array a).store (u.bankOf u.outTile) (mmTileAt u.desc u.outTile).1
          (mmTileAt u.desc u.outTile).2).1.flatMap (CPart.writes u.desc))) ∧
  (∀ (s : State) (a : AAt) (idx : Nat) (u : Run) (y : Ctx), s.aUnits a = true → a.err = 0 → s.runDue a idx = true →
    (s.array a).runs[idx]? = some u → tfind (s.die a.die).ctxs u.ctx = some y →
    Runs (.descriptorComplete a idx) s fun t =>
      (t.array a).runs.map (·.desc) = ((s.array a).runs.eraseIdx idx).map (·.desc) ∧
      (u.status = none → u.rival = [] → t.aMem a = u.out.foldl (fun m w => mwriteN m w.1 w.2) (s.aMem a)) ∧
      (∀ st, u.status = some st → st ≠ .ok → t.aMem a = s.aMem a) ∧
      ∃ z r, tfind (t.die a.die).ctxs u.ctx = some z ∧ z.ring = y.ring ++ [r] ∧ r.tag = descTag u.desc ∧
        r.status = u.status.getD .ok) ∧
  (∀ (s : State) (a : AAt) (idx : Nat) (v : Att) (y : Ctx), s.aUnits a = true → a.err = 0 → s.attDue a idx = true →
    (s.array a).atts[idx]? = some v → tfind (s.die a.die).ctxs v.ctx = some y →
    Runs (.descriptorComplete a ((s.array a).runs.length + idx)) s fun t =>
      (t.array a).atts = (s.array a).atts.eraseIdx idx ∧
      (t.array a).runs.map (·.desc) = (s.array a).runs.map (·.desc) ∧
      (∀ st, v.fail = some st → st ≠ .ok → t.aMem a = s.aMem a) ∧
      ∃ z r, tfind (t.die a.die).ctxs v.ctx = some z ∧ z.ring = y.ring ++ [r] ∧ r.tag = descTag v.desc ∧
        r.status = v.fail.getD .ok))

/-- R56, R76, R78, R85, R138: the feeder and the merge stage. The next WRING of an ATTEND leaves for the wringers of its sequence's
die, its entry owed; a PARTIAL that is waited for is taken from the network and held or merged, a stray one is discarded; an
APPEND_DONE with OK completes its append; a request that waits for a re-send leaves once more.

R140, R445: an uncorrectable error in the memories of an array fences it, whatever step of it was due: it holds no queued
descriptor, and every descriptor it runs has its status. -/
def Obligations.AttentionAndArrayFences : Prop :=
  ((∀ (s : State) (a : AAt) (slot i : Nat) (v : Att) (e : WEntry), s.aUnits a = true → a.err = 0 → slot < 256 →
    s.wringDue a slot = true → s.att a slot = some v → v.entries.findIdx? (fun e => e.st == 0) = some i →
    v.entries[i]? = some e →
    Runs (.wringSend a slot) s fun t => t.queues = s.queues ∧
      (∃ q, (t.die (seqDie (atSeq v.desc))).reqNet = (s.die (seqDie (atSeq v.desc))).reqNet ++ [q] ∧ q.isAppend = false ∧
        q.tag = i ∧ q.handles = e.handles ∧ q.chan = e.chan ∧ q.seq = atSeq v.desc) ∧
      ∃ v' e', t.att a slot = some v' ∧ v'.entries[i]? = some e' ∧ e'.st = 1 ∧ e'.sends = e.sends + 1) ∧
  (∀ (s : State) (a : AAt) (slot d : Nat) (p : WRep), s.aUnits a = true → a.err = 0 → slot < 256 → s.live a.die = true →
    s.repFor a slot false = some (d, p) →
    (s.att a slot = none →
      Runs (.partialMerge a slot) s fun t => (t.die d).repNet = (s.die d).repNet.erase p ∧
        (t.array a).atts = (s.array a).atts ∧ (t.array a).queue = (s.array a).queue ∧ t.aMem a = s.aMem a) ∧
    (∀ v e, s.att a slot = some v → v.entries[p.tag]? = some e → e.st = 1 → v.fail = none → p.status = .ok →
      Runs (.partialMerge a slot) s fun t => (t.die d).repNet = (s.die d).repNet.erase p ∧
        ∃ v' e', t.att a slot = some v' ∧ v'.entries[p.tag]? = some e' ∧ (e'.st = 3 ∨ e'.st = 4))) ∧
  (∀ (s : State) (a : AAt) (slot d : Nat) (p : WRep) (v : Att) (e : AEntry), s.aUnits a = true → a.err = 0 → slot < 256 →
    s.live a.die = true → s.repFor a slot true = some (d, p) → s.att a slot = some v → v.appends[p.tag]? = some e →
    e.st = 1 → p.status = .ok →
    Runs (.appendDone a slot) s fun t => (t.die d).repNet = (s.die d).repNet.erase p ∧
      ∃ v' e', t.att a slot = some v' ∧ v'.appends[p.tag]? = some e' ∧ e' = { e with st := 4 }) ∧
  (∀ (s : State) (i : Instr) (a : AAt) (slot k : Nat) (v : Att) (e : WEntry), s.aUnits a = true → a.err = 0 → slot < 256 →
    ((i = .resendTimeout a slot k ∧ s.resendDue a slot k false = true) ∨
      (i = .resendAfterFlip a slot k ∧ s.resendDue a slot k true = true)) →
    s.att a slot = some v → v.entries[k]? = some e →
    Runs i s fun t =>
      (∃ q, (t.die (seqDie (atSeq v.desc))).reqNet = (s.die (seqDie (atSeq v.desc))).reqNet ++ [q] ∧ q.tag = k ∧
        q.epoch = (s.die a.die).epoch) ∧
      ∃ v' e', t.att a slot = some v' ∧ v'.entries[k]? = some e' ∧ e' = e.sent (s.die a.die).flips) ∧
  (∀ (s : State) (i : Instr) (a : AAt) (slot k : Nat) (v : Att) (e : AEntry), s.aUnits a = true → a.err = 0 → slot < 256 →
    ((i = .resendTimeout a slot (v.entries.length + k) ∧ s.resendDue a slot (v.entries.length + k) false = true) ∨
      (i = .resendAfterFlip a slot (v.entries.length + k) ∧ s.resendDue a slot (v.entries.length + k) true = true)) →
    s.att a slot = some v → v.appends[k]? = some e →
    Runs i s fun t =>
      (∃ q, (t.die (seqDie (atSeq v.desc))).reqNet = (s.die (seqDie (atSeq v.desc))).reqNet ++ [q] ∧ q.isAppend = true ∧
        q.tag = k ∧ q.epoch = (s.die a.die).epoch) ∧
      ∃ v' e', t.att a slot = some v' ∧ v'.appends[k]? = some e' ∧ e' = e.sent (s.die a.die).flips)) ∧
  (∀ (s : State) (i : Instr) (a : AAt), s.aUnits a = true → 2 ≤ a.err →
    ((∃ n, i = .matmul a n ∧ s.aIssue a = true ∧ dw (s.aDesc a n) 0 31 28 ≠ 2) ∨
      (∃ n, i = .attend a n ∧ s.aIssue a = true ∧ dw (s.aDesc a n) 0 31 28 = 2) ∨
      (i = .descriptorStart a ∧ s.startDue a = true) ∨
      (∃ q b, i = .blockLoad a q b ∧ q < 4 ∧ s.loadDue a q = true) ∨
      (∃ q, i = .passSwap a q ∧ q < 4 ∧ s.swapDue a q = true) ∨
      (∃ n, i = .wringSend a n ∧ n < 256 ∧ s.wringDue a n = true) ∨
      (∃ n, i = .partialMerge a n ∧ n < 256 ∧ s.live a.die = true ∧ s.repFor a n false ≠ none) ∨
      (∃ n, i = .descriptorComplete a n ∧ n < (s.array a).runs.length ∧ s.runDue a n = true) ∨
      (∃ n, i = .descriptorComplete a ((s.array a).runs.length + n) ∧ s.attDue a n = true) ∨
      (i = .staggerRow a ∧ s.rowDue a = true) ∨
      (∃ n, i = .appendDone a n ∧ n < 256 ∧ s.live a.die = true ∧ s.repFor a n true ≠ none) ∨
      (∃ n k, i = .resendTimeout a n k ∧ n < 256 ∧ s.resendDue a n k false = true) ∨
      ∃ n k, i = .resendAfterFlip a n k ∧ n < 256 ∧ s.resendDue a n k true = true) →
    Runs i s fun t => (t.die a.die).isFenced 2 (arrNo a) = true ∧ t.aMem a = s.aMem a ∧ (t.array a).queue = [] ∧
      (∀ u ∈ (t.array a).runs, u.status ≠ none) ∧ ∀ v ∈ (t.array a).atts, v.fail ≠ none)

/-! ## Weight threads and streams -/

/-- R143, R144, R146, R148, R151: the head of a thread issues the fetch of its next block, within its lead, and a gap-filling slot
that of its own next one; at the last burst of its stream the block stands, under the header of Table 6-2, in the slot it was
fetched for; a burst with an uncorrectable error poisons the block and the instance; a block that arrives at an attached member
stands in its slot until that member has loaded and forwarded it. No local memory changes.

R152, R154, R155, R156, R190, R332: streams. A descriptor that passes R154 starts or waits in the shadow, one that does not is
recorded BAD_PARAM; a burst of kind 1 brings the bytes of the grant into the tile and moves on; a tenant without a key moves
nothing and ends AUTH_FAIL; the end of a descriptor puts one record in the context's ring and starts the shadow. -/
def Obligations.ThreadsAndStreams : Prop :=
  ((∀ (s : State) (d th : Nat) (h : Thread) (f : TFetch), s.live d = true → th < 128 → s.mayIssue d = true →
    tfind (s.die d).threads th = some h →
    ((s.die d).headFetch h = some f →
      Runs (.threadFetch d th) s fun t => OtherDies s t d ∧ t.queues = s.queues ∧ t.models = s.models ∧ f.block = h.next ∧
        h.members.head? = some f.slot ∧ (t.die d).mtiles = (s.die d).mtiles ∧
        tfind (t.die d).threads th = some { h with fetch := h.fetch ++ [f], next := h.next + 1 }) ∧
    ((s.die d).headFetch h = none → (s.die d).gapFetch th h = some f →
      Runs (.threadFetch d th) s fun t => OtherDies s t d ∧ t.queues = s.queues ∧ t.models = s.models ∧
        (∀ m, ((t.die d).mtile m).mem = ((s.die d).mtile m).mem) ∧
        tfind (t.die d).threads th = some { h with fetch := h.fetch ++ [f] } ∧
        ∃ q z, (s.die d).tslot f.slot.1 f.slot.2 = some q ∧ (t.die d).tslot f.slot.1 f.slot.2 = some z ∧
          f.block = q.gapNext ∧ z = { q with gapNext := q.gapNext + 1 })) ∧
  (∀ (s : State) (d e n th : Nat) (bad : Bool) (q : Stream) (r : SRun) (h : Thread) (f : TFetch) (k : BlkPos) (y : Ctx)
    (g : Grant) (m : Model) (z0 : TSlot), e < 16 → s.live d = true → s.mayIssue d = true →
    (s.die d).burstPick e = some (n, q) → q.thread = some th → q.cur = some r → s.burstBehind d q = none →
    tfind (s.die d).threads th = some h → h.fetch.head? = some f → h.block f.block = some k →
    tfind (s.die d).ctxs h.ctx = some y → tfind y.grants (dw r.desc 0 7 0) = some g → g.area = none →
    tfind s.models y.model = some m → s.hasKey d y.tenant = true → dw r.desc 4 15 0 ≤ r.col + r.units →
    (s.die d).tslot f.slot.1 f.slot.2 = some z0 → z0.detached = false → z0.attachFrom ≤ f.block → z0.taken ≤ f.block →
    Runs (.streamBurst d e bad) s fun t =>
      (∃ z u, (t.die d).tslot f.slot.1 f.slot.2 = some z ∧ u ∈ z.entries ∧ u.index = f.block ∧ u.last = k.last ∧
        u.poison = (h.bad || bad) ∧ u.bytes = headRec th k (h.bad || bad)
          (h.part ++ s.grantRead d y.tenant y.model g r.memAt r.units)) ∧
      (∃ h', tfind (t.die d).threads th = some h' ∧ h'.fetch = h.fetch.drop 1 ∧ h'.part = [] ∧ h'.bad = false) ∧
      (∀ i, ((t.die d).mtile i).mem = ((s.die d).mtile i).mem) ∧ OtherDies s t d ∧ (bad = false → t.models = s.models) ∧
      (bad = true → tfind t.models y.model = some { m with poisoned := true })) ∧
  (∀ (s : State) (d th pos : Nat) (h : Thread) (x : Nat × TEntry) (e : Nat × Nat) (q : TSlot), s.live d = true → th < 128 →
    tfind (s.die d).threads th = some h → h.transit.find? (fun x => x.1 == pos) = some x → h.members[pos]? = some e →
    ((s.die d).region (e.1 / 16)).closed = false → (s.die d).tslot e.1 e.2 = some q → q.detached = false →
    q.attachFrom ≤ x.2.index → q.taken ≤ x.2.index → q.entries.length < 4 → x.2.loaded = false →
    Runs (.threadBlockArrive d th pos) s fun t => OtherDies s t d ∧ t.models = s.models ∧
      (∃ h', tfind (t.die d).threads th = some h' ∧ h'.next = h.next) ∧
      (∃ z u, (t.die d).tslot e.1 e.2 = some z ∧ u ∈ z.entries ∧ u.index = x.2.index ∧ u.bytes = x.2.bytes) ∧
      ∀ m, ((t.die d).mtile m).mem = ((s.die d).mtile m).mem)) ∧
  ((∀ (s : State) (d c i addr n : Nat) (y : Ctx) (q : Stream), d < s.dieCount → i < 16 → s.live d = true →
    (s.die d).runsOn c .matrix = true → tfind (s.die d).ctxs c = some y → y.streams[i]? = some n →
    tfind (s.die d).streams n = some q → addr % 64 = 0 → addr + 64 ≤ y.declared →
    ((s.die d).streamOk y (s.descAt d c addr) = true → q.cur = none →
      Runs (.streamIssue d c i addr) s fun t => OtherDies s t d ∧ (t.die d).mtiles = (s.die d).mtiles ∧
        (t.die d).ctxs = (s.die d).ctxs ∧
        tfind (t.die d).streams n = some { q with cur := some (SRun.start (s.descAt d c addr)) }) ∧
    (∀ r, (s.die d).streamOk y (s.descAt d c addr) = true → q.cur = some r → q.shadow = none →
      Runs (.streamIssue d c i addr) s fun t => OtherDies s t d ∧ (t.die d).mtiles = (s.die d).mtiles ∧
        (t.die d).ctxs = (s.die d).ctxs ∧
        tfind (t.die d).streams n = some { q with shadow := some (s.descAt d c addr) }) ∧
    ((s.die d).streamOk y (s.descAt d c addr) = false → y.ring.length < 256 →
      Runs (.streamIssue d c i addr) s fun t => OtherDies s t d ∧ (t.die d).mtiles = (s.die d).mtiles ∧
        (t.die d).streams = (s.die d).streams ∧
        tfind (t.die d).ctxs c = some { y with ring := y.ring ++ [sdRec (s.descAt d c addr) .badParam] })) ∧
  (∀ (s : State) (d e n tl : Nat) (bad : Bool) (q : Stream) (r : SRun) (y : Ctx), e < 16 → s.live d = true →
    s.mayIssue d = true → (s.die d).burstPick e = some (n, q) → tfind (s.die d).streams n = some q → q.thread = none →
    q.cur = some r → s.burstBehind d q = none → (s.die d).ctxTile q.ctx = some (y, tl) →
    (∀ g, dw r.desc 0 31 28 = 1 → tfind y.grants (dw r.desc 0 7 0) = some g → s.hasKey d y.tenant = true →
      Runs (.streamBurst d e false) s fun t => OtherDies s t d ∧ t.models = s.models ∧ (t.die d).dram = (s.die d).dram ∧
        (t.die d).tileMem y.kind tl = mwriteN ((s.die d).tileMem y.kind tl) r.tileAt
          (s.grantRead d y.tenant y.model g r.memAt r.units) ∧
        ∃ z, tfind (t.die d).streams n = some z ∧ z.cur = some r.next) ∧
    (sdRing r.desc = false → s.hasKey d y.tenant = false →
      Runs (.streamBurst d e bad) s fun t => OtherDies s t d ∧ t.models = s.models ∧ (t.die d).dram = (s.die d).dram ∧
        (t.die d).mtiles = (s.die d).mtiles ∧ (t.die d).vtiles = (s.die d).vtiles ∧
        t.raised.length = s.raised.length + 1 ∧
        ∃ z, tfind (t.die d).streams n = some z ∧ z.cur = some { r with finished := true, status := .authFail })) ∧
  (∀ (s : State) (d n : Nat) (q : Stream) (r : SRun) (y : Ctx), n < 1024 → s.live d = true →
    (s.die d).streamDone n = true → tfind (s.die d).streams n = some q → q.cur = some r →
    tfind (s.die d).ctxs q.ctx = some y →
    Runs (.streamComplete d n) s fun t => OtherDies s t d ∧ (t.die d).mtiles = (s.die d).mtiles ∧
      (t.die d).vtiles = (s.die d).vtiles ∧ (t.die d).dram = (s.die d).dram ∧
      tfind (t.die d).streams n = some { q with cur := q.shadow.map SRun.start, shadow := none, flight := [] } ∧
      ∃ z, tfind (t.die d).ctxs q.ctx = some z ∧ z.ring = y.ring ++ [sdRec r.desc r.status]))

/-! ## Contexts on tiles -/

/-- R186, R192, R193, R195, R196, R205: who gets a tile. A grant brings a READY context to its tile and wakes the tile's region; an
expired quantum makes room for a successor, or starts again; a switch that is due takes its resident to SAVING, and its streams
stop.

R140, R184, R190, R196, R197, R199: the switch itself. A quiet tile's image is kept in its context; once it is checked the
context is READY, or WAITING where its wait stands, and has left the tile, which is rinsed; a first failure asks for a second
attempt; a tile whose resident is not saved is rinsed only once it is quiet; a rinsed vector tile is as at reset; the context that comes in runs with the registers and memory its image held; the
drain empties the completion ring. -/
def Obligations.TileGrantsAndSwitches : Prop :=
  ((∀ (s : State) (d c tl : Nat) (k : TileKind), s.live d = true → (s.die d).nextGrant k = some (c, tl) →
    Runs (.tileGrant d k) s fun t => OtherDies s t d ∧ ((t.die d).tileOcc k tl).inc = some c ∧
      ((t.die d).tileOcc k tl).res = ((s.die d).tileOcc k tl).res ∧
      (((s.die d).tileOcc k tl).res = none → ((s.die d).tileOcc k tl).phase = .none →
        ((t.die d).tileOcc k tl).phase = .restoring) ∧
      (t.die d).region (tileRegion k tl) = ((s.die d).region (tileRegion k tl)).reach ∧
      (t.die d).mtiles = (s.die d).mtiles ∧ (t.die d).vtiles = (s.die d).vtiles) ∧
  (∀ (s : State) (a : TAt) (c : Nat) (y : Ctx), s.tileOn a = true → s.live a.die = true →
    (s.die a.die).resident a.kind a.tile = some (c, y) → y.st = .running → (s.occOf a).phase = .none →
    (s.occOf a).inc = none →
    ((s.occOf a).drain = true →
      Runs (.quantumExpiry a) s fun t => OtherDies s t a.die ∧ (t.occOf a).phase = .quiescing ∧
        ∃ z, tfind (t.die a.die).ctxs c = some z ∧ z.st = .saving) ∧
    (∀ n, (s.occOf a).drain = false → (s.die a.die).successor a.kind a.tile = some n →
      Runs (.quantumExpiry a) s fun t => OtherDies s t a.die ∧ (t.occOf a).inc = some n ∧ (t.occOf a).res = some c) ∧
    ((s.occOf a).drain = false → (s.die a.die).successor a.kind a.tile = none →
      Runs (.quantumExpiry a) s fun t => OtherDies s t a.die ∧ (t.die a.die).occ = (s.die a.die).occ ∧
        tfind (t.die a.die).ctxs c = some { y with quantNo := s.stamp })) ∧
  (∀ (s : State) (a : TAt) (c : Nat) (y : Ctx), s.tileOn a = true → s.live a.die = true →
    (s.die a.die).resident a.kind a.tile = some (c, y) → (y.st = .running ∨ y.st = .waiting) →
    (s.occOf a).phase = .none → ((s.occOf a).inc ≠ none ∨ (s.die a.die).halfFenced a.kind a.tile = true) →
    Runs (.contextSwitch a) s fun t => OtherDies s t a.die ∧ (t.occOf a).phase = .quiescing ∧
      (∃ z, tfind (t.die a.die).ctxs c = some z ∧ z.st = .saving ∧ z.image = y.image) ∧
      ∀ n ∈ y.streams, ∀ q, tfind (t.die a.die).streams n = some q → q.stopped = true)) ∧
  ((∀ (s : State) (a : TAt) (c : Nat) (y : Ctx), s.tileOn a = true → s.live a.die = true → (s.occOf a).phase = .quiescing →
    (s.die a.die).tileQuiet a.kind a.tile = true → (s.die a.die).resident a.kind a.tile = some (c, y) →
    (s.occOf a).after = none →
    Runs (.quiesceDone a) s fun t => OtherDies s t a.die ∧ (t.occOf a).phase = .saving ∧
      (t.die a.die).tileMem a.kind a.tile = (s.die a.die).tileMem a.kind a.tile ∧
      ∃ z, tfind (t.die a.die).ctxs c = some z ∧ z.image = (s.die a.die).imageOf a.kind a.tile y.declared ∧ z.st = y.st) ∧
  (∀ (s : State) (a : TAt), s.tileOn a = true → s.live a.die = true → (s.occOf a).phase = .quiescing →
    (s.die a.die).tileQuiet a.kind a.tile = true → ((s.occOf a).res = none ∨ (s.occOf a).after ≠ none) →
    Runs (.quiesceDone a) s fun t => OtherDies s t a.die ∧ (t.occOf a).phase = .rinsing ∧
      (t.die a.die).ctxs = (s.die a.die).ctxs ∧ (t.die a.die).tileMem a.kind a.tile = (s.die a.die).tileMem a.kind a.tile) ∧
  (∀ (s : State) (a : TAt) (c : Nat) (y : Ctx), s.tileOn a = true → s.live a.die = true → (s.occOf a).phase = .saving →
    (s.die a.die).resident a.kind a.tile = some (c, y) → (s.die a.die).chanUp (8 * y.region + y.imgPc) = true →
    (y.failSt = .ok →
      RunsThen (.saveChecked a true) s fun u => OtherDies s u a.die ∧ (u.occOf a).res = none ∧
        (u.occOf a).phase = .rinsing ∧ ∃ z, tfind (u.die a.die).ctxs c = some z ∧ z.tile = none ∧ z.image = y.image ∧
          (y.wait = none → z.st = .ready) ∧ (∀ w, y.wait = some w → z.st = .waiting ∧ z.wait = some w)) ∧
    (∀ pc, (s.occOf a).retried = false → (s.die a.die).retryPlace y = some pc →
      RunsThen (.saveChecked a false) s fun u => OtherDies s u a.die ∧ (u.occOf a).retried = true ∧
        (u.occOf a).res = some c ∧ (u.occOf a).phase = .saving)) ∧
  (∀ (s : State) (a : TAt), s.tileOn a = true → s.live a.die = true → (s.occOf a).phase = .rinsing →
    (s.occOf a).after = none → (s.occOf a).drain = false →
    Runs (.rinseDone a) s fun t => OtherDies s t a.die ∧
      (t.occOf a).phase = (if (s.occOf a).inc = none then .none else .restoring) ∧
      (a.kind = .vector → (t.die a.die).vtile a.tile = VTile.reset) ∧
      (a.kind = .matrix → ∃ l, (t.die a.die).mtile a.tile = { MTile.reset with slots := l })) ∧
  (∀ (s : State) (a : TAt) (c : Nat) (y : Ctx), s.tileOn a = true → s.live a.die = true → (s.occOf a).phase = .restoring →
    (s.occOf a).inc = some c → ((s.die a.die).region (tileRegion a.kind a.tile)).power = .awake →
    tfind (s.die a.die).ctxs c = some y →
    Runs (.restoreDone a false) s fun t => OtherDies s t a.die ∧ (t.occOf a).res = some c ∧ (t.occOf a).inc = none ∧
      (t.occOf a).phase = .none ∧
      (∃ z, tfind (t.die a.die).ctxs c = some z ∧ z.st = .running ∧ z.tile = some a.tile ∧ z.image = .none) ∧
      (∀ core m, a.kind = .vector → y.image = .vec core m →
        ((t.die a.die).vtile a.tile).core = core ∧ ((t.die a.die).vtile a.tile).mem = m) ∧
      (∀ ra rb m, a.kind = .matrix → y.image = .mat ra rb m → ((t.die a.die).mtile a.tile).mem = m ∧
        ((t.die a.die).mtile a.tile).a = ra ∧ ((t.die a.die).mtile a.tile).b = rb)) ∧
  (∀ (s : State) (d c : Nat) (y : Ctx), s.live d = true → c < 4096 → tfind (s.die d).ctxs c = some y → y.ring ≠ [] →
    Runs (.completionRingDrain d c) s fun t => t.dies = (s.modCtx d c fun y =>
      { y with ring := y.ringWait.take 256, ringWait := y.ringWait.drop 256 }).dies))

/-! ## The fabric at work -/

/-- R127, R129, R246, R250 to R252: a word of a staggered input port enters its array's FIFO, one word at an edge of FCLKr, which
FCTR counts; an output port shows the oldest word of
the C FIFO; a word of a call port opens a call or joins the open one, which ends with `last` or with its 64th word.

R253, R255: a return port shows the unit at the ring's read pointer, which advances; a write channel buffers a word, or
refuses it while 1,024 wait; a read channel shows its oldest unit, or nothing.

R252, R255, R159: a complete call claims its units of the ring and writes them at the write pointer; once they have landed
its `kn_inc` goes to its knot; a real-time channel to which its memory controller grants an access moves one unit between its
buffer and its ring. -/
def Obligations.TilePortsAndRings : Prop :=
  ((∀ (s : State) (a : RAt) (port : Nat) (w : BitVec 512) (last : Bool), a.die < s.dieCount → a.region < 8 → port < 2 →
    s.fclkOn a = true → (s.tpEdge a port).isSome = true → (((s.die a.die).fabric a.region).port port).absent = false →
    (s.array (stagArr a port)).fifo.length < 64 → s.stagHere (stagArr a port) = true →
    Runs (.tpWord a port w last) s fun t => OtherDies s t a.die ∧ t.queues = s.queues ∧
      (t.array (stagArr a port)).fifo = (s.array (stagArr a port)).fifo ++ [w] ∧
      (t.array (stagArr a port)).cfifo = (s.array (stagArr a port)).cfifo ∧
      (∀ n, n ≠ port → ((t.die a.die).fabric a.region).port n = ((s.die a.die).fabric a.region).port n) ∧
      (((t.die a.die).fabric a.region).port port).edge = some ((t.die a.die).fabric a.region).fctr ∧
      ((t.die a.die).fabric a.region).fctr =
        if (((s.die a.die).fabric a.region).port port).edge = some ((s.die a.die).fabric a.region).fctr then
          (((s.die a.die).fabric a.region).fctr + 1) % 2 ^ 64 else ((s.die a.die).fabric a.region).fctr) ∧
  (∀ (s : State) (a : RAt) (port : Nat) (w c : BitVec 512) (rest : List (BitVec 512)) (last : Bool), a.die < s.dieCount →
    a.region < 8 → 2 ≤ port → port < 4 → s.fclkOn a = true → (s.tpEdge a port).isSome = true →
    (((s.die a.die).fabric a.region).port port).absent = false →
    (s.array (stagArr a port)).cfifo = c :: rest → s.outHere (stagArr a port) = true →
    Runs (.tpWord a port w last) s fun t => OtherDies s t a.die ∧ t.queues = s.queues ∧
      (((t.die a.die).fabric a.region).port port).out = c ∧
      (t.array (stagArr a port)).fifo = (s.array (stagArr a port)).fifo ∧
      ∃ more, (t.array (stagArr a port)).cfifo = rest ++ more) ∧
  (∀ (s : State) (a : RAt) (port : Nat) (w : BitVec 512) (last : Bool) (b : PortBind) (p : Port), a.die < s.dieCount →
    a.region < 8 → 4 ≤ port → port < 16 → s.fclkOn a = true → (s.tpEdge a port).isSome = true →
    p = ((s.die a.die).fabric a.region).port port → p.absent = false → tfind ((s.die a.die).fabric a.region).binds port = some b → b.kind = 1 → p.callReady = true →
    Runs (.tpWord a port w last) s fun t => OtherDies s t a.die ∧ t.queues = s.queues ∧
      ((∀ c, p.calls.getLast? = some c → c.isDone = true) →
        (((t.die a.die).fabric a.region).port port).calls = p.calls ++ [⟨[w], last, false, b⟩]) ∧
      ∀ l c, p.calls = l ++ [c] → c.isDone = false →
        (((t.die a.die).fabric a.region).port port).calls =
          l ++ [{ c with words := c.words ++ [w], isDone := last || decide (64 ≤ c.words.length + 1) }])) ∧
  (∀ (s : State) (a : RAt) (port : Nat) (w : BitVec 512) (last : Bool) (b : PortBind) (f : Fabric), a.die < s.dieCount →
    a.region < 8 → 4 ≤ port → port < 16 → s.fclkOn a = true → (s.tpEdge a port).isSome = true →
    f = (s.die a.die).fabric a.region →
    (f.port port).absent = false → tfind f.binds port = some b →
    (b.kind = 2 → (s.die a.die).ringHeld b.ring ≠ 0 →
      Runs (.tpWord a port w last) s fun t => OtherDies s t a.die ∧
        (((t.die a.die).fabric a.region).port port).out = (s.die a.die).ringFront b.ring ∧
        ((t.die a.die).ring b.ring).rd = (((s.die a.die).ring b.ring).rd + 1) % (s.die a.die).ringLen b.ring ∧
        ((t.die a.die).ring b.ring).wr = ((s.die a.die).ring b.ring).wr ∧
        ∀ n, n ≠ b.ring → (t.die a.die).ring n = (s.die a.die).ring n) ∧
    (b.kind = 3 → (f.port port).buf.length < 1024 →
      Runs (.tpWord a port w last) s fun t => OtherDies s t a.die ∧
        (((t.die a.die).fabric a.region).port port).buf = (f.port port).buf ++ [w] ∧ (t.die a.die).rings = (s.die a.die).rings) ∧
    (b.kind = 3 → 1024 ≤ (f.port port).buf.length →
      Runs (.tpWord a port w last) s fun t => OtherDies s t a.die ∧
        (((t.die a.die).fabric a.region).port port).buf = (f.port port).buf ∧ (t.die a.die).rings = (s.die a.die).rings) ∧
    (b.kind = 4 → ∀ u rest, (f.port port).buf = u :: rest →
      Runs (.tpWord a port w last) s fun t => OtherDies s t a.die ∧
        (((t.die a.die).fabric a.region).port port).out = u ∧ (((t.die a.die).fabric a.region).port port).buf = rest) ∧
    (b.kind = 4 → (f.port port).buf = [] →
      Runs (.tpWord a port w last) s fun t => OtherDies s t a.die ∧
        (((t.die a.die).fabric a.region).port port).buf = [] ∧
        (((t.die a.die).fabric a.region).port port).out = (f.port port).out)) ∧
  ((∀ (s : State) (a : RAt) (port : Nat) (l1 l2 : List Call) (c : Call), s.live a.die = true → a.region < 8 → 4 ≤ port →
    port ≤ 11 → (((s.die a.die).fabric a.region).port port).calls = l1 ++ c :: l2 → (∀ e ∈ l1, e.claimed = true) →
    c.claimed = false → c.isDone = true → c.words.length ≤ (s.die a.die).ringRoom c.bind.ring →
    ((s.die a.die).ring c.bind.ring).wr < (s.die a.die).ringLen c.bind.ring →
    Runs (.callRingClaim a port) s fun t => OtherDies s t a.die ∧ t.queues = s.queues ∧
      (((t.die a.die).fabric a.region).port port).calls = l1 ++ { c with claimed := true } :: l2 ∧
      ((t.die a.die).ring c.bind.ring).wr =
        (((s.die a.die).ring c.bind.ring).wr + c.words.length) % (s.die a.die).ringLen c.bind.ring ∧
      ((t.die a.die).ring c.bind.ring).rd = ((s.die a.die).ring c.bind.ring).rd ∧
      (∀ i w, c.words[i]? = some w → tget ((t.die a.die).ring c.bind.ring).data
        ((((s.die a.die).ring c.bind.ring).wr + i) % (s.die a.die).ringLen c.bind.ring) 0 = w) ∧
      ∀ n, n ≠ c.bind.ring → (t.die a.die).ring n = (s.die a.die).ring n) ∧
  (∀ (s : State) (a : RAt) (port : Nat) (l1 l2 : List Call) (c : Call), s.live a.die = true → a.region < 8 → 4 ≤ port →
    port ≤ 11 → (((s.die a.die).fabric a.region).port port).calls = l1 ++ c :: l2 → (∀ e ∈ l1, e.claimed = false) →
    c.claimed = true →
    Runs (.callLanded a port) s fun t => OtherDies s t a.die ∧ t.queues = s.queues ∧ (t.die a.die).rings = (s.die a.die).rings ∧
      (((t.die a.die).fabric a.region).port port).calls = l1 ++ l2 ∧
      (t.die a.die).knotNet = (s.die a.die).knotNet ++ [.add c.bind.knot (BitVec.ofNat 64 c.bind.knInc)]) ∧
  (∀ (s : State) (a : RAt) (ch : Nat) (p : Port), s.live a.die = true → a.region < 8 →
    p = ((s.die a.die).fabric a.region).port (12 + ch) → s.rtGranted a.die a.region (12 + ch) = true →
    (∀ u rest, ch < 2 → p.buf = u :: rest → (s.die a.die).ringRoom p.ring ≠ 0 →
      Runs (.rtpTransfer a ch) s fun t => OtherDies s t a.die ∧ t.queues = s.queues ∧
        (((t.die a.die).fabric a.region).port (12 + ch)).buf = rest ∧
        tget ((t.die a.die).ring p.ring).data ((s.die a.die).ring p.ring).wr 0 = u ∧
        ((t.die a.die).ring p.ring).wr = (((s.die a.die).ring p.ring).wr + 1) % (s.die a.die).ringLen p.ring) ∧
    (2 ≤ ch → ch < 4 → p.absent = false → (s.die a.die).ringHeld p.ring ≠ 0 → p.buf.length < 1024 →
      Runs (.rtpTransfer a ch) s fun t => OtherDies s t a.die ∧ t.queues = s.queues ∧
        (((t.die a.die).fabric a.region).port (12 + ch)).buf = p.buf ++ [(s.die a.die).ringFront p.ring] ∧
        ((t.die a.die).ring p.ring).rd = (((s.die a.die).ring p.ring).rd + 1) % (s.die a.die).ringLen p.ring ∧
        ((t.die a.die).ring p.ring).data = ((s.die a.die).ring p.ring).data)))

/-- R246 to R249: a port of a fabric memory block answers, at its configured width, the bits that stood at the address before the
edge, and a write replaces them and no others; a corrected word reads as it was written and, read, waits to be written back; an
uncorrectable one answers with DERR and fences the block, and a fenced block stores nothing. Two accesses to one word: in one
cycle of one clock line port B reads the old word and port A's data stay; on different lines a read gives the old word or the
new one, and the later write is merged with the word as it stood before the earlier one. -/
def Obligations.FabricMemoryPorts : Prop :=
  (∀ (s : State) (a : RAt) (blk port line width addr bits : Nat) (write : Option (BitVec 64)) (f : Fabric) (b : FmBlk)
    (w : BitVec 64) (j lo : Nat),
    a.die < s.dieCount → a.region < 8 → blk < 320 → port < 2 → f = (s.die a.die).fabric a.region →
    f.fmPort blk port = (line, width) → (width = 64 ∨ width = 32 ∨ width = 16 ∨ width = 8) →
    addr * width < 32768 → s.designRuns a = true → f.lineRuns line = true →
    (s.die a.die).isFenced 11 (320 * a.region + blk) = false → b = tget f.fm blk FmBlk.reset →
    j = addr * width / 64 → lo = addr * width % 64 → w = tget b.words j 0 → bits < 2 →
    Runs (.fmAccess a blk port addr write false bits) s fun t => OtherDies s t a.die ∧ t.queues = s.queues ∧
      ∃ g, g = tget ((t.die a.die).fabric a.region).fm blk FmBlk.reset ∧
        g.out port = (BitVec.ofNat 64 (w.toNat / 2 ^ lo % 2 ^ width), false) ∧
        g.out (1 - port) = b.out (1 - port) ∧
        (∀ i, i ≠ j → tget g.words i 0 = tget b.words i 0) ∧
        (write = none → tget g.words j 0 = w) ∧
        (write = none → bits = 1 → g.wback = some j) ∧
        (∀ v, write = some v → ∀ i, i < 64 → (tget g.words j 0).getLsbD i =
          if lo ≤ i ∧ i < lo + width then v.getLsbD (i - lo) else w.getLsbD i) ∧
        ∀ c, c ≠ blk → tget ((t.die a.die).fabric a.region).fm c FmBlk.reset = tget f.fm c FmBlk.reset) ∧
  (∀ (s : State) (a : RAt) (blk port line width addr : Nat) (f : Fabric) (b : FmBlk) (w old : BitVec 64) (j lo : Nat),
    a.die < s.dieCount → a.region < 8 → blk < 320 → port < 2 → f = (s.die a.die).fabric a.region →
    f.fmPort blk port = (line, width) → (width = 64 ∨ width = 32 ∨ width = 16 ∨ width = 8) →
    addr * width < 32768 → s.designRuns a = true → f.lineRuns line = true →
    (s.die a.die).isFenced 11 (320 * a.region + blk) = false → b = tget f.fm blk FmBlk.reset →
    j = addr * width / 64 → lo = addr * width % 64 → w = tget b.words j 0 → b.last = some (1 - port, j, old, true) →
    ((f.fmPort blk (1 - port)).1 = line → port = 1 →
      (Runs (.fmAccess a blk port addr none true 0) s fun t =>
        ((tget ((t.die a.die).fabric a.region).fm blk FmBlk.reset).out port) =
          (BitVec.ofNat 64 (old.toNat / 2 ^ lo % 2 ^ width), false) ∧
        (tget ((t.die a.die).fabric a.region).fm blk FmBlk.reset).words = b.words) ∧
      ∀ v, Runs (.fmAccess a blk port addr (some v) true 0) s fun t =>
        (tget ((t.die a.die).fabric a.region).fm blk FmBlk.reset).words = b.words) ∧
    ((f.fmPort blk (1 - port)).1 ≠ line →
      (Runs (.fmAccess a blk port addr none true 0) s fun t => ∃ u, (u = w ∨ u = old) ∧
        ((tget ((t.die a.die).fabric a.region).fm blk FmBlk.reset).out port) =
          (BitVec.ofNat 64 (u.toNat / 2 ^ lo % 2 ^ width), false) ∧
        (tget ((t.die a.die).fabric a.region).fm blk FmBlk.reset).words = b.words) ∧
      ∀ v, Runs (.fmAccess a blk port addr (some v) true 0) s fun t => ∀ i, i < 64 →
        (tget (tget ((t.die a.die).fabric a.region).fm blk FmBlk.reset).words j 0).getLsbD i =
          if lo ≤ i ∧ i < lo + width then v.getLsbD (i - lo) else old.getLsbD i)) ∧
  (∀ (s : State) (a : RAt) (blk port line width addr bits : Nat) (meets : Bool) (write : Option (BitVec 64)),
    a.die < s.dieCount → a.region < 8 → blk < 320 → port < 2 → ((s.die a.die).fabric a.region).fmPort blk port = (line, width) →
    addr * width < 32768 → s.designRuns a = true → ((s.die a.die).fabric a.region).lineRuns line = true →
    (s.die a.die).isFenced 11 (320 * a.region + blk) = false → 2 ≤ bits → (write = none ∨ width < 64) →
    Runs (.fmAccess a blk port addr write meets bits) s fun t => OtherDies s t a.die ∧ t.queues = s.queues ∧
      (t.die a.die).isFenced 11 (320 * a.region + blk) = true ∧
      ((tget ((t.die a.die).fabric a.region).fm blk FmBlk.reset).out port).2 = true) ∧
  (∀ (s : State) (a : RAt) (blk port line width addr bits : Nat) (meets : Bool) (write : Option (BitVec 64)),
    a.die < s.dieCount → a.region < 8 → blk < 320 → port < 2 → ((s.die a.die).fabric a.region).fmPort blk port = (line, width) →
    addr * width < 32768 → s.designRuns a = true → ((s.die a.die).fabric a.region).lineRuns line = true →
    (s.die a.die).isFenced 11 (320 * a.region + blk) = true →
    Runs (.fmAccess a blk port addr write meets bits) s fun t => OtherDies s t a.die ∧ t.queues = s.queues ∧
      (tget ((t.die a.die).fabric a.region).fm blk FmBlk.reset).words =
        (tget ((s.die a.die).fabric a.region).fm blk FmBlk.reset).words ∧
      (write = none → (tget ((t.die a.die).fabric a.region).fm blk FmBlk.reset).out port = (0, true))) ∧
  (∀ (s : State) (a : RAt) (blk : Nat) (f : Fabric), a.die < s.dieCount → a.region < 8 → blk < 320 → s.designRuns a = true →
    f = (s.die a.die).fabric a.region →
    (f.lineRuns (f.fmPort blk 0).1 = true ∨ f.lineRuns (f.fmPort blk 1).1 = true) →
    (tget f.fm blk FmBlk.reset).wback.isSome = true →
    Runs (.fmWriteback a blk) s fun t => OtherDies s t a.die ∧ t.queues = s.queues ∧
      tget ((t.die a.die).fabric a.region).fm blk FmBlk.reset = { tget f.fm blk FmBlk.reset with wback := none })

/-- R239 to R242, R246: at an edge of a clock line each flip-flop of a block on it takes its reset value, its D or its old value,
with the carry and the shift bit that come from the block below in its column; a block on another line, or on a halted one, has
its asynchronous resets only; a cell in shift mode shifts its table; the block shows its outputs, its select tree and its carry; no
other flip-flop and no frame changes; FCTR counts the rising edges of FCLKr. -/
def Obligations.LogicBlockEdge : Prop :=
  ∀ (s : State) (a : RAt) (line : Nat) (falling : Bool) (e : EdgeIn) (blk : Nat) (cfg : BlockCfg) (x : Die) (f : Fabric)
    (i : BlockIn) (outs : List (Bool × Bool)) (c0 on : Bool), a.die < s.dieCount → a.region < 8 → line < 10 → s.designRuns a = true →
    x = s.die a.die → f = x.fabric a.region → (line = 0 → falling = false → f.halted = false → f.edgeFree = true) →
    (tkeys f.design.blocks).Nodup → (∀ b ∈ f.design.blocks, b.2.cells.length = 8) → tfind f.design.blocks blk = some cfg →
    i = edgeInOf e blk → outs = x.cellOuts a.die a.region e blk → c0 = x.carryOf a.die a.region e blk →
    on = (decide (cfg.line = line) && f.lineRuns line) →
    Runs (.fabricClockEdge a line falling e) s fun t => OtherDies s t a.die ∧ t.queues = s.queues ∧
      (t.die a.die).frames = x.frames ∧
      (∀ k c, cfg.cells[k]? = some c →
        tget ((t.die a.die).fabric a.region).ff (16 * blk + 2 * k) false =
          ffNext c.fa i (on && c.fa.neg == falling) cfg.sync (tget f.ff (16 * blk + 2 * k) false)
            (ffD c.fa (outs.getD k (false, false)) (blkCarry outs c0 k) (blkJk i k).1) ∧
        tget ((t.die a.die).fabric a.region).ff (16 * blk + 2 * k + 1) false =
          ffNext c.fb i (on && c.fb.neg == falling) cfg.sync (tget f.ff (16 * blk + 2 * k + 1) false)
            (ffD c.fb (outs.getD k (false, false)) (blkCarry outs c0 k) (blkJk i k).2) ∧
        (c.mode ≠ .shift → tfind ((t.die a.die).fabric a.region).shift (8 * blk + k) = tfind f.shift (8 * blk + k)) ∧
        (c.mode = .shift → tfind ((t.die a.die).fabric a.region).shift (8 * blk + k) =
          some (shiftNext c i (on && !falling)
            (if k = 0 then x.shiftOf a.die a.region e blk else (outs.getD (k - 1) (false, false)).2) (blkJk i k).1
            (x.cellTable a.die a.region blk k)))) ∧
      tfind ((t.die a.die).fabric a.region).outs blk = some (x.blkShows a.die a.region e blk) ∧
      (∀ n, tfind f.design.blocks (n / 16) = none →
        tget ((t.die a.die).fabric a.region).ff n false = tget f.ff n false) ∧
      ((t.die a.die).fabric a.region).fctr =
        if line = 0 ∧ falling = false ∧ f.halted = false then (f.fctr + 1) % 2 ^ 64 else f.fctr

/-- R293 to R297: a round of the darner without a fault takes every CONFIGURED region to its next frame and changes none; one
bit in error is corrected and noted, a word with two is reported; the self-check stops the darner when it fails and starts it
when it passes. -/
def Obligations.DarnerRounds : Prop :=
  (∀ (s : State) (d : Nat), s.live d = true → (s.die d).scanning = true →
    Runs (.darnerScan d true []) s fun t => OtherDies s t d ∧ t.queues = s.queues ∧ (t.die d).frames = (s.die d).frames ∧
      (t.die d).fabrics = (s.die d).fabrics ∧ (t.die d).darner.stopped = false ∧
      ∀ r, r ∈ (s.die d).configured → tget (t.die d).darner.at_ r 0 =
        if tget (s.die d).darner.at_ r 0 + 1 < 35392 then tget (s.die d).darner.at_ r 0 + 1 else 0) ∧
  (∀ (s : State) (d : Nat) (e : DarnErr), s.live d = true → (s.die d).scanning = true → (s.die d).errsOk d [e] = true →
    e.dbl = false → e.wbFail = false →
    Runs (.darnerScan d true [e]) s fun t => OtherDies s t d ∧ t.raised = s.raised ∧ (t.die d).frames = (s.die d).frames ∧
      (t.die d).darner.sglSeen = true ∧ (t.die d).darner.dblSeen = (s.die d).darner.dblSeen) ∧
  (∀ (s : State) (d : Nat) (e : DarnErr), d < 8 → s.live d = true → (s.die d).scanning = true →
    (s.die d).errsOk d [e] = true → e.dbl = true → bitAt ((s.die d).regv 0x3000) 2 = false →
    Runs (.darnerScan d true [e]) s fun t => OtherDies s t d ∧ (t.die d).darner.dblSeen = true ∧
      ((t.die d).region e.region).isolated = ((s.die d).region e.region).isolated ∧
      ∃ v, t.raised = s.raised ++ [v] ∧ v.code = 0x0032 ∧ v.die = d ∧ v.region = e.region ∧ v.arg1 = 0) ∧
  (∀ (s : State) (d : Nat) (ok : Bool), s.live d = true → (s.die d).darner.stopped = true →
    Runs (.darnerRetry d ok) s fun t => OtherDies s t d ∧ t.queues = s.queues ∧ (t.die d).frames = (s.die d).frames ∧
      (t.die d).darner.stopped = !ok ∧ (ok = true → (t.die d).darner.at_ = [])) ∧
  (∀ (s : State) (d : Nat) (ok : Bool), s.live d = true →
    Runs (.selfcheckNow d ok) s fun t => OtherDies s t d ∧ t.queues = s.queues ∧ (t.die d).frames = (s.die d).frames ∧
      (t.die d).darner.stopped = !ok ∧ (ok = false → (t.die d).darner.selfFail = true))

/-- R21, R26, R318, R443: a region that returns is isolated no more; a block that fails its self-test is fenced, one that passes is
not, unless it was fenced before the isolation; REGION_RETURNED is posted. A memory controller that failed meanwhile and now
passes is recovered by a reset of its region: the region's channels lose their contents and its sheets are LOST. -/
def Obligations.RegionReturns : Prop :=
  (∀ (s : State) (a : RAt) (pass : BitVec 64), s.live a.die = true → a.region < 8 →
    ((s.die a.die).region a.region).isolated = true →
    Runs (.regionReturn a pass) s fun t => OtherDies s t a.die ∧ t.queues = s.queues ∧
      ((t.die a.die).region a.region).isolated = false ∧
      (∀ u, u ∈ regionBlocks a.region →
        ((s.die a.die).region a.region).fencedBefore.contains (unitKey u.1 u.2) = false →
        (t.die a.die).isFenced u.1 u.2 = !(bitAt (pass.toNat / blockBit a.region u.1 u.2) 0)) ∧
      ((s.die a.die).recovers a.region pass.toNat = false → (t.die a.die).dram = (s.die a.die).dram ∧ t.seqs = s.seqs) ∧
      ∃ e, e ∈ t.raised ∧ e.code = 0x0005 ∧ e.die = a.die ∧ e.region = a.region) ∧
  (∀ (s : State) (a : RAt) (pass : BitVec 64), s.live a.die = true → a.region < 8 →
    ((s.die a.die).region a.region).isolated = true → (s.die a.die).recovers a.region pass.toNat = true →
    Runs (.regionReturn a pass) s fun t =>
      (∀ c, c ∈ regionChans a.region → ∀ p, frameAddr c 0 ≤ p → p < frameAddr (c + 1) 0 → mread (t.die a.die).dram p = 0) ∧
      ∀ h e, tfind (s.die a.die).ream h = some e → chanRegion e.loc.code = a.region →
        (e.st = .tail ∨ e.st = .full) → ((t.die a.die).entry h).st = .lost)

/-! ## Networks -/

/-- R305, R307, R310, R317: a router takes the packet that its output port grants off its input and forwards it by the current entry
of its route: to its endpoint's interface or into the next router, with the entry used and `hpar` made anew; a packet that fails its parity check
is discarded, and a fenced router discards whatever it receives.

R318, R320, R321: what a die router does with a packet for its region: an awake region gets it, with lane 1; a closed port
holds it in the wake buffer; an isolated region's requests are answered with a NACK and its other packets discarded. -/
def Obligations.RoutersAndRegions : Prop :=
  (∀ (s : State) (d rt : Nat) (k : NetPkt), s.live d = true → routerOn rt = true →
    (128 ≤ rt ∨ s.tileNetUp d (rt / 16) = true) → s.received d rt k = true →
    (∀ id, s.routerOk (spotOf d rt) = true → k.hpar = hparOf k → k.ctlOk = true → s.granted d rt k = true →
      s.hop (spotOf d rt) (turnAt k.turns k.ptr.toNat).1 k.dst.toNat = some (.arrive id) →
      Runs (.routerForward d rt k) s fun t => OtherDies s t d ∧
        ((t.die d).router rt).inbox = ((s.die d).router rt).inbox.eraseP (fun e => e.2 == k) ∧
        ((t.die d).iface (id % 256)).inbox = ((s.die d).iface (id % 256)).inbox ++ [sentOn k false]) ∧
    (∀ q, s.routerOk (spotOf d rt) = true → k.hpar = hparOf k → k.ctlOk = true → s.granted d rt k = true →
      s.routable d rt k = true →
      s.hop (spotOf d rt) (turnAt k.turns k.ptr.toNat).1 k.dst.toNat = some (.go q) → (rt < 128 ∨ q.tile = false) →
      (rt < 128 → q.tile = false → ((s.die d).region (rt / 16)).isolated = false) →
      Runs (.routerForward d rt k) s fun t => (∀ e, e ≠ d → e ≠ q.die → t.die e = s.die e) ∧
        ∃ l, ((t.die q.die).router q.no).inbox = l ++ [(inPort (turnAt k.turns k.ptr.toNat).1, sentOn k false)]) ∧
    ((k.hpar ≠ hparOf k ∨ k.ctlOk = false) → s.routerOk (spotOf d rt) = true →
      Runs (.routerForward d rt k) s fun t => OtherDies s t d ∧ (t.die d).ifaces = (s.die d).ifaces ∧
        ((t.die d).router rt).inbox = ((s.die d).router rt).inbox.eraseP (fun e => e.2 == k) ∧
        ((t.die d).router rt).discards = ((s.die d).router rt).discards ++ [k]) ∧
    (s.routerOk (spotOf d rt) = false →
      Runs (.routerForward d rt k) s fun t => OtherDies s t d ∧ (t.die d).ifaces = (s.die d).ifaces ∧
        ((t.die d).router rt).inbox = ((s.die d).router rt).inbox.eraseP (fun e => e.2 == k))) ∧
  (∀ (s : State) (d r : Nat) (k : NetPkt), s.live d = true → r < 8 → s.received d (128 + r) k = true →
    s.routerOk (spotOf d (128 + r)) = true → k.hpar = hparOf k → k.ctlOk = true → (turnAt k.turns k.ptr.toNat).1 = 4 →
    s.granted d (128 + r) k = true → s.routable d (128 + r) k = true →
    (((s.die d).region r).isolated = false → ((s.die d).region r).power = .awake →
      Runs (.routerForward d (128 + r) k) s fun t => OtherDies s t d ∧
        ((t.die d).router (16 * r + 5)).inbox = ((s.die d).router (16 * r + 5)).inbox ++ [(inPort 4, sentOn k true)]) ∧
    (((s.die d).region r).isolated = false → (((s.die d).region r).power = .asleep ∨ ((s.die d).region r).power = .waking) →
      (s.die d).wakeFlits r k.vc + k.len.toNat ≤ 64 →
      Runs (.routerForward d (128 + r) k) s fun t => OtherDies s t d ∧
        ((t.die d).router (128 + r)).wakeBuf = ((s.die d).router (128 + r)).wakeBuf ++ [k] ∧
        ((t.die d).router (16 * r + 5)).inbox = ((s.die d).router (16 * r + 5)).inbox) ∧
    (((s.die d).region r).isolated = true → k.vc = 0 →
      Runs (.routerForward d (128 + r) k) s fun t => (∀ e, e ≠ d → e ≠ k.src.toNat / 256 → t.die e = s.die e) ∧
        ∃ l n, ((t.die (k.src.toNat / 256)).iface (k.src.toNat % 256)).inbox = l ++ [n] ∧ n.opcode = 0x7F ∧ n.vc = 1 ∧
          n.txn = k.txn ∧ n.dst = k.src) ∧
    (((s.die d).region r).isolated = true → k.vc ≠ 0 →
      Runs (.routerForward d (128 + r) k) s fun t => OtherDies s t d ∧ (t.die d).ifaces = (s.die d).ifaces ∧
        ((t.die d).router (16 * r + 5)).inbox = ((s.die d).router (16 * r + 5)).inbox))

/-- R16, R308, R309: a request that enters the network opens a transaction under its number; one with no valid route ends at
once with UNIT_FENCED; the packet that has waited longest at an interface is delivered, and a response closes its transaction;
an uncorrectable packet is not delivered; a transaction without a response ends with UNIT_FENCED. -/
def Obligations.TransactionsOpenAndClose : Prop :=
  (∀ (s : State) (d rt : Nat) (k : NetPkt), s.live d = true → routerOn rt = true →
    (128 ≤ rt ∨ s.tileNetUp d (rt / 16) = true) → s.received d rt k = false → s.injects d rt k = true → k.vc = 0 →
    (s.hasRoute d k = true → s.routable d rt k = true → s.granted d rt k = true →
      Runs (.routerForward d rt k) s fun t =>
        tfind ((t.die d).iface (k.src.toNat % 256)).txns k.txn.toNat = some (k.opcode.toNat, k.dst.toNat)) ∧
    (s.hasRoute d k = false →
      Runs (.routerForward d rt k) s fun t =>
        tfind ((t.die d).iface (k.src.toNat % 256)).txns k.txn.toNat = none ∧
        ((t.die d).iface (k.src.toNat % 256)).ended = k.txn.toNat :: ((s.die d).iface (k.src.toNat % 256)).ended)) ∧
  (∀ (s : State) (d node : Nat) (k : NetPkt) (rest : List NetPkt), node < 256 → s.endpoint (256 * d + node) = true →
    s.live d = true → ((s.die d).iface node).inbox = k :: rest →
    Runs (.packetDeliver d node 0) s fun t => ((t.die d).iface node).inbox = rest ∧
      ((t.die d).iface node).outbox = ((s.die d).iface node).outbox ++ [k] ∧
      (k.vc = 1 → tfind ((t.die d).iface node).txns k.txn.toNat = none) ∧
      (k.vc ≠ 1 → ((t.die d).iface node).txns = ((s.die d).iface node).txns) ∧
      (k.opcode ≠ 0x7F → ((t.die d).iface node).ended = ((s.die d).iface node).ended)) ∧
  (∀ (s : State) (d node : Nat) (k : NetPkt) (rest : List NetPkt), node < 256 → s.endpoint (256 * d + node) = true →
    s.live d = true → ((s.die d).iface node).inbox = k :: rest → k.vc = 0 → k.src.toNat ≠ 256 * d + node →
    s.d0Cut = false → (d ≠ 0 ∨ (node % 32 ≠ 28 ∧ node % 32 ≠ 29)) →
    Runs (.packetDeliver d node 2) s fun t => ((t.die d).iface node).inbox = rest ∧
      ((t.die d).iface node).outbox = ((s.die d).iface node).outbox ∧
      ∃ l n, ((t.die (k.src.toNat / 256)).iface (k.src.toNat % 256)).inbox = l ++ [n] ∧ n.opcode = 0x7F ∧ n.txn = k.txn) ∧
  (∀ (s : State) (node : Nat), node < 256 → s.endpoint node = true → s.live 0 = true → ((s.die 0).iface node).inbox ≠ [] →
    node % 32 = 29 → 3 ≤ (s.die 0).errIn (unitKey 73 node) nclkHour →
    (∀ r, r < 8 → 32 * r + 29 ≠ node → (s.die 0).isFenced 9 (32 * r + 29) = true) →
    Runs (.packetDeliver 0 node 2) s fun t => t.psi.state = .fatal ∧ t.psi.cause = 5) ∧
  (∀ (s : State) (d node txn : Nat), node < 256 → s.endpoint (256 * d + node) = true → s.live d = true →
    thas ((s.die d).iface node).txns txn = true →
    Runs (.txnTimeout d node txn) s fun t => tfind ((t.die d).iface node).txns txn = none ∧
      ((t.die d).iface node).ended = txn :: ((s.die d).iface node).ended ∧
      ∀ m, m ≠ txn → tfind ((t.die d).iface node).txns m = tfind ((s.die d).iface node).txns m)

/-- R311, R313: an epoch switch writes the inactive banks and leaves the active ones in force; a change that fails its checks
is abandoned; the flip puts the other bank in force on one die; the switch is over when the last die has drained.

R29, R316, R445: a module trains again once it has replayed 10,000 times in a second; one that succeeds is in service, one that does not is out of it; while legal routes reach every die
nothing else changes, and once one is cut off the package is fatal. -/
def Obligations.EpochsAndRetraining : Prop :=
  ((∀ (s : State) (m : BitVec 8) (c : EpochChange), s.running = true → s.epochOp = none → m ≠ 0 →
    (∀ d ∈ maskDies m, d < s.dieCount ∧ s.live d = true) → (∀ d ∈ touched c, d ∈ maskDies m) →
    (s.changeOk c = true →
      Runs (.epochSwitch m c) s fun t => t.epochOp = some (m, c) ∧ (∀ d, d ∉ maskDies m → t.die d = s.die d) ∧
        ∀ d ∈ maskDies m, (t.die d).switching = true ∧ (t.die d).epoch = (s.die d).epoch ∧
          (∀ n, ((t.die d).iface n).active (t.die d).epoch = ((s.die d).iface n).active (s.die d).epoch) ∧
          ((c.routes.map fun r => (r.iface, r.dst)).Nodup → ∀ r ∈ c.routes, r.iface / 256 = d →
            tfind (((t.die d).iface (r.iface % 256)).active (!(t.die d).epoch)) r.dst = some r.turns)) ∧
    (s.changeOk c = false → Runs (.epochSwitch m c) s fun t => t = s)) ∧
  (∀ (s : State) (d : Nat) (m : BitVec 8) (c : EpochChange), s.live d = true → s.epochOp = some (m, c) →
    m.getLsbD d = true → (s.die d).switching = true → (s.die d).flipped = false → c.chains = [] → c.returns = [] →
    RunsThen (.epochFlip d) s fun u => OtherDies s u d ∧
      u.die d = { s.die d with epoch := !(s.die d).epoch, flipped := true, flips := (s.die d).flips + 1 } ∧
        u.epochOp = s.epochOp) ∧
  (∀ (s : State) (d : Nat), s.live d = true → s.inSwitch d = true → (s.die d).switching = true → s.allFlipped = true →
    (s.die d).oldPkts = 0 →
    Runs (.epochDrainDone d) s fun t => (t.die d).switching = false ∧ (t.die d).epoch = (s.die d).epoch ∧
      ((∀ e, e ≠ d → (s.die e).switching = false) → t.epochOp = none))) ∧
  (∀ (s u : State) (d k m n : Nat) (ok : Bool), s.live d = true → k < 8 → m < 4 → s.hasModule d k m = true →
    (n < 10000 → (s.die d).errIn (unitKey 13 (4 * k + m)) nclkSecond + n < 10000 →
      Runs (.ucieRetrain d k m n ok) s fun t => OtherDies s t d ∧ t.psi = s.psi ∧ t.queues = s.queues ∧
        (t.die d).ucieOut = (s.die d).ucieOut) ∧
    (10000 ≤ (s.die d).errIn (unitKey 13 (4 * k + m)) nclkSecond + n →
    u = (s.modDie d fun x => { x with ucieOut := moduleList x.ucieOut (4 * k + m) ok }) →
    ((∀ e ∈ u.usableDies, u.reached e = true) →
      Runs (.ucieRetrain d k m n ok) s fun t => OtherDies s t d ∧ t.psi = s.psi ∧ t.queues = s.queues ∧
        (t.die d).ucieOut.contains (4 * k + m) = !ok ∧
        ∀ j, j ≠ 4 * k + m → (t.die d).ucieOut.contains j = (s.die d).ucieOut.contains j) ∧
    (∀ e, e ∈ u.usableDies → u.reached e = false →
      Runs (.ucieRetrain d k m n ok) s fun t => t.psi.state = .fatal ∧ t.psi.cause = 6 ∧ t.pins.pwrOk = false ∧
        t.pins.cfgDone = false ∧ t.hostUp = false)))

/-- R319 to R322, R343: a region that may sleep drains, closes its port when its network is idle, and sleeps with its channels
in self-refresh; asked for, it wakes after that, and then has its channels back and takes the packets that waited, in their order. -/
def Obligations.RegionPowerCycle : Prop :=
  ∀ (s : State) (a : RAt) (g : Region), s.live a.die = true → a.region < 8 → g = (s.die a.die).region a.region →
    (s.maySleep a.die a.region = true →
      Runs (.regionSleepDecision a) s fun t => OtherDies s t a.die ∧
        (t.die a.die).region a.region = { g with power := .draining, gated := false, offDone := false }) ∧
    (g.power = .draining → g.gated = false → (s.die a.die).netIdle a.region = true →
      Runs (.gatePoint a) s fun t => OtherDies s t a.die ∧ (t.die a.die).region a.region = { g with gated := true } ∧
        (t.die a.die).mcs = (s.die a.die).mcs) ∧
    (g.gated = true → g.offDone = false →
      Runs (.regionPowerOff a) s fun t => OtherDies s t a.die ∧ ((t.die a.die).region a.region).offDone = true ∧
        (g.power = .draining → ((t.die a.die).region a.region).power = .asleep) ∧
        (g.power ≠ .draining → ((t.die a.die).region a.region).power = g.power) ∧
        ∀ c ∈ regionChans a.region, (t.die a.die).chanState c =
          if (s.die a.die).chanState c = .active then .selfRefresh else (s.die a.die).chanState c) ∧
    (g.gated = true → (g.power = .asleep ∨ g.power = .draining) → (s.die a.die).wakeAsked a.region = true →
      Runs (.regionWake a) s fun t => OtherDies s t a.die ∧
        (t.die a.die).region a.region = { g with power := .waking, asked := false }) ∧
    (g.power = .waking → g.offDone = true → g.isolated = false →
      Runs (.wakeRailsReady a) s fun t => OtherDies s t a.die ∧ ((t.die a.die).region a.region).power = .awake ∧
        ((t.die a.die).region a.region).wakeSeen = true ∧ ((t.die a.die).region a.region).gated = false ∧
        ((t.die a.die).router (128 + a.region)).wakeBuf = [] ∧
        ((t.die a.die).router (16 * a.region + 5)).inbox = ((s.die a.die).router (16 * a.region + 5)).inbox ++
          (((s.die a.die).router (128 + a.region)).wakeBuf.map fun k => (inPort 4, sentOn k true)) ∧
        (t.die a.die).reqNet = ((s.die a.die).router (128 + a.region)).wakeReq ++ (s.die a.die).reqNet ∧
        ∀ c ∈ regionChans a.region, (t.die a.die).chanState c =
          if (s.die a.die).chanState c = .selfRefresh then .active else (s.die a.die).chanState c)

/-! ## Memory controllers -/

/-- R82, R320, R331 to R333, R346, R351: an idle controller performs a request at once. A read returns the 64 bytes as the request's key and tweak
make them and changes no memory; a write stores its 64 bytes, sealed under that key and tweak, and no others; an EMPTY slot is
answered AUTH_FAIL and a lost channel UNIT_FENCED, and no data move. Of two requests the higher class goes first and the other
counts its wait. In a region whose port is closed a request waits and asks for the region's wake.

R337 to R339, R341, R342, R348: the controllers' upkeep. A refresh is postponed at most four times; issued, it clears the
postponement and lowers the bank's activation count, as refresh management does; the patrol goes on to the next block; a
training pause out of range counts, and the third in succession loses the channel. -/
def Obligations.MemoryControllers : Prop :=
  ((∀ (s : State) (d m : Nat) (q : MReq), s.live d = true → m < 48 → s.mcServes d m = true → ((s.die d).mc m).queue = [] →
    s.remoteAsks d m = [] → s.inFlight d + 1 ≤ 16384 → reqOn m q = true →
    ((s.die d).chanUp q.chan = true → (64 ≤ q.chan → (s.die d).dropped.getLsbD (q.off / 524288 / 2880) = false) →
      reqNoSlot q = false → (s.die d).slotLoaded q.slot = true →
      (q.wdata = none →
        Runs (.memoryAccess d m [q] none ⟨0, 0⟩) s fun t => OtherDies s t d ∧ (t.die d).dram = (s.die d).dram ∧
          (t.die d).seals = (s.die d).seals ∧ ((t.die d).mc m).queue = [] ∧
          ((t.die d).mc m).done = ((s.die d).mc m).done ++ [⟨q.who, .ok, (s.die d).readSealed (q.chan * 2 ^ 36 + q.off) 64
            ((s.die d).keyOf q.slot) (reqTweak q d)⟩]) ∧
      (∀ b, q.wdata = some b →
        Runs (.memoryAccess d m [q] none ⟨0, 0⟩) s fun t => OtherDies s t d ∧ ((t.die d).mc m).queue = [] ∧
          ((t.die d).mc m).done = ((s.die d).mc m).done ++ [⟨q.who, .ok, []⟩] ∧
          (∀ i, i < 64 → mread (t.die d).dram (q.chan * 2 ^ 36 + q.off + i) = b.getD i 0 ∧
            tfind (t.die d).seals ((q.chan * 2 ^ 36 + q.off + i) / 16) =
              some ⟨(s.die d).keyOf q.slot, reqTweak q d (i / 16 * 16)⟩) ∧
          ∀ a, (a < q.chan * 2 ^ 36 + q.off ∨ q.chan * 2 ^ 36 + q.off + 64 ≤ a) →
            mread (t.die d).dram a = mread (s.die d).dram a)) ∧
    ((s.die d).chanUp q.chan = true → (64 ≤ q.chan → (s.die d).dropped.getLsbD (q.off / 524288 / 2880) = false) →
      reqNoSlot q = false → (s.die d).slotLoaded q.slot = false →
      Runs (.memoryAccess d m [q] none ⟨0, 0⟩) s fun t => OtherDies s t d ∧ (t.die d).dram = (s.die d).dram ∧
        ((t.die d).mc m).done = ((s.die d).mc m).done ++ [⟨q.who, .authFail, []⟩] ∧
        ∃ v, t.raised = s.raised ++ [v] ∧ v.code = 0x0014) ∧
    ((s.die d).chanUp q.chan = false →
      Runs (.memoryAccess d m [q] none ⟨0, 0⟩) s fun t => OtherDies s t d ∧ (t.die d).dram = (s.die d).dram ∧
        ((t.die d).mc m).done = ((s.die d).mc m).done ++ [⟨q.who, .unitFenced, []⟩])) ∧
  (∀ (s : State) (d m : Nat) (p q : MReq), s.live d = true → m < 48 → s.mcServes d m = true → ((s.die d).mc m).queue = [] →
    s.remoteAsks d m = [] → s.inFlight d + 2 ≤ 16384 → reqOn m p = true → reqOn m q = true → q.cls < p.cls → (s.die d).mcPanic m = false →
    Runs (.memoryAccess d m [p, q] none ⟨0, 0⟩) s fun t => ((t.die d).mc m).queue = [⟨p, 1⟩] ∧
      ∃ st data, ((t.die d).mc m).done = ((s.die d).mc m).done ++ [⟨q.who, st, data⟩]) ∧
  (∀ (s : State) (d m : Nat) (q : MReq), s.live d = true → m < 48 → ((s.die d).region (ctlRegion m)).closed = true →
    s.inFlight d + 1 ≤ 16384 → reqOn m q = true →
    Runs (.memoryAccess d m [q] none ⟨0, 0⟩) s fun t => OtherDies s t d ∧ (t.die d).dram = (s.die d).dram ∧
      ((t.die d).mc m).queue = ((s.die d).mc m).queue ++ [⟨q, 0⟩] ∧ ((t.die d).mc m).done = ((s.die d).mc m).done ∧
      ((t.die d).region (ctlRegion m)).asked = true)) ∧
  ((∀ (s : State) (d m bank n : Nat), s.live d = true → m < 48 → (s.die d).mcActive m = true →
    (tget ((s.die d).mc m).postponed bank 0 < 4 →
      Runs (.refresh d m bank true n) s fun t => OtherDies s t d ∧
        tget ((t.die d).mc m).postponed bank 0 = tget ((s.die d).mc m).postponed bank 0 + 1 ∧
        ((t.die d).mc m).rfm = ((s.die d).mc m).rfm) ∧
    (Runs (.refresh d m bank false n) s fun t => OtherDies s t d ∧ tget ((t.die d).mc m).postponed bank 0 = 0 ∧
        tget ((t.die d).mc m).rfm bank 0 = tget ((s.die d).mc m).rfm bank 0 - n ∧
        ∀ b, b ≠ bank → tget ((t.die d).mc m).rfm b 0 = tget ((s.die d).mc m).rfm b 0) ∧
    ((32 ≤ m ∨ ((s.die d).mc m).rfmReq = true) → ((s.die d).mc m).rfmInit ≤ tget ((s.die d).mc m).rfm bank 0 →
      1 ≤ tget ((s.die d).mc m).rfm bank 0 →
      Runs (.rfmIssue d m bank n) s fun t => OtherDies s t d ∧
        tget ((t.die d).mc m).rfm bank 0 = tget ((s.die d).mc m).rfm bank 0 - n ∧
        ((t.die d).mc m).postponed = ((s.die d).mc m).postponed)) ∧
  (∀ (s : State) (d lc b : Nat), s.live d = true → lc < 16 → (s.die d).chanState (64 + lc) = .active →
    (s.die d).patrolNext lc = some b →
    (Runs (.patrolScrub d lc 0) s fun t => OtherDies s t d ∧ t.raised = s.raised ∧
      ((t.die d).mc (32 + lc)).scrub = (b + 1) % 12582912) ∧
    (Runs (.patrolScrub d lc 1) s fun t => OtherDies s t d ∧ ((t.die d).mc (32 + lc)).scrub = (b + 1) % 12582912 ∧
      ((t.die d).mc (32 + lc)).ceSeen = true)) ∧
  (∀ (s : State) (d m n : Nat), s.live d = true → m < 32 → (s.die d).mcActive m = true →
    Runs (.hbmScrubPoll d m n) s fun t => OtherDies s t d ∧ (t.die d).mcs = (s.die d).mcs ∧
      tget (t.die d).ctrs (ctrKey 5 m mcScrubCorr.idx) 0 = (tget (s.die d).ctrs (ctrKey 5 m mcScrubCorr.idx) 0 + n) % 2 ^ 32) ∧
  (∀ (s : State) (d c n : Nat), s.live d = true → c < 80 → (s.die d).chanState c = .active → n ≤ 586 →
    (Runs (.retrainPause d c true n) s fun t => OtherDies s t d ∧ t.raised = s.raised ∧ (t.die d).chanState c = .active ∧
      tget ((t.die d).mc (chanMC c)).pauseFails c 0 = 0 ∧
      ((t.die d).mc (chanMC c)).extra = ((s.die d).mc (chanMC c)).extra - 1) ∧
    (tget ((s.die d).mc (chanMC c)).pauseFails c 0 < 2 →
      Runs (.retrainPause d c false n) s fun t => OtherDies s t d ∧ t.raised = s.raised ∧ (t.die d).chanState c = .active ∧
        tget ((t.die d).mc (chanMC c)).pauseFails c 0 = tget ((s.die d).mc (chanMC c)).pauseFails c 0 + 1) ∧
    (2 ≤ tget ((s.die d).mc (chanMC c)).pauseFails c 0 →
      Runs (.retrainPause d c false n) s fun t => (t.die d).chanState c = .lost ∧
        ∃ e, e ∈ t.raised ∧ e.code = 0x0012 ∧ e.die = d ∧ e.arg0 = frameArg c 0)))

/-! ## Felt links -/

/-- R358, R359, R361, R362: a training frame acts by the state of its link, and one that is not valid not at all. Four locked
lanes lead from DETECT to DISCOVER; the partner's rates seen three times unchanged lead to EQUALISE at the highest common rate;
both sides ready on all four lanes lead to ALIGN. An inverted frame shows the lane's polarity.

R357, R359, R360, R372: a DOWN link that is enabled enters DETECT at the lowest rate when a signal is seen or its retry is
due; ten milliseconds without progress lead from DETECT to DOWN and from training to the next lower common rate, or DOWN; a
measurement within its limits makes the link ACTIVE, with an arrival. -/
def Obligations.FeltTraining : Prop :=
  (∀ (s : State) (d p lane : Nat) (l : List Byte) (ok : Bool) (f : Felt), s.portOn d p = true → lane < 4 →
    s.portLive d p = true → f = (s.die d).felt p → f.st ≠ .claimed →
    (trainOk l = false → trainOk (l.map fun b => ~~~b) = false →
      Runs (.trainingFrame d p lane l ok) s fun t => OtherDies s t d ∧ (t.die d).felt p = f) ∧
    ((f.st = .down ∨ f.st = .align ∨ f.st = .active ∨ f.st = .idle ∨ f.st = .folded ∨ f.st = .waking) →
      Runs (.trainingFrame d p lane l ok) s fun t => OtherDies s t d ∧
        (t.die d).felt p = { f with flipped := ((t.die d).felt p).flipped }) ∧
    (trainOk l = false → trainOk (l.map fun b => ~~~b) = true →
      Runs (.trainingFrame d p lane l ok) s fun t => OtherDies s t d ∧ ((t.die d).felt p).flipped.getLsbD lane = true) ∧
    (trainOk l = true → f.st = .detect →
      Runs (.trainingFrame d p lane l ok) s fun t => OtherDies s t d ∧
        (ok = false → ((t.die d).felt p).st = .detect ∧
          ((t.die d).felt p).lanesOk = f.lanesOk &&& ~~~(BitVec.ofNat 4 (2 ^ lane))) ∧
        (ok = true → f.lanesOk ||| BitVec.ofNat 4 (2 ^ lane) = 15 → ((t.die d).felt p).st = .discover ∧
          ((t.die d).felt p).pPkg = fieldAt l 20 1 % 64 ∧ ((t.die d).felt p).pLink = fieldAt l 21 1 % 64 ∧
          ((t.die d).felt p).pRates = fieldAt l 10 1 % 8) ∧
        (ok = true → f.lanesOk ||| BitVec.ofNat 4 (2 ^ lane) ≠ 15 → ((t.die d).felt p).st = .detect ∧
          ((t.die d).felt p).lanesOk = f.lanesOk ||| BitVec.ofNat 4 (2 ^ lane))) ∧
    (trainOk l = true → f.st = .discover →
      Runs (.trainingFrame d p lane l ok) s fun t => OtherDies s t d ∧
        (f.seen < 3 → ((t.die d).felt p).st = .discover ∧
          ((t.die d).felt p).seen = if fieldAt l 10 1 % 8 = f.pRates then f.seen + 1 else 1) ∧
        ∀ k, 3 ≤ f.seen → commonRate ((s.die d).feltOffer p) f.pRates 3 = some k →
          ((t.die d).felt p).st = .equalise ∧ ((t.die d).felt p).rate = k) ∧
    (trainOk l = true → f.st = .equalise →
      Runs (.trainingFrame d p lane l ok) s fun t => OtherDies s t d ∧
        ((t.die d).felt p).st =
          (if ((t.die d).felt p).pReady = 15 ∧ ((t.die d).felt p).myReady = 15 then .align else .equalise) ∧
        ((t.die d).felt p).myReady.getLsbD lane = ok ∧ ((t.die d).felt p).pReady.getLsbD lane = bitAt (fieldAt l 9 1) 0 ∧
        (1 ≤ fieldAt l 8 1 → fieldAt l 8 1 ≤ 4 → tget ((t.die d).felt p).taps lane Taps.p1 = presetTaps (fieldAt l 8 1)) ∧
        ∀ j, j ≠ lane → tget ((t.die d).felt p).taps j Taps.p1 = tget f.taps j Taps.p1)) ∧
  (∀ (s : State) (d p : Nat) (f : Felt), s.portOn d p = true → s.portLive d p = true → f = (s.die d).felt p →
    (f.st = .down → (s.die d).feltEnable p = true →
      (Runs (.signalDetect d p) s fun t => OtherDies s t d ∧ ((t.die d).felt p).st = .detect ∧
        ((t.die d).felt p).rate = 1 ∧ t.raised = s.raised) ∧
      Runs (.linkRetry d p) s fun t => OtherDies s t d ∧ ((t.die d).felt p).st = .detect ∧
        ((t.die d).felt p).rate = 1 ∧ t.raised = s.raised) ∧
    (f.st = .idle → Runs (.signalDetect d p) s fun t => OtherDies s t d ∧ ((t.die d).felt p).st = .active ∧
      t.raised = s.raised) ∧
    (f.st = .detect → Runs (.trainingTimeout d p) s fun t => OtherDies s t d ∧ ((t.die d).felt p).st = .down ∧
      ((t.die d).felt p).rate = 0) ∧
    ((f.st = .equalise ∨ f.st = .align) →
      (∀ k, 2 ≤ f.rate → commonRate ((s.die d).feltOffer p) f.pRates (f.rate - 1) = some k →
        Runs (.trainingTimeout d p) s fun t => OtherDies s t d ∧ ((t.die d).felt p).st = .equalise ∧
          ((t.die d).felt p).rate = k ∧ k < f.rate ∧ t.raised = s.raised) ∧
      (f.rate ≤ 1 → Runs (.trainingTimeout d p) s fun t => OtherDies s t d ∧ ((t.die d).felt p).st = .down)) ∧
    (f.st = .align → ∀ lanes skew err, (lanesMapped lanes = true → skew ≤ 40 → err ≤ 100 →
        Runs (.alignMeasureDone d p lanes skew err) s fun t => OtherDies s t d ∧ ((t.die d).felt p).st = .active ∧
          ((t.die d).felt p).laneMap = lanes ∧
          ((t.die d).felt p).arrived = true ∧ ((t.die d).felt p).rate = f.rate ∧
          ∃ v, t.raised = s.raised ++ [v] ∧ v.code = 0x0020 ∧ v.die = d ∧ v.unit = 8 * d + p) ∧
      ((lanesMapped lanes = false ∨ 40 < skew ∨ 100 < err) → f.rate ≤ 1 →
        Runs (.alignMeasureDone d p lanes skew err) s fun t => OtherDies s t d ∧ ((t.die d).felt p).st = .down)))

/-- R357, R359, R371, R372: a link that is up and loses its heartbeats, its alignment or its codewords leaves for DETECT with a
departure; `retrain` sends it there without one.

R320, R359, R360, R367: IDLE, FOLDED and WAKING. An ACTIVE link with nothing to send goes IDLE; a FOLD leaves and is sent
again while it is unanswered; the answer folds the link; a tone wakes it, and asks for the wake of its sleeping region; one frame of every 2,048 is a filler; its loops locked
again it is ACTIVE, or after a timeout in DETECT with the departure due. -/
def Obligations.FeltLinkLoss : Prop :=
  (∀ (s : State) (d p n : Nat), s.portOn d p = true → s.portLive d p = true →
    ((s.linkSt d p).awake = true → ∀ i : Instr, (i = .heartbeatLoss d p ∨ i = .alignmentLoss d p ∨
        (i = .uncorrectableCodewordRatio d p n ∧ 10 < n)) →
      Runs i s fun t => OtherDies s t d ∧ ((t.die d).felt p).st = .detect ∧ ((t.die d).felt p).departed = true ∧
        ((t.die d).felt p).txq = [] ∧ ((t.die d).felt p).kept = [] ∧
        ∃ v, t.raised = s.raised ++ [v] ∧ v.code = 0x0021 ∧ v.die = d ∧ v.unit = 8 * d + p) ∧
    (s.linkSt d p ≠ .claimed →
      Runs (.retrain d p) s fun t => OtherDies s t d ∧ ((t.die d).felt p).st = .detect ∧ t.raised = s.raised ∧
        ((t.die d).felt p).departed = ((s.die d).felt p).departed)) ∧
  (∀ (s : State) (d p : Nat) (f : Felt), s.portOn d p = true → f = (s.die d).felt p →
    (s.portLive d p = true → f.st = .active → f.txq = [] → (s.die d).feltIdleUs p ≠ 0 →
      Runs (.linkIdle d p) s fun t => OtherDies s t d ∧ (t.die d).felt p = { f with st := .idle }) ∧
    (s.portLive d p = true → f.st.awake = true →
      Runs (.heartbeatSend d p) s fun t => OtherDies s t d ∧ ((t.die d).felt p).st = f.st ∧
        ((t.die d).felt p).kept = f.kept ∧ ∃ l q, ((t.die d).felt p).line = f.line ++ l ++ [q] ∧ q.ftype = 3 ∧
          (∀ z ∈ l, z.ftype = 0) ∧ l.length = if 2047 ≤ f.sinceFill then 1 else 0) ∧
    (s.portLive d p = true → (s.die d).mayFold p = true → ∀ i : Instr,
        ((i = .fold d p ∧ f.foldSent = false) ∨ (i = .foldRetry d p ∧ f.foldSent = true ∧ f.ackSeen = false)) →
      Runs i s fun t => OtherDies s t d ∧ ((t.die d).felt p).foldSent = true ∧ ((t.die d).felt p).ackSeen = false ∧
        (f.kept.length < 256 → ∃ l q, ((t.die d).felt p).line = f.line ++ l ++ [q] ∧ (∀ z ∈ l, z.ftype = 0) ∧ q.ftype = 4 ∧
          q.payload.headD 0 = 1)) ∧
    (s.portLive d p = true → f.st.awake = true →
      ((f.foldSent = true ∧ f.ackSeen = true) ∨ (f.foldSeen = true ∧ (s.die d).mayFold p = true)) →
      Runs (.foldAck d p) s fun t => OtherDies s t d ∧ ((t.die d).felt p).st = .folded ∧
        ((t.die d).felt p).foldSent = false ∧ ((t.die d).felt p).foldSeen = false) ∧
    (s.live d = true → (s.die d).isFenced 10 p = false → ((s.die d).region p).isolated = false → f.st = .folded →
      Runs (.wake d p true) s fun t => OtherDies s t d ∧ ((t.die d).felt p).st = .waking ∧
        (t.die d).region p = ((s.die d).region p).reach ∧
        (((s.die d).region p).power = .asleep → ((t.die d).region p).asked = true)) ∧
    (s.portLive d p = true → f.st = .waking →
      (Runs (.loopsRelocked d p) s fun t => OtherDies s t d ∧ ((t.die d).felt p).st = .active) ∧
      Runs (.wakingTimeout d p) s fun t => OtherDies s t d ∧ ((t.die d).felt p).st = .detect ∧
        ((t.die d).felt p).wakeFailed = true ∧ t.raised = s.raised))

/-- R363 to R366: a frame that is not valid, or not the expected one, asks for a replay and reaches no ring; the expected data
frame for a receive ring of this package is written at its write pointer in order.

R365: a send ring puts up to four units into a frame and keeps them until they are acknowledged; a receive ring's ack timer
clears what is to acknowledge; a retransmission changes neither pointer. The peers here are rings of another package. -/
def Obligations.FeltFramesAndRings : Prop :=
  (∀ (s : State) (d p ce ue : Nat) (l : List Byte), s.portOn d p = true → s.portLive d p = true → (s.linkSt d p).awake = true →
    (parseFrame l = none →
      Runs (.feltFrameRx d p l ce ue) s fun t => OtherDies s t d ∧ (t.die d).rings = (s.die d).rings ∧
        ((t.die d).felt p).rxReplay = true) ∧
    (∀ q, parseFrame l = some q → (q.ftype = 1 ∨ q.ftype = 2 ∨ q.ftype = 4) →
      (q.lseq + 4096 - (((s.die d).felt p).rxLast + 1) % 4096) % 4096 ≠ 0 →
      Runs (.feltFrameRx d p l ce ue) s fun t => OtherDies s t d ∧ (t.die d).rings = (s.die d).rings ∧
        ((t.die d).felt p).rxLast = ((s.die d).felt p).rxLast ∧
        ((q.lseq + 4096 - (((s.die d).felt p).rxLast + 1) % 4096) % 4096 < 2048 → ((t.die d).felt p).rxReplay = true)) ∧
    (∀ q pkg r, parseFrame l = some q → q.ftype = 1 →
      (q.lseq + 4096 - (((s.die d).felt p).rxLast + 1) % 4096) % 4096 = 0 → (s.die d).feltPkg = some pkg → q.dPkg = pkg →
      s.usable q.dDie = true → (s.die q.dDie).ringMode q.dRing = 2 →
      (s.die q.dDie).ringPeer q.dRing = (q.sPkg, q.sDie, q.sRing) → r = (s.die q.dDie).ring q.dRing → q.sync = false →
      q.cseq = r.chan.expect → q.units ≤ (s.die q.dDie).ringRoom q.dRing → r.wr < (s.die q.dDie).ringLen q.dRing →
      r.chan.toAck < 15 →
      Runs (.feltFrameRx d p l ce ue) s fun t =>
        ((t.die q.dDie).ring q.dRing).wr = (r.wr + q.units) % (s.die q.dDie).ringLen q.dRing ∧
        ((t.die q.dDie).ring q.dRing).chan.expect = (q.cseq + 1) % 2 ^ 24 ∧
        (∀ i, i < q.units → tget ((t.die q.dDie).ring q.dRing).data ((r.wr + i) % (s.die q.dDie).ringLen q.dRing) 0 =
          BitVec.ofNat 512 (fieldAt q.payload (64 * i) 64)))) ∧
  (∀ (s : State) (d n p pkg : Nat) (c : Chan), s.live d = true → n < 64 → (s.die d).feltPkg = some pkg →
    ((s.die d).ringPeer n).1 ≠ pkg → c = ((s.die d).ring n).chan →
    (p < 8 → (s.die d).isFenced 10 p = false → (s.die d).ringMode n = 1 → 0 < (s.die d).unsent n → c.frames.length < 256 →
      Runs (.feltSend d n p) s fun t => ((t.die d).ring n).chan.frames = c.frames ++ [min 4 ((s.die d).unsent n)] ∧
        ((t.die d).ring n).chan.next = (c.next + 1) % 2 ^ 24 ∧ ((t.die d).ring n).rd = ((s.die d).ring n).rd ∧
        ((t.die d).ring n).wr = ((s.die d).ring n).wr ∧ ∀ m, m ≠ n → (t.die d).ring m = (s.die d).ring m) ∧
    ((s.die d).ringMode n = 2 → c.ackDue = true →
      Runs (.ackTimer d n) s fun t => ((t.die d).ring n).chan = { c with toAck := 0, ackDue := false } ∧
        ((t.die d).ring n).rd = ((s.die d).ring n).rd ∧ ∀ m, m ≠ n → (t.die d).ring m = (s.die d).ring m) ∧
    ((s.die d).ringMode n = 1 → c.frames ≠ [] →
      Runs (.e2eRetransmit d n) s fun t => ((t.die d).ring n).chan.frames = c.frames ∧
        ((t.die d).ring n).rd = ((s.die d).ring n).rd ∧ ((t.die d).ring n).wr = ((s.die d).ring n).wr ∧
        ∀ m, m ≠ n → (t.die d).ring m = (s.die d).ring m))

/-! ## Registers -/

/-- R402, R404: the sideband reads a word of any die: what the register holds, zero beyond the variant, of a lost die, or past
the three lowest words of a die whose controller does not run. A read without read-clear bits changes no die.

R406, R410: a read that clears returns the word as it stood, leaves its read-clear bits 0 and every other bit as it was; the
low word of a 64-bit pair takes a snapshot of both halves, and the high word is read from it. -/
def Obligations.SidebandReadsAnswer : Prop :=
  (∀ (s : State) (a : BitVec 32) (d off : Nat), s.sideOn = true → d = a.toNat / 2 ^ 26 → off = a.toNat % 2 ^ 26 →
    (s.live d = true → off % 4 = 0 → off < 0x100000 → pairOf off = none →
      (s.unlocked d = false ∨ Nat.land (s.wordAt d off) (rcMask d off) = 0) →
      Runs (.regRead a) s fun t => t.regOut = BitVec.ofNat 32 (s.wordAt d off) ∧
        t.psi.sideband.resp = le 4 (s.wordAt d off) ∧ t.dies = s.dies ∧ t.queues = s.queues) ∧
    ((s.dieCount ≤ d ∨ (s.die d).lost = true) →
      Runs (.regRead a) s fun t => t.regOut = 0 ∧ t.psi.sideband.resp = [0, 0, 0, 0] ∧ t.dies = s.dies ∧ t.queues = s.queues) ∧
    (d < s.dieCount → (s.die d).lost = false → s.live d = false → 12 ≤ off →
      Runs (.regRead a) s fun t => t.regOut = 0 ∧ t.dies = s.dies ∧ t.queues = s.queues)) ∧
  ((∀ (s : State) (core d : Nat) (off : BitVec 32), s.live d = true → off.toNat % 4 = 0 → off.toNat < 0x100000 →
    rcMask d off.toNat ≠ 0 →
    Runs (.readClear (.firmware core) d off) s fun t => t.regOut = BitVec.ofNat 32 (s.wordAt d off.toNat) ∧
      ∀ i, bitAt (t.wordAt d off.toNat) i =
        (bitAt (s.wordAt d off.toNat) i && !(bitAt (rcMask d off.toNat) i))) ∧
  (∀ (s : State) (core d k : Nat) (off : BitVec 32), s.live d = true → off.toNat % 4 = 0 →
    (pairOf off.toNat = some (k, false) →
      Runs (.snapshotRead (.firmware core) d off) s fun t => OtherDies s t d ∧ t.queues = s.queues ∧
        t.regOut = ((s.die d).pairVal k).extractLsb' 0 32 ∧
        tget (t.die d).snaps (16 * (core + 1) + k) 0 = (s.die d).pairVal k ∧ (t.die d).pairVal k = (s.die d).pairVal k) ∧
    (pairOf off.toNat = some (k, true) →
      Runs (.snapshotRead (.firmware core) d off) s fun t => t.dies = s.dies ∧ t.queues = s.queues ∧
        t.regOut = (tget (s.die d).snaps (16 * (core + 1) + k) ((s.die d).pairVal k)).extractLsb' 32 32)))

/-- R411 to R413: firmware's write to a register with PW fields leaves the value pending and sets its press group at once; a press
applies the pending values of the groups named, PW bits only, and no others; a cancel discards them.

R296, R414, R415: `commit` waits for the next pass, which takes the block's CRC and firmware's copy; a pass that agrees records
its result only; one that differs rewrites the block from the copy and reports it (here the first within a second, of a block
other than the darner's). -/
def Obligations.PressedWritesAndCheck : Prop :=
  ((∀ (s : State) (core d m : Nat) (off v : BitVec 32), s.live d = true → pwMask off.toNat = some m →
    (s.die d).blockFenced off.toNat = false →
    Runs (.pwWrite (.firmware core) d off v) s fun t => OtherDies s t d ∧
      ((t.die d).preg off.toNat).pend = some (BitVec.ofNat 32 (Nat.land v.toNat m)) ∧
      ((t.die d).preg off.toNat).applied =
        v.extractLsb' 28 4 ++ ((s.die d).preg off.toNat).applied.extractLsb' 0 28 ∧
      ∀ n, n ≠ off.toNat → (t.die d).preg n = (s.die d).preg n) ∧
  (∀ (s : State) (core d : Nat) (g : BitVec 32), s.live d = true → (s.die d).blockFenced 0x20 = false →
    Runs (.pressGo (.firmware core) d g) s fun t => OtherDies s t d ∧ ∀ n,
      (∀ v, ((s.die d).preg n).pend = some v → g.getLsbD ((s.die d).grpOf n) = true → (s.die d).grpOf n < 16 →
        ((t.die d).preg n).pend = none ∧
        ∀ i, i < 32 → ((t.die d).preg n).applied.getLsbD i =
          if bitAt ((pwMask n).getD 0) i then v.getLsbD i else ((s.die d).preg n).applied.getLsbD i) ∧
      ((((s.die d).preg n).pend = none ∨ g.getLsbD ((s.die d).grpOf n) = false) → (t.die d).preg n = (s.die d).preg n)) ∧
  (∀ (s : State) (core d : Nat) (g : BitVec 32), s.live d = true → (s.die d).blockFenced 0x24 = false →
    Runs (.pressCancel (.firmware core) d g) s fun t => OtherDies s t d ∧ t.queues = s.queues ∧ ∀ n,
      ((t.die d).preg n).applied = ((s.die d).preg n).applied ∧
      (g.getLsbD ((s.die d).grpOf n) = true → ((t.die d).preg n).pend = none) ∧
      (g.getLsbD ((s.die d).grpOf n) = false → (t.die d).preg n = (s.die d).preg n))) ∧
  ((∀ (s : State) (core d b : Nat), s.live d = true → b ∈ cfgBlocks → (s.die d).isFenced 17 15 = false →
    Runs (.commit (.firmware core) d b) s fun t => OtherDies s t d ∧ t.queues = s.queues ∧
      (t.die d).cfg b = { (s.die d).cfg b with commitPend := true } ∧ (t.die d).pregs = (s.die d).pregs) ∧
  (∀ (s : State) (d b : Nat), s.live d = true → b ∈ cfgBlocks → ((s.die d).cfg b).commitPend = true →
    Runs (.cfgCrcPass d b) s fun t => OtherDies s t d ∧ t.raised = s.raised ∧ (t.die d).pregs = (s.die d).pregs ∧
      ((t.die d).cfg b).ref = (s.die d).blockCrc b ∧ ((t.die d).cfg b).crc = (s.die d).blockCrc b ∧
      ((t.die d).cfg b).chkEn = true ∧ ((t.die d).cfg b).commitPend = false ∧
      ∀ off ∈ pwOffsets b, tget ((t.die d).cfg b).copy off 0 = ((s.die d).preg off).applied) ∧
  (∀ (s : State) (d b : Nat), s.live d = true → b ∈ cfgBlocks → ((s.die d).cfg b).commitPend = false →
    (((s.die d).cfg b).chkEn = false ∨ (s.die d).blockCrc b = ((s.die d).cfg b).ref) →
    Runs (.cfgCrcPass d b) s fun t => OtherDies s t d ∧ t.raised = s.raised ∧ (t.die d).pregs = (s.die d).pregs ∧
      (t.die d).cfg b = { (s.die d).cfg b with crc := (s.die d).blockCrc b }) ∧
  (∀ (s : State) (d b : Nat), s.live d = true → b ∈ cfgBlocks → b ≠ 3 → ((s.die d).cfg b).commitPend = false →
    ((s.die d).cfg b).chkEn = true → (s.die d).blockCrc b ≠ ((s.die d).cfg b).ref → ((s.die d).cfg b).recent = none →
    Runs (.cfgCrcPass d b) s fun t => OtherDies s t d ∧ ((t.die d).cfg b).crcErr = true ∧ ((t.die d).cfg b).restored = true ∧
      (∃ l v, t.raised = l ++ [v] ∧ v.code = 0x0052 ∧ v.die = d ∧ v.unit = b) ∧
      ∀ off ∈ pwOffsets b, ((t.die d).preg off).pend = none ∧ ∀ i, i < 28 → bitAt ((pwMask off).getD 0) i = true →
        ((t.die d).preg off).applied.getLsbD i =
          (tget ((s.die d).cfg b).copy off (BitVec.ofNat 32 (pwReset off))).getLsbD i))

/-- R400, R401, R403, R415, R433: firmware writes CFG_REF and CFG_CTL; a misaligned write is ignored; the sideband's writes are
refused before debug is unlocked, but for the press groups and link settings it may use, and done after it. -/
def Obligations.WritesAndTheirPaths : Prop :=
  (∀ (s : State) (core d b : Nat) (v : BitVec 32), s.live d = true → b ∈ cfgBlocks → (s.die d).isFenced 17 15 = false →
    (Runs (.registerWrite (.firmware core) d (BitVec.ofNat 32 (0xF000 + 16 * b + 4)) v) s fun t => OtherDies s t d ∧
      t.queues = s.queues ∧ (t.die d).cfg b = { (s.die d).cfg b with ref := v } ∧ (t.die d).pregs = (s.die d).pregs) ∧
    Runs (.registerWrite (.firmware core) d (BitVec.ofNat 32 (0xF000 + 16 * b)) v) s fun t => OtherDies s t d ∧
      ((t.die d).cfg b).chkEn = v.getLsbD 0 ∧
      ((t.die d).cfg b).commitPend = (((s.die d).cfg b).commitPend || v.getLsbD 1) ∧
      ((t.die d).cfg b).ref = ((s.die d).cfg b).ref) ∧
  (∀ (s : State) (core d : Nat) (off v : BitVec 32), s.live d = true → off.toNat % 4 ≠ 0 →
    Runs (.registerWrite (.firmware core) d off v) s fun t => t = s) ∧
  (∀ (s : State) (a v : BitVec 32) (d off : Nat), d = a.toNat / 2 ^ 26 → off = a.toNat % 2 ^ 26 → s.live d = true →
    off % 4 = 0 → off < 0x100000 → off ≠ 0x20 → off ≠ 0x24 → off ≠ 0xF050 →
    (s.unlocked d = false → sideFelt off v.toNat = false →
      Runs (.regWrite a v) s fun t => t.psi.sideband.resp = [1] ∧ t.dies = s.dies ∧ t.queues = s.queues) ∧
    (∀ m, (s.unlocked d = true ∨ sideFelt off v.toNat = true) → pwMask off = some m →
      (s.die d).blockFenced off = false →
      Runs (.regWrite a v) s fun t => t.psi.sideband.resp = [0] ∧
        ((t.die d).preg off).pend = some (BitVec.ofNat 32 (Nat.land v.toNat m)))) ∧
  (∀ (s : State) (f d : Nat) (off v : BitVec 32), s.running = true → s.hostReaches f = true → s.live d = true →
    off.toNat < 0x80000 →
    Runs (.registerWrite (.host f) d off v) s fun t => t = s)

/-! ## The ledger -/

/-- R384, R388, R390, R392, R456: a period of a die advances its counters and energy, charges each tenant the fabric rails of its
regions and its share of the dynamic energy, by the work counted since the last period, applies the limits in force, and puts in force the slowest of the ledger's, the
thermal and the backstop's steps; nothing else of the die changes.

R391, R392: above 1.05 × P over a window every usable die is ordered to step 3 and the event is posted, otherwise none is; a
calibration records the figure of the step in force. -/
def Obligations.LedgerAndBackstop : Prop :=
  (∀ (s : State) (d nj nclk : Nat) (fab : List Nat) (temp : Int) (moved : Nat × Nat) (acts : List Activity) (x : Die),
    s.live d = true → fab.length ≤ 8 → x = (s.die d).modLed (fun l => l.meter nj fab nclk temp) →
    acts = (((s.die d).act 4 .device moved.1).act 5 .device moved.2).acts →
    Runs (.ledgerPeriod d nj fab nclk temp moved) s fun t => OtherDies s t d ∧
      (t.die d).led.cycA = (s.die d).led.cycA + 4096 ∧ (t.die d).led.cycN = (s.die d).led.cycN + BitVec.ofNat 64 nclk ∧
      (t.die d).led.dieNj = (s.die d).led.dieNj + BitVec.ofNat 64 nj ∧ (t.die d).led.tempC = temp ∧
      (t.die d).led.sMw = shareMw s.psi.pMw s.dieCount ∧ (t.die d).led.rMw = s.psi.rMw ∧
      (t.die d).led.step = max (t.die d).led.own (max (t.die d).led.thermal (t.die d).led.backstopStep) ∧
      (s.part.tMax - 5 ≤ temp → (s.die d).led.hot = 0 → (t.die d).led.thermal = min 3 ((s.die d).led.thermal + 1)) ∧
      ((s.die d).led.backstopOn = true → (t.die d).led.backstopStep = 3) ∧
      (∀ u, u ∈ tkeys s.tenants → (tkeys s.tenants).Nodup → ((t.die d).acct u).charged = ((s.die d).acct u).charged +
        BitVec.ofNat 64 (x.chargeOf fab acts (nj - fab.sum - x.led.staticNj s.part.gradeB) u)) ∧
      t.die d = { s.die d with
        led := (t.die d).led, ctrs := (t.die d).ctrs, wraps := (t.die d).wraps, tallies := (t.die d).tallies, acts := [] }) ∧
  ((∀ (s : State) (nj sum : Nat), s.running = true → sum = s.sumDies s.sinceWindow + nj →
    Runs (.backstopWindow nj) s fun t => t.psi.windowNj = sum ∧ t.queues = s.queues ∧
      (∀ d, d ∈ s.usableDies → (t.die d).led.backstopOn = decide (105 * s.psi.pMw * 1000 < 100 * sum) ∧
        (t.die d).led.step = (s.die d).led.step ∧ tget t.psi.lastNj d 0 = (s.die d).led.dieNj.toNat) ∧
      (105 * s.psi.pMw * 1000 < 100 * sum → ∃ e, t.raised = s.raised ++ [e] ∧ e.code = 0x0040 ∧ e.arg0 = sum / 1000000) ∧
      (100 * sum ≤ 105 * s.psi.pMw * 1000 → t.raised = s.raised)) ∧
  (∀ (s : State) (d mw : Nat) (temp : Int), s.live d = true → (s.die d).quiet = true →
    Runs (.staticCalibration d mw temp) s fun t => OtherDies s t d ∧ t.queues = s.queues ∧
      (t.die d).led.calOf (s.die d).led.step = (mw, temp) ∧
      ∀ k, k ≠ (s.die d).led.step → (t.die d).led.calOf k = (s.die d).led.calOf k))

/-! ## The package -/

/-- R28, R29, R386, R424, R454, R456: what makes the package fatal, with its cause, and what loses one die: a die other than D0
whose PLL or controller fails is lost and stops; D0's loss, a supply or a temperature out of range, a firmware image that no
longer matches are fatal.

R236, R283, R420, R459: a package reset takes everything to its reset value but what is one-time programmable, in flash, or
outside the package, and the waiting commands. -/
def Obligations.FatalCausesAndReset : Prop :=
  ((∀ (s : State) (d : Nat) (temp : Int), s.running = true → (d < s.dieCount ∨ d = 0xFF) → s.part.tMax + 10 < temp →
    Runs (.thermalShutdown d temp) s fun t => t.psi.state = .fatal ∧ t.psi.cause = 2 ∧ t.pins.pwrOk = false ∧
      t.pins.cfgDone = false ∧ t.hostUp = false ∧ t.psi.flash = s.psi.flash) ∧
  (∀ (s : State), s.running = true →
    (Runs (.fwRehash true) s fun t => t = s) ∧
    Runs (.fwRehash false) s fun t => t.psi.state = .fatal ∧ t.psi.cause = 4 ∧ t.pins.pwrOk = false) ∧
  (∀ (s : State) (k : VinKind), s.pins.pkgRstN = true → s.running = true →
    (∀ mv, k = .holdUp mv → holdUpBand mv = true →
      Runs (.vinExcursion k) s fun t => t.psi.state = .fatal ∧ t.psi.cause = 1 ∧ t.pins.vinMv = mv) ∧
    (k = .above63 → Runs (.vinExcursion k) s fun t => t.psi.state = .fatal ∧ t.psi.cause = 1 ∧ 63000 < t.pins.vinMv) ∧
    (k = .below36 → Runs (.vinExcursion k) s fun t => t.psi.state = .inReset ∧ t.pins.vinMv < 36000 ∧ t.dies = [] ∧
      t.queues = [])) ∧
  (∀ (s : State) (i : Instr) (d : Nat), s.live d = true → (i = .pllLockLoss d ∨ i = .dieControllerTimeout d) →
    (d ≠ 0 → RunsThen i s fun u => (u.die d).lost = true ∧ (u.die d).running = false ∧ u.psi.state = .running) ∧
    (d = 0 → RunsThen i s fun u => u.psi.state = .fatal ∧ u.psi.cause = 5))) ∧
  (∀ (s : State), Runs .packageReset s fun t => t.psi.state = .inReset ∧ t.pins.pkgRstN = false ∧ t.pins.pwrOk = false ∧
    t.pins.cfgDone = false ∧ t.psi.signing = s.psi.signing ∧ t.psi.imageKeys = s.psi.imageKeys ∧ t.psi.fwMin = s.psi.fwMin ∧
    t.psi.cfgMin = s.psi.cfgMin ∧ t.psi.flash = s.psi.flash ∧ t.part = s.part ∧ t.pending = s.pending ∧
    t.psi.pMw = s.part.variant.limitMw ∧ t.psi.rMw = 5000 ∧ t.psi.dbg = Psiurn.reset.dbg ∧ t.hostUp = false ∧
    (∀ d, t.die d = Die.reset s.part.variant) ∧ (∀ q, t.queue q = Queue.reset) ∧ (∀ f, t.func f = Func.reset f) ∧
    t.tenants = [] ∧ t.models = [] ∧ t.seqs = [] ∧ t.disps = [] ∧ t.waiting = [] ∧ t.epochOp = none)

/-- R279, R418, R422, R423, R456: out of reset the straps are sampled; a cold sensor holds boot; a ROM that fails its check is
fatal, a firmware image that fails stops boot with its status; otherwise every die runs, PWR_OK is high, and start-up waits at
its next step.

R281, R282: the start-up image: a full image that passes leaves its regions LOADING with their frames in place and releases
CFG_DONE; one that fails reports its status, and without a fallback nothing is loaded; a die that sees CFG_DONE high notes it. -/
def Obligations.BootAndStartUp : Prop :=
  ((∀ (s w : State) (f : BootFacts), s.psi.state = .inReset →
    w = (s.modPsi fun y => { y with flash := f.flash.foldl (fun m v => mwriteN m v.1 v.2) y.flash }) →
    (s.tooCold f = true →
      Runs (.packageResetRelease f) s fun t => t.psi.state = .cold ∧ t.psi.coldBoot = some f ∧ t.psi.cfgStep = 1 ∧
        t.psi.strapCfg = s.pins.cfgSrc ∧ t.psi.strapPull = s.pins.pullSel ∧ t.pins.pwrOk = s.pins.pwrOk) ∧
    (s.tooCold f = false → f.romOk = false →
      Runs (.packageResetRelease f) s fun t => t.psi.state = .fatal ∧ t.psi.cause = 3) ∧
    (s.tooCold f = false → f.romOk = true → w.fwDir = none →
      Runs (.packageResetRelease f) s fun t => t.psi.state = .bootStopped ∧ t.psi.status = .imageCrc ∧ t.psi.cfgStep = 2) ∧
    (∀ a st, s.tooCold f = false → f.romOk = true → w.fwDir = some a →
      w.fwCheck (fwSlot (w.fwDirAt a) (fieldAt (w.fwDirAt a) 24 1)) f.chk = some st →
      Runs (.packageResetRelease f) s fun t => t.psi.state = .bootStopped ∧ t.psi.status = st) ∧
    (∀ a, s.tooCold f = false → f.romOk = true → w.fwDir = some a →
      w.fwCheck (fwSlot (w.fwDirAt a) (fieldAt (w.fwDirAt a) 24 1)) f.chk = none → f.dieFail = [] → f.unreached = [] →
      Runs (.packageResetRelease f) s fun t => t.psi.state = .running ∧ t.pins.pwrOk = true ∧
        t.psi.cfgStep = (if s.pins.cfgSrc then 7 else 3) ∧ t.pins.cfgDone = s.pins.cfgSrc ∧
        (∀ d, d < s.dieCount → (t.die d).running = true ∧ (t.die d).lost = false ∧ (t.die d).trained = true ∧
          (t.die d).fwOk = true ∧ (t.die d).frames = [] ∧ (∀ c, c < 80 → (t.die d).chanState c =
            if f.trainFail.contains (d, c) || (decide (64 ≤ c) && f.lpddrBad.contains d) then .absent else .active)))) ∧
  (∀ (s : State) (f : BootFacts), s.psi.state = .cold → s.psi.coldBoot = some f →
    (f.romOk = false → Runs .sensorMinimumReached s fun t => t.psi.state = .fatal ∧ t.psi.cause = 3) ∧
    (∀ a, f.romOk = true → s.fwDir = some a →
      s.fwCheck (fwSlot (s.fwDirAt a) (fieldAt (s.fwDirAt a) 24 1)) f.chk = none → f.dieFail = [] → f.unreached = [] →
      Runs .sensorMinimumReached s fun t => t.psi.state = .running ∧ t.psi.coldBoot = none ∧ t.pins.pwrOk = true ∧
        ∀ d, d < s.dieCount → (t.die d).running = true))) ∧
  ((∀ (s : State) (c1 c2 : ImgChk), s.running = true → s.psi.strapCfg = false → s.psi.cfgStep = 3 →
    cfgDirOk s.cfgDir = true →
    (∀ frames, s.readFull (fieldAt s.cfgDir 8 8) c1 = .inr (frames, []) →
      Runs (.startUpImageLoad c1 c2) s fun t => t.pins.cfgDone = true ∧ t.psi.cfgStep = 7 ∧ t.raised = s.raised ∧
        ∀ d, d ∈ s.usableDies → (t.die d).frames = dieFrames frames d ∧ ∀ r, r < 8 →
          (imgNames (mreadN s.psi.flash (fieldAt s.cfgDir 8 8) 2048) d r = true →
            ((t.die d).fabric r).st = .loading ∧ ((t.die d).fabric r).tenant = 0xFF ∧
            ((t.die d).fabric r).halted = true ∧
            ((t.die d).fabric r).digest = imgDigest (mreadN s.psi.flash (fieldAt s.cfgDir 8 8) 2048)) ∧
          (imgNames (mreadN s.psi.flash (fieldAt s.cfgDir 8 8) 2048) d r = false →
            (t.die d).fabric r = (s.die d).fabric r)) ∧
    (∀ st det, s.readFull (fieldAt s.cfgDir 8 8) c1 = .inl (st, det) → fieldAt s.cfgDir 16 8 = 0 →
      Runs (.startUpImageLoad c1 c2) s fun t => t.pins.cfgDone = true ∧ t.psi.cfgStep = 7 ∧ t.psi.status = st ∧
        t.psi.fallback = s.psi.fallback ∧ t.dies = s.dies)) ∧
  (∀ (s : State) (d : Nat), s.live d = true → s.pins.cfgDone = true → (s.die d).sawDone = false →
    RunsThen (.cfgDoneHigh d) s fun u => OtherDies s u d ∧ u.die d = { s.die d with sawDone := true } ∧
      u.psi.cfgStep = max 8 s.psi.cfgStep))

/-! ## Vector words -/

/-- R164, R165, R167, R178: what a word reads: its registers, or, with m set, 256 bytes from slot 0's pointer as operand b. A
load writes them to Vd and a store writes Vd there and nowhere else.

R170: moves, broadcasts, logic and selection, element by element. -/
def Obligations.TileScalarWords : Prop :=
  ((∀ (s : State) (op : Nat) (t : VAt) (w : VW), (s.vIn op t w).a = (s.vcore t).reg w.va.toNat ∧
    (s.vIn op t w).d = (s.vcore t).reg w.vd.toNat ∧
    (w.m = false → (s.vIn op t w).b = (s.vcore t).reg w.vb.toNat) ∧
    (w.m = true → 0x20 ≤ op → ∀ e, e < 256 → (s.vIn op t w).b.extractLsb' (8 * e) 8 =
      mread (s.vAt t).mem (((s.vcore t).pt w.p0.toNat).addr e))) ∧
  (∀ (s : State) (t : VAt) (w : VW),
    (WordRuns s 0x10 t w → WritesVd (.vld t w) s t w fun v => ∀ e, e < 256 →
      v.extractLsb' (8 * e) 8 = mread (s.vAt t).mem (((s.vcore t).pt w.p0.toNat).addr e)) ∧
    (WordRuns s 0x11 t w → ((s.vcore t).pt w.p0.toNat).len = 0 →
      Runs (.vst t w) s fun u => TileOnly s u t ∧ (∀ n, (u.vcore t).reg n = (s.vcore t).reg n) ∧
        (∀ e, e < 256 → mread (u.vAt t).mem (((s.vcore t).pt w.p0.toNat).addr e) =
          ((s.vcore t).reg w.vd.toNat).extractLsb' (8 * e) 8) ∧
        ∀ a, (∀ e, e < 256 → a ≠ ((s.vcore t).pt w.p0.toNat).addr e) → mread (u.vAt t).mem a = mread (s.vAt t).mem a) ∧
    (WordRuns s 0x12 t w →
      ((w.x5 = 0x08 ∨ w.x5 = 0x11) → WritesVd (.vldx t w) s t w fun v => ∀ e, e < 128 →
        hLane v e = (mread (s.vAt t).mem (((s.vcore t).pt w.p0.toNat).addr e)).signExtend 16) ∧
      (w.x5 = 0x0A → WritesVd (.vldx t w) s t w fun v => ∀ e, e < 256 →
        v.extractLsb' (8 * e) 8 = mread (s.vAt t).mem (((s.vcore t).pt w.p0.toNat).addr e)) ∧
      WritesVd (.vldx t w) s t w fun v => (vldxRes w (s.vIn 0x12 t w)).vd = some v) ∧
    (WordRuns s 0x13 t w →
      Runs (.vstx t w) s fun u => TileOnly s u t ∧ (∀ n, (u.vcore t).reg n = (s.vcore t).reg n) ∧
        (∀ a, (∀ e, e < 256 → a ≠ ((s.vcore t).pt w.p0.toNat).addr e ∧ a ≠ ((s.vcore t).pt w.p1.toNat).addr e) →
          mread (u.vAt t).mem a = mread (s.vAt t).mem a) ∧
        ((w.x5 = 0x08 ∨ w.x5 = 0x11) → ((s.vcore t).pt w.p0.toNat).len = 0 → ∀ e, e < 128 →
          mread (u.vAt t).mem (((s.vcore t).pt w.p0.toNat).addr e) =
            fitted 8 true (hLane ((s.vcore t).reg w.vd.toNat) e).toInt)))) ∧
  (∀ (s : State) (t : VAt) (w : VW),
    (WordRuns s 0x14 t w → WritesVd (.vmovi t w) s t w fun v => ∀ e, e < 128 → hLane v e = w.imm16) ∧
    (WordRuns s 0x15 t w → WritesVd (.vmov t w) s t w fun v => v = (s.vcore t).reg w.va.toNat) ∧
    (WordRuns s 0x16 t w → WritesVd (.vbcstH t w) s t w fun v => ∀ e, e < 128 →
      hLane v e = hLane ((s.vcore t).reg w.va.toNat) w.imm13.toNat) ∧
    (WordRuns s 0x17 t w → WritesVd (.vbcstW t w) s t w fun v => ∀ e, e < 64 →
      wLane v e = wLane ((s.vcore t).reg w.va.toNat) w.imm13.toNat) ∧
    (WordRuns s 0x29 t w → WritesVd (.vand t w) s t w fun v => v = (s.vIn 0x29 t w).a &&& (s.vIn 0x29 t w).b) ∧
    (WordRuns s 0x2A t w → WritesVd (.vor t w) s t w fun v => v = (s.vIn 0x2A t w).a ||| (s.vIn 0x2A t w).b) ∧
    (WordRuns s 0x2B t w → WritesVd (.vxor t w) s t w fun v => v = (s.vIn 0x2B t w).a ^^^ (s.vIn 0x2B t w).b) ∧
    (WordRuns s 0x2C t w → WritesVd (.vsel t w) s t w fun v => ∀ i, i < 2048 → v.getLsbD i =
      if (s.vIn 0x2C t w).d.getLsbD i then (s.vIn 0x2C t w).a.getLsbD i else (s.vIn 0x2C t w).b.getLsbD i))

/-- R172, R173: fixed-point arithmetic on .H and .W elements: exact, rounded to nearest with ties to even where it shifts right,
then fitted: the nearest limit with `ovf`, the low bits without it. -/
def Obligations.FixedPointWords : Prop :=
  ∀ (s : State) (t : VAt) (w : VW),
    (WordRuns s 0x20 t w → WritesVd (.vaddH t w) s t w fun v => ∀ e, e < 128 →
      hLane v e = fitted 16 w.ovf ((hLane (s.vIn 0x20 t w).a e).toInt + (hLane (s.vIn 0x20 t w).b e).toInt)) ∧
    (WordRuns s 0x21 t w → WritesVd (.vsubH t w) s t w fun v => ∀ e, e < 128 →
      hLane v e = fitted 16 w.ovf ((hLane (s.vIn 0x21 t w).a e).toInt - (hLane (s.vIn 0x21 t w).b e).toInt)) ∧
    (WordRuns s 0x22 t w → WritesVd (.vaddW t w) s t w fun v => ∀ e, e < 64 →
      wLane v e = fitted 32 w.ovf ((wLane (s.vIn 0x22 t w).a e).toInt + (wLane (s.vIn 0x22 t w).b e).toInt)) ∧
    (WordRuns s 0x23 t w → WritesVd (.vsubW t w) s t w fun v => ∀ e, e < 64 →
      wLane v e = fitted 32 w.ovf ((wLane (s.vIn 0x23 t w).a e).toInt - (wLane (s.vIn 0x23 t w).b e).toInt)) ∧
    (WordRuns s 0x24 t w → WritesVd (.vmulH t w) s t w fun v => ∀ e, e < 128 →
      ∃ r, Nearest ((hLane (s.vIn 0x24 t w).a e).toInt * (hLane (s.vIn 0x24 t w).b e).toInt) w.x5.toNat r ∧
        hLane v e = fitted 16 w.ovf r) ∧
    (WordRuns s 0x25 t w → WritesVd (.vmaxH t w) s t w fun v => ∀ e, e < 128 →
      (hLane v e).toInt = max (hLane (s.vIn 0x25 t w).a e).toInt (hLane (s.vIn 0x25 t w).b e).toInt) ∧
    (WordRuns s 0x26 t w → WritesVd (.vminH t w) s t w fun v => ∀ e, e < 128 →
      (hLane v e).toInt = min (hLane (s.vIn 0x26 t w).a e).toInt (hLane (s.vIn 0x26 t w).b e).toInt) ∧
    (WordRuns s 0x27 t w → WritesVd (.vabsH t w) s t w fun v => ∀ e, e < 128 →
      hLane v e = fitted 16 w.ovf (hLane (s.vIn 0x27 t w).a e).toInt.natAbs) ∧
    (WordRuns s 0x28 t w → WritesVd (.vnegH t w) s t w fun v => ∀ e, e < 128 →
      hLane v e = fitted 16 w.ovf (-(hLane (s.vIn 0x28 t w).a e).toInt)) ∧
    (WordRuns s 0x2D t w → WritesVd (.vcmpH t w) s t w fun v => ∀ e x y, e < 128 →
      x = (hLane (s.vIn 0x2D t w).a e).toInt → y = (hLane (s.vIn 0x2D t w).b e).toInt →
      hLane v e = if (w.x5 = 0 ∧ x = y) ∨ (w.x5 = 1 ∧ x ≠ y) ∨ (w.x5 = 2 ∧ x < y) ∨ (w.x5 = 3 ∧ x ≤ y) then 0xFFFF else 0) ∧
    (WordRuns s 0x2E t w → WritesVd (.vshlH t w) s t w fun v => ∀ e, e < 128 →
      hLane v e = fitted 16 w.ovf ((hLane (s.vIn 0x2E t w).a e).toInt * 2 ^ w.x5.toNat)) ∧
    (WordRuns s 0x2F t w → WritesVd (.vshrH t w) s t w fun v => ∀ e, e < 128 →
      ∃ r, Nearest (hLane (s.vIn 0x2F t w).a e).toInt w.x5.toNat r ∧ hLane v e = fitted 16 w.ovf r)

/-- R170, R172, R173: the accumulator words: sums modulo 2^48 and rounded reads.

R174: block floating point: NORM shifts each element up until its sign bit is alone and puts the count into V(d+1); EXPX gives
each group its least count; BSH shifts by a signed count, rounded downward shifts and fitted results. -/
def Obligations.TileAccumulatorWords : Prop :=
  (∀ (s : State) (t : VAt) (w : VW),
    (WordRuns s 0x30 t w → WritesAcc (.vclr t w) s t w fun v => v = 0) ∧
    (WordRuns s 0x31 t w → WritesAcc (.vaccLd t w) s t w fun v => ∀ e, e < 128 →
      aLane v e = BitVec.ofInt 48 ((hLane (s.vIn 0x31 t w).a e).toInt * 2 ^ w.x5.toNat)) ∧
    (WordRuns s 0x32 t w → WritesAcc (.vmacH t w) s t w fun v => ∀ e, e < 128 →
      aLane v e = aLane ((s.vcore t).accu w.acc.toNat) e +
        BitVec.ofInt 48 ((hLane (s.vIn 0x32 t w).a e).toInt * (hLane (s.vIn 0x32 t w).b e).toInt)) ∧
    (WordRuns s 0x33 t w → WritesAcc (.vmsuH t w) s t w fun v => ∀ e, e < 128 →
      aLane v e = aLane ((s.vcore t).accu w.acc.toNat) e -
        BitVec.ofInt 48 ((hLane (s.vIn 0x33 t w).a e).toInt * (hLane (s.vIn 0x33 t w).b e).toInt)) ∧
    (WordRuns s 0x34 t w → WritesAcc (.vmacsH t w) s t w fun v => ∀ e, e < 128 →
      aLane v e = aLane ((s.vcore t).accu w.acc.toNat) e + BitVec.ofInt 48 ((hLane (s.vIn 0x34 t w).b e).toInt *
        (mread (s.vAt t).mem (((s.vcore t).pt w.p1.toNat).addr 1) ++
          mread (s.vAt t).mem (((s.vcore t).pt w.p1.toNat).addr 0)).toInt)) ∧
    (WordRuns s 0x35 t w → WritesAcc (.vmacWh t w) s t w fun v => ∀ i j, i < 64 → j < 2 →
      ∃ r, Nearest ((wLane (s.vIn 0x35 t w).a i).toInt * (hLane (s.vIn 0x35 t w).b (2 * i + j)).toInt) w.x5.toNat r ∧
        aLane v (2 * i + j) = aLane ((s.vcore t).accu w.acc.toNat) (2 * i + j) + BitVec.ofInt 48 r) ∧
    (WordRuns s 0x36 t w → WritesVd (.vrndH t w) s t w fun v => ∀ e, e < 128 →
      ∃ r, Nearest (aLane ((s.vcore t).accu w.acc.toNat) e).toInt w.x5.toNat r ∧ hLane v e = fitted 16 w.ovf r) ∧
    (WordRuns s 0x37 t w → WritesVd (.vrndWe t w) s t w fun v => ∀ i, i < 64 →
      ∃ r, Nearest (aLane ((s.vcore t).accu w.acc.toNat) (2 * i)).toInt w.x5.toNat r ∧ wLane v i = fitted 32 w.ovf r) ∧
    (WordRuns s 0x38 t w → WritesVd (.vrndWo t w) s t w fun v => ∀ i, i < 64 →
      ∃ r, Nearest (aLane ((s.vcore t).accu w.acc.toNat) (2 * i + 1)).toInt w.x5.toNat r ∧ wLane v i = fitted 32 w.ovf r)) ∧
  (∀ (s : State) (t : VAt) (w : VW),
    (WordRuns s 0x3A t w → Runs (.normH t w) s fun u => TileOnly s u t ∧ (u.vAt t).mem = (s.vAt t).mem ∧
      (∀ n, n ≠ w.vd.toNat → n ≠ w.vd.toNat + 1 → (u.vcore t).reg n = (s.vcore t).reg n) ∧ ∀ e, e < 128 →
        SignBits 16 (hLane (s.vIn 0x3A t w).a e).toInt (hLane ((u.vcore t).reg (w.vd.toNat + 1)) e).toNat ∧
        (hLane ((u.vcore t).reg w.vd.toNat) e).toInt = (hLane (s.vIn 0x3A t w).a e).toInt *
          2 ^ (hLane ((u.vcore t).reg (w.vd.toNat + 1)) e).toNat) ∧
    (WordRuns s 0x3B t w → Runs (.normW t w) s fun u => TileOnly s u t ∧ (u.vAt t).mem = (s.vAt t).mem ∧
      (∀ n, n ≠ w.vd.toNat → n ≠ w.vd.toNat + 1 → (u.vcore t).reg n = (s.vcore t).reg n) ∧ ∀ e, e < 64 →
        SignBits 32 (wLane (s.vIn 0x3B t w).a e).toInt (wLane ((u.vcore t).reg (w.vd.toNat + 1)) e).toNat ∧
        (wLane ((u.vcore t).reg w.vd.toNat) e).toInt = (wLane (s.vIn 0x3B t w).a e).toInt *
          2 ^ (wLane ((u.vcore t).reg (w.vd.toNat + 1)) e).toNat) ∧
    (WordRuns s 0x3C t w → WritesVd (.expxH t w) s t w fun v => ∃ c : Nat → Nat,
      (∀ e, e < 128 → SignBits 16 (hLane (s.vIn 0x3C t w).a e).toInt (c e)) ∧ ∀ e, e < 128 →
        (∀ j, j < 128 → j / 2 ^ w.x5.toNat = e / 2 ^ w.x5.toNat → (hLane v e).toNat ≤ c j) ∧
        ∃ j, j < 128 ∧ j / 2 ^ w.x5.toNat = e / 2 ^ w.x5.toNat ∧ (hLane v e).toNat = c j) ∧
    (WordRuns s 0x3D t w → WritesVd (.expxW t w) s t w fun v => ∃ c : Nat → Nat,
      (∀ e, e < 64 → SignBits 32 (wLane (s.vIn 0x3D t w).a e).toInt (c e)) ∧ ∀ e, e < 64 →
        (∀ j, j < 64 → j / 2 ^ w.x5.toNat = e / 2 ^ w.x5.toNat → (wLane v e).toNat ≤ c j) ∧
        ∃ j, j < 64 ∧ j / 2 ^ w.x5.toNat = e / 2 ^ w.x5.toNat ∧ (wLane v e).toNat = c j) ∧
    (WordRuns s 0x3E t w → WritesVd (.bshH t w) s t w fun v => ∀ e a c, e < 128 → a = (hLane (s.vIn 0x3E t w).a e).toInt →
      c = (hLane (s.vIn 0x3E t w).b e).toInt →
      (0 ≤ c → hLane v e = fitted 16 w.ovf (a * 2 ^ (min 31 c.toNat))) ∧
      (c < 0 → ∃ r, Nearest a (min 31 (-c).toNat) r ∧ hLane v e = fitted 16 w.ovf r)) ∧
    (WordRuns s 0x3F t w → WritesVd (.bshW t w) s t w fun v => ∀ e a c, e < 64 → a = (wLane (s.vIn 0x3F t w).a e).toInt →
      c = (wLane (s.vIn 0x3F t w).b e).toInt →
      (0 ≤ c → wLane v e = fitted 32 w.ovf (a * 2 ^ (min 31 c.toNat))) ∧
      (c < 0 → ∃ r, Nearest a (min 31 (-c).toNat) r ∧ wLane v e = fitted 32 w.ovf r)))

/-- R99, R101, R175: binary32 words, element by element as the numeric rules give each result; a NaN operand gives the canonical
NaN.

R100, R102, R104, R175: bfloat16 words and conversions, element by element as the numeric rules give each result. -/
def Obligations.TileFloatWords : Prop :=
  (∀ (s : State) (t : VAt) (w : VW) (x : VIn),
    (x = s.vIn 0x40 t w → WordRuns s 0x40 t w → WritesVd (.faddS t w) s t w fun v => ∀ e, e < 64 →
      wLane v e = BitVec.ofNat 32 (b32Add (wLane x.a e).toNat (wLane x.b e).toNat).1 ∧
      (isNan32 (wLane x.a e) ∨ isNan32 (wLane x.b e) → wLane v e = 0x7FC00000)) ∧
    (x = s.vIn 0x41 t w → WordRuns s 0x41 t w → WritesVd (.fsubS t w) s t w fun v => ∀ e, e < 64 →
      wLane v e = BitVec.ofNat 32 (b32Sub (wLane x.a e).toNat (wLane x.b e).toNat).1 ∧
      (isNan32 (wLane x.a e) ∨ isNan32 (wLane x.b e) → wLane v e = 0x7FC00000)) ∧
    (x = s.vIn 0x42 t w → WordRuns s 0x42 t w → WritesVd (.fmulS t w) s t w fun v => ∀ e, e < 64 →
      wLane v e = BitVec.ofNat 32 (b32Mul (wLane x.a e).toNat (wLane x.b e).toNat).1 ∧
      (isNan32 (wLane x.a e) ∨ isNan32 (wLane x.b e) → wLane v e = 0x7FC00000)) ∧
    (x = s.vIn 0x43 t w → WordRuns s 0x43 t w → WritesVd (.ffmaS t w) s t w fun v => ∀ e, e < 64 →
      wLane v e = BitVec.ofNat 32 (b32Fma (wLane x.a e).toNat (wLane x.b e).toNat (wLane x.d e).toNat).1 ∧
      (isNan32 (wLane x.a e) ∨ isNan32 (wLane x.b e) ∨ isNan32 (wLane x.d e) → wLane v e = 0x7FC00000)) ∧
    (x = s.vIn 0x44 t w → WordRuns s 0x44 t w → WritesVd (.fmaxS t w) s t w fun v => ∀ e, e < 64 →
      wLane v e = BitVec.ofNat 32 (b32Pick true (wLane x.a e).toNat (wLane x.b e).toNat).1 ∧
      (isNan32 (wLane x.a e) ∨ isNan32 (wLane x.b e) → wLane v e = 0x7FC00000)) ∧
    (x = s.vIn 0x45 t w → WordRuns s 0x45 t w → WritesVd (.fminS t w) s t w fun v => ∀ e, e < 64 →
      wLane v e = BitVec.ofNat 32 (b32Pick false (wLane x.a e).toNat (wLane x.b e).toNat).1 ∧
      (isNan32 (wLane x.a e) ∨ isNan32 (wLane x.b e) → wLane v e = 0x7FC00000)) ∧
    (x = s.vIn 0x46 t w → WordRuns s 0x46 t w → WritesVd (.frcpS t w) s t w fun v => ∀ e, e < 64 →
      wLane v e = BitVec.ofNat 32 (b32Rcp (wLane x.a e).toNat).1 ∧
      (isNan32 (wLane x.a e) → wLane v e = 0x7FC00000)) ∧
    (x = s.vIn 0x47 t w → WordRuns s 0x47 t w → WritesVd (.fexp2S t w) s t w fun v => ∀ e, e < 64 →
      wLane v e = BitVec.ofNat 32 (b32Exp2 (wLane x.a e).toNat).1 ∧
      (isNan32 (wLane x.a e) → wLane v e = 0x7FC00000))) ∧
  (∀ (s : State) (t : VAt) (w : VW) (x : VIn),
    (x = s.vIn 0x48 t w → WordRuns s 0x48 t w → WritesVd (.faddB t w) s t w fun v => ∀ e, e < 128 →
      hLane v e = BitVec.ofNat 16 (bfOp2 Machine.Num.add (hLane x.a e).toNat (hLane x.b e).toNat).1) ∧
    (x = s.vIn 0x49 t w → WordRuns s 0x49 t w → WritesVd (.fsubB t w) s t w fun v => ∀ e, e < 128 →
      hLane v e = BitVec.ofNat 16 (bfOp2 (fun y z => y.add z.neg) (hLane x.a e).toNat (hLane x.b e).toNat).1) ∧
    (x = s.vIn 0x4A t w → WordRuns s 0x4A t w → WritesVd (.fmulB t w) s t w fun v => ∀ e, e < 128 →
      hLane v e = BitVec.ofNat 16 (bfOp2 Machine.Num.mul (hLane x.a e).toNat (hLane x.b e).toNat).1) ∧
    (x = s.vIn 0x4B t w → WordRuns s 0x4B t w → WritesVd (.ffmaB t w) s t w fun v => ∀ e, e < 128 →
      hLane v e = BitVec.ofNat 16 (bfFma (hLane x.a e).toNat (hLane x.b e).toNat (hLane x.d e).toNat).1) ∧
    (x = s.vIn 0x4C t w → WordRuns s 0x4C t w → WritesVd (.fcvtSx t w) s t w fun v => ∀ e, e < 64 →
      wLane v e = BitVec.ofNat 32 (cvtSx w.ovf w.x5.toNat (wLane x.a e).toNat).1 ∧
      (isNan32 (wLane x.a e) → wLane v e = 0)) ∧
    (x = s.vIn 0x4D t w → WordRuns s 0x4D t w → WritesVd (.fcvtXs t w) s t w fun v => ∀ e, e < 64 →
      wLane v e = BitVec.ofNat 32 (fB32.conv w.ovf (.ofInt (wLane x.a e).toInt (-(w.x5.toNat : Int)))).1) ∧
    (x = s.vIn 0x4E t w → WordRuns s 0x4E t w → WritesVd (.fcvtSb t w) s t w fun v => ∀ i, i < 64 →
      hLane v (2 * i) = BitVec.ofNat 16 (cvtSb w.ovf (wLane x.a i).toNat).1 ∧
      hLane v (2 * i + 1) = BitVec.ofNat 16 (cvtSb w.ovf (wLane x.b i).toNat).1) ∧
    (x = s.vIn 0x4F t w → WordRuns s 0x4F t w → WritesVd (.fcvtBs t w) s t w fun v => ∀ i, i < 64 →
      wLane v i = BitVec.ofNat 32 (fB32.conv true (fBf16.dec (hLane x.a (2 * i + w.acc.toNat)).toNat)).1) ∧
    (x = s.vIn 0x50 t w → WordRuns s 0x50 t w → WritesVd (.fcvtHs t w) s t w fun v => ∀ i, i < 64 →
      wLane v i = BitVec.ofNat 32
        (fB32.conv w.ovf (.ofInt (hLane x.a (2 * i + w.acc.toNat)).toInt (-(w.x5.toNat : Int)))).1))

/-- R177 to R180, R182: the words that steer a pattern: they change no register but VSTAT's, no accumulator and no memory. A
set-up word acts on its pointer before the word's own updates; PRESS puts pending lengths in force; VSTAT returns the status
words and clears the pointer bits it returns.

R177: where a word without a loop end is done, the next word is the one after it. -/
def Obligations.TileControlWords : Prop :=
  (∀ (s : State) (t : VAt) (w : VW) (c : VCore), c = s.vcore t →
    (WordRuns s 0x00 t w → WritesCore (.nop t w) s t fun _ => True) ∧
    (WordRuns s 0x03 t w → WritesCore (.fence t w) s t fun _ => True) ∧
    (WordRuns s 0x01 t w → WritesCore (.rep t w) s t fun d => d.next = c.next + 1 ∧
      tfind d.loops w.lvl.toNat = some { start := c.next + 1, left := w.imm16.toNat } ∧
      ∀ n, n ≠ w.lvl.toNat → tfind d.loops n = tfind c.loops n) ∧
    (WordRuns s 0x04 t w → WritesCore (.press t w) s t fun d => ∀ n, n < 16 → (d.pt n).pend = none ∧
      (d.pt n).len = ((c.pt n).pend).getD (c.pt n).len ∧ (d.pt n).base = (c.pt n).base) ∧
    (WordRuns s 0x08 t w → WritesCore (.pbase t w) s t fun d => ∀ n, d.pt n =
      ((c.setPt w.vd.toNat { c.pt w.vd.toNat with base := w.imm16.toNat * 4 }).updates w).pt n) ∧
    (WordRuns s 0x09 t w → WritesCore (.plen t w) s t fun d => ∀ n, d.pt n =
      ((c.setPt w.vd.toNat { c.pt w.vd.toNat with pend := some (w.imm16.toNat * 4) }).updates w).pt n) ∧
    (WordRuns s 0x0A t w → WritesCore (.pstride t w) s t fun d => ∀ n, d.pt n =
      ((c.setPt w.vd.toNat { c.pt w.vd.toNat with stride := w.imm16.toInt }).updates w).pt n) ∧
    (WordRuns s 0x0B t w → WritesCore (.psetp t w) s t fun d => ∀ n, d.pt n =
      ((c.setPt w.vd.toNat { c.pt w.vd.toNat with p := (c.pt w.vd.toNat).reduce (w.imm16.toInt * 4) }).updates w).pt n) ∧
    (WordRuns s 0x0C t w → (WritesVd (.vstat t w) s t w fun v =>
        v = BitVec.ofNat 2048 (c.fp + c.xstat * 2 ^ 8 + c.pwrap.toNat * 2 ^ 16)) ∧
      Runs (.vstat t w) s fun u => (u.vcore t).pwrap = 0 ∧ (u.vcore t).xstat = c.xstat ∧ (u.vcore t).fp = c.fp)) ∧
  (∀ (s : State) (t : VAt) (w : VW) (i : Instr), w.lend = 0 → ((i = .nop t w ∧ WordRuns s 0x00 t w) ∨
      (i = .vmovi t w ∧ WordRuns s 0x14 t w) ∨ (i = .vaddH t w ∧ WordRuns s 0x20 t w) ∨
      (i = .faddS t w ∧ WordRuns s 0x40 t w)) →
    Runs i s fun u => (u.vcore t).next = (s.vcore t).next + 1 ∧ (u.vcore t).loops = (s.vcore t).loops ∧
      (s.vAt t).time.now < (u.vAt t).time.now)

/-- R152, R156, R181, R182, R190, R191, R203, R205: HALT writes its record and has the tile rinsed, its context to be CREATED; KADD
sends its value to the knot; a wait that is met goes on, another one makes the context WAITING; SISSUE starts the stream.

R183: a word that the pattern may not hold, or an access that is misaligned or outside the declared memory, halts the context:
a record with the status, the tile to be rinsed, the context to be FAILED; nothing of the word's result is written. -/
def Obligations.TileOutwardWords : Prop :=
  (∀ (s : State) (t : VAt) (w : VW) (c : Nat) (y : Ctx), (s.die t.die).resident .vector t.tile = some (c, y) →
    (WordRuns s 0x02 t w → y.ring.length < 256 →
      Runs (.halt t w) s fun u => OtherDies s u t.die ∧ ((u.die t.die).tileOcc .vector t.tile).phase = .rinsing ∧
        ((u.die t.die).tileOcc .vector t.tile).after = some .created ∧
        (u.die t.die).knotNet = (s.die t.die).knotNet ++ (if w.lvl = 1 then [.add w.imm16.toNat 1] else []) ∧
        ∃ z, (u.die t.die).ctx c = some z ∧ z.ring = y.ring ++ [⟨0, .ok, (s.vcore t).fp⟩]) ∧
    (WordRuns s 0x05 t w → Runs (.kadd t w) s fun u => OtherDies s u t.die ∧ u.queues = s.queues ∧
      (u.die t.die).knotNet = (s.die t.die).knotNet ++
        [.add w.imm16.toNat (((s.vcore t).reg w.vd.toNat).extractLsb' 0 64)] ∧
      (u.die t.die).knots = (s.die t.die).knots) ∧
    (WordRuns s 0x06 t w → ((s.die t.die).knot w.imm16.toNat).tied = true →
      (((s.vcore t).reg w.vd.toNat).extractLsb' 0 64 ≤ ((s.die t.die).knot w.imm16.toNat).value →
        Runs (.kwait t w) s fun u => TileOnly s u t) ∧
      (((s.die t.die).knot w.imm16.toNat).value < ((s.vcore t).reg w.vd.toNat).extractLsb' 0 64 →
        ((s.die t.die).knot w.imm16.toNat).waits.length < 1024 →
        Runs (.kwait t w) s fun u => OtherDies s u t.die ∧ u.queues = s.queues ∧
          ((u.die t.die).knot w.imm16.toNat).waits = ((s.die t.die).knot w.imm16.toNat).waits ++
            [(c, ((s.vcore t).reg w.vd.toNat).extractLsb' 0 64)] ∧
          ∃ z, (u.die t.die).ctx c = some z ∧ z.st = .waiting)) ∧
    (∀ n q, WordRuns s 0x07 t w → y.streams[w.x5.toNat]? = some n → tfind (s.die t.die).streams n = some q → q.cur = none →
      (s.die t.die).streamOk y (unitOf (s.vIn 0x07 t w).b0) = true →
      Runs (.sissue t w) s fun u => OtherDies s u t.die ∧ u.queues = s.queues ∧
        tfind (u.die t.die).streams n = some { q with cur := some (SRun.start (unitOf (s.vIn 0x07 t w).b0)) } ∧
        (u.die t.die).ctx c = some y)) ∧
  (∀ (s : State) (t : VAt) (w : VW) (c : Nat) (y : Ctx) (st : Status) (i : Instr) (op : Nat),
    (s.die t.die).resident .vector t.tile = some (c, y) → y.ring.length < 256 →
    ((i = .vld t w ∧ op = 0x10) ∨ (i = .vst t w ∧ op = 0x11) ∨ (i = .vaddH t w ∧ op = 0x20) ∨ (i = .faddS t w ∧ op = 0x40)) →
    s.vUnits t = true → s.vReady op t w = true → t.err = 0 → (s.vcore t).stop y.tenant y.declared op w = some st →
    (st = .badOpcode ∨ st = .badParam) ∧
    Runs i s fun u => OtherDies s u t.die ∧ (u.die t.die).vtiles = (s.die t.die).vtiles ∧
      ((u.die t.die).tileOcc .vector t.tile).phase = .rinsing ∧
      ((u.die t.die).tileOcc .vector t.tile).after = some .failed ∧
      ∃ z, (u.die t.die).ctx c = some z ∧ z.ring = y.ring ++ [⟨0, st, (s.vcore t).fp⟩] ∧ z.failSt = st)

/-! ## The machine as a whole -/

/-- The commands that wait run first in, first out: a step with `c` at the front runs `c` with the rest of the queue, and an empty
queue idles (log entry 6; the queue is the model's own). -/
def Obligations.StepTakesFrontCommand : Prop :=
  (∀ (c : Instr) (s : State), step { s with pending := c :: s.pending } = exec c s) ∧
  ∀ s : State, s.pending = [] → step s = .next s

/-- R390, R48, R214, R236, R283, R384: the state after package reset: P is the variant's limit and R 5,000 mW; every queue is DISABLED; no
tenant, model, sequence or dispatch exists; CFG_DONE and PWR_OK are low; no die controller runs and every region is
UNCONFIGURED; the mover has its default marks and ACLK its top step. -/
def Obligations.ResetFollowsSpec : Prop :=
  State.reset.psi.pMw = State.reset.part.variant.limitMw ∧ State.reset.psi.rMw = 5000 ∧
  (∀ q, (State.reset.queue q).st = .disabled) ∧
  (State.reset.tenants = [] ∧ State.reset.models = [] ∧ State.reset.seqs = [] ∧ State.reset.disps = []) ∧
  (State.reset.pins.cfgDone = false ∧ State.reset.pins.pwrOk = false ∧ State.reset.pending = []) ∧
  ∀ d, State.reset.live d = false ∧ (∀ r, ((State.reset.die d).fabric r).st = .unconfigured) ∧
    (State.reset.die d).lowMark = 2048 ∧ (State.reset.die d).highMark = 8192 ∧ (State.reset.die d).hotMark = 8 ∧
    (State.reset.die d).led.step = 0

/-- R390, R420: what every step keeps of Psiurn holds right after package reset. -/
def Obligations.PsiurnIsSoundAtReset : Prop := State.reset.psi.Sound State.reset.part

/-- R390, R420, R425: whatever command is at the front of the queue, a step keeps the minimums in 0 to 63, the entries in the key
store's places, the flash in canonical form, and P and R within their limits. -/
def Obligations.StepKeepsPsiurnSound : Prop :=
  ∀ s t : State, s.psi.Sound s.part → step s = .next t → t.psi.Sound t.part

/-- R420, R425, R427, R429: no command, a package reset and a fatal error among them, changes or removes a signing entry or an image
key that is written, or lowers a minimum; and a signing entry is written by the identity record alone, an image key by KEY_LOAD of
an image key alone, a minimum by FW_UPDATE alone. -/
def Obligations.WrittenKeysStay : Prop :=
  ∀ (c : Instr) (s t : State), exec c s = .next t →
    (∀ n e, tfind s.psi.signing n = some e → tfind t.psi.signing n = some e) ∧
    (∀ n k, tfind s.psi.imageKeys n = some k → tfind t.psi.imageKeys n = some k) ∧
    s.psi.fwMin ≤ t.psi.fwMin ∧ s.psi.cfgMin ≤ t.psi.cfgMin ∧
    ((∀ p l, c ≠ .keyLoadIdentityRecord p l) → t.psi.signing = s.psi.signing) ∧
    ((∀ p n k, c ≠ .keyLoadImageKey p n k) → t.psi.imageKeys = s.psi.imageKeys) ∧
    ((∀ p v, c ≠ .fwUpdateRaiseFwMin p v) → t.psi.fwMin = s.psi.fwMin) ∧
    ((∀ p v, c ≠ .fwUpdateRaiseCfgMin p v) → t.psi.cfgMin = s.psi.cfgMin)

/-- R11, R417: no command changes what part the package is, or the queue of the commands that wait (the model's own). -/
def Obligations.CommandsKeepPartAndQueue : Prop :=
  ∀ (c : Instr) (s t : State), exec c s = .next t → t.part = s.part ∧ t.pending = s.pending

/-- R221, R224, R225, R229 (Table 9-13): an opcode always answers a next state; where its packet is not a started packet of that
opcode whose work is still to begin, it has no effect (log entry 14); on a queue that may not carry it, or that is bound to another
tenant, it is refused with AUTH_FAIL, and that reply is its only effect. -/
def Obligations.OpcodesNeedPermission : Prop :=
  ∀ (c : Instr) (code : Nat) (perm : Perm) (p : Pkt) (s : State), opcodeOf c = some (code, perm, p) →
    (∃ t, exec c s = .next t) ∧ (s.due code p = false → exec c s = .next s) ∧
    (s.due code p = true → s.permitted perm p = false → Runs c s fun t => OnlyReplies s t ∧ (OnQueue s p → Refuses s t code p .authFail 0))

/-! ## Two rules word for word -/

/-- R278: the checks after the last body byte, in their order: the digest of the body as it was sent, the tag of an encrypted image
under the key that it names, and the CRC of the whole image; and a region whose image fails one of them is not released (its session
ends and it is UNCONFIGURED). The padding that R275 asks for is in place. -/
def Obligations.ImageChecksInOrder : Prop :=
  (∀ (h trailer img stored : List Byte) (key : Option (BitVec 256)), zeroAt trailer 16 44 = true →
    (imgEncrypted h = true ∨ zeroAt trailer 0 16 = true) → stored = (img.drop 7424).take (imgBodyLen h) →
    (fieldAt h 52 48 ≠ (Config.sha384 stored).toNat → imgEnd h trailer img key = some Status.authFail) ∧
    (fieldAt h 52 48 = (Config.sha384 stored).toNat → imgEncrypted h = true →
      (∀ k, key = some k → fieldAt trailer 0 16 ≠ (Config.gcmTag k (imgNonce h) (h.take 2048) stored).toNat) →
      imgEnd h trailer img key = some Status.authFail) ∧
    (fieldAt h 52 48 = (Config.sha384 stored).toNat →
      (imgEncrypted h = false ∨ ∃ k, key = some k ∧
        fieldAt trailer 0 16 = (Config.gcmTag k (imgNonce h) (h.take 2048) stored).toNat) →
      imgEnd h trailer img key =
        if fieldAt trailer 60 4 = (crc32c (img.take (img.length - 4))).toNat then none else some Status.imageCrc)) ∧
  (∀ (s : State) (p : Pkt) (a : RAt) (tenant off len : Nat) (data : List Byte) (chk : ImgChk) (q : Session),
    s.due 0x0401 p = true → s.permitted .m p = true → firstOf (s.loadNames a (some tenant)) = none →
    s.loadWaits a.die a.region = false → ((s.die a.die).fabric a.region).session = some q →
    firstOf (partChecks ((s.die a.die).fabric a.region) p true off len data) = none →
    (s.bodyHere a q (q.bytes ++ data) chk).ended = none →
    (∃ st, imgEnd ((q.bytes ++ data).take 2048) ((q.bytes ++ data).drop (7424 + imgBodyLen ((q.bytes ++ data).take 2048)))
        (q.bytes ++ data) (s.imgKey ((q.bytes ++ data).take 2048)) = some st) →
    Runs (.fabricLoadPart p a tenant true off len data chk) s fun t =>
      ((t.die a.die).fabric a.region).session = none ∧ ((t.die a.die).fabric a.region).st = .unconfigured)

/-- R295: a word with an uncorrectable error sets `dbl_seen` and DN_FRAME, raises DN_UNCORRECTED and raises a region event with the
frame's address; with `dbl_isolate`, which is set by default, the region is isolated and UNCONFIGURED, without it the region runs
on. -/
def Obligations.UncorrectableWords : Prop :=
  bitAt (pwReset 0x3000) 2 = true ∧
  ∀ (s : State) (d a : Nat) (e : DarnErr), s.live d = true → (s.die d).scanning = true → (s.die d).errsOk d [e] = true →
    e.dbl = true → ((s.die d).region e.region).isolated = false →
    a = scanAddr d e.region (tget (s.die d).darner.at_ e.region 0) →
    Runs (.darnerScan d true [e]) s fun t => (t.die d).darner.dblSeen = true ∧
      (t.die d).darner.frame = BitVec.ofNat 32 a ∧
      tget (t.die d).ctrs (ctrKey dnUncorrected.kind 0 dnUncorrected.idx) 0 =
        (tget (s.die d).ctrs (ctrKey dnUncorrected.kind 0 dnUncorrected.idx) 0 + 1) % 2 ^ 32 ∧
      (∃ v, v ∈ t.raised ∧ v.code = 0x0032 ∧ v.die = d ∧ v.region = e.region ∧ v.arg0 = a) ∧
      (bitAt ((s.die d).regv 0x3000) 2 = true → ((t.die d).region e.region).isolated = true ∧
        ((t.die d).fabric e.region).st = .unconfigured) ∧
      (bitAt ((s.die d).regv 0x3000) 2 = false → (t.die d).region e.region = (s.die d).region e.region ∧
        (t.die d).fabric e.region = (s.die d).fabric e.region)
end

