-- ==== Sys2Proof/Laws/Keeps.lean ====
section
/-! SUPPORT. What the operations never touch: the queue of waiting commands, the part, and what stands in Psiurn's store (keys, minimums,
flash, limits). One lemma `<operation>_kept` per shared operation and per command's effect, in the order they call one another. The
operations that do write a part of it are left out, or say what they write (`packageReset`, `leaveReset`). -/

namespace Sys2Proof.Machine

/-- The part of Psiurn that few commands write: R390 (limits), R420 (key store, minimums), R421 (flash). -/
def Psiurn.kept (y : Psiurn) := (y.signing, y.imageKeys, y.fwMin, y.cfgMin, y.flash, y.pMw, y.rMw)

/-- What almost no operation writes: the waiting commands, the part, and `Psiurn.kept`. -/
def State.kept (s : State) := (s.pending, s.part, s.psi.kept)

theorem State.kept_eq_iff (s t : State) : t.kept = s.kept ↔ t.pending = s.pending ∧ t.part = s.part ∧ t.psi.kept = s.psi.kept := by
  simp [State.kept]

theorem Psiurn.kept_eq_iff (x y : Psiurn) : y.kept = x.kept ↔
    y.signing = x.signing ∧ y.imageKeys = x.imageKeys ∧ y.fwMin = x.fwMin ∧ y.cfgMin = x.cfgMin ∧ y.flash = x.flash ∧
      y.pMw = x.pMw ∧ y.rMw = x.rMw := by
  simp [Psiurn.kept]

@[simp] theorem State.kept_update (s : State) {x2 x4 x5 x6 x7 x8 x9 x10 x11 x12 x13 x14 x15 x16 x17 x18 x19 x20 x21} :
      (State.mk s.pending s.part x2 s.psi x4 x5 x6 x7 x8 x9 x10 x11 x12 x13 x14 x15 x16 x17 x18 x19 x20 x21).kept = s.kept :=
      rfl

@[simp] theorem State.kept_update_psi (s : State) {x2 x4 x5 x6 x7 x8 x9 x10 x11 x12 x13 x14 x15 x16 x17 x18 x19 x20 x21 y0 y1
      y2 y3 y4 y5 y6 y7 y8 y10 y11 y15 y17 y18 y19 y22 y23} : (State.mk s.pending s.part x2 (Psiurn.mk y0 y1 y2 y3 y4 y5 y6
      y7 y8 s.psi.signing y10 y11 s.psi.imageKeys s.psi.fwMin s.psi.cfgMin y15 s.psi.flash y17 y18 y19 s.psi.pMw s.psi.rMw
      y22 y23) x4 x5 x6 x7 x8 x9 x10 x11 x12 x13 x14 x15 x16 x17 x18 x19 x20 x21).kept = s.kept := rfl

@[simp] theorem Psiurn.kept_update (y : Psiurn) {y0 y1 y2 y3 y4 y5 y6 y7 y8 y10 y11 y15 y17 y18 y19 y22 y23} : (Psiurn.mk y0
      y1 y2 y3 y4 y5 y6 y7 y8 y.signing y10 y11 y.imageKeys y.fwMin y.cfgMin y15 y.flash y17 y18 y19 y.pMw y.rMw y22
      y23).kept = y.kept := rfl

theorem State.foldl_kept {α : Type} (g : State → α → State) (h : ∀ s a, (g s a).kept = s.kept) (l : List α) (s : State) :
    (l.foldl g s).kept = s.kept := by
  induction l generalizing s with
  | nil => rfl
  | cons a r ih => rw [List.foldl_cons, ih, h]

theorem State.foldl_fst_kept {α β : Type} (g : State × β → α → State × β) (h : ∀ p a, (g p a).1.kept = p.1.kept) (l : List α)
    (p : State × β) : (l.foldl g p).1.kept = p.1.kept := by
  induction l generalizing p with
  | nil => rfl
  | cons a r ih => rw [List.foldl_cons, ih, h]

theorem State.foldl_snd_kept {α β : Type} (g : β × State → α → β × State) (h : ∀ p a, (g p a).2.kept = p.2.kept) (l : List α)
    (p : β × State) : (l.foldl g p).2.kept = p.2.kept := by
  induction l generalizing p with
  | nil => rfl
  | cons a r ih => rw [List.foldl_cons, ih, h]

theorem State.setDie_kept (s : State) (d : Nat) (x : Die) : (State.setDie s d x).kept = s.kept := by
  unfold State.setDie
  repeat' first
    | with_reducible rfl
    | simp only [State.kept_update]

theorem State.modDie_kept (s : State) (d : Nat) (f : Die → Die) : (State.modDie s d f).kept = s.kept := by
  unfold State.modDie
  repeat' first
    | with_reducible rfl
    | simp only [State.setDie_kept]

theorem State.setQueue_kept (s : State) (q : Nat) (x : Queue) : (State.setQueue s q x).kept = s.kept := by
  unfold State.setQueue
  repeat' first
    | with_reducible rfl
    | simp only [State.kept_update]

theorem State.modQueue_kept (s : State) (q : Nat) (f : Queue → Queue) : (State.modQueue s q f).kept = s.kept := by
  unfold State.modQueue
  repeat' first
    | with_reducible rfl
    | simp only [State.setQueue_kept]

theorem State.modFunc_kept (s : State) (f : Nat) (g : Func → Func) : (State.modFunc s f g).kept = s.kept := by
  unfold State.modFunc
  repeat' first
    | with_reducible rfl
    | simp only [State.kept_update]

theorem State.freeNat_kept (s : State) : (State.freeNat s).2.kept = s.kept := by
  unfold State.freeNat
  repeat' first
    | with_reducible rfl
    | simp only [State.kept_update]

theorem State.emit_kept (s : State) (e : Event) : (State.emit s e).kept = s.kept := by
  unfold State.emit
  repeat' first
    | with_reducible rfl
    | simp only [State.kept_update, State.freeNat_kept]
    | split

theorem State.fence_kept (s : State) (d kind unit cause : Nat) (region : Option Nat) : (State.fence s d kind unit cause
      region).kept = s.kept := by
  unfold State.fence
  repeat' first
    | with_reducible rfl
    | simp only [State.emit_kept, State.modDie_kept]
    | split

theorem State.unfence_kept (s : State) (d kind unit : Nat) (region : Option Nat) : (State.unfence s d kind unit region).kept =
      s.kept := by
  unfold State.unfence
  repeat' first
    | with_reducible rfl
    | simp only [State.emit_kept, State.modDie_kept]

theorem State.correctedIn_kept (s : State) (win d kind unit n report : Nat) (fenceAt region : Option Nat) :
    (State.correctedIn s win d kind unit n report fenceAt region).kept = s.kept := by
  unfold State.correctedIn
  dsimp only
  repeat' split
  all_goals simp only [State.fence_kept, State.emit_kept, State.modDie_kept]

theorem State.corrected_kept (s : State) (d kind unit n report : Nat) (fenceAt : Option Nat) (region : Option Nat) :
    (State.corrected s d kind unit n report fenceAt region).kept = s.kept := by
  unfold State.corrected
  repeat' first
    | with_reducible rfl
    | simp only [State.correctedIn_kept]

theorem State.tick_kept (s : State) : (State.tick s).2.kept = s.kept := by
  unfold State.tick
  repeat' first
    | with_reducible rfl
    | simp only [State.kept_update]

theorem State.addReplies_kept (s : State) (q : Nat) (l : List Reply) : (State.addReplies s q l).kept = s.kept := by
  unfold State.addReplies
  repeat' first
    | with_reducible rfl
    | simp only [State.kept_update_psi, State.modQueue_kept]
    | split

theorem State.complete_kept (s : State) (p : Pkt) :
    (State.complete s p).kept = s.kept := by
  unfold State.complete
  repeat' first
    | with_reducible rfl
    | simp only [State.kept_update_psi, State.modQueue_kept]
    | split

theorem State.finishMany_kept (s : State) (code : Nat) (p : Pkt) (st : Status) (detail : Nat)
    (parts : List (List Byte × List Byte)) : (State.finishMany s code p st detail parts).kept = s.kept := by
  unfold State.finishMany
  extract_lets s1 n
  split
  · exact State.complete_kept ..
  · exact (State.addReplies_kept ..).trans (State.complete_kept ..)

theorem State.finish_kept (s : State) (code : Nat) (p : Pkt) (st : Status) (detail : Nat) (params payload : List Byte) :
      (State.finish s code p st detail params payload).kept = s.kept := by
  unfold State.finish
  repeat' first
    | with_reducible rfl
    | simp only [State.finishMany_kept]

theorem State.refuse_kept (s : State) (code : Nat) (p : Pkt) (st : Status) (detail : Nat) : (State.refuse s code p st detail).kept
      = s.kept := by
  unfold State.refuse
  repeat' first
    | with_reducible rfl
    | simp only [State.finish_kept]

theorem State.ok_kept (s : State) (code : Nat) (p : Pkt) : (State.ok s code p).kept = s.kept := by
  unfold State.ok
  repeat' first
    | with_reducible rfl
    | simp only [State.finish_kept]

theorem State.decide1_kept (s : State) (code : Nat) (p : Pkt) (chk : Option (Status × Nat)) (t : State)
    (h : t.kept = s.kept) : (State.decide1 s code p chk t).kept = s.kept := by
  unfold State.decide1
  split
  · exact h
  · exact State.refuse_kept ..

theorem State.park_kept (s : State) (i : Instr) : (State.park s i).kept = s.kept := by
  unfold State.park
  repeat' first
    | with_reducible rfl
    | simp only [State.kept_update]

theorem State.modSeq_kept (s : State) (n : Nat) (f : Sequence → Sequence) : (State.modSeq s n f).kept = s.kept := by
  unfold State.modSeq
  repeat' first
    | with_reducible rfl
    | simp only [State.kept_update]
    | split

theorem State.loseSeq_kept (s : State) (byIdle : Bool) (n : Nat) : (State.loseSeq s byIdle n).kept = s.kept := by
  unfold State.loseSeq
  repeat' first
    | with_reducible rfl
    | simp only [State.emit_kept, State.modSeq_kept]
    | split

theorem State.markGone_kept (s : State) (d : Nat) (hs : List Nat) (st : SheetState) (byIdle : Bool) : (State.markGone s d hs st
      byIdle).kept = s.kept := by
  unfold State.markGone
  repeat' first
    | with_reducible rfl
    | simp only [State.setDie_kept, State.loseSeq_kept]
    | (refine (State.foldl_kept _ ?_ _ _).trans ?_; intros)

theorem State.closeSeq_kept (s : State) (n : Nat) : (State.closeSeq s n).kept = s.kept := by
  unfold State.closeSeq
  repeat' first
    | with_reducible rfl
    | simp only [State.kept_update, State.modDie_kept]

theorem State.settleKey_kept (s : State) (k : Pkt × Nat × List Nat) : (State.settleKey s k).kept = s.kept := by
  unfold State.settleKey
  repeat' first
    | with_reducible rfl
    | simp only [State.kept_update, State.ok_kept, State.modDie_kept]
    | (refine (State.foldl_kept _ ?_ _ _).trans ?_; intros)
    | split

theorem State.settleKeys_kept (s : State) : (State.settleKeys s).kept = s.kept := by
  unfold State.settleKeys
  repeat' first
    | with_reducible rfl
    | simp only [State.kept_update, State.settleKey_kept]
    | (refine (State.foldl_kept _ ?_ _ _).trans ?_; intros)

theorem State.modCtx_kept (s : State) (d c : Nat) (f : Ctx → Ctx) : (State.modCtx s d c f).kept = s.kept := by
  unfold State.modCtx
  repeat' first
    | with_reducible rfl
    | simp only [State.modDie_kept]

theorem State.writeRec_kept (s : State) (d c : Nat) (r : CRec) : (State.writeRec s d c r).kept = s.kept := by
  unfold State.writeRec
  repeat' first
    | with_reducible rfl
    | simp only [State.modCtx_kept]

theorem State.failServed_kept (s : State) (d c : Nat) (st : Status) (only : Option Nat) :
    (State.failServed s d c st only).kept = s.kept := by
  unfold State.failServed
  repeat' first
    | with_reducible rfl
    | simp only [State.kept_update]
    | split

theorem State.drained_kept (s : State) (d c : Nat) (l : List CRec) : (State.drained s d c l).kept = s.kept := by
  unfold State.drained
  repeat' first
    | with_reducible rfl
    | simp only [State.kept_update]
    | split

theorem State.endCtx_kept (s : State) (d c : Nat) (st : Status) : (State.endCtx s d c st).kept = s.kept := by
  unfold State.endCtx
  repeat' first
    | with_reducible rfl
    | simp only [State.kept_update, State.modCtx_kept, State.drained_kept]
    | split

theorem State.sendAdd_kept (s : State) (d k : Nat) (n : BitVec 64) : (State.sendAdd s d k n).kept = s.kept := by
  unfold State.sendAdd
  repeat' first
    | with_reducible rfl
    | simp only [State.modDie_kept]

theorem State.endDesc_kept (s : State) (d ctx : Nat) (desc : BitVec 512) (st : Status) (fp : Nat) (checked : Bool) (only : Option Nat) :
    (State.endDesc s d ctx desc st fp checked only).kept = s.kept := by
  unfold State.endDesc
  repeat' first
    | with_reducible rfl
    | simp only [State.writeRec_kept, State.failServed_kept, State.sendAdd_kept]
    | split

theorem State.preempt_kept (s : State) (d c : Nat) : (State.preempt s d c).kept = s.kept := by
  unfold State.preempt
  repeat' first
    | with_reducible rfl
    | simp only [State.modDie_kept]
    | split

theorem State.makeReady_kept (s : State) (d c : Nat) : (State.makeReady s d c).kept = s.kept := by
  unfold State.makeReady
  repeat' first
    | with_reducible rfl
    | simp only [State.modCtx_kept, State.preempt_kept, State.tick_kept]

theorem State.haltOn_kept (s : State) (d : Nat) (k : TileKind) (t : Nat) (st : Status) : (State.haltOn s d k t st).kept = s.kept :=
      by
  unfold State.haltOn
  repeat' first
    | with_reducible rfl
    | simp only [State.modDie_kept, State.modCtx_kept]
    | split

theorem State.wakeCtx_kept (s : State) (d c : Nat) : (State.wakeCtx s d c).kept = s.kept := by
  unfold State.wakeCtx
  repeat' first
    | with_reducible rfl
    | simp only [State.makeReady_kept, State.modCtx_kept]
    | split

theorem State.knotAddNow_kept (s : State) (d k : Nat) (n : BitVec 64) : (State.knotAddNow s d k n).kept = s.kept := by
  unfold State.knotAddNow
  repeat' first
    | with_reducible rfl
    | simp only [State.finish_kept, State.wakeCtx_kept, State.modDie_kept]
    | (refine (State.foldl_kept _ ?_ _ _).trans ?_; intros)
    | split

theorem State.orphan_kept (s : State) (d c : Nat) (st : Status) : (State.orphan s d c st).kept = s.kept := by
  unfold State.orphan
  repeat' first
    | with_reducible rfl
    | simp only [State.endCtx_kept, State.modDie_kept, State.modCtx_kept, State.haltOn_kept, State.writeRec_kept]
    | split

theorem State.untieOne_kept (s : State) (d k : Nat) : (State.untieOne s d k).1.kept = s.kept := by
  unfold State.untieOne
  repeat' first
    | with_reducible rfl
    | simp only [State.orphan_kept, State.finish_kept, State.modDie_kept]
    | (refine (State.foldl_kept _ ?_ _ _).trans ?_; intros)

theorem State.unwind_kept (d n : Nat) (l : List Nat) (s : State) : (State.unwind d n l s).kept = s.kept := by
  induction n generalizing l s with
  | zero => cases l <;> rfl
  | succ n ih =>
    cases l with
    | nil => rfl
    | cons c r =>
      rw [State.unwind, ih]
      exact State.foldl_fst_kept (fun (p : State × List Nat) (k : Nat) => ((p.1.untieOne d k).1, p.2 ++ (p.1.untieOne d k).2))
        (fun p k => State.untieOne_kept ..) _ _

theorem State.loseOwner_kept (s : State) (d c : Nat) : (State.loseOwner s d c).kept = s.kept :=
  State.unwind_kept ..

theorem State.untie_kept (s : State) (d k : Nat) : (State.untie s d k).kept = s.kept := by
  rw [State.untie, State.unwind_kept, State.untieOne_kept]

theorem State.failCtx_kept (s : State) (d c : Nat) (st : Status) : (State.failCtx s d c st).kept = s.kept := by
  unfold State.failCtx
  repeat' first
    | with_reducible rfl
    | simp only [State.endCtx_kept, State.modCtx_kept, State.modDie_kept, State.loseOwner_kept]

theorem State.failOn_kept (s : State) (d : Nat) (k : TileKind) (t : Nat) (st : Status) : (State.failOn s d k t st).kept = s.kept :=
      by
  unfold State.failOn
  repeat' first
    | with_reducible rfl
    | simp only [State.modDie_kept, State.failCtx_kept]
    | split

theorem State.destroyCtx_kept (s : State) (d c : Nat) (st : Status) : (State.destroyCtx s d c st).kept = s.kept := by
  unfold State.destroyCtx
  repeat' first
    | with_reducible rfl
    | simp only [State.loseOwner_kept, State.modDie_kept, State.endCtx_kept]
    | split

theorem State.endSession_kept (s : State) (d r : Nat) (st : Status) (detail : Nat) (now : Option Pkt) : (State.endSession s d r st
      detail now).kept = s.kept := by
  unfold State.endSession
  repeat' first
    | with_reducible rfl
    | simp only [State.finish_kept, State.modDie_kept]
    | split

theorem State.depart_kept (s : State) (d p : Nat) (left : LState) : (State.depart s d p left).kept = s.kept := by
  unfold State.depart
  repeat' first
    | with_reducible rfl
    | simp only [State.modDie_kept, State.emit_kept]

theorem State.linkDown_kept (s : State) (d p : Nat) : (State.linkDown s d p).kept = s.kept := by
  unfold State.linkDown
  repeat' first
    | with_reducible rfl
    | simp only [State.depart_kept, State.modDie_kept]
    | split

theorem State.linkDetect_kept (s : State) (d p : Nat) (departs : Bool) : (State.linkDetect s d p departs).kept = s.kept := by
  unfold State.linkDetect
  repeat' first
    | with_reducible rfl
    | simp only [State.depart_kept, State.modDie_kept]
    | split

theorem State.feltClaim_kept (s : State) (d p : Nat) (claim : Bool) : (State.feltClaim s d p claim).kept = s.kept := by
  unfold State.feltClaim
  repeat' first
    | with_reducible rfl
    | simp only [State.linkDetect_kept, State.modDie_kept]
    | split

theorem State.feltPressed_kept (s : State) (d p : Nat) (was : Bool) : (State.feltPressed s d p was).kept = s.kept := by
  unfold State.feltPressed
  repeat' first
    | with_reducible rfl
    | simp only [State.linkDetect_kept, State.linkDown_kept]
    | split

theorem State.sendOut_kept (s : State) (d p : Nat) (q : FFrame) : (State.sendOut s d p q).kept = s.kept := by
  unfold State.sendOut
  repeat' first
    | with_reducible rfl
    | simp only [State.modDie_kept]
    | split

theorem State.makeAck_kept (s : State) (d n : Nat) : (State.makeAck s d n).1.kept = s.kept := by
  unfold State.makeAck
  repeat' first
    | with_reducible rfl
    | simp only [State.modDie_kept]
    | split

theorem State.resend_kept (s : State) (d n : Nat) : (State.resend s d n).1.kept = s.kept := by
  unfold State.resend
  repeat' first
    | with_reducible rfl
    | simp only [State.modDie_kept]
    | split

theorem State.takeData_kept (s : State) (p : Nat) (q : FFrame) : (State.takeData s p q).1.kept = s.kept := by
  unfold State.takeData
  repeat' first
    | with_reducible rfl
    | simp only [State.makeAck_kept, State.modDie_kept]
    | split

theorem State.takeAck_kept (s : State) (q : FFrame) : (State.takeAck s q).1.kept = s.kept := by
  unfold State.takeAck
  repeat' first
    | with_reducible rfl
    | simp only [State.resend_kept, State.modDie_kept]
    | split

theorem State.sendOne_kept (s : State) (q : Sent) : (State.sendOne s q).1.kept = s.kept := by
  unfold State.sendOne
  repeat' first
    | with_reducible rfl
    | simp only [State.sendOut_kept, State.takeAck_kept, State.takeData_kept]
    | split

theorem State.sendAll_kept (n : Nat) (s : State) (l : List Sent) : (State.sendAll s n l).kept = s.kept := by
  induction n generalizing l s with
  | zero => cases l <;> rfl
  | succ n ih =>
    cases l with
    | nil => rfl
    | cons c r =>
      rw [State.sendAll, ih, State.sendOne_kept]

theorem State.raiseVec_kept (s : State) (f v : Nat) : (State.raiseVec s f v).kept = s.kept := by
  unfold State.raiseVec
  repeat' first
    | with_reducible rfl
    | simp only [State.kept_update, State.modDie_kept, State.modFunc_kept]
    | split

theorem State.signal_kept (s : State) (q : Nat) (force : Bool) : (State.signal s q force).kept = s.kept := by
  unfold State.signal
  repeat' first
    | with_reducible rfl
    | simp only [State.modQueue_kept, State.raiseVec_kept]
    | split

theorem State.post_kept (s : State) (q : Nat) (e : RingEntry) (force : Bool) : (State.post s q e force).kept = s.kept := by
  unfold State.post
  repeat' first
    | with_reducible rfl
    | simp only [State.modQueue_kept, State.modDie_kept, State.signal_kept]

theorem State.postEvent_kept (s : State) (f : Nat) (n : BitVec 32) (e : Event) : (State.postEvent s f n e).kept = s.kept := by
  unfold State.postEvent
  repeat' first
    | with_reducible rfl
    | simp only [State.post_kept]
    | split

theorem State.routeEvent_kept (s : State) (e : Event) (f : Nat) : (State.routeEvent s e f).kept = s.kept := by
  unfold State.routeEvent
  repeat' first
    | with_reducible rfl
    | simp only [State.postEvent_kept, State.modFunc_kept]
    | split

theorem State.postHeld_kept (s : State) (f : Nat) : (State.postHeld s f).kept = s.kept := by
  unfold State.postHeld
  repeat' first
    | with_reducible rfl
    | simp only [State.freeNat_kept, State.modFunc_kept, State.postEvent_kept]
    | split

theorem State.withdrawWaits_kept (s : State) (q : Nat) : (State.withdrawWaits s q).kept = s.kept := by
  unfold State.withdrawWaits
  repeat' first
    | with_reducible rfl
    | simp only [State.kept_update, State.modQueue_kept]

theorem State.drainQueue_kept (s : State) (q : Nat) : (State.drainQueue s q).kept = s.kept := by
  unfold State.drainQueue
  repeat' first
    | with_reducible rfl
    | simp only [State.withdrawWaits_kept, State.modQueue_kept]
    | split

theorem State.endActs_kept (s : State) (d r : Nat) : (State.endActs s d r).kept = s.kept := by
  unfold State.endActs
  repeat' first
    | with_reducible rfl
    | simp only [State.modDie_kept, State.finish_kept]
    | (refine (State.foldl_kept _ ?_ _ _).trans ?_; intros)

theorem State.unconfigureRegion_kept (s : State) (d r : Nat) : (State.unconfigureRegion s d r).kept = s.kept := by
  unfold State.unconfigureRegion
  repeat' first
    | with_reducible rfl
    | simp only [State.modDie_kept, State.endSession_kept, State.endActs_kept]
    | split

theorem State.suspendRegion_kept (s : State) (d r : Nat) : (State.suspendRegion s d r).kept = s.kept := by
  unfold State.suspendRegion
  repeat' first
    | with_reducible rfl
    | simp only [State.kept_update]

theorem State.endArray_kept (s : State) (d t arr : Nat) (st : Status) :
    (State.endArray s d t arr st).kept = s.kept := by
  unfold State.endArray
  repeat' first
    | with_reducible rfl
    | simp only [State.endDesc_kept, State.modDie_kept]
    | (refine (State.foldl_kept _ ?_ _ _).trans ?_; intros)

theorem State.evictRegion_kept (s : State) (d r : Nat) :
    (State.evictRegion s d r).kept = s.kept := by
  unfold State.evictRegion
  repeat' first
    | with_reducible rfl
    | simp only [State.endArray_kept, State.destroyCtx_kept, State.failOn_kept, State.modDie_kept]
    | (refine (State.foldl_kept _ ?_ _ _).trans ?_; intros)

theorem State.isolate_kept (s : State) (d r cause mask : Nat) (quiet : Bool) : (State.isolate s d r cause mask quiet).kept = s.kept
      := by
  unfold State.isolate
  repeat' first
    | with_reducible rfl
    | simp only [State.emit_kept, State.evictRegion_kept, State.suspendRegion_kept, State.unconfigureRegion_kept,
      State.linkDown_kept, State.modDie_kept]
    | split

theorem State.fenceTile_kept (s : State) (d : Nat) (k : TileKind) (t cause : Nat) :
    (State.fenceTile s d k t cause).kept = s.kept := by
  unfold State.fenceTile
  repeat' first
    | with_reducible rfl
    | simp only [State.endArray_kept, State.fence_kept, State.modDie_kept, State.failOn_kept]
    | split

theorem State.loseImages_kept (s : State) (d c : Nat) : (State.loseImages s d c).kept = s.kept := by
  unfold State.loseImages
  repeat' first
    | with_reducible rfl
    | simp only [State.modCtx_kept, State.failCtx_kept, State.failOn_kept]
    | (refine (State.foldl_kept _ ?_ _ _).trans ?_; intros)
    | split

theorem State.loseChannel_kept (s : State) (d c cause : Nat) : (State.loseChannel s d c cause).kept = s.kept := by
  unfold State.loseChannel
  repeat' first
    | with_reducible rfl
    | simp only [State.markGone_kept, State.loseImages_kept, State.emit_kept, State.modDie_kept, State.fence_kept]
    | split

theorem State.retire_kept (s : State) (d c f cause : Nat) : (State.retire s d c f cause).kept = s.kept := by
  unfold State.retire
  repeat' first
    | with_reducible rfl
    | simp only [State.modDie_kept, State.emit_kept]
    | split

theorem State.frameUe_kept (s : State) (d c f : Nat) : (State.frameUe s d c f).kept = s.kept := by
  unfold State.frameUe
  extract_lets now s1 s2 s3
  have h2 : s2.kept = s.kept := by
    simp only [s2]
    split
    · rw [State.markGone_kept, State.modDie_kept]
    · exact State.modDie_kept ..
  have h3 : s3.kept = s.kept := (State.retire_kept ..).trans h2
  split
  · exact (State.loseChannel_kept ..).trans h3
  · exact h3

theorem State.fatal_kept (s : State) (cause : Nat) : (State.fatal s cause).kept = s.kept := by
  unfold State.fatal
  repeat' first
    | with_reducible rfl
    | simp only [State.kept_update_psi]
    | split

theorem State.endQueue_kept (s : State) (q detail : Nat) : (State.endQueue s q detail).kept = s.kept := by
  unfold State.endQueue
  repeat' first
    | with_reducible rfl
    | simp only [State.modQueue_kept]

theorem State.loseQueues_kept (s : State) (d : Nat) : (State.loseQueues s d).kept = s.kept := by
  unfold State.loseQueues
  repeat' first
    | with_reducible rfl
    | simp only [State.emit_kept, State.modQueue_kept, State.endQueue_kept]
    | (refine (State.foldl_kept _ ?_ _ _).trans ?_; intros)
    | split

theorem State.loseDie_kept (s : State) (d cause : Nat) : (State.loseDie s d cause).kept = s.kept := by
  unfold State.loseDie
  repeat' first
    | with_reducible rfl
    | simp only [State.loseQueues_kept, State.emit_kept, State.loseSeq_kept, State.markGone_kept, State.destroyCtx_kept,
      State.isolate_kept, State.modDie_kept, State.fatal_kept]
    | (refine (State.foldl_kept _ ?_ _ _).trans ?_; intros)
    | split

/-- What a package reset keeps of `State.kept`. -/
theorem State.packageReset_kept (s : State) :
    s.packageReset.kept =
      ({ s with psi := { s.psi with pMw := s.part.variant.limitMw, rMw := Psiurn.reset.rMw } } : State).kept := rfl

theorem State.grantWrite1_kept (s : State) (d : Nat) (y : Ctx) (g : Grant) (off : Nat) (bs : List Byte) :
    (State.grantWrite1 s d y g off bs).kept = s.kept := by
  unfold State.grantWrite1
  repeat' first
    | with_reducible rfl
    | simp only [State.kept_update, State.modDie_kept]
    | split

theorem State.grantCount_kept (s : State) (d : Nat) (y : Ctx) (g : Grant) (off units : Nat) :
    (State.grantCount s d y g off units).kept = s.kept := by
  unfold State.grantCount
  repeat' first
    | with_reducible rfl
    | simp only [State.modDie_kept]
    | (refine (State.foldl_kept _ ?_ _ _).trans ?_; intros)
    | split

theorem State.grantWrite_kept (s : State) (d : Nat) (y : Ctx) (g : Grant) (off n : Nat) (bs : List Byte) :
    (State.grantWrite s d y g off n bs).kept = s.kept := by
  induction n generalizing s off bs with
  | zero => rfl
  | succ n ih => rw [State.grantWrite, ih, State.grantWrite1_kept]

theorem State.issueStream_kept (s : State) (d c idx : Nat) (desc : BitVec 512) : (State.issueStream s d c idx desc).kept = s.kept
      := by
  unfold State.issueStream
  repeat' first
    | with_reducible rfl
    | simp only [State.modDie_kept, State.writeRec_kept]
    | split

theorem State.loadStep4_kept (s : State) (d r tenant : Nat) (h : List Byte) : (State.loadStep4 s d r tenant h).kept = s.kept := by
  unfold State.loadStep4
  repeat' first
    | with_reducible rfl
    | simp only [State.endActs_kept, State.modDie_kept]

theorem State.loadFails_kept (s : State) (d r : Nat) (p : Pkt) (h : List Byte) (st : Status) (detail : Nat) : (State.loadFails s d
      r p h st detail).kept = s.kept := by
  unfold State.loadFails
  repeat' first
    | with_reducible rfl
    | simp only [State.emit_kept, State.endSession_kept]

theorem State.loadBody_kept (s : State) (d r : Nat) (p : Pkt) (chk : ImgChk) (last : Bool) : (State.loadBody s d r p chk last).kept
      = s.kept := by
  unfold State.loadBody
  repeat' first
    | with_reducible rfl
    | simp only [State.ok_kept, State.loadFails_kept, State.modDie_kept]
    | split

theorem State.loadOpen_kept (s : State) (d r : Nat) (p : Pkt) (q : Session) (chk : ImgChk) (last : Bool) : (State.loadOpen s d r p
      q chk last).kept = s.kept := by
  unfold State.loadOpen
  repeat' first
    | with_reducible rfl
    | simp only [State.loadBody_kept, State.loadStep4_kept, State.loadFails_kept, State.modDie_kept]
    | split

theorem State.retestFm_kept (s : State) (d r : Nat) : (State.retestFm s d r).kept = s.kept := by
  unfold State.retestFm
  repeat' first
    | with_reducible rfl
    | simp only [State.unfence_kept, State.freeNat_kept]
    | (refine (State.foldl_kept _ ?_ _ _).trans ?_; intros)
    | split

theorem State.takePart_kept (s : State) (p : Pkt) (a : RAt) (tenant : Nat) (last : Bool) (imageLen : Nat) (data : List Byte) (chk :
      ImgChk) : (State.takePart s p a tenant last imageLen data chk).kept = s.kept := by
  unfold State.takePart
  repeat' first
    | with_reducible rfl
    | simp only [State.modDie_kept, State.loadBody_kept, State.loadOpen_kept]
    | split

theorem State.runLoadPart_kept (s : State) (p : Pkt) (a : RAt) (tenant : Nat) (last : Bool) (off imageLen : Nat) (data : List Byte)
      (chk : ImgChk) : (State.runLoadPart s p a tenant last off imageLen data chk).kept = s.kept := by
  unfold State.runLoadPart
  repeat' first
    | with_reducible rfl
    | simp only [State.takePart_kept, State.decide1_kept, State.park_kept, State.refuse_kept]
    | split

theorem State.runLoadFlash_kept (s : State) (p : Pkt) (a : RAt) (tenant addr : Nat) (chk : ImgChk) : (State.runLoadFlash s p a
      tenant addr chk).kept = s.kept := by
  unfold State.runLoadFlash
  repeat' first
    | with_reducible rfl
    | simp only [State.loadOpen_kept, State.decide1_kept, State.park_kept, State.refuse_kept]
    | split

theorem State.runLoadBind_kept (s : State) (p : Pkt) (a : RAt) (tenant : Nat) : (State.runLoadBind s p a tenant).kept = s.kept := by
  unfold State.runLoadBind
  repeat' first
    | with_reducible rfl
    | simp only [State.modDie_kept, State.finish_kept, State.decide1_kept, State.park_kept, State.refuse_kept]
    | split

theorem State.runLoadAbandon_kept (s : State) (p : Pkt) (a : RAt) : (State.runLoadAbandon s p a).kept = s.kept := by
  unfold State.runLoadAbandon
  repeat' first
    | with_reducible rfl
    | simp only [State.endSession_kept, State.ok_kept, State.decide1_kept, State.park_kept, State.refuse_kept]
    | split

theorem State.doRelease_kept (s : State) (a : RAt) :
    (State.doRelease s a).kept = s.kept := by
  unfold State.doRelease
  repeat' first
    | with_reducible rfl
    | simp only [State.modDie_kept]

theorem State.doHandover_kept (s : State) (a : RAt) : (State.doHandover s a).kept = s.kept := by
  unfold State.doHandover
  repeat' first
    | with_reducible rfl
    | simp only [State.finish_kept, State.feltClaim_kept, State.retestFm_kept, State.modDie_kept]
    | split

theorem State.fclkRuns_kept (s : State) (a : RAt) : (State.fclkRuns s a).kept = s.kept := by
  unfold State.fclkRuns
  repeat' first
    | with_reducible rfl
    | simp only [State.modDie_kept, State.freeNat_kept]
    | split

theorem State.runAct_kept (s : State) (code : Nat) (p : Pkt) (a : RAt) (action divisor edge : Nat) (more : List (Bool × Status × Nat)) :
    (State.runAct s code p a action divisor edge more).kept = s.kept := by
  unfold State.runAct
  repeat' first
    | with_reducible rfl
    | simp only [State.refuse_kept, State.fclkRuns_kept, State.decide1_kept, State.modDie_kept]
    | split

theorem State.doEdge_kept (s : State) (a : RAt) : (State.doEdge s a).kept = s.kept := by
  unfold State.doEdge
  repeat' first
    | with_reducible rfl
    | simp only [State.finish_kept, State.modDie_kept]
    | split

theorem State.doCopyDone_kept (s : State) (a : RAt) :
    (State.doCopyDone s a).kept = s.kept := by
  unfold State.doCopyDone
  repeat' first
    | with_reducible rfl
    | simp only [State.modDie_kept, State.finish_kept]
    | split

theorem State.runFabricRead_kept (s : State) (p : Pkt) (a : RAt) (first count : Nat) : (State.runFabricRead s p a first count).kept
      = s.kept := by
  unfold State.runFabricRead
  repeat' first
    | with_reducible rfl
    | simp only [State.finish_kept, State.park_kept, State.refuse_kept]
    | split

theorem State.selfCheck_kept (s : State) (d : Nat) (ok : Bool) : (State.selfCheck s d ok).kept = s.kept := by
  unfold State.selfCheck
  repeat' first
    | with_reducible rfl
    | simp only [State.modDie_kept, State.emit_kept]
    | split

theorem State.darnWord_kept (s : State) (d : Nat) (e : DarnErr) : (State.darnWord s d e).kept = s.kept := by
  unfold State.darnWord
  repeat' first
    | with_reducible rfl
    | simp only [State.isolate_kept, State.emit_kept, State.modDie_kept, State.freeNat_kept]
    | split

theorem doDarnerScan_kept (d : Nat) (testOk : Bool) (errs : List DarnErr) (s : State) : (doDarnerScan d testOk errs s).kept =
      s.kept := by
  unfold doDarnerScan
  repeat' first
    | with_reducible rfl
    | simp only [State.modDie_kept, State.darnWord_kept, State.selfCheck_kept]
    | (refine (State.foldl_kept _ ?_ _ _).trans ?_; intros)
    | split

theorem State.rejoinInner_kept (s : State) (d r passMask : Nat) (u : (Nat × Nat) × Nat) :
    (State.rejoinInner s d r passMask u).kept = s.kept := by
  unfold State.rejoinInner
  repeat' first
    | with_reducible rfl
    | simp only [State.modDie_kept]
    | split

theorem State.rejoin_kept (s : State) (d r passMask : Nat) (u : Nat × Nat) : (State.rejoin s d r passMask u).kept = s.kept := by
  unfold State.rejoin
  repeat' first
    | with_reducible rfl
    | simp only [State.modDie_kept]
    | split

theorem State.regionReset_kept (s : State) (d r : Nat) :
    (State.regionReset s d r).kept = s.kept := by
  unfold State.regionReset
  repeat' first
    | with_reducible rfl
    | simp only [State.modDie_kept, State.markGone_kept]

theorem doRegionReturn_kept (d r passMask : Nat) (s : State) :
    (doRegionReturn d r passMask s).kept = s.kept := by
  unfold doRegionReturn
  repeat' first
    | with_reducible rfl
    | simp only [State.regionReset_kept, State.rejoinInner_kept, State.rejoin_kept, State.modDie_kept, State.emit_kept,
        State.linkDetect_kept]
    | (refine (State.foldl_kept _ ?_ _ _).trans ?_; intros)
    | split

theorem doTenantCreate_kept (p : Pkt) (quantum idleMs resumeS : Nat) (s : State) : (doTenantCreate p quantum idleMs resumeS s).kept
      = s.kept := by
  unfold doTenantCreate
  repeat' first
    | with_reducible rfl
    | simp only [State.kept_update, State.ok_kept]

theorem State.removeModel_kept (s : State) (i : Nat) : (State.removeModel s i).kept = s.kept := by
  unfold State.removeModel
  repeat' first
    | with_reducible rfl
    | simp only [State.kept_update]

theorem State.endTenant_kept (s : State) (t : Nat) : (State.endTenant s t).kept = s.kept := by
  unfold State.endTenant
  repeat' first
    | with_reducible rfl
    | simp only [State.kept_update, State.settleKeys_kept, State.removeModel_kept, State.unconfigureRegion_kept, State.untie_kept,
      State.closeSeq_kept, State.destroyCtx_kept]
    | (refine (State.foldl_kept _ ?_ _ _).trans ?_; intros)

theorem State.settleTenant_kept (s : State) (t : Nat) : (State.settleTenant s t).kept = s.kept := by
  unfold State.settleTenant
  repeat' first
    | with_reducible rfl
    | simp only [State.kept_update, State.ok_kept, State.endTenant_kept]
    | split

theorem doTenantDestroy_kept (p : Pkt) (s : State) : (doTenantDestroy p s).kept = s.kept := by
  unfold doTenantDestroy
  repeat' first
    | with_reducible rfl
    | simp only [State.kept_update, State.drainQueue_kept, State.settleTenant_kept]
    | (refine (State.foldl_kept _ ?_ _ _).trans ?_; intros)

theorem doTenantSet_kept (p : Pkt) (quantum idleMs resumeS : Nat) (s : State) : (doTenantSet p quantum idleMs resumeS s).kept =
      s.kept := by
  unfold doTenantSet
  repeat' first
    | with_reducible rfl
    | simp only [State.kept_update, State.ok_kept]

theorem doCtxCreate_kept (p : Pkt) (inst tmpl die : Nat) (s : State) : (doCtxCreate p inst tmpl die s).kept = s.kept := by
  unfold doCtxCreate
  repeat' first
    | with_reducible rfl
    | simp only [State.kept_update, State.setDie_kept, State.finish_kept]
    | split

theorem State.runCtxRead_kept (s : State) (p : Pkt) (off len : Nat) : (State.runCtxRead s p off len).kept = s.kept := by
  unfold State.runCtxRead
  repeat' first
    | with_reducible rfl
    | simp only [State.finish_kept, State.park_kept, State.decide1_kept]
    | split

theorem State.seqOp_kept (s : State) (code : Nat) (p : Pkt) (n : Nat) (i : Instr) (more : List (Bool × Status × Nat)) (t : State)
    (h : t.kept = s.kept) : (State.seqOp s code p n i more t).kept = s.kept := by
  unfold State.seqOp
  split
  · exact State.park_kept ..
  · exact State.decide1_kept _ _ _ _ _ h

theorem State.setClass_kept (s : State) (n c : Nat) : (State.setClass s n c).kept = s.kept := by
  unfold State.setClass
  repeat' first
    | with_reducible rfl
    | simp only [State.modSeq_kept, State.modDie_kept]
    | split

theorem State.freeSheets_kept (s : State) (n : Nat) (hs : List Nat) : (State.freeSheets s n hs).kept = s.kept := by
  unfold State.freeSheets
  repeat' first
    | with_reducible rfl
    | simp only [State.modDie_kept, State.modSeq_kept]

theorem doSeqOpen_kept (p : Pkt) (inst die cls : Nat) (s : State) : (doSeqOpen p inst die cls s).kept = s.kept := by
  unfold doSeqOpen
  repeat' first
    | with_reducible rfl
    | simp only [State.kept_update, State.finish_kept]
    | split

theorem State.runSeqClose_kept (s : State) (p : Pkt) (n : Nat) : (State.runSeqClose s p n).kept = s.kept := by
  unfold State.runSeqClose
  repeat' first
    | with_reducible rfl
    | simp only [State.closeSeq_kept, State.settleKeys_kept, State.ok_kept, State.seqOp_kept]

theorem State.runSeqSuspend_kept (s : State) (p : Pkt) (n c : Nat) : (State.runSeqSuspend s p n c).kept = s.kept := by
  unfold State.runSeqSuspend
  repeat' first
    | with_reducible rfl
    | simp only [State.modSeq_kept, State.setClass_kept, State.ok_kept, State.seqOp_kept]

theorem State.runSeqResume_kept (s : State) (p : Pkt) (n c : Nat) : (State.runSeqResume s p n c).kept = s.kept := by
  unfold State.runSeqResume
  repeat' first
    | with_reducible rfl
    | simp only [State.modSeq_kept, State.setClass_kept, State.ok_kept, State.seqOp_kept]

theorem State.truncate_kept (s : State) (n pos : Nat) : (State.truncate s n pos).kept = s.kept := by
  unfold State.truncate
  repeat' first
    | with_reducible rfl
    | simp only [State.freeSheets_kept, State.modDie_kept, State.modSeq_kept]

theorem State.runSeqTruncate_kept (s : State) (p : Pkt) (n pos : Nat) : (State.runSeqTruncate s p n pos).kept = s.kept := by
  unfold State.runSeqTruncate
  repeat' first
    | with_reducible rfl
    | simp only [State.truncate_kept, State.settleKeys_kept, State.ok_kept, State.seqOp_kept]

theorem State.queueHints_kept (s : State) (n layer : Nat) (promote : Bool) : (State.queueHints s n layer promote).kept = s.kept :=
      by
  unfold State.queueHints
  repeat' first
    | with_reducible rfl
    | simp only [State.modDie_kept]

theorem State.setPins_kept (s : State) (n layer : Nat) (b : Bool) : (State.setPins s n layer b).kept = s.kept := by
  unfold State.setPins
  repeat' first
    | with_reducible rfl
    | simp only [State.modDie_kept]

theorem State.runHintPromote_kept (s : State) (p : Pkt) (n layer : Nat) : (State.runHintPromote s p n layer).kept = s.kept := by
  unfold State.runHintPromote
  repeat' first
    | with_reducible rfl
    | simp only [State.queueHints_kept, State.ok_kept, State.seqOp_kept]

theorem State.runHintDemote_kept (s : State) (p : Pkt) (n layer : Nat) : (State.runHintDemote s p n layer).kept = s.kept := by
  unfold State.runHintDemote
  repeat' first
    | with_reducible rfl
    | simp only [State.queueHints_kept, State.ok_kept, State.seqOp_kept]

theorem State.runHintPin_kept (s : State) (p : Pkt) (n layer : Nat) : (State.runHintPin s p n layer).kept = s.kept := by
  unfold State.runHintPin
  repeat' first
    | with_reducible rfl
    | simp only [State.setPins_kept, State.ok_kept, State.seqOp_kept]

theorem State.runHintUnpin_kept (s : State) (p : Pkt) (n layer : Nat) : (State.runHintUnpin s p n layer).kept = s.kept := by
  unfold State.runHintUnpin
  repeat' first
    | with_reducible rfl
    | simp only [State.setPins_kept, State.ok_kept, State.seqOp_kept]

theorem State.runSeqQuery_kept (s : State) (p : Pkt) (n : Nat) : (State.runSeqQuery s p n).kept = s.kept := by
  unfold State.runSeqQuery
  repeat' first
    | with_reducible rfl
    | simp only [State.finish_kept, State.seqOp_kept]
    | split

theorem State.moveSheet_kept (s : State) (d h : Nat) (dst : Loc) : (State.moveSheet s d h dst).kept = s.kept := by
  unfold State.moveSheet
  repeat' first
    | with_reducible rfl
    | simp only [State.modDie_kept]

theorem State.idleGather_kept (s : State) (d : Nat) (drop : BitVec 8) : (State.idleGather s d drop).kept = s.kept := by
  unfold State.idleGather
  repeat' first
    | with_reducible rfl
    | simp only [State.moveSheet_kept]
    | (refine (State.foldl_kept _ ?_ _ _).trans ?_; intros)
    | split

theorem State.idleRescue_kept (d n : Nat) (s : State) (drop : BitVec 8) : (State.idleRescue d n s drop).1.kept = s.kept := by
  induction n generalizing s drop with
  | zero => rfl
  | succ n ih =>
    rw [State.idleRescue]
    simp only []
    repeat' split
    all_goals simp only [ih, State.moveSheet_kept]

theorem State.idleDie_kept (s : State) (op : Nat) (segs : BitVec 8) (d : Nat) : (State.idleDie s op segs d).kept = s.kept := by
  unfold State.idleDie
  simp only [State.modDie_kept, State.markGone_kept, State.idleRescue_kept, State.idleGather_kept]

theorem State.endIdle_kept (s : State) (id : Nat) : (State.endIdle s id).kept = s.kept := by
  unfold State.endIdle
  repeat' first
    | with_reducible rfl
    | simp only [State.kept_update, State.finish_kept]
    | split

theorem State.runStateIdle_kept (s : State) (p : Pkt) (m segs : BitVec 8) : (State.runStateIdle s p m segs).kept = s.kept := by
  unfold State.runStateIdle
  repeat' first
    | with_reducible rfl
    | simp only [State.kept_update, State.idleDie_kept, State.endIdle_kept, State.park_kept, State.refuse_kept]
    | (refine (State.foldl_kept _ ?_ _ _).trans ?_; intros)
    | split

theorem State.doIdleDone_kept (s : State) (d : Nat) : (State.doIdleDone s d).kept = s.kept := by
  unfold State.doIdleDone
  repeat' first
    | with_reducible rfl
    | simp only [State.kept_update, State.endIdle_kept, State.modDie_kept]
    | split

theorem State.runStateWake_kept (s : State) (p : Pkt) (m : BitVec 8) : (State.runStateWake s p m).kept = s.kept := by
  unfold State.runStateWake
  repeat' first
    | with_reducible rfl
    | simp only [State.modDie_kept, State.ok_kept, State.park_kept, State.refuse_kept]
    | (refine (State.foldl_kept _ ?_ _ _).trans ?_; intros)
    | split

theorem doTelCounters_kept (p : Pkt) (die kind unit : Nat) (s : State) : (doTelCounters p die kind unit s).kept = s.kept := by
  unfold doTelCounters
  repeat' first
    | with_reducible rfl
    | simp only [State.modDie_kept, State.finish_kept]

theorem State.readEntry_kept (s : State) (d h : Nat) : (State.readEntry s d h).2.kept = s.kept := by
  unfold State.readEntry
  repeat' first
    | with_reducible rfl
    | simp only [State.freeNat_kept]
    | split

theorem State.readEntries_kept (s : State) (d first count : Nat) : (State.readEntries s d first count).2.kept = s.kept :=
  State.foldl_snd_kept (fun (q : List (List Byte) × State) (i : Nat) =>
    ((q.2.readEntry d (first + i)).1 :: q.1, (q.2.readEntry d (first + i)).2)) (fun _ _ => State.readEntry_kept ..) _ _

theorem doTelReam_kept (p : Pkt) (die first count : Nat) (s : State) : (doTelReam p die first count s).kept = s.kept := by
  unfold doTelReam
  repeat' first
    | with_reducible rfl
    | simp only [State.finish_kept, State.readEntries_kept]

theorem doTelCtx_kept (p : Pkt) (s : State) : (doTelCtx p s).kept = s.kept := by
  unfold doTelCtx
  repeat' first
    | with_reducible rfl
    | simp only [State.finish_kept]
    | split

theorem doReadTrace_kept (p : Pkt) (die : Nat) (s : State) : (doReadTrace p die s).kept = s.kept := by
  unfold doReadTrace
  repeat' first
    | with_reducible rfl
    | simp only [State.modDie_kept, State.finishMany_kept]

theorem State.loseKnotOp_kept (s : State) (d : Nat) : (State.loseKnotOp s d).kept = s.kept := by
  unfold State.loseKnotOp
  repeat' first
    | with_reducible rfl
    | simp only [State.untie_kept, State.modDie_kept]
    | split

theorem State.endTxn_kept (s : State) (d node txn : Nat) (fenced : Bool) : (State.endTxn s d node txn fenced).kept = s.kept := by
  unfold State.endTxn
  repeat' first
    | with_reducible rfl
    | simp only [State.loseKnotOp_kept, State.modDie_kept]
    | split

theorem State.nack_kept (s : State) (q : NetPkt) : (State.nack s q).kept = s.kept := by
  unfold State.nack
  repeat' first
    | with_reducible rfl
    | simp only [State.modDie_kept]

theorem State.enterRouter_kept (s : State) (p : Spot) (i : Nat) (q : NetPkt) :
    (State.enterRouter s p i q).kept = s.kept := by
  unfold State.enterRouter
  repeat' first
    | with_reducible rfl
    | simp only [State.modDie_kept]

theorem State.goDown_kept (s : State) (p q : Spot) (k : NetPkt) :
    (State.goDown s p q k).kept = s.kept := by
  unfold State.goDown
  repeat' first
    | with_reducible rfl
    | simp only [State.nack_kept, State.modDie_kept, State.enterRouter_kept]
    | split

theorem State.sendOn_kept (s : State) (p : Spot) (k : NetPkt) (h : Hop) :
    (State.sendOn s p k h).kept = s.kept := by
  unfold State.sendOn
  repeat' first
    | with_reducible rfl
    | simp only [State.modDie_kept, State.goDown_kept, State.enterRouter_kept]
    | split

theorem State.parityDiscard_kept (s : State) (p : Spot) (k : NetPkt) : (State.parityDiscard s p k).kept = s.kept := by
  unfold State.parityDiscard
  repeat' first
    | with_reducible rfl
    | simp only [State.modDie_kept, State.corrected_kept]

theorem State.testReply_kept (s : State) (p : Pkt) (result rate : Nat) : (State.testReply s p result rate).kept = s.kept := by
  unfold State.testReply
  repeat' first
    | with_reducible rfl
    | simp only [State.finish_kept]

theorem State.gateError_kept (s : State) (p : Spot) (cause : Nat) :
    (State.gateError s p cause).kept = s.kept := by
  unfold State.gateError
  repeat' first
    | with_reducible rfl
    | simp only [State.isolate_kept]
    | split

theorem State.fenceRouter_kept (s : State) (p : Spot) (cause : Nat) :
    (State.fenceRouter s p cause).kept = s.kept := by
  unfold State.fenceRouter
  repeat' first
    | with_reducible rfl
    | simp only [State.fence_kept, State.fenceTile_kept, State.modDie_kept, State.gateError_kept]
    | (refine (State.foldl_kept _ ?_ _ _).trans ?_; intros)
    | split

theorem State.returnUnit_kept (s : State) (d kind number : Nat) : (State.returnUnit s d kind number).kept = s.kept := by
  unfold State.returnUnit
  repeat' first
    | with_reducible rfl
    | simp only [State.testReply_kept, State.unfence_kept, State.modDie_kept]
    | (refine (State.foldl_kept _ ?_ _ _).trans ?_; intros)
    | split

theorem State.returnPort_kept (s : State) (d p : Nat) : (State.returnPort s d p).kept = s.kept := by
  unfold State.returnPort
  repeat' first
    | with_reducible rfl
    | simp only [State.linkDetect_kept]
    | split

theorem State.demoteOne_kept {s t : State} {d : Nat} (h : s.demoteOne d = some t) : t.kept = s.kept := by
  unfold State.demoteOne at h
  obtain ⟨n, -, h⟩ := List.exists_of_findSome?_eq_some h
  obtain ⟨k, -, h⟩ := List.exists_of_findSome?_eq_some h
  obtain ⟨l, -, rfl⟩ := Option.map_eq_some_iff.mp h
  exact State.moveSheet_kept ..

theorem State.dropOne_kept {s t : State} {d : Nat} (h : s.dropOne d = some t) : t.kept = s.kept := by
  unfold State.dropOne at h
  split at h
  · injection h with h
    rw [← h, State.markGone_kept]
  · cases h

theorem State.findFrame_kept {d : Nat} {e : Ream} {n : Nat} {s : State} {r : State × Loc}
    (h : State.findFrame d e n s = some r) : r.1.kept = s.kept := by
  induction n generalizing s with
  | zero => cases h
  | succ n ih =>
    unfold State.findFrame at h
    split at h
    · injection h with h
      rw [← h]
    · split at h
      · exact (ih h).trans (State.demoteOne_kept ‹_›)
      · split at h
        · injection h with h
          rw [← h]
        · split at h
          · exact (ih h).trans (State.dropOne_kept ‹_›)
          · cases h

theorem State.takeSheet_kept {s : State} {q : Sequence} {m : Model} {n ly j : Nat} {r : State × Nat}
    (h : s.takeSheet q m n ly j = some r) : r.1.kept = s.kept := by
  unfold State.takeSheet at h
  simp only [] at h
  split at h
  · cases h
  · split at h
    · cases h
    · injection h with h
      rw [← h]
      simp only [State.modSeq_kept, State.modDie_kept]
      exact State.findFrame_kept (r := (_, _)) ‹_›

theorem State.takeLayer_kept {q : Sequence} {m : Model} {n ly : Nat} {js : List Nat}
    {p r : State × List (Nat × Nat × Bool)} (h : State.takeLayer q m n ly js p = some r) : r.1.kept = p.1.kept := by
  induction js generalizing p with
  | nil => injection h with h; rw [h]
  | cons j js ih =>
    unfold State.takeLayer at h
    split at h
    · cases h
    · exact (ih h).trans (State.takeSheet_kept (r := (_, _)) ‹_›)

theorem State.takeLayers_kept {q : Sequence} {m : Model} {n t : Nat} {ls : List Nat}
    {p r : State × List (Nat × Nat × Bool)} (h : State.takeLayers q m n t ls p = some r) : r.1.kept = p.1.kept := by
  induction ls generalizing p with
  | nil => injection h with h; rw [h]
  | cons j ls ih =>
    unfold State.takeLayers at h
    split at h
    · cases h
    · rename_i heq
      exact (ih h).trans (State.takeLayer_kept heq :)

theorem State.takeAll_kept {m : Model} {es : List EntryRun} {s : State} {r : State × List EntryRun}
    (h : State.takeAll m es s = some r) : r.1.kept = s.kept := by
  induction es generalizing s r with
  | nil => injection h with h; rw [← h]
  | cons e es ih =>
    unfold State.takeAll at h
    split at h
    · split at h
      · cases h
      · split at h
        · cases h
        · obtain ⟨p, hp, rfl⟩ := Option.map_eq_some_iff.mp h
          exact (ih hp).trans (State.takeLayers_kept (r := (_, _)) ‹_›)
    · obtain ⟨p, hp, rfl⟩ := Option.map_eq_some_iff.mp h
      exact ih (r := p) hp

theorem State.startCtx_kept (s : State) (id cls n k : Nat) : (State.startCtx s id cls n k).kept = s.kept := by
  unfold State.startCtx
  repeat' first
    | with_reducible rfl
    | simp only [State.makeReady_kept, State.modDie_kept]

theorem State.rollback_kept (s : State) (e : EntryRun) : (State.rollback s e).kept = s.kept := by
  unfold State.rollback
  repeat' first
    | with_reducible rfl
    | simp only [State.modDie_kept, State.freeSheets_kept]

theorem State.releaseWindow_kept (s : State) (n pos span : Nat) (ls : List LayerWin) : (State.releaseWindow s n pos span ls).kept =
      s.kept := by
  unfold State.releaseWindow
  repeat' first
    | with_reducible rfl
    | simp only [State.freeSheets_kept]

theorem State.commitEntry_kept (s : State) (m : Model) (e : EntryRun) : (State.commitEntry s m e).kept = s.kept := by
  unfold State.commitEntry
  repeat' first
    | with_reducible rfl
    | simp only [State.releaseWindow_kept, State.modSeq_kept]

theorem doModelCreate_kept (p : Pkt) (L h d32 fmt thr wBytes bBytes : Nat) (s : State) : (doModelCreate p L h d32 fmt thr wBytes
      bBytes s).kept = s.kept := by
  unfold doModelCreate
  repeat' first
    | with_reducible rfl
    | simp only [State.kept_update, State.finish_kept, State.modDie_kept]
    | (refine (State.foldl_kept _ ?_ _ _).trans ?_; intros)
    | split

theorem doModelWrite_kept (p : Pkt) (inst part die off : Nat) (data : List Byte) (s : State) : (doModelWrite p inst part die off
      data s).kept = s.kept := by
  unfold doModelWrite
  repeat' first
    | with_reducible rfl
    | simp only [State.kept_update, State.ok_kept]
    | split

theorem State.commitModel_kept (s : State) (p : Pkt) (inst : Nat) (m : Model) (b : Bundle) : (State.commitModel s p inst m b).kept
      = s.kept := by
  unfold State.commitModel
  repeat' first
    | with_reducible rfl
    | simp only [State.kept_update, State.finish_kept]

theorem State.runCommit_kept (s : State) (p : Pkt) (inst : Nat) (b : Bundle) : (State.runCommit s p inst b).kept = s.kept := by
  unfold State.runCommit
  repeat' first
    | with_reducible rfl
    | simp only [State.refuse_kept, State.freeNat_kept, State.commitModel_kept, State.finish_kept, State.decide1_kept]
    | split

theorem State.resumeAll_kept (s : State) (ns : List Nat) : (State.resumeAll s ns).kept = s.kept := by
  unfold State.resumeAll
  repeat' first
    | with_reducible rfl
    | simp only [State.modSeq_kept]
    | (refine (State.foldl_kept _ ?_ _ _).trans ?_; intros)

theorem State.tieAt_kept (s : State) (tenant ctx k : Nat) (value : BitVec 64) :
    (State.tieAt s tenant ctx k value).kept = s.kept := by
  unfold State.tieAt
  repeat' first
    | with_reducible rfl
    | simp only [State.modDie_kept]

theorem State.runStep_kept (s : State) (inst : Nat) (l : DList) (b : Bundle) (x : Dispatch) :
    (State.runStep s inst l b x).kept = s.kept := by
  unfold State.runStep
  repeat' first
    | with_reducible rfl
    | simp only [State.kept_update, State.tick_kept, State.modSeq_kept, State.modDie_kept, State.tieAt_kept, State.startCtx_kept]
    | (refine (State.foldl_kept _ ?_ _ _).trans ?_; intros)
    | split

theorem State.countDefer_kept (s : State) (d : Nat) : (State.countDefer s d).kept = s.kept := by
  unfold State.countDefer
  repeat' first
    | with_reducible rfl
    | simp only [State.modDie_kept]

theorem State.admission_kept (s : State) (p : Pkt) (inst list outUnits : Nat) (payload : List Byte) (m : Model) (b : Bundle)
    (l : DList) (cs : List (Nat × List Nat)) (es : List EntryRun) :
    (State.admission s p inst list outUnits payload m b l cs es).kept = s.kept := by
  unfold State.admission
  extract_lets cls ns plan got lists
  split
  · exact State.refuse_kept ..
  · split
    · exact State.refuse_kept ..
    · split
      · rw [State.refuse_kept, State.countDefer_kept]
      · have hg : got = State.takeAll m es (s.resumeAll ns) := rfl
        clear_value lists got
        split
        · exact State.refuse_kept ..
        · rw [State.runStep_kept, State.takeAll_kept (r := (_, _)) hg.symm, State.resumeAll_kept]

theorem State.runExec_kept (s : State) (p : Pkt) (inst list outUnits : Nat) (entries : List ExecEntry) (payload : List Byte) :
      (State.runExec s p inst list outUnits entries payload).kept = s.kept := by
  unfold State.runExec
  repeat' first
    | with_reducible rfl
    | simp only [State.admission_kept, State.park_kept, State.refuse_kept]
    | split

theorem State.endEntry_kept (id : Nat) (m : Model) (p : State × List (EntryRun × Nat)) (e : EntryRun) :
    (State.endEntry id m p e).1.kept = p.1.kept := by
  unfold State.endEntry
  simp only [State.modSeq_kept]
  repeat' split
  all_goals simp only [State.loseSeq_kept, State.rollback_kept, State.commitEntry_kept]

theorem State.learn_kept (s : State) (id : Nat) (x : Dispatch) (e : DieEst) :
    (State.learn s id x e).kept = s.kept := by
  unfold State.learn
  repeat' first
    | with_reducible rfl
    | simp only [State.modDie_kept]

theorem State.endStep_kept (s : State) (id : Nat) (x : Dispatch) (outs : List (List Byte)) :
    (State.endStep s id x outs).kept = s.kept := by
  unfold State.endStep
  split
  · rfl
  · simp only [State.finishMany_kept, State.settleKeys_kept, State.kept_update]
    split
    · rw [State.foldl_kept _ fun t e => State.learn_kept t id x e, State.foldl_kept _ fun s d => State.modDie_kept ..,
        State.foldl_fst_kept _ fun p e => State.endEntry_kept id _ p e]
    · rw [State.foldl_kept _ fun s d => State.modDie_kept .., State.foldl_fst_kept _ fun p e => State.endEntry_kept id _ p e]

theorem State.modArray_kept (s : State) (a : AAt) (f : Arr → Arr) : (State.modArray s a f).kept = s.kept := by
  unfold State.modArray
  repeat' first
    | with_reducible rfl
    | simp only [State.modDie_kept]

theorem State.fenceArray_kept (s : State) (a : AAt) (cause : Nat) : (State.fenceArray s a cause).kept = s.kept := by
  unfold State.fenceArray
  repeat' first
    | with_reducible rfl
    | simp only [State.fenceTile_kept, State.modArray_kept, State.modDie_kept, State.fence_kept]
    | split

theorem State.doIssue_kept (s : State) (a : AAt) (addr : Nat) : (State.doIssue s a addr).kept = s.kept := by
  unfold State.doIssue
  repeat' first
    | with_reducible rfl
    | simp only [State.writeRec_kept, State.modArray_kept]
    | split

theorem State.startRun_kept (s : State) (a : AAt) (d : BitVec 512) (c : Nat) : (State.startRun s a d c).kept = s.kept := by
  unfold State.startRun
  repeat' first
    | with_reducible rfl
    | simp only [State.modArray_kept]
    | split

theorem State.endRun_kept (s : State) (a : AAt) (u : Run) (st : Status) : (State.endRun s a u st).kept = s.kept := by
  unfold State.endRun
  repeat' first
    | with_reducible rfl
    | simp only [State.modDie_kept, State.modArray_kept]

theorem State.badBlock_kept (s : State) (a : AAt) (q : Nat) : (State.badBlock s a q).kept = s.kept := by
  unfold State.badBlock
  repeat' first
    | with_reducible rfl
    | simp only [State.modArray_kept, State.corrected_kept, State.fenceArray_kept]
    | split

theorem State.doLoad_kept (s : State) (a : AAt) (q : Nat) (bad : Bool) : (State.doLoad s a q bad).kept = s.kept := by
  unfold State.doLoad
  repeat' first
    | with_reducible rfl
    | simp only [State.endRun_kept, State.modDie_kept, State.modArray_kept, State.badBlock_kept]
    | split

theorem State.doSwap_kept (s : State) (a : AAt) (q : Nat) : (State.doSwap s a q).kept = s.kept := by
  unfold State.doSwap
  repeat' first
    | with_reducible rfl
    | simp only [State.modArray_kept, State.modDie_kept]
    | split

theorem State.doPass_kept (s : State) (a : AAt) (q : Nat) :
    (State.doPass s a q).kept = s.kept := by
  unfold State.doPass
  repeat' first
    | with_reducible rfl
    | simp only [State.modArray_kept, State.modDie_kept]
    | split

theorem State.rowQuarter_kept (s : State) (a : AAt) (word : BitVec 512) (first : Bool) (q : Nat) :
    (State.rowQuarter s a word first q).kept = s.kept := by
  unfold State.rowQuarter
  repeat' first
    | with_reducible rfl
    | simp only [State.modArray_kept, State.modDie_kept]
    | split

theorem State.doRow_kept (s : State) (a : AAt) : (State.doRow s a).kept = s.kept := by
  unfold State.doRow
  split
  · exact State.modDie_kept ..
  · refine (State.foldl_fst_kept _ (fun p q => ?_) _ _).trans (State.modArray_kept ..)
    exact State.rowQuarter_kept ..

theorem State.doEpi_kept (s : State) (a : AAt) (q : Nat) :
    (State.doEpi s a q).kept = s.kept := by
  unfold State.doEpi
  repeat' first
    | with_reducible rfl
    | simp only [State.modArray_kept, State.modDie_kept]
    | split

theorem State.arrStep_kept {s t : State} {a : AAt} (h : s.arrStep a = some t) : t.kept = s.kept := by
  unfold State.arrStep at h
  split at h
  · injection h with h
    rw [← h, State.doPass_kept]
  · obtain ⟨q, -, rfl⟩ := Option.map_eq_some_iff.mp h
    exact State.doEpi_kept ..

theorem State.arrSteps_kept (n : Nat) (s : State) (a : AAt) : (State.arrSteps n s a).kept = s.kept := by
  induction n generalizing s with
  | zero => rfl
  | succ n ih =>
    unfold State.arrSteps
    split
    · exact (ih _).trans (State.arrStep_kept ‹_›)
    · rfl

theorem State.settle_kept (s : State) (a : AAt) : (State.settle s a).kept = s.kept := by
  unfold State.settle
  rw [State.modArray_kept, State.arrSteps_kept]

theorem State.aword_kept (s : State) (a : AAt) (go : State → State) (h : ∀ s, (go s).kept = s.kept) :
    (State.aword s a go).kept = s.kept := by
  unfold State.aword
  dsimp only
  repeat' split
  all_goals simp only [h, State.settle_kept, State.fenceArray_kept, State.corrected_kept]

theorem State.writeOut_kept (s : State) (a : AAt) (rival : List Nat) (l : List (Nat × List Byte)) :
    (State.writeOut s a rival l).kept = s.kept := by
  unfold State.writeOut
  repeat' first
    | with_reducible rfl
    | simp only [State.freeNat_kept, State.modDie_kept, State.modArray_kept]
    | split

theorem State.doRunEnd_kept (s : State) (a : AAt) (idx : Nat) :
    (State.doRunEnd s a idx).kept = s.kept := by
  unfold State.doRunEnd
  repeat' first
    | with_reducible rfl
    | simp only [State.writeOut_kept, State.modArray_kept, State.endDesc_kept]
    | split

theorem State.sendReq_kept (s : State) (q : WReq) : (State.sendReq s q).kept = s.kept := by
  unfold State.sendReq
  repeat' first
    | with_reducible rfl
    | simp only [State.modDie_kept]

theorem State.sendAppend_kept (s : State) (a : AAt) (d : BitVec 512) (i : Nat) (e : AEntry) : (State.sendAppend s a d i e).kept =
      s.kept := by
  unfold State.sendAppend
  repeat' first
    | with_reducible rfl
    | simp only [State.sendReq_kept]

theorem State.sendWring_kept (s : State) (a : AAt) (d : BitVec 512) (i : Nat) (e : WEntry) : (State.sendWring s a d i e).kept =
      s.kept := by
  unfold State.sendWring
  repeat' first
    | with_reducible rfl
    | simp only [State.sendReq_kept]

theorem State.modAtt_kept (s : State) (a : AAt) (slot : Nat) (f : Att → Att) : (State.modAtt s a slot f).kept = s.kept := by
  unfold State.modAtt
  repeat' first
    | with_reducible rfl
    | simp only [State.modArray_kept]

theorem State.goWring_kept (s : State) (a : AAt) (slot i : Nat) : (State.goWring s a slot i).kept = s.kept := by
  unfold State.goWring
  repeat' first
    | with_reducible rfl
    | simp only [State.sendWring_kept, State.modAtt_kept]
    | split

theorem State.goAppend_kept (s : State) (a : AAt) (slot i : Nat) : (State.goAppend s a slot i).kept = s.kept := by
  unfold State.goAppend
  repeat' first
    | with_reducible rfl
    | simp only [State.sendAppend_kept, State.modAtt_kept]
    | split

theorem State.startAtt_kept (s : State) (a : AAt) (d : BitVec 512) (c : Nat) : (State.startAtt s a d c).kept = s.kept := by
  unfold State.startAtt
  repeat' first
    | with_reducible rfl
    | simp only [State.goAppend_kept, State.modArray_kept, State.modDie_kept]
    | (refine (State.foldl_kept _ ?_ _ _).trans ?_; intros)
    | split

theorem State.doStart_kept (s : State) (a : AAt) : (State.doStart s a).kept = s.kept := by
  unfold State.doStart
  repeat' first
    | with_reducible rfl
    | simp only [State.startRun_kept, State.startAtt_kept, State.modArray_kept]
    | split

theorem State.doWringSend_kept (s : State) (a : AAt) (slot : Nat) : (State.doWringSend s a slot).kept = s.kept := by
  unfold State.doWringSend
  repeat' first
    | with_reducible rfl
    | simp only [State.modAtt_kept, State.goWring_kept]
    | split

theorem State.takeRep_kept (s : State) (d : Nat) (p : WRep) : (State.takeRep s d p).kept = s.kept := by
  unfold State.takeRep
  repeat' first
    | with_reducible rfl
    | simp only [State.modDie_kept]

theorem State.takePartial_kept (s : State) (a : AAt) (slot : Nat) (t : Att) (p : WRep) : (State.takePartial s a slot t p).kept =
      s.kept := by
  unfold State.takePartial
  repeat' first
    | with_reducible rfl
    | simp only [State.goWring_kept, State.modDie_kept, State.modAtt_kept]
    | split

theorem State.doPartial_kept (s : State) (a : AAt) (slot : Nat) : (State.doPartial s a slot).kept = s.kept := by
  unfold State.doPartial
  repeat' first
    | with_reducible rfl
    | simp only [State.takePartial_kept, State.modDie_kept, State.takeRep_kept]
    | split

theorem State.failHeld_kept (s : State) (a : AAt) (t : Att) (st : Status) : (State.failHeld s a t st).kept = s.kept := by
  unfold State.failHeld
  repeat' first
    | with_reducible rfl
    | simp only [State.modArray_kept]

theorem State.doAppendDone_kept (s : State) (a : AAt) (slot : Nat) : (State.doAppendDone s a slot).kept = s.kept := by
  unfold State.doAppendDone
  repeat' first
    | with_reducible rfl
    | simp only [State.goAppend_kept, State.failHeld_kept, State.modAtt_kept, State.takeRep_kept]
    | split

theorem State.doResend_kept (s : State) (a : AAt) (slot i : Nat) : (State.doResend s a slot i).kept = s.kept := by
  unfold State.doResend
  repeat' first
    | with_reducible rfl
    | simp only [State.goAppend_kept, State.goWring_kept]
    | split

theorem State.doAttEnd_kept (s : State) (a : AAt) (idx : Nat) :
    (State.doAttEnd s a idx).kept = s.kept := by
  unfold State.doAttEnd
  repeat' first
    | with_reducible rfl
    | simp only [State.writeOut_kept, State.modDie_kept, State.modArray_kept, State.endDesc_kept]
    | split

theorem State.sendRep_kept (s : State) (d w : Nat) (p : WRep) : (State.sendRep s d w p).kept = s.kept := by
  unfold State.sendRep
  repeat' first
    | with_reducible rfl
    | simp only [State.modDie_kept]

theorem State.modWringer_kept (s : State) (d w : Nat) (f : Wringer → Wringer) : (State.modWringer s d w f).kept = s.kept := by
  unfold State.modWringer
  repeat' first
    | with_reducible rfl
    | simp only [State.modDie_kept]

theorem doWringAccept_kept (d w : Nat) (s : State) : (doWringAccept d w s).kept = s.kept := by
  unfold doWringAccept
  repeat' first
    | with_reducible rfl
    | simp only [State.modDie_kept]
    | split

theorem State.dispatchFault_kept (s : State) (d w : Nat) (q : WReq) : (State.dispatchFault s d w q).kept = s.kept := by
  unfold State.dispatchFault
  repeat' first
    | with_reducible rfl
    | simp only [State.emit_kept]

theorem doRequestOpen_kept (d w : Nat) (s : State) : (doRequestOpen d w s).kept = s.kept := by
  unfold doRequestOpen
  repeat' first
    | with_reducible rfl
    | simp only [State.dispatchFault_kept, State.sendRep_kept, State.modWringer_kept]
    | split

theorem State.wringSealFault_kept (s : State) (d w slot : Nat) : (State.wringSealFault s d w slot).kept = s.kept := by
  unfold State.wringSealFault
  repeat' first
    | with_reducible rfl
    | simp only [State.emit_kept]

theorem State.grantAsk_kept (s : State) (d m : Nat) : (State.grantAsk s d m).kept = s.kept := by
  unfold State.grantAsk
  split
  · rfl
  · exact State.modDie_kept ..

theorem State.readSheet_kept (s : State) (d w i : Nat) (o : WOpen) (r : Resolved) : (State.readSheet s d w i o r).kept = s.kept :=
      by
  unfold State.readSheet
  repeat' first
    | with_reducible rfl
    | simp only [State.modDie_kept]

theorem State.loseRead_kept (s : State) (d : Nat) (q : WReq) (r : Resolved) :
    (State.loseRead s d q r).kept = s.kept := by
  unfold State.loseRead
  repeat' first
    | with_reducible rfl
    | simp only [State.markGone_kept]
    | split

theorem doSheetStream_kept (d w : Nat) (bad : Bool) (s : State) :
    (doSheetStream d w bad s).kept = s.kept := by
  unfold doSheetStream
  repeat' first
    | with_reducible rfl
    | simp only [State.modDie_kept, State.wringSealFault_kept, State.grantAsk_kept, State.frameUe_kept,
        State.loseRead_kept, State.readSheet_kept]
    | split

theorem doPartialSend_kept (d w : Nat) (s : State) : (doPartialSend d w s).kept = s.kept := by
  unfold doPartialSend
  repeat' first
    | with_reducible rfl
    | simp only [State.modWringer_kept, State.modDie_kept, State.sendRep_kept]
    | split

theorem State.writeAppend_kept (s : State) (d w : Nat) (q : WReq) (h : Nat) (e : Ream) : (State.writeAppend s d w q h e).kept =
      s.kept := by
  unfold State.writeAppend
  repeat' first
    | with_reducible rfl
    | simp only [State.modDie_kept, State.sendRep_kept]

theorem State.runAppend_kept (s : State) (d w i : Nat) (o : WOpen) : (State.runAppend s d w i o).kept = s.kept := by
  unfold State.runAppend
  dsimp only
  repeat' split
  all_goals simp only [State.writeAppend_kept, State.wringSealFault_kept, State.dispatchFault_kept, State.sendRep_kept,
    State.modDie_kept]

theorem State.doAppend_kept (s : State) (d w i : Nat) (o : WOpen) :
    (State.doAppend s d w i o).kept = s.kept := by
  unfold State.doAppend
  repeat' first
    | with_reducible rfl
    | simp only [State.modWringer_kept, State.modDie_kept, State.runAppend_kept]
    | split

theorem doWringerFence_kept (d w cause : Nat) (s : State) : (doWringerFence d w cause s).kept = s.kept := by
  unfold doWringerFence
  repeat' first
    | with_reducible rfl
    | simp only [State.modDie_kept, State.fence_kept]

theorem State.tpCall_kept (s : State) (a : RAt) (port : Nat) (bind : PortBind) (word : BitVec 512) (last : Bool) : (State.tpCall s
      a port bind word last).kept = s.kept := by
  unfold State.tpCall
  repeat' first
    | with_reducible rfl
    | simp only [State.modDie_kept]

theorem State.tpStep_kept {s t : State} {a : RAt} {port : Nat} {word : BitVec 512} {last : Bool}
    (h : s.tpStep a port word last = some t) : t.kept = s.kept := by
  unfold State.tpStep at h
  simp only [] at h
  repeat' split at h
  all_goals first
    | cases h; done
    | (injection h with h; rw [← h]; simp only [State.modDie_kept, State.modArray_kept, State.settle_kept, State.tpCall_kept])

theorem State.fctrTick_kept (s : State) (a : RAt) :
    (State.fctrTick s a).kept = s.kept := by
  unfold State.fctrTick
  repeat' first
    | with_reducible rfl
    | simp only [State.modDie_kept]

theorem State.tpEdge_kept {s t : State} {a : RAt} {port : Nat} (h : s.tpEdge a port = some t) : t.kept = s.kept := by
  unfold State.tpEdge at h
  simp only [] at h
  repeat' split at h
  all_goals first
    | cases h; done
    | (injection h with h; rw [← h]; done)
    | (injection h with h; rw [← h, State.fctrTick_kept])

theorem State.tpPass_kept {s t : State} {a : RAt} {port : Nat} {word : BitVec 512} {last : Bool}
    (h : s.tpPass a port word last = some t) : t.kept = s.kept := by
  unfold State.tpPass at h
  split at h
  · cases h
  · obtain ⟨u, hu, rfl⟩ := Option.map_eq_some_iff.mp h
    rw [State.modDie_kept, State.tpStep_kept hu, State.tpEdge_kept ‹_›]

theorem State.fmMeet_kept (s : State) (b : FmBlk) (common : Bool) (port j : Nat) (write meets : Bool) (w : BitVec 64) :
    (State.fmMeet s b common port j write meets w).2.2.kept = s.kept := by
  unfold State.fmMeet
  repeat' first
    | with_reducible rfl
    | simp only [State.freeNat_kept]
    | split

theorem State.fmStep_kept (s : State) (a : RAt) (blk port addr : Nat) (write : Option (BitVec 64)) (meets : Bool)
    (bitErrors : Nat) : (State.fmStep s a blk port addr write meets bitErrors).kept = s.kept := by
  unfold State.fmStep
  repeat' first
    | with_reducible rfl
    | simp only [State.fence_kept, State.freeNat_kept, State.corrected_kept, State.modDie_kept, State.fmMeet_kept]
    | split

theorem State.fabricEdge_kept (s : State) (a : RAt) (line : Nat) (falling : Bool) (e : EdgeIn) :
    (State.fabricEdge s a line falling e).kept = s.kept := by
  unfold State.fabricEdge
  repeat' first
    | with_reducible rfl
    | simp only [State.fctrTick_kept, State.modDie_kept]
    | split

theorem State.trainFail_kept (s : State) (d p : Nat) : (State.trainFail s d p).kept = s.kept := by
  unfold State.trainFail
  repeat' first
    | with_reducible rfl
    | simp only [State.linkDown_kept, State.modDie_kept]
    | split

theorem State.linkUpNow_kept (s : State) (d p : Nat) : (State.linkUpNow s d p).kept = s.kept := by
  unfold State.linkUpNow
  repeat' first
    | with_reducible rfl
    | simp only [State.modDie_kept, State.emit_kept]

theorem State.linkRetrain_kept (s : State) (d p : Nat) : (State.linkRetrain s d p).kept = s.kept := by
  unfold State.linkRetrain
  repeat' first
    | with_reducible rfl
    | simp only [State.linkDetect_kept]
    | split

theorem doWake_kept (d p : Nat) (fromPartner : Bool) (s : State) : (doWake d p fromPartner s).kept = s.kept := by
  unfold doWake
  repeat' first
    | with_reducible rfl
    | simp only [State.modDie_kept]

theorem State.routeFrame_kept (s : State) (d p : Nat) (q : FFrame) : (State.routeFrame s d p q).kept = s.kept := by
  unfold State.routeFrame
  split
  · rfl
  · split
    · rw [State.sendAll_kept]
      split
      · exact State.takeData_kept ..
      · exact State.takeAck_kept ..
    · split
      · exact State.modDie_kept ..
      · exact State.sendOut_kept ..

theorem State.takeHeartbeat_kept (s : State) (d p : Nat) (q : FFrame) : (State.takeHeartbeat s d p q).kept = s.kept := by
  unfold State.takeHeartbeat
  repeat' first
    | with_reducible rfl
    | simp only [State.linkDetect_kept]
    | split

theorem State.takeInOrder_kept (s : State) (d p : Nat) (q : FFrame) : (State.takeInOrder s d p q).kept = s.kept := by
  unfold State.takeInOrder
  repeat' first
    | with_reducible rfl
    | simp only [State.routeFrame_kept, State.modDie_kept]
    | split

theorem State.takeFrame_kept (s : State) (d p : Nat) (q : FFrame) : (State.takeFrame s d p q).kept = s.kept := by
  unfold State.takeFrame
  extract_lets s1 f gap
  have h1 : s1.kept = s.kept := State.modDie_kept ..
  repeat' split
  · exact h1
  · exact (State.takeHeartbeat_kept ..).trans h1
  · exact (State.takeInOrder_kept ..).trans h1
  · exact (State.modDie_kept ..).trans h1
  · exact h1

theorem doFeltSend_kept (d n p : Nat) (s : State) : (doFeltSend d n p s).kept = s.kept := by
  unfold doFeltSend
  repeat' first
    | with_reducible rfl
    | simp only [State.sendAll_kept, State.modDie_kept]
    | split

theorem doKnotTie_kept (p : Pkt) (die knot owner : Nat) (value : BitVec 64) (s : State) : (doKnotTie p die knot owner value s).kept
      = s.kept := by
  unfold doKnotTie
  repeat' first
    | with_reducible rfl
    | simp only [State.modDie_kept, State.ok_kept]

theorem doKnotWait_kept (p : Pkt) (die knot : Nat) (target : BitVec 64) (s : State) : (doKnotWait p die knot target s).kept =
      s.kept := by
  unfold doKnotWait
  repeat' first
    | with_reducible rfl
    | simp only [State.modDie_kept, State.refuse_kept, State.finish_kept]
    | split

theorem State.knotOp_kept (s : State) (d : Nat) (o : KnotOp) : (State.knotOp s d o).kept = s.kept := by
  unfold State.knotOp
  repeat' first
    | with_reducible rfl
    | simp only [State.untie_kept, State.knotAddNow_kept]
    | split

theorem doKnotOpArrival_kept (d idx : Nat) (bad : Bool) (s : State) :
    (doKnotOpArrival d idx bad s).kept = s.kept := by
  unfold doKnotOpArrival
  repeat' first
    | with_reducible rfl
    | simp only [State.modDie_kept, State.untie_kept, State.knotOp_kept]
    | split

theorem doKnotWake_kept (d c : Nat) (s : State) : (doKnotWake d c s).kept = s.kept := by
  unfold doKnotWake
  repeat' first
    | with_reducible rfl
    | simp only [State.modCtx_kept, State.tick_kept]

theorem State.settleLimit_kept (s : State) (k : Pkt × List Nat) : (State.settleLimit s k).kept = s.kept := by
  unfold State.settleLimit
  repeat' first
    | with_reducible rfl
    | simp only [State.kept_update, State.ok_kept]
    | split

theorem State.settleLimits_kept (s : State) (d : Nat) : (State.settleLimits s d).kept = s.kept := by
  unfold State.settleLimits
  repeat' first
    | with_reducible rfl
    | simp only [State.kept_update, State.settleLimit_kept]
    | (refine (State.foldl_kept _ ?_ _ _).trans ?_; intros)

theorem doEnergyAllow_kept (p : Pkt) (tenant : Nat) (dies : BitVec 8) (window nj : Nat) (s : State) : (doEnergyAllow p tenant dies
      window nj s).kept = s.kept := by
  unfold doEnergyAllow
  repeat' first
    | with_reducible rfl
    | simp only [State.modDie_kept, State.ok_kept]
    | (refine (State.foldl_kept _ ?_ _ _).trans ?_; intros)

theorem doEnergyRead_kept (p : Pkt) (die tenant : Nat) (s : State) : (doEnergyRead p die tenant s).kept = s.kept := by
  unfold doEnergyRead
  repeat' first
    | with_reducible rfl
    | simp only [State.modDie_kept, State.finish_kept]
    | (refine (State.foldl_kept _ ?_ _ _).trans ?_; intros)

theorem State.ageDispatches_kept (s : State) (d : Nat) : (State.ageDispatches s d).kept = s.kept := by
  unfold State.ageDispatches
  repeat' first
    | with_reducible rfl
    | simp only [State.kept_update]

theorem doLedgerPeriod_kept (d dieNj : Nat) (fabNj : List Nat) (nclk : Nat) (tempC : Int) (refreshed : Nat × Nat) (s : State) :
    (doLedgerPeriod d dieNj fabNj nclk tempC refreshed s).kept = s.kept := by
  unfold doLedgerPeriod
  repeat' first
    | with_reducible rfl
    | simp only [State.setDie_kept, State.ageDispatches_kept, State.emit_kept, State.settleLimits_kept]
    | split

theorem doBackstopWindow_kept (psiNj : Nat) (s : State) : (doBackstopWindow psiNj s).kept = s.kept := by
  unfold doBackstopWindow
  repeat' first
    | with_reducible rfl
    | simp only [State.kept_update_psi, State.emit_kept, State.modDie_kept]
    | (refine (State.foldl_kept _ ?_ _ _).trans ?_; intros)
    | split

theorem State.inject_kept (s : State) (d : Nat) (k : NetPkt) : (State.inject s d k).kept = s.kept := by
  unfold State.inject
  repeat' first
    | with_reducible rfl
    | simp only [State.modDie_kept]

theorem State.takeIn_kept (s : State) (d rt : Nat) (k : NetPkt) : (State.takeIn s d rt k).kept = s.kept := by
  unfold State.takeIn
  repeat' first
    | with_reducible rfl
    | simp only [State.modDie_kept]

theorem State.routePacket_kept (s : State) (d rt : Nat) (k : NetPkt) : (State.routePacket s d rt k).kept = s.kept := by
  unfold State.routePacket
  repeat' first
    | with_reducible rfl
    | simp only [State.sendOn_kept, State.parityDiscard_kept]
    | split

theorem State.noteGrant_kept (s : State) (d rt : Nat) (k : NetPkt) :
    (State.noteGrant s d rt k).kept = s.kept := by
  unfold State.noteGrant
  repeat' first
    | with_reducible rfl
    | simp only [State.modDie_kept]
    | split

theorem doRouterForward_kept (d rt : Nat) (k : NetPkt) (s : State) :
    (doRouterForward d rt k s).kept = s.kept := by
  unfold doRouterForward
  repeat' first
    | with_reducible rfl
    | simp only [State.noteGrant_kept, State.takeIn_kept, State.routePacket_kept, State.inject_kept, State.endTxn_kept]
    | split

theorem State.delivered_kept (s : State) (d node : Nat) (k : NetPkt) : (State.delivered s d node k).kept = s.kept := by
  unfold State.delivered
  repeat' first
    | with_reducible rfl
    | simp only [State.freeNat_kept, State.endTxn_kept, State.modDie_kept]
    | split

theorem State.undelivered_kept (s : State) (d node : Nat) (k : NetPkt) :
    (State.undelivered s d node k).kept = s.kept := by
  unfold State.undelivered
  repeat' first
    | with_reducible rfl
    | simp only [State.modDie_kept, State.fence_kept, State.nack_kept, State.endTxn_kept, State.fatal_kept]
    | split

theorem doPacketDeliver_kept (d node ecc : Nat) (s : State) : (doPacketDeliver d node ecc s).kept = s.kept := by
  unfold doPacketDeliver
  repeat' first
    | with_reducible rfl
    | simp only [State.undelivered_kept, State.corrected_kept, State.delivered_kept, State.modDie_kept]
    | split

theorem doEpochSwitch_kept (m : BitVec 8) (c : EpochChange) (s : State) : (doEpochSwitch m c s).kept = s.kept := by
  unfold doEpochSwitch
  repeat' first
    | with_reducible rfl
    | simp only [State.kept_update, State.modDie_kept]
    | (refine (State.foldl_kept _ ?_ _ _).trans ?_; intros)
    | split

theorem doEpochFlip_kept (d : Nat) (s : State) : (doEpochFlip d s).kept = s.kept := by
  unfold doEpochFlip
  repeat' first
    | with_reducible rfl
    | simp only [State.returnPort_kept, State.returnUnit_kept, State.modDie_kept]
    | (refine (State.foldl_kept _ ?_ _ _).trans ?_; intros)
    | split

theorem doEpochDrainDone_kept (d : Nat) (s : State) : (doEpochDrainDone d s).kept = s.kept := by
  unfold doEpochDrainDone
  repeat' first
    | with_reducible rfl
    | simp only [State.kept_update, State.fenceRouter_kept, State.modDie_kept]
    | (refine (State.foldl_kept _ ?_ _ _).trans ?_; intros)
    | split

theorem State.wakeChan_kept (s : State) (d c : Nat) : (State.wakeChan s d c).kept = s.kept := by
  unfold State.wakeChan
  repeat' first
    | with_reducible rfl
    | simp only [State.modDie_kept, State.freeNat_kept]
    | split

theorem doWakeRailsReady_kept (d r : Nat) (s : State) : (doWakeRailsReady d r s).kept = s.kept := by
  unfold doWakeRailsReady
  repeat' first
    | with_reducible rfl
    | simp only [State.goDown_kept, State.modDie_kept, State.wakeChan_kept]
    | (refine (State.foldl_kept _ ?_ _ _).trans ?_; intros)

theorem doUcieRetrain_kept (d k m : Nat) (trained : Bool) (s : State) : (doUcieRetrain d k m trained s).kept = s.kept := by
  unfold doUcieRetrain
  repeat' first
    | with_reducible rfl
    | simp only [State.fatal_kept, State.modDie_kept]
    | split

theorem doUcieReplays_kept (d k m replays : Nat) (trained : Bool) (s : State) :
    (doUcieReplays d k m replays trained s).kept = s.kept := by
  unfold doUcieReplays
  repeat' first
    | with_reducible rfl
    | simp only [State.modDie_kept, State.correctedIn_kept, doUcieRetrain_kept]
    | split

theorem doTileGrant_kept (d : Nat) (k : TileKind) (s : State) : (doTileGrant d k s).kept = s.kept := by
  unfold doTileGrant
  repeat' first
    | with_reducible rfl
    | simp only [State.modDie_kept]
    | split

theorem doQuantumExpiry_kept (t : TAt) (s : State) : (doQuantumExpiry t s).kept = s.kept := by
  unfold doQuantumExpiry
  repeat' first
    | with_reducible rfl
    | simp only [State.modCtx_kept, State.tick_kept, State.modDie_kept]
    | split

theorem State.saved_kept (s : State) (t : TAt) (ok : Bool) : (State.saved s t ok).kept = s.kept := by
  unfold State.saved
  repeat' first
    | with_reducible rfl
    | simp only [State.makeReady_kept, State.modCtx_kept, State.failCtx_kept, State.modDie_kept]
    | split

theorem State.leaveHalted_kept (s : State) (t : TAt) (st : CtxState) : (State.leaveHalted s t st).kept = s.kept := by
  unfold State.leaveHalted
  repeat' first
    | with_reducible rfl
    | simp only [State.endCtx_kept, State.modCtx_kept, State.failCtx_kept, State.modDie_kept]
    | split

theorem State.fenceForTest_kept (s : State) (d : Nat) (k : TileKind) (t : Nat) : (State.fenceForTest s d k t).kept = s.kept := by
  unfold State.fenceForTest
  repeat' first
    | with_reducible rfl
    | simp only [State.fenceTile_kept]
    | split

theorem doRinseDone_kept (t : TAt) (s : State) : (doRinseDone t s).kept = s.kept := by
  unfold doRinseDone
  repeat' first
    | with_reducible rfl
    | simp only [State.fenceForTest_kept, State.leaveHalted_kept, State.modDie_kept]
    | split

theorem State.restore_kept (s : State) (t : TAt) (c : Nat) (y : Ctx) : (State.restore s t c y).kept = s.kept := by
  unfold State.restore
  repeat' first
    | with_reducible rfl
    | simp only [State.modDie_kept, State.tick_kept]

theorem doRestoreDone_kept (t : TAt) (bad : Bool) (s : State) : (doRestoreDone t bad s).kept = s.kept := by
  unfold doRestoreDone
  repeat' first
    | with_reducible rfl
    | simp only [State.restore_kept, State.modDie_kept, State.failCtx_kept]
    | split

theorem doRingDrain_kept (d c : Nat) (s : State) : (doRingDrain d c s).kept = s.kept := by
  unfold doRingDrain
  repeat' first
    | with_reducible rfl
    | simp only [State.drained_kept, State.modCtx_kept]
    | split

theorem State.startTest_kept (s : State) (p : Pkt) (die kind unit test : Nat) : (State.startTest s p die kind unit test).kept =
      s.kept := by
  unfold State.startTest
  repeat' first
    | with_reducible rfl
    | simp only [State.linkDown_kept, State.linkRetrain_kept, State.fenceForTest_kept, State.modDie_kept]
    | split

theorem State.runTest_kept (s : State) (i : Instr) (p : Pkt) (die kind unit test : Nat) : (State.runTest s i p die kind unit
      test).kept = s.kept := by
  unfold State.runTest
  repeat' first
    | with_reducible rfl
    | simp only [State.startTest_kept, State.park_kept, State.refuse_kept]
    | split

theorem State.arraysFail_kept (s : State) (d t : Nat) :
    (State.arraysFail s d t).kept = s.kept := by
  unfold State.arraysFail
  repeat' first
    | with_reducible rfl
    | simp only [State.freeNat_kept, State.fenceArray_kept]
    | split

theorem State.testFails_kept (s : State) (d kind u : Nat) :
    (State.testFails s d kind u).kept = s.kept := by
  unfold State.testFails
  repeat' first
    | with_reducible rfl
    | simp only [State.modDie_kept, State.emit_kept, State.arraysFail_kept, State.gateError_kept, State.loseChannel_kept,
        State.fence_kept, State.linkDown_kept, doUcieRetrain_kept, State.selfCheck_kept]
    | (refine (State.foldl_kept _ ?_ _ _).trans ?_; intros)
    | split

theorem doTestDone_kept (d kind unit : Nat) (pass : Bool) (s : State) : (doTestDone d kind unit pass s).kept = s.kept := by
  unfold doTestDone
  repeat' first
    | with_reducible rfl
    | simp only [State.testFails_kept, State.testReply_kept, State.selfCheck_kept, doUcieRetrain_kept, State.returnPort_kept,
      State.modDie_kept]
    | split

theorem doLostEntryRewrite_kept (die handle : Nat) (s : State) : (doLostEntryRewrite die handle s).kept = s.kept := by
  unfold doLostEntryRewrite
  repeat' first
    | with_reducible rfl
    | simp only [State.modDie_kept, State.markGone_kept]

theorem State.startCopy_kept (s : State) (d h : Nat) (l : Loc) : (State.startCopy s d h l).kept = s.kept := by
  unfold State.startCopy
  repeat' first
    | with_reducible rfl
    | simp only [State.modDie_kept]

theorem doCopyEnd_kept (d h : Nat) (srcBad dstBad : Bool) (s : State) : (doCopyEnd d h srcBad dstBad s).kept = s.kept := by
  unfold doCopyEnd
  repeat' first
    | with_reducible rfl
    | simp only [State.retire_kept, State.frameUe_kept, State.modDie_kept]
    | split

theorem State.ageSuspended_kept (s : State) (ms : Nat) :
    (State.ageSuspended s ms).kept = s.kept := by
  unfold State.ageSuspended
  repeat' first
    | with_reducible rfl
    | simp only [State.freeNat_kept, State.modSeq_kept]
    | (refine (State.foldl_kept _ ?_ _ _).trans ?_; intros)

theorem doRetention_kept (ms : Nat) (s : State) : (doRetention ms s).kept = s.kept := by
  unfold doRetention
  repeat' first
    | with_reducible rfl
    | simp only [State.setClass_kept, State.ageSuspended_kept]
    | (refine (State.foldl_kept _ ?_ _ _).trans ?_; intros)

theorem State.modMC_kept (s : State) (d m : Nat) (f : MC → MC) : (State.modMC s d m f).kept = s.kept := by
  unfold State.modMC
  repeat' first
    | with_reducible rfl
    | simp only [State.modDie_kept]

theorem State.mcDone_kept (s : State) (d m : Nat) (q : MReq) (st : Status) (data : List Byte) : (State.mcDone s d m q st data).kept
      = s.kept := by
  unfold State.mcDone
  repeat' first
    | with_reducible rfl
    | simp only [State.modMC_kept]

theorem State.mcSealFault_kept (s : State) (d : Nat) (q : MReq) : (State.mcSealFault s d q).kept = s.kept := by
  unfold State.mcSealFault
  repeat' first
    | with_reducible rfl
    | simp only [State.emit_kept, State.freeNat_kept, State.wringSealFault_kept]
    | split

theorem State.mcCorrected_kept (s : State) (d m : Nat) (ctr : Ctr) (n : Nat) : (State.mcCorrected s d m ctr n).kept = s.kept := by
  unfold State.mcCorrected
  repeat' first
    | with_reducible rfl
    | simp only [State.modDie_kept, State.corrected_kept]

theorem State.moveAway_kept (s : State) (d c f : Nat) : (State.moveAway s d c f).kept = s.kept := by
  unfold State.moveAway
  repeat' first
    | with_reducible rfl
    | simp only [State.moveSheet_kept]
    | split

theorem State.weakReport_kept (s : State) (d c f : Nat) : (State.weakReport s d c f).kept = s.kept := by
  unfold State.weakReport
  repeat' first
    | with_reducible rfl
    | simp only [State.moveAway_kept, State.retire_kept, State.modMC_kept]
    | split

theorem State.mcReport_kept (s : State) (d m : Nat) (q : MReq) (r : MemReport) : (State.mcReport s d m q r).1.kept = s.kept := by
  unfold State.mcReport
  repeat' first
    | with_reducible rfl
    | simp only [State.weakReport_kept, State.mcCorrected_kept, State.frameUe_kept, State.modDie_kept]
    | split

theorem State.perform_kept (s : State) (d m : Nat) (q : MReq) (r : MemReport) : (State.perform s d m q r).kept = s.kept := by
  unfold State.perform
  repeat' first
    | with_reducible rfl
    | simp only [State.modDie_kept, State.mcReport_kept, State.loseChannel_kept, State.mcSealFault_kept, State.mcDone_kept]
    | (refine (State.foldl_kept _ ?_ _ _).trans ?_; intros)
    | split

theorem doMemoryAccess_kept (d m : Nat) (arrivals : List MReq) (act : Option Nat) (r : MemReport) (s : State) : (doMemoryAccess d m
      arrivals act r s).kept = s.kept := by
  unfold doMemoryAccess
  repeat' first
    | with_reducible rfl
    | simp only [State.perform_kept, State.modDie_kept, State.modMC_kept]
    | split

theorem doPatrolScrub_kept (d lc sev b : Nat) (s : State) :
    (doPatrolScrub d lc sev b s).kept = s.kept := by
  unfold doPatrolScrub
  repeat' first
    | with_reducible rfl
    | simp only [State.modMC_kept, State.modDie_kept, State.frameUe_kept, State.mcCorrected_kept]
    | split

theorem doRetrainPause_kept (d c : Nat) (inRange : Bool) (nclk : Nat) (s : State) : (doRetrainPause d c inRange nclk s).kept =
      s.kept := by
  unfold doRetrainPause
  repeat' first
    | with_reducible rfl
    | simp only [State.loseChannel_kept, State.modDie_kept]
    | split

theorem State.queueError_kept (s : State) (q : Nat) (f : Queue → Queue) : (State.queueError s q f).kept = s.kept := by
  unfold State.queueError
  repeat' first
    | with_reducible rfl
    | simp only [State.emit_kept, State.modQueue_kept]

theorem State.ringDoorbell_kept (s : State) (q v : Nat) : (State.ringDoorbell s q v).kept = s.kept := by
  unfold State.ringDoorbell
  repeat' first
    | with_reducible rfl
    | simp only [State.queueError_kept, State.modQueue_kept]
    | split

theorem State.qcbWrite_kept (s : State) (q o v : Nat) : (State.qcbWrite s q o v).kept = s.kept := by
  unfold State.qcbWrite
  repeat' first
    | with_reducible rfl
    | simp only [State.setQueue_kept, State.ringDoorbell_kept]
    | split

theorem State.countIn_kept (s : State) : (State.countIn s).kept = s.kept := by
  unfold State.countIn
  repeat' first
    | with_reducible rfl
    | simp only [State.modDie_kept]

theorem State.hostReg_kept (s : State) (f q o v : Nat) : (State.hostReg s f q o v).kept = s.kept := by
  unfold State.hostReg
  repeat' first
    | with_reducible rfl
    | simp only [State.qcbWrite_kept, State.countIn_kept]
    | split

theorem State.windowByte_kept (s : State) (f a : Nat) (b : Byte) : (State.windowByte s f a b).kept = s.kept := by
  unfold State.windowByte
  repeat' first
    | with_reducible rfl
    | simp only [State.setQueue_kept]
    | split

theorem State.barWords_kept (s : State) (f off : Nat) (data : List Byte) : (State.barWords s f off data).kept = s.kept := by
  unfold State.barWords
  repeat' first
    | with_reducible rfl
    | simp only [State.qcbWrite_kept]
    | split

theorem State.unmasked_kept (s : State) (f : Nat) : (State.unmasked s f).kept = s.kept := by
  unfold State.unmasked
  repeat' first
    | with_reducible rfl
    | simp only [State.modFunc_kept, State.raiseVec_kept]
    | (refine (State.foldl_kept _ ?_ _ _).trans ?_; intros)
    | split

theorem State.msixWrite_kept (s : State) (f off : Nat) (data : List Byte) : (State.msixWrite s f off data).kept = s.kept := by
  unfold State.msixWrite
  repeat' first
    | with_reducible rfl
    | simp only [State.modFunc_kept, State.unmasked_kept]

theorem State.barWrite_kept (s : State) (f bar off : Nat) (data : List Byte) : (State.barWrite s f bar off data).kept = s.kept := by
  unfold State.barWrite
  repeat' first
    | with_reducible rfl
    | simp only [State.msixWrite_kept, State.barWords_kept, State.windowByte_kept]
    | (refine (State.foldl_kept _ ?_ _ _).trans ?_; intros)
    | split

theorem doHostBarWrite_kept (f bar off : Nat) (data : List Byte) (poisoned : Bool) (s : State) : (doHostBarWrite f bar off data
      poisoned s).kept = s.kept := by
  unfold doHostBarWrite
  repeat' first
    | with_reducible rfl
    | simp only [State.barWrite_kept, State.modDie_kept, State.countIn_kept]
    | split

theorem doQueueCreate_kept (p : Pkt) (queue die cls tenant func vector : Nat) (base : BitVec 64) (log2size coalCount coalUs : Nat)
      (first : BitVec 32) (s : State) : (doQueueCreate p queue die cls tenant func vector base log2size coalCount coalUs first
      s).kept = s.kept := by
  unfold doQueueCreate
  repeat' first
    | with_reducible rfl
    | simp only [State.modQueue_kept, State.ok_kept]

theorem doQueueDestroy_kept (p : Pkt) (q : Nat) (s : State) :
    (doQueueDestroy p q s).kept = s.kept := by
  unfold doQueueDestroy
  repeat' first
    | with_reducible rfl
    | simp only [State.drainQueue_kept, State.modQueue_kept, State.complete_kept]
    | split

theorem State.dropQueue_kept (s : State) (q : Nat) : (State.dropQueue s q).kept = s.kept := by
  unfold State.dropQueue
  repeat' first
    | with_reducible rfl
    | simp only [State.settleTenant_kept, State.ok_kept, State.setQueue_kept]
    | split

theorem State.postReply_kept (s : State) (q : Nat) : (State.postReply s q).kept = s.kept := by
  unfold State.postReply
  repeat' first
    | with_reducible rfl
    | simp only [State.post_kept, State.modQueue_kept]
    | split

theorem doIrqCoalesceTimer_kept (q : Nat) (s : State) : (doIrqCoalesceTimer q s).kept = s.kept := by
  unfold doIrqCoalesceTimer
  repeat' first
    | with_reducible rfl
    | simp only [State.modQueue_kept, State.raiseVec_kept]

theorem doEventPost_kept (s : State) : (doEventPost s).kept = s.kept := by
  unfold doEventPost
  repeat' first
    | with_reducible rfl
    | simp only [State.kept_update, State.routeEvent_kept, State.postHeld_kept]
    | (refine (State.foldl_kept _ ?_ _ _).trans ?_; intros)
    | split

theorem State.flrOne_kept (s : State) (f : Nat) : (State.flrOne s f).kept = s.kept := by
  unfold State.flrOne
  repeat' first
    | with_reducible rfl
    | simp only [State.dropQueue_kept, State.modFunc_kept]
    | (refine (State.foldl_kept _ ?_ _ _).trans ?_; intros)

theorem State.flrAll_kept (s : State) : (State.flrAll s).kept = s.kept := by
  unfold State.flrAll
  repeat' first
    | with_reducible rfl
    | simp only [State.kept_update, State.dropQueue_kept]
    | (refine (State.foldl_kept _ ?_ _ _).trans ?_; intros)

theorem doHostPerst_kept (level : Bool) (s : State) : (doHostPerst level s).kept = s.kept := by
  unfold doHostPerst
  repeat' first
    | with_reducible rfl
    | simp only [State.kept_update, State.flrAll_kept]
    | split

theorem State.checkPacket_kept (s : State) (q : Nat) (l : List Byte) : (State.checkPacket s q l).kept = s.kept := by
  unfold State.checkPacket
  repeat' first
    | with_reducible rfl
    | simp only [State.modQueue_kept, State.addReplies_kept]
    | split

theorem doPacketTake_kept (q : Nat) (s : State) : (doPacketTake q s).kept = s.kept := by
  unfold doPacketTake
  repeat' first
    | with_reducible rfl
    | simp only [State.checkPacket_kept, State.modQueue_kept, State.queueError_kept]
    | split

theorem State.modPsi_kept (s : State) (f : Psiurn → Psiurn) (h : ∀ y, (f y).kept = y.kept) : (s.modPsi f).kept = s.kept := by
  simp [State.kept, State.modPsi, h]

theorem State.loadSealing_kept (s : State) (p : Pkt) (t : Nat) (m : BitVec 8) (k : BitVec 256 × BitVec 256) : (State.loadSealing s
      p t m k).kept = s.kept := by
  unfold State.loadSealing
  repeat' first
    | with_reducible rfl
    | simp only [State.modDie_kept, State.finish_kept]
    | (refine (State.foldl_kept _ ?_ _ _).trans ?_; intros)

theorem State.modDebug_kept (s : State) (f : Debug → Debug) : (State.modDebug s f).kept = s.kept := by
  unfold State.modDebug
  repeat' first
    | with_reducible rfl
    | simp only [Psiurn.kept_update]
    | (refine (State.modPsi_kept _ _ ?_).trans ?_; intros)

theorem State.present_kept (s : State) (p : Pkt) (k : DebugToken) : (State.present s p k).kept = s.kept := by
  unfold State.present
  repeat' first
    | with_reducible rfl
    | simp only [State.ok_kept, State.modDebug_kept, State.refuse_kept]
    | split

theorem State.sideReply_kept (s : State) (l : List Byte) : (State.sideReply s l).kept = s.kept := by
  unfold State.sideReply
  repeat' first
    | with_reducible rfl
    | simp only [Psiurn.kept_update]
    | (refine (State.modPsi_kept _ _ ?_).trans ?_; intros)

theorem State.modSide_kept (s : State) (f : Sideband → Sideband) : (State.modSide s f).kept = s.kept := by
  unfold State.modSide
  repeat' first
    | with_reducible rfl
    | simp only [Psiurn.kept_update]
    | (refine (State.modPsi_kept _ _ ?_).trans ?_; intros)

theorem doMboxGo_kept (s : State) : (doMboxGo s).kept = s.kept := by
  unfold doMboxGo
  repeat' first
    | with_reducible rfl
    | simp only [State.addReplies_kept, State.modSide_kept]
    | split

theorem State.clearRc_kept (s : State) (d off m : Nat) : (State.clearRc s d off m).kept = s.kept := by
  unfold State.clearRc
  repeat' first
    | with_reducible rfl
    | simp only [State.modDie_kept, State.modQueue_kept]
    | split

theorem State.pairRead_kept (s : State) (path : RegPath) (d k : Nat) (hi : Bool) : (State.pairRead s path d k hi).2.kept = s.kept
      := by
  unfold State.pairRead
  repeat' first
    | with_reducible rfl
    | simp only [State.setDie_kept]
    | split

theorem State.readWord_kept (s : State) (path : RegPath) (d off : Nat) : (State.readWord s path d off).2.kept = s.kept := by
  unfold State.readWord
  repeat' first
    | with_reducible rfl
    | simp only [State.clearRc_kept, State.pairRead_kept]
    | split

theorem State.readBit_kept (s : State) (path : RegPath) (d off b : Nat) : (State.readBit s path d off b).2.kept = s.kept := by
  unfold State.readBit
  repeat' first
    | with_reducible rfl
    | simp only [State.clearRc_kept]
    | split

theorem State.readOff_kept (s : State) (path : RegPath) (d off : Nat) : (State.readOff s path d off).2.kept = s.kept := by
  unfold State.readOff
  repeat' first
    | with_reducible rfl
    | simp only [State.readWord_kept, State.readBit_kept]
    | split

theorem State.applyPw_kept (s : State) (d off v : Nat) : (State.applyPw s d off v).kept = s.kept := by
  unfold State.applyPw
  repeat' first
    | with_reducible rfl
    | simp only [State.feltPressed_kept, State.modDie_kept]
    | split

theorem State.press_kept (s : State) (d groups : Nat) : (State.press s d groups).kept = s.kept := by
  unfold State.press
  repeat' first
    | with_reducible rfl
    | simp only [State.applyPw_kept]
    | (refine (State.foldl_kept _ ?_ _ _).trans ?_; intros)
    | split

theorem State.cancelPress_kept (s : State) (d groups : Nat) : (State.cancelPress s d groups).kept = s.kept := by
  unfold State.cancelPress
  repeat' first
    | with_reducible rfl
    | simp only [State.modDie_kept]

theorem State.writeWord_kept (s : State) (path : RegPath) (d off v : Nat) : (State.writeWord s path d off v).kept = s.kept := by
  unfold State.writeWord
  repeat' first
    | with_reducible rfl
    | simp only [State.linkRetrain_kept, State.modDie_kept, State.cancelPress_kept, State.press_kept, State.qcbWrite_kept]
    | split

theorem State.writeBit_kept (s : State) (d off b v : Nat) : (State.writeBit s d off b v).kept = s.kept := by
  unfold State.writeBit
  repeat' first
    | with_reducible rfl
    | simp only [State.linkRetrain_kept, State.modDie_kept, State.qcbWrite_kept]
    | split

theorem State.writeAnswer_kept (s : State) (path : RegPath) (done : Bool) : (State.writeAnswer s path done).kept = s.kept := by
  unfold State.writeAnswer
  repeat' first
    | with_reducible rfl
    | simp only [State.sideReply_kept]
    | split

theorem State.writeOff_kept (s : State) (path : RegPath) (d off v : Nat) : (State.writeOff s path d off v).kept = s.kept := by
  unfold State.writeOff
  repeat' first
    | with_reducible rfl
    | simp only [State.writeWord_kept, State.writeBit_kept, State.writeAnswer_kept]
    | split

theorem State.putRead_kept (p : Nat × State) (path : RegPath) : (State.putRead p path).kept = p.2.kept := by
  unfold State.putRead
  cases path <;> simp [State.sideReply_kept]

theorem State.restoreBlock_kept (s : State) (d b : Nat) : (State.restoreBlock s d b).kept = s.kept := by
  unfold State.restoreBlock
  repeat' first
    | with_reducible rfl
    | simp only [State.modDie_kept, State.applyPw_kept]
    | (refine (State.foldl_kept _ ?_ _ _).trans ?_; intros)

theorem State.mismatch_kept (s : State) (d b : Nat) : (State.mismatch s d b).kept = s.kept := by
  unfold State.mismatch
  repeat' first
    | with_reducible rfl
    | simp only [State.selfCheck_kept, State.restoreBlock_kept, State.emit_kept, State.fence_kept, State.modDie_kept,
      ]
    | split

theorem doCfgCrcPass_kept (d b : Nat) (s : State) : (doCfgCrcPass d b s).kept = s.kept := by
  unfold doCfgCrcPass
  repeat' first
    | with_reducible rfl
    | simp only [State.mismatch_kept, State.modDie_kept]
    | split

theorem doVinExcursion_kept (k : VinKind) (s : State) :
    (doVinExcursion k s).kept = if k = .below36 then s.packageReset.kept else s.kept := by
  cases k with
  | below36 => rfl
  | holdUp mv => exact State.fatal_kept ..
  | above63 => exact State.fatal_kept ..

theorem State.bootStop_kept (s : State) (st : Status) : (State.bootStop s st).kept = s.kept := by
  unfold State.bootStop
  repeat' first
    | with_reducible rfl
    | simp only [Psiurn.kept_update]
    | (refine (State.modPsi_kept _ _ ?_).trans ?_; intros)

theorem State.bootDie_kept (s : State) (f : BootFacts) (d : Nat) : (State.bootDie s f d).kept = s.kept := by
  unfold State.bootDie
  repeat' first
    | with_reducible rfl
    | simp only [State.kept_update, State.linkDetect_kept, State.emit_kept, State.setDie_kept, State.loseDie_kept]
    | (refine (State.foldl_kept _ ?_ _ _).trans ?_; intros)
    | split

theorem State.bootDies_kept (s : State) (f : BootFacts) (h : List Byte) : (State.bootDies s f h).kept = s.kept := by
  unfold State.bootDies
  repeat' first
    | with_reducible rfl
    | simp only [State.kept_update, Psiurn.kept_update, State.bootDie_kept, State.freeNat_kept, State.fatal_kept]
    | (refine (State.foldl_kept _ ?_ _ _).trans ?_; intros)
    | (refine (State.modPsi_kept _ _ ?_).trans ?_; intros)
    | split

theorem State.bootImage_kept (s : State) (f : BootFacts) : (State.bootImage s f).kept = s.kept := by
  unfold State.bootImage
  split
  · exact State.bootStop_kept ..
  · extract_lets slot
    split
    · exact State.bootStop_kept ..
    · exact State.bootDies_kept ..

theorem State.boot_kept (s : State) (f : BootFacts) : (State.boot s f).kept = s.kept := by
  unfold State.boot
  split
  · exact State.fatal_kept ..
  · exact (State.bootImage_kept ..).trans (State.modPsi_kept _ _ fun _ => rfl)

/-- A package that leaves reset loads its flash with what the board put there, and keeps the rest. -/
theorem State.leaveReset_kept (s : State) (f : BootFacts) :
    (State.leaveReset s f).kept =
      ({ s with psi := { s.psi with flash := f.flash.foldl (fun m w => mwriteN m w.1 w.2) s.psi.flash } } : State).kept := by
  unfold State.leaveReset
  split
  split
  · refine (State.foldl_kept _ (fun s d => State.modDie_kept ..) _ _).trans ?_
    rename_i heq _
    cases heq
    rfl
  · rename_i heq _
    cases heq
    exact State.boot_kept ..

theorem State.startRegions_kept (s : State) (h : List Byte) (t : Tbl (BitVec 1024)) (chk : ImgChk) :
    (State.startRegions s h t chk).kept = s.kept := by
  unfold State.startRegions
  repeat' first
    | with_reducible rfl
    | simp only [State.modDie_kept]
    | (refine (State.foldl_kept _ ?_ _ _).trans ?_; intros)

theorem State.releaseCfgDone_kept (s : State) : (State.releaseCfgDone s).kept = s.kept := by
  unfold State.releaseCfgDone
  repeat' first
    | with_reducible rfl
    | simp only [State.kept_update, Psiurn.kept_update]
    | (refine (State.modPsi_kept _ _ ?_).trans ?_; intros)

theorem State.startImage_kept (s : State) (a : Nat) (t : Tbl (BitVec 1024)) (bad : List Nat) (chk : ImgChk) :
    (State.startImage s a t bad chk).kept = s.kept := by
  unfold State.startImage
  repeat' first
    | with_reducible rfl
    | simp only [State.startRegions_kept, State.modDie_kept, State.emit_kept]
    | (refine (State.foldl_kept _ ?_ _ _).trans ?_; intros)

theorem State.startFails_kept (s : State) (which a : Nat) (st : Status) (detail : Nat) : (State.startFails s which a st
      detail).kept = s.kept := by
  unfold State.startFails
  repeat' first
    | with_reducible rfl
    | simp only [Psiurn.kept_update, State.emit_kept]
    | (refine (State.modPsi_kept _ _ ?_).trans ?_; intros)

theorem State.startFallback_kept (s : State) (b : Nat) (chk : ImgChk) : (State.startFallback s b chk).kept = s.kept := by
  unfold State.startFallback
  split
  · rfl
  · split
    · exact State.startFails_kept ..
    · rw [State.startImage_kept, State.modPsi_kept _ _ (by intro y; rfl)]

theorem doStartUpImageLoad_kept (primary fallback : ImgChk) (s : State) :
    (doStartUpImageLoad primary fallback s).kept = s.kept := by
  unfold doStartUpImageLoad
  extract_lets dir a
  split
  · rw [State.releaseCfgDone_kept, State.emit_kept, State.modPsi_kept _ _ (by intro y; rfl)]
  · split
    · rw [State.releaseCfgDone_kept, State.startImage_kept]
    · rw [State.releaseCfgDone_kept, State.startFallback_kept, State.startFails_kept]

theorem State.reachStep_kept (s : State) (n : Nat) : (State.reachStep s n).kept = s.kept := by
  unfold State.reachStep
  repeat' first
    | with_reducible rfl
    | simp only [Psiurn.kept_update]
    | (refine (State.modPsi_kept _ _ ?_).trans ?_; intros)

theorem doCfgDoneHigh_kept (d : Nat) (s : State) : (doCfgDoneHigh d s).kept = s.kept := by
  unfold doCfgDoneHigh
  repeat' first
    | with_reducible rfl
    | simp only [State.modDie_kept, State.reachStep_kept]

theorem State.doThreadFetch_kept (s : State) (d th : Nat) :
    (State.doThreadFetch s d th).kept = s.kept := by
  unfold State.doThreadFetch
  repeat' first
    | with_reducible rfl
    | simp only [State.modDie_kept]
    | split

theorem State.doBlockArrive_kept (s : State) (d th pos : Nat) : (State.doBlockArrive s d th pos).kept = s.kept := by
  unfold State.doBlockArrive
  repeat' first
    | with_reducible rfl
    | simp only [State.modDie_kept]
    | split

theorem State.moveBurst_kept (s : State) (d : Nat) (y : Ctx) (t : Nat) (r : SRun) : (State.moveBurst s d y t r).kept = s.kept := by
  unfold State.moveBurst
  dsimp only
  repeat' split
  all_goals first
    | rfl
    | simp only [State.modDie_kept, State.grantCount_kept, State.grantWrite_kept]

theorem State.sealFault_kept (s : State) (d node : Nat) : (State.sealFault s d node).kept = s.kept := by
  unfold State.sealFault
  repeat' first
    | with_reducible rfl
    | simp only [State.emit_kept, State.freeNat_kept]

theorem State.burstError_kept (s : State) (d : Nat) (y : Ctx) (r : SRun) : (State.burstError s d y r).kept = s.kept := by
  unfold State.burstError
  repeat' first
    | with_reducible rfl
    | simp only [State.frameUe_kept]
    | split

theorem State.poisonModel_kept (s : State) (model : Nat) :
    (State.poisonModel s model).kept = s.kept := by
  unfold State.poisonModel
  repeat' first
    | with_reducible rfl
    | simp only [State.kept_update]
    | split

theorem State.doneFetch_kept (s : State) (d th : Nat) (h : Thread) (f : TFetch) (k : BlkPos) (bytes : List Byte) (bad : Bool) :
    (State.doneFetch s d th h f k bytes bad).kept = s.kept := by
  unfold State.doneFetch
  repeat' first
    | with_reducible rfl
    | simp only [State.modDie_kept, State.writeRec_kept, State.sendAdd_kept]
    | split

theorem State.sourceBurst_kept (s : State) (d e th : Nat) (r : SRun) (bad : Bool) :
    (State.sourceBurst s d e th r bad).kept = s.kept := by
  unfold State.sourceBurst
  repeat' first
    | with_reducible rfl
    | simp only [State.sealFault_kept, State.burstError_kept, State.grantCount_kept, State.poisonModel_kept,
        State.modDie_kept, State.doneFetch_kept]
    | split

theorem State.ctxBurst_kept (s : State) (d e : Nat) (y : Ctx) (t : Nat) (r : SRun) (bad : Bool) :
    (State.ctxBurst s d e y t r bad).1.kept = s.kept := by
  unfold State.ctxBurst
  dsimp only
  repeat' split
  all_goals first
    | rfl
    | simp only [State.modDie_kept, State.sealFault_kept, State.burstError_kept, State.moveBurst_kept]

theorem State.doBurst_kept (s : State) (d e : Nat) (bad : Bool) : (State.doBurst s d e bad).kept = s.kept := by
  unfold State.doBurst
  dsimp only
  repeat' split
  all_goals first
    | rfl
    | simp only [State.modDie_kept, State.tick_kept, State.sourceBurst_kept, State.ctxBurst_kept]

theorem State.doStreamComplete_kept (s : State) (d n : Nat) :
    (State.doStreamComplete s d n).kept = s.kept := by
  unfold State.doStreamComplete
  repeat' first
    | with_reducible rfl
    | simp only [State.writeRec_kept, State.failServed_kept, State.sendAdd_kept, State.modDie_kept]
    | split

theorem State.vhalt_kept (s : State) (t : VAt) (st : Status) : (State.vhalt s t st).kept = s.kept := by
  unfold State.vhalt
  repeat' first
    | with_reducible rfl
    | simp only [State.writeRec_kept, State.haltOn_kept]

theorem State.vcommit_kept (s : State) (op : Nat) (t : VAt) (w : VW) (f : VCore → VIn → VRes) (pre : VCore → VCore) (post : VCore →
      VCore × Nat) : (State.vcommit s op t w f pre post).kept = s.kept := by
  unfold State.vcommit
  repeat' first
    | with_reducible rfl
    | simp only [State.modDie_kept]

theorem State.vword_kept (s : State) (op : Nat) (t : VAt) (w : VW) (go : State → State) (h : ∀ s, (go s).kept = s.kept) :
    (State.vword s op t w go).kept = s.kept := by
  unfold State.vword
  simp only []
  repeat' split
  all_goals simp only [h, State.fenceTile_kept, State.writeRec_kept, State.corrected_kept, State.vhalt_kept]

theorem State.vplain_kept (s : State) (op : Nat) (t : VAt) (w : VW) (f : VIn → VRes) : (State.vplain s op t w f).kept = s.kept := by
  unfold State.vplain
  repeat' first
    | with_reducible rfl
    | (refine State.vword_kept _ _ _ _ _ ?_; intros)
    | simp only [State.vcommit_kept]

theorem State.doHalt_kept (s : State) (t : VAt) (w : VW) : (State.doHalt s t w).kept = s.kept := by
  unfold State.doHalt
  repeat' first
    | with_reducible rfl
    | simp only [State.haltOn_kept, State.sendAdd_kept, State.writeRec_kept]
    | split

theorem State.kwaitNow_kept (s : State) (t : VAt) (k : Nat) (target : BitVec 64) : (State.kwaitNow s t k target).kept = s.kept := by
  unfold State.kwaitNow
  repeat' first
    | with_reducible rfl
    | simp only [State.modDie_kept, State.modCtx_kept, State.tick_kept, State.vhalt_kept]
    | split

theorem State.vsetup_kept (s : State) (op : Nat) (t : VAt) (w : VW) (f : Ptr → Ptr) : (State.vsetup s op t w f).kept = s.kept := by
  unfold State.vsetup
  repeat' first
    | with_reducible rfl
    | (refine State.vword_kept _ _ _ _ _ ?_; intros)
    | simp only [State.vcommit_kept]

theorem State.rerun_kept (s : State) (i : Instr) : (State.rerun s i).kept = s.kept := by
  unfold State.rerun
  repeat' first
    | with_reducible rfl
    | simp only [State.runFabricRead_kept, State.runLoadAbandon_kept, State.runLoadBind_kept,
      State.runLoadFlash_kept, State.runLoadPart_kept, State.runTest_kept, State.runExec_kept, State.runStateWake_kept,
      State.runStateIdle_kept, State.runSeqQuery_kept, State.runHintUnpin_kept, State.runHintPin_kept, State.runHintDemote_kept,
      State.runHintPromote_kept, State.runSeqTruncate_kept, State.runSeqResume_kept, State.runSeqSuspend_kept,
      State.runSeqClose_kept, State.runCtxRead_kept]
    | split

theorem State.resume_kept (s : State) : (State.resume s).kept = s.kept := by
  unfold State.resume
  repeat' first
    | with_reducible rfl
    | simp only [State.kept_update, State.rerun_kept]
    | (refine (State.foldl_kept _ ?_ _ _).trans ?_; intros)

theorem doDispatchComplete_kept (id : Nat) (outs : List (List Byte)) (s : State) : (doDispatchComplete id outs s).kept =
      s.kept := by
  unfold doDispatchComplete
  split
  · exact State.endStep_kept ..
  · rfl

theorem State.reachFor_kept (s : State) (a : RAt) (n : Nat) (t : State) (h : t.kept = s.kept) :
    (State.reachFor s a n t).kept = s.kept := by
  unfold State.reachFor
  split
  · rw [State.reachStep_kept, h]
  · exact h

theorem State.unwaitDie_kept (s : State) (d : Nat) : (State.unwaitDie s d).kept = s.kept := by
  unfold State.unwaitDie
  repeat' first
    | with_reducible rfl
    | simp only [State.kept_update, State.endIdle_kept, State.settleKeys_kept, State.settleLimits_kept]
    | (refine (State.foldl_kept _ ?_ _ _).trans ?_; intros)

theorem doDieLoss_kept (d cause : Nat) (s : State) : (doDieLoss d cause s).kept = s.kept := by
  unfold doDieLoss
  repeat' first
    | with_reducible rfl
    | simp only [State.loseDie_kept, State.unwaitDie_kept, State.resume_kept]

end Sys2Proof.Machine
end

