-- ==== Sys2Proof/Laws/State.lean ====
section
/-! SUPPORT. One lemma per field per update of State, and per field of Die and update that names one table: each true by rfl. -/

namespace Sys2Proof.Machine

/-! ## State -/

@[simp] theorem State.setDie_pending (s : State) (d : Nat) (x : Die) : (s.setDie d x).pending = s.pending := rfl
@[simp] theorem State.setDie_part (s : State) (d : Nat) (x : Die) : (s.setDie d x).part = s.part := rfl
@[simp] theorem State.setDie_pins (s : State) (d : Nat) (x : Die) : (s.setDie d x).pins = s.pins := rfl
@[simp] theorem State.setDie_psi (s : State) (d : Nat) (x : Die) : (s.setDie d x).psi = s.psi := rfl
@[simp] theorem State.setDie_hostUp (s : State) (d : Nat) (x : Die) : (s.setDie d x).hostUp = s.hostUp := rfl
@[simp] theorem State.setDie_queues (s : State) (d : Nat) (x : Die) : (s.setDie d x).queues = s.queues := rfl
@[simp] theorem State.setDie_funcs (s : State) (d : Nat) (x : Die) : (s.setDie d x).funcs = s.funcs := rfl
@[simp] theorem State.setDie_msix (s : State) (d : Nat) (x : Die) : (s.setDie d x).msix = s.msix := rfl
@[simp] theorem State.setDie_raised (s : State) (d : Nat) (x : Die) : (s.setDie d x).raised = s.raised := rfl
@[simp] theorem State.setDie_tenants (s : State) (d : Nat) (x : Die) : (s.setDie d x).tenants = s.tenants := rfl
@[simp] theorem State.setDie_models (s : State) (d : Nat) (x : Die) : (s.setDie d x).models = s.models := rfl
@[simp] theorem State.setDie_seqs (s : State) (d : Nat) (x : Die) : (s.setDie d x).seqs = s.seqs := rfl
@[simp] theorem State.setDie_disps (s : State) (d : Nat) (x : Die) : (s.setDie d x).disps = s.disps := rfl
@[simp] theorem State.setDie_idles (s : State) (d : Nat) (x : Die) : (s.setDie d x).idles = s.idles := rfl
@[simp] theorem State.setDie_keyWaits (s : State) (d : Nat) (x : Die) : (s.setDie d x).keyWaits = s.keyWaits := rfl
@[simp] theorem State.setDie_limits (s : State) (d : Nat) (x : Die) : (s.setDie d x).limits = s.limits := rfl
@[simp] theorem State.setDie_waiting (s : State) (d : Nat) (x : Die) : (s.setDie d x).waiting = s.waiting := rfl
@[simp] theorem State.setDie_epochOp (s : State) (d : Nat) (x : Die) : (s.setDie d x).epochOp = s.epochOp := rfl
@[simp] theorem State.setDie_regOut (s : State) (d : Nat) (x : Die) : (s.setDie d x).regOut = s.regOut := rfl
@[simp] theorem State.setDie_freeCount (s : State) (d : Nat) (x : Die) : (s.setDie d x).freeCount = s.freeCount := rfl
@[simp] theorem State.setDie_stamp (s : State) (d : Nat) (x : Die) : (s.setDie d x).stamp = s.stamp := rfl

@[simp] theorem State.modDie_pending (s : State) (d : Nat) (f : Die → Die) : (s.modDie d f).pending = s.pending := rfl
@[simp] theorem State.modDie_part (s : State) (d : Nat) (f : Die → Die) : (s.modDie d f).part = s.part := rfl
@[simp] theorem State.modDie_pins (s : State) (d : Nat) (f : Die → Die) : (s.modDie d f).pins = s.pins := rfl
@[simp] theorem State.modDie_psi (s : State) (d : Nat) (f : Die → Die) : (s.modDie d f).psi = s.psi := rfl
@[simp] theorem State.modDie_hostUp (s : State) (d : Nat) (f : Die → Die) : (s.modDie d f).hostUp = s.hostUp := rfl
@[simp] theorem State.modDie_queues (s : State) (d : Nat) (f : Die → Die) : (s.modDie d f).queues = s.queues := rfl
@[simp] theorem State.modDie_funcs (s : State) (d : Nat) (f : Die → Die) : (s.modDie d f).funcs = s.funcs := rfl
@[simp] theorem State.modDie_msix (s : State) (d : Nat) (f : Die → Die) : (s.modDie d f).msix = s.msix := rfl
@[simp] theorem State.modDie_raised (s : State) (d : Nat) (f : Die → Die) : (s.modDie d f).raised = s.raised := rfl
@[simp] theorem State.modDie_tenants (s : State) (d : Nat) (f : Die → Die) : (s.modDie d f).tenants = s.tenants := rfl
@[simp] theorem State.modDie_models (s : State) (d : Nat) (f : Die → Die) : (s.modDie d f).models = s.models := rfl
@[simp] theorem State.modDie_seqs (s : State) (d : Nat) (f : Die → Die) : (s.modDie d f).seqs = s.seqs := rfl
@[simp] theorem State.modDie_disps (s : State) (d : Nat) (f : Die → Die) : (s.modDie d f).disps = s.disps := rfl
@[simp] theorem State.modDie_idles (s : State) (d : Nat) (f : Die → Die) : (s.modDie d f).idles = s.idles := rfl
@[simp] theorem State.modDie_keyWaits (s : State) (d : Nat) (f : Die → Die) : (s.modDie d f).keyWaits = s.keyWaits := rfl
@[simp] theorem State.modDie_limits (s : State) (d : Nat) (f : Die → Die) : (s.modDie d f).limits = s.limits := rfl
@[simp] theorem State.modDie_waiting (s : State) (d : Nat) (f : Die → Die) : (s.modDie d f).waiting = s.waiting := rfl
@[simp] theorem State.modDie_epochOp (s : State) (d : Nat) (f : Die → Die) : (s.modDie d f).epochOp = s.epochOp := rfl
@[simp] theorem State.modDie_regOut (s : State) (d : Nat) (f : Die → Die) : (s.modDie d f).regOut = s.regOut := rfl
@[simp] theorem State.modDie_freeCount (s : State) (d : Nat) (f : Die → Die) : (s.modDie d f).freeCount = s.freeCount := rfl
@[simp] theorem State.modDie_stamp (s : State) (d : Nat) (f : Die → Die) : (s.modDie d f).stamp = s.stamp := rfl

@[simp] theorem State.setQueue_pending (s : State) (q : Nat) (x : Queue) : (s.setQueue q x).pending = s.pending := rfl
@[simp] theorem State.setQueue_part (s : State) (q : Nat) (x : Queue) : (s.setQueue q x).part = s.part := rfl
@[simp] theorem State.setQueue_pins (s : State) (q : Nat) (x : Queue) : (s.setQueue q x).pins = s.pins := rfl
@[simp] theorem State.setQueue_psi (s : State) (q : Nat) (x : Queue) : (s.setQueue q x).psi = s.psi := rfl
@[simp] theorem State.setQueue_hostUp (s : State) (q : Nat) (x : Queue) : (s.setQueue q x).hostUp = s.hostUp := rfl
@[simp] theorem State.setQueue_funcs (s : State) (q : Nat) (x : Queue) : (s.setQueue q x).funcs = s.funcs := rfl
@[simp] theorem State.setQueue_msix (s : State) (q : Nat) (x : Queue) : (s.setQueue q x).msix = s.msix := rfl
@[simp] theorem State.setQueue_raised (s : State) (q : Nat) (x : Queue) : (s.setQueue q x).raised = s.raised := rfl
@[simp] theorem State.setQueue_tenants (s : State) (q : Nat) (x : Queue) : (s.setQueue q x).tenants = s.tenants := rfl
@[simp] theorem State.setQueue_models (s : State) (q : Nat) (x : Queue) : (s.setQueue q x).models = s.models := rfl
@[simp] theorem State.setQueue_seqs (s : State) (q : Nat) (x : Queue) : (s.setQueue q x).seqs = s.seqs := rfl
@[simp] theorem State.setQueue_disps (s : State) (q : Nat) (x : Queue) : (s.setQueue q x).disps = s.disps := rfl
@[simp] theorem State.setQueue_idles (s : State) (q : Nat) (x : Queue) : (s.setQueue q x).idles = s.idles := rfl
@[simp] theorem State.setQueue_keyWaits (s : State) (q : Nat) (x : Queue) : (s.setQueue q x).keyWaits = s.keyWaits := rfl
@[simp] theorem State.setQueue_limits (s : State) (q : Nat) (x : Queue) : (s.setQueue q x).limits = s.limits := rfl
@[simp] theorem State.setQueue_waiting (s : State) (q : Nat) (x : Queue) : (s.setQueue q x).waiting = s.waiting := rfl
@[simp] theorem State.setQueue_dies (s : State) (q : Nat) (x : Queue) : (s.setQueue q x).dies = s.dies := rfl
@[simp] theorem State.setQueue_epochOp (s : State) (q : Nat) (x : Queue) : (s.setQueue q x).epochOp = s.epochOp := rfl
@[simp] theorem State.setQueue_regOut (s : State) (q : Nat) (x : Queue) : (s.setQueue q x).regOut = s.regOut := rfl
@[simp] theorem State.setQueue_freeCount (s : State) (q : Nat) (x : Queue) : (s.setQueue q x).freeCount = s.freeCount := rfl
@[simp] theorem State.setQueue_stamp (s : State) (q : Nat) (x : Queue) : (s.setQueue q x).stamp = s.stamp := rfl

@[simp] theorem State.modQueue_pending (s : State) (q : Nat) (f : Queue → Queue) : (s.modQueue q f).pending = s.pending := rfl
@[simp] theorem State.modQueue_part (s : State) (q : Nat) (f : Queue → Queue) : (s.modQueue q f).part = s.part := rfl
@[simp] theorem State.modQueue_pins (s : State) (q : Nat) (f : Queue → Queue) : (s.modQueue q f).pins = s.pins := rfl
@[simp] theorem State.modQueue_psi (s : State) (q : Nat) (f : Queue → Queue) : (s.modQueue q f).psi = s.psi := rfl
@[simp] theorem State.modQueue_hostUp (s : State) (q : Nat) (f : Queue → Queue) : (s.modQueue q f).hostUp = s.hostUp := rfl
@[simp] theorem State.modQueue_funcs (s : State) (q : Nat) (f : Queue → Queue) : (s.modQueue q f).funcs = s.funcs := rfl
@[simp] theorem State.modQueue_msix (s : State) (q : Nat) (f : Queue → Queue) : (s.modQueue q f).msix = s.msix := rfl
@[simp] theorem State.modQueue_raised (s : State) (q : Nat) (f : Queue → Queue) : (s.modQueue q f).raised = s.raised := rfl
@[simp] theorem State.modQueue_tenants (s : State) (q : Nat) (f : Queue → Queue) : (s.modQueue q f).tenants = s.tenants := rfl
@[simp] theorem State.modQueue_models (s : State) (q : Nat) (f : Queue → Queue) : (s.modQueue q f).models = s.models := rfl
@[simp] theorem State.modQueue_seqs (s : State) (q : Nat) (f : Queue → Queue) : (s.modQueue q f).seqs = s.seqs := rfl
@[simp] theorem State.modQueue_disps (s : State) (q : Nat) (f : Queue → Queue) : (s.modQueue q f).disps = s.disps := rfl
@[simp] theorem State.modQueue_idles (s : State) (q : Nat) (f : Queue → Queue) : (s.modQueue q f).idles = s.idles := rfl
@[simp] theorem State.modQueue_keyWaits (s : State) (q : Nat) (f : Queue → Queue) : (s.modQueue q f).keyWaits = s.keyWaits := rfl
@[simp] theorem State.modQueue_limits (s : State) (q : Nat) (f : Queue → Queue) : (s.modQueue q f).limits = s.limits := rfl
@[simp] theorem State.modQueue_waiting (s : State) (q : Nat) (f : Queue → Queue) : (s.modQueue q f).waiting = s.waiting := rfl
@[simp] theorem State.modQueue_dies (s : State) (q : Nat) (f : Queue → Queue) : (s.modQueue q f).dies = s.dies := rfl
@[simp] theorem State.modQueue_epochOp (s : State) (q : Nat) (f : Queue → Queue) : (s.modQueue q f).epochOp = s.epochOp := rfl
@[simp] theorem State.modQueue_regOut (s : State) (q : Nat) (f : Queue → Queue) : (s.modQueue q f).regOut = s.regOut := rfl
@[simp] theorem State.modQueue_freeCount (s : State) (q : Nat) (f : Queue → Queue) : (s.modQueue q f).freeCount = s.freeCount := rfl
@[simp] theorem State.modQueue_stamp (s : State) (q : Nat) (f : Queue → Queue) : (s.modQueue q f).stamp = s.stamp := rfl

@[simp] theorem State.modFunc_pending (s : State) (n : Nat) (g : Func → Func) : (s.modFunc n g).pending = s.pending := rfl
@[simp] theorem State.modFunc_part (s : State) (n : Nat) (g : Func → Func) : (s.modFunc n g).part = s.part := rfl
@[simp] theorem State.modFunc_pins (s : State) (n : Nat) (g : Func → Func) : (s.modFunc n g).pins = s.pins := rfl
@[simp] theorem State.modFunc_psi (s : State) (n : Nat) (g : Func → Func) : (s.modFunc n g).psi = s.psi := rfl
@[simp] theorem State.modFunc_hostUp (s : State) (n : Nat) (g : Func → Func) : (s.modFunc n g).hostUp = s.hostUp := rfl
@[simp] theorem State.modFunc_queues (s : State) (n : Nat) (g : Func → Func) : (s.modFunc n g).queues = s.queues := rfl
@[simp] theorem State.modFunc_msix (s : State) (n : Nat) (g : Func → Func) : (s.modFunc n g).msix = s.msix := rfl
@[simp] theorem State.modFunc_raised (s : State) (n : Nat) (g : Func → Func) : (s.modFunc n g).raised = s.raised := rfl
@[simp] theorem State.modFunc_tenants (s : State) (n : Nat) (g : Func → Func) : (s.modFunc n g).tenants = s.tenants := rfl
@[simp] theorem State.modFunc_models (s : State) (n : Nat) (g : Func → Func) : (s.modFunc n g).models = s.models := rfl
@[simp] theorem State.modFunc_seqs (s : State) (n : Nat) (g : Func → Func) : (s.modFunc n g).seqs = s.seqs := rfl
@[simp] theorem State.modFunc_disps (s : State) (n : Nat) (g : Func → Func) : (s.modFunc n g).disps = s.disps := rfl
@[simp] theorem State.modFunc_idles (s : State) (n : Nat) (g : Func → Func) : (s.modFunc n g).idles = s.idles := rfl
@[simp] theorem State.modFunc_keyWaits (s : State) (n : Nat) (g : Func → Func) : (s.modFunc n g).keyWaits = s.keyWaits := rfl
@[simp] theorem State.modFunc_limits (s : State) (n : Nat) (g : Func → Func) : (s.modFunc n g).limits = s.limits := rfl
@[simp] theorem State.modFunc_waiting (s : State) (n : Nat) (g : Func → Func) : (s.modFunc n g).waiting = s.waiting := rfl
@[simp] theorem State.modFunc_dies (s : State) (n : Nat) (g : Func → Func) : (s.modFunc n g).dies = s.dies := rfl
@[simp] theorem State.modFunc_epochOp (s : State) (n : Nat) (g : Func → Func) : (s.modFunc n g).epochOp = s.epochOp := rfl
@[simp] theorem State.modFunc_regOut (s : State) (n : Nat) (g : Func → Func) : (s.modFunc n g).regOut = s.regOut := rfl
@[simp] theorem State.modFunc_freeCount (s : State) (n : Nat) (g : Func → Func) : (s.modFunc n g).freeCount = s.freeCount := rfl
@[simp] theorem State.modFunc_stamp (s : State) (n : Nat) (g : Func → Func) : (s.modFunc n g).stamp = s.stamp := rfl

@[simp] theorem State.modPsi_pending (s : State) (f : Psiurn → Psiurn) : (s.modPsi f).pending = s.pending := rfl
@[simp] theorem State.modPsi_part (s : State) (f : Psiurn → Psiurn) : (s.modPsi f).part = s.part := rfl
@[simp] theorem State.modPsi_pins (s : State) (f : Psiurn → Psiurn) : (s.modPsi f).pins = s.pins := rfl
@[simp] theorem State.modPsi_hostUp (s : State) (f : Psiurn → Psiurn) : (s.modPsi f).hostUp = s.hostUp := rfl
@[simp] theorem State.modPsi_queues (s : State) (f : Psiurn → Psiurn) : (s.modPsi f).queues = s.queues := rfl
@[simp] theorem State.modPsi_funcs (s : State) (f : Psiurn → Psiurn) : (s.modPsi f).funcs = s.funcs := rfl
@[simp] theorem State.modPsi_msix (s : State) (f : Psiurn → Psiurn) : (s.modPsi f).msix = s.msix := rfl
@[simp] theorem State.modPsi_raised (s : State) (f : Psiurn → Psiurn) : (s.modPsi f).raised = s.raised := rfl
@[simp] theorem State.modPsi_tenants (s : State) (f : Psiurn → Psiurn) : (s.modPsi f).tenants = s.tenants := rfl
@[simp] theorem State.modPsi_models (s : State) (f : Psiurn → Psiurn) : (s.modPsi f).models = s.models := rfl
@[simp] theorem State.modPsi_seqs (s : State) (f : Psiurn → Psiurn) : (s.modPsi f).seqs = s.seqs := rfl
@[simp] theorem State.modPsi_disps (s : State) (f : Psiurn → Psiurn) : (s.modPsi f).disps = s.disps := rfl
@[simp] theorem State.modPsi_idles (s : State) (f : Psiurn → Psiurn) : (s.modPsi f).idles = s.idles := rfl
@[simp] theorem State.modPsi_keyWaits (s : State) (f : Psiurn → Psiurn) : (s.modPsi f).keyWaits = s.keyWaits := rfl
@[simp] theorem State.modPsi_limits (s : State) (f : Psiurn → Psiurn) : (s.modPsi f).limits = s.limits := rfl
@[simp] theorem State.modPsi_waiting (s : State) (f : Psiurn → Psiurn) : (s.modPsi f).waiting = s.waiting := rfl
@[simp] theorem State.modPsi_dies (s : State) (f : Psiurn → Psiurn) : (s.modPsi f).dies = s.dies := rfl
@[simp] theorem State.modPsi_epochOp (s : State) (f : Psiurn → Psiurn) : (s.modPsi f).epochOp = s.epochOp := rfl
@[simp] theorem State.modPsi_regOut (s : State) (f : Psiurn → Psiurn) : (s.modPsi f).regOut = s.regOut := rfl
@[simp] theorem State.modPsi_freeCount (s : State) (f : Psiurn → Psiurn) : (s.modPsi f).freeCount = s.freeCount := rfl
@[simp] theorem State.modPsi_stamp (s : State) (f : Psiurn → Psiurn) : (s.modPsi f).stamp = s.stamp := rfl

@[simp] theorem State.modSide_pending (s : State) (f : Sideband → Sideband) : (s.modSide f).pending = s.pending := rfl
@[simp] theorem State.modSide_part (s : State) (f : Sideband → Sideband) : (s.modSide f).part = s.part := rfl
@[simp] theorem State.modSide_pins (s : State) (f : Sideband → Sideband) : (s.modSide f).pins = s.pins := rfl
@[simp] theorem State.modSide_hostUp (s : State) (f : Sideband → Sideband) : (s.modSide f).hostUp = s.hostUp := rfl
@[simp] theorem State.modSide_queues (s : State) (f : Sideband → Sideband) : (s.modSide f).queues = s.queues := rfl
@[simp] theorem State.modSide_funcs (s : State) (f : Sideband → Sideband) : (s.modSide f).funcs = s.funcs := rfl
@[simp] theorem State.modSide_msix (s : State) (f : Sideband → Sideband) : (s.modSide f).msix = s.msix := rfl
@[simp] theorem State.modSide_raised (s : State) (f : Sideband → Sideband) : (s.modSide f).raised = s.raised := rfl
@[simp] theorem State.modSide_tenants (s : State) (f : Sideband → Sideband) : (s.modSide f).tenants = s.tenants := rfl
@[simp] theorem State.modSide_models (s : State) (f : Sideband → Sideband) : (s.modSide f).models = s.models := rfl
@[simp] theorem State.modSide_seqs (s : State) (f : Sideband → Sideband) : (s.modSide f).seqs = s.seqs := rfl
@[simp] theorem State.modSide_disps (s : State) (f : Sideband → Sideband) : (s.modSide f).disps = s.disps := rfl
@[simp] theorem State.modSide_idles (s : State) (f : Sideband → Sideband) : (s.modSide f).idles = s.idles := rfl
@[simp] theorem State.modSide_keyWaits (s : State) (f : Sideband → Sideband) : (s.modSide f).keyWaits = s.keyWaits := rfl
@[simp] theorem State.modSide_limits (s : State) (f : Sideband → Sideband) : (s.modSide f).limits = s.limits := rfl
@[simp] theorem State.modSide_waiting (s : State) (f : Sideband → Sideband) : (s.modSide f).waiting = s.waiting := rfl
@[simp] theorem State.modSide_dies (s : State) (f : Sideband → Sideband) : (s.modSide f).dies = s.dies := rfl
@[simp] theorem State.modSide_epochOp (s : State) (f : Sideband → Sideband) : (s.modSide f).epochOp = s.epochOp := rfl
@[simp] theorem State.modSide_regOut (s : State) (f : Sideband → Sideband) : (s.modSide f).regOut = s.regOut := rfl
@[simp] theorem State.modSide_freeCount (s : State) (f : Sideband → Sideband) : (s.modSide f).freeCount = s.freeCount := rfl
@[simp] theorem State.modSide_stamp (s : State) (f : Sideband → Sideband) : (s.modSide f).stamp = s.stamp := rfl

@[simp] theorem State.park_pending (s : State) (i : Instr) : (s.park i).pending = s.pending := rfl
@[simp] theorem State.park_part (s : State) (i : Instr) : (s.park i).part = s.part := rfl
@[simp] theorem State.park_pins (s : State) (i : Instr) : (s.park i).pins = s.pins := rfl
@[simp] theorem State.park_psi (s : State) (i : Instr) : (s.park i).psi = s.psi := rfl
@[simp] theorem State.park_hostUp (s : State) (i : Instr) : (s.park i).hostUp = s.hostUp := rfl
@[simp] theorem State.park_queues (s : State) (i : Instr) : (s.park i).queues = s.queues := rfl
@[simp] theorem State.park_funcs (s : State) (i : Instr) : (s.park i).funcs = s.funcs := rfl
@[simp] theorem State.park_msix (s : State) (i : Instr) : (s.park i).msix = s.msix := rfl
@[simp] theorem State.park_raised (s : State) (i : Instr) : (s.park i).raised = s.raised := rfl
@[simp] theorem State.park_tenants (s : State) (i : Instr) : (s.park i).tenants = s.tenants := rfl
@[simp] theorem State.park_models (s : State) (i : Instr) : (s.park i).models = s.models := rfl
@[simp] theorem State.park_seqs (s : State) (i : Instr) : (s.park i).seqs = s.seqs := rfl
@[simp] theorem State.park_disps (s : State) (i : Instr) : (s.park i).disps = s.disps := rfl
@[simp] theorem State.park_idles (s : State) (i : Instr) : (s.park i).idles = s.idles := rfl
@[simp] theorem State.park_keyWaits (s : State) (i : Instr) : (s.park i).keyWaits = s.keyWaits := rfl
@[simp] theorem State.park_limits (s : State) (i : Instr) : (s.park i).limits = s.limits := rfl
@[simp] theorem State.park_dies (s : State) (i : Instr) : (s.park i).dies = s.dies := rfl
@[simp] theorem State.park_epochOp (s : State) (i : Instr) : (s.park i).epochOp = s.epochOp := rfl
@[simp] theorem State.park_regOut (s : State) (i : Instr) : (s.park i).regOut = s.regOut := rfl
@[simp] theorem State.park_freeCount (s : State) (i : Instr) : (s.park i).freeCount = s.freeCount := rfl
@[simp] theorem State.park_stamp (s : State) (i : Instr) : (s.park i).stamp = s.stamp := rfl

@[simp] theorem State.setDie_dies (s : State) (d : Nat) (x : Die) : (s.setDie d x).dies = tput s.dies d x := rfl
@[simp] theorem State.setQueue_queues (s : State) (q : Nat) (x : Queue) : (s.setQueue q x).queues = tput s.queues q x := rfl
@[simp] theorem State.modPsi_psi (s : State) (f : Psiurn → Psiurn) : (s.modPsi f).psi = f s.psi := rfl
@[simp] theorem State.park_waiting (s : State) (i : Instr) : (s.park i).waiting = s.waiting ++ [i] := rfl

/-! ## Die -/

@[simp] theorem Die.modRegion_lost (x : Die) (r : Nat) (f : Region → Region) : (x.modRegion r f).lost = x.lost := rfl
@[simp] theorem Die.modRegion_running (x : Die) (r : Nat) (f : Region → Region) : (x.modRegion r f).running = x.running := rfl
@[simp] theorem Die.modRegion_lpAbsent (x : Die) (r : Nat) (f : Region → Region) : (x.modRegion r f).lpAbsent = x.lpAbsent := rfl
@[simp] theorem Die.modRegion_trained (x : Die) (r : Nat) (f : Region → Region) : (x.modRegion r f).trained = x.trained := rfl
@[simp] theorem Die.modRegion_fwOk (x : Die) (r : Nat) (f : Region → Region) : (x.modRegion r f).fwOk = x.fwOk := rfl
@[simp] theorem Die.modRegion_sawDone (x : Die) (r : Nat) (f : Region → Region) : (x.modRegion r f).sawDone = x.sawDone := rfl
@[simp] theorem Die.modRegion_mtiles (x : Die) (r : Nat) (f : Region → Region) : (x.modRegion r f).mtiles = x.mtiles := rfl
@[simp] theorem Die.modRegion_vtiles (x : Die) (r : Nat) (f : Region → Region) : (x.modRegion r f).vtiles = x.vtiles := rfl
@[simp] theorem Die.modRegion_occ (x : Die) (r : Nat) (f : Region → Region) : (x.modRegion r f).occ = x.occ := rfl
@[simp] theorem Die.modRegion_wringers (x : Die) (r : Nat) (f : Region → Region) : (x.modRegion r f).wringers = x.wringers := rfl
@[simp] theorem Die.modRegion_mcs (x : Die) (r : Nat) (f : Region → Region) : (x.modRegion r f).mcs = x.mcs := rfl
@[simp] theorem Die.modRegion_felts (x : Die) (r : Nat) (f : Region → Region) : (x.modRegion r f).felts = x.felts := rfl
@[simp] theorem Die.modRegion_rings (x : Die) (r : Nat) (f : Region → Region) : (x.modRegion r f).rings = x.rings := rfl
@[simp] theorem Die.modRegion_streams (x : Die) (r : Nat) (f : Region → Region) : (x.modRegion r f).streams = x.streams := rfl
@[simp] theorem Die.modRegion_threads (x : Die) (r : Nat) (f : Region → Region) : (x.modRegion r f).threads = x.threads := rfl
@[simp] theorem Die.modRegion_ctxs (x : Die) (r : Nat) (f : Region → Region) : (x.modRegion r f).ctxs = x.ctxs := rfl
@[simp] theorem Die.modRegion_knots (x : Die) (r : Nat) (f : Region → Region) : (x.modRegion r f).knots = x.knots := rfl
@[simp] theorem Die.modRegion_knotNet (x : Die) (r : Nat) (f : Region → Region) : (x.modRegion r f).knotNet = x.knotNet := rfl
@[simp] theorem Die.modRegion_ream (x : Die) (r : Nat) (f : Region → Region) : (x.modRegion r f).ream = x.ream := rfl
@[simp] theorem Die.modRegion_reamBad (x : Die) (r : Nat) (f : Region → Region) : (x.modRegion r f).reamBad = x.reamBad := rfl
@[simp] theorem Die.modRegion_copies (x : Die) (r : Nat) (f : Region → Region) : (x.modRegion r f).copies = x.copies := rfl
@[simp] theorem Die.modRegion_hints (x : Die) (r : Nat) (f : Region → Region) : (x.modRegion r f).hints = x.hints := rfl
@[simp] theorem Die.modRegion_aging (x : Die) (r : Nat) (f : Region → Region) : (x.modRegion r f).aging = x.aging := rfl
@[simp] theorem Die.modRegion_lowMark (x : Die) (r : Nat) (f : Region → Region) : (x.modRegion r f).lowMark = x.lowMark := rfl
@[simp] theorem Die.modRegion_highMark (x : Die) (r : Nat) (f : Region → Region) : (x.modRegion r f).highMark = x.highMark := rfl
@[simp] theorem Die.modRegion_hotMark (x : Die) (r : Nat) (f : Region → Region) : (x.modRegion r f).hotMark = x.hotMark := rfl
@[simp] theorem Die.modRegion_reserved (x : Die) (r : Nat) (f : Region → Region) : (x.modRegion r f).reserved = x.reserved := rfl
@[simp] theorem Die.modRegion_dealNext (x : Die) (r : Nat) (f : Region → Region) : (x.modRegion r f).dealNext = x.dealNext := rfl
@[simp] theorem Die.modRegion_retired (x : Die) (r : Nat) (f : Region → Region) : (x.modRegion r f).retired = x.retired := rfl
@[simp] theorem Die.modRegion_dropped (x : Die) (r : Nat) (f : Region → Region) : (x.modRegion r f).dropped = x.dropped := rfl
@[simp] theorem Die.modRegion_initSegs (x : Die) (r : Nat) (f : Region → Region) : (x.modRegion r f).initSegs = x.initSegs := rfl
@[simp] theorem Die.modRegion_idle (x : Die) (r : Nat) (f : Region → Region) : (x.modRegion r f).idle = x.idle := rfl
@[simp] theorem Die.modRegion_sealSlots (x : Die) (r : Nat) (f : Region → Region) : (x.modRegion r f).sealSlots = x.sealSlots := rfl
@[simp] theorem Die.modRegion_dram (x : Die) (r : Nat) (f : Region → Region) : (x.modRegion r f).dram = x.dram := rfl
@[simp] theorem Die.modRegion_seals (x : Die) (r : Nat) (f : Region → Region) : (x.modRegion r f).seals = x.seals := rfl
@[simp] theorem Die.modRegion_reqNet (x : Die) (r : Nat) (f : Region → Region) : (x.modRegion r f).reqNet = x.reqNet := rfl
@[simp] theorem Die.modRegion_repNet (x : Die) (r : Nat) (f : Region → Region) : (x.modRegion r f).repNet = x.repNet := rfl
@[simp] theorem Die.modRegion_redir0 (x : Die) (r : Nat) (f : Region → Region) : (x.modRegion r f).redir0 = x.redir0 := rfl
@[simp] theorem Die.modRegion_redir1 (x : Die) (r : Nat) (f : Region → Region) : (x.modRegion r f).redir1 = x.redir1 := rfl
@[simp] theorem Die.modRegion_epoch (x : Die) (r : Nat) (f : Region → Region) : (x.modRegion r f).epoch = x.epoch := rfl
@[simp] theorem Die.modRegion_switching (x : Die) (r : Nat) (f : Region → Region) : (x.modRegion r f).switching = x.switching := rfl
@[simp] theorem Die.modRegion_flipped (x : Die) (r : Nat) (f : Region → Region) : (x.modRegion r f).flipped = x.flipped := rfl
@[simp] theorem Die.modRegion_routers (x : Die) (r : Nat) (f : Region → Region) : (x.modRegion r f).routers = x.routers := rfl
@[simp] theorem Die.modRegion_ifaces (x : Die) (r : Nat) (f : Region → Region) : (x.modRegion r f).ifaces = x.ifaces := rfl
@[simp] theorem Die.modRegion_fenced (x : Die) (r : Nat) (f : Region → Region) : (x.modRegion r f).fenced = x.fenced := rfl
@[simp] theorem Die.modRegion_tests (x : Die) (r : Nat) (f : Region → Region) : (x.modRegion r f).tests = x.tests := rfl
@[simp] theorem Die.modRegion_errs (x : Die) (r : Nat) (f : Region → Region) : (x.modRegion r f).errs = x.errs := rfl
@[simp] theorem Die.modRegion_ucieOut (x : Die) (r : Nat) (f : Region → Region) : (x.modRegion r f).ucieOut = x.ucieOut := rfl
@[simp] theorem Die.modRegion_probes (x : Die) (r : Nat) (f : Region → Region) : (x.modRegion r f).probes = x.probes := rfl
@[simp] theorem Die.modRegion_trace (x : Die) (r : Nat) (f : Region → Region) : (x.modRegion r f).trace = x.trace := rfl
@[simp] theorem Die.modRegion_traceLost (x : Die) (r : Nat) (f : Region → Region) : (x.modRegion r f).traceLost = x.traceLost := rfl
@[simp] theorem Die.modRegion_fabrics (x : Die) (r : Nat) (f : Region → Region) : (x.modRegion r f).fabrics = x.fabrics := rfl
@[simp] theorem Die.modRegion_frames (x : Die) (r : Nat) (f : Region → Region) : (x.modRegion r f).frames = x.frames := rfl
@[simp] theorem Die.modRegion_darner (x : Die) (r : Nat) (f : Region → Region) : (x.modRegion r f).darner = x.darner := rfl
@[simp] theorem Die.modRegion_pregs (x : Die) (r : Nat) (f : Region → Region) : (x.modRegion r f).pregs = x.pregs := rfl
@[simp] theorem Die.modRegion_cfgs (x : Die) (r : Nat) (f : Region → Region) : (x.modRegion r f).cfgs = x.cfgs := rfl
@[simp] theorem Die.modRegion_snaps (x : Die) (r : Nat) (f : Region → Region) : (x.modRegion r f).snaps = x.snaps := rfl
@[simp] theorem Die.modRegion_ctrs (x : Die) (r : Nat) (f : Region → Region) : (x.modRegion r f).ctrs = x.ctrs := rfl
@[simp] theorem Die.modRegion_wraps (x : Die) (r : Nat) (f : Region → Region) : (x.modRegion r f).wraps = x.wraps := rfl
@[simp] theorem Die.modRegion_led (x : Die) (r : Nat) (f : Region → Region) : (x.modRegion r f).led = x.led := rfl
@[simp] theorem Die.modRegion_thRounds (x : Die) (r : Nat) (f : Region → Region) : (x.modRegion r f).thRounds = x.thRounds := rfl
@[simp] theorem Die.modRegion_acts (x : Die) (r : Nat) (f : Region → Region) : (x.modRegion r f).acts = x.acts := rfl
@[simp] theorem Die.modRegion_ledSeen (x : Die) (r : Nat) (f : Region → Region) : (x.modRegion r f).ledSeen = x.ledSeen := rfl
@[simp] theorem Die.modRegion_tallies (x : Die) (r : Nat) (f : Region → Region) : (x.modRegion r f).tallies = x.tallies := rfl
@[simp] theorem Die.modRegion_flips (x : Die) (r : Nat) (f : Region → Region) : (x.modRegion r f).flips = x.flips := rfl

@[simp] theorem Die.modMTile_lost (x : Die) (k : Nat) (f : MTile → MTile) : (x.modMTile k f).lost = x.lost := rfl
@[simp] theorem Die.modMTile_running (x : Die) (k : Nat) (f : MTile → MTile) : (x.modMTile k f).running = x.running := rfl
@[simp] theorem Die.modMTile_lpAbsent (x : Die) (k : Nat) (f : MTile → MTile) : (x.modMTile k f).lpAbsent = x.lpAbsent := rfl
@[simp] theorem Die.modMTile_trained (x : Die) (k : Nat) (f : MTile → MTile) : (x.modMTile k f).trained = x.trained := rfl
@[simp] theorem Die.modMTile_fwOk (x : Die) (k : Nat) (f : MTile → MTile) : (x.modMTile k f).fwOk = x.fwOk := rfl
@[simp] theorem Die.modMTile_sawDone (x : Die) (k : Nat) (f : MTile → MTile) : (x.modMTile k f).sawDone = x.sawDone := rfl
@[simp] theorem Die.modMTile_regions (x : Die) (k : Nat) (f : MTile → MTile) : (x.modMTile k f).regions = x.regions := rfl
@[simp] theorem Die.modMTile_vtiles (x : Die) (k : Nat) (f : MTile → MTile) : (x.modMTile k f).vtiles = x.vtiles := rfl
@[simp] theorem Die.modMTile_occ (x : Die) (k : Nat) (f : MTile → MTile) : (x.modMTile k f).occ = x.occ := rfl
@[simp] theorem Die.modMTile_wringers (x : Die) (k : Nat) (f : MTile → MTile) : (x.modMTile k f).wringers = x.wringers := rfl
@[simp] theorem Die.modMTile_mcs (x : Die) (k : Nat) (f : MTile → MTile) : (x.modMTile k f).mcs = x.mcs := rfl
@[simp] theorem Die.modMTile_felts (x : Die) (k : Nat) (f : MTile → MTile) : (x.modMTile k f).felts = x.felts := rfl
@[simp] theorem Die.modMTile_rings (x : Die) (k : Nat) (f : MTile → MTile) : (x.modMTile k f).rings = x.rings := rfl
@[simp] theorem Die.modMTile_streams (x : Die) (k : Nat) (f : MTile → MTile) : (x.modMTile k f).streams = x.streams := rfl
@[simp] theorem Die.modMTile_threads (x : Die) (k : Nat) (f : MTile → MTile) : (x.modMTile k f).threads = x.threads := rfl
@[simp] theorem Die.modMTile_ctxs (x : Die) (k : Nat) (f : MTile → MTile) : (x.modMTile k f).ctxs = x.ctxs := rfl
@[simp] theorem Die.modMTile_knots (x : Die) (k : Nat) (f : MTile → MTile) : (x.modMTile k f).knots = x.knots := rfl
@[simp] theorem Die.modMTile_knotNet (x : Die) (k : Nat) (f : MTile → MTile) : (x.modMTile k f).knotNet = x.knotNet := rfl
@[simp] theorem Die.modMTile_ream (x : Die) (k : Nat) (f : MTile → MTile) : (x.modMTile k f).ream = x.ream := rfl
@[simp] theorem Die.modMTile_reamBad (x : Die) (k : Nat) (f : MTile → MTile) : (x.modMTile k f).reamBad = x.reamBad := rfl
@[simp] theorem Die.modMTile_copies (x : Die) (k : Nat) (f : MTile → MTile) : (x.modMTile k f).copies = x.copies := rfl
@[simp] theorem Die.modMTile_hints (x : Die) (k : Nat) (f : MTile → MTile) : (x.modMTile k f).hints = x.hints := rfl
@[simp] theorem Die.modMTile_aging (x : Die) (k : Nat) (f : MTile → MTile) : (x.modMTile k f).aging = x.aging := rfl
@[simp] theorem Die.modMTile_lowMark (x : Die) (k : Nat) (f : MTile → MTile) : (x.modMTile k f).lowMark = x.lowMark := rfl
@[simp] theorem Die.modMTile_highMark (x : Die) (k : Nat) (f : MTile → MTile) : (x.modMTile k f).highMark = x.highMark := rfl
@[simp] theorem Die.modMTile_hotMark (x : Die) (k : Nat) (f : MTile → MTile) : (x.modMTile k f).hotMark = x.hotMark := rfl
@[simp] theorem Die.modMTile_reserved (x : Die) (k : Nat) (f : MTile → MTile) : (x.modMTile k f).reserved = x.reserved := rfl
@[simp] theorem Die.modMTile_dealNext (x : Die) (k : Nat) (f : MTile → MTile) : (x.modMTile k f).dealNext = x.dealNext := rfl
@[simp] theorem Die.modMTile_retired (x : Die) (k : Nat) (f : MTile → MTile) : (x.modMTile k f).retired = x.retired := rfl
@[simp] theorem Die.modMTile_dropped (x : Die) (k : Nat) (f : MTile → MTile) : (x.modMTile k f).dropped = x.dropped := rfl
@[simp] theorem Die.modMTile_initSegs (x : Die) (k : Nat) (f : MTile → MTile) : (x.modMTile k f).initSegs = x.initSegs := rfl
@[simp] theorem Die.modMTile_idle (x : Die) (k : Nat) (f : MTile → MTile) : (x.modMTile k f).idle = x.idle := rfl
@[simp] theorem Die.modMTile_sealSlots (x : Die) (k : Nat) (f : MTile → MTile) : (x.modMTile k f).sealSlots = x.sealSlots := rfl
@[simp] theorem Die.modMTile_dram (x : Die) (k : Nat) (f : MTile → MTile) : (x.modMTile k f).dram = x.dram := rfl
@[simp] theorem Die.modMTile_seals (x : Die) (k : Nat) (f : MTile → MTile) : (x.modMTile k f).seals = x.seals := rfl
@[simp] theorem Die.modMTile_reqNet (x : Die) (k : Nat) (f : MTile → MTile) : (x.modMTile k f).reqNet = x.reqNet := rfl
@[simp] theorem Die.modMTile_repNet (x : Die) (k : Nat) (f : MTile → MTile) : (x.modMTile k f).repNet = x.repNet := rfl
@[simp] theorem Die.modMTile_redir0 (x : Die) (k : Nat) (f : MTile → MTile) : (x.modMTile k f).redir0 = x.redir0 := rfl
@[simp] theorem Die.modMTile_redir1 (x : Die) (k : Nat) (f : MTile → MTile) : (x.modMTile k f).redir1 = x.redir1 := rfl
@[simp] theorem Die.modMTile_epoch (x : Die) (k : Nat) (f : MTile → MTile) : (x.modMTile k f).epoch = x.epoch := rfl
@[simp] theorem Die.modMTile_switching (x : Die) (k : Nat) (f : MTile → MTile) : (x.modMTile k f).switching = x.switching := rfl
@[simp] theorem Die.modMTile_flipped (x : Die) (k : Nat) (f : MTile → MTile) : (x.modMTile k f).flipped = x.flipped := rfl
@[simp] theorem Die.modMTile_routers (x : Die) (k : Nat) (f : MTile → MTile) : (x.modMTile k f).routers = x.routers := rfl
@[simp] theorem Die.modMTile_ifaces (x : Die) (k : Nat) (f : MTile → MTile) : (x.modMTile k f).ifaces = x.ifaces := rfl
@[simp] theorem Die.modMTile_fenced (x : Die) (k : Nat) (f : MTile → MTile) : (x.modMTile k f).fenced = x.fenced := rfl
@[simp] theorem Die.modMTile_tests (x : Die) (k : Nat) (f : MTile → MTile) : (x.modMTile k f).tests = x.tests := rfl
@[simp] theorem Die.modMTile_errs (x : Die) (k : Nat) (f : MTile → MTile) : (x.modMTile k f).errs = x.errs := rfl
@[simp] theorem Die.modMTile_ucieOut (x : Die) (k : Nat) (f : MTile → MTile) : (x.modMTile k f).ucieOut = x.ucieOut := rfl
@[simp] theorem Die.modMTile_probes (x : Die) (k : Nat) (f : MTile → MTile) : (x.modMTile k f).probes = x.probes := rfl
@[simp] theorem Die.modMTile_trace (x : Die) (k : Nat) (f : MTile → MTile) : (x.modMTile k f).trace = x.trace := rfl
@[simp] theorem Die.modMTile_traceLost (x : Die) (k : Nat) (f : MTile → MTile) : (x.modMTile k f).traceLost = x.traceLost := rfl
@[simp] theorem Die.modMTile_fabrics (x : Die) (k : Nat) (f : MTile → MTile) : (x.modMTile k f).fabrics = x.fabrics := rfl
@[simp] theorem Die.modMTile_frames (x : Die) (k : Nat) (f : MTile → MTile) : (x.modMTile k f).frames = x.frames := rfl
@[simp] theorem Die.modMTile_darner (x : Die) (k : Nat) (f : MTile → MTile) : (x.modMTile k f).darner = x.darner := rfl
@[simp] theorem Die.modMTile_pregs (x : Die) (k : Nat) (f : MTile → MTile) : (x.modMTile k f).pregs = x.pregs := rfl
@[simp] theorem Die.modMTile_cfgs (x : Die) (k : Nat) (f : MTile → MTile) : (x.modMTile k f).cfgs = x.cfgs := rfl
@[simp] theorem Die.modMTile_snaps (x : Die) (k : Nat) (f : MTile → MTile) : (x.modMTile k f).snaps = x.snaps := rfl
@[simp] theorem Die.modMTile_ctrs (x : Die) (k : Nat) (f : MTile → MTile) : (x.modMTile k f).ctrs = x.ctrs := rfl
@[simp] theorem Die.modMTile_wraps (x : Die) (k : Nat) (f : MTile → MTile) : (x.modMTile k f).wraps = x.wraps := rfl
@[simp] theorem Die.modMTile_led (x : Die) (k : Nat) (f : MTile → MTile) : (x.modMTile k f).led = x.led := rfl
@[simp] theorem Die.modMTile_thRounds (x : Die) (k : Nat) (f : MTile → MTile) : (x.modMTile k f).thRounds = x.thRounds := rfl
@[simp] theorem Die.modMTile_acts (x : Die) (k : Nat) (f : MTile → MTile) : (x.modMTile k f).acts = x.acts := rfl
@[simp] theorem Die.modMTile_ledSeen (x : Die) (k : Nat) (f : MTile → MTile) : (x.modMTile k f).ledSeen = x.ledSeen := rfl
@[simp] theorem Die.modMTile_tallies (x : Die) (k : Nat) (f : MTile → MTile) : (x.modMTile k f).tallies = x.tallies := rfl
@[simp] theorem Die.modMTile_flips (x : Die) (k : Nat) (f : MTile → MTile) : (x.modMTile k f).flips = x.flips := rfl

@[simp] theorem Die.modVTile_lost (x : Die) (k : Nat) (f : VTile → VTile) : (x.modVTile k f).lost = x.lost := rfl
@[simp] theorem Die.modVTile_running (x : Die) (k : Nat) (f : VTile → VTile) : (x.modVTile k f).running = x.running := rfl
@[simp] theorem Die.modVTile_lpAbsent (x : Die) (k : Nat) (f : VTile → VTile) : (x.modVTile k f).lpAbsent = x.lpAbsent := rfl
@[simp] theorem Die.modVTile_trained (x : Die) (k : Nat) (f : VTile → VTile) : (x.modVTile k f).trained = x.trained := rfl
@[simp] theorem Die.modVTile_fwOk (x : Die) (k : Nat) (f : VTile → VTile) : (x.modVTile k f).fwOk = x.fwOk := rfl
@[simp] theorem Die.modVTile_sawDone (x : Die) (k : Nat) (f : VTile → VTile) : (x.modVTile k f).sawDone = x.sawDone := rfl
@[simp] theorem Die.modVTile_regions (x : Die) (k : Nat) (f : VTile → VTile) : (x.modVTile k f).regions = x.regions := rfl
@[simp] theorem Die.modVTile_mtiles (x : Die) (k : Nat) (f : VTile → VTile) : (x.modVTile k f).mtiles = x.mtiles := rfl
@[simp] theorem Die.modVTile_occ (x : Die) (k : Nat) (f : VTile → VTile) : (x.modVTile k f).occ = x.occ := rfl
@[simp] theorem Die.modVTile_wringers (x : Die) (k : Nat) (f : VTile → VTile) : (x.modVTile k f).wringers = x.wringers := rfl
@[simp] theorem Die.modVTile_mcs (x : Die) (k : Nat) (f : VTile → VTile) : (x.modVTile k f).mcs = x.mcs := rfl
@[simp] theorem Die.modVTile_felts (x : Die) (k : Nat) (f : VTile → VTile) : (x.modVTile k f).felts = x.felts := rfl
@[simp] theorem Die.modVTile_rings (x : Die) (k : Nat) (f : VTile → VTile) : (x.modVTile k f).rings = x.rings := rfl
@[simp] theorem Die.modVTile_streams (x : Die) (k : Nat) (f : VTile → VTile) : (x.modVTile k f).streams = x.streams := rfl
@[simp] theorem Die.modVTile_threads (x : Die) (k : Nat) (f : VTile → VTile) : (x.modVTile k f).threads = x.threads := rfl
@[simp] theorem Die.modVTile_ctxs (x : Die) (k : Nat) (f : VTile → VTile) : (x.modVTile k f).ctxs = x.ctxs := rfl
@[simp] theorem Die.modVTile_knots (x : Die) (k : Nat) (f : VTile → VTile) : (x.modVTile k f).knots = x.knots := rfl
@[simp] theorem Die.modVTile_knotNet (x : Die) (k : Nat) (f : VTile → VTile) : (x.modVTile k f).knotNet = x.knotNet := rfl
@[simp] theorem Die.modVTile_ream (x : Die) (k : Nat) (f : VTile → VTile) : (x.modVTile k f).ream = x.ream := rfl
@[simp] theorem Die.modVTile_reamBad (x : Die) (k : Nat) (f : VTile → VTile) : (x.modVTile k f).reamBad = x.reamBad := rfl
@[simp] theorem Die.modVTile_copies (x : Die) (k : Nat) (f : VTile → VTile) : (x.modVTile k f).copies = x.copies := rfl
@[simp] theorem Die.modVTile_hints (x : Die) (k : Nat) (f : VTile → VTile) : (x.modVTile k f).hints = x.hints := rfl
@[simp] theorem Die.modVTile_aging (x : Die) (k : Nat) (f : VTile → VTile) : (x.modVTile k f).aging = x.aging := rfl
@[simp] theorem Die.modVTile_lowMark (x : Die) (k : Nat) (f : VTile → VTile) : (x.modVTile k f).lowMark = x.lowMark := rfl
@[simp] theorem Die.modVTile_highMark (x : Die) (k : Nat) (f : VTile → VTile) : (x.modVTile k f).highMark = x.highMark := rfl
@[simp] theorem Die.modVTile_hotMark (x : Die) (k : Nat) (f : VTile → VTile) : (x.modVTile k f).hotMark = x.hotMark := rfl
@[simp] theorem Die.modVTile_reserved (x : Die) (k : Nat) (f : VTile → VTile) : (x.modVTile k f).reserved = x.reserved := rfl
@[simp] theorem Die.modVTile_dealNext (x : Die) (k : Nat) (f : VTile → VTile) : (x.modVTile k f).dealNext = x.dealNext := rfl
@[simp] theorem Die.modVTile_retired (x : Die) (k : Nat) (f : VTile → VTile) : (x.modVTile k f).retired = x.retired := rfl
@[simp] theorem Die.modVTile_dropped (x : Die) (k : Nat) (f : VTile → VTile) : (x.modVTile k f).dropped = x.dropped := rfl
@[simp] theorem Die.modVTile_initSegs (x : Die) (k : Nat) (f : VTile → VTile) : (x.modVTile k f).initSegs = x.initSegs := rfl
@[simp] theorem Die.modVTile_idle (x : Die) (k : Nat) (f : VTile → VTile) : (x.modVTile k f).idle = x.idle := rfl
@[simp] theorem Die.modVTile_sealSlots (x : Die) (k : Nat) (f : VTile → VTile) : (x.modVTile k f).sealSlots = x.sealSlots := rfl
@[simp] theorem Die.modVTile_dram (x : Die) (k : Nat) (f : VTile → VTile) : (x.modVTile k f).dram = x.dram := rfl
@[simp] theorem Die.modVTile_seals (x : Die) (k : Nat) (f : VTile → VTile) : (x.modVTile k f).seals = x.seals := rfl
@[simp] theorem Die.modVTile_reqNet (x : Die) (k : Nat) (f : VTile → VTile) : (x.modVTile k f).reqNet = x.reqNet := rfl
@[simp] theorem Die.modVTile_repNet (x : Die) (k : Nat) (f : VTile → VTile) : (x.modVTile k f).repNet = x.repNet := rfl
@[simp] theorem Die.modVTile_redir0 (x : Die) (k : Nat) (f : VTile → VTile) : (x.modVTile k f).redir0 = x.redir0 := rfl
@[simp] theorem Die.modVTile_redir1 (x : Die) (k : Nat) (f : VTile → VTile) : (x.modVTile k f).redir1 = x.redir1 := rfl
@[simp] theorem Die.modVTile_epoch (x : Die) (k : Nat) (f : VTile → VTile) : (x.modVTile k f).epoch = x.epoch := rfl
@[simp] theorem Die.modVTile_switching (x : Die) (k : Nat) (f : VTile → VTile) : (x.modVTile k f).switching = x.switching := rfl
@[simp] theorem Die.modVTile_flipped (x : Die) (k : Nat) (f : VTile → VTile) : (x.modVTile k f).flipped = x.flipped := rfl
@[simp] theorem Die.modVTile_routers (x : Die) (k : Nat) (f : VTile → VTile) : (x.modVTile k f).routers = x.routers := rfl
@[simp] theorem Die.modVTile_ifaces (x : Die) (k : Nat) (f : VTile → VTile) : (x.modVTile k f).ifaces = x.ifaces := rfl
@[simp] theorem Die.modVTile_fenced (x : Die) (k : Nat) (f : VTile → VTile) : (x.modVTile k f).fenced = x.fenced := rfl
@[simp] theorem Die.modVTile_tests (x : Die) (k : Nat) (f : VTile → VTile) : (x.modVTile k f).tests = x.tests := rfl
@[simp] theorem Die.modVTile_errs (x : Die) (k : Nat) (f : VTile → VTile) : (x.modVTile k f).errs = x.errs := rfl
@[simp] theorem Die.modVTile_ucieOut (x : Die) (k : Nat) (f : VTile → VTile) : (x.modVTile k f).ucieOut = x.ucieOut := rfl
@[simp] theorem Die.modVTile_probes (x : Die) (k : Nat) (f : VTile → VTile) : (x.modVTile k f).probes = x.probes := rfl
@[simp] theorem Die.modVTile_trace (x : Die) (k : Nat) (f : VTile → VTile) : (x.modVTile k f).trace = x.trace := rfl
@[simp] theorem Die.modVTile_traceLost (x : Die) (k : Nat) (f : VTile → VTile) : (x.modVTile k f).traceLost = x.traceLost := rfl
@[simp] theorem Die.modVTile_fabrics (x : Die) (k : Nat) (f : VTile → VTile) : (x.modVTile k f).fabrics = x.fabrics := rfl
@[simp] theorem Die.modVTile_frames (x : Die) (k : Nat) (f : VTile → VTile) : (x.modVTile k f).frames = x.frames := rfl
@[simp] theorem Die.modVTile_darner (x : Die) (k : Nat) (f : VTile → VTile) : (x.modVTile k f).darner = x.darner := rfl
@[simp] theorem Die.modVTile_pregs (x : Die) (k : Nat) (f : VTile → VTile) : (x.modVTile k f).pregs = x.pregs := rfl
@[simp] theorem Die.modVTile_cfgs (x : Die) (k : Nat) (f : VTile → VTile) : (x.modVTile k f).cfgs = x.cfgs := rfl
@[simp] theorem Die.modVTile_snaps (x : Die) (k : Nat) (f : VTile → VTile) : (x.modVTile k f).snaps = x.snaps := rfl
@[simp] theorem Die.modVTile_ctrs (x : Die) (k : Nat) (f : VTile → VTile) : (x.modVTile k f).ctrs = x.ctrs := rfl
@[simp] theorem Die.modVTile_wraps (x : Die) (k : Nat) (f : VTile → VTile) : (x.modVTile k f).wraps = x.wraps := rfl
@[simp] theorem Die.modVTile_led (x : Die) (k : Nat) (f : VTile → VTile) : (x.modVTile k f).led = x.led := rfl
@[simp] theorem Die.modVTile_thRounds (x : Die) (k : Nat) (f : VTile → VTile) : (x.modVTile k f).thRounds = x.thRounds := rfl
@[simp] theorem Die.modVTile_acts (x : Die) (k : Nat) (f : VTile → VTile) : (x.modVTile k f).acts = x.acts := rfl
@[simp] theorem Die.modVTile_ledSeen (x : Die) (k : Nat) (f : VTile → VTile) : (x.modVTile k f).ledSeen = x.ledSeen := rfl
@[simp] theorem Die.modVTile_tallies (x : Die) (k : Nat) (f : VTile → VTile) : (x.modVTile k f).tallies = x.tallies := rfl
@[simp] theorem Die.modVTile_flips (x : Die) (k : Nat) (f : VTile → VTile) : (x.modVTile k f).flips = x.flips := rfl

@[simp] theorem Die.modOcc_lost (x : Die) (k : TileKind) (n : Nat) (f : Occ → Occ) : (x.modOcc k n f).lost = x.lost := rfl
@[simp] theorem Die.modOcc_running (x : Die) (k : TileKind) (n : Nat) (f : Occ → Occ) : (x.modOcc k n f).running = x.running := rfl
@[simp] theorem Die.modOcc_lpAbsent (x : Die) (k : TileKind) (n : Nat) (f : Occ → Occ) : (x.modOcc k n f).lpAbsent = x.lpAbsent := rfl
@[simp] theorem Die.modOcc_trained (x : Die) (k : TileKind) (n : Nat) (f : Occ → Occ) : (x.modOcc k n f).trained = x.trained := rfl
@[simp] theorem Die.modOcc_fwOk (x : Die) (k : TileKind) (n : Nat) (f : Occ → Occ) : (x.modOcc k n f).fwOk = x.fwOk := rfl
@[simp] theorem Die.modOcc_sawDone (x : Die) (k : TileKind) (n : Nat) (f : Occ → Occ) : (x.modOcc k n f).sawDone = x.sawDone := rfl
@[simp] theorem Die.modOcc_regions (x : Die) (k : TileKind) (n : Nat) (f : Occ → Occ) : (x.modOcc k n f).regions = x.regions := rfl
@[simp] theorem Die.modOcc_mtiles (x : Die) (k : TileKind) (n : Nat) (f : Occ → Occ) : (x.modOcc k n f).mtiles = x.mtiles := rfl
@[simp] theorem Die.modOcc_vtiles (x : Die) (k : TileKind) (n : Nat) (f : Occ → Occ) : (x.modOcc k n f).vtiles = x.vtiles := rfl
@[simp] theorem Die.modOcc_wringers (x : Die) (k : TileKind) (n : Nat) (f : Occ → Occ) : (x.modOcc k n f).wringers = x.wringers := rfl
@[simp] theorem Die.modOcc_mcs (x : Die) (k : TileKind) (n : Nat) (f : Occ → Occ) : (x.modOcc k n f).mcs = x.mcs := rfl
@[simp] theorem Die.modOcc_felts (x : Die) (k : TileKind) (n : Nat) (f : Occ → Occ) : (x.modOcc k n f).felts = x.felts := rfl
@[simp] theorem Die.modOcc_rings (x : Die) (k : TileKind) (n : Nat) (f : Occ → Occ) : (x.modOcc k n f).rings = x.rings := rfl
@[simp] theorem Die.modOcc_streams (x : Die) (k : TileKind) (n : Nat) (f : Occ → Occ) : (x.modOcc k n f).streams = x.streams := rfl
@[simp] theorem Die.modOcc_threads (x : Die) (k : TileKind) (n : Nat) (f : Occ → Occ) : (x.modOcc k n f).threads = x.threads := rfl
@[simp] theorem Die.modOcc_ctxs (x : Die) (k : TileKind) (n : Nat) (f : Occ → Occ) : (x.modOcc k n f).ctxs = x.ctxs := rfl
@[simp] theorem Die.modOcc_knots (x : Die) (k : TileKind) (n : Nat) (f : Occ → Occ) : (x.modOcc k n f).knots = x.knots := rfl
@[simp] theorem Die.modOcc_knotNet (x : Die) (k : TileKind) (n : Nat) (f : Occ → Occ) : (x.modOcc k n f).knotNet = x.knotNet := rfl
@[simp] theorem Die.modOcc_ream (x : Die) (k : TileKind) (n : Nat) (f : Occ → Occ) : (x.modOcc k n f).ream = x.ream := rfl
@[simp] theorem Die.modOcc_reamBad (x : Die) (k : TileKind) (n : Nat) (f : Occ → Occ) : (x.modOcc k n f).reamBad = x.reamBad := rfl
@[simp] theorem Die.modOcc_copies (x : Die) (k : TileKind) (n : Nat) (f : Occ → Occ) : (x.modOcc k n f).copies = x.copies := rfl
@[simp] theorem Die.modOcc_hints (x : Die) (k : TileKind) (n : Nat) (f : Occ → Occ) : (x.modOcc k n f).hints = x.hints := rfl
@[simp] theorem Die.modOcc_aging (x : Die) (k : TileKind) (n : Nat) (f : Occ → Occ) : (x.modOcc k n f).aging = x.aging := rfl
@[simp] theorem Die.modOcc_lowMark (x : Die) (k : TileKind) (n : Nat) (f : Occ → Occ) : (x.modOcc k n f).lowMark = x.lowMark := rfl
@[simp] theorem Die.modOcc_highMark (x : Die) (k : TileKind) (n : Nat) (f : Occ → Occ) : (x.modOcc k n f).highMark = x.highMark := rfl
@[simp] theorem Die.modOcc_hotMark (x : Die) (k : TileKind) (n : Nat) (f : Occ → Occ) : (x.modOcc k n f).hotMark = x.hotMark := rfl
@[simp] theorem Die.modOcc_reserved (x : Die) (k : TileKind) (n : Nat) (f : Occ → Occ) : (x.modOcc k n f).reserved = x.reserved := rfl
@[simp] theorem Die.modOcc_dealNext (x : Die) (k : TileKind) (n : Nat) (f : Occ → Occ) : (x.modOcc k n f).dealNext = x.dealNext := rfl
@[simp] theorem Die.modOcc_retired (x : Die) (k : TileKind) (n : Nat) (f : Occ → Occ) : (x.modOcc k n f).retired = x.retired := rfl
@[simp] theorem Die.modOcc_dropped (x : Die) (k : TileKind) (n : Nat) (f : Occ → Occ) : (x.modOcc k n f).dropped = x.dropped := rfl
@[simp] theorem Die.modOcc_initSegs (x : Die) (k : TileKind) (n : Nat) (f : Occ → Occ) : (x.modOcc k n f).initSegs = x.initSegs := rfl
@[simp] theorem Die.modOcc_idle (x : Die) (k : TileKind) (n : Nat) (f : Occ → Occ) : (x.modOcc k n f).idle = x.idle := rfl
@[simp] theorem Die.modOcc_sealSlots (x : Die) (k : TileKind) (n : Nat) (f : Occ → Occ) : (x.modOcc k n f).sealSlots = x.sealSlots := rfl
@[simp] theorem Die.modOcc_dram (x : Die) (k : TileKind) (n : Nat) (f : Occ → Occ) : (x.modOcc k n f).dram = x.dram := rfl
@[simp] theorem Die.modOcc_seals (x : Die) (k : TileKind) (n : Nat) (f : Occ → Occ) : (x.modOcc k n f).seals = x.seals := rfl
@[simp] theorem Die.modOcc_reqNet (x : Die) (k : TileKind) (n : Nat) (f : Occ → Occ) : (x.modOcc k n f).reqNet = x.reqNet := rfl
@[simp] theorem Die.modOcc_repNet (x : Die) (k : TileKind) (n : Nat) (f : Occ → Occ) : (x.modOcc k n f).repNet = x.repNet := rfl
@[simp] theorem Die.modOcc_redir0 (x : Die) (k : TileKind) (n : Nat) (f : Occ → Occ) : (x.modOcc k n f).redir0 = x.redir0 := rfl
@[simp] theorem Die.modOcc_redir1 (x : Die) (k : TileKind) (n : Nat) (f : Occ → Occ) : (x.modOcc k n f).redir1 = x.redir1 := rfl
@[simp] theorem Die.modOcc_epoch (x : Die) (k : TileKind) (n : Nat) (f : Occ → Occ) : (x.modOcc k n f).epoch = x.epoch := rfl
@[simp] theorem Die.modOcc_switching (x : Die) (k : TileKind) (n : Nat) (f : Occ → Occ) : (x.modOcc k n f).switching = x.switching := rfl
@[simp] theorem Die.modOcc_flipped (x : Die) (k : TileKind) (n : Nat) (f : Occ → Occ) : (x.modOcc k n f).flipped = x.flipped := rfl
@[simp] theorem Die.modOcc_routers (x : Die) (k : TileKind) (n : Nat) (f : Occ → Occ) : (x.modOcc k n f).routers = x.routers := rfl
@[simp] theorem Die.modOcc_ifaces (x : Die) (k : TileKind) (n : Nat) (f : Occ → Occ) : (x.modOcc k n f).ifaces = x.ifaces := rfl
@[simp] theorem Die.modOcc_fenced (x : Die) (k : TileKind) (n : Nat) (f : Occ → Occ) : (x.modOcc k n f).fenced = x.fenced := rfl
@[simp] theorem Die.modOcc_tests (x : Die) (k : TileKind) (n : Nat) (f : Occ → Occ) : (x.modOcc k n f).tests = x.tests := rfl
@[simp] theorem Die.modOcc_errs (x : Die) (k : TileKind) (n : Nat) (f : Occ → Occ) : (x.modOcc k n f).errs = x.errs := rfl
@[simp] theorem Die.modOcc_ucieOut (x : Die) (k : TileKind) (n : Nat) (f : Occ → Occ) : (x.modOcc k n f).ucieOut = x.ucieOut := rfl
@[simp] theorem Die.modOcc_probes (x : Die) (k : TileKind) (n : Nat) (f : Occ → Occ) : (x.modOcc k n f).probes = x.probes := rfl
@[simp] theorem Die.modOcc_trace (x : Die) (k : TileKind) (n : Nat) (f : Occ → Occ) : (x.modOcc k n f).trace = x.trace := rfl
@[simp] theorem Die.modOcc_traceLost (x : Die) (k : TileKind) (n : Nat) (f : Occ → Occ) : (x.modOcc k n f).traceLost = x.traceLost := rfl
@[simp] theorem Die.modOcc_fabrics (x : Die) (k : TileKind) (n : Nat) (f : Occ → Occ) : (x.modOcc k n f).fabrics = x.fabrics := rfl
@[simp] theorem Die.modOcc_frames (x : Die) (k : TileKind) (n : Nat) (f : Occ → Occ) : (x.modOcc k n f).frames = x.frames := rfl
@[simp] theorem Die.modOcc_darner (x : Die) (k : TileKind) (n : Nat) (f : Occ → Occ) : (x.modOcc k n f).darner = x.darner := rfl
@[simp] theorem Die.modOcc_pregs (x : Die) (k : TileKind) (n : Nat) (f : Occ → Occ) : (x.modOcc k n f).pregs = x.pregs := rfl
@[simp] theorem Die.modOcc_cfgs (x : Die) (k : TileKind) (n : Nat) (f : Occ → Occ) : (x.modOcc k n f).cfgs = x.cfgs := rfl
@[simp] theorem Die.modOcc_snaps (x : Die) (k : TileKind) (n : Nat) (f : Occ → Occ) : (x.modOcc k n f).snaps = x.snaps := rfl
@[simp] theorem Die.modOcc_ctrs (x : Die) (k : TileKind) (n : Nat) (f : Occ → Occ) : (x.modOcc k n f).ctrs = x.ctrs := rfl
@[simp] theorem Die.modOcc_wraps (x : Die) (k : TileKind) (n : Nat) (f : Occ → Occ) : (x.modOcc k n f).wraps = x.wraps := rfl
@[simp] theorem Die.modOcc_led (x : Die) (k : TileKind) (n : Nat) (f : Occ → Occ) : (x.modOcc k n f).led = x.led := rfl
@[simp] theorem Die.modOcc_thRounds (x : Die) (k : TileKind) (n : Nat) (f : Occ → Occ) : (x.modOcc k n f).thRounds = x.thRounds := rfl
@[simp] theorem Die.modOcc_acts (x : Die) (k : TileKind) (n : Nat) (f : Occ → Occ) : (x.modOcc k n f).acts = x.acts := rfl
@[simp] theorem Die.modOcc_ledSeen (x : Die) (k : TileKind) (n : Nat) (f : Occ → Occ) : (x.modOcc k n f).ledSeen = x.ledSeen := rfl
@[simp] theorem Die.modOcc_tallies (x : Die) (k : TileKind) (n : Nat) (f : Occ → Occ) : (x.modOcc k n f).tallies = x.tallies := rfl
@[simp] theorem Die.modOcc_flips (x : Die) (k : TileKind) (n : Nat) (f : Occ → Occ) : (x.modOcc k n f).flips = x.flips := rfl

@[simp] theorem Die.modWringer_lost (x : Die) (w : Nat) (f : Wringer → Wringer) : (x.modWringer w f).lost = x.lost := rfl
@[simp] theorem Die.modWringer_running (x : Die) (w : Nat) (f : Wringer → Wringer) : (x.modWringer w f).running = x.running := rfl
@[simp] theorem Die.modWringer_lpAbsent (x : Die) (w : Nat) (f : Wringer → Wringer) : (x.modWringer w f).lpAbsent = x.lpAbsent := rfl
@[simp] theorem Die.modWringer_trained (x : Die) (w : Nat) (f : Wringer → Wringer) : (x.modWringer w f).trained = x.trained := rfl
@[simp] theorem Die.modWringer_fwOk (x : Die) (w : Nat) (f : Wringer → Wringer) : (x.modWringer w f).fwOk = x.fwOk := rfl
@[simp] theorem Die.modWringer_sawDone (x : Die) (w : Nat) (f : Wringer → Wringer) : (x.modWringer w f).sawDone = x.sawDone := rfl
@[simp] theorem Die.modWringer_regions (x : Die) (w : Nat) (f : Wringer → Wringer) : (x.modWringer w f).regions = x.regions := rfl
@[simp] theorem Die.modWringer_mtiles (x : Die) (w : Nat) (f : Wringer → Wringer) : (x.modWringer w f).mtiles = x.mtiles := rfl
@[simp] theorem Die.modWringer_vtiles (x : Die) (w : Nat) (f : Wringer → Wringer) : (x.modWringer w f).vtiles = x.vtiles := rfl
@[simp] theorem Die.modWringer_occ (x : Die) (w : Nat) (f : Wringer → Wringer) : (x.modWringer w f).occ = x.occ := rfl
@[simp] theorem Die.modWringer_mcs (x : Die) (w : Nat) (f : Wringer → Wringer) : (x.modWringer w f).mcs = x.mcs := rfl
@[simp] theorem Die.modWringer_felts (x : Die) (w : Nat) (f : Wringer → Wringer) : (x.modWringer w f).felts = x.felts := rfl
@[simp] theorem Die.modWringer_rings (x : Die) (w : Nat) (f : Wringer → Wringer) : (x.modWringer w f).rings = x.rings := rfl
@[simp] theorem Die.modWringer_streams (x : Die) (w : Nat) (f : Wringer → Wringer) : (x.modWringer w f).streams = x.streams := rfl
@[simp] theorem Die.modWringer_threads (x : Die) (w : Nat) (f : Wringer → Wringer) : (x.modWringer w f).threads = x.threads := rfl
@[simp] theorem Die.modWringer_ctxs (x : Die) (w : Nat) (f : Wringer → Wringer) : (x.modWringer w f).ctxs = x.ctxs := rfl
@[simp] theorem Die.modWringer_knots (x : Die) (w : Nat) (f : Wringer → Wringer) : (x.modWringer w f).knots = x.knots := rfl
@[simp] theorem Die.modWringer_knotNet (x : Die) (w : Nat) (f : Wringer → Wringer) : (x.modWringer w f).knotNet = x.knotNet := rfl
@[simp] theorem Die.modWringer_ream (x : Die) (w : Nat) (f : Wringer → Wringer) : (x.modWringer w f).ream = x.ream := rfl
@[simp] theorem Die.modWringer_reamBad (x : Die) (w : Nat) (f : Wringer → Wringer) : (x.modWringer w f).reamBad = x.reamBad := rfl
@[simp] theorem Die.modWringer_copies (x : Die) (w : Nat) (f : Wringer → Wringer) : (x.modWringer w f).copies = x.copies := rfl
@[simp] theorem Die.modWringer_hints (x : Die) (w : Nat) (f : Wringer → Wringer) : (x.modWringer w f).hints = x.hints := rfl
@[simp] theorem Die.modWringer_aging (x : Die) (w : Nat) (f : Wringer → Wringer) : (x.modWringer w f).aging = x.aging := rfl
@[simp] theorem Die.modWringer_lowMark (x : Die) (w : Nat) (f : Wringer → Wringer) : (x.modWringer w f).lowMark = x.lowMark := rfl
@[simp] theorem Die.modWringer_highMark (x : Die) (w : Nat) (f : Wringer → Wringer) : (x.modWringer w f).highMark = x.highMark := rfl
@[simp] theorem Die.modWringer_hotMark (x : Die) (w : Nat) (f : Wringer → Wringer) : (x.modWringer w f).hotMark = x.hotMark := rfl
@[simp] theorem Die.modWringer_reserved (x : Die) (w : Nat) (f : Wringer → Wringer) : (x.modWringer w f).reserved = x.reserved := rfl
@[simp] theorem Die.modWringer_dealNext (x : Die) (w : Nat) (f : Wringer → Wringer) : (x.modWringer w f).dealNext = x.dealNext := rfl
@[simp] theorem Die.modWringer_retired (x : Die) (w : Nat) (f : Wringer → Wringer) : (x.modWringer w f).retired = x.retired := rfl
@[simp] theorem Die.modWringer_dropped (x : Die) (w : Nat) (f : Wringer → Wringer) : (x.modWringer w f).dropped = x.dropped := rfl
@[simp] theorem Die.modWringer_initSegs (x : Die) (w : Nat) (f : Wringer → Wringer) : (x.modWringer w f).initSegs = x.initSegs := rfl
@[simp] theorem Die.modWringer_idle (x : Die) (w : Nat) (f : Wringer → Wringer) : (x.modWringer w f).idle = x.idle := rfl
@[simp] theorem Die.modWringer_sealSlots (x : Die) (w : Nat) (f : Wringer → Wringer) : (x.modWringer w f).sealSlots = x.sealSlots := rfl
@[simp] theorem Die.modWringer_dram (x : Die) (w : Nat) (f : Wringer → Wringer) : (x.modWringer w f).dram = x.dram := rfl
@[simp] theorem Die.modWringer_seals (x : Die) (w : Nat) (f : Wringer → Wringer) : (x.modWringer w f).seals = x.seals := rfl
@[simp] theorem Die.modWringer_reqNet (x : Die) (w : Nat) (f : Wringer → Wringer) : (x.modWringer w f).reqNet = x.reqNet := rfl
@[simp] theorem Die.modWringer_repNet (x : Die) (w : Nat) (f : Wringer → Wringer) : (x.modWringer w f).repNet = x.repNet := rfl
@[simp] theorem Die.modWringer_redir0 (x : Die) (w : Nat) (f : Wringer → Wringer) : (x.modWringer w f).redir0 = x.redir0 := rfl
@[simp] theorem Die.modWringer_redir1 (x : Die) (w : Nat) (f : Wringer → Wringer) : (x.modWringer w f).redir1 = x.redir1 := rfl
@[simp] theorem Die.modWringer_epoch (x : Die) (w : Nat) (f : Wringer → Wringer) : (x.modWringer w f).epoch = x.epoch := rfl
@[simp] theorem Die.modWringer_switching (x : Die) (w : Nat) (f : Wringer → Wringer) : (x.modWringer w f).switching = x.switching := rfl
@[simp] theorem Die.modWringer_flipped (x : Die) (w : Nat) (f : Wringer → Wringer) : (x.modWringer w f).flipped = x.flipped := rfl
@[simp] theorem Die.modWringer_routers (x : Die) (w : Nat) (f : Wringer → Wringer) : (x.modWringer w f).routers = x.routers := rfl
@[simp] theorem Die.modWringer_ifaces (x : Die) (w : Nat) (f : Wringer → Wringer) : (x.modWringer w f).ifaces = x.ifaces := rfl
@[simp] theorem Die.modWringer_fenced (x : Die) (w : Nat) (f : Wringer → Wringer) : (x.modWringer w f).fenced = x.fenced := rfl
@[simp] theorem Die.modWringer_tests (x : Die) (w : Nat) (f : Wringer → Wringer) : (x.modWringer w f).tests = x.tests := rfl
@[simp] theorem Die.modWringer_errs (x : Die) (w : Nat) (f : Wringer → Wringer) : (x.modWringer w f).errs = x.errs := rfl
@[simp] theorem Die.modWringer_ucieOut (x : Die) (w : Nat) (f : Wringer → Wringer) : (x.modWringer w f).ucieOut = x.ucieOut := rfl
@[simp] theorem Die.modWringer_probes (x : Die) (w : Nat) (f : Wringer → Wringer) : (x.modWringer w f).probes = x.probes := rfl
@[simp] theorem Die.modWringer_trace (x : Die) (w : Nat) (f : Wringer → Wringer) : (x.modWringer w f).trace = x.trace := rfl
@[simp] theorem Die.modWringer_traceLost (x : Die) (w : Nat) (f : Wringer → Wringer) : (x.modWringer w f).traceLost = x.traceLost := rfl
@[simp] theorem Die.modWringer_fabrics (x : Die) (w : Nat) (f : Wringer → Wringer) : (x.modWringer w f).fabrics = x.fabrics := rfl
@[simp] theorem Die.modWringer_frames (x : Die) (w : Nat) (f : Wringer → Wringer) : (x.modWringer w f).frames = x.frames := rfl
@[simp] theorem Die.modWringer_darner (x : Die) (w : Nat) (f : Wringer → Wringer) : (x.modWringer w f).darner = x.darner := rfl
@[simp] theorem Die.modWringer_pregs (x : Die) (w : Nat) (f : Wringer → Wringer) : (x.modWringer w f).pregs = x.pregs := rfl
@[simp] theorem Die.modWringer_cfgs (x : Die) (w : Nat) (f : Wringer → Wringer) : (x.modWringer w f).cfgs = x.cfgs := rfl
@[simp] theorem Die.modWringer_snaps (x : Die) (w : Nat) (f : Wringer → Wringer) : (x.modWringer w f).snaps = x.snaps := rfl
@[simp] theorem Die.modWringer_ctrs (x : Die) (w : Nat) (f : Wringer → Wringer) : (x.modWringer w f).ctrs = x.ctrs := rfl
@[simp] theorem Die.modWringer_wraps (x : Die) (w : Nat) (f : Wringer → Wringer) : (x.modWringer w f).wraps = x.wraps := rfl
@[simp] theorem Die.modWringer_led (x : Die) (w : Nat) (f : Wringer → Wringer) : (x.modWringer w f).led = x.led := rfl
@[simp] theorem Die.modWringer_thRounds (x : Die) (w : Nat) (f : Wringer → Wringer) : (x.modWringer w f).thRounds = x.thRounds := rfl
@[simp] theorem Die.modWringer_acts (x : Die) (w : Nat) (f : Wringer → Wringer) : (x.modWringer w f).acts = x.acts := rfl
@[simp] theorem Die.modWringer_ledSeen (x : Die) (w : Nat) (f : Wringer → Wringer) : (x.modWringer w f).ledSeen = x.ledSeen := rfl
@[simp] theorem Die.modWringer_tallies (x : Die) (w : Nat) (f : Wringer → Wringer) : (x.modWringer w f).tallies = x.tallies := rfl
@[simp] theorem Die.modWringer_flips (x : Die) (w : Nat) (f : Wringer → Wringer) : (x.modWringer w f).flips = x.flips := rfl

@[simp] theorem Die.modMC_lost (x : Die) (m : Nat) (f : MC → MC) : (x.modMC m f).lost = x.lost := rfl
@[simp] theorem Die.modMC_running (x : Die) (m : Nat) (f : MC → MC) : (x.modMC m f).running = x.running := rfl
@[simp] theorem Die.modMC_lpAbsent (x : Die) (m : Nat) (f : MC → MC) : (x.modMC m f).lpAbsent = x.lpAbsent := rfl
@[simp] theorem Die.modMC_trained (x : Die) (m : Nat) (f : MC → MC) : (x.modMC m f).trained = x.trained := rfl
@[simp] theorem Die.modMC_fwOk (x : Die) (m : Nat) (f : MC → MC) : (x.modMC m f).fwOk = x.fwOk := rfl
@[simp] theorem Die.modMC_sawDone (x : Die) (m : Nat) (f : MC → MC) : (x.modMC m f).sawDone = x.sawDone := rfl
@[simp] theorem Die.modMC_regions (x : Die) (m : Nat) (f : MC → MC) : (x.modMC m f).regions = x.regions := rfl
@[simp] theorem Die.modMC_mtiles (x : Die) (m : Nat) (f : MC → MC) : (x.modMC m f).mtiles = x.mtiles := rfl
@[simp] theorem Die.modMC_vtiles (x : Die) (m : Nat) (f : MC → MC) : (x.modMC m f).vtiles = x.vtiles := rfl
@[simp] theorem Die.modMC_occ (x : Die) (m : Nat) (f : MC → MC) : (x.modMC m f).occ = x.occ := rfl
@[simp] theorem Die.modMC_wringers (x : Die) (m : Nat) (f : MC → MC) : (x.modMC m f).wringers = x.wringers := rfl
@[simp] theorem Die.modMC_felts (x : Die) (m : Nat) (f : MC → MC) : (x.modMC m f).felts = x.felts := rfl
@[simp] theorem Die.modMC_rings (x : Die) (m : Nat) (f : MC → MC) : (x.modMC m f).rings = x.rings := rfl
@[simp] theorem Die.modMC_streams (x : Die) (m : Nat) (f : MC → MC) : (x.modMC m f).streams = x.streams := rfl
@[simp] theorem Die.modMC_threads (x : Die) (m : Nat) (f : MC → MC) : (x.modMC m f).threads = x.threads := rfl
@[simp] theorem Die.modMC_ctxs (x : Die) (m : Nat) (f : MC → MC) : (x.modMC m f).ctxs = x.ctxs := rfl
@[simp] theorem Die.modMC_knots (x : Die) (m : Nat) (f : MC → MC) : (x.modMC m f).knots = x.knots := rfl
@[simp] theorem Die.modMC_knotNet (x : Die) (m : Nat) (f : MC → MC) : (x.modMC m f).knotNet = x.knotNet := rfl
@[simp] theorem Die.modMC_ream (x : Die) (m : Nat) (f : MC → MC) : (x.modMC m f).ream = x.ream := rfl
@[simp] theorem Die.modMC_reamBad (x : Die) (m : Nat) (f : MC → MC) : (x.modMC m f).reamBad = x.reamBad := rfl
@[simp] theorem Die.modMC_copies (x : Die) (m : Nat) (f : MC → MC) : (x.modMC m f).copies = x.copies := rfl
@[simp] theorem Die.modMC_hints (x : Die) (m : Nat) (f : MC → MC) : (x.modMC m f).hints = x.hints := rfl
@[simp] theorem Die.modMC_aging (x : Die) (m : Nat) (f : MC → MC) : (x.modMC m f).aging = x.aging := rfl
@[simp] theorem Die.modMC_lowMark (x : Die) (m : Nat) (f : MC → MC) : (x.modMC m f).lowMark = x.lowMark := rfl
@[simp] theorem Die.modMC_highMark (x : Die) (m : Nat) (f : MC → MC) : (x.modMC m f).highMark = x.highMark := rfl
@[simp] theorem Die.modMC_hotMark (x : Die) (m : Nat) (f : MC → MC) : (x.modMC m f).hotMark = x.hotMark := rfl
@[simp] theorem Die.modMC_reserved (x : Die) (m : Nat) (f : MC → MC) : (x.modMC m f).reserved = x.reserved := rfl
@[simp] theorem Die.modMC_dealNext (x : Die) (m : Nat) (f : MC → MC) : (x.modMC m f).dealNext = x.dealNext := rfl
@[simp] theorem Die.modMC_retired (x : Die) (m : Nat) (f : MC → MC) : (x.modMC m f).retired = x.retired := rfl
@[simp] theorem Die.modMC_dropped (x : Die) (m : Nat) (f : MC → MC) : (x.modMC m f).dropped = x.dropped := rfl
@[simp] theorem Die.modMC_initSegs (x : Die) (m : Nat) (f : MC → MC) : (x.modMC m f).initSegs = x.initSegs := rfl
@[simp] theorem Die.modMC_idle (x : Die) (m : Nat) (f : MC → MC) : (x.modMC m f).idle = x.idle := rfl
@[simp] theorem Die.modMC_sealSlots (x : Die) (m : Nat) (f : MC → MC) : (x.modMC m f).sealSlots = x.sealSlots := rfl
@[simp] theorem Die.modMC_dram (x : Die) (m : Nat) (f : MC → MC) : (x.modMC m f).dram = x.dram := rfl
@[simp] theorem Die.modMC_seals (x : Die) (m : Nat) (f : MC → MC) : (x.modMC m f).seals = x.seals := rfl
@[simp] theorem Die.modMC_reqNet (x : Die) (m : Nat) (f : MC → MC) : (x.modMC m f).reqNet = x.reqNet := rfl
@[simp] theorem Die.modMC_repNet (x : Die) (m : Nat) (f : MC → MC) : (x.modMC m f).repNet = x.repNet := rfl
@[simp] theorem Die.modMC_redir0 (x : Die) (m : Nat) (f : MC → MC) : (x.modMC m f).redir0 = x.redir0 := rfl
@[simp] theorem Die.modMC_redir1 (x : Die) (m : Nat) (f : MC → MC) : (x.modMC m f).redir1 = x.redir1 := rfl
@[simp] theorem Die.modMC_epoch (x : Die) (m : Nat) (f : MC → MC) : (x.modMC m f).epoch = x.epoch := rfl
@[simp] theorem Die.modMC_switching (x : Die) (m : Nat) (f : MC → MC) : (x.modMC m f).switching = x.switching := rfl
@[simp] theorem Die.modMC_flipped (x : Die) (m : Nat) (f : MC → MC) : (x.modMC m f).flipped = x.flipped := rfl
@[simp] theorem Die.modMC_routers (x : Die) (m : Nat) (f : MC → MC) : (x.modMC m f).routers = x.routers := rfl
@[simp] theorem Die.modMC_ifaces (x : Die) (m : Nat) (f : MC → MC) : (x.modMC m f).ifaces = x.ifaces := rfl
@[simp] theorem Die.modMC_fenced (x : Die) (m : Nat) (f : MC → MC) : (x.modMC m f).fenced = x.fenced := rfl
@[simp] theorem Die.modMC_tests (x : Die) (m : Nat) (f : MC → MC) : (x.modMC m f).tests = x.tests := rfl
@[simp] theorem Die.modMC_errs (x : Die) (m : Nat) (f : MC → MC) : (x.modMC m f).errs = x.errs := rfl
@[simp] theorem Die.modMC_ucieOut (x : Die) (m : Nat) (f : MC → MC) : (x.modMC m f).ucieOut = x.ucieOut := rfl
@[simp] theorem Die.modMC_probes (x : Die) (m : Nat) (f : MC → MC) : (x.modMC m f).probes = x.probes := rfl
@[simp] theorem Die.modMC_trace (x : Die) (m : Nat) (f : MC → MC) : (x.modMC m f).trace = x.trace := rfl
@[simp] theorem Die.modMC_traceLost (x : Die) (m : Nat) (f : MC → MC) : (x.modMC m f).traceLost = x.traceLost := rfl
@[simp] theorem Die.modMC_fabrics (x : Die) (m : Nat) (f : MC → MC) : (x.modMC m f).fabrics = x.fabrics := rfl
@[simp] theorem Die.modMC_frames (x : Die) (m : Nat) (f : MC → MC) : (x.modMC m f).frames = x.frames := rfl
@[simp] theorem Die.modMC_darner (x : Die) (m : Nat) (f : MC → MC) : (x.modMC m f).darner = x.darner := rfl
@[simp] theorem Die.modMC_pregs (x : Die) (m : Nat) (f : MC → MC) : (x.modMC m f).pregs = x.pregs := rfl
@[simp] theorem Die.modMC_cfgs (x : Die) (m : Nat) (f : MC → MC) : (x.modMC m f).cfgs = x.cfgs := rfl
@[simp] theorem Die.modMC_snaps (x : Die) (m : Nat) (f : MC → MC) : (x.modMC m f).snaps = x.snaps := rfl
@[simp] theorem Die.modMC_ctrs (x : Die) (m : Nat) (f : MC → MC) : (x.modMC m f).ctrs = x.ctrs := rfl
@[simp] theorem Die.modMC_wraps (x : Die) (m : Nat) (f : MC → MC) : (x.modMC m f).wraps = x.wraps := rfl
@[simp] theorem Die.modMC_led (x : Die) (m : Nat) (f : MC → MC) : (x.modMC m f).led = x.led := rfl
@[simp] theorem Die.modMC_thRounds (x : Die) (m : Nat) (f : MC → MC) : (x.modMC m f).thRounds = x.thRounds := rfl
@[simp] theorem Die.modMC_acts (x : Die) (m : Nat) (f : MC → MC) : (x.modMC m f).acts = x.acts := rfl
@[simp] theorem Die.modMC_ledSeen (x : Die) (m : Nat) (f : MC → MC) : (x.modMC m f).ledSeen = x.ledSeen := rfl
@[simp] theorem Die.modMC_tallies (x : Die) (m : Nat) (f : MC → MC) : (x.modMC m f).tallies = x.tallies := rfl
@[simp] theorem Die.modMC_flips (x : Die) (m : Nat) (f : MC → MC) : (x.modMC m f).flips = x.flips := rfl

@[simp] theorem Die.modFelt_lost (x : Die) (p : Nat) (f : Felt → Felt) : (x.modFelt p f).lost = x.lost := rfl
@[simp] theorem Die.modFelt_running (x : Die) (p : Nat) (f : Felt → Felt) : (x.modFelt p f).running = x.running := rfl
@[simp] theorem Die.modFelt_lpAbsent (x : Die) (p : Nat) (f : Felt → Felt) : (x.modFelt p f).lpAbsent = x.lpAbsent := rfl
@[simp] theorem Die.modFelt_trained (x : Die) (p : Nat) (f : Felt → Felt) : (x.modFelt p f).trained = x.trained := rfl
@[simp] theorem Die.modFelt_fwOk (x : Die) (p : Nat) (f : Felt → Felt) : (x.modFelt p f).fwOk = x.fwOk := rfl
@[simp] theorem Die.modFelt_sawDone (x : Die) (p : Nat) (f : Felt → Felt) : (x.modFelt p f).sawDone = x.sawDone := rfl
@[simp] theorem Die.modFelt_regions (x : Die) (p : Nat) (f : Felt → Felt) : (x.modFelt p f).regions = x.regions := rfl
@[simp] theorem Die.modFelt_mtiles (x : Die) (p : Nat) (f : Felt → Felt) : (x.modFelt p f).mtiles = x.mtiles := rfl
@[simp] theorem Die.modFelt_vtiles (x : Die) (p : Nat) (f : Felt → Felt) : (x.modFelt p f).vtiles = x.vtiles := rfl
@[simp] theorem Die.modFelt_occ (x : Die) (p : Nat) (f : Felt → Felt) : (x.modFelt p f).occ = x.occ := rfl
@[simp] theorem Die.modFelt_wringers (x : Die) (p : Nat) (f : Felt → Felt) : (x.modFelt p f).wringers = x.wringers := rfl
@[simp] theorem Die.modFelt_mcs (x : Die) (p : Nat) (f : Felt → Felt) : (x.modFelt p f).mcs = x.mcs := rfl
@[simp] theorem Die.modFelt_rings (x : Die) (p : Nat) (f : Felt → Felt) : (x.modFelt p f).rings = x.rings := rfl
@[simp] theorem Die.modFelt_streams (x : Die) (p : Nat) (f : Felt → Felt) : (x.modFelt p f).streams = x.streams := rfl
@[simp] theorem Die.modFelt_threads (x : Die) (p : Nat) (f : Felt → Felt) : (x.modFelt p f).threads = x.threads := rfl
@[simp] theorem Die.modFelt_ctxs (x : Die) (p : Nat) (f : Felt → Felt) : (x.modFelt p f).ctxs = x.ctxs := rfl
@[simp] theorem Die.modFelt_knots (x : Die) (p : Nat) (f : Felt → Felt) : (x.modFelt p f).knots = x.knots := rfl
@[simp] theorem Die.modFelt_knotNet (x : Die) (p : Nat) (f : Felt → Felt) : (x.modFelt p f).knotNet = x.knotNet := rfl
@[simp] theorem Die.modFelt_ream (x : Die) (p : Nat) (f : Felt → Felt) : (x.modFelt p f).ream = x.ream := rfl
@[simp] theorem Die.modFelt_reamBad (x : Die) (p : Nat) (f : Felt → Felt) : (x.modFelt p f).reamBad = x.reamBad := rfl
@[simp] theorem Die.modFelt_copies (x : Die) (p : Nat) (f : Felt → Felt) : (x.modFelt p f).copies = x.copies := rfl
@[simp] theorem Die.modFelt_hints (x : Die) (p : Nat) (f : Felt → Felt) : (x.modFelt p f).hints = x.hints := rfl
@[simp] theorem Die.modFelt_aging (x : Die) (p : Nat) (f : Felt → Felt) : (x.modFelt p f).aging = x.aging := rfl
@[simp] theorem Die.modFelt_lowMark (x : Die) (p : Nat) (f : Felt → Felt) : (x.modFelt p f).lowMark = x.lowMark := rfl
@[simp] theorem Die.modFelt_highMark (x : Die) (p : Nat) (f : Felt → Felt) : (x.modFelt p f).highMark = x.highMark := rfl
@[simp] theorem Die.modFelt_hotMark (x : Die) (p : Nat) (f : Felt → Felt) : (x.modFelt p f).hotMark = x.hotMark := rfl
@[simp] theorem Die.modFelt_reserved (x : Die) (p : Nat) (f : Felt → Felt) : (x.modFelt p f).reserved = x.reserved := rfl
@[simp] theorem Die.modFelt_dealNext (x : Die) (p : Nat) (f : Felt → Felt) : (x.modFelt p f).dealNext = x.dealNext := rfl
@[simp] theorem Die.modFelt_retired (x : Die) (p : Nat) (f : Felt → Felt) : (x.modFelt p f).retired = x.retired := rfl
@[simp] theorem Die.modFelt_dropped (x : Die) (p : Nat) (f : Felt → Felt) : (x.modFelt p f).dropped = x.dropped := rfl
@[simp] theorem Die.modFelt_initSegs (x : Die) (p : Nat) (f : Felt → Felt) : (x.modFelt p f).initSegs = x.initSegs := rfl
@[simp] theorem Die.modFelt_idle (x : Die) (p : Nat) (f : Felt → Felt) : (x.modFelt p f).idle = x.idle := rfl
@[simp] theorem Die.modFelt_sealSlots (x : Die) (p : Nat) (f : Felt → Felt) : (x.modFelt p f).sealSlots = x.sealSlots := rfl
@[simp] theorem Die.modFelt_dram (x : Die) (p : Nat) (f : Felt → Felt) : (x.modFelt p f).dram = x.dram := rfl
@[simp] theorem Die.modFelt_seals (x : Die) (p : Nat) (f : Felt → Felt) : (x.modFelt p f).seals = x.seals := rfl
@[simp] theorem Die.modFelt_reqNet (x : Die) (p : Nat) (f : Felt → Felt) : (x.modFelt p f).reqNet = x.reqNet := rfl
@[simp] theorem Die.modFelt_repNet (x : Die) (p : Nat) (f : Felt → Felt) : (x.modFelt p f).repNet = x.repNet := rfl
@[simp] theorem Die.modFelt_redir0 (x : Die) (p : Nat) (f : Felt → Felt) : (x.modFelt p f).redir0 = x.redir0 := rfl
@[simp] theorem Die.modFelt_redir1 (x : Die) (p : Nat) (f : Felt → Felt) : (x.modFelt p f).redir1 = x.redir1 := rfl
@[simp] theorem Die.modFelt_epoch (x : Die) (p : Nat) (f : Felt → Felt) : (x.modFelt p f).epoch = x.epoch := rfl
@[simp] theorem Die.modFelt_switching (x : Die) (p : Nat) (f : Felt → Felt) : (x.modFelt p f).switching = x.switching := rfl
@[simp] theorem Die.modFelt_flipped (x : Die) (p : Nat) (f : Felt → Felt) : (x.modFelt p f).flipped = x.flipped := rfl
@[simp] theorem Die.modFelt_routers (x : Die) (p : Nat) (f : Felt → Felt) : (x.modFelt p f).routers = x.routers := rfl
@[simp] theorem Die.modFelt_ifaces (x : Die) (p : Nat) (f : Felt → Felt) : (x.modFelt p f).ifaces = x.ifaces := rfl
@[simp] theorem Die.modFelt_fenced (x : Die) (p : Nat) (f : Felt → Felt) : (x.modFelt p f).fenced = x.fenced := rfl
@[simp] theorem Die.modFelt_tests (x : Die) (p : Nat) (f : Felt → Felt) : (x.modFelt p f).tests = x.tests := rfl
@[simp] theorem Die.modFelt_errs (x : Die) (p : Nat) (f : Felt → Felt) : (x.modFelt p f).errs = x.errs := rfl
@[simp] theorem Die.modFelt_ucieOut (x : Die) (p : Nat) (f : Felt → Felt) : (x.modFelt p f).ucieOut = x.ucieOut := rfl
@[simp] theorem Die.modFelt_probes (x : Die) (p : Nat) (f : Felt → Felt) : (x.modFelt p f).probes = x.probes := rfl
@[simp] theorem Die.modFelt_trace (x : Die) (p : Nat) (f : Felt → Felt) : (x.modFelt p f).trace = x.trace := rfl
@[simp] theorem Die.modFelt_traceLost (x : Die) (p : Nat) (f : Felt → Felt) : (x.modFelt p f).traceLost = x.traceLost := rfl
@[simp] theorem Die.modFelt_fabrics (x : Die) (p : Nat) (f : Felt → Felt) : (x.modFelt p f).fabrics = x.fabrics := rfl
@[simp] theorem Die.modFelt_frames (x : Die) (p : Nat) (f : Felt → Felt) : (x.modFelt p f).frames = x.frames := rfl
@[simp] theorem Die.modFelt_darner (x : Die) (p : Nat) (f : Felt → Felt) : (x.modFelt p f).darner = x.darner := rfl
@[simp] theorem Die.modFelt_pregs (x : Die) (p : Nat) (f : Felt → Felt) : (x.modFelt p f).pregs = x.pregs := rfl
@[simp] theorem Die.modFelt_cfgs (x : Die) (p : Nat) (f : Felt → Felt) : (x.modFelt p f).cfgs = x.cfgs := rfl
@[simp] theorem Die.modFelt_snaps (x : Die) (p : Nat) (f : Felt → Felt) : (x.modFelt p f).snaps = x.snaps := rfl
@[simp] theorem Die.modFelt_ctrs (x : Die) (p : Nat) (f : Felt → Felt) : (x.modFelt p f).ctrs = x.ctrs := rfl
@[simp] theorem Die.modFelt_wraps (x : Die) (p : Nat) (f : Felt → Felt) : (x.modFelt p f).wraps = x.wraps := rfl
@[simp] theorem Die.modFelt_led (x : Die) (p : Nat) (f : Felt → Felt) : (x.modFelt p f).led = x.led := rfl
@[simp] theorem Die.modFelt_thRounds (x : Die) (p : Nat) (f : Felt → Felt) : (x.modFelt p f).thRounds = x.thRounds := rfl
@[simp] theorem Die.modFelt_acts (x : Die) (p : Nat) (f : Felt → Felt) : (x.modFelt p f).acts = x.acts := rfl
@[simp] theorem Die.modFelt_ledSeen (x : Die) (p : Nat) (f : Felt → Felt) : (x.modFelt p f).ledSeen = x.ledSeen := rfl
@[simp] theorem Die.modFelt_tallies (x : Die) (p : Nat) (f : Felt → Felt) : (x.modFelt p f).tallies = x.tallies := rfl
@[simp] theorem Die.modFelt_flips (x : Die) (p : Nat) (f : Felt → Felt) : (x.modFelt p f).flips = x.flips := rfl

@[simp] theorem Die.modRing_lost (x : Die) (n : Nat) (f : Ring → Ring) : (x.modRing n f).lost = x.lost := rfl
@[simp] theorem Die.modRing_running (x : Die) (n : Nat) (f : Ring → Ring) : (x.modRing n f).running = x.running := rfl
@[simp] theorem Die.modRing_lpAbsent (x : Die) (n : Nat) (f : Ring → Ring) : (x.modRing n f).lpAbsent = x.lpAbsent := rfl
@[simp] theorem Die.modRing_trained (x : Die) (n : Nat) (f : Ring → Ring) : (x.modRing n f).trained = x.trained := rfl
@[simp] theorem Die.modRing_fwOk (x : Die) (n : Nat) (f : Ring → Ring) : (x.modRing n f).fwOk = x.fwOk := rfl
@[simp] theorem Die.modRing_sawDone (x : Die) (n : Nat) (f : Ring → Ring) : (x.modRing n f).sawDone = x.sawDone := rfl
@[simp] theorem Die.modRing_regions (x : Die) (n : Nat) (f : Ring → Ring) : (x.modRing n f).regions = x.regions := rfl
@[simp] theorem Die.modRing_mtiles (x : Die) (n : Nat) (f : Ring → Ring) : (x.modRing n f).mtiles = x.mtiles := rfl
@[simp] theorem Die.modRing_vtiles (x : Die) (n : Nat) (f : Ring → Ring) : (x.modRing n f).vtiles = x.vtiles := rfl
@[simp] theorem Die.modRing_occ (x : Die) (n : Nat) (f : Ring → Ring) : (x.modRing n f).occ = x.occ := rfl
@[simp] theorem Die.modRing_wringers (x : Die) (n : Nat) (f : Ring → Ring) : (x.modRing n f).wringers = x.wringers := rfl
@[simp] theorem Die.modRing_mcs (x : Die) (n : Nat) (f : Ring → Ring) : (x.modRing n f).mcs = x.mcs := rfl
@[simp] theorem Die.modRing_felts (x : Die) (n : Nat) (f : Ring → Ring) : (x.modRing n f).felts = x.felts := rfl
@[simp] theorem Die.modRing_streams (x : Die) (n : Nat) (f : Ring → Ring) : (x.modRing n f).streams = x.streams := rfl
@[simp] theorem Die.modRing_threads (x : Die) (n : Nat) (f : Ring → Ring) : (x.modRing n f).threads = x.threads := rfl
@[simp] theorem Die.modRing_ctxs (x : Die) (n : Nat) (f : Ring → Ring) : (x.modRing n f).ctxs = x.ctxs := rfl
@[simp] theorem Die.modRing_knots (x : Die) (n : Nat) (f : Ring → Ring) : (x.modRing n f).knots = x.knots := rfl
@[simp] theorem Die.modRing_knotNet (x : Die) (n : Nat) (f : Ring → Ring) : (x.modRing n f).knotNet = x.knotNet := rfl
@[simp] theorem Die.modRing_ream (x : Die) (n : Nat) (f : Ring → Ring) : (x.modRing n f).ream = x.ream := rfl
@[simp] theorem Die.modRing_reamBad (x : Die) (n : Nat) (f : Ring → Ring) : (x.modRing n f).reamBad = x.reamBad := rfl
@[simp] theorem Die.modRing_copies (x : Die) (n : Nat) (f : Ring → Ring) : (x.modRing n f).copies = x.copies := rfl
@[simp] theorem Die.modRing_hints (x : Die) (n : Nat) (f : Ring → Ring) : (x.modRing n f).hints = x.hints := rfl
@[simp] theorem Die.modRing_aging (x : Die) (n : Nat) (f : Ring → Ring) : (x.modRing n f).aging = x.aging := rfl
@[simp] theorem Die.modRing_lowMark (x : Die) (n : Nat) (f : Ring → Ring) : (x.modRing n f).lowMark = x.lowMark := rfl
@[simp] theorem Die.modRing_highMark (x : Die) (n : Nat) (f : Ring → Ring) : (x.modRing n f).highMark = x.highMark := rfl
@[simp] theorem Die.modRing_hotMark (x : Die) (n : Nat) (f : Ring → Ring) : (x.modRing n f).hotMark = x.hotMark := rfl
@[simp] theorem Die.modRing_reserved (x : Die) (n : Nat) (f : Ring → Ring) : (x.modRing n f).reserved = x.reserved := rfl
@[simp] theorem Die.modRing_dealNext (x : Die) (n : Nat) (f : Ring → Ring) : (x.modRing n f).dealNext = x.dealNext := rfl
@[simp] theorem Die.modRing_retired (x : Die) (n : Nat) (f : Ring → Ring) : (x.modRing n f).retired = x.retired := rfl
@[simp] theorem Die.modRing_dropped (x : Die) (n : Nat) (f : Ring → Ring) : (x.modRing n f).dropped = x.dropped := rfl
@[simp] theorem Die.modRing_initSegs (x : Die) (n : Nat) (f : Ring → Ring) : (x.modRing n f).initSegs = x.initSegs := rfl
@[simp] theorem Die.modRing_idle (x : Die) (n : Nat) (f : Ring → Ring) : (x.modRing n f).idle = x.idle := rfl
@[simp] theorem Die.modRing_sealSlots (x : Die) (n : Nat) (f : Ring → Ring) : (x.modRing n f).sealSlots = x.sealSlots := rfl
@[simp] theorem Die.modRing_dram (x : Die) (n : Nat) (f : Ring → Ring) : (x.modRing n f).dram = x.dram := rfl
@[simp] theorem Die.modRing_seals (x : Die) (n : Nat) (f : Ring → Ring) : (x.modRing n f).seals = x.seals := rfl
@[simp] theorem Die.modRing_reqNet (x : Die) (n : Nat) (f : Ring → Ring) : (x.modRing n f).reqNet = x.reqNet := rfl
@[simp] theorem Die.modRing_repNet (x : Die) (n : Nat) (f : Ring → Ring) : (x.modRing n f).repNet = x.repNet := rfl
@[simp] theorem Die.modRing_redir0 (x : Die) (n : Nat) (f : Ring → Ring) : (x.modRing n f).redir0 = x.redir0 := rfl
@[simp] theorem Die.modRing_redir1 (x : Die) (n : Nat) (f : Ring → Ring) : (x.modRing n f).redir1 = x.redir1 := rfl
@[simp] theorem Die.modRing_epoch (x : Die) (n : Nat) (f : Ring → Ring) : (x.modRing n f).epoch = x.epoch := rfl
@[simp] theorem Die.modRing_switching (x : Die) (n : Nat) (f : Ring → Ring) : (x.modRing n f).switching = x.switching := rfl
@[simp] theorem Die.modRing_flipped (x : Die) (n : Nat) (f : Ring → Ring) : (x.modRing n f).flipped = x.flipped := rfl
@[simp] theorem Die.modRing_routers (x : Die) (n : Nat) (f : Ring → Ring) : (x.modRing n f).routers = x.routers := rfl
@[simp] theorem Die.modRing_ifaces (x : Die) (n : Nat) (f : Ring → Ring) : (x.modRing n f).ifaces = x.ifaces := rfl
@[simp] theorem Die.modRing_fenced (x : Die) (n : Nat) (f : Ring → Ring) : (x.modRing n f).fenced = x.fenced := rfl
@[simp] theorem Die.modRing_tests (x : Die) (n : Nat) (f : Ring → Ring) : (x.modRing n f).tests = x.tests := rfl
@[simp] theorem Die.modRing_errs (x : Die) (n : Nat) (f : Ring → Ring) : (x.modRing n f).errs = x.errs := rfl
@[simp] theorem Die.modRing_ucieOut (x : Die) (n : Nat) (f : Ring → Ring) : (x.modRing n f).ucieOut = x.ucieOut := rfl
@[simp] theorem Die.modRing_probes (x : Die) (n : Nat) (f : Ring → Ring) : (x.modRing n f).probes = x.probes := rfl
@[simp] theorem Die.modRing_trace (x : Die) (n : Nat) (f : Ring → Ring) : (x.modRing n f).trace = x.trace := rfl
@[simp] theorem Die.modRing_traceLost (x : Die) (n : Nat) (f : Ring → Ring) : (x.modRing n f).traceLost = x.traceLost := rfl
@[simp] theorem Die.modRing_fabrics (x : Die) (n : Nat) (f : Ring → Ring) : (x.modRing n f).fabrics = x.fabrics := rfl
@[simp] theorem Die.modRing_frames (x : Die) (n : Nat) (f : Ring → Ring) : (x.modRing n f).frames = x.frames := rfl
@[simp] theorem Die.modRing_darner (x : Die) (n : Nat) (f : Ring → Ring) : (x.modRing n f).darner = x.darner := rfl
@[simp] theorem Die.modRing_pregs (x : Die) (n : Nat) (f : Ring → Ring) : (x.modRing n f).pregs = x.pregs := rfl
@[simp] theorem Die.modRing_cfgs (x : Die) (n : Nat) (f : Ring → Ring) : (x.modRing n f).cfgs = x.cfgs := rfl
@[simp] theorem Die.modRing_snaps (x : Die) (n : Nat) (f : Ring → Ring) : (x.modRing n f).snaps = x.snaps := rfl
@[simp] theorem Die.modRing_ctrs (x : Die) (n : Nat) (f : Ring → Ring) : (x.modRing n f).ctrs = x.ctrs := rfl
@[simp] theorem Die.modRing_wraps (x : Die) (n : Nat) (f : Ring → Ring) : (x.modRing n f).wraps = x.wraps := rfl
@[simp] theorem Die.modRing_led (x : Die) (n : Nat) (f : Ring → Ring) : (x.modRing n f).led = x.led := rfl
@[simp] theorem Die.modRing_thRounds (x : Die) (n : Nat) (f : Ring → Ring) : (x.modRing n f).thRounds = x.thRounds := rfl
@[simp] theorem Die.modRing_acts (x : Die) (n : Nat) (f : Ring → Ring) : (x.modRing n f).acts = x.acts := rfl
@[simp] theorem Die.modRing_ledSeen (x : Die) (n : Nat) (f : Ring → Ring) : (x.modRing n f).ledSeen = x.ledSeen := rfl
@[simp] theorem Die.modRing_tallies (x : Die) (n : Nat) (f : Ring → Ring) : (x.modRing n f).tallies = x.tallies := rfl
@[simp] theorem Die.modRing_flips (x : Die) (n : Nat) (f : Ring → Ring) : (x.modRing n f).flips = x.flips := rfl

@[simp] theorem Die.modKnot_lost (x : Die) (k : Nat) (f : Knot → Knot) : (x.modKnot k f).lost = x.lost := rfl
@[simp] theorem Die.modKnot_running (x : Die) (k : Nat) (f : Knot → Knot) : (x.modKnot k f).running = x.running := rfl
@[simp] theorem Die.modKnot_lpAbsent (x : Die) (k : Nat) (f : Knot → Knot) : (x.modKnot k f).lpAbsent = x.lpAbsent := rfl
@[simp] theorem Die.modKnot_trained (x : Die) (k : Nat) (f : Knot → Knot) : (x.modKnot k f).trained = x.trained := rfl
@[simp] theorem Die.modKnot_fwOk (x : Die) (k : Nat) (f : Knot → Knot) : (x.modKnot k f).fwOk = x.fwOk := rfl
@[simp] theorem Die.modKnot_sawDone (x : Die) (k : Nat) (f : Knot → Knot) : (x.modKnot k f).sawDone = x.sawDone := rfl
@[simp] theorem Die.modKnot_regions (x : Die) (k : Nat) (f : Knot → Knot) : (x.modKnot k f).regions = x.regions := rfl
@[simp] theorem Die.modKnot_mtiles (x : Die) (k : Nat) (f : Knot → Knot) : (x.modKnot k f).mtiles = x.mtiles := rfl
@[simp] theorem Die.modKnot_vtiles (x : Die) (k : Nat) (f : Knot → Knot) : (x.modKnot k f).vtiles = x.vtiles := rfl
@[simp] theorem Die.modKnot_occ (x : Die) (k : Nat) (f : Knot → Knot) : (x.modKnot k f).occ = x.occ := rfl
@[simp] theorem Die.modKnot_wringers (x : Die) (k : Nat) (f : Knot → Knot) : (x.modKnot k f).wringers = x.wringers := rfl
@[simp] theorem Die.modKnot_mcs (x : Die) (k : Nat) (f : Knot → Knot) : (x.modKnot k f).mcs = x.mcs := rfl
@[simp] theorem Die.modKnot_felts (x : Die) (k : Nat) (f : Knot → Knot) : (x.modKnot k f).felts = x.felts := rfl
@[simp] theorem Die.modKnot_rings (x : Die) (k : Nat) (f : Knot → Knot) : (x.modKnot k f).rings = x.rings := rfl
@[simp] theorem Die.modKnot_streams (x : Die) (k : Nat) (f : Knot → Knot) : (x.modKnot k f).streams = x.streams := rfl
@[simp] theorem Die.modKnot_threads (x : Die) (k : Nat) (f : Knot → Knot) : (x.modKnot k f).threads = x.threads := rfl
@[simp] theorem Die.modKnot_ctxs (x : Die) (k : Nat) (f : Knot → Knot) : (x.modKnot k f).ctxs = x.ctxs := rfl
@[simp] theorem Die.modKnot_knotNet (x : Die) (k : Nat) (f : Knot → Knot) : (x.modKnot k f).knotNet = x.knotNet := rfl
@[simp] theorem Die.modKnot_ream (x : Die) (k : Nat) (f : Knot → Knot) : (x.modKnot k f).ream = x.ream := rfl
@[simp] theorem Die.modKnot_reamBad (x : Die) (k : Nat) (f : Knot → Knot) : (x.modKnot k f).reamBad = x.reamBad := rfl
@[simp] theorem Die.modKnot_copies (x : Die) (k : Nat) (f : Knot → Knot) : (x.modKnot k f).copies = x.copies := rfl
@[simp] theorem Die.modKnot_hints (x : Die) (k : Nat) (f : Knot → Knot) : (x.modKnot k f).hints = x.hints := rfl
@[simp] theorem Die.modKnot_aging (x : Die) (k : Nat) (f : Knot → Knot) : (x.modKnot k f).aging = x.aging := rfl
@[simp] theorem Die.modKnot_lowMark (x : Die) (k : Nat) (f : Knot → Knot) : (x.modKnot k f).lowMark = x.lowMark := rfl
@[simp] theorem Die.modKnot_highMark (x : Die) (k : Nat) (f : Knot → Knot) : (x.modKnot k f).highMark = x.highMark := rfl
@[simp] theorem Die.modKnot_hotMark (x : Die) (k : Nat) (f : Knot → Knot) : (x.modKnot k f).hotMark = x.hotMark := rfl
@[simp] theorem Die.modKnot_reserved (x : Die) (k : Nat) (f : Knot → Knot) : (x.modKnot k f).reserved = x.reserved := rfl
@[simp] theorem Die.modKnot_dealNext (x : Die) (k : Nat) (f : Knot → Knot) : (x.modKnot k f).dealNext = x.dealNext := rfl
@[simp] theorem Die.modKnot_retired (x : Die) (k : Nat) (f : Knot → Knot) : (x.modKnot k f).retired = x.retired := rfl
@[simp] theorem Die.modKnot_dropped (x : Die) (k : Nat) (f : Knot → Knot) : (x.modKnot k f).dropped = x.dropped := rfl
@[simp] theorem Die.modKnot_initSegs (x : Die) (k : Nat) (f : Knot → Knot) : (x.modKnot k f).initSegs = x.initSegs := rfl
@[simp] theorem Die.modKnot_idle (x : Die) (k : Nat) (f : Knot → Knot) : (x.modKnot k f).idle = x.idle := rfl
@[simp] theorem Die.modKnot_sealSlots (x : Die) (k : Nat) (f : Knot → Knot) : (x.modKnot k f).sealSlots = x.sealSlots := rfl
@[simp] theorem Die.modKnot_dram (x : Die) (k : Nat) (f : Knot → Knot) : (x.modKnot k f).dram = x.dram := rfl
@[simp] theorem Die.modKnot_seals (x : Die) (k : Nat) (f : Knot → Knot) : (x.modKnot k f).seals = x.seals := rfl
@[simp] theorem Die.modKnot_reqNet (x : Die) (k : Nat) (f : Knot → Knot) : (x.modKnot k f).reqNet = x.reqNet := rfl
@[simp] theorem Die.modKnot_repNet (x : Die) (k : Nat) (f : Knot → Knot) : (x.modKnot k f).repNet = x.repNet := rfl
@[simp] theorem Die.modKnot_redir0 (x : Die) (k : Nat) (f : Knot → Knot) : (x.modKnot k f).redir0 = x.redir0 := rfl
@[simp] theorem Die.modKnot_redir1 (x : Die) (k : Nat) (f : Knot → Knot) : (x.modKnot k f).redir1 = x.redir1 := rfl
@[simp] theorem Die.modKnot_epoch (x : Die) (k : Nat) (f : Knot → Knot) : (x.modKnot k f).epoch = x.epoch := rfl
@[simp] theorem Die.modKnot_switching (x : Die) (k : Nat) (f : Knot → Knot) : (x.modKnot k f).switching = x.switching := rfl
@[simp] theorem Die.modKnot_flipped (x : Die) (k : Nat) (f : Knot → Knot) : (x.modKnot k f).flipped = x.flipped := rfl
@[simp] theorem Die.modKnot_routers (x : Die) (k : Nat) (f : Knot → Knot) : (x.modKnot k f).routers = x.routers := rfl
@[simp] theorem Die.modKnot_ifaces (x : Die) (k : Nat) (f : Knot → Knot) : (x.modKnot k f).ifaces = x.ifaces := rfl
@[simp] theorem Die.modKnot_fenced (x : Die) (k : Nat) (f : Knot → Knot) : (x.modKnot k f).fenced = x.fenced := rfl
@[simp] theorem Die.modKnot_tests (x : Die) (k : Nat) (f : Knot → Knot) : (x.modKnot k f).tests = x.tests := rfl
@[simp] theorem Die.modKnot_errs (x : Die) (k : Nat) (f : Knot → Knot) : (x.modKnot k f).errs = x.errs := rfl
@[simp] theorem Die.modKnot_ucieOut (x : Die) (k : Nat) (f : Knot → Knot) : (x.modKnot k f).ucieOut = x.ucieOut := rfl
@[simp] theorem Die.modKnot_probes (x : Die) (k : Nat) (f : Knot → Knot) : (x.modKnot k f).probes = x.probes := rfl
@[simp] theorem Die.modKnot_trace (x : Die) (k : Nat) (f : Knot → Knot) : (x.modKnot k f).trace = x.trace := rfl
@[simp] theorem Die.modKnot_traceLost (x : Die) (k : Nat) (f : Knot → Knot) : (x.modKnot k f).traceLost = x.traceLost := rfl
@[simp] theorem Die.modKnot_fabrics (x : Die) (k : Nat) (f : Knot → Knot) : (x.modKnot k f).fabrics = x.fabrics := rfl
@[simp] theorem Die.modKnot_frames (x : Die) (k : Nat) (f : Knot → Knot) : (x.modKnot k f).frames = x.frames := rfl
@[simp] theorem Die.modKnot_darner (x : Die) (k : Nat) (f : Knot → Knot) : (x.modKnot k f).darner = x.darner := rfl
@[simp] theorem Die.modKnot_pregs (x : Die) (k : Nat) (f : Knot → Knot) : (x.modKnot k f).pregs = x.pregs := rfl
@[simp] theorem Die.modKnot_cfgs (x : Die) (k : Nat) (f : Knot → Knot) : (x.modKnot k f).cfgs = x.cfgs := rfl
@[simp] theorem Die.modKnot_snaps (x : Die) (k : Nat) (f : Knot → Knot) : (x.modKnot k f).snaps = x.snaps := rfl
@[simp] theorem Die.modKnot_ctrs (x : Die) (k : Nat) (f : Knot → Knot) : (x.modKnot k f).ctrs = x.ctrs := rfl
@[simp] theorem Die.modKnot_wraps (x : Die) (k : Nat) (f : Knot → Knot) : (x.modKnot k f).wraps = x.wraps := rfl
@[simp] theorem Die.modKnot_led (x : Die) (k : Nat) (f : Knot → Knot) : (x.modKnot k f).led = x.led := rfl
@[simp] theorem Die.modKnot_thRounds (x : Die) (k : Nat) (f : Knot → Knot) : (x.modKnot k f).thRounds = x.thRounds := rfl
@[simp] theorem Die.modKnot_acts (x : Die) (k : Nat) (f : Knot → Knot) : (x.modKnot k f).acts = x.acts := rfl
@[simp] theorem Die.modKnot_ledSeen (x : Die) (k : Nat) (f : Knot → Knot) : (x.modKnot k f).ledSeen = x.ledSeen := rfl
@[simp] theorem Die.modKnot_tallies (x : Die) (k : Nat) (f : Knot → Knot) : (x.modKnot k f).tallies = x.tallies := rfl
@[simp] theorem Die.modKnot_flips (x : Die) (k : Nat) (f : Knot → Knot) : (x.modKnot k f).flips = x.flips := rfl

@[simp] theorem Die.modFabric_lost (x : Die) (r : Nat) (f : Fabric → Fabric) : (x.modFabric r f).lost = x.lost := rfl
@[simp] theorem Die.modFabric_running (x : Die) (r : Nat) (f : Fabric → Fabric) : (x.modFabric r f).running = x.running := rfl
@[simp] theorem Die.modFabric_lpAbsent (x : Die) (r : Nat) (f : Fabric → Fabric) : (x.modFabric r f).lpAbsent = x.lpAbsent := rfl
@[simp] theorem Die.modFabric_trained (x : Die) (r : Nat) (f : Fabric → Fabric) : (x.modFabric r f).trained = x.trained := rfl
@[simp] theorem Die.modFabric_fwOk (x : Die) (r : Nat) (f : Fabric → Fabric) : (x.modFabric r f).fwOk = x.fwOk := rfl
@[simp] theorem Die.modFabric_sawDone (x : Die) (r : Nat) (f : Fabric → Fabric) : (x.modFabric r f).sawDone = x.sawDone := rfl
@[simp] theorem Die.modFabric_regions (x : Die) (r : Nat) (f : Fabric → Fabric) : (x.modFabric r f).regions = x.regions := rfl
@[simp] theorem Die.modFabric_mtiles (x : Die) (r : Nat) (f : Fabric → Fabric) : (x.modFabric r f).mtiles = x.mtiles := rfl
@[simp] theorem Die.modFabric_vtiles (x : Die) (r : Nat) (f : Fabric → Fabric) : (x.modFabric r f).vtiles = x.vtiles := rfl
@[simp] theorem Die.modFabric_occ (x : Die) (r : Nat) (f : Fabric → Fabric) : (x.modFabric r f).occ = x.occ := rfl
@[simp] theorem Die.modFabric_wringers (x : Die) (r : Nat) (f : Fabric → Fabric) : (x.modFabric r f).wringers = x.wringers := rfl
@[simp] theorem Die.modFabric_mcs (x : Die) (r : Nat) (f : Fabric → Fabric) : (x.modFabric r f).mcs = x.mcs := rfl
@[simp] theorem Die.modFabric_felts (x : Die) (r : Nat) (f : Fabric → Fabric) : (x.modFabric r f).felts = x.felts := rfl
@[simp] theorem Die.modFabric_rings (x : Die) (r : Nat) (f : Fabric → Fabric) : (x.modFabric r f).rings = x.rings := rfl
@[simp] theorem Die.modFabric_streams (x : Die) (r : Nat) (f : Fabric → Fabric) : (x.modFabric r f).streams = x.streams := rfl
@[simp] theorem Die.modFabric_threads (x : Die) (r : Nat) (f : Fabric → Fabric) : (x.modFabric r f).threads = x.threads := rfl
@[simp] theorem Die.modFabric_ctxs (x : Die) (r : Nat) (f : Fabric → Fabric) : (x.modFabric r f).ctxs = x.ctxs := rfl
@[simp] theorem Die.modFabric_knots (x : Die) (r : Nat) (f : Fabric → Fabric) : (x.modFabric r f).knots = x.knots := rfl
@[simp] theorem Die.modFabric_knotNet (x : Die) (r : Nat) (f : Fabric → Fabric) : (x.modFabric r f).knotNet = x.knotNet := rfl
@[simp] theorem Die.modFabric_ream (x : Die) (r : Nat) (f : Fabric → Fabric) : (x.modFabric r f).ream = x.ream := rfl
@[simp] theorem Die.modFabric_reamBad (x : Die) (r : Nat) (f : Fabric → Fabric) : (x.modFabric r f).reamBad = x.reamBad := rfl
@[simp] theorem Die.modFabric_copies (x : Die) (r : Nat) (f : Fabric → Fabric) : (x.modFabric r f).copies = x.copies := rfl
@[simp] theorem Die.modFabric_hints (x : Die) (r : Nat) (f : Fabric → Fabric) : (x.modFabric r f).hints = x.hints := rfl
@[simp] theorem Die.modFabric_aging (x : Die) (r : Nat) (f : Fabric → Fabric) : (x.modFabric r f).aging = x.aging := rfl
@[simp] theorem Die.modFabric_lowMark (x : Die) (r : Nat) (f : Fabric → Fabric) : (x.modFabric r f).lowMark = x.lowMark := rfl
@[simp] theorem Die.modFabric_highMark (x : Die) (r : Nat) (f : Fabric → Fabric) : (x.modFabric r f).highMark = x.highMark := rfl
@[simp] theorem Die.modFabric_hotMark (x : Die) (r : Nat) (f : Fabric → Fabric) : (x.modFabric r f).hotMark = x.hotMark := rfl
@[simp] theorem Die.modFabric_reserved (x : Die) (r : Nat) (f : Fabric → Fabric) : (x.modFabric r f).reserved = x.reserved := rfl
@[simp] theorem Die.modFabric_dealNext (x : Die) (r : Nat) (f : Fabric → Fabric) : (x.modFabric r f).dealNext = x.dealNext := rfl
@[simp] theorem Die.modFabric_retired (x : Die) (r : Nat) (f : Fabric → Fabric) : (x.modFabric r f).retired = x.retired := rfl
@[simp] theorem Die.modFabric_dropped (x : Die) (r : Nat) (f : Fabric → Fabric) : (x.modFabric r f).dropped = x.dropped := rfl
@[simp] theorem Die.modFabric_initSegs (x : Die) (r : Nat) (f : Fabric → Fabric) : (x.modFabric r f).initSegs = x.initSegs := rfl
@[simp] theorem Die.modFabric_idle (x : Die) (r : Nat) (f : Fabric → Fabric) : (x.modFabric r f).idle = x.idle := rfl
@[simp] theorem Die.modFabric_sealSlots (x : Die) (r : Nat) (f : Fabric → Fabric) : (x.modFabric r f).sealSlots = x.sealSlots := rfl
@[simp] theorem Die.modFabric_dram (x : Die) (r : Nat) (f : Fabric → Fabric) : (x.modFabric r f).dram = x.dram := rfl
@[simp] theorem Die.modFabric_seals (x : Die) (r : Nat) (f : Fabric → Fabric) : (x.modFabric r f).seals = x.seals := rfl
@[simp] theorem Die.modFabric_reqNet (x : Die) (r : Nat) (f : Fabric → Fabric) : (x.modFabric r f).reqNet = x.reqNet := rfl
@[simp] theorem Die.modFabric_repNet (x : Die) (r : Nat) (f : Fabric → Fabric) : (x.modFabric r f).repNet = x.repNet := rfl
@[simp] theorem Die.modFabric_redir0 (x : Die) (r : Nat) (f : Fabric → Fabric) : (x.modFabric r f).redir0 = x.redir0 := rfl
@[simp] theorem Die.modFabric_redir1 (x : Die) (r : Nat) (f : Fabric → Fabric) : (x.modFabric r f).redir1 = x.redir1 := rfl
@[simp] theorem Die.modFabric_epoch (x : Die) (r : Nat) (f : Fabric → Fabric) : (x.modFabric r f).epoch = x.epoch := rfl
@[simp] theorem Die.modFabric_switching (x : Die) (r : Nat) (f : Fabric → Fabric) : (x.modFabric r f).switching = x.switching := rfl
@[simp] theorem Die.modFabric_flipped (x : Die) (r : Nat) (f : Fabric → Fabric) : (x.modFabric r f).flipped = x.flipped := rfl
@[simp] theorem Die.modFabric_routers (x : Die) (r : Nat) (f : Fabric → Fabric) : (x.modFabric r f).routers = x.routers := rfl
@[simp] theorem Die.modFabric_ifaces (x : Die) (r : Nat) (f : Fabric → Fabric) : (x.modFabric r f).ifaces = x.ifaces := rfl
@[simp] theorem Die.modFabric_fenced (x : Die) (r : Nat) (f : Fabric → Fabric) : (x.modFabric r f).fenced = x.fenced := rfl
@[simp] theorem Die.modFabric_tests (x : Die) (r : Nat) (f : Fabric → Fabric) : (x.modFabric r f).tests = x.tests := rfl
@[simp] theorem Die.modFabric_errs (x : Die) (r : Nat) (f : Fabric → Fabric) : (x.modFabric r f).errs = x.errs := rfl
@[simp] theorem Die.modFabric_ucieOut (x : Die) (r : Nat) (f : Fabric → Fabric) : (x.modFabric r f).ucieOut = x.ucieOut := rfl
@[simp] theorem Die.modFabric_probes (x : Die) (r : Nat) (f : Fabric → Fabric) : (x.modFabric r f).probes = x.probes := rfl
@[simp] theorem Die.modFabric_trace (x : Die) (r : Nat) (f : Fabric → Fabric) : (x.modFabric r f).trace = x.trace := rfl
@[simp] theorem Die.modFabric_traceLost (x : Die) (r : Nat) (f : Fabric → Fabric) : (x.modFabric r f).traceLost = x.traceLost := rfl
@[simp] theorem Die.modFabric_frames (x : Die) (r : Nat) (f : Fabric → Fabric) : (x.modFabric r f).frames = x.frames := rfl
@[simp] theorem Die.modFabric_darner (x : Die) (r : Nat) (f : Fabric → Fabric) : (x.modFabric r f).darner = x.darner := rfl
@[simp] theorem Die.modFabric_pregs (x : Die) (r : Nat) (f : Fabric → Fabric) : (x.modFabric r f).pregs = x.pregs := rfl
@[simp] theorem Die.modFabric_cfgs (x : Die) (r : Nat) (f : Fabric → Fabric) : (x.modFabric r f).cfgs = x.cfgs := rfl
@[simp] theorem Die.modFabric_snaps (x : Die) (r : Nat) (f : Fabric → Fabric) : (x.modFabric r f).snaps = x.snaps := rfl
@[simp] theorem Die.modFabric_ctrs (x : Die) (r : Nat) (f : Fabric → Fabric) : (x.modFabric r f).ctrs = x.ctrs := rfl
@[simp] theorem Die.modFabric_wraps (x : Die) (r : Nat) (f : Fabric → Fabric) : (x.modFabric r f).wraps = x.wraps := rfl
@[simp] theorem Die.modFabric_led (x : Die) (r : Nat) (f : Fabric → Fabric) : (x.modFabric r f).led = x.led := rfl
@[simp] theorem Die.modFabric_thRounds (x : Die) (r : Nat) (f : Fabric → Fabric) : (x.modFabric r f).thRounds = x.thRounds := rfl
@[simp] theorem Die.modFabric_acts (x : Die) (r : Nat) (f : Fabric → Fabric) : (x.modFabric r f).acts = x.acts := rfl
@[simp] theorem Die.modFabric_ledSeen (x : Die) (r : Nat) (f : Fabric → Fabric) : (x.modFabric r f).ledSeen = x.ledSeen := rfl
@[simp] theorem Die.modFabric_tallies (x : Die) (r : Nat) (f : Fabric → Fabric) : (x.modFabric r f).tallies = x.tallies := rfl
@[simp] theorem Die.modFabric_flips (x : Die) (r : Nat) (f : Fabric → Fabric) : (x.modFabric r f).flips = x.flips := rfl

@[simp] theorem Die.modRouter_lost (x : Die) (k : Nat) (f : Router → Router) : (x.modRouter k f).lost = x.lost := rfl
@[simp] theorem Die.modRouter_running (x : Die) (k : Nat) (f : Router → Router) : (x.modRouter k f).running = x.running := rfl
@[simp] theorem Die.modRouter_lpAbsent (x : Die) (k : Nat) (f : Router → Router) : (x.modRouter k f).lpAbsent = x.lpAbsent := rfl
@[simp] theorem Die.modRouter_trained (x : Die) (k : Nat) (f : Router → Router) : (x.modRouter k f).trained = x.trained := rfl
@[simp] theorem Die.modRouter_fwOk (x : Die) (k : Nat) (f : Router → Router) : (x.modRouter k f).fwOk = x.fwOk := rfl
@[simp] theorem Die.modRouter_sawDone (x : Die) (k : Nat) (f : Router → Router) : (x.modRouter k f).sawDone = x.sawDone := rfl
@[simp] theorem Die.modRouter_regions (x : Die) (k : Nat) (f : Router → Router) : (x.modRouter k f).regions = x.regions := rfl
@[simp] theorem Die.modRouter_mtiles (x : Die) (k : Nat) (f : Router → Router) : (x.modRouter k f).mtiles = x.mtiles := rfl
@[simp] theorem Die.modRouter_vtiles (x : Die) (k : Nat) (f : Router → Router) : (x.modRouter k f).vtiles = x.vtiles := rfl
@[simp] theorem Die.modRouter_occ (x : Die) (k : Nat) (f : Router → Router) : (x.modRouter k f).occ = x.occ := rfl
@[simp] theorem Die.modRouter_wringers (x : Die) (k : Nat) (f : Router → Router) : (x.modRouter k f).wringers = x.wringers := rfl
@[simp] theorem Die.modRouter_mcs (x : Die) (k : Nat) (f : Router → Router) : (x.modRouter k f).mcs = x.mcs := rfl
@[simp] theorem Die.modRouter_felts (x : Die) (k : Nat) (f : Router → Router) : (x.modRouter k f).felts = x.felts := rfl
@[simp] theorem Die.modRouter_rings (x : Die) (k : Nat) (f : Router → Router) : (x.modRouter k f).rings = x.rings := rfl
@[simp] theorem Die.modRouter_streams (x : Die) (k : Nat) (f : Router → Router) : (x.modRouter k f).streams = x.streams := rfl
@[simp] theorem Die.modRouter_threads (x : Die) (k : Nat) (f : Router → Router) : (x.modRouter k f).threads = x.threads := rfl
@[simp] theorem Die.modRouter_ctxs (x : Die) (k : Nat) (f : Router → Router) : (x.modRouter k f).ctxs = x.ctxs := rfl
@[simp] theorem Die.modRouter_knots (x : Die) (k : Nat) (f : Router → Router) : (x.modRouter k f).knots = x.knots := rfl
@[simp] theorem Die.modRouter_knotNet (x : Die) (k : Nat) (f : Router → Router) : (x.modRouter k f).knotNet = x.knotNet := rfl
@[simp] theorem Die.modRouter_ream (x : Die) (k : Nat) (f : Router → Router) : (x.modRouter k f).ream = x.ream := rfl
@[simp] theorem Die.modRouter_reamBad (x : Die) (k : Nat) (f : Router → Router) : (x.modRouter k f).reamBad = x.reamBad := rfl
@[simp] theorem Die.modRouter_copies (x : Die) (k : Nat) (f : Router → Router) : (x.modRouter k f).copies = x.copies := rfl
@[simp] theorem Die.modRouter_hints (x : Die) (k : Nat) (f : Router → Router) : (x.modRouter k f).hints = x.hints := rfl
@[simp] theorem Die.modRouter_aging (x : Die) (k : Nat) (f : Router → Router) : (x.modRouter k f).aging = x.aging := rfl
@[simp] theorem Die.modRouter_lowMark (x : Die) (k : Nat) (f : Router → Router) : (x.modRouter k f).lowMark = x.lowMark := rfl
@[simp] theorem Die.modRouter_highMark (x : Die) (k : Nat) (f : Router → Router) : (x.modRouter k f).highMark = x.highMark := rfl
@[simp] theorem Die.modRouter_hotMark (x : Die) (k : Nat) (f : Router → Router) : (x.modRouter k f).hotMark = x.hotMark := rfl
@[simp] theorem Die.modRouter_reserved (x : Die) (k : Nat) (f : Router → Router) : (x.modRouter k f).reserved = x.reserved := rfl
@[simp] theorem Die.modRouter_dealNext (x : Die) (k : Nat) (f : Router → Router) : (x.modRouter k f).dealNext = x.dealNext := rfl
@[simp] theorem Die.modRouter_retired (x : Die) (k : Nat) (f : Router → Router) : (x.modRouter k f).retired = x.retired := rfl
@[simp] theorem Die.modRouter_dropped (x : Die) (k : Nat) (f : Router → Router) : (x.modRouter k f).dropped = x.dropped := rfl
@[simp] theorem Die.modRouter_initSegs (x : Die) (k : Nat) (f : Router → Router) : (x.modRouter k f).initSegs = x.initSegs := rfl
@[simp] theorem Die.modRouter_idle (x : Die) (k : Nat) (f : Router → Router) : (x.modRouter k f).idle = x.idle := rfl
@[simp] theorem Die.modRouter_sealSlots (x : Die) (k : Nat) (f : Router → Router) : (x.modRouter k f).sealSlots = x.sealSlots := rfl
@[simp] theorem Die.modRouter_dram (x : Die) (k : Nat) (f : Router → Router) : (x.modRouter k f).dram = x.dram := rfl
@[simp] theorem Die.modRouter_seals (x : Die) (k : Nat) (f : Router → Router) : (x.modRouter k f).seals = x.seals := rfl
@[simp] theorem Die.modRouter_reqNet (x : Die) (k : Nat) (f : Router → Router) : (x.modRouter k f).reqNet = x.reqNet := rfl
@[simp] theorem Die.modRouter_repNet (x : Die) (k : Nat) (f : Router → Router) : (x.modRouter k f).repNet = x.repNet := rfl
@[simp] theorem Die.modRouter_redir0 (x : Die) (k : Nat) (f : Router → Router) : (x.modRouter k f).redir0 = x.redir0 := rfl
@[simp] theorem Die.modRouter_redir1 (x : Die) (k : Nat) (f : Router → Router) : (x.modRouter k f).redir1 = x.redir1 := rfl
@[simp] theorem Die.modRouter_epoch (x : Die) (k : Nat) (f : Router → Router) : (x.modRouter k f).epoch = x.epoch := rfl
@[simp] theorem Die.modRouter_switching (x : Die) (k : Nat) (f : Router → Router) : (x.modRouter k f).switching = x.switching := rfl
@[simp] theorem Die.modRouter_flipped (x : Die) (k : Nat) (f : Router → Router) : (x.modRouter k f).flipped = x.flipped := rfl
@[simp] theorem Die.modRouter_ifaces (x : Die) (k : Nat) (f : Router → Router) : (x.modRouter k f).ifaces = x.ifaces := rfl
@[simp] theorem Die.modRouter_fenced (x : Die) (k : Nat) (f : Router → Router) : (x.modRouter k f).fenced = x.fenced := rfl
@[simp] theorem Die.modRouter_tests (x : Die) (k : Nat) (f : Router → Router) : (x.modRouter k f).tests = x.tests := rfl
@[simp] theorem Die.modRouter_errs (x : Die) (k : Nat) (f : Router → Router) : (x.modRouter k f).errs = x.errs := rfl
@[simp] theorem Die.modRouter_ucieOut (x : Die) (k : Nat) (f : Router → Router) : (x.modRouter k f).ucieOut = x.ucieOut := rfl
@[simp] theorem Die.modRouter_probes (x : Die) (k : Nat) (f : Router → Router) : (x.modRouter k f).probes = x.probes := rfl
@[simp] theorem Die.modRouter_trace (x : Die) (k : Nat) (f : Router → Router) : (x.modRouter k f).trace = x.trace := rfl
@[simp] theorem Die.modRouter_traceLost (x : Die) (k : Nat) (f : Router → Router) : (x.modRouter k f).traceLost = x.traceLost := rfl
@[simp] theorem Die.modRouter_fabrics (x : Die) (k : Nat) (f : Router → Router) : (x.modRouter k f).fabrics = x.fabrics := rfl
@[simp] theorem Die.modRouter_frames (x : Die) (k : Nat) (f : Router → Router) : (x.modRouter k f).frames = x.frames := rfl
@[simp] theorem Die.modRouter_darner (x : Die) (k : Nat) (f : Router → Router) : (x.modRouter k f).darner = x.darner := rfl
@[simp] theorem Die.modRouter_pregs (x : Die) (k : Nat) (f : Router → Router) : (x.modRouter k f).pregs = x.pregs := rfl
@[simp] theorem Die.modRouter_cfgs (x : Die) (k : Nat) (f : Router → Router) : (x.modRouter k f).cfgs = x.cfgs := rfl
@[simp] theorem Die.modRouter_snaps (x : Die) (k : Nat) (f : Router → Router) : (x.modRouter k f).snaps = x.snaps := rfl
@[simp] theorem Die.modRouter_ctrs (x : Die) (k : Nat) (f : Router → Router) : (x.modRouter k f).ctrs = x.ctrs := rfl
@[simp] theorem Die.modRouter_wraps (x : Die) (k : Nat) (f : Router → Router) : (x.modRouter k f).wraps = x.wraps := rfl
@[simp] theorem Die.modRouter_led (x : Die) (k : Nat) (f : Router → Router) : (x.modRouter k f).led = x.led := rfl
@[simp] theorem Die.modRouter_thRounds (x : Die) (k : Nat) (f : Router → Router) : (x.modRouter k f).thRounds = x.thRounds := rfl
@[simp] theorem Die.modRouter_acts (x : Die) (k : Nat) (f : Router → Router) : (x.modRouter k f).acts = x.acts := rfl
@[simp] theorem Die.modRouter_ledSeen (x : Die) (k : Nat) (f : Router → Router) : (x.modRouter k f).ledSeen = x.ledSeen := rfl
@[simp] theorem Die.modRouter_tallies (x : Die) (k : Nat) (f : Router → Router) : (x.modRouter k f).tallies = x.tallies := rfl
@[simp] theorem Die.modRouter_flips (x : Die) (k : Nat) (f : Router → Router) : (x.modRouter k f).flips = x.flips := rfl

@[simp] theorem Die.modIface_lost (x : Die) (n : Nat) (f : Iface → Iface) : (x.modIface n f).lost = x.lost := rfl
@[simp] theorem Die.modIface_running (x : Die) (n : Nat) (f : Iface → Iface) : (x.modIface n f).running = x.running := rfl
@[simp] theorem Die.modIface_lpAbsent (x : Die) (n : Nat) (f : Iface → Iface) : (x.modIface n f).lpAbsent = x.lpAbsent := rfl
@[simp] theorem Die.modIface_trained (x : Die) (n : Nat) (f : Iface → Iface) : (x.modIface n f).trained = x.trained := rfl
@[simp] theorem Die.modIface_fwOk (x : Die) (n : Nat) (f : Iface → Iface) : (x.modIface n f).fwOk = x.fwOk := rfl
@[simp] theorem Die.modIface_sawDone (x : Die) (n : Nat) (f : Iface → Iface) : (x.modIface n f).sawDone = x.sawDone := rfl
@[simp] theorem Die.modIface_regions (x : Die) (n : Nat) (f : Iface → Iface) : (x.modIface n f).regions = x.regions := rfl
@[simp] theorem Die.modIface_mtiles (x : Die) (n : Nat) (f : Iface → Iface) : (x.modIface n f).mtiles = x.mtiles := rfl
@[simp] theorem Die.modIface_vtiles (x : Die) (n : Nat) (f : Iface → Iface) : (x.modIface n f).vtiles = x.vtiles := rfl
@[simp] theorem Die.modIface_occ (x : Die) (n : Nat) (f : Iface → Iface) : (x.modIface n f).occ = x.occ := rfl
@[simp] theorem Die.modIface_wringers (x : Die) (n : Nat) (f : Iface → Iface) : (x.modIface n f).wringers = x.wringers := rfl
@[simp] theorem Die.modIface_mcs (x : Die) (n : Nat) (f : Iface → Iface) : (x.modIface n f).mcs = x.mcs := rfl
@[simp] theorem Die.modIface_felts (x : Die) (n : Nat) (f : Iface → Iface) : (x.modIface n f).felts = x.felts := rfl
@[simp] theorem Die.modIface_rings (x : Die) (n : Nat) (f : Iface → Iface) : (x.modIface n f).rings = x.rings := rfl
@[simp] theorem Die.modIface_streams (x : Die) (n : Nat) (f : Iface → Iface) : (x.modIface n f).streams = x.streams := rfl
@[simp] theorem Die.modIface_threads (x : Die) (n : Nat) (f : Iface → Iface) : (x.modIface n f).threads = x.threads := rfl
@[simp] theorem Die.modIface_ctxs (x : Die) (n : Nat) (f : Iface → Iface) : (x.modIface n f).ctxs = x.ctxs := rfl
@[simp] theorem Die.modIface_knots (x : Die) (n : Nat) (f : Iface → Iface) : (x.modIface n f).knots = x.knots := rfl
@[simp] theorem Die.modIface_knotNet (x : Die) (n : Nat) (f : Iface → Iface) : (x.modIface n f).knotNet = x.knotNet := rfl
@[simp] theorem Die.modIface_ream (x : Die) (n : Nat) (f : Iface → Iface) : (x.modIface n f).ream = x.ream := rfl
@[simp] theorem Die.modIface_reamBad (x : Die) (n : Nat) (f : Iface → Iface) : (x.modIface n f).reamBad = x.reamBad := rfl
@[simp] theorem Die.modIface_copies (x : Die) (n : Nat) (f : Iface → Iface) : (x.modIface n f).copies = x.copies := rfl
@[simp] theorem Die.modIface_hints (x : Die) (n : Nat) (f : Iface → Iface) : (x.modIface n f).hints = x.hints := rfl
@[simp] theorem Die.modIface_aging (x : Die) (n : Nat) (f : Iface → Iface) : (x.modIface n f).aging = x.aging := rfl
@[simp] theorem Die.modIface_lowMark (x : Die) (n : Nat) (f : Iface → Iface) : (x.modIface n f).lowMark = x.lowMark := rfl
@[simp] theorem Die.modIface_highMark (x : Die) (n : Nat) (f : Iface → Iface) : (x.modIface n f).highMark = x.highMark := rfl
@[simp] theorem Die.modIface_hotMark (x : Die) (n : Nat) (f : Iface → Iface) : (x.modIface n f).hotMark = x.hotMark := rfl
@[simp] theorem Die.modIface_reserved (x : Die) (n : Nat) (f : Iface → Iface) : (x.modIface n f).reserved = x.reserved := rfl
@[simp] theorem Die.modIface_dealNext (x : Die) (n : Nat) (f : Iface → Iface) : (x.modIface n f).dealNext = x.dealNext := rfl
@[simp] theorem Die.modIface_retired (x : Die) (n : Nat) (f : Iface → Iface) : (x.modIface n f).retired = x.retired := rfl
@[simp] theorem Die.modIface_dropped (x : Die) (n : Nat) (f : Iface → Iface) : (x.modIface n f).dropped = x.dropped := rfl
@[simp] theorem Die.modIface_initSegs (x : Die) (n : Nat) (f : Iface → Iface) : (x.modIface n f).initSegs = x.initSegs := rfl
@[simp] theorem Die.modIface_idle (x : Die) (n : Nat) (f : Iface → Iface) : (x.modIface n f).idle = x.idle := rfl
@[simp] theorem Die.modIface_sealSlots (x : Die) (n : Nat) (f : Iface → Iface) : (x.modIface n f).sealSlots = x.sealSlots := rfl
@[simp] theorem Die.modIface_dram (x : Die) (n : Nat) (f : Iface → Iface) : (x.modIface n f).dram = x.dram := rfl
@[simp] theorem Die.modIface_seals (x : Die) (n : Nat) (f : Iface → Iface) : (x.modIface n f).seals = x.seals := rfl
@[simp] theorem Die.modIface_reqNet (x : Die) (n : Nat) (f : Iface → Iface) : (x.modIface n f).reqNet = x.reqNet := rfl
@[simp] theorem Die.modIface_repNet (x : Die) (n : Nat) (f : Iface → Iface) : (x.modIface n f).repNet = x.repNet := rfl
@[simp] theorem Die.modIface_redir0 (x : Die) (n : Nat) (f : Iface → Iface) : (x.modIface n f).redir0 = x.redir0 := rfl
@[simp] theorem Die.modIface_redir1 (x : Die) (n : Nat) (f : Iface → Iface) : (x.modIface n f).redir1 = x.redir1 := rfl
@[simp] theorem Die.modIface_epoch (x : Die) (n : Nat) (f : Iface → Iface) : (x.modIface n f).epoch = x.epoch := rfl
@[simp] theorem Die.modIface_switching (x : Die) (n : Nat) (f : Iface → Iface) : (x.modIface n f).switching = x.switching := rfl
@[simp] theorem Die.modIface_flipped (x : Die) (n : Nat) (f : Iface → Iface) : (x.modIface n f).flipped = x.flipped := rfl
@[simp] theorem Die.modIface_routers (x : Die) (n : Nat) (f : Iface → Iface) : (x.modIface n f).routers = x.routers := rfl
@[simp] theorem Die.modIface_fenced (x : Die) (n : Nat) (f : Iface → Iface) : (x.modIface n f).fenced = x.fenced := rfl
@[simp] theorem Die.modIface_tests (x : Die) (n : Nat) (f : Iface → Iface) : (x.modIface n f).tests = x.tests := rfl
@[simp] theorem Die.modIface_errs (x : Die) (n : Nat) (f : Iface → Iface) : (x.modIface n f).errs = x.errs := rfl
@[simp] theorem Die.modIface_ucieOut (x : Die) (n : Nat) (f : Iface → Iface) : (x.modIface n f).ucieOut = x.ucieOut := rfl
@[simp] theorem Die.modIface_probes (x : Die) (n : Nat) (f : Iface → Iface) : (x.modIface n f).probes = x.probes := rfl
@[simp] theorem Die.modIface_trace (x : Die) (n : Nat) (f : Iface → Iface) : (x.modIface n f).trace = x.trace := rfl
@[simp] theorem Die.modIface_traceLost (x : Die) (n : Nat) (f : Iface → Iface) : (x.modIface n f).traceLost = x.traceLost := rfl
@[simp] theorem Die.modIface_fabrics (x : Die) (n : Nat) (f : Iface → Iface) : (x.modIface n f).fabrics = x.fabrics := rfl
@[simp] theorem Die.modIface_frames (x : Die) (n : Nat) (f : Iface → Iface) : (x.modIface n f).frames = x.frames := rfl
@[simp] theorem Die.modIface_darner (x : Die) (n : Nat) (f : Iface → Iface) : (x.modIface n f).darner = x.darner := rfl
@[simp] theorem Die.modIface_pregs (x : Die) (n : Nat) (f : Iface → Iface) : (x.modIface n f).pregs = x.pregs := rfl
@[simp] theorem Die.modIface_cfgs (x : Die) (n : Nat) (f : Iface → Iface) : (x.modIface n f).cfgs = x.cfgs := rfl
@[simp] theorem Die.modIface_snaps (x : Die) (n : Nat) (f : Iface → Iface) : (x.modIface n f).snaps = x.snaps := rfl
@[simp] theorem Die.modIface_ctrs (x : Die) (n : Nat) (f : Iface → Iface) : (x.modIface n f).ctrs = x.ctrs := rfl
@[simp] theorem Die.modIface_wraps (x : Die) (n : Nat) (f : Iface → Iface) : (x.modIface n f).wraps = x.wraps := rfl
@[simp] theorem Die.modIface_led (x : Die) (n : Nat) (f : Iface → Iface) : (x.modIface n f).led = x.led := rfl
@[simp] theorem Die.modIface_thRounds (x : Die) (n : Nat) (f : Iface → Iface) : (x.modIface n f).thRounds = x.thRounds := rfl
@[simp] theorem Die.modIface_acts (x : Die) (n : Nat) (f : Iface → Iface) : (x.modIface n f).acts = x.acts := rfl
@[simp] theorem Die.modIface_ledSeen (x : Die) (n : Nat) (f : Iface → Iface) : (x.modIface n f).ledSeen = x.ledSeen := rfl
@[simp] theorem Die.modIface_tallies (x : Die) (n : Nat) (f : Iface → Iface) : (x.modIface n f).tallies = x.tallies := rfl
@[simp] theorem Die.modIface_flips (x : Die) (n : Nat) (f : Iface → Iface) : (x.modIface n f).flips = x.flips := rfl

@[simp] theorem Die.modCfg_lost (x : Die) (b : Nat) (f : Cfg → Cfg) : (x.modCfg b f).lost = x.lost := rfl
@[simp] theorem Die.modCfg_running (x : Die) (b : Nat) (f : Cfg → Cfg) : (x.modCfg b f).running = x.running := rfl
@[simp] theorem Die.modCfg_lpAbsent (x : Die) (b : Nat) (f : Cfg → Cfg) : (x.modCfg b f).lpAbsent = x.lpAbsent := rfl
@[simp] theorem Die.modCfg_trained (x : Die) (b : Nat) (f : Cfg → Cfg) : (x.modCfg b f).trained = x.trained := rfl
@[simp] theorem Die.modCfg_fwOk (x : Die) (b : Nat) (f : Cfg → Cfg) : (x.modCfg b f).fwOk = x.fwOk := rfl
@[simp] theorem Die.modCfg_sawDone (x : Die) (b : Nat) (f : Cfg → Cfg) : (x.modCfg b f).sawDone = x.sawDone := rfl
@[simp] theorem Die.modCfg_regions (x : Die) (b : Nat) (f : Cfg → Cfg) : (x.modCfg b f).regions = x.regions := rfl
@[simp] theorem Die.modCfg_mtiles (x : Die) (b : Nat) (f : Cfg → Cfg) : (x.modCfg b f).mtiles = x.mtiles := rfl
@[simp] theorem Die.modCfg_vtiles (x : Die) (b : Nat) (f : Cfg → Cfg) : (x.modCfg b f).vtiles = x.vtiles := rfl
@[simp] theorem Die.modCfg_occ (x : Die) (b : Nat) (f : Cfg → Cfg) : (x.modCfg b f).occ = x.occ := rfl
@[simp] theorem Die.modCfg_wringers (x : Die) (b : Nat) (f : Cfg → Cfg) : (x.modCfg b f).wringers = x.wringers := rfl
@[simp] theorem Die.modCfg_mcs (x : Die) (b : Nat) (f : Cfg → Cfg) : (x.modCfg b f).mcs = x.mcs := rfl
@[simp] theorem Die.modCfg_felts (x : Die) (b : Nat) (f : Cfg → Cfg) : (x.modCfg b f).felts = x.felts := rfl
@[simp] theorem Die.modCfg_rings (x : Die) (b : Nat) (f : Cfg → Cfg) : (x.modCfg b f).rings = x.rings := rfl
@[simp] theorem Die.modCfg_streams (x : Die) (b : Nat) (f : Cfg → Cfg) : (x.modCfg b f).streams = x.streams := rfl
@[simp] theorem Die.modCfg_threads (x : Die) (b : Nat) (f : Cfg → Cfg) : (x.modCfg b f).threads = x.threads := rfl
@[simp] theorem Die.modCfg_ctxs (x : Die) (b : Nat) (f : Cfg → Cfg) : (x.modCfg b f).ctxs = x.ctxs := rfl
@[simp] theorem Die.modCfg_knots (x : Die) (b : Nat) (f : Cfg → Cfg) : (x.modCfg b f).knots = x.knots := rfl
@[simp] theorem Die.modCfg_knotNet (x : Die) (b : Nat) (f : Cfg → Cfg) : (x.modCfg b f).knotNet = x.knotNet := rfl
@[simp] theorem Die.modCfg_ream (x : Die) (b : Nat) (f : Cfg → Cfg) : (x.modCfg b f).ream = x.ream := rfl
@[simp] theorem Die.modCfg_reamBad (x : Die) (b : Nat) (f : Cfg → Cfg) : (x.modCfg b f).reamBad = x.reamBad := rfl
@[simp] theorem Die.modCfg_copies (x : Die) (b : Nat) (f : Cfg → Cfg) : (x.modCfg b f).copies = x.copies := rfl
@[simp] theorem Die.modCfg_hints (x : Die) (b : Nat) (f : Cfg → Cfg) : (x.modCfg b f).hints = x.hints := rfl
@[simp] theorem Die.modCfg_aging (x : Die) (b : Nat) (f : Cfg → Cfg) : (x.modCfg b f).aging = x.aging := rfl
@[simp] theorem Die.modCfg_lowMark (x : Die) (b : Nat) (f : Cfg → Cfg) : (x.modCfg b f).lowMark = x.lowMark := rfl
@[simp] theorem Die.modCfg_highMark (x : Die) (b : Nat) (f : Cfg → Cfg) : (x.modCfg b f).highMark = x.highMark := rfl
@[simp] theorem Die.modCfg_hotMark (x : Die) (b : Nat) (f : Cfg → Cfg) : (x.modCfg b f).hotMark = x.hotMark := rfl
@[simp] theorem Die.modCfg_reserved (x : Die) (b : Nat) (f : Cfg → Cfg) : (x.modCfg b f).reserved = x.reserved := rfl
@[simp] theorem Die.modCfg_dealNext (x : Die) (b : Nat) (f : Cfg → Cfg) : (x.modCfg b f).dealNext = x.dealNext := rfl
@[simp] theorem Die.modCfg_retired (x : Die) (b : Nat) (f : Cfg → Cfg) : (x.modCfg b f).retired = x.retired := rfl
@[simp] theorem Die.modCfg_dropped (x : Die) (b : Nat) (f : Cfg → Cfg) : (x.modCfg b f).dropped = x.dropped := rfl
@[simp] theorem Die.modCfg_initSegs (x : Die) (b : Nat) (f : Cfg → Cfg) : (x.modCfg b f).initSegs = x.initSegs := rfl
@[simp] theorem Die.modCfg_idle (x : Die) (b : Nat) (f : Cfg → Cfg) : (x.modCfg b f).idle = x.idle := rfl
@[simp] theorem Die.modCfg_sealSlots (x : Die) (b : Nat) (f : Cfg → Cfg) : (x.modCfg b f).sealSlots = x.sealSlots := rfl
@[simp] theorem Die.modCfg_dram (x : Die) (b : Nat) (f : Cfg → Cfg) : (x.modCfg b f).dram = x.dram := rfl
@[simp] theorem Die.modCfg_seals (x : Die) (b : Nat) (f : Cfg → Cfg) : (x.modCfg b f).seals = x.seals := rfl
@[simp] theorem Die.modCfg_reqNet (x : Die) (b : Nat) (f : Cfg → Cfg) : (x.modCfg b f).reqNet = x.reqNet := rfl
@[simp] theorem Die.modCfg_repNet (x : Die) (b : Nat) (f : Cfg → Cfg) : (x.modCfg b f).repNet = x.repNet := rfl
@[simp] theorem Die.modCfg_redir0 (x : Die) (b : Nat) (f : Cfg → Cfg) : (x.modCfg b f).redir0 = x.redir0 := rfl
@[simp] theorem Die.modCfg_redir1 (x : Die) (b : Nat) (f : Cfg → Cfg) : (x.modCfg b f).redir1 = x.redir1 := rfl
@[simp] theorem Die.modCfg_epoch (x : Die) (b : Nat) (f : Cfg → Cfg) : (x.modCfg b f).epoch = x.epoch := rfl
@[simp] theorem Die.modCfg_switching (x : Die) (b : Nat) (f : Cfg → Cfg) : (x.modCfg b f).switching = x.switching := rfl
@[simp] theorem Die.modCfg_flipped (x : Die) (b : Nat) (f : Cfg → Cfg) : (x.modCfg b f).flipped = x.flipped := rfl
@[simp] theorem Die.modCfg_routers (x : Die) (b : Nat) (f : Cfg → Cfg) : (x.modCfg b f).routers = x.routers := rfl
@[simp] theorem Die.modCfg_ifaces (x : Die) (b : Nat) (f : Cfg → Cfg) : (x.modCfg b f).ifaces = x.ifaces := rfl
@[simp] theorem Die.modCfg_fenced (x : Die) (b : Nat) (f : Cfg → Cfg) : (x.modCfg b f).fenced = x.fenced := rfl
@[simp] theorem Die.modCfg_tests (x : Die) (b : Nat) (f : Cfg → Cfg) : (x.modCfg b f).tests = x.tests := rfl
@[simp] theorem Die.modCfg_errs (x : Die) (b : Nat) (f : Cfg → Cfg) : (x.modCfg b f).errs = x.errs := rfl
@[simp] theorem Die.modCfg_ucieOut (x : Die) (b : Nat) (f : Cfg → Cfg) : (x.modCfg b f).ucieOut = x.ucieOut := rfl
@[simp] theorem Die.modCfg_probes (x : Die) (b : Nat) (f : Cfg → Cfg) : (x.modCfg b f).probes = x.probes := rfl
@[simp] theorem Die.modCfg_trace (x : Die) (b : Nat) (f : Cfg → Cfg) : (x.modCfg b f).trace = x.trace := rfl
@[simp] theorem Die.modCfg_traceLost (x : Die) (b : Nat) (f : Cfg → Cfg) : (x.modCfg b f).traceLost = x.traceLost := rfl
@[simp] theorem Die.modCfg_fabrics (x : Die) (b : Nat) (f : Cfg → Cfg) : (x.modCfg b f).fabrics = x.fabrics := rfl
@[simp] theorem Die.modCfg_frames (x : Die) (b : Nat) (f : Cfg → Cfg) : (x.modCfg b f).frames = x.frames := rfl
@[simp] theorem Die.modCfg_darner (x : Die) (b : Nat) (f : Cfg → Cfg) : (x.modCfg b f).darner = x.darner := rfl
@[simp] theorem Die.modCfg_pregs (x : Die) (b : Nat) (f : Cfg → Cfg) : (x.modCfg b f).pregs = x.pregs := rfl
@[simp] theorem Die.modCfg_snaps (x : Die) (b : Nat) (f : Cfg → Cfg) : (x.modCfg b f).snaps = x.snaps := rfl
@[simp] theorem Die.modCfg_ctrs (x : Die) (b : Nat) (f : Cfg → Cfg) : (x.modCfg b f).ctrs = x.ctrs := rfl
@[simp] theorem Die.modCfg_wraps (x : Die) (b : Nat) (f : Cfg → Cfg) : (x.modCfg b f).wraps = x.wraps := rfl
@[simp] theorem Die.modCfg_led (x : Die) (b : Nat) (f : Cfg → Cfg) : (x.modCfg b f).led = x.led := rfl
@[simp] theorem Die.modCfg_thRounds (x : Die) (b : Nat) (f : Cfg → Cfg) : (x.modCfg b f).thRounds = x.thRounds := rfl
@[simp] theorem Die.modCfg_acts (x : Die) (b : Nat) (f : Cfg → Cfg) : (x.modCfg b f).acts = x.acts := rfl
@[simp] theorem Die.modCfg_ledSeen (x : Die) (b : Nat) (f : Cfg → Cfg) : (x.modCfg b f).ledSeen = x.ledSeen := rfl
@[simp] theorem Die.modCfg_tallies (x : Die) (b : Nat) (f : Cfg → Cfg) : (x.modCfg b f).tallies = x.tallies := rfl
@[simp] theorem Die.modCfg_flips (x : Die) (b : Nat) (f : Cfg → Cfg) : (x.modCfg b f).flips = x.flips := rfl

@[simp] theorem Die.modLed_lost (x : Die) (f : Ledger → Ledger) : (x.modLed f).lost = x.lost := rfl
@[simp] theorem Die.modLed_running (x : Die) (f : Ledger → Ledger) : (x.modLed f).running = x.running := rfl
@[simp] theorem Die.modLed_lpAbsent (x : Die) (f : Ledger → Ledger) : (x.modLed f).lpAbsent = x.lpAbsent := rfl
@[simp] theorem Die.modLed_trained (x : Die) (f : Ledger → Ledger) : (x.modLed f).trained = x.trained := rfl
@[simp] theorem Die.modLed_fwOk (x : Die) (f : Ledger → Ledger) : (x.modLed f).fwOk = x.fwOk := rfl
@[simp] theorem Die.modLed_sawDone (x : Die) (f : Ledger → Ledger) : (x.modLed f).sawDone = x.sawDone := rfl
@[simp] theorem Die.modLed_regions (x : Die) (f : Ledger → Ledger) : (x.modLed f).regions = x.regions := rfl
@[simp] theorem Die.modLed_mtiles (x : Die) (f : Ledger → Ledger) : (x.modLed f).mtiles = x.mtiles := rfl
@[simp] theorem Die.modLed_vtiles (x : Die) (f : Ledger → Ledger) : (x.modLed f).vtiles = x.vtiles := rfl
@[simp] theorem Die.modLed_occ (x : Die) (f : Ledger → Ledger) : (x.modLed f).occ = x.occ := rfl
@[simp] theorem Die.modLed_wringers (x : Die) (f : Ledger → Ledger) : (x.modLed f).wringers = x.wringers := rfl
@[simp] theorem Die.modLed_mcs (x : Die) (f : Ledger → Ledger) : (x.modLed f).mcs = x.mcs := rfl
@[simp] theorem Die.modLed_felts (x : Die) (f : Ledger → Ledger) : (x.modLed f).felts = x.felts := rfl
@[simp] theorem Die.modLed_rings (x : Die) (f : Ledger → Ledger) : (x.modLed f).rings = x.rings := rfl
@[simp] theorem Die.modLed_streams (x : Die) (f : Ledger → Ledger) : (x.modLed f).streams = x.streams := rfl
@[simp] theorem Die.modLed_threads (x : Die) (f : Ledger → Ledger) : (x.modLed f).threads = x.threads := rfl
@[simp] theorem Die.modLed_ctxs (x : Die) (f : Ledger → Ledger) : (x.modLed f).ctxs = x.ctxs := rfl
@[simp] theorem Die.modLed_knots (x : Die) (f : Ledger → Ledger) : (x.modLed f).knots = x.knots := rfl
@[simp] theorem Die.modLed_knotNet (x : Die) (f : Ledger → Ledger) : (x.modLed f).knotNet = x.knotNet := rfl
@[simp] theorem Die.modLed_ream (x : Die) (f : Ledger → Ledger) : (x.modLed f).ream = x.ream := rfl
@[simp] theorem Die.modLed_reamBad (x : Die) (f : Ledger → Ledger) : (x.modLed f).reamBad = x.reamBad := rfl
@[simp] theorem Die.modLed_copies (x : Die) (f : Ledger → Ledger) : (x.modLed f).copies = x.copies := rfl
@[simp] theorem Die.modLed_hints (x : Die) (f : Ledger → Ledger) : (x.modLed f).hints = x.hints := rfl
@[simp] theorem Die.modLed_aging (x : Die) (f : Ledger → Ledger) : (x.modLed f).aging = x.aging := rfl
@[simp] theorem Die.modLed_lowMark (x : Die) (f : Ledger → Ledger) : (x.modLed f).lowMark = x.lowMark := rfl
@[simp] theorem Die.modLed_highMark (x : Die) (f : Ledger → Ledger) : (x.modLed f).highMark = x.highMark := rfl
@[simp] theorem Die.modLed_hotMark (x : Die) (f : Ledger → Ledger) : (x.modLed f).hotMark = x.hotMark := rfl
@[simp] theorem Die.modLed_reserved (x : Die) (f : Ledger → Ledger) : (x.modLed f).reserved = x.reserved := rfl
@[simp] theorem Die.modLed_dealNext (x : Die) (f : Ledger → Ledger) : (x.modLed f).dealNext = x.dealNext := rfl
@[simp] theorem Die.modLed_retired (x : Die) (f : Ledger → Ledger) : (x.modLed f).retired = x.retired := rfl
@[simp] theorem Die.modLed_dropped (x : Die) (f : Ledger → Ledger) : (x.modLed f).dropped = x.dropped := rfl
@[simp] theorem Die.modLed_initSegs (x : Die) (f : Ledger → Ledger) : (x.modLed f).initSegs = x.initSegs := rfl
@[simp] theorem Die.modLed_idle (x : Die) (f : Ledger → Ledger) : (x.modLed f).idle = x.idle := rfl
@[simp] theorem Die.modLed_sealSlots (x : Die) (f : Ledger → Ledger) : (x.modLed f).sealSlots = x.sealSlots := rfl
@[simp] theorem Die.modLed_dram (x : Die) (f : Ledger → Ledger) : (x.modLed f).dram = x.dram := rfl
@[simp] theorem Die.modLed_seals (x : Die) (f : Ledger → Ledger) : (x.modLed f).seals = x.seals := rfl
@[simp] theorem Die.modLed_reqNet (x : Die) (f : Ledger → Ledger) : (x.modLed f).reqNet = x.reqNet := rfl
@[simp] theorem Die.modLed_repNet (x : Die) (f : Ledger → Ledger) : (x.modLed f).repNet = x.repNet := rfl
@[simp] theorem Die.modLed_redir0 (x : Die) (f : Ledger → Ledger) : (x.modLed f).redir0 = x.redir0 := rfl
@[simp] theorem Die.modLed_redir1 (x : Die) (f : Ledger → Ledger) : (x.modLed f).redir1 = x.redir1 := rfl
@[simp] theorem Die.modLed_epoch (x : Die) (f : Ledger → Ledger) : (x.modLed f).epoch = x.epoch := rfl
@[simp] theorem Die.modLed_switching (x : Die) (f : Ledger → Ledger) : (x.modLed f).switching = x.switching := rfl
@[simp] theorem Die.modLed_flipped (x : Die) (f : Ledger → Ledger) : (x.modLed f).flipped = x.flipped := rfl
@[simp] theorem Die.modLed_routers (x : Die) (f : Ledger → Ledger) : (x.modLed f).routers = x.routers := rfl
@[simp] theorem Die.modLed_ifaces (x : Die) (f : Ledger → Ledger) : (x.modLed f).ifaces = x.ifaces := rfl
@[simp] theorem Die.modLed_fenced (x : Die) (f : Ledger → Ledger) : (x.modLed f).fenced = x.fenced := rfl
@[simp] theorem Die.modLed_tests (x : Die) (f : Ledger → Ledger) : (x.modLed f).tests = x.tests := rfl
@[simp] theorem Die.modLed_errs (x : Die) (f : Ledger → Ledger) : (x.modLed f).errs = x.errs := rfl
@[simp] theorem Die.modLed_ucieOut (x : Die) (f : Ledger → Ledger) : (x.modLed f).ucieOut = x.ucieOut := rfl
@[simp] theorem Die.modLed_probes (x : Die) (f : Ledger → Ledger) : (x.modLed f).probes = x.probes := rfl
@[simp] theorem Die.modLed_trace (x : Die) (f : Ledger → Ledger) : (x.modLed f).trace = x.trace := rfl
@[simp] theorem Die.modLed_traceLost (x : Die) (f : Ledger → Ledger) : (x.modLed f).traceLost = x.traceLost := rfl
@[simp] theorem Die.modLed_fabrics (x : Die) (f : Ledger → Ledger) : (x.modLed f).fabrics = x.fabrics := rfl
@[simp] theorem Die.modLed_frames (x : Die) (f : Ledger → Ledger) : (x.modLed f).frames = x.frames := rfl
@[simp] theorem Die.modLed_darner (x : Die) (f : Ledger → Ledger) : (x.modLed f).darner = x.darner := rfl
@[simp] theorem Die.modLed_pregs (x : Die) (f : Ledger → Ledger) : (x.modLed f).pregs = x.pregs := rfl
@[simp] theorem Die.modLed_cfgs (x : Die) (f : Ledger → Ledger) : (x.modLed f).cfgs = x.cfgs := rfl
@[simp] theorem Die.modLed_snaps (x : Die) (f : Ledger → Ledger) : (x.modLed f).snaps = x.snaps := rfl
@[simp] theorem Die.modLed_ctrs (x : Die) (f : Ledger → Ledger) : (x.modLed f).ctrs = x.ctrs := rfl
@[simp] theorem Die.modLed_wraps (x : Die) (f : Ledger → Ledger) : (x.modLed f).wraps = x.wraps := rfl
@[simp] theorem Die.modLed_thRounds (x : Die) (f : Ledger → Ledger) : (x.modLed f).thRounds = x.thRounds := rfl
@[simp] theorem Die.modLed_acts (x : Die) (f : Ledger → Ledger) : (x.modLed f).acts = x.acts := rfl
@[simp] theorem Die.modLed_ledSeen (x : Die) (f : Ledger → Ledger) : (x.modLed f).ledSeen = x.ledSeen := rfl
@[simp] theorem Die.modLed_tallies (x : Die) (f : Ledger → Ledger) : (x.modLed f).tallies = x.tallies := rfl
@[simp] theorem Die.modLed_flips (x : Die) (f : Ledger → Ledger) : (x.modLed f).flips = x.flips := rfl

@[simp] theorem Die.setEntry_lost (x : Die) (h : Nat) (e : Ream) : (x.setEntry h e).lost = x.lost := rfl
@[simp] theorem Die.setEntry_running (x : Die) (h : Nat) (e : Ream) : (x.setEntry h e).running = x.running := rfl
@[simp] theorem Die.setEntry_lpAbsent (x : Die) (h : Nat) (e : Ream) : (x.setEntry h e).lpAbsent = x.lpAbsent := rfl
@[simp] theorem Die.setEntry_trained (x : Die) (h : Nat) (e : Ream) : (x.setEntry h e).trained = x.trained := rfl
@[simp] theorem Die.setEntry_fwOk (x : Die) (h : Nat) (e : Ream) : (x.setEntry h e).fwOk = x.fwOk := rfl
@[simp] theorem Die.setEntry_sawDone (x : Die) (h : Nat) (e : Ream) : (x.setEntry h e).sawDone = x.sawDone := rfl
@[simp] theorem Die.setEntry_regions (x : Die) (h : Nat) (e : Ream) : (x.setEntry h e).regions = x.regions := rfl
@[simp] theorem Die.setEntry_mtiles (x : Die) (h : Nat) (e : Ream) : (x.setEntry h e).mtiles = x.mtiles := rfl
@[simp] theorem Die.setEntry_vtiles (x : Die) (h : Nat) (e : Ream) : (x.setEntry h e).vtiles = x.vtiles := rfl
@[simp] theorem Die.setEntry_occ (x : Die) (h : Nat) (e : Ream) : (x.setEntry h e).occ = x.occ := rfl
@[simp] theorem Die.setEntry_wringers (x : Die) (h : Nat) (e : Ream) : (x.setEntry h e).wringers = x.wringers := rfl
@[simp] theorem Die.setEntry_mcs (x : Die) (h : Nat) (e : Ream) : (x.setEntry h e).mcs = x.mcs := rfl
@[simp] theorem Die.setEntry_felts (x : Die) (h : Nat) (e : Ream) : (x.setEntry h e).felts = x.felts := rfl
@[simp] theorem Die.setEntry_rings (x : Die) (h : Nat) (e : Ream) : (x.setEntry h e).rings = x.rings := rfl
@[simp] theorem Die.setEntry_streams (x : Die) (h : Nat) (e : Ream) : (x.setEntry h e).streams = x.streams := rfl
@[simp] theorem Die.setEntry_threads (x : Die) (h : Nat) (e : Ream) : (x.setEntry h e).threads = x.threads := rfl
@[simp] theorem Die.setEntry_ctxs (x : Die) (h : Nat) (e : Ream) : (x.setEntry h e).ctxs = x.ctxs := rfl
@[simp] theorem Die.setEntry_knots (x : Die) (h : Nat) (e : Ream) : (x.setEntry h e).knots = x.knots := rfl
@[simp] theorem Die.setEntry_knotNet (x : Die) (h : Nat) (e : Ream) : (x.setEntry h e).knotNet = x.knotNet := rfl
@[simp] theorem Die.setEntry_reamBad (x : Die) (h : Nat) (e : Ream) : (x.setEntry h e).reamBad = x.reamBad := rfl
@[simp] theorem Die.setEntry_copies (x : Die) (h : Nat) (e : Ream) : (x.setEntry h e).copies = x.copies := rfl
@[simp] theorem Die.setEntry_hints (x : Die) (h : Nat) (e : Ream) : (x.setEntry h e).hints = x.hints := rfl
@[simp] theorem Die.setEntry_aging (x : Die) (h : Nat) (e : Ream) : (x.setEntry h e).aging = x.aging := rfl
@[simp] theorem Die.setEntry_lowMark (x : Die) (h : Nat) (e : Ream) : (x.setEntry h e).lowMark = x.lowMark := rfl
@[simp] theorem Die.setEntry_highMark (x : Die) (h : Nat) (e : Ream) : (x.setEntry h e).highMark = x.highMark := rfl
@[simp] theorem Die.setEntry_hotMark (x : Die) (h : Nat) (e : Ream) : (x.setEntry h e).hotMark = x.hotMark := rfl
@[simp] theorem Die.setEntry_reserved (x : Die) (h : Nat) (e : Ream) : (x.setEntry h e).reserved = x.reserved := rfl
@[simp] theorem Die.setEntry_dealNext (x : Die) (h : Nat) (e : Ream) : (x.setEntry h e).dealNext = x.dealNext := rfl
@[simp] theorem Die.setEntry_retired (x : Die) (h : Nat) (e : Ream) : (x.setEntry h e).retired = x.retired := rfl
@[simp] theorem Die.setEntry_dropped (x : Die) (h : Nat) (e : Ream) : (x.setEntry h e).dropped = x.dropped := rfl
@[simp] theorem Die.setEntry_initSegs (x : Die) (h : Nat) (e : Ream) : (x.setEntry h e).initSegs = x.initSegs := rfl
@[simp] theorem Die.setEntry_idle (x : Die) (h : Nat) (e : Ream) : (x.setEntry h e).idle = x.idle := rfl
@[simp] theorem Die.setEntry_sealSlots (x : Die) (h : Nat) (e : Ream) : (x.setEntry h e).sealSlots = x.sealSlots := rfl
@[simp] theorem Die.setEntry_dram (x : Die) (h : Nat) (e : Ream) : (x.setEntry h e).dram = x.dram := rfl
@[simp] theorem Die.setEntry_seals (x : Die) (h : Nat) (e : Ream) : (x.setEntry h e).seals = x.seals := rfl
@[simp] theorem Die.setEntry_reqNet (x : Die) (h : Nat) (e : Ream) : (x.setEntry h e).reqNet = x.reqNet := rfl
@[simp] theorem Die.setEntry_repNet (x : Die) (h : Nat) (e : Ream) : (x.setEntry h e).repNet = x.repNet := rfl
@[simp] theorem Die.setEntry_redir0 (x : Die) (h : Nat) (e : Ream) : (x.setEntry h e).redir0 = x.redir0 := rfl
@[simp] theorem Die.setEntry_redir1 (x : Die) (h : Nat) (e : Ream) : (x.setEntry h e).redir1 = x.redir1 := rfl
@[simp] theorem Die.setEntry_epoch (x : Die) (h : Nat) (e : Ream) : (x.setEntry h e).epoch = x.epoch := rfl
@[simp] theorem Die.setEntry_switching (x : Die) (h : Nat) (e : Ream) : (x.setEntry h e).switching = x.switching := rfl
@[simp] theorem Die.setEntry_flipped (x : Die) (h : Nat) (e : Ream) : (x.setEntry h e).flipped = x.flipped := rfl
@[simp] theorem Die.setEntry_routers (x : Die) (h : Nat) (e : Ream) : (x.setEntry h e).routers = x.routers := rfl
@[simp] theorem Die.setEntry_ifaces (x : Die) (h : Nat) (e : Ream) : (x.setEntry h e).ifaces = x.ifaces := rfl
@[simp] theorem Die.setEntry_fenced (x : Die) (h : Nat) (e : Ream) : (x.setEntry h e).fenced = x.fenced := rfl
@[simp] theorem Die.setEntry_tests (x : Die) (h : Nat) (e : Ream) : (x.setEntry h e).tests = x.tests := rfl
@[simp] theorem Die.setEntry_errs (x : Die) (h : Nat) (e : Ream) : (x.setEntry h e).errs = x.errs := rfl
@[simp] theorem Die.setEntry_ucieOut (x : Die) (h : Nat) (e : Ream) : (x.setEntry h e).ucieOut = x.ucieOut := rfl
@[simp] theorem Die.setEntry_probes (x : Die) (h : Nat) (e : Ream) : (x.setEntry h e).probes = x.probes := rfl
@[simp] theorem Die.setEntry_trace (x : Die) (h : Nat) (e : Ream) : (x.setEntry h e).trace = x.trace := rfl
@[simp] theorem Die.setEntry_traceLost (x : Die) (h : Nat) (e : Ream) : (x.setEntry h e).traceLost = x.traceLost := rfl
@[simp] theorem Die.setEntry_fabrics (x : Die) (h : Nat) (e : Ream) : (x.setEntry h e).fabrics = x.fabrics := rfl
@[simp] theorem Die.setEntry_frames (x : Die) (h : Nat) (e : Ream) : (x.setEntry h e).frames = x.frames := rfl
@[simp] theorem Die.setEntry_darner (x : Die) (h : Nat) (e : Ream) : (x.setEntry h e).darner = x.darner := rfl
@[simp] theorem Die.setEntry_pregs (x : Die) (h : Nat) (e : Ream) : (x.setEntry h e).pregs = x.pregs := rfl
@[simp] theorem Die.setEntry_cfgs (x : Die) (h : Nat) (e : Ream) : (x.setEntry h e).cfgs = x.cfgs := rfl
@[simp] theorem Die.setEntry_snaps (x : Die) (h : Nat) (e : Ream) : (x.setEntry h e).snaps = x.snaps := rfl
@[simp] theorem Die.setEntry_ctrs (x : Die) (h : Nat) (e : Ream) : (x.setEntry h e).ctrs = x.ctrs := rfl
@[simp] theorem Die.setEntry_wraps (x : Die) (h : Nat) (e : Ream) : (x.setEntry h e).wraps = x.wraps := rfl
@[simp] theorem Die.setEntry_led (x : Die) (h : Nat) (e : Ream) : (x.setEntry h e).led = x.led := rfl
@[simp] theorem Die.setEntry_thRounds (x : Die) (h : Nat) (e : Ream) : (x.setEntry h e).thRounds = x.thRounds := rfl
@[simp] theorem Die.setEntry_acts (x : Die) (h : Nat) (e : Ream) : (x.setEntry h e).acts = x.acts := rfl
@[simp] theorem Die.setEntry_ledSeen (x : Die) (h : Nat) (e : Ream) : (x.setEntry h e).ledSeen = x.ledSeen := rfl
@[simp] theorem Die.setEntry_tallies (x : Die) (h : Nat) (e : Ream) : (x.setEntry h e).tallies = x.tallies := rfl
@[simp] theorem Die.setEntry_flips (x : Die) (h : Nat) (e : Ream) : (x.setEntry h e).flips = x.flips := rfl

@[simp] theorem Die.act_lost (x : Die) (row : Nat) (who : Payer) (n : Nat) : (x.act row who n).lost = x.lost := rfl
@[simp] theorem Die.act_running (x : Die) (row : Nat) (who : Payer) (n : Nat) : (x.act row who n).running = x.running := rfl
@[simp] theorem Die.act_lpAbsent (x : Die) (row : Nat) (who : Payer) (n : Nat) : (x.act row who n).lpAbsent = x.lpAbsent := rfl
@[simp] theorem Die.act_trained (x : Die) (row : Nat) (who : Payer) (n : Nat) : (x.act row who n).trained = x.trained := rfl
@[simp] theorem Die.act_fwOk (x : Die) (row : Nat) (who : Payer) (n : Nat) : (x.act row who n).fwOk = x.fwOk := rfl
@[simp] theorem Die.act_sawDone (x : Die) (row : Nat) (who : Payer) (n : Nat) : (x.act row who n).sawDone = x.sawDone := rfl
@[simp] theorem Die.act_regions (x : Die) (row : Nat) (who : Payer) (n : Nat) : (x.act row who n).regions = x.regions := rfl
@[simp] theorem Die.act_mtiles (x : Die) (row : Nat) (who : Payer) (n : Nat) : (x.act row who n).mtiles = x.mtiles := rfl
@[simp] theorem Die.act_vtiles (x : Die) (row : Nat) (who : Payer) (n : Nat) : (x.act row who n).vtiles = x.vtiles := rfl
@[simp] theorem Die.act_occ (x : Die) (row : Nat) (who : Payer) (n : Nat) : (x.act row who n).occ = x.occ := rfl
@[simp] theorem Die.act_wringers (x : Die) (row : Nat) (who : Payer) (n : Nat) : (x.act row who n).wringers = x.wringers := rfl
@[simp] theorem Die.act_mcs (x : Die) (row : Nat) (who : Payer) (n : Nat) : (x.act row who n).mcs = x.mcs := rfl
@[simp] theorem Die.act_felts (x : Die) (row : Nat) (who : Payer) (n : Nat) : (x.act row who n).felts = x.felts := rfl
@[simp] theorem Die.act_rings (x : Die) (row : Nat) (who : Payer) (n : Nat) : (x.act row who n).rings = x.rings := rfl
@[simp] theorem Die.act_streams (x : Die) (row : Nat) (who : Payer) (n : Nat) : (x.act row who n).streams = x.streams := rfl
@[simp] theorem Die.act_threads (x : Die) (row : Nat) (who : Payer) (n : Nat) : (x.act row who n).threads = x.threads := rfl
@[simp] theorem Die.act_thRounds (x : Die) (row : Nat) (who : Payer) (n : Nat) : (x.act row who n).thRounds = x.thRounds := rfl
@[simp] theorem Die.act_ctxs (x : Die) (row : Nat) (who : Payer) (n : Nat) : (x.act row who n).ctxs = x.ctxs := rfl
@[simp] theorem Die.act_knots (x : Die) (row : Nat) (who : Payer) (n : Nat) : (x.act row who n).knots = x.knots := rfl
@[simp] theorem Die.act_knotNet (x : Die) (row : Nat) (who : Payer) (n : Nat) : (x.act row who n).knotNet = x.knotNet := rfl
@[simp] theorem Die.act_ream (x : Die) (row : Nat) (who : Payer) (n : Nat) : (x.act row who n).ream = x.ream := rfl
@[simp] theorem Die.act_reamBad (x : Die) (row : Nat) (who : Payer) (n : Nat) : (x.act row who n).reamBad = x.reamBad := rfl
@[simp] theorem Die.act_copies (x : Die) (row : Nat) (who : Payer) (n : Nat) : (x.act row who n).copies = x.copies := rfl
@[simp] theorem Die.act_hints (x : Die) (row : Nat) (who : Payer) (n : Nat) : (x.act row who n).hints = x.hints := rfl
@[simp] theorem Die.act_aging (x : Die) (row : Nat) (who : Payer) (n : Nat) : (x.act row who n).aging = x.aging := rfl
@[simp] theorem Die.act_lowMark (x : Die) (row : Nat) (who : Payer) (n : Nat) : (x.act row who n).lowMark = x.lowMark := rfl
@[simp] theorem Die.act_highMark (x : Die) (row : Nat) (who : Payer) (n : Nat) : (x.act row who n).highMark = x.highMark := rfl
@[simp] theorem Die.act_hotMark (x : Die) (row : Nat) (who : Payer) (n : Nat) : (x.act row who n).hotMark = x.hotMark := rfl
@[simp] theorem Die.act_reserved (x : Die) (row : Nat) (who : Payer) (n : Nat) : (x.act row who n).reserved = x.reserved := rfl
@[simp] theorem Die.act_dealNext (x : Die) (row : Nat) (who : Payer) (n : Nat) : (x.act row who n).dealNext = x.dealNext := rfl
@[simp] theorem Die.act_retired (x : Die) (row : Nat) (who : Payer) (n : Nat) : (x.act row who n).retired = x.retired := rfl
@[simp] theorem Die.act_dropped (x : Die) (row : Nat) (who : Payer) (n : Nat) : (x.act row who n).dropped = x.dropped := rfl
@[simp] theorem Die.act_ledSeen (x : Die) (row : Nat) (who : Payer) (n : Nat) : (x.act row who n).ledSeen = x.ledSeen := rfl
@[simp] theorem Die.act_tallies (x : Die) (row : Nat) (who : Payer) (n : Nat) : (x.act row who n).tallies = x.tallies := rfl
@[simp] theorem Die.act_initSegs (x : Die) (row : Nat) (who : Payer) (n : Nat) : (x.act row who n).initSegs = x.initSegs := rfl
@[simp] theorem Die.act_idle (x : Die) (row : Nat) (who : Payer) (n : Nat) : (x.act row who n).idle = x.idle := rfl
@[simp] theorem Die.act_sealSlots (x : Die) (row : Nat) (who : Payer) (n : Nat) : (x.act row who n).sealSlots = x.sealSlots := rfl
@[simp] theorem Die.act_dram (x : Die) (row : Nat) (who : Payer) (n : Nat) : (x.act row who n).dram = x.dram := rfl
@[simp] theorem Die.act_seals (x : Die) (row : Nat) (who : Payer) (n : Nat) : (x.act row who n).seals = x.seals := rfl
@[simp] theorem Die.act_reqNet (x : Die) (row : Nat) (who : Payer) (n : Nat) : (x.act row who n).reqNet = x.reqNet := rfl
@[simp] theorem Die.act_repNet (x : Die) (row : Nat) (who : Payer) (n : Nat) : (x.act row who n).repNet = x.repNet := rfl
@[simp] theorem Die.act_redir0 (x : Die) (row : Nat) (who : Payer) (n : Nat) : (x.act row who n).redir0 = x.redir0 := rfl
@[simp] theorem Die.act_redir1 (x : Die) (row : Nat) (who : Payer) (n : Nat) : (x.act row who n).redir1 = x.redir1 := rfl
@[simp] theorem Die.act_epoch (x : Die) (row : Nat) (who : Payer) (n : Nat) : (x.act row who n).epoch = x.epoch := rfl
@[simp] theorem Die.act_flips (x : Die) (row : Nat) (who : Payer) (n : Nat) : (x.act row who n).flips = x.flips := rfl
@[simp] theorem Die.act_switching (x : Die) (row : Nat) (who : Payer) (n : Nat) : (x.act row who n).switching = x.switching := rfl
@[simp] theorem Die.act_flipped (x : Die) (row : Nat) (who : Payer) (n : Nat) : (x.act row who n).flipped = x.flipped := rfl
@[simp] theorem Die.act_routers (x : Die) (row : Nat) (who : Payer) (n : Nat) : (x.act row who n).routers = x.routers := rfl
@[simp] theorem Die.act_ifaces (x : Die) (row : Nat) (who : Payer) (n : Nat) : (x.act row who n).ifaces = x.ifaces := rfl
@[simp] theorem Die.act_fenced (x : Die) (row : Nat) (who : Payer) (n : Nat) : (x.act row who n).fenced = x.fenced := rfl
@[simp] theorem Die.act_tests (x : Die) (row : Nat) (who : Payer) (n : Nat) : (x.act row who n).tests = x.tests := rfl
@[simp] theorem Die.act_errs (x : Die) (row : Nat) (who : Payer) (n : Nat) : (x.act row who n).errs = x.errs := rfl
@[simp] theorem Die.act_ucieOut (x : Die) (row : Nat) (who : Payer) (n : Nat) : (x.act row who n).ucieOut = x.ucieOut := rfl
@[simp] theorem Die.act_probes (x : Die) (row : Nat) (who : Payer) (n : Nat) : (x.act row who n).probes = x.probes := rfl
@[simp] theorem Die.act_trace (x : Die) (row : Nat) (who : Payer) (n : Nat) : (x.act row who n).trace = x.trace := rfl
@[simp] theorem Die.act_traceLost (x : Die) (row : Nat) (who : Payer) (n : Nat) : (x.act row who n).traceLost = x.traceLost := rfl
@[simp] theorem Die.act_fabrics (x : Die) (row : Nat) (who : Payer) (n : Nat) : (x.act row who n).fabrics = x.fabrics := rfl
@[simp] theorem Die.act_frames (x : Die) (row : Nat) (who : Payer) (n : Nat) : (x.act row who n).frames = x.frames := rfl
@[simp] theorem Die.act_darner (x : Die) (row : Nat) (who : Payer) (n : Nat) : (x.act row who n).darner = x.darner := rfl
@[simp] theorem Die.act_pregs (x : Die) (row : Nat) (who : Payer) (n : Nat) : (x.act row who n).pregs = x.pregs := rfl
@[simp] theorem Die.act_cfgs (x : Die) (row : Nat) (who : Payer) (n : Nat) : (x.act row who n).cfgs = x.cfgs := rfl
@[simp] theorem Die.act_snaps (x : Die) (row : Nat) (who : Payer) (n : Nat) : (x.act row who n).snaps = x.snaps := rfl
@[simp] theorem Die.act_ctrs (x : Die) (row : Nat) (who : Payer) (n : Nat) : (x.act row who n).ctrs = x.ctrs := rfl
@[simp] theorem Die.act_wraps (x : Die) (row : Nat) (who : Payer) (n : Nat) : (x.act row who n).wraps = x.wraps := rfl
@[simp] theorem Die.act_led (x : Die) (row : Nat) (who : Payer) (n : Nat) : (x.act row who n).led = x.led := rfl

@[simp] theorem Die.addErr_lost (x : Die) (key win n : Nat) : (x.addErr key win n).lost = x.lost := rfl
@[simp] theorem Die.addErr_running (x : Die) (key win n : Nat) : (x.addErr key win n).running = x.running := rfl
@[simp] theorem Die.addErr_lpAbsent (x : Die) (key win n : Nat) : (x.addErr key win n).lpAbsent = x.lpAbsent := rfl
@[simp] theorem Die.addErr_trained (x : Die) (key win n : Nat) : (x.addErr key win n).trained = x.trained := rfl
@[simp] theorem Die.addErr_fwOk (x : Die) (key win n : Nat) : (x.addErr key win n).fwOk = x.fwOk := rfl
@[simp] theorem Die.addErr_sawDone (x : Die) (key win n : Nat) : (x.addErr key win n).sawDone = x.sawDone := rfl
@[simp] theorem Die.addErr_regions (x : Die) (key win n : Nat) : (x.addErr key win n).regions = x.regions := rfl
@[simp] theorem Die.addErr_mtiles (x : Die) (key win n : Nat) : (x.addErr key win n).mtiles = x.mtiles := rfl
@[simp] theorem Die.addErr_vtiles (x : Die) (key win n : Nat) : (x.addErr key win n).vtiles = x.vtiles := rfl
@[simp] theorem Die.addErr_occ (x : Die) (key win n : Nat) : (x.addErr key win n).occ = x.occ := rfl
@[simp] theorem Die.addErr_wringers (x : Die) (key win n : Nat) : (x.addErr key win n).wringers = x.wringers := rfl
@[simp] theorem Die.addErr_mcs (x : Die) (key win n : Nat) : (x.addErr key win n).mcs = x.mcs := rfl
@[simp] theorem Die.addErr_felts (x : Die) (key win n : Nat) : (x.addErr key win n).felts = x.felts := rfl
@[simp] theorem Die.addErr_rings (x : Die) (key win n : Nat) : (x.addErr key win n).rings = x.rings := rfl
@[simp] theorem Die.addErr_streams (x : Die) (key win n : Nat) : (x.addErr key win n).streams = x.streams := rfl
@[simp] theorem Die.addErr_threads (x : Die) (key win n : Nat) : (x.addErr key win n).threads = x.threads := rfl
@[simp] theorem Die.addErr_thRounds (x : Die) (key win n : Nat) : (x.addErr key win n).thRounds = x.thRounds := rfl
@[simp] theorem Die.addErr_ctxs (x : Die) (key win n : Nat) : (x.addErr key win n).ctxs = x.ctxs := rfl
@[simp] theorem Die.addErr_knots (x : Die) (key win n : Nat) : (x.addErr key win n).knots = x.knots := rfl
@[simp] theorem Die.addErr_knotNet (x : Die) (key win n : Nat) : (x.addErr key win n).knotNet = x.knotNet := rfl
@[simp] theorem Die.addErr_ream (x : Die) (key win n : Nat) : (x.addErr key win n).ream = x.ream := rfl
@[simp] theorem Die.addErr_reamBad (x : Die) (key win n : Nat) : (x.addErr key win n).reamBad = x.reamBad := rfl
@[simp] theorem Die.addErr_copies (x : Die) (key win n : Nat) : (x.addErr key win n).copies = x.copies := rfl
@[simp] theorem Die.addErr_hints (x : Die) (key win n : Nat) : (x.addErr key win n).hints = x.hints := rfl
@[simp] theorem Die.addErr_aging (x : Die) (key win n : Nat) : (x.addErr key win n).aging = x.aging := rfl
@[simp] theorem Die.addErr_lowMark (x : Die) (key win n : Nat) : (x.addErr key win n).lowMark = x.lowMark := rfl
@[simp] theorem Die.addErr_highMark (x : Die) (key win n : Nat) : (x.addErr key win n).highMark = x.highMark := rfl
@[simp] theorem Die.addErr_hotMark (x : Die) (key win n : Nat) : (x.addErr key win n).hotMark = x.hotMark := rfl
@[simp] theorem Die.addErr_reserved (x : Die) (key win n : Nat) : (x.addErr key win n).reserved = x.reserved := rfl
@[simp] theorem Die.addErr_dealNext (x : Die) (key win n : Nat) : (x.addErr key win n).dealNext = x.dealNext := rfl
@[simp] theorem Die.addErr_retired (x : Die) (key win n : Nat) : (x.addErr key win n).retired = x.retired := rfl
@[simp] theorem Die.addErr_dropped (x : Die) (key win n : Nat) : (x.addErr key win n).dropped = x.dropped := rfl
@[simp] theorem Die.addErr_acts (x : Die) (key win n : Nat) : (x.addErr key win n).acts = x.acts := rfl
@[simp] theorem Die.addErr_ledSeen (x : Die) (key win n : Nat) : (x.addErr key win n).ledSeen = x.ledSeen := rfl
@[simp] theorem Die.addErr_tallies (x : Die) (key win n : Nat) : (x.addErr key win n).tallies = x.tallies := rfl
@[simp] theorem Die.addErr_initSegs (x : Die) (key win n : Nat) : (x.addErr key win n).initSegs = x.initSegs := rfl
@[simp] theorem Die.addErr_idle (x : Die) (key win n : Nat) : (x.addErr key win n).idle = x.idle := rfl
@[simp] theorem Die.addErr_sealSlots (x : Die) (key win n : Nat) : (x.addErr key win n).sealSlots = x.sealSlots := rfl
@[simp] theorem Die.addErr_dram (x : Die) (key win n : Nat) : (x.addErr key win n).dram = x.dram := rfl
@[simp] theorem Die.addErr_seals (x : Die) (key win n : Nat) : (x.addErr key win n).seals = x.seals := rfl
@[simp] theorem Die.addErr_reqNet (x : Die) (key win n : Nat) : (x.addErr key win n).reqNet = x.reqNet := rfl
@[simp] theorem Die.addErr_repNet (x : Die) (key win n : Nat) : (x.addErr key win n).repNet = x.repNet := rfl
@[simp] theorem Die.addErr_redir0 (x : Die) (key win n : Nat) : (x.addErr key win n).redir0 = x.redir0 := rfl
@[simp] theorem Die.addErr_redir1 (x : Die) (key win n : Nat) : (x.addErr key win n).redir1 = x.redir1 := rfl
@[simp] theorem Die.addErr_epoch (x : Die) (key win n : Nat) : (x.addErr key win n).epoch = x.epoch := rfl
@[simp] theorem Die.addErr_flips (x : Die) (key win n : Nat) : (x.addErr key win n).flips = x.flips := rfl
@[simp] theorem Die.addErr_switching (x : Die) (key win n : Nat) : (x.addErr key win n).switching = x.switching := rfl
@[simp] theorem Die.addErr_flipped (x : Die) (key win n : Nat) : (x.addErr key win n).flipped = x.flipped := rfl
@[simp] theorem Die.addErr_routers (x : Die) (key win n : Nat) : (x.addErr key win n).routers = x.routers := rfl
@[simp] theorem Die.addErr_ifaces (x : Die) (key win n : Nat) : (x.addErr key win n).ifaces = x.ifaces := rfl
@[simp] theorem Die.addErr_fenced (x : Die) (key win n : Nat) : (x.addErr key win n).fenced = x.fenced := rfl
@[simp] theorem Die.addErr_tests (x : Die) (key win n : Nat) : (x.addErr key win n).tests = x.tests := rfl
@[simp] theorem Die.addErr_ucieOut (x : Die) (key win n : Nat) : (x.addErr key win n).ucieOut = x.ucieOut := rfl
@[simp] theorem Die.addErr_probes (x : Die) (key win n : Nat) : (x.addErr key win n).probes = x.probes := rfl
@[simp] theorem Die.addErr_trace (x : Die) (key win n : Nat) : (x.addErr key win n).trace = x.trace := rfl
@[simp] theorem Die.addErr_traceLost (x : Die) (key win n : Nat) : (x.addErr key win n).traceLost = x.traceLost := rfl
@[simp] theorem Die.addErr_fabrics (x : Die) (key win n : Nat) : (x.addErr key win n).fabrics = x.fabrics := rfl
@[simp] theorem Die.addErr_frames (x : Die) (key win n : Nat) : (x.addErr key win n).frames = x.frames := rfl
@[simp] theorem Die.addErr_darner (x : Die) (key win n : Nat) : (x.addErr key win n).darner = x.darner := rfl
@[simp] theorem Die.addErr_pregs (x : Die) (key win n : Nat) : (x.addErr key win n).pregs = x.pregs := rfl
@[simp] theorem Die.addErr_cfgs (x : Die) (key win n : Nat) : (x.addErr key win n).cfgs = x.cfgs := rfl
@[simp] theorem Die.addErr_snaps (x : Die) (key win n : Nat) : (x.addErr key win n).snaps = x.snaps := rfl
@[simp] theorem Die.addErr_ctrs (x : Die) (key win n : Nat) : (x.addErr key win n).ctrs = x.ctrs := rfl
@[simp] theorem Die.addErr_wraps (x : Die) (key win n : Nat) : (x.addErr key win n).wraps = x.wraps := rfl
@[simp] theorem Die.addErr_led (x : Die) (key win n : Nat) : (x.addErr key win n).led = x.led := rfl

end Sys2Proof.Machine
end

