-- ==== Sys2Proof/Laws/Tbl.lean ====
section
/-! SUPPORT. What the operations of sparse tables and byte memories do: a read after a write, what stays, and that every
memory operation keeps the canonical form. -/

namespace Sys2Proof.Machine

variable {α : Type}

/-! ## Tables -/

@[simp] theorem tfind_nil (k : Nat) : tfind ([] : Tbl α) k = none := rfl

@[simp] theorem tfind_tput_same (t : Tbl α) (k : Nat) (v : α) : tfind (tput t k v) k = some v := by
  induction t with
  | nil => simp [tput, tfind]
  | cons e r ih =>
    obtain ⟨j, w⟩ := e
    simp only [tput]
    split
    · simp [tfind]
    · split
      · simp [tfind]
      · simp [tfind, *]

theorem tfind_tput_other (t : Tbl α) {k j : Nat} (v : α) (h : j ≠ k) : tfind (tput t k v) j = tfind t j := by
  induction t with
  | nil => simp [tput, tfind, Ne.symm h]
  | cons e r ih =>
    obtain ⟨i, w⟩ := e
    simp only [tput]
    split
    · simp [tfind, Ne.symm h]
    · split
      · subst_vars
        simp [tfind, Ne.symm h]
      · simp [tfind, ih]

theorem tfind_tput (t : Tbl α) (k j : Nat) (v : α) : tfind (tput t k v) j = if j = k then some v else tfind t j := by
  by_cases h : j = k
  · subst h; simp
  · simp [tfind_tput_other, h]

theorem tfind_tdel (t : Tbl α) (k j : Nat) : tfind (tdel t k) j = if j = k then none else tfind t j := by
  induction t with
  | nil => simp [tdel]
  | cons e r ih =>
    obtain ⟨i, w⟩ := e
    have step : tdel ((i, w) :: r) k = if i = k then tdel r k else (i, w) :: tdel r k := by
      by_cases hi : i = k <;> simp [tdel, hi]
    rw [step]
    by_cases hi : i = k
    · subst hi
      simp only [↓reduceIte, ih]
      by_cases hj : j = i
      · simp [hj]
      · simp [hj, tfind, Ne.symm hj]
    · by_cases hij : i = j
      · subst hij; simp [hi, tfind]
      · simp [hi, hij, tfind, ih]

@[simp] theorem tfind_tdel_same (t : Tbl α) (k : Nat) : tfind (tdel t k) k = none := by simp [tfind_tdel]

@[simp] theorem tget_tput_same (t : Tbl α) (k : Nat) (v d : α) : tget (tput t k v) k d = v := by simp [tget]

theorem tget_tput_other (t : Tbl α) {k j : Nat} (v d : α) (h : j ≠ k) : tget (tput t k v) j d = tget t j d := by
  simp [tget, tfind_tput_other, h]

theorem tget_tput (t : Tbl α) (k j : Nat) (v d : α) : tget (tput t k v) j d = if j = k then v else tget t j d := by
  by_cases h : j = k
  · subst h; simp
  · simp [tget_tput_other, h]

@[simp] theorem tget_tmod_same (t : Tbl α) (k : Nat) (d : α) (f : α → α) : tget (tmod t k d f) k d = f (tget t k d) := by
  simp [tmod]

theorem tget_tmod_other (t : Tbl α) {k j : Nat} (d e : α) (f : α → α) (h : j ≠ k) : tget (tmod t k d f) j e = tget t j e := by
  simp [tmod, tget_tput_other, h]

theorem tget_tdel (t : Tbl α) (k j : Nat) (d : α) : tget (tdel t k) j d = if j = k then d else tget t j d := by
  simp only [tget, tfind_tdel]
  split <;> rfl

theorem tfind_tmapv (t : Tbl α) (f : Nat → α → α) (k : Nat) : tfind (tmapv t f) k = (tfind t k).map (f k) := by
  induction t with
  | nil => rfl
  | cons e r ih =>
    obtain ⟨j, w⟩ := e
    simp only [tmapv, List.map_cons, tfind]
    by_cases h : j = k
    · subst h; simp
    · simp only [h, if_false]; exact ih

@[simp] theorem thas_tput_same (t : Tbl α) (k : Nat) (v : α) : thas (tput t k v) k = true := by simp [thas]

@[simp] theorem thas_tdel_same (t : Tbl α) (k : Nat) : thas (tdel t k) k = false := by simp [thas]

theorem thas_tput_other (t : Tbl α) {k j : Nat} (v : α) (h : j ≠ k) : thas (tput t k v) j = thas t j := by
  simp [thas, tfind_tput_other, h]

/-! ## Byte memories -/

@[simp] theorem mread_mwrite_same (m : Memory) (a : Nat) (b : Byte) : mread (mwrite m a b) a = b := by
  unfold mread mwrite
  split
  · rename_i h; simp [tget_tdel, h]
  · simp

theorem mread_mwrite_other (m : Memory) {a c : Nat} (b : Byte) (h : c ≠ a) : mread (mwrite m a b) c = mread m c := by
  unfold mread mwrite
  split
  · simp [tget_tdel, h]
  · simp [tget_tput_other, h]

theorem mread_mwriteN_outside (l : List Byte) (m : Memory) (a c : Nat) (h : c < a ∨ a + l.length ≤ c) :
    mread (mwriteN m a l) c = mread m c := by
  induction l generalizing m a with
  | nil => rfl
  | cons b r ih =>
    simp only [mwriteN, List.length_cons] at *
    rw [ih _ _ (by omega), mread_mwrite_other _ _ (by omega)]

theorem mread_mwriteN_inside (l : List Byte) (m : Memory) (a i : Nat) (h : i < l.length) :
    mread (mwriteN m a l) (a + i) = l[i] := by
  induction l generalizing m a i with
  | nil => simp at h
  | cons b r ih =>
    cases i with
    | zero => simp only [mwriteN, Nat.add_zero]; rw [mread_mwriteN_outside _ _ _ _ (by omega)]; simp
    | succ n =>
      have h1 : a + (n + 1) = a + 1 + n := by omega
      simp only [mwriteN, h1]
      rw [ih _ _ _ (by simpa using h)]
      simp

/-- Bytes read back from where they were written. -/
theorem mreadN_mwriteN (l : List Byte) (m : Memory) (a : Nat) : mreadN (mwriteN m a l) a l.length = l := by
  have key : ∀ n (m : Memory) a, mreadN m a n = (List.range n).map fun i => mread m (a + i) := by
    intro n
    induction n with
    | zero => intro m a; rfl
    | succ n ih =>
      intro m a
      rw [mreadN, ih, List.range_succ_eq_map]
      simp [Nat.add_assoc, Nat.add_comm 1, Function.comp_def]
  rw [key]
  apply List.ext_getElem
  · simp
  · intro i h1 h2
    simp [mread_mwriteN_inside l m a i h2]

/-! ## The canonical form -/

theorem risesFrom_mono {lo hi : Nat} (h : hi ≤ lo) : ∀ m : Memory, risesFrom lo m = true → risesFrom hi m = true
  | [], _ => rfl
  | c :: r, hr => by
    simp only [risesFrom, Bool.and_eq_true, decide_eq_true_eq] at *
    exact ⟨by omega, hr.2⟩

theorem risesFrom_tput (lo : Nat) (m : Memory) (a : Nat) (b : Byte) (h : risesFrom lo m = true) (ha : lo ≤ a) :
    risesFrom lo (tput m a b) = true := by
  induction m generalizing lo with
  | nil => simp [tput, risesFrom, ha]
  | cons c r ih =>
    obtain ⟨j, w⟩ := c
    simp only [risesFrom, Bool.and_eq_true, decide_eq_true_eq] at h
    simp only [tput]
    split
    · simp only [risesFrom, Bool.and_eq_true, decide_eq_true_eq]; exact ⟨ha, by omega, h.2⟩
    · split
      · subst_vars; simp only [risesFrom, Bool.and_eq_true, decide_eq_true_eq]; exact h
      · simp only [risesFrom, Bool.and_eq_true, decide_eq_true_eq]
        exact ⟨h.1, ih _ h.2 (by omega)⟩

theorem risesFrom_filter (p : Host.Cell → Bool) (lo : Nat) (m : Memory) (h : risesFrom lo m = true) :
    risesFrom lo (m.filter p) = true := by
  induction m generalizing lo with
  | nil => rfl
  | cons c r ih =>
    simp only [risesFrom, Bool.and_eq_true, decide_eq_true_eq] at h
    rw [List.filter_cons]
    split
    · simp only [risesFrom, Bool.and_eq_true, decide_eq_true_eq]; exact ⟨h.1, ih _ h.2⟩
    · exact ih _ (risesFrom_mono (by omega) _ h.2)

theorem all_tput (p : Host.Cell → Bool) (m : Memory) (a : Nat) (b : Byte) (h : m.all p = true) (hb : p (a, b) = true) :
    (tput m a b).all p = true := by
  induction m with
  | nil => simp [tput, hb]
  | cons c r ih =>
    obtain ⟨j, w⟩ := c
    simp only [List.all_cons, Bool.and_eq_true] at h
    simp only [tput]
    split
    · simp [hb, h]
    · split
      · simp [hb, h]
      · simp [h, ih h.2]

theorem Memory.wf_filter (p : Host.Cell → Bool) {m : Memory} (h : Memory.wf m = true) : Memory.wf (m.filter p) = true := by
  simp only [Memory.wf, Bool.and_eq_true] at *
  refine ⟨risesFrom_filter p 0 m h.1, ?_⟩
  rw [List.all_eq_true] at *
  intro c hc
  exact h.2 c (List.mem_of_mem_filter hc)

@[simp] theorem Memory.wf_nil : Memory.wf [] = true := rfl

/-- One byte written keeps the canonical form. -/
theorem Memory.wf_mwrite {m : Memory} (a : Nat) (b : Byte) (h : Memory.wf m = true) : Memory.wf (mwrite m a b) = true := by
  unfold mwrite
  split
  · exact Memory.wf_filter _ h
  · rename_i hb
    simp only [Memory.wf, Bool.and_eq_true] at *
    exact ⟨risesFrom_tput 0 m a b h.1 (Nat.zero_le a), all_tput _ m a b h.2 (by simpa using hb)⟩

/-- Bytes written keep the canonical form. -/
theorem Memory.wf_mwriteN (l : List Byte) {m : Memory} (a : Nat) (h : Memory.wf m = true) :
    Memory.wf (mwriteN m a l) = true := by
  induction l generalizing m a with
  | nil => exact h
  | cons b r ih => exact ih (a + 1) (Memory.wf_mwrite a b h)

/-- A range cleared keeps the canonical form. -/
theorem Memory.wf_mclear {m : Memory} (lo hi : Nat) (h : Memory.wf m = true) : Memory.wf (mclear m lo hi) = true :=
  Memory.wf_filter _ h

/-- A canonical memory lists no byte below its bound. -/
theorem tfind_below {lo a : Nat} : ∀ {m : Memory}, risesFrom lo m = true → a < lo → tfind m a = none
  | [], _, _ => rfl
  | (j, w) :: r, h, ha => by
    simp only [risesFrom, Bool.and_eq_true, decide_eq_true_eq] at h
    have hj : j ≠ a := by omega
    simp only [tfind, hj, if_false]
    exact tfind_below h.2 (by omega)

/-- Equal memories are equal data: two canonical memories that read alike everywhere are the same list. -/
theorem Memory.ext_of_wf : ∀ {m n : Memory} {lo : Nat}, risesFrom lo m = true → risesFrom lo n = true →
    m.all (fun c => c.2 != memDefault) = true → n.all (fun c => c.2 != memDefault) = true →
    (∀ a, mread m a = mread n a) → m = n
  | [], [], _, _, _, _, _, _ => rfl
  | [], (j, w) :: r, _, _, hn, _, an, e => by
    have := e j
    simp [mread, tget, tfind] at this
    simp [← this] at an
  | (j, w) :: r, [], _, hm, _, am, _, e => by
    have := e j
    simp [mread, tget, tfind] at this
    simp [this] at am
  | (j, w) :: r, (i, v) :: q, lo, hm, hn, am, an, e => by
    simp only [risesFrom, Bool.and_eq_true, decide_eq_true_eq, List.all_cons, bne_iff_ne] at hm hn am an
    have hij : i = j := by
      rcases Nat.lt_trichotomy i j with h | h | h
      · have h2 := e i
        have hm' : risesFrom (j + 1) r = true := hm.2
        have : j ≠ i := by omega
        simp [mread, tget, tfind, this, tfind_below hm' (by omega : i < j + 1)] at h2
        exact absurd h2.symm an.1
      · exact h
      · have h2 := e j
        have : i ≠ j := by omega
        simp [mread, tget, tfind, this, tfind_below hn.2 (by omega : j < i + 1)] at h2
        exact absurd h2 am.1
    subst hij
    have hv : w = v := by simpa [mread, tget, tfind] using e i
    subst hv
    have hr : r = q := Memory.ext_of_wf hm.2 hn.2 am.2 an.2 (by
      intro a
      by_cases ha : i = a
      · subst ha
        simp [mread, tget, tfind_below hm.2 (by omega : i < i + 1), tfind_below hn.2 (by omega : i < i + 1)]
      · simpa [mread, tget, tfind, ha] using e a)
    rw [hr]

end Sys2Proof.Machine
end

