-- ==== Sys2Proof/Laws/Ops.lean ====
section
/-! SUPPORT. What the shared operations do, each said once: a part read after it was replaced, the answers of a command, what a
reply changes. -/

namespace Sys2Proof.Machine

/-! ## A part read after it was replaced -/

@[simp] theorem State.die_setDie_same (s : State) (d : Nat) (x : Die) : (s.setDie d x).die d = x := by
  simp [State.die, State.setDie]

theorem State.die_setDie_other (s : State) {d e : Nat} (x : Die) (h : e ≠ d) : (s.setDie d x).die e = s.die e := by
  simp [State.die, State.setDie, tget_tput_other, h]

@[simp] theorem State.die_modDie_same (s : State) (d : Nat) (f : Die → Die) : (s.modDie d f).die d = f (s.die d) := by
  simp [State.modDie]

theorem State.die_modDie_other (s : State) {d e : Nat} (f : Die → Die) (h : e ≠ d) : (s.modDie d f).die e = s.die e := by
  simp [State.modDie, State.die_setDie_other, h]

@[simp] theorem State.queue_setQueue_same (s : State) (q : Nat) (x : Queue) : (s.setQueue q x).queue q = x := by
  simp [State.queue, State.setQueue]

theorem State.queue_setQueue_other (s : State) {q r : Nat} (x : Queue) (h : r ≠ q) :
    (s.setQueue q x).queue r = s.queue r := by
  simp [State.queue, State.setQueue, tget_tput_other, h]

@[simp] theorem State.queue_modQueue_same (s : State) (q : Nat) (f : Queue → Queue) :
    (s.modQueue q f).queue q = f (s.queue q) := by simp [State.modQueue]

theorem State.queue_modQueue_other (s : State) {q r : Nat} (f : Queue → Queue) (h : r ≠ q) :
    (s.modQueue q f).queue r = s.queue r := by simp [State.modQueue, State.queue_setQueue_other, h]

@[simp] theorem State.func_modFunc_same (s : State) (n : Nat) (g : Func → Func) : (s.modFunc n g).func n = g (s.func n) := by
  simp [State.func, State.modFunc]

theorem State.func_modFunc_other (s : State) {n m : Nat} (g : Func → Func) (h : m ≠ n) :
    (s.modFunc n g).func m = s.func m := by simp [State.func, State.modFunc, tget_tput_other, h]

@[simp] theorem State.queue_modDie (s : State) (d : Nat) (f : Die → Die) (q : Nat) : (s.modDie d f).queue q = s.queue q := rfl
@[simp] theorem State.die_modQueue (s : State) (q : Nat) (f : Queue → Queue) (d : Nat) : (s.modQueue q f).die d = s.die d := rfl
@[simp] theorem State.die_modPsi (s : State) (f : Psiurn → Psiurn) (d : Nat) : (s.modPsi f).die d = s.die d := rfl
@[simp] theorem State.queue_modPsi (s : State) (f : Psiurn → Psiurn) (q : Nat) : (s.modPsi f).queue q = s.queue q := rfl
@[simp] theorem State.die_modFunc (s : State) (n : Nat) (g : Func → Func) (d : Nat) : (s.modFunc n g).die d = s.die d := rfl
@[simp] theorem State.queue_modFunc (s : State) (n : Nat) (g : Func → Func) (q : Nat) :
    (s.modFunc n g).queue q = s.queue q := rfl

/-- Two changes of one die are one. -/
theorem State.modDie_modDie (s : State) (d : Nat) (f g : Die → Die) : (s.modDie d f).modDie d g = s.modDie d fun x => g (f x) := by
  have h : ∀ (t : Tbl Die) (a b : Die), tput (tput t d a) d b = tput t d b := by
    intro t a b
    induction t with
    | nil => simp [tput]
    | cons e r ih =>
      obtain ⟨j, w⟩ := e
      by_cases h1 : d < j
      · simp [tput, h1]
      · by_cases h2 : j = d
        · simp [tput, h2]
        · simp [tput, h1, h2, ih]
  simp only [State.modDie, State.setDie, State.die, h, tget_tput_same]

@[simp] theorem Die.region_modRegion_same (x : Die) (r : Nat) (f : Region → Region) :
    (x.modRegion r f).region r = f (x.region r) := by simp [Die.region, Die.modRegion]

theorem Die.region_modRegion_other (x : Die) {r q : Nat} (f : Region → Region) (h : q ≠ r) :
    (x.modRegion r f).region q = x.region q := by simp [Die.region, Die.modRegion, tget_tmod_other, h]

@[simp] theorem Die.fabric_modFabric_same (x : Die) (r : Nat) (f : Fabric → Fabric) :
    (x.modFabric r f).fabric r = f (x.fabric r) := by simp [Die.fabric, Die.modFabric]

theorem Die.fabric_modFabric_other (x : Die) {r q : Nat} (f : Fabric → Fabric) (h : q ≠ r) :
    (x.modFabric r f).fabric q = x.fabric q := by simp [Die.fabric, Die.modFabric, tget_tmod_other, h]

@[simp] theorem Die.mc_modMC_same (x : Die) (m : Nat) (f : MC → MC) : (x.modMC m f).mc m = f (x.mc m) := by
  simp [Die.mc, Die.modMC]

theorem Die.mc_modMC_other (x : Die) {m n : Nat} (f : MC → MC) (h : n ≠ m) : (x.modMC m f).mc n = x.mc n := by
  simp [Die.mc, Die.modMC, tget_tmod_other, h]

@[simp] theorem Die.felt_modFelt_same (x : Die) (p : Nat) (f : Felt → Felt) : (x.modFelt p f).felt p = f (x.felt p) := by
  simp [Die.felt, Die.modFelt]

theorem Die.felt_modFelt_other (x : Die) {p q : Nat} (f : Felt → Felt) (h : q ≠ p) : (x.modFelt p f).felt q = x.felt q := by
  simp [Die.felt, Die.modFelt, tget_tmod_other, h]

@[simp] theorem Die.ring_modRing_same (x : Die) (n : Nat) (f : Ring → Ring) : (x.modRing n f).ring n = f (x.ring n) := by
  simp [Die.ring, Die.modRing]

theorem Die.ring_modRing_other (x : Die) {n m : Nat} (f : Ring → Ring) (h : m ≠ n) : (x.modRing n f).ring m = x.ring m := by
  simp [Die.ring, Die.modRing, tget_tmod_other, h]

@[simp] theorem Die.knot_modKnot_same (x : Die) (k : Nat) (f : Knot → Knot) : (x.modKnot k f).knot k = f (x.knot k) := by
  simp [Die.knot, Die.modKnot]

theorem Die.knot_modKnot_other (x : Die) {k j : Nat} (f : Knot → Knot) (h : j ≠ k) : (x.modKnot k f).knot j = x.knot j := by
  simp [Die.knot, Die.modKnot, tget_tmod_other, h]

@[simp] theorem Die.wringer_modWringer_same (x : Die) (w : Nat) (f : Wringer → Wringer) :
    (x.modWringer w f).wringer w = f (x.wringer w) := by simp [Die.wringer, Die.modWringer]

@[simp] theorem Die.mtile_modMTile_same (x : Die) (t : Nat) (f : MTile → MTile) : (x.modMTile t f).mtile t = f (x.mtile t) := by
  simp [Die.mtile, Die.modMTile]

@[simp] theorem Die.vtile_modVTile_same (x : Die) (t : Nat) (f : VTile → VTile) : (x.modVTile t f).vtile t = f (x.vtile t) := by
  simp [Die.vtile, Die.modVTile]

@[simp] theorem Die.tileOcc_modOcc_same (x : Die) (k : TileKind) (t : Nat) (f : Occ → Occ) :
    (x.modOcc k t f).tileOcc k t = f (x.tileOcc k t) := by simp [Die.tileOcc, Die.modOcc]

@[simp] theorem Die.entry_setEntry_same (x : Die) (h : Nat) (e : Ream) : (x.setEntry h e).entry h = e := by
  simp [Die.entry, Die.setEntry]

theorem Die.entry_setEntry_other (x : Die) {h g : Nat} (e : Ream) (n : g ≠ h) : (x.setEntry h e).entry g = x.entry g := by
  simp [Die.entry, Die.setEntry, tget_tput_other, n]

@[simp] theorem Die.cfg_modCfg_same (x : Die) (b : Nat) (f : Cfg → Cfg) : (x.modCfg b f).cfg b = f (x.cfg b) := by
  simp [Die.cfg, Die.modCfg]

@[simp] theorem Die.iface_modIface_same (x : Die) (n : Nat) (f : Iface → Iface) : (x.modIface n f).iface n = f (x.iface n) := by
  simp [Die.iface, Die.modIface]

/-! ## Answers -/

/-- An event that can come about has its effect. -/
theorem event_next {s : State} {u e : Bool} {t : State} (hu : u = true) (he : e = true) : event s u e t = .next t := by
  simp [event, hu, he]

/-- An event answers its effect, where it can come about, or the state as it was. -/
theorem event_eq_next {s : State} {u e : Bool} {t r : State} (h : event s u e t = .next r) :
    (u = true ∧ e = true ∧ r = t) ∨ r = s := by
  cases u <;> cases e <;> simp [event] at h <;> simp [h]

/-- A due packet that its queue may carry runs. -/
theorem gate_next {code : Nat} {perm : Perm} {p : Pkt} {t s : State} (hd : s.due code p = true)
    (hp : s.permitted perm p = true) : gate code perm p t s = .next t := by simp [gate, hd, hp]

/-- A due packet that its queue may not carry is refused with AUTH_FAIL. -/
theorem gate_refuse {code : Nat} {perm : Perm} {p : Pkt} {t s : State} (hd : s.due code p = true)
    (hp : s.permitted perm p = false) : gate code perm p t s = .next (s.refuse code p .authFail 0) := by
  simp [gate, hd, hp]

/-- A command whose packet is not due has no effect. -/
theorem gate_idle {code : Nat} {perm : Perm} {p : Pkt} {t s : State} (hd : s.due code p = false) :
    gate code perm p t s = .next s := by simp [gate, hd]

/-- A gate answers one of three states. -/
theorem gate_eq_next {code : Nat} {perm : Perm} {p : Pkt} {t s r : State} (h : gate code perm p t s = .next r) :
    r = t ∨ r = s.refuse code p .authFail 0 ∨ r = s := by
  unfold gate at h
  injection h with h
  split at h
  · split at h <;> simp [h]
  · simp [h]

/-- A packet that passes its checks has its effect. -/
theorem opcode_next {code : Nat} {perm : Perm} {p : Pkt} {chk : Option (Status × Nat)} {t s : State}
    (hd : s.due code p = true) (hp : s.permitted perm p = true) (hc : chk = none) : opcode code perm p chk t s = .next t := by
  subst hc; simp [opcode, State.decide1, gate_next, hd, hp]

/-- A packet that fails a check is refused with it. -/
theorem opcode_refuse {code : Nat} {perm : Perm} {p : Pkt} {st : Status} {det : Nat} {t s : State}
    (hd : s.due code p = true) (hp : s.permitted perm p = true) :
    opcode code perm p (some (st, det)) t s = .next (s.refuse code p st det) := by
  simp [opcode, State.decide1, gate_next, hd, hp]

@[simp] theorem State.decide1_none (s t : State) (code : Nat) (p : Pkt) : s.decide1 code p none t = t := rfl

/-! ## Replies -/

@[simp] theorem State.addReplies_dies (s : State) (q : Nat) (l : List Reply) : (s.addReplies q l).dies = s.dies := by
  unfold State.addReplies; split <;> rfl

@[simp] theorem State.complete_dies (s : State) (p : Pkt) : (s.complete p).dies = s.dies := by
  unfold State.complete; split <;> rfl

theorem State.onlyReplies_refl (s : State) : OnlyReplies s s := rfl

theorem State.onlyReplies_trans {s t u : State} (a : OnlyReplies s t) (b : OnlyReplies t u) : OnlyReplies s u := by
  unfold OnlyReplies at *
  rw [b, a]

theorem State.onlyReplies_modQueue (s : State) (q : Nat) (f : Queue → Queue) : OnlyReplies s (s.modQueue q f) := by
  rfl

theorem State.onlyReplies_addReplies (s : State) (q : Nat) (l : List Reply) : OnlyReplies s (s.addReplies q l) := by
  unfold State.addReplies
  split
  · rfl
  · exact State.onlyReplies_modQueue s q _

theorem State.onlyReplies_complete (s : State) (p : Pkt) : OnlyReplies s (s.complete p) := by
  unfold State.complete
  split
  · rfl
  · exact State.onlyReplies_modQueue s _ _

theorem State.onlyReplies_finishMany (s : State) (code : Nat) (p : Pkt) (st : Status) (det : Nat)
    (l : List (List Byte × List Byte)) : OnlyReplies s (s.finishMany code p st det l) := by
  unfold State.finishMany
  simp only
  split
  · exact State.onlyReplies_complete s _
  · exact State.onlyReplies_trans (State.onlyReplies_complete s _) (State.onlyReplies_addReplies _ _ _)

/-- The end of a packet changes nothing but its queue and the mailbox. -/
theorem State.onlyReplies_finish (s : State) (code : Nat) (p : Pkt) (st : Status) (det : Nat) (a b : List Byte) :
    OnlyReplies s (s.finish code p st det a b) := State.onlyReplies_finishMany s code p st det _

/-- A refusal changes nothing but the packet's queue and the mailbox. -/
theorem State.onlyReplies_refuse (s : State) (code : Nat) (p : Pkt) (st : Status) (det : Nat) :
    OnlyReplies s (s.refuse code p st det) := State.onlyReplies_finish s code p st det [] []

theorem State.onlyReplies_ok (s : State) (code : Nat) (p : Pkt) : OnlyReplies s (s.ok code p) :=
  State.onlyReplies_finish s code p .ok 0 [] []

/-- The reply that a finished packet leaves in its queue. -/
theorem State.finish_held (s : State) (code : Nat) (p : Pkt) (st : Status) (det : Nat) (a b : List Byte)
    (hq : p.queue ≠ mboxQueue) (hd : (s.queue p.queue).st ≠ .disabled) (ho : s.orphaned p = false)
    (hl : (p.quiet && st == .ok) = false) :
    ((s.finish code p st det a b).queue p.queue).held = (s.queue p.queue).held ++ [mkReply code p st det a b false] := by
  simp only [State.finish, State.finishMany, hl, ho, Bool.or_self, Bool.false_eq_true, if_false, State.addReplies, hq,
    State.complete, State.queue_modQueue_same, List.length_singleton]
  have hd' : ((s.queue p.queue).st == QState.disabled) = false := by simpa using hd
  split <;> simp [hd']

theorem OnQueue.finish {s : State} {p : Pkt} (h : OnQueue s p) (code : Nat) (a b : List Byte) :
    Replies s (s.finish code p .ok 0 a b) code p a b :=
  s.finish_held code p .ok 0 a b h.ring h.opened h.started (by simp [h.loud])

/-- The same for a packet that first changed something else than queues. -/
theorem OnQueue.finish_of {s u : State} {p : Pkt} (h : OnQueue s p) (hu : u.queues = s.queues) (code : Nat) (a b : List Byte) :
    Replies s (u.finish code p .ok 0 a b) code p a b := by
  have hq : u.queue p.queue = s.queue p.queue := by simp [State.queue, hu]
  have ho : u.orphaned p = false := by simpa [State.orphaned, hq] using h.started
  have := u.finish_held code p .ok 0 a b h.ring (by rw [hq]; exact h.opened) ho (by simp [h.loud])
  unfold Replies
  rw [this, hq]

theorem OnQueue.ok_of {s u : State} {p : Pkt} (h : OnQueue s p) (hu : u.queues = s.queues) (code : Nat) :
    Replies s (u.ok code p) code p [] [] := h.finish_of hu code [] []

theorem OnQueue.ok {s : State} {p : Pkt} (h : OnQueue s p) (code : Nat) : Replies s (s.ok code p) code p [] [] :=
  h.finish code [] []

theorem OnQueue.refuse {s : State} {p : Pkt} (h : OnQueue s p) (code : Nat) (st : Status) (det : Nat) :
    Refuses s (s.refuse code p st det) code p st det :=
  s.finish_held code p st det [] [] h.ring h.opened h.started (by simp [h.loud])

end Sys2Proof.Machine
end

