-- ==== Sys2Proof/WellFormed.lean ====
section
/-! DEFINITION. Well-formed commands: each operand fits the field that the spec gives it, each unit number names a unit that
some variant has (R1, R11, R20), each enumerated operand is one of its values. The meanings do not rest on it: they judge
every operand themselves. -/

namespace Sys2Proof

/-- `n` fits a field of `b` bits. -/
def fits (b n : Nat) : Bool := decide (n < 2 ^ b)

/-- A packet: a queue of the part or the mailbox (8192), a byte of tenant, two of context (Table 9-9). -/
def pktWf (p : Pkt) : Bool := decide (p.queue ≤ 8192) && fits 8 p.tenant && fits 16 p.context

/-- A region: in an opcode any byte may name the die, an event names one of eight. -/
def rAtWf (a : RAt) (dies : Nat) : Bool := decide (a.die < dies) && if dies = 8 then decide (a.region < 8) else fits 8 a.region

/-- A tile of a die: 64 matrix, 32 vector tiles (R20). -/
def tAtWf (t : TAt) : Bool :=
  decide (t.die < 8) && match t.kind with
    | .matrix => decide (t.tile < 64)
    | .vector => decide (t.tile < 32)

/-- An array of a matrix tile; what its memories report is 0, 1 or 2 (R445). -/
def aAtWf (a : AAt) : Bool := decide (a.die < 8) && decide (a.tile < 64) && decide (a.arr < 2) && decide (a.err ≤ 2)

/-- A tile that issues a word. -/
def vAtWf (t : VAt) : Bool :=
  decide (t.die < 8) && decide (t.tile < if t.matrix.isSome then 64 else 32) && decide (t.err ≤ 2)

/-- A KEY_LOAD block: the lengths of Table 17-3, and 32 bytes for each secret (R429). -/
def wrapWf (w : WrapBlk) : Bool :=
  decide (w.eph.length = 32) && decide (w.ct.length = 1088) && decide (w.nonce.length = 12) && decide (w.wrapped.length = 64) &&
    decide (w.xSecret.length = 32) && decide (w.mSecret.length = 32)

/-- A probe's place (Table 12-13). -/
def probeWf (p : ProbeSel) : Bool := fits 8 p.die && fits 16 p.router && fits 8 p.probe

/-- A path: one of the four cores, the sideband, one of 64 functions. -/
def pathWf (p : RegPath) : Bool :=
  match p with
  | .firmware core => decide (core < 4)
  | .sideband => true
  | .host f => decide (f < 64)

/-- An entry of a dispatch (Table 9-14). -/
def entryWf (e : ExecEntry) : Bool := fits 14 e.seq && fits 16 e.nTok && fits 16 e.inOff && fits 16 e.inLen

/-- An entry of the identity record (R427). -/
def signWf (e : SignEntry) : Bool := fits 8 e.usage

/-- A bundle: no template, list or area beyond its 16-bit number. -/
def bundleWf (b : Bundle) : Bool := fits 16 b.templates.length && fits 16 b.lists.length && fits 16 b.areas.length

/-- What storage reports: severities 0 to 4, links that failed 0 to 3 times. -/
def reportWf (r : MemReport) : Bool := decide (r.severity ≤ 4) && decide (r.linkFails ≤ 3)

/-- A request to a controller: a class, a channel, a multiple of 64, 64 bytes. -/
def mreqWf (q : MReq) : Bool :=
  decide (q.cls < 4) && decide (q.chan < 80) && decide (q.off % 64 = 0) && fits 8 q.slot && match q.wdata with
    | some l => decide (l.length = 64)
    | none => true

/-- The inputs of a logic block: eight cells (R238). -/
def blockInWf (i : BlockIn) : Bool := decide (i.addr.length = 8) && decide (i.jk.length = 8)

/-- What an edge brings and drives (R238, R273): blocks, signals, pins and lanes that a region has. -/
def edgeInWf (i : EdgeIn) : Bool :=
  (i.blocks.all fun b => decide (b.1 < 15360) && blockInWf b.2) && (i.drives.all fun d => decide (d.1 < 3096)) &&
    (i.pins.all fun p => decide (p.1 < 24)) && i.tx.all fun t => decide (t.1 < 4) && decide (t.2.taps.length = 4)

/-- A voltage in the bands that a hold-up time bridges (R454). -/
def vinWf (k : VinKind) : Bool :=
  match k with
  | .below36 => true
  | .holdUp mv => (decide (36000 ≤ mv) && decide (mv < 40000)) || (decide (60000 < mv) && decide (mv ≤ 63000))
  | .above63 => true

/-- The command is well formed. -/
def Instr.wf (i : Instr) : Bool :=
  match i with
  | .tenantCreate p quantum idleMs resumeS => pktWf p && fits 32 quantum && fits 32 idleMs && fits 32 resumeS
  | .tenantDestroy p => pktWf p
  | .tenantSet p quantum idleMs resumeS => pktWf p && fits 32 quantum && fits 32 idleMs && fits 32 resumeS
  | .ctxCreate p inst tmpl die => pktWf p && fits 16 inst && fits 16 tmpl && fits 8 die
  | .ctxDestroy p => pktWf p
  | .ctxRead p off len => pktWf p && fits 32 off && fits 32 len
  | .modelCreate p L h d32 fmt thr wBytes bBytes =>
      pktWf p && fits 16 L && fits 8 h && fits 8 d32 && fits 8 fmt && fits 32 thr && fits 64 wBytes && fits 32 bBytes
  | .modelWrite p inst part die off _ => pktWf p && fits 8 inst && fits 8 part && fits 8 die && fits 64 off
  | .modelCommit p inst bundle => pktWf p && fits 8 inst && bundleWf bundle
  | .modelDestroy p inst => pktWf p && fits 8 inst
  | .seqOpen p inst die cls => pktWf p && fits 16 inst && fits 8 die && fits 8 cls
  | .seqClose p seq => pktWf p && fits 16 seq
  | .seqSuspend p seq cls => pktWf p && fits 16 seq && fits 8 cls
  | .seqResume p seq cls => pktWf p && fits 16 seq && fits 8 cls
  | .seqTruncate p seq pos => pktWf p && fits 16 seq && fits 32 pos
  | .sheetHintPromote p seq layer => pktWf p && fits 16 seq && fits 8 layer
  | .sheetHintDemote p seq layer => pktWf p && fits 16 seq && fits 8 layer
  | .sheetHintPin p seq layer => pktWf p && fits 16 seq && fits 8 layer
  | .sheetHintUnpin p seq layer => pktWf p && fits 16 seq && fits 8 layer
  | .stateIdle p _ _ => pktWf p
  | .idleDrainDone die => decide (die < 8)
  | .stateWake p _ => pktWf p
  | .segmentInitDone die lc seg => decide (die < 8) && decide (lc < 16) && decide (seg < 8)
  | .seqQuery p seq => pktWf p && fits 16 seq
  | .execDispatch p inst list outUnits entries _ =>
      pktWf p && fits 16 inst && fits 16 list && fits 16 outUnits && entries.all entryWf
  | .dispatchComplete _ _ => true
  | .fabricLoadPart p at_ tenant _ off imageLen _ _ =>
      pktWf p && rAtWf at_ 256 && fits 8 tenant && fits 64 off && fits 64 imageLen
  | .fabricLoadFlash p at_ tenant addr _ => pktWf p && rAtWf at_ 256 && fits 8 tenant && fits 64 addr
  | .fabricLoadBind p at_ tenant => pktWf p && rAtWf at_ 256 && fits 8 tenant
  | .fabricLoadAbandon p at_ => pktWf p && rAtWf at_ 256
  | .bankVoltageReady at_ => rAtWf at_ 8
  | .regionRelease at_ => rAtWf at_ 8
  | .ioHandover at_ => rAtWf at_ 8
  | .fabricCaptureFlipFlops p at_ edge => pktWf p && rAtWf at_ 256 && fits 64 edge
  | .fabricCaptureHalt p at_ edge => pktWf p && rAtWf at_ 256 && fits 64 edge
  | .fabricCaptureResume p at_ edge => pktWf p && rAtWf at_ 256 && fits 64 edge
  | .captureCopyDone at_ => rAtWf at_ 8
  | .fabricRead p at_ first count => pktWf p && rAtWf at_ 256 && fits 32 first && fits 32 count
  | .fabricClockSetDivisor p at_ divisor edge => pktWf p && rAtWf at_ 256 && fits 8 divisor && fits 64 edge
  | .fabricClockHalt p at_ edge => pktWf p && rAtWf at_ 256 && fits 64 edge
  | .fabricClockRun p at_ edge => pktWf p && rAtWf at_ 256 && fits 64 edge
  | .fabricClockReadFctr p at_ edge => pktWf p && rAtWf at_ 256 && fits 64 edge
  | .fctrEdgeReached at_ => rAtWf at_ 8
  | .knotTie p die knot owner _ => pktWf p && fits 8 die && fits 16 knot && fits 16 owner
  | .knotAdd p die knot _ => pktWf p && fits 8 die && fits 16 knot
  | .knotWait p die knot _ => pktWf p && fits 8 die && fits 16 knot
  | .knotUntie p die knot => pktWf p && fits 8 die && fits 16 knot
  | .knotRead p die knot => pktWf p && fits 8 die && fits 16 knot
  | .knotOpArrival die _ _ => decide (die < 8)
  | .knotWake die ctx => decide (die < 8) && decide (ctx < 4096)
  | .energyLimit p pMw rMw => pktWf p && fits 32 pMw && fits 32 rMw
  | .energyAllow p tenant _ window nj => pktWf p && fits 8 tenant && fits 32 window && fits 64 nj
  | .energyRead p die tenant => pktWf p && fits 8 die && fits 8 tenant
  | .telCounters p die kind unit => pktWf p && fits 8 die && fits 8 kind && fits 16 unit
  | .telReam p die first count => pktWf p && fits 8 die && fits 32 first && fits 32 count
  | .telCtx p => pktWf p
  | .telProbeSetFilter p sel _ => pktWf p && probeWf sel
  | .telProbeStart p sel => pktWf p && probeWf sel
  | .telProbeStop p sel => pktWf p && probeWf sel
  | .telProbeReadCounts p sel => pktWf p && probeWf sel
  | .telProbeReadTrace p die => pktWf p && fits 8 die
  | .telProbeClearTrace p die => pktWf p && fits 8 die
  | .testRunSelfTest p die kind unit => pktWf p && fits 8 die && fits 8 kind && fits 16 unit
  | .testRunCalibration p die kind unit => pktWf p && fits 8 die && fits 8 kind && fits 16 unit
  | .testRunLinkRetrain p die kind unit => pktWf p && fits 8 die && fits 8 kind && fits 16 unit
  | .testDone die kind unit _ => decide (die < 8) && decide (kind < 256) && decide (unit < 65536)
  | .queueCreate p queue die cls tenant func vector _ log2size coalCount coalUs _ =>
      pktWf p && fits 16 queue && fits 8 die && fits 8 cls && fits 8 tenant && fits 8 func && fits 16 vector &&
        fits 8 log2size && fits 8 coalCount && fits 16 coalUs
  | .queueDestroy p queue => pktWf p && fits 16 queue
  | .queueDrained queue => decide (queue < 8192)
  | .eventConfig p func queue _ => pktWf p && fits 8 func && fits 16 queue
  | .deviceInfo p => pktWf p
  | .keyLoadSealingKey p tenant _ w => pktWf p && fits 8 tenant && wrapWf w
  | .keyLoadImageKey p target w => pktWf p && fits 8 target && wrapWf w
  | .keyLoadIdentityRecord p entries => pktWf p && entries.all signWf
  | .keyRemove p tenant _ => pktWf p && fits 8 tenant
  | .fwUpdateWrite p off _ => pktWf p && fits 64 off
  | .fwUpdateActivate p _ => pktWf p
  | .fwUpdateRaiseFwMin p value => pktWf p && fits 32 value
  | .fwUpdateRaiseCfgMin p value => pktWf p && fits 32 value
  | .debugUnlockNonce p => pktWf p
  | .debugUnlockPresent p k => pktWf p && decide (k.bytes.length = 5440)
  | .debugUnlockLock p => pktWf p
  | .spdmRequest _ => true
  | .regRead _ => true
  | .regWrite _ _ => true
  | .pkgStatus => true
  | .mboxWrite off data => decide (off < 8192) && decide (data.length ≤ 32)
  | .mboxGo => true
  | .mboxRead off len => decide (off < 8192) && decide (len ≤ 32)
  | .doorbell func queue _ => decide (func < 64) && decide (queue < 8192)
  | .packetTake queue => decide (queue < 8192)
  | .packetStart queue _ => decide (queue < 8192)
  | .replyPost queue => decide (queue < 8192)
  | .qrheadWrite func queue _ => decide (func < 64) && decide (queue < 8192)
  | .queueEnable func _ => decide (func < 64)
  | .queueReset func _ => decide (func < 64)
  | .irqCoalesceTimer queue => decide (queue < 8192)
  | .eventPost => true
  | .hostPerst _ => true
  | .functionLevelReset func => decide (func < 64)
  | .hotReset => true
  | .d3hotEntry func => decide (func < 64)
  | .d3hotExit func => decide (func < 64)
  | .hostBarWrite func bar _ _ _ _ => decide (func < 64) && (bar == 0 || bar == 2 || bar == 4)
  | .wringAccept die w => decide (die < 8) && decide (w < 80)
  | .requestOpen die w => decide (die < 8) && decide (w < 80)
  | .sheetStream die w _ _ => decide (die < 8) && decide (w < 80)
  | .partial_ die w => decide (die < 8) && decide (w < 80)
  | .append die w => decide (die < 8) && decide (w < 80)
  | .appendDone a _ => aAtWf a
  | .appendResume die w => decide (die < 8) && decide (w < 80)
  | .wringerFence die w _ => decide (die < 8) && decide (w < 80)
  | .resendTimeout a _ _ => aAtWf a
  | .resendAfterFlip a _ _ => aAtWf a
  | .agingPeriod die => decide (die < 8)
  | .reamPatrol die _ => decide (die < 8)
  | .lostEntryRewrite die handle => decide (die < 8) && decide (handle < 524288)
  | .migrationStart die => decide (die < 8)
  | .migrationCopyDone die handle _ _ => decide (die < 8) && decide (handle < 524288)
  | .migrationRelease die handle => decide (die < 8) && decide (handle < 524288)
  | .seqIdleTimeout seq => decide (seq < 16384)
  | .retentionCheck _ => true
  | .matmul a _ => aAtWf a
  | .attend a _ => aAtWf a
  | .descriptorStart a => aAtWf a
  | .blockLoad a quarter _ => aAtWf a && decide (quarter < 4)
  | .passSwap a quarter => aAtWf a && decide (quarter < 4)
  | .wringSend a _ => aAtWf a
  | .partialMerge a _ => aAtWf a
  | .descriptorComplete a _ => aAtWf a
  | .staggerRow a => aAtWf a
  | .threadBlockArrive die thread _ => decide (die < 8) && decide (thread < 128)
  | .threadFetch die thread => decide (die < 8) && decide (thread < 128)
  | .streamIssue die ctx _ _ => decide (die < 8) && decide (ctx < 4096)
  | .streamBurst die engine _ => decide (die < 8) && decide (engine < 16)
  | .streamComplete die _ => decide (die < 8)
  | .tileGrant die _ => decide (die < 8)
  | .quantumExpiry t => tAtWf t
  | .contextSwitch t => tAtWf t
  | .quiesceDone t => tAtWf t
  | .saveChecked t _ => tAtWf t
  | .rinseDone t => tAtWf t
  | .restoreDone t _ => tAtWf t
  | .completionRingDrain die ctx => decide (die < 8) && decide (ctx < 4096)
  | .tpWord r port _ _ => rAtWf r 8 && decide (port < 16)
  | .callRingClaim r port => rAtWf r 8 && decide (4 ≤ port) && decide (port ≤ 11)
  | .callLanded r port => rAtWf r 8 && decide (4 ≤ port) && decide (port ≤ 11)
  | .rtpTransfer r ch => rAtWf r 8 && decide (ch < 4)
  | .fmAccess r blk port _ _ _ _ => rAtWf r 8 && decide (blk < 320) && decide (port < 2)
  | .fmWriteback r blk => rAtWf r 8 && decide (blk < 320)
  | .fabricClockEdge r line _ ins => rAtWf r 8 && decide (line < 10) && edgeInWf ins
  | .darnerScan die _ _ => decide (die < 8)
  | .darnerRetry die _ => decide (die < 8)
  | .selfcheckNow die _ => decide (die < 8)
  | .routerForward die router _ => decide (die < 8) && decide (router < 131)
  | .packetDeliver die _ _ => decide (die < 8)
  | .txnTimeout die _ txn => decide (die < 8) && decide (txn < 16384)
  | .epochSwitch _ _ => true
  | .epochFlip die => decide (die < 8)
  | .epochDrainDone die => decide (die < 8)
  | .regionSleepDecision r => rAtWf r 8
  | .gatePoint r => rAtWf r 8
  | .regionPowerOff r => rAtWf r 8
  | .regionWake r => rAtWf r 8
  | .wakeRailsReady r => rAtWf r 8
  | .ucieRetrain die router _ _ _ => decide (die < 8) && decide (router < 131)
  | .memoryAccess die mc arrivals _ rp => decide (die < 8) && decide (mc < 48) && arrivals.all mreqWf && reportWf rp
  | .refresh die mc _ _ _ => decide (die < 8) && decide (mc < 48)
  | .rfmIssue die mc _ _ => decide (die < 8) && decide (mc < 48)
  | .patrolScrub die lc _ => decide (die < 8) && decide (lc < 16)
  | .hbmScrubPoll die mc _ => decide (die < 8) && decide (mc < 48)
  | .retrainPause die chan _ _ => decide (die < 8) && decide (chan < 80)
  | .trainingFrame die port lane _ _ => decide (die < 8) && decide (port < 8) && decide (lane < 4)
  | .signalDetect die port => decide (die < 8) && decide (port < 8)
  | .linkRetry die port => decide (die < 8) && decide (port < 8)
  | .trainingTimeout die port => decide (die < 8) && decide (port < 8)
  | .alignMeasureDone die port _ _ _ => decide (die < 8) && decide (port < 8)
  | .linkIdle die port => decide (die < 8) && decide (port < 8)
  | .heartbeatSend die port => decide (die < 8) && decide (port < 8)
  | .heartbeatLoss die port => decide (die < 8) && decide (port < 8)
  | .alignmentLoss die port => decide (die < 8) && decide (port < 8)
  | .feltFrameRx die port _ _ _ => decide (die < 8) && decide (port < 8)
  | .feltSend die ring port => decide (die < 8) && decide (ring < 64) && decide (port < 8)
  | .ackTimer die ring => decide (die < 8) && decide (ring < 64)
  | .e2eRetransmit die ring => decide (die < 8) && decide (ring < 64)
  | .fold die port => decide (die < 8) && decide (port < 8)
  | .foldAck die port => decide (die < 8) && decide (port < 8)
  | .wake die port _ => decide (die < 8) && decide (port < 8)
  | .wakingTimeout die port => decide (die < 8) && decide (port < 8)
  | .foldRetry die port => decide (die < 8) && decide (port < 8)
  | .retrain die port => decide (die < 8) && decide (port < 8)
  | .pwWrite path die _ _ => pathWf path && decide (die < 8)
  | .pressGo path die _ => pathWf path && decide (die < 8)
  | .pressCancel path die _ => pathWf path && decide (die < 8)
  | .commit path die block => pathWf path && decide (die < 8) && decide (block < 256)
  | .cfgCrcPass die block => decide (die < 8) && decide (block < 256)
  | .readClear path die _ => pathWf path && decide (die < 8)
  | .snapshotRead path die _ => pathWf path && decide (die < 8)
  | .registerWrite path die _ _ => pathWf path && decide (die < 8)
  | .ledgerPeriod die _ _ _ _ _ => decide (die < 8)
  | .backstopWindow _ => true
  | .staticCalibration die _ _ => decide (die < 8)
  | .thermalShutdown die _ => decide (die < 256)
  | .vinExcursion k => vinWf k
  | .pllLockLoss die => decide (die < 8)
  | .dieControllerTimeout die => decide (die < 8)
  | .fwRehash _ => true
  | .packageReset => true
  | .packageResetRelease _ => true
  | .startUpImageLoad _ _ => true
  | .cfgDoneHigh die => decide (die < 8)
  | .nop t _ => vAtWf t
  | .rep t _ => vAtWf t
  | .halt t _ => vAtWf t
  | .fence t _ => vAtWf t
  | .press t _ => vAtWf t
  | .kadd t _ => vAtWf t
  | .kwait t _ => vAtWf t
  | .sissue t _ => vAtWf t
  | .pbase t _ => vAtWf t
  | .plen t _ => vAtWf t
  | .pstride t _ => vAtWf t
  | .psetp t _ => vAtWf t
  | .vstat t _ => vAtWf t
  | .vld t _ => vAtWf t
  | .vst t _ => vAtWf t
  | .vldx t _ => vAtWf t
  | .vstx t _ => vAtWf t
  | .vmovi t _ => vAtWf t
  | .vmov t _ => vAtWf t
  | .vbcstH t _ => vAtWf t
  | .vbcstW t _ => vAtWf t
  | .vaddH t _ => vAtWf t
  | .vsubH t _ => vAtWf t
  | .vaddW t _ => vAtWf t
  | .vsubW t _ => vAtWf t
  | .vmulH t _ => vAtWf t
  | .vmaxH t _ => vAtWf t
  | .vminH t _ => vAtWf t
  | .vabsH t _ => vAtWf t
  | .vnegH t _ => vAtWf t
  | .vand t _ => vAtWf t
  | .vor t _ => vAtWf t
  | .vxor t _ => vAtWf t
  | .vsel t _ => vAtWf t
  | .vcmpH t _ => vAtWf t
  | .vshlH t _ => vAtWf t
  | .vshrH t _ => vAtWf t
  | .vclr t _ => vAtWf t
  | .vaccLd t _ => vAtWf t
  | .vmacH t _ => vAtWf t
  | .vmsuH t _ => vAtWf t
  | .vmacsH t _ => vAtWf t
  | .vmacWh t _ => vAtWf t
  | .vrndH t _ => vAtWf t
  | .vrndWe t _ => vAtWf t
  | .vrndWo t _ => vAtWf t
  | .normH t _ => vAtWf t
  | .normW t _ => vAtWf t
  | .expxH t _ => vAtWf t
  | .expxW t _ => vAtWf t
  | .bshH t _ => vAtWf t
  | .bshW t _ => vAtWf t
  | .faddS t _ => vAtWf t
  | .fsubS t _ => vAtWf t
  | .fmulS t _ => vAtWf t
  | .ffmaS t _ => vAtWf t
  | .fmaxS t _ => vAtWf t
  | .fminS t _ => vAtWf t
  | .frcpS t _ => vAtWf t
  | .fexp2S t _ => vAtWf t
  | .faddB t _ => vAtWf t
  | .fsubB t _ => vAtWf t
  | .fmulB t _ => vAtWf t
  | .ffmaB t _ => vAtWf t
  | .fcvtSx t _ => vAtWf t
  | .fcvtXs t _ => vAtWf t
  | .fcvtSb t _ => vAtWf t
  | .fcvtBs t _ => vAtWf t
  | .fcvtHs t _ => vAtWf t
  | .regionReturn r _ => rAtWf r 8
  | .loopsRelocked die port => decide (die < 8) && decide (port < 8)
  | .uncorrectableCodewordRatio die port _ => decide (die < 8) && decide (port < 8)
  | .sensorMinimumReached => true

end Sys2Proof
end

