-- ==== Sys2Proof/Tests/Slice0.lean ====
section
/-! SUPPORT. Tests: for every statement a state and operands that meet what it supposes, the smoke test of well-formedness, and
small tests of single commands with results written out from the spec. -/

namespace Sys2Proof.Tests

open Sys2Proof.Machine

set_option Elab.async false

/-! ## States and operands for the tests -/

/-- A running die. -/
def x0 : Die := { Die.reset .skz8 with
    running := true, trained := true, fwOk := true, sealSlots := [(0, (1, 2, 0xFF)), (1, (5, 6, 3))]
    mcs := (List.range 48).map fun m => (m, { MC.reset with ch0 := .active, ch1 := .active }) }
/-- A packet of the management queue. -/
def pm : Pkt := { queue := 0, seq := 7, tag := 9, quiet := false, irq := false, tenant := 3, context := 0xFFFF }
/-- One whose work is under way. -/
def po : Pkt := { pm with seq := 6 }
/-- A packet of tenant 3's queue. -/
def pt : Pkt := { pm with queue := 1 }
/-- One whose work is under way. -/
def pw : Pkt := { pt with seq := 6 }
/-- A packet of tenant 3's queue that names context 5 of die 0. -/
def pc : Pkt := { pt with context := 5 }
/-- A packet as its queue has it among the started ones. -/
def tk (p : Pkt) (code : Nat) : TakenPkt :=
  { barrier := false, quiet := false, irq := false, opcode := code, seq := p.seq, tenant := p.tenant, context := p.context,
    tag := p.tag, params := [], payload := [] }
/-- The opcodes of chapter 9. -/
def codes : List Nat :=
  [1, 2, 3, 0x10, 0x11, 0x12, 0x101, 0x102, 0x103, 0x104, 0x201, 0x202, 0x203, 0x204, 0x205, 0x206, 0x207, 0x208, 0x209, 0x301,
    0x401, 0x402, 0x403, 0x404, 0x501, 0x502, 0x503, 0x504, 0x505, 0x601, 0x602, 0x603, 0x701, 0x702, 0x703, 0x704, 0x710, 0xE01,
    0xE02, 0xE03, 0xE04, 0xE10, 0xE11, 0xE12, 0xE13]
/-- A signing entry whose keys are zeros. -/
def ky (usage : Nat) : SignEntry := { usage := usage, edHash := Config.sha384 (zeros 32), pqHash := Config.sha384 (zeros 1952) }
/-- A running package: queue 0 a management queue, queue 1 one of tenant 3, with packets started. -/
def w : State :=
  { State.reset with
    psi := { Psiurn.reset with state := .running, signing := [(0, ky 0), (2, ky 1), (3, ky 2)] }, hostUp := true
    queues := [(0, { Queue.reset with st := .enabled, started := codes.map (tk pm) ++ [tk po 0x401] }),
      (1, { Queue.reset with
        st := .enabled, cls := 0, tenant := 3, started := codes.map (tk pt) ++ codes.map (tk pc) ++ [tk pw 0x301] })]
    tenants := [(3, { quantum := 65536, idleMs := 1000, resumeS := 0, destroy := none })]
    dies := (List.range 8).map fun d => (d, x0) }
/-- `w` with die 0 replaced by a change of it. -/
def on0 (f : Die → Die) : State := w.modDie 0 f
def tmpl0 : Template :=
  { kind := .vector, declBytes := 4096, patBytes := 8, words := [0], streams := 1, slots := 0
    grants := [{ area := some 0, first := 0, units := 4, canRd := true, canWr := true }], listUnit := 8, listUnits := 4 }
def bun : Bundle :=
  { templates := [tmpl0], lists := [{ ctxs := [{ template := 0, index := 0, serves := none }], est := [], periods := 1, threads := [] }]
    layers := [{ window := 0, sinks := 0 }], areas := [4] }
def mdl : Model :=
  { tenant := 3, layers := 1, h := 1, d := 32, fmt := 0, thr := 0, wBytes := 4096, bBytes := 64, bundleMem := [],
    weightMem := [], areas := [], bundle := some bun, digest := 0, poisoned := false }
def ctx0 : Ctx :=
  { tenant := 3, model := 0, tmpl := 0, kind := .vector, region := 0, imgPc := 0, imgBytes := 4096, st := .ready, tile := none,
    lastTile := none, image := .none, cls := 0, disp := none, readyNo := 0, waited := 0, wait := none, woken := false,
    quantNo := 0, waitNo := 0, ring := [], ringWait := [], grants := [], streams := [], failSt := .ok, declared := 4096 }
def sq0 : Sequence :=
  { st := .active, tenant := 3, model := 0, region := 0, pos := 0, cls := 0, dieSpread := false, sheets := [], heldBy := none,
    stepped := 0, suspMs := 0, lostTold := false }
def sheet0 : Ream :=
  { st := .full, cls := 0, fmt := 0, tenant := 3, seq := 0, layer := 0, first := 0, loc := locOf 0 5, slot := 1, tok := 64,
    acc := 0, pin := false }
/-- An image: 100 bytes of header, then zeros up to the body, then the rest. -/
def imgOf (h t : List Byte) : List Byte := h ++ (zeros 7324 ++ t)
/-- The digest of a body as the header holds it (R271, R278). -/
def digOf (b : List Byte) : List Byte := le 48 (Config.sha384 b).toNat
/-- The last four bytes of an image whose other bytes are `x` (R275). -/
def crcOf (x : List Byte) : List Byte := le 4 (crc32c x).toNat
/-- A header of kind `kind` for region 1 of die 0, its window one frame of type 0, `n` bytes of body. -/
def hdr (kind n : Nat) : List Byte :=
  le 4 0x46494B53 ++ le 2 1 ++ le 1 kind ++ [0, 7, 0, 1, 0] ++ zeros 8 ++ le 4 (frameAt 0 1 0 0 0) ++ le 4 (frameAt 0 1 0 0 0) ++
    le 8 n ++ zeros 2012
/-- The body of an image of one frame: a run of one frame. -/
def frameBody : List Byte := le 4 (frameAt 0 1 0 0 0) ++ le 4 1 ++ zeros 56 ++ [0xA5]
def body1 : List Byte := frameBody ++ zeros 127
/-- The first 52 bytes of its header, and with the digest 100. -/
def frameLead (kind : Nat) : List Byte :=
  if kind = 1 then le 4 0x46494B53 ++ le 2 1 ++ [1, 0, 7, 0, 0, 0, 2] ++ zeros 15 ++ le 8 192 ++ zeros 16
  else (hdr kind 192).take 52
def frameHead (kind : Nat) : List Byte := frameLead kind ++ digOf body1
/-- The header and the signature block of a partial image of one frame. -/
def head1 : List Byte := frameHead 2 ++ zeros 7324
/-- Its trailer. -/
def tail1 : List Byte := zeros 60 ++ crcOf (imgOf (frameHead 2) (body1 ++ zeros 60))
def chk1 : ImgChk := { edOk := true, pqOk := true, illegal := [], designs := [], newVolt := false }
def ses1 : Session :=
  { pkt := po, queue := 0, tenant := 0xFF, len := 7680, next := 7424, bytes := head1, step := 5, used := 0, run := none,
    digest := 0, newVolt := false }
def x1 : Die := { x0 with sawDone := true }
/-- Region 1 of die 0 with a fabric changed. -/
def fab1 (f : Fabric → Fabric) : State := w.setDie 0 (x1.modFabric 1 f)
def at1 : RAt := { die := 0, region := 1 }
/-- Firmware without a body: its header and its last bytes. -/
def fwHead : List Byte := le 4 0x57464B53 ++ le 2 1 ++ [3, 0, 7] ++ zeros 43 ++ digOf []
def fwEnd : List Byte := crcOf (imgOf fwHead (zeros 60))
/-- The last bytes of the images of one frame. -/
def fullEnd : List Byte := crcOf (imgOf (frameHead 1) (body1 ++ zeros 60))
def partEnd : List Byte := crcOf (imgOf (frameHead 2) (body1 ++ zeros 60))
/-- The first `k` bytes of `n` at address `a`. -/
def wide (a : Nat) : Nat → Nat → Memory
  | 0, _ => []
  | k + 1, n => (a, BitVec.ofNat 8 n) :: wide (a + 1) k (n / 256)
def four (a n : Nat) : Memory := wide a 4 n
/-- Flash with that firmware at 0x20000, its digest `g`, its last bytes spelling `n`. -/
def flashF (dir : Memory) (g n : Nat) : Memory :=
  dir ++ [(0x20000, 83), (0x20001, 75), (0x20002, 70), (0x20003, 87), (0x20004, 1), (0x20006, 3), (0x20008, 7)] ++
    wide 0x20034 48 g ++ four 0x21D3C n
/-- Directories at 0 that name slots A and B: the firmware's address as slot B, and as slot A. -/
def dirB : Memory :=
  [(0, 70), (1, 73), (2, 68), (3, 87), (4, 5), (10, 1), (18, 2), (60, 255), (61, 40), (62, 238), (63, 251)]
def dirA : Memory :=
  [(0, 70), (1, 73), (2, 68), (3, 87), (4, 5), (10, 2), (18, 3), (60, 69), (61, 194), (62, 208), (63, 47)]
def flash1 : Memory := flashF dirB (Config.sha384 []).toNat (crc32c (imgOf fwHead (zeros 60))).toNat
def fl1 : State := { w with psi := { w.psi with flash := flash1, fw := { version := 1, secVersion := 9, digest := 0 } } }
/-- DEVICE_INFO as a framed packet. -/
def pk1 : List Byte := [1, 0, 4, 0x0E] ++ zeros 4 ++ [0xFF, 0, 0xFF, 0xFF] ++ zeros 52
/-- Queue 0 with these units in its window. -/
def win1 (l : List Byte) : State :=
  w.modQueue 0 fun x => { x with window := mwriteN [] 0 l, wr := l.length / 64 }
def tk1 : TakenPkt :=
  { barrier := false, quiet := false, irq := false, opcode := 0x0E04, seq := 0, tenant := 0xFF, context := 0xFFFF, tag := 0,
    params := [], payload := [] }
def rp1 : Reply :=
  { opcode := 0x0E04, seq := 0, status := .ok, detail := 0, params := [], payload := [], tag := 0, seqErr := false,
    more := false, irq := false }
def kn1 : Knot := { value := 5, tied := true, wrap := false, tenant := 3, owner := 5, waits := [], hosts := [] }
def tok1 : DebugToken :=
  { bytes := le 4 0x54474244 ++ [1, 3, 0, 0] ++ le 8 w.part.ident.toNat ++ le 16 77 ++ zeros 5408, edOk := true, pqOk := true }
/-- A WRING of one row over the sheet of handle 9, and an APPEND of one token to it. -/
def rq1 : WReq :=
  { isAppend := false, causal := true, winFlag := false, sinkFlag := false, padFlag := false, bias := 0, tag := 2, seq := 0
    layer := 0, tenant := 3, cls := 0, h := 1, g := 1, t := 1, qFmt := 0, d := 32, handles := [9], pos0 := 63, window := 0
    sinks := 0, scale := 0, pad0lo := 0, pad0hi := 0, pad1lo := 0, pad1hi := 0, rDie := 0, rTile := 1, rArr := 0, rSlot := 2
    resZero := true, biasTab := [], body := zeros 33, chan := 0, w := 0, epoch := false }
def rq2 : WReq := { rq1 with isAppend := true, g := 0, pos0 := 4, body := zeros 128 }
def res1 : List Resolved := [{ handle := 9, loc := locOf 0 5, fmt := 0, first := 0, tok := 64, slot := 1 }]
def op1 : WOpen := WOpen.start rq1 res1 0 [{ m := 0, l := 0, o := [], nan := false }] false
def op2 : WOpen := WOpen.start rq2 [{ handle := 9, loc := locOf 0 5, fmt := 0, first := 0, tok := 4, slot := 1 }] 0 [] false
def tail9 : Ream := { sheet0 with st := .tail, tok := 4 }
/-- Die 0 with a wringer 0 and a sheet of handle 9. -/
def wr1 (g : Wringer) (e : Ream) (f : Die → Die) : State :=
  { on0 (fun x => f { x with ream := [(9, e)], wringers := [(0, g)] }) with
    models := [(0, mdl)], seqs := [(0, { sq0 with heldBy := some 4 })] }
/-- A descriptor from (word, lowest bit, value) fields. -/
def mkd (l : List (Nat × Nat × Nat)) : BitVec 512 := BitVec.ofNat 512 ((l.map fun e => e.2.2 * 2 ^ (32 * e.1 + e.2.1)).sum)
/-- A 1 × 1 × 1 MATMUL of bfloat16 with a binary32 result, and an ATTEND of sequence 0. -/
def mm1 : BitVec 512 := mkd [(0, 28, 1), (0, 16, 10), (0, 11, 10), (0, 6, 12), (1, 0, 1), (2, 16, 1), (2, 0, 1), (3, 16, 1), (5, 0, 1), (5, 16, 1), (7, 0, 2), (7, 16, 1), (12, 16, 77)]
def at2 : BitVec 512 := mkd [(0, 28, 2), (0, 20, 3), (0, 15, 12), (0, 13, 1), (0, 12, 1), (1, 24, 3), (2, 0, 1), (2, 8, 1), (2, 16, 1), (3, 0, 32), (4, 0, 63), (13, 16, 8), (14, 0, 20), (15, 16, 88)]
def aa : AAt := { die := 0, tile := 7, arr := 0, err := 0 }
def run1 : Run := { desc := mm1, quarter := 0, ctx := 5, loadIx := 0, passIx := 0, rowIx := 0, token := true, outIx := 0, status := none, fp := 0 }
def att1 : Att := { desc := at2, ctx := 5, slot := 3, appends := [{ chan := 0, handle := 9, first := 0, count := 1, st := 4, flips := 0, sends := 1, body := [] }], entries := [{ chan := 0, handles := [9], st := 0, flips := 0, sends := 0, rows := none, rep := none }], room := false, running := [], fail := none, fp := 0 }
def att4 : Att := { att1 with entries := [{ chan := 0, handles := [9], st := 4, flips := 0, sends := 1, rows := none, rep := none }] }
def dsp1 : Dispatch := { pkt := pt, model := 0, list := 0, cls := 0, outUnits := 1, entries := [], payload := [], ctxs := [], lists := [(0, [65792, 9, 65536, 9])], recs := [], planned := [], periods := 1, age := [] }
def rep1 : WRep := { rq1.answer .ok 0 0 0xFFFF 0 with tag := 0, rTile := 7, rSlot := 3, rows := [(0, 0, [])] }
/-- Die 0 with the array `aa` and context 5 RUNNING on its tile. -/
def arr1 (f : Arr → Arr) (g : Die → Die) : State :=
  { on0 (fun x => g { x with
      ctxs := [(5, { ctx0 with kind := .matrix, st := .running, tile := some 7, disp := some 4 })]
      occ := [(7, { Occ.reset with res := some 5 })]
      mtiles := [(7, { mem := mwriteN [] 0 (le 64 mm1.toNat ++ le 64 at2.toNat), a := f Arr.reset, b := Arr.reset, slots := [] })] }) with
    models := [(0, mdl)], seqs := [(0, { sq0 with heldBy := some 4 })], disps := [(4, dsp1)] }
def blk1 : Blk := { mc := 0, nb := 0, kb := 0, cols := [[Machine.Num.zero]] }
def yy : Ctx := { ctx0 with kind := .matrix, st := .running, tile := some 7, disp := some 4 }
/-- A weight source of 2 records of one unit, a stream descriptor (memory to tile, one unit), one to a ring. -/
def src1 : BitVec 512 := mkd [(4, 16, 2), (4, 0, 1), (5, 0, 64)]
def sd1 : BitVec 512 := mkd [(0, 28, 1), (0, 20, 6), (3, 0, 4), (4, 16, 1), (4, 0, 1), (5, 0, 64), (6, 0, 1), (8, 16, 55)]
def gr1 : Grant := { area := none, first := 0, units := 4, canRd := true, canWr := true }
def th1 : Thread := { members := [(14, 2), (16, 1)], sources := [src1], next := 0, ctx := 5, transit := [], disp := 4 }
def te1 : TEntry := { index := 0, last := false, poison := false, bytes := zeros 64, forwarded := false, loaded := false }
def st1 : Stream := { ctx := 5, index := 0, cur := none, shadow := none, stopped := false, waited := 0, granted := 0 }
/-- Context 5 RUNNING on matrix tile 7 with grant 0 and stream 3, its descriptor `sd1` at byte 0; thread 7 with two members. -/
def yt : Ctx := { yy with grants := [(0, gr1)], streams := [3] }
def thr1 (h : Thread) (q : Stream) (g : Die → Die) : State :=
  { on0 (fun x => g { x with
      ctxs := [(5, yt)], threads := [(7, h)], streams := [(3, q)]
      occ := [(7, { Occ.reset with res := some 5 })]
      mtiles := [(7, { MTile.reset with mem := mwriteN [] 0 (le 64 sd1.toNat), slots := [(2, TSlot.bound 7)] }), (8, { MTile.reset with slots := [(1, TSlot.bound 7)] })] }) with
    models := [(0, mdl)], seqs := [(0, { sq0 with heldBy := some 4 })], disps := [(4, dsp1)] }
/-- Vector tile 2 of die 0, its resident context 5 and a READY context 6. -/
def tv : TAt := { die := 0, kind := .vector, tile := 2 }
def yv : Ctx := { ctx0 with st := .running, tile := some 2, streams := [3] }
def sw1 (o : Occ) (y : Ctx) (g : Die → Die) : State :=
  on0 (fun x => g { x with ctxs := [(5, y), (6, { ctx0 with st := .ready, cls := 1 })], streams := [(3, st1)], occ := [(66, o)]
                           vtiles := [(2, { VTile.reset with mem := [(7, 9), (5000, 3)] })] })
def oc1 : Occ := { Occ.reset with res := some 5 }
/-- Region 1 of die 0 CONFIGURED and running, with port 4 to 15 bound as `b` and port state `p`; ring 2 of 8 units holds one. -/
def b1 (k : Nat) : PortBind := { kind := k, ring := 2, knInc := 1, knot := 4048 }
def po1 : Port := { absent := false, calls := [], buf := [], ring := 2, panic := false, out := 0 }
def rg1 : Ring := { Ring.reset with wr := 1, data := [(0, 77)] }
def tp1 (port k : Nat) (p : Port) (g : Die → Die) : State :=
  w.setDie 0 (g ((({ x1 with rings := [(2, rg1)] }).setPreg 0x6040 { applied := 8, pend := none }).modFabric 1 fun f =>
    { f with st := .configured, halted := false, binds := [(port, b1 k)], ports := [(port, p)] }))
def cl1 : Call := { words := [5, 6], isDone := true, claimed := false, bind := b1 1 }
/-- A route of one entry (port `p`), then ends. -/
def rt1 (p : Nat) : BitVec 96 := BitVec.ofNat 96 (p * 8 + ((List.range 15).map fun e => 56 * 64 ^ (e + 1)).sum)
/-- East by one, then local port 4. -/
def rt2 : BitVec 96 := BitVec.ofNat 96 (8 + 4 * 8 * 64 + ((List.range 14).map fun e => 56 * 64 ^ (e + 2)).sum)
def np0 (t : BitVec 96) (dst : Nat) : NetPkt :=
  { hpar := 0, ptr := 0, txn := 3, lane := false, epoch := false, len := 1, opcode := 0x10, cls := 0, dst := BitVec.ofNat 11 dst, src := 32, turns := t,
    vc := 0, ctlOk := true }
def np1 (t : BitVec 96) (dst : Nat) : NetPkt := { np0 t dst with hpar := hparOf (np0 t dst) }
/-- Die 0 with packet `k` in router `rt`. -/
def net1 (rt : Nat) (k : NetPkt) (g : Die → Die) : State := on0 fun x => g { x with routers := [(rt, { inbox := [(4, k)], wakeBuf := [], discards := [] })] }
def if0 : Iface := { bank0 := [], bank1 := [], txns := [], inbox := [], outbox := [], ended := [] }
def reg0 : Region := (Die.reset .skz8).region 1
/-- A logic block of cells in shift mode on FCLKr, and inputs for it. -/
def ff0 (d : DSrc) : FfCfg := { d := d, en1 := false, rs1 := false, rsval := false, neg := false, init := false }
def cfg1 : BlockCfg :=
  { cells := List.replicate 8 { mode := .shift, chainIn := false, fa := ff0 .y, fb := ff0 .sum }, line := 0, sync := true, carryIn := .one }
def ins1 : BlockIn :=
  { addr := List.replicate 8 5, jk := List.replicate 8 (true, false), sel := 3, en0 := true, en1 := false, rs0 := false, rs1 := false }
def edge1 : EdgeIn := { blocks := [(9, ins1)], drives := [], pins := [], words := [], rx := none, tx := [] }
def mq1 : MReq := { who := .firmware, cls := 1, chan := 0, off := 64, slot := 1, sheet := none, wdata := none }
/-- A register value. -/
def pr (v : Nat) : PReg := { applied := BitVec.ofNat 32 v, pend := none }
/-- Die 0, port 1's link as `f`, FELT1_CTL `ctl`, package number 5, ring 2 of 8 units with binding `b`. -/
def fe1 (f : Felt) (ctl b : Nat) (r : Ring) : State :=
  on0 fun x => ((((({ x with felts := [(1, f)], rings := [(2, r)] }).setPreg 0x5120 (pr ctl)).setPreg 0x5000 (pr 0x105)).setPreg 0x6040 (pr 8)).setPreg 0x6050 (pr b))
def fl0 (st : LState) : Felt := { Felt.reset with st := st }
/-- A training frame: request 0, preset 2, ready, rates 7. -/
def tf0 : List Byte := le 4 0x544C4546 ++ [0, 0, 0, 0, 2, 1, 7, 3] ++ zeros 8 ++ [9, 4] ++ zeros 6
def tf1 : List Byte := tf0 ++ le 4 (crc32c tf0).toNat
/-- A data frame of one unit for ring 2 of die 0 of package 5, from ring 3 of package 9. -/
def ff1 : FFrame := { FFrame.blank 1 with units := 1, dPkg := 5, dRing := 2, sPkg := 9, sRing := 3 }
def ff4 : FFrame := { ff1 with lseq := 4 }
/-- Ring bindings: to ring 3 of die 0 of package 9, mode 1 or 2. -/
def bd (m : Nat) : Nat := m * 2 ^ 26 + 9 * 2 ^ 18 + 3 * 2 ^ 9
/-- A full image of one frame for region 1 of die 0 at 0x40000, named by the configuration directory at 0x10000. -/
def flashU (g n : Nat) : Memory :=
  [(0x10000, 67), (0x10001, 68), (0x10002, 73), (0x10003, 82), (0x1000A, 4), (0x40000, 83), (0x40001, 75), (0x40002, 73),
    (0x40003, 70), (0x40004, 1), (0x40006, 1), (0x40008, 7), (0x4000C, 2), (0x4001C, 192), (0x41D02, 128), (0x41D04, 1),
    (0x41D40, 165)] ++ wide 0x40034 48 g ++ four 0x41DFC n
def flash3 : Memory := flashU (Config.sha384 body1).toNat (crc32c (imgOf (frameHead 1) (body1 ++ zeros 60))).toNat
/-- A partial image at 0x100000. -/
def flashP (g n : Nat) : Memory :=
  [(0x100000, 83), (0x100001, 75), (0x100002, 73), (0x100003, 70), (0x100004, 1), (0x100006, 2), (0x100008, 7), (0x10000A, 1),
    (0x100016, 128), (0x10001A, 128), (0x10001C, 192), (0x101D02, 128), (0x101D04, 1), (0x101D40, 165)] ++
    wide 0x100034 48 g ++ four 0x101DFC n
def flash4 : Memory := flashP (Config.sha384 body1).toNat (crc32c (imgOf (frameHead 2) (body1 ++ zeros 60))).toNat
def flash2 : Memory := flashF dirA (Config.sha384 []).toNat (crc32c (imgOf fwHead (zeros 60))).toNat
def fac1 : BootFacts := { romOk := true, chk := chk1, trainFail := [(1, 5)], dieFail := [], lpddrBad := [2], unreached := [], temps := List.replicate 8 30, psiTemp := 30, flash := [] }
def rst1 : State := { State.reset with psi := { State.reset.psi with flash := flash2, signing := [(0, ky 0)] } }
def vt : VAt := { die := 0, tile := 2, err := 0, matrix := none }
/-- The fields that a word with opcode `op` may have set: some register numbers, a pointer where it accesses memory. -/
def wd (op : Nat) : VW :=
  let w : VW :=
    { m := false, vd := 4, va := 5, vb := 6, acc := 1, x5 := if op = 0x12 ∨ op = 0x13 then 8 else 0, ovf := false, p0 := 1, u0 := 0
      p1 := 2, u1 := 0, lend := 0, imm13 := 0, lvl := 0, imm16 := if op = 5 ∨ op = 6 then 4048 else if op = 2 then 0 else 7 }
  match vrow op with
  | none => w
  | some r =>
    { w with
      vd := if r.useVd then 4 else 0
      va := if r.useA then 5 else 0
      vb := if r.useB then 6 else 0
      acc := if r.useAcc then 1 else 0
      imm16 := if r.useImm then w.imm16 else 0
      p0 := if (vacc0 op w).isSome then 1 else 0
      p1 := if (vacc1 op w).isSome then 2 else 0 }
/-- Context 5 runs on vector tile 2 of die 0 and its next word is `w0`; register 4 holds `x`, pointer 1 stands at byte 256 + `p`,
pointer 2 at byte 64; the descriptor `sd1` lies at byte 256. -/
def vs (op : Nat) (w0 : VW) (x p : Nat) (y : Ctx) : State :=
  { on0 (fun d => { d with
      ctxs := [(5, y)], streams := [(3, st1)], occ := [(66, { Occ.reset with res := some 5 })]
      knots := [(4048, { kn1 with value := 5 })], knotNet := []
      vtiles := [(2, { VTile.reset with
        mem := mwriteN [] 256 (le 64 sd1.toNat)
        core := { VTile.reset.core with
          v := [(4, BitVec.ofNat 2048 x)], next := 1
          ptr := [(1, { base := 256, len := 0, pend := none, stride := 0, p := p }),
            (2, { base := 64, len := 0, pend := none, stride := 0, p := 0 })] } })] }) with
    models := [(0, { mdl with bundle := some { bun with templates := [{ tmpl0 with words := [0, vwordOf op w0, 0] }] } })] }

/-- The state that an outcome answers, `s` where it answers none. -/
def nextOr (o : Out) (s : State) : State :=
  match o with
  | .next t => t
  | _ => s

/-- The outcome is a next state with a property. -/
def okWith (o : Out) (p : State → Bool) : Bool :=
  match o with
  | .next t => p t
  | _ => false

theorem next_eq {o : Out} {s : State} (h : okWith o (fun _ => true) = true) : o = .next (nextOr o s) := by
  cases o <;> simp_all [okWith, nextOr]

/-- The setting of a reply, decided. -/
theorem onq {s : State} {p : Pkt} (h : (s.running && p.queue != mboxQueue && (s.queue p.queue).st != .disabled &&
    !(s.orphaned p) && !p.quiet) = true) : OnQueue s p := by
  simp only [Bool.and_eq_true, bne_iff_ne, Bool.not_eq_true'] at h
  obtain ⟨⟨⟨⟨a, b⟩, c⟩, d⟩, e⟩ := h
  exact ⟨a, b, c, d, e⟩

theorem tget_all {α : Type} {P : α → Prop} {t : Tbl α} {d : α} (hd : P d) (h : ∀ e ∈ t, P e.2) (k : Nat) : P (tget t k d) := by
  induction t with
  | nil => exact hd
  | cons c r ih =>
    unfold tget tfind
    split
    · exact h c (by simp)
    · exact ih fun e he => h e (by simp [he])

/-- `Apart`, decided. -/
def apartB (p q : Pkt) : Bool := q.queue != p.queue || q.seq != p.seq

theorem apart {p q : Pkt} (h : apartB p q = true) : Apart p q := by simpa [apartB, Apart] using h

/-- That no packet under way can be confused with `p`, decided. -/
theorem alone {s : State} {p : Pkt} (h : (s.dies.all fun d =>
    (d.2.knots.all fun k => k.2.hosts.all fun w => apartB p w.1) &&
      d.2.fabrics.all fun f => f.2.session.all (fun q => apartB p q.pkt) && f.2.acts.all (fun k => apartB p k.pkt) &&
        f.2.copying.all fun k => apartB p k.pkt) = true) : Alone s p := by
  simp only [List.all_eq_true, Bool.and_eq_true, Option.all_eq_true_iff_get] at h
  have hk : ∀ d k, ∀ w ∈ ((s.die d).knot k).hosts, Apart p w.1 := fun d k =>
    tget_all (P := fun k : Knot => ∀ w ∈ k.hosts, Apart p w.1) (by simp [Knot.reset])
      (tget_all (P := fun x : Die => ∀ e ∈ x.knots, ∀ w ∈ e.2.hosts, Apart p w.1) (by simp [Die.reset])
        (fun e he k hk w hw => apart ((h e he).1 k hk w hw)) d) k
  have hf : ∀ d r, (∀ q, ((s.die d).fabric r).session = some q → Apart p q.pkt) ∧ (∀ k ∈ ((s.die d).fabric r).acts, Apart p k.pkt) ∧
      ∀ k, ((s.die d).fabric r).copying = some k → Apart p k.pkt := fun d r =>
    tget_all (P := fun f : Fabric => (∀ q, f.session = some q → Apart p q.pkt) ∧ (∀ k ∈ f.acts, Apart p k.pkt) ∧
        ∀ k, f.copying = some k → Apart p k.pkt) (by simp [Fabric.reset])
      (tget_all (P := fun x : Die => ∀ e ∈ x.fabrics, (∀ q, e.2.session = some q → Apart p q.pkt) ∧
          (∀ k ∈ e.2.acts, Apart p k.pkt) ∧ ∀ k, e.2.copying = some k → Apart p k.pkt) (by simp [Die.reset])
        (fun e he f hf => by
          have g := (h e he).2 f hf
          refine ⟨fun q hq => ?_, fun k hk => apart (g.1.2 k hk), fun k hk => ?_⟩
          · exact apart (by simpa [hq] using g.1.1)
          · exact apart (by simpa [hk] using g.2)) d) r
  exact ⟨hk, fun d r => (hf d r).1, fun d r => (hf d r).2.1, fun d r => (hf d r).2.2⟩

/-- The setting of a word, decided. -/
theorem wruns {s : State} {op : Nat} {t : VAt} {w : VW} (h : (s.vUnits t && s.vReady op t w && t.err == 0 &&
    match (s.vctx t).2 with
    | some y => (s.vcore t).stop y.tenant y.declared op w == none
    | none => true) = true) : WordRuns s op t w := by
  simp only [Bool.and_eq_true, beq_iff_eq] at h
  obtain ⟨⟨⟨a, b⟩, c⟩, d⟩ := h
  refine ⟨a, b, c, fun y hy => ?_⟩
  simpa [hy] using d

/-! ## Images in flash: their bytes, and their check values without long lists in the kernel -/

/-- CRC-32C's register after a list, each byte's value forced before the next. -/
def crcRun : Nat → List Byte → Nat
  | c, [] => c
  | 0, b :: l => crcRun (crcByte 0 b) l
  | n + 1, b :: l => crcRun (crcByte (n + 1) b) l

theorem crcRun_eq (l : List Byte) : ∀ c, crcRun c l = l.foldl crcByte c := by
  induction l with
  | nil => intro c; cases c <;> rfl
  | cons b r ih => intro c; cases c <;> exact ih _

theorem crc_run (l : List Byte) : crc32c l = BitVec.ofNat 32 (Nat.xor (crcRun 0xFFFFFFFF l) 0xFFFFFFFF) := by
  rw [crcRun_eq]; rfl

theorem mreadN_add (m : Memory) (k : Nat) : ∀ n a, mreadN m a (n + k) = mreadN m a n ++ mreadN m (a + n) k := by
  intro n
  induction n with
  | zero => intro a; simp [mreadN]
  | succ n ih =>
    intro a
    have h : a + 1 + n = a + (n + 1) := by omega
    rw [Nat.succ_add, mreadN, ih, mreadN, List.cons_append, h]

theorem mreadN_length (m : Memory) : ∀ n a, (mreadN m a n).length = n := by
  intro n
  induction n with
  | zero => intro a; rfl
  | succ n ih => intro a; simp [mreadN, ih]

theorem mreadN_take (m : Memory) (n k a : Nat) : mreadN m a n = (mreadN m a (n + k)).take n := by
  rw [mreadN_add, List.take_left' (mreadN_length m n a)]

theorem mread_quiet (m : Memory) (a : Nat) (h : ∀ c ∈ m, c.1 ≠ a) : mread m a = 0 := by
  have : tfind m a = none := by
    induction m with
    | nil => rfl
    | cons c r ih =>
      have h1 := h c (by simp)
      simp only [tfind]
      split
      · omega
      · exact ih fun d hd => h d (by simp [hd])
  simp [mread, tget, this, memDefault]

/-- Addresses that memory does not list read as zeros. -/
theorem mreadN_quiet (m : Memory) : ∀ n a, (m.all fun c => decide (c.1 < a) || decide (a + n ≤ c.1)) = true → mreadN m a n = zeros n := by
  intro n
  induction n with
  | zero => intro a _; rfl
  | succ n ih =>
    intro a h
    simp only [List.all_eq_true, Bool.or_eq_true, decide_eq_true_eq] at h
    rw [mreadN, mread_quiet m a (fun c hc => by have := h c hc; omega), ih (a + 1)]
    · rfl
    · simp only [List.all_eq_true, Bool.or_eq_true, decide_eq_true_eq]
      intro c hc; have := h c hc; omega

/-- An image read in three parts, the middle one unlisted. -/
theorem mreadN_parts {m : Memory} {a n k j : Nat} {x z : List Byte} (hx : mreadN m a n = x)
    (hy : (m.all fun c => decide (c.1 < a + n) || decide (a + n + k ≤ c.1)) = true) (hz : mreadN m (a + n + k) j = z) :
    mreadN m a (n + k + j) = x ++ zeros k ++ z := by
  rw [mreadN_add, mreadN_add, hx, ← Nat.add_assoc, hz, mreadN_quiet _ _ _ hy]

theorem zeros_length (n : Nat) : (zeros n).length = n := List.length_replicate

theorem zeros_add (n k : Nat) : zeros (n + k) = zeros n ++ zeros k := by simp [zeros]

theorem imgOf_length {h t : List Byte} (hh : h.length = 100) : (imgOf h t).length = 7424 + t.length := by
  simp only [imgOf, List.length_append, zeros_length, hh]; omega

theorem imgOf_take {h t : List Byte} (hh : h.length = 100) : (imgOf h t).take 2048 = h ++ zeros 1948 := by
  rw [imgOf, show zeros 7324 = zeros 1948 ++ zeros 5376 from zeros_add 1948 5376, List.append_assoc, ← List.append_assoc]
  exact List.take_left' (by rw [List.length_append, zeros_length, hh])

theorem imgOf_drop {h t : List Byte} (hh : h.length = 100) (n : Nat) : (imgOf h t).drop (7424 + n) = t.drop n := by
  rw [imgOf, ← List.append_assoc, ← List.drop_drop]
  exact congrArg _ (List.drop_left' (by rw [List.length_append, zeros_length, hh]))

theorem imgOf_append (h t z : List Byte) : imgOf h (t ++ z) = imgOf h t ++ z := by
  simp only [imgOf, List.append_assoc]

theorem leNat_crcOf (x : List Byte) : leNat (crcOf x) = (crc32c x).toNat := by
  have := (crc32c x).isLt
  simp only [crcOf, le, leNat, BitVec.toNat_ofNat]
  omega

theorem leNat_le : ∀ n x, leNat (le n x) = x % 256 ^ n := by
  intro n
  induction n with
  | zero => intro x; simp [le, leNat, Nat.mod_one]
  | succ n ih =>
    intro x
    have e : x % 256 ^ (n + 1) = x % 256 + 256 * (x / 256 % 256 ^ n) := by rw [Nat.pow_succ', Nat.mod_mul]
    rw [le, leNat, ih, BitVec.toNat_ofNat, e]

theorem le_length : ∀ n x, (le n x).length = n := by
  intro n
  induction n with
  | zero => intro x; rfl
  | succ n ih => intro x; rw [le, List.length_cons, ih]

theorem leNat_digOf (b : List Byte) : leNat (digOf b) = (Config.sha384 b).toNat := by
  rw [digOf, leNat_le, show (256 : Nat) ^ 48 = 2 ^ 384 from Nat.pow_mul' 2 8 48 ▸ rfl]
  exact Nat.mod_eq_of_lt (Config.sha384 b).isLt

/-- The digest that a header of 52 bytes and a digest holds. -/
theorem fieldAt_dig {h t : List Byte} (b : List Byte) (hh : h.length = 52) : fieldAt (h ++ digOf b ++ t) 52 48 = (Config.sha384 b).toNat := by
  have l : (digOf b).length = 48 := le_length 48 _
  rw [fieldAt, List.append_assoc, List.drop_left' hh, List.take_left' l, leNat_digOf]

/-- The keys of a signature block of zeros are those of any entry of the tests. -/
theorem keys_zero (u : Nat) (n : Nat) (hn : 5357 ≤ n) : sigKeysOk [ky u] (zeros n) = true := by
  have a : (zeros n).take 32 = zeros 32 := by simp only [zeros, List.take_replicate]; congr 1; omega
  have b : ((zeros n).drop 96).take 1952 = zeros 1952 := by
    simp only [zeros, List.drop_replicate, List.take_replicate]; congr 1; omega
  simp only [sigKeysOk, List.any_cons, a, b, ky, BEq.rfl, Bool.and_self, Bool.true_or]

/-- The checks of a signature block of zeros against the keys of the tests. -/
theorem step2_zero {u least : Nat} {h : List Byte} {chk : ImgChk} (hl : ¬fieldAt h 116 4 < least) :
    imgStep2 [ky u] least h (zeros 5376) chk =
      if !chk.edOk then some .sigClassicFail else if !chk.pqOk then some .sigPqFail else none := by
  have z : zeroAt (zeros 5376) 5357 19 = true := by
    simp only [zeroAt, zeros, List.drop_replicate, List.take_replicate]; rfl
  simp only [imgStep2, z, keys_zero u 5376 (by decide), hl, Bool.not_true, Bool.false_or, decide_false, Bool.false_eq_true, if_false]

/-- The checks after the last byte of a plain image whose check value is right. -/
theorem imgEnd_crc {hd x b : List Byte} {k : Option (BitVec 256)} (he : imgEncrypted hd = false)
    (hb : ((x ++ crcOf x).drop 7424).take (imgBodyLen hd) = b) :
    imgEnd hd (zeros 60 ++ crcOf x) (x ++ crcOf x) k =
      if fieldAt hd 52 48 = (Config.sha384 b).toNat then none else some .authFail := by
  have h0 : (crcOf x).length = 4 := rfl
  have h1 : (x ++ crcOf x).take ((x ++ crcOf x).length - 4) = x := by
    rw [List.length_append, h0, Nat.add_sub_cancel]; simp
  have h2 : fieldAt (zeros 60 ++ crcOf x) 60 4 = (crc32c x).toNat := by
    rw [fieldAt, List.drop_left' (zeros_length 60), List.take_of_length_le (Nat.le_of_eq h0), leNat_crcOf]
  have h3 : zeroAt (zeros 60 ++ crcOf x) 16 44 = true := rfl
  have h4 : zeroAt (zeros 60 ++ crcOf x) 0 16 = true := rfl
  simp only [imgEnd, h1, h2, h3, h4, he, hb]
  by_cases e : fieldAt hd 52 48 = (Config.sha384 b).toNat <;> simp [e]

/-- The image read back from flash, where it lies from `a` on: header, a part of `n` bytes from the body on, and the rest. -/
theorem img_read {m : Memory} {a n k : Nat} {h b z : List Byte} (hx : mreadN m a 100 = h)
    (hy : (m.all fun c => decide (c.1 < a + 100) || decide (a + 100 + 7324 ≤ c.1)) = true) (hb : mreadN m (a + 7424) n = b)
    (hq : (m.all fun c => decide (c.1 < a + 7424 + n) || decide (a + 7424 + n + k ≤ c.1)) = true)
    (hz : mreadN m (a + 7424 + n + k) 4 = z) : mreadN m a (7424 + (n + k + 4)) = imgOf h (b ++ zeros k ++ z) := by
  have h1 := mreadN_parts hb hq hz
  have h2 := mreadN_parts (n := 100) (k := 7324) hx hy h1
  rw [imgOf, ← List.append_assoc, ← h2]

/-- The signature block of an image in flash that lists nothing there. -/
theorem blk_zero {m : Memory} {a : Nat} (hy : (m.all fun c => decide (c.1 < a + 100) || decide (a + 100 + 7324 ≤ c.1)) = true) :
    mreadN m (a + 2048) 5376 = zeros 5376 :=
  mreadN_quiet _ _ _ (by
    simp only [List.all_eq_true, Bool.or_eq_true, decide_eq_true_eq] at hy ⊢
    intro c hc; have := hy c hc; omega)

theorem fw_good {s : State} {a u : Nat} {chk : ImgChk} (hp : s.part.variant = .skz8) (ha : a + 7488 ≤ 2 ^ 32) (hm : s.psi.fwMin = 0)
    (hk : tfind s.psi.signing 0 = some (ky u)) (hx : mreadN s.psi.flash a 100 = fwHead)
    (hy : (s.psi.flash.all fun c => decide (c.1 < a + 100) || decide (a + 100 + 7324 ≤ c.1)) = true)
    (hq : (s.psi.flash.all fun c => decide (c.1 < a + 7424 + 0) || decide (a + 7424 + 0 + 60 ≤ c.1)) = true)
    (hz : mreadN s.psi.flash (a + 7424 + 0 + 60) 4 = fwEnd) :
    s.fwCheck a chk = if !chk.edOk then some .sigClassicFail else if !chk.pqOk then some .sigPqFail else none := by
  have hr : mreadN s.psi.flash a 7488 = imgOf fwHead (zeros 60 ++ fwEnd) := by
    have := img_read (n := 0) (b := []) hx hy rfl hq hz
    simpa only [List.nil_append] using this
  have hh : mreadN s.psi.flash a 2048 = fwHead ++ zeros 1948 := by
    rw [mreadN_take s.psi.flash 2048 5440 a, hr, imgOf_take rfl]
  have f1 : fwHeaderOk .skz8 (fwHead ++ zeros 1948) = true := by decide +kernel
  have f2 : imgBodyLen (fwHead ++ zeros 1948) = 0 := by decide +kernel
  have f3 : ¬fieldAt (fwHead ++ zeros 1948) 116 4 < 0 := Nat.not_lt_zero _
  have f6 : imgEncrypted (fwHead ++ zeros 1948) = false := by decide +kernel
  have f7 : ¬2 ^ 32 < a + 7488 := by omega
  have f8 : fieldAt (fwHead ++ zeros 1948) 52 48 = (Config.sha384 []).toNat :=
    fieldAt_dig (h := le 4 0x57464B53 ++ le 2 1 ++ [3, 0, 7] ++ zeros 43) [] rfl
  have e : ∀ k, imgEnd (fwHead ++ zeros 1948) (zeros 60 ++ fwEnd) (imgOf fwHead (zeros 60 ++ fwEnd)) k = none := fun k => by
    rw [imgOf_append, fwEnd, imgEnd_crc f6 (b := []) (by rw [f2, List.take_zero]), if_pos f8]
  have d := imgOf_drop (h := fwHead) (t := zeros 60 ++ fwEnd) rfl 0
  simp only [Nat.add_zero, List.drop_zero] at d
  simp only [State.fwCheck, hh, hp, hm, hk, f1, f2, Option.toList, blk_zero hy, step2_zero f3, Nat.add_zero, Bool.not_true,
    Bool.false_or, decide_eq_true_eq, f7, if_false, hr, d, e]
  cases chk.edOk <;> cases chk.pqOk <;> rfl

/-- An image whose command names no design has one that every region can take. -/
theorem designs_none {h : List Byte} {t : Tbl (BitVec 1024)} {chk : ImgChk} (hg : chk.designs = []) : designsOk h t chk = true := by
  simp [designsOk, chkDesign, hg, designOk]

/-- The full image is read as one frame, or refused for a signature. -/
theorem full_good {s : State} {a u : Nat} {chk : ImgChk} (hx : mreadN s.psi.flash a 100 = frameHead 1)
    (hy : (s.psi.flash.all fun c => decide (c.1 < a + 100) || decide (a + 100 + 7324 ≤ c.1)) = true)
    (hb : mreadN s.psi.flash (a + 7424) 65 = frameBody)
    (hq : (s.psi.flash.all fun c => decide (c.1 < a + 7424 + 65) || decide (a + 7424 + 65 + 187 ≤ c.1)) = true)
    (hz : mreadN s.psi.flash (a + 7424 + 65 + 187) 4 = fullEnd) (hm : s.psi.cfgMin = 0) (ha : a + 7680 ≤ 2 ^ 32)
    (hf : s.fullOk (frameHead 1 ++ zeros 1948) = true) (hk : s.psi.imgKeys = [ky u]) (hi : chk.illegal = []) (hg : chk.designs = []) :
    s.readFull a chk =
      if !chk.edOk then .inl (.sigClassicFail, 0) else if !chk.pqOk then .inl (.sigPqFail, 0) else .inr ([(8388608, 165)], []) := by
  have hr : mreadN s.psi.flash a 7680 = imgOf (frameHead 1) (body1 ++ (zeros 60 ++ fullEnd)) := by
    have := img_read hx hy hb hq hz
    rw [show (187 : Nat) = 127 + 60 from rfl, zeros_add] at this
    simpa only [body1, List.append_assoc] using this
  have hh : mreadN s.psi.flash a 2048 = frameHead 1 ++ zeros 1948 := by
    rw [mreadN_take s.psi.flash 2048 5632 a, hr, imgOf_take rfl]
  have f2 : imgBodyLen (frameHead 1 ++ zeros 1948) = 192 := by decide +kernel
  have f3 : ¬fieldAt (frameHead 1 ++ zeros 1948) 116 4 < 0 := Nat.not_lt_zero _
  have f6 : imgEncrypted (frameHead 1 ++ zeros 1948) = false := by decide +kernel
  have f7 : ¬2 ^ 32 < a + 7488 + 192 := by omega
  have f5 : fieldAt (frameHead 1 ++ zeros 1948) 52 48 = (Config.sha384 body1).toNat := fieldAt_dig (h := frameLead 1) body1 rfl
  have d0 := imgOf_drop (h := frameHead 1) (t := body1 ++ (zeros 60 ++ fullEnd)) rfl 0
  have d1 : (imgOf (frameHead 1) (body1 ++ (zeros 60 ++ fullEnd))).drop 7616 = zeros 60 ++ fullEnd :=
    (imgOf_drop (h := frameHead 1) rfl 192).trans (List.drop_left' (by decide +kernel))
  have d2 : (body1 ++ (zeros 60 ++ fullEnd)).take 192 = body1 := List.take_left' (by decide +kernel)
  have f8 : eatBody (inRegions (frameHead 1 ++ zeros 1948)) true [] 192 (192 / 64 + 1) body1
      { used := 0, run := none, frames := [], bad := [], ended := none } =
      { used := 192, run := none, frames := [(8388608, 165)], bad := [], ended := none } := by decide +kernel
  simp only [Nat.add_zero, List.drop_zero] at d0
  have f9 : ∀ k, imgEnd (frameHead 1 ++ zeros 1948) (zeros 60 ++ fullEnd) (imgOf (frameHead 1) (body1 ++ (zeros 60 ++ fullEnd))) k
      = none := fun k => by
    have d3 : ((imgOf (frameHead 1) (body1 ++ zeros 60) ++ fullEnd).drop 7424).take 192 = body1 := by
      rw [← imgOf_append, List.append_assoc, d0, d2]
    rw [← List.append_assoc, imgOf_append, fullEnd]
    rw [imgEnd_crc f6 (b := body1) (by rw [f2]; exact d3), if_pos f5]
  simp only [State.readFull, hh, hf, f2, hm, hk, blk_zero hy, step2_zero f3, Bool.not_true, Bool.false_or, decide_eq_true_eq, f7, if_false]
  cases chk.edOk <;> cases chk.pqOk <;>
    simp [hr, imgBody, f6, hi, d0, d1, d2, f8, f9, designs_none hg]

/-- The end of the partial image, given in two parts. -/
theorem part_end (k : Option (BitVec 256)) :
    imgEnd ((head1 ++ (body1 ++ (zeros 60 ++ partEnd))).take 2048)
      ((head1 ++ (body1 ++ (zeros 60 ++ partEnd))).drop (7424 + imgBodyLen ((head1 ++ (body1 ++ (zeros 60 ++ partEnd))).take 2048)))
      (head1 ++ (body1 ++ (zeros 60 ++ partEnd))) k = none := by
  have e : head1 ++ (body1 ++ (zeros 60 ++ partEnd)) = imgOf (frameHead 2) (body1 ++ (zeros 60 ++ partEnd)) := by
    rw [imgOf, ← List.append_assoc (frameHead 2)]; rfl
  have f2 : imgBodyLen (frameHead 2 ++ zeros 1948) = 192 := by decide +kernel
  have f5 : fieldAt (frameHead 2 ++ zeros 1948) 52 48 = (Config.sha384 body1).toNat := fieldAt_dig (h := frameLead 2) body1 rfl
  have f6 : imgEncrypted (frameHead 2 ++ zeros 1948) = false := by decide +kernel
  have d1 : (imgOf (frameHead 2) (body1 ++ (zeros 60 ++ partEnd))).drop (7424 + 192) = zeros 60 ++ partEnd :=
    (imgOf_drop (h := frameHead 2) rfl 192).trans (List.drop_left' (by decide +kernel))
  have d0 := imgOf_drop (h := frameHead 2) (t := body1 ++ (zeros 60 ++ partEnd)) rfl 0
  simp only [Nat.add_zero, List.drop_zero] at d0
  have d3 : ((imgOf (frameHead 2) (body1 ++ zeros 60) ++ partEnd).drop 7424).take 192 = body1 := by
    rw [← imgOf_append, List.append_assoc, d0]; exact List.take_left' (by decide +kernel)
  rw [e, imgOf_take rfl, f2, d1, ← List.append_assoc, imgOf_append, partEnd]
  rw [imgEnd_crc f6 (b := body1) (by rw [f2]; exact d3), if_pos f5]

theorem tok1_length : tok1.bytes.length = 5440 := by
  simp only [tok1, List.length_append, zeros_length, le_length]; rfl

/-- The body of the token of the tests is in order, and its keys are those of entry 3. -/
theorem tok1_body {s : State} (hs : s.part = w.part) : s.tokenBody tok1.bytes = true := by
  have h1 : fieldAt tok1.bytes 8 8 = w.part.ident.toNat := by
    rw [tok1, List.append_assoc, fieldAt, List.append_assoc, List.drop_left' (by rw [List.length_append, le_length]; rfl),
      List.take_left' (le_length 8 _), leNat_le]
    exact Nat.mod_eq_of_lt w.part.ident.isLt
  have h2 : zeroAt tok1.bytes 5421 19 = true := by decide +kernel
  have h3 : (decide (fieldAt tok1.bytes 0 4 = 0x54474244) && decide (fieldAt tok1.bytes 4 1 < 2) && zeroAt tok1.bytes 6 2 &&
    zeroAt tok1.bytes 32 32) = true := by decide +kernel
  simp only [Bool.and_eq_true, decide_eq_true_eq] at h3
  simp [State.tokenBody, tok1_length, h1, h2, h3, hs]

theorem tok1_keys : sigKeysOk [ky 2] (tok1.bytes.drop 64) = true := by
  have e : tok1.bytes.drop 64 = zeros 5376 := by
    rw [tok1, show zeros 5408 = zeros 32 ++ zeros 5376 from zeros_add 32 5376, ← List.append_assoc]
    exact List.drop_left' (by simp only [List.length_append, zeros_length, le_length]; rfl)
  rw [e]; exact keys_zero 2 5376 (by decide)

/-- What the token of the tests comes to with a nonce. -/
theorem tok1_ok {s : State} (hs : s.part = w.part) (hf : s.psi.dbg.failed < 8) (hn : s.psi.dbg.nonce = some 77)
    (hk : s.psi.dbgKeys = [ky 2]) : s.tokenBad tok1 = none := by
  have h1 : fieldAt tok1.bytes 16 16 = 77 := by decide +kernel
  simp [State.tokenBad, tok1_body hs, hn, h1, hk, tok1_keys, Nat.not_le.2 hf]
  rfl

/-- And without one. -/
theorem tok1_fail {s : State} (hn : s.psi.dbg.nonce = none) : s.tokenBad tok1 = some .authFail := by
  simp [State.tokenBad, hn]

theorem head1_length : head1.length = 7424 := by rw [head1, List.length_append, zeros_length]; rfl

/-- The firmware's checks on the flash of the tests. -/
theorem fw_flash {s : State} {a u : Nat} {chk : ImgChk} {dir : Memory} (e : a = 0x20000) (hd : dir = dirA ∨ dir = dirB)
    (hf : s.psi.flash = flashF dir (Config.sha384 []).toNat (crc32c (imgOf fwHead (zeros 60))).toNat) (hp : s.part.variant = .skz8)
    (hm : s.psi.fwMin = 0) (hk : tfind s.psi.signing 0 = some (ky u)) :
    s.fwCheck a chk = if !chk.edOk then some .sigClassicFail else if !chk.pqOk then some .sigPqFail else none := by
  subst e
  have h1 : ∀ g n, mreadN (flashF dir g n) 0x20000 100 = le 4 0x57464B53 ++ le 2 1 ++ [3, 0, 7] ++ zeros 43 ++ le 48 g := by
    rcases hd with rfl | rfl <;> exact fun _ _ => rfl
  have h2 : ∀ g n, ((flashF dir g n).all fun c => decide (c.1 < 0x20000 + 100) || decide (0x20000 + 100 + 7324 ≤ c.1)) = true := by
    rcases hd with rfl | rfl <;> exact fun _ _ => rfl
  have h3 : ∀ g n, ((flashF dir g n).all fun c => decide (c.1 < 0x20000 + 7424 + 0) || decide (0x20000 + 7424 + 0 + 60 ≤ c.1)) =
      true := by rcases hd with rfl | rfl <;> exact fun _ _ => rfl
  have h4 : ∀ g n, mreadN (flashF dir g n) (0x20000 + 7424 + 0 + 60) 4 = le 4 n := by
    rcases hd with rfl | rfl <;> exact fun _ _ => rfl
  refine fw_good hp (by decide) hm hk ?_ ?_ ?_ ?_ <;> rw [hf]
  · exact h1 _ _
  · exact h2 _ _
  · exact h3 _ _
  · exact h4 _ _

/-- The full image on the flash of the tests. -/
theorem full_flash {s : State} {a u : Nat} {chk : ImgChk} (e : a = 0x40000) (hf : s.psi.flash = flash3) (hm : s.psi.cfgMin = 0)
    (hu : s.fullOk (frameHead 1 ++ zeros 1948) = true) (hk : s.psi.imgKeys = [ky u]) (hi : chk.illegal = []) (hg : chk.designs = []) :
    s.readFull a chk =
      if !chk.edOk then .inl (.sigClassicFail, 0) else if !chk.pqOk then .inl (.sigPqFail, 0) else .inr ([(8388608, 165)], []) := by
  subst e
  have h1 : ∀ g n, mreadN (flashU g n) 0x40000 100 = frameLead 1 ++ le 48 g := fun _ _ => rfl
  have h2 : ∀ g n, ((flashU g n).all fun c => decide (c.1 < 0x40000 + 100) || decide (0x40000 + 100 + 7324 ≤ c.1)) = true :=
    fun _ _ => rfl
  have h3 : ∀ g n, mreadN (flashU g n) (0x40000 + 7424) 65 = frameBody := fun _ _ => rfl
  have h4 : ∀ g n, ((flashU g n).all fun c => decide (c.1 < 0x40000 + 7424 + 65) || decide (0x40000 + 7424 + 65 + 187 ≤ c.1)) =
      true := fun _ _ => rfl
  have h5 : ∀ g n, mreadN (flashU g n) (0x40000 + 7424 + 65 + 187) 4 = le 4 n := fun _ _ => rfl
  refine full_good ?_ ?_ ?_ ?_ ?_ hm (by decide) hu hk hi hg <;> rw [hf]
  · exact h1 _ _
  · exact h2 _ _
  · exact h3 _ _
  · exact h4 _ _
  · exact h5 _ _

/-- The partial image on the flash of the tests. -/
theorem part_flash {m : Memory} (hf : m = flash4) : mreadN m 0x100000 7680 = head1 ++ (body1 ++ (zeros 60 ++ partEnd)) := by
  have h1 : ∀ g n, mreadN (flashP g n) 0x100000 100 = frameLead 2 ++ le 48 g := fun _ _ => rfl
  have h2 : ∀ g n, ((flashP g n).all fun c => decide (c.1 < 0x100000 + 100) || decide (0x100000 + 100 + 7324 ≤ c.1)) = true :=
    fun _ _ => rfl
  have h3 : ∀ g n, mreadN (flashP g n) (0x100000 + 7424) 65 = frameBody := fun _ _ => rfl
  have h4 : ∀ g n, ((flashP g n).all fun c => decide (c.1 < 0x100000 + 7424 + 65) || decide (0x100000 + 7424 + 65 + 187 ≤ c.1)) =
      true := fun _ _ => rfl
  have h5 : ∀ g n, mreadN (flashP g n) (0x100000 + 7424 + 65 + 187) 4 = le 4 n := fun _ _ => rfl
  subst hf
  have := img_read (h1 _ _) (h2 _ _) (h3 _ _) (h4 _ _)
    (h5 (Config.sha384 body1).toNat (crc32c (imgOf (frameHead 2) (body1 ++ zeros 60))).toNat)
  rw [show (187 : Nat) = 127 + 60 from rfl, zeros_add] at this
  refine this.trans ?_
  simp only [imgOf, head1, body1, List.append_assoc, frameHead, digOf]; rfl

theorem part_length : (head1 ++ (body1 ++ (zeros 60 ++ partEnd))).length = 7680 := by
  have h1 : body1.length = 192 := by decide +kernel
  have h2 : partEnd.length = 4 := rfl
  rw [List.length_append, head1_length, List.length_append, List.length_append, zeros_length, h1, h2]

theorem part_bytes : head1 ++ (body1 ++ (zeros 60 ++ partEnd)) =
    mreadN flash4 0x100000 (7488 + leNat (mreadN flash4 (0x100000 + 28) 8)) := by
  have h : ∀ g n, mreadN (flashP g n) (0x100000 + 28) 8 = le 8 192 := fun _ _ => rfl
  have e : leNat (mreadN flash4 (0x100000 + 28) 8) = 192 := by
    rw [flash4, h]; decide
  rw [e]
  exact (part_flash rfl).symm

theorem head1_take (t : List Byte) : (head1 ++ t).take 2048 = frameHead 2 ++ zeros 1948 := by
  rw [show head1 ++ t = imgOf (frameHead 2) t by rw [imgOf, ← List.append_assoc]; rfl, imgOf_take rfl]

theorem fieldAt_zeros {h : List Byte} (hh : h.length = 100) (k i n : Nat) (hi : 100 ≤ i) : fieldAt (h ++ zeros k) i n = 0 := by
  obtain ⟨j, rfl⟩ : ∃ j, i = h.length + j := ⟨i - 100, by omega⟩
  have z : ∀ m, leNat (List.replicate m 0) = 0 := by
    intro m; induction m with
    | zero => rfl
    | succ m ih => rw [List.replicate_succ, leNat, ih]; rfl
  rw [fieldAt, List.drop_append, zeros, List.drop_replicate, List.drop_eq_nil_of_le (by omega), List.nil_append, List.take_replicate, z]

/-- A header without a table of isolation codes passes (R273). -/
theorem iso_none (r : Nat) : isoOk r (frameHead 2 ++ zeros 1948) = true := by
  have h0 : ∀ i n, isoCode (frameHead 2 ++ zeros 1948) i n = 0 := by
    intro i n
    rw [isoCode, fieldAt_zeros rfl _ _ _ (by omega)]
    simp [bitsOf]
  have h1 : ∀ i has, i = 0 ∨ i = 256 ∨ i = 512 → isoPartOk (frameHead 2 ++ zeros 1948) i has = true := by
    intro i has hi
    unfold isoPartOk
    cases has
    · rcases hi with rfl | rfl | rfl <;> decide +kernel
    · simp [h0]
  simp only [isoOk, h1 _ _ (.inl rfl), h1 _ _ (.inr (.inl rfl)), h1 _ _ (.inr (.inr rfl)), Bool.and_self]

/-- Step 3 of Table 11-10 on the partial image. -/
theorem step3_ok {x : Die} {d r tenant : Nat} (hp : x.portsOk r tenant ((frameHead 2 ++ zeros 1948).drop 256) = true)
    (ht : (decide (tenant = (x.fabric r).tenant) || wholeWindow d r (frameHead 2 ++ zeros 1948)) = true) :
    x.imgStep3 d r tenant (frameHead 2 ++ zeros 1948) = true := by
  simp only [Die.imgStep3, hp, iso_none, ht, Bool.and_self]

theorem head1_take_self : head1.take 2048 = frameHead 2 ++ zeros 1948 := by
  rw [← head1_take [], List.append_nil]

/-- The signature block of the partial image. -/
theorem head1_blk (t : List Byte) : ((head1 ++ t).drop 2048).take 5376 = zeros 5376 := by
  have e : head1 ++ t = (frameHead 2 ++ zeros 1948) ++ (zeros 5376 ++ t) := by
    rw [head1, show zeros 7324 = zeros 1948 ++ zeros 5376 from zeros_add 1948 5376]; simp only [List.append_assoc]
  rw [e, List.drop_left' (by rw [List.length_append, zeros_length]; rfl), List.take_left' (zeros_length 5376)]

theorem head1_blk_self : (head1.drop 2048).take 5376 = zeros 5376 := by
  rw [← head1_blk [], List.append_nil]

/-- Step 2 of Table 11-10 on the partial image. -/
theorem step2_ok : imgStep2 w.psi.imgKeys w.psi.cfgMin (frameHead 2 ++ zeros 1948) (zeros 5376) chk1 = none :=
  step2_zero (u := 1) (Nat.not_lt_zero _)

/-- A frame of 256 zero bytes is read back from its bytes, whatever its check value. -/
theorem parse_blank {f : FFrame} (hp : f.payload = zeros 256) (hl : f.head.length = 12) {b0 b1 a k c : Nat}
    (h0 : fieldAt f.head 0 1 = b0) (h1 : fieldAt f.head 1 1 = b1) (h2 : fieldAt f.head 2 4 = a) (h3 : fieldAt f.head 6 3 = k)
    (h4 : fieldAt f.head 9 3 = c) (ok : b0 % 8 ≤ 4 ∧ b0 < 64 ∧ b1 < 64 ∧ a < 2 ^ 30 ∧
      (if b0 % 8 = 1 then 1 ≤ bitsOf b0 5 3 ∧ bitsOf b0 5 3 ≤ 4 else bitsOf b0 5 3 = 0))
    (hf : f = { ftype := b0 % 8, units := bitsOf b0 5 3, hops := b1 % 16, replay := bitAt b1 4, sync := bitAt b1 5,
                dPkg := bitsOf a 5 0, dDie := bitsOf a 8 6, dRing := bitsOf a 14 9, sPkg := bitsOf a 20 15,
                sDie := bitsOf a 23 21, sRing := bitsOf a 29 24, lseq := k % 4096, lack := k / 4096, cseq := c,
                payload := zeros 256 }) : parseFrame f.bytes = some f := by
  have hb : f.bytes = f.head ++ (crcOf (f.head ++ f.payload) ++ f.payload) := by rw [FFrame.bytes, crcOf, List.append_assoc]
  have part : ∀ i n, i + n ≤ 12 → fieldAt f.bytes i n = fieldAt f.head i n := by
    intro i n h
    have e : ∀ x : List Byte, (f.head ++ x).drop i = f.head.drop i ++ x := fun x => by
      rw [List.drop_append, Nat.sub_eq_zero_of_le (by omega), List.drop_zero]
    rw [hb, fieldAt, fieldAt, e, List.take_append_of_le_length (by rw [List.length_drop]; omega)]
  have c4 : (crcOf (f.head ++ f.payload)).length = 4 := rfl
  have t12 : f.bytes.take 12 = f.head := by rw [hb]; exact List.take_left' hl
  have d12 : f.bytes.drop 12 = crcOf (f.head ++ f.payload) ++ f.payload := by rw [hb]; exact List.drop_left' hl
  have d16 : f.bytes.drop 16 = f.payload := by
    rw [show (16 : Nat) = 12 + 4 from rfl, ← List.drop_drop, d12]; exact List.drop_left' c4
  have l272 : f.bytes.length = 272 := by
    rw [hb, List.length_append, List.length_append, hl, c4, hp, zeros_length]
  have hc : fieldAt f.bytes 12 4 = (crc32c (f.bytes.take 12 ++ f.bytes.drop 16)).toNat := by
    rw [fieldAt, d12, List.take_left' c4, leNat_crcOf, t12, d16]
  have e0 := (part 0 1 (by decide)).trans h0
  have e1 := (part 1 1 (by decide)).trans h1
  have e2 := (part 2 4 (by decide)).trans h2
  have e3 := (part 6 3 (by decide)).trans h3
  have e4 := (part 9 3 (by decide)).trans h4
  unfold parseFrame
  simp only [e0, e1, e2, e3, e4]
  rw [if_pos ⟨l272, hc, ok.1, ok.2.1, ok.2.2.1, ok.2.2.2.1, ok.2.2.2.2⟩, d16, hp, ← hf]

theorem parse_ff1 : parseFrame ff1.bytes = some ff1 :=
  parse_blank rfl rfl rfl rfl rfl rfl rfl (by decide) rfl

theorem parse_ff4 : parseFrame ff4.bytes = some ff4 :=
  parse_blank rfl rfl rfl rfl rfl rfl rfl (by decide) rfl

/-- With the low mark 0 no cold sheet moves, and a hint is next. -/
theorem next_hint {s : State} {d : Nat} {c : Nat × Loc} (h : (s.die d).lowMark = 0) (hc : s.hintCopy d = some c) :
    s.nextCopy d = some c := by simp [State.nextCopy, State.coldCopy, h, hc]

/-! ## What the statements suppose -/

/-- What `Obligations.TenantCommandsComplete` supposes holds somewhere, clause by clause. -/
theorem wit_TenantCommandsComplete :
    (∃ (s : State) (p : Pkt) (quantum : Nat),
      OnQueue s p ∧ s.due 0x0001 p = true ∧ s.permitted .m p = true ∧ p.tenant < 64 ∧ 4096 ≤ quantum ∧ quantum ≤ 1048576 ∧
      quantum % 4096 = 0 ∧ s.tenants.length < 64 ∧ thas s.tenants p.tenant = false) ∧
    (∃ (s : State) (p : Pkt) (quantum : Nat) (x : Tenant),
      OnQueue s p ∧ s.due 0x0003 p = true ∧ s.permitted .m p = true ∧ tfind s.tenants p.tenant = some x ∧ x.destroy = none ∧
      4096 ≤ quantum ∧ quantum ≤ 1048576 ∧ quantum % 4096 = 0) ∧
    (∃ (s : State) (p : Pkt) (x : Tenant),
      OnQueue s p ∧ s.due 0x0002 p = true ∧ s.permitted .m p = true ∧ tfind s.tenants p.tenant = some x ∧ x.destroy = none ∧
      (∀ e ∈ s.queues, e.2.tenant ≠ p.tenant)) :=
  ⟨⟨{ w with tenants := [] }, pm, 8192, onq (by decide +kernel), by decide +kernel⟩,
    ⟨w, pm, 8192, { quantum := 65536, idleMs := 1000, resumeS := 0, destroy := none }, onq (by decide +kernel), by decide +kernel⟩,
    ⟨{ w with queues := [(0, { Queue.reset with st := .enabled, started := [tk pm 2] })] }, pm,
      { quantum := 65536, idleMs := 1000, resumeS := 0, destroy := none }, onq (by decide +kernel), by decide +kernel⟩⟩

/-- What `Obligations.ContextCommandsComplete` supposes holds somewhere, clause by clause. -/
theorem wit_ContextCommandsComplete :
    (∃ (s : State) (p : Pkt) (inst tmpl die : Nat) (tp : Template) (x : Die) (m : Model) (c : Nat),
      OnQueue s p ∧ s.due 0x0010 p = true ∧ s.permitted .t p = true ∧ chkCtxCreate p inst tmpl die s = none ∧
      s.tmplOf p inst tmpl = some tp ∧ s.areasFor p inst tmpl die = some (x, m) ∧ (s.die die).newCtx = some c) ∧
    (∃ (s : State) (p : Pkt) (y : Ctx),
      OnQueue s p ∧ s.due 0x0011 p = true ∧ s.permitted .t p = true ∧ s.hasTenant p.tenant = true ∧ s.ctxOf p = some y) ∧
    (∃ (s : State) (p : Pkt) (off len : Nat) (y : Ctx),
      OnQueue s p ∧ s.due 0x0012 p = true ∧ s.permitted .t p = true ∧ s.hasTenant p.tenant = true ∧ s.ctxOf p = some y ∧
      y.st ≠ .created ∧ y.st ≠ .failed ∧ y.st ≠ .saving ∧ (y.st = .waiting → y.tile = none) ∧ off % 64 = 0 ∧ len % 64 = 0 ∧
      len ≤ 262144 ∧ off + len ≤ y.declared) ∧
    (∃ (s : State) (p : Pkt) (y : Ctx),
      OnQueue s p ∧ s.due 0x0703 p = true ∧ s.permitted .t p = true ∧ s.hasTenant p.tenant = true ∧ s.hdrCtx p = some y ∧
      y.tenant = p.tenant) :=
  ⟨⟨{ w with models := [(0, mdl)] }, pt, 0, 0, 0, tmpl0,
      ((({ w with models := [(0, mdl)] }).areasFor pt 0 0 0).getD (x0, mdl)).1,
      ((({ w with models := [(0, mdl)] }).areasFor pt 0 0 0).getD (x0, mdl)).2, 0, onq (by decide +kernel), by decide +kernel⟩,
    ⟨{ on0 (fun x => { x with ctxs := [(5, ctx0)] }) with models := [(0, mdl)] }, pc, ctx0, onq (by decide +kernel),
      by decide +kernel⟩,
    ⟨{ on0 (fun x => { x with ctxs := [(5, ctx0)] }) with models := [(0, mdl)] }, pc, 64, 128, ctx0, onq (by decide +kernel),
      by decide +kernel⟩,
    ⟨{ on0 (fun x => { x with ctxs := [(5, ctx0)] }) with models := [(0, mdl)] }, pc, ctx0, onq (by decide +kernel),
      by decide +kernel⟩⟩

/-- What `Obligations.ModelCommandsComplete` supposes holds somewhere, clause by clause. -/
theorem wit_ModelCommandsComplete :
    (∃ (s : State) (p : Pkt) (L h d32 fmt thr wBytes bBytes i : Nat),
      OnQueue s p ∧ s.due 0x0101 p = true ∧ s.permitted .t p = true ∧ chkModelCreate p L h d32 fmt thr wBytes bBytes s = none ∧
      s.newModel = some i) ∧
    (∃ (s : State) (p : Pkt) (inst die off : Nat) (data : List Byte) (m : Model),
      OnQueue s p ∧ s.due 0x0102 p = true ∧ s.permitted .t p = true ∧ s.hasTenant p.tenant = true ∧ s.modelOf p inst = some m ∧
      m.bundle = none ∧ s.usable die = true ∧ off % 64 = 0 ∧ off + data.length ≤ m.wBytes) ∧
    (∃ (s : State) (p : Pkt) (inst : Nat) (b : Bundle) (m : Model),
      OnQueue s p ∧ s.due 0x0103 p = true ∧ s.permitted .t p = true ∧ s.hasTenant p.tenant = true ∧ s.modelOf p inst = some m ∧
      m.bundle = none ∧ bundleOk m b = true) ∧
    (∃ (s : State) (p : Pkt) (inst : Nat) (m : Model),
      OnQueue s p ∧ s.due 0x0104 p = true ∧ s.permitted .t p = true ∧ s.hasTenant p.tenant = true ∧ s.modelOf p inst = some m ∧
      s.modelUsed inst = false) :=
  ⟨⟨w, pt, 2, 2, 1, 0, 0, 4096, 0, 0, onq (by decide +kernel), by decide +kernel⟩,
    ⟨{ w with models := [(0, { mdl with bundle := none })] }, pt, 0, 0, 64, [1, 2, 3], { mdl with bundle := none },
      onq (by decide +kernel), by decide +kernel⟩,
    ⟨{ w with models := [(0, { mdl with bundle := none })] }, pt, 0, bun, { mdl with bundle := none }, onq (by decide +kernel),
      by decide +kernel⟩,
    ⟨{ w with models := [(0, mdl)] }, pt, 0, mdl, onq (by decide +kernel), by decide +kernel⟩⟩

/-- What `Obligations.SequenceCommandsComplete` supposes holds somewhere, clause by clause. -/
theorem wit_SequenceCommandsComplete :
    (∃ (s : State) (p : Pkt) (inst die cls i : Nat) (m : Model),
      OnQueue s p ∧ s.due 0x0201 p = true ∧ s.permitted .t p = true ∧ chkSeqOpen p inst die cls s = none ∧
      s.modelOf p inst = some m ∧ s.freeSlot (s.openDie p.tenant die) = some i) ∧
    (∃ (s : State) (p : Pkt) (n : Nat) (q : Sequence),
      OnQueue s p ∧ s.due 0x0202 p = true ∧ s.permitted .t p = true ∧ s.hasTenant p.tenant = true ∧ s.seqOf p n = some q ∧
      q.heldBy = none) ∧
    (∃ (s : State) (p : Pkt) (n c : Nat) (q : Sequence),
      OnQueue s p ∧ s.due 0x0203 p = true ∧ s.permitted .t p = true ∧ s.hasTenant p.tenant = true ∧ s.seqOf p n = some q ∧
      q.heldBy = none ∧ q.st = .active ∧ c ≤ 2) ∧
    (∃ (s : State) (p : Pkt) (n c : Nat) (q : Sequence),
      OnQueue s p ∧ s.due 0x0204 p = true ∧ s.permitted .t p = true ∧ s.hasTenant p.tenant = true ∧ s.seqOf p n = some q ∧
      q.heldBy = none ∧ q.st = .suspended ∧ c ≤ 2 ∧ s.active (seqDie n) < 128) ∧
    (∃ (s : State) (p : Pkt) (n pos lo : Nat) (q : Sequence),
      OnQueue s p ∧ s.due 0x0205 p = true ∧ s.permitted .t p = true ∧ s.hasTenant p.tenant = true ∧ s.seqOf p n = some q ∧
      q.heldBy = none ∧ q.st = .lost ∧ (s.die (seqDie n)).firstLost n = some lo ∧ pos ≤ lo ∧ pos ≤ q.pos ∧ s.keyWaits = []) ∧
    (∃ (s : State) (p : Pkt) (n : Nat) (q : Sequence),
      OnQueue s p ∧ s.due 0x0209 p = true ∧ s.permitted .t p = true ∧ s.hasTenant p.tenant = true ∧ s.seqOf p n = some q ∧
      q.heldBy = none) :=
  ⟨⟨{ w with models := [(0, mdl)] }, pt, 0, 0, 1, 0, mdl, onq (by decide +kernel), by decide +kernel⟩,
    ⟨{ w with models := [(0, mdl)], seqs := [(0, sq0)] }, pt, 0, sq0, onq (by decide +kernel), by decide +kernel⟩,
    ⟨{ w with models := [(0, mdl)], seqs := [(0, sq0)] }, pt, 0, 2, sq0, onq (by decide +kernel), by decide +kernel⟩,
    ⟨{ w with models := [(0, mdl)], seqs := [(0, { sq0 with st := .suspended })] }, pt, 0, 1, { sq0 with st := .suspended },
      onq (by decide +kernel), by decide +kernel⟩,
    ⟨{ on0 (fun x => { x with ream := [(9, { sheet0 with st := .lost, seq := 0, first := 64 })] }) with models := [(0, mdl)], seqs := [(0, { sq0 with st := .lost, pos := 128, sheets := [{ handle := 9, layer := 0, index := 1 }] })] },
      pt, 0, 64, 64, { sq0 with st := .lost, pos := 128, sheets := [{ handle := 9, layer := 0, index := 1 }] },
      onq (by decide +kernel), by decide +kernel⟩,
    ⟨{ w with models := [(0, mdl)], seqs := [(0, sq0)] }, pt, 0, sq0, onq (by decide +kernel), by decide +kernel⟩⟩

/-- What `Obligations.SheetHintsComplete` supposes holds somewhere, clause by clause. -/
theorem wit_SheetHintsComplete :
    ∃ (s : State) (p : Pkt) (n layer : Nat) (q : Sequence),
      OnQueue s p ∧ s.due 0x0206 p = true ∧ s.permitted .t p = true ∧ s.hasTenant p.tenant = true ∧ s.seqOf p n = some q ∧
      q.heldBy = none ∧ s.layerBad n layer = false :=
  ⟨{ on0 (fun x => { x with ream := [(9, { sheet0 with loc := locOf 64 3 }), (10, sheet0)] }) with models := [(0, mdl)], seqs := [(0, { sq0 with pos := 128, sheets := [{ handle := 9, layer := 0, index := 0 }, { handle := 10, layer := 0, index := 1 }] })] },
      pt, 0, 0xFF,
      { sq0 with pos := 128, sheets := [{ handle := 9, layer := 0, index := 0 }, { handle := 10, layer := 0, index := 1 }] },
      onq (by decide +kernel), by decide +kernel⟩

/-- What `Obligations.SegmentCommandsComplete` supposes holds somewhere, clause by clause. -/
theorem wit_SegmentCommandsComplete :
    (∃ (s : State) (p : Pkt) (m : BitVec 8),
      s.due 0x0207 p = true ∧ s.permitted .m p = true ∧ m ≠ 0 ∧ (∀ d ∈ maskDies m, s.usable d = true) ∧ s.idleBusy m = false) ∧
    (∃ (s : State) (p : Pkt) (m : BitVec 8),
      OnQueue s p ∧ s.due 0x0208 p = true ∧ s.permitted .m p = true ∧ (∀ d ∈ maskDies m, s.usable d = true) ∧
      s.idleBusy m = false) ∧
    (∃ (s : State) (d : Nat) (i : DieIdle),
      s.live d = true ∧ (s.die d).idle = some i ∧ (s.die d).wringsGone i.handles i.segs = true) ∧
    (∃ (s : State) (d lc seg : Nat),
      s.live d = true ∧ lc < 16 ∧ seg < 8 ∧ lc * 8 + seg ∈ (s.die d).initSegs) :=
  ⟨⟨w, pm, 5, by decide +kernel⟩,
    ⟨on0 (fun x => { x with dropped := 0x81 }), pm, 1, onq (by decide +kernel), by decide +kernel⟩,
    ⟨{ on0 (fun x => { x with idle := some { op := 1, segs := 0x81, handles := [9] } }) with idles := [(1, { pkt := pm, bytes := [0], left := [0, 1] })] },
      0, { op := 1, segs := 0x81, handles := [9] }, by decide +kernel⟩,
    ⟨on0 (fun x => { x with initSegs := [9], dram := mwriteN [] (frameAddr 65 2880) [1, 2] }), 0, 1, 1, by decide +kernel⟩⟩

/-- A state whose tenant has a sequence and a CREATED context, and its dispatch of one entry with the sheets found. -/
def sD : State := { on0 (fun x => { x with ctxs := [(5, { ctx0 with st := .created })] }) with models := [(0, mdl)], seqs := [(0, sq0)] }
def sTake : Option (State × List EntryRun) :=
  State.takeAll mdl (sD.entryRuns [{ seq := 0, nTok := 1, inOff := 0, inLen := 1 }])
    (sD.resumeAll (liveSeqs (sD.entryRuns [{ seq := 0, nTok := 1, inOff := 0, inLen := 1 }])))

/-- What `Obligations.DispatchStarts` supposes holds somewhere, clause by clause. -/
theorem wit_DispatchStarts :
    ∃ (s s1 : State) (p : Pkt) (inst list out : Nat) (es : List ExecEntry) (payload : List Byte) (m : Model) (b : Bundle) (l : DList) (cs : List (Nat × List Nat)) (es1 : List EntryRun),
      s.due 0x0301 p = true ∧ s.permitted .x p = true ∧ firstOf (s.execChecks p inst list out es payload.length) = none ∧
      s.modelOf p inst = some m ∧ s.bundleOf p inst = some b ∧ s.dlist p inst list = some l ∧
      s.dispatchCtxs p inst list es.length = some cs ∧ s.mustWait es b l cs = false ∧
      s.capacityBad (liveSeqs (s.entryRuns es)) = none ∧
      s.energyDefers p.tenant (s.queue p.queue).cls l.periods (s.planOf inst list l (s.entryRuns es)) = none ∧
      State.takeAll m (s.entryRuns es) (s.resumeAll (liveSeqs (s.entryRuns es))) = some (s1, es1) ∧
      listsBad b l cs m.layers (s.entryRuns es) (s1.listsFor m.layers es1) = false :=
  ⟨sD, (sTake.get (by decide +kernel)).1, pt, 0, 0, 1, [{ seq := 0, nTok := 1, inOff := 0, inLen := 1 }], List.replicate 64 0, mdl,
    bun, { ctxs := [{ template := 0, index := 0, serves := none }], est := [], periods := 1, threads := [] }, [(5, [0])],
    (sTake.get (by decide +kernel)).2, by decide +kernel, by decide +kernel, by decide +kernel, by decide +kernel, by decide +kernel,
    by decide +kernel, by decide +kernel, by decide +kernel, by decide +kernel, by decide +kernel, (Option.some_get (by decide +kernel : sTake.isSome = true)).symm,
    by decide +kernel⟩

def dsp0 : Dispatch :=
  { pkt := pt, model := 0, list := 0, cls := 0, outUnits := 1, entries := [{ seq := 0, nTok := 1, inOff := 0, inLen := 1, status := .ok, fp := 0, tails := [], lostTok := 0 }],
    payload := [], ctxs := [], lists := [], recs := [], planned := [], periods := 1, age := [] }

/-- What `Obligations.DispatchEnds` supposes holds somewhere, clause by clause. -/
theorem wit_DispatchEnds :
    ∃ (s : State) (id : Nat) (x : Dispatch) (m : Model),
      OnQueue s x.pkt ∧ tfind s.disps id = some x ∧ x.ctxs = [] ∧ tfind s.models x.model = some m ∧
      (∀ k ∈ s.keyWaits, Apart x.pkt k.1) :=
  ⟨{ w with models := [(0, mdl)], seqs := [(0, { sq0 with heldBy := some 4 })], disps := [(4, dsp0)] }, 4, dsp0, mdl,
    onq (by decide +kernel), by decide +kernel, rfl, by decide +kernel, fun _ h => nomatch h⟩

/-- What `Obligations.FabricLoads` supposes holds somewhere, clause by clause. -/
theorem wit_FabricLoads :
    (∃ (s : State) (p : Pkt) (a : RAt) (tenant len : Nat) (data : List Byte) (chk : ImgChk),
      OnQueue s p ∧ s.due 0x0401 p = true ∧ s.permitted .m p = true ∧ firstOf (s.loadNames a (some tenant)) = none ∧
      s.loadWaits a.die a.region = false ∧ ((s.die a.die).fabric a.region).session = none ∧
      ((s.die a.die).fabric a.region).acts = [] ∧ ((s.die a.die).fabric a.region).copying = none ∧ data.length = 7424 ∧
      7424 < len ∧ imgStep1 s.part.variant a.die a.region len (data.take 2048) = true ∧
      imgStep2 s.psi.imgKeys s.psi.cfgMin (data.take 2048) ((data.drop 2048).take 5376) chk = none ∧
      (s.die a.die).imgStep3 a.die a.region tenant (data.take 2048) = true) ∧
    (∃ (s : State) (p : Pkt) (a : RAt) (tenant off len : Nat) (data : List Byte) (chk : ImgChk) (q : Session),
      OnQueue s p ∧ s.due 0x0401 p = true ∧ s.permitted .m p = true ∧ firstOf (s.loadNames a (some tenant)) = none ∧
      s.loadWaits a.die a.region = false ∧ ((s.die a.die).fabric a.region).session = some q ∧
      firstOf (partChecks ((s.die a.die).fabric a.region) p false off len data) = none ∧
      (s.bodyHere a q (q.bytes ++ data) chk).ended = none) ∧
    (∃ (s : State) (p : Pkt) (a : RAt) (tenant off len : Nat) (data : List Byte) (chk : ImgChk) (q : Session),
      s.due 0x0401 p = true ∧ s.permitted .m p = true ∧ firstOf (s.loadNames a (some tenant)) = none ∧
      s.loadWaits a.die a.region = false ∧ ((s.die a.die).fabric a.region).session = some q ∧
      firstOf (partChecks ((s.die a.die).fabric a.region) p true off len data) = none ∧
      (s.bodyHere a q (q.bytes ++ data) chk).ended = none ∧ (s.bodyHere a q (q.bytes ++ data) chk).designOk a chk = true ∧
      imgEnd ((q.bytes ++ data).take 2048) ((q.bytes ++ data).drop (7424 + imgBodyLen ((q.bytes ++ data).take 2048))) (q.bytes ++ data) (s.imgKey ((q.bytes ++ data).take 2048)) = none) ∧
    (∃ (s : State) (p : Pkt) (a : RAt) (tenant off len : Nat) (data : List Byte) (chk : ImgChk) (q : Session),
      s.due 0x0401 p = true ∧ s.permitted .m p = true ∧ firstOf (s.loadNames a (some tenant)) = none ∧
      s.loadWaits a.die a.region = false ∧ ((s.die a.die).fabric a.region).session = some q ∧
      firstOf (partChecks ((s.die a.die).fabric a.region) p true off len data) = none ∧
      (s.bodyHere a q (q.bytes ++ data) chk).ended = none ∧ (s.bodyHere a q (q.bytes ++ data) chk).designOk a chk = false) ∧
    (∃ (s : State) (p : Pkt) (a : RAt) (tenant addr : Nat) (chk : ImgChk) (img : List Byte),
      s.running = true ∧ s.due 0x0401 p = true ∧ s.permitted .m p = true ∧ firstOf (s.loadNames a (some tenant)) = none ∧
      s.loadWaits a.die a.region = false ∧ ((s.die a.die).fabric a.region).session = none ∧
      img = mreadN s.psi.flash addr (7488 + leNat (mreadN s.psi.flash (addr + 28) 8)) ∧ addr + img.length ≤ 2 ^ 32 ∧
      imgStep1 s.part.variant a.die a.region img.length (img.take 2048) = true ∧
      imgStep2 s.psi.imgKeys s.psi.cfgMin (img.take 2048) ((img.drop 2048).take 5376) chk = none ∧
      (s.die a.die).imgStep3 a.die a.region tenant (img.take 2048) = true ∧
      (∀ u, u = s.loadStep4 a.die a.region tenant (img.take 2048) → (u.bodyHere a (newSession p tenant img.length img) img chk).ended = none ∧ (u.bodyHere a (newSession p tenant img.length img) img chk).designOk a chk = true) ∧
      imgEnd (img.take 2048) (img.drop (7424 + imgBodyLen (img.take 2048))) img (s.imgKey (img.take 2048)) = none) ∧
    (∃ (s : State) (p : Pkt) (a : RAt) (tenant : Nat),
      OnQueue s p ∧ s.due 0x0401 p = true ∧ s.permitted .m p = true ∧ firstOf (s.loadNames a (some tenant)) = none ∧
      s.loadWaits a.die a.region = false ∧ tenant < 64 ∧ ((s.die a.die).fabric a.region).st = .configured ∧
      ((s.die a.die).fabric a.region).tenant = 0xFF ∧
      (s.die a.die).portsOk a.region tenant ((s.die a.die).portTable a.die a.region) = true) ∧
    (∃ (s : State) (p : Pkt) (a : RAt) (q : Session),
      OnQueue s p ∧ s.due 0x0401 p = true ∧ s.permitted .m p = true ∧ firstOf (s.loadNames a none) = none ∧
      s.loadWaits a.die a.region = false ∧ ((s.die a.die).fabric a.region).session = some q ∧ (q.step = 7 → Apart p q.pkt)) ∧
    (∃ (s : State) (a : RAt),
      s.live a.die = true ∧ a.region < 8 ∧ ((s.die a.die).fabric a.region).st = .loading ∧
      ((s.die a.die).fabric a.region).bankOk = false ∧ (∀ q, ((s.die a.die).fabric a.region).session = some q → q.step = 7)) ∧
    (∃ (s : State) (a : RAt),
      s.live a.die = true ∧ a.region < 8 ∧ s.releaseDue a = true) ∧
    (∃ (s : State) (a : RAt),
      s.live a.die = true ∧ a.region < 8 ∧ s.handoverDue a = true) :=
  ⟨⟨w.setDie 0 x1, pm, at1, 0xFF, 7680, head1, chk1, onq (by decide +kernel), by decide +kernel, by decide +kernel, by decide +kernel,
      by decide +kernel, by decide +kernel, by decide +kernel, by decide +kernel, head1_length, by decide +kernel,
      by rw [head1_take_self]; decide +kernel, by rw [head1_take_self, head1_blk_self]; exact step2_ok,
      by rw [head1_take_self]; exact step3_ok (by decide +kernel) (by decide +kernel)⟩,
    ⟨fab1 (fun f => { f with session := some ses1, st := .loading }), pm, at1, 0xFF, 7424, 7680, body1, chk1, ses1,
      onq (by decide +kernel), by decide +kernel, by decide +kernel, by decide +kernel, by decide +kernel, rfl, by decide +kernel⟩,
    ⟨fab1 (fun f => { f with session := some ses1, st := .loading }), pm, at1, 0xFF, 7424, 7680, body1 ++ (zeros 60 ++ partEnd),
      chk1, ses1, by decide +kernel, by decide +kernel, by decide +kernel, by decide +kernel, rfl, by decide +kernel,
      by decide +kernel, by decide +kernel, part_end _⟩,
    ⟨fab1 (fun f => { f with session := some ses1, st := .loading }), pm, at1, 0xFF, 7424, 7680, body1 ++ (zeros 60 ++ partEnd),
      { chk1 with designs := [(1, { blocks := [(0, { cfg1 with cells := [] })], fmPorts := [], pins := [], precode := [] })] }, ses1,
      by decide +kernel, by decide +kernel, by decide +kernel, by decide +kernel, rfl, by decide +kernel, by decide +kernel,
      by decide +kernel⟩,
    ⟨{ w.setDie 0 x1 with psi := { w.psi with flash := flash4 } }, pm, at1, 0xFF, 0x100000, chk1,
      head1 ++ (body1 ++ (zeros 60 ++ partEnd)), by decide +kernel, by decide +kernel, by decide +kernel, by decide +kernel,
      by decide +kernel, by decide +kernel, part_bytes, by rw [part_length]; decide +kernel,
      by rw [part_length, head1_take]; decide +kernel, by rw [head1_take, head1_blk]; exact step2_ok,
      by rw [head1_take]; exact step3_ok (by decide +kernel) (by decide +kernel),
      by rw [part_length]; intro u hu; subst hu; decide +kernel, part_end _⟩,
    ⟨fab1 (fun f => { f with st := .configured }), pm, at1, 3, onq (by decide +kernel), by decide +kernel⟩,
    ⟨fab1 (fun f => { f with session := some ses1, st := .loading }), pm, at1, ses1, onq (by decide +kernel), by decide +kernel,
      by decide +kernel, by decide +kernel, by decide +kernel, rfl, fun h => absurd h (by decide)⟩,
    ⟨fab1 (fun f => { f with session := some { ses1 with step := 7 }, st := .loading }), at1, by decide +kernel,
      by decide +kernel, by decide +kernel, by decide +kernel, fun _ h => by cases h; rfl⟩,
    ⟨fab1 (fun f => { f with session := some { ses1 with step := 7 }, st := .loading, bankOk := true }), at1, by decide +kernel⟩,
    ⟨fab1 (fun f => { f with session := some { ses1 with step := 7 }, st := .loading, bankOk := true, released := true, halted := false }),
      at1, by decide +kernel⟩⟩

/-- What `Obligations.ClockActions` supposes holds somewhere, clause by clause. -/
theorem wit_ClockActions :
    (∃ (s : State) (p : Pkt) (a : RAt) (edge : Nat),
      s.running = true ∧ s.permitted .m p = true ∧ s.usable a.die = true ∧ a.region < 8 ∧
      ((s.die a.die).fabric a.region).st = .configured ∧ ((s.die a.die).fabric a.region).acts = [] ∧
      ((s.die a.die).fabric a.region).copying = none ∧
      (edge = 0 ∨ (((s.die a.die).fabric a.region).halted = true ∧ ((s.die a.die).fabric a.region).fctr + 256 ≤ edge)) ∧
      s.due 0x0402 p = true) ∧
    (∃ (s : State) (p : Pkt) (a : RAt) (edge : Nat), ∃ n,
      s.running = true ∧ s.permitted .m p = true ∧ s.usable a.die = true ∧ a.region < 8 ∧
      ((s.die a.die).fabric a.region).st = .configured ∧ ((s.die a.die).fabric a.region).acts = [] ∧
      ((s.die a.die).fabric a.region).copying = none ∧
      (edge = 0 ∨ (((s.die a.die).fabric a.region).halted = true ∧ ((s.die a.die).fabric a.region).fctr + 256 ≤ edge)) ∧
      s.due 0x0404 p = true ∧ 6 ≤ n ∧ n ≤ 255) ∧
    (∃ (s : State) (p : Pkt) (a : RAt) (edge : Nat),
      s.running = true ∧ s.permitted .m p = true ∧ s.usable a.die = true ∧ a.region < 8 ∧
      ((s.die a.die).fabric a.region).st = .configured ∧ ((s.die a.die).fabric a.region).acts = [] ∧
      ((s.die a.die).fabric a.region).copying = none ∧
      (edge = 0 ∨ (((s.die a.die).fabric a.region).halted = true ∧ ((s.die a.die).fabric a.region).fctr + 256 ≤ edge)) ∧
      s.due 0x0404 p = true) ∧
    (∃ (s : State) (p : Pkt) (a : RAt) (edge : Nat),
      s.running = true ∧ s.permitted .m p = true ∧ s.usable a.die = true ∧ a.region < 8 ∧
      ((s.die a.die).fabric a.region).st = .configured ∧ ((s.die a.die).fabric a.region).acts = [] ∧
      ((s.die a.die).fabric a.region).copying = none ∧
      (edge = 0 ∨ (((s.die a.die).fabric a.region).halted = true ∧ ((s.die a.die).fabric a.region).fctr + 256 ≤ edge)) ∧
      s.due 0x0404 p = true ∧ ((s.die a.die).fabric a.region).halted = true) ∧
    (∃ (s : State) (a : RAt) (k : ClkAct) (rest : List ClkAct) (f : Fabric),
      f = (s.die a.die).fabric a.region ∧ s.live a.die = true ∧ a.region < 8 ∧ f.copying = none ∧ f.acts = k :: rest ∧
      (f.halted = false ∨ k.edge = 0) ∧ (k.action = 2 → f.halted = true)) ∧
    (∃ (s : State) (a : RAt) (k : ClkAct) (rest : List ClkAct) (f : Fabric),
      f = (s.die a.die).fabric a.region ∧ s.live a.die = true ∧ a.region < 8 ∧ f.copying = none ∧ f.acts = k :: rest ∧
      k.action = 2 ∧ f.halted = false ∧ OnQueue s k.pkt) ∧
    (∃ (s : State) (a : RAt) (k : ClkAct) (f : Fabric),
      f = (s.die a.die).fabric a.region ∧ s.live a.die = true ∧ a.region < 8 ∧ f.copying = some k ∧ OnQueue s k.pkt) ∧
    (∃ (s : State) (p : Pkt) (a : RAt) (first count : Nat),
      OnQueue s p ∧ s.due 0x0403 p = true ∧ s.permitted .m p = true ∧ s.chkFabricRead a first count = none ∧
      ((s.die a.die).fabric a.region).copying = none ∧ (∀ k ∈ ((s.die a.die).fabric a.region).acts, k.action < 4)) :=
  ⟨⟨fab1 (fun f => { f with st := .configured, halted := true }), pm, at1, 256, by decide +kernel⟩,
    ⟨fab1 (fun f => { f with st := .configured, halted := true }), pm, at1, 256, 6, by decide +kernel⟩,
    ⟨fab1 (fun f => { f with st := .configured, halted := true }), pm, at1, 256, by decide +kernel⟩,
    ⟨fab1 (fun f => { f with st := .configured, halted := true }), pm, at1, 0, by decide +kernel⟩,
    ⟨fab1 (fun f => { f with st := .configured, halted := true, acts := [⟨pm, 2, 0, 0⟩] }), at1, ⟨pm, 2, 0, 0⟩, [],
      ((fab1 (fun f => { f with st := .configured, halted := true, acts := [⟨pm, 2, 0, 0⟩] })).die 0).fabric 1, rfl, by decide +kernel⟩,
    ⟨fab1 (fun f => { f with st := .configured, halted := false, acts := [⟨pm, 2, 0, 0⟩] }), at1, ⟨pm, 2, 0, 0⟩, [],
      ((fab1 (fun f => { f with st := .configured, halted := false, acts := [⟨pm, 2, 0, 0⟩] })).die 0).fabric 1, rfl, by decide +kernel, by decide +kernel, by decide +kernel, by decide +kernel, by decide +kernel, by decide +kernel, onq (by decide +kernel)⟩,
    ⟨fab1 (fun f => { f with st := .configured, halted := true, copying := some ⟨pm, 5, 0, 0⟩ }), at1, ⟨pm, 5, 0, 0⟩,
      ((fab1 (fun f => { f with st := .configured, halted := true, copying := some ⟨pm, 5, 0, 0⟩ })).die 0).fabric 1, rfl,
      by decide +kernel, by decide +kernel, by decide +kernel, onq (by decide +kernel)⟩,
    ⟨fab1 (fun f => { f with st := .configured, halted := true }), pm, at1, frameAt 0 1 0 0 0, 2, onq (by decide +kernel),
      by decide +kernel⟩⟩

/-- What `Obligations.KnotCommands` supposes holds somewhere, clause by clause. -/
theorem wit_KnotCommands :
    (∃ (s : State) (p : Pkt) (d k : Nat) (kn : Knot) (c : Nat) (y : Ctx),
      OnQueue s p ∧ s.permitted .t p = true ∧ s.hasTenant p.tenant = true ∧ s.usable d = true ∧ knotOfTenant p.tenant k = true ∧
      kn = (s.die d).knot k ∧ s.due 0x0501 p = true ∧ kn.tied = false ∧ tfind (s.die d).ctxs c = some y ∧ y.tenant = p.tenant) ∧
    (∃ (s : State) (p : Pkt) (d k : Nat) (kn : Knot),
      OnQueue s p ∧ s.permitted .t p = true ∧ s.hasTenant p.tenant = true ∧ s.usable d = true ∧ knotOfTenant p.tenant k = true ∧
      kn = (s.die d).knot k ∧ s.due 0x0502 p = true ∧ kn.tied = true ∧ (∀ w ∈ kn.hosts, Apart p w.1)) ∧
    (∃ (s : State) (p : Pkt) (d k : Nat) (kn : Knot),
      OnQueue s p ∧ s.permitted .t p = true ∧ s.hasTenant p.tenant = true ∧ s.usable d = true ∧ knotOfTenant p.tenant k = true ∧
      kn = (s.die d).knot k ∧ s.due 0x0502 p = true ∧ kn.tied = false) ∧
    (∃ (s : State) (p : Pkt) (d k : Nat) (kn : Knot) (v : BitVec 64),
      OnQueue s p ∧ s.permitted .t p = true ∧ s.hasTenant p.tenant = true ∧ s.usable d = true ∧ knotOfTenant p.tenant k = true ∧
      kn = (s.die d).knot k ∧ s.due 0x0503 p = true ∧ kn.tied = true ∧ kn.value.toNat < v.toNat ∧ kn.hosts.length < 255 ∧
      (s.die d).hostWaits < 1024) ∧
    (∃ (s : State) (p : Pkt) (d k : Nat) (kn : Knot) (v : BitVec 64),
      OnQueue s p ∧ s.permitted .t p = true ∧ s.hasTenant p.tenant = true ∧ s.usable d = true ∧ knotOfTenant p.tenant k = true ∧
      kn = (s.die d).knot k ∧ s.due 0x0503 p = true ∧ kn.tied = true ∧ v.toNat ≤ kn.value.toNat) ∧
    (∃ (s : State) (p : Pkt) (d k : Nat) (kn : Knot),
      OnQueue s p ∧ s.permitted .t p = true ∧ s.hasTenant p.tenant = true ∧ s.usable d = true ∧ knotOfTenant p.tenant k = true ∧
      kn = (s.die d).knot k ∧ s.due 0x0503 p = true ∧ kn.tied = false) ∧
    (∃ (s : State) (p : Pkt) (d k : Nat) (kn : Knot),
      OnQueue s p ∧ s.permitted .t p = true ∧ s.hasTenant p.tenant = true ∧ s.usable d = true ∧ knotOfTenant p.tenant k = true ∧
      kn = (s.die d).knot k ∧ s.due 0x0504 p = true ∧ kn.tied = true ∧ Alone s p) ∧
    (∃ (s : State) (p : Pkt) (d k : Nat) (kn : Knot),
      OnQueue s p ∧ s.permitted .t p = true ∧ s.hasTenant p.tenant = true ∧ s.usable d = true ∧ knotOfTenant p.tenant k = true ∧
      kn = (s.die d).knot k ∧ s.due 0x0505 p = true) ∧
    (∃ (s : State) (d i k : Nat) (n : BitVec 64),
      s.live d = true ∧ (s.die d).knotNet[i]? = some (.add k n) ∧ ((s.die d).knot k).tied = true) ∧
    (∃ (s : State) (d i k : Nat),
      s.live d = true ∧ (s.die d).knotNet[i]? = some (.untie k)) ∧
    (∃ (s : State) (d i k : Nat) (n : BitVec 64),
      s.live d = true ∧ (s.die d).knotNet[i]? = some (.add k n) ∧ ((s.die d).knot k).tied = false) ∧
    (∃ (s : State) (d c t0 : Nat),
      s.live d = true ∧ c < 4096 ∧ (s.die d).wakeTile c = some t0) :=
  ⟨⟨on0 (fun x => { x with knots := [(4048, { kn1 with tied := false })], ctxs := [(5, ctx0)] }), pt, 0, 4048,
      { kn1 with tied := false }, 5, ctx0, onq (by decide +kernel), by decide +kernel, by decide +kernel, by decide +kernel,
      by decide +kernel, rfl, by decide +kernel⟩,
    ⟨on0 (fun x => { x with knots := [(4048, { kn1 with hosts := [(pw, 6)] })], ctxs := [(5, ctx0)] }), pt, 0, 4048,
      { kn1 with hosts := [(pw, 6)] }, onq (by decide +kernel), by decide +kernel, by decide +kernel, by decide +kernel, by decide +kernel, rfl, by decide +kernel,
      by decide +kernel, fun e he => apart (by rw [List.mem_singleton.1 he]; decide)⟩,
    ⟨on0 (fun x => { x with knots := [(4048, { kn1 with tied := false })], ctxs := [(5, ctx0)] }), pt, 0, 4048,
      { kn1 with tied := false }, onq (by decide +kernel), by decide +kernel, by decide +kernel, by decide +kernel,
      by decide +kernel, rfl, by decide +kernel⟩,
    ⟨on0 (fun x => { x with knots := [(4048, kn1)], ctxs := [(5, ctx0)] }), pt, 0, 4048, kn1, 6, onq (by decide +kernel),
      by decide +kernel, by decide +kernel, by decide +kernel, by decide +kernel, rfl, by decide +kernel⟩,
    ⟨on0 (fun x => { x with knots := [(4048, kn1)], ctxs := [(5, ctx0)] }), pt, 0, 4048, kn1, 5, onq (by decide +kernel),
      by decide +kernel, by decide +kernel, by decide +kernel, by decide +kernel, rfl, by decide +kernel⟩,
    ⟨on0 (fun x => { x with knots := [(4048, { kn1 with tied := false })], ctxs := [(5, ctx0)] }), pt, 0, 4048,
      { kn1 with tied := false }, onq (by decide +kernel), by decide +kernel, by decide +kernel, by decide +kernel,
      by decide +kernel, rfl, by decide +kernel⟩,
    ⟨on0 (fun x => { x with knots := [(4048, { kn1 with hosts := [(pw, 6)] })], ctxs := [(5, ctx0)] }), pt, 0, 4048,
      { kn1 with hosts := [(pw, 6)] }, onq (by decide +kernel), by decide +kernel, by decide +kernel, by decide +kernel, by decide +kernel, rfl, by decide +kernel,
      by decide +kernel, alone (by decide +kernel)⟩,
    ⟨on0 (fun x => { x with knots := [(4048, kn1)], ctxs := [(5, ctx0)] }), pt, 0, 4048, kn1, onq (by decide +kernel),
      by decide +kernel, by decide +kernel, by decide +kernel, by decide +kernel, rfl, by decide +kernel⟩,
    ⟨on0 (fun x => { x with knots := [(4048, { kn1 with hosts := [(pt, 6)] })], ctxs := [(5, ctx0)], knotNet := [.add 4048 1] }),
      0, 0, 4048, 1, by decide +kernel⟩,
    ⟨on0 (fun x => { x with knots := [(4048, { kn1 with hosts := [(pt, 6)] })], ctxs := [(5, ctx0)], knotNet := [.untie 4048] }),
      0, 0, 4048, by decide +kernel⟩,
    ⟨on0 (fun x => { x with knots := [(4048, { kn1 with tied := false })], ctxs := [(5, ctx0)], knotNet := [.add 4048 1] }), 0, 0,
      4048, 1, by decide +kernel⟩,
    ⟨on0 (fun x => { x with ctxs := [(5, { ctx0 with st := .waiting, woken := true, tile := some 2 })], occ := [(130, { Occ.reset with res := some 5 })] }),
      0, 5, 2, by decide +kernel⟩⟩

/-- What `Obligations.EnergyAndTelemetry` supposes holds somewhere, clause by clause. -/
theorem wit_EnergyAndTelemetry :
    (∃ (s : State) (p : Pkt) (pMw rMw : Nat),
      s.due 0x0601 p = true ∧ s.permitted .m p = true ∧ s.part.variant.limitMw ≤ 4 * pMw ∧ pMw ≤ s.part.variant.limitMw ∧
      10 * rMw ≤ 3 * shareMw pMw s.dieCount) ∧
    (∃ (s : State) (p : Pkt) (tenant : Nat) (dies : BitVec 8) (window : Nat),
      OnQueue s p ∧ s.due 0x0602 p = true ∧ s.permitted .m p = true ∧ s.hasTenant tenant = true ∧
      (∀ d ∈ maskDies dies, d < s.dieCount) ∧ 4096 ≤ window ∧ window ≤ 16777216) ∧
    (∃ (s : State) (p : Pkt) (d tenant : Nat),
      OnQueue s p ∧ s.due 0x0603 p = true ∧ s.permitted .t p = true ∧ s.usable d = true ∧ s.hasTenant tenant = true ∧
      ((s.queue p.queue).cls = 3 ∨ (s.queue p.queue).tenant = tenant)) ∧
    (∃ (s : State) (p : Pkt) (d kind unit : Nat),
      OnQueue s p ∧ s.due 0x0701 p = true ∧ s.permitted .m p = true ∧ s.usable d = true ∧ ctrWidths kind ≠ [] ∧
      unitOn d kind unit = true) ∧
    (∃ (s : State) (p : Pkt) (d first count : Nat),
      OnQueue s p ∧ s.due 0x0702 p = true ∧ s.permitted .m p = true ∧ s.usable d = true ∧ 0 < count ∧ count ≤ 16384 ∧
      first + count ≤ 524288) ∧
    (∃ (s : State) (p : Pkt) (sel : ProbeSel),
      OnQueue s p ∧ s.due 0x0704 p = true ∧ s.permitted .m p = true ∧ s.usable sel.die = true ∧
      (probeRouter sel.router).isSome = true ∧ sel.probe < 2 ∧ ((s.die sel.die).probe (selKey sel)).running = false) ∧
    (∃ (s : State) (p : Pkt) (sel : ProbeSel),
      OnQueue s p ∧ s.due 0x0704 p = true ∧ s.permitted .m p = true ∧ s.usable sel.die = true ∧
      (probeRouter sel.router).isSome = true ∧ sel.probe < 2) ∧
    (∃ (s : State) (p : Pkt) (d : Nat),
      s.due 0x0704 p = true ∧ s.permitted .m p = true ∧ s.usable d = true) :=
  ⟨⟨w, pm, 400000, 5000, by decide +kernel⟩,
    ⟨w, pm, 3, 3, 4096, onq (by decide +kernel), by decide +kernel⟩,
    ⟨w, pt, 0, 3, onq (by decide +kernel), by decide +kernel⟩,
    ⟨on0 (fun x => { x with wraps := [(ctrKey 3 0 0, true)] }), pm, 0, 3, 0, onq (by decide +kernel), by decide +kernel⟩,
    ⟨w, pm, 0, 4, 2, onq (by decide +kernel), by decide +kernel⟩,
    ⟨w, pm, { die := 0, router := 0x40, probe := 1 }, onq (by decide +kernel), by decide +kernel⟩,
    ⟨w, pm, { die := 0, router := 0x40, probe := 1 }, onq (by decide +kernel), by decide +kernel⟩,
    ⟨on0 (fun x => { x with traceLost := 4 }), pm, 0, by decide +kernel⟩⟩

/-- What `Obligations.TestCommands` supposes holds somewhere, clause by clause. -/
theorem wit_TestCommands :
    (∃ (s : State) (p : Pkt) (d kind unit : Nat),
      s.due 0x0710 p = true ∧ s.permitted .m p = true ∧ tfind (s.die d).tests (unitKey kind (ctrUnit kind unit)) = none ∧
      s.chkTest d kind unit 0 = none) ∧
    (∃ (s : State) (p : Pkt) (d kind unit : Nat),
      s.due 0x0710 p = true ∧ s.permitted .m p = true ∧ tfind (s.die d).tests (unitKey kind (ctrUnit kind unit)) = none ∧
      s.chkTest d kind unit 1 = none) ∧
    (∃ (s : State) (p : Pkt) (d kind unit : Nat),
      s.due 0x0710 p = true ∧ s.permitted .m p = true ∧ tfind (s.die d).tests (unitKey kind (ctrUnit kind unit)) = none ∧
      s.chkTest d kind unit 2 = none) ∧
    (∃ (s : State) (d kind unit : Nat) (r : TestRec),
      unitOn d kind unit = true ∧ s.testDue d kind unit true = true ∧
      tfind (s.die d).tests (unitKey kind (ctrUnit kind unit)) = some r ∧ (s.die d).isFenced kind (ctrUnit kind unit) = true) ∧
    (∃ (s : State) (d kind unit : Nat) (r : TestRec),
      unitOn d kind unit = true ∧ s.testDue d kind unit true = true ∧
      tfind (s.die d).tests (unitKey kind (ctrUnit kind unit)) = some r ∧ (s.die d).isFenced kind (ctrUnit kind unit) = false ∧
      kind ≠ 13 ∧ OnQueue s r.pkt) ∧
    (∃ (s : State) (d kind unit : Nat) (r : TestRec),
      unitOn d kind unit = true ∧ s.testDue d kind unit false = true ∧
      tfind (s.die d).tests (unitKey kind (ctrUnit kind unit)) = some r ∧ kind ≠ 13 ∧ kind ≠ 16 ∧ OnQueue s r.pkt ∧
      Alone s r.pkt) :=
  ⟨⟨w, pm, 0, 1, 5, by decide +kernel⟩,
    ⟨w, pm, 0, 5, 5, by decide +kernel⟩,
    ⟨w, pm, 0, 10, 5, by decide +kernel⟩,
    ⟨on0 (fun x => { x with tests := [(unitKey 1 5, { pkt := pm, test := 0, passed := false })], fenced := [(unitKey 1 5, 2)] }),
      0, 1, 5, { pkt := pm, test := 0, passed := false }, by decide +kernel⟩,
    ⟨on0 (fun x => { x with tests := [(unitKey 10 5, { pkt := pm, test := 0, passed := false })] }), 0, 10, 5,
      { pkt := pm, test := 0, passed := false }, by decide +kernel, by decide +kernel, by decide +kernel, by decide +kernel,
      by decide +kernel, onq (by decide +kernel)⟩,
    ⟨on0 (fun x => { x with tests := [(unitKey 10 5, { pkt := pm, test := 0, passed := false })] }), 0, 10, 5,
      { pkt := pm, test := 0, passed := false }, by decide +kernel, by decide +kernel, by decide +kernel, by decide +kernel,
      by decide +kernel, onq (by decide +kernel), alone (by decide +kernel)⟩⟩

/-- What `Obligations.QueuesAndPackets` supposes holds somewhere, clause by clause. -/
theorem wit_QueuesAndPackets :
    (∃ (s : State) (p : Pkt) (q d cls tenant func vector : Nat) (base : BitVec 64) (lg cu : Nat),
      OnQueue s p ∧ s.due 0x0E01 p = true ∧ s.permitted .m p = true ∧
      chkQueueCreate q d cls tenant func vector base lg cu s = none) ∧
    (∃ (s : State) (p : Pkt) (q : Nat),
      s.due 0x0E02 p = true ∧ s.permitted .m p = true ∧ 0 < q ∧ q < 8192 ∧ (s.queue q).destroyable = true) ∧
    (∃ (s : State) (q : Nat),
      q < 8192 ∧ (s.queue q).drained = true) ∧
    (∃ (s : State) (q : Nat),
      q < 8192 ∧ s.takeDue q = true ∧ (s.queue q).asm = [] ∧ frameBad (s.queue q).front = true) ∧
    (∃ (s : State) (q got n : Nat),
      q < 8192 ∧ s.takeDue q = true ∧ ((s.queue q).asm = [] → frameBad (s.queue q).front = false) ∧
      got = (s.queue q).asm.length / 64 ∧ n = min (s.queue q).winHeld (needUnits (s.queue q).front - got) ∧
      got + n < needUnits (s.queue q).front) ∧
    (∃ (s : State) (q got n : Nat) (l : List Byte) (r : TakenPkt),
      q < 8192 ∧ s.takeDue q = true ∧ ((s.queue q).asm = [] → frameBad (s.queue q).front = false) ∧
      got = (s.queue q).asm.length / 64 ∧ n = min (s.queue q).winHeld (needUnits (s.queue q).front - got) ∧
      needUnits (s.queue q).front ≤ got + n ∧ l = (s.queue q).asm ++ (s.queue q).winUnits n ∧ r = parsePacket l ∧
      r.seq = (s.queue q).expSeq ∧ (s.modQueue q fun x => { x with rd := (x.rd + n) % 512, asm := [] }).packetBad q l r = none) ∧
    (∃ (s : State) (q got n : Nat) (l : List Byte) (r : TakenPkt),
      q < 8192 ∧ s.takeDue q = true ∧ ((s.queue q).asm = [] → frameBad (s.queue q).front = false) ∧
      got = (s.queue q).asm.length / 64 ∧ n = min (s.queue q).winHeld (needUnits (s.queue q).front - got) ∧
      needUnits (s.queue q).front ≤ got + n ∧ l = (s.queue q).asm ++ (s.queue q).winUnits n ∧ r = parsePacket l ∧
      r.seq ≠ (s.queue q).expSeq) ∧
    (∃ (s : State) (q : Nat) (n : BitVec 32),
      q < 8192 ∧ s.live (s.queue q).home = true ∧ (s.queue q).startable n = true) :=
  ⟨⟨w, pm, 5, 1, 0, 3, 0, 0, 0x1000, 20, 0, onq (by decide +kernel), by decide +kernel⟩,
    ⟨w, pm, 1, by decide +kernel⟩,
    ⟨w.modQueue 1 fun x => { x with st := .draining, started := [], destroyer := some pm }, 1, by decide +kernel⟩,
    ⟨win1 ([2] ++ zeros 63), 0, by decide +kernel⟩,
    ⟨win1 ([1, 0, 4, 0x0E] ++ zeros 4 ++ [0xFF, 0, 0xFF, 0xFF, 64] ++ zeros 51), 0, 0, 1, by decide +kernel⟩,
    ⟨win1 pk1, 0, 0, 1, pk1, parsePacket pk1, by decide +kernel, by decide +kernel, by decide +kernel, by decide +kernel,
      by decide +kernel, by decide +kernel, rfl, rfl, by decide +kernel⟩,
    ⟨win1 (pk1.set 4 8), 0, 0, 1, pk1.set 4 8, parsePacket (pk1.set 4 8), by decide +kernel, by decide +kernel, by decide +kernel,
      by decide +kernel, by decide +kernel, by decide +kernel, rfl, rfl, by decide +kernel⟩,
    ⟨w.modQueue 0 fun x => { x with taken := [tk1] }, 0, 0, by decide +kernel⟩⟩

/-- What `Obligations.HostPortCommands` supposes holds somewhere, clause by clause. -/
theorem wit_HostPortCommands :
    (∃ (s : State) (f q : Nat),
      f < 64 ∧ q < 8192 ∧ s.hostReaches f = true ∧ (s.queue q).func = f ∧ (s.queue q).st = .enabled) ∧
    (∃ (s : State) (f q : Nat),
      f < 64 ∧ q < 8192 ∧ s.hostReaches f = true ∧ (s.queue q).func = f) ∧
    (∃ (s : State) (f : Nat) (v : BitVec 32),
      f < 64 ∧ s.hostReaches f = true ∧ (s.queue 0).func = f ∧ (s.queue 0).st = .disabled ∧ v.getLsbD 9 = false ∧
      v.getLsbD 8 = true ∧ 19 ≤ v.toNat % 32 ∧ v.toNat % 32 ≤ 26) ∧
    (∃ (s : State) (f : Nat) (v : BitVec 32),
      f < 64 ∧ s.hostReaches f = true ∧ (s.queue 0).func = f ∧ v.getLsbD 9 = true) ∧
    (∃ (s : State) (f q o : Nat) (data : List Byte),
      f < 64 ∧ q < 8192 ∧ o + data.length ≤ 16384 ∧ s.hostReaches f = true ∧ (s.queue q).func = f ∧ (s.queue q).st = .enabled) ∧
    (∃ (s : State),
      s.hostUp = true) ∧
    (∃ (s : State) (f : Nat),
      s.hostUp = true ∧ 0 < f ∧ f < 64) ∧
    (∃ (s : State) (f : Nat),
      s.hostUp = true ∧ f < 64) ∧
    (∃ (s : State) (f : Nat),
      s.hostUp = true ∧ f < 64 ∧ (s.func f).d3 = true) :=
  ⟨⟨w, 0, 1, by decide +kernel⟩,
    ⟨w, 0, 1, by decide +kernel⟩,
    ⟨{ w with queues := [] }, 0, 0x114, by decide +kernel⟩,
    ⟨w, 0, 0x200, by decide +kernel⟩,
    ⟨w, 0, 1, 8192, [1, 2, 3, 4], by decide +kernel⟩,
    ⟨w, by decide +kernel⟩,
    ⟨w, 2, by decide +kernel⟩,
    ⟨w, 2, by decide +kernel⟩,
    ⟨{ w with funcs := [(2, { Func.reset 2 with d3 := true })] }, 2, by decide +kernel⟩⟩

/-- What `Obligations.PostingCommands` supposes holds somewhere, clause by clause. -/
theorem wit_PostingCommands :
    (∃ (s : State) (q : Nat) (r : Reply) (rest : List Reply),
      q < 8192 ∧ (s.queue q).held = r :: rest ∧
      (s.hostUp = true → (s.func (s.queue q).func).d3 = false ∧ (s.queue q).room r.units = true)) ∧
    (∃ (s : State) (p : Pkt) (f q : Nat),
      OnQueue s p ∧ s.due 0x0E03 p = true ∧ s.permitted .m p = true ∧ f < 64 ∧ (q = 0xFFFF ∨ s.eventQueueOk f q = true)) ∧
    (∃ (s : State) (p : Pkt),
      OnQueue s p ∧ s.due 0x0E04 p = true ∧ s.permitted .m p = true) ∧
    (∃ (s : State) (q : Nat),
      q < 8192 ∧ (s.queue q).timerOn = true) ∧
    (∃ (s : State) (e : Event) (r : List Event),
      s.dueFunc = none ∧ s.raised = e :: r) ∧
    (∃ (s : State) (f : Nat) (h : BitVec 32 × Event) (r : List (BitVec 32 × Event)),
      s.dueFunc = some f ∧ (s.func f).held = h :: r) :=
  ⟨⟨w.modQueue 0 fun x => { x with held := [rp1], log2size := 19 }, 0, rp1, [], by decide +kernel⟩,
    ⟨w, pm, 0, 0, onq (by decide +kernel), by decide +kernel⟩,
    ⟨w, pm, onq (by decide +kernel), by decide +kernel⟩,
    ⟨w.modQueue 0 fun x => { x with irqEn := true, coalUs := 5, coalDone := 1 }, 0, by decide +kernel⟩,
    ⟨{ w with raised := [darnerEvent 0 0x0034 .ok 0] }, darnerEvent 0 0x0034 .ok 0, [], by decide +kernel⟩,
    ⟨{ w with funcs := [(0, { Func.reset 0 with held := [(4, darnerEvent 0 0x0034 .ok 0)] })] }, 0,
      (4, darnerEvent 0 0x0034 .ok 0), [], by decide +kernel⟩⟩

/-- A wrap block whose X25519 secret is zero, and for each target one whose tag is right. -/
def wk0 : WrapBlk := { eph := [], ct := [], nonce := [], gtag := 0, wrapped := [], xSecret := [0], mSecret := [] }
def wk1 (kind target : Nat) (m : BitVec 8) : WrapBlk :=
  { wk0 with
    xSecret := [1]
    gtag := Config.gcmTag (wrapKek kind target m { wk0 with xSecret := [1] }) [] (wrapHead kind target m wk0) [] }

theorem wk1_ok (kind target : Nat) (m : BitVec 8) : unwrap kind target m (wk1 kind target m) = some [] := by
  simp [unwrap, wk1, wk0, wrapKek, wrapHead, zeroAt]

/-- What `Obligations.KeyCommands` supposes holds somewhere, clause by clause. -/
theorem wit_KeyCommands :
    (∃ (s : State) (p : Pkt) (tenant : Nat) (m : BitVec 8) (w : WrapBlk),
      OnQueue s p ∧ s.due 0x0E10 p = true ∧ s.permitted .m p = true ∧ tenant < 64 ∧ s.hasTenant tenant = true ∧
      (∀ d ∈ maskDies m, s.usable d = true ∧ s.hasKey d tenant = false) ∧ unwrap 1 tenant m w = none) ∧
    (∃ (s : State) (p : Pkt) (tenant : Nat) (m : BitVec 8) (w : WrapBlk), ∃ k,
      OnQueue s p ∧ s.due 0x0E10 p = true ∧ s.permitted .m p = true ∧ tenant < 64 ∧ s.hasTenant tenant = true ∧
      (∀ d ∈ maskDies m, s.usable d = true ∧ s.hasKey d tenant = false) ∧ unwrap 1 tenant m w = some k) ∧
    (∃ (s : State) (p : Pkt) (n : Nat) (w : WrapBlk) (k : List Byte),
      OnQueue s p ∧ s.due 0x0E10 p = true ∧ s.permitted .m p = true ∧ n < 16 ∧ tfind s.psi.imageKeys n = none ∧
      unwrap 2 n 0 w = some k) ∧
    (∃ (s : State) (p : Pkt) (l : List SignEntry),
      OnQueue s p ∧ s.due 0x0E10 p = true ∧ s.permitted .m p = true ∧ s.part.prov = false ∧ (∀ e ∈ s.psi.signing, e.1 < 2) ∧
      1 ≤ l.length ∧ l.length ≤ 6 ∧ (∀ e ∈ l, e.usage = 1 ∨ e.usage = 2)) ∧
    (∃ (s : State) (p : Pkt) (tenant : Nat) (m : BitVec 8),
      s.due 0x0E11 p = true ∧ s.permitted .m p = true ∧ tenant < 64 ∧
      (∀ d ∈ maskDies m, s.usable d = true ∧ s.hasKey d tenant = true)) :=
  ⟨⟨on0 (fun x => { x with sealSlots := [(0, (1, 2, 0xFF))] }), pm, 3, 1, wk0, onq (by decide +kernel), by decide +kernel⟩,
    ⟨on0 (fun x => { x with sealSlots := [(0, (1, 2, 0xFF))] }), pm, 3, 1, wk1 1 3 1, [], onq (by decide +kernel), by decide +kernel,
      by decide +kernel, by decide +kernel, by decide +kernel, by decide +kernel, wk1_ok 1 3 1⟩,
    ⟨w, pm, 4, wk1 2 4 0, [], onq (by decide +kernel), by decide +kernel, by decide +kernel, by decide +kernel, by decide +kernel,
      wk1_ok 2 4 0⟩,
    ⟨{ w with psi := { w.psi with signing := [(0, ky 0)] } }, pm, [{ usage := 1, edHash := 5, pqHash := 6 }], onq (by decide +kernel),
      by decide +kernel⟩,
    ⟨w, pm, 3, 3, by decide +kernel⟩⟩

/-- What `Obligations.FirmwareAndDebugCommands` supposes holds somewhere, clause by clause. -/
theorem wit_FirmwareAndDebugCommands :
    (∃ (s : State) (p : Pkt) (off a : Nat) (data : List Byte),
      OnQueue s p ∧ s.due 0x0E12 p = true ∧ s.permitted .m p = true ∧ s.fwInactive = some a ∧ a + off + data.length ≤ 2 ^ 32) ∧
    (∃ (s : State) (p : Pkt) (chk : ImgChk) (d a : Nat),
      OnQueue s p ∧ s.due 0x0E12 p = true ∧ s.permitted .m p = true ∧ s.fwDir = some d ∧ s.fwInactive = some a ∧
      s.fwCheck a chk = none) ∧
    (∃ (s : State) (p : Pkt) (v : Nat),
      OnQueue s p ∧ s.due 0x0E12 p = true ∧ s.permitted .m p = true ∧ s.psi.fwMin ≤ v ∧ v ≤ 63 ∧ v ≤ s.psi.fw.secVersion) ∧
    (∃ (s : State) (p : Pkt) (v : Nat),
      OnQueue s p ∧ s.due 0x0E12 p = true ∧ s.permitted .m p = true ∧ s.psi.cfgMin ≤ v ∧ v ≤ 63) ∧
    (∃ (s : State) (p : Pkt),
      OnQueue s p ∧ s.due 0x0E13 p = true ∧ s.permitted .m p = true) ∧
    (∃ (s : State) (p : Pkt) (k : DebugToken),
      OnQueue s p ∧ s.due 0x0E13 p = true ∧ s.permitted .m p = true ∧ s.tokenBad k = none) ∧
    (∃ (s : State) (p : Pkt) (k : DebugToken) (st : Status),
      OnQueue s p ∧ s.due 0x0E13 p = true ∧ s.permitted .m p = true ∧ s.tokenBad k = some st) :=
  ⟨⟨fl1, pm, 64, 0x20000, [1, 2, 3], onq (by decide +kernel), by decide +kernel⟩,
    ⟨fl1, pm, chk1, 0, 0x20000, onq (by decide +kernel), by decide +kernel, by decide +kernel, by decide +kernel,
      by decide +kernel, (fw_flash (u := 0) (by decide +kernel) (.inr rfl) rfl rfl rfl rfl).trans (by decide +kernel)⟩,
    ⟨fl1, pm, 9, onq (by decide +kernel), by decide +kernel⟩,
    ⟨fl1, pm, 63, onq (by decide +kernel), by decide +kernel⟩,
    ⟨w, pm, onq (by decide +kernel), by decide +kernel⟩,
    ⟨{ w with psi := { w.psi with dbg := { w.psi.dbg with nonce := some 77 } } }, pm, tok1, onq (by decide +kernel),
      by decide +kernel, by decide +kernel, tok1_ok rfl (by decide +kernel) rfl rfl⟩,
    ⟨w, pm, tok1, .authFail, onq (by decide +kernel), by decide +kernel, by decide +kernel, tok1_fail rfl⟩⟩

/-- What `Obligations.SidebandCommands` supposes holds somewhere, clause by clause. -/
theorem wit_SidebandCommands :
    (∃ (s : State),
      s.running = true ∧ s.hostUp = true) ∧
    (∃ (s : State),
      s.sideOn = true) ∧
    (∃ (s : State) (off : Nat) (data : List Byte),
      s.sideOn = true ∧ data.length ≤ 32 ∧ off + data.length ≤ 8192) ∧
    (∃ (s : State) (h l : List Byte),
      s.sideOn = true ∧ h = mreadN s.psi.sideband.mbox 0 64 ∧ l = mreadN s.psi.sideband.mbox 0 (64 * needUnits h) ∧
      frameBad h = false ∧ 64 * needUnits h ≤ 8192) ∧
    (∃ (s : State) (len : Nat),
      s.sideOn = true ∧ len ≤ 32) :=
  ⟨⟨w, by decide +kernel⟩,
    ⟨w, by decide +kernel⟩,
    ⟨w, 8180, [1, 2, 3], by decide +kernel⟩,
    ⟨{ w with psi := { w.psi with sideband := { w.psi.sideband with mbox := mwriteN [] 0 pk1 } } }, pk1, pk1, by decide +kernel,
      rfl, rfl, by decide +kernel⟩,
    ⟨w, 16, by decide +kernel⟩⟩

/-- What `Obligations.WringRequests` supposes holds somewhere, clause by clause. -/
theorem wit_WringRequests :
    (∃ (s : State) (d w : Nat) (q : WReq),
      d < s.dieCount ∧ w < 80 ∧ s.acceptDue d w = true ∧ (s.die d).arriving w = some q ∧ (s.die d).wringerOut w = false ∧
      s.wringerUp d w = true) ∧
    (∃ (s : State) (d w : Nat) (q : WReq),
      d < s.dieCount ∧ w < 80 ∧ s.acceptDue d w = true ∧ (s.die d).arriving w = some q ∧ (s.die d).wringerOut w = false ∧
      s.wringerUp d w = false) ∧
    (∃ (s : State) (d w : Nat) (q : WReq),
      d < s.dieCount ∧ w < 80 ∧ s.acceptDue d w = true ∧ (s.die d).arriving w = some q ∧ (s.die d).wringerOut w = true) ∧
    (∃ (s : State) (d w : Nat) (q : WReq), ∃ res,
      d < s.dieCount ∧ w < 80 ∧ s.wLive d w = true ∧ ((s.die d).wringer w).nextOpen = some q ∧ q.ok = true ∧
      (s.die d).resolve q = .found res) ∧
    (∃ (s : State) (d w : Nat) (q : WReq),
      d < s.dieCount ∧ w < 80 ∧ s.wLive d w = true ∧ ((s.die d).wringer w).nextOpen = some q ∧ q.ok = false) ∧
    (∃ (s : State) (d w : Nat) (q : WReq),
      d < s.dieCount ∧ w < 80 ∧ s.wLive d w = true ∧ ((s.die d).wringer w).nextOpen = some q ∧ q.ok = true ∧
      (s.die d).resolve q = .wrong) ∧
    (∃ (s : State) (d w : Nat) (q : WReq), ∃ i tok,
      d < s.dieCount ∧ w < 80 ∧ s.wLive d w = true ∧ ((s.die d).wringer w).nextOpen = some q ∧ q.ok = true ∧
      (s.die d).resolve q = .lost i tok) ∧
    (∃ (s : State) (d w i : Nat) (o : WOpen) (r : Resolved),
      d < s.dieCount ∧ w < 80 ∧ s.streamDue d w = true ∧ (s.die d).granted w = some (i, o) ∧ o.res[o.done]? = some r ∧
      o.req.seen r = []) ∧
    (∃ (s : State) (d w i : Nat) (o : WOpen) (r : Resolved),
      d < s.dieCount ∧ w < 80 ∧ s.streamDue d w = true ∧ (s.die d).granted w = some (i, o) ∧ o.res[o.done]? = some r ∧
      o.req.seen r ≠ [] ∧ ((s.die d).region (chanRegion r.loc.code)).closed = true) ∧
    (∃ (s : State) (d w i : Nat) (o : WOpen) (r : Resolved),
      d < s.dieCount ∧ w < 80 ∧ s.streamDue d w = true ∧ (s.die d).granted w = some (i, o) ∧ o.res[o.done]? = some r ∧
      o.req.seen r ≠ [] ∧ ((s.die d).region (chanRegion r.loc.code)).closed = false ∧ s.readStop d w o r = none) ∧
    (∃ (s : State) (d w : Nat) (o : WOpen),
      d < s.dieCount ∧ w < 80 ∧ s.wLive d w = true ∧ ((s.die d).wringer w).openR.find? WOpen.over_ = some o) :=
  ⟨⟨on0 (fun x => { x with reqNet := [rq1] }), 0, 0, rq1, by decide +kernel⟩,
    ⟨on0 (fun x => { x with reqNet := [rq1], regions := [(0, { reg0 with power := .asleep, gated := true })] }), 0, 0, rq1, by decide +kernel⟩,
    ⟨on0 (fun x => { x with reqNet := [rq1], fenced := [(unitKey 4 0, 1)] }), 0, 0, rq1, by decide +kernel⟩,
    ⟨wr1 { input := [rq1], openR := [] } sheet0 id, 0, 0, rq1, res1, by decide +kernel⟩,
    ⟨wr1 { input := [{ rq1 with d := 7 }], openR := [] } sheet0 id, 0, 0, { rq1 with d := 7 }, by decide +kernel⟩,
    ⟨wr1 { input := [rq1], openR := [] } { sheet0 with layer := 1 } id, 0, 0, rq1, by decide +kernel⟩,
    ⟨wr1 { input := [rq1], openR := [] } { sheet0 with st := .lost } id, 0, 0, rq1, 0, 0, by decide +kernel⟩,
    ⟨wr1 { input := [], openR := [{ op1 with req := { rq1 with padFlag := true, pad0hi := 64 } }] } sheet0 id, 0, 0, 0,
      { op1 with req := { rq1 with padFlag := true, pad0hi := 64 } }, res1.headD ⟨0, locOf 0 0, 0, 0, 0, 0⟩, by decide +kernel⟩,
    ⟨wr1 { input := [], openR := [{ op1 with req := { rq1 with pos0 := 0 }, res := [{ handle := 9, loc := locOf 8 5, fmt := 0, first := 0, tok := 64, slot := 1 }] }] } sheet0
        fun x => { x with regions := [(1, { reg0 with power := .asleep, gated := true })] }, 0, 0, 0,
      { op1 with req := { rq1 with pos0 := 0 }, res := [{ handle := 9, loc := locOf 8 5, fmt := 0, first := 0, tok := 64, slot := 1 }] },
      { handle := 9, loc := locOf 8 5, fmt := 0, first := 0, tok := 64, slot := 1 }, by decide +kernel⟩,
    ⟨wr1 { input := [], openR := [{ op1 with req := { rq1 with pos0 := 0 } }] } sheet0 id, 0, 0, 0,
      { op1 with req := { rq1 with pos0 := 0 } }, res1.headD ⟨0, locOf 0 0, 0, 0, 0, 0⟩, by decide +kernel⟩,
    ⟨wr1 { input := [], openR := [{ op1 with done := 1 }] } sheet0 id, 0, 0, { op1 with done := 1 }, by decide +kernel⟩⟩

/-- What `Obligations.WringerAppendsAndFences` supposes holds somewhere, clause by clause. -/
theorem wit_WringerAppendsAndFences :
    (∃ (s : State) (d w k : Nat) (o : WOpen),
      d < s.dieCount ∧ w < 80 ∧ s.wLive d w = true ∧ (s.die d).appendNext w false = some (k, o) ∧ s.appendReach d o = true ∧
      (s.die d).tailMoving o.req = true) ∧
    (∃ (s : State) (i : Instr) (d w h k : Nat) (o : WOpen) (e : Ream) (res : List Resolved) (off : Nat) (bs : List Byte),
      d < s.dieCount ∧ w < 80 ∧ s.wLive d w = true ∧ s.appendReach d o = true ∧
      ((i = .append d w ∧ (s.die d).appendNext w false = some (k, o) ∧ (s.die d).tailMoving o.req = false) ∨ (i = .appendResume d w ∧ (s.die d).appendNext w true = some (k, o))) ∧
      ((s.die d).region (chanRegion ((s.die d).tailChan o))).closed = false ∧ h = o.req.handles.headD 0 ∧
      e = (s.die d).entry h ∧ (s.die d).resolve o.req = .found res ∧ s.appendOk o.req e = true ∧
      (s.die d).slotLoaded e.slot = true ∧ ((s.die d).region (chanRegion e.loc.code)).isolated = false ∧
      off = e.tok * slotBytes o.req.h o.req.d e.fmt ∧ bs = (o.req.slots e.fmt).1) ∧
    (∃ (s : State) (d w cause : Nat),
      d < s.dieCount ∧ w < 80 ∧ s.wringFenceDue d w cause = true) :=
  ⟨⟨wr1 { input := [], openR := [op2] } { tail9 with st := .moving } id, 0, 0, 0, op2, by decide +kernel⟩,
    ⟨wr1 { input := [], openR := [op2] } tail9 id, .append 0 0, 0, 0, 9, 0, op2, tail9, op2.res, 4 * slotBytes 1 32 0,
      (rq2.slots 0).1, by decide +kernel, by decide +kernel, by decide +kernel, by decide +kernel, by decide +kernel,
      by decide +kernel, by decide +kernel, rfl, by decide +kernel, by decide +kernel, by decide +kernel, by decide +kernel,
      by decide +kernel, rfl⟩,
    ⟨w, 0, 0, 1, by decide +kernel⟩⟩

/-- What `Obligations.ReamAndMover` supposes holds somewhere, clause by clause. -/
theorem wit_ReamAndMover :
    (∃ (s : State) (d : Nat),
      s.live d = true) ∧
    (∃ (s : State) (d : Nat),
      s.live d = true) ∧
    (∃ (s : State) (d h : Nat),
      s.live d = true ∧ h ∈ (s.die d).reamBad) ∧
    (∃ (s : State) (n : Nat) (q : Sequence),
      s.live (seqDie n) = true ∧ tfind s.seqs n = some q ∧ q.st = .active ∧ q.heldBy = none) ∧
    (∃ (s : State) (ms : Nat),
      s.running = true ∧ ms ≤ 1000) ∧
    (∃ (s : State) (d h : Nat) (l : Loc),
      d < s.dieCount ∧ s.moverDue d = true ∧ s.nextCopy d = some (h, l)) ∧
    (∃ (s : State) (d h : Nat) (c : Copy),
      d < s.dieCount ∧ s.copyUp d h = true ∧ (s.die d).copyOf h = some c ∧ Memory.wf (s.die d).dram = true) ∧
    (∃ (s : State) (d h : Nat) (c : Copy),
      d < s.dieCount ∧ s.copyUp d h = true ∧ (s.die d).copyOf h = some c) ∧
    (∃ (s : State) (d h : Nat) (c : Copy),
      d < s.dieCount ∧ s.copyUp d h = true ∧ (s.die d).copyOf h = some c) ∧
    (∃ (s : State) (d h : Nat) (c : Copy),
      s.live d = true ∧ (s.die d).flippedOf h = some c ∧ (s.die d).drainedFrom c = true) :=
  ⟨⟨wr1 { input := [], openR := [] } sheet0 id, 0, by decide +kernel⟩,
    ⟨wr1 { input := [], openR := [] } sheet0 id, 0, by decide +kernel⟩,
    ⟨wr1 { input := [], openR := [] } sheet0 (fun x => { x with reamBad := [9] }), 0, 9, by decide +kernel⟩,
    ⟨{ w with seqs := [(0, sq0)] }, 0, sq0, by decide +kernel⟩,
    ⟨{ w with seqs := [(0, { sq0 with st := .suspended, cls := 1, suspMs := 600 })], tenants := [(3, { quantum := 65536, idleMs := 1000, resumeS := 1, destroy := none })] },
      500, by decide +kernel⟩,
    ⟨wr1 { input := [], openR := [] } sheet0 (fun x => { x with hints := [(9, false)], lowMark := 0 }), 0, 9, locOf 64 0,
      by decide +kernel, by decide +kernel, next_hint (by decide +kernel) (by decide +kernel)⟩,
    ⟨wr1 { input := [], openR := [] } { sheet0 with st := .moving } (fun x => { x with copies := [{ handle := 9, src := locOf 0 5, dst := locOf 64 3, prev := .full, flipped := false }] }),
      0, 9, { handle := 9, src := locOf 0 5, dst := locOf 64 3, prev := .full, flipped := false }, by decide +kernel⟩,
    ⟨wr1 { input := [], openR := [] } { sheet0 with st := .moving } (fun x => { x with copies := [{ handle := 9, src := locOf 0 5, dst := locOf 64 3, prev := .full, flipped := false }] }),
      0, 9, { handle := 9, src := locOf 0 5, dst := locOf 64 3, prev := .full, flipped := false }, by decide +kernel⟩,
    ⟨wr1 { input := [], openR := [] } { sheet0 with st := .moving } (fun x => { x with copies := [{ handle := 9, src := locOf 0 5, dst := locOf 64 3, prev := .full, flipped := false }] }),
      0, 9, { handle := 9, src := locOf 0 5, dst := locOf 64 3, prev := .full, flipped := false }, by decide +kernel⟩,
    ⟨wr1 { input := [], openR := [] } { sheet0 with loc := locOf 64 3 } (fun x => { x with copies := [{ (({ handle := 9, src := locOf 0 5, dst := locOf 64 3, prev := .full, flipped := false }) : Copy) with flipped := true }] }),
      0, 9,
      { (({ handle := 9, src := locOf 0 5, dst := locOf 64 3, prev := .full, flipped := false }) : Copy) with flipped := true },
      by decide +kernel⟩⟩

/-- What `Obligations.MatrixDescriptors` supposes holds somewhere, clause by clause. -/
theorem wit_MatrixDescriptors :
    (∃ (s : State) (i : Instr) (a : AAt) (addr c : Nat) (y : Ctx),
      s.aUnits a = true ∧ a.err = 0 ∧ s.aIssue a = true ∧
      ((i = .matmul a addr ∧ dw (s.aDesc a addr) 0 31 28 ≠ 2) ∨ (i = .attend a addr ∧ dw (s.aDesc a addr) 0 31 28 = 2)) ∧
      s.aCtx a = some (c, y) ∧ addr % 64 = 0 ∧ addr + 64 ≤ y.declared ∧ (s.die a.die).isFenced 2 (arrNo a) = false) ∧
    (∃ (s : State) (a : AAt) (d : BitVec 512) (c : Nat) (rest : List (BitVec 512 × Nat)) (y : Ctx),
      s.aUnits a = true ∧ a.err = 0 ∧ s.startDue a = true ∧ (s.array a).queue = (d, c) :: rest ∧
      tfind (s.die a.die).ctxs c = some y ∧ dw d 0 31 28 ≠ 2) ∧
    (∃ (s : State) (a : AAt) (d : BitVec 512) (c : Nat) (rest : List (BitVec 512 × Nat)) (y : Ctx),
      s.aUnits a = true ∧ a.err = 0 ∧ s.startDue a = true ∧ (s.array a).queue = (d, c) :: rest ∧
      tfind (s.die a.die).ctxs c = some y ∧ dw d 0 31 28 = 2 ∧ s.attOk y ((s.array a).atts.map (·.slot)) d = true) ∧
    (∃ (s : State) (a : AAt) (d : BitVec 512) (c : Nat) (rest : List (BitVec 512 × Nat)) (y : Ctx),
      s.aUnits a = true ∧ a.err = 0 ∧ s.startDue a = true ∧ (s.array a).queue = (d, c) :: rest ∧
      tfind (s.die a.die).ctxs c = some y ∧ dw d 0 31 28 = 2 ∧ s.attOk y ((s.array a).atts.map (·.slot)) d = false) ∧
    (∃ (s : State) (a : AAt) (q mc nb kb : Nat) (u : Run),
      s.aUnits a = true ∧ a.err = 0 ∧ q < 4 ∧ s.loadDue a q = true ∧ (s.array a).loading q = some u ∧
      mmPassAt u.desc u.loadIx = (mc, nb, kb) ∧ s.blkSrc a u = .mem ∧ thas (s.array a).back q = false) ∧
    (∃ (s : State) (a : AAt) (q mc nb kb : Nat) (u : Run),
      s.aUnits a = true ∧ a.err = 0 ∧ q < 4 ∧ s.loadDue a q = true ∧ (s.array a).loading q = some u ∧
      mmPassAt u.desc u.loadIx = (mc, nb, kb) ∧ thas (s.array a).back q = true) ∧
    (∃ (s : State) (a : AAt) (q mc nb kb : Nat) (u : Run),
      s.aUnits a = true ∧ a.err = 0 ∧ q < 4 ∧ s.loadDue a q = true ∧ (s.array a).loading q = some u ∧
      mmPassAt u.desc u.loadIx = (mc, nb, kb) ∧ thas (s.array a).back q = false ∧ tfind (s.array a).badLoad q = none ∧
      (s.die a.die).errIn (unitKey 2 (arrNo a)) nclkHour < 255) ∧
    (∃ (s : State) (a : AAt) (q : Nat) (u : Run) (b : Blk),
      s.aUnits a = true ∧ a.err = 0 ∧ q < 4 ∧ s.swapDue a q = true ∧ (s.array a).passRun q = some u ∧
      tfind (s.array a).back q = some b) ∧
    (∃ (s : State) (a : AAt) (w : BitVec 512) (rest : List (BitVec 512)),
      s.aUnits a = true ∧ a.err = 0 ∧ s.rowDue a = true ∧ (s.array a).fifo = w :: rest) ∧
    (∃ (s : State) (a : AAt) (q : Nat) (u : Run),
      (s.array a).runs.find? (Run.emitting q) = some u ∧ mmPort u.desc = false) ∧
    (∃ (s : State) (a : AAt) (idx : Nat) (u : Run) (y : Ctx),
      s.aUnits a = true ∧ a.err = 0 ∧ s.runDue a idx = true ∧ (s.array a).runs[idx]? = some u ∧
      tfind (s.die a.die).ctxs u.ctx = some y) ∧
    (∃ (s : State) (a : AAt) (idx : Nat) (v : Att) (y : Ctx),
      s.aUnits a = true ∧ a.err = 0 ∧ s.attDue a idx = true ∧ (s.array a).atts[idx]? = some v ∧
      tfind (s.die a.die).ctxs v.ctx = some y) :=
  ⟨⟨arr1 id id, .matmul aa 0, aa, 0, 5, yy, by decide +kernel⟩,
    ⟨arr1 (fun r => { r with queue := [(mm1, 5)] }) (id), aa, mm1, 5, [], yy, by decide +kernel⟩,
    ⟨arr1 (fun r => { r with queue := [(at2, 5)] }) (id), aa, at2, 5, [], yy, by decide +kernel⟩,
    ⟨arr1 (fun r => { r with queue := [(at2, 5)], atts := [att4] }) (id), aa, at2, 5, [], yy, by decide +kernel⟩,
    ⟨arr1 (fun r => { r with runs := [run1] }) (id), aa, 0, 0, 0, 0, run1, by decide +kernel⟩,
    ⟨arr1 (fun r => { r with runs := [run1], back := [(0, blk1)] }) (id), aa, 0, 0, 0, 0, run1, by decide +kernel⟩,
    ⟨arr1 (fun r => { r with runs := [run1] }) (id), aa, 0, 0, 0, 0, run1, by decide +kernel⟩,
    ⟨arr1 (fun r => { r with runs := [{ run1 with loadIx := 1 }], back := [(0, blk1)] }) (id), aa, 0, { run1 with loadIx := 1 },
      blk1, by decide +kernel⟩,
    ⟨arr1 (fun r => { r with runs := [{ run1 with loadIx := 1, token := false, desc := mm1 ||| mkd [(0, 24, 1)] }], front := [(0, blk1)], fifo := [5] }) (id),
      aa, 5, [], by decide +kernel⟩,
    ⟨arr1 (fun r => { r with runs := [{ run1 with loadIx := 1, passIx := 1 }] }) (id), aa, 0, { run1 with loadIx := 1, passIx := 1 },
      by decide +kernel⟩,
    ⟨arr1 (fun r => { r with runs := [{ run1 with status := some .badParam }] }) (id), aa, 0,
      { run1 with status := some .badParam }, yy, by decide +kernel⟩,
    ⟨arr1 (fun r => { r with atts := [{ att1 with fail := some .stateLost }] }) (id), aa, 0,
      { att1 with fail := some .stateLost }, yy, by decide +kernel⟩⟩

/-- What `Obligations.AttentionAndArrayFences` supposes holds somewhere, clause by clause. -/
theorem wit_AttentionAndArrayFences :
    (∃ (s : State) (a : AAt) (slot i : Nat) (v : Att) (e : WEntry),
      s.aUnits a = true ∧ a.err = 0 ∧ slot < 256 ∧ s.wringDue a slot = true ∧ s.att a slot = some v ∧
      v.entries.findIdx? (fun e => e.st == 0) = some i ∧ v.entries[i]? = some e) ∧
    (∃ (s : State) (a : AAt) (slot d : Nat) (p : WRep),
      s.aUnits a = true ∧ a.err = 0 ∧ slot < 256 ∧ s.live a.die = true ∧ s.repFor a slot false = some (d, p) ∧
      s.att a slot = none) ∧
    (∃ (s : State) (a : AAt) (slot d : Nat) (p : WRep), ∃ v e,
      s.aUnits a = true ∧ a.err = 0 ∧ slot < 256 ∧ s.live a.die = true ∧ s.repFor a slot false = some (d, p) ∧
      s.att a slot = some v ∧ v.entries[p.tag]? = some e ∧ e.st = 1 ∧ v.fail = none ∧ p.status = .ok) ∧
    (∃ (s : State) (a : AAt) (slot d : Nat) (p : WRep) (v : Att) (e : AEntry),
      s.aUnits a = true ∧ a.err = 0 ∧ slot < 256 ∧ s.live a.die = true ∧ s.repFor a slot true = some (d, p) ∧
      s.att a slot = some v ∧ v.appends[p.tag]? = some e ∧ e.st = 1 ∧ p.status = .ok) ∧
    (∃ (s : State) (i : Instr) (a : AAt) (slot k : Nat) (v : Att) (e : WEntry),
      s.aUnits a = true ∧ a.err = 0 ∧ slot < 256 ∧
      ((i = .resendTimeout a slot k ∧ s.resendDue a slot k false = true) ∨ (i = .resendAfterFlip a slot k ∧ s.resendDue a slot k true = true)) ∧
      s.att a slot = some v ∧ v.entries[k]? = some e) ∧
    (∃ (s : State) (i : Instr) (a : AAt) (slot k : Nat) (v : Att) (e : AEntry),
      s.aUnits a = true ∧ a.err = 0 ∧ slot < 256 ∧
      ((i = .resendTimeout a slot (v.entries.length + k) ∧ s.resendDue a slot (v.entries.length + k) false = true) ∨ (i = .resendAfterFlip a slot (v.entries.length + k) ∧ s.resendDue a slot (v.entries.length + k) true = true)) ∧
      s.att a slot = some v ∧ v.appends[k]? = some e) ∧
    (∃ (s : State) (i : Instr) (a : AAt),
      s.aUnits a = true ∧ 2 ≤ a.err ∧
      ((∃ n, i = .matmul a n ∧ s.aIssue a = true ∧ dw (s.aDesc a n) 0 31 28 ≠ 2) ∨ (∃ n, i = .attend a n ∧ s.aIssue a = true ∧ dw (s.aDesc a n) 0 31 28 = 2) ∨ (i = .descriptorStart a ∧ s.startDue a = true) ∨ (∃ q b, i = .blockLoad a q b ∧ q < 4 ∧ s.loadDue a q = true) ∨ (∃ q, i = .passSwap a q ∧ q < 4 ∧ s.swapDue a q = true) ∨ (∃ n, i = .wringSend a n ∧ n < 256 ∧ s.wringDue a n = true) ∨ (∃ n, i = .partialMerge a n ∧ n < 256 ∧ s.live a.die = true ∧ s.repFor a n false ≠ none) ∨ (∃ n, i = .descriptorComplete a n ∧ n < (s.array a).runs.length ∧ s.runDue a n = true) ∨ (∃ n, i = .descriptorComplete a ((s.array a).runs.length + n) ∧ s.attDue a n = true) ∨ (i = .staggerRow a ∧ s.rowDue a = true) ∨ (∃ n, i = .appendDone a n ∧ n < 256 ∧ s.live a.die = true ∧ s.repFor a n true ≠ none) ∨ (∃ n k, i = .resendTimeout a n k ∧ n < 256 ∧ s.resendDue a n k false = true) ∨ ∃ n k, i = .resendAfterFlip a n k ∧ n < 256 ∧ s.resendDue a n k true = true)) :=
  ⟨⟨arr1 (fun r => { r with atts := [att1] }) (id), aa, 3, 0, att1,
      ({ chan := 0, handles := [9], st := 0, flips := 0, sends := 0, rows := none, rep := none } : WEntry),
      by decide +kernel⟩,
    ⟨arr1 (fun r => { r with atts := [] }) (fun x => { x with repNet := [rep1] }), aa, 3, 0, rep1, by decide +kernel⟩,
    ⟨arr1 (fun r => { r with atts := [{ att1 with entries := [{ chan := 0, handles := [9], st := 1, flips := 0, sends := 1, rows := none, rep := none }] }] }) (fun x => { x with repNet := [rep1] }),
      aa, 3, 0, rep1,
      { att1 with entries := [{ chan := 0, handles := [9], st := 1, flips := 0, sends := 1, rows := none, rep := none }] },
      ({ chan := 0, handles := [9], st := 1, flips := 0, sends := 1, rows := none, rep := none } : WEntry),
      by decide +kernel⟩,
    ⟨arr1 (fun r => { r with atts := [{ att1 with appends := [{ chan := 0, handle := 9, first := 0, count := 1, st := 1, flips := 0, sends := 1, body := [] }] }] }) (fun x => { x with repNet := [{ rep1 with isAppend := true }] }),
      aa, 3, 0, { rep1 with isAppend := true },
      { att1 with appends := [{ chan := 0, handle := 9, first := 0, count := 1, st := 1, flips := 0, sends := 1, body := [] }] },
      ({ chan := 0, handle := 9, first := 0, count := 1, st := 1, flips := 0, sends := 1, body := [] } : AEntry),
      by decide +kernel⟩,
    ⟨arr1 (fun r => { r with atts := [{ att1 with entries := [{ chan := 0, handles := [9], st := 2, flips := 0, sends := 1, rows := none, rep := none }] }] }) (fun x => { x with flips := 1 }),
      .resendAfterFlip aa 3 0, aa, 3, 0,
      { att1 with entries := [{ chan := 0, handles := [9], st := 2, flips := 0, sends := 1, rows := none, rep := none }] },
      ({ chan := 0, handles := [9], st := 2, flips := 0, sends := 1, rows := none, rep := none } : WEntry),
      by decide +kernel⟩,
    ⟨arr1 (fun r => { r with atts := [{ att1 with appends := [{ chan := 0, handle := 9, first := 0, count := 1, st := 2, flips := 0, sends := 1, body := [] }] }] }) (id),
      .resendTimeout aa 3 1, aa, 3, 0,
      { att1 with appends := [{ chan := 0, handle := 9, first := 0, count := 1, st := 2, flips := 0, sends := 1, body := [] }] },
      ({ chan := 0, handle := 9, first := 0, count := 1, st := 2, flips := 0, sends := 1, body := [] } : AEntry),
      by decide +kernel⟩,
    ⟨arr1 (fun r => { r with queue := [(mm1, 5)] }) (id), .descriptorStart { aa with err := 2 }, { aa with err := 2 },
      by decide +kernel, by decide +kernel, .inr (.inr (.inl ⟨rfl, by decide +kernel⟩))⟩⟩

/-- A block fetch of the head's slot, its thread and the stream that moves it. -/
def f0 : TFetch := { slot := (14, 2), block := 0, gap := false }
def th2 : Thread := { th1 with fetch := [f0], next := 1, stream := 3 }
def st2 : Stream := { st1 with thread := some 7, cur := some (SRun.start src1) }
/-- All blocks are fetched, and the second member's slot fetches its own. -/
def thg : State :=
  thr1 { th1 with next := 2 } st1 fun x => { x with mtiles := [(7, { MTile.reset with slots := [(2, TSlot.bound 7)] }),
    (8, { MTile.reset with slots := [(1, { TSlot.bound 7 with attachFrom := 2 })] })] }

/-- What `Obligations.ThreadsAndStreams` supposes holds somewhere, clause by clause. -/
theorem wit_ThreadsAndStreams :
    (∃ (s : State) (d th : Nat) (h : Thread) (f : TFetch),
      s.live d = true ∧ th < 128 ∧ s.mayIssue d = true ∧ tfind (s.die d).threads th = some h ∧ (s.die d).headFetch h = some f) ∧
    (∃ (s : State) (d th : Nat) (h : Thread) (f : TFetch),
      s.live d = true ∧ th < 128 ∧ s.mayIssue d = true ∧ tfind (s.die d).threads th = some h ∧ (s.die d).headFetch h = none ∧
      (s.die d).gapFetch th h = some f) ∧
    (∃ (s : State) (d e n th : Nat) (q : Stream) (r : SRun) (h : Thread) (f : TFetch) (k : BlkPos) (y : Ctx) (g : Grant) (m : Model) (z0 : TSlot),
      e < 16 ∧ s.live d = true ∧ s.mayIssue d = true ∧ (s.die d).burstPick e = some (n, q) ∧ q.thread = some th ∧
      q.cur = some r ∧ s.burstBehind d q = none ∧ tfind (s.die d).threads th = some h ∧ h.fetch.head? = some f ∧
      h.block f.block = some k ∧ tfind (s.die d).ctxs h.ctx = some y ∧ tfind y.grants (dw r.desc 0 7 0) = some g ∧
      g.area = none ∧ tfind s.models y.model = some m ∧ s.hasKey d y.tenant = true ∧ dw r.desc 4 15 0 ≤ r.col + r.units ∧
      (s.die d).tslot f.slot.1 f.slot.2 = some z0 ∧ z0.detached = false ∧ z0.attachFrom ≤ f.block ∧ z0.taken ≤ f.block) ∧
    (∃ (s : State) (d th pos : Nat) (h : Thread) (x : Nat × TEntry) (e : Nat × Nat) (q : TSlot),
      s.live d = true ∧ th < 128 ∧ tfind (s.die d).threads th = some h ∧ h.transit.find? (fun x => x.1 == pos) = some x ∧
      h.members[pos]? = some e ∧ ((s.die d).region (e.1 / 16)).closed = false ∧ (s.die d).tslot e.1 e.2 = some q ∧
      q.detached = false ∧ q.attachFrom ≤ x.2.index ∧ q.taken ≤ x.2.index ∧ q.entries.length < 4 ∧ x.2.loaded = false) ∧
    (∃ (s : State) (d c i addr n : Nat) (y : Ctx) (q : Stream),
      d < s.dieCount ∧ i < 16 ∧ s.live d = true ∧ (s.die d).runsOn c .matrix = true ∧ tfind (s.die d).ctxs c = some y ∧
      y.streams[i]? = some n ∧ tfind (s.die d).streams n = some q ∧ addr % 64 = 0 ∧ addr + 64 ≤ y.declared ∧
      (s.die d).streamOk y (s.descAt d c addr) = true ∧ q.cur = none) ∧
    (∃ (s : State) (d c i addr n : Nat) (y : Ctx) (q : Stream), ∃ r,
      d < s.dieCount ∧ i < 16 ∧ s.live d = true ∧ (s.die d).runsOn c .matrix = true ∧ tfind (s.die d).ctxs c = some y ∧
      y.streams[i]? = some n ∧ tfind (s.die d).streams n = some q ∧ addr % 64 = 0 ∧ addr + 64 ≤ y.declared ∧
      (s.die d).streamOk y (s.descAt d c addr) = true ∧ q.cur = some r ∧ q.shadow = none) ∧
    (∃ (s : State) (d c i addr n : Nat) (y : Ctx) (q : Stream),
      d < s.dieCount ∧ i < 16 ∧ s.live d = true ∧ (s.die d).runsOn c .matrix = true ∧ tfind (s.die d).ctxs c = some y ∧
      y.streams[i]? = some n ∧ tfind (s.die d).streams n = some q ∧ addr % 64 = 0 ∧ addr + 64 ≤ y.declared ∧
      (s.die d).streamOk y (s.descAt d c addr) = false ∧ y.ring.length < 256) ∧
    (∃ (s : State) (d e n tl : Nat) (q : Stream) (r : SRun) (y : Ctx), ∃ g,
      e < 16 ∧ s.live d = true ∧ s.mayIssue d = true ∧ (s.die d).burstPick e = some (n, q) ∧
      tfind (s.die d).streams n = some q ∧ q.thread = none ∧ q.cur = some r ∧ s.burstBehind d q = none ∧
      (s.die d).ctxTile q.ctx = some (y, tl) ∧ dw r.desc 0 31 28 = 1 ∧ tfind y.grants (dw r.desc 0 7 0) = some g ∧
      s.hasKey d y.tenant = true) ∧
    (∃ (s : State) (d e n tl : Nat) (q : Stream) (r : SRun) (y : Ctx),
      e < 16 ∧ s.live d = true ∧ s.mayIssue d = true ∧ (s.die d).burstPick e = some (n, q) ∧
      tfind (s.die d).streams n = some q ∧ q.thread = none ∧ q.cur = some r ∧ s.burstBehind d q = none ∧
      (s.die d).ctxTile q.ctx = some (y, tl) ∧ sdRing r.desc = false ∧ s.hasKey d y.tenant = false) ∧
    (∃ (s : State) (d n : Nat) (q : Stream) (r : SRun) (y : Ctx),
      n < 1024 ∧ s.live d = true ∧ (s.die d).streamDone n = true ∧ tfind (s.die d).streams n = some q ∧ q.cur = some r ∧
      tfind (s.die d).ctxs q.ctx = some y) :=
  ⟨⟨thr1 (th1) (st1) (id), 0, 7, th1, f0, by decide +kernel⟩,
    ⟨thg, 0, 7, { th1 with next := 2 }, { slot := (16, 1), block := 0, gap := true }, by decide +kernel⟩,
    ⟨thr1 th2 st2 id, 0, 0, 3, 7, st2, SRun.start src1, th2, f0, { desc := src1, row := 0, round := 0, index := 0, last := false }, yt,
      gr1, mdl, TSlot.bound 7, by decide +kernel⟩,
    ⟨thr1 ({ th1 with transit := [(1, te1)] }) (st1) (id), 0, 7, 1, { th1 with transit := [(1, te1)] }, (1, te1), (16, 1),
      TSlot.bound 7, by decide +kernel⟩,
    ⟨thr1 (th1) (st1) (id), 0, 5, 0, 0, 3, yt, st1, by decide +kernel⟩,
    ⟨thr1 (th1) ({ st1 with cur := some (SRun.start sd1) }) (id), 0, 5, 0, 0, 3, yt, { st1 with cur := some (SRun.start sd1) },
      SRun.start sd1, by decide +kernel⟩,
    ⟨thr1 (th1) (st1) (id), 0, 5, 0, 64, 3, yt, st1, by decide +kernel⟩,
    ⟨thr1 (th1) ({ st1 with cur := some (SRun.start sd1) }) (id), 0, 0, 3, 7, { st1 with cur := some (SRun.start sd1) },
      SRun.start sd1, yt, gr1, by decide +kernel⟩,
    ⟨thr1 (th1) ({ st1 with cur := some (SRun.start sd1) }) (fun x => { x with sealSlots := [] }), 0, 0, 3, 7,
      { st1 with cur := some (SRun.start sd1) }, SRun.start sd1, yt, by decide +kernel⟩,
    ⟨thr1 (th1) ({ st1 with cur := some (SRun.next (SRun.start sd1)) }) (id), 0, 3,
      { st1 with cur := some (SRun.next (SRun.start sd1)) }, SRun.next (SRun.start sd1), yt, by decide +kernel⟩⟩

/-- What `Obligations.TileGrantsAndSwitches` supposes holds somewhere, clause by clause. -/
theorem wit_TileGrantsAndSwitches :
    (∃ (s : State) (d c tl : Nat) (k : TileKind),
      s.live d = true ∧ (s.die d).nextGrant k = some (c, tl)) ∧
    (∃ (s : State) (a : TAt) (c : Nat) (y : Ctx),
      s.tileOn a = true ∧ s.live a.die = true ∧ (s.die a.die).resident a.kind a.tile = some (c, y) ∧ y.st = .running ∧
      (s.occOf a).phase = .none ∧ (s.occOf a).inc = none ∧ (s.occOf a).drain = true) ∧
    (∃ (s : State) (a : TAt) (c : Nat) (y : Ctx), ∃ n,
      s.tileOn a = true ∧ s.live a.die = true ∧ (s.die a.die).resident a.kind a.tile = some (c, y) ∧ y.st = .running ∧
      (s.occOf a).phase = .none ∧ (s.occOf a).inc = none ∧ (s.occOf a).drain = false ∧
      (s.die a.die).successor a.kind a.tile = some n) ∧
    (∃ (s : State) (a : TAt) (c : Nat) (y : Ctx),
      s.tileOn a = true ∧ s.live a.die = true ∧ (s.die a.die).resident a.kind a.tile = some (c, y) ∧ y.st = .running ∧
      (s.occOf a).phase = .none ∧ (s.occOf a).inc = none ∧ (s.occOf a).drain = false ∧
      (s.die a.die).successor a.kind a.tile = none) ∧
    (∃ (s : State) (a : TAt) (c : Nat) (y : Ctx),
      s.tileOn a = true ∧ s.live a.die = true ∧ (s.die a.die).resident a.kind a.tile = some (c, y) ∧
      (y.st = .running ∨ y.st = .waiting) ∧ (s.occOf a).phase = .none ∧
      ((s.occOf a).inc ≠ none ∨ (s.die a.die).halfFenced a.kind a.tile = true)) ∧
    (∃ (s : State) (a : TAt) (c : Nat) (y : Ctx),
      s.tileOn a = true ∧ s.live a.die = true ∧ (s.occOf a).phase = .quiescing ∧ (s.die a.die).tileQuiet a.kind a.tile = true ∧
      (s.die a.die).resident a.kind a.tile = some (c, y) ∧ (s.occOf a).after = none) ∧
    (∃ (s : State) (a : TAt),
      s.tileOn a = true ∧ s.live a.die = true ∧ (s.occOf a).phase = .quiescing ∧ (s.die a.die).tileQuiet a.kind a.tile = true ∧
      ((s.occOf a).res = none ∨ (s.occOf a).after ≠ none)) ∧
    (∃ (s : State) (a : TAt) (c : Nat) (y : Ctx),
      s.tileOn a = true ∧ s.live a.die = true ∧ (s.occOf a).phase = .saving ∧
      (s.die a.die).resident a.kind a.tile = some (c, y) ∧ (s.die a.die).chanUp (8 * y.region + y.imgPc) = true ∧ y.failSt = .ok) ∧
    (∃ (s : State) (a : TAt) (c : Nat) (y : Ctx), ∃ pc,
      s.tileOn a = true ∧ s.live a.die = true ∧ (s.occOf a).phase = .saving ∧
      (s.die a.die).resident a.kind a.tile = some (c, y) ∧ (s.die a.die).chanUp (8 * y.region + y.imgPc) = true ∧
      (s.occOf a).retried = false ∧ (s.die a.die).retryPlace y = some pc) ∧
    (∃ (s : State) (a : TAt),
      s.tileOn a = true ∧ s.live a.die = true ∧ (s.occOf a).phase = .rinsing ∧ (s.occOf a).after = none ∧
      (s.occOf a).drain = false) ∧
    (∃ (s : State) (a : TAt) (c : Nat) (y : Ctx),
      s.tileOn a = true ∧ s.live a.die = true ∧ (s.occOf a).phase = .restoring ∧ (s.occOf a).inc = some c ∧
      ((s.die a.die).region (tileRegion a.kind a.tile)).power = .awake ∧ tfind (s.die a.die).ctxs c = some y) ∧
    (∃ (s : State) (d c : Nat) (y : Ctx),
      s.live d = true ∧ c < 4096 ∧ tfind (s.die d).ctxs c = some y ∧ y.ring ≠ []) :=
  ⟨⟨sw1 (Occ.reset) (yv) (id), 0, 6,
      (((sw1 (Occ.reset) (yv) (id)).die 0).pickTile .vector { ctx0 with st := .ready, cls := 1 }).getD 99, .vector,
      by decide +kernel⟩,
    ⟨sw1 ({ oc1 with drain := true }) (yv) (id), tv, 5, yv, by decide +kernel⟩,
    ⟨sw1 (oc1) ({ yv with cls := 1 }) (fun x => { x with occ := [(66, oc1)], fenced := ((List.range 32).filter (· ≠ 2)).map fun t => (unitKey 3 t, 1) }),
      tv, 5, { yv with cls := 1 }, 6, by decide +kernel⟩,
    ⟨sw1 (oc1) (yv) (fun x => { x with ctxs := [(5, yv)] }), tv, 5, yv, by decide +kernel⟩,
    ⟨sw1 ({ oc1 with inc := some 6 }) (yv) (id), tv, 5, yv, by decide +kernel⟩,
    ⟨sw1 ({ oc1 with phase := .quiescing }) ({ yv with st := .saving }) (id), tv, 5, { yv with st := .saving }, by decide +kernel⟩,
    ⟨sw1 ({ Occ.reset with phase := .quiescing }) ({ yv with st := .saving }) (id), tv, by decide +kernel⟩,
    ⟨sw1 ({ oc1 with phase := .saving }) ({ yv with st := .saving, image := .vec VCore.reset [] }) (id), tv, 5,
      { yv with st := .saving, image := .vec VCore.reset [] }, by decide +kernel⟩,
    ⟨sw1 ({ oc1 with phase := .saving }) ({ yv with st := .saving, image := .vec VCore.reset [] }) (id), tv, 5,
      { yv with st := .saving, image := .vec VCore.reset [] }, 0, by decide +kernel⟩,
    ⟨sw1 ({ Occ.reset with phase := .rinsing, inc := some 6 }) (yv) (id), tv, by decide +kernel⟩,
    ⟨sw1 ({ Occ.reset with phase := .restoring, inc := some 5 }) ({ ctx0 with st := .ready, image := .vec { VCore.reset with next := 8 } [(3, 4)] }) (id),
      tv, 5, { ctx0 with st := .ready, image := .vec { VCore.reset with next := 8 } [(3, 4)] }, by decide +kernel⟩,
    ⟨sw1 (oc1) ({ yv with ring := [{ tag := 3, status := .ok, fp := 0 }] }) (id), 0, 5,
      { yv with ring := [{ tag := 3, status := .ok, fp := 0 }] }, by decide +kernel⟩⟩

/-- What `Obligations.TilePortsAndRings` supposes holds somewhere, clause by clause. -/
theorem wit_TilePortsAndRings :
    (∃ (s : State) (a : RAt) (port : Nat),
      a.die < s.dieCount ∧ a.region < 8 ∧ port < 2 ∧ s.fclkOn a = true ∧ (s.tpEdge a port).isSome = true ∧
      (((s.die a.die).fabric a.region).port port).absent = false ∧ (s.array (stagArr a port)).fifo.length < 64 ∧
      s.stagHere (stagArr a port) = true) ∧
    (∃ (s : State) (a : RAt) (port : Nat) (c : BitVec 512) (rest : List (BitVec 512)),
      a.die < s.dieCount ∧ a.region < 8 ∧ 2 ≤ port ∧ port < 4 ∧ s.fclkOn a = true ∧ (s.tpEdge a port).isSome = true ∧
      (((s.die a.die).fabric a.region).port port).absent = false ∧ (s.array (stagArr a port)).cfifo = c :: rest ∧
      s.outHere (stagArr a port) = true) ∧
    (∃ (s : State) (a : RAt) (port : Nat) (b : PortBind) (p : Port),
      a.die < s.dieCount ∧ a.region < 8 ∧ 4 ≤ port ∧ port < 16 ∧ s.fclkOn a = true ∧ (s.tpEdge a port).isSome = true ∧
      p = ((s.die a.die).fabric a.region).port port ∧ p.absent = false ∧
      tfind ((s.die a.die).fabric a.region).binds port = some b ∧ b.kind = 1 ∧ p.callReady = true) ∧
    (∃ (s : State) (a : RAt) (port : Nat) (b : PortBind) (f : Fabric),
      a.die < s.dieCount ∧ a.region < 8 ∧ 4 ≤ port ∧ port < 16 ∧ s.fclkOn a = true ∧ (s.tpEdge a port).isSome = true ∧
      f = (s.die a.die).fabric a.region ∧ (f.port port).absent = false ∧ tfind f.binds port = some b ∧ b.kind = 2 ∧
      (s.die a.die).ringHeld b.ring ≠ 0) ∧
    (∃ (s : State) (a : RAt) (port : Nat) (b : PortBind) (f : Fabric),
      a.die < s.dieCount ∧ a.region < 8 ∧ 4 ≤ port ∧ port < 16 ∧ s.fclkOn a = true ∧ (s.tpEdge a port).isSome = true ∧
      f = (s.die a.die).fabric a.region ∧ (f.port port).absent = false ∧ tfind f.binds port = some b ∧ b.kind = 3 ∧
      (f.port port).buf.length < 1024) ∧
    (∃ (s : State) (a : RAt) (port : Nat) (b : PortBind) (f : Fabric),
      a.die < s.dieCount ∧ a.region < 8 ∧ 4 ≤ port ∧ port < 16 ∧ s.fclkOn a = true ∧ (s.tpEdge a port).isSome = true ∧
      f = (s.die a.die).fabric a.region ∧ (f.port port).absent = false ∧ tfind f.binds port = some b ∧ b.kind = 3 ∧
      1024 ≤ (f.port port).buf.length) ∧
    (∃ (s : State) (a : RAt) (port : Nat) (b : PortBind) (f : Fabric), ∃ u rest,
      a.die < s.dieCount ∧ a.region < 8 ∧ 4 ≤ port ∧ port < 16 ∧ s.fclkOn a = true ∧ (s.tpEdge a port).isSome = true ∧
      f = (s.die a.die).fabric a.region ∧ (f.port port).absent = false ∧ tfind f.binds port = some b ∧ b.kind = 4 ∧
      (f.port port).buf = u :: rest) ∧
    (∃ (s : State) (a : RAt) (port : Nat) (b : PortBind) (f : Fabric),
      a.die < s.dieCount ∧ a.region < 8 ∧ 4 ≤ port ∧ port < 16 ∧ s.fclkOn a = true ∧ (s.tpEdge a port).isSome = true ∧
      f = (s.die a.die).fabric a.region ∧ (f.port port).absent = false ∧ tfind f.binds port = some b ∧ b.kind = 4 ∧
      (f.port port).buf = []) ∧
    (∃ (s : State) (a : RAt) (port : Nat) (l1 l2 : List Call) (c : Call),
      s.live a.die = true ∧ a.region < 8 ∧ 4 ≤ port ∧ port ≤ 11 ∧
      (((s.die a.die).fabric a.region).port port).calls = l1 ++ c :: l2 ∧ (∀ e ∈ l1, e.claimed = true) ∧ c.claimed = false ∧
      c.isDone = true ∧ c.words.length ≤ (s.die a.die).ringRoom c.bind.ring ∧
      ((s.die a.die).ring c.bind.ring).wr < (s.die a.die).ringLen c.bind.ring) ∧
    (∃ (s : State) (a : RAt) (port : Nat) (l1 l2 : List Call) (c : Call),
      s.live a.die = true ∧ a.region < 8 ∧ 4 ≤ port ∧ port ≤ 11 ∧
      (((s.die a.die).fabric a.region).port port).calls = l1 ++ c :: l2 ∧ (∀ e ∈ l1, e.claimed = false) ∧ c.claimed = true) ∧
    (∃ (s : State) (a : RAt) (ch : Nat) (p : Port), ∃ u rest,
      s.live a.die = true ∧ a.region < 8 ∧ p = ((s.die a.die).fabric a.region).port (12 + ch) ∧
      s.rtGranted a.die a.region (12 + ch) = true ∧ ch < 2 ∧ p.buf = u :: rest ∧ (s.die a.die).ringRoom p.ring ≠ 0) ∧
    (∃ (s : State) (a : RAt) (ch : Nat) (p : Port),
      s.live a.die = true ∧ a.region < 8 ∧ p = ((s.die a.die).fabric a.region).port (12 + ch) ∧
      s.rtGranted a.die a.region (12 + ch) = true ∧ 2 ≤ ch ∧ ch < 4 ∧ p.absent = false ∧ (s.die a.die).ringHeld p.ring ≠ 0 ∧
      p.buf.length < 1024) :=
  ⟨⟨tp1 0 0 (po1) (id), at1, 0, by decide +kernel⟩,
    ⟨tp1 2 0 (po1) (fun x => { x with mtiles := [(15, { MTile.reset with a := { Arr.reset with cfifo := [3] } })] }), at1, 2, 3,
      [], by decide +kernel⟩,
    ⟨tp1 4 1 (po1) (id), at1, 4, b1 1, po1, by decide +kernel, by decide +kernel, by decide +kernel, by decide +kernel,
      by decide +kernel, rfl, by decide +kernel⟩,
    ⟨tp1 4 2 (po1) (id), at1, 4, b1 2, ((tp1 4 2 (po1) (id)).die 0).fabric 1, by decide +kernel, by decide +kernel,
      by decide +kernel, by decide +kernel, by decide +kernel, rfl, by decide +kernel⟩,
    ⟨tp1 12 3 (po1) (id), at1, 12, b1 3, ((tp1 12 3 (po1) (id)).die 0).fabric 1, by decide +kernel, by decide +kernel,
      by decide +kernel, by decide +kernel, by decide +kernel, rfl, by decide +kernel⟩,
    ⟨tp1 12 3 ({ po1 with buf := List.replicate 1024 0 }) (id), at1, 12, b1 3,
      ((tp1 12 3 ({ po1 with buf := List.replicate 1024 0 }) (id)).die 0).fabric 1, by decide +kernel, by decide +kernel,
      by decide +kernel, by decide +kernel, by decide +kernel, rfl, by decide +kernel⟩,
    ⟨tp1 14 4 ({ po1 with buf := [8, 9] }) (id), at1, 14, b1 4, ((tp1 14 4 ({ po1 with buf := [8, 9] }) (id)).die 0).fabric 1, 8,
      [9], by decide +kernel, by decide +kernel, by decide +kernel, by decide +kernel, by decide +kernel, rfl,
      by decide +kernel⟩,
    ⟨tp1 14 4 (po1) (id), at1, 14, b1 4, ((tp1 14 4 (po1) (id)).die 0).fabric 1, by decide +kernel, by decide +kernel,
      by decide +kernel, by decide +kernel, by decide +kernel, rfl, by decide +kernel⟩,
    ⟨tp1 4 1 ({ po1 with calls := [cl1] }) (id), at1, 4, [], [], cl1, by decide +kernel⟩,
    ⟨tp1 4 1 ({ po1 with calls := [{ cl1 with claimed := true }] }) (id), at1, 4, [], [], { cl1 with claimed := true },
      by decide +kernel⟩,
    ⟨tp1 12 3 ({ po1 with buf := [8, 9] }) (id), at1, 0, { po1 with buf := [8, 9] }, 8, [9], by decide +kernel, by decide +kernel,
      rfl, by decide +kernel⟩,
    ⟨tp1 14 4 (po1) (id), at1, 2, po1, by decide +kernel, by decide +kernel, rfl, by decide +kernel⟩⟩

/-- A design runs in region 1 of die 0 whose memory block 4 has ports of 8 bits on lines 1 and `line`. -/
def fmS (b : FmBlk) (line : Nat) : State :=
  fab1 fun f => { f with
    st := .configured, released := true, halted := false, fm := [(4, b)]
    design := { blocks := [], fmPorts := [(8, 1, 8), (9, line, 8)], pins := [], precode := [] } }
def fmA : FmBlk := { FmBlk.reset with words := [(1, 0x1122)] }
/-- One that port A wrote at the same edge. -/
def fmB : FmBlk := { FmBlk.reset with words := [(1, 0x1122)], last := some (0, 1, 5, true) }

/-- What `Obligations.FabricMemoryPorts` supposes holds somewhere, clause by clause. -/
theorem wit_FabricMemoryPorts :
    (∃ (s : State) (a : RAt) (blk port line width addr bits : Nat) (f : Fabric) (b : FmBlk) (w : BitVec 64) (j lo : Nat),
      a.die < s.dieCount ∧ a.region < 8 ∧ blk < 320 ∧ port < 2 ∧ f = (s.die a.die).fabric a.region ∧
      f.fmPort blk port = (line, width) ∧ (width = 64 ∨ width = 32 ∨ width = 16 ∨ width = 8) ∧ addr * width < 32768 ∧
      s.designRuns a = true ∧ f.lineRuns line = true ∧ (s.die a.die).isFenced 11 (320 * a.region + blk) = false ∧
      b = tget f.fm blk FmBlk.reset ∧ j = addr * width / 64 ∧ lo = addr * width % 64 ∧ w = tget b.words j 0 ∧ bits < 2) ∧
    (∃ (s : State) (a : RAt) (blk port line width addr : Nat) (f : Fabric) (b : FmBlk) (w old : BitVec 64) (j lo : Nat),
      a.die < s.dieCount ∧ a.region < 8 ∧ blk < 320 ∧ port < 2 ∧ f = (s.die a.die).fabric a.region ∧
      f.fmPort blk port = (line, width) ∧ (width = 64 ∨ width = 32 ∨ width = 16 ∨ width = 8) ∧ addr * width < 32768 ∧
      s.designRuns a = true ∧ f.lineRuns line = true ∧ (s.die a.die).isFenced 11 (320 * a.region + blk) = false ∧
      b = tget f.fm blk FmBlk.reset ∧ j = addr * width / 64 ∧ lo = addr * width % 64 ∧ w = tget b.words j 0 ∧
      b.last = some (1 - port, j, old, true) ∧ (f.fmPort blk (1 - port)).1 = line ∧ port = 1) ∧
    (∃ (s : State) (a : RAt) (blk port line width addr : Nat) (f : Fabric) (b : FmBlk) (w old : BitVec 64) (j lo : Nat),
      a.die < s.dieCount ∧ a.region < 8 ∧ blk < 320 ∧ port < 2 ∧ f = (s.die a.die).fabric a.region ∧
      f.fmPort blk port = (line, width) ∧ (width = 64 ∨ width = 32 ∨ width = 16 ∨ width = 8) ∧ addr * width < 32768 ∧
      s.designRuns a = true ∧ f.lineRuns line = true ∧ (s.die a.die).isFenced 11 (320 * a.region + blk) = false ∧
      b = tget f.fm blk FmBlk.reset ∧ j = addr * width / 64 ∧ lo = addr * width % 64 ∧ w = tget b.words j 0 ∧
      b.last = some (1 - port, j, old, true) ∧ (f.fmPort blk (1 - port)).1 ≠ line) ∧
    (∃ (s : State) (a : RAt) (blk port line width addr bits : Nat) (write : Option (BitVec 64)),
      a.die < s.dieCount ∧ a.region < 8 ∧ blk < 320 ∧ port < 2 ∧
      ((s.die a.die).fabric a.region).fmPort blk port = (line, width) ∧ addr * width < 32768 ∧ s.designRuns a = true ∧
      ((s.die a.die).fabric a.region).lineRuns line = true ∧ (s.die a.die).isFenced 11 (320 * a.region + blk) = false ∧
      2 ≤ bits ∧ (write = none ∨ width < 64)) ∧
    (∃ (s : State) (a : RAt) (blk port line width addr : Nat),
      a.die < s.dieCount ∧ a.region < 8 ∧ blk < 320 ∧ port < 2 ∧
      ((s.die a.die).fabric a.region).fmPort blk port = (line, width) ∧ addr * width < 32768 ∧ s.designRuns a = true ∧
      ((s.die a.die).fabric a.region).lineRuns line = true ∧ (s.die a.die).isFenced 11 (320 * a.region + blk) = true) ∧
    (∃ (s : State) (a : RAt) (blk : Nat) (f : Fabric),
      a.die < s.dieCount ∧ a.region < 8 ∧ blk < 320 ∧ s.designRuns a = true ∧ f = (s.die a.die).fabric a.region ∧
      (f.lineRuns (f.fmPort blk 0).1 = true ∨ f.lineRuns (f.fmPort blk 1).1 = true) ∧
      (tget f.fm blk FmBlk.reset).wback.isSome = true) :=
  ⟨⟨fmS fmA 1, at1, 4, 0, 1, 8, 9, 1, ((fmS fmA 1).die 0).fabric 1, fmA, 0x1122, 1, 8,
      by decide +kernel, by decide +kernel, by decide +kernel, by decide +kernel, rfl, by decide +kernel, by decide +kernel,
      by decide +kernel, by decide +kernel, by decide +kernel, by decide +kernel, rfl, by decide +kernel⟩,
    ⟨fmS fmB 1, at1, 4, 1, 1, 8, 9, ((fmS fmB 1).die 0).fabric 1, fmB, 0x1122, 5, 1, 8,
      by decide +kernel, by decide +kernel, by decide +kernel, by decide +kernel, rfl, by decide +kernel, by decide +kernel,
      by decide +kernel, by decide +kernel, by decide +kernel, by decide +kernel, rfl, by decide +kernel⟩,
    ⟨fmS fmB 2, at1, 4, 1, 2, 8, 9, ((fmS fmB 2).die 0).fabric 1, fmB, 0x1122, 5, 1, 8,
      by decide +kernel, by decide +kernel, by decide +kernel, by decide +kernel, rfl, by decide +kernel, by decide +kernel,
      by decide +kernel, by decide +kernel, by decide +kernel, by decide +kernel, rfl, by decide +kernel⟩,
    ⟨fmS fmA 1, at1, 4, 1, 1, 8, 1, 2, none, by decide +kernel⟩,
    ⟨(fmS fmA 1).modDie 0 fun x => { x with fenced := [(unitKey 11 324, 1)] }, at1, 4, 1, 1, 8, 1, by decide +kernel⟩,
    ⟨fmS { FmBlk.reset with wback := some 3 } 1, at1, 4, ((fmS { FmBlk.reset with wback := some 3 } 1).die 0).fabric 1,
      by decide +kernel, by decide +kernel, by decide +kernel, by decide +kernel, rfl, by decide +kernel⟩⟩

def lb1 : State :=
  fab1 fun f => { f with
    st := .configured, released := true, halted := false
    design := { blocks := [(9, cfg1)], fmPorts := [], pins := [], precode := [] } }

/-- What `Obligations.LogicBlockEdge` supposes holds somewhere, clause by clause. -/
theorem wit_LogicBlockEdge :
    ∃ (s : State) (a : RAt) (line : Nat) (falling : Bool) (e : EdgeIn) (blk : Nat) (cfg : BlockCfg) (x : Die) (f : Fabric) (i : BlockIn) (outs : List (Bool × Bool)) (c0 on : Bool),
      a.die < s.dieCount ∧ a.region < 8 ∧ line < 10 ∧ s.designRuns a = true ∧ x = s.die a.die ∧ f = x.fabric a.region ∧
      (line = 0 → falling = false → f.halted = false → f.edgeFree = true) ∧ (tkeys f.design.blocks).Nodup ∧
      (∀ b ∈ f.design.blocks, b.2.cells.length = 8) ∧ tfind f.design.blocks blk = some cfg ∧ i = edgeInOf e blk ∧
      outs = x.cellOuts a.die a.region e blk ∧ c0 = x.carryOf a.die a.region e blk ∧
      on = (decide (cfg.line = line) && f.lineRuns line) :=
  ⟨lb1, at1, 0, false, edge1, 9, cfg1, lb1.die 0, (lb1.die 0).fabric 1, ins1, (lb1.die 0).cellOuts 0 1 edge1 9,
    (lb1.die 0).carryOf 0 1 edge1 9, true, by decide +kernel, by decide +kernel, by decide +kernel, by decide +kernel, rfl, rfl,
    by decide +kernel, by decide +kernel, by decide +kernel, by decide +kernel, rfl, rfl, rfl, by decide +kernel⟩

/-- What `Obligations.DarnerRounds` supposes holds somewhere, clause by clause. -/
theorem wit_DarnerRounds :
    (∃ (s : State) (d : Nat),
      s.live d = true ∧ (s.die d).scanning = true) ∧
    (∃ (s : State) (d : Nat) (e : DarnErr),
      s.live d = true ∧ (s.die d).scanning = true ∧ (s.die d).errsOk d [e] = true ∧ e.dbl = false ∧ e.wbFail = false) ∧
    (∃ (s : State) (d : Nat) (e : DarnErr),
      d < 8 ∧ s.live d = true ∧ (s.die d).scanning = true ∧ (s.die d).errsOk d [e] = true ∧ e.dbl = true ∧
      bitAt ((s.die d).regv 0x3000) 2 = false) ∧
    (∃ (s : State) (d : Nat),
      s.live d = true ∧ (s.die d).darner.stopped = true) ∧
    (∃ (s : State) (d : Nat),
      s.live d = true) :=
  ⟨⟨fab1 (fun f => { f with st := .configured }) |>.modDie 0 fun x => x.setPreg 0x3000 { applied := 1, pend := none }, 0,
      by decide +kernel⟩,
    ⟨fab1 (fun f => { f with st := .configured }) |>.modDie 0 fun x => x.setPreg 0x3000 { applied := 1, pend := none }, 0,
      ⟨1, 3, false, false⟩, by decide +kernel⟩,
    ⟨fab1 (fun f => { f with st := .configured }) |>.modDie 0 fun x => x.setPreg 0x3000 { applied := 1, pend := none }, 0,
      ⟨1, 3, true, false⟩, by decide +kernel⟩,
    ⟨(fab1 (fun f => { f with st := .configured }) |>.modDie 0 fun x => x.setPreg 0x3000 { applied := 1, pend := none }).modDie 0 fun x => { x with darner := { x.darner with stopped := true } },
      0, by decide +kernel⟩,
    ⟨fab1 (fun f => { f with st := .configured }) |>.modDie 0 fun x => x.setPreg 0x3000 { applied := 1, pend := none }, 0,
      by decide +kernel⟩⟩

/-- What `Obligations.RegionReturns` supposes holds somewhere, clause by clause. -/
theorem wit_RegionReturns :
    (∃ (s : State) (a : RAt),
      s.live a.die = true ∧ a.region < 8 ∧ ((s.die a.die).region a.region).isolated = true) ∧
    (∃ (s : State) (a : RAt) (pass : BitVec 64),
      s.live a.die = true ∧ a.region < 8 ∧ ((s.die a.die).region a.region).isolated = true ∧
      (s.die a.die).recovers a.region pass.toNat = true) :=
  ⟨⟨on0 (fun x => x.modRegion 1 fun g => { g with isolated := true }), at1, by decide +kernel⟩,
    ⟨on0 (fun x => { (x.modRegion 1 fun g => { g with isolated := true }) with fenced := [(unitKey 5 4, 2)] }), at1, BitVec.allOnes 64,
      by decide +kernel⟩⟩

/-- What `Obligations.RoutersAndRegions` supposes holds somewhere, clause by clause. -/
theorem wit_RoutersAndRegions :
    (∃ (s : State) (d rt : Nat) (k : NetPkt), ∃ id,
      s.live d = true ∧ routerOn rt = true ∧ (128 ≤ rt ∨ s.tileNetUp d (rt / 16) = true) ∧ s.received d rt k = true ∧
      s.routerOk (spotOf d rt) = true ∧ k.hpar = hparOf k ∧ k.ctlOk = true ∧ s.granted d rt k = true ∧
      s.hop (spotOf d rt) (turnAt k.turns k.ptr.toNat).1 k.dst.toNat = some (.arrive id)) ∧
    (∃ (s : State) (d rt : Nat) (k : NetPkt), ∃ q,
      s.live d = true ∧ routerOn rt = true ∧ (128 ≤ rt ∨ s.tileNetUp d (rt / 16) = true) ∧ s.received d rt k = true ∧
      s.routerOk (spotOf d rt) = true ∧ k.hpar = hparOf k ∧ k.ctlOk = true ∧ s.granted d rt k = true ∧
      s.routable d rt k = true ∧ s.hop (spotOf d rt) (turnAt k.turns k.ptr.toNat).1 k.dst.toNat = some (.go q) ∧
      (rt < 128 ∨ q.tile = false) ∧ (rt < 128 → q.tile = false → ((s.die d).region (rt / 16)).isolated = false)) ∧
    (∃ (s : State) (d rt : Nat) (k : NetPkt),
      s.live d = true ∧ routerOn rt = true ∧ (128 ≤ rt ∨ s.tileNetUp d (rt / 16) = true) ∧ s.received d rt k = true ∧
      (k.hpar ≠ hparOf k ∨ k.ctlOk = false) ∧ s.routerOk (spotOf d rt) = true) ∧
    (∃ (s : State) (d rt : Nat) (k : NetPkt),
      s.live d = true ∧ routerOn rt = true ∧ (128 ≤ rt ∨ s.tileNetUp d (rt / 16) = true) ∧ s.received d rt k = true ∧
      s.routerOk (spotOf d rt) = false) ∧
    (∃ (s : State) (d r : Nat) (k : NetPkt),
      s.live d = true ∧ r < 8 ∧ s.received d (128 + r) k = true ∧ s.routerOk (spotOf d (128 + r)) = true ∧ k.hpar = hparOf k ∧
      k.ctlOk = true ∧ (turnAt k.turns k.ptr.toNat).1 = 4 ∧ s.granted d (128 + r) k = true ∧ s.routable d (128 + r) k = true ∧
      ((s.die d).region r).isolated = false ∧ ((s.die d).region r).power = .awake) ∧
    (∃ (s : State) (d r : Nat) (k : NetPkt),
      s.live d = true ∧ r < 8 ∧ s.received d (128 + r) k = true ∧ s.routerOk (spotOf d (128 + r)) = true ∧ k.hpar = hparOf k ∧
      k.ctlOk = true ∧ (turnAt k.turns k.ptr.toNat).1 = 4 ∧ s.granted d (128 + r) k = true ∧ s.routable d (128 + r) k = true ∧
      ((s.die d).region r).isolated = false ∧ (((s.die d).region r).power = .asleep ∨ ((s.die d).region r).power = .waking) ∧
      (s.die d).wakeFlits r k.vc + k.len.toNat ≤ 64) ∧
    (∃ (s : State) (d r : Nat) (k : NetPkt),
      s.live d = true ∧ r < 8 ∧ s.received d (128 + r) k = true ∧ s.routerOk (spotOf d (128 + r)) = true ∧ k.hpar = hparOf k ∧
      k.ctlOk = true ∧ (turnAt k.turns k.ptr.toNat).1 = 4 ∧ s.granted d (128 + r) k = true ∧ s.routable d (128 + r) k = true ∧
      ((s.die d).region r).isolated = true ∧ k.vc = 0) ∧
    (∃ (s : State) (d r : Nat) (k : NetPkt),
      s.live d = true ∧ r < 8 ∧ s.received d (128 + r) k = true ∧ s.routerOk (spotOf d (128 + r)) = true ∧ k.hpar = hparOf k ∧
      k.ctlOk = true ∧ (turnAt k.turns k.ptr.toNat).1 = 4 ∧ s.granted d (128 + r) k = true ∧ s.routable d (128 + r) k = true ∧
      ((s.die d).region r).isolated = true ∧ k.vc ≠ 0) :=
  ⟨⟨net1 0 (np1 (rt1 4) 0) (id), 0, 0, np1 (rt1 4) 0, 0, by decide +kernel⟩,
    ⟨net1 0 (np1 (rt1 1) 1) (id), 0, 0, np1 (rt1 1) 1, spotOf 0 1, by decide +kernel⟩,
    ⟨net1 0 (np0 (rt1 1) 1) (id), 0, 0, np0 (rt1 1) 1, by decide +kernel⟩,
    ⟨net1 0 (np1 (rt1 1) 1) (fun x => { x with fenced := [(unitKey 7 0, 1)] }), 0, 0, np1 (rt1 1) 1, by decide +kernel⟩,
    ⟨net1 129 (np1 (rt1 4) 32) (id), 0, 1, np1 (rt1 4) 32, by decide +kernel⟩,
    ⟨net1 129 (np1 (rt1 4) 32) (fun x => x.modRegion 1 fun g => { g with power := .asleep, gated := true }), 0, 1, np1 (rt1 4) 32,
      by decide +kernel⟩,
    ⟨net1 129 (np1 (rt1 4) 32) (fun x => x.modRegion 1 fun g => { g with isolated := true }), 0, 1, np1 (rt1 4) 32,
      by decide +kernel⟩,
    ⟨net1 129 ({ np0 (rt1 4) 32 with vc := 2, hpar := hparOf (np0 (rt1 4) 32) }) (fun x => x.modRegion 1 fun g => { g with isolated := true }),
      0, 1, { np0 (rt1 4) 32 with vc := 2, hpar := hparOf (np0 (rt1 4) 32) }, by decide +kernel⟩⟩

/-- What `Obligations.TransactionsOpenAndClose` supposes holds somewhere, clause by clause. -/
theorem wit_TransactionsOpenAndClose :
    (∃ (s : State) (d rt : Nat) (k : NetPkt),
      s.live d = true ∧ routerOn rt = true ∧ (128 ≤ rt ∨ s.tileNetUp d (rt / 16) = true) ∧ s.received d rt k = false ∧
      s.injects d rt k = true ∧ k.vc = 0 ∧ s.hasRoute d k = true ∧ s.routable d rt k = true ∧ s.granted d rt k = true) ∧
    (∃ (s : State) (d rt : Nat) (k : NetPkt),
      s.live d = true ∧ routerOn rt = true ∧ (128 ≤ rt ∨ s.tileNetUp d (rt / 16) = true) ∧ s.received d rt k = false ∧
      s.injects d rt k = true ∧ k.vc = 0 ∧ s.hasRoute d k = false) ∧
    (∃ (s : State) (d node : Nat) (k : NetPkt) (rest : List NetPkt),
      node < 256 ∧ s.endpoint (256 * d + node) = true ∧ s.live d = true ∧ ((s.die d).iface node).inbox = k :: rest) ∧
    (∃ (s : State) (d node : Nat) (k : NetPkt) (rest : List NetPkt),
      node < 256 ∧ s.endpoint (256 * d + node) = true ∧ s.live d = true ∧ ((s.die d).iface node).inbox = k :: rest ∧ k.vc = 0 ∧
      k.src.toNat ≠ 256 * d + node ∧ s.d0Cut = false ∧ (d ≠ 0 ∨ (node % 32 ≠ 28 ∧ node % 32 ≠ 29))) ∧
    (∃ (s : State) (node : Nat),
      node < 256 ∧ s.endpoint node = true ∧ s.live 0 = true ∧ ((s.die 0).iface node).inbox ≠ [] ∧ node % 32 = 29 ∧
      3 ≤ (s.die 0).errIn (unitKey 73 node) nclkHour ∧
      (∀ r, r < 8 → 32 * r + 29 ≠ node → (s.die 0).isFenced 9 (32 * r + 29) = true)) ∧
    (∃ (s : State) (d node txn : Nat),
      node < 256 ∧ s.endpoint (256 * d + node) = true ∧ s.live d = true ∧ thas ((s.die d).iface node).txns txn = true) :=
  ⟨⟨on0 (fun x => { x with ifaces := [(32, { if0 with bank0 := [(33, rt2)] })] }), 0, 16, np1 rt2 33, by decide +kernel⟩,
    ⟨w, 0, 16, np1 rt2 33, by decide +kernel⟩,
    ⟨on0 (fun x => { x with ifaces := [(33, { if0 with inbox := [{ np1 rt2 33 with vc := 1, opcode := 0x11 }], txns := [(3, (16, 32))] })] }),
      0, 33, { np1 rt2 33 with vc := 1, opcode := 0x11 }, [], by decide +kernel⟩,
    ⟨on0 (fun x => { x with ifaces := [(33, { if0 with inbox := [np1 rt2 33] })] }), 0, 33, np1 rt2 33, [], by decide +kernel⟩,
    ⟨on0 (fun x => { x with
        ifaces := [(29, { if0 with inbox := [np1 rt2 29] })], errs := [(unitKey 73 29, [(0, 3)])]
        fenced := (List.range 7).map fun r => (unitKey 9 (32 * (r + 1) + 29), 1) }), 29, by decide +kernel⟩,
    ⟨on0 (fun x => { x with ifaces := [(33, { if0 with txns := [(3, (16, 32)), (5, (16, 32))] })] }), 0, 33, 3, by decide +kernel⟩⟩

/-- What `Obligations.EpochsAndRetraining` supposes holds somewhere, clause by clause. -/
theorem wit_EpochsAndRetraining :
    (∃ (s : State) (m : BitVec 8) (c : EpochChange),
      s.running = true ∧ s.epochOp = none ∧ m ≠ 0 ∧ (∀ d ∈ maskDies m, d < s.dieCount ∧ s.live d = true) ∧
      (∀ d ∈ touched c, d ∈ maskDies m) ∧ s.changeOk c = true) ∧
    (∃ (s : State) (m : BitVec 8) (c : EpochChange),
      s.running = true ∧ s.epochOp = none ∧ m ≠ 0 ∧ (∀ d ∈ maskDies m, d < s.dieCount ∧ s.live d = true) ∧
      (∀ d ∈ touched c, d ∈ maskDies m) ∧ s.changeOk c = false) ∧
    (∃ (s : State) (d : Nat) (m : BitVec 8) (c : EpochChange),
      s.live d = true ∧ s.epochOp = some (m, c) ∧ m.getLsbD d = true ∧ (s.die d).switching = true ∧ (s.die d).flipped = false ∧
      c.chains = [] ∧ c.returns = []) ∧
    (∃ (s : State) (d : Nat),
      s.live d = true ∧ s.inSwitch d = true ∧ (s.die d).switching = true ∧ s.allFlipped = true ∧ (s.die d).oldPkts = 0) ∧
    (∃ (s : State) (d k m n : Nat),
      s.live d = true ∧ k < 8 ∧ m < 4 ∧ s.hasModule d k m = true ∧ n < 10000 ∧
      (s.die d).errIn (unitKey 13 (4 * k + m)) nclkSecond + n < 10000) ∧
    (∃ (s u : State) (d k m n : Nat) (ok : Bool),
      s.live d = true ∧ k < 8 ∧ m < 4 ∧ s.hasModule d k m = true ∧
      10000 ≤ (s.die d).errIn (unitKey 13 (4 * k + m)) nclkSecond + n ∧
      u = (s.modDie d fun x => { x with ucieOut := moduleList x.ucieOut (4 * k + m) ok }) ∧
      (∀ e ∈ u.usableDies, u.reached e = true)) ∧
    (∃ (s u : State) (d k m n : Nat) (ok : Bool), ∃ e,
      s.live d = true ∧ k < 8 ∧ m < 4 ∧ s.hasModule d k m = true ∧
      10000 ≤ (s.die d).errIn (unitKey 13 (4 * k + m)) nclkSecond + n ∧
      u = (s.modDie d fun x => { x with ucieOut := moduleList x.ucieOut (4 * k + m) ok }) ∧ e ∈ u.usableDies ∧
      u.reached e = false) :=
  ⟨⟨w, 1, { routes := [⟨32, 33, rt2⟩], redirects := [(0, 1, 1)], chains := [], returns := [] }, by decide +kernel⟩,
    ⟨w, 1, { routes := [⟨32, 33, rt1 4⟩], redirects := [(0, 1, 1)], chains := [], returns := [] }, by decide +kernel⟩,
    ⟨{ on0 (fun x => { x with switching := true }) with epochOp := some (1, { routes := [⟨32, 33, rt2⟩], redirects := [(0, 1, 1)], chains := [], returns := [] }) },
      0, 1, { routes := [⟨32, 33, rt2⟩], redirects := [(0, 1, 1)], chains := [], returns := [] }, by decide +kernel⟩,
    ⟨{ on0 (fun x => { x with switching := true, flipped := true }) with epochOp := some (1, { routes := [⟨32, 33, rt2⟩], redirects := [(0, 1, 1)], chains := [], returns := [] }) },
      0, by decide +kernel⟩,
    ⟨w, 0, 3, 0, 9999, by decide +kernel⟩,
    ⟨w, w.modDie 0 fun x => { x with ucieOut := moduleList x.ucieOut 12 false }, 0, 3, 0, 10000, false, by decide +kernel, by decide +kernel, by decide +kernel, by decide +kernel,
      by decide +kernel, rfl, by decide +kernel⟩,
    ⟨{ w with dies := w.dies.map fun (e : Nat × Die) => ((e.1, { e.2 with ucieOut := List.range 32 }) : Nat × Die) },
      ({ w with dies := w.dies.map fun (e : Nat × Die) => ((e.1, { e.2 with ucieOut := List.range 32 }) : Nat × Die) }).modDie 0 fun x => { x with ucieOut := moduleList x.ucieOut 12 false },
      0, 3, 0, 10000, false, 1, by decide +kernel, by decide +kernel, by decide +kernel, by decide +kernel, by decide +kernel, rfl, by decide +kernel⟩⟩

/-- What `Obligations.RegionPowerCycle` supposes holds somewhere, clause by clause. -/
theorem wit_RegionPowerCycle :
    (∃ (s : State) (a : RAt) (g : Region),
      s.live a.die = true ∧ a.region < 8 ∧ g = (s.die a.die).region a.region ∧ s.maySleep a.die a.region = true) ∧
    (∃ (s : State) (a : RAt) (g : Region),
      s.live a.die = true ∧ a.region < 8 ∧ g = (s.die a.die).region a.region ∧ g.power = .draining ∧ g.gated = false ∧
      (s.die a.die).netIdle a.region = true) ∧
    (∃ (s : State) (a : RAt) (g : Region),
      s.live a.die = true ∧ a.region < 8 ∧ g = (s.die a.die).region a.region ∧ g.gated = true ∧ g.offDone = false) ∧
    (∃ (s : State) (a : RAt) (g : Region),
      s.live a.die = true ∧ a.region < 8 ∧ g = (s.die a.die).region a.region ∧ g.gated = true ∧
      (g.power = .asleep ∨ g.power = .draining) ∧ (s.die a.die).wakeAsked a.region = true) ∧
    (∃ (s : State) (a : RAt) (g : Region),
      s.live a.die = true ∧ a.region < 8 ∧ g = (s.die a.die).region a.region ∧ g.power = .waking ∧ g.offDone = true ∧
      g.isolated = false) :=
  ⟨⟨on0 (fun x => x.setPreg 0x2004 { applied := 0x2FF02, pend := none }), at1,
      ((on0 (fun x => x.setPreg 0x2004 { applied := 0x2FF02, pend := none })).die 0).region 1, by decide +kernel,
      by decide +kernel, rfl, by decide +kernel⟩,
    ⟨on0 (fun x => x.modRegion 1 fun g => { g with power := .draining }), at1,
      ((on0 (fun x => x.modRegion 1 fun g => { g with power := .draining })).die 0).region 1, by decide +kernel,
      by decide +kernel, rfl, by decide +kernel⟩,
    ⟨on0 (fun x => x.modRegion 1 fun g => { g with power := .draining, gated := true }), at1,
      ((on0 (fun x => x.modRegion 1 fun g => { g with power := .draining, gated := true })).die 0).region 1,
      by decide +kernel, by decide +kernel, rfl, by decide +kernel⟩,
    ⟨on0 (fun x => x.modRegion 1 fun g => { g with power := .asleep, gated := true, offDone := true, asked := true }), at1,
      ((on0 (fun x => x.modRegion 1 fun g => { g with power := .asleep, gated := true, offDone := true, asked := true })).die 0).region 1,
      by decide +kernel, by decide +kernel, rfl, by decide +kernel⟩,
    ⟨(on0 (fun x => x.modRegion 1 fun g => { g with power := .waking, gated := true, offDone := true })).modDie 0 fun x => (x.setChan 8 .selfRefresh).modRouter 129 fun r => { r with wakeBuf := [np1 (rt1 4) 32] },
      at1,
      (((on0 (fun x => x.modRegion 1 fun g => { g with power := .waking, gated := true, offDone := true })).modDie 0 fun x => (x.setChan 8 .selfRefresh).modRouter 129 fun r => { r with wakeBuf := [np1 (rt1 4) 32] }).die 0).region 1,
      by decide +kernel, by decide +kernel, rfl, by decide +kernel⟩⟩

/-- What `Obligations.MemoryControllers` supposes holds somewhere, clause by clause. -/
theorem wit_MemoryControllers :
    (∃ (s : State) (d m : Nat) (q : MReq),
      s.live d = true ∧ m < 48 ∧ s.mcServes d m = true ∧ ((s.die d).mc m).queue = [] ∧ s.remoteAsks d m = [] ∧
      s.inFlight d + 1 ≤ 16384 ∧ reqOn m q = true ∧ (s.die d).chanUp q.chan = true ∧
      (64 ≤ q.chan → (s.die d).dropped.getLsbD (q.off / 524288 / 2880) = false) ∧ reqNoSlot q = false ∧
      (s.die d).slotLoaded q.slot = true ∧ q.wdata = none) ∧
    (∃ (s : State) (d m : Nat) (q : MReq), ∃ b,
      s.live d = true ∧ m < 48 ∧ s.mcServes d m = true ∧ ((s.die d).mc m).queue = [] ∧ s.remoteAsks d m = [] ∧
      s.inFlight d + 1 ≤ 16384 ∧ reqOn m q = true ∧ (s.die d).chanUp q.chan = true ∧
      (64 ≤ q.chan → (s.die d).dropped.getLsbD (q.off / 524288 / 2880) = false) ∧ reqNoSlot q = false ∧
      (s.die d).slotLoaded q.slot = true ∧ q.wdata = some b) ∧
    (∃ (s : State) (d m : Nat) (q : MReq),
      s.live d = true ∧ m < 48 ∧ s.mcServes d m = true ∧ ((s.die d).mc m).queue = [] ∧ s.remoteAsks d m = [] ∧
      s.inFlight d + 1 ≤ 16384 ∧ reqOn m q = true ∧ (s.die d).chanUp q.chan = true ∧
      (64 ≤ q.chan → (s.die d).dropped.getLsbD (q.off / 524288 / 2880) = false) ∧ reqNoSlot q = false ∧
      (s.die d).slotLoaded q.slot = false) ∧
    (∃ (s : State) (d m : Nat) (q : MReq),
      s.live d = true ∧ m < 48 ∧ s.mcServes d m = true ∧ ((s.die d).mc m).queue = [] ∧ s.remoteAsks d m = [] ∧
      s.inFlight d + 1 ≤ 16384 ∧ reqOn m q = true ∧ (s.die d).chanUp q.chan = false) ∧
    (∃ (s : State) (d m : Nat) (p q : MReq),
      s.live d = true ∧ m < 48 ∧ s.mcServes d m = true ∧ ((s.die d).mc m).queue = [] ∧ s.remoteAsks d m = [] ∧
      s.inFlight d + 2 ≤ 16384 ∧ reqOn m p = true ∧ reqOn m q = true ∧ q.cls < p.cls ∧ (s.die d).mcPanic m = false) ∧
    (∃ (s : State) (d m : Nat) (q : MReq),
      s.live d = true ∧ m < 48 ∧ ((s.die d).region (ctlRegion m)).closed = true ∧ s.inFlight d + 1 ≤ 16384 ∧ reqOn m q = true) ∧
    (∃ (s : State) (d m bank : Nat),
      s.live d = true ∧ m < 48 ∧ (s.die d).mcActive m = true ∧ tget ((s.die d).mc m).postponed bank 0 < 4) ∧
    (∃ (s : State) (d m : Nat),
      s.live d = true ∧ m < 48 ∧ (s.die d).mcActive m = true) ∧
    (∃ (s : State) (d m bank : Nat),
      s.live d = true ∧ m < 48 ∧ (s.die d).mcActive m = true ∧ (32 ≤ m ∨ ((s.die d).mc m).rfmReq = true) ∧
      ((s.die d).mc m).rfmInit ≤ tget ((s.die d).mc m).rfm bank 0 ∧ 1 ≤ tget ((s.die d).mc m).rfm bank 0) ∧
    (∃ (s : State) (d lc b : Nat),
      s.live d = true ∧ lc < 16 ∧ (s.die d).chanState (64 + lc) = .active ∧ (s.die d).patrolNext lc = some b) ∧
    (∃ (s : State) (d m : Nat),
      s.live d = true ∧ m < 32 ∧ (s.die d).mcActive m = true) ∧
    (∃ (s : State) (d c n : Nat),
      s.live d = true ∧ c < 80 ∧ (s.die d).chanState c = .active ∧ n ≤ 586) ∧
    (∃ (s : State) (d c n : Nat),
      s.live d = true ∧ c < 80 ∧ (s.die d).chanState c = .active ∧ n ≤ 586 ∧ tget ((s.die d).mc (chanMC c)).pauseFails c 0 < 2) ∧
    (∃ (s : State) (d c n : Nat),
      s.live d = true ∧ c < 80 ∧ (s.die d).chanState c = .active ∧ n ≤ 586 ∧ 2 ≤ tget ((s.die d).mc (chanMC c)).pauseFails c 0) :=
  ⟨⟨w, 0, 0, mq1, by decide +kernel⟩,
    ⟨w, 0, 0, { mq1 with wdata := some (List.replicate 64 7) }, List.replicate 64 7, by decide +kernel⟩,
    ⟨w, 0, 0, { mq1 with slot := 9 }, by decide +kernel⟩,
    ⟨on0 (fun x => x.modMC 0 fun g => { g with ch0 := .lost }), 0, 0, mq1, by decide +kernel⟩,
    ⟨w, 0, 0, { mq1 with cls := 2 }, mq1, by decide +kernel⟩,
    ⟨on0 (fun x => x.modRegion (ctlRegion 0) fun g => { g with power := .asleep, gated := true, offDone := true }), 0, 0, mq1, by decide +kernel⟩,
    ⟨w, 0, 0, 3, by decide +kernel⟩,
    ⟨on0 (fun x => x.modMC 0 fun g => { g with rfm := [(3, 9)], postponed := [(3, 2)] }), 0, 0, by decide +kernel⟩,
    ⟨on0 (fun x => x.modMC 0 fun g => { g with rfm := [(3, 9)], rfmReq := true, rfmInit := 8, rfmMax := 20 }), 0, 0, 3,
      by decide +kernel⟩,
    ⟨w, 0, 3, 0, by decide +kernel⟩,
    ⟨w, 0, 3, by decide +kernel⟩,
    ⟨w, 0, 3, 17, by decide +kernel⟩,
    ⟨w, 0, 3, 17, by decide +kernel⟩,
    ⟨on0 (fun x => x.modMC 0 fun g => { g with pauseFails := [(1, 2)] }), 0, 1, 17, by decide +kernel⟩⟩

/-- What `Obligations.FeltTraining` supposes holds somewhere, clause by clause. -/
theorem wit_FeltTraining :
    (∃ (s : State) (d p lane : Nat) (l : List Byte) (f : Felt),
      s.portOn d p = true ∧ lane < 4 ∧ s.portLive d p = true ∧ f = (s.die d).felt p ∧ f.st ≠ .claimed ∧ trainOk l = false ∧
      trainOk (l.map fun b => ~~~b) = false) ∧
    (∃ (s : State) (d p lane : Nat) (f : Felt),
      s.portOn d p = true ∧ lane < 4 ∧ s.portLive d p = true ∧ f = (s.die d).felt p ∧ f.st ≠ .claimed ∧
      (f.st = .down ∨ f.st = .align ∨ f.st = .active ∨ f.st = .idle ∨ f.st = .folded ∨ f.st = .waking)) ∧
    (∃ (s : State) (d p lane : Nat) (l : List Byte) (f : Felt),
      s.portOn d p = true ∧ lane < 4 ∧ s.portLive d p = true ∧ f = (s.die d).felt p ∧ f.st ≠ .claimed ∧ trainOk l = false ∧
      trainOk (l.map fun b => ~~~b) = true) ∧
    (∃ (s : State) (d p lane : Nat) (l : List Byte) (f : Felt),
      s.portOn d p = true ∧ lane < 4 ∧ s.portLive d p = true ∧ f = (s.die d).felt p ∧ f.st ≠ .claimed ∧ trainOk l = true ∧
      f.st = .detect) ∧
    (∃ (s : State) (d p lane : Nat) (l : List Byte) (f : Felt),
      s.portOn d p = true ∧ lane < 4 ∧ s.portLive d p = true ∧ f = (s.die d).felt p ∧ f.st ≠ .claimed ∧ trainOk l = true ∧
      f.st = .discover) ∧
    (∃ (s : State) (d p lane : Nat) (l : List Byte) (f : Felt),
      s.portOn d p = true ∧ lane < 4 ∧ s.portLive d p = true ∧ f = (s.die d).felt p ∧ f.st ≠ .claimed ∧ trainOk l = true ∧
      f.st = .equalise) ∧
    (∃ (s : State) (d p : Nat) (f : Felt),
      s.portOn d p = true ∧ s.portLive d p = true ∧ f = (s.die d).felt p ∧ f.st = .down ∧ (s.die d).feltEnable p = true) ∧
    (∃ (s : State) (d p : Nat) (f : Felt),
      s.portOn d p = true ∧ s.portLive d p = true ∧ f = (s.die d).felt p ∧ f.st = .idle) ∧
    (∃ (s : State) (d p : Nat) (f : Felt),
      s.portOn d p = true ∧ s.portLive d p = true ∧ f = (s.die d).felt p ∧ f.st = .detect) ∧
    (∃ (s : State) (d p : Nat) (f : Felt), ∃ k,
      s.portOn d p = true ∧ s.portLive d p = true ∧ f = (s.die d).felt p ∧ (f.st = .equalise ∨ f.st = .align) ∧ 2 ≤ f.rate ∧
      commonRate ((s.die d).feltOffer p) f.pRates (f.rate - 1) = some k) ∧
    (∃ (s : State) (d p : Nat) (f : Felt),
      s.portOn d p = true ∧ s.portLive d p = true ∧ f = (s.die d).felt p ∧ (f.st = .equalise ∨ f.st = .align) ∧ f.rate ≤ 1) ∧
    (∃ (s : State) (d p : Nat) (f : Felt), ∃ lanes skew err,
      s.portOn d p = true ∧ s.portLive d p = true ∧ f = (s.die d).felt p ∧ f.st = .align ∧ lanesMapped lanes = true ∧
      skew ≤ 40 ∧ err ≤ 100) ∧
    (∃ (s : State) (d p : Nat) (f : Felt), ∃ lanes skew err,
      s.portOn d p = true ∧ s.portLive d p = true ∧ f = (s.die d).felt p ∧ f.st = .align ∧
      (lanesMapped lanes = false ∨ 40 < skew ∨ 100 < err) ∧ f.rate ≤ 1) :=
  ⟨⟨fe1 { fl0 .down with rate := 0 } 1 (bd 0) (Ring.reset), 0, 1, 2, tf0,
      ((fe1 { fl0 .down with rate := 0 } 1 (bd 0) (Ring.reset)).die 0).felt 1, by decide +kernel, by decide +kernel,
      by decide +kernel, rfl, by decide +kernel, by decide +kernel, by decide +kernel⟩,
    ⟨fe1 { fl0 .down with rate := 0 } 1 (bd 0) (Ring.reset), 0, 1, 2,
      ((fe1 { fl0 .down with rate := 0 } 1 (bd 0) (Ring.reset)).die 0).felt 1, by decide +kernel, by decide +kernel,
      by decide +kernel, rfl, by decide +kernel⟩,
    ⟨fe1 { fl0 .down with rate := 0 } 1 (bd 0) (Ring.reset), 0, 1, 2, tf1.map (fun b => ~~~b),
      ((fe1 { fl0 .down with rate := 0 } 1 (bd 0) (Ring.reset)).die 0).felt 1, by decide +kernel, by decide +kernel,
      by decide +kernel, rfl, by decide +kernel⟩,
    ⟨fe1 { fl0 .detect with lanesOk := 11 } 1 (bd 0) (Ring.reset), 0, 1, 2, tf1,
      ((fe1 { fl0 .detect with lanesOk := 11 } 1 (bd 0) (Ring.reset)).die 0).felt 1, by decide +kernel, by decide +kernel,
      by decide +kernel, rfl, by decide +kernel⟩,
    ⟨fe1 { fl0 .discover with seen := 3, pRates := 7 } 1 (bd 0) (Ring.reset), 0, 1, 2, tf1,
      ((fe1 { fl0 .discover with seen := 3, pRates := 7 } 1 (bd 0) (Ring.reset)).die 0).felt 1, by decide +kernel,
      by decide +kernel, by decide +kernel, rfl, by decide +kernel⟩,
    ⟨fe1 { fl0 .equalise with rate := 2 } 1 (bd 0) (Ring.reset), 0, 1, 2, tf1,
      ((fe1 { fl0 .equalise with rate := 2 } 1 (bd 0) (Ring.reset)).die 0).felt 1, by decide +kernel, by decide +kernel,
      by decide +kernel, rfl, by decide +kernel⟩,
    ⟨fe1 { fl0 .down with rate := 0 } 1 (bd 0) (Ring.reset), 0, 1,
      ((fe1 { fl0 .down with rate := 0 } 1 (bd 0) (Ring.reset)).die 0).felt 1, by decide +kernel, by decide +kernel, rfl,
      by decide +kernel⟩,
    ⟨fe1 { fl0 .idle with rate := 0 } 1 (bd 0) (Ring.reset), 0, 1,
      ((fe1 { fl0 .idle with rate := 0 } 1 (bd 0) (Ring.reset)).die 0).felt 1, by decide +kernel, by decide +kernel, rfl,
      by decide +kernel⟩,
    ⟨fe1 { fl0 .detect with rate := 0 } 1 (bd 0) (Ring.reset), 0, 1,
      ((fe1 { fl0 .detect with rate := 0 } 1 (bd 0) (Ring.reset)).die 0).felt 1, by decide +kernel, by decide +kernel, rfl,
      by decide +kernel⟩,
    ⟨fe1 { fl0 .equalise with rate := 3, pRates := 7 } 769 (bd 0) (Ring.reset), 0, 1,
      ((fe1 { fl0 .equalise with rate := 3, pRates := 7 } 769 (bd 0) (Ring.reset)).die 0).felt 1, 2, by decide +kernel,
      by decide +kernel, rfl, by decide +kernel⟩,
    ⟨fe1 { fl0 .align with rate := 1, pRates := 7 } 769 (bd 0) (Ring.reset), 0, 1,
      ((fe1 { fl0 .align with rate := 1, pRates := 7 } 769 (bd 0) (Ring.reset)).die 0).felt 1, by decide +kernel,
      by decide +kernel, rfl, by decide +kernel⟩,
    ⟨fe1 { fl0 .align with rate := 2, pRates := 7 } 769 (bd 0) (Ring.reset), 0, 1,
      ((fe1 { fl0 .align with rate := 2, pRates := 7 } 769 (bd 0) (Ring.reset)).die 0).felt 1, [2, 0, 3, 1], 40, 100, by decide +kernel,
      by decide +kernel, rfl, by decide +kernel⟩,
    ⟨fe1 { fl0 .align with rate := 1, pRates := 7 } 769 (bd 0) (Ring.reset), 0, 1,
      ((fe1 { fl0 .align with rate := 1, pRates := 7 } 769 (bd 0) (Ring.reset)).die 0).felt 1, [2, 0, 3, 1], 41, 100, by decide +kernel,
      by decide +kernel, rfl, by decide +kernel⟩⟩

/-- What `Obligations.FeltLinkLoss` supposes holds somewhere, clause by clause. -/
theorem wit_FeltLinkLoss :
    (∃ (s : State) (d p n : Nat) (i : Instr),
      s.portOn d p = true ∧ s.portLive d p = true ∧ (s.linkSt d p).awake = true ∧
      (i = .heartbeatLoss d p ∨ i = .alignmentLoss d p ∨ (i = .uncorrectableCodewordRatio d p n ∧ 10 < n))) ∧
    (∃ (s : State) (d p : Nat),
      s.portOn d p = true ∧ s.portLive d p = true ∧ s.linkSt d p ≠ .claimed) ∧
    (∃ (s : State) (d p : Nat) (f : Felt),
      s.portOn d p = true ∧ f = (s.die d).felt p ∧ s.portLive d p = true ∧ f.st = .active ∧ f.txq = [] ∧
      (s.die d).feltIdleUs p ≠ 0) ∧
    (∃ (s : State) (d p : Nat) (f : Felt),
      s.portOn d p = true ∧ f = (s.die d).felt p ∧ s.portLive d p = true ∧ f.st.awake = true) ∧
    (∃ (s : State) (d p : Nat) (f : Felt) (i : Instr),
      s.portOn d p = true ∧ f = (s.die d).felt p ∧ s.portLive d p = true ∧ (s.die d).mayFold p = true ∧
      ((i = .fold d p ∧ f.foldSent = false) ∨ (i = .foldRetry d p ∧ f.foldSent = true ∧ f.ackSeen = false))) ∧
    (∃ (s : State) (d p : Nat) (f : Felt),
      s.portOn d p = true ∧ f = (s.die d).felt p ∧ s.portLive d p = true ∧ f.st.awake = true ∧
      ((f.foldSent = true ∧ f.ackSeen = true) ∨ (f.foldSeen = true ∧ (s.die d).mayFold p = true))) ∧
    (∃ (s : State) (d p : Nat) (f : Felt),
      s.portOn d p = true ∧ f = (s.die d).felt p ∧ s.live d = true ∧ (s.die d).isFenced 10 p = false ∧
      ((s.die d).region p).isolated = false ∧ f.st = .folded) ∧
    (∃ (s : State) (d p : Nat) (f : Felt),
      s.portOn d p = true ∧ f = (s.die d).felt p ∧ s.portLive d p = true ∧ f.st = .waking) :=
  ⟨⟨fe1 { fl0 .active with rate := 0 } 1 (bd 0) (Ring.reset), 0, 1, 11, .uncorrectableCodewordRatio 0 1 11, by decide +kernel⟩,
    ⟨fe1 { fl0 .active with rate := 0 } 1 (bd 0) (Ring.reset), 0, 1, by decide +kernel⟩,
    ⟨fe1 { fl0 .active with rate := 0 } 1048577 (bd 0) (Ring.reset), 0, 1,
      ((fe1 { fl0 .active with rate := 0 } 1048577 (bd 0) (Ring.reset)).die 0).felt 1, by decide +kernel, rfl,
      by decide +kernel⟩,
    ⟨fe1 { fl0 .active with rate := 0 } 1 (bd 0) (Ring.reset), 0, 1,
      ((fe1 { fl0 .active with rate := 0 } 1 (bd 0) (Ring.reset)).die 0).felt 1, by decide +kernel, rfl, by decide +kernel⟩,
    ⟨fe1 { fl0 .active with rate := 0 } 5 (bd 0) (Ring.reset), 0, 1,
      ((fe1 { fl0 .active with rate := 0 } 5 (bd 0) (Ring.reset)).die 0).felt 1, .fold 0 1, by decide +kernel, rfl,
      by decide +kernel⟩,
    ⟨fe1 { fl0 .active with foldSeen := true } 5 (bd 0) (Ring.reset), 0, 1,
      ((fe1 { fl0 .active with foldSeen := true } 5 (bd 0) (Ring.reset)).die 0).felt 1, by decide +kernel, rfl,
      by decide +kernel⟩,
    ⟨fe1 { fl0 .folded with rate := 0 } 1 (bd 0) (Ring.reset), 0, 1,
      ((fe1 { fl0 .folded with rate := 0 } 1 (bd 0) (Ring.reset)).die 0).felt 1, by decide +kernel, rfl, by decide +kernel⟩,
    ⟨fe1 { fl0 .waking with rate := 0 } 1 (bd 0) (Ring.reset), 0, 1,
      ((fe1 { fl0 .waking with rate := 0 } 1 (bd 0) (Ring.reset)).die 0).felt 1, by decide +kernel, rfl, by decide +kernel⟩⟩

/-- What `Obligations.FeltFramesAndRings` supposes holds somewhere, clause by clause. -/
theorem wit_FeltFramesAndRings :
    (∃ (s : State) (d p : Nat) (l : List Byte),
      s.portOn d p = true ∧ s.portLive d p = true ∧ (s.linkSt d p).awake = true ∧ parseFrame l = none) ∧
    (∃ (s : State) (d p : Nat) (l : List Byte), ∃ q,
      s.portOn d p = true ∧ s.portLive d p = true ∧ (s.linkSt d p).awake = true ∧ parseFrame l = some q ∧
      (q.ftype = 1 ∨ q.ftype = 2 ∨ q.ftype = 4) ∧ (q.lseq + 4096 - (((s.die d).felt p).rxLast + 1) % 4096) % 4096 ≠ 0) ∧
    (∃ (s : State) (d p : Nat) (l : List Byte), ∃ q pkg r,
      s.portOn d p = true ∧ s.portLive d p = true ∧ (s.linkSt d p).awake = true ∧ parseFrame l = some q ∧ q.ftype = 1 ∧
      (q.lseq + 4096 - (((s.die d).felt p).rxLast + 1) % 4096) % 4096 = 0 ∧ (s.die d).feltPkg = some pkg ∧ q.dPkg = pkg ∧
      s.usable q.dDie = true ∧ (s.die q.dDie).ringMode q.dRing = 2 ∧
      (s.die q.dDie).ringPeer q.dRing = (q.sPkg, q.sDie, q.sRing) ∧ r = (s.die q.dDie).ring q.dRing ∧ q.sync = false ∧
      q.cseq = r.chan.expect ∧ q.units ≤ (s.die q.dDie).ringRoom q.dRing ∧ r.wr < (s.die q.dDie).ringLen q.dRing ∧
      r.chan.toAck < 15) ∧
    (∃ (s : State) (d n p pkg : Nat) (c : Chan),
      s.live d = true ∧ n < 64 ∧ (s.die d).feltPkg = some pkg ∧ ((s.die d).ringPeer n).1 ≠ pkg ∧ c = ((s.die d).ring n).chan ∧
      p < 8 ∧ (s.die d).isFenced 10 p = false ∧ (s.die d).ringMode n = 1 ∧ 0 < (s.die d).unsent n ∧ c.frames.length < 256) ∧
    (∃ (s : State) (d n pkg : Nat) (c : Chan),
      s.live d = true ∧ n < 64 ∧ (s.die d).feltPkg = some pkg ∧ ((s.die d).ringPeer n).1 ≠ pkg ∧ c = ((s.die d).ring n).chan ∧
      (s.die d).ringMode n = 2 ∧ c.ackDue = true) ∧
    (∃ (s : State) (d n pkg : Nat) (c : Chan),
      s.live d = true ∧ n < 64 ∧ (s.die d).feltPkg = some pkg ∧ ((s.die d).ringPeer n).1 ≠ pkg ∧ c = ((s.die d).ring n).chan ∧
      (s.die d).ringMode n = 1 ∧ c.frames ≠ []) :=
  ⟨⟨fe1 { fl0 .active with rate := 0 } 1 (bd 0) (Ring.reset), 0, 1, [], by decide +kernel⟩,
    ⟨fe1 { fl0 .active with rate := 0 } 1 (bd 2) (Ring.reset), 0, 1, ff4.bytes, ff4, by decide +kernel, by decide +kernel,
      by decide +kernel, parse_ff4, by decide +kernel⟩,
    ⟨fe1 { fl0 .active with rate := 0 } 1 (bd 2) (Ring.reset), 0, 1, ff1.bytes, ff1, 5, Ring.reset, by decide +kernel,
      by decide +kernel, by decide +kernel, parse_ff1, by decide +kernel⟩,
    ⟨fe1 { fl0 .active with rate := 0 } 1 (bd 1) ({ Ring.reset with wr := 3 }), 0, 2, 1, 5, Chan.reset, by decide +kernel,
      by decide +kernel, by decide +kernel, by decide +kernel, rfl, by decide +kernel⟩,
    ⟨fe1 { fl0 .active with rate := 0 } 1 (bd 2) ({ Ring.reset with chan := { Chan.reset with ackDue := true, toAck := 3 } }), 0,
      2, 5, { Chan.reset with ackDue := true, toAck := 3 }, by decide +kernel, by decide +kernel, by decide +kernel,
      by decide +kernel, rfl, by decide +kernel⟩,
    ⟨fe1 { fl0 .active with rate := 0 } 1 (bd 1) ({ Ring.reset with wr := 3, chan := { Chan.reset with frames := [3] } }), 0, 2,
      5, { Chan.reset with frames := [3] }, by decide +kernel, by decide +kernel, by decide +kernel, by decide +kernel, rfl,
      by decide +kernel⟩⟩

/-- What `Obligations.SidebandReadsAnswer` supposes holds somewhere, clause by clause. -/
theorem wit_SidebandReadsAnswer :
    (∃ (s : State) (a : BitVec 32) (d off : Nat),
      s.sideOn = true ∧ d = a.toNat / 2 ^ 26 ∧ off = a.toNat % 2 ^ 26 ∧ s.live d = true ∧ off % 4 = 0 ∧ off < 0x100000 ∧
      pairOf off = none ∧ (s.unlocked d = false ∨ Nat.land (s.wordAt d off) (rcMask d off) = 0)) ∧
    (∃ (s : State) (a : BitVec 32) (d off : Nat),
      s.sideOn = true ∧ d = a.toNat / 2 ^ 26 ∧ off = a.toNat % 2 ^ 26 ∧ (s.dieCount ≤ d ∨ (s.die d).lost = true)) ∧
    (∃ (s : State) (a : BitVec 32) (d off : Nat),
      s.sideOn = true ∧ d = a.toNat / 2 ^ 26 ∧ off = a.toNat % 2 ^ 26 ∧ d < s.dieCount ∧ (s.die d).lost = false ∧
      s.live d = false ∧ 12 ≤ off) ∧
    (∃ (s : State) (d : Nat) (off : BitVec 32),
      s.live d = true ∧ off.toNat % 4 = 0 ∧ off.toNat < 0x100000 ∧ rcMask d off.toNat ≠ 0) ∧
    (∃ (s : State) (d k : Nat) (off : BitVec 32),
      s.live d = true ∧ off.toNat % 4 = 0 ∧ pairOf off.toNat = some (k, false)) ∧
    (∃ (s : State) (d k : Nat) (off : BitVec 32),
      s.live d = true ∧ off.toNat % 4 = 0 ∧ pairOf off.toNat = some (k, true)) :=
  ⟨⟨w, 0, 0, 0, by decide +kernel⟩,
    ⟨w.modDie 3 fun x => { x with lost := true }, BitVec.ofNat 32 (3 * 2 ^ 26), 3, 0, by decide +kernel⟩,
    ⟨{ w with psi := { w.psi with state := .cold } }, 12, 0, 12, by decide +kernel⟩,
    ⟨on0 (fun x => x.modFelt 1 fun f => { f with arrived := true, departed := true }), 0, 0x5124, by decide +kernel⟩,
    ⟨on0 (fun x => { x with led := { x.led with cycA := 77 } }), 0, 0, 0x10, by decide +kernel⟩,
    ⟨w, 0, 0, 0x14, by decide +kernel⟩⟩

/-- What `Obligations.PressedWritesAndCheck` supposes holds somewhere, clause by clause. -/
theorem wit_PressedWritesAndCheck :
    (∃ (s : State) (d m : Nat) (off : BitVec 32),
      s.live d = true ∧ pwMask off.toNat = some m ∧ (s.die d).blockFenced off.toNat = false) ∧
    (∃ (s : State) (d : Nat),
      s.live d = true ∧ (s.die d).blockFenced 0x20 = false) ∧
    (∃ (s : State) (d : Nat),
      s.live d = true ∧ (s.die d).blockFenced 0x24 = false) ∧
    (∃ (s : State) (d b : Nat),
      s.live d = true ∧ b ∈ cfgBlocks ∧ (s.die d).isFenced 17 15 = false) ∧
    (∃ (s : State) (d b : Nat),
      s.live d = true ∧ b ∈ cfgBlocks ∧ ((s.die d).cfg b).commitPend = true) ∧
    (∃ (s : State) (d b : Nat),
      s.live d = true ∧ b ∈ cfgBlocks ∧ ((s.die d).cfg b).commitPend = false ∧
      (((s.die d).cfg b).chkEn = false ∨ (s.die d).blockCrc b = ((s.die d).cfg b).ref)) ∧
    (∃ (s : State) (d b : Nat),
      s.live d = true ∧ b ∈ cfgBlocks ∧ b ≠ 3 ∧ ((s.die d).cfg b).commitPend = false ∧ ((s.die d).cfg b).chkEn = true ∧
      (s.die d).blockCrc b ≠ ((s.die d).cfg b).ref ∧ ((s.die d).cfg b).recent = none) :=
  ⟨⟨w, 0, (pwMask 0x3000).getD 0, 0x3000, by decide +kernel⟩,
    ⟨on0 (fun x => x.setPreg 0x3000 { applied := 0, pend := some 7 }), 0, by decide +kernel⟩,
    ⟨on0 (fun x => x.setPreg 0x3000 { applied := 0, pend := some 7 }), 0, by decide +kernel⟩,
    ⟨w, 0, 3, by decide +kernel⟩,
    ⟨on0 (fun x => x.modCfg 2 fun c => { c with commitPend := true }), 0, 2, by decide +kernel⟩,
    ⟨w, 0, 2, by decide +kernel⟩,
    ⟨on0 (fun x => x.modCfg 2 fun c => { c with chkEn := true, ref := 5 }), 0, 2, by decide +kernel⟩⟩

/-- What `Obligations.WritesAndTheirPaths` supposes holds somewhere, clause by clause. -/
theorem wit_WritesAndTheirPaths :
    (∃ (s : State) (d b : Nat),
      s.live d = true ∧ b ∈ cfgBlocks ∧ (s.die d).isFenced 17 15 = false) ∧
    (∃ (s : State) (d : Nat) (off : BitVec 32),
      s.live d = true ∧ off.toNat % 4 ≠ 0) ∧
    (∃ (s : State) (a v : BitVec 32) (d off : Nat),
      d = a.toNat / 2 ^ 26 ∧ off = a.toNat % 2 ^ 26 ∧ s.live d = true ∧ off % 4 = 0 ∧ off < 0x100000 ∧ off ≠ 0x20 ∧ off ≠ 0x24 ∧
      off ≠ 0xF050 ∧ s.unlocked d = false ∧ sideFelt off v.toNat = false) ∧
    (∃ (s : State) (a v : BitVec 32) (d off : Nat), ∃ m,
      d = a.toNat / 2 ^ 26 ∧ off = a.toNat % 2 ^ 26 ∧ s.live d = true ∧ off % 4 = 0 ∧ off < 0x100000 ∧ off ≠ 0x20 ∧ off ≠ 0x24 ∧
      off ≠ 0xF050 ∧ (s.unlocked d = true ∨ sideFelt off v.toNat = true) ∧ pwMask off = some m ∧
      (s.die d).blockFenced off = false) ∧
    (∃ (s : State) (f d : Nat) (off : BitVec 32),
      s.running = true ∧ s.hostReaches f = true ∧ s.live d = true ∧ off.toNat < 0x80000) :=
  ⟨⟨w, 0, 3, by decide +kernel⟩,
    ⟨w, 0, 0x3001, by decide +kernel⟩,
    ⟨w, 0x3000, 9, 0, 0x3000, by decide +kernel⟩,
    ⟨{ w with psi := { w.psi with dbg := { w.psi.dbg with scope := 1, dies := 1 } } }, 0x3000, 9, 0, 0x3000,
      (pwMask 0x3000).getD 0, by decide +kernel⟩,
    ⟨{ w with funcs := [(0, { Func.reset 0 with d3 := false })] }, 0, 0, 0x3000, by decide +kernel⟩⟩

/-- What `Obligations.LedgerAndBackstop` supposes holds somewhere, clause by clause. -/
theorem wit_LedgerAndBackstop :
    (∃ (s : State) (d nj nclk : Nat) (fab : List Nat) (temp : Int) (moved : Nat × Nat) (acts : List Activity) (x : Die),
      s.live d = true ∧ fab.length ≤ 8 ∧ x = (s.die d).modLed (fun l => l.meter nj fab nclk temp) ∧
      acts = (((s.die d).act 4 .device moved.1).act 5 .device moved.2).acts) ∧
    (∃ (s : State) (nj sum : Nat),
      s.running = true ∧ sum = s.sumDies s.sinceWindow + nj) ∧
    (∃ (s : State) (d : Nat),
      s.live d = true ∧ (s.die d).quiet = true) :=
  ⟨⟨{ on0 (fun x => { x with led := { x.led with hot := 0, backstopOn := true } }) with limits := [(pm, [0])] }, 0, 500000, 6000,
      [10, 20], 100, (3, 4), _, _, by decide +kernel, by decide +kernel, rfl, rfl⟩,
    ⟨w, 10 ^ 10, w.sumDies w.sinceWindow + (10 ^ 10), by decide +kernel⟩,
    ⟨w, 0, by decide +kernel⟩⟩

/-- What `Obligations.FatalCausesAndReset` supposes holds somewhere, clause by clause. -/
theorem wit_FatalCausesAndReset :
    (∃ (s : State) (d : Nat) (temp : Int),
      s.running = true ∧ (d < s.dieCount ∨ d = 0xFF) ∧ s.part.tMax + 10 < temp) ∧
    (∃ (s : State),
      s.running = true) ∧
    (∃ (s : State) (k : VinKind), ∃ mv,
      s.pins.pkgRstN = true ∧ s.running = true ∧ k = .holdUp mv ∧ holdUpBand mv = true) ∧
    (∃ (s : State) (k : VinKind),
      s.pins.pkgRstN = true ∧ s.running = true ∧ k = .above63) ∧
    (∃ (s : State) (k : VinKind),
      s.pins.pkgRstN = true ∧ s.running = true ∧ k = .below36) ∧
    (∃ (s : State) (i : Instr) (d : Nat),
      s.live d = true ∧ (i = .pllLockLoss d ∨ i = .dieControllerTimeout d) ∧ d ≠ 0) ∧
    (∃ (s : State) (i : Instr) (d : Nat),
      s.live d = true ∧ (i = .pllLockLoss d ∨ i = .dieControllerTimeout d) ∧ d = 0) :=
  ⟨⟨w, 0xFF, w.part.tMax + 11, by decide +kernel⟩,
    ⟨w, by decide +kernel⟩,
    ⟨{ w with pins := { w.pins with pkgRstN := true } }, .holdUp 39000, 39000, by decide +kernel, by decide +kernel, rfl,
      by decide +kernel⟩,
    ⟨{ w with pins := { w.pins with pkgRstN := true } }, .above63, by decide +kernel, by decide +kernel, rfl⟩,
    ⟨{ w with pins := { w.pins with pkgRstN := true } }, .below36, by decide +kernel, by decide +kernel, rfl⟩,
    ⟨w, .pllLockLoss 1, 1, by decide +kernel⟩,
    ⟨w, .dieControllerTimeout 0, 0, by decide +kernel⟩⟩

/-- What `Obligations.BootAndStartUp` supposes holds somewhere, clause by clause. -/
theorem wit_BootAndStartUp :
    (∃ (s w : State) (f : BootFacts),
      s.psi.state = .inReset ∧
      w = (s.modPsi fun y => { y with flash := f.flash.foldl (fun m v => mwriteN m v.1 v.2) y.flash }) ∧ s.tooCold f = true) ∧
    (∃ (s w : State) (f : BootFacts),
      s.psi.state = .inReset ∧
      w = (s.modPsi fun y => { y with flash := f.flash.foldl (fun m v => mwriteN m v.1 v.2) y.flash }) ∧ s.tooCold f = false ∧
      f.romOk = false) ∧
    (∃ (s w : State) (f : BootFacts),
      s.psi.state = .inReset ∧
      w = (s.modPsi fun y => { y with flash := f.flash.foldl (fun m v => mwriteN m v.1 v.2) y.flash }) ∧ s.tooCold f = false ∧
      f.romOk = true ∧ w.fwDir = none) ∧
    (∃ (s w : State) (f : BootFacts), ∃ a st,
      s.psi.state = .inReset ∧
      w = (s.modPsi fun y => { y with flash := f.flash.foldl (fun m v => mwriteN m v.1 v.2) y.flash }) ∧ s.tooCold f = false ∧
      f.romOk = true ∧ w.fwDir = some a ∧ w.fwCheck (fwSlot (w.fwDirAt a) (fieldAt (w.fwDirAt a) 24 1)) f.chk = some st) ∧
    (∃ (s w : State) (f : BootFacts), ∃ a,
      s.psi.state = .inReset ∧
      w = (s.modPsi fun y => { y with flash := f.flash.foldl (fun m v => mwriteN m v.1 v.2) y.flash }) ∧ s.tooCold f = false ∧
      f.romOk = true ∧ w.fwDir = some a ∧ w.fwCheck (fwSlot (w.fwDirAt a) (fieldAt (w.fwDirAt a) 24 1)) f.chk = none ∧
      f.dieFail = [] ∧ f.unreached = []) ∧
    (∃ (s : State) (f : BootFacts),
      s.psi.state = .cold ∧ s.psi.coldBoot = some f ∧ f.romOk = false) ∧
    (∃ (s : State) (f : BootFacts), ∃ a,
      s.psi.state = .cold ∧ s.psi.coldBoot = some f ∧ f.romOk = true ∧ s.fwDir = some a ∧
      s.fwCheck (fwSlot (s.fwDirAt a) (fieldAt (s.fwDirAt a) 24 1)) f.chk = none ∧ f.dieFail = [] ∧ f.unreached = []) ∧
    (∃ (s : State) (c1 : ImgChk), ∃ frames,
      s.running = true ∧ s.psi.strapCfg = false ∧ s.psi.cfgStep = 3 ∧ cfgDirOk s.cfgDir = true ∧
      s.readFull (fieldAt s.cfgDir 8 8) c1 = .inr (frames, [])) ∧
    (∃ (s : State) (c1 : ImgChk), ∃ st det,
      s.running = true ∧ s.psi.strapCfg = false ∧ s.psi.cfgStep = 3 ∧ cfgDirOk s.cfgDir = true ∧
      s.readFull (fieldAt s.cfgDir 8 8) c1 = .inl (st, det) ∧ fieldAt s.cfgDir 16 8 = 0) ∧
    (∃ (s : State) (d : Nat),
      s.live d = true ∧ s.pins.cfgDone = true ∧ (s.die d).sawDone = false) :=
  ⟨⟨rst1, rst1.modPsi fun y => { y with flash := fac1.flash.foldl (fun m v => mwriteN m v.1 v.2) y.flash },
      { fac1 with psiTemp := -41 }, by decide +kernel, rfl, by decide +kernel⟩,
    ⟨rst1, rst1.modPsi fun y => { y with flash := fac1.flash.foldl (fun m v => mwriteN m v.1 v.2) y.flash },
      { fac1 with romOk := false }, by decide +kernel, rfl, by decide +kernel⟩,
    ⟨State.reset, State.reset.modPsi fun y => { y with flash := fac1.flash.foldl (fun m v => mwriteN m v.1 v.2) y.flash }, fac1,
      by decide +kernel, rfl, by decide +kernel⟩,
    ⟨rst1, rst1.modPsi fun y => { y with flash := fac1.flash.foldl (fun m v => mwriteN m v.1 v.2) y.flash },
      { fac1 with chk := { chk1 with edOk := false } }, 0, Status.sigClassicFail, by decide +kernel, rfl, by decide +kernel,
      by decide +kernel, by decide +kernel,
      (fw_flash (u := 0) (by decide +kernel) (.inl rfl) rfl rfl rfl rfl).trans (by decide +kernel)⟩,
    ⟨rst1, rst1.modPsi fun y => { y with flash := fac1.flash.foldl (fun m v => mwriteN m v.1 v.2) y.flash }, fac1, 0,
      by decide +kernel, rfl, by decide +kernel, by decide +kernel, by decide +kernel,
      (fw_flash (u := 0) (by decide +kernel) (.inl rfl) rfl rfl rfl rfl).trans (by decide +kernel), by decide +kernel⟩,
    ⟨{ rst1 with psi := { rst1.psi with state := .cold, coldBoot := some { fac1 with romOk := false } } },
      { fac1 with romOk := false }, by decide +kernel, rfl, by decide +kernel⟩,
    ⟨{ rst1 with psi := { rst1.psi with state := .cold, coldBoot := some fac1 } }, fac1, 0, by decide +kernel, rfl,
      by decide +kernel, by decide +kernel,
      (fw_flash (u := 0) (by decide +kernel) (.inl rfl) rfl rfl rfl rfl).trans (by decide +kernel), by decide +kernel⟩,
    ⟨{ w with psi := { w.psi with cfgStep := 3, flash := flash3 } }, chk1, [(8388608, 165)], by decide +kernel, by decide +kernel,
      by decide +kernel, by decide +kernel,
      (full_flash (u := 1) (by decide +kernel) rfl rfl (by decide +kernel) rfl rfl rfl).trans (by decide +kernel)⟩,
    ⟨{ w with psi := { w.psi with cfgStep := 3, flash := flash3 } }, { chk1 with pqOk := false }, Status.sigPqFail, 0,
      by decide +kernel, by decide +kernel, by decide +kernel, by decide +kernel,
      (full_flash (u := 1) (by decide +kernel) rfl rfl (by decide +kernel) rfl rfl rfl).trans (by decide +kernel), by decide +kernel⟩,
    ⟨{ (on0 fun x => { x with sawDone := false }) with pins := { w.pins with cfgDone := true } }, 0, by decide +kernel⟩⟩

/-- What `Obligations.TileScalarWords` supposes holds somewhere, clause by clause. -/
theorem wit_TileScalarWords :
    (∃ (w : VW),
      w.m = false) ∧
    (∃ (op : Nat) (w : VW), ∃ e,
      w.m = true ∧ 0x20 ≤ op ∧ e < 256) ∧
    (∃ (s : State) (t : VAt) (w : VW),
      WordRuns s 0x10 t w) ∧
    (∃ (s : State) (t : VAt) (w : VW),
      WordRuns s 0x11 t w ∧ ((s.vcore t).pt w.p0.toNat).len = 0) ∧
    (∃ (s : State) (t : VAt) (w : VW),
      WordRuns s 0x12 t w ∧ (w.x5 = 0x08 ∨ w.x5 = 0x11)) ∧
    (∃ (s : State) (t : VAt) (w : VW),
      WordRuns s 0x12 t w ∧ w.x5 = 0x0A) ∧
    (∃ (s : State) (t : VAt) (w : VW),
      WordRuns s 0x12 t w) ∧
    (∃ (s : State) (t : VAt) (w : VW),
      WordRuns s 0x13 t w) ∧
    (∃ (s : State) (t : VAt) (w : VW),
      WordRuns s 0x14 t w) ∧
    (∃ (s : State) (t : VAt) (w : VW),
      WordRuns s 0x15 t w) ∧
    (∃ (s : State) (t : VAt) (w : VW),
      WordRuns s 0x16 t w) ∧
    (∃ (s : State) (t : VAt) (w : VW),
      WordRuns s 0x17 t w) ∧
    (∃ (s : State) (t : VAt) (w : VW),
      WordRuns s 0x29 t w) ∧
    (∃ (s : State) (t : VAt) (w : VW),
      WordRuns s 0x2A t w) ∧
    (∃ (s : State) (t : VAt) (w : VW),
      WordRuns s 0x2B t w) ∧
    (∃ (s : State) (t : VAt) (w : VW),
      WordRuns s 0x2C t w) :=
  ⟨⟨wd 0x20, by decide +kernel⟩,
    ⟨0x20, { wd 0x20 with m := true, vb := 0, p0 := 1 }, 9, by decide +kernel⟩,
    ⟨vs 0x10 (wd 0x10) 9 0 yv, vt, wd 0x10, wruns (by decide +kernel)⟩,
    ⟨vs 0x11 (wd 0x11) 9 0 yv, vt, wd 0x11, wruns (by decide +kernel), by decide +kernel⟩,
    ⟨vs 0x12 (wd 0x12) 9 0 yv, vt, wd 0x12, wruns (by decide +kernel), by decide +kernel⟩,
    ⟨vs 0x12 ({ wd 0x12 with x5 := 0x0A }) 9 0 yv, vt, { wd 0x12 with x5 := 0x0A }, wruns (by decide +kernel), by decide +kernel⟩,
    ⟨vs 0x12 (wd 0x12) 9 0 yv, vt, wd 0x12, wruns (by decide +kernel)⟩,
    ⟨vs 0x13 (wd 0x13) 9 0 yv, vt, wd 0x13, wruns (by decide +kernel)⟩,
    ⟨vs 0x14 (wd 0x14) 9 0 yv, vt, wd 0x14, wruns (by decide +kernel)⟩,
    ⟨vs 0x15 (wd 0x15) 9 0 yv, vt, wd 0x15, wruns (by decide +kernel)⟩,
    ⟨vs 0x16 (wd 0x16) 9 0 yv, vt, wd 0x16, wruns (by decide +kernel)⟩,
    ⟨vs 0x17 (wd 0x17) 9 0 yv, vt, wd 0x17, wruns (by decide +kernel)⟩,
    ⟨vs 0x29 (wd 0x29) 9 0 yv, vt, wd 0x29, wruns (by decide +kernel)⟩,
    ⟨vs 0x2A (wd 0x2A) 9 0 yv, vt, wd 0x2A, wruns (by decide +kernel)⟩,
    ⟨vs 0x2B (wd 0x2B) 9 0 yv, vt, wd 0x2B, wruns (by decide +kernel)⟩,
    ⟨vs 0x2C (wd 0x2C) 9 0 yv, vt, wd 0x2C, wruns (by decide +kernel)⟩⟩

/-- What `Obligations.FixedPointWords` supposes holds somewhere, clause by clause. -/
theorem wit_FixedPointWords :
    (∃ (s : State) (t : VAt) (w : VW),
      WordRuns s 0x20 t w) ∧
    (∃ (s : State) (t : VAt) (w : VW),
      WordRuns s 0x21 t w) ∧
    (∃ (s : State) (t : VAt) (w : VW),
      WordRuns s 0x22 t w) ∧
    (∃ (s : State) (t : VAt) (w : VW),
      WordRuns s 0x23 t w) ∧
    (∃ (s : State) (t : VAt) (w : VW),
      WordRuns s 0x24 t w) ∧
    (∃ (s : State) (t : VAt) (w : VW),
      WordRuns s 0x25 t w) ∧
    (∃ (s : State) (t : VAt) (w : VW),
      WordRuns s 0x26 t w) ∧
    (∃ (s : State) (t : VAt) (w : VW),
      WordRuns s 0x27 t w) ∧
    (∃ (s : State) (t : VAt) (w : VW),
      WordRuns s 0x28 t w) ∧
    (∃ (s : State) (t : VAt) (w : VW),
      WordRuns s 0x2D t w) ∧
    (∃ (s : State) (t : VAt) (w : VW),
      WordRuns s 0x2E t w) ∧
    (∃ (s : State) (t : VAt) (w : VW),
      WordRuns s 0x2F t w) :=
  ⟨⟨vs 0x20 (wd 0x20) 9 0 yv, vt, wd 0x20, wruns (by decide +kernel)⟩,
    ⟨vs 0x21 (wd 0x21) 9 0 yv, vt, wd 0x21, wruns (by decide +kernel)⟩,
    ⟨vs 0x22 (wd 0x22) 9 0 yv, vt, wd 0x22, wruns (by decide +kernel)⟩,
    ⟨vs 0x23 (wd 0x23) 9 0 yv, vt, wd 0x23, wruns (by decide +kernel)⟩,
    ⟨vs 0x24 (wd 0x24) 9 0 yv, vt, wd 0x24, wruns (by decide +kernel)⟩,
    ⟨vs 0x25 (wd 0x25) 9 0 yv, vt, wd 0x25, wruns (by decide +kernel)⟩,
    ⟨vs 0x26 (wd 0x26) 9 0 yv, vt, wd 0x26, wruns (by decide +kernel)⟩,
    ⟨vs 0x27 (wd 0x27) 9 0 yv, vt, wd 0x27, wruns (by decide +kernel)⟩,
    ⟨vs 0x28 (wd 0x28) 9 0 yv, vt, wd 0x28, wruns (by decide +kernel)⟩,
    ⟨vs 0x2D (wd 0x2D) 9 0 yv, vt, wd 0x2D, wruns (by decide +kernel)⟩,
    ⟨vs 0x2E (wd 0x2E) 9 0 yv, vt, wd 0x2E, wruns (by decide +kernel)⟩,
    ⟨vs 0x2F (wd 0x2F) 9 0 yv, vt, wd 0x2F, wruns (by decide +kernel)⟩⟩

/-- What `Obligations.TileAccumulatorWords` supposes holds somewhere, clause by clause. -/
theorem wit_TileAccumulatorWords :
    (∃ (s : State) (t : VAt) (w : VW),
      WordRuns s 0x30 t w) ∧
    (∃ (s : State) (t : VAt) (w : VW),
      WordRuns s 0x31 t w) ∧
    (∃ (s : State) (t : VAt) (w : VW),
      WordRuns s 0x32 t w) ∧
    (∃ (s : State) (t : VAt) (w : VW),
      WordRuns s 0x33 t w) ∧
    (∃ (s : State) (t : VAt) (w : VW),
      WordRuns s 0x34 t w) ∧
    (∃ (s : State) (t : VAt) (w : VW),
      WordRuns s 0x35 t w) ∧
    (∃ (s : State) (t : VAt) (w : VW),
      WordRuns s 0x36 t w) ∧
    (∃ (s : State) (t : VAt) (w : VW),
      WordRuns s 0x37 t w) ∧
    (∃ (s : State) (t : VAt) (w : VW),
      WordRuns s 0x38 t w) ∧
    (∃ (s : State) (t : VAt) (w : VW),
      WordRuns s 0x3A t w) ∧
    (∃ (s : State) (t : VAt) (w : VW),
      WordRuns s 0x3B t w) ∧
    (∃ (s : State) (t : VAt) (w : VW),
      WordRuns s 0x3C t w) ∧
    (∃ (s : State) (t : VAt) (w : VW),
      WordRuns s 0x3D t w) ∧
    (∃ (s : State) (t : VAt) (w : VW),
      WordRuns s 0x3E t w) ∧
    (∃ (s : State) (t : VAt) (w : VW),
      WordRuns s 0x3F t w) :=
  ⟨⟨vs 0x30 (wd 0x30) 9 0 yv, vt, wd 0x30, wruns (by decide +kernel)⟩,
    ⟨vs 0x31 (wd 0x31) 9 0 yv, vt, wd 0x31, wruns (by decide +kernel)⟩,
    ⟨vs 0x32 (wd 0x32) 9 0 yv, vt, wd 0x32, wruns (by decide +kernel)⟩,
    ⟨vs 0x33 (wd 0x33) 9 0 yv, vt, wd 0x33, wruns (by decide +kernel)⟩,
    ⟨vs 0x34 (wd 0x34) 9 0 yv, vt, wd 0x34, wruns (by decide +kernel)⟩,
    ⟨vs 0x35 (wd 0x35) 9 0 yv, vt, wd 0x35, wruns (by decide +kernel)⟩,
    ⟨vs 0x36 (wd 0x36) 9 0 yv, vt, wd 0x36, wruns (by decide +kernel)⟩,
    ⟨vs 0x37 (wd 0x37) 9 0 yv, vt, wd 0x37, wruns (by decide +kernel)⟩,
    ⟨vs 0x38 (wd 0x38) 9 0 yv, vt, wd 0x38, wruns (by decide +kernel)⟩,
    ⟨vs 0x3A (wd 0x3A) 9 0 yv, vt, wd 0x3A, wruns (by decide +kernel)⟩,
    ⟨vs 0x3B (wd 0x3B) 9 0 yv, vt, wd 0x3B, wruns (by decide +kernel)⟩,
    ⟨vs 0x3C (wd 0x3C) 9 0 yv, vt, wd 0x3C, wruns (by decide +kernel)⟩,
    ⟨vs 0x3D (wd 0x3D) 9 0 yv, vt, wd 0x3D, wruns (by decide +kernel)⟩,
    ⟨vs 0x3E (wd 0x3E) 9 0 yv, vt, wd 0x3E, wruns (by decide +kernel)⟩,
    ⟨vs 0x3F (wd 0x3F) 9 0 yv, vt, wd 0x3F, wruns (by decide +kernel)⟩⟩

/-- What `Obligations.TileFloatWords` supposes holds somewhere, clause by clause. -/
theorem wit_TileFloatWords :
    (∃ (s : State) (t : VAt) (w : VW) (x : VIn),
      x = s.vIn 0x40 t w ∧ WordRuns s 0x40 t w) ∧
    (∃ (s : State) (t : VAt) (w : VW) (x : VIn),
      x = s.vIn 0x41 t w ∧ WordRuns s 0x41 t w) ∧
    (∃ (s : State) (t : VAt) (w : VW) (x : VIn),
      x = s.vIn 0x42 t w ∧ WordRuns s 0x42 t w) ∧
    (∃ (s : State) (t : VAt) (w : VW) (x : VIn),
      x = s.vIn 0x43 t w ∧ WordRuns s 0x43 t w) ∧
    (∃ (s : State) (t : VAt) (w : VW) (x : VIn),
      x = s.vIn 0x44 t w ∧ WordRuns s 0x44 t w) ∧
    (∃ (s : State) (t : VAt) (w : VW) (x : VIn),
      x = s.vIn 0x45 t w ∧ WordRuns s 0x45 t w) ∧
    (∃ (s : State) (t : VAt) (w : VW) (x : VIn),
      x = s.vIn 0x46 t w ∧ WordRuns s 0x46 t w) ∧
    (∃ (s : State) (t : VAt) (w : VW) (x : VIn),
      x = s.vIn 0x47 t w ∧ WordRuns s 0x47 t w) ∧
    (∃ (s : State) (t : VAt) (w : VW) (x : VIn),
      x = s.vIn 0x48 t w ∧ WordRuns s 0x48 t w) ∧
    (∃ (s : State) (t : VAt) (w : VW) (x : VIn),
      x = s.vIn 0x49 t w ∧ WordRuns s 0x49 t w) ∧
    (∃ (s : State) (t : VAt) (w : VW) (x : VIn),
      x = s.vIn 0x4A t w ∧ WordRuns s 0x4A t w) ∧
    (∃ (s : State) (t : VAt) (w : VW) (x : VIn),
      x = s.vIn 0x4B t w ∧ WordRuns s 0x4B t w) ∧
    (∃ (s : State) (t : VAt) (w : VW) (x : VIn),
      x = s.vIn 0x4C t w ∧ WordRuns s 0x4C t w) ∧
    (∃ (s : State) (t : VAt) (w : VW) (x : VIn),
      x = s.vIn 0x4D t w ∧ WordRuns s 0x4D t w) ∧
    (∃ (s : State) (t : VAt) (w : VW) (x : VIn),
      x = s.vIn 0x4E t w ∧ WordRuns s 0x4E t w) ∧
    (∃ (s : State) (t : VAt) (w : VW) (x : VIn),
      x = s.vIn 0x4F t w ∧ WordRuns s 0x4F t w) ∧
    (∃ (s : State) (t : VAt) (w : VW) (x : VIn),
      x = s.vIn 0x50 t w ∧ WordRuns s 0x50 t w) :=
  ⟨⟨vs 0x40 (wd 0x40) 9 0 yv, vt, wd 0x40, (vs 0x40 (wd 0x40) 9 0 yv).vIn 0x40 vt (wd 0x40), rfl, wruns (by decide +kernel)⟩,
    ⟨vs 0x41 (wd 0x41) 9 0 yv, vt, wd 0x41, (vs 0x41 (wd 0x41) 9 0 yv).vIn 0x41 vt (wd 0x41), rfl, wruns (by decide +kernel)⟩,
    ⟨vs 0x42 (wd 0x42) 9 0 yv, vt, wd 0x42, (vs 0x42 (wd 0x42) 9 0 yv).vIn 0x42 vt (wd 0x42), rfl, wruns (by decide +kernel)⟩,
    ⟨vs 0x43 (wd 0x43) 9 0 yv, vt, wd 0x43, (vs 0x43 (wd 0x43) 9 0 yv).vIn 0x43 vt (wd 0x43), rfl, wruns (by decide +kernel)⟩,
    ⟨vs 0x44 (wd 0x44) 9 0 yv, vt, wd 0x44, (vs 0x44 (wd 0x44) 9 0 yv).vIn 0x44 vt (wd 0x44), rfl, wruns (by decide +kernel)⟩,
    ⟨vs 0x45 (wd 0x45) 9 0 yv, vt, wd 0x45, (vs 0x45 (wd 0x45) 9 0 yv).vIn 0x45 vt (wd 0x45), rfl, wruns (by decide +kernel)⟩,
    ⟨vs 0x46 (wd 0x46) 9 0 yv, vt, wd 0x46, (vs 0x46 (wd 0x46) 9 0 yv).vIn 0x46 vt (wd 0x46), rfl, wruns (by decide +kernel)⟩,
    ⟨vs 0x47 (wd 0x47) 9 0 yv, vt, wd 0x47, (vs 0x47 (wd 0x47) 9 0 yv).vIn 0x47 vt (wd 0x47), rfl, wruns (by decide +kernel)⟩,
    ⟨vs 0x48 (wd 0x48) 9 0 yv, vt, wd 0x48, (vs 0x48 (wd 0x48) 9 0 yv).vIn 0x48 vt (wd 0x48), rfl, wruns (by decide +kernel)⟩,
    ⟨vs 0x49 (wd 0x49) 9 0 yv, vt, wd 0x49, (vs 0x49 (wd 0x49) 9 0 yv).vIn 0x49 vt (wd 0x49), rfl, wruns (by decide +kernel)⟩,
    ⟨vs 0x4A (wd 0x4A) 9 0 yv, vt, wd 0x4A, (vs 0x4A (wd 0x4A) 9 0 yv).vIn 0x4A vt (wd 0x4A), rfl, wruns (by decide +kernel)⟩,
    ⟨vs 0x4B (wd 0x4B) 9 0 yv, vt, wd 0x4B, (vs 0x4B (wd 0x4B) 9 0 yv).vIn 0x4B vt (wd 0x4B), rfl, wruns (by decide +kernel)⟩,
    ⟨vs 0x4C (wd 0x4C) 9 0 yv, vt, wd 0x4C, (vs 0x4C (wd 0x4C) 9 0 yv).vIn 0x4C vt (wd 0x4C), rfl, wruns (by decide +kernel)⟩,
    ⟨vs 0x4D (wd 0x4D) 9 0 yv, vt, wd 0x4D, (vs 0x4D (wd 0x4D) 9 0 yv).vIn 0x4D vt (wd 0x4D), rfl, wruns (by decide +kernel)⟩,
    ⟨vs 0x4E (wd 0x4E) 9 0 yv, vt, wd 0x4E, (vs 0x4E (wd 0x4E) 9 0 yv).vIn 0x4E vt (wd 0x4E), rfl, wruns (by decide +kernel)⟩,
    ⟨vs 0x4F (wd 0x4F) 9 0 yv, vt, wd 0x4F, (vs 0x4F (wd 0x4F) 9 0 yv).vIn 0x4F vt (wd 0x4F), rfl, wruns (by decide +kernel)⟩,
    ⟨vs 0x50 (wd 0x50) 9 0 yv, vt, wd 0x50, (vs 0x50 (wd 0x50) 9 0 yv).vIn 0x50 vt (wd 0x50), rfl, wruns (by decide +kernel)⟩⟩

/-- What `Obligations.TileControlWords` supposes holds somewhere, clause by clause. -/
theorem wit_TileControlWords :
    (∃ (s : State) (t : VAt) (w : VW) (c : VCore),
      c = s.vcore t ∧ WordRuns s 0x00 t w) ∧
    (∃ (s : State) (t : VAt) (w : VW) (c : VCore),
      c = s.vcore t ∧ WordRuns s 0x03 t w) ∧
    (∃ (s : State) (t : VAt) (w : VW) (c : VCore),
      c = s.vcore t ∧ WordRuns s 0x01 t w) ∧
    (∃ (s : State) (t : VAt) (w : VW) (c : VCore),
      c = s.vcore t ∧ WordRuns s 0x04 t w) ∧
    (∃ (s : State) (t : VAt) (w : VW) (c : VCore),
      c = s.vcore t ∧ WordRuns s 0x08 t w) ∧
    (∃ (s : State) (t : VAt) (w : VW) (c : VCore),
      c = s.vcore t ∧ WordRuns s 0x09 t w) ∧
    (∃ (s : State) (t : VAt) (w : VW) (c : VCore),
      c = s.vcore t ∧ WordRuns s 0x0A t w) ∧
    (∃ (s : State) (t : VAt) (w : VW) (c : VCore),
      c = s.vcore t ∧ WordRuns s 0x0B t w) ∧
    (∃ (s : State) (t : VAt) (w : VW) (c : VCore),
      c = s.vcore t ∧ WordRuns s 0x0C t w) ∧
    (∃ (s : State) (t : VAt) (w : VW) (i : Instr),
      w.lend = 0 ∧
      ((i = .nop t w ∧ WordRuns s 0x00 t w) ∨ (i = .vmovi t w ∧ WordRuns s 0x14 t w) ∨ (i = .vaddH t w ∧ WordRuns s 0x20 t w) ∨ (i = .faddS t w ∧ WordRuns s 0x40 t w))) :=
  ⟨⟨vs 0x00 (wd 0x00) 9 0 yv, vt, wd 0x00, (vs 0x00 (wd 0x00) 9 0 yv).vcore vt, rfl, wruns (by decide +kernel)⟩,
    ⟨vs 0x03 (wd 0x03) 9 0 yv, vt, wd 0x03, (vs 0x03 (wd 0x03) 9 0 yv).vcore vt, rfl, wruns (by decide +kernel)⟩,
    ⟨vs 0x01 (wd 0x01) 9 0 yv, vt, wd 0x01, (vs 0x01 (wd 0x01) 9 0 yv).vcore vt, rfl, wruns (by decide +kernel)⟩,
    ⟨vs 0x04 (wd 0x04) 9 0 yv, vt, wd 0x04, (vs 0x04 (wd 0x04) 9 0 yv).vcore vt, rfl, wruns (by decide +kernel)⟩,
    ⟨vs 0x08 (wd 0x08) 9 0 yv, vt, wd 0x08, (vs 0x08 (wd 0x08) 9 0 yv).vcore vt, rfl, wruns (by decide +kernel)⟩,
    ⟨vs 0x09 (wd 0x09) 9 0 yv, vt, wd 0x09, (vs 0x09 (wd 0x09) 9 0 yv).vcore vt, rfl, wruns (by decide +kernel)⟩,
    ⟨vs 0x0A (wd 0x0A) 9 0 yv, vt, wd 0x0A, (vs 0x0A (wd 0x0A) 9 0 yv).vcore vt, rfl, wruns (by decide +kernel)⟩,
    ⟨vs 0x0B (wd 0x0B) 9 0 yv, vt, wd 0x0B, (vs 0x0B (wd 0x0B) 9 0 yv).vcore vt, rfl, wruns (by decide +kernel)⟩,
    ⟨vs 0x0C (wd 0x0C) 9 0 yv, vt, wd 0x0C, (vs 0x0C (wd 0x0C) 9 0 yv).vcore vt, rfl, wruns (by decide +kernel)⟩,
    ⟨vs 0x20 (wd 0x20) 9 0 yv, vt, wd 0x20, .vaddH vt (wd 0x20), by decide +kernel,
      .inr (.inr (.inl ⟨rfl, wruns (by decide +kernel)⟩))⟩⟩

/-- What `Obligations.TileOutwardWords` supposes holds somewhere, clause by clause. -/
theorem wit_TileOutwardWords :
    (∃ (s : State) (t : VAt) (w : VW) (c : Nat) (y : Ctx),
      (s.die t.die).resident .vector t.tile = some (c, y) ∧ WordRuns s 0x02 t w ∧ y.ring.length < 256) ∧
    (∃ (s : State) (t : VAt) (w : VW) (c : Nat) (y : Ctx),
      (s.die t.die).resident .vector t.tile = some (c, y) ∧ WordRuns s 0x05 t w) ∧
    (∃ (s : State) (t : VAt) (w : VW) (c : Nat) (y : Ctx),
      (s.die t.die).resident .vector t.tile = some (c, y) ∧ WordRuns s 0x06 t w ∧ ((s.die t.die).knot w.imm16.toNat).tied = true ∧
      ((s.vcore t).reg w.vd.toNat).extractLsb' 0 64 ≤ ((s.die t.die).knot w.imm16.toNat).value) ∧
    (∃ (s : State) (t : VAt) (w : VW) (c : Nat) (y : Ctx),
      (s.die t.die).resident .vector t.tile = some (c, y) ∧ WordRuns s 0x06 t w ∧ ((s.die t.die).knot w.imm16.toNat).tied = true ∧
      ((s.die t.die).knot w.imm16.toNat).value < ((s.vcore t).reg w.vd.toNat).extractLsb' 0 64 ∧
      ((s.die t.die).knot w.imm16.toNat).waits.length < 1024) ∧
    (∃ (s : State) (t : VAt) (w : VW) (c : Nat) (y : Ctx), ∃ n q,
      (s.die t.die).resident .vector t.tile = some (c, y) ∧ WordRuns s 0x07 t w ∧ y.streams[w.x5.toNat]? = some n ∧
      tfind (s.die t.die).streams n = some q ∧ q.cur = none ∧ (s.die t.die).streamOk y (unitOf (s.vIn 0x07 t w).b0) = true) ∧
    (∃ (s : State) (t : VAt) (w : VW) (c : Nat) (y : Ctx) (st : Status) (i : Instr) (op : Nat),
      (s.die t.die).resident .vector t.tile = some (c, y) ∧ y.ring.length < 256 ∧
      ((i = .vld t w ∧ op = 0x10) ∨ (i = .vst t w ∧ op = 0x11) ∨ (i = .vaddH t w ∧ op = 0x20) ∨ (i = .faddS t w ∧ op = 0x40)) ∧
      s.vUnits t = true ∧ s.vReady op t w = true ∧ t.err = 0 ∧ (s.vcore t).stop y.tenant y.declared op w = some st) :=
  ⟨⟨vs 2 (wd 2) 3 0 (yv), vt, wd 2, 5, yv, by decide +kernel, wruns (by decide +kernel), by decide +kernel⟩,
    ⟨vs 5 (wd 5) 3 0 (yv), vt, wd 5, 5, yv, by decide +kernel, wruns (by decide +kernel)⟩,
    ⟨vs 6 (wd 6) 3 0 (yv), vt, wd 6, 5, yv, by decide +kernel, wruns (by decide +kernel), by decide +kernel⟩,
    ⟨vs 6 (wd 6) 9 0 (yv), vt, wd 6, 5, yv, by decide +kernel, wruns (by decide +kernel), by decide +kernel⟩,
    ⟨vs 7 (wd 7) 9 0 ({ yv with grants := [(0, gr1)] }), vt, wd 7, 5, { yv with grants := [(0, gr1)] }, 3, st1, by decide +kernel,
      wruns (by decide +kernel), by decide +kernel⟩,
    ⟨vs 0x10 (wd 0x10) 9 1 (yv), vt, wd 0x10, 5, yv, Status.badParam, .vld vt (wd 0x10), 0x10, by decide +kernel⟩⟩

/-- What `Obligations.StepTakesFrontCommand` supposes holds somewhere, clause by clause. -/
theorem wit_StepTakesFrontCommand :
    (∃ (s : State),
      s.pending = []) :=
  ⟨w, by decide +kernel⟩

/-- What `Obligations.StepKeepsPsiurnSound` supposes holds somewhere, clause by clause. -/
theorem wit_StepKeepsPsiurnSound :
    (∃ (s : State) (t : State),
      s.psi.Sound s.part ∧ step s = .next t) :=
  ⟨{ w with psi := { w.psi with signing := [] } }, { w with psi := { w.psi with signing := [] } },
      ⟨by decide +kernel, by decide +kernel, fun _ h => Bool.noConfusion h, fun _ h => Bool.noConfusion h, rfl, by decide +kernel, by decide +kernel, by decide +kernel⟩,
      rfl⟩

/-- What `Obligations.WrittenKeysStay` supposes holds somewhere, clause by clause. -/
theorem wit_WrittenKeysStay :
    (∃ (c : Instr) (s : State) (t : State), ∃ n e,
      exec c s = .next t ∧ tfind s.psi.signing n = some e) ∧
    (∃ (c : Instr) (s : State) (t : State), ∃ n k,
      exec c s = .next t ∧ tfind s.psi.imageKeys n = some k) ∧
    (∃ (c : Instr) (s : State) (t : State),
      exec c s = .next t) ∧
    (∃ (c : Instr) (s : State) (t : State),
      exec c s = .next t ∧ (∀ p l, c ≠ .keyLoadIdentityRecord p l)) ∧
    (∃ (c : Instr) (s : State) (t : State),
      exec c s = .next t ∧ (∀ p n k, c ≠ .keyLoadImageKey p n k)) ∧
    (∃ (c : Instr) (s : State) (t : State),
      exec c s = .next t ∧ (∀ p v, c ≠ .fwUpdateRaiseFwMin p v)) ∧
    (∃ (c : Instr) (s : State) (t : State),
      exec c s = .next t ∧ (∀ p v, c ≠ .fwUpdateRaiseCfgMin p v)) :=
  ⟨⟨.pkgStatus,
      { w with psi := { w.psi with signing := [(3, { usage := 1, edHash := 5, pqHash := 6 })], imageKeys := [(2, 7)] } },
      nextOr (exec .pkgStatus ({ w with psi := { w.psi with signing := [(3, { usage := 1, edHash := 5, pqHash := 6 })], imageKeys := [(2, 7)] } })) ({ w with psi := { w.psi with signing := [(3, { usage := 1, edHash := 5, pqHash := 6 })], imageKeys := [(2, 7)] } }),
      3, { usage := 1, edHash := 5, pqHash := 6 }, next_eq (by decide +kernel), by decide +kernel⟩,
    ⟨.pkgStatus,
      { w with psi := { w.psi with signing := [(3, { usage := 1, edHash := 5, pqHash := 6 })], imageKeys := [(2, 7)] } },
      nextOr (exec .pkgStatus ({ w with psi := { w.psi with signing := [(3, { usage := 1, edHash := 5, pqHash := 6 })], imageKeys := [(2, 7)] } })) ({ w with psi := { w.psi with signing := [(3, { usage := 1, edHash := 5, pqHash := 6 })], imageKeys := [(2, 7)] } }),
      2, 7, next_eq (by decide +kernel), by decide +kernel⟩,
    ⟨.pkgStatus,
      { w with psi := { w.psi with signing := [(3, { usage := 1, edHash := 5, pqHash := 6 })], imageKeys := [(2, 7)] } },
      nextOr (exec .pkgStatus ({ w with psi := { w.psi with signing := [(3, { usage := 1, edHash := 5, pqHash := 6 })], imageKeys := [(2, 7)] } })) ({ w with psi := { w.psi with signing := [(3, { usage := 1, edHash := 5, pqHash := 6 })], imageKeys := [(2, 7)] } }),
      next_eq (by decide +kernel)⟩,
    ⟨.pkgStatus,
      { w with psi := { w.psi with signing := [(3, { usage := 1, edHash := 5, pqHash := 6 })], imageKeys := [(2, 7)] } },
      nextOr (exec .pkgStatus ({ w with psi := { w.psi with signing := [(3, { usage := 1, edHash := 5, pqHash := 6 })], imageKeys := [(2, 7)] } })) ({ w with psi := { w.psi with signing := [(3, { usage := 1, edHash := 5, pqHash := 6 })], imageKeys := [(2, 7)] } }),
      next_eq (by decide +kernel), fun _ _ => nofun⟩,
    ⟨.pkgStatus,
      { w with psi := { w.psi with signing := [(3, { usage := 1, edHash := 5, pqHash := 6 })], imageKeys := [(2, 7)] } },
      nextOr (exec .pkgStatus ({ w with psi := { w.psi with signing := [(3, { usage := 1, edHash := 5, pqHash := 6 })], imageKeys := [(2, 7)] } })) ({ w with psi := { w.psi with signing := [(3, { usage := 1, edHash := 5, pqHash := 6 })], imageKeys := [(2, 7)] } }),
      next_eq (by decide +kernel), fun _ _ _ => nofun⟩,
    ⟨.pkgStatus,
      { w with psi := { w.psi with signing := [(3, { usage := 1, edHash := 5, pqHash := 6 })], imageKeys := [(2, 7)] } },
      nextOr (exec .pkgStatus ({ w with psi := { w.psi with signing := [(3, { usage := 1, edHash := 5, pqHash := 6 })], imageKeys := [(2, 7)] } })) ({ w with psi := { w.psi with signing := [(3, { usage := 1, edHash := 5, pqHash := 6 })], imageKeys := [(2, 7)] } }),
      next_eq (by decide +kernel), fun _ _ => nofun⟩,
    ⟨.pkgStatus,
      { w with psi := { w.psi with signing := [(3, { usage := 1, edHash := 5, pqHash := 6 })], imageKeys := [(2, 7)] } },
      nextOr (exec .pkgStatus ({ w with psi := { w.psi with signing := [(3, { usage := 1, edHash := 5, pqHash := 6 })], imageKeys := [(2, 7)] } })) ({ w with psi := { w.psi with signing := [(3, { usage := 1, edHash := 5, pqHash := 6 })], imageKeys := [(2, 7)] } }),
      next_eq (by decide +kernel), fun _ _ => nofun⟩⟩

/-- What `Obligations.CommandsKeepPartAndQueue` supposes holds somewhere, clause by clause. -/
theorem wit_CommandsKeepPartAndQueue :
    (∃ (c : Instr) (s : State) (t : State),
      exec c s = .next t) :=
  ⟨.pkgStatus, w, nextOr (exec .pkgStatus w) w, next_eq (by decide +kernel)⟩

/-- What `Obligations.OpcodesNeedPermission` supposes holds somewhere, clause by clause. -/
theorem wit_OpcodesNeedPermission :
    (∃ (c : Instr) (code : Nat) (perm : Perm) (p : Pkt),
      opcodeOf c = some (code, perm, p)) ∧
    (∃ (c : Instr) (code : Nat) (perm : Perm) (p : Pkt) (s : State),
      opcodeOf c = some (code, perm, p) ∧ s.due code p = false) ∧
    (∃ (c : Instr) (code : Nat) (perm : Perm) (p : Pkt) (s : State),
      opcodeOf c = some (code, perm, p) ∧ s.due code p = true ∧ s.permitted perm p = false) :=
  ⟨⟨.tenantDestroy pt, 2, Perm.m, pt, by decide +kernel⟩,
    ⟨.tenantDestroy pw, 2, Perm.m, pw, w, by decide +kernel⟩,
    ⟨.tenantDestroy pt, 2, Perm.m, pt, w, by decide +kernel⟩⟩

/-- A header of an encrypted image with an empty body whose digest reads as `n`. -/
def encHead (n : Nat) : List Byte := le 4 0x46494B53 ++ le 2 1 ++ [2, 1, 7] ++ zeros 43 ++ le 48 n

theorem encHead_len (n : Nat) : imgBodyLen (encHead n) = 0 := by
  have hl : (le 4 0x46494B53 ++ le 2 1 ++ [2, 1, 7] ++ zeros 19).length = 28 := rfl
  have e : encHead n = (le 4 0x46494B53 ++ le 2 1 ++ [2, 1, 7] ++ zeros 19) ++ (zeros 8 ++ (zeros 16 ++ le 48 n)) := by
    rw [encHead, show zeros 43 = zeros 19 ++ (zeros 8 ++ zeros 16) from rfl]; simp only [List.append_assoc]
  rw [imgBodyLen, fieldAt, e, List.drop_left' hl, List.take_left' (zeros_length 8)]; rfl

theorem encHead_dig (n : Nat) : fieldAt (encHead n) 52 48 = n % 256 ^ 48 := by
  have hl : (le 4 0x46494B53 ++ le 2 1 ++ [2, 1, 7] ++ zeros 43).length = 52 := rfl
  rw [encHead, fieldAt, List.drop_left' hl, List.take_of_length_le (Nat.le_of_eq (le_length 48 n)), leNat_le]

/-- A number of 384 bits that is not the digest of an empty body, and one of 128 bits that is not the tag. -/
def other (n : Nat) : Nat := if n = 0 then 1 else 0

theorem other_ne (n : Nat) : other n ≠ n := by unfold other; split <;> omega

theorem other_lt (n k : Nat) (hk : 1 < k) : other n < k := by unfold other; split <;> omega

/-- The last bytes of the image of one frame with a CRC that is not its own. -/
def badEnd : List Byte := le 4 (other (crc32c (imgOf (frameHead 2) (body1 ++ zeros 60))).toNat)

theorem imgEnd_bad {h trailer img : List Byte} {k : Option (BitVec 256)}
    (hc : fieldAt trailer 60 4 ≠ (crc32c (img.take (img.length - 4))).toNat) : ∃ st, imgEnd h trailer img k = some st := by
  unfold imgEnd
  dsimp only
  repeat' split
  all_goals exact ⟨_, rfl⟩

/-- The end of that image, given in two parts. -/
theorem bad_end (k : Option (BitVec 256)) :
    ∃ st, imgEnd ((head1 ++ (body1 ++ (zeros 60 ++ badEnd))).take 2048)
      ((head1 ++ (body1 ++ (zeros 60 ++ badEnd))).drop (7424 + imgBodyLen ((head1 ++ (body1 ++ (zeros 60 ++ badEnd))).take 2048)))
      (head1 ++ (body1 ++ (zeros 60 ++ badEnd))) k = some st := by
  have e : head1 ++ (body1 ++ (zeros 60 ++ badEnd)) = imgOf (frameHead 2) (body1 ++ (zeros 60 ++ badEnd)) := by
    rw [imgOf, ← List.append_assoc (frameHead 2)]; rfl
  have f2 : imgBodyLen (frameHead 2 ++ zeros 1948) = 192 := by decide +kernel
  have d1 : (imgOf (frameHead 2) (body1 ++ (zeros 60 ++ badEnd))).drop (7424 + 192) = zeros 60 ++ badEnd :=
    (imgOf_drop (h := frameHead 2) rfl 192).trans (List.drop_left' (by decide +kernel))
  have l : badEnd.length = 4 := le_length 4 _
  rw [e, imgOf_take rfl, f2, d1]
  apply imgEnd_bad
  have t : (imgOf (frameHead 2) (body1 ++ zeros 60) ++ badEnd).take
      ((imgOf (frameHead 2) (body1 ++ zeros 60) ++ badEnd).length - 4) = imgOf (frameHead 2) (body1 ++ zeros 60) := by
    rw [List.length_append, l, Nat.add_sub_cancel]; simp
  rw [← List.append_assoc body1, imgOf_append, t, fieldAt, List.drop_left' (zeros_length 60), List.take_of_length_le (Nat.le_of_eq l),
    badEnd, leNat_le, Nat.mod_eq_of_lt (other_lt _ _ (by decide))]
  exact other_ne _

/-- What `Obligations.ImageChecksInOrder` supposes holds somewhere, clause by clause. -/
theorem wit_ImageChecksInOrder :
    (∃ (h trailer img stored : List Byte),
      zeroAt trailer 16 44 = true ∧ (imgEncrypted h = true ∨ zeroAt trailer 0 16 = true) ∧
      stored = (img.drop 7424).take (imgBodyLen h) ∧ fieldAt h 52 48 ≠ (Config.sha384 stored).toNat) ∧
    (∃ (h trailer img stored : List Byte) (key : Option (BitVec 256)),
      zeroAt trailer 16 44 = true ∧ (imgEncrypted h = true ∨ zeroAt trailer 0 16 = true) ∧
      stored = (img.drop 7424).take (imgBodyLen h) ∧ fieldAt h 52 48 = (Config.sha384 stored).toNat ∧ imgEncrypted h = true ∧
      ∀ k, key = some k → fieldAt trailer 0 16 ≠ (Config.gcmTag k (imgNonce h) (h.take 2048) stored).toNat) ∧
    (∃ (h trailer img stored : List Byte) (key : Option (BitVec 256)),
      zeroAt trailer 16 44 = true ∧ (imgEncrypted h = true ∨ zeroAt trailer 0 16 = true) ∧
      stored = (img.drop 7424).take (imgBodyLen h) ∧ fieldAt h 52 48 = (Config.sha384 stored).toNat ∧
      (imgEncrypted h = false ∨ ∃ k, key = some k ∧
        fieldAt trailer 0 16 = (Config.gcmTag k (imgNonce h) (h.take 2048) stored).toNat)) ∧
    (∃ (s : State) (p : Pkt) (a : RAt) (tenant off len : Nat) (data : List Byte) (chk : ImgChk) (q : Session),
      s.due 0x0401 p = true ∧ s.permitted .m p = true ∧ firstOf (s.loadNames a (some tenant)) = none ∧
      s.loadWaits a.die a.region = false ∧ ((s.die a.die).fabric a.region).session = some q ∧
      firstOf (partChecks ((s.die a.die).fabric a.region) p true off len data) = none ∧
      (s.bodyHere a q (q.bytes ++ data) chk).ended = none ∧
      ∃ st, imgEnd ((q.bytes ++ data).take 2048) ((q.bytes ++ data).drop (7424 + imgBodyLen ((q.bytes ++ data).take 2048)))
        (q.bytes ++ data) (s.imgKey ((q.bytes ++ data).take 2048)) = some st) := by
  refine ⟨⟨encHead (other (Config.sha384 []).toNat), zeros 64, [], [], rfl, .inr rfl, ?_, ?_⟩,
    ⟨encHead (Config.sha384 []).toNat,
      le 16 (other (Config.gcmTag 5 (imgNonce (encHead (Config.sha384 []).toNat)) ((encHead (Config.sha384 []).toNat).take 2048) []).toNat) ++
        zeros 48, [], [], some 5, rfl, .inl rfl, ?_, ?_, rfl, fun k hk => ?_⟩,
    ⟨encHead (Config.sha384 []).toNat,
      le 16 (Config.gcmTag 5 (imgNonce (encHead (Config.sha384 []).toNat)) ((encHead (Config.sha384 []).toNat).take 2048) []).toNat ++
        zeros 48, [], [], some 5, rfl, .inl rfl, ?_, ?_, .inr ⟨5, rfl, ?_⟩⟩,
    ⟨fab1 (fun f => { f with session := some ses1, st := .loading }), pm, at1, 0xFF, 7424, 7680, body1 ++ (zeros 60 ++ badEnd), chk1,
      ses1, by decide +kernel, by decide +kernel, by decide +kernel, by decide +kernel, rfl, by decide +kernel, by decide +kernel,
      bad_end _⟩⟩
  · rw [encHead_len]; rfl
  · rw [encHead_dig, Nat.mod_eq_of_lt (other_lt _ _ (by decide))]; exact other_ne _
  · rw [encHead_len]; rfl
  · rw [encHead_dig]; exact Nat.mod_eq_of_lt (Config.sha384 []).isLt
  · obtain rfl := Option.some.inj hk
    rw [fieldAt, List.drop_zero, List.take_left' (le_length 16 _), leNat_le, Nat.mod_eq_of_lt (other_lt _ _ (by decide))]
    exact other_ne _
  · rw [encHead_len]; rfl
  · rw [encHead_dig]; exact Nat.mod_eq_of_lt (Config.sha384 []).isLt
  · rw [fieldAt, List.drop_zero, List.take_left' (le_length 16 _), leNat_le]; exact Nat.mod_eq_of_lt (BitVec.isLt _)

/-- What `Obligations.UncorrectableWords` supposes holds somewhere, clause by clause. -/
theorem wit_UncorrectableWords :
    ∃ (s : State) (d a : Nat) (e : DarnErr),
      s.live d = true ∧ (s.die d).scanning = true ∧ (s.die d).errsOk d [e] = true ∧ e.dbl = true ∧
      ((s.die d).region e.region).isolated = false ∧ a = scanAddr d e.region (tget (s.die d).darner.at_ e.region 0) :=
  ⟨fab1 (fun f => { f with st := .configured }) |>.modDie 0 fun x => x.setPreg 0x3000 { applied := 1, pend := none }, 0,
      scanAddr 0 1 (tget ((fab1 (fun f => { f with st := .configured }) |>.modDie 0 fun x => x.setPreg 0x3000 { applied := 1, pend := none }).die 0).darner.at_ 1 0),
      ⟨1, 3, true, false⟩, by decide +kernel⟩

/-! ## Well-formedness: each check refuses an ill-formed operand -/

/-- A packet's queue, tenant and context; an operand too wide for its field. -/
theorem test_wf_packet :
    (Instr.tenantDestroy pm).wf = true ∧ (Instr.tenantDestroy { pm with queue := 8193 }).wf = false ∧
    (Instr.tenantDestroy { pm with tenant := 256 }).wf = false ∧ (Instr.tenantDestroy { pm with context := 65536 }).wf = false ∧
    (Instr.tenantCreate pm (2 ^ 32) 0 0).wf = false ∧ (Instr.seqOpen pm 0 256 0).wf = false ∧
    (Instr.hostBarWrite 0 1 0 [] false 0).wf = false := by decide

/-- A die, a region, a tile, an array, a core, an engine that no part has. -/
theorem test_wf_units :
    (Instr.bankVoltageReady { die := 8, region := 0 }).wf = false ∧ (Instr.bankVoltageReady { die := 0, region := 8 }).wf = false ∧
    (Instr.quantumExpiry { die := 0, kind := .vector, tile := 32 }).wf = false ∧
    (Instr.quantumExpiry { die := 0, kind := .matrix, tile := 64 }).wf = false ∧
    (Instr.descriptorStart { aa with arr := 2 }).wf = false ∧ (Instr.descriptorStart { aa with err := 3 }).wf = false ∧
    (Instr.nop { vt with tile := 32 } (wd 0)).wf = false ∧ (Instr.pressGo (.firmware 4) 0 0).wf = false ∧
    (Instr.pressGo (.host 64) 0 0).wf = false ∧ (Instr.append 0 80).wf = false ∧
    (Instr.fmAccess at1 320 0 0 none false 0).wf = false := by decide

/-- The records that commands carry. -/
theorem test_wf_records :
    (Instr.execDispatch pm 0 0 0 [{ seq := 16384, nTok := 1, inOff := 0, inLen := 0 }] []).wf = false ∧
    (Instr.keyLoadIdentityRecord pm [{ usage := 256, edHash := 0, pqHash := 0 }]).wf = false ∧
    (Instr.telProbeStart pm { die := 0, router := 65536, probe := 0 }).wf = false ∧
    (Instr.vinExcursion (.holdUp 41000)).wf = false ∧ (Instr.mboxWrite 8192 []).wf = false ∧
    blockInWf { ins1 with addr := [] } = false ∧ reportWf { severity := 5, linkFails := 0 } = false ∧
    mreqWf { mq1 with cls := 4 } = false ∧ bundleWf { bun with areas := List.replicate 65536 0 } = false := by
  refine ⟨by decide, by decide, by decide, by decide, by decide, by decide, by decide, by decide, ?_⟩
  show (fits 16 bun.templates.length && fits 16 bun.lists.length && fits 16 (List.replicate 65536 0).length) = false
  rw [List.length_replicate]; decide

/-! ## Worked examples of the spec -/

/-- R220: the check value of "123456789". -/
theorem test_crc : crc32c [0x31, 0x32, 0x33, 0x34, 0x35, 0x36, 0x37, 0x38, 0x39] = 0xE3069283 := by decide +kernel

/-- "A merge worked through" (Table 3-6): A, then B, then the empty C. -/
theorem test_merge :
    let a : WRow := { m := 0x40400000, l := 0x3FC00000, o := [0x3F400000, 0xBE800000], nan := false }
    let b := (mergeRow a (0x40A00000, 0x3FA00000, [0x3F800000, 0x3F000000])).1
    b = { m := 0x40A00000, l := 0x3FD00000, o := [0x3F980000, 0x3EE00000], nan := false } ∧
    (mergeRow b (0xFF800000, 0, [0, 0])).1 = b ∧ (b32Rcp 0x3FD00000).1 = 0x3F1D89D9 := by decide +kernel

/-- "One dominant element": an MXFP8 (E4M3) block of 768, 0.003 and 0.001. -/
theorem test_block_dominant :
    let l : List Machine.Num := fB32.dec 0x44400000 :: fB32.dec 0x3B449BA6 :: List.replicate 30 (fB32.dec 0x3A83126F)
    (mxEncode 3 l).1 = 0x80 ∧ (mxEncode 3 l).2.1 = 0x7C :: 0x01 :: List.replicate 30 0 ∧ (mxEncode 3 l).2.2.loss = 30 := by
  decide +kernel

/-- "An all-zero block": zeros of both signs as MXFP4. -/
theorem test_block_zero :
    mxEncode 0 (List.replicate 20 (.fin false 0 0) ++ List.replicate 12 (.fin true 0 0)) = (0, List.replicate 32 0, Ev.none) := by
  decide +kernel

/-- Table 4-13: the three accumulators of Table 4-12 in binary32 and bfloat16. -/
theorem test_outputs :
    (fB32.conv false (.fin false 1 223)).1 = 0x7F7FFFFF ∧ (fB32.conv true (.fin false 1 223)).1 = 0x7F800000 ∧
    (fB32.conv false (.fin false 1 (-130))).1 = 0 ∧ (fB32.conv false (.fin false 1 (-130))).2.flush = 1 ∧
    (fBf16.conv false (.fin false 1 223)).1 = 0x7F7F ∧ (fBf16.conv true (.fin false 1 223)).1 = 0x7F80 ∧
    (fBf16.conv false (.fin false 1 (-130))).1 = 8 ∧ (fBf16.conv false (.fin false 1 (-225))).1 = 0 := by decide +kernel

/-- R179's example: P5 at 900 and P6 at 500, both of length 1,024, pressed to 768. -/
theorem test_press :
    let p (n : Nat) : Ptr := { base := 0, len := 1024, pend := some 768, stride := 0, p := n }
    let c := ({ VTile.reset.core with ptr := [(5, p 900), (6, p 500)] } : VCore).press
    (c.pt 5).p = 132 ∧ (c.pt 6).p = 500 ∧ (c.pt 5).len = 768 ∧ c.pwrap = 0x20#16 := by decide +kernel

/-! ## Single commands -/

/-- KNOT_ADD of the largest value carries past 2^64 - 1 (R203). -/
theorem test_knot_add_wraps :
    okWith (exec (.knotOpArrival 0 0 false) (on0 fun x => { x with
      knotNet := [.add 4048 (2 ^ 64 - 1)], knots := [(4048, kn1)] })) (fun t => ((t.die 0).knot 4048).value == 4) = true := by
  decide +kernel

/-- TENANT_SET with a quantum that is no multiple of 4,096 is refused, and the tenant keeps its values (Table 9-13). -/
theorem test_tenant_set_refused :
    okWith (exec (.tenantSet pm 4097 0 0) w) (fun t => t.tenants == w.tenants && (t.queue 0).held.length == 1) = true := by
  decide +kernel

/-- VADD.H saturates (R173): 0x7FFF + 0x7FFF with `ovf`. -/
theorem test_vadd_saturates :
    let v : VW := { wd 0x20 with va := 4, vb := 4, ovf := true }
    okWith (exec (.vaddH vt v) (vs 0x20 v 0x7FFF 0 yv)) (fun t => hLane ((t.vcore vt).reg 4) 0 == 0x7FFF#16) = true := by
  decide +kernel

/-- VMOVI fills every element (R170). -/
theorem test_vmovi :
    okWith (exec (.vmovi vt (wd 0x14)) (vs 0x14 (wd 0x14) 0 0 yv)) (fun t =>
      hLane ((t.vcore vt).reg 4) 0 == 7#16 && hLane ((t.vcore vt).reg 4) 127 == 7#16) = true := by decide +kernel

/-- FMUL.S of two copies of 2^−70 flushes to zero and says so (R99, R105). -/
theorem test_fmul_flushes :
    let v : VW := { wd 0x42 with va := 4, vb := 4 }
    okWith (exec (.fmulS vt v) (vs 0x42 v 0x1C800000 0 yv)) (fun t =>
      wLane ((t.vcore vt).reg 4) 0 == 0#32 && (t.vcore vt).fp != 0) = true := by decide +kernel

/-- A step on an empty queue idles. -/
theorem test_idle : step State.reset = .next State.reset := rfl

end Sys2Proof.Tests
end

namespace Sys2Proof.Machine

/-! ## What every command keeps of the package (R11, R417, R420) -/

/-- The commands that write what `State.kept` gathers: keys, minimums, flash or limits (R390, R420, R421, R459). -/
def storeWriter : Instr → Bool
  | .keyLoadImageKey .. => true
  | .keyLoadIdentityRecord .. => true
  | .fwUpdateWrite .. => true
  | .fwUpdateActivate .. => true
  | .fwUpdateRaiseFwMin .. => true
  | .fwUpdateRaiseCfgMin .. => true
  | .energyLimit .. => true
  | .packageReset => true
  | .packageResetRelease _ => true
  | .vinExcursion _ => true
  | _ => false

/-- Whatever next state is answered, `f` reads of it what it read before. -/
def Answers {α : Type} (f : State → α) (s : State) (o : Out) : Prop := ∀ t, o = .next t → f t = f s

section
variable {α : Type} {f : State → α} {s t : State}

theorem answers_event {u e : Bool} (h : f t = f s) : Answers f s (event s u e t) := by
  intro r hr
  obtain ⟨-, -, rfl⟩ | rfl := event_eq_next hr
  · exact h
  · rfl

theorem answers_gate (hf : ∀ {a b : State}, b.kept = a.kept → f b = f a) {code : Nat} {perm : Perm} {p : Pkt}
    (h : f t = f s) : Answers f s (gate code perm p t s) := by
  intro r hr
  obtain rfl | rfl | rfl := gate_eq_next hr
  · exact h
  · exact hf (State.refuse_kept ..)
  · rfl

theorem answers_opcode (hf : ∀ {a b : State}, b.kept = a.kept → f b = f a) {code : Nat} {perm : Perm} {p : Pkt}
    {chk : Option (Status × Nat)} (h : f t = f s) : Answers f s (opcode code perm p chk t s) := by
  refine answers_gate hf ?_
  unfold State.decide1
  split
  · exact h
  · exact hf (State.refuse_kept ..)

end

theorem kept_gate {s t : State} {code : Nat} {perm : Perm} {p : Pkt} (h : t.kept = s.kept) :
    Answers State.kept s (gate code perm p t s) := answers_gate id h

theorem kept_opcode {s t : State} {code : Nat} {perm : Perm} {p : Pkt} {chk : Option (Status × Nat)} (h : t.kept = s.kept) :
    Answers State.kept s (opcode code perm p chk t s) := answers_opcode id h

/-- A vector word keeps what its effect keeps. -/
theorem kept_vans {s t : State} {op : Nat} {v : VAt} {w : VW} (h : t.kept = s.kept) :
    Answers State.kept s (vans op v w t s) := answers_event h


/-- Every command but those of `storeWriter` keeps the part, the waiting commands, and the keys, minimums, flash and limits. -/
theorem exec_kept {c : Instr} (hc : storeWriter c = false) (s : State) : Answers State.kept s (exec c s) := by
  cases c
  case energyLimit | keyLoadImageKey | keyLoadIdentityRecord | fwUpdateWrite | fwUpdateActivate | fwUpdateRaiseFwMin
      | fwUpdateRaiseCfgMin | packageReset | packageResetRelease | vinExcursion => cases hc
  -- opcodes whose effect is one operation
  case tenantCreate | tenantDestroy | tenantSet | ctxCreate | modelCreate | modelWrite | seqOpen | knotTie | knotWait
      | energyAllow | energyRead | telCounters | telReam | telCtx | telProbeReadTrace | queueCreate | queueDestroy
      | debugUnlockPresent =>
    exact kept_opcode (by
      simp only [doTenantCreate_kept, doTenantDestroy_kept, doTenantSet_kept, doCtxCreate_kept, doModelCreate_kept,
        doModelWrite_kept, doSeqOpen_kept, doKnotTie_kept, doKnotWait_kept, doEnergyAllow_kept, doEnergyRead_kept,
        doTelCounters_kept, doTelReam_kept, doTelCtx_kept, doReadTrace_kept, doQueueCreate_kept, doQueueDestroy_kept,
        State.present_kept])
  -- opcodes whose effect ends with the reply
  case ctxDestroy | modelDestroy | knotAdd | knotUntie | knotRead | telProbeSetFilter | telProbeStart | telProbeStop
      | telProbeReadCounts | telProbeClearTrace | eventConfig | deviceInfo | debugUnlockNonce | debugUnlockLock =>
    exact kept_opcode (by
      simp only [State.ok_kept, State.finish_kept, State.destroyCtx_kept, State.removeModel_kept, State.knotAddNow_kept,
        State.untie_kept, State.modDie_kept, State.modFunc_kept, State.modDebug_kept, State.kept_update])
  case keyLoadSealingKey p tenant dies w =>
    refine kept_opcode ?_
    split
    · exact State.loadSealing_kept ..
    · rfl
  case keyRemove => exact kept_opcode ((State.settleKeys_kept _).trans rfl)
  -- opcodes that make their checks when their turn comes
  case ctxRead | seqClose | seqSuspend | seqResume | seqTruncate | sheetHintPromote | sheetHintDemote | sheetHintPin
      | sheetHintUnpin | seqQuery | stateIdle | stateWake | modelCommit | execDispatch =>
    exact kept_gate (by
      simp only [State.runCtxRead_kept, State.runSeqClose_kept, State.runSeqSuspend_kept, State.runSeqResume_kept,
        State.runSeqTruncate_kept, State.runHintPromote_kept, State.runHintDemote_kept, State.runHintPin_kept,
        State.runHintUnpin_kept, State.runSeqQuery_kept, State.runStateIdle_kept, State.runStateWake_kept,
        State.runCommit_kept, State.runExec_kept])
  case fabricLoadPart | fabricLoadFlash | fabricLoadBind | fabricLoadAbandon | fabricCaptureFlipFlops | fabricCaptureHalt
      | fabricCaptureResume | fabricRead | fabricClockSetDivisor | fabricClockHalt | fabricClockRun | fabricClockReadFctr
      | testRunSelfTest | testRunCalibration | testRunLinkRetrain =>
    exact kept_gate (by
      simp only [State.runLoadPart_kept, State.runLoadFlash_kept, State.runLoadBind_kept, State.runLoadAbandon_kept,
        State.runAct_kept, State.runFabricRead_kept, State.runTest_kept])
  -- events after which waiting commands are looked at again
  case idleDrainDone | dispatchComplete | saveChecked | rinseDone | knotWake | cfgDoneHigh | captureCopyDone
      | fctrEdgeReached | testDone | epochFlip | pllLockLoss | dieControllerTimeout =>
    exact answers_event (by
      simp only [State.resume_kept, State.doIdleDone_kept, doDispatchComplete_kept, State.saved_kept, doRinseDone_kept,
        doKnotWake_kept, doCfgDoneHigh_kept, State.doCopyDone_kept, State.doEdge_kept, doTestDone_kept, doEpochFlip_kept,
        doDieLoss_kept])
  case regionRelease => exact answers_event ((State.resume_kept _).trans (State.reachFor_kept _ _ _ _ (State.doRelease_kept ..)))
  case ioHandover => exact answers_event ((State.resume_kept _).trans (State.reachFor_kept _ _ _ _ (State.doHandover_kept ..)))
  -- events that change one die
  case segmentInitDone | bankVoltageReady | fmWriteback | trainingFrame | linkIdle | heartbeatSend | fold | foldRetry | foldAck
      | loopsRelocked | staticCalibration | agingPeriod | reamPatrol | regionSleepDecision | gatePoint | regionPowerOff
      | regionWake | contextSwitch | quiesceDone | refresh | rfmIssue | hbmScrubPoll =>
    exact answers_event (by simp only [State.modDie_kept, State.modMC_kept])
  -- knots, queues and the host port
  case knotOpArrival | queueDrained | doorbell | qrheadWrite | queueEnable | queueReset | packetTake | packetStart | replyPost
      | irqCoalesceTimer | eventPost | hostPerst | hotReset | d3hotEntry | d3hotExit | hostBarWrite =>
    exact answers_event (by
      simp only [doKnotOpArrival_kept, State.dropQueue_kept, State.hostReg_kept, doPacketTake_kept, State.modQueue_kept,
        State.postReply_kept, doIrqCoalesceTimer_kept, doEventPost_kept, doHostPerst_kept, State.flrAll_kept,
        State.modFunc_kept, doHostBarWrite_kept, State.modDie_kept])
  case functionLevelReset =>
    refine answers_event ?_
    split
    · exact State.flrAll_kept _
    · exact State.flrOne_kept ..
  -- Psiurn, the sideband and the registers
  case spdmRequest => exact answers_event (State.modPsi_kept _ _ fun _ => rfl)
  case pkgStatus | mboxWrite | mboxGo | mboxRead | regRead | regWrite | pwWrite | pressGo | pressCancel | commit | readClear
      | snapshotRead | registerWrite | cfgCrcPass =>
    exact answers_event (by
      simp only [State.sideReply_kept, State.modSide_kept, doMboxGo_kept, State.putRead_kept, State.readOff_kept,
        State.writeOff_kept, doCfgCrcPass_kept])
  -- wringers, the ream table and the mover
  case wringAccept | requestOpen | partial_ | wringerFence | lostEntryRewrite | migrationCopyDone | migrationRelease
      | seqIdleTimeout | retentionCheck =>
    exact answers_event (by
      simp only [doWringAccept_kept, doRequestOpen_kept, doPartialSend_kept, doWringerFence_kept, doLostEntryRewrite_kept,
        doCopyEnd_kept, doRelease_, State.modDie_kept, State.modSeq_kept, doRetention_kept])
  case sheetStream die w uncorrectable corrected =>
    refine answers_event ?_
    split
    · exact doSheetStream_kept ..
    · dsimp only
      split <;> simp only [State.modDie_kept, State.corrected_kept, doSheetStream_kept]
  case append | appendResume =>
    simp only [exec, execAppend, execAppendResume]
    split
    · exact answers_event (State.doAppend_kept ..)
    · exact answers_event rfl
  case migrationStart =>
    simp only [exec, execMigrationStart]
    split
    · exact answers_event (State.startCopy_kept ..)
    · exact answers_event rfl
  -- matrix arrays
  case matmul | attend => exact answers_event (State.aword_kept _ _ _ fun _ => State.doIssue_kept ..)
  case descriptorStart => exact answers_event (State.aword_kept _ _ _ fun _ => State.doStart_kept ..)
  case blockLoad => exact answers_event (State.aword_kept _ _ _ fun _ => State.doLoad_kept ..)
  case passSwap => exact answers_event (State.aword_kept _ _ _ fun _ => State.doSwap_kept ..)
  case wringSend => exact answers_event (State.aword_kept _ _ _ fun _ => State.doWringSend_kept ..)
  case partialMerge => exact answers_event (State.aword_kept _ _ _ fun _ => State.doPartial_kept ..)
  case staggerRow => exact answers_event (State.aword_kept _ _ _ fun _ => State.doRow_kept ..)
  case appendDone => exact answers_event (State.aword_kept _ _ _ fun _ => State.doAppendDone_kept ..)
  case resendTimeout | resendAfterFlip => exact answers_event (State.aword_kept _ _ _ fun _ => State.doResend_kept ..)
  case descriptorComplete =>
    refine answers_event (State.aword_kept _ _ _ fun u => ?_)
    split
    · exact State.doRunEnd_kept ..
    · exact State.doAttEnd_kept ..
  -- weight threads, streams and contexts on tiles
  case threadBlockArrive | threadFetch | streamBurst | streamComplete | tileGrant | quantumExpiry | restoreDone
      | completionRingDrain =>
    exact answers_event (by
      simp only [State.doBlockArrive_kept, State.doThreadFetch_kept, State.doBurst_kept, State.doStreamComplete_kept,
        doTileGrant_kept, doQuantumExpiry_kept, doRestoreDone_kept, doRingDrain_kept])
  case streamIssue =>
    refine answers_event ?_
    split
    · exact State.issueStream_kept ..
    · exact State.writeRec_kept ..
  -- the fabric at work
  case tpWord r port word last =>
    refine answers_event ?_
    cases h : s.tpPass r port word last with
    | none => rfl
    | some t => exact State.tpPass_kept h
  case callRingClaim =>
    refine answers_event ?_
    split
    · exact State.modDie_kept ..
    · rfl
  case callLanded =>
    refine answers_event ?_
    split
    · exact (State.sendAdd_kept ..).trans (State.modDie_kept ..)
    · rfl
  case rtpTransfer r ch =>
    have ask : (match s.rtAsk r.die r.region (12 + ch) with
        | none => s
        | some k => s.grantAsk r.die (chanMC k.req.chan)).kept = s.kept := by
      split
      · rfl
      · exact State.grantAsk_kept ..
    refine answers_event ?_
    split
    · exact (State.setDie_kept ..).trans ask
    · exact ask
  case fmAccess | fabricClockEdge | darnerScan | darnerRetry | selfcheckNow | regionReturn =>
    exact answers_event (by
      simp only [State.fmStep_kept, State.fabricEdge_kept, doDarnerScan_kept, State.selfCheck_kept, doRegionReturn_kept])
  -- networks, region power and memory controllers
  case routerForward | packetDeliver | txnTimeout | epochSwitch | epochDrainDone | wakeRailsReady | ucieRetrain
      | retrainPause =>
    exact answers_event (by
      simp only [doRouterForward_kept, doPacketDeliver_kept, State.endTxn_kept, State.modDie_kept, doEpochSwitch_kept,
        doEpochDrainDone_kept, doWakeRailsReady_kept, doUcieReplays_kept, doRetrainPause_kept])
  case memoryAccess =>
    refine answers_event ?_
    split
    · exact doMemoryAccess_kept ..
    · exact State.modDie_kept ..
  case patrolScrub =>
    simp only [exec, execPatrolScrub]
    split
    · exact answers_event (doPatrolScrub_kept ..)
    · exact answers_event rfl
  -- Felt links
  case linkRetry | heartbeatLoss | alignmentLoss | uncorrectableCodewordRatio | retrain | wakingTimeout | wake | feltSend
      | ackTimer | e2eRetransmit =>
    exact answers_event (by
      simp only [State.linkDetect_kept, State.linkRetrain_kept, State.modDie_kept, doWake_kept, doFeltSend_kept,
        State.sendAll_kept, State.makeAck_kept, State.resend_kept])
  case signalDetect | trainingTimeout | alignMeasureDone =>
    refine answers_event ?_
    split <;> simp only [State.linkDetect_kept, State.modDie_kept, State.linkDown_kept, State.trainFail_kept,
      State.linkUpNow_kept]
  case feltFrameRx =>
    refine answers_event ?_
    split <;> simp only [State.takeFrame_kept, State.correctedIn_kept, State.modDie_kept]
  -- the ledger and the package
  case ledgerPeriod | backstopWindow | thermalShutdown | startUpImageLoad =>
    exact answers_event (by
      simp only [doLedgerPeriod_kept, doBackstopWindow_kept, State.fatal_kept, doStartUpImageLoad_kept])
  case fwRehash isSame =>
    cases isSame
    · exact answers_event (State.fatal_kept ..)
    · exact answers_event rfl
  case sensorMinimumReached =>
    refine answers_event ?_
    split
    · rfl
    · exact (State.boot_kept ..).trans ((State.modPsi_kept _ _ fun _ => rfl).trans (State.freeNat_kept s))
  -- the words every pattern has
  case halt =>
    refine answers_event ?_
    split
    · exact State.doHalt_kept ..
    · exact State.vword_kept _ _ _ _ _ fun _ => (State.doHalt_kept ..).trans (State.vcommit_kept ..)
  case kadd =>
    refine answers_event ?_
    split
    · exact State.sendAdd_kept ..
    · exact State.vword_kept _ _ _ _ _ fun _ => (State.sendAdd_kept ..).trans (State.vcommit_kept ..)
  case kwait =>
    refine answers_event ?_
    split_ifs
    · exact State.vhalt_kept ..
    · exact State.kwaitNow_kept ..
    · exact State.vword_kept _ _ _ _ _ fun _ => (State.kwaitNow_kept ..).trans (State.vcommit_kept ..)
  case sissue =>
    exact kept_vans (State.vword_kept _ _ _ _ _ fun _ => (State.issueStream_kept ..).trans (State.vcommit_kept ..))
  case rep | press | vstat => exact kept_vans (State.vword_kept _ _ _ _ _ fun _ => State.vcommit_kept ..)
  case pbase | plen | pstride | psetp => exact kept_vans (State.vsetup_kept ..)
  -- the words of a vector pattern that only write their results
  all_goals exact kept_vans (State.vplain_kept ..)

/-- Every command, those that write Psiurn's store too, answers a state with the same part and the same waiting commands. -/
theorem exec_part_pending (c : Instr) (s : State) : Answers (fun s => (s.part, s.pending)) s (exec c s) := by
  have of_kept {a b : State} (h : b.kept = a.kept) : (b.part, b.pending) = (a.part, a.pending) := by
    obtain ⟨hq, hp, -⟩ := (State.kept_eq_iff a b).mp h
    rw [hp, hq]
  cases hc : storeWriter c with
  | false => exact fun t ht => of_kept (exec_kept hc s t ht)
  | true =>
    cases c
    case energyLimit => exact answers_opcode of_kept rfl
    case keyLoadImageKey =>
      refine answers_opcode of_kept ?_
      split
      · exact (of_kept (State.ok_kept ..)).trans rfl
      · rfl
    case keyLoadIdentityRecord | fwUpdateWrite | fwUpdateRaiseFwMin | fwUpdateRaiseCfgMin =>
      exact answers_opcode of_kept ((of_kept (State.ok_kept ..)).trans rfl)
    case fwUpdateActivate =>
      refine answers_opcode of_kept ?_
      split
      · exact (of_kept (State.finish_kept ..)).trans rfl
      · rfl
    case packageReset => exact answers_event rfl
    case packageResetRelease => exact answers_event ((of_kept (State.leaveReset_kept ..)).trans rfl)
    case vinExcursion k =>
      refine answers_event ?_
      by_cases hk : k = .below36
      · exact (of_kept ((doVinExcursion_kept k s).trans (if_pos hk))).trans rfl
      · exact of_kept ((doVinExcursion_kept k s).trans (if_neg hk))
    all_goals cases hc

/-- Settles O57: a command writes neither the part nor the queue of waiting commands. -/
theorem commandsKeepPartAndQueue : Obligations.CommandsKeepPartAndQueue := by
  intro c s t ht
  exact Prod.mk.inj (exec_part_pending c s t ht)

end Sys2Proof.Machine

namespace Sys2Proof.Machine

/-! ## What the ends of contexts, descriptors, sequences, queues and regions leave alone

`Die.base` and `State.base` gather what none of these operations writes; one lemma `<operation>_base` for each, in the order
they call one another. -/

/-- Of a die: that it is lost, that it runs, its interfaces and its fences. -/
def Die.base (x : Die) := (x.lost, x.running, x.ifaces, x.fenced)

/-- Of the state: the package's state and cause, and `Die.base` of every die. -/
def State.base (s : State) := (s.psi.state, s.psi.cause, fun d => (s.die d).base)

theorem Die.base_eq_iff (x y : Die) : y.base = x.base ↔
    y.lost = x.lost ∧ y.running = x.running ∧ y.ifaces = x.ifaces ∧ y.fenced = x.fenced := by simp [Die.base]

theorem State.base_eq_iff (s t : State) : t.base = s.base ↔
    t.psi.state = s.psi.state ∧ t.psi.cause = s.psi.cause ∧ ∀ d, (t.die d).base = (s.die d).base := by
  simp [State.base, funext_iff]

theorem Die.foldl_base {α : Type} (g : Die → α → Die) (h : ∀ x a, (g x a).base = x.base) (l : List α) (x : Die) :
    (l.foldl g x).base = x.base := by
  induction l generalizing x with
  | nil => rfl
  | cons a r ih => rw [List.foldl_cons, ih, h]

theorem State.foldl_base {α : Type} (g : State → α → State) (h : ∀ s a, (g s a).base = s.base) (l : List α) (s : State) :
    (l.foldl g s).base = s.base := by
  induction l generalizing s with
  | nil => rfl
  | cons a r ih => rw [List.foldl_cons, ih, h]

/-! ### Operations of a die -/

theorem Die.modFabric_base (x : Die) (r : Nat) (f : Fabric → Fabric) : (x.modFabric r f).base = x.base := rfl

theorem Die.modRegion_base (x : Die) (r : Nat) (f : Region → Region) : (x.modRegion r f).base = x.base := rfl

theorem Die.unwake_base (x : Die) (r : Nat) : (x.unwake r).base = x.base := rfl

theorem Die.modRing_base (x : Die) (n : Nat) (f : Ring → Ring) : (x.modRing n f).base = x.base := rfl

theorem Die.countAt_base (x : Die) (k u i : Nat) (w : Bool) (n : Nat) : (x.countAt k u i w n).base = x.base := by
  unfold Die.countAt; cases w <;> rfl

theorem Die.count_base (x : Die) (c : Ctr) (u n : Nat) : (x.count c u n).base = x.base := Die.countAt_base ..

theorem Die.countRT_base (x : Die) (c : Ctr) (k n : Nat) : (x.countRT c k n).base = x.base := by
  unfold Die.countRT; split <;> exact Die.countAt_base ..

theorem Die.modCtx_base (x : Die) (c : Nat) (f : Ctx → Ctx) : (x.modCtx c f).base = x.base := by
  unfold Die.modCtx; split <;> rfl

theorem Die.cancelCopy_base (x : Die) (h : Nat) : (x.cancelCopy h).base = x.base := by
  unfold Die.cancelCopy; split <;> rfl

theorem Die.cancelRegion_base (x : Die) (r : Nat) : (x.cancelRegion r).base = x.base :=
  Die.foldl_base _ (fun x (c : Copy) => x.cancelCopy_base c.handle) _ _

theorem Die.answerFenced_base (x : Die) (d w : Nat) : (x.answerFenced d w).base = x.base := Die.count_base ..

theorem Die.clearKey_base (x : Die) (t : Nat) : (x.clearKey t).base = x.base := by
  unfold Die.clearKey
  split
  · split <;> rfl
  · rfl

theorem Die.flushPort_base (ring : Nat) : ∀ (n : Nat) (l : List (BitVec 512)) (x : Die), (x.flushPort ring n l).1.base = x.base
  | _, [], _ => by simp [Die.flushPort]
  | 0, _ :: _, _ => by simp [Die.flushPort]
  | n + 1, u :: l, x => by
    unfold Die.flushPort
    split
    · rfl
    · exact Die.flushPort_base ring n l (x.ringPush ring u)

theorem Die.closePorts_base (x : Die) (r : Nat) : (x.closePorts r).base = x.base := by
  unfold Die.closePorts
  extract_lets f cut readers x1 one x2
  have h1 : x1.base = x.base :=
    (Die.foldl_base _ (fun x (b : Nat × PortBind) => x.modRing_base b.2.ring _) _ _).trans (Die.count_base ..)
  have h2 : x2.base = (x1.staggerLost r).base := Die.foldl_base _ (fun x n => by
    simp only [one, Die.modFabric_base, Die.flushPort_base]) _ _
  rw [Die.modFabric_base, h2]
  exact h1

theorem Die.unconfigure_base (x : Die) (d r : Nat) : (x.unconfigure d r).base = x.base := by
  rw [← Die.closePorts_base x r, Die.unconfigure]
  generalize x.closePorts r = y
  rfl

/-! ### Weight threads of a die -/

theorem Die.modTSlot_base (x : Die) (m slot : Nat) (f : TSlot → TSlot) : (x.modTSlot m slot f).base = x.base := by
  unfold Die.modTSlot; split <;> rfl

theorem Die.putTransit_base (x : Die) (th : Nat) (h : Thread) (p r : Nat) (t : TEntry) :
    (x.putTransit th h p r t).base = x.base := by
  unfold Die.putTransit
  dsimp only
  split
  · exact Die.countRT_base ..
  · rfl

theorem Die.pumpOne_base (x : Die) (th p : Nat) : (x.pumpOne th p).base = x.base := by
  unfold Die.pumpOne
  repeat' split
  case isTrue => exact (Die.count_base ..).trans (Die.putTransit_base ..)
  all_goals rfl

theorem Die.pump_base (x : Die) (th : Nat) : (x.pump th).base = x.base := Die.foldl_base _ (fun x p => x.pumpOne_base th p) _ _

theorem Die.gapSlot_base (x : Die) (e : Nat × Nat) : (x.gapSlot e).base = x.base := by
  unfold Die.gapSlot
  split
  · rfl
  · split
    · rfl
    · exact Die.pump_base ..

theorem Die.cutThread_base (x : Die) (th : Nat) : (x.cutThread th).base = x.base := by
  unfold Die.cutThread
  split
  · rfl
  · have slots (l : List (Nat × Nat)) (f : TSlot → TSlot) (y : Die) :
        (l.foldl (fun x e => x.modTSlot e.1 e.2 f) y).base = y.base :=
      Die.foldl_base _ (fun x e => x.modTSlot_base e.1 e.2 f) l y
    dsimp only
    split
    · exact (Die.foldl_base _ (fun x e => x.gapSlot_base e) _ _).trans (slots ..)
    · exact slots ..

theorem Die.cutThreads_base (x : Die) : x.cutThreads.base = x.base := Die.foldl_base _ (fun x th => x.cutThread_base th) _ _

/-! ### A die of the state -/

theorem State.setDie_base (s : State) (d : Nat) (x : Die) (h : x.base = (s.die d).base) : (s.setDie d x).base = s.base := by
  refine (State.base_eq_iff _ _).mpr ⟨rfl, rfl, fun e => ?_⟩
  by_cases he : e = d
  · rw [he, State.die_setDie_same, h]
  · rw [State.die_setDie_other _ _ he]

theorem State.modDie_base (s : State) (d : Nat) (f : Die → Die) (h : ∀ x, (f x).base = x.base) : (s.modDie d f).base = s.base :=
  State.setDie_base _ _ _ (h _)

/-- The same after other operations. -/
theorem State.modDie_base_of {s u : State} {d : Nat} {f : Die → Die} (hf : ∀ x, (f x).base = x.base) (hu : u.base = s.base) :
    (u.modDie d f).base = s.base := (u.modDie_base d f hf).trans hu

theorem State.modCtx_base (s : State) (d c : Nat) (f : Ctx → Ctx) : (s.modCtx d c f).base = s.base :=
  State.modDie_base _ _ _ fun x => x.modCtx_base c f

theorem State.emit_base (s : State) (e : Event) : (s.emit e).base = s.base := by unfold State.emit; split <;> rfl

/-! ### Replies -/

/-- A reply changes nothing that `State.base` reads. -/
theorem OnlyReplies.base {s t : State} (h : OnlyReplies s t) : t.base = s.base := by
  rw [h]; rfl

theorem State.finish_base (s : State) (code : Nat) (p : Pkt) (st : Status) (det : Nat) (a b : List Byte) :
    (s.finish code p st det a b).base = s.base := (State.onlyReplies_finish s code p st det a b).base

theorem State.ok_base (s : State) (code : Nat) (p : Pkt) : (s.ok code p).base = s.base := (State.onlyReplies_ok s code p).base

theorem State.endQueue_base (s : State) (q det : Nat) : (s.endQueue q det).base = s.base := rfl

theorem State.loseQueues_base (s : State) (d : Nat) : (s.loseQueues d).base = s.base := by
  refine State.foldl_base _ (fun s (e : Nat × Queue) => ?_) _ _
  dsimp only
  split
  · exact State.emit_base ..
  · rfl

theorem State.settleKey_base (s : State) (k : Pkt × Nat × List Nat) : (s.settleKey k).base = s.base := by
  unfold State.settleKey
  extract_lets s1 left
  have h1 : s1.base = s.base := State.foldl_base _ (fun s d => s.modDie_base d _ fun x => x.clearKey_base k.2.1) _ _
  split
  · split
    · exact h1
    · exact (State.ok_base ..).trans h1
  · exact h1

theorem State.settleKeys_base (s : State) : s.settleKeys.base = s.base :=
  State.foldl_base _ (fun s k => s.settleKey_base k) _ _

theorem State.settleLimits_base (s : State) (d : Nat) : (s.settleLimits d).base = s.base := by
  refine State.foldl_base _ (fun s (k : Pkt × List Nat) => ?_) _ _
  unfold State.settleLimit
  dsimp only
  split
  · exact State.ok_base ..
  · rfl

theorem State.endIdle_base (s : State) (id : Nat) : (s.endIdle id).base = s.base := by
  unfold State.endIdle
  split
  · rfl
  · split
    · exact State.finish_base ..
    · rfl

theorem State.unwaitDie_base (s : State) (d : Nat) : (s.unwaitDie d).base = s.base := by
  unfold State.unwaitDie
  refine (State.foldl_base _ ?_ _ _).trans ?_
  · exact fun _ id => (State.endIdle_base _ id).trans rfl
  · exact (State.settleKeys_base _).trans (State.settleLimits_base s d)

/-! ### Sequences and their sheets -/

theorem State.modSeq_base (s : State) (n : Nat) (f : Sequence → Sequence) : (s.modSeq n f).base = s.base := by
  unfold State.modSeq; split <;> rfl

theorem State.loseSeq_base (s : State) (byIdle : Bool) (n : Nat) : (s.loseSeq byIdle n).base = s.base := by
  unfold State.loseSeq
  split
  · rfl
  · dsimp only
    split
    · rfl
    · split
      · exact State.modSeq_base ..
      · exact (State.emit_base ..).trans (State.modSeq_base ..)

theorem State.markGone_base (s : State) (d : Nat) (hs : List Nat) (st : SheetState) (byIdle : Bool) :
    (s.markGone d hs st byIdle).base = s.base := by
  refine (State.foldl_base _ (fun s n => s.loseSeq_base byIdle n) _ _).trans (State.setDie_base _ _ _ ?_)
  refine Die.foldl_base _ ?_ _ _
  exact fun y h => y.cancelCopy_base h

/-! ### Contexts, descriptors and knots -/

theorem State.writeRec_base (s : State) (d c : Nat) (r : CRec) : (s.writeRec d c r).base = s.base := State.modCtx_base ..

theorem State.failServed_base (s : State) (d c : Nat) (st : Status) (only : Option Nat) :
    (s.failServed d c st only).base = s.base := by
  unfold State.failServed
  split
  · rfl
  · split <;> rfl

theorem State.drained_base (s : State) (d c : Nat) (l : List CRec) : (s.drained d c l).base = s.base := by
  unfold State.drained
  split
  · rfl
  · split <;> rfl

theorem State.endCtx_base (s : State) (d c : Nat) (st : Status) : (s.endCtx d c st).base = s.base := by
  unfold State.endCtx
  split
  · rfl
  · dsimp only
    refine (State.modCtx_base ..).trans ?_
    split
    · exact State.drained_base ..
    · split
      · exact State.drained_base ..
      · exact State.drained_base ..

theorem State.sendAdd_base (s : State) (d k : Nat) (n : BitVec 64) : (s.sendAdd d k n).base = s.base :=
  State.modDie_base _ _ _ fun _ => rfl

theorem State.endDesc_base (s : State) (d ctx : Nat) (desc : BitVec 512) (st : Status) (fp : Nat) (checked : Bool)
    (only : Option Nat) : (s.endDesc d ctx desc st fp checked only).base = s.base := by
  unfold State.endDesc
  extract_lets s1 s2 own
  have h1 : s1.base = s.base := State.writeRec_base ..
  have h2 : s2.base = s.base := by
    unfold s2
    split
    · exact h1
    · exact (State.failServed_base ..).trans h1
  split
  · exact (State.sendAdd_base ..).trans h2
  · exact h2

theorem State.haltOn_base (s : State) (d : Nat) (k : TileKind) (t : Nat) (st : Status) : (s.haltOn d k t st).base = s.base := by
  unfold State.haltOn
  split
  · rfl
  · exact (State.modCtx_base ..).trans (State.modDie_base_of (fun _ => rfl) rfl)

theorem State.orphan_base (s : State) (d c : Nat) (st : Status) : (s.orphan d c st).base = s.base := by
  unfold State.orphan
  split
  · rfl
  · split
    · split
      · exact (State.writeRec_base ..).trans (State.haltOn_base ..)
      · refine State.modDie_base_of (fun _ => rfl) ((State.modCtx_base ..).trans ?_)
        exact (State.endCtx_base ..).trans (State.writeRec_base ..)
    · exact (State.writeRec_base ..).trans (State.modCtx_base ..)
    all_goals rfl

theorem State.untieOne_base (s : State) (d k : Nat) : (s.untieOne d k).1.base = s.base := by
  refine (State.foldl_base _ (fun s (w : Nat × BitVec 64) => s.orphan_base d w.1 _) _ _).trans ?_
  refine (State.foldl_base _ (fun s (w : Pkt × BitVec 64) => State.finish_base s 0x0503 w.1 _ _ _ _) _ _).trans ?_
  exact State.modDie_base _ _ _ fun x => Die.count_base ..

theorem State.unwind_base (d : Nat) : ∀ (n : Nat) (l : List Nat) (s : State), (State.unwind d n l s).base = s.base
  | 0, _, _ => by simp [State.unwind]
  | _ + 1, [], _ => by simp [State.unwind]
  | n + 1, c :: r, s => by
    have step (l : List Nat) (p : State × List Nat) : (l.foldl (fun (p : State × List Nat) k =>
        ((p.1.untieOne d k).1, p.2 ++ (p.1.untieOne d k).2)) p).1.base = p.1.base := by
      induction l generalizing p with
      | nil => rfl
      | cons k l ih => rw [List.foldl_cons, ih, State.untieOne_base]
    unfold State.unwind
    exact (State.unwind_base d n _ _).trans (step _ (s, []))

theorem State.loseOwner_base (s : State) (d c : Nat) : (s.loseOwner d c).base = s.base := State.unwind_base ..

theorem State.untie_base (s : State) (d k : Nat) : (s.untie d k).base = s.base :=
  (State.unwind_base ..).trans (State.untieOne_base ..)

theorem State.failCtx_base (s : State) (d c : Nat) (st : Status) : (s.failCtx d c st).base = s.base := by
  refine (State.loseOwner_base ..).trans ((State.modDie_base _ _ _ fun x => ?_).trans ?_)
  · split <;> rfl
  · exact (State.modCtx_base ..).trans (State.endCtx_base ..)

theorem State.failOn_base (s : State) (d : Nat) (k : TileKind) (t : Nat) (st : Status) : (s.failOn d k t st).base = s.base := by
  unfold State.failOn
  split
  · rfl
  · exact (State.failCtx_base ..).trans (State.modDie_base_of (fun _ => rfl) rfl)

theorem State.destroyCtx_base (s : State) (d c : Nat) (st : Status) : (s.destroyCtx d c st).base = s.base := by
  unfold State.destroyCtx
  split
  · rfl
  · refine (State.loseOwner_base ..).trans ((State.modDie_base _ _ _ fun x => ?_).trans (State.endCtx_base ..))
    dsimp only
    split <;> rfl

theorem State.endArray_base (s : State) (d t arr : Nat) (st : Status) : (s.endArray d t arr st).base = s.base := by
  unfold State.endArray
  refine State.modDie_base_of (fun _ => rfl) ?_
  refine (State.foldl_base _ (fun s (e : BitVec 512 × Nat) => State.endDesc_base s d e.2 e.1 _ _ _ _) _ _).trans ?_
  refine (State.foldl_base _ (fun s (u : Att) => State.endDesc_base s d u.ctx u.desc _ _ _ _) _ _).trans ?_
  exact State.foldl_base _ (fun s (u : Run) => State.endDesc_base s d u.ctx u.desc _ _ _ _) _ _

/-! ### Regions and dies -/

theorem State.evictRegion_base (s : State) (d r : Nat) : (s.evictRegion d r).base = s.base := by
  refine (State.foldl_base _ (fun s (t : TileKind × Nat) => ?_) _ _).trans ?_
  · exact State.modDie_base_of (fun _ => rfl) (State.failOn_base ..)
  · refine (State.foldl_base _ (fun s c => s.destroyCtx_base d c _) _ _).trans ?_
    exact State.foldl_base _ (fun s i => (State.endArray_base ..).trans (State.endArray_base ..)) _ _

theorem State.suspendRegion_base (s : State) (d r : Nat) : (s.suspendRegion d r).base = s.base := rfl

theorem State.endActs_base (s : State) (d r : Nat) : (s.endActs d r).base = s.base :=
  State.modDie_base_of (fun _ => rfl) (State.foldl_base _ (fun s (a : ClkAct) => State.finish_base s _ a.pkt _ _ _ _) _ _)

theorem State.endSession_base (s : State) (d r : Nat) (st : Status) (det : Nat) (now : Option Pkt) :
    (s.endSession d r st det now).base = s.base := by
  unfold State.endSession
  split
  · rfl
  next q _ =>
    extract_lets s1
    have h1 : s1.base = s.base := State.modDie_base _ _ _ fun x => by
      split
      · exact (Die.count_base ..).trans (Die.unconfigure_base ..)
      · rfl
    split
    · exact (State.finish_base ..).trans h1
    · split
      · exact (State.finish_base ..).trans h1
      · exact h1

theorem State.unconfigureRegion_base (s : State) (d r : Nat) : (s.unconfigureRegion d r).base = s.base := by
  unfold State.unconfigureRegion
  dsimp only
  split
  · split
    · exact (State.endSession_base ..).trans (State.endActs_base ..)
    · refine (State.modDie_base _ _ _ fun x => ?_).trans ((State.endSession_base ..).trans (State.endActs_base ..))
      split
      · exact Die.unconfigure_base ..
      · rfl
  · refine (State.modDie_base _ _ _ fun x => ?_).trans (State.endActs_base ..)
    split
    · rfl
    · exact Die.unconfigure_base ..

theorem State.depart_base (s : State) (d p : Nat) (left : LState) : (s.depart d p left).base = s.base :=
  (State.emit_base ..).trans (State.modDie_base _ _ _ fun _ => Die.count_base ..)

theorem State.linkDown_base (s : State) (d p : Nat) : (s.linkDown d p).base = s.base := by
  have down : (s.modDie d fun x => x.modFelt p Felt.goDown).base = s.base := State.modDie_base _ _ _ fun _ => rfl
  unfold State.linkDown
  dsimp only
  repeat' split
  · rfl
  · exact (State.depart_base ..).trans down
  · exact (State.depart_base ..).trans down
  · exact down

theorem State.isolate_base (s : State) (d r cause mask : Nat) (quiet : Bool) : (s.isolate d r cause mask quiet).base = s.base := by
  unfold State.isolate
  split
  · rfl
  · extract_lets ws s1 s2
    have h1 : s1.base = s.base := State.modDie_base _ _ _ fun x => by
      rw [Die.modRegion_base, Die.foldl_base _ (fun x w => x.answerFenced_base d w), Die.unwake_base, Die.cancelRegion_base]
    have h2 : s2.base = s1.base := by
      unfold s2
      rw [State.modDie_base _ _ _ Die.cutThreads_base, State.linkDown_base, State.unconfigureRegion_base,
        State.suspendRegion_base, State.evictRegion_base]
    split
    · exact h2.trans h1
    · exact (State.emit_base ..).trans (h2.trans h1)

end Sys2Proof.Machine

namespace Sys2Proof.Machine

/-! ## The package: its fatal state, the loss of a die, its reset (R28, R29, R459) -/

theorem State.running_iff (s : State) : s.running = true ↔ s.psi.state = .running := by simp [State.running]

theorem State.live_iff (s : State) (d : Nat) : s.live d = true ↔
    s.running = true ∧ d < s.dieCount ∧ (s.die d).lost = false ∧ (s.die d).running = true := by
  simp [State.live, State.usable, and_assoc]

/-- A package that is not yet fatal becomes so. -/
theorem State.fatal_eq {s : State} (h : s.psi.state ≠ .fatal) (cause : Nat) : s.fatal cause = { s with
    psi := { s.psi with state := .fatal, cause := cause }
    pins := { s.pins with pwrOk := false, cfgDone := false }
    hostUp := false, queues := [], funcs := [], raised := [], tenants := [], models := [], seqs := [], disps := []
    idles := [], keyWaits := [], limits := [], waiting := [], dies := [], epochOp := none } :=
  if_neg (by simpa using h)

/-- A die other than D0 that is lost is marked so and stops; of what `State.base` reads nothing else changes. -/
theorem State.loseDie_base {s : State} {d : Nat} (cause : Nat) (h0 : d ≠ 0) (hl : (s.die d).lost = false) :
    (s.loseDie d cause).base = (s.modDie d fun x => { x with lost := true, running := false }).base := by
  unfold State.loseDie
  rw [if_neg h0, if_neg (by simp [hl])]
  extract_lets s1 s2 s3 hs s4 homed s5
  have h2 : s2.base = s1.base := State.foldl_base _ (fun s r => s.isolate_base d r 1 0 true) _ _
  have h3 : s3.base = s2.base := State.foldl_base _ (fun s c => s.destroyCtx_base d c .unitFenced) _ _
  have h4 : s4.base = s3.base := State.markGone_base ..
  have h5 : s5.base = s4.base := State.foldl_base _ (fun s n => s.loseSeq_base false n) _ _
  rw [State.emit_base, State.loseQueues_base, h5, h4, h3, h2]

/-- PLL_LOCK_LOSS and DIE_CONTROLLER_TIMEOUT lose a die that runs. -/
theorem exec_dieLoss {s : State} {i : Instr} {d : Nat} (hs : s.live d = true) (hi : i = .pllLockLoss d ∨ i = .dieControllerTimeout d) :
    ∃ cause, exec i s = .next ((s.loseDie d cause).unwaitDie d).resume := by
  have hd : decide (d < s.dieCount) = true := decide_eq_true ((s.live_iff d).mp hs).2.1
  obtain rfl | rfl := hi
  · exact ⟨2, event_next hd hs⟩
  · exact ⟨1, event_next hd hs⟩

theorem dieLoss_other {s : State} {i : Instr} {d : Nat} (hs : s.live d = true)
    (hi : i = .pllLockLoss d ∨ i = .dieControllerTimeout d) (h0 : d ≠ 0) :
    RunsThen i s fun u => (u.die d).lost = true ∧ (u.die d).running = false ∧ u.psi.state = .running := by
  obtain ⟨cause, he⟩ := exec_dieLoss hs hi
  obtain ⟨hr, -, hl, -⟩ := (s.live_iff d).mp hs
  obtain ⟨hst, -, hdie⟩ := (State.base_eq_iff _ _).mp ((State.unwaitDie_base _ d).trans (State.loseDie_base cause h0 hl))
  obtain ⟨hlost, hrun, -, -⟩ := (Die.base_eq_iff _ _).mp (hdie d)
  rw [State.die_modDie_same] at hlost hrun
  exact ⟨_, he, hlost, hrun, hst.trans (s.running_iff.mp hr)⟩

theorem dieLoss_d0 {s : State} {i : Instr} (hs : s.live 0 = true) (hi : i = .pllLockLoss 0 ∨ i = .dieControllerTimeout 0) :
    RunsThen i s fun u => u.psi.state = .fatal ∧ u.psi.cause = 5 := by
  obtain ⟨cause, he⟩ := exec_dieLoss hs hi
  obtain ⟨hr, -⟩ := (s.live_iff 0).mp hs
  have hf : s.loseDie 0 cause = s.fatal 5 := if_pos rfl
  rw [hf, State.fatal_eq (by simp [s.running_iff.mp hr])] at he
  obtain ⟨hst, hc, -⟩ := (State.base_eq_iff _ _).mp (State.unwaitDie_base _ 0)
  exact ⟨_, he, hst, hc⟩

theorem exec_thermalShutdown {s : State} {d : Nat} {temp : Int} (hr : s.running = true) (hd : d < s.dieCount ∨ d = 0xFF)
    (ht : s.part.tMax + 10 < temp) : exec (.thermalShutdown d temp) s = .next (s.fatal 2) :=
  event_next (by simpa using hd) (by simp [hr, ht])

/-- VIN in a hold-up band, and above 63 V, is fatal with cause 1. -/
theorem doVinExcursion_holdUp (mv : Nat) (s : State) :
    doVinExcursion (.holdUp mv) s = ({ s with pins := { s.pins with vinMv := mv } } : State).fatal 1 := rfl

theorem doVinExcursion_above63 (s : State) : doVinExcursion .above63 s =
    ({ s.freeNat.2 with pins := { s.pins with vinMv := 63001 + s.freeNat.1 } } : State).fatal 1 := rfl

theorem exec_vinExcursion {s : State} {k : VinKind} (hp : s.pins.pkgRstN = true) (hr : s.running = true)
    (hk : ∀ mv, k = .holdUp mv → holdUpBand mv = true) : exec (.vinExcursion k) s = .next (doVinExcursion k s) := by
  refine event_next rfl ?_
  have hs := s.running_iff.mp hr
  cases k with
  | holdUp mv => simp [hp, hs, hk mv rfl]
  | above63 => simp [hp, hs]
  | below36 => simp [hp, hs]

/-- Settles O44: each cause makes the package fatal through `State.fatal_eq`, the loss of another die leaves `State.base` but for
that die's marks, and `State.packageReset` is read off its definition. -/
theorem fatalCausesAndReset : Obligations.FatalCausesAndReset := by
  have fatal_ne {s : State} (hr : s.running = true) : s.psi.state ≠ .fatal := by simp [s.running_iff.mp hr]
  refine ⟨⟨?thermal, ?rehash, ?supply, ?dies⟩, fun s => ⟨_, event_next rfl rfl, ?reset⟩⟩
  case thermal =>
    intro s d temp hr hd ht
    refine ⟨_, exec_thermalShutdown hr hd ht, ?_⟩
    rw [State.fatal_eq (fatal_ne hr)]
    exact ⟨rfl, rfl, rfl, rfl, rfl, rfl⟩
  case rehash =>
    intro s hr
    refine ⟨⟨s, event_next rfl hr, rfl⟩, _, event_next rfl hr, ?_⟩
    rw [if_neg (by decide), State.fatal_eq (fatal_ne hr)]
    exact ⟨rfl, rfl, rfl⟩
  case supply =>
    intro s k hp hr
    refine ⟨?_, ?_, ?_⟩
    · rintro mv rfl hb
      refine ⟨_, exec_vinExcursion hp hr (by rintro _ ⟨⟩; exact hb), ?_⟩
      rw [doVinExcursion_holdUp, State.fatal_eq]
      · exact ⟨rfl, rfl, rfl⟩
      · exact fatal_ne hr
    · rintro rfl
      refine ⟨_, exec_vinExcursion hp hr nofun, ?_⟩
      rw [doVinExcursion_above63, State.fatal_eq]
      · exact ⟨rfl, rfl, Nat.lt_of_lt_of_le (by decide) (Nat.le_add_right 63001 _)⟩
      · exact fatal_ne hr
    · rintro rfl
      exact ⟨_, exec_vinExcursion hp hr nofun, rfl, Nat.mod_lt _ (by decide), rfl, rfl⟩
  case dies =>
    intro s i d hs hi
    refine ⟨dieLoss_other hs hi, ?_⟩
    rintro rfl
    exact dieLoss_d0 hs hi
  case reset => exact ⟨rfl, rfl, rfl, rfl, rfl, rfl, rfl, rfl, rfl, rfl, rfl, rfl, rfl, rfl, rfl,
      fun _ => rfl, fun _ => rfl, fun _ => rfl, rfl, rfl, rfl, rfl, rfl, rfl⟩

end Sys2Proof.Machine

namespace Sys2Proof.Machine

/-! ## Interfaces and their transactions (R308, R309) -/

theorem Die.iface_modIface_other (x : Die) {n m : Nat} (f : Iface → Iface) (h : m ≠ n) : (x.modIface n f).iface m = x.iface m := by
  simp [Die.iface, Die.modIface, tget_tmod_other, h]

/-- States that agree on `State.base` have the same interfaces, and the same units fenced. -/
theorem State.iface_of_base {s t : State} (h : t.base = s.base) (d n : Nat) : (t.die d).iface n = (s.die d).iface n := by
  obtain ⟨-, -, hd⟩ := (State.base_eq_iff s t).mp h
  obtain ⟨-, -, hi, -⟩ := (Die.base_eq_iff _ _).mp (hd d)
  rw [Die.iface, hi, Die.iface]

theorem State.isFenced_of_base {s t : State} (h : t.base = s.base) (d k u : Nat) :
    (t.die d).isFenced k u = (s.die d).isFenced k u := by
  obtain ⟨-, -, hd⟩ := (State.base_eq_iff s t).mp h
  obtain ⟨-, -, -, hf⟩ := (Die.base_eq_iff _ _).mp (hd d)
  rw [Die.isFenced, hf, Die.isFenced]

theorem State.state_of_base {s t : State} (h : t.base = s.base) : t.psi.state = s.psi.state := ((State.base_eq_iff s t).mp h).1

theorem Die.count_iface (x : Die) (c : Ctr) (u n m : Nat) : (x.count c u n).iface m = x.iface m := by
  obtain ⟨-, -, hi, -⟩ := (Die.base_eq_iff _ _).mp (x.count_base c u n)
  rw [Die.iface, hi, Die.iface]

theorem Die.count_errIn (x : Die) (c : Ctr) (u n key win : Nat) : (x.count c u n).errIn key win = x.errIn key win := by
  unfold Die.count Die.countAt
  split <;> rfl

theorem State.correctedIn_base (s : State) (win d kind unit n report : Nat) (region : Option Nat) :
    (s.correctedIn win d kind unit n report none region).base = s.base := by
  unfold State.correctedIn
  dsimp only
  split
  · exact (State.emit_base ..).trans (State.modDie_base_of (fun _ => rfl) rfl)
  · exact State.modDie_base_of (fun _ => rfl) rfl

theorem State.loseKnotOp_base (s : State) (d : Nat) : (s.loseKnotOp d).base = s.base := by
  unfold State.loseKnotOp
  split
  · rfl
  · extract_lets k s1
    have h1 : s1.base = s.base := State.modDie_base_of (fun _ => rfl) rfl
    split
    · exact (State.untie_base ..).trans h1
    · exact h1

/-- An interface whose transaction `txn` has ended; `fenced`: with UNIT_FENCED. -/
def Iface.endTxn (f : Iface) (txn : Nat) (fenced : Bool) : Iface :=
  { f with txns := tdel f.txns txn, ended := if fenced then txn :: f.ended else f.ended }

/-- The end of an open transaction, as `State.base` sees it, writes its interface only. -/
theorem State.endTxn_base {s : State} {d node txn : Nat} (h : thas ((s.die d).iface node).txns txn = true) (fenced : Bool) :
    (s.endTxn d node txn fenced).base = (s.modDie d fun x => x.modIface node fun f => f.endTxn txn fenced).base := by
  unfold State.endTxn
  split
  next hn => simp [thas, hn] at h
  · dsimp only
    split
    · exact State.loseKnotOp_base ..
    · rfl

/-- A transaction that is not open does not end. -/
theorem State.endTxn_of_closed {s : State} {d node txn : Nat} (h : thas ((s.die d).iface node).txns txn = false) (fenced : Bool) :
    s.endTxn d node txn fenced = s := by
  unfold State.endTxn
  split
  · rfl
  next hn => simp [thas, hn] at h

theorem State.endTxn_iface {s : State} {d node txn : Nat} (h : thas ((s.die d).iface node).txns txn = true) (fenced : Bool) :
    ((s.endTxn d node txn fenced).die d).iface node = ((s.die d).iface node).endTxn txn fenced := by
  rw [State.iface_of_base (State.endTxn_base h fenced), State.die_modDie_same, Die.iface_modIface_same]

theorem State.endTxn_isFenced (s : State) (d node txn : Nat) (fenced : Bool) (e k u : Nat) :
    ((s.endTxn d node txn fenced).die e).isFenced k u = (s.die e).isFenced k u := by
  cases h : thas ((s.die d).iface node).txns txn with
  | false => rw [State.endTxn_of_closed h]
  | true =>
    rw [State.isFenced_of_base (State.endTxn_base h fenced)]
    by_cases he : e = d
    · rw [he, State.die_modDie_same]; rfl
    · rw [State.die_modDie_other _ _ he]

theorem State.endTxn_state (s : State) (d node txn : Nat) (fenced : Bool) :
    (s.endTxn d node txn fenced).psi.state = s.psi.state := by
  cases h : thas ((s.die d).iface node).txns txn with
  | false => rw [State.endTxn_of_closed h]
  | true => exact (State.state_of_base (State.endTxn_base h fenced)).trans rfl

/-! ### Routers leave transactions alone (R305 to R310) -/

/-- The transactions open at an interface. -/
def State.txnsAt (s : State) (e n : Nat) : Tbl (Nat × Nat) := ((s.die e).iface n).txns

theorem State.txnsAt_of_base {s t : State} (h : t.base = s.base) : t.txnsAt = s.txnsAt := by
  funext e n
  rw [State.txnsAt, State.iface_of_base h, State.txnsAt]

/-- A packet that arrives at an interface opens and closes nothing. -/
theorem State.txnsAt_arrive (s : State) (d node : Nat) (k : NetPkt) :
    (s.modDie d fun x => x.modIface node fun f => { f with inbox := f.inbox ++ [k] }).txnsAt = s.txnsAt := by
  funext e n
  by_cases he : e = d
  · subst he
    by_cases hn : n = node
    · subst hn; simp [State.txnsAt]
    · simp [State.txnsAt, Die.iface_modIface_other _ _ hn]
  · simp [State.txnsAt, State.die_modDie_other _ _ he]

theorem State.enterRouter_base (s : State) (p : Spot) (i : Nat) (q : NetPkt) : (s.enterRouter p i q).base = s.base :=
  State.modDie_base_of (fun _ => rfl) rfl

theorem Die.addTrace_base (x : Die) (wrap : Bool) (t : TraceRec) : (x.addTrace wrap t).base = x.base := by
  unfold Die.addTrace
  split
  · rfl
  · split <;> rfl

theorem Die.probeSees_base (x : Die) (rt n : Nat) (q : NetPkt) (port : Nat) : (x.probeSees rt n q port).base = x.base := by
  unfold Die.probeSees
  dsimp only
  split
  · split
    · exact (Die.addTrace_base ..).trans rfl
    · rfl
  · rfl

theorem Die.leaves_base (x : Die) (rt : Nat) (q : NetPkt) (port : Nat) : (x.leaves rt q port).base = x.base := by
  rw [Die.leaves, Die.probeSees_base, Die.probeSees_base, Die.countRT_base]

theorem State.goDown_txnsAt (s : State) (p q : Spot) (k : NetPkt) : (s.goDown p q k).txnsAt = s.txnsAt := by
  unfold State.goDown
  dsimp only
  split
  · split
    · exact State.txnsAt_arrive ..
    · exact State.txnsAt_of_base (State.modDie_base_of (fun _ => Die.countRT_base ..) rfl)
  · split
    · exact State.txnsAt_of_base (State.modDie_base_of (fun _ => Die.countRT_base ..) rfl)
    · refine State.txnsAt_of_base ((State.enterRouter_base ..).trans ?_)
      exact State.modDie_base_of (fun x => x.leaves_base ..) (State.modDie_base_of (fun _ => rfl) rfl)

theorem State.sendOn_txnsAt (s : State) (p : Spot) (k : NetPkt) (h : Hop) : (s.sendOn p k h).txnsAt = s.txnsAt := by
  have left (q : NetPkt) (port : Nat) : (s.modDie p.die fun x => x.leaves p.no q port).base = s.base :=
    State.modDie_base _ _ _ fun x => x.leaves_base ..
  cases h with
  | arrive id => exact (State.txnsAt_arrive ..).trans (State.txnsAt_of_base (left ..))
  | go q =>
    unfold State.sendOn
    dsimp only
    split
    · exact State.goDown_txnsAt ..
    · split
      · exact State.txnsAt_of_base (State.modDie_base_of (fun _ => Die.countRT_base ..) rfl)
      · exact State.txnsAt_of_base ((State.enterRouter_base ..).trans (left ..))

theorem State.parityDiscard_base (s : State) (p : Spot) (k : NetPkt) : (s.parityDiscard p k).base = s.base :=
  (State.correctedIn_base ..).trans (State.modDie_base_of (fun _ => Die.countRT_base ..) rfl)

/-- What a router does with a packet opens and closes no transaction. -/
theorem State.routePacket_txnsAt (s : State) (d rt : Nat) (k : NetPkt) : (s.routePacket d rt k).txnsAt = s.txnsAt := by
  unfold State.routePacket
  dsimp only
  split
  · rfl
  · split
    · exact State.txnsAt_of_base (State.parityDiscard_base ..)
    · split
      · exact State.sendOn_txnsAt ..
      · rfl

theorem State.noteGrant_base (s : State) (d rt : Nat) (k : NetPkt) : (s.noteGrant d rt k).base = s.base := by
  unfold State.noteGrant
  split
  · exact State.modDie_base_of (fun _ => rfl) rfl
  · rfl

/-- A request that enters the network opens its transaction. -/
theorem State.inject_iface (s : State) (d : Nat) {k : NetPkt} (hk : k.vc = 0) :
    ((s.inject d k).die d).iface (k.src.toNat % 256) =
      let f := (s.die d).iface (k.src.toNat % 256)
      { f with txns := tput f.txns k.txn.toNat (k.opcode.toNat, k.dst.toNat) } := by
  simp [State.inject, Die.count_iface, hk]

/-! ### Routers and transactions: the commands -/

theorem exec_routerForward {s : State} {d rt : Nat} {k : NetPkt} (hs : s.live d = true) (hrt : routerOn rt = true)
    (hup : 128 ≤ rt ∨ s.tileNetUp d (rt / 16) = true) (hk : s.received d rt k = true ∨ s.injects d rt k = true)
    (hgo : (s.routable d rt k = true ∧ s.granted d rt k = true) ∨ (s.received d rt k = false ∧ s.hasRoute d k = false)) :
    exec (.routerForward d rt k) s = .next (doRouterForward d rt k s) := by
  have hd := ((s.live_iff d).mp hs).2.1
  exact event_next (by simp [hd, hrt]) (by simp [hs]; exact ⟨⟨hup, hk⟩, hgo⟩)

theorem exec_packetDeliver {s : State} {d node ecc : Nat} (hs : s.live d = true) (hn : node < 256)
    (he : s.endpoint (256 * d + node) = true) (hecc : ecc < 3) (hi : ((s.die d).iface node).inbox ≠ []) :
    exec (.packetDeliver d node ecc) s = .next (doPacketDeliver d node ecc s) := by
  have hd := ((s.live_iff d).mp hs).2.1
  exact event_next (by simp [hd, hn, he]) (by simp [hs, hecc, hi])

theorem exec_txnTimeout {s : State} {d node txn : Nat} (hs : s.live d = true) (hn : node < 256)
    (he : s.endpoint (256 * d + node) = true) (ht : thas ((s.die d).iface node).txns txn = true) :
    exec (.txnTimeout d node txn) s =
      .next ((s.modDie d fun x => x.count niTimeouts (256 * d + node) 1).endTxn d node txn true) := by
  have hd := ((s.live_iff d).mp hs).2.1
  exact event_next (by simp [hd, hn, he]) (by simp [hs, ht])

/-- A request that its source can route opens its transaction. -/
theorem doRouterForward_opens {s : State} {d rt : Nat} {k : NetPkt} (hr : s.received d rt k = false) (hh : s.hasRoute d k = true)
    (hk : k.vc = 0) : tfind (((doRouterForward d rt k s).die d).iface (k.src.toNat % 256)).txns k.txn.toNat =
      some (k.opcode.toNat, k.dst.toNat) := by
  have he : doRouterForward d rt k s = ((s.noteGrant d rt k).inject d k).routePacket d rt k := by
    simp [doRouterForward, hr, hh]
  have ht := congrFun (congrFun (State.routePacket_txnsAt ((s.noteGrant d rt k).inject d k) d rt k) d) (k.src.toNat % 256)
  rw [State.txnsAt, State.txnsAt, State.inject_iface _ _ hk] at ht
  rw [he, ht, tfind_tput_same]

/-- A request without a valid route opens its transaction and ends it at once. -/
theorem doRouterForward_noRoute {s : State} {d rt : Nat} {k : NetPkt} (hr : s.received d rt k = false)
    (hh : s.hasRoute d k = false) (hk : k.vc = 0) :
    ((doRouterForward d rt k s).die d).iface (k.src.toNat % 256) =
      (((s.inject d k).die d).iface (k.src.toNat % 256)).endTxn k.txn.toNat true := by
  have he : doRouterForward d rt k s = (s.inject d k).endTxn d (k.src.toNat % 256) k.txn.toNat true := by
    simp [doRouterForward, hr, hh, hk]
  rw [he, State.endTxn_iface]
  rw [State.inject_iface s d hk]
  exact thas_tput_same ..

/-! ### Packets at their endpoint -/

/-- What the end of a transaction, open or not, leaves of its interface. -/
theorem State.endTxn_facts (s : State) (d node txn : Nat) (fenced : Bool) {f g : Iface} (hf : (s.die d).iface node = f)
    (hg : ((s.endTxn d node txn fenced).die d).iface node = g) :
    g.inbox = f.inbox ∧ g.outbox = f.outbox ∧ tfind g.txns txn = none ∧ (fenced = false → g.ended = f.ended) := by
  subst hf hg
  cases h : thas ((s.die d).iface node).txns txn with
  | false =>
    rw [State.endTxn_of_closed h]
    exact ⟨rfl, rfl, by simpa [thas] using h, fun _ => rfl⟩
  | true =>
    rw [State.endTxn_iface h]
    refine ⟨rfl, rfl, tfind_tdel_same .., ?_⟩
    rintro rfl
    rfl

/-- A delivered packet stands in the outbox; a response has ended its transaction, another packet none. -/
theorem State.delivered_facts (s : State) (d node : Nat) (k : NetPkt) {f g : Iface} (hf : (s.die d).iface node = f)
    (hg : ((s.delivered d node k).die d).iface node = g) :
    g.inbox = f.inbox ∧ g.outbox = f.outbox ++ [k] ∧ (k.vc = 1 → tfind g.txns k.txn.toNat = none) ∧
      (k.vc ≠ 1 → g.txns = f.txns) ∧ (k.opcode ≠ 0x7F → g.ended = f.ended) := by
  revert hg
  unfold State.delivered
  extract_lets id s1
  have h1 : (s1.die d).iface node = { f with outbox := f.outbox ++ [k] } := by simp [s1, Die.count_iface, hf]
  split
  next hv =>
    split
    next ho =>
      intro hg
      obtain ⟨hin, hout, ht, -⟩ := State.endTxn_facts s1 d node k.txn.toNat true h1 hg
      exact ⟨hin, hout, fun _ => ht, fun h => absurd hv h, fun h => absurd ho h⟩
    next =>
      intro hg
      dsimp only at hg
      rw [State.die_modDie_same, Die.count_iface] at hg
      obtain ⟨hin, hout, ht, he⟩ := State.endTxn_facts s1.freeNat.2 d node k.txn.toNat false h1 hg
      exact ⟨hin, hout, fun _ => ht, fun h => absurd hv h, fun _ => he rfl⟩
  next hv =>
    intro hg
    rw [h1] at hg
    subst hg
    exact ⟨rfl, rfl, fun h => absurd h hv, fun _ => rfl, fun _ => rfl⟩

/-! ### Packets that are not delivered (R308, R445) -/

/-- A fence writes the key of its unit, as `State.base` sees it. -/
theorem State.fence_base (s : State) (d kind unit cause : Nat) (region : Option Nat) :
    (s.fence d kind unit cause region).base = if (s.die d).isFenced kind unit then s.base
      else (s.modDie d fun x => { x with fenced := tput x.fenced (unitKey kind unit) cause }).base := by
  unfold State.fence
  dsimp only
  split_ifs
  · rfl
  · rfl
  · exact State.emit_base ..

theorem State.modDie_base_congr {s t : State} (h : t.base = s.base) {d : Nat} {g : Die → Die}
    (hg : ∀ {x y : Die}, y.base = x.base → (g y).base = (g x).base) : (t.modDie d g).base = (s.modDie d g).base := by
  obtain ⟨hst, hc, hd⟩ := (State.base_eq_iff s t).mp h
  refine (State.base_eq_iff _ _).mpr ⟨hst, hc, fun e => ?_⟩
  by_cases he : e = d
  · rw [he, State.die_modDie_same, State.die_modDie_same, hg (hd d)]
  · rw [State.die_modDie_other _ _ he, State.die_modDie_other _ _ he, hd e]

/-- States that agree on `State.base` agree on it after a fence. -/
theorem State.fence_base_congr {s t : State} (h : t.base = s.base) (d kind unit cause : Nat) (region : Option Nat) :
    (t.fence d kind unit cause region).base = (s.fence d kind unit cause region).base := by
  rw [State.fence_base, State.fence_base, State.isFenced_of_base h, h, State.modDie_base_congr h]
  intro x y hxy
  obtain ⟨hl, hr, hi, hf⟩ := (Die.base_eq_iff x y).mp hxy
  exact (Die.base_eq_iff _ _).mpr ⟨hl, hr, hi, by rw [hf]⟩

theorem State.fence_iface (s : State) (d kind unit cause : Nat) (region : Option Nat) (e n : Nat) :
    ((s.fence d kind unit cause region).die e).iface n = (s.die e).iface n := by
  have h := s.fence_base d kind unit cause region
  split at h
  · exact State.iface_of_base h e n
  · rw [State.iface_of_base h]
    by_cases he : e = d
    · rw [he, State.die_modDie_same]; rfl
    · rw [State.die_modDie_other _ _ he]

theorem State.fence_state (s : State) (d kind unit cause : Nat) (region : Option Nat) :
    (s.fence d kind unit cause region).psi.state = s.psi.state := by
  have h := s.fence_base d kind unit cause region
  split at h
  · exact State.state_of_base h
  · exact (State.state_of_base h).trans rfl

/-- A unit is fenced after a fence if it was, or if it is the one. -/
theorem State.fence_isFenced (s : State) (d kind unit cause : Nat) (region : Option Nat) (e k u : Nat) :
    ((s.fence d kind unit cause region).die e).isFenced k u =
      ((s.die e).isFenced k u || decide (e = d ∧ unitKey k u = unitKey kind unit)) := by
  have h := s.fence_base d kind unit cause region
  split at h
  next hf =>
    rw [State.isFenced_of_base h]
    by_cases hu : e = d ∧ unitKey k u = unitKey kind unit
    · obtain ⟨rfl, hk⟩ := hu
      rw [Die.isFenced, ← hk] at hf
      simp [Die.isFenced, hf]
    · simp [hu]
  next =>
    rw [State.isFenced_of_base h]
    by_cases he : e = d
    · subst he
      rw [State.die_modDie_same]
      by_cases hk : unitKey k u = unitKey kind unit
      · simp [Die.isFenced, hk]
      · simp [Die.isFenced, hk, thas_tput_other _ _ hk]
    · simp [State.die_modDie_other _ _ he, he]

theorem unitKey_inj (k : Nat) {u v : Nat} : unitKey k u = unitKey k v ↔ u = v := by simp [unitKey]

/-- An uncorrectable packet counted at its interface, which the fourth in an hour fences (R308, R445); what becomes of the packet
follows. -/
def State.eccCounted (s : State) (d node : Nat) : State :=
  let id := 256 * d + node
  let s1 := s.modDie d fun x => x.count niEccUncorr id 1
  let s2 := s1.modDie d fun x => x.addErr (unitKey 73 id) nclkHour 1
  if 4 ≤ (s1.die d).errIn (unitKey 73 id) nclkHour + 1 then
    (s2.fence d 9 id 3 (if node % 32 < 20 then some (node / 32) else none)).modDie d Die.cutThreads
  else s2

/-- What becomes of a packet that is not delivered. -/
def State.answerLost (s : State) (d node : Nat) (k : NetPkt) : State :=
  if k.vc = 0 then s.nack k else if k.vc = 1 then s.endTxn d node k.txn.toNat true else s

theorem State.undelivered_eq (s : State) (d node : Nat) (k : NetPkt) : s.undelivered d node k =
    if ((s.eccCounted d node).answerLost d node k).d0Cut then ((s.eccCounted d node).answerLost d node k).fatal 5
    else (s.eccCounted d node).answerLost d node k := rfl

/-- Counting an uncorrectable packet, as `State.base` sees it, does no more than fence the interface at the fourth. -/
theorem State.eccCounted_base (s : State) (d node : Nat) : (s.eccCounted d node).base =
    if 4 ≤ (s.die d).errIn (unitKey 73 (256 * d + node)) nclkHour + 1 then
      (s.fence d 9 (256 * d + node) 3 (if node % 32 < 20 then some (node / 32) else none)).base
    else s.base := by
  unfold State.eccCounted
  extract_lets id s1 s2
  have h1 : s1.base = s.base := State.modDie_base _ _ _ fun _ => Die.count_base ..
  have h2 : s2.base = s.base := State.modDie_base_of (fun _ => rfl) h1
  have hn : (s1.die d).errIn (unitKey 73 id) nclkHour = (s.die d).errIn (unitKey 73 id) nclkHour := by
    rw [State.die_modDie_same, Die.count_errIn]
  rw [hn]
  split
  · rw [State.modDie_base _ _ _ Die.cutThreads_base]
    exact State.fence_base_congr h2 ..
  · exact h2

theorem State.eccCounted_iface (s : State) (d node e n : Nat) :
    ((s.eccCounted d node).die e).iface n = (s.die e).iface n := by
  have h := s.eccCounted_base d node
  split at h
  · rw [State.iface_of_base h, State.fence_iface]
  · exact State.iface_of_base h e n

theorem State.eccCounted_state (s : State) (d node : Nat) : (s.eccCounted d node).psi.state = s.psi.state := by
  have h := s.eccCounted_base d node
  split at h
  · exact (State.state_of_base h).trans (State.fence_state ..)
  · exact State.state_of_base h

/-- The interfaces fenced then: those that were, and at the fourth packet the one that received it. -/
theorem State.eccCounted_isFenced (s : State) (d node e u : Nat) : ((s.eccCounted d node).die e).isFenced 9 u = true ↔
    (s.die e).isFenced 9 u = true ∨
      4 ≤ (s.die d).errIn (unitKey 73 (256 * d + node)) nclkHour + 1 ∧ e = d ∧ u = 256 * d + node := by
  have h := s.eccCounted_base d node
  split at h
  next hn =>
    rw [State.isFenced_of_base h, State.fence_isFenced]
    simp [hn, unitKey_inj]
  next hn => simp [State.isFenced_of_base h, hn]

/-- A NACK enters the inbox of the requester's interface, and changes nothing else. -/
theorem State.nack_inbox (s : State) (k : NetPkt) : ∃ l n,
    (((s.nack k).die (k.src.toNat / 256)).iface (k.src.toNat % 256)).inbox = l ++ [n] ∧ n.opcode = 0x7F ∧ n.txn = k.txn := by
  unfold State.nack
  rw [State.die_modDie_same, Die.iface_modIface_same]
  exact ⟨_, _, rfl, rfl, rfl⟩

theorem State.nack_iface_other (s : State) {k : NetPkt} {d node : Nat} (h : k.src.toNat ≠ 256 * d + node) :
    ((s.nack k).die d).iface node = (s.die d).iface node := by
  unfold State.nack
  by_cases hd : d = k.src.toNat / 256
  · have hm : node ≠ k.src.toNat % 256 := by omega
    rw [hd, State.die_modDie_same, Die.iface_modIface_other _ _ hm]
  · rw [State.die_modDie_other _ _ hd]

theorem State.nack_isFenced (s : State) (q : NetPkt) (e k u : Nat) :
    ((s.nack q).die e).isFenced k u = (s.die e).isFenced k u := by
  unfold State.nack
  by_cases he : e = q.src.toNat / 256
  · rw [he, State.die_modDie_same]; rfl
  · rw [State.die_modDie_other _ _ he]

theorem State.answerLost_isFenced (s : State) (d node : Nat) (q : NetPkt) (e k u : Nat) :
    ((s.answerLost d node q).die e).isFenced k u = (s.die e).isFenced k u := by
  unfold State.answerLost
  split
  · exact State.nack_isFenced ..
  · split
    · exact State.endTxn_isFenced ..
    · rfl

theorem State.answerLost_state (s : State) (d node : Nat) (q : NetPkt) :
    (s.answerLost d node q).psi.state = s.psi.state := by
  unfold State.answerLost
  split
  · rfl
  · split
    · exact State.endTxn_state ..
    · rfl

/-- D0 is cut off from its host port or die controller: hub port 28 or 29 is fenced in every region. -/
theorem State.d0Cut_iff (s : State) : s.d0Cut = true ↔
    ∃ n, (n = 28 ∨ n = 29) ∧ ∀ r, r < 8 → (s.die 0).isFenced 9 (32 * r + n) = true := by
  simp only [State.d0Cut, List.any_eq_true, List.all_eq_true, List.mem_range, List.mem_cons, List.not_mem_nil, or_false]

/-! ### The commands of O33 -/

/-- The interface a packet was taken from, and what follows. -/
def State.takeFirst (s : State) (d node : Nat) (rest : List NetPkt) : State :=
  s.modDie d fun x => x.modIface node fun f => { f with inbox := rest }

theorem State.takeFirst_iface (s : State) (d node : Nat) (rest : List NetPkt) :
    ((s.takeFirst d node rest).die d).iface node = { (s.die d).iface node with inbox := rest } := by
  rw [State.takeFirst, State.die_modDie_same, Die.iface_modIface_same]

theorem State.takeFirst_isFenced (s : State) (d node : Nat) (rest : List NetPkt) (e k u : Nat) :
    ((s.takeFirst d node rest).die e).isFenced k u = (s.die e).isFenced k u := by
  unfold State.takeFirst
  by_cases he : e = d
  · rw [he, State.die_modDie_same]; rfl
  · rw [State.die_modDie_other _ _ he]

theorem State.takeFirst_errIn (s : State) (d node : Nat) (rest : List NetPkt) (key win : Nat) :
    ((s.takeFirst d node rest).die d).errIn key win = (s.die d).errIn key win := by
  rw [State.takeFirst, State.die_modDie_same]; rfl

theorem doPacketDeliver_clean {s : State} {d node : Nat} {k : NetPkt} {rest : List NetPkt}
    (hi : ((s.die d).iface node).inbox = k :: rest) :
    doPacketDeliver d node 0 s = (s.takeFirst d node rest).delivered d node k := by
  simp [doPacketDeliver, hi, State.takeFirst]

theorem doPacketDeliver_uncorrectable {s : State} {d node : Nat} {k : NetPkt} {rest : List NetPkt}
    (hi : ((s.die d).iface node).inbox = k :: rest) :
    doPacketDeliver d node 2 s = (s.takeFirst d node rest).undelivered d node k := by
  simp [doPacketDeliver, hi, State.takeFirst]

theorem packetDeliver_request_lost {s : State} {d node : Nat} {k : NetPkt} {rest : List NetPkt}
    (hi : ((s.die d).iface node).inbox = k :: rest) (hk : k.vc = 0)
    (hcut : s.d0Cut = false) (hd : d ≠ 0 ∨ (node % 32 ≠ 28 ∧ node % 32 ≠ 29)) :
    doPacketDeliver d node 2 s = ((s.takeFirst d node rest).eccCounted d node).nack k := by
  have ha : ((s.takeFirst d node rest).eccCounted d node).answerLost d node k =
      ((s.takeFirst d node rest).eccCounted d node).nack k := if_pos hk
  have notCut : (((s.takeFirst d node rest).eccCounted d node).nack k).d0Cut ≠ true := by
    intro h
    obtain ⟨n, hn28, hall⟩ := (State.d0Cut_iff _).mp h
    refine absurd ((State.d0Cut_iff s).mpr ⟨n, hn28, fun r hr => ?_⟩) (by simp [hcut])
    have hf := hall r hr
    rw [State.nack_isFenced, State.eccCounted_isFenced, State.takeFirst_isFenced] at hf
    obtain hf | ⟨-, h0, hnode⟩ := hf
    · exact hf
    · omega
  rw [doPacketDeliver_uncorrectable hi, State.undelivered_eq, ha, if_neg notCut]

/-- The fourth uncorrectable packet at D0's last hub port of a kind cuts D0 off, which is fatal. -/
theorem packetDeliver_cuts_d0 {s : State} {node : Nat} (hr : s.running = true)
    (hi : ((s.die 0).iface node).inbox ≠ []) (herr : 3 ≤ (s.die 0).errIn (unitKey 73 node) nclkHour)
    (hall : ∀ r, r < 8 → 32 * r + 29 ≠ node → (s.die 0).isFenced 9 (32 * r + 29) = true) :
    (doPacketDeliver 0 node 2 s).psi.state = .fatal ∧ (doPacketDeliver 0 node 2 s).psi.cause = 5 := by
  obtain ⟨k, rest, hk⟩ := List.exists_cons_of_ne_nil hi
  let u := ((s.takeFirst 0 node rest).eccCounted 0 node).answerLost 0 node k
  have cut : u.d0Cut = true := by
    refine (State.d0Cut_iff _).mpr ⟨29, .inr rfl, fun r hr => ?_⟩
    rw [State.answerLost_isFenced, State.eccCounted_isFenced, State.takeFirst_isFenced, State.takeFirst_errIn,
      Nat.mul_zero, Nat.zero_add]
    by_cases hnode : 32 * r + 29 = node
    · exact .inr ⟨Nat.succ_le_succ herr, rfl, hnode⟩
    · exact .inl (hall r hr hnode)
  have hne : u.psi.state ≠ .fatal := by
    rw [State.answerLost_state, State.eccCounted_state]
    exact fun h => by simp [State.takeFirst, s.running_iff.mp hr] at h
  have he : doPacketDeliver 0 node 2 s = u.fatal 5 := by
    rw [doPacketDeliver_uncorrectable hk, State.undelivered_eq]
    exact if_pos cut
  rw [he, State.fatal_eq hne]
  exact ⟨rfl, rfl⟩

/-- Settles O33: transactions are written by `State.inject` and `State.endTxn` alone, deliveries by `State.delivered`; an
uncorrectable packet ends in a NACK, or, where it cuts D0 off, in the fatal state. -/
theorem transactionsOpenAndClose : Obligations.TransactionsOpenAndClose := by
  refine ⟨?enters, ?delivered, ?lost, ?cut, ?timeout⟩
  case enters =>
    intro s d rt k hs hrt hup hrec hinj hk
    refine ⟨fun hh hro hg => ?_, fun hh => ?_⟩
    · exact ⟨_, exec_routerForward hs hrt hup (.inr hinj) (.inl ⟨hro, hg⟩), doRouterForward_opens hrec hh hk⟩
    · refine ⟨_, exec_routerForward hs hrt hup (.inr hinj) (.inr ⟨hrec, hh⟩), ?_⟩
      dsimp only
      rw [doRouterForward_noRoute hrec hh hk, State.inject_iface _ _ hk]
      exact ⟨tfind_tdel_same .., rfl⟩
  case delivered =>
    intro s d node k rest hn he hs hi
    refine ⟨_, exec_packetDeliver hs hn he (by decide) (by simp [hi]), ?_⟩
    dsimp only
    rw [doPacketDeliver_clean hi]
    exact State.delivered_facts _ d node k (s.takeFirst_iface d node rest) rfl
  case lost =>
    intro s d node k rest hn he hs hi hk hsrc hcut hd
    refine ⟨_, exec_packetDeliver hs hn he (by decide) (by simp [hi]), ?_⟩
    dsimp only
    rw [packetDeliver_request_lost hi hk hcut hd, State.nack_iface_other _ hsrc, State.eccCounted_iface,
      State.takeFirst_iface]
    exact ⟨rfl, rfl, State.nack_inbox ..⟩
  case cut =>
    intro s node hn he hs hi _ herr hall
    refine ⟨_, exec_packetDeliver hs hn (by simpa using he) (by decide) hi, ?_⟩
    exact packetDeliver_cuts_d0 ((s.live_iff 0).mp hs).1 hi herr hall
  case timeout =>
    intro s d node txn hn he hs ht
    refine ⟨_, exec_txnTimeout hs hn he ht, ?_⟩
    have hi : (((s.modDie d fun x => x.count niTimeouts (256 * d + node) 1).die d).iface node) = (s.die d).iface node := by
      rw [State.die_modDie_same, Die.count_iface]
    dsimp only
    rw [State.endTxn_iface (by rw [hi]; exact ht), hi]
    exact ⟨tfind_tdel_same .., rfl, fun m hm => (tfind_tdel ..).trans (if_neg hm)⟩

end Sys2Proof.Machine

namespace Sys2Proof.Machine

/-! ## The blocks of a region (R443) -/

theorem unitKey_inj_of_lt {k j u v : Nat} (hu : u < 65536) (hv : v < 65536) (h : unitKey k u = unitKey j v) : k = j ∧ u = v := by
  unfold unitKey at h
  omega

theorem mem_regionBlocks {r : Nat} (hr : r < 8) {u : Nat × Nat} (h : u ∈ regionBlocks r) :
    u.2 < 65536 ∧ u.1 ≠ 2 ∧ u.1 ≠ 9 ∧ u.1 ≠ 11 := by
  simp only [regionBlocks, List.mem_append, List.mem_map, List.mem_range, List.mem_singleton] at h
  obtain (((((((⟨i, hi, rfl⟩ | ⟨i, hi, rfl⟩) | ⟨i, hi, rfl⟩) | ⟨i, hi, rfl⟩) | ⟨i, hi, rfl⟩) | ⟨i, hi, rfl⟩) | rfl) |
    ⟨i, hi, rfl⟩) := h <;> exact ⟨by dsimp only; omega, nofun, nofun, nofun⟩

theorem mem_innerBlocks {d r : Nat} (hd : d < 8) (hr : r < 8) {v : (Nat × Nat) × Nat} (h : v ∈ innerBlocks d r) :
    v.1.2 < 65536 ∧ (v.1.1 = 2 ∨ v.1.1 = 9 ∨ v.1.1 = 11) := by
  simp only [innerBlocks, List.mem_append, List.mem_map, List.mem_range] at h
  obtain ((⟨i, hi, rfl⟩ | ⟨i, hi, rfl⟩) | ⟨i, hi, rfl⟩) := h <;>
    exact ⟨by dsimp only; omega, by simp⟩

theorem State.dieCount_le (s : State) : s.dieCount ≤ 8 := by
  unfold State.dieCount
  cases s.part.variant <;> decide

/-- Two blocks of a region have different keys. -/
theorem regionBlocks_unitKey_inj {r : Nat} (hr : r < 8) {u v : Nat × Nat} (hu : u ∈ regionBlocks r) (hv : v ∈ regionBlocks r)
    (h : unitKey v.1 v.2 = unitKey u.1 u.2) : v = u := by
  obtain ⟨h1, h2⟩ := unitKey_inj_of_lt (mem_regionBlocks hr hv).1 (mem_regionBlocks hr hu).1 h
  exact Prod.ext h1 h2

/-- A block of a region has another key than one without a bit of its own. -/
theorem innerBlocks_unitKey_ne {d r : Nat} (hd : d < 8) (hr : r < 8) {u : Nat × Nat} {v : (Nat × Nat) × Nat}
    (hu : u ∈ regionBlocks r) (hv : v ∈ innerBlocks d r) : unitKey u.1 u.2 ≠ unitKey v.1.1 v.1.2 := by
  intro h
  obtain ⟨hu2, h2, h9, h11⟩ := mem_regionBlocks hr hu
  obtain ⟨hv2, hk⟩ := mem_innerBlocks hd hr hv
  obtain ⟨hk', -⟩ := unitKey_inj_of_lt hu2 hv2 h
  omega

/-! ## The blocks rejoin (R318) -/

/-- Of dies, queues and sequences, `t` differs from `s` in the fences of die `d` only. -/
def FencesOnly (d : Nat) (s t : State) : Prop :=
  OtherDies s t d ∧ t.queues = s.queues ∧ t.seqs = s.seqs ∧ ∃ f, t.die d = { s.die d with fenced := f }

theorem FencesOnly.refl (d : Nat) (s : State) : FencesOnly d s s := ⟨fun _ _ => rfl, rfl, rfl, _, rfl⟩

theorem FencesOnly.trans {d : Nat} {s t u : State} (h : FencesOnly d s t) (g : FencesOnly d t u) : FencesOnly d s u := by
  obtain ⟨ho, hq, hs, f, hd⟩ := h
  obtain ⟨go, gq, gs, f', gd⟩ := g
  exact ⟨fun e he => (go e he).trans (ho e he), gq.trans hq, gs.trans hs, f', by rw [gd, hd]⟩

theorem FencesOnly.modDie (d : Nat) (s : State) (g : Die → Tbl Nat) :
    FencesOnly d s (s.modDie d fun x => { x with fenced := g x }) :=
  ⟨fun _ he => State.die_modDie_other _ _ he, rfl, rfl, _, State.die_modDie_same ..⟩

theorem FencesOnly.foldl {α : Type} {d : Nat} {g : State → α → State} (h : ∀ s a, FencesOnly d s (g s a)) (l : List α)
    (s : State) :
    FencesOnly d s (l.foldl g s) :=
  List.foldlRecOn l g (FencesOnly.refl d s) fun t ht a _ => ht.trans (h t a)

theorem FencesOnly.region {d : Nat} {s t : State} (h : FencesOnly d s t) (r : Nat) : (t.die d).region r = (s.die d).region r := by
  obtain ⟨-, -, -, f, hd⟩ := h
  rw [hd]; rfl

theorem State.rejoin_fencesOnly (s : State) (d r pass : Nat) (u : Nat × Nat) : FencesOnly d s (s.rejoin d r pass u) := by
  unfold State.rejoin
  dsimp only
  split_ifs
  · exact FencesOnly.refl d s
  · exact FencesOnly.modDie d s _
  · exact FencesOnly.refl d s
  · exact FencesOnly.modDie d s _

theorem State.rejoinInner_fencesOnly (s : State) (d r pass : Nat) (u : (Nat × Nat) × Nat) :
    FencesOnly d s (s.rejoinInner d r pass u) := by
  unfold State.rejoinInner
  dsimp only
  split
  · exact FencesOnly.modDie d s _
  · exact FencesOnly.refl d s

theorem thas_tdel_other {α : Type} (t : Tbl α) {k j : Nat} (h : j ≠ k) : thas (tdel t k) j = thas t j := by
  simp [thas, tfind_tdel, h]

/-- A block not fenced before the isolation is fenced exactly when its test fails. -/
theorem State.rejoin_isFenced (s : State) (d r pass : Nat) (u : Nat × Nat)
    (hb : ((s.die d).region r).fencedBefore.contains (unitKey u.1 u.2) = false) :
    ((s.rejoin d r pass u).die d).isFenced u.1 u.2 = !(bitAt (pass / blockBit r u.1 u.2) 0) := by
  cases hp : bitAt (pass / blockBit r u.1 u.2) 0 <;> simp only [State.rejoin, hb, hp] <;> simp [Die.isFenced]

theorem State.rejoin_isFenced_other (s : State) (d r pass : Nat) (u : Nat × Nat) {k v : Nat} (h : unitKey k v ≠ unitKey u.1 u.2) :
    ((s.rejoin d r pass u).die d).isFenced k v = (s.die d).isFenced k v := by
  unfold State.rejoin
  dsimp only
  split_ifs
  · rfl
  · simp [Die.isFenced, thas_tdel_other _ h]
  · rfl
  · simp [Die.isFenced, thas_tput_other _ _ h]

theorem State.rejoinInner_isFenced_other (s : State) (d r pass : Nat) (u : (Nat × Nat) × Nat) {k v : Nat}
    (h : unitKey k v ≠ unitKey u.1.1 u.1.2) : ((s.rejoinInner d r pass u).die d).isFenced k v = (s.die d).isFenced k v := by
  unfold State.rejoinInner
  dsimp only
  split
  · simp [Die.isFenced, thas_tdel_other _ h]
  · rfl

/-- After the blocks of a list have rejoined, one of them is fenced exactly when its test failed. -/
theorem State.foldl_rejoin_isFenced (d r pass : Nat) {u : Nat × Nat} {l : List (Nat × Nat)}
    (inj : ∀ v ∈ l, unitKey v.1 v.2 = unitKey u.1 u.2 → v = u) (s : State)
    (hb : ((s.die d).region r).fencedBefore.contains (unitKey u.1 u.2) = false) :
    ((l.foldl (fun s u => s.rejoin d r pass u) s).die d).isFenced u.1 u.2 =
      if u ∈ l then !(bitAt (pass / blockBit r u.1 u.2) 0) else (s.die d).isFenced u.1 u.2 := by
  induction l generalizing s with
  | nil => rfl
  | cons v l ih =>
    have hb' : (((s.rejoin d r pass v).die d).region r).fencedBefore.contains (unitKey u.1 u.2) = false := by
      rwa [(s.rejoin_fencesOnly d r pass v).region]
    rw [List.foldl_cons, ih (fun w hw => inj w (List.mem_cons_of_mem v hw)) _ hb']
    by_cases huv : u = v
    · subst huv
      simp [State.rejoin_isFenced s d r pass u hb]
    · have hk : unitKey u.1 u.2 ≠ unitKey v.1 v.2 := fun h => huv (inj v List.mem_cons_self h.symm).symm
      simp [huv, State.rejoin_isFenced_other s d r pass v hk]

/-- All blocks of a region re-run their self-test. -/
def State.rejoinAll (s : State) (d r pass : Nat) : State :=
  (innerBlocks d r).foldl (fun s u => s.rejoinInner d r pass u) ((regionBlocks r).foldl (fun s u => s.rejoin d r pass u) s)

theorem State.rejoinAll_fencesOnly (s : State) (d r pass : Nat) : FencesOnly d s (s.rejoinAll d r pass) :=
  (FencesOnly.foldl (fun s u => s.rejoin_fencesOnly d r pass u) _ s).trans
    (FencesOnly.foldl (fun s u => s.rejoinInner_fencesOnly d r pass u) _ _)

theorem State.rejoinAll_isFenced (s : State) {d r : Nat} (pass : Nat) (hd : d < 8) (hr : r < 8) {u : Nat × Nat}
    (hu : u ∈ regionBlocks r) (hb : ((s.die d).region r).fencedBefore.contains (unitKey u.1 u.2) = false) :
    ((s.rejoinAll d r pass).die d).isFenced u.1 u.2 = !(bitAt (pass / blockBit r u.1 u.2) 0) := by
  have blocks := State.foldl_rejoin_isFenced d r pass (fun v hv => regionBlocks_unitKey_inj hr hu hv) s hb
  rw [if_pos hu] at blocks
  exact List.foldlRecOn (motive := fun t => (t.die d).isFenced u.1 u.2 = _) _ _ blocks fun t ht v hv =>
    (State.rejoinInner_isFenced_other t d r pass v (innerBlocks_unitKey_ne hd hr hu hv)).trans ht

/-! ## A region's reset (R21) -/

/-- `y` differs from `x` in its sheets, their copies and the memory only. -/
def SheetsOnly (x y : Die) : Prop := ∃ ream copies dram, y = { x with ream := ream, copies := copies, dram := dram }

theorem SheetsOnly.refl (x : Die) : SheetsOnly x x := ⟨_, _, _, rfl⟩

theorem SheetsOnly.trans {x y z : Die} (h : SheetsOnly x y) (g : SheetsOnly y z) : SheetsOnly x z := by
  obtain ⟨a, b, c, rfl⟩ := h
  obtain ⟨a', b', c', rfl⟩ := g
  exact ⟨a', b', c', rfl⟩

theorem SheetsOnly.foldl {α : Type} {g : Die → α → Die} (h : ∀ x a, SheetsOnly x (g x a)) (l : List α) (x : Die) :
    SheetsOnly x (l.foldl g x) :=
  List.foldlRecOn l g (SheetsOnly.refl x) fun y hy a _ => hy.trans (h y a)

theorem SheetsOnly.region {x y : Die} (h : SheetsOnly x y) (r : Nat) : y.region r = x.region r := by
  obtain ⟨_, _, _, rfl⟩ := h
  rfl

theorem Die.cancelCopy_sheetsOnly (x : Die) (h : Nat) : SheetsOnly x (x.cancelCopy h) := by
  unfold Die.cancelCopy
  split
  · exact SheetsOnly.refl x
  · exact ⟨_, _, _, rfl⟩

theorem Die.cancelCopy_dram (x : Die) (h : Nat) : (x.cancelCopy h).dram = x.dram := by
  unfold Die.cancelCopy
  split <;> rfl

theorem Die.cancelCopy_entry_other (x : Die) {h g : Nat} (hg : g ≠ h) : (x.cancelCopy h).entry g = x.entry g := by
  unfold Die.cancelCopy
  split
  · rfl
  · exact Die.entry_setEntry_other x _ hg

theorem Die.cancelDst_sheetsOnly (x : Die) (c : Nat) : SheetsOnly x (x.cancelDst c) :=
  SheetsOnly.foldl (fun x (k : Copy) => x.cancelCopy_sheetsOnly k.handle) _ x

theorem Die.cancelDst_dram (x : Die) (c : Nat) : (x.cancelDst c).dram = x.dram :=
  List.foldlRecOn (motive := fun y => Die.dram y = x.dram) _ _ rfl fun y hy k _ => (y.cancelCopy_dram k.handle).trans hy

/-- The contents of a channel are lost; the copies to it are cancelled. -/
def Die.wipeChan (x : Die) (c : Nat) : Die := { (x.cancelDst c) with dram := mclear x.dram (frameAddr c 0) (frameAddr (c + 1) 0) }

/-- The sheets `hs` become `st`; their copies are cancelled. -/
def Die.sheetsGone (x : Die) (hs : List Nat) (st : SheetState) : Die :=
  hs.foldl (fun y h => (y.cancelCopy h).setEntry h { (y.cancelCopy h).entry h with st := st }) x

/-- The sheets that a reset of region `r` loses. -/
def Die.sheetsOf (x : Die) (r : Nat) : List Nat :=
  (x.ream.filter fun e => chanRegion e.2.loc.code == r && (e.2.st == .tail || e.2.st == .full || e.2.st == .moving)).map (·.1)

theorem Die.wipeChan_sheetsOnly (x : Die) (c : Nat) : SheetsOnly x (x.wipeChan c) :=
  (x.cancelDst_sheetsOnly c).trans ⟨_, _, _, rfl⟩

theorem Die.wipeChan_dram (x : Die) (c : Nat) : (x.wipeChan c).dram = mclear x.dram (frameAddr c 0) (frameAddr (c + 1) 0) := rfl

theorem mem_of_tfind {α : Type} {t : Tbl α} {k : Nat} {v : α} (h : tfind t k = some v) : (k, v) ∈ t := by
  induction t with
  | nil => simp at h
  | cons e t ih =>
    rw [tfind] at h
    split at h
    next hk => cases h; simp [← hk]
    next => exact List.mem_cons_of_mem _ (ih h)

/-- An address that memory does not list reads as 0. -/
theorem mread_of_unlisted {m : Memory} {a : Nat} (h : ∀ e ∈ m, e.1 ≠ a) : mread m a = 0 := by
  have hn : tfind m a = none := Option.eq_none_iff_forall_ne_some.mpr fun v hv => h _ (mem_of_tfind hv) rfl
  rw [mread, tget, hn]; rfl

theorem mem_mclear {m : Memory} {lo hi : Nat} {e : Nat × Byte} (h : e ∈ mclear m lo hi) : e ∈ m ∧ ¬ (lo ≤ e.1 ∧ e.1 < hi) := by
  simpa [mclear, imp_iff_not_or] using h

/-- A channel wiped among others holds nothing afterwards. -/
theorem Die.foldl_wipeChan_cell {l : List Nat} {x : Die} {c : Nat} {e : Nat × Byte} (he : e ∈ (l.foldl Die.wipeChan x).dram) :
    e ∈ x.dram ∧ (c ∈ l → ¬ (frameAddr c 0 ≤ e.1 ∧ e.1 < frameAddr (c + 1) 0)) := by
  induction l generalizing x with
  | nil => exact ⟨he, by simp⟩
  | cons b l ih =>
    obtain ⟨hx, hl⟩ := ih he
    obtain ⟨hm, hb⟩ := mem_mclear hx
    refine ⟨hm, fun hc => ?_⟩
    obtain rfl | hc := List.mem_cons.mp hc
    · exact hb
    · exact hl hc

theorem Die.foldl_wipeChan_mread (x : Die) {l : List Nat} {c p : Nat} (hc : c ∈ l) (hlo : frameAddr c 0 ≤ p)
    (hhi : p < frameAddr (c + 1) 0) : mread (l.foldl Die.wipeChan x).dram p = 0 := by
  refine mread_of_unlisted fun e he hp => ?_
  exact (Die.foldl_wipeChan_cell he).2 hc (by rw [hp]; exact ⟨hlo, hhi⟩)

theorem Die.sheetsGone_sheetsOnly (x : Die) (hs : List Nat) (st : SheetState) : SheetsOnly x (x.sheetsGone hs st) :=
  SheetsOnly.foldl (fun y h => (y.cancelCopy_sheetsOnly h).trans ⟨_, _, _, rfl⟩) hs x

theorem Die.sheetsGone_dram (x : Die) (hs : List Nat) (st : SheetState) : (x.sheetsGone hs st).dram = x.dram :=
  List.foldlRecOn (motive := fun y => Die.dram y = x.dram) _ _ rfl fun y hy h _ => (y.cancelCopy_dram h).trans hy

theorem Die.sheetsGone_entry (x : Die) (hs : List Nat) (st : SheetState) (h : Nat) :
    ((x.sheetsGone hs st).entry h).st = if h ∈ hs then st else (x.entry h).st := by
  induction hs generalizing x with
  | nil => rfl
  | cons g l ih =>
    refine (ih _).trans ?_
    by_cases hg : h = g
    · subst hg
      simp
    · simp [hg, Die.entry_setEntry_other _ _ hg, Die.cancelCopy_entry_other _ hg]

/-- The sheets on a region's channels, TAIL or FULL, are among those its reset loses. -/
theorem Die.mem_sheetsOf {x : Die} {r h : Nat} {e : Ream} (hf : tfind x.ream h = some e) (hr : chanRegion e.loc.code = r)
    (hst : e.st = .tail ∨ e.st = .full) : h ∈ x.sheetsOf r := by
  refine List.mem_map.mpr ⟨(h, e), List.mem_filter.mpr ⟨mem_of_tfind hf, ?_⟩, rfl⟩
  obtain hst | hst := hst <;> simp [hr, hst]

/-! ### Of the state -/

theorem State.emit_frame (s : State) (e : Event) :
    (s.emit e).part = s.part ∧ (s.emit e).dies = s.dies ∧ (s.emit e).queues = s.queues ∧ (s.emit e).seqs = s.seqs := by
  unfold State.emit
  split <;> exact ⟨rfl, rfl, rfl, rfl⟩

theorem State.emit_die (s : State) (e : Event) (d : Nat) : (s.emit e).die d = s.die d := by
  obtain ⟨hp, hd, -, -⟩ := s.emit_frame e
  rw [State.die, hd, hp, State.die]

/-- An event raised for a die waits, with the die's time. -/
theorem State.mem_raised_emit (s : State) {e : Event} (h : e.die < 8) :
    { e with time := (s.die e.die).led.cycN.toNat } ∈ (s.emit e).raised := by
  simp [State.emit, h]

theorem State.modSeq_frame (s : State) (n : Nat) (f : Sequence → Sequence) :
    (s.modSeq n f).part = s.part ∧ (s.modSeq n f).dies = s.dies ∧ (s.modSeq n f).queues = s.queues := by
  unfold State.modSeq
  split <;> exact ⟨rfl, rfl, rfl⟩

theorem State.loseSeq_frame (s : State) (byIdle : Bool) (n : Nat) :
    (s.loseSeq byIdle n).part = s.part ∧ (s.loseSeq byIdle n).dies = s.dies ∧ (s.loseSeq byIdle n).queues = s.queues := by
  unfold State.loseSeq
  split
  · exact ⟨rfl, rfl, rfl⟩
  next q _ =>
    dsimp only
    have hm := s.modSeq_frame n fun q => { q with st := .lost, lostTold := true }
    split_ifs
    · exact ⟨rfl, rfl, rfl⟩
    · exact hm
    · obtain ⟨mp, md, mq⟩ := hm
      obtain ⟨ep, ed, eq, -⟩ := State.emit_frame (s.modSeq n fun q => { q with st := .lost, lostTold := true })
        (s.seqLostEvent n q)
      exact ⟨ep.trans mp, ed.trans md, eq.trans mq⟩

/-- Sheets that go leave their die as `Die.sheetsGone` says, and the other dies and the queues as they are. -/
theorem State.markGone_frame (s : State) (d : Nat) (hs : List Nat) (st : SheetState) (byIdle : Bool) :
    OtherDies s (s.markGone d hs st byIdle) d ∧ (s.markGone d hs st byIdle).queues = s.queues ∧
      (s.markGone d hs st byIdle).die d = (s.die d).sheetsGone hs st := by
  have frame : (s.markGone d hs st byIdle).part = s.part ∧
      (s.markGone d hs st byIdle).dies = (s.setDie d ((s.die d).sheetsGone hs st)).dies ∧
      (s.markGone d hs st byIdle).queues = s.queues := by
    unfold State.markGone
    refine List.foldlRecOn (motive := fun t => State.part t = s.part ∧ State.dies t = _ ∧ State.queues t = s.queues) _ _
      ⟨rfl, rfl, rfl⟩ fun t ⟨hp, hd, hq⟩ n _ => ?_
    obtain ⟨lp, ld, lq⟩ := t.loseSeq_frame byIdle n
    exact ⟨lp.trans hp, ld.trans hd, lq.trans hq⟩
  obtain ⟨hp, hd, hq⟩ := frame
  have die (e : Nat) : (s.markGone d hs st byIdle).die e = (s.setDie d ((s.die d).sheetsGone hs st)).die e := by
    rw [State.die, hd, hp, State.die]; rfl
  refine ⟨fun e he => ?_, hq, ?_⟩
  · rw [die, State.die_setDie_other _ _ he]
  · rw [die, State.die_setDie_same]

theorem State.regionReset_eq (s : State) (d r : Nat) : s.regionReset d r =
    (s.modDie d fun x => (regionChans r).foldl Die.wipeChan x).markGone d ((s.die d).sheetsOf r) .lost false := rfl

/-- A region's reset: its channels hold nothing, its sheets are LOST; of the dies and queues nothing else changes. -/
theorem State.regionReset_frame (s : State) (d r : Nat) :
    OtherDies s (s.regionReset d r) d ∧ (s.regionReset d r).queues = s.queues ∧
      (s.regionReset d r).die d = ((regionChans r).foldl Die.wipeChan (s.die d)).sheetsGone ((s.die d).sheetsOf r) .lost := by
  rw [State.regionReset_eq]
  obtain ⟨ho, hq, hd⟩ := State.markGone_frame (s.modDie d fun x => (regionChans r).foldl Die.wipeChan x) d
    ((s.die d).sheetsOf r) .lost false
  rw [State.die_modDie_same] at hd
  exact ⟨fun e he => (ho e he).trans (State.die_modDie_other _ _ he), hq, hd⟩

/-! ## REGION_RETURN (R26, R318, R443) -/

/-- The state a region returns in: as it was, or after the reset that recovers a controller. -/
def State.recovered (s : State) (d r pass : Nat) : State := if (s.die d).recovers r pass then s.regionReset d r else s

theorem State.recovered_frame (s : State) (d r pass : Nat) :
    OtherDies s (s.recovered d r pass) d ∧ (s.recovered d r pass).queues = s.queues ∧
      ((s.recovered d r pass).die d).region r = (s.die d).region r := by
  unfold State.recovered
  split
  · obtain ⟨ho, hq, hd⟩ := s.regionReset_frame d r
    have wiped : SheetsOnly (s.die d) ((regionChans r).foldl Die.wipeChan (s.die d)) := SheetsOnly.foldl Die.wipeChan_sheetsOnly _ _
    refine ⟨ho, hq, ?_⟩
    rw [hd, (Die.sheetsGone_sheetsOnly ..).region, wiped.region]
  · exact ⟨fun _ _ => rfl, rfl, rfl⟩

/-- The region is isolated no more. -/
def Die.unisolate (x : Die) (r : Nat) : Die := x.modRegion r fun g => { g with isolated := false, fencedBefore := [] }

theorem Die.unisolate_isolated (x : Die) (r : Nat) (felts : Tbl Felt) :
    (({ x.unisolate r with felts := felts } : Die).region r).isolated = false := by
  have h : ({ x.unisolate r with felts := felts } : Die).region r = (x.unisolate r).region r := rfl
  rw [h, Die.unisolate, Die.region_modRegion_same]

theorem Die.unisolate_isFenced (x : Die) (r : Nat) (felts : Tbl Felt) (k u : Nat) :
    ({ x.unisolate r with felts := felts } : Die).isFenced k u = x.isFenced k u := rfl

/-- REGION_RETURNED of a region (R443). -/
def State.returnedEvent (s : State) (d r : Nat) : Event :=
  { Event.blank 0x0005 2 2 .ok with die := d, region := r, unitKind := 0x0E, unit := r, arg1 := (s.die d).fencedMask r }

/-- The state of a region's return before its Felt link is looked at. -/
def State.returned (s : State) (d r : Nat) : State :=
  (s.modDie d (·.unisolate r)).emit ((s.modDie d (·.unisolate r)).returnedEvent d r)

/-- The Felt link of a region that returned trains again, if it is enabled (R318). -/
def State.relink (s : State) (d r : Nat) : State :=
  if (s.die d).feltEnable r && ((s.die d).felt r).st == .down && !((s.die d).isFenced 10 r) then s.linkDetect d r false else s

theorem doRegionReturn_eq (d r pass : Nat) (s : State) :
    doRegionReturn d r pass s = (((s.recovered d r pass).rejoinAll d r pass).returned d r).relink d r := rfl

theorem State.returned_frame (s : State) (d r : Nat) :
    OtherDies s (s.returned d r) d ∧ (s.returned d r).queues = s.queues ∧ (s.returned d r).seqs = s.seqs ∧
      (s.returned d r).die d = (s.die d).unisolate r := by
  obtain ⟨-, -, hq, hs⟩ := State.emit_frame (s.modDie d (·.unisolate r)) ((s.modDie d (·.unisolate r)).returnedEvent d r)
  exact ⟨fun e he => (State.emit_die ..).trans (State.die_modDie_other _ _ he), hq, hs,
    (State.emit_die ..).trans (State.die_modDie_same ..)⟩

theorem State.returned_raised (s : State) {d : Nat} (hd : d < 8) (r : Nat) :
    ∃ e, e ∈ (s.returned d r).raised ∧ e.code = 0x0005 ∧ e.die = d ∧ e.region = r :=
  ⟨_, State.mem_raised_emit _ hd, rfl, rfl, rfl⟩

theorem State.relink_frame (s : State) (d r : Nat) :
    OtherDies s (s.relink d r) d ∧ (s.relink d r).queues = s.queues ∧ (s.relink d r).seqs = s.seqs ∧
      (s.relink d r).raised = s.raised ∧ ∃ felts, (s.relink d r).die d = { s.die d with felts := felts } := by
  unfold State.relink
  split
  · have hl : s.linkDetect d r false = s.modDie d fun x => x.modFelt r Felt.goDetect := rfl
    rw [hl]
    exact ⟨fun e he => State.die_modDie_other _ _ he, rfl, rfl, rfl, _, State.die_modDie_same ..⟩
  · exact ⟨fun _ _ => rfl, rfl, rfl, rfl, _, rfl⟩

/-- The last steps of a region's return write its isolation and its Felt link, and raise the event. -/
theorem doRegionReturn_frame (d r pass : Nat) (s : State) {u : State} (hu : (s.recovered d r pass).rejoinAll d r pass = u) :
    OtherDies u (doRegionReturn d r pass s) d ∧ (doRegionReturn d r pass s).queues = u.queues ∧
      (doRegionReturn d r pass s).seqs = u.seqs ∧ (doRegionReturn d r pass s).raised = (u.returned d r).raised ∧
      ∃ felts, (doRegionReturn d r pass s).die d = { (u.die d).unisolate r with felts := felts } := by
  rw [doRegionReturn_eq, hu]
  obtain ⟨ho, hq, hs, hd⟩ := u.returned_frame d r
  obtain ⟨lo, lq, ls, lr, felts, ld⟩ := (u.returned d r).relink_frame d r
  exact ⟨fun e he => (lo e he).trans (ho e he), lq.trans hq, ls.trans hs, lr, felts, by rw [ld, hd]⟩

theorem exec_regionReturn {s : State} {a : RAt} (pass : BitVec 64) (hs : s.live a.die = true) (hr : a.region < 8)
    (hi : ((s.die a.die).region a.region).isolated = true) :
    exec (.regionReturn a pass) s = .next (doRegionReturn a.die a.region pass.toNat s) := by
  have hd := ((s.live_iff a.die).mp hs).2.1
  exact event_next (by simp [hd, hr]) (by simp [hs, hi])

/-- Of the die, a region's return leaves the memory and the sheets as the recovery left them. -/
theorem doRegionReturn_memory (d r pass : Nat) (s : State) :
    ((doRegionReturn d r pass s).die d).dram = ((s.recovered d r pass).die d).dram ∧
      ((doRegionReturn d r pass s).die d).ream = ((s.recovered d r pass).die d).ream := by
  obtain ⟨-, -, -, -, felts, hd⟩ := doRegionReturn_frame d r pass s rfl
  obtain ⟨-, -, -, fences, hf⟩ := (s.recovered d r pass).rejoinAll_fencesOnly d r pass
  rw [hd, hf]
  generalize (s.recovered d r pass).die d = x
  exact ⟨rfl, rfl⟩

/-- What a recovered region has lost. -/
theorem doRegionReturn_recovers {d r pass : Nat} {s : State} (h : (s.die d).recovers r pass = true) :
    (∀ c, c ∈ regionChans r → ∀ p, frameAddr c 0 ≤ p → p < frameAddr (c + 1) 0 →
      mread ((doRegionReturn d r pass s).die d).dram p = 0) ∧
    ∀ g e, tfind (s.die d).ream g = some e → chanRegion e.loc.code = r → (e.st = .tail ∨ e.st = .full) →
      (((doRegionReturn d r pass s).die d).entry g).st = .lost := by
  obtain ⟨hdram, hream⟩ := doRegionReturn_memory d r pass s
  have hrec : s.recovered d r pass = s.regionReset d r := if_pos h
  obtain ⟨-, -, hd⟩ := s.regionReset_frame d r
  rw [hrec, hd] at hdram hream
  refine ⟨fun c hc p hlo hhi => ?_, fun g e hg hr hst => ?_⟩
  · rw [hdram, Die.sheetsGone_dram, Die.foldl_wipeChan_mread _ hc hlo hhi]
  · rw [Die.entry, hream]
    exact (Die.sheetsGone_entry ..).trans (if_pos (Die.mem_sheetsOf hg hr hst))

/-- A block that was not fenced before the isolation is fenced after it exactly when its test failed. -/
theorem doRegionReturn_isFenced {d r : Nat} (pass : Nat) {s : State} (hd8 : d < 8) (hr : r < 8) {u : Nat × Nat}
    (hu : u ∈ regionBlocks r) (hb : ((s.die d).region r).fencedBefore.contains (unitKey u.1 u.2) = false) :
    ((doRegionReturn d r pass s).die d).isFenced u.1 u.2 = !(bitAt (pass / blockBit r u.1 u.2) 0) := by
  obtain ⟨-, -, -, -, felts, hd⟩ := doRegionReturn_frame d r pass s rfl
  obtain ⟨-, -, hreg⟩ := s.recovered_frame d r pass
  rw [hd, Die.unisolate_isFenced, State.rejoinAll_isFenced _ pass hd8 hr hu (by rw [hreg]; exact hb)]

/-- Settles O31: the reset that recovers a controller wipes the channels and loses the sheets, the blocks rejoin one by one under
different keys, and the last steps write the region's isolation and its link only. -/
theorem regionReturns : Obligations.RegionReturns := by
  refine ⟨fun s a pass hs hr hi => ⟨_, exec_regionReturn pass hs hr hi, ?_⟩,
    fun s a pass hs hr hi hrec => ⟨_, exec_regionReturn pass hs hr hi, doRegionReturn_recovers hrec⟩⟩
  have hd8 : a.die < 8 := Nat.lt_of_lt_of_le ((s.live_iff a.die).mp hs).2.1 s.dieCount_le
  obtain ⟨ro, rq, -⟩ := s.recovered_frame a.die a.region pass.toNat
  obtain ⟨fo, fq, fs, -⟩ := (s.recovered a.die a.region pass.toNat).rejoinAll_fencesOnly a.die a.region pass.toNat
  obtain ⟨go, gq, gs, graised, felts, gd⟩ := doRegionReturn_frame a.die a.region pass.toNat s rfl
  refine ⟨fun e he => ?_, ?_, ?_, fun u hu hb => ?_, fun hrec => ?_, ?_⟩
  · exact (go e he).trans ((fo e he).trans (ro e he))
  · exact gq.trans (fq.trans rq)
  · rw [gd, Die.unisolate_isolated]
  · exact doRegionReturn_isFenced pass.toNat hd8 hr hu hb
  · have hsame : s.recovered a.die a.region pass.toNat = s := if_neg (by simp [hrec])
    obtain ⟨hdram, -⟩ := doRegionReturn_memory a.die a.region pass.toNat s
    rw [hsame] at hdram fs
    rw [hsame] at gs
    exact ⟨hdram, gs.trans fs⟩
  · rw [graised]
    exact State.returned_raised _ hd8 _

end Sys2Proof.Machine

namespace Sys2Proof.Machine

/-! ## What a reply leaves alone (R222, R224) -/

section
variable {s t : State}

theorem OnlyReplies.dies (h : OnlyReplies s t) : t.dies = s.dies := by rw [h]
theorem OnlyReplies.part (h : OnlyReplies s t) : t.part = s.part := by rw [h]
theorem OnlyReplies.seqs (h : OnlyReplies s t) : t.seqs = s.seqs := by rw [h]
theorem OnlyReplies.models (h : OnlyReplies s t) : t.models = s.models := by rw [h]
theorem OnlyReplies.tenants (h : OnlyReplies s t) : t.tenants = s.tenants := by rw [h]
theorem OnlyReplies.disps (h : OnlyReplies s t) : t.disps = s.disps := by rw [h]

end

@[simp] theorem State.finish_dies (s : State) (code : Nat) (p : Pkt) (st : Status) (det : Nat) (a b : List Byte) :
    (s.finish code p st det a b).dies = s.dies := (s.onlyReplies_finish ..).dies

@[simp] theorem State.finish_seqs (s : State) (code : Nat) (p : Pkt) (st : Status) (det : Nat) (a b : List Byte) :
    (s.finish code p st det a b).seqs = s.seqs := (s.onlyReplies_finish ..).seqs

@[simp] theorem State.finish_models (s : State) (code : Nat) (p : Pkt) (st : Status) (det : Nat) (a b : List Byte) :
    (s.finish code p st det a b).models = s.models := (s.onlyReplies_finish ..).models

@[simp] theorem State.ok_dies (s : State) (code : Nat) (p : Pkt) : (s.ok code p).dies = s.dies := (s.onlyReplies_ok ..).dies
@[simp] theorem State.ok_seqs (s : State) (code : Nat) (p : Pkt) : (s.ok code p).seqs = s.seqs := (s.onlyReplies_ok ..).seqs
@[simp] theorem State.ok_models (s : State) (code : Nat) (p : Pkt) : (s.ok code p).models = s.models :=
  (s.onlyReplies_ok ..).models
@[simp] theorem State.ok_tenants (s : State) (code : Nat) (p : Pkt) : (s.ok code p).tenants = s.tenants :=
  (s.onlyReplies_ok ..).tenants

theorem OnlyReplies.die {s t : State} (h : OnlyReplies s t) (d : Nat) : t.die d = s.die d := by
  rw [State.die, h.dies, h.part, State.die]

@[simp] theorem State.ok_die (s : State) (code : Nat) (p : Pkt) (d : Nat) : (s.ok code p).die d = s.die d :=
  (s.onlyReplies_ok ..).die d

/-! ## Operations that write dies only -/

/-- Nothing differs but the dies. -/
def DiesOnly (s t : State) : Prop := t = { s with dies := t.dies }

theorem DiesOnly.refl (s : State) : DiesOnly s s := rfl

theorem DiesOnly.trans {s t u : State} (h : DiesOnly s t) (g : DiesOnly t u) : DiesOnly s u := by
  unfold DiesOnly at *
  rw [g, h]

section
variable {s t : State}

theorem DiesOnly.queues (h : DiesOnly s t) : t.queues = s.queues := by rw [h]
theorem DiesOnly.part (h : DiesOnly s t) : t.part = s.part := by rw [h]
theorem DiesOnly.seqs (h : DiesOnly s t) : t.seqs = s.seqs := by rw [h]
theorem DiesOnly.models (h : DiesOnly s t) : t.models = s.models := by rw [h]
theorem DiesOnly.keyWaits (h : DiesOnly s t) : t.keyWaits = s.keyWaits := by rw [h]

end

theorem DiesOnly.modDie (s : State) (d : Nat) (f : Die → Die) : DiesOnly s (s.modDie d f) := rfl

theorem DiesOnly.foldl {α : Type} {g : State → α → State} (h : ∀ s a, DiesOnly s (g s a)) (l : List α) (s : State) :
    DiesOnly s (l.foldl g s) :=
  List.foldlRecOn l g (DiesOnly.refl s) fun t ht a _ => ht.trans (h t a)

/-- A list of checks refuses nothing exactly when none of them finds a fault. -/
theorem firstOf_eq_none {l : List (Bool × Status × Nat)} : firstOf l = none ↔ ∀ c ∈ l, c.1 = false := by
  induction l with
  | nil => simp [firstOf]
  | cons c l ih =>
    obtain ⟨bad, st, det⟩ := c
    cases bad <;> simp [firstOf, ih]

/-! ## Model instances (R33, R230, R466) -/

theorem State.modelOf_eq_some {s : State} {p : Pkt} {i : Nat} {m : Model} (h : s.modelOf p i = some m) :
    tfind s.models i = some m := by
  unfold State.modelOf at h
  split at h
  next hm =>
    split at h
    · rw [hm, h]
    · cases h
  next => cases h

/-- Every usable die has reserved its share of model `i` (R466). -/
def State.reserveModel (s : State) (i wBytes bBytes : Nat) : State :=
  s.usableDies.foldl (fun s d => s.modDie d fun x =>
    ((x.shareOf (weightFrames wBytes) (s.bundleFrames bBytes) (1 + i)).getD x).freshFactors i) s

theorem State.reserveModel_diesOnly (s : State) (i wBytes bBytes : Nat) : DiesOnly s (s.reserveModel i wBytes bBytes) :=
  DiesOnly.foldl (fun _ _ => DiesOnly.modDie ..) _ s

theorem doModelCreate_eq {s : State} {i : Nat} (h : s.newModel = some i) (p : Pkt) (L hd d32 fmt thr wBytes bBytes : Nat) :
    doModelCreate p L hd d32 fmt thr wBytes bBytes s = ({ s.reserveModel i wBytes bBytes with
      models := tput (s.reserveModel i wBytes bBytes).models i
        (newModel p.tenant L hd d32 fmt thr wBytes bBytes (!(s.inReserve bBytes))) } : State).finish 0x0101 p .ok 0
          (padTo 4 (le 1 i)) [] := by
  unfold doModelCreate
  rw [h]
  rfl

/-- MODEL_WRITE of the weights within the declared size. -/
theorem doModelWrite_weights {s : State} {p : Pkt} {inst die off : Nat} {data : List Byte} {m : Model}
    (hm : s.modelOf p inst = some m) (hfit : off + data.length ≤ m.wBytes) :
    doModelWrite p inst 0 die off data s = ({ s with
      models := tput s.models inst { m with weightMem := mwriteN m.weightMem (die * 2 ^ 40 + off) data } } :
        State).ok 0x0102 p := by
  have htake : data.take (m.partBytes 0 - off) = data := List.take_of_length_le (by simp [Model.partBytes]; omega)
  unfold doModelWrite
  rw [hm]
  dsimp only
  rw [htake, if_pos rfl]

theorem chkModelWrite_weights {s : State} {p : Pkt} {inst die off : Nat} {data : List Byte} {m : Model}
    (ht : s.hasTenant p.tenant = true) (hm : s.modelOf p inst = some m) (hb : m.bundle = none) (hd : s.usable die = true)
    (ho : off % 64 = 0) (hfit : off + data.length ≤ m.wBytes) : chkModelWrite p inst 0 die off data s = none := by
  have hsize : ¬ ceilDiv m.wBytes 64 * 64 < off + data.length := by unfold ceilDiv; omega
  refine firstOf_eq_none.mpr ?_
  simp [badHdr, badAt, ht, hm, hb, hd, ho, Model.partBytes, hsize]

/-- Settles O3: each opcode writes one entry of the model table; the bytes of MODEL_WRITE read back by `mreadN_mwriteN`. -/
theorem modelCommandsComplete : Obligations.ModelCommandsComplete := by
  refine ⟨?create, ?write, ?commit, ?destroy⟩
  case create =>
    intro s p L h d32 fmt thr wBytes bBytes i hq hdue hperm hchk hnew
    have reserved := s.reserveModel_diesOnly i wBytes bBytes
    refine ⟨_, opcode_next hdue hperm hchk, ?_⟩
    rw [doModelCreate_eq hnew]
    refine ⟨hq.finish_of (by exact reserved.queues) .., newModel p.tenant L h d32 fmt thr wBytes bBytes (!(s.inReserve bBytes)), ?_,
      rfl, rfl, rfl, rfl, rfl, rfl, fun j hj => ?_⟩
    · simp
    · simp [tfind_tput_other _ _ hj, reserved.models]
  case write =>
    intro s p inst die off data m hq hdue hperm ht hm hb hd ho hfit
    refine ⟨_, opcode_next hdue hperm (chkModelWrite_weights ht hm hb hd ho hfit), ?_⟩
    rw [doModelWrite_weights hm hfit]
    refine ⟨hq.ok_of (by rfl) _, by simp, { m with weightMem := mwriteN m.weightMem (die * 2 ^ 40 + off) data }, by simp, ?_, rfl⟩
    exact mreadN_mwriteN ..
  case commit =>
    intro s p inst b m hq hdue hperm ht hm hb hok
    have he : s.runCommit p inst b = s.commitModel p inst m b := by simp [State.runCommit, hm, ht, hb, hok]
    refine ⟨_, gate_next hdue hperm, ?_⟩
    rw [he, State.commitModel]
    refine ⟨by simp, { m with bundle := some b, digest := Config.sha384 (s.modelBytes m) }, by simp, rfl, hq.finish_of (by rfl) ..⟩
  case destroy =>
    intro s p inst m hq hdue hperm ht hm hu
    refine ⟨_, opcode_next hdue hperm (firstOf_eq_none.mpr (by simp [badHdr, badAt, ht, hm, hu])), ?_, ?_⟩
    · exact hq.ok_of (by rfl) _
    · simp [State.removeModel]

end Sys2Proof.Machine

namespace Sys2Proof.Machine

/-! ## Tenants (R32, R51, R193, R229, R230) -/

theorem quantumOk_iff (q : Nat) : quantumOk q = true ↔ 4096 ≤ q ∧ q ≤ 1048576 ∧ q % 4096 = 0 := by
  simp [quantumOk, and_assoc]

theorem State.hasTenant_of_tfind {s : State} {n : Nat} {x : Tenant} (h : tfind s.tenants n = some x) (hx : x.destroy = none) :
    s.hasTenant n = true := by simp [State.hasTenant, h, hx]

/-- TENANT_SET of a tenant that exists. -/
theorem doTenantSet_eq {s : State} {p : Pkt} {x : Tenant} (h : tfind s.tenants p.tenant = some x) (quantum idleMs resumeS : Nat) :
    doTenantSet p quantum idleMs resumeS s = ({ s with
      tenants := tput s.tenants p.tenant { x with quantum := quantum, idleMs := idleOf idleMs, resumeS := resumeS } } :
        State).ok 0x0003 p := by simp [doTenantSet, h]

/-- A TENANT_DESTROY whose queues are all DISABLED ends, and the tenant is gone. -/
theorem State.settleTenant_removes {s : State} {n : Nat} {x : Tenant} {p : Pkt} (h : tfind s.tenants n = some x)
    (hp : x.destroy = some p) (hq : s.queuesGone n = true) : tfind (s.settleTenant n).tenants n = none := by
  simp [State.settleTenant, h, hp, hq]

/-- TENANT_DESTROY of a tenant to which no queue is bound leaves no tenant of that number. -/
theorem doTenantDestroy_tenants {s : State} {p : Pkt} {x : Tenant} (h : tfind s.tenants p.tenant = some x)
    (hq : ∀ e ∈ s.queues, e.2.tenant ≠ p.tenant) : tfind (doTenantDestroy p s).tenants p.tenant = none := by
  have unbound : s.queues.filter (fun e => e.2.tenant == p.tenant) = [] :=
    List.filter_eq_nil_iff.mpr fun e he => by simpa using hq e he
  simp only [doTenantDestroy, h, unbound, List.map_nil, List.foldl_nil]
  refine State.settleTenant_removes (x := { x with destroy := some p }) (tfind_tput_same ..) rfl ?_
  rw [State.queuesGone, List.all_eq_true]
  intro e he
  simp [hq e he]

/-- Settles O1: TENANT_CREATE and TENANT_SET write one entry of the tenant table, and TENANT_DESTROY without bound queues ends at
once, where `State.settleTenant` deletes the entry. -/
theorem tenantCommandsComplete : Obligations.TenantCommandsComplete := by
  refine ⟨?create, ?set, ?destroy⟩
  case create =>
    intro s p quantum idleMs resumeS hq hdue hperm ht hlo hhi hmod hroom hnew
    have hquantum := (quantumOk_iff quantum).mpr ⟨hlo, hhi, hmod⟩
    refine ⟨_, opcode_next hdue hperm (firstOf_eq_none.mpr ?_), hq.ok_of (by rfl) _, ?_, fun u hu => ?_, ?_, ?_⟩
    · simp [badHdr, badAt, deferAt, hquantum, ht, hroom, hnew]
    · simp [doTenantCreate, idleOf]
    · simp [doTenantCreate, tfind_tput_other _ _ hu]
    · simp [doTenantCreate]
    · simp [doTenantCreate]
  case set =>
    intro s p quantum idleMs resumeS x hq hdue hperm hx hd hlo hhi hmod
    have hquantum := (quantumOk_iff quantum).mpr ⟨hlo, hhi, hmod⟩
    refine ⟨_, opcode_next hdue hperm (firstOf_eq_none.mpr ?_), ?_⟩
    · simp [badHdr, badAt, hquantum, State.hasTenant_of_tfind hx hd]
    · rw [doTenantSet_eq hx]
      refine ⟨hq.ok_of (by rfl) _, ?_, fun u hu => ?_, ?_⟩
      · simp [idleOf, hd]
      · simp [tfind_tput_other _ _ hu]
      · simp
  case destroy =>
    intro s p x hq hdue hperm hx hd hunbound
    refine ⟨_, opcode_next hdue hperm (firstOf_eq_none.mpr ?_), doTenantDestroy_tenants hx hunbound⟩
    simp [badHdr, State.hasTenant_of_tfind hx hd]

end Sys2Proof.Machine

namespace Sys2Proof.Machine

/-! ## Key removals write dies, queues and their own list only (R50, R430) -/

/-- Nothing differs but dies, queues, the waiting key removals and the sideband. -/
def KeysOnly (s t : State) : Prop :=
  t = { s with dies := t.dies, queues := t.queues, keyWaits := t.keyWaits, psi := { s.psi with sideband := t.psi.sideband } }

section
variable {s t u : State}

theorem KeysOnly.refl (s : State) : KeysOnly s s := rfl

theorem KeysOnly.trans (h : KeysOnly s t) (g : KeysOnly t u) : KeysOnly s u := by
  unfold KeysOnly at *
  rw [g, h]

theorem KeysOnly.seqs (h : KeysOnly s t) : t.seqs = s.seqs := by rw [h]
theorem KeysOnly.disps (h : KeysOnly s t) : t.disps = s.disps := by rw [h]

theorem OnlyReplies.keysOnly (h : OnlyReplies s t) : KeysOnly s t := by
  unfold KeysOnly
  rw [h]

theorem DiesOnly.keysOnly (h : DiesOnly s t) : KeysOnly s t := by
  unfold KeysOnly
  rw [h]

end

/-- The keys that one waiting removal can clear are cleared. -/
def State.clearKeys (s : State) (k : Pkt × Nat × List Nat) : State :=
  k.2.2.foldl (fun s d => s.modDie d fun x => x.clearKey k.2.1) s

theorem State.clearKeys_diesOnly (s : State) (k : Pkt × Nat × List Nat) : DiesOnly s (s.clearKeys k) :=
  DiesOnly.foldl (fun _ _ => DiesOnly.modDie ..) _ s

/-- What looking at one waiting removal comes to: its end without a reply, its end with one, or a further wait. -/
theorem State.settleKey_cases (s : State) (k : Pkt × Nat × List Nat) :
    s.settleKey k = s.clearKeys k ∨ s.settleKey k = (s.clearKeys k).ok 0x0E11 k.1 ∨
      ∃ l, s.settleKey k = { s.clearKeys k with keyWaits := l } := by
  unfold State.settleKey
  dsimp only
  split_ifs
  · exact .inl rfl
  · exact .inr (.inl rfl)
  · exact .inr (.inr ⟨_, rfl⟩)

theorem State.settleKey_keysOnly (s : State) (k : Pkt × Nat × List Nat) : KeysOnly s (s.settleKey k) := by
  have cleared := (s.clearKeys_diesOnly k).keysOnly
  obtain h | h | ⟨l, h⟩ := s.settleKey_cases k
  · rwa [h]
  · rw [h]
    exact cleared.trans (State.onlyReplies_ok ..).keysOnly
  · rw [h]
    exact cleared.trans rfl

theorem State.settleKeys_keysOnly (s : State) : KeysOnly s s.settleKeys :=
  List.foldlRecOn (motive := KeysOnly s) _ _ rfl fun t ht k _ => ht.trans (t.settleKey_keysOnly k)

@[simp] theorem State.settleKeys_seqs (s : State) : s.settleKeys.seqs = s.seqs := s.settleKeys_keysOnly.seqs

@[simp] theorem State.settleKeys_disps (s : State) : s.settleKeys.disps = s.disps := s.settleKeys_keysOnly.disps

/-- Without waiting removals nothing is settled. -/
theorem State.settleKeys_of_nil {s : State} (h : s.keyWaits = []) : s.settleKeys = s := by
  have same : ({ s with keyWaits := [] } : State) = s := by rw [← h]
  rw [State.settleKeys, h, same, List.foldl_nil]

/-! ## Sequences (R34 to R37, R46, R51) -/

theorem State.tfind_modSeq (s : State) (n : Nat) (f : Sequence → Sequence) (j : Nat) :
    tfind (s.modSeq n f).seqs j = if j = n then (tfind s.seqs n).map f else tfind s.seqs j := by
  unfold State.modSeq State.seq
  split
  next q hq =>
    rw [hq]
    exact tfind_tput ..
  next hq =>
    by_cases hj : j = n
    · simp [hj, hq]
    · simp [hj]

theorem State.tfind_modSeq_same (s : State) (n : Nat) (f : Sequence → Sequence) :
    tfind (s.modSeq n f).seqs n = (tfind s.seqs n).map f := by simp [State.tfind_modSeq]

/-- A class set is the class of the sequence's record; queues are left alone. -/
theorem State.tfind_setClass (s : State) (n : Nat) {c : Nat} (hc : c ≠ 0xFF) (j : Nat) :
    tfind (s.setClass n c).seqs j = if j = n then (tfind s.seqs n).map fun q => { q with cls := c } else tfind s.seqs j := by
  rw [State.setClass, if_neg hc, State.modDie_seqs, State.tfind_modSeq]

theorem State.modSeq_queues (s : State) (n : Nat) (f : Sequence → Sequence) : (s.modSeq n f).queues = s.queues := by
  obtain ⟨-, -, hq⟩ := s.modSeq_frame n f
  exact hq

theorem State.modSeq_die (s : State) (n : Nat) (f : Sequence → Sequence) (d : Nat) : (s.modSeq n f).die d = s.die d := by
  obtain ⟨hp, hd, -⟩ := s.modSeq_frame n f
  rw [State.die, hd, hp, State.die]

theorem State.setClass_queues (s : State) (n c : Nat) : (s.setClass n c).queues = s.queues := by
  unfold State.setClass
  split
  · rfl
  · exact State.modSeq_queues ..

theorem State.seqOf_eq_some {s : State} {p : Pkt} {n : Nat} {q : Sequence} (h : s.seqOf p n = some q) :
    tfind s.seqs n = some q := by
  unfold State.seqOf at h
  split at h
  next hm =>
    split at h
    · exact hm.trans h
    · cases h
  next => cases h

theorem State.seqIs_eq {s : State} {p : Pkt} {n : Nat} {q : Sequence} (h : s.seqOf p n = some q) (st : SeqState) :
    s.seqIs p n st = (q.st == st) := by simp [State.seqIs, h]

/-- A sequence opcode on a sequence of the tenant that no step holds acts at once, where its further checks pass. -/
theorem State.seqOp_eq {s t : State} {code : Nat} {p : Pkt} {n : Nat} {i : Instr} {more : List (Bool × Status × Nat)}
    {q : Sequence} (ht : s.hasTenant p.tenant = true) (hq : s.seqOf p n = some q) (hh : q.heldBy = none)
    (hm : ∀ c ∈ more, c.1 = false) : s.seqOp code p n i more t = t := by
  have held : s.seqHeld n = false := by simp [State.seqHeld, State.seq, State.seqOf_eq_some hq, hh]
  have checks : firstOf (seqChecks p n s ++ more) = none := by
    refine firstOf_eq_none.mpr fun c hc => ?_
    obtain hc | hc := List.mem_append.mp hc
    · revert c hc
      simp [seqChecks, badHdr, badAt, ht, hq]
    · exact hm c hc
  simp [State.seqOp, held, checks]

theorem State.closeSeq_seqs (s : State) (n : Nat) : tfind (s.closeSeq n).seqs n = none := tfind_tdel_same ..

theorem classOk_of_le {c : Nat} (h : c ≤ 2) : classOk c = true := by simp [classOk, h]

/-! ### SEQ_OPEN, SEQ_TRUNCATE and SEQ_QUERY -/

theorem doSeqOpen_eq {s : State} {p : Pkt} {inst die i : Nat} {m : Model} (hm : s.modelOf p inst = some m)
    (hi : s.freeSlot (s.openDie p.tenant die) = some i) (cls : Nat) :
    doSeqOpen p inst die cls s = ({ s with
      seqs := tput s.seqs (s.openDie p.tenant die * 2048 + i)
        (newSequence p.tenant inst (s.die (s.openDie p.tenant die)).homeRegion cls m.thr) } : State).finish 0x0201 p .ok 0
      (le 2 (s.openDie p.tenant die * 2048 + i) ++
        le 1 (s.openDie p.tenant die * 8 + (s.die (s.openDie p.tenant die)).homeRegion) ++ [0] ++ le 4 0) [] := by
  simp [doSeqOpen, hi, hm]

theorem State.freeSheets_queues (s : State) (n : Nat) (hs : List Nat) : (s.freeSheets n hs).queues = s.queues :=
  State.modSeq_queues ..

theorem State.freeSheets_keyWaits (s : State) (n : Nat) (hs : List Nat) : (s.freeSheets n hs).keyWaits = s.keyWaits := by
  unfold State.freeSheets State.modSeq
  split <;> rfl

/-- A truncated sequence is SUSPENDED at its new position; no queue and no key removal changes. -/
theorem State.truncate_facts (s : State) {n : Nat} {q : Sequence} (hq : tfind s.seqs n = some q) (pos : Nat) :
    (s.truncate n pos).queues = s.queues ∧ (s.truncate n pos).keyWaits = s.keyWaits ∧
      ∃ r, tfind (s.truncate n pos).seqs n = some r ∧ r.st = .suspended ∧ r.pos = pos := by
  unfold State.truncate
  extract_lets hs
  have sheets : tfind ((s.freeSheets n hs).modDie (seqDie n) fun x => x.shorten n pos).seqs n =
      some { q with sheets := q.sheets.filter fun r => !(hs.contains r.handle) } := by
    rw [State.modDie_seqs, State.freeSheets, State.tfind_modSeq_same, State.modDie_seqs, hq]
    rfl
  refine ⟨(State.modSeq_queues ..).trans (s.freeSheets_queues n hs), ?_, ?_⟩
  · rw [← s.freeSheets_keyWaits n hs]
    unfold State.modSeq
    split <;> rfl
  · rw [State.tfind_modSeq_same, sheets]
    exact ⟨_, rfl, rfl, rfl⟩

theorem State.runSeqTruncate_eq {s : State} {p : Pkt} {n pos lo : Nat} {q : Sequence} (ht : s.hasTenant p.tenant = true)
    (hq : s.seqOf p n = some q) (hh : q.heldBy = none) (hl : q.st = .lost) (hlo : (s.die (seqDie n)).firstLost n = some lo)
    (hpos : pos ≤ lo) (hnow : pos ≤ q.pos) (hk : s.keyWaits = []) :
    s.runSeqTruncate p n pos = (s.truncate n pos).ok 0x0205 p := by
  obtain ⟨-, hkw, -⟩ := s.truncate_facts (State.seqOf_eq_some hq) pos
  unfold State.runSeqTruncate
  rw [State.seqOp_eq ht hq hh ?_, State.settleKeys_of_nil (hkw.trans hk)]
  simp [badAt, refuseIf, State.seqIs_eq hq, hl, hlo, hpos, hq, hnow]

theorem State.runSeqQuery_eq {s : State} {p : Pkt} {n : Nat} {q : Sequence} (ht : s.hasTenant p.tenant = true)
    (hq : s.seqOf p n = some q) (hh : q.heldBy = none) :
    s.runSeqQuery p n = s.finish 0x0209 p .ok 0 (s.queryBytes n q) [] := by
  rw [State.runSeqQuery, State.seqOp_eq ht hq hh (by simp), hq]

/-- Settles O4: a sequence that no step holds lets its opcode act at once (`State.seqOp_eq`), and each effect is read off what
`State.modSeq` and `State.setClass` write. -/
theorem sequenceCommandsComplete : Obligations.SequenceCommandsComplete := by
  refine ⟨?opens, ?close, ?suspend, ?resume, ?truncate, ?query⟩
  case opens =>
    intro s p inst die cls i m hq hdue hperm hchk hm hi
    refine ⟨_, opcode_next hdue hperm hchk, ?_⟩
    rw [doSeqOpen_eq hm hi]
    refine ⟨hq.finish_of (by rfl) .., by simp,
      newSequence p.tenant inst (s.die (s.openDie p.tenant die)).homeRegion cls m.thr, ?_, rfl, rfl, rfl, rfl, rfl⟩
    rw [State.finish_seqs]
    exact tfind_tput_same ..
  case close =>
    intro s p n q hq hdue hperm ht hs hh
    refine ⟨_, gate_next hdue hperm, ?_⟩
    dsimp only
    rw [State.runSeqClose, State.seqOp_eq ht hs hh (by simp), State.ok_seqs, State.settleKeys_seqs]
    exact s.closeSeq_seqs n
  case suspend =>
    intro s p n c q hq hdue hperm ht hs hh hst hc
    refine ⟨_, gate_next hdue hperm, ?_⟩
    rw [State.runSeqSuspend, State.seqOp_eq ht hs hh (by simp [badAt, State.seqIs_eq hs, hst, classOk_of_le hc])]
    refine ⟨hq.ok_of (by rw [State.setClass_queues, State.modSeq_queues]) _, ?_⟩
    rw [State.ok_seqs, State.tfind_setClass _ _ (by omega), if_pos rfl, State.tfind_modSeq_same, State.seqOf_eq_some hs]
    rfl
  case resume =>
    intro s p n c q hq hdue hperm ht hs hh hst hc hact
    refine ⟨_, gate_next hdue hperm, ?_⟩
    rw [State.runSeqResume,
      State.seqOp_eq ht hs hh (by simp [badAt, deferAt, State.seqIs_eq hs, hst, classOk_of_le hc, hact])]
    refine ⟨hq.ok_of (by rw [State.setClass_queues, State.modSeq_queues]) _, ?_⟩
    rw [State.ok_seqs, State.tfind_setClass _ _ (by omega), if_pos rfl, State.tfind_modSeq_same, State.seqOf_eq_some hs]
    rfl
  case truncate =>
    intro s p n pos lo q hq hdue hperm ht hs hh hst hlo hpos hnow hk
    obtain ⟨hqueues, -, hseq⟩ := s.truncate_facts (State.seqOf_eq_some hs) pos
    refine ⟨_, gate_next hdue hperm, ?_⟩
    rw [State.runSeqTruncate_eq ht hs hh hst hlo hpos hnow hk]
    exact ⟨hq.ok_of hqueues _, by simpa using hseq⟩
  case query =>
    intro s p n q hq hdue hperm ht hs hh
    refine ⟨_, gate_next hdue hperm, ?_⟩
    rw [State.runSeqQuery_eq ht hs hh]
    exact ⟨s.onlyReplies_finish .., hq.finish ..⟩

end Sys2Proof.Machine

namespace Sys2Proof.Machine

/-! ## SHEET_HINT (R48) -/

theorem State.hinted_entry {s : State} {n layer : Nat} {e : Nat × Ream} (h : e ∈ s.hinted n layer) :
    e.2 = (s.die (seqDie n)).entry e.1 := by
  obtain ⟨r, -, rfl⟩ := List.mem_map.mp h
  rfl

/-- Promote and demote append copies of named sheets of the other tier to the mover's list, demotions of unpinned ones only. -/
theorem State.queueHints_hints (s : State) (n layer : Nat) (promote : Bool) :
    ∃ l, ((s.queueHints n layer promote).die (seqDie n)).hints = (s.die (seqDie n)).hints ++ l ∧
      ∀ e ∈ l, e.2 = promote ∧ ((s.die (seqDie n)).entry e.1).loc.tier = promote ∧
        (promote = false → ((s.die (seqDie n)).entry e.1).pin = false) := by
  refine ⟨_, by rw [State.queueHints, State.die_modDie_same], fun e he => ?_⟩
  obtain ⟨k, hk, rfl⟩ := List.mem_map.mp he
  obtain ⟨hin, hk⟩ := List.mem_filter.mp hk
  rw [← State.hinted_entry hin]
  simp only [Bool.and_eq_true, beq_iff_eq, Bool.or_eq_true, Bool.not_eq_true'] at hk
  obtain ⟨⟨⟨htier, hpin⟩, -⟩, -⟩ := hk
  exact ⟨rfl, htier, fun h => hpin.resolve_left (by simp [h])⟩

theorem State.queueHints_ream (s : State) (n layer : Nat) (promote : Bool) :
    ((s.queueHints n layer promote).die (seqDie n)).ream = (s.die (seqDie n)).ream := by
  rw [State.queueHints, State.die_modDie_same]

/-- `pin` written in the entries of a list, one after another. -/
theorem Die.entry_foldl_pin (l : List (Nat × Ream)) (b : Bool) (x : Die) (h : Nat) :
    (l.foldl (fun (x : Die) e => x.setEntry e.1 { x.entry e.1 with pin := b }) x).entry h =
      if h ∈ l.map (·.1) then { x.entry h with pin := b } else x.entry h := by
  induction l generalizing x with
  | nil => rfl
  | cons e l ih =>
    rw [List.foldl_cons, ih]
    by_cases he : h = e.1
    · subst he
      simp
    · simp only [Die.entry_setEntry_other _ _ he, List.map_cons, List.mem_cons, he, false_or]

theorem State.setPins_entry (s : State) (n layer : Nat) (b : Bool) (h : Nat) :
    ((s.setPins n layer b).die (seqDie n)).entry h =
      if h ∈ (s.hinted n layer).map (·.1) then { (s.die (seqDie n)).entry h with pin := b }
      else (s.die (seqDie n)).entry h := by
  rw [State.setPins, State.die_modDie_same, Die.entry_foldl_pin]

theorem State.setPins_pin {s : State} {n layer : Nat} {e : Nat × Ream} (h : e ∈ s.hinted n layer) (b : Bool) :
    (((s.setPins n layer b).die (seqDie n)).entry e.1).pin = b := by
  rw [State.setPins_entry, if_pos (List.mem_map_of_mem h)]

theorem State.setPins_loc (s : State) (n layer : Nat) (b : Bool) (h : Nat) :
    (((s.setPins n layer b).die (seqDie n)).entry h).loc = ((s.die (seqDie n)).entry h).loc := by
  rw [State.setPins_entry]
  split <;> rfl

/-- Settles O5: promote and demote only append to the mover's list (`State.queueHints_hints`), pin and unpin only write `pin`
(`State.setPins_entry`). -/
theorem sheetHintsComplete : Obligations.SheetHintsComplete := by
  intro s p n layer q hq hdue hperm ht hs hh hl
  have acts {t : State} {i : Instr} : s.seqOp 0x0206 p n i [badAt (s.layerBad n layer) 2] t = t :=
    State.seqOp_eq ht hs hh (by simp [badAt, hl])
  refine ⟨⟨_, gate_next hdue hperm, ?promote⟩, ⟨_, gate_next hdue hperm, ?demote⟩, ⟨_, gate_next hdue hperm, ?pin⟩,
    _, gate_next hdue hperm, ?unpin⟩
  case promote =>
    obtain ⟨l, hl, hmem⟩ := s.queueHints_hints n layer true
    rw [State.runHintPromote, acts]
    refine ⟨hq.ok_of (by rfl) _, State.ok_seqs .., ?_, l, ?_, fun e he => ?_⟩
    · rw [State.ok_die, State.queueHints_ream]
    · rw [State.ok_die, hl]
    · obtain ⟨hdir, htier, -⟩ := hmem e he
      exact ⟨hdir, htier⟩
  case demote =>
    obtain ⟨l, hl, hmem⟩ := s.queueHints_hints n layer false
    rw [State.runHintDemote, acts]
    refine ⟨hq.ok_of (by rfl) _, State.ok_seqs .., ?_, l, ?_, fun e he => ?_⟩
    · rw [State.ok_die, State.queueHints_ream]
    · rw [State.ok_die, hl]
    · obtain ⟨hdir, htier, hpin⟩ := hmem e he
      exact ⟨hdir, htier, hpin rfl⟩
  case pin =>
    rw [State.runHintPin, acts]
    refine ⟨hq.ok_of (by rfl) _, State.ok_seqs .., fun e he => ?_, fun h => ?_⟩
    · rw [State.ok_die, State.setPins_pin he]
    · rw [State.ok_die, State.setPins_loc]
  case unpin =>
    rw [State.runHintUnpin, acts]
    refine ⟨hq.ok_of (by rfl) _, State.ok_seqs .., fun e he => ?_, fun h => ?_⟩
    · rw [State.ok_die, State.setPins_pin he]
    · rw [State.ok_die, State.setPins_loc]

end Sys2Proof.Machine

namespace Sys2Proof.Machine

/-! ## Operations of one die -/

theorem OtherDies.refl (s : State) (d : Nat) : OtherDies s s d := fun _ _ => rfl

theorem OtherDies.trans {s t u : State} {d : Nat} (h : OtherDies s t d) (g : OtherDies t u d) : OtherDies s u d :=
  fun e he => (g e he).trans (h e he)

theorem OtherDies.modDie (s : State) (d : Nat) (f : Die → Die) : OtherDies s (s.modDie d f) d :=
  fun _ he => State.die_modDie_other _ _ he

theorem OtherDies.foldl {α : Type} {d : Nat} {g : State → α → State} (h : ∀ s a, OtherDies s (g s a) d) (l : List α) (s : State) :
    OtherDies s (l.foldl g s) d :=
  List.foldlRecOn (motive := fun t => OtherDies s t d) l g (OtherDies.refl s d) fun t ht a _ => OtherDies.trans ht (h t a)

/-- States with the same dies and part have the same die `d`. -/
theorem State.die_congr {s t : State} (hd : t.dies = s.dies) (hp : t.part = s.part) (d : Nat) : t.die d = s.die d := by
  rw [State.die, hd, hp, State.die]

/-- Operations of the dies of a list, each of one die: a die of the list has had its own, a die outside is as it was. -/
theorem State.foldl_own {f : State → Nat → State} (other : ∀ s d, OtherDies s (f s d) d) {l : List Nat} (hl : l.Nodup)
    (s : State) :
    (∀ d ∈ l, ∃ u : State, u.die d = s.die d ∧ (l.foldl f s).die d = (f u d).die d) ∧
      ∀ d, d ∉ l → (l.foldl f s).die d = s.die d := by
  induction l generalizing s with
  | nil => exact ⟨by simp, fun _ _ => rfl⟩
  | cons a l ih =>
    obtain ⟨ha, hl⟩ := List.nodup_cons.mp hl
    obtain ⟨own, rest⟩ := ih hl (f s a)
    refine ⟨fun d hd => ?_, fun d hd => ?_⟩
    · obtain rfl | hd := List.mem_cons.mp hd
      · exact ⟨s, rfl, rest d ha⟩
      · obtain ⟨u, hu, he⟩ := own d hd
        exact ⟨u, hu.trans (other s a d fun h => ha (h ▸ hd)), he⟩
    · obtain ⟨hne, hd⟩ := not_or.mp (mt List.mem_cons.mpr hd)
      exact (rest d hd).trans (other s a d hne)

theorem maskDies_nodup (m : BitVec 8) : (maskDies m).Nodup := List.nodup_range.filter _

theorem State.maskBad_eq_false {s : State} {m : BitVec 8} (h : ∀ d ∈ maskDies m, s.usable d = true) : s.maskBad m = false := by
  simpa [State.maskBad] using h

/-! ## STATE_IDLE (R52) -/

theorem State.moveSheet_otherDies (s : State) (d h : Nat) (dst : Loc) : OtherDies s (s.moveSheet d h dst) d :=
  OtherDies.modDie _ _ _

theorem State.idleGather_otherDies (s : State) (d : Nat) (drop : BitVec 8) : OtherDies s (s.idleGather d drop) d := by
  refine OtherDies.foldl (fun t h => ?_) _ s
  split
  · exact State.moveSheet_otherDies _ _ _ _
  · exact OtherDies.refl _ _

/-- What is left of a set that lies within `segs` lies within it. -/
theorem and_within {m segs : BitVec 8} (k : BitVec 8) (h : m &&& ~~~segs = 0) : (m &&& k) &&& ~~~segs = 0 := by
  rw [BitVec.and_assoc, BitVec.and_comm k, ← BitVec.and_assoc, h]
  exact BitVec.zero_and

/-- Step 3 touches its die only, and the drop set only shrinks. -/
theorem State.idleRescue_facts (d : Nat) {segs : BitVec 8} (fuel : Nat) (s : State) (drop : BitVec 8)
    (hdrop : drop &&& ~~~segs = 0) :
    OtherDies s (State.idleRescue d fuel s drop).1 d ∧ (State.idleRescue d fuel s drop).2 &&& ~~~segs = 0 := by
  have move {t : State} {h : Nat} {l : Loc} {r : State × BitVec 8}
      (ih : OtherDies (t.moveSheet d h l) r.1 d ∧ r.2 &&& ~~~segs = 0) : OtherDies t r.1 d ∧ r.2 &&& ~~~segs = 0 :=
    ⟨(State.moveSheet_otherDies _ _ _ _).trans ih.1, ih.2⟩
  induction fuel generalizing s drop with
  | zero => exact ⟨OtherDies.refl s d, hdrop⟩
  | succ fuel ih =>
    unfold State.idleRescue
    split
    · exact ⟨OtherDies.refl s d, hdrop⟩
    · dsimp only
      split
      · exact move (ih _ _ hdrop)
      · split
        · exact move (ih _ _ hdrop)
        · exact ih _ _ (and_within _ hdrop)

theorem State.markGone_otherDies (s : State) (d : Nat) (hs : List Nat) (st : SheetState) (byIdle : Bool) :
    OtherDies s (s.markGone d hs st byIdle) d := by
  obtain ⟨ho, -, -⟩ := s.markGone_frame d hs st byIdle
  exact ho

/-- Steps 1 to 4 on a die: some state that differs in that die only goes through step 3, and the sheets left become DROPPED. -/
theorem State.idleDie_eq (s : State) (op : Nat) (segs : BitVec 8) (d : Nat) : ∃ (u : State) (fuel : Nat) (drop : BitVec 8)
    (hs : List Nat), s.idleDie op segs d = ((State.idleRescue d fuel u drop).1.markGone d hs .dropped true).modDie d
      (fun x => { x with idle := some { op := op, segs := (State.idleRescue d fuel u drop).2, handles := hs } }) ∧
      OtherDies s u d ∧ drop &&& ~~~segs = 0 := by
  unfold State.idleDie
  extract_lets s0 drop0 s1 drop1
  have within : drop1 &&& ~~~segs = 0 := and_within _ (and_within _ (BitVec.and_not_self _))
  have gathered : OtherDies s s1 d := (OtherDies.modDie _ _ _).trans (State.idleGather_otherDies _ _ _)
  generalize (s1.die d).ream.length + 9 = fuel
  refine ⟨s1, fuel, drop1, ?_⟩
  rcases State.idleRescue d fuel s1 drop1 with ⟨s2, drop⟩
  exact ⟨_, rfl, gathered, within⟩

theorem State.idleDie_facts (s : State) (op : Nat) (segs : BitVec 8) (d : Nat) :
    OtherDies s (s.idleDie op segs d) d ∧
      ∃ i, ((s.idleDie op segs d).die d).idle = some i ∧ i.segs &&& ~~~segs = 0 := by
  obtain ⟨u, fuel, drop, hs, he, hu, within⟩ := s.idleDie_eq op segs d
  obtain ⟨ho, hdrop⟩ := State.idleRescue_facts d fuel u drop within
  rw [he]
  generalize State.idleRescue d fuel u drop = r at ho hdrop
  refine ⟨hu.trans (ho.trans ((State.markGone_otherDies _ _ _ _ _).trans (OtherDies.modDie _ _ _))), ?_⟩
  rw [State.die_modDie_same]
  exact ⟨_, rfl, hdrop⟩

/-- The reply to a STATE_IDLE changes no die. -/
theorem State.endIdle_die (s : State) (id d : Nat) : (s.endIdle id).die d = s.die d := by
  unfold State.endIdle
  split
  · rfl
  · split
    · exact (State.onlyReplies_finish ..).die d
    · rfl

theorem State.runStateIdle_die {s : State} {m : BitVec 8} (hu : ∀ d ∈ maskDies m, s.usable d = true) (hb : s.idleBusy m = false)
    (p : Pkt) (segs : BitVec 8) :
    (∀ d ∈ maskDies m, ∃ i, ((s.runStateIdle p m segs).die d).idle = some i ∧ i.segs &&& ~~~segs = 0) ∧
      ∀ d, d ∉ maskDies m → (s.runStateIdle p m segs).die d = s.die d := by
  unfold State.runStateIdle
  rw [State.maskBad_eq_false hu, hb, if_neg Bool.false_ne_true, if_neg Bool.false_ne_true]
  extract_lets id s1
  obtain ⟨own, rest⟩ := State.foldl_own (fun t d => (t.idleDie_facts id segs d).1) (maskDies_nodup m) s1
  refine ⟨fun d hd => ?_, fun d hd => (State.endIdle_die ..).trans (rest d hd)⟩
  obtain ⟨u, -, he⟩ := own d hd
  rw [State.endIdle_die, he]
  exact (u.idleDie_facts id segs d).2

/-! ## STATE_WAKE and the end of an idle operation (R52, R345) -/

theorem Die.mem_wakeSegs {x : Die} {l i : Nat} (hl : l < 16) (hi : i < 8) (hup : x.chanUp (64 + l) = true)
    (hdrop : x.dropped.getLsbD i = true) : l * 8 + i ∈ x.wakeSegs.initSegs := by
  refine List.mem_append_right _ (List.mem_flatMap.mpr ⟨l, ?_, List.mem_map.mpr ⟨i, ?_, rfl⟩⟩)
  · simp [Die.lpUp, hl, hup]
  · simp [hi, hdrop]

/-- The named dies wake, and no other. -/
def State.wakeDies (s : State) (m : BitVec 8) : State := (maskDies m).foldl (fun s d => s.modDie d fun x => x.wakeSegs) s

theorem State.wakeDies_diesOnly (s : State) (m : BitVec 8) : DiesOnly s (s.wakeDies m) :=
  DiesOnly.foldl (fun _ _ => DiesOnly.modDie ..) _ s

theorem State.wakeDies_die (s : State) (m : BitVec 8) :
    (∀ d ∈ maskDies m, (s.wakeDies m).die d = (s.die d).wakeSegs) ∧ ∀ d, d ∉ maskDies m → (s.wakeDies m).die d = s.die d := by
  obtain ⟨own, rest⟩ := State.foldl_own (f := fun s d => s.modDie d fun x => x.wakeSegs)
    (fun _ _ => OtherDies.modDie _ _ _) (maskDies_nodup m) s
  refine ⟨fun d hd => ?_, rest⟩
  obtain ⟨u, hu, he⟩ := own d hd
  rw [State.wakeDies, he, State.die_modDie_same, hu]

theorem State.runStateWake_eq {s : State} {m : BitVec 8} (hu : ∀ d ∈ maskDies m, s.usable d = true) (hb : s.idleBusy m = false)
    (p : Pkt) : s.runStateWake p m = (s.wakeDies m).ok 0x0208 p := by
  simp [State.runStateWake, State.maskBad_eq_false hu, hb, State.wakeDies]

/-- Step 6 masks the drop set of one die. -/
theorem State.doIdleDone_die {s : State} {d : Nat} {i : DieIdle} (hi : (s.die d).idle = some i) (e : Nat) :
    (s.doIdleDone d).die e = (s.modDie d fun x => { x with
      idle := none
      dropped := (s.die d).dropped ||| i.segs
      initSegs := x.initSegs.filter fun k => !(i.segs.getLsbD (k % 8)) }).die e := by
  unfold State.doIdleDone
  rw [hi]
  dsimp only
  split
  · rfl
  · exact State.endIdle_die ..

theorem exec_idleDrainDone {s : State} {d : Nat} {i : DieIdle} (hs : s.live d = true) (hi : (s.die d).idle = some i)
    (hw : (s.die d).wringsGone i.handles i.segs = true) : exec (.idleDrainDone d) s = .next (s.doIdleDone d).resume := by
  obtain ⟨-, hd, -⟩ := (s.live_iff d).mp hs
  exact event_next (by simp [hd]) (by simp [State.idleDue, hs, hi, hw])

theorem exec_segmentInitDone {s : State} {d lc seg : Nat} (hs : s.live d = true) (hlc : lc < 16) (hseg : seg < 8)
    (h : lc * 8 + seg ∈ (s.die d).initSegs) :
    exec (.segmentInitDone d lc seg) s = .next (s.modDie d fun x => x.initSeg lc seg) := by
  obtain ⟨-, hd, -⟩ := (s.live_iff d).mp hs
  exact event_next (by simp [hd, hlc, hseg]) (by simp [hs, h])

/-- A table without the entries whose number `p` refuses. -/
theorem tfind_filter {α : Type} (p : Nat → Bool) (t : Tbl α) (k : Nat) :
    tfind (t.filter fun e => p e.1) k = if p k then tfind t k else none := by
  induction t with
  | nil => simp
  | cons e t ih =>
    obtain ⟨j, v⟩ := e
    rw [List.filter_cons]
    by_cases hj : j = k
    · subst hj
      cases hp : p j <;> simp [tfind, ih, hp]
    · cases p j <;> simp [tfind, ih, hj]

/-- A range that was cleared reads as zero, and nothing outside it changes. -/
theorem mread_mclear (m : Memory) (lo hi a : Nat) :
    mread (mclear m lo hi) a = if lo ≤ a ∧ a < hi then 0 else mread m a := by
  have h := tfind_filter (fun c => !(decide (lo ≤ c) && decide (c < hi))) m a
  unfold mread tget mclear
  rw [h]
  by_cases ha : lo ≤ a ∧ a < hi
  · simp [ha, memDefault]
  · rw [if_pos (by simp; omega), if_neg ha]

/-- Settles O6: STATE_IDLE and STATE_WAKE work die by die over their mask (`State.foldl_own`), the drop set of a die only shrinks
from the segments asked for (`State.idleRescue_facts`), and an initialised segment is a range of memory cleared. -/
theorem segmentCommandsComplete : Obligations.SegmentCommandsComplete := by
  refine ⟨?idle, ?wake, ?drained, ?init⟩
  case idle =>
    intro s p m segs hdue hperm _ hu hb
    exact ⟨_, gate_next hdue hperm, State.runStateIdle_die hu hb p segs⟩
  case wake =>
    intro s p m hq hdue hperm hu hb
    obtain ⟨own, rest⟩ := s.wakeDies_die m
    refine ⟨_, gate_next hdue hperm, ?_⟩
    rw [State.runStateWake_eq hu hb]
    refine ⟨hq.ok_of (s.wakeDies_diesOnly m).queues _, fun d hd => ?_, fun d hd => ?_⟩
    · rw [State.ok_die, own d hd]
      exact ⟨rfl, rfl, fun l hl i hi hup hdrop => Die.mem_wakeSegs hl hi hup hdrop⟩
    · rw [State.ok_die, rest d hd]
  case drained =>
    intro s d i hs hi hw
    refine ⟨_, exec_idleDrainDone hs hi hw, fun e he => ?_, ?_⟩
    · rw [State.doIdleDone_die hi, State.die_modDie_other _ _ he]
    · rw [State.doIdleDone_die hi, State.die_modDie_same]
      exact ⟨rfl, rfl, rfl⟩
  case init =>
    intro s d lc seg hs hlc hseg h
    refine ⟨_, exec_segmentInitDone hs hlc hseg h, OtherDies.modDie _ _ _, ?_⟩
    rw [State.die_modDie_same]
    exact ⟨by simp [Die.initSeg], fun a => mread_mclear ..⟩

end Sys2Proof.Machine

namespace Sys2Proof.Machine

/-! ## Operations on sheets and sequences leave queues, dispatches and key removals alone -/

/-- Nothing differs but dies, sequences and the events raised. -/
def SeqsOnly (s t : State) : Prop :=
  t = { s with dies := t.dies, seqs := t.seqs, raised := t.raised, freeCount := t.freeCount }

section
variable {s t u : State}

theorem SeqsOnly.refl (s : State) : SeqsOnly s s := rfl

theorem SeqsOnly.trans (h : SeqsOnly s t) (g : SeqsOnly t u) : SeqsOnly s u := by
  unfold SeqsOnly at *
  rw [g, h]

theorem SeqsOnly.queues (h : SeqsOnly s t) : t.queues = s.queues := by rw [h]
theorem SeqsOnly.keyWaits (h : SeqsOnly s t) : t.keyWaits = s.keyWaits := by rw [h]

theorem DiesOnly.seqsOnly (h : DiesOnly s t) : SeqsOnly s t := by
  unfold SeqsOnly
  rw [h]

end

theorem State.modSeq_seqsOnly (s : State) (n : Nat) (f : Sequence → Sequence) : SeqsOnly s (s.modSeq n f) := by
  unfold State.modSeq
  split <;> rfl

theorem State.emit_seqsOnly (s : State) (e : Event) : SeqsOnly s (s.emit e) := by
  unfold State.emit
  split <;> rfl

theorem State.loseSeq_seqsOnly (s : State) (byIdle : Bool) (n : Nat) : SeqsOnly s (s.loseSeq byIdle n) := by
  have marked := s.modSeq_seqsOnly n fun q => { q with st := .lost, lostTold := true }
  unfold State.loseSeq
  split
  · rfl
  · dsimp only
    split_ifs
    · rfl
    · exact marked
    · exact marked.trans (State.emit_seqsOnly ..)

theorem State.freeSheets_seqsOnly (s : State) (n : Nat) (hs : List Nat) : SeqsOnly s (s.freeSheets n hs) :=
  (DiesOnly.modDie ..).seqsOnly.trans (State.modSeq_seqsOnly ..)

theorem State.rollback_seqsOnly (s : State) (e : EntryRun) : SeqsOnly s (s.rollback e) :=
  (DiesOnly.modDie ..).seqsOnly.trans (State.freeSheets_seqsOnly ..)

theorem State.commitEntry_seqsOnly (s : State) (m : Model) (e : EntryRun) : SeqsOnly s (s.commitEntry m e) :=
  (State.modSeq_seqsOnly ..).trans (State.freeSheets_seqsOnly ..)

/-! ## The step that holds a sequence (R226) -/

/-- The admitted step that holds sequence `n`. -/
def State.holder (s : State) (n : Nat) : Option Nat := (tfind s.seqs n).bind (·.heldBy)

theorem State.holder_of_seqs {s t : State} (h : t.seqs = s.seqs) : t.holder = s.holder := by
  funext n
  rw [State.holder, h, State.holder]

theorem State.holder_modSeq (s : State) (n : Nat) {f : Sequence → Sequence} (hf : ∀ q, (f q).heldBy = q.heldBy) :
    (s.modSeq n f).holder = s.holder := by
  funext j
  rw [State.holder, State.tfind_modSeq]
  split
  next hj =>
    subst hj
    cases h : tfind s.seqs j <;> simp [State.holder, h, hf]
  next => rfl

theorem State.holder_loseSeq (s : State) (byIdle : Bool) (n : Nat) : (s.loseSeq byIdle n).holder = s.holder := by
  have marked : (s.modSeq n fun q => { q with st := .lost, lostTold := true }).holder = s.holder :=
    s.holder_modSeq n fun _ => rfl
  unfold State.loseSeq
  split
  · rfl
  · dsimp only
    split_ifs
    · rfl
    · exact marked
    · obtain ⟨-, -, -, hs⟩ := State.emit_frame (s.modSeq n fun q => { q with st := .lost, lostTold := true }) _
      exact (State.holder_of_seqs hs).trans marked

theorem State.holder_freeSheets (s : State) (n : Nat) (hs : List Nat) : (s.freeSheets n hs).holder = s.holder :=
  State.holder_modSeq _ n (f := fun q => { q with sheets := q.sheets.filter fun r => !(hs.contains r.handle) }) fun _ => rfl

theorem State.holder_rollback (s : State) (e : EntryRun) : (s.rollback e).holder = s.holder :=
  (State.holder_freeSheets ..).trans rfl

theorem State.holder_commitEntry (s : State) (m : Model) (e : EntryRun) : (s.commitEntry m e).holder = s.holder :=
  (State.holder_freeSheets ..).trans (s.holder_modSeq e.seq fun _ => rfl)

/-! ## The end of an entry (R37, R53) -/

/-- The entry's tokens commit, or its sheets go back to what they were. -/
def State.settleEntry (s : State) (m : Model) (e : EntryRun) : State :=
  if s.endStatus e = .ok ∧ (s.die (seqDie e.seq)).appended e.seq (((s.seq e.seq).map (·.pos)).getD 0 + e.nTok) m.layers = true
  then s.commitEntry m e
  else if s.endStatus e = .stateLost then (s.rollback e).loseSeq false e.seq else s.rollback e

/-- The sequence is held by dispatch `id` no more. -/
def Sequence.release (id : Nat) (q : Sequence) : Sequence := if q.heldBy = some id then { q with heldBy := none } else q

theorem State.endEntry_fst (id : Nat) (m : Model) (p : State × List (EntryRun × Nat)) (e : EntryRun) :
    (State.endEntry id m p e).1 = (p.1.settleEntry m e).modSeq e.seq (Sequence.release id) := rfl

theorem State.settleEntry_seqsOnly (s : State) (m : Model) (e : EntryRun) : SeqsOnly s (s.settleEntry m e) := by
  unfold State.settleEntry
  split_ifs
  · exact State.commitEntry_seqsOnly ..
  · exact (State.rollback_seqsOnly ..).trans (State.loseSeq_seqsOnly ..)
  · exact State.rollback_seqsOnly ..

theorem State.holder_settleEntry (s : State) (m : Model) (e : EntryRun) : (s.settleEntry m e).holder = s.holder := by
  unfold State.settleEntry
  split_ifs
  · exact State.holder_commitEntry ..
  · exact (State.holder_loseSeq ..).trans (State.holder_rollback ..)
  · exact State.holder_rollback ..

/-- After an entry has ended its own sequence is not held by the dispatch, and no other has come to be. -/
theorem State.holder_endEntry (id : Nat) (m : Model) (p : State × List (EntryRun × Nat)) (e : EntryRun) {n : Nat}
    (h : n = e.seq ∨ p.1.holder n ≠ some id) : (State.endEntry id m p e).1.holder n ≠ some id := by
  rw [State.endEntry_fst, State.holder, State.tfind_modSeq]
  by_cases hn : n = e.seq
  · rw [if_pos hn]
    cases tfind (p.1.settleEntry m e).seqs e.seq with
    | none => simp
    | some q =>
      by_cases hq : q.heldBy = some id <;> simp [Sequence.release, hq]
  · rw [if_neg hn]
    have := h.resolve_left hn
    rwa [← State.holder_settleEntry p.1 m e] at this

/-- All entries of a dispatch end. -/
def State.endEntries (s : State) (id : Nat) (m : Model) (es : List EntryRun) : State × List (EntryRun × Nat) :=
  es.foldl (State.endEntry id m) (s, [])

theorem State.endEntries_seqsOnly (s : State) (id : Nat) (m : Model) (es : List EntryRun) :
    SeqsOnly s (s.endEntries id m es).1 :=
  List.foldlRecOn (motive := fun p : State × List (EntryRun × Nat) => SeqsOnly s p.1) es _ (SeqsOnly.refl s) fun _ hp _ _ =>
    hp.trans ((State.settleEntry_seqsOnly ..).trans (State.modSeq_seqsOnly ..))

theorem State.holder_endEntries (s : State) (id : Nat) (m : Model) {es : List EntryRun} {e : EntryRun} (he : e ∈ es) :
    (s.endEntries id m es).1.holder e.seq ≠ some id := by
  unfold State.endEntries
  generalize (s, ([] : List (EntryRun × Nat))) = p
  induction es generalizing p with
  | nil => simp at he
  | cons a es ih =>
    rw [List.foldl_cons]
    by_cases hin : e ∈ es
    · exact ih hin _
    · obtain rfl : e = a := (List.mem_cons.mp he).resolve_right hin
      exact List.foldlRecOn (motive := fun p : State × List (EntryRun × Nat) => p.1.holder e.seq ≠ some id) es _
        (State.holder_endEntry id m p e (.inl rfl)) fun p hp a _ => State.holder_endEntry id m p a (.inr hp)

/-! ## A packet that stands while others are answered (R225) -/

/-- Packet `p` stands started on its open queue, whose replies are `l` and perhaps more. -/
def Queue.Stands (x : Queue) (p : Pkt) (l : List Reply) : Prop :=
  x.st ≠ .disabled ∧ x.life = p.life ∧ (∃ t ∈ x.started, t.seq = p.seq) ∧ ∃ a, x.held = l ++ a

theorem OnQueue.stands {s : State} {p : Pkt} (h : OnQueue s p) :
    (s.queue p.queue).Stands p (s.queue p.queue).held := by
  have ho := h.started
  simp [State.orphaned, h.ring] at ho
  exact ⟨h.opened, ho.1, ho.2, [], by simp⟩

theorem Queue.Stands.orphaned {s : State} {p : Pkt} {l : List Reply} (h : (s.queue p.queue).Stands p l) :
    s.orphaned p = false := by
  obtain ⟨-, hlife, hstarted, -⟩ := h
  simpa [State.orphaned, hlife] using fun _ => hstarted

section
variable {s : State} {p k : Pkt} {l : List Reply}

/-- The end of another packet leaves it standing. -/
theorem Queue.Stands.complete (h : (s.queue p.queue).Stands p l) (hk : Apart p k) :
    ((s.complete k).queue p.queue).Stands p l := by
  unfold State.complete
  split
  · exact h
  · by_cases hq : p.queue = k.queue
    · obtain ⟨hst, hlife, ⟨t, ht, hseq⟩, hheld⟩ := h
      have hne : k.seq ≠ p.seq := hk.resolve_left fun hne => hne hq.symm
      rw [hq, State.queue_modQueue_same, ← hq]
      split
      · exact ⟨hst, hlife, ⟨t, List.mem_filter.mpr ⟨ht, by simpa [hseq] using hne.symm⟩, hseq⟩, hheld⟩
      · exact ⟨hst, hlife, ⟨t, ht, hseq⟩, hheld⟩
    · rwa [State.queue_modQueue_other _ _ hq]

theorem Queue.Stands.addReplies (h : (s.queue p.queue).Stands p l) (q : Nat) (r : List Reply) :
    ((s.addReplies q r).queue p.queue).Stands p l := by
  unfold State.addReplies
  split
  · exact h
  · by_cases hq : p.queue = q
    · obtain ⟨hst, hlife, hstarted, a, ha⟩ := h
      rw [← hq, State.queue_modQueue_same, if_neg (by simpa using hst)]
      exact ⟨hst, hlife, hstarted, a ++ r, by rw [ha, List.append_assoc]⟩
    · rwa [State.queue_modQueue_other _ _ hq]

theorem Queue.Stands.ok (h : (s.queue p.queue).Stands p l) (hk : Apart p k) (code : Nat) :
    ((s.ok code k).queue p.queue).Stands p l := by
  unfold State.ok State.finish State.finishMany
  dsimp only
  split
  · exact h.complete hk
  · exact (h.complete hk).addReplies ..

theorem Queue.Stands.of_queues {t : State} (h : (s.queue p.queue).Stands p l) (ht : t.queues = s.queues) :
    (t.queue p.queue).Stands p l := by
  rwa [State.queue, ht]

/-- Key removals that cannot be confused with it are settled beside it. -/
theorem Queue.Stands.settleKeys (h : (s.queue p.queue).Stands p l) (hk : ∀ k ∈ s.keyWaits, Apart p k.1) :
    (s.settleKeys.queue p.queue).Stands p l := by
  refine List.foldlRecOn (motive := fun t => (State.queue t p.queue).Stands p l) _ _ h fun t ht k hmem => ?_
  have cleared : ((t.clearKeys k).queue p.queue).Stands p l := ht.of_queues (t.clearKeys_diesOnly k).queues
  obtain he | he | ⟨w, he⟩ := t.settleKey_cases k
  · rwa [he]
  · rw [he]
    exact cleared.ok (hk k hmem) _
  · rw [he]
    exact cleared

/-- A packet that ends with several entries leaves them in its queue. -/
theorem Queue.Stands.finishMany_held (h : (s.queue p.queue).Stands p l) (hring : p.queue ≠ mboxQueue) (hloud : p.quiet = false)
    (code : Nat) (st : Status) (det : Nat) (parts : List (List Byte × List Byte)) :
    ((s.finishMany code p st det parts).queue p.queue).held = (s.queue p.queue).held ++
      parts.mapIdx fun i e => mkReply code p st det e.1 e.2 (decide (i + 1 < parts.length)) := by
  have ho := h.orphaned
  obtain ⟨hst, hlife, -⟩ := h
  simp [State.finishMany, ho, hloud, State.addReplies, hring, State.complete, hlife, hst]

end

/-! ## DISPATCH_COMPLETE (R37, R233) -/

theorem State.learn_diesOnly (s : State) (id : Nat) (x : Dispatch) (e : DieEst) : DiesOnly s (s.learn id x e) := rfl

/-- The end of a step, in the order of its parts: its entries, the dies, the key removals that waited, its reply. -/
theorem State.endStep_eq {s : State} {x : Dispatch} {m : Model} (hm : tfind s.models x.model = some m) (id : Nat)
    (outs : List (List Byte)) : ∃ (u : State) (fp : Nat) (es : List (EntryRun × Nat)) (payload : List Byte),
    SeqsOnly s u ∧ u.seqs = (s.endEntries id m x.entries).1.seqs ∧
    s.endStep id x outs = ({ u with disps := tdel u.disps id } : State).settleKeys.finishMany 0x0301 x.pkt .ok fp
      (dispatchReply es x.recs payload) := by
  have unbound (ds : List Nat) (t : State) : DiesOnly t (ds.foldl (fun s d => s.modDie d fun y => y.unbindDispatch id) t) :=
    DiesOnly.foldl (fun _ _ => DiesOnly.modDie ..) ds t
  have learnt (l : List DieEst) (t : State) : DiesOnly t (l.foldl (fun (t : State) e => t.learn id x e) t) :=
    DiesOnly.foldl (fun t e => t.learn_diesOnly id x e) l t
  have ended := s.endEntries_seqsOnly id m x.entries
  have rest := unbound (List.range s.dieCount) (s.endEntries id m x.entries).1
  unfold State.endStep
  rw [hm]
  dsimp only
  split
  next l _ =>
    have all := rest.trans (learnt l.est _)
    exact ⟨_, _, _, _, ended.trans all.seqsOnly, all.seqs, rfl⟩
  next => exact ⟨_, _, _, _, ended.trans rest.seqsOnly, rest.seqs, rfl⟩

theorem exec_dispatchComplete {s : State} {id : Nat} {x : Dispatch} (hr : s.running = true) (hx : tfind s.disps id = some x)
    (hc : x.ctxs = []) (outs : List (List Byte)) :
    exec (.dispatchComplete id outs) s = .next (s.endStep id x outs).resume := by
  have he : doDispatchComplete id outs s = s.endStep id x outs := by simp [doDispatchComplete, hx]
  rw [← he]
  exact event_next rfl (by simp [State.dispatchDue, hr, hx, hc])

/-- A reply to a dispatch has a first entry. -/
theorem dispatchReply_eq_cons (es : List (EntryRun × Nat)) (recs : List RecOut) (payload : List Byte) :
    ∃ a l, dispatchReply es recs payload = a :: l := ⟨_, _, rfl⟩

/-- Settles O8: the entries end one by one, each releasing its sequence (`State.holder_endEntries`); the packet stands on its queue
while key removals are settled (`Queue.Stands.settleKeys`), and its own entries come last. -/
theorem dispatchEnds : Obligations.DispatchEnds := by
  intro s id outs x m hq hx hc hm hapart
  obtain ⟨u, fp, es, payload, hu, hseqs, he⟩ := State.endStep_eq hm id outs
  have stands : ((({ u with disps := tdel u.disps id } : State).settleKeys).queue x.pkt.queue).Stands x.pkt
      (s.queue x.pkt.queue).held := by
    refine Queue.Stands.settleKeys (hq.stands.of_queues hu.queues) fun k hk => hapart k ?_
    rwa [← hu.keyWaits]
  refine ⟨_, exec_dispatchComplete hq.running hx hc outs, ?_⟩
  rw [he]
  refine ⟨?gone, ?released, ?replies⟩
  case gone =>
    rw [(State.onlyReplies_finishMany ..).disps, State.settleKeys_disps]
    exact tfind_tdel_same ..
  case released =>
    intro e hmem q hfind hheld
    rw [(State.onlyReplies_finishMany ..).seqs, State.settleKeys_seqs, hseqs] at hfind
    exact s.holder_endEntries id m hmem (by rw [State.holder, hfind]; exact hheld)
  case replies =>
    have ⟨_, _, _, a, ha⟩ := stands
    obtain ⟨b, l, hl⟩ := dispatchReply_eq_cons es x.recs payload
    rw [stands.finishMany_held hq.ring hq.loud, ha, hl, List.mapIdx_cons]
    exact ⟨a, _, _, rfl, rfl, rfl, rfl⟩

end Sys2Proof.Machine

namespace Sys2Proof.Machine

/-! ## The loss of a channel retires no frame and touches no other die

A copy whose source fails may lose its channel (R348). `RetiredKept` is what that loss leaves alone; one lemma
`<operation>_retiredKept` for each operation it consists of, in the order they call one another. -/

/-- The other dies, and the retired frames of die `d`, are as they were. -/
def RetiredKept (d : Nat) (s t : State) : Prop := OtherDies s t d ∧ (t.die d).retired = (s.die d).retired

section
variable {d : Nat} {s t u : State}

theorem RetiredKept.refl (d : Nat) (s : State) : RetiredKept d s s := ⟨OtherDies.refl s d, rfl⟩

/-- One operation after others; the last comes first, as the state's operations are written. -/
theorem RetiredKept.after (g : RetiredKept d t u) (h : RetiredKept d s t) : RetiredKept d s u :=
  ⟨h.1.trans g.1, g.2.trans h.2⟩

theorem RetiredKept.of_die (h : ∀ e, t.die e = s.die e) : RetiredKept d s t := ⟨fun e _ => h e, by rw [h]⟩

theorem RetiredKept.modDie {f : Die → Die} (h : ∀ x, (f x).retired = x.retired) : RetiredKept d s (s.modDie d f) :=
  ⟨OtherDies.modDie s d f, by rw [State.die_modDie_same, h]⟩

theorem RetiredKept.foldl {α : Type} {g : State → α → State} (h : ∀ s a, RetiredKept d s (g s a)) (l : List α) (s : State) :
    RetiredKept d s (l.foldl g s) :=
  List.foldlRecOn (motive := fun t => RetiredKept d s t) l g (RetiredKept.refl d s) fun t ht a _ => (h t a).after ht

end

theorem State.emit_retiredKept (d : Nat) (s : State) (e : Event) : RetiredKept d s (s.emit e) := .of_die (s.emit_die e)

theorem State.finish_retiredKept (d : Nat) (s : State) (code : Nat) (p : Pkt) (st : Status) (det : Nat) (a b : List Byte) :
    RetiredKept d s (s.finish code p st det a b) := .of_die (s.onlyReplies_finish code p st det a b).die

/-- A fence writes the fences of its die; of the dies nothing else changes. -/
theorem State.fence_frame (s : State) (d kind unit cause : Nat) (region : Option Nat) :
    OtherDies s (s.fence d kind unit cause region) d ∧
      ∃ f, (s.fence d kind unit cause region).die d = { s.die d with fenced := f } := by
  unfold State.fence
  dsimp only
  split_ifs
  · exact ⟨OtherDies.refl s d, _, rfl⟩
  · exact ⟨OtherDies.modDie s d _, _, State.die_modDie_same ..⟩
  · refine ⟨fun e he => ?_, tput (s.die d).fenced (unitKey kind unit) cause, ?_⟩
    · rw [State.emit_die, State.die_modDie_other _ _ he]
    · rw [State.emit_die, State.die_modDie_same]

theorem State.fence_retiredKept (s : State) (d kind unit cause : Nat) (region : Option Nat) :
    RetiredKept d s (s.fence d kind unit cause region) := by
  obtain ⟨other, f, own⟩ := s.fence_frame d kind unit cause region
  exact ⟨other, by rw [own]⟩

theorem SheetsOnly.retired {x y : Die} (h : SheetsOnly x y) : y.retired = x.retired := by
  obtain ⟨_, _, _, rfl⟩ := h
  rfl

theorem State.markGone_retiredKept (s : State) (d : Nat) (hs : List Nat) (st : SheetState) (byIdle : Bool) :
    RetiredKept d s (s.markGone d hs st byIdle) := by
  obtain ⟨other, -, own⟩ := s.markGone_frame d hs st byIdle
  exact ⟨other, by rw [own, ((s.die d).sheetsGone_sheetsOnly hs st).retired]⟩

/-! ### Contexts and knots -/

theorem State.modCtx_retiredKept (s : State) (d c : Nat) (f : Ctx → Ctx) : RetiredKept d s (s.modCtx d c f) :=
  .modDie fun x => by unfold Die.modCtx; split <;> rfl

theorem State.writeRec_retiredKept (s : State) (d c : Nat) (r : CRec) : RetiredKept d s (s.writeRec d c r) :=
  State.modCtx_retiredKept ..

theorem State.drained_die (s : State) (d c : Nat) (l : List CRec) (e : Nat) : (s.drained d c l).die e = s.die e := by
  unfold State.drained
  split
  · rfl
  · split <;> rfl

theorem State.endCtx_retiredKept (s : State) (d c : Nat) (st : Status) : RetiredKept d s (s.endCtx d c st) := by
  unfold State.endCtx
  split
  · exact .refl d s
  next k _ =>
    have drained : RetiredKept d s (s.drained d c (k.ring ++ k.ringWait)) := .of_die (s.drained_die d c _)
    refine (State.modCtx_retiredKept ..).after ?_
    split
    · exact drained
    · split
      · exact drained
      · exact RetiredKept.after (.of_die fun _ => rfl) drained

theorem State.haltOn_retiredKept (s : State) (d : Nat) (k : TileKind) (t : Nat) (st : Status) :
    RetiredKept d s (s.haltOn d k t st) := by
  unfold State.haltOn
  split
  · exact .refl d s
  · exact (State.modCtx_retiredKept ..).after (.modDie fun _ => rfl)

theorem State.orphan_retiredKept (s : State) (d c : Nat) (st : Status) : RetiredKept d s (s.orphan d c st) := by
  unfold State.orphan
  split
  · exact .refl d s
  · split
    · split
      · exact (State.writeRec_retiredKept ..).after (State.haltOn_retiredKept ..)
      · refine RetiredKept.after (.modDie fun _ => rfl) ((State.modCtx_retiredKept ..).after ?_)
        exact (State.endCtx_retiredKept ..).after (State.writeRec_retiredKept ..)
    · exact (State.writeRec_retiredKept ..).after (State.modCtx_retiredKept ..)
    all_goals exact .refl d s

theorem Die.countAt_retired (x : Die) (k u i : Nat) (w : Bool) (n : Nat) : (x.countAt k u i w n).retired = x.retired := by
  unfold Die.countAt
  cases w <;> rfl

theorem Die.count_retired (x : Die) (c : Ctr) (u n : Nat) : (x.count c u n).retired = x.retired := Die.countAt_retired ..

theorem State.untieOne_retiredKept (s : State) (d k : Nat) : RetiredKept d s (s.untieOne d k).1 :=
  RetiredKept.after (.foldl (fun s (w : Nat × BitVec 64) => s.orphan_retiredKept d w.1 _) _ _)
    (RetiredKept.after (.foldl (fun s (w : Pkt × BitVec 64) => State.finish_retiredKept d s 0x0503 w.1 _ _ _ _) _ _)
      (.modDie fun _ => Die.count_retired ..))

theorem State.unwind_retiredKept (d : Nat) : ∀ (n : Nat) (l : List Nat) (s : State), RetiredKept d s (State.unwind d n l s)
  | 0, _, s => by simp [State.unwind, RetiredKept.refl]
  | _ + 1, [], s => by simp [State.unwind, RetiredKept.refl]
  | n + 1, c :: r, s => by
    have step (l : List Nat) (p : State × List Nat) : RetiredKept d p.1 (l.foldl (fun (p : State × List Nat) k =>
        ((p.1.untieOne d k).1, p.2 ++ (p.1.untieOne d k).2)) p).1 := by
      induction l generalizing p with
      | nil => exact .refl d _
      | cons k l ih => exact (ih _).after (State.untieOne_retiredKept ..)
    unfold State.unwind
    exact (State.unwind_retiredKept d n _ _).after (step _ (s, []))

theorem State.failCtx_retiredKept (s : State) (d c : Nat) (st : Status) : RetiredKept d s (s.failCtx d c st) := by
  refine (State.unwind_retiredKept ..).after (RetiredKept.after (.modDie fun x => ?_) ?_)
  · split <;> rfl
  · exact (State.modCtx_retiredKept ..).after (State.endCtx_retiredKept ..)

theorem State.failOn_retiredKept (s : State) (d : Nat) (k : TileKind) (t : Nat) (st : Status) :
    RetiredKept d s (s.failOn d k t st) := by
  unfold State.failOn
  split
  · exact .refl d s
  · exact (State.failCtx_retiredKept ..).after (.modDie fun _ => rfl)

/-! ### Images, rings and the channel -/

theorem State.loseImages_retiredKept (s : State) (d c : Nat) : RetiredKept d s (s.loseImages d c) := by
  refine RetiredKept.foldl (fun t e => ?_) _ s
  extract_lets stored
  split_ifs
  · split
    · exact State.failOn_retiredKept ..
    · exact State.failCtx_retiredKept ..
  · split
    · exact State.modCtx_retiredKept ..
    · exact .refl d t

theorem Die.dealOn_retired (x : Die) (on : List Nat) (owner : Nat) : ∀ {n : Nat} {y : Die} {l : List Nat},
    x.dealOn on owner n = some (y, l) → y.retired = x.retired
  | 0, y, l, h => by cases h; rfl
  | n + 1, y, l, h => by
    unfold Die.dealOn at h
    split at h
    · cases h
    next z k hz =>
      have ih := Die.dealOn_retired x on owner hz
      split at h
      · cases h
      · split at h
        · cases h
        · cases h; exact ih

/-- The result is named, `z`, before the definition is opened: asked for a field of the opened term, the kernel would evaluate the
number of frames, which is a quotient, to decide the cases of `dealOn`. -/
theorem Die.retired_of_placeRing {place : Die → Nat → List Nat → Die} (hp : place = Die.placeRing) {x z : Die} {n : Nat}
    {on : List Nat} (hz : place x n on = z) : z.retired = x.retired := by
  delta Die.placeRing at hp
  subst hp
  dsimp only at hz
  have freed : (x.unreserve (65536 + n)).retired = x.retired := rfl
  split at hz
  next y l h =>
    subst hz
    exact (Die.dealOn_retired _ _ _ h).trans freed
  · subst hz
    exact freed

theorem Die.foldl_retired {α : Type} (g : Die → α → Die) (h : ∀ {x a z}, g x a = z → z.retired = x.retired) (l : List α) (x : Die) :
    (l.foldl g x).retired = x.retired :=
  List.foldlRecOn (motive := fun y => Die.retired y = x.retired) l g rfl fun _ hy _ _ => (h rfl).trans hy

theorem Die.loseRings_retired (x : Die) (c : Nat) : (x.loseRings c).retired = x.retired :=
  Die.foldl_retired _ (fun {y e z} hz => by
    have placed : z.retired = (y.modRing e.1 fun r => { r with rd := r.wr, data := [] }).retired := Die.retired_of_placeRing rfl hz
    exact placed) _ x

theorem State.loseChannel_retiredKept (s : State) (d c cause : Nat) : RetiredKept d s (s.loseChannel d c cause) := by
  unfold State.loseChannel
  split
  · exact .refl d s
  · refine (State.emit_retiredKept ..).after (RetiredKept.after (.modDie fun x => x.loseRings_retired c) ?_)
    refine (State.loseImages_retiredKept ..).after ((State.markGone_retiredKept ..).after ?_)
    exact RetiredKept.after (.modDie fun x => (Die.cancelDst_sheetsOnly _ c).retired) (State.fence_retiredKept ..)

/-! ## A frame is retired (R336) -/

/-- The frame is retired, and of the dies nothing else changes. -/
theorem State.retire_frame (s : State) (d c f cause : Nat) : OtherDies s (s.retire d c f cause) d ∧
    ∃ r, (s.retire d c f cause).die d = { s.die d with retired := r } ∧ frameKey c f ∈ r := by
  unfold State.retire
  split
  next h => exact ⟨OtherDies.refl s d, (s.die d).retired, rfl, List.contains_iff_mem.mp h⟩
  · refine ⟨fun e he => ?_, (s.die d).retired ++ [frameKey c f], ?_, by simp⟩
    · rw [State.emit_die, State.die_modDie_other _ _ he]
    · rw [State.emit_die, State.die_modDie_same]

/-- An uncorrectable error in a frame retires it and touches no other die. -/
theorem State.frameUe_retires (s : State) (d c f : Nat) :
    OtherDies s (s.frameUe d c f) d ∧ frameKey c f ∈ ((s.frameUe d c f).die d).retired := by
  unfold State.frameUe
  extract_lets now s1 s2 s3
  have h2 : OtherDies s s2 d := by
    have h1 : OtherDies s s1 d := OtherDies.modDie s d _
    refine h1.trans ?_
    unfold s2
    split
    · exact State.markGone_otherDies _ _ _ _ _
    · exact OtherDies.refl _ _
  obtain ⟨h3, r, hr, mem⟩ := s2.retire_frame d c f 1
  have hs3 : frameKey c f ∈ (s3.die d).retired := by
    rw [show s3.die d = _ from hr]
    exact mem
  split
  · obtain ⟨h4, kept⟩ := s3.loseChannel_retiredKept d c 1
    exact ⟨h2.trans (h3.trans h4), by rwa [kept]⟩
  · exact ⟨h2.trans h3, hs3⟩

end Sys2Proof.Machine

namespace Sys2Proof.Machine

/-! ## Idle sequences and retention (R35, R51) -/

/-- Nothing differs but dies, sequences and the count of free values. -/
def RecordsOnly (s t : State) : Prop := t = { s with dies := t.dies, seqs := t.seqs, freeCount := t.freeCount }

section
variable {s t u : State}

theorem RecordsOnly.refl (s : State) : RecordsOnly s s := rfl

theorem RecordsOnly.trans (h : RecordsOnly s t) (g : RecordsOnly t u) : RecordsOnly s u := by
  unfold RecordsOnly at *
  rw [g, h]

theorem RecordsOnly.foldl {g : State → Nat → State} (h : ∀ s n, RecordsOnly s (g s n)) (l : List Nat) (s : State) :
    RecordsOnly s (l.foldl g s) :=
  List.foldlRecOn l g (RecordsOnly.refl s) fun t ht n _ => ht.trans (h t n)

theorem RecordsOnly.queues (h : RecordsOnly s t) : t.queues = s.queues := by rw [h]
theorem RecordsOnly.raised (h : RecordsOnly s t) : t.raised = s.raised := by rw [h]
theorem RecordsOnly.tenants (h : RecordsOnly s t) : t.tenants = s.tenants := by rw [h]

end

theorem State.modSeq_recordsOnly (s : State) (n : Nat) (f : Sequence → Sequence) : RecordsOnly s (s.modSeq n f) := by
  unfold State.modSeq
  split <;> rfl

theorem State.setClass_recordsOnly (s : State) (n c : Nat) : RecordsOnly s (s.setClass n c) := by
  unfold State.setClass
  split
  · rfl
  · exact (s.modSeq_recordsOnly n _).trans rfl

/-- A sequence at a check `ms` milliseconds after the last one; `f` is the part open to one suspended since (log entry 38). -/
def Sequence.aged (ms f : Nat) (q : Sequence) : Sequence :=
  if q.st == .suspended then { q with suspMs := q.suspMs + (if q.suspNew then f % (ms + 1) else ms), suspNew := false } else q

/-- One sequence aged. -/
def State.ageOne (s : State) (ms n : Nat) : State := s.freeNat.2.modSeq n (Sequence.aged ms s.freeNat.1)

theorem State.ageSuspended_eq (s : State) (ms : Nat) :
    s.ageSuspended ms = (tkeys s.seqs).eraseDups.foldl (fun s n => s.ageOne ms n) s := rfl

theorem State.ageOne_recordsOnly (s : State) (ms n : Nat) : RecordsOnly s (s.ageOne ms n) :=
  RecordsOnly.trans (t := s.freeNat.2) rfl (State.modSeq_recordsOnly _ _ _)

theorem State.tfind_ageOne_same (s : State) (ms n : Nat) :
    tfind (s.ageOne ms n).seqs n = (tfind s.seqs n).map (Sequence.aged ms s.freeNat.1) := State.tfind_modSeq_same ..

theorem State.tfind_ageOne_other (s : State) (ms : Nat) {n j : Nat} (h : j ≠ n) :
    tfind (s.ageOne ms n).seqs j = tfind s.seqs j := (State.tfind_modSeq ..).trans (if_neg h)

/-- Each sequence listed is aged once, the others not at all. -/
theorem State.tfind_foldl_ageOne {l : List Nat} (hl : l.Nodup) (s : State) (ms : Nat) :
    (∀ n ∈ l, ∃ f, tfind (l.foldl (fun s n => s.ageOne ms n) s).seqs n = (tfind s.seqs n).map (Sequence.aged ms f)) ∧
      ∀ n, n ∉ l → tfind (l.foldl (fun s n => s.ageOne ms n) s).seqs n = tfind s.seqs n := by
  induction l generalizing s with
  | nil => exact ⟨by simp, fun _ _ => rfl⟩
  | cons a l ih =>
    obtain ⟨ha, hl⟩ := List.nodup_cons.mp hl
    obtain ⟨own, rest⟩ := ih hl (s.ageOne ms a)
    refine ⟨fun n hn => ?_, fun n hn => ?_⟩
    · obtain rfl | hn := List.mem_cons.mp hn
      · exact ⟨_, (rest n ha).trans (s.tfind_ageOne_same ms n)⟩
      · obtain ⟨f, hf⟩ := own n hn
        have hne : n ≠ a := fun h => ha (h ▸ hn)
        exact ⟨f, by rw [List.foldl_cons, hf, s.tfind_ageOne_other ms hne]⟩
    · obtain ⟨hne, hn⟩ := not_or.mp (mt List.mem_cons.mpr hn)
      exact (rest n hn).trans (s.tfind_ageOne_other ms hne)

theorem nodup_eraseDups : ∀ l : List Nat, l.eraseDups.Nodup
  | [] => List.nodup_nil
  | a :: l => by
    rw [List.eraseDups_cons]
    refine List.nodup_cons.mpr ⟨?_, nodup_eraseDups _⟩
    simp [List.mem_eraseDups]
termination_by l => l.length
decreasing_by exact Nat.lt_succ_of_le (List.length_filter_le _ _)

theorem State.tfind_ageSuspended {s : State} {n : Nat} {q : Sequence} (h : tfind s.seqs n = some q) (ms : Nat) :
    ∃ f, tfind (s.ageSuspended ms).seqs n = some (q.aged ms f) := by
  have listed : n ∈ (tkeys s.seqs).eraseDups := List.mem_eraseDups.mpr (List.mem_map.mpr ⟨_, mem_of_tfind h, rfl⟩)
  obtain ⟨own, -⟩ := State.tfind_foldl_ageOne (nodup_eraseDups _) s ms
  obtain ⟨f, hf⟩ := own n listed
  exact ⟨f, by rw [State.ageSuspended_eq, hf, h]; rfl⟩

theorem State.tfind_foldl_setClass (l : List Nat) {c : Nat} (hc : c ≠ 0xFF) (s : State) (n : Nat) :
    tfind (l.foldl (fun s n => s.setClass n c) s).seqs n =
      (tfind s.seqs n).map fun q => if n ∈ l then { q with cls := c } else q := by
  induction l generalizing s with
  | nil => simp
  | cons a l ih =>
    rw [List.foldl_cons, ih, State.tfind_setClass _ _ hc]
    by_cases hn : n = a
    · subst hn
      cases tfind s.seqs n <;> simp
    · simp [hn]

theorem State.outlived_congr {s t : State} (h : t.tenants = s.tenants) (q : Sequence) : t.outlived q = s.outlived q := by
  rw [State.outlived, h, State.outlived]

/-- The check of R51 ages every sequence, and those that outlived their tenant's lifetime are class 2 afterwards. -/
theorem doRetention_seq {s : State} {n : Nat} {q : Sequence} (h : tfind s.seqs n = some q) (ms : Nat) :
    ∃ f r, tfind (doRetention ms s).seqs n = some r ∧ r.st = q.st ∧ r.suspMs = (q.aged ms f).suspMs ∧
      r.suspNew = (q.aged ms f).suspNew ∧ (s.outlived (q.aged ms f) = true → r.cls = 2) := by
  obtain ⟨f, hf⟩ := State.tfind_ageSuspended h ms
  have same : (s.ageSuspended ms).tenants = s.tenants :=
    RecordsOnly.tenants (RecordsOnly.foldl (fun s n => s.ageOne_recordsOnly ms n) _ s)
  have hst : (q.aged ms f).st = q.st := by
    unfold Sequence.aged
    split <;> rfl
  refine ⟨f, _, (State.tfind_foldl_setClass _ (by decide) _ n).trans (congrArg _ hf), ?_, ?_, ?_, fun ho => ?_⟩
  · rw [← hst]
    split <;> rfl
  · split <;> rfl
  · split <;> rfl
  · rw [← State.outlived_congr same] at ho
    have listed : n ∈ ((s.ageSuspended ms).seqs.filter fun e => (s.ageSuspended ms).outlived e.2).map (·.1) :=
      List.mem_map.mpr ⟨(n, q.aged ms f), List.mem_filter.mpr ⟨mem_of_tfind hf, ho⟩, rfl⟩
    dsimp only
    rw [if_pos listed]

theorem doRetention_recordsOnly (ms : Nat) (s : State) : RecordsOnly s (doRetention ms s) :=
  RecordsOnly.trans (RecordsOnly.foldl (fun s n => s.ageOne_recordsOnly ms n) _ s)
    (RecordsOnly.foldl (fun s n => s.setClass_recordsOnly n 2) _ _)

/-- What a check adds to a SUSPENDED sequence's time: all that went by, or a part of it where it was suspended since the last one. -/
theorem Sequence.aged_facts (q : Sequence) (ms f : Nat) : (q.st ≠ .suspended → q.aged ms f = q) ∧
    (q.st = .suspended → (q.aged ms f).suspNew = false ∧ q.suspMs ≤ (q.aged ms f).suspMs ∧
      (q.aged ms f).suspMs ≤ q.suspMs + ms ∧ (q.suspNew = false → (q.aged ms f).suspMs = q.suspMs + ms)) := by
  unfold Sequence.aged
  refine ⟨fun h => if_neg (by simpa using h), fun h => ?_⟩
  rw [if_pos (by simp [h])]
  have part : f % (ms + 1) < ms + 1 := Nat.mod_lt _ (Nat.succ_pos ms)
  refine ⟨rfl, Nat.le_add_right .., Nat.add_le_add_left ?_ _, fun hn => ?_⟩
  · split <;> omega
  · simp [hn]

theorem Sequence.outlived_aged {s : State} {q : Sequence} (ms f : Nat) :
    s.outlived (q.aged ms f) = s.outlived { q with suspMs := (q.aged ms f).suspMs } := by
  unfold Sequence.aged
  split <;> rfl

/-! ## The ream table (R43, R44) -/

theorem State.loseSeq_lost {s : State} {n : Nat} {q : Sequence} (h : tfind s.seqs n = some q) (byIdle : Bool) :
    ∃ r, tfind (s.loseSeq byIdle n).seqs n = some r ∧ r.st = .lost := by
  have marked : tfind (s.modSeq n fun q => { q with st := .lost, lostTold := true }).seqs n =
      some { q with st := .lost, lostTold := true } := by rw [State.tfind_modSeq_same, h]; rfl
  unfold State.loseSeq State.seq
  rw [h]
  dsimp only
  split_ifs with hl hb
  · exact ⟨q, h, by simpa using hl⟩
  · exact ⟨_, marked, rfl⟩
  · obtain ⟨-, -, -, hs⟩ := State.emit_frame (s.modSeq n fun q => { q with st := .lost, lostTold := true }) (s.seqLostEvent n q)
    exact ⟨_, hs ▸ marked, rfl⟩

/-- The sequence of a sheet that goes is LOST afterwards. -/
theorem State.markGone_lost {s : State} {d h n : Nat} {q : Sequence} (hn : ((s.die d).entry h).seq = n)
    (hq : tfind s.seqs n = some q) (st : SheetState) (byIdle : Bool) :
    ∃ r, tfind (s.markGone d [h] st byIdle).seqs n = some r ∧ r.st = .lost := by
  have one : s.markGone d [h] st byIdle = (s.setDie d ((s.die d).sheetsGone [h] st)).loseSeq byIdle ((s.die d).entry h).seq := rfl
  rw [one, hn]
  exact State.loseSeq_lost (s := s.setDie d _) hq byIdle

/-- Firmware's rewrite: of the die, the entry is LOST and reported no more. -/
theorem doLostEntryRewrite_facts (d h : Nat) (s : State) :
    OtherDies s (doLostEntryRewrite d h s) d ∧ (((doLostEntryRewrite d h s).die d).entry h).st = .lost ∧
      h ∉ ((doLostEntryRewrite d h s).die d).reamBad ∧
      ∀ q, tfind s.seqs ((s.die d).entry h).seq = some q →
        ∃ r, tfind (doLostEntryRewrite d h s).seqs ((s.die d).entry h).seq = some r ∧ r.st = .lost := by
  unfold doLostEntryRewrite
  obtain ⟨other, -, own⟩ := State.markGone_frame (s.modDie d fun x => { x with reamBad := x.reamBad.filter (· != h) }) d [h]
    .lost false
  rw [own, State.die_modDie_same]
  refine ⟨OtherDies.trans (OtherDies.modDie s d _) other, by simp [Die.sheetsGone_entry], ?_, fun q hq => ?_⟩
  · obtain ⟨_, _, _, e⟩ := Die.sheetsGone_sheetsOnly { s.die d with reamBad := (s.die d).reamBad.filter (· != h) } [h] .lost
    rw [e]
    simp
  · exact State.markGone_lost (s := s.modDie d _) (by rw [State.die_modDie_same]; rfl) hq .lost false

theorem Die.mem_foundBad (x : Die) (bad : List Nat) (h : Nat) :
    h ∈ (x.foundBad bad).reamBad ↔ h ∈ x.reamBad ∨ (h ∈ bad ∧ (x.entry h).st ≠ .free) := by
  by_cases hb : h ∈ x.reamBad <;> simp [Die.foundBad, hb]

/-- Aging rewrites the issued entries; an entry not issued counts no accesses. -/
theorem Die.entry_tmapv_ream (x : Die) (f : Ream → Ream) (hf : f Ream.free = Ream.free) (h : Nat) :
    ({ x with ream := tmapv x.ream fun _ e => f e } : Die).entry h = f (x.entry h) := by
  unfold Die.entry tget
  dsimp only
  rw [tfind_tmapv]
  cases tfind x.ream h <;> simp [hf]

end Sys2Proof.Machine

namespace Sys2Proof.Machine

/-! ## Counters and activities (R106, Table 15-7) -/

/-- `y` differs from `x` in its counters and the activities of the period only. -/
def MetersOnly (x y : Die) : Prop := ∃ ctrs wraps acts, y = { x with ctrs := ctrs, wraps := wraps, acts := acts }

theorem MetersOnly.refl (x : Die) : MetersOnly x x := ⟨_, _, _, rfl⟩

section
variable {x y z : Die}

theorem MetersOnly.trans (h : MetersOnly x y) (g : MetersOnly y z) : MetersOnly x z := by
  obtain ⟨a, b, c, rfl⟩ := h
  obtain ⟨a', b', c', rfl⟩ := g
  exact ⟨a', b', c', rfl⟩

theorem MetersOnly.countAt (h : MetersOnly x y) (k u i : Nat) (w : Bool) (n : Nat) : MetersOnly x (y.countAt k u i w n) := by
  refine h.trans ?_
  unfold Die.countAt
  cases w <;> exact ⟨_, _, _, rfl⟩

theorem MetersOnly.count (h : MetersOnly x y) (c : Ctr) (u n : Nat) : MetersOnly x (y.count c u n) := h.countAt ..

theorem MetersOnly.countMC (h : MetersOnly x y) (c : Ctr) (m n : Nat) : MetersOnly x (y.countMC c m n) := by
  unfold Die.countMC
  split <;> exact h.countAt ..

theorem MetersOnly.memAct (h : MetersOnly x y) (c : Nat) (who : Payer) (n : Nat) : MetersOnly x (y.memAct c who n) :=
  h.trans ⟨_, _, _, rfl⟩

theorem MetersOnly.copies (h : MetersOnly x y) : y.copies = x.copies := by
  obtain ⟨_, _, _, rfl⟩ := h
  rfl

theorem MetersOnly.dram (h : MetersOnly x y) : y.dram = x.dram := by
  obtain ⟨_, _, _, rfl⟩ := h
  rfl

theorem MetersOnly.entry (h : MetersOnly x y) (g : Nat) : y.entry g = x.entry g := by
  obtain ⟨_, _, _, rfl⟩ := h
  rfl

theorem MetersOnly.repNet (h : MetersOnly x y) : y.repNet = x.repNet := by
  obtain ⟨_, _, _, rfl⟩ := h
  rfl

theorem MetersOnly.wringer (h : MetersOnly x y) (v : Nat) : y.wringer v = x.wringer v := by
  obtain ⟨_, _, _, rfl⟩ := h
  rfl

theorem MetersOnly.keyOf (h : MetersOnly x y) (slot : Nat) : y.keyOf slot = x.keyOf slot := by
  obtain ⟨_, _, _, rfl⟩ := h
  rfl

theorem MetersOnly.readSealed (h : MetersOnly x y) (a n key : Nat) (tweakOf : Nat → Nat) :
    y.readSealed a n key tweakOf = x.readSealed a n key tweakOf := by
  obtain ⟨_, _, _, rfl⟩ := h
  rfl

theorem MetersOnly.copyOf (h : MetersOnly x y) (g : Nat) : y.copyOf g = x.copyOf g := by
  rw [Die.copyOf, h.copies, Die.copyOf]

end

/-! ## A frame copied (R50) -/

/-- Listed bytes written at a distance read back there; the other addresses are as they were. -/
theorem mread_foldl_shift (a b i : Nat) : ∀ {cells : Memory} {lo : Nat}, risesFrom lo cells = true → (∀ c ∈ cells, a ≤ c.1) →
    ∀ m : Memory, mread (cells.foldl (fun m c => mwrite m (c.1 - a + b) c.2) m) (b + i) =
      (tfind cells (a + i)).getD (mread m (b + i))
  | [], _, _, _, _ => rfl
  | (j, v) :: l, lo, hr, hc, m => by
    simp only [risesFrom, Bool.and_eq_true, decide_eq_true_eq] at hr
    obtain ⟨-, hr⟩ := hr
    have haj : a ≤ j := hc _ List.mem_cons_self
    rw [List.foldl_cons, mread_foldl_shift a b i hr fun c h => hc c (List.mem_cons_of_mem _ h)]
    by_cases hj : j = a + i
    · have away : tfind l (a + i) = none := tfind_below hr (by omega)
      have back : j - a + b = b + i := by omega
      rw [away, back, mread_mwrite_same]
      simp [tfind, hj]
    · rw [mread_mwrite_other _ _ (by omega : b + i ≠ j - a + b)]
      simp [tfind, hj]

theorem mread_foldl_outside (g : Nat → Nat) (p : Nat) {cells : Memory} (h : ∀ c ∈ cells, g c.1 ≠ p) (m : Memory) :
    mread (cells.foldl (fun m c => mwrite m (g c.1) c.2) m) p = mread m p :=
  List.foldlRecOn (motive := fun n => mread n p = mread m p) cells _ rfl fun _ hn c hc =>
    (mread_mwrite_other _ _ (h c hc).symm).trans hn

/-- The bytes of a frame of 512 KiB from `a` on that are listed. -/
def frameCells (m : Memory) (a : Nat) : Memory := m.filter fun c => decide (a ≤ c.1) && decide (c.1 < a + 524288)

theorem mem_frameCells {m : Memory} {a : Nat} {c : Nat × Byte} (h : c ∈ frameCells m a) : a ≤ c.1 ∧ c.1 < a + 524288 := by
  simpa using (List.mem_filter.mp h).2

theorem tfind_frameCells (m : Memory) (a : Nat) {i : Nat} (hi : i < 524288) : tfind (frameCells m a) (a + i) = tfind m (a + i) := by
  rw [frameCells, tfind_filter fun j => decide (a ≤ j) && decide (j < a + 524288), if_pos (by simp [hi])]

theorem Die.copyFrame_dram (x : Die) (src dst : Loc) : (x.copyFrame src dst).dram =
    (frameCells x.dram (frameAddr src.code src.frame)).foldl
      (fun m c => mwrite m (c.1 - frameAddr src.code src.frame + frameAddr dst.code dst.frame) c.2)
      (mclear x.dram (frameAddr dst.code dst.frame) (frameAddr dst.code dst.frame + 524288)) := rfl

/-- The destination's bytes are the source's. -/
theorem Die.copyFrame_inside {x : Die} (h : Memory.wf x.dram = true) (src dst : Loc) {i : Nat} (hi : i < 524288) :
    mread (x.copyFrame src dst).dram (frameAddr dst.code dst.frame + i) = mread x.dram (frameAddr src.code src.frame + i) := by
  have rises : risesFrom 0 (frameCells x.dram (frameAddr src.code src.frame)) = true :=
    risesFrom_filter _ _ _ (Bool.and_eq_true_iff.mp h).1
  rw [Die.copyFrame_dram, mread_foldl_shift _ _ i rises fun c hc => (mem_frameCells hc).1, tfind_frameCells _ _ hi,
    mread_mclear, if_pos (by omega)]
  rfl

/-- No byte outside the destination changes. -/
theorem Die.copyFrame_outside (x : Die) (src dst : Loc) {p : Nat}
    (hp : p < frameAddr dst.code dst.frame ∨ frameAddr dst.code dst.frame + 524288 ≤ p) :
    mread (x.copyFrame src dst).dram p = mread x.dram p := by
  rw [Die.copyFrame_dram, mread_foldl_outside (fun j => j - frameAddr src.code src.frame + frameAddr dst.code dst.frame) p,
    mread_mclear, if_neg (by omega)]
  intro c hc
  have := mem_frameCells hc
  omega

/-! ## The mover (R48 to R50) -/

theorem Die.copyOf_eq_some {x : Die} {h : Nat} {c : Copy} (hc : x.copyOf h = some c) : c.handle = h ∧ c ∈ x.copies := by
  have found := List.find?_some hc
  simp only [Bool.and_eq_true, beq_iff_eq] at found
  exact ⟨found.1, List.mem_of_find?_eq_some hc⟩

/-- A copy that is cancelled restores its entry and is under way no more. -/
theorem Die.cancelCopy_facts {x : Die} {h : Nat} {c : Copy} (hc : x.copyOf h = some c) :
    (x.cancelCopy h).entry h = { x.entry h with st := c.prev } ∧ (x.cancelCopy h).copyOf h = none := by
  unfold Die.cancelCopy
  rw [hc]
  refine ⟨Die.entry_setEntry_same .., ?_⟩
  have left (k : Copy) (hk : ¬ k.handle = h ∨ k.flipped = true) (hh : k.handle = h) : k.flipped = true :=
    hk.resolve_left (not_not.mpr hh)
  simpa [Die.copyOf] using fun k _ => left k

/-- A copy that flips: the entry lies at the destination. -/
theorem Die.flipCopy_entry (x : Die) (c : Copy) (g : Nat) : (x.flipCopy c).entry g =
    if g = c.handle then { x.entry c.handle with st := c.prev, loc := c.dst } else x.entry g := by
  have copied : ∀ e, (x.copyFrame c.src c.dst).entry e = x.entry e := fun _ => rfl
  by_cases hg : g = c.handle
  · rw [if_pos hg, hg]
    exact Die.entry_setEntry_same ..
  · rw [if_neg hg, ← copied]
    exact Die.entry_setEntry_other _ _ hg

theorem Die.flipCopy_dram (x : Die) (c : Copy) : (x.flipCopy c).dram = (x.copyFrame c.src c.dst).dram := rfl

theorem Die.mem_flipCopy {x : Die} {c : Copy} (h : c ∈ x.copies) : { c with flipped := true } ∈ (x.flipCopy c).copies :=
  List.mem_map.mpr ⟨c, h, if_pos rfl⟩

/-- `t` differs from `s` in counters and activities of die `d` only, as far as dies go. -/
def Metered (d : Nat) (s t : State) : Prop := OtherDies s t d ∧ MetersOnly (s.die d) (t.die d)

theorem Metered.modDie {d : Nat} {s u : State} {f : Die → Die} (h : Metered d s u) (hf : ∀ x, MetersOnly x (f x)) :
    Metered d s (u.modDie d f) :=
  ⟨h.1.trans (OtherDies.modDie u d f), by rw [State.die_modDie_same]; exact h.2.trans (hf _)⟩

/-- The end of a copy, after its accesses are counted. -/
theorem doCopyEnd_eq {s : State} {d h : Nat} {c : Copy} (hc : (s.die d).copyOf h = some c) :
    ∃ u v, Metered d s u ∧ Metered d s v ∧
      (∀ dstBad, doCopyEnd d h true dstBad s = u.frameUe d c.src.code c.src.frame) ∧
      doCopyEnd d h false true s = (v.modDie d fun x => x.cancelCopy h).retire d c.dst.code c.dst.frame 1 ∧
      doCopyEnd d h false false s = v.modDie d fun x => x.flipCopy c := by
  have reads : Metered d s (s.modDie d fun x => (((x.countMC mcReadBytes (chanMC c.src.code) 524288).countMC mcWriteBytes
      (chanMC c.dst.code) 524288).memAct c.src.code .device 524288).memAct c.dst.code .device 524288) :=
    Metered.modDie ⟨OtherDies.refl s d, .refl _⟩ fun x => ((((MetersOnly.refl x).countMC ..).countMC ..).memAct ..).memAct ..
  have checked := Metered.modDie (f := fun x => (x.countMC mcReadBytes (chanMC c.dst.code) 524288).memAct c.dst.code .device 524288)
    reads fun x => ((MetersOnly.refl x).countMC ..).memAct ..
  refine ⟨_, _, reads, checked, fun dstBad => ?_, ?_, ?_⟩ <;>
    · unfold doCopyEnd
      rw [hc]
      rfl

theorem doCopyEnd_flips {s : State} {d h : Nat} {c : Copy} (hc : (s.die d).copyOf h = some c)
    (hwf : Memory.wf (s.die d).dram = true) :
    OtherDies s (doCopyEnd d h false false s) d ∧
      ((doCopyEnd d h false false s).die d).entry h = { (s.die d).entry h with st := c.prev, loc := c.dst } ∧
      (∀ g, g ≠ h → ((doCopyEnd d h false false s).die d).entry g = (s.die d).entry g) ∧
      (∀ i < 524288, mread ((doCopyEnd d h false false s).die d).dram (frameAddr c.dst.code c.dst.frame + i) =
        mread (s.die d).dram (frameAddr c.src.code c.src.frame + i)) ∧
      (∀ a, a < frameAddr c.dst.code c.dst.frame ∨ frameAddr c.dst.code c.dst.frame + 524288 ≤ a →
        mread ((doCopyEnd d h false false s).die d).dram a = mread (s.die d).dram a) ∧
      { c with flipped := true } ∈ ((doCopyEnd d h false false s).die d).copies := by
  obtain ⟨-, v, -, ⟨other, meters⟩, -, -, e⟩ := doCopyEnd_eq hc
  obtain ⟨rfl, hm⟩ := Die.copyOf_eq_some hc
  rw [e, State.die_modDie_same]
  refine ⟨other.trans (OtherDies.modDie v d _), ?_, fun g hg => ?_, fun i hi => ?_, fun a ha => ?_, ?_⟩
  · rw [Die.flipCopy_entry, if_pos rfl, meters.entry]
  · rw [Die.flipCopy_entry, if_neg hg, meters.entry]
  · rw [Die.flipCopy_dram, Die.copyFrame_inside (meters.dram ▸ hwf) _ _ hi, meters.dram]
  · rw [Die.flipCopy_dram, Die.copyFrame_outside _ _ _ ha, meters.dram]
  · exact Die.mem_flipCopy (meters.copies ▸ hm)

theorem doCopyEnd_cancels {s : State} {d h : Nat} {c : Copy} (hc : (s.die d).copyOf h = some c) :
    OtherDies s (doCopyEnd d h false true s) d ∧
      ((doCopyEnd d h false true s).die d).entry h = { (s.die d).entry h with st := c.prev } ∧
      ((doCopyEnd d h false true s).die d).dram = (s.die d).dram ∧
      frameKey c.dst.code c.dst.frame ∈ ((doCopyEnd d h false true s).die d).retired ∧
      ((doCopyEnd d h false true s).die d).copyOf h = none := by
  obtain ⟨-, v, -, ⟨other, meters⟩, -, e, -⟩ := doCopyEnd_eq hc
  obtain ⟨other2, r, hr, mem⟩ := (v.modDie d fun x => x.cancelCopy h).retire_frame d c.dst.code c.dst.frame 1
  obtain ⟨entry, gone⟩ := Die.cancelCopy_facts ((meters.copyOf h).trans hc)
  rw [State.die_modDie_same] at hr
  rw [e, hr]
  refine ⟨other.trans (OtherDies.trans (OtherDies.modDie v d _) other2), ?_, ?_, mem, gone⟩
  · rw [← meters.entry]
    exact entry
  · exact (Die.cancelCopy_dram ..).trans meters.dram

theorem doCopyEnd_loses {s : State} {d h : Nat} {c : Copy} (hc : (s.die d).copyOf h = some c) (dstBad : Bool) :
    OtherDies s (doCopyEnd d h true dstBad s) d ∧
      frameKey c.src.code c.src.frame ∈ ((doCopyEnd d h true dstBad s).die d).retired := by
  obtain ⟨u, -, ⟨other, -⟩, -, e, -⟩ := doCopyEnd_eq hc
  obtain ⟨other2, mem⟩ := u.frameUe_retires d c.src.code c.src.frame
  rw [e]
  exact ⟨other.trans other2, mem⟩

theorem exec_migrationCopyDone {s : State} {d h : Nat} (hd : d < s.dieCount) (hu : s.copyUp d h = true) (srcBad dstBad : Bool) :
    exec (.migrationCopyDone d h srcBad dstBad) s = .next (doCopyEnd d h srcBad dstBad s) :=
  event_next (decide_eq_true hd) hu

theorem exec_migrationStart {s : State} {d h : Nat} {l : Loc} (hd : d < s.dieCount) (hm : s.moverDue d = true)
    (hn : s.nextCopy d = some (h, l)) : exec (.migrationStart d) s = .next (s.startCopy d h l) := by
  change execMigrationStart d s = _
  unfold execMigrationStart
  rw [hn]
  exact event_next (decide_eq_true hd) hm

/-- A copy's start: the entry becomes MOVING, the copy is listed, memory is left alone. -/
theorem State.startCopy_die (s : State) (d h : Nat) (l : Loc) : ∃ hints regions, (s.startCopy d h l).die d =
    { (s.die d).setEntry h { (s.die d).entry h with st := .moving } with
      copies := (s.die d).copies ++
        [{ handle := h, src := ((s.die d).entry h).loc, dst := l, prev := ((s.die d).entry h).st, flipped := false }]
      hints := hints
      regions := regions } := by
  unfold State.startCopy
  rw [State.die_modDie_same]
  exact ⟨_, _, rfl⟩

/-- Settles O22: firmware's records go sequence by sequence (`State.tfind_foldl_ageOne`), and each end of a copy is a lemma of its
own (`doCopyEnd_flips`, `doCopyEnd_cancels`, `doCopyEnd_loses`). -/
theorem reamAndMover : Obligations.ReamAndMover := by
  refine ⟨⟨?aging, ?patrol, ?rewrite, ?timeout, ?retention⟩, ?start, ?ends, ?release⟩
  case aging =>
    intro s d hs
    obtain ⟨-, hd, -⟩ := (s.live_iff d).mp hs
    refine ⟨_, event_next (decide_eq_true hd) hs, OtherDies.modDie s d _, ?_⟩
    rw [State.die_modDie_same]
    exact ⟨rfl, fun h => Die.entry_tmapv_ream _ (fun e => { e with acc := e.acc / 2 }) rfl h⟩
  case patrol =>
    intro s d bad hs
    obtain ⟨-, hd, -⟩ := (s.live_iff d).mp hs
    refine ⟨_, event_next (decide_eq_true hd) hs, OtherDies.modDie s d _, ?_⟩
    rw [State.die_modDie_same]
    exact ⟨rfl, fun h => Die.mem_foundBad ..⟩
  case rewrite =>
    intro s d h hs hb
    obtain ⟨-, hd, -⟩ := (s.live_iff d).mp hs
    exact ⟨_, event_next (decide_eq_true hd) (by simp [hs, hb]), doLostEntryRewrite_facts d h s⟩
  case timeout =>
    intro s n q hs hq hst hh
    obtain ⟨-, hd, -⟩ := (s.live_iff _).mp hs
    obtain ⟨-, dies, -⟩ := s.modSeq_frame n fun q => { q with st := .suspended, suspMs := 0, suspNew := true }
    refine ⟨_, event_next (decide_eq_true hd) (by simp [hs, State.seq, hq, hst, hh]), dies, ?_, fun j hj => ?_⟩
    · rw [State.tfind_modSeq_same, hq]
      rfl
    · rw [State.tfind_modSeq, if_neg hj]
  case retention =>
    intro s ms hr hms
    have only := doRetention_recordsOnly ms s
    refine ⟨_, event_next rfl (by simp [hr, hms]), only.queues, only.raised, fun n q hq => ?_⟩
    obtain ⟨f, r, hf, hst, hms, hnew, hcls⟩ := doRetention_seq hq ms
    obtain ⟨keeps, counts⟩ := q.aged_facts ms f
    refine ⟨r, hf, hst, fun h => ?_, fun h => ?_, fun h => hcls ?_⟩
    · rw [hms, keeps h]
    · rw [hms, hnew]
      exact counts h
    · rwa [Sequence.outlived_aged, ← hms]
  case start =>
    intro s d h l hd hm hn
    obtain ⟨hints, regions, e⟩ := s.startCopy_die d h l
    refine ⟨_, exec_migrationStart hd hm hn, OtherDies.modDie s d _, ?_⟩
    rw [e]
    exact ⟨Die.entry_setEntry_same .., fun g hg => Die.entry_setEntry_other _ _ hg, rfl, rfl⟩
  case ends =>
    intro s d h c hd hu hc
    exact ⟨fun hwf => ⟨_, exec_migrationCopyDone hd hu _ _, doCopyEnd_flips hc hwf⟩,
      ⟨_, exec_migrationCopyDone hd hu _ _, doCopyEnd_cancels hc⟩,
      fun dstBad => ⟨_, exec_migrationCopyDone hd hu _ _, doCopyEnd_loses hc dstBad⟩⟩
  case release =>
    intro s d h c hs hc hdr
    obtain ⟨-, hd, -⟩ := (s.live_iff d).mp hs
    refine ⟨_, event_next (decide_eq_true hd) (by simp [hs, hc, hdr]), OtherDies.modDie s d _, ?_⟩
    rw [doRelease_, State.die_modDie_same, hc]

end Sys2Proof.Machine

namespace Sys2Proof.Machine

/-! ## Grants of a wringer (R24, R57, R73) -/

theorem mem_of_argmin {α : Type} {key : α → Nat} {a : α} : ∀ {l : List α}, argmin key l = some a → a ∈ l
  | [], h => by cases h
  | b :: r, h => by
    unfold argmin at h
    split at h
    · cases h
      exact List.mem_cons_self
    next c hc =>
      have tail : c ∈ r := mem_of_argmin hc
      split_ifs at h <;> cases h
      · exact List.mem_cons_self
      · exact List.mem_cons_of_mem _ tail

theorem mem_of_grantPick {α : Type} {cls waited ord : α → Nat} {l : List α} {a : α} (h : grantPick cls waited ord l = some a) :
    a ∈ l := by
  unfold grantPick at h
  split at h
  next b hb =>
    cases h
    exact List.mem_of_mem_filter (mem_of_argmin hb)
  · split at h
    · exact List.mem_of_mem_filter (mem_of_argmin h)
    · cases h

theorem mem_modAt {α : Type} (f : α → α) : ∀ {l : List α} {k : Nat} {a : α}, l[k]? = some a → f a ∈ modAt f k l
  | [], k, a, h => by simp at h
  | b :: r, 0, a, h => by
    obtain rfl : b = a := by simpa using h
    exact List.mem_cons_self
  | b :: r, k + 1, a, h => List.mem_cons_of_mem _ (mem_modAt f (by simpa using h))

/-- The append that has its turn is open at its place, takes its turn, and is held or not as it was asked for. -/
theorem Die.appendNext_eq_some {x : Die} {w k : Nat} {held : Bool} {o : WOpen} (h : x.appendNext w held = some (k, o)) :
    (x.wringer w).openR[k]? = some o ∧ x.asks o = true ∧ o.req.isAppend = true ∧ o.hold = held := by
  obtain ⟨grant, kind⟩ := Option.filter_eq_some_iff.mp h
  obtain ⟨placed, asks⟩ := List.mem_filter.mp (mem_of_grantPick grant)
  simp only [Bool.and_eq_true, beq_iff_eq] at kind
  obtain ⟨i, hi, e⟩ := List.mem_mapIdx.mp placed
  cases e
  exact ⟨List.getElem?_eq_getElem hi, asks, kind⟩

/-- A held append takes its turn only when its tail is MOVING no more. -/
theorem Die.tailMoving_of_held {x : Die} {w k : Nat} {o : WOpen} (h : x.appendNext w true = some (k, o)) :
    x.tailMoving o.req = false := by
  obtain ⟨-, asks, isAppend, hold⟩ := Die.appendNext_eq_some h
  simpa [Die.asks, isAppend, hold] using asks

theorem exec_append {s : State} {d w k : Nat} {o : WOpen} (hd : d < s.dieCount) (hw : w < 80) (hl : s.wLive d w = true)
    (hr : s.appendReach d o = true) (hn : (s.die d).appendNext w false = some (k, o)) :
    exec (.append d w) s = .next (s.doAppend d w k o) := by
  change execAppend d w s = _
  unfold execAppend
  rw [hn]
  exact event_next (by simp [State.wOn, hd, hw]) (by simp [hl, hr])

theorem exec_appendResume {s : State} {d w k : Nat} {o : WOpen} (hd : d < s.dieCount) (hw : w < 80) (hl : s.wLive d w = true)
    (hr : s.appendReach d o = true) (hn : (s.die d).appendNext w true = some (k, o)) :
    exec (.appendResume d w) s = .next (s.doAppend d w k o) := by
  change execAppendResume d w s = _
  unfold execAppendResume
  rw [hn]
  exact event_next (by simp [State.wOn, hd, hw]) (by simp [hl, hr])

/-! ## Sealed memory written and read (R331) -/

/-- Units listed one after another from `u` on. -/
theorem tfind_foldl_tput {α : Type} (g : Nat → α) (u : Nat) (t : Tbl α) {i n : Nat} (hi : i < n) :
    tfind ((List.range n).foldl (fun t j => tput t (u + j) (g j)) t) (u + i) = some (g i) := by
  induction n with
  | zero => omega
  | succ n ih =>
    rw [List.range_succ, List.foldl_append, List.foldl_cons, List.foldl_nil]
    by_cases hn : i = n
    · rw [hn, tfind_tput_same]
    · rw [tfind_tput_other _ _ (by omega), ih (by omega)]

theorem Die.readSealed_length (x : Die) (a n key : Nat) (tweakOf : Nat → Nat) : (x.readSealed a n key tweakOf).length = n := by
  simp [Die.readSealed]

/-- What was sealed under a key and tweaks reads back under them. -/
theorem Die.readSealed_writeSealed (x : Die) {a p n key : Nat} {tw tw' : Nat → Nat} {bs : List Byte} (ha : a % 16 = 0)
    (hp : p + n ≤ bs.length) (htw : ∀ i < n, tw' i = tw (16 * ((p + i) / 16))) :
    (x.writeSealed a key tw bs).readSealed (a + p) n key tw' = (bs.drop p).take n := by
  refine List.ext_getElem (by simp [Die.readSealed_length]; omega) fun i hi _ => ?_
  rw [Die.readSealed_length] at hi
  have unit : (a + p + i) / 16 = a / 16 + (p + i) / 16 := by omega
  have inside : (p + i) / 16 < ceilDiv bs.length 16 := by unfold ceilDiv; omega
  have data : mread (x.writeSealed a key tw bs).dram (a + p + i) = bs[p + i] := by
    rw [Nat.add_assoc]
    exact mread_mwriteN_inside bs x.dram a (p + i) (by omega)
  have sealed : tfind (x.writeSealed a key tw bs).seals ((a + p + i) / 16) = some { key := key, tweak := tw' i } := by
    rw [unit, htw i hi]
    exact tfind_foldl_tput (fun j => { key := key, tweak := tw (16 * j) }) (a / 16) x.seals inside
  simp only [Die.readSealed, List.getElem_map, List.getElem_range, sealed, data]
  simp

theorem frameAddr_mod (c f : Nat) : frameAddr c f % 16 = 0 := by
  unfold frameAddr
  omega

/-- The bytes written for `bs` at byte `off`: whole 16-byte units. -/
theorem ceilDiv_units (n : Nat) : n ≤ ceilDiv n 16 * 16 := by
  unfold ceilDiv
  omega

section
variable (x : Die) (d h : Nat) (e : Ream) (off : Nat) (bs : List Byte)

/-- A write into a sheet is a sealed write of whole units, with `bs` at its place among them. -/
theorem Die.writeSheet_eq : ∃ pre post : List Byte, pre.length = off - off / 16 * 16 ∧
    (pre ++ bs ++ post).length = ceilDiv (off + bs.length) 16 * 16 - off / 16 * 16 ∧
    x.writeSheet d h e off bs = x.writeSealed (frameAddr e.loc.code e.loc.frame + off / 16 * 16) (x.keyOf e.slot)
      (fun i => sheetTweak d h ((off / 16 * 16 + i) / 16)) (pre ++ bs ++ post) := by
  refine ⟨_, _, Die.readSealed_length .., ?_, rfl⟩
  have := ceilDiv_units (off + bs.length)
  simp only [List.length_append, Die.readSealed_length]
  omega

/-- The bytes read back under the sheet's key and tweaks. -/
theorem Die.readSealed_writeSheet :
    (x.writeSheet d h e off bs).readSealed (frameAddr e.loc.code e.loc.frame + off) bs.length (x.keyOf e.slot)
      (fun j => sheetTweak d h ((off + j) / 16)) = bs := by
  obtain ⟨pre, post, hpre, -, eq⟩ := x.writeSheet_eq d h e off bs
  have aligned := frameAddr_mod e.loc.code e.loc.frame
  have place : frameAddr e.loc.code e.loc.frame + off = frameAddr e.loc.code e.loc.frame + off / 16 * 16 + pre.length := by omega
  have tweaks (i : Nat) : sheetTweak d h ((off + i) / 16) =
      sheetTweak d h ((off / 16 * 16 + 16 * ((pre.length + i) / 16)) / 16) := congrArg _ (by omega)
  rw [eq, place, Die.readSealed_writeSealed x (by omega) (by simp) fun i _ => tweaks i]
  simp

/-- No byte outside the units changes. -/
theorem Die.writeSheet_outside {a : Nat} (ha : a < frameAddr e.loc.code e.loc.frame + off / 16 * 16 ∨
    frameAddr e.loc.code e.loc.frame + ceilDiv (off + bs.length) 16 * 16 ≤ a) :
    mread (x.writeSheet d h e off bs).dram a = mread x.dram a := by
  obtain ⟨pre, post, -, hlen, eq⟩ := x.writeSheet_eq d h e off bs
  have := ceilDiv_units (off + bs.length)
  rw [eq]
  exact mread_mwriteN_outside _ _ _ _ (by omega)

end

/-! ## An append runs (R73 to R75) -/

/-- The entry of a tail that took the slots of `q` (R43). -/
def WReq.grown (q : WReq) (e : Ream) : Ream :=
  { e with
    tok := e.tok + q.t
    st := if e.tok + q.t = sheetSpan q.h q.d e.fmt then .full else .tail }

/-- A reply on its way. -/
def Die.sending (x : Die) (r : WRep) : Die := { x with repNet := x.repNet ++ [r] }

theorem State.sendRep_eq (s : State) (d w : Nat) (r : WRep) :
    s.sendRep d w r = s.modDie d fun x => (x.sending r).count wrRequests w 1 := rfl

theorem MetersOnly.sending {x y : Die} (h : MetersOnly x y) (r : WRep) : MetersOnly (x.sending r) (y.sending r) := by
  obtain ⟨c, v, a, rfl⟩ := h
  exact ⟨c, v, a, rfl⟩

/-- The die after an append: the slots written, the entry grown, one reply sent. -/
def Die.afterAppend (x : Die) (d h : Nat) (e : Ream) (q : WReq) (r : WRep) : Die :=
  ((x.writeSheet d h e (e.tok * slotBytes q.h q.d e.fmt) (q.slots e.fmt).1).setEntry h (q.grown e)).sending r

theorem State.writeAppend_die (s : State) (d w : Nat) (q : WReq) (h : Nat) (e : Ream) :
    OtherDies s (s.writeAppend d w q h e) d ∧
      MetersOnly ((s.die d).afterAppend d h e q (q.appendReply .ok d w (e.tok + q.t) (q.slots e.fmt).2))
        ((s.writeAppend d w q h e).die d) := by
  unfold State.writeAppend
  extract_lets p b tok full
  have grown : ({ e with tok := tok, st := if full then .full else .tail } : Ream) = q.grown e := by
    simp [WReq.grown, full, tok]
  refine ⟨OtherDies.trans (OtherDies.modDie s d _) (OtherDies.modDie _ d _), ?_⟩
  rw [State.sendRep_eq, State.die_modDie_same, State.die_modDie_same, grown]
  refine ((MetersOnly.memAct ?_ ..).sending _).count ..
  exact ((((((MetersOnly.refl _).count ..).count ..).count ..).count ..).count ..).countMC ..

/-- An append that passes every check of R73 writes behind its tail. -/
theorem State.doAppend_runs {s : State} {d w k : Nat} {o : WOpen} {res : List Resolved} {h : Nat} {e : Ream}
    (hmov : (s.die d).tailMoving o.req = false) (hopen : ((s.die d).region (chanRegion ((s.die d).tailChan o))).closed = false)
    (hh : h = o.req.handles.headD 0) (he : e = (s.die d).entry h) (hres : (s.die d).resolve o.req = .found res)
    (hok : s.appendOk o.req e = true) (hslot : (s.die d).slotLoaded e.slot = true)
    (hiso : ((s.die d).region (chanRegion e.loc.code)).isolated = false) :
    ∃ u wringers regions, OtherDies s u d ∧ u.die d = { s.die d with wringers := wringers, regions := regions } ∧
      s.doAppend d w k o = u.writeAppend d w o.req h e := by
  subst hh he
  refine ⟨s.modDie d fun x => (x.modWringer w fun g => { g with openR := x.othersAfter g.openR k o.req.cls }).modRegion
    (chanRegion ((s.die d).entry (o.req.handles.headD 0)).loc.code) Region.reach, _, _, OtherDies.modDie s d _,
    State.die_modDie_same .., ?_⟩
  unfold State.doAppend State.runAppend
  simp [hmov, hopen, hres, hok, hslot, hiso, -List.headD_eq_head?_getD]

theorem Die.afterAppend_entry (x : Die) (d h : Nat) (e : Ream) (q : WReq) (r : WRep) (g : Nat) :
    (x.afterAppend d h e q r).entry g = if g = h then q.grown e else x.entry g := by
  by_cases hg : g = h
  · rw [if_pos hg, hg]
    exact Die.entry_setEntry_same ..
  · rw [if_neg hg]
    exact Die.entry_setEntry_other _ _ hg

/-! ## A wringer is fenced (R85) -/

/-- The answers of a wringer that is fenced. -/
def Die.fencedReplies (x : Die) (d w : Nat) : List WRep :=
  ((x.wringer w).openR.map fun o => { o with fail := some (.unitFenced, 0xFFFF, x.answerTok o.req 0) }.reply d w) ++
    (x.wringer w).input.map fun q => q.answer .unitFenced d w 0xFFFF (x.answerTok q 0)

theorem Die.fencedReplies_length (x : Die) (d w : Nat) :
    (x.fencedReplies d w).length = (x.wringer w).openR.length + (x.wringer w).input.length := by
  simp [Die.fencedReplies]

theorem Die.mem_fencedReplies {x : Die} {d w : Nat} {r : WRep} (h : r ∈ x.fencedReplies d w) :
    r.status = .unitFenced ∧ r.w = w ∧ r.die = d := by
  obtain h | h := List.mem_append.mp h
  all_goals
    obtain ⟨_, -, rfl⟩ := List.mem_map.mp h
    exact ⟨rfl, rfl, rfl⟩

theorem Die.answerFenced_meters (x : Die) (d w : Nat) : MetersOnly
    { (x.modWringer w fun _ => Wringer.reset) with repNet := x.repNet ++ x.fencedReplies d w } (x.answerFenced d w) :=
  (MetersOnly.refl _).count ..

theorem Die.wringer_modWringer_other (x : Die) {w v : Nat} (h : v ≠ w) (f : Wringer → Wringer) :
    (x.modWringer w f).wringer v = x.wringer v := tget_tmod_other _ _ _ _ h

theorem Die.answerFenced_facts (x : Die) (d w : Nat) :
    (x.answerFenced d w).wringer w = Wringer.reset ∧ (∀ v, v ≠ w → (x.answerFenced d w).wringer v = x.wringer v) ∧
      (x.answerFenced d w).repNet = x.repNet ++ x.fencedReplies d w := by
  have meters := x.answerFenced_meters d w
  exact ⟨(meters.wringer w).trans (x.wringer_modWringer_same w fun _ => Wringer.reset),
    fun v hv => (meters.wringer v).trans (x.wringer_modWringer_other hv fun _ => Wringer.reset), meters.repNet⟩

theorem doWringerFence_facts (d w cause : Nat) (s : State) :
    OtherDies s (doWringerFence d w cause s) d ∧ ((doWringerFence d w cause s).die d).isFenced 4 w = true ∧
      ∃ f, (doWringerFence d w cause s).die d = { (s.die d).answerFenced d w with fenced := f } := by
  obtain ⟨other, f, own⟩ := (s.modDie d fun x => x.answerFenced d w).fence_frame d 4 w cause (some (chanRegion w))
  rw [State.die_modDie_same] at own
  exact ⟨OtherDies.trans (OtherDies.modDie s d _) other, by simp [doWringerFence, State.fence_isFenced], f, own⟩

/-- Settles O21: an append whose checks pass is one sealed write of whole units (`Die.readSealed_writeSheet`) and one entry write
(`Die.afterAppend`); a fenced wringer's answers are `Die.fencedReplies`. -/
theorem wringerAppendsAndFences : Obligations.WringerAppendsAndFences := by
  refine ⟨⟨?held, ?runs⟩, ?fenced⟩
  case held =>
    intro s d w k o hd hw hl hn hr hmov
    obtain ⟨placed, -, -, -⟩ := Die.appendNext_eq_some hn
    refine ⟨_, exec_append hd hw hl hr hn, ?_⟩
    rw [State.doAppend, if_pos hmov]
    refine ⟨OtherDies.modDie s d _, ?_⟩
    rw [State.modWringer, State.die_modDie_same, Die.wringer_modWringer_same]
    exact ⟨rfl, rfl, rfl, mem_modAt (fun o => { o with hold := true }) placed⟩
  case runs =>
    intro s i d w h k o e res off bs hd hw hl hr hi hopen hh he hres hok hslot hiso hoff hbs
    have granted : exec i s = .next (s.doAppend d w k o) ∧ (s.die d).tailMoving o.req = false := by
      obtain ⟨rfl, hn, hmov⟩ | ⟨rfl, hn⟩ := hi
      · exact ⟨exec_append hd hw hl hr hn, hmov⟩
      · exact ⟨exec_appendResume hd hw hl hr hn, Die.tailMoving_of_held hn⟩
    obtain ⟨runs, hmov⟩ := granted
    obtain ⟨u, wringers, regions, other, own, writes⟩ := State.doAppend_runs (w := w) (k := k) hmov hopen hh he hres hok hslot hiso
    obtain ⟨other2, meters⟩ := u.writeAppend_die d w o.req h e
    subst hoff hbs
    rw [own] at meters
    refine ⟨_, runs, ?_⟩
    rw [writes]
    refine ⟨other.trans other2, ?_, fun g hg => ?_, ?_, fun a ha => ?_, _, meters.repNet, rfl, rfl, rfl, rfl⟩
    · rw [meters.entry, Die.afterAppend_entry, if_pos rfl]
      rfl
    · rw [meters.entry, Die.afterAppend_entry, if_neg hg]
      rfl
    · rw [meters.keyOf, meters.readSealed]
      exact Die.readSealed_writeSheet _ d h e _ _
    · rw [meters.dram]
      exact Die.writeSheet_outside _ d h e _ _ ha
  case fenced =>
    intro s d w cause hd hw hdue
    obtain ⟨other, isFenced, f, own⟩ := doWringerFence_facts d w cause s
    obtain ⟨idle, others, replies⟩ := (s.die d).answerFenced_facts d w
    have wringer (v : Nat) : ((doWringerFence d w cause s).die d).wringer v = ((s.die d).answerFenced d w).wringer v := by
      rw [own]
      rfl
    refine ⟨_, event_next (by simp [State.wOn, hd, hw]) hdue, other, isFenced, ?_, ?_, fun v hv => ?_, ?_⟩
    · rw [wringer, idle]
      rfl
    · rw [wringer, idle]
      rfl
    · rw [wringer, others v hv]
    · refine ⟨(s.die d).fencedReplies d w, ?_, Die.fencedReplies_length .., fun r hr => Die.mem_fencedReplies hr⟩
      rw [own]
      exact replies

end Sys2Proof.Machine

namespace Sys2Proof.Machine

/-! ## Meters, continued -/

section
variable {x y : Die}

theorem MetersOnly.reqNet (h : MetersOnly x y) : y.reqNet = x.reqNet := by
  obtain ⟨_, _, _, rfl⟩ := h
  rfl

theorem MetersOnly.ream (h : MetersOnly x y) : y.ream = x.ream := by
  obtain ⟨_, _, _, rfl⟩ := h
  rfl

theorem MetersOnly.wringers (h : MetersOnly x y) : y.wringers = x.wringers := by
  obtain ⟨_, _, _, rfl⟩ := h
  rfl

theorem MetersOnly.mtiles (h : MetersOnly x y) : y.mtiles = x.mtiles := by
  obtain ⟨_, _, _, rfl⟩ := h
  rfl

theorem MetersOnly.router (h : MetersOnly x y) (k : Nat) : y.router k = x.router k := by
  obtain ⟨_, _, _, rfl⟩ := h
  rfl

theorem MetersOnly.act (h : MetersOnly x y) (row : Nat) (who : Payer) (n : Nat) : MetersOnly x (y.act row who n) :=
  h.trans ⟨_, _, _, rfl⟩

theorem MetersOnly.countRT (h : MetersOnly x y) (c : Ctr) (k n : Nat) : MetersOnly x (y.countRT c k n) := by
  unfold Die.countRT
  split <;> exact h.countAt ..

end

theorem State.sendRep_die (s : State) (d w : Nat) (r : WRep) :
    OtherDies s (s.sendRep d w r) d ∧ MetersOnly ((s.die d).sending r) ((s.sendRep d w r).die d) := by
  rw [State.sendRep_eq, State.die_modDie_same]
  exact ⟨OtherDies.modDie s d _, (MetersOnly.refl _).count ..⟩

theorem State.emit_raised_length (s : State) (e : Event) : (s.emit e).raised.length = s.raised.length + 1 := by
  unfold State.emit
  split <;> simp [State.freeNat]

@[simp] theorem Die.sending_repNet (x : Die) (r : WRep) : (x.sending r).repNet = x.repNet ++ [r] := rfl
@[simp] theorem Die.sending_reqNet (x : Die) (r : WRep) : (x.sending r).reqNet = x.reqNet := rfl
@[simp] theorem Die.sending_wringers (x : Die) (r : WRep) : (x.sending r).wringers = x.wringers := rfl
@[simp] theorem Die.sending_wringer (x : Die) (r : WRep) (v : Nat) : (x.sending r).wringer v = x.wringer v := rfl

/-! ## A request arrives at a wringer (R57, R82, R85, R86) -/

/-- The die that has taken a request from its network. -/
def Die.received (x : Die) (q : WReq) : Die := { x with reqNet := x.reqNet.erase q }

@[simp] theorem Die.received_reqNet (x : Die) (q : WReq) : (x.received q).reqNet = x.reqNet.erase q := rfl
@[simp] theorem Die.received_repNet (x : Die) (q : WReq) : (x.received q).repNet = x.repNet := rfl
@[simp] theorem Die.received_dram (x : Die) (q : WReq) : (x.received q).dram = x.dram := rfl
@[simp] theorem Die.received_wringers (x : Die) (q : WReq) : (x.received q).wringers = x.wringers := rfl
@[simp] theorem Die.received_router (x : Die) (q : WReq) (k : Nat) : (x.received q).router k = x.router k := rfl

theorem Die.router_modRouter_same (x : Die) (k : Nat) (f : Router → Router) : (x.modRouter k f).router k = f (x.router k) :=
  tget_tmod_same ..

section
variable {s : State} {d w : Nat} {q : WReq}

theorem exec_wringAccept (hd : d < s.dieCount) (hw : w < 80) (ha : s.acceptDue d w = true) :
    exec (.wringAccept d w) s = .next (doWringAccept d w s) :=
  event_next (by simp [State.wOn, hd, hw]) ha

theorem doWringAccept_enters (hq : (s.die d).arriving w = some q) (hout : (s.die d).wringerOut w = false)
    (hup : s.wringerUp d w = true) : OtherDies s (doWringAccept d w s) d ∧ (doWringAccept d w s).die d =
      (((s.die d).received q).modRegion (chanRegion w) Region.stay).modWringer w fun g => { g with input := g.input ++ [q] } := by
  unfold doWringAccept
  rw [hq]
  dsimp only
  rw [if_neg (by simp [hout]), if_pos hup, State.die_modDie_same, State.die_modDie_same]
  exact ⟨(OtherDies.modDie s d _).trans (OtherDies.modDie _ d _), rfl⟩

theorem doWringAccept_waits (hq : (s.die d).arriving w = some q) (hout : (s.die d).wringerOut w = false)
    (hup : s.wringerUp d w = false) : OtherDies s (doWringAccept d w s) d ∧
      MetersOnly (((s.die d).received q).modRouter (128 + chanRegion w) fun k => { k with wakeReq := k.wakeReq ++ [q] })
        ((doWringAccept d w s).die d) := by
  unfold doWringAccept
  rw [hq]
  dsimp only
  rw [if_neg (by simp [hout]), if_neg (by simp [hup]), State.die_modDie_same, State.die_modDie_same]
  exact ⟨(OtherDies.modDie s d _).trans (OtherDies.modDie _ d _), (MetersOnly.refl _).countRT ..⟩

theorem doWringAccept_answers (hq : (s.die d).arriving w = some q) (hout : (s.die d).wringerOut w = true) :
    OtherDies s (doWringAccept d w s) d ∧
      MetersOnly (((s.die d).received q).sending (q.answer .unitFenced d w 0xFFFF ((s.die d).answerTok q 0)))
        ((doWringAccept d w s).die d) := by
  unfold doWringAccept
  rw [hq]
  dsimp only
  rw [if_pos hout, State.die_modDie_same, State.die_modDie_same]
  exact ⟨(OtherDies.modDie s d _).trans (OtherDies.modDie _ d _), (MetersOnly.refl _).count ..⟩

/-! ## A request opens (R57, R60, R61) -/

theorem exec_requestOpen (hd : d < s.dieCount) (hw : w < 80) (hl : s.wLive d w = true)
    (hq : ((s.die d).wringer w).nextOpen = some q) : exec (.requestOpen d w) s = .next (doRequestOpen d w s) :=
  event_next (by simp [State.wOn, hd, hw]) (by simp [hl, hq])

/-- The state in which a request has left the input buffer. -/
def State.unbuffer (s : State) (d w : Nat) (q : WReq) : State := s.modWringer d w fun g => { g with input := g.input.erase q }

theorem State.unbuffer_die (s : State) (d w : Nat) (q : WReq) : OtherDies s (s.unbuffer d w q) d ∧
    (s.unbuffer d w q).die d = (s.die d).modWringer w fun g => { g with input := g.input.erase q } :=
  ⟨OtherDies.modDie s d _, State.die_modDie_same ..⟩

theorem doRequestOpen_refuses (hq : ((s.die d).wringer w).nextOpen = some q) (hok : q.ok = false) :
    doRequestOpen d w s = (s.unbuffer d w q).sendRep d w (q.answer .badParam d w 0xFFFF ((s.die d).answerTok q 0)) := by
  unfold doRequestOpen
  rw [hq]
  exact if_neg (by simp [hok])

theorem doRequestOpen_wrong (hq : ((s.die d).wringer w).nextOpen = some q) (hok : q.ok = true)
    (hr : (s.die d).resolve q = .wrong) : doRequestOpen d w s =
      ((s.unbuffer d w q).dispatchFault d w q).sendRep d w (q.answer .badParam d w 0xFFFF ((s.die d).answerTok q 0)) := by
  unfold doRequestOpen
  rw [hq]
  dsimp only
  rw [if_pos hok, hr]
  rfl

theorem doRequestOpen_lost {i tok : Nat} (hq : ((s.die d).wringer w).nextOpen = some q) (hok : q.ok = true)
    (hr : (s.die d).resolve q = .lost i tok) : doRequestOpen d w s =
      (s.unbuffer d w q).sendRep d w (q.answer .stateLost d w i ((s.die d).answerTok q tok)) := by
  unfold doRequestOpen
  rw [hq]
  dsimp only
  rw [if_pos hok, hr]
  rfl

/-- A request that opens with its handles resolved. -/
def Die.opening (x : Die) (q : WReq) (res : List Resolved) : WOpen :=
  let p := if q.isAppend then ([], Ev.none) else q.openRows
  WOpen.start q res p.2.fp p.1 (q.isAppend && x.tailMoving q)

theorem doRequestOpen_opens {res : List Resolved} (hq : ((s.die d).wringer w).nextOpen = some q) (hok : q.ok = true)
    (hr : (s.die d).resolve q = .found res) : doRequestOpen d w s =
      (s.unbuffer d w q).modWringer d w fun g => { g with openR := g.openR ++ [(s.die d).opening q res] } := by
  unfold doRequestOpen
  rw [hq]
  dsimp only
  rw [if_pos hok, hr]
  rfl

/-- The answer of a request that does not open leaves from the die that `u` has. -/
theorem State.sendRep_unbuffered {u : State} (hu : OtherDies s u d) (own : u.die d = (s.unbuffer d w q).die d) (r : WRep) :
    OtherDies s (u.sendRep d w r) d ∧ ((u.sendRep d w r).die d).repNet = (s.die d).repNet ++ [r] ∧
      (((u.sendRep d w r).die d).wringer w).openR = ((s.die d).wringer w).openR := by
  obtain ⟨other, meters⟩ := u.sendRep_die d w r
  obtain ⟨-, own2⟩ := s.unbuffer_die d w q
  rw [own, own2] at meters
  refine ⟨hu.trans other, meters.repNet, ?_⟩
  rw [meters.wringer, Die.sending_wringer, Die.wringer_modWringer_same]

end

/-! ## A sheet is granted (R57, R62, R69, R82) -/

theorem Die.nextSheet_eq {x : Die} {w i : Nat} {o : WOpen} {r : Resolved} (hg : x.granted w = some (i, o))
    (hr : o.res[o.done]? = some r) : x.nextSheet w = some (i, o, r) := by
  simp [Die.nextSheet, hg, hr]

/-- The die after a turn of the open request at place `i` in class `c`, which stands last then, as `o`. -/
def Die.turned (x : Die) (w i c : Nat) (o : WOpen) : Die := x.modWringer w fun g => { g with openR := x.afterGrant g.openR i c o }

theorem Die.mem_turned (x : Die) (w i c : Nat) (o : WOpen) : { o with waited := 0 } ∈ ((x.turned w i c o).wringer w).openR := by
  rw [Die.turned, Die.wringer_modWringer_same]
  exact List.mem_append_right _ List.mem_cons_self

/-- The state in which the controller of a remote sheet has granted its read (R81). -/
def State.sheetGranted (s : State) (d w : Nat) (o : WOpen) (r : Resolved) : State :=
  if remoteRead w o.req.chan r.loc then
    (s.grantAsk d (chanMC r.loc.code)).modDie d fun x => x.modRegion (chanRegion r.loc.code) Region.reach
  else s

section
variable {s : State} {d w i : Nat} {o : WOpen} {r : Resolved}

theorem exec_sheetStream (hd : d < s.dieCount) (hw : w < 80) (hs : s.streamDue d w = true) (bad : Bool) :
    exec (.sheetStream d w bad 0) s = .next (doSheetStream d w bad s) :=
  event_next (by simp [State.wOn, hd, hw]) hs

theorem doSheetStream_skips (hn : (s.die d).nextSheet w = some (i, o, r)) (hv : o.req.seen r = []) (bad : Bool) :
    doSheetStream d w bad s = (s.modDie d fun x => x.turned w i o.req.cls
      { o with done := o.done + 1, skipped := o.skipped + 1 }).modDie d fun x => x.count wrSheetsSkipped w 1 := by
  unfold doSheetStream
  rw [hn]
  exact if_pos (by simp [hv])

theorem doSheetStream_asks (hn : (s.die d).nextSheet w = some (i, o, r)) (hv : o.req.seen r ≠ [])
    (hc : ((s.die d).region (chanRegion r.loc.code)).closed = true) (bad : Bool) :
    doSheetStream d w bad s = s.modDie d fun x => x.modRegion (chanRegion r.loc.code) Region.reach := by
  unfold doSheetStream
  rw [hn]
  dsimp only
  rw [if_neg (by simpa using hv), if_pos hc]

theorem doSheetStream_reads (hn : (s.die d).nextSheet w = some (i, o, r)) (hv : o.req.seen r ≠ [])
    (hc : ((s.die d).region (chanRegion r.loc.code)).closed = false) (hs : s.readStop d w o r = none) :
    doSheetStream d w false s = (s.sheetGranted d w o r).readSheet d w i o r := by
  unfold doSheetStream
  rw [hn]
  dsimp only
  rw [if_neg (by simpa using hv), if_neg (by simp [hc]), hs]
  rfl

theorem doSheetStream_loses (hn : (s.die d).nextSheet w = some (i, o, r)) (hv : o.req.seen r ≠ [])
    (hc : ((s.die d).region (chanRegion r.loc.code)).closed = false) (hs : s.readStop d w o r = none) :
    doSheetStream d w true s = (((s.sheetGranted d w o r).modDie d fun x => x.turned w i o.req.cls
      { o with fail := some (.stateLost, o.done, r.first) }).frameUe d r.loc.code r.loc.frame).loseRead d o.req r := by
  unfold doSheetStream
  rw [hn]
  dsimp only
  rw [if_neg (by simpa using hv), if_neg (by simp [hc]), hs]
  exact if_pos rfl

end

/-- `y` differs from `x` in its memory controllers, its regions and its meters only. -/
def ReachOnly (x y : Die) : Prop :=
  ∃ mcs regions ctrs wraps acts, y = { x with mcs := mcs, regions := regions, ctrs := ctrs, wraps := wraps, acts := acts }

theorem State.grantAsk_die (s : State) (d m : Nat) : OtherDies s (s.grantAsk d m) d ∧
    ReachOnly (s.die d) ((s.grantAsk d m).die d) := by
  unfold State.grantAsk
  split
  · exact ⟨OtherDies.refl s d, _, _, _, _, _, rfl⟩
  next i k _ =>
    obtain ⟨c, v, a, counted⟩ := (MetersOnly.refl ((s.die d).modMC m fun g =>
      g.afterAccess (s.remoteAsks d m) i ((s.die d).mcPanic m && reqIsPort k.req) k)).countMC mcPanicGrants m
        (b2n ((s.die d).mcPanic m && reqIsPort k.req))
    exact ⟨OtherDies.modDie s d _, _, _, c, v, a, (State.die_modDie_same ..).trans counted⟩

theorem State.sheetGranted_die (s : State) (d w : Nat) (o : WOpen) (r : Resolved) : OtherDies s (s.sheetGranted d w o r) d ∧
    ReachOnly (s.die d) ((s.sheetGranted d w o r).die d) := by
  unfold State.sheetGranted
  split
  · obtain ⟨other, mcs, regions, c, v, a, own⟩ := s.grantAsk_die d (chanMC r.loc.code)
    refine ⟨other.trans (OtherDies.modDie _ d _), ?_⟩
    rw [State.die_modDie_same, own]
    exact ⟨_, _, c, v, a, rfl⟩
  · exact ⟨OtherDies.refl s d, _, _, _, _, _, rfl⟩

/-! ## A sheet is read (R43, R62, R69) -/

/-- The request after a sheet was read: one more is done, with its scores. -/
theorem State.readSheet_die (s : State) (d w i : Nat) (o : WOpen) (r : Resolved) : OtherDies s (s.readSheet d w i o r) d ∧
    ∃ o1 : WOpen, o1.req = o.req ∧ o1.done = o.done + 1 ∧ o1.scores = o.scores + o.req.scoresOn r ∧
      MetersOnly (((s.die d).turned w i o.req.cls o1).bumpAcc r.handle) ((s.readSheet d w i o r).die d) := by
  unfold State.readSheet
  extract_lets x q u lo hi n rem o1
  refine ⟨OtherDies.modDie s d _, o1, rfl, rfl, rfl, ?_⟩
  rw [State.die_modDie_same]
  exact (((((((MetersOnly.refl _).count ..).count ..).count ..).count ..).countMC ..).memAct ..).act ..

theorem Die.bumpAcc_entry_same {x : Die} {h : Nat} (hf : (x.entry h).st ≠ .free) (hb : h ∉ x.reamBad) :
    (x.bumpAcc h).entry h = { x.entry h with acc := min 255 ((x.entry h).acc + 1) } := by
  unfold Die.bumpAcc
  rw [if_neg (by simp [hf, hb])]
  exact Die.entry_setEntry_same ..

theorem Die.bumpAcc_entry_other (x : Die) {h g : Nat} (hg : g ≠ h) : (x.bumpAcc h).entry g = x.entry g := by
  unfold Die.bumpAcc
  dsimp only
  split
  · rfl
  · exact Die.entry_setEntry_other _ _ hg

/-- Of a die, a rise of `acc_count` writes the ream table only. -/
theorem Die.bumpAcc_eq (x : Die) (h : Nat) : ∃ ream, x.bumpAcc h = { x with ream := ream } := by
  unfold Die.bumpAcc
  dsimp only
  split
  · exact ⟨_, rfl⟩
  · exact ⟨_, rfl⟩

/-- Of a sheet's read, after the controller's grant: its entry counts the access, no memory is written, and the request goes on. -/
theorem State.sheetRead_facts (s : State) (d w i : Nat) (o : WOpen) (r : Resolved) {t : State}
    (ht : (s.sheetGranted d w o r).readSheet d w i o r = t) : OtherDies s t d ∧ (t.die d).dram = (s.die d).dram ∧
      (t.die d).repNet = (s.die d).repNet ∧
      (((s.die d).entry r.handle).st ≠ .free → r.handle ∉ (s.die d).reamBad →
        (t.die d).entry r.handle = { (s.die d).entry r.handle with acc := min 255 (((s.die d).entry r.handle).acc + 1) }) ∧
      (∀ h, h ≠ r.handle → (t.die d).entry h = (s.die d).entry h) ∧
      ∃ o', o' ∈ ((t.die d).wringer w).openR ∧ o'.req = o.req ∧ o'.done = o.done + 1 ∧
        o'.scores = o.scores + o.req.scoresOn r := by
  obtain ⟨other, _, _, _, _, _, granted⟩ := s.sheetGranted_die d w o r
  obtain ⟨other2, o1, hreq, hdone, hscores, meters⟩ := (s.sheetGranted d w o r).readSheet_die d w i o r
  obtain ⟨ream, bumped⟩ := (((s.sheetGranted d w o r).die d).turned w i o.req.cls o1).bumpAcc_eq r.handle
  rw [ht] at other2 meters
  refine ⟨other.trans other2, ?_, ?_, fun hf hb => ?_, fun h hh => ?_, { o1 with waited := 0 }, ?_, hreq, hdone, hscores⟩
  · rw [meters.dram, bumped, granted]
    rfl
  · rw [meters.repNet, bumped, granted]
    rfl
  · rw [meters.entry, granted]
    exact Die.bumpAcc_entry_same hf hb
  · rw [meters.entry, Die.bumpAcc_entry_other _ hh, granted]
    rfl
  · rw [meters.wringer, bumped]
    exact Die.mem_turned ..

theorem State.loseRead_retiredKept (s : State) (d : Nat) (q : WReq) (r : Resolved) : RetiredKept d s (s.loseRead d q r) := by
  unfold State.loseRead
  dsimp only
  split
  · exact .refl d s
  · exact State.markGone_retiredKept ..

/-- A sheet that cannot be corrected: its frame is retired, and no other die changes. -/
theorem State.sheetLost_retires (s : State) (d : Nat) (q : WReq) (r : Resolved) :
    OtherDies s ((s.frameUe d r.loc.code r.loc.frame).loseRead d q r) d ∧
      frameKey r.loc.code r.loc.frame ∈ (((s.frameUe d r.loc.code r.loc.frame).loseRead d q r).die d).retired := by
  obtain ⟨other, retired⟩ := s.frameUe_retires d r.loc.code r.loc.frame
  obtain ⟨other2, kept⟩ := (s.frameUe d r.loc.code r.loc.frame).loseRead_retiredKept d q r
  exact ⟨other.trans other2, by rwa [kept]⟩

/-! ## A request is answered (R64) -/

theorem exec_partial {s : State} {d w : Nat} {o : WOpen} (hd : d < s.dieCount) (hw : w < 80) (hl : s.wLive d w = true)
    (ho : ((s.die d).wringer w).openR.find? WOpen.over_ = some o) : exec (.partial_ d w) s = .next (doPartialSend d w s) := by
  have finished : ((s.die d).wringer w).openR.any WOpen.over_ = true :=
    List.any_eq_true.mpr ⟨o, List.mem_of_find?_eq_some ho, List.find?_some ho⟩
  exact event_next (by simp [State.wOn, hd, hw]) (by simp [hl, finished])

theorem doPartialSend_die {s : State} {d w : Nat} {o : WOpen}
    (ho : ((s.die d).wringer w).openR.find? WOpen.over_ = some o) : OtherDies s (doPartialSend d w s) d ∧
      MetersOnly (((s.die d).modWringer w fun g => { g with openR := g.openR.erase o }).sending (o.reply d w))
        ((doPartialSend d w s).die d) := by
  unfold doPartialSend
  rw [ho]
  dsimp only
  obtain ⟨other, meters⟩ := State.sendRep_die ((s.modWringer d w fun g => { g with openR := g.openR.erase o }).modDie d fun x =>
    x.count wrNanRows w (if o.fail.isSome then 0 else (o.rows.filter WRow.nan).length)) d w (o.reply d w)
  refine ⟨((OtherDies.modDie s d _).trans (OtherDies.modDie _ d _)).trans other, MetersOnly.trans ?_ meters⟩
  rw [State.modWringer, State.die_modDie_same, State.die_modDie_same]
  exact ((MetersOnly.refl _).count ..).sending _

/-- Settles O20: one equation for each outcome of the four steps of a request, read off for its die. -/
theorem wringRequests : Obligations.WringRequests := by
  refine ⟨⟨?accept, ?opens⟩, ?stream, ?answered⟩
  case accept =>
    intro s d w q hd hw ha hq
    refine ⟨fun hout hup => ⟨_, exec_wringAccept hd hw ha, ?_⟩, fun hout hup => ⟨_, exec_wringAccept hd hw ha, ?_⟩,
      fun hout => ⟨_, exec_wringAccept hd hw ha, ?_⟩⟩
    · obtain ⟨other, own⟩ := doWringAccept_enters hq hout hup
      refine ⟨other, by simp [own], by simp [own], by simp [own], ?_⟩
      rw [own, Die.wringer_modWringer_same]
      simp [Die.wringer]
    · obtain ⟨other, meters⟩ := doWringAccept_waits hq hout hup
      refine ⟨other, by simp [meters.wringers], by simp [meters.reqNet], by simp [meters.repNet], ?_⟩
      rw [meters.router, Die.router_modRouter_same, Die.received_router]
    · obtain ⟨other, meters⟩ := doWringAccept_answers hq hout
      exact ⟨other, by simp [meters.wringers], by simp [meters.reqNet], by simp [meters.repNet]⟩
  case opens =>
    intro s d w q hd hw hl hq
    have runs := exec_requestOpen hd hw hl hq
    obtain ⟨other, own⟩ := s.unbuffer_die d w q
    refine ⟨fun res hok hr => ⟨_, runs, ?_⟩, fun hok => ⟨_, runs, ?_⟩, fun hok hr => ⟨_, runs, ?_⟩,
      fun i tok hok hr => ⟨_, runs, ?_⟩⟩
    · rw [doRequestOpen_opens hq hok hr]
      refine ⟨other.trans (OtherDies.modDie _ d _), ?_⟩
      rw [State.modWringer, State.die_modDie_same, own, Die.wringer_modWringer_same, Die.wringer_modWringer_same]
      exact ⟨rfl, rfl, _, rfl, rfl, rfl, rfl, rfl⟩
    · rw [doRequestOpen_refuses hq hok]
      obtain ⟨others, replies, opened⟩ := State.sendRep_unbuffered other rfl
        (q.answer .badParam d w 0xFFFF ((s.die d).answerTok q 0))
      exact ⟨others, opened, replies⟩
    · rw [doRequestOpen_wrong hq hok hr]
      have same (e : Nat) : ((s.unbuffer d w q).dispatchFault d w q).die e = (s.unbuffer d w q).die e := State.emit_die ..
      obtain ⟨others, replies, -⟩ := State.sendRep_unbuffered (w := w) (other.trans fun e _ => same e) (same d)
        (q.answer .badParam d w 0xFFFF ((s.die d).answerTok q 0))
      exact ⟨others, State.emit_raised_length .., replies⟩
    · rw [doRequestOpen_lost hq hok hr]
      obtain ⟨others, replies, -⟩ := State.sendRep_unbuffered other rfl (q.answer .stateLost d w i ((s.die d).answerTok q tok))
      exact ⟨others, replies⟩
  case stream =>
    intro s d w i o r hd hw hs hg hr
    have next := Die.nextSheet_eq hg hr
    have runs := exec_sheetStream hd hw hs
    refine ⟨fun bad hv => ⟨_, runs bad, ?_⟩, fun hv hc => ⟨_, runs false, ?_⟩, fun hv hc hstop => ⟨_, runs false, ?_⟩,
      fun hv hc hstop => ⟨_, runs true, ?_⟩⟩
    · rw [doSheetStream_skips next hv]
      refine ⟨(OtherDies.modDie s d _).trans (OtherDies.modDie _ d _), ?_⟩
      rw [State.die_modDie_same, State.die_modDie_same]
      have meters := (MetersOnly.refl ((s.die d).turned w i o.req.cls
        { o with done := o.done + 1, skipped := o.skipped + 1 })).count wrSheetsSkipped w 1
      refine ⟨meters.ream, meters.dram, meters.repNet, ?_⟩
      rw [meters.wringer]
      exact Die.mem_turned ..
    · rw [doSheetStream_asks next hv hc]
      refine ⟨OtherDies.modDie s d _, ?_⟩
      rw [State.die_modDie_same, Die.region_modRegion_same, Region.reach, if_pos hc]
      exact ⟨rfl, rfl, rfl⟩
    · rw [doSheetStream_reads next hv hc hstop]
      exact s.sheetRead_facts d w i o r rfl
    · rw [doSheetStream_loses next hv hc hstop]
      obtain ⟨other, -⟩ := s.sheetGranted_die d w o r
      obtain ⟨other2, retired⟩ := State.sheetLost_retires ((s.sheetGranted d w o r).modDie d fun x => x.turned w i o.req.cls
        { o with fail := some (.stateLost, o.done, r.first) }) d o.req r
      exact ⟨(other.trans (OtherDies.modDie _ d _)).trans other2, retired⟩
  case answered =>
    intro s d w o hd hw hl ho
    obtain ⟨other, meters⟩ := doPartialSend_die ho
    refine ⟨_, exec_partial hd hw hl ho, other, meters.repNet, ?_, ?_, meters.ream, meters.dram⟩
    · rw [meters.wringer, Die.sending_wringer, Die.wringer_modWringer_same]
    · rw [meters.wringer, Die.sending_wringer, Die.wringer_modWringer_same]

end Sys2Proof.Machine

namespace Sys2Proof.Machine

/-! ## What the ends of contexts and descriptors write of the dies

`ContextsOnly` is the footprint; one lemma `<operation>_contextsOnly` for each operation, in the order they call one another. -/

/-- `y` differs from `x` in contexts, the tiles' occupancy, knots and their operations under way, streams and meters only. -/
def ContextFields (x y : Die) : Prop := ∃ ctxs occ knots knotNet streams ctrs wraps acts, y =
  { x with
    ctxs := ctxs, occ := occ, knots := knots, knotNet := knotNet, streams := streams, ctrs := ctrs, wraps := wraps, acts := acts }

theorem ContextFields.refl (x : Die) : ContextFields x x := ⟨_, _, _, _, _, _, _, _, rfl⟩

theorem ContextFields.trans {x y z : Die} (h : ContextFields x y) (g : ContextFields y z) : ContextFields x z := by
  obtain ⟨_, _, _, _, _, _, _, _, rfl⟩ := h
  obtain ⟨_, _, _, _, _, _, _, _, rfl⟩ := g
  exact ⟨_, _, _, _, _, _, _, _, rfl⟩

theorem ContextFields.mtiles {x y : Die} (h : ContextFields x y) : y.mtiles = x.mtiles := by
  obtain ⟨_, _, _, _, _, _, _, _, rfl⟩ := h
  rfl

theorem MetersOnly.contextFields {x y : Die} (h : MetersOnly x y) : ContextFields x y := by
  obtain ⟨_, _, _, rfl⟩ := h
  exact ⟨_, _, _, _, _, _, _, _, rfl⟩

/-- Of the dies, only die `d` differs, in `ContextFields`. -/
def ContextsOnly (d : Nat) (s t : State) : Prop := OtherDies s t d ∧ ContextFields (s.die d) (t.die d)

section
variable {d : Nat} {s t u : State}

theorem ContextsOnly.refl (d : Nat) (s : State) : ContextsOnly d s s := ⟨OtherDies.refl s d, .refl _⟩

/-- One operation after others; the last comes first, as the state's operations are written. -/
theorem ContextsOnly.after (g : ContextsOnly d t u) (h : ContextsOnly d s t) : ContextsOnly d s u :=
  ⟨h.1.trans g.1, h.2.trans g.2⟩

theorem ContextsOnly.of_die (h : ∀ e, t.die e = s.die e) : ContextsOnly d s t := ⟨fun e _ => h e, h d ▸ .refl _⟩

theorem ContextsOnly.modDie {f : Die → Die} (h : ∀ x, ContextFields x (f x)) : ContextsOnly d s (s.modDie d f) :=
  ⟨OtherDies.modDie s d f, State.die_modDie_same s d f ▸ h _⟩

theorem ContextsOnly.foldl {α : Type} {g : State → α → State} (h : ∀ s a, ContextsOnly d s (g s a)) (l : List α) (s : State) :
    ContextsOnly d s (l.foldl g s) :=
  List.foldlRecOn (motive := fun t => ContextsOnly d s t) l g (ContextsOnly.refl d s) fun t ht a _ => (h t a).after ht

end

theorem Die.modCtx_contextFields (x : Die) (c : Nat) (f : Ctx → Ctx) : ContextFields x (x.modCtx c f) := by
  unfold Die.modCtx
  split <;> exact ⟨_, _, _, _, _, _, _, _, rfl⟩

theorem Die.modOcc_contextFields (x : Die) (k : TileKind) (t : Nat) (f : Occ → Occ) : ContextFields x (x.modOcc k t f) :=
  ⟨_, _, _, _, _, _, _, _, rfl⟩

theorem Die.modKnot_contextFields (x : Die) (k : Nat) (f : Knot → Knot) : ContextFields x (x.modKnot k f) :=
  ⟨_, _, _, _, _, _, _, _, rfl⟩

theorem Die.endStreams_contextFields (x : Die) (y : Ctx) : ContextFields x (x.endStreams y) := ⟨_, _, _, _, _, _, _, _, rfl⟩

section
variable (s : State) (d : Nat)

theorem State.finish_contextsOnly (code : Nat) (p : Pkt) (st : Status) (det : Nat) (a b : List Byte) :
    ContextsOnly d s (s.finish code p st det a b) := .of_die (s.onlyReplies_finish code p st det a b).die

theorem State.modCtx_contextsOnly (c : Nat) (f : Ctx → Ctx) : ContextsOnly d s (s.modCtx d c f) :=
  .modDie fun x => x.modCtx_contextFields c f

theorem State.writeRec_contextsOnly (c : Nat) (r : CRec) : ContextsOnly d s (s.writeRec d c r) := s.modCtx_contextsOnly d c _

theorem State.failServed_die (c : Nat) (st : Status) (only : Option Nat) (e : Nat) :
    (s.failServed d c st only).die e = s.die e := by
  unfold State.failServed
  split
  · rfl
  · split <;> rfl

theorem State.sendAdd_contextsOnly (k : Nat) (n : BitVec 64) : ContextsOnly d s (s.sendAdd d k n) :=
  .modDie fun _ => ⟨_, _, _, _, _, _, _, _, rfl⟩

theorem State.endDesc_contextsOnly (c : Nat) (desc : BitVec 512) (st : Status) (fp : Nat) (checked : Bool) (only : Option Nat) :
    ContextsOnly d s (s.endDesc d c desc st fp checked only) := by
  unfold State.endDesc
  extract_lets s1 s2 own
  have h1 : ContextsOnly d s s1 := s.writeRec_contextsOnly d c _
  have h2 : ContextsOnly d s s2 := by
    unfold s2
    split
    · exact h1
    · exact ContextsOnly.after (.of_die (s1.failServed_die d c st only)) h1
  split
  · exact (s2.sendAdd_contextsOnly d _ 1).after h2
  · exact h2

theorem State.endCtx_contextsOnly (c : Nat) (st : Status) : ContextsOnly d s (s.endCtx d c st) := by
  unfold State.endCtx
  split
  · exact .refl d s
  next k _ =>
    have drained : ContextsOnly d s (s.drained d c (k.ring ++ k.ringWait)) := .of_die (s.drained_die d c _)
    refine (State.modCtx_contextsOnly ..).after ?_
    split
    · exact drained
    · split
      · exact drained
      · exact ContextsOnly.after (.of_die fun _ => rfl) drained

theorem State.haltOn_contextsOnly (k : TileKind) (t : Nat) (st : Status) : ContextsOnly d s (s.haltOn d k t st) := by
  unfold State.haltOn
  split
  · exact .refl d s
  · exact (State.modCtx_contextsOnly ..).after (.modDie fun x => x.modOcc_contextFields ..)

theorem State.orphan_contextsOnly (c : Nat) (st : Status) : ContextsOnly d s (s.orphan d c st) := by
  unfold State.orphan
  split
  · exact .refl d s
  · split
    · split
      · exact (State.writeRec_contextsOnly ..).after (s.haltOn_contextsOnly ..)
      · refine ContextsOnly.after (.modDie fun x => x.endStreams_contextFields _) ((State.modCtx_contextsOnly ..).after ?_)
        exact (State.endCtx_contextsOnly ..).after (s.writeRec_contextsOnly ..)
    · exact (State.writeRec_contextsOnly ..).after (s.modCtx_contextsOnly ..)
    all_goals exact .refl d s

theorem State.untieOne_contextsOnly (k : Nat) : ContextsOnly d s (s.untieOne d k).1 := by
  refine ContextsOnly.after (.foldl (fun s (w : Nat × BitVec 64) => s.orphan_contextsOnly d w.1 _) _ _)
    (ContextsOnly.after (.foldl (fun s (w : Pkt × BitVec 64) => s.finish_contextsOnly d 0x0503 w.1 _ _ _ _) _ _)
      (.modDie fun x => ?_))
  exact (x.modKnot_contextFields k _).trans ((MetersOnly.refl _).count ..).contextFields

end

theorem State.unwind_contextsOnly (d : Nat) : ∀ (n : Nat) (l : List Nat) (s : State), ContextsOnly d s (State.unwind d n l s)
  | 0, _, s => by simp [State.unwind, ContextsOnly.refl]
  | _ + 1, [], s => by simp [State.unwind, ContextsOnly.refl]
  | n + 1, c :: r, s => by
    have step (l : List Nat) (p : State × List Nat) : ContextsOnly d p.1 (l.foldl (fun (p : State × List Nat) k =>
        ((p.1.untieOne d k).1, p.2 ++ (p.1.untieOne d k).2)) p).1 := by
      induction l generalizing p with
      | nil => exact .refl d _
      | cons k l ih => exact (ih _).after (State.untieOne_contextsOnly ..)
    unfold State.unwind
    exact (State.unwind_contextsOnly d n _ _).after (step _ (s, []))

theorem State.failCtx_contextsOnly (s : State) (d c : Nat) (st : Status) : ContextsOnly d s (s.failCtx d c st) := by
  refine (State.unwind_contextsOnly ..).after (ContextsOnly.after (.modDie fun x => ?_) ?_)
  · split
    · exact ⟨_, _, _, _, _, _, _, _, rfl⟩
    · exact .refl x
  · exact (State.modCtx_contextsOnly ..).after (s.endCtx_contextsOnly ..)

theorem State.failOn_contextsOnly (s : State) (d : Nat) (k : TileKind) (t : Nat) (st : Status) :
    ContextsOnly d s (s.failOn d k t st) := by
  unfold State.failOn
  split
  · exact .refl d s
  · exact (State.failCtx_contextsOnly ..).after (.modDie fun x => x.modOcc_contextFields ..)

end Sys2Proof.Machine

namespace Sys2Proof.Machine

/-! ## An array of the state -/

theorem Die.mtile_modMTile_other (x : Die) {t u : Nat} (f : MTile → MTile) (h : u ≠ t) : (x.modMTile t f).mtile u = x.mtile u :=
  tget_tmod_other _ _ _ _ h

@[simp] theorem MTile.arr_modArr_same (m : MTile) (k : Nat) (f : Arr → Arr) : (m.modArr k f).arr k = f (m.arr k) := by
  unfold MTile.modArr MTile.arr
  split <;> rfl

@[simp] theorem MTile.modArr_mem (m : MTile) (k : Nat) (f : Arr → Arr) : (m.modArr k f).mem = m.mem := by
  unfold MTile.modArr
  split <;> rfl

/-- What `f` leaves alone of one die, it leaves alone of every die. -/
theorem State.die_modDie_congr {α : Type} (g : Die → α) {f : Die → Die} (h : ∀ x, g (f x) = g x) (s : State) (d e : Nat) :
    g ((s.modDie d f).die e) = g (s.die e) := by
  by_cases he : e = d
  · rw [he, State.die_modDie_same, h]
  · rw [State.die_modDie_other _ _ he]

section
variable (s : State) (a : AAt) (f : Arr → Arr)

@[simp] theorem State.array_modArray : (s.modArray a f).array a = f (s.array a) := by
  simp [State.array, State.modArray]

@[simp] theorem State.aMem_modArray : (s.modArray a f).aMem a = s.aMem a := by
  simp [State.aMem, State.modArray]

@[simp] theorem State.modArray_reqNet (e : Nat) : ((s.modArray a f).die e).reqNet = (s.die e).reqNet :=
  State.die_modDie_congr Die.reqNet (f := fun x => x.modMTile a.tile fun t => t.modArr (a.arr % 2) f) (fun _ => rfl) s a.die e

@[simp] theorem State.modArray_repNet (e : Nat) : ((s.modArray a f).die e).repNet = (s.die e).repNet :=
  State.die_modDie_congr Die.repNet (f := fun x => x.modMTile a.tile fun t => t.modArr (a.arr % 2) f) (fun _ => rfl) s a.die e

end

/-- What writes no matrix tile leaves the arrays and their memories. -/
theorem State.array_of_mtiles {s t : State} {a : AAt} (h : (t.die a.die).mtiles = (s.die a.die).mtiles) :
    t.array a = s.array a ∧ t.aMem a = s.aMem a := by
  simp [State.array, State.aMem, Die.mtile, h]

/-! ## What an array does by itself (R120, R122) -/

/-- What the array's own passes and epilogues keep: all but dies; requests and replies on their way; its tile's memory, its open
ATTENDs and its queue. -/
structure ArrayWork (a : AAt) (s t : State) : Prop where
  only   : DiesOnly s t
  reqNet : ∀ e, (t.die e).reqNet = (s.die e).reqNet
  repNet : ∀ e, (t.die e).repNet = (s.die e).repNet
  mem    : t.aMem a = s.aMem a
  atts   : (t.array a).atts = (s.array a).atts
  queue  : (t.array a).queue = (s.array a).queue

section
variable {a : AAt} {s t u : State}

theorem ArrayWork.refl (a : AAt) (s : State) : ArrayWork a s s := ⟨.refl s, fun _ => rfl, fun _ => rfl, rfl, rfl, rfl⟩

theorem ArrayWork.trans (h : ArrayWork a s t) (g : ArrayWork a t u) : ArrayWork a s u where
  only := h.only.trans g.only
  reqNet e := (g.reqNet e).trans (h.reqNet e)
  repNet e := (g.repNet e).trans (h.repNet e)
  mem := g.mem.trans h.mem
  atts := g.atts.trans h.atts
  queue := g.queue.trans h.queue

theorem ArrayWork.modArray {f : Arr → Arr} (h : ∀ r, (f r).atts = r.atts ∧ (f r).queue = r.queue) :
    ArrayWork a s (s.modArray a f) where
  only := .modDie ..
  reqNet := s.modArray_reqNet a f
  repNet := s.modArray_repNet a f
  mem := s.aMem_modArray a f
  atts := by rw [State.array_modArray, (h _).1]
  queue := by rw [State.array_modArray, (h _).2]

theorem ArrayWork.metered {f : Die → Die} (g : ArrayWork a s t) (h : ∀ x, MetersOnly x (f x)) :
    ArrayWork a s (t.modDie a.die f) := by
  obtain ⟨array, mem⟩ := State.array_of_mtiles (s := t) (t := t.modDie a.die f) (a := a)
    (State.die_modDie_congr Die.mtiles (fun x => (h x).mtiles) t a.die a.die)
  exact g.trans ⟨.modDie .., State.die_modDie_congr Die.reqNet (fun x => (h x).reqNet) t a.die,
    State.die_modDie_congr Die.repNet (fun x => (h x).repNet) t a.die, mem, by rw [array], by rw [array]⟩

end

theorem MetersOnly.passAct {x y : Die} (h : MetersOnly x y) (a : AAt) (d : BitVec 512) (b : Blk) (n : Nat) :
    MetersOnly x (y.passAct a d b n) := by
  unfold Die.passAct
  split <;> exact h.act ..

theorem MetersOnly.passCount {x y : Die} (h : MetersOnly x y) (a : AAt) (d : BitVec 512) (rows passes : Nat) (ev : Ev) :
    MetersOnly x (y.passCount a d rows passes ev) := ((h.count ..).count ..).count ..

theorem MetersOnly.outCount {x y : Die} (h : MetersOnly x y) (a : AAt) (ev : Ev) : MetersOnly x (y.outCount a ev) :=
  (((h.count ..).count ..).count ..).count ..

theorem State.doPass_arrayWork (s : State) (a : AAt) (q : Nat) : ArrayWork a s (s.doPass a q) := by
  unfold State.doPass
  dsimp only
  split
  · exact ArrayWork.metered (.modArray fun _ => ⟨rfl, rfl⟩) fun x => ((MetersOnly.refl x).passCount ..).passAct ..
  · exact .refl a s

theorem State.doEpi_arrayWork (s : State) (a : AAt) (q : Nat) : ArrayWork a s (s.doEpi a q) := by
  unfold State.doEpi
  dsimp only
  split
  · exact .refl a s
  · exact ArrayWork.metered (.modArray fun _ => ⟨rfl, rfl⟩) fun x => (MetersOnly.refl x).outCount ..

theorem State.arrStep_arrayWork {s t : State} {a : AAt} (h : s.arrStep a = some t) : ArrayWork a s t := by
  unfold State.arrStep at h
  split at h
  next q _ =>
    cases h
    exact s.doPass_arrayWork a q
  · obtain ⟨q, -, rfl⟩ := Option.map_eq_some_iff.mp h
    exact s.doEpi_arrayWork a q

theorem State.arrSteps_arrayWork (a : AAt) : ∀ (n : Nat) (s : State), ArrayWork a s (State.arrSteps n s a)
  | 0, s => .refl a s
  | n + 1, s => by
    unfold State.arrSteps
    split
    next t h => exact (State.arrStep_arrayWork h).trans (State.arrSteps_arrayWork a n t)
    · exact .refl a s

theorem State.settle_arrayWork (s : State) (a : AAt) : ArrayWork a s (s.settle a) :=
  (State.arrSteps_arrayWork a _ s).trans (.modArray fun _ => ⟨rfl, rfl⟩)

/-- An open ATTEND is what it was before the array's own work. -/
theorem ArrayWork.att {a : AAt} {s t : State} (h : ArrayWork a s t) (slot : Nat) : t.att a slot = s.att a slot := by
  rw [State.att, h.atts, State.att]

/-- A step whose memories report nothing: its effect, then the array's own work. -/
theorem event_aword {s : State} {a : AAt} {u e : Bool} {go : State → State} (hu : u = true) (he : e = true) (herr : a.err = 0) :
    event s u e (s.aword a go) = .next ((go s).settle a) := by
  rw [event_next hu he, State.aword, if_neg (by simp [herr]), if_neg (by simp [herr])]

/-- A step whose memories report an uncorrectable error: the array is fenced instead (R140). -/
theorem event_aword_fences {s : State} {a : AAt} {u e : Bool} (go : State → State) (hu : u = true) (he : e = true)
    (herr : 2 ≤ a.err) : event s u e (s.aword a go) = .next (s.fenceArray a 1) := by
  rw [event_next hu he, State.aword, if_pos herr]

/-! ## Requests of an ATTEND leave (R56, R76, R85) -/

theorem modAt_eq_modify {α : Type} (f : α → α) : ∀ (i : Nat) (l : List α), modAt f i l = l.modify i f
  | i, [] => by cases i <;> rfl
  | 0, _ :: _ => rfl
  | i + 1, b :: l => by rw [modAt, modAt_eq_modify f i l, List.modify_succ_cons]

theorem getElem?_modAt {α : Type} (f : α → α) (i k : Nat) (l : List α) :
    (modAt f i l)[k]? = if i = k then l[k]?.map f else l[k]? := by
  rw [modAt_eq_modify, List.getElem?_modify]
  split <;> simp

theorem getElem?_modAt_same {α : Type} {f : α → α} {i : Nat} {l : List α} {b : α} (h : l[i]? = some b) :
    (modAt f i l)[i]? = some (f b) := by
  rw [getElem?_modAt, if_pos rfl, h]
  rfl

/-- The ATTEND of a slot after a change that keeps the slot. -/
theorem State.att_modAtt {s : State} {a : AAt} {slot : Nat} {v : Att} (h : s.att a slot = some v) {f : Att → Att}
    (hf : ∀ t, t.slot = slot → (f t).slot = slot) : (s.modAtt a slot f).att a slot = some (f v) := by
  have own : v.slot = slot := by simpa using List.find?_some h
  have slots : ((fun t : Att => t.slot == slot) ∘ fun t => if t.slot = slot then f t else t) = fun t => t.slot == slot := by
    funext t
    by_cases ht : t.slot = slot <;> simp [ht, hf]
  unfold State.att at h ⊢
  rw [State.modAtt, State.array_modArray, List.find?_map, slots, h, Option.map_some, if_pos own]

section
variable {s : State} {a : AAt} {slot i : Nat} {v : Att}

/-- A request leaves for its sequence's die. -/
theorem State.sendReq_reqNet (s : State) (q : WReq) :
    ((s.sendReq q).die (seqDie q.seq)).reqNet = (s.die (seqDie q.seq)).reqNet ++ [q] :=
  congrArg Die.reqNet (State.die_modDie_same ..)

/-- A request that leaves writes no array. -/
theorem State.sendReq_array (s : State) (q : WReq) (a : AAt) : (s.sendReq q).array a = s.array a := by
  obtain ⟨array, -⟩ := State.array_of_mtiles (s := s) (t := s.sendReq q) (a := a)
    (State.die_modDie_congr Die.mtiles (f := fun x => { x with reqNet := x.reqNet ++ [q] }) (fun _ => rfl) s _ _)
  exact array

/-- WRING `i` leaves: one request more, its entry as sent. -/
theorem State.goWring_facts {e : WEntry} (hv : s.att a slot = some v) (he : v.entries[i]? = some e) :
    (s.goWring a slot i).queues = s.queues ∧
      (∃ q, ((s.goWring a slot i).die (seqDie (atSeq v.desc))).reqNet = (s.die (seqDie (atSeq v.desc))).reqNet ++ [q] ∧
        q.isAppend = false ∧ q.tag = i ∧ q.handles = e.handles ∧ q.chan = e.chan ∧ q.seq = atSeq v.desc ∧
        q.epoch = (s.die a.die).epoch) ∧
      ∃ v', (s.goWring a slot i).att a slot = some v' ∧ v'.entries[i]? = some (e.sent (s.die a.die).flips) := by
  unfold State.goWring
  rw [hv]
  dsimp only
  rw [he]
  dsimp only
  have att : (s.sendWring a v.desc i e).att a slot = some v := by
    rw [State.att, State.sendWring, State.sendReq_array]
    exact hv
  refine ⟨rfl, ⟨_, (State.modArray_reqNet ..).trans (s.sendReq_reqNet _), rfl, rfl, rfl, rfl, rfl, rfl⟩,
    _, State.att_modAtt att fun _ h => h, getElem?_modAt_same he⟩

/-- APPEND `i` leaves: one request more, its entry as sent. -/
theorem State.goAppend_facts {e : AEntry} (hv : s.att a slot = some v) (he : v.appends[i]? = some e) :
    (∃ q, ((s.goAppend a slot i).die (seqDie (atSeq v.desc))).reqNet = (s.die (seqDie (atSeq v.desc))).reqNet ++ [q] ∧
        q.isAppend = true ∧ q.tag = i ∧ q.epoch = (s.die a.die).epoch) ∧
      ∃ v', (s.goAppend a slot i).att a slot = some v' ∧ v'.appends[i]? = some (e.sent (s.die a.die).flips) := by
  unfold State.goAppend
  rw [hv]
  dsimp only
  rw [he]
  dsimp only
  have att : (s.sendAppend a v.desc i e).att a slot = some v := by
    rw [State.att, State.sendAppend, State.sendReq_array]
    exact hv
  exact ⟨⟨_, (State.modArray_reqNet ..).trans (s.sendReq_reqNet _), rfl, rfl, rfl⟩,
    _, State.att_modAtt att fun _ h => h, getElem?_modAt_same he⟩

end

end Sys2Proof.Machine

namespace Sys2Proof.Machine

/-! ## Replies reach an ATTEND (R76, R78, R138) -/

section
variable (s : State) (d : Nat) (p : WRep) (a : AAt)

theorem State.takeRep_repNet : ((s.takeRep d p).die d).repNet = (s.die d).repNet.erase p :=
  congrArg Die.repNet (State.die_modDie_same ..)

/-- A reply taken from the network writes no array. -/
theorem State.takeRep_array : (s.takeRep d p).array a = s.array a ∧ (s.takeRep d p).aMem a = s.aMem a :=
  State.array_of_mtiles
    (State.die_modDie_congr Die.mtiles (f := fun x => { x with repNet := x.repNet.erase p }) (fun _ => rfl) s d a.die)

theorem State.takeRep_att (slot : Nat) : (s.takeRep d p).att a slot = s.att a slot := by
  rw [State.att, (s.takeRep_array d p a).1, State.att]

end

/-- A partial that has its turn is merged: its entry is 4, the others are as they were, and the merge goes on. -/
theorem Att.mergeTurn_cases (n : Nat) (t : Att) : (Att.mergeTurn (n + 1) t).1 = t ∨ ∃ i p,
    (Att.mergeTurn (n + 1) t).1 = (Att.mergeTurn n { (t.mergeRep p).1 with
      entries := modAt (fun e => { e with st := 4, rep := none }) i t.entries }).1 := by
  rw [Att.mergeTurn]
  split
  · exact .inl rfl
  · split
    · exact .inl rfl
    · split
      next p _ _ => exact .inr ⟨_, p, rfl⟩
      · exact .inl rfl

theorem Att.mergeTurn_slot : ∀ (n : Nat) (t : Att), (Att.mergeTurn n t).1.slot = t.slot
  | 0, t => rfl
  | n + 1, t => by
    obtain h | ⟨i, p, h⟩ := Att.mergeTurn_cases n t
    · rw [h]
    · rw [h, Att.mergeTurn_slot n]
      rfl

/-- An entry that is answered or merged, merging leaves so. -/
theorem Att.mergeTurn_entry (k : Nat) : ∀ (n : Nat) (t : Att), (∃ e, t.entries[k]? = some e ∧ (e.st = 3 ∨ e.st = 4)) →
    ∃ e, (Att.mergeTurn n t).1.entries[k]? = some e ∧ (e.st = 3 ∨ e.st = 4)
  | 0, _, h => h
  | n + 1, t, ⟨e, he, hst⟩ => by
    obtain h | ⟨i, p, h⟩ := Att.mergeTurn_cases n t
    · exact ⟨e, by rw [h, he], hst⟩
    · rw [h]
      refine Att.mergeTurn_entry k n _ ?_
      dsimp only
      rw [getElem?_modAt, he]
      split
      · exact ⟨_, rfl, .inr rfl⟩
      · exact ⟨e, rfl, hst⟩

section
variable {s : State} {a : AAt} {slot d : Nat} {p : WRep} {v : Att}

theorem State.doPartial_stray (hp : s.repFor a slot false = some (d, p)) (hv : s.att a slot = none) :
    ArrayWork a (s.takeRep d p) (s.doPartial a slot) := by
  unfold State.doPartial
  rw [hp]
  dsimp only
  rw [State.takeRep_att, hv]
  exact ArrayWork.metered (.refl ..) fun x => (MetersOnly.refl x).count ..

/-- The ATTEND that takes a partial: it is kept with its entry, and merged when it has its turn. -/
def Att.took (v : Att) (p : WRep) : Att × Ev :=
  Att.mergeTurn v.entries.length
    { v with entries := modAt (fun e => { e with st := 3, rep := some p }) p.tag v.entries, fp := Nat.lor v.fp p.fp }

theorem Att.took_slot (v : Att) (p : WRep) : (v.took p).1.slot = v.slot := Att.mergeTurn_slot ..

theorem Att.took_entry {e : WEntry} (he : v.entries[p.tag]? = some e) :
    ∃ e', (v.took p).1.entries[p.tag]? = some e' ∧ (e'.st = 3 ∨ e'.st = 4) :=
  Att.mergeTurn_entry p.tag _ _ ⟨_, getElem?_modAt_same he, .inl rfl⟩

theorem State.doPartial_takes {e : WEntry} (hp : s.repFor a slot false = some (d, p)) (hv : s.att a slot = some v)
    (he : v.entries[p.tag]? = some e) (hst : e.st = 1) (hf : v.fail = none) (hok : p.status = .ok) :
    ArrayWork a ((s.takeRep d p).modAtt a slot fun _ => (v.took p).1) (s.doPartial a slot) := by
  unfold State.doPartial
  rw [hp]
  dsimp only
  rw [State.takeRep_att, hv]
  dsimp only
  rw [he]
  dsimp only
  rw [if_pos hst]
  unfold State.takePartial
  extract_lets i set
  rw [if_neg (by simp [hf]), hok]
  exact ArrayWork.metered (.refl ..) fun x => (MetersOnly.refl x).count ..

theorem State.doAppendDone_ok {e : AEntry} (hp : s.repFor a slot true = some (d, p)) (hv : s.att a slot = some v)
    (he : v.appends[p.tag]? = some e) (hst : e.st = 1) (hok : p.status = .ok) :
    s.doAppendDone a slot = (s.takeRep d p).modAtt a slot fun t =>
      { t with appends := modAt (fun e => { e with st := 4 }) p.tag t.appends, fp := Nat.lor t.fp p.fp } := by
  unfold State.doAppendDone
  rw [hp]
  dsimp only
  rw [State.takeRep_att, hv]
  dsimp only
  rw [he]
  dsimp only
  rw [if_neg (by simp [hst]), hok]

/-- The ATTEND whose next WRING leaves: its rows are read, its room is reserved. -/
def State.readied (s : State) (a : AAt) (i : Nat) (t : Att) : Att :=
  let t1 : Att := { t with entries := modAt (fun e => { e with rows := some (s.rowBytesOf a t.desc) }) i t.entries }
  if t.room then t1 else { t1 with room := true, running := List.replicate (atRows t.desc) (WRow.empty (atD t.desc)) }

theorem State.readied_facts (s : State) (a : AAt) (i : Nat) (t : Att) : (s.readied a i t).slot = t.slot ∧
    (s.readied a i t).desc = t.desc ∧
    (s.readied a i t).entries = modAt (fun e => { e with rows := some (s.rowBytesOf a t.desc) }) i t.entries := by
  unfold State.readied
  split <;> exact ⟨rfl, rfl, rfl⟩

theorem State.doWringSend_eq {i : Nat} (hv : s.att a slot = some v)
    (hi : v.entries.findIdx? (fun e => e.st == 0) = some i) :
    s.doWringSend a slot = (s.modAtt a slot (s.readied a i)).goWring a slot i := by
  unfold State.doWringSend
  rw [hv]
  dsimp only
  rw [hi]
  rfl

end

/-! ## An array is fenced (R112, R140, R148) -/

/-- The array holds no queued descriptor, and every descriptor it runs has its status. -/
def Arr.Ended (r : Arr) : Prop := r.queue = [] ∧ (∀ u ∈ r.runs, u.status ≠ none) ∧ ∀ v ∈ r.atts, v.fail ≠ none

theorem Arr.fail_ended (r : Arr) (st : Status) : (r.fail st).Ended := by
  refine ⟨rfl, fun u hu => ?_, fun v hv => ?_⟩
  · obtain hu | hu := List.mem_append.mp hu
    all_goals
      obtain ⟨_, -, rfl⟩ := List.mem_map.mp hu
      exact Option.some_ne_none _
  · obtain ⟨_, -, rfl⟩ := List.mem_map.mp hv
    exact Option.some_ne_none _

theorem Arr.reset_ended : Arr.reset.Ended := ⟨rfl, by simp [Arr.reset], by simp [Arr.reset]⟩

/-- `y` differs from `x` in thread slots of its matrix tiles, as far as tiles go. -/
def SlotsOnly (x y : Die) : Prop := ∀ t, ∃ slots, y.mtile t = { x.mtile t with slots := slots }

theorem SlotsOnly.refl (x : Die) : SlotsOnly x x := fun _ => ⟨_, rfl⟩

theorem SlotsOnly.trans {x y z : Die} (h : SlotsOnly x y) (g : SlotsOnly y z) : SlotsOnly x z := fun t => by
  obtain ⟨_, hy⟩ := h t
  obtain ⟨slots, hz⟩ := g t
  exact ⟨slots, by rw [hz, hy]⟩

theorem SlotsOnly.of_mtiles {x y : Die} (h : y.mtiles = x.mtiles) : SlotsOnly x y := fun t => ⟨_, by rw [Die.mtile, h]; rfl⟩

theorem SlotsOnly.with_mtiles {x y z : Die} (h : SlotsOnly x y) (g : z.mtiles = y.mtiles) : SlotsOnly x z := h.trans (.of_mtiles g)

theorem SlotsOnly.foldl {α : Type} {g : Die → α → Die} (h : ∀ x a, SlotsOnly x (g x a)) (l : List α) (x : Die) :
    SlotsOnly x (l.foldl g x) :=
  List.foldlRecOn (motive := fun y => SlotsOnly x y) l g (SlotsOnly.refl x) fun y hy a _ => hy.trans (h y a)

theorem Die.setTSlot_slotsOnly (x : Die) (m slot : Nat) (q : TSlot) : SlotsOnly x (x.setTSlot m slot q) := fun t => by
  by_cases ht : t = m / 2
  · exact ⟨_, by rw [ht, Die.setTSlot, Die.mtile_modMTile_same]⟩
  · exact ⟨_, by rw [Die.setTSlot, Die.mtile_modMTile_other _ _ ht]⟩

theorem Die.putTransit_mtiles (x : Die) (th : Nat) (h : Thread) (p r : Nat) (t : TEntry) :
    (x.putTransit th h p r t).mtiles = x.mtiles := by
  unfold Die.putTransit
  dsimp only
  split
  · exact ((MetersOnly.refl _).countRT ..).mtiles
  · rfl

theorem Die.pumpOne_slotsOnly (x : Die) (th p : Nat) : SlotsOnly x (x.pumpOne th p) := by
  unfold Die.pumpOne
  split
  · exact .refl x
  split
  · exact .refl x
  split
  · exact .refl x
  split
  · exact x.setTSlot_slotsOnly _ _ _
  · exact x.setTSlot_slotsOnly _ _ _
  · split
    · exact (x.setTSlot_slotsOnly _ _ _).with_mtiles (((MetersOnly.refl _).count ..).mtiles.trans (Die.putTransit_mtiles ..))
    · exact x.setTSlot_slotsOnly _ _ _

theorem Die.detachSlot_slotsOnly (x : Die) (m slot : Nat) : SlotsOnly x (x.detachSlot m slot) := by
  unfold Die.detachSlot
  split
  · exact .refl x
  · exact (x.setTSlot_slotsOnly _ _ _).trans (.foldl (fun y p => y.pumpOne_slotsOnly _ p) _ _)

theorem Die.detachArray_slotsOnly (x : Die) (m : Nat) : SlotsOnly x (x.detachArray m) :=
  .foldl (fun y k => y.detachSlot_slotsOnly m k) _ x

theorem Die.detachArray_base (x : Die) (m : Nat) : (x.detachArray m).base = x.base :=
  Die.foldl_base _ (fun x k => by
    unfold Die.detachSlot
    split
    · rfl
    · exact Die.pump_base ..) _ x

/-- Descriptors of an array that end at once: of the dies, only what ends of contexts and descriptors write, and the array, which is
as at reset. -/
theorem State.endArray_eq (s : State) (d t arr : Nat) (st : Status) : ∃ u, ContextsOnly d s u ∧
    s.endArray d t arr st = u.modDie d fun x => x.modMTile t fun m => m.modArr arr fun _ => Arr.reset := by
  refine ⟨_, ?_, rfl⟩
  refine ContextsOnly.after (.foldl (fun s (e : BitVec 512 × Nat) => s.endDesc_contextsOnly d ..) _ _) ?_
  refine ContextsOnly.after (.foldl (fun s (u : Att) => s.endDesc_contextsOnly d ..) _ _) ?_
  exact .foldl (fun s (u : Run) => s.endDesc_contextsOnly d ..) _ _

theorem State.endArray_mtile (s : State) (d t arr : Nat) (st : Status) :
    ((s.endArray d t arr st).die d).mtile t = ((s.die d).mtile t).modArr arr fun _ => Arr.reset := by
  obtain ⟨u, ⟨-, fields⟩, eq⟩ := s.endArray_eq d t arr st
  rw [eq, State.die_modDie_same, Die.mtile_modMTile_same, Die.mtile, fields.mtiles, ← Die.mtile]

/-- A matrix tile that is fenced: its arrays are as at reset, its memory as it was. -/
theorem State.fenceTile_mtile (s : State) (d t cause : Nat) : ∃ slots, ((s.fenceTile d .matrix t cause).die d).mtile t =
    { mem := ((s.die d).mtile t).mem, a := Arr.reset, b := Arr.reset, slots := slots } := by
  unfold State.fenceTile
  extract_lets s0 s1
  have h0 : (s0.die d).mtile t = { (s.die d).mtile t with a := Arr.reset, b := Arr.reset } := by
    unfold s0
    rw [State.endArray_mtile, State.endArray_mtile]
    rfl
  clear_value s0
  have h1 : (s1.die d).mtiles = (s0.die d).mtiles := by
    obtain ⟨-, fields⟩ := ((s0.fence d (tileUnit .matrix) t cause (some (tileRegion .matrix t))).modDie d fun x =>
      x.modOcc .matrix t Occ.noInc).failOn_contextsOnly d .matrix t .unitFenced
    obtain ⟨-, f, fenced⟩ := s0.fence_frame d (tileUnit .matrix) t cause (some (tileRegion .matrix t))
    rw [State.die_modDie_same, fenced] at fields
    exact fields.mtiles
  obtain ⟨slots, h2⟩ := ((Die.detachArray_slotsOnly (s1.die d) (2 * t)).trans (Die.detachArray_slotsOnly _ (2 * t + 1))) t
  refine ⟨slots, ?_⟩
  dsimp only
  rw [State.die_modDie_same, h2, Die.mtile, h1, ← Die.mtile, h0]

/-- Fencing a tile returns no unit to service. -/
theorem State.fenceTile_isFenced {s : State} {e k u : Nat} (h : (s.die e).isFenced k u = true) (d t cause : Nat) :
    ((s.fenceTile d .matrix t cause).die e).isFenced k u = true := by
  unfold State.fenceTile
  extract_lets s0 s1
  have h0 : s0.base = s.base := (State.endArray_base ..).trans (State.endArray_base ..)
  have h1 : s1.base = (s0.fence d (tileUnit .matrix) t cause (some (tileRegion .matrix t))).base :=
    (State.failOn_base ..).trans (State.modDie_base _ _ _ fun _ => rfl)
  have h2 : (s1.modDie d fun x => (x.detachArray (2 * t)).detachArray (2 * t + 1)).base = s1.base :=
    State.modDie_base _ _ _ fun x => (Die.detachArray_base ..).trans (x.detachArray_base _)
  dsimp only
  rw [State.isFenced_of_base (h2.trans h1), State.fence_isFenced, State.isFenced_of_base h0, h, Bool.true_or]

/-- An array is fenced: its descriptors have ended or will, its tile's memory is as it was. -/
theorem State.fenceArray_facts (s : State) (a : AAt) (cause : Nat) :
    ((s.fenceArray a cause).die a.die).isFenced 2 (arrNo a) = true ∧ (s.fenceArray a cause).aMem a = s.aMem a ∧
      ((s.fenceArray a cause).array a).Ended := by
  unfold State.fenceArray
  extract_lets s1 s2
  have fenced : (s2.die a.die).isFenced 2 (arrNo a) = true := by
    have base : s2.base = s1.base :=
      (State.modDie_base _ _ _ fun x => x.detachArray_base _).trans (State.modDie_base _ _ _ fun _ => rfl)
    rw [State.isFenced_of_base base, State.fence_isFenced]
    simp
  have tile : ∃ slots, (s2.die a.die).mtile a.tile =
      { ((s.die a.die).mtile a.tile).modArr (a.arr % 2) (fun r => r.fail .unitFenced) with slots := slots } := by
    obtain ⟨-, f, own⟩ := s.fence_frame a.die 2 (arrNo a) cause (some (a.tile / 8))
    obtain ⟨slots, h⟩ := Die.detachArray_slotsOnly ((s1.modArray a fun r => r.fail .unitFenced).die a.die) (arrNo a) a.tile
    refine ⟨slots, ?_⟩
    rw [State.die_modDie_same, h, State.modArray, State.die_modDie_same, Die.mtile_modMTile_same, show s1.die a.die = _ from own]
    rfl
  obtain ⟨slots, tile⟩ := tile
  split
  · obtain ⟨slots, reset⟩ := s2.fenceTile_mtile a.die a.tile cause
    refine ⟨State.fenceTile_isFenced fenced .., ?_, ?_⟩
    · rw [State.aMem, reset, tile]
      exact MTile.modArr_mem ..
    · rw [State.array, reset]
      unfold MTile.arr
      split <;> exact Arr.reset_ended
  · refine ⟨fenced, ?_, ?_⟩
    · rw [State.aMem, tile]
      exact MTile.modArr_mem ..
    · rw [State.array, tile]
      have arr : ((((s.die a.die).mtile a.tile).modArr (a.arr % 2) fun r => r.fail .unitFenced).arr (a.arr % 2)).Ended := by
        rw [MTile.arr_modArr_same]
        exact Arr.fail_ended ..
      exact arr

end Sys2Proof.Machine

namespace Sys2Proof.Machine

section
variable {s : State} {a : AAt} {slot : Nat} {v : Att}

/-- The next WRING of an ATTEND leaves, its entry owed. -/
theorem State.doWringSend_facts {i : Nat} {e : WEntry} (hv : s.att a slot = some v)
    (hi : v.entries.findIdx? (fun e => e.st == 0) = some i) (he : v.entries[i]? = some e) :
    (s.doWringSend a slot).queues = s.queues ∧
      (∃ q, ((s.doWringSend a slot).die (seqDie (atSeq v.desc))).reqNet = (s.die (seqDie (atSeq v.desc))).reqNet ++ [q] ∧
        q.isAppend = false ∧ q.tag = i ∧ q.handles = e.handles ∧ q.chan = e.chan ∧ q.seq = atSeq v.desc) ∧
      ∃ v' e', (s.doWringSend a slot).att a slot = some v' ∧ v'.entries[i]? = some e' ∧ e'.st = 1 ∧ e'.sends = e.sends + 1 := by
  obtain ⟨-, desc, entries⟩ := s.readied_facts a i v
  have att := State.att_modAtt hv (f := s.readied a i) fun t ht => (s.readied_facts a i t).1.trans ht
  obtain ⟨queues, ⟨q, leaves, hq⟩, v', hv', he'⟩ :=
    State.goWring_facts att (by rw [entries]; exact getElem?_modAt_same he)
  obtain ⟨append, tag, handles, chan, seq, -⟩ := hq
  rw [desc, State.modAtt, State.modArray_reqNet] at leaves
  rw [desc] at seq
  rw [State.doWringSend_eq hv hi]
  exact ⟨queues, ⟨q, leaves, append, tag, handles, chan, seq⟩, v', _, hv', he', rfl, rfl⟩

theorem State.doResend_wring {k : Nat} {e : WEntry} (hv : s.att a slot = some v) (he : v.entries[k]? = some e) :
    s.doResend a slot k = s.goWring a slot k := by
  obtain ⟨hk, -⟩ := List.getElem?_eq_some_iff.mp he
  unfold State.doResend
  rw [hv]
  exact if_pos hk

theorem State.doResend_append {k : Nat} (hv : s.att a slot = some v) :
    s.doResend a slot (v.entries.length + k) = s.goAppend a slot k := by
  unfold State.doResend
  rw [hv]
  dsimp only
  rw [if_neg (by omega), Nat.add_sub_cancel_left]

/-- A request that waits for a re-send leaves once more, at its time or at its interface's flip. -/
theorem exec_resends {i : Instr} {k : Nat} (hu : s.aUnits a = true) (herr : a.err = 0) (hs : slot < 256)
    (hi : (i = .resendTimeout a slot k ∧ s.resendDue a slot k false = true) ∨
      (i = .resendAfterFlip a slot k ∧ s.resendDue a slot k true = true)) :
    exec i s = .next ((s.doResend a slot k).settle a) := by
  obtain ⟨rfl, due⟩ | ⟨rfl, due⟩ := hi
  · exact event_aword (by simp [hu, hs]) due herr
  · exact event_aword (by simp [hu, hs]) due herr

end

/-- Settles O24: what a step does to its ATTEND stands after the array's own work (`State.settle_arrayWork`); each of the steps whose
memories report an uncorrectable error is the one fence of `State.fenceArray_facts`. -/
theorem attentionAndArrayFences : Obligations.AttentionAndArrayFences := by
  refine ⟨⟨?send, ?merge, ?done, ?resendWring, ?resendAppend⟩, ?fence⟩
  case send =>
    intro s a slot i v e hu herr hs hdue hv hi he
    have work := (s.doWringSend a slot).settle_arrayWork a
    obtain ⟨queues, ⟨q, leaves, hq⟩, v', e', hv', he'⟩ := State.doWringSend_facts hv hi he
    exact ⟨_, event_aword (by simp [hu, hs]) hdue herr, work.only.queues.trans queues, ⟨q, (work.reqNet _).trans leaves, hq⟩,
      v', e', (work.att slot).trans hv', he'⟩
  case merge =>
    intro s a slot d p hu herr hs hl hp
    have runs : exec (.partialMerge a slot) s = .next ((s.doPartial a slot).settle a) :=
      event_aword (by simp [hu, hs]) (by simp [hl, hp]) herr
    have settled := (s.doPartial a slot).settle_arrayWork a
    refine ⟨fun hv => ⟨_, runs, ?_⟩, fun v e hv he hst hf hok => ⟨_, runs, ?_⟩⟩
    · have work := (State.doPartial_stray hp hv).trans settled
      obtain ⟨array, mem⟩ := s.takeRep_array d p a
      exact ⟨(work.repNet d).trans (s.takeRep_repNet d p), by rw [work.atts, array], by rw [work.queue, array], work.mem.trans mem⟩
    · have work := (State.doPartial_takes hp hv he hst hf hok).trans settled
      have slotted : v.slot = slot := by simpa using List.find?_some hv
      have att : ((s.takeRep d p).modAtt a slot fun _ => (v.took p).1).att a slot = some (v.took p).1 :=
        State.att_modAtt ((s.takeRep_att d p a slot).trans hv) fun _ _ => (v.took_slot p).trans slotted
      obtain ⟨e', he', hst'⟩ := Att.took_entry he
      exact ⟨((work.repNet d).trans (State.modArray_repNet ..)).trans (s.takeRep_repNet d p), _, e', (work.att slot).trans att,
        he', hst'⟩
  case done =>
    intro s a slot d p v e hu herr hs hl hp hv he hst hok
    have work := (s.doAppendDone a slot).settle_arrayWork a
    have att := State.att_modAtt ((s.takeRep_att d p a slot).trans hv) (f := fun t =>
      { t with appends := modAt (fun e => { e with st := 4 }) p.tag t.appends, fp := Nat.lor t.fp p.fp }) fun _ h => h
    rw [State.doAppendDone_ok hp hv he hst hok] at work
    refine ⟨_, event_aword (by simp [hu, hs]) (by simp [hl, hp]) herr, ?_⟩
    rw [State.doAppendDone_ok hp hv he hst hok]
    exact ⟨((work.repNet d).trans (State.modArray_repNet ..)).trans (s.takeRep_repNet d p), _, _, (work.att slot).trans att,
      getElem?_modAt_same he, rfl⟩
  case resendWring =>
    intro s i a slot k v e hu herr hs hi hv he
    have work := (s.goWring a slot k).settle_arrayWork a
    obtain ⟨-, ⟨q, leaves, -, tag, -, -, -, epoch⟩, v', hv', he'⟩ := State.goWring_facts hv he
    refine ⟨_, exec_resends hu herr hs hi, ?_⟩
    rw [State.doResend_wring hv he]
    exact ⟨⟨q, (work.reqNet _).trans leaves, tag, epoch⟩, v', _, (work.att slot).trans hv', he', rfl⟩
  case resendAppend =>
    intro s i a slot k v e hu herr hs hi hv he
    have work := (s.goAppend a slot k).settle_arrayWork a
    obtain ⟨⟨q, leaves, append, tag, epoch⟩, v', hv', he'⟩ := State.goAppend_facts hv he
    refine ⟨_, exec_resends hu herr hs hi, ?_⟩
    rw [State.doResend_append hv]
    exact ⟨⟨q, (work.reqNet _).trans leaves, append, tag, epoch⟩, v', _, (work.att slot).trans hv', he', rfl⟩
  case fence =>
    intro s i a hu herr hi
    have runs : exec i s = .next (s.fenceArray a 1) := by
      obtain ⟨n, rfl, due, kind⟩ | ⟨n, rfl, due, kind⟩ | ⟨rfl, due⟩ | ⟨q, b, rfl, hq, due⟩ | ⟨q, rfl, hq, due⟩ | ⟨n, rfl, hn, due⟩ |
        ⟨n, rfl, hn, hl, due⟩ | ⟨n, rfl, hn, due⟩ | ⟨n, rfl, due⟩ | ⟨rfl, due⟩ | ⟨n, rfl, hn, hl, due⟩ | ⟨n, k, rfl, hn, due⟩ |
        ⟨n, k, rfl, hn, due⟩ := hi
      · exact event_aword_fences _ hu (by simp [due, kind]) herr
      · exact event_aword_fences _ hu (by simp [due, kind]) herr
      · exact event_aword_fences _ hu due herr
      · exact event_aword_fences _ (by simp [hu, hq]) due herr
      · exact event_aword_fences _ (by simp [hu, hq]) due herr
      · exact event_aword_fences _ (by simp [hu, hn]) due herr
      · exact event_aword_fences _ (by simp [hu, hn]) (by simp [hl, Option.isSome_iff_ne_none, due]) herr
      · exact event_aword_fences _ hu (by simp [hn, due]) herr
      · exact event_aword_fences _ hu (by simp [due]) herr
      · exact event_aword_fences _ hu due herr
      · exact event_aword_fences _ (by simp [hu, hn]) (by simp [hl, Option.isSome_iff_ne_none, due]) herr
      · exact event_aword_fences _ (by simp [hu, hn]) due herr
      · exact event_aword_fences _ (by simp [hu, hn]) due herr
    obtain ⟨fenced, mem, queue, ended, failed⟩ := s.fenceArray_facts a 1
    exact ⟨_, runs, fenced, mem, queue, ended, failed⟩

end Sys2Proof.Machine

namespace Sys2Proof.Machine

/-! ## What a vector word charges its context (R15, R392, Table 15-7)

A word adds its operations to the die's activities of the ledger period (`Die.vact`). `TileOnly`, the frame of the statements about
vector words, lets a word change the tiles and the counters of its die, and not those activities. -/

@[simp] theorem Die.count_acts (x : Die) (c : Ctr) (u n : Nat) : (x.count c u n).acts = x.acts := by
  unfold Die.count Die.countAt
  split <;> rfl

@[simp] theorem Die.count_resident (x : Die) (c : Ctr) (u n : Nat) (k : TileKind) (t : Nat) :
    (x.count c u n).resident k t = x.resident k t := by
  unfold Die.count Die.countAt
  split <;> rfl

theorem Die.vcount_acts (x : Die) (t stall extra wraps : Nat) (ev : Ev) : (x.vcount t stall extra wraps ev).acts = x.acts := by
  simp [Die.vcount]

theorem Die.vcount_resident (x : Die) (t stall extra wraps : Nat) (ev : Ev) (k : TileKind) (u : Nat) :
    (x.vcount t stall extra wraps ev).resident k u = x.resident k u := by
  simp [Die.vcount]

/-- The operations of a word are charged to the context that is resident on its tile. -/
theorem Die.vact_acts {x : Die} {t c : Nat} {y : Ctx} (hy : x.resident .vector t = some (c, y)) (op : Nat) :
    (x.vact t op).acts = addAct x.acts { who := y.payer, row := 3, count := vops op } := by
  unfold Die.vact
  rw [hy]
  rfl

theorem State.vcommit_acts {s : State} {t : VAt} {c : Nat} {y : Ctx} (hy : (s.die t.die).resident .vector t.tile = some (c, y))
    (op : Nat) (w : VW) (f : VCore → VIn → VRes) (pre : VCore → VCore) (post : VCore → VCore × Nat) :
    ((s.vcommit op t w f pre post).die t.die).acts =
      addAct (s.die t.die).acts { who := y.payer, row := 3, count := vops op } := by
  unfold State.vcommit
  have resident (f : VTile → VTile) : ((s.die t.die).modVTile t.tile f).resident .vector t.tile = some (c, y) := hy
  rw [State.die_modDie_same, Die.vact_acts ((Die.vcount_resident ..).trans (resident _)), Die.vcount_acts, Die.modVTile_acts]

theorem TileOnly.acts {s u : State} {t : VAt} (h : TileOnly s u t) : (u.die t.die).acts = (s.die t.die).acts := by rw [h.die]

section
variable {s : State} {op : Nat} {t : VAt} {w : VW}

theorem WordRuns.resident (h : WordRuns s op t w) : ∃ c y, (s.die t.die).resident .vector t.tile = some (c, y) := by
  have ready := h.ready
  cases hy : (s.die t.die).resident .vector t.tile with
  | none => simp [State.vReady, hy] at ready
  | some r => exact ⟨r.1, r.2, rfl⟩

/-- The running context of a vector tile is its resident. -/
theorem State.vctx_of_resident {c : Nat} {y : Ctx} (hu : s.vUnits t = true)
    (hy : (s.die t.die).resident .vector t.tile = some (c, y)) : s.vctx t = (c, some y) := by
  have vector : vKind t = .vector := by
    simp only [State.vUnits, Bool.and_eq_true, Option.isNone_iff_eq_none] at hu
    simp [vKind, hu.2]
  simp only [State.vctx, vector, hy]

/-- A word that runs has its effect: no error, no fence and no rule of R183 stops it. -/
theorem WordRuns.vword (h : WordRuns s op t w) (go : State → State) : s.vword op t w go = go s := by
  obtain ⟨c, y, hy⟩ := h.resident
  have ctx : (s.vctx t).2 = some y := by rw [State.vctx_of_resident h.units hy]
  have fenced : (s.die t.die).isFenced 3 t.tile = false := by
    have ready := h.ready
    simp only [State.vReady, Bool.and_eq_true, Bool.not_eq_true'] at ready
    exact ready.1.2
  simp [State.vword, ctx, h.clean, fenced, h.legal y ctx]

theorem WordRuns.vans_vplain (h : WordRuns s op t w) (f : VIn → VRes) :
    vans op t w (s.vplain op t w f) s = .next (s.vcommit op t w (fun _ => f) id fun c => (c, 0)) := by
  rw [State.vplain, h.vword]
  exact event_next h.units h.ready

end

/-! ## A state in which FADD.S runs -/

/-- FADD.S V0 ← V0 + V0. -/
def faddWord : VW :=
  { m := false, vd := 0, va := 0, vb := 0, acc := 0, x5 := 0, ovf := false, p0 := 0, u0 := 0, p1 := 0, u1 := 0, lend := 0
    imm13 := 0, lvl := 0, imm16 := 0 }

/-- Vector tile 0 of die 0, whose memory reports no error. -/
def faddTile : VAt := { die := 0, tile := 0, err := 0, matrix := none }

/-- An instance of tenant 3 whose only pattern is the one word. -/
def faddModel : Model :=
  { tenant := 3, layers := 1, h := 1, d := 32, fmt := 0, thr := 0, wBytes := 4096, bBytes := 64, bundleMem := [], weightMem := []
    areas := [], digest := 0, poisoned := false
    bundle := some {
      templates := [{
        kind := .vector, declBytes := 4096, patBytes := 8, words := [vwordOf 0x40 faddWord], streams := 0, slots := 0, grants := []
        listUnit := 0, listUnits := 0 }]
      lists := [], layers := [{ window := 0, sinks := 0 }], areas := [] } }

/-- Its context, running on the tile. -/
def faddCtx : Ctx :=
  { tenant := 3, model := 0, tmpl := 0, kind := .vector, region := 0, imgPc := 0, imgBytes := 4096, st := .running, tile := some 0
    lastTile := none, image := .none, cls := 0, disp := none, readyNo := 0, waited := 0, wait := none, woken := false, quantNo := 0
    waitNo := 0, ring := [], ringWait := [], grants := [], streams := [], failSt := .ok, declared := 4096 }

/-- Die 0 runs, with the context on its vector tile 0 before the first word of its pattern, in a ledger period that has counted
nothing yet. -/
def faddState : State :=
  { State.reset with
    psi := { Psiurn.reset with state := .running }
    models := [(0, faddModel)]
    dies := [(0, { Die.reset .skz8 with
      running := true, ctxs := [(0, faddCtx)], occ := [(tileKey .vector 0, { Occ.reset with res := some 0 })] })] }

theorem wordRuns_faddState : WordRuns faddState 0x40 faddTile faddWord where
  units := by decide
  ready := by decide
  clean := rfl
  legal y hy := by
    obtain rfl : faddCtx = y := Option.some.inj hy
    decide

/-- The context's 64 operations are the die's first activity of the period. -/
theorem faddState_charges : ∃ u, exec (.faddS faddTile faddWord) faddState = .next u ∧ (faddState.die 0).acts = [] ∧
    (u.die 0).acts = [{ who := { tenant := some 3, disp := none }, row := 3, count := 64 }] :=
  ⟨_, wordRuns_faddState.vans_vplain (ff b32Add), rfl, State.vcommit_acts (t := faddTile) (y := faddCtx) rfl ..⟩

/-- Refutes O49: the word FADD.S of `faddState` charges 64 operations to its context (R392, Table 15-7), and `TileOnly`, which
`WritesVd` asks for, holds the activities of the die unchanged. -/
theorem not_tileFloatWords : ¬ Obligations.TileFloatWords := by
  rintro ⟨binary32, -⟩
  obtain ⟨fadd, -⟩ := binary32 faddState faddTile faddWord _
  obtain ⟨u, runs, only, -⟩ := fadd rfl wordRuns_faddState
  obtain ⟨v, runs', before, after⟩ := faddState_charges
  obtain rfl : u = v := by simpa [runs] using runs'
  have kept : (u.die 0).acts = (faddState.die 0).acts := only.acts
  simp [before, after] at kept

end Sys2Proof.Machine

namespace Sys2Proof.Machine

/-! ## What a step of an array writes (R112 to R122)

`TileWork` is the footprint of every step that moves no output; `OwnStable` is the induction over what an array does by itself. -/

/-- `y` differs from `x` in its matrix tiles and its meters only. -/
def TilesAndMeters (x y : Die) : Prop :=
  ∃ mtiles ctrs wraps acts, y = { x with mtiles := mtiles, ctrs := ctrs, wraps := wraps, acts := acts }

theorem TilesAndMeters.refl (x : Die) : TilesAndMeters x x := ⟨_, _, _, _, rfl⟩

theorem TilesAndMeters.trans {x y z : Die} (h : TilesAndMeters x y) (g : TilesAndMeters y z) : TilesAndMeters x z := by
  obtain ⟨_, _, _, _, rfl⟩ := h
  obtain ⟨_, _, _, _, rfl⟩ := g
  exact ⟨_, _, _, _, rfl⟩

theorem MetersOnly.tilesAndMeters {x y : Die} (h : MetersOnly x y) : TilesAndMeters x y := by
  obtain ⟨_, _, _, rfl⟩ := h
  exact ⟨_, _, _, _, rfl⟩

/-- Of the state, only matrix tiles and meters of the array's die differ, and not the local memory of its tile. -/
structure TileWork (a : AAt) (s t : State) : Prop where
  only   : DiesOnly s t
  others : OtherDies s t a.die
  fields : TilesAndMeters (s.die a.die) (t.die a.die)
  mem    : t.aMem a = s.aMem a

section
variable {a : AAt} {s t u : State}

theorem TileWork.refl (a : AAt) (s : State) : TileWork a s s := ⟨.refl s, .refl s _, .refl _, rfl⟩

theorem TileWork.trans (h : TileWork a s t) (g : TileWork a t u) : TileWork a s u :=
  ⟨h.only.trans g.only, h.others.trans g.others, h.fields.trans g.fields, g.mem.trans h.mem⟩

theorem TileWork.modArray (a : AAt) (s : State) (f : Arr → Arr) : TileWork a s (s.modArray a f) where
  only := .modDie ..
  others := OtherDies.modDie s a.die _
  fields := State.die_modDie_same s a.die _ ▸ ⟨_, _, _, _, rfl⟩
  mem := s.aMem_modArray a f

theorem TileWork.metered {f : Die → Die} (g : TileWork a s t) (h : ∀ x, MetersOnly x (f x)) :
    TileWork a s (t.modDie a.die f) := by
  obtain ⟨-, mem⟩ := State.array_of_mtiles (s := t) (t := t.modDie a.die f) (a := a)
    (State.die_modDie_congr Die.mtiles (fun x => (h x).mtiles) t a.die a.die)
  exact g.trans ⟨.modDie .., OtherDies.modDie t a.die f, State.die_modDie_same t a.die f ▸ (h _).tilesAndMeters, mem⟩

theorem TileWork.ctxs (h : TileWork a s t) : (t.die a.die).ctxs = (s.die a.die).ctxs := by
  obtain ⟨_, _, _, _, eq⟩ := h.fields
  rw [eq]

theorem TileWork.fabrics (h : TileWork a s t) : (t.die a.die).fabrics = (s.die a.die).fabrics := by
  obtain ⟨_, _, _, _, eq⟩ := h.fields
  rw [eq]

/-- An array may take new work after a step as before it. -/
theorem TileWork.aOpen (h : TileWork a s t) : t.aOpen a = s.aOpen a := by
  obtain ⟨_, _, _, _, eq⟩ := h.fields
  have count : t.dieCount = s.dieCount := congrArg (fun p => p.variant.dies) h.only.part
  have running : t.running = s.running := by rw [State.running, h.only, State.running]
  simp only [State.aOpen, State.aLive, State.live, State.usable, Die.tileOcc, Die.isFenced, eq, count, running]

end

theorem State.not_fenced_of_aLive {s : State} {a : AAt} (h : s.aLive a = true) : (s.die a.die).isFenced 2 (arrNo a) = false := by
  simp only [State.aLive, Bool.and_eq_true, Bool.not_eq_true'] at h
  exact h.1.2

theorem State.array_metered {s : State} {a : AAt} {f : Die → Die} (h : ∀ x, MetersOnly x (f x)) :
    (s.modDie a.die f).array a = s.array a :=
  (State.array_of_mtiles (State.die_modDie_congr Die.mtiles (fun x => (h x).mtiles) s a.die a.die)).1

/-! ### The first run that a predicate accepts -/

section
variable {p : Run → Bool} {f : Run → Run} {l : List Run} {v : Run}

theorem modFirst_of_find?_none (h : l.find? p = none) : modFirst p f l = l := by
  induction l with
  | nil => rfl
  | cons u l ih =>
    obtain ⟨hu, hl⟩ : p u = false ∧ l.find? p = none := by simpa using h
    rw [modFirst, hu, ih hl]
    rfl

theorem modFirst_of_find? (h : l.find? p = some v) : ∃ l1 l2, p v = true ∧ (∀ u ∈ l1, p u = false) ∧
    l = l1 ++ v :: l2 ∧ modFirst p f l = l1 ++ f v :: l2 := by
  obtain ⟨hv, l1, l2, rfl, before⟩ := List.find?_eq_some_iff_append.mp h
  have hl : ∀ u ∈ l1, p u = false := by simpa using before
  refine ⟨l1, l2, hv, hl, rfl, ?_⟩
  clear h before
  induction l1 with
  | nil => simp [modFirst, hv]
  | cons u l ih => simp [modFirst, hl u, ih fun w hw => hl w (List.mem_cons_of_mem _ hw)]

/-- What is the same of the changed run, before and after, is the same of the list. -/
theorem modFirst_filterMap {α : Type} {g : Run → Option α} (h : ∀ v, l.find? p = some v → g (f v) = g v) :
    (modFirst p f l).filterMap g = l.filterMap g := by
  cases hv : l.find? p with
  | none => rw [modFirst_of_find?_none hv]
  | some v =>
    obtain ⟨l1, l2, -, -, eq, eq'⟩ := modFirst_of_find? (f := f) hv
    rw [eq', eq]
    simp [List.filterMap_cons, h v hv]

theorem modFirst_map {α : Type} {g : Run → α} (h : ∀ v, l.find? p = some v → g (f v) = g v) :
    (modFirst p f l).map g = l.map g := by
  rw [← List.filterMap_eq_map]
  exact modFirst_filterMap fun v hv => congrArg some (h v hv)

theorem mem_modFirst (h : l.find? p = some v) : f v ∈ modFirst p f l := by
  obtain ⟨l1, l2, -, -, -, eq⟩ := modFirst_of_find? (f := f) h
  simp [eq]

/-- The changed run is still the first, if the predicate still accepts it. -/
theorem find?_modFirst (h : l.find? p = some v) (hf : p (f v) = true) : (modFirst p f l).find? p = some (f v) := by
  obtain ⟨l1, l2, -, hl, -, eq⟩ := modFirst_of_find? (f := f) h
  rw [eq, List.find?_append, List.find?_eq_none.mpr (by simpa using hl)]
  simp [hf]

/-- The last of the list is the changed run, or as it was. -/
theorem getLast?_modFirst (h : l.find? p = some v) :
    (l.getLast? = some v ∧ (modFirst p f l).getLast? = some (f v)) ∨ (modFirst p f l).getLast? = l.getLast? := by
  obtain ⟨l1, l2, -, -, eq, eq'⟩ := modFirst_of_find? (f := f) h
  rw [eq', eq]
  cases l2 with
  | nil => exact .inl (by simp)
  | cons u l2 => exact .inr (by simp)

end

/-! ### Passes and epilogues, seen from the array -/

/-- A run without what an epilogue writes of it. -/
def Run.core (u : Run) : Run := { u with outIx := 0, outTile := 0, out := [], fp := 0 }

/-- A run without what a pass writes of it either. -/
def Run.fixed (u : Run) : Run := { u.core with rowIx := 0, token := false, passIx := 0, bank0 := 0 }

/-- A run as rows of its pass enter the store: one row, or with `ends` the last of the pass. -/
def Run.advance (u : Run) (ends : Bool) (fp : Nat) : Run :=
  { u with
    rowIx := if ends then 0 else u.rowIx + 1, token := ends, passIx := if ends then u.passIx + 1 else u.passIx, fp := Nat.lor u.fp fp }

/-- The array after the epilogue of quarter `q`: words in the output FIFO, and `f` of the run. -/
def Arr.emit (r : Arr) (q : Nat) (now : List (BitVec 512)) (f : Run → Run) : Arr :=
  { r with cfifo := r.cfifo ++ now, runs := modFirst (Run.emitting q) f r.runs }

theorem Arr.took_runs (r : Arr) (q : Nat) (u : Run) (p : Tbl Num × Ev) (ends : Bool) :
    (r.took q u p ends).runs = modFirst (Run.streaming q) (fun _ => u.advance ends p.2.fp) r.runs := rfl

/-- The bank of its first (chunk, N block) is all that a run settles as a row enters. -/
theorem Arr.enter_eq (r : Arr) (u : Run) : ∃ k, r.enter u = { u with bank0 := k } := by
  unfold Arr.enter
  split
  · exact ⟨_, rfl⟩
  · exact ⟨u.bank0, rfl⟩

section
variable (r : Arr) (u : Run)

@[simp] theorem Arr.enter_desc : (r.enter u).desc = u.desc := by obtain ⟨k, eq⟩ := r.enter_eq u; rw [eq]
@[simp] theorem Arr.enter_quarter : (r.enter u).quarter = u.quarter := by obtain ⟨k, eq⟩ := r.enter_eq u; rw [eq]
@[simp] theorem Arr.enter_status : (r.enter u).status = u.status := by obtain ⟨k, eq⟩ := r.enter_eq u; rw [eq]
@[simp] theorem Arr.enter_passIx : (r.enter u).passIx = u.passIx := by obtain ⟨k, eq⟩ := r.enter_eq u; rw [eq]
@[simp] theorem Arr.enter_rowIx : (r.enter u).rowIx = u.rowIx := by obtain ⟨k, eq⟩ := r.enter_eq u; rw [eq]
@[simp] theorem Arr.enter_perTile : (r.enter u).perTile = u.perTile := by rw [Run.perTile, Arr.enter_desc, Run.perTile]

end

theorem Arr.advance_enter_fixed (r : Arr) (u : Run) (ends : Bool) (fp : Nat) : ((r.enter u).advance ends fp).fixed = u.fixed := by
  obtain ⟨k, eq⟩ := r.enter_eq u
  rw [eq]
  rfl

/-- A pass leaves what no pass writes of the runs. -/
theorem Arr.took_fixed {r : Arr} {q : Nat} {v : Run} (hv : r.passRun q = some v) (p : Tbl Num × Ev) (ends : Bool) :
    (r.took q (r.enter v) p ends).runs.map Run.fixed = r.runs.map Run.fixed := by
  rw [Arr.took_runs]
  refine modFirst_map fun w hw => ?_
  obtain rfl : v = w := Option.some.inj (hv.symm.trans hw)
  exact r.advance_enter_fixed v ends _

theorem Run.streaming_iff {q : Nat} {u : Run} :
    Run.streaming q u = true ↔ u.quarter = q ∧ u.status = none ∧ u.passIx < mmTotal u.desc := by
  simp [Run.streaming, and_assoc]

theorem Arr.passRun_quarter {r : Arr} {q : Nat} {v : Run} (h : r.passRun q = some v) : v.quarter = q :=
  (Run.streaming_iff.mp (List.find?_some h)).1

theorem Arr.streams_iff {r : Arr} {q : Nat} : r.streams q = true ↔ ∃ v b, r.passRun q = some v ∧ tfind r.front q = some b ∧
    mmStagger v.desc = false ∧ v.token = false ∧ r.rowMay v = true := by
  unfold Arr.streams
  cases r.passRun q with
  | none => simp
  | some v =>
    cases hb : tfind r.front q <;> simp [thas, hb, and_assoc]

theorem State.doPass_eq {s : State} {a : AAt} {q : Nat} {v : Run} {b : Blk} (hv : (s.array a).passRun q = some v)
    (hb : tfind (s.array a).front q = some b) {u : Run} (hu : (s.array a).enter v = u) :
    (s.doPass a q).array a = (s.array a).took q u
      (streamPass (s.aMem a) u.desc (u.bankOf (u.passIx / u.perTile)) b (s.array a).store) true := by
  subst hu
  unfold State.doPass
  dsimp only
  rw [hv, hb]
  dsimp only
  rw [State.array_metered fun x => ((MetersOnly.refl x).passCount ..).passAct .., State.array_modArray]

theorem State.doEpi_array (s : State) (a : AAt) (q : Nat) : (s.doEpi a q).array a = s.array a ∨
    ∃ now f, (∀ u, (f u).core = u.core) ∧ (s.doEpi a q).array a = (s.array a).emit q now f := by
  unfold State.doEpi
  dsimp only
  split
  · exact .inl rfl
  · refine .inr ⟨_, _, ?_, (State.array_metered fun x => (MetersOnly.refl x).outCount ..).trans (State.array_modArray ..)⟩
    exact fun u => rfl

/-- What the array's passes, its epilogues and the gathering of `fpstat` keep. -/
structure OwnStable (P : Arr → Prop) : Prop where
  pass   : ∀ (r : Arr) q v b p, r.streams q = true → r.passRun q = some v → tfind r.front q = some b → P r →
    P (r.took q (r.enter v) p true)
  epi    : ∀ (r : Arr) q now (f : Run → Run), (∀ u, (f u).core = u.core) → P r → P (r.emit q now f)
  gather : ∀ (r : Arr) n, P r → P { r with fp := n }

section
variable {P : Arr → Prop} {s : State} {a : AAt} {q : Nat}

theorem OwnStable.doPass (h : OwnStable P) (hq : (s.array a).streams q = true) (hP : P (s.array a)) :
    P ((s.doPass a q).array a) := by
  obtain ⟨v, b, hv, hb, -⟩ := Arr.streams_iff.mp hq
  rw [State.doPass_eq hv hb rfl]
  exact h.pass _ q v b _ hq hv hb hP

theorem OwnStable.doEpi (h : OwnStable P) (hP : P (s.array a)) : P ((s.doEpi a q).array a) := by
  obtain eq | ⟨now, f, hf, eq⟩ := s.doEpi_array a q
  · rwa [eq]
  · rw [eq]
    exact h.epi _ q now f hf hP

theorem OwnStable.arrSteps (h : OwnStable P) : ∀ (n : Nat) (s : State), P (s.array a) → P ((State.arrSteps n s a).array a)
  | 0, _, hP => hP
  | n + 1, s, hP => by
    unfold State.arrSteps
    split
    next t ht =>
      refine OwnStable.arrSteps h n t ?_
      unfold State.arrStep at ht
      split at ht
      next q hq =>
        cases ht
        refine h.doPass ?_ hP
        split at hq
        · exact List.find?_some hq
        · cases hq
      · obtain ⟨q, -, rfl⟩ := Option.map_eq_some_iff.mp ht
        exact h.doEpi hP
    · exact hP

theorem OwnStable.settle (h : OwnStable P) (hP : P (s.array a)) : P ((s.settle a).array a) := by
  unfold State.settle
  rw [State.array_modArray]
  exact h.gather _ _ (h.arrSteps _ s hP)

/-- The same where a pass of quarter `q` is the first thing that the array does. -/
theorem OwnStable.settle_after_pass (h : OwnStable P) (ho : s.aOpen a = true)
    (hq : (List.range 4).find? (s.array a).streams = some q) (hP : P ((s.doPass a q).array a)) :
    P ((s.settle a).array a) := by
  have first : s.arrStep a = some (s.doPass a q) := by
    unfold State.arrStep
    rw [ho, if_pos rfl, hq]
  unfold State.settle
  rw [State.array_modArray]
  refine h.gather _ _ ?_
  rw [State.arrSteps, first]
  exact h.arrSteps _ _ hP

end

theorem State.doPass_tileWork (s : State) (a : AAt) (q : Nat) : TileWork a s (s.doPass a q) := by
  unfold State.doPass
  dsimp only
  split
  · exact TileWork.metered (.modArray ..) fun x => ((MetersOnly.refl x).passCount ..).passAct ..
  · exact .refl a s

theorem State.doEpi_tileWork (s : State) (a : AAt) (q : Nat) : TileWork a s (s.doEpi a q) := by
  unfold State.doEpi
  dsimp only
  split
  · exact .refl a s
  · exact TileWork.metered (.modArray ..) fun x => (MetersOnly.refl x).outCount ..

theorem State.arrSteps_tileWork (a : AAt) : ∀ (n : Nat) (s : State), TileWork a s (State.arrSteps n s a)
  | 0, s => .refl a s
  | n + 1, s => by
    unfold State.arrSteps
    split
    next t h =>
      refine TileWork.trans ?_ (State.arrSteps_tileWork a n t)
      unfold State.arrStep at h
      split at h
      next q _ =>
        cases h
        exact s.doPass_tileWork a q
      · obtain ⟨q, -, rfl⟩ := Option.map_eq_some_iff.mp h
        exact s.doEpi_tileWork a q
    · exact .refl a s

theorem State.settle_tileWork (s : State) (a : AAt) : TileWork a s (s.settle a) :=
  (State.arrSteps_tileWork a _ s).trans (.modArray ..)

/-! ### What an array's own work keeps -/

theorem Run.of_fixed {α : Type} (g : Run → α) (hg : ∀ u, g u.fixed = g u) {u v : Run} (h : u.fixed = v.fixed) : g u = g v := by
  rw [← hg u, h, hg v]

/-- What no pass and no epilogue writes of an array. -/
structure OwnFrame (r t : Arr) : Prop where
  queue   : t.queue = r.queue
  stalled : t.stalled = r.stalled
  atts    : t.atts = r.atts
  back    : t.back = r.back
  badLoad : t.badLoad = r.badLoad
  fifo    : t.fifo = r.fifo
  cfifo   : r.cfifo <+: t.cfifo
  runs    : t.runs.map Run.fixed = r.runs.map Run.fixed

theorem Run.of_core {α : Type} (g : Run → α) (hg : ∀ u, g u.core = g u) {u v : Run} (h : u.core = v.core) : g u = g v := by
  rw [← hg u, h, hg v]

theorem Run.fixed_of_core {u v : Run} (h : u.core = v.core) : u.fixed = v.fixed := by rw [Run.fixed, h, Run.fixed]

theorem OwnFrame.stable (r : Arr) : OwnStable (OwnFrame r) where
  pass _ _ _ _ p _ hv _ h := { h with runs := (Arr.took_fixed hv p true).trans h.runs }
  epi _ _ _ _ hf h :=
    { h with
      cfifo := h.cfifo.trans (List.prefix_append _ _)
      runs := (modFirst_map fun v _ => Run.fixed_of_core (hf v)).trans h.runs }
  gather _ _ h := { h with }

theorem State.settle_frame (s : State) (a : AAt) : OwnFrame (s.array a) ((s.settle a).array a) :=
  (OwnFrame.stable _).settle ⟨rfl, rfl, rfl, rfl, rfl, rfl, List.prefix_rfl, rfl⟩

section
variable {r t : Arr} (h : OwnFrame r t)
include h

theorem OwnFrame.map {α : Type} (g : Run → α) (hg : ∀ u, g u.fixed = g u) : t.runs.map g = r.runs.map g := by
  have eq : g = g ∘ Run.fixed := funext fun u => (hg u).symm
  rw [eq, ← List.map_map, h.runs, List.map_map]

theorem OwnFrame.descs : t.runs.map (·.desc) = r.runs.map (·.desc) := h.map (·.desc) fun _ => rfl

theorem OwnFrame.loads : t.runs.map (·.loadIx) = r.runs.map (·.loadIx) := h.map (·.loadIx) fun _ => rfl

theorem OwnFrame.mem {u : Run} (hu : u ∈ r.runs) : ∃ v ∈ t.runs, v.fixed = u.fixed := by
  have mapped : u.fixed ∈ t.runs.map Run.fixed := h.runs ▸ List.mem_map_of_mem hu
  exact List.mem_map.mp mapped

end

/-- The run that has started last waits for its first block (R120): what the array does by itself does not touch its passes. -/
theorem State.settle_waits {s : State} {a : AAt} {u : Run} (hu : (s.array a).runs.getLast? = some u) (ht : u.token = true) :
    ∃ v, ((s.settle a).array a).runs.getLast? = some v ∧ v.core = u.core := by
  refine OwnStable.settle (P := fun r => ∃ v, r.runs.getLast? = some v ∧ v.core = u.core)
    ⟨fun r q v b p hq hv _ h => ?_, fun r q now f hf h => ?_, fun r n h => h⟩ ⟨u, hu, rfl⟩
  · obtain ⟨w, hw, core⟩ := h
    obtain ⟨last, -⟩ | same := getLast?_modFirst (f := fun _ => (r.enter v).advance true p.2.fp) hv
    · obtain rfl : w = v := Option.some.inj (hw.symm.trans last)
      obtain ⟨w', b', hw', -, -, token, -⟩ := Arr.streams_iff.mp hq
      obtain rfl : w = w' := Option.some.inj (hv.symm.trans hw')
      have : w.token = u.token := Run.of_core (·.token) (fun _ => rfl) core
      simp [token, ht] at this
    · exact ⟨w, same.trans hw, core⟩
  · obtain ⟨w, hw, core⟩ := h
    cases hv : r.runs.find? (Run.emitting q) with
    | none => exact ⟨w, by rw [Arr.emit, modFirst_of_find?_none hv, hw], core⟩
    | some v =>
      obtain ⟨last, now⟩ | same := getLast?_modFirst (f := f) hv
      · obtain rfl : w = v := Option.some.inj (hw.symm.trans last)
        exact ⟨f w, now, (hf w).trans core⟩
      · exact ⟨w, same.trans hw, core⟩

/-! ### Quarters (R124) -/

/-- A run without what an epilogue writes of it, if it is of quarter `q`. -/
def Run.coreIn (q : Nat) (u : Run) : Option Run := if u.quarter = q then some u.core else none

/-- The runs of a quarter but for what epilogues write of them, and the block in front of it, are as they were. -/
structure SameQuarter (q : Nat) (r t : Arr) : Prop where
  front : tfind t.front q = tfind r.front q
  runs  : t.runs.filterMap (Run.coreIn q) = r.runs.filterMap (Run.coreIn q)

/-- No broadcast pass of the quarter can stream: no block is in front, or the run that streams takes staggered rows. -/
def Arr.Held (q : Nat) (r : Arr) : Prop := tfind r.front q = none ∨ ∀ u, r.passRun q = some u → mmStagger u.desc = true

section
variable {q : Nat} {r t x : Arr}

theorem SameQuarter.refl (q : Nat) (r : Arr) : SameQuarter q r r := ⟨rfl, rfl⟩

theorem SameQuarter.trans (h : SameQuarter q r t) (g : SameQuarter q t x) : SameQuarter q r x :=
  ⟨g.front.trans h.front, g.runs.trans h.runs⟩

theorem SameQuarter.mem (h : SameQuarter q r t) {u : Run} (hu : u ∈ r.runs) (hq : u.quarter = q) : ∃ v ∈ t.runs, v.core = u.core := by
  have listed : u.core ∈ r.runs.filterMap (Run.coreIn q) := List.mem_filterMap.mpr ⟨u, hu, if_pos hq⟩
  rw [← h.runs] at listed
  obtain ⟨v, hv, core⟩ := List.mem_filterMap.mp listed
  refine ⟨v, hv, ?_⟩
  unfold Run.coreIn at core
  split at core
  · exact Option.some.inj core
  · cases core

theorem Arr.passRun_core (r : Arr) (q : Nat) :
    (r.passRun q).map Run.core = (r.runs.filterMap (Run.coreIn q)).find? (Run.streaming q) := by
  unfold Arr.passRun
  induction r.runs with
  | nil => rfl
  | cons u l ih =>
    by_cases hq : u.quarter = q
    · have core : Run.streaming q u.core = Run.streaming q u := rfl
      have listed : u.coreIn q = some u.core := if_pos hq
      rw [List.filterMap_cons_some listed, List.find?_cons, List.find?_cons, core]
      split
      · rfl
      · exact ih
    · have other : u.coreIn q = none := if_neg hq
      have idle : Run.streaming q u = false := by simp [Run.streaming, hq]
      rw [List.filterMap_cons_none other, List.find?_cons, idle]
      exact ih

theorem SameQuarter.passRun (h : SameQuarter q r t) : (t.passRun q).map Run.core = (r.passRun q).map Run.core := by
  rw [Arr.passRun_core, h.runs, Arr.passRun_core]

theorem SameQuarter.passRun_some (h : SameQuarter q r t) {u : Run} (hu : r.passRun q = some u) :
    ∃ v, t.passRun q = some v ∧ v.core = u.core := by
  obtain ⟨v, hv, core⟩ := Option.map_eq_some_iff.mp (h.passRun.trans (congrArg (Option.map Run.core) hu))
  exact ⟨v, hv, core⟩

theorem SameQuarter.symm (h : SameQuarter q r t) : SameQuarter q t r := ⟨h.front.symm, h.runs.symm⟩

theorem SameQuarter.held (h : SameQuarter q r t) (hr : r.Held q) : t.Held q := by
  obtain empty | staggered := hr
  · exact .inl (h.front.trans empty)
  · refine .inr fun u hu => ?_
    obtain ⟨v, hv, core⟩ := h.symm.passRun_some hu
    rw [← staggered v hv, Run.of_core (·.desc) (fun _ => rfl) core]

theorem Arr.Held.streams (h : r.Held q) : r.streams q = false := by
  refine Bool.eq_false_iff.mpr fun hs => ?_
  obtain ⟨v, b, hv, hb, broadcast, -⟩ := Arr.streams_iff.mp hs
  obtain empty | staggered := h
  · cases empty.symm.trans hb
  · cases (staggered v hv).symm.trans broadcast

/-- Rows of one quarter leave the others as they are. -/
theorem Arr.took_sameQuarter {p : Nat} {v : Run} (hv : r.passRun p = some v) (hp : q ≠ p) (y : Tbl Num × Ev) (ends : Bool) :
    SameQuarter q r (r.took p (r.enter v) y ends) where
  front := by
    cases ends with
    | false => rfl
    | true => exact (tfind_tdel ..).trans (if_neg hp)
  runs := by
    rw [Arr.took_runs]
    refine modFirst_filterMap fun w hw => ?_
    obtain rfl : v = w := Option.some.inj (hv.symm.trans hw)
    have own : v.quarter = p := Arr.passRun_quarter hv
    have advanced : ((r.enter v).advance ends y.2.fp).quarter = p := (r.enter_quarter v).trans own
    rw [Run.coreIn, Run.coreIn, own, if_neg hp.symm, advanced, if_neg hp.symm]

theorem Arr.emit_sameQuarter (q p : Nat) (r : Arr) (now : List (BitVec 512)) {f : Run → Run} (hf : ∀ u, (f u).core = u.core) :
    SameQuarter q r (r.emit p now f) where
  front := rfl
  runs := modFirst_filterMap fun v _ => by
    rw [Run.coreIn, Run.coreIn, hf, Run.of_core (·.quarter) (fun _ => rfl) (hf v)]

theorem SameQuarter.stable (hr : r.Held q) : OwnStable (SameQuarter q r) where
  pass t p v b y hp hv _ h := by
    refine h.trans (Arr.took_sameQuarter hv ?_ y true)
    rintro rfl
    cases (h.held hr).streams.symm.trans hp
  epi t p now f hf h := h.trans (t.emit_sameQuarter q p now hf)
  gather t n h := ⟨h.front, h.runs⟩

theorem State.settle_sameQuarter {s : State} {a : AAt} (h : (s.array a).Held q) :
    SameQuarter q (s.array a) ((s.settle a).array a) := (SameQuarter.stable h).settle (.refl q _)

/-- Where no broadcast pass can stream, the array's own work leaves the accumulator store. -/
theorem heldStore_stable (x : Tbl Num) : OwnStable fun r => (∀ q, r.Held q) ∧ r.store = x where
  pass r p v b y hp _ _ h := by
    cases (h.1 p).streams.symm.trans hp
  epi r p now f hf h := ⟨fun q => (r.emit_sameQuarter q p now hf).held (h.1 q), h.2⟩
  gather r n h := h

end

end Sys2Proof.Machine

namespace Sys2Proof.Machine

/-! ## A descriptor is issued (R114) -/

section
variable {s : State} {a : AAt}

theorem State.doIssue_eq {addr c : Nat} {y : Ctx} (hy : s.aCtx a = some (c, y)) (ha : addr % 64 = 0) (hd : addr + 64 ≤ y.declared)
    (hf : (s.die a.die).isFenced 2 (arrNo a) = false) :
    s.doIssue a addr = s.modArray a fun r => r.issue (s.aDesc a addr) c := by
  unfold State.doIssue
  rw [hy]
  dsimp only
  rw [if_pos ⟨ha, hd⟩, hf]
  rfl

theorem State.stalled_of_aIssue (h : s.aIssue a = true) : (s.array a).stalled = none := by
  simp only [State.aIssue, Bool.and_eq_true, Option.isNone_iff_eq_none] at h
  obtain ⟨⟨⟨-, hA⟩, hB⟩, -⟩ := h
  unfold State.array MTile.arr
  split
  · exact hA
  · exact hB

theorem Arr.issue_of_room {r : Arr} (d : BitVec 512) (c : Nat) (h : r.held < 4) (hs : r.stalled = none) :
    r.issue d c = { r with queue := r.queue ++ [(d, c)] } := if_pos ⟨h, by simp [hs]⟩

theorem Arr.issue_of_full {r : Arr} (d : BitVec 512) (c : Nat) (h : 4 ≤ r.held) :
    r.issue d c = { r with stalled := some (d, c) } := if_neg fun g => by omega

theorem Arr.issue_frame (r : Arr) (d : BitVec 512) (c : Nat) : (r.issue d c).atts = r.atts ∧ (r.issue d c).runs = r.runs := by
  unfold Arr.issue
  split <;> exact ⟨rfl, rfl⟩

/-- The issue of a descriptor under either of its commands. -/
theorem exec_issues {i : Instr} {addr : Nat} (hu : s.aUnits a = true) (herr : a.err = 0) (due : s.aIssue a = true)
    (hi : (i = .matmul a addr ∧ dw (s.aDesc a addr) 0 31 28 ≠ 2) ∨ (i = .attend a addr ∧ dw (s.aDesc a addr) 0 31 28 = 2)) :
    exec i s = .next ((s.doIssue a addr).settle a) := by
  obtain ⟨rfl, kind⟩ | ⟨rfl, kind⟩ := hi
  · exact event_aword hu (by simp [due, kind]) herr
  · exact event_aword hu (by simp [due, kind]) herr

/-! ## A descriptor starts (R117, R130, R136) -/

/-- A run as it starts: a descriptor of context `c`, with the status it is refused with, if any. -/
def Run.Started (d : BitVec 512) (c : Nat) (st : Option Status) (u : Run) : Prop :=
  ∃ quarter checked, u = { Run.start d quarter c st with checked := checked }

/-- The status that a MATMUL has from its start (R117, R130). -/
def State.mmStatus (s : State) (a : AAt) (y : Ctx) (d : BitVec 512) : Option Status :=
  if mmOk (s.aMem a) a.tile y.declared y.tenant ((s.die a.die).tslot (arrNo a) (dw d 5 3 0)).isSome d = false then some .badParam
  else if mmStagger d && mmTotal d != 0 && s.sourceAbsent a then some .regionUnconfigured else none

/-- The array with the head of its queue taken. -/
def State.dequeued (s : State) (a : AAt) (rest : List (BitVec 512 × Nat)) : State := s.modArray a fun r => { r with queue := rest }

theorem State.dequeued_tileWork (s : State) (a : AAt) (rest : List (BitVec 512 × Nat)) : TileWork a s (s.dequeued a rest) :=
  .modArray ..

theorem State.dequeued_ctx (s : State) (a : AAt) (rest : List (BitVec 512 × Nat)) (c : Nat) :
    ((s.dequeued a rest).die a.die).ctx c = tfind (s.die a.die).ctxs c := by
  rw [Die.ctx, (s.dequeued_tileWork a rest).ctxs]

section
variable {d : BitVec 512} {c : Nat} {rest : List (BitVec 512 × Nat)} {y : Ctx}

theorem State.doStart_eq (hq : (s.array a).queue = (d, c) :: rest) :
    s.doStart a = if dw d 0 31 28 = 2 then (s.dequeued a rest).startAtt a d c else (s.dequeued a rest).startRun a d c := by
  unfold State.doStart
  rw [hq]
  rfl

theorem State.dequeued_tslot (s : State) (a : AAt) (rest : List (BitVec 512 × Nat)) (m k : Nat) :
    ((s.dequeued a rest).die a.die).tslot m k = (s.die a.die).tslot m k := by
  have slots (x : Die) : (x.modMTile a.tile fun t => t.modArr (a.arr % 2) fun r => { r with queue := rest }).tslot m k =
      x.tslot m k := by
    unfold Die.tslot
    by_cases hm : m / 2 = a.tile
    · rw [hm, Die.mtile_modMTile_same]
      unfold MTile.modArr
      split <;> rfl
    · rw [Die.mtile_modMTile_other _ _ hm]
  exact State.die_modDie_congr (fun x => x.tslot m k) slots s a.die a.die

theorem State.dequeued_mmStatus (s : State) (a : AAt) (rest : List (BitVec 512 × Nat)) (y : Ctx) (d : BitVec 512) :
    (s.dequeued a rest).mmStatus a y d = s.mmStatus a y d := by
  have source : (s.dequeued a rest).sourceAbsent a = s.sourceAbsent a := by
    rw [State.sourceAbsent, Die.fabric, (s.dequeued_tileWork a rest).fabrics, State.sourceAbsent, Die.fabric]
  rw [State.mmStatus, State.dequeued_tslot, source, show (s.dequeued a rest).aMem a = s.aMem a from State.aMem_modArray .., State.mmStatus]

/-- A run that has started stands last, with the status it was checked with. -/
theorem State.startRun_eq (hy : tfind (s.die a.die).ctxs c = some y) : ∃ u, Run.Started d c (s.mmStatus a y d) u ∧
    s.startRun a d c = s.modArray a fun r => { r with runs := r.runs ++ [u] } := by
  have status : (if !(mmOk (s.aMem a) a.tile y.declared y.tenant ((s.die a.die).tslot (arrNo a) (dw d 5 3 0)).isSome d) then
      some Status.badParam else if mmStagger d && mmTotal d != 0 && s.sourceAbsent a then some .regionUnconfigured else none) =
      s.mmStatus a y d := by simp only [Bool.not_eq_eq_eq_not, Bool.not_true, State.mmStatus]
  unfold State.startRun
  rw [show (s.die a.die).ctx c = some y from hy]
  dsimp only
  rw [status]
  exact ⟨_, ⟨_, _, rfl⟩, rfl⟩

/-- The head of the queue has left it and stands last among the runs. -/
structure StartsRun (a : AAt) (s : State) (rest : List (BitVec 512 × Nat)) (u : Run) (t : State) : Prop where
  work  : TileWork a s t
  array : t.array a = { s.array a with queue := rest, runs := (s.array a).runs ++ [u] }

theorem StartsRun.of_dequeued (s : State) (a : AAt) (rest : List (BitVec 512 × Nat)) (u : Run) :
    StartsRun a s rest u ((s.dequeued a rest).modArray a fun r => { r with runs := r.runs ++ [u] }) where
  work := (TileWork.modArray a s _).trans (.modArray ..)
  array := by rw [State.array_modArray, State.dequeued, State.array_modArray]

/-- A MATMUL at the head of the queue starts. -/
theorem State.doStart_run (hq : (s.array a).queue = (d, c) :: rest) (hy : tfind (s.die a.die).ctxs c = some y)
    (hk : dw d 0 31 28 ≠ 2) : ∃ u, Run.Started d c (s.mmStatus a y d) u ∧ StartsRun a s rest u (s.doStart a) := by
  obtain ⟨u, started, eq⟩ := State.startRun_eq (s := s.dequeued a rest) (d := d) ((s.dequeued_ctx a rest c).trans hy)
  rw [State.dequeued_mmStatus] at started
  refine ⟨u, started, ?_⟩
  rw [State.doStart_eq hq, if_neg hk, eq]
  exact .of_dequeued s a rest u

/-- An ATTEND at the head of the queue that its checks refuse takes a place among the runs, with its status. -/
theorem State.doStart_refused (hq : (s.array a).queue = (d, c) :: rest) (hy : tfind (s.die a.die).ctxs c = some y)
    (hk : dw d 0 31 28 = 2) (hok : s.attOk y ((s.array a).atts.map (·.slot)) d = false) :
    ∃ u, Run.Started d c (some .badParam) u ∧ StartsRun a s rest u (s.doStart a) := by
  have ctx : ((s.dequeued a rest).die a.die).ctx c = some y := (s.dequeued_ctx a rest c).trans hy
  have refused : (s.dequeued a rest).attOk y (((s.dequeued a rest).array a).atts.map (·.slot)) d = false := by
    rw [State.dequeued, State.array_modArray]
    exact hok
  refine ⟨_, ⟨0, false, rfl⟩, ?_⟩
  rw [State.doStart_eq hq, if_pos hk]
  unfold State.startAtt
  rw [ctx]
  dsimp only
  rw [refused, if_neg Bool.false_ne_true]
  exact .of_dequeued s a rest _

/-- What stands last among the runs after the array's own work. -/
theorem StartsRun.settle {t : State} {u : Run} {st : Option Status} (h : StartsRun a s rest u t) (hu : Run.Started d c st u) :
    TileWork a s (t.settle a) ∧ ((t.settle a).array a).queue = rest ∧ ((t.settle a).array a).atts = (s.array a).atts ∧
      ((t.settle a).array a).runs.map (·.desc) = (s.array a).runs.map (·.desc) ++ [d] ∧
      ∃ v, ((t.settle a).array a).runs.getLast? = some v ∧ v.desc = d ∧ v.ctx = c ∧ v.loadIx = 0 ∧ v.passIx = 0 ∧
        v.status = st := by
  obtain ⟨quarter, checked, rfl⟩ := hu
  have frame := t.settle_frame a
  obtain ⟨v, last, core⟩ := State.settle_waits (s := t) (a := a) (by rw [h.array, List.getLast?_concat]) rfl
  refine ⟨h.work.trans (t.settle_tileWork a), frame.queue.trans (by rw [h.array]), frame.atts.trans (by rw [h.array]),
    frame.descs.trans (by rw [h.array, List.map_append]; rfl), v, last, ?_⟩
  exact ⟨Run.of_core (·.desc) (fun _ => rfl) core, Run.of_core (·.ctx) (fun _ => rfl) core,
    Run.of_core (·.loadIx) (fun _ => rfl) core, Run.of_core (·.passIx) (fun _ => rfl) core,
    Run.of_core (·.status) (fun _ => rfl) core⟩

end

/-! ### An ATTEND starts (R136) -/

/-- Of an array, the queue, the runs and the slots of the open ATTENDs are as they were. -/
def SlotsKept (r t : Arr) : Prop := t.queue = r.queue ∧ t.runs = r.runs ∧ t.atts.map (·.slot) = r.atts.map (·.slot)

theorem SlotsKept.trans {r t x : Arr} (h : SlotsKept r t) (g : SlotsKept t x) : SlotsKept r x :=
  ⟨g.1.trans h.1, g.2.1.trans h.2.1, g.2.2.trans h.2.2⟩

theorem State.modAtt_slotsKept (s : State) (a : AAt) (slot : Nat) {f : Att → Att} (hf : ∀ t, (f t).slot = t.slot) :
    SlotsKept (s.array a) ((s.modAtt a slot f).array a) := by
  rw [State.modAtt, State.array_modArray]
  refine ⟨rfl, rfl, ?_⟩
  rw [List.map_map]
  refine List.map_congr_left fun t _ => ?_
  rw [Function.comp_apply]
  split
  · exact hf t
  · rfl

theorem State.goAppend_slotsKept (s : State) (a : AAt) (slot i : Nat) : SlotsKept (s.array a) ((s.goAppend a slot i).array a) := by
  unfold State.goAppend
  split
  · exact ⟨rfl, rfl, rfl⟩
  next t _ =>
    split
    · exact ⟨rfl, rfl, rfl⟩
    next e _ =>
      have array : (s.sendAppend a t.desc i e).array a = s.array a := s.sendReq_array _ a
      rw [← array]
      exact State.modAtt_slotsKept _ a slot fun _ => rfl

/-- The array with an ATTEND more, after bytes of its tile's memory were written. -/
def State.opened (s : State) (a : AAt) (write : Memory → Memory) (t : Att) : State :=
  (s.modDie a.die fun x => x.modMTile a.tile fun m => { m with mem := write m.mem }).modArray a fun r => { r with atts := r.atts ++ [t] }

theorem State.opened_array (s : State) (a : AAt) (write : Memory → Memory) (t : Att) :
    (s.opened a write t).array a = { s.array a with atts := (s.array a).atts ++ [t] } := by
  have placed : (s.modDie a.die fun x => x.modMTile a.tile fun m => { m with mem := write m.mem }).array a = s.array a := by
    unfold State.array
    rw [State.die_modDie_same, Die.mtile_modMTile_same]
    rfl
  rw [State.opened, State.array_modArray, placed]

/-- An ATTEND that passes its checks opens, and its APPENDs leave. -/
theorem State.startAtt_eq {c : Nat} {y : Ctx} {d : BitVec 512} (hy : (s.die a.die).ctx c = some y)
    (hok : s.attOk y ((s.array a).atts.map (·.slot)) d = true) : ∃ write t n, t.slot = atSlot d ∧
      s.startAtt a d c = (List.range n).foldl (fun s i => s.goAppend a t.slot i) (s.opened a write t) := by
  unfold State.startAtt
  rw [hy]
  dsimp -zeta only
  rw [if_pos hok]
  extract_lets list parts t
  exact ⟨fun m => mwriteN m (64 * dw d 13 30 16) (list.flatMap (le 4)), t, t.appends.length, rfl, rfl⟩

/-- An ATTEND that passes its checks stands open in its slot. -/
theorem State.startAtt_opens {c : Nat} {y : Ctx} {d : BitVec 512} (hy : (s.die a.die).ctx c = some y)
    (hok : s.attOk y ((s.array a).atts.map (·.slot)) d = true) : ((s.startAtt a d c).array a).queue = (s.array a).queue ∧
      ((s.startAtt a d c).array a).runs = (s.array a).runs ∧
      ((s.startAtt a d c).array a).atts.map (·.slot) = (s.array a).atts.map (·.slot) ++ [atSlot d] := by
  obtain ⟨write, t, n, slot, eq⟩ := State.startAtt_eq hy hok
  obtain ⟨queue, runs, slots⟩ : SlotsKept ((s.opened a write t).array a) ((s.startAtt a d c).array a) := by
    rw [eq]
    exact List.foldlRecOn (motive := fun (u : State) => SlotsKept ((s.opened a write t).array a) (u.array a)) _ _ ⟨rfl, rfl, rfl⟩
      fun u hu i _ => hu.trans (u.goAppend_slotsKept a t.slot i)
  rw [queue, runs, slots, State.opened_array, List.map_append, ← slot]
  exact ⟨rfl, rfl, rfl⟩

/-- An ATTEND at the head of the queue that passes its checks opens in its slot. -/
theorem State.doStart_opens {c : Nat} {y : Ctx} {d : BitVec 512} {rest : List (BitVec 512 × Nat)}
    (hq : (s.array a).queue = (d, c) :: rest) (hy : tfind (s.die a.die).ctxs c = some y) (hk : dw d 0 31 28 = 2)
    (hok : s.attOk y ((s.array a).atts.map (·.slot)) d = true) : ((s.doStart a).array a).queue = rest ∧
      ((s.doStart a).array a).runs = (s.array a).runs ∧
      ((s.doStart a).array a).atts.map (·.slot) = (s.array a).atts.map (·.slot) ++ [atSlot d] := by
  have ctx : ((s.dequeued a rest).die a.die).ctx c = some y := (s.dequeued_ctx a rest c).trans hy
  have array : (s.dequeued a rest).array a = { s.array a with queue := rest } := State.array_modArray ..
  have passes : (s.dequeued a rest).attOk y (((s.dequeued a rest).array a).atts.map (·.slot)) d = true := by
    rw [array]
    exact hok
  rw [State.doStart_eq hq, if_pos hk]
  obtain ⟨queue, runs, slots⟩ := State.startAtt_opens ctx passes
  rw [queue, runs, slots, array]
  exact ⟨rfl, rfl, rfl⟩

end

end Sys2Proof.Machine

namespace Sys2Proof.Machine

/-! ## Blocks are loaded (R112, R121) -/

section
variable {s : State} {a : AAt} {q : Nat} {u : Run}

theorem State.doLoad_stalls (hu : (s.array a).loading q = some u) (hb : thas (s.array a).back q = true) (bad : Bool) :
    s.doLoad a q bad = s.modDie a.die fun x => x.count mtLoadStall (arrNo a) 1 := by
  unfold State.doLoad
  rw [hu]
  dsimp only
  rw [if_pos hb]

theorem State.doLoad_bad (hu : (s.array a).loading q = some u) (hb : thas (s.array a).back q = false) :
    s.doLoad a q true = s.badBlock a q := by
  unfold State.doLoad
  rw [hu]
  dsimp only
  rw [hb, if_neg Bool.false_ne_true, if_pos rfl]

theorem State.doLoad_mem {mc nb kb : Nat} (hu : (s.array a).loading q = some u) (hp : mmPassAt u.desc u.loadIx = (mc, nb, kb))
    (hb : thas (s.array a).back q = false) (hs : s.blkSrc a u = .mem) : s.doLoad a q false = s.modArray a fun r =>
      r.loaded q { mc := mc, nb := nb, kb := kb, cols := blockOfB (s.aMem a) u.desc nb kb } := by
  unfold State.doLoad
  rw [hu]
  dsimp only
  rw [hp, hb, if_neg Bool.false_ne_true, if_neg Bool.false_ne_true, hs]

theorem Arr.loading_quarter {r : Arr} (h : r.loading q = some u) : u.quarter = q := by
  have due := List.find?_some h
  simp only [Bool.and_eq_true, beq_iff_eq] at due
  exact due.1.1

/-- The block stands in the back registers, and its run counts it. -/
theorem Arr.loaded_facts {r : Arr} (h : r.loading q = some u) (b : Blk) : tfind (r.loaded q b).back q = some b ∧
    { u with loadIx := u.loadIx + 1 } ∈ (r.loaded q b).runs :=
  ⟨tfind_tput_same .., mem_modFirst h⟩

/-- Corrected errors that do not reach the limit of the window are counted, and write nothing else of a die (R445). -/
theorem State.corrected_die_of_lt {d kind unit n f : Nat} (h : (s.die d).errIn (unitKey kind unit) nclkHour + n < f) (report : Nat)
    (region : Option Nat) (e : Nat) : (s.corrected d kind unit n report (some f) region).die e =
      (s.modDie d fun x => x.addErr (unitKey kind unit) nclkHour n).die e := by
  unfold State.corrected State.correctedIn
  dsimp only
  rw [if_neg (by omega)]
  split
  · exact State.emit_die ..
  · rfl

/-- The quarter's last load has failed its check. -/
def State.badOnce (s : State) (a : AAt) (q : Nat) : State := s.modArray a fun r => { r with badLoad := tput r.badLoad q 1 }

/-- The first bad load of a block is counted, and the block is loaded again (R112). -/
theorem State.badBlock_first (hb : tfind (s.array a).badLoad q = none) (hf : (s.die a.die).isFenced 2 (arrNo a) = false)
    (he : (s.die a.die).errIn (unitKey 2 (arrNo a)) nclkHour < 255) :
    (s.badBlock a q).aMem a = s.aMem a ∧
      (s.badBlock a q).array a = { s.array a with badLoad := tput (s.array a).badLoad q 1 } := by
  obtain ⟨_, _, _, _, marked⟩ : TilesAndMeters (s.die a.die) ((s.badOnce a q).die a.die) := (TileWork.modArray a s _).fields
  unfold State.badBlock
  rw [if_neg (by simp [thas, hb])]
  extract_lets s1
  have die : s1.die a.die = ((s.badOnce a q).die a.die).addErr (unitKey 2 (arrNo a)) nclkHour 1 := by
    refine (State.corrected_die_of_lt (s := s.badOnce a q) (f := 256) ?_ 16 _ a.die).trans (State.die_modDie_same ..)
    rw [marked]
    exact Nat.succ_lt_succ he
  have fenced : (s1.die a.die).isFenced 2 (arrNo a) = false := by
    rw [die, marked]
    exact hf
  obtain ⟨array, mem⟩ := State.array_of_mtiles (s := s.badOnce a q) (t := s1) (a := a) (by rw [die]; rfl)
  rw [if_neg (by simp [fenced]), array, mem]
  exact ⟨State.aMem_modArray .., State.array_modArray ..⟩

/-! ## A block swaps in (R120) -/

theorem TilesAndMeters.swapCount (x : Die) (a : AAt) (d : BitVec 512) : TilesAndMeters x (x.swapCount a d) := by
  unfold Die.swapCount Die.modTSlot
  split
  · split
    · exact ⟨_, _, _, _, rfl⟩
    · exact .refl x
  · exact .refl x

theorem SlotsOnly.swapCount (x : Die) (a : AAt) (d : BitVec 512) : SlotsOnly x (x.swapCount a d) := by
  unfold Die.swapCount Die.modTSlot
  split
  · split
    · exact x.setTSlot_slotsOnly _ _ _
    · exact .refl x
  · exact .refl x

/-- A change of thread slots writes no array and no local memory. -/
theorem State.array_of_slots {f : Die → Die} (h : ∀ x, SlotsOnly x (f x)) :
    (s.modDie a.die f).array a = s.array a ∧ (s.modDie a.die f).aMem a = s.aMem a := by
  obtain ⟨slots, eq⟩ := h (s.die a.die) a.tile
  unfold State.array State.aMem
  rw [State.die_modDie_same, eq]
  exact ⟨rfl, rfl⟩

/-- The array after the swap: the block in front, the token gone from the run that streams it. -/
def Arr.swapped (r : Arr) (q : Nat) (b : Blk) : Arr :=
  { r with
    front := tput r.front q b, back := tdel r.back q
    runs := modFirst (Run.streaming q) (fun u => { u with token := false }) r.runs }

theorem State.doSwap_eq {b : Blk} (hu : (s.array a).passRun q = some u) (hb : tfind (s.array a).back q = some b) :
    TileWork a s (s.doSwap a q) ∧ (s.doSwap a q).array a = (s.array a).swapped q b := by
  unfold State.doSwap
  dsimp only
  rw [hu, hb]
  dsimp only
  obtain ⟨array, mem⟩ := State.array_of_slots (s := s) (a := a) fun x => SlotsOnly.swapCount x a u.desc
  have counted : TileWork a s (s.modDie a.die fun x => x.swapCount a u.desc) :=
    ⟨.modDie .., OtherDies.modDie s a.die _, State.die_modDie_same s a.die _ ▸ .swapCount _ a u.desc, mem⟩
  exact ⟨counted.trans (.modArray ..), by rw [State.array_modArray, array, Arr.swapped]⟩

theorem Arr.swapped_passRun {r : Arr} (h : r.passRun q = some u) (b : Blk) :
    (r.swapped q b).passRun q = some { u with token := false } :=
  find?_modFirst h (List.find?_some h :)

theorem Arr.swapped_sameQuarter {r : Arr} {p : Nat} (hp : p ≠ q) (b : Blk) : SameQuarter p r (r.swapped q b) where
  front := tfind_tput_other _ _ hp
  runs := modFirst_filterMap fun v hv => by
    have own : v.quarter = q := Arr.passRun_quarter (r := r) hv
    rw [Run.coreIn, Run.coreIn, if_neg (own ▸ hp.symm), if_neg (own ▸ hp.symm)]

theorem SameQuarter.passRun_none {r t : Arr} (h : SameQuarter q r t) (hr : r.passRun q = none) : t.passRun q = none := by
  have same := h.passRun
  rw [hr] at same
  exact Option.map_eq_none_iff.mp same

theorem find?_of_unique {α : Type} {p : α → Bool} {l : List α} {x : α} (hx : x ∈ l) (hp : p x = true)
    (hu : ∀ y, p y = true → y = x) : l.find? p = some x := by
  cases h : l.find? p with
  | none => exact absurd hp (List.find?_eq_none.mp h x hx)
  | some y => rw [hu y (List.find?_some h)]

/-- A pass has streamed, and no other quarter streams. -/
theorem Arr.took_held {r : Arr} {v : Run} {y : Tbl Num × Ev} (hv : r.passRun q = some v) (alone : ∀ p, p ≠ q → r.passRun p = none)
    (own : (r.took q (r.enter v) y true).Held q) (p : Nat) : (r.took q (r.enter v) y true).Held p := by
  by_cases hp : p = q
  · exact hp ▸ own
  · exact .inr fun u hu => by
      rw [(Arr.took_sameQuarter hv hp y true).passRun_none (alone p hp)] at hu
      cases hu

end

end Sys2Proof.Machine

namespace Sys2Proof.Machine

/-! ## Rows of a pass enter the store (R120, R127 to R129) -/

section
variable {s : State} {a : AAt} {q : Nat}

/-- After its last row the pass has left the front empty; before it, a staggered run still waits there for rows. -/
theorem Arr.took_own {r : Arr} {v : Run} {ends : Bool} (hv : r.passRun q = some v) (h : ends = true ∨ mmStagger v.desc = true)
    (y : Tbl Num × Ev) : (r.took q (r.enter v) y ends).Held q := by
  cases ends with
  | true => exact .inl (tfind_tdel_same ..)
  | false =>
    have staggered : mmStagger v.desc = true := by simpa using h
    have streaming : Run.streaming q ((r.enter v).advance false y.2.fp) = true := by
      have due : Run.streaming q v = true := List.find?_some hv
      rw [Run.streaming_iff] at due ⊢
      simpa [Run.advance] using due
    have first : (r.took q (r.enter v) y false).passRun q = some ((r.enter v).advance false y.2.fp) :=
      find?_modFirst hv streaming
    refine .inr fun u hu => ?_
    obtain rfl : _ = u := Option.some.inj (first.symm.trans hu)
    rw [← staggered, ← r.enter_desc v]
    rfl

/-- The run whose rows have entered, as it stands then. -/
theorem Arr.mem_took {r : Arr} {v : Run} (hv : r.passRun q = some v) (y : Tbl Num × Ev) (ends : Bool) :
    ∃ w ∈ (r.took q (r.enter v) y ends).runs, w.desc = v.desc ∧ w.quarter = q ∧ w.rowIx = (if ends then 0 else v.rowIx + 1) ∧
      w.passIx = if ends then v.passIx + 1 else v.passIx := by
  refine ⟨_, mem_modFirst hv, ?_⟩
  simp [Arr.passRun_quarter hv]

/-- A run that another is but for its epilogue, in the terms of R119. -/
theorem SameQuarter.mem_place {r t : Arr} {w : Run} (h : SameQuarter q r t) (hw : w ∈ r.runs) (hq : w.quarter = q) :
    ∃ v ∈ t.runs, v.desc = w.desc ∧ v.quarter = q ∧ v.rowIx = w.rowIx ∧ v.passIx = w.passIx := by
  obtain ⟨v, hv, core⟩ := h.mem hw hq
  exact ⟨v, hv, Run.of_core (·.desc) (fun _ => rfl) core, (Run.of_core (·.quarter) (fun _ => rfl) core).trans hq,
    Run.of_core (·.rowIx) (fun _ => rfl) core, Run.of_core (·.passIx) (fun _ => rfl) core⟩

/-! ### A broadcast pass streams as its block swaps in (R120) -/

/-- The swap of a block whose pass may stream at once: the pass has streamed, its front is empty, nothing else has entered. -/
theorem State.swap_streams {u : Run} {b : Blk} (hq : q < 4) (due : s.swapDue a q = true) (hu : (s.array a).passRun q = some u)
    (hb : tfind (s.array a).back q = some b) (broadcast : mmStagger u.desc = false)
    (alone : ∀ p, p ≠ q → (s.array a).passRun p = none) (may : ((s.doSwap a q).array a).rowMay { u with token := false } = true) :
    tfind (((s.doSwap a q).settle a).array a).front q = none ∧
      (∃ v ∈ (((s.doSwap a q).settle a).array a).runs, v.desc = u.desc ∧ v.quarter = q ∧ v.passIx = u.passIx + 1) ∧
      (((s.doSwap a q).settle a).array a).store = (streamPass (s.aMem a) u.desc
        (((s.array a).enter { u with token := false }).bankOf (u.passIx / u.perTile)) b (s.array a).store).1 := by
  obtain ⟨work, swapped⟩ := State.doSwap_eq hu hb
  have opened : (s.doSwap a q).aOpen a = true := by
    rw [work.aOpen]
    simp only [State.swapDue, Bool.and_eq_true] at due
    exact due.1
  have run : ((s.doSwap a q).array a).passRun q = some { u with token := false } := swapped ▸ Arr.swapped_passRun hu b
  have front : tfind ((s.doSwap a q).array a).front q = some b := by
    rw [swapped]
    exact tfind_tput_same ..
  have others : ∀ p, p ≠ q → ((s.doSwap a q).array a).passRun p = none := fun p hp =>
    swapped ▸ (Arr.swapped_sameQuarter hp b).passRun_none (alone p hp)
  have first : (List.range 4).find? ((s.doSwap a q).array a).streams = some q := by
    refine find?_of_unique (List.mem_range.mpr hq) (Arr.streams_iff.mpr ⟨_, b, run, front, broadcast, rfl, may⟩) fun p hp => ?_
    by_contra hne
    obtain ⟨v, -, hv, -⟩ := Arr.streams_iff.mp hp
    cases (others p hne).symm.trans hv
  have pass := State.doPass_eq run front rfl
  have own : ((s.doSwap a q).doPass a q |>.array a).Held q := pass ▸ Arr.took_own run (.inl rfl) _
  have held (p : Nat) : ((s.doSwap a q).doPass a q |>.array a).Held p := by
    rw [pass] at own ⊢
    exact Arr.took_held run others own p
  have quarter := (SameQuarter.stable own).settle_after_pass opened first (.refl q _)
  obtain ⟨-, store⟩ := (heldStore_stable _).settle_after_pass opened first ⟨held, rfl⟩
  refine ⟨quarter.front.trans ?_, ?_, store.trans ?_⟩
  · rw [pass]
    exact tfind_tdel_same ..
  · obtain ⟨w, hw, desc, hq, -, passIx⟩ := Arr.mem_took run _ true
    obtain ⟨v, hv, desc', hq', -, passIx'⟩ := quarter.mem_place (pass ▸ hw) hq
    exact ⟨v, hv, desc'.trans desc, hq', passIx'.trans passIx⟩
  · have enter : ((s.doSwap a q).array a).enter { u with token := false } = (s.array a).enter { u with token := false } := by
      rw [swapped]
      rfl
    rw [pass, enter, work.mem, show ((s.doSwap a q).array a).store = (s.array a).store by rw [swapped]; rfl, Arr.enter_desc,
      Arr.enter_passIx, Arr.enter_perTile]
    rfl

/-- Where the block waits in front for staggered rows, the array's own work leaves it there. -/
theorem State.swap_waits {u : Run} {b : Blk} (hu : (s.array a).passRun q = some u) (hb : tfind (s.array a).back q = some b)
    (staggered : mmStagger u.desc = true) : tfind (((s.doSwap a q).settle a).array a).front q = some b := by
  obtain ⟨-, swapped⟩ := State.doSwap_eq hu hb
  have run : ((s.doSwap a q).array a).passRun q = some { u with token := false } := swapped ▸ Arr.swapped_passRun hu b
  have held : ((s.doSwap a q).array a).Held q := .inr fun v hv => by
    obtain rfl : _ = v := Option.some.inj (run.symm.trans hv)
    exact staggered
  refine (State.settle_sameQuarter held).front.trans ?_
  rw [swapped]
  exact tfind_tput_same ..

/-! ### A staggered row goes through every quarter that waits for it (R127 to R129) -/

theorem State.rowQuarter_tileWork (s : State) (a : AAt) (w : BitVec 512) (first : Bool) (q : Nat) :
    TileWork a s (s.rowQuarter a w first q) := by
  unfold State.rowQuarter
  dsimp only
  split
  · exact TileWork.metered (.modArray ..) fun x => ((MetersOnly.refl x).passCount ..).passAct ..
  · exact .refl a s

theorem State.rowQuarter_eq {v : Run} {b : Blk} (hv : (s.array a).passRun q = some v) (hb : tfind (s.array a).front q = some b)
    (w : BitVec 512) (first : Bool) {u : Run} (hu : (s.array a).enter v = u) :
    (s.rowQuarter a w first q).array a = (s.array a).took q u
      (streamRow (s.aMem a) u.desc (u.bankOf (u.passIx / u.perTile)) b (256 * b.mc + u.rowIx) (rowOfWord u.desc w b.kb)
        (s.array a).store) (decide (mmRows u.desc b.mc ≤ u.rowIx + 1)) := by
  subst hu
  unfold State.rowQuarter
  dsimp only
  rw [hv, hb]
  dsimp only
  rw [State.array_metered fun x => ((MetersOnly.refl x).passCount ..).passAct .., State.array_modArray]

theorem State.rowQuarter_other {p : Nat} (hp : p ≠ q) (s : State) (a : AAt) (w : BitVec 512) (first : Bool) :
    SameQuarter p (s.array a) ((s.rowQuarter a w first q).array a) := by
  unfold State.rowQuarter
  dsimp only
  split
  next v b hv hb =>
    rw [State.array_metered fun x => ((MetersOnly.refl x).passCount ..).passAct .., State.array_modArray]
    exact Arr.took_sameQuarter hv hp _ _
  · exact .refl p _

/-- A row has gone through a quarter that waited for it: its run has taken it. -/
theorem State.rowQuarter_takes {v : Run} {b : Blk} (hv : (s.array a).passRun q = some v) (hb : tfind (s.array a).front q = some b)
    (staggered : mmStagger v.desc = true) (w : BitVec 512) (first : Bool) : ((s.rowQuarter a w first q).array a).Held q ∧
      ∃ u ∈ ((s.rowQuarter a w first q).array a).runs, u.desc = v.desc ∧ u.quarter = q ∧
        u.rowIx = (if mmRows v.desc b.mc ≤ v.rowIx + 1 then 0 else v.rowIx + 1) ∧
        u.passIx = if mmRows v.desc b.mc ≤ v.rowIx + 1 then v.passIx + 1 else v.passIx := by
  rw [State.rowQuarter_eq hv hb w first rfl]
  refine ⟨Arr.took_own hv (.inr staggered) _, ?_⟩
  simpa only [Arr.enter_desc, Arr.enter_rowIx, decide_eq_true_eq] using Arr.mem_took hv _ (decide (mmRows v.desc b.mc ≤ v.rowIx + 1))

/-- A row word through a list of quarters. -/
def State.rowThrough (s : State) (a : AAt) (w : BitVec 512) (first : Bool) (l : List Nat) : State :=
  (l.foldl (fun (p : State × Bool) q => (p.1.rowQuarter a w p.2 q, false)) (s, first)).1

theorem State.rowThrough_cons (s : State) (a : AAt) (w : BitVec 512) (first : Bool) (q : Nat) (l : List Nat) :
    s.rowThrough a w first (q :: l) = (s.rowQuarter a w first q).rowThrough a w false l := rfl

theorem State.rowThrough_tileWork (a : AAt) (w : BitVec 512) (l : List Nat) (s : State) (first : Bool) :
    TileWork a s (s.rowThrough a w first l) := by
  induction l generalizing s first with
  | nil => exact .refl a s
  | cons q l ih => exact (s.rowQuarter_tileWork a w first q).trans (ih _ _)

theorem State.rowThrough_other (a : AAt) (w : BitVec 512) {l : List Nat} (hq : q ∉ l) (s : State) (first : Bool) :
    SameQuarter q (s.array a) ((s.rowThrough a w first l).array a) := by
  induction l generalizing s first with
  | nil => exact .refl q _
  | cons p l ih =>
    obtain ⟨hp, hl⟩ : q ≠ p ∧ q ∉ l := by simpa using hq
    exact (State.rowQuarter_other hp s a w first).trans (ih hl _ _)

/-- Each quarter of the list has the row once, as if it were alone. -/
theorem State.rowThrough_own (a : AAt) (w : BitVec 512) {l : List Nat} (hl : l.Nodup) (hq : q ∈ l) (s : State) (first : Bool) :
    ∃ (t : State) (f : Bool), SameQuarter q (s.array a) (t.array a) ∧
      SameQuarter q ((t.rowQuarter a w f q).array a) ((s.rowThrough a w first l).array a) := by
  induction l generalizing s first with
  | nil => cases hq
  | cons p l ih =>
    obtain ⟨hp, hl⟩ := List.nodup_cons.mp hl
    rw [State.rowThrough_cons]
    obtain rfl | hq := List.mem_cons.mp hq
    · exact ⟨s, first, .refl q _, State.rowThrough_other a w hp _ _⟩
    · obtain ⟨t, f, before, after⟩ := ih hl hq (s.rowQuarter a w first p) false
      have hne : q ≠ p := fun h => hp (h ▸ hq)
      exact ⟨t, f, (State.rowQuarter_other hne s a w first).trans before, after⟩

/-- The array without the oldest row of its FIFO. -/
def State.rowOut (s : State) (a : AAt) (rest : List (BitVec 512)) : State := s.modArray a fun r => { r with fifo := rest }

theorem State.rowOut_array (s : State) (a : AAt) (rest : List (BitVec 512)) :
    (s.rowOut a rest).array a = { s.array a with fifo := rest } := State.array_modArray ..

theorem State.doRow_eq {w : BitVec 512} {rest : List (BitVec 512)} (h : (s.array a).fifo = w :: rest) :
    s.doRow a = (s.rowOut a rest).rowThrough a w true (s.array a).staggerQ := by
  unfold State.doRow
  rw [h]
  rfl

theorem State.doRow_tileWork {w : BitVec 512} {rest : List (BitVec 512)} (h : (s.array a).fifo = w :: rest) :
    TileWork a s (s.doRow a) := by
  rw [State.doRow_eq h]
  exact (TileWork.modArray a s _).trans (State.rowThrough_tileWork ..)

theorem Arr.staggerQ_nodup (r : Arr) : r.staggerQ.Nodup := List.nodup_range.filter _

theorem Arr.mem_staggerQ {r : Arr} : q ∈ r.staggerQ ↔ q < 4 ∧ ∃ u, r.passRun q = some u ∧ mmStagger u.desc = true := by
  unfold Arr.staggerQ
  rw [List.mem_filter, List.mem_range]
  cases r.passRun q <;> simp

/-- Of an array whose other quarters have no pass left, the row enters this quarter alone. -/
theorem Arr.staggerQ_alone {r : Arr} (hq : q ∈ r.staggerQ) (alone : ∀ p, p ≠ q → r.passRun p = none) : r.staggerQ = [q] := by
  refine List.perm_singleton.mp (List.perm_of_nodup_nodup_toFinset_eq r.staggerQ_nodup (List.nodup_singleton q) ?_)
  ext p
  rw [List.mem_toFinset, List.toFinset_cons, List.toFinset_nil, insert_empty_eq, Finset.mem_singleton]
  refine ⟨fun hp => ?_, fun hp => hp ▸ hq⟩
  by_contra hne
  obtain ⟨-, u, hu, -⟩ := Arr.mem_staggerQ.mp hp
  cases (alone p hne).symm.trans hu

theorem State.rowQuarter_fifo (s : State) (a : AAt) (w : BitVec 512) (first : Bool) (q : Nat) :
    ((s.rowQuarter a w first q).array a).fifo = (s.array a).fifo := by
  unfold State.rowQuarter
  dsimp only
  split
  · rw [State.array_metered fun x => ((MetersOnly.refl x).passCount ..).passAct .., State.array_modArray]
    rfl
  · rfl

theorem State.rowThrough_fifo (a : AAt) (w : BitVec 512) (l : List Nat) (s : State) (first : Bool) :
    ((s.rowThrough a w first l).array a).fifo = (s.array a).fifo := by
  induction l generalizing s first with
  | nil => rfl
  | cons q l ih => exact (ih _ _).trans (s.rowQuarter_fifo a w first q)

theorem State.doRow_fifo {w : BitVec 512} {rest : List (BitVec 512)} (h : (s.array a).fifo = w :: rest) :
    ((s.doRow a).array a).fifo = rest := by
  rw [State.doRow_eq h, State.rowThrough_fifo, State.rowOut_array]

/-- The row that left the FIFO has entered every quarter that waited for it. -/
theorem State.doRow_takes {w : BitVec 512} {rest : List (BitVec 512)} {u : Run} {b : Blk} (h : (s.array a).fifo = w :: rest)
    (hq : q ∈ (s.array a).staggerQ) (hu : (s.array a).passRun q = some u) (hb : tfind (s.array a).front q = some b) :
    ((s.doRow a).array a).Held q ∧ ∃ v ∈ ((s.doRow a).array a).runs, v.desc = u.desc ∧ v.quarter = q ∧
      v.rowIx = (if mmRows u.desc b.mc ≤ u.rowIx + 1 then 0 else u.rowIx + 1) ∧
      v.passIx = if mmRows u.desc b.mc ≤ u.rowIx + 1 then u.passIx + 1 else u.passIx := by
  rw [State.doRow_eq h]
  obtain ⟨t, f, before, after⟩ := State.rowThrough_own a w (s.array a).staggerQ_nodup hq (s.rowOut a rest) true
  rw [State.rowOut_array] at before
  obtain ⟨u', hu', core⟩ := before.passRun_some (u := u) hu
  have desc : u'.desc = u.desc := Run.of_core (·.desc) (fun _ => rfl) core
  have rowIx : u'.rowIx = u.rowIx := Run.of_core (·.rowIx) (fun _ => rfl) core
  have passIx : u'.passIx = u.passIx := Run.of_core (·.passIx) (fun _ => rfl) core
  obtain ⟨-, u₁, hu₁, staggered⟩ := Arr.mem_staggerQ.mp hq
  obtain rfl : u = u₁ := Option.some.inj (hu.symm.trans hu₁)
  obtain ⟨held, v, hv, vdesc, vq, vrow, vpass⟩ :=
    State.rowQuarter_takes hu' (before.front.trans hb) (desc ▸ staggered) w f
  obtain ⟨v', hv', vdesc', vq', vrow', vpass'⟩ := after.mem_place hv vq
  rw [desc, rowIx] at vrow vpass
  rw [passIx] at vpass
  exact ⟨after.held held, v', hv', vdesc'.trans (vdesc.trans desc), vq', vrow'.trans vrow, vpass'.trans vpass⟩

/-- A row that enters one quarter alone adds its products to the store. -/
theorem State.doRow_store {w : BitVec 512} {rest : List (BitVec 512)} {u : Run} {b : Blk} (h : (s.array a).fifo = w :: rest)
    (hq : q ∈ (s.array a).staggerQ) (hu : (s.array a).passRun q = some u) (hb : tfind (s.array a).front q = some b)
    (alone : ∀ p, p ≠ q → (s.array a).passRun p = none) : (∀ p, ((s.doRow a).array a).Held p) ∧
      ((s.doRow a).array a).store = (streamRow (s.aMem a) u.desc (((s.array a).enter u).bankOf (u.passIx / u.perTile)) b
        (256 * b.mc + u.rowIx) (rowOfWord u.desc w b.kb) (s.array a).store).1 := by
  have single : s.doRow a = (s.rowOut a rest).rowQuarter a w true q := by
    rw [State.doRow_eq h, Arr.staggerQ_alone hq alone]
    rfl
  obtain ⟨held, -⟩ := State.doRow_takes h hq hu hb
  refine ⟨fun p => ?_, ?_⟩
  · by_cases hp : p = q
    · exact hp ▸ held
    · have same := State.rowQuarter_other hp (s.rowOut a rest) a w true
      rw [← single] at same
      refine .inr fun v hv => ?_
      rw [same.passRun_none (by rw [State.rowOut_array]; exact alone p hp)] at hv
      cases hv
  · have run : ((s.rowOut a rest).array a).passRun q = some u := by rw [State.rowOut_array]; exact hu
    have front : tfind ((s.rowOut a rest).array a).front q = some b := by rw [State.rowOut_array]; exact hb
    have enter : ((s.rowOut a rest).array a).enter u = (s.array a).enter u := by rw [State.rowOut_array]; rfl
    rw [single, State.rowQuarter_eq run front w true enter, State.rowOut_array, Arr.enter_desc, Arr.enter_passIx,
      Arr.enter_perTile, Arr.enter_rowIx, show (s.rowOut a rest).aMem a = s.aMem a from State.aMem_modArray ..]
    rfl

end

end Sys2Proof.Machine

namespace Sys2Proof.Machine

/-! ## The epilogue and the ends of descriptors (R118, R122, R134, R138) -/

section
variable {s : State} {a : AAt} {q : Nat}

/-- The epilogue of a finished bank keeps its converted rows with the run, unless they leave by the port (R118). -/
theorem State.doEpi_keeps {u : Run} (hu : (s.array a).runs.find? (Run.emitting q) = some u) (hp : mmPort u.desc = false) :
    ∃ v ∈ ((s.doEpi a q).array a).runs, v.desc = u.desc ∧ v.outTile = u.outTile + 1 ∧
      v.out = u.out ++ ((tileOut (s.aMem a) u.desc (s.array a).store (u.bankOf u.outTile) (mmTileAt u.desc u.outTile).1
        (mmTileAt u.desc u.outTile).2).1.flatMap (CPart.writes u.desc)) := by
  unfold State.doEpi
  dsimp only
  rw [hu]
  dsimp only
  rw [State.array_metered fun x => (MetersOnly.refl x).outCount .., State.array_modArray]
  refine ⟨_, mem_modFirst hu, rfl, ?_, ?_⟩
  · simp [hp]
  · simp [hp]

theorem Arr.unstall_frame (r : Arr) : r.unstall.runs = r.runs ∧ r.unstall.atts = r.atts := by
  unfold Arr.unstall
  split
  · split <;> exact ⟨rfl, rfl⟩
  · exact ⟨rfl, rfl⟩

/-- The other array of the tile. -/
def otherArr (a : AAt) : AAt := { a with arr := 1 - a.arr % 2 }

theorem State.modArray_otherArr (s : State) (a : AAt) (f : Arr → Arr) : (s.modArray (otherArr a) f).array a = s.array a ∧
    (s.modArray (otherArr a) f).aMem a = s.aMem a ∧ ((s.modArray (otherArr a) f).die a.die).ctxs = (s.die a.die).ctxs := by
  have tile : ((s.modArray (otherArr a) f).die a.die).mtile a.tile =
      ((s.die a.die).mtile a.tile).modArr ((1 - a.arr % 2) % 2) f := by
    unfold State.modArray
    rw [show (otherArr a).die = a.die from rfl, State.die_modDie_same]
    exact Die.mtile_modMTile_same ..
  refine ⟨?_, ?_, (TileWork.modArray (otherArr a) s f).ctxs⟩
  · rw [State.array, tile, State.array]
    obtain h | h := Nat.mod_two_eq_zero_or_one a.arr <;> rw [h] <;> rfl
  · rw [State.aMem, tile, State.aMem, MTile.modArr_mem]

/-- Output is written to the tile's memory, and its other array notes the units; where that array has written nothing meanwhile, every
byte of the output stands (R118, R140). -/
theorem State.writeOut_eq (s : State) (a : AAt) (rival : List Nat) (l : List (Nat × List Byte)) :
    ∃ (s0 : State) (write : Memory → Memory) (note : Arr → Arr), (∀ e, s0.die e = s.die e) ∧
      (rival = [] → ∀ m, write m = l.foldl (fun m w => mwriteN m w.1 w.2) m) ∧
      s.writeOut a rival l = (s0.modDie a.die fun x => x.modMTile a.tile fun t =>
        { t with mem := write t.mem }).modArray (otherArr a) note := by
  refine ⟨_, fun m => l.foldl (fun m w => mwriteN m w.1 w.2) (((unitsOf l).filter rival.contains).foldl (fun m u =>
    mwriteN m (64 * u) (le 64 (Config.freeNat s.freeCount / 2 ^ (512 * u)))) m), _, fun e => ?_, fun hr m => ?_, rfl⟩
  · split <;> rfl
  · have clean : (unitsOf l).filter rival.contains = [] := List.filter_eq_nil_iff.mpr fun u _ => by simp [hr]
    dsimp only
    rw [clean]
    rfl

/-- Output written to local memory leaves the array and the contexts. -/
theorem State.writeOut_facts (s : State) (a : AAt) (rival : List Nat) (l : List (Nat × List Byte)) :
    (s.writeOut a rival l).array a = s.array a ∧ ((s.writeOut a rival l).die a.die).ctxs = (s.die a.die).ctxs ∧
      (rival = [] → (s.writeOut a rival l).aMem a = l.foldl (fun m w => mwriteN m w.1 w.2) (s.aMem a)) := by
  obtain ⟨s0, write, note, base, whole, eq⟩ := s.writeOut_eq a rival l
  obtain ⟨array, mem, ctxs⟩ := State.modArray_otherArr (s0.modDie a.die fun x => x.modMTile a.tile fun t =>
    { t with mem := write t.mem }) a note
  rw [eq, array, ctxs, mem]
  unfold State.array State.aMem
  rw [State.die_modDie_same, Die.mtile_modMTile_same, base]
  exact ⟨rfl, rfl, fun hr => whole hr _⟩

/-- The record of a descriptor's end stands last in its context's ring, where there is room (R118, R190). -/
theorem State.endDesc_ring {d c : Nat} {y : Ctx} (hy : tfind (s.die d).ctxs c = some y) (room : y.ring.length < 256)
    (desc : BitVec 512) (st : Status) (fp : Nat) (checked : Bool) (only : Option Nat) :
    ∃ z, tfind ((s.endDesc d c desc st fp checked only).die d).ctxs c = some z ∧
      z.ring = y.ring ++ [{ tag := descTag desc, status := st, fp := fp }] := by
  unfold State.endDesc
  extract_lets s1 s2 own
  have ctx : (s.die d).ctx c = some y := hy
  have written : tfind (s1.die d).ctxs c = some { y with ring := y.ring ++ [{ tag := descTag desc, status := st, fp := fp }] } := by
    unfold s1 State.writeRec State.modCtx
    rw [State.die_modDie_same, Die.modCtx, ctx]
    dsimp only
    rw [tfind_tput_same, if_pos room]
  have served : (s2.die d).ctxs = (s1.die d).ctxs := by
    unfold s2
    split
    · rfl
    · rw [State.failServed_die]
  refine ⟨{ y with ring := y.ring ++ [{ tag := descTag desc, status := st, fp := fp }] }, ?_, rfl⟩
  split
  · rw [State.sendAdd, State.die_modDie_same]
    exact served ▸ written
  · exact served ▸ written

/-- The end of a descriptor, `f` of its array, and the array's own work: the tile's memory is left, the record stands last in the ring
of the context. -/
theorem State.ended_facts {c : Nat} {y : Ctx} (hy : tfind (s.die a.die).ctxs c = some y) (room : y.ring.length < 256) (f : Arr → Arr)
    (desc : BitVec 512) (st : Status) (fp : Nat) (checked : Bool) (only : Option Nat) {t : State}
    (ht : t = ((s.modArray a f).endDesc a.die c desc st fp checked only).settle a) :
    t.aMem a = s.aMem a ∧ OwnFrame (f (s.array a)) (t.array a) ∧
      ∃ z r, tfind (t.die a.die).ctxs c = some z ∧ z.ring = y.ring ++ [r] ∧ r.tag = descTag desc ∧ r.status = st := by
  subst ht
  have taken : TileWork a s (s.modArray a f) := .modArray ..
  obtain ⟨array, mem⟩ := State.array_of_mtiles (a := a)
    ((s.modArray a f).endDesc_contextsOnly a.die c desc st fp checked only).2.mtiles
  have work := ((s.modArray a f).endDesc a.die c desc st fp checked only).settle_tileWork a
  have frame := ((s.modArray a f).endDesc a.die c desc st fp checked only).settle_frame a
  obtain ⟨z, hz, ring⟩ := State.endDesc_ring (s := s.modArray a f) (taken.ctxs ▸ hy) room desc st fp checked only
  rw [array, State.array_modArray] at frame
  exact ⟨work.mem.trans (mem.trans taken.mem), frame, z, _, work.ctxs ▸ hz, ring, rfl, rfl⟩

/-! ### MATMULs (R118) -/

/-- The output of a MATMUL that ends OK; nothing of one that does not. -/
def State.runOut (s : State) (a : AAt) (u : Run) : State := if u.status.getD .ok = .ok then s.writeOut a u.rival u.out else s

theorem State.runOut_facts (s : State) (a : AAt) (u : Run) : (s.runOut a u).array a = s.array a ∧
    ((s.runOut a u).die a.die).ctxs = (s.die a.die).ctxs ∧
    (u.status = none → u.rival = [] → (s.runOut a u).aMem a = u.out.foldl (fun m w => mwriteN m w.1 w.2) (s.aMem a)) ∧
    ∀ st, u.status = some st → st ≠ .ok → (s.runOut a u).aMem a = s.aMem a := by
  obtain ⟨array, ctxs, mem⟩ := s.writeOut_facts a u.rival u.out
  unfold State.runOut
  split
  next hok => exact ⟨array, ctxs, fun _ => mem, fun st hst hne => absurd (by simpa [hst] using hok) hne⟩
  next hok => exact ⟨rfl, rfl, fun hst => absurd (by simp [hst]) hok, fun _ _ _ => rfl⟩

theorem State.doRunEnd_eq {idx : Nat} {u : Run} (hu : (s.array a).runs[idx]? = some u) :
    s.doRunEnd a idx = ((s.runOut a u).modArray a fun (r : Arr) => Arr.unstall { r with
      runs := r.runs.eraseIdx idx
      fp := Nat.lor r.fp u.fp }).endDesc a.die u.ctx u.desc (u.status.getD .ok) u.fp u.checked none := by
  unfold State.doRunEnd
  rw [hu]
  rfl

theorem State.runDue_facts {idx : Nat} {u : Run} {y : Ctx} (due : s.runDue a idx = true) (hu : (s.array a).runs[idx]? = some u)
    (hy : tfind (s.die a.die).ctxs u.ctx = some y) : idx < (s.array a).runs.length ∧ y.ring.length < 256 := by
  obtain ⟨hi, -⟩ := List.getElem?_eq_some_iff.mp hu
  have ctx : (s.die a.die).ctx u.ctx = some y := hy
  simp only [State.runDue, hu, ctx, Bool.and_eq_true, decide_eq_true_eq] at due
  exact ⟨hi, due.2⟩

theorem exec_endsRun {idx : Nat} (hu : s.aUnits a = true) (herr : a.err = 0) (hi : idx < (s.array a).runs.length)
    (due : s.runDue a idx = true) : exec (.descriptorComplete a idx) s = .next ((s.doRunEnd a idx).settle a) := by
  refine Eq.trans (b := Host.Outcome.next (State.settle _ a)) (event_aword hu ?_ herr) ?_
  · rw [if_pos hi, due]
  · rw [if_pos hi]

/-! ### ATTENDs (R138) -/

/-- What an ATTEND that ends writes, and what its conversion reports. -/
def Att.ending (v : Att) : List Byte × Ev := if v.fail.getD .ok = .ok ∧ atWring v.desc then v.out else ([], Ev.none)

/-- The output of an ATTEND that ends, counted. -/
def State.attOut (s : State) (a : AAt) (v : Att) : State :=
  (if v.ending.1.isEmpty then s else s.writeOut a v.rival [(64 * dw v.desc 14 14 0, v.ending.1)]).modDie a.die fun x =>
    x.outCount a v.ending.2

theorem State.attOut_facts (s : State) (a : AAt) (v : Att) : (s.attOut a v).array a = s.array a ∧
    ((s.attOut a v).die a.die).ctxs = (s.die a.die).ctxs ∧
    ∀ st, v.fail = some st → st ≠ .ok → (s.attOut a v).aMem a = s.aMem a := by
  obtain ⟨array, ctxs, -⟩ := s.writeOut_facts a v.rival [(64 * dw v.desc 14 14 0, v.ending.1)]
  have counted (t : State) : TileWork a t (t.modDie a.die fun x => x.outCount a v.ending.2) :=
    TileWork.metered (.refl a t) fun x => (MetersOnly.refl x).outCount ..
  refine ⟨?_, (counted _).ctxs.trans ?_, fun st hst hne => ?_⟩
  · rw [State.attOut, State.array_metered fun x => (MetersOnly.refl x).outCount ..]
    split
    · rfl
    · exact array
  · split
    · rfl
    · exact ctxs
  · have nothing : v.ending = ([], Ev.none) := if_neg fun h => hne (by simpa [hst] using h.1)
    rw [State.attOut, (counted _).mem, nothing]
    rfl

theorem State.doAttEnd_eq {idx : Nat} {v : Att} (hv : (s.array a).atts[idx]? = some v) :
    s.doAttEnd a idx = ((s.attOut a v).modArray a fun (r : Arr) => Arr.unstall { r with
      atts := r.atts.eraseIdx idx, fp := Nat.lor r.fp (Nat.lor v.fp v.ending.2.fp) }).endDesc a.die v.ctx v.desc (v.fail.getD .ok)
        (Nat.lor v.fp v.ending.2.fp) true (if v.wide then none else some (atSeq v.desc)) := by
  unfold State.doAttEnd
  rw [hv]
  rfl

theorem exec_endsAtt {idx : Nat} (hu : s.aUnits a = true) (herr : a.err = 0) (due : s.attDue a idx = true) :
    exec (.descriptorComplete a ((s.array a).runs.length + idx)) s = .next ((s.doAttEnd a idx).settle a) := by
  have beyond : ¬ (s.array a).runs.length + idx < (s.array a).runs.length := by omega
  refine Eq.trans (b := Host.Outcome.next (State.settle _ a)) (event_aword hu ?_ herr) ?_
  · rw [if_neg beyond, Nat.add_sub_cancel_left, due]
  · rw [if_neg beyond, Nat.add_sub_cancel_left]

theorem State.attDue_room {idx : Nat} {v : Att} {y : Ctx} (due : s.attDue a idx = true) (hv : (s.array a).atts[idx]? = some v)
    (hy : tfind (s.die a.die).ctxs v.ctx = some y) : y.ring.length < 256 := by
  have ctx : (s.die a.die).ctx v.ctx = some y := hy
  simp only [State.attDue, hv, ctx, Bool.and_eq_true, decide_eq_true_eq] at due
  exact due.2

end

end Sys2Proof.Machine

namespace Sys2Proof.Machine

/-- Settles O23: what a step does to its array stands after the array's own work (`State.settle_frame`), for which a quarter that cannot
stream is as it was (`State.settle_sameQuarter`); a broadcast pass is the first thing that the array does after its swap
(`State.swap_streams`). -/
theorem matrixDescriptors : Obligations.MatrixDescriptors := by
  refine ⟨⟨?issue, ?start⟩, ⟨?load, ?swap, ?row⟩, ?epilogue, ?runEnds, ?attEnds⟩
  case issue =>
    intro s i a addr c y hu herr due hi hy ha hd hf
    have frame := (s.doIssue a addr).settle_frame a
    have settled := (s.doIssue a addr).settle_tileWork a
    rw [State.doIssue_eq hy ha hd hf] at frame settled
    rw [State.array_modArray] at frame
    obtain ⟨atts, runs⟩ := (s.array a).issue_frame (s.aDesc a addr) c
    have work := (TileWork.modArray a s _).trans settled
    refine ⟨_, exec_issues hu herr due hi, ?_⟩
    rw [State.doIssue_eq hy ha hd hf]
    refine ⟨work.others, work.mem, frame.atts.trans atts, frame.descs.trans (by rw [runs]), fun room => ?_, fun full => ?_⟩
    · rw [Arr.issue_of_room _ c room (State.stalled_of_aIssue due)] at frame
      exact ⟨frame.queue, frame.stalled.trans (State.stalled_of_aIssue due)⟩
    · rw [Arr.issue_of_full _ c full] at frame
      exact ⟨frame.queue, frame.stalled⟩
  case start =>
    intro s a d c rest y hu herr due hq hy
    have runs : exec (.descriptorStart a) s = .next ((s.doStart a).settle a) := event_aword hu due herr
    refine ⟨fun hk => ⟨_, runs, ?_⟩, fun hk hok => ⟨_, runs, ?_⟩, fun hk hok => ⟨_, runs, ?_⟩⟩
    · obtain ⟨u, started, stands⟩ := State.doStart_run hq hy hk
      obtain ⟨work, queue, -, descs, v, last, -, ctx, loadIx, passIx, status⟩ := stands.settle started
      refine ⟨work.others, work.mem, queue, descs, v, last, ctx, loadIx, passIx, fun bad => ?_,
        fun ok => ⟨fun hs ht ha => ?_, fun h => ?_⟩⟩
      · rw [status, State.mmStatus, if_pos bad]
      · rw [status, State.mmStatus, if_neg (by simp [ok]), if_pos (by simp [hs, ht, ha])]
      · rw [status, State.mmStatus, if_neg (by simp [ok]), if_neg (by obtain h | h := h <;> simp [h])]
    · have frame := (s.doStart a).settle_frame a
      obtain ⟨queue, runs, slots⟩ := State.doStart_opens hq hy hk hok
      exact ⟨frame.queue.trans queue, frame.descs.trans (by rw [runs]), by rw [frame.atts, slots]⟩
    · obtain ⟨u, started, stands⟩ := State.doStart_refused hq hy hk hok
      obtain ⟨work, queue, atts, -, v, last, desc, -, -, -, status⟩ := stands.settle started
      exact ⟨work.others, work.mem, queue, atts, v, last, desc, status⟩
  case load =>
    intro s a q mc nb kb u hu herr hq due hl hp
    have runs (b : Bool) : exec (.blockLoad a q b) s = .next ((s.doLoad a q b).settle a) := event_aword (by simp [hu, hq]) due herr
    have frame (b : Bool) := (s.doLoad a q b).settle_frame a
    have settled (b : Bool) := (s.doLoad a q b).settle_tileWork a
    refine ⟨fun src empty => ⟨_, runs false, ?_⟩, fun b full => ⟨_, runs b, ?_⟩, fun empty fresh few => ⟨_, runs true, ?_⟩⟩
    · have frame := frame false
      have settled := settled false
      rw [State.doLoad_mem hl hp empty src] at frame settled ⊢
      rw [State.array_modArray] at frame
      have work := (TileWork.modArray a s _).trans settled
      obtain ⟨back, mem⟩ := Arr.loaded_facts hl
        { mc := mc, nb := nb, kb := kb, cols := blockOfB (s.aMem a) u.desc nb kb }
      obtain ⟨v, hv, fixed⟩ := frame.mem mem
      have desc := Run.of_fixed (·.desc) (fun _ => rfl) fixed
      have quarter := Run.of_fixed (·.quarter) (fun _ => rfl) fixed
      have loadIx := Run.of_fixed (·.loadIx) (fun _ => rfl) fixed
      exact ⟨work.others, work.mem, by rw [frame.back, back], v, hv, desc,
        quarter.trans (show u.quarter = q from Arr.loading_quarter hl), loadIx⟩
    · have frame := frame b
      have settled := settled b
      rw [State.doLoad_stalls hl full] at frame settled ⊢
      rw [State.array_metered fun x => (MetersOnly.refl x).count ..] at frame
      have work := (TileWork.metered (.refl a s) fun x => (MetersOnly.refl x).count mtLoadStall (arrNo a) 1).trans settled
      exact ⟨work.others, work.mem, frame.back, frame.loads⟩
    · have inService : (s.die a.die).isFenced 2 (arrNo a) = false := State.not_fenced_of_aLive (by
        simp only [State.loadDue, Bool.and_eq_true] at due
        exact due.1.1)
      obtain ⟨mem, array⟩ := State.badBlock_first fresh inService few
      have frame := frame true
      have settled := settled true
      rw [State.doLoad_bad hl empty] at frame settled ⊢
      rw [array] at frame
      exact ⟨settled.mem.trans mem, frame.back, frame.loads, by rw [frame.badLoad, thas_tput_same]⟩
  case swap =>
    intro s a q u b hu herr hq due hr hb
    have runs : exec (.passSwap a q) s = .next ((s.doSwap a q).settle a) := event_aword (by simp [hu, hq]) due herr
    obtain ⟨swap, array⟩ := State.doSwap_eq hr hb
    have work := swap.trans ((s.doSwap a q).settle_tileWork a)
    have back : tfind (((s.doSwap a q).settle a).array a).back q = none := by
      rw [((s.doSwap a q).settle_frame a).back, array]
      exact tfind_tdel_same ..
    exact ⟨_, runs, work.others, work.mem, back, State.swap_waits hr hb,
      fun broadcast alone may => State.swap_streams hq due hr hb broadcast alone may⟩
  case row =>
    intro s a w rest hu herr due hf
    have runs : exec (.staggerRow a) s = .next ((s.doRow a).settle a) := event_aword hu due herr
    have work := (State.doRow_tileWork hf).trans ((s.doRow a).settle_tileWork a)
    have fifo : (((s.doRow a).settle a).array a).fifo = rest := by
      rw [((s.doRow a).settle_frame a).fifo, State.doRow_fifo hf]
    refine ⟨_, runs, work.others, work.mem, fifo, fun q hq u b hr hb => ⟨?_, fun alone => ?_⟩⟩
    · obtain ⟨held, v, hv, desc, quarter, rowIx, passIx⟩ := State.doRow_takes hf hq hr hb
      obtain ⟨v', hv', desc', quarter', rowIx', passIx'⟩ := (State.settle_sameQuarter held).mem_place hv quarter
      exact ⟨v', hv', desc'.trans desc, quarter', rowIx'.trans rowIx, passIx'.trans passIx⟩
    · obtain ⟨held, store⟩ := State.doRow_store hf hq hr hb alone
      obtain ⟨-, kept⟩ := (heldStore_stable ((s.doRow a).array a).store).settle ⟨held, rfl⟩
      exact kept.trans store
  case epilogue =>
    intro s a q u hu hp
    have work := s.doEpi_tileWork a q
    exact ⟨work.others, work.mem, State.doEpi_keeps hu hp⟩
  case runEnds =>
    intro s a idx u y hu herr due hr hy
    obtain ⟨hi, room⟩ := State.runDue_facts due hr hy
    obtain ⟨array, ctxs, written, nothing⟩ := s.runOut_facts a u
    obtain ⟨mem, frame, record⟩ := State.ended_facts (ctxs ▸ hy) room _ _ _ _ _ _
      (congrArg (State.settle · a) (State.doRunEnd_eq hr))
    obtain ⟨left, -⟩ := Arr.unstall_frame { (s.runOut a u).array a with
      runs := ((s.runOut a u).array a).runs.eraseIdx idx, fp := Nat.lor ((s.runOut a u).array a).fp u.fp }
    exact ⟨_, exec_endsRun hu herr hi due, by rw [frame.descs, left, array], fun hst rival => mem.trans (written hst rival),
      fun st hst hne => mem.trans (nothing st hst hne), record⟩
  case attEnds =>
    intro s a idx v y hu herr due hv hy
    have room := State.attDue_room due hv hy
    obtain ⟨array, ctxs, nothing⟩ := s.attOut_facts a v
    obtain ⟨mem, frame, record⟩ := State.ended_facts (ctxs ▸ hy) room _ _ _ _ _ _
      (congrArg (State.settle · a) (State.doAttEnd_eq hv))
    obtain ⟨runs, left⟩ := Arr.unstall_frame { (s.attOut a v).array a with
      atts := ((s.attOut a v).array a).atts.eraseIdx idx
      fp := Nat.lor ((s.attOut a v).array a).fp (Nat.lor v.fp v.ending.2.fp) }
    exact ⟨_, exec_endsAtt hu herr due, by rw [frame.atts, left, array], by rw [frame.descs, runs, array],
      fun st hst hne => mem.trans (nothing st hst hne), record⟩

end Sys2Proof.Machine

namespace Sys2Proof.Machine

/-! ## Tile ports (R246, R250) -/

theorem MetersOnly.fabrics {x y : Die} (h : MetersOnly x y) : y.fabrics = x.fabrics := by
  obtain ⟨_, _, _, rfl⟩ := h
  rfl

theorem MetersOnly.rings {x y : Die} (h : MetersOnly x y) : y.rings = x.rings := by
  obtain ⟨_, _, _, rfl⟩ := h
  rfl

theorem MetersOnly.knotNet {x y : Die} (h : MetersOnly x y) : y.knotNet = x.knotNet := by
  obtain ⟨_, _, _, rfl⟩ := h
  rfl

@[simp] theorem Die.count_fabric (x : Die) (c : Ctr) (u n r : Nat) : (x.count c u n).fabric r = x.fabric r := by
  rw [Die.fabric, ((MetersOnly.refl x).count c u n).fabrics, Die.fabric]

@[simp] theorem Die.count_rings (x : Die) (c : Ctr) (u n : Nat) : (x.count c u n).rings = x.rings :=
  ((MetersOnly.refl x).count c u n).rings

@[simp] theorem Die.modRing_fabric (x : Die) (n : Nat) (f : Ring → Ring) (r : Nat) : (x.modRing n f).fabric r = x.fabric r := rfl

@[simp] theorem Fabric.port_modPort_same (f : Fabric) (n : Nat) (g : Port → Port) : (f.modPort n g).port n = g (f.port n) := by
  simp [Fabric.port, Fabric.modPort]

theorem Fabric.port_modPort_other (f : Fabric) {n m : Nat} (g : Port → Port) (h : m ≠ n) : (f.modPort n g).port m = f.port m := by
  simp [Fabric.port, Fabric.modPort, tget_tmod_other, h]

/-- The die after a word has passed a port: the port notes the edge. -/
def Die.stamp (x : Die) (r port : Nat) : Die :=
  x.modFabric r fun f => f.modPort port fun p => { p with edge := some f.fctr }

@[simp] theorem Die.stamp_rings (x : Die) (r port : Nat) : (x.stamp r port).rings = x.rings := rfl

@[simp] theorem Die.stamp_port (x : Die) (r port : Nat) :
    ((x.stamp r port).fabric r).port port = { (x.fabric r).port port with edge := some (x.fabric r).fctr } := by
  simp [Die.stamp]

theorem Die.stamp_port_other (x : Die) (r : Nat) {port n : Nat} (h : n ≠ port) :
    ((x.stamp r port).fabric r).port n = (x.fabric r).port n := by
  simp [Die.stamp, Fabric.port_modPort_other _ _ h]

@[simp] theorem Die.stamp_fctr (x : Die) (r port : Nat) : ((x.stamp r port).fabric r).fctr = (x.fabric r).fctr := by
  simp [Die.stamp, Fabric.modPort]

/-- The FCTR value at the edge of a port's next word (R246). -/
def Fabric.nextEdge (f : Fabric) (port : Nat) : Nat := if (f.port port).edge = some f.fctr then (f.fctr + 1) % 2 ^ 64 else f.fctr

section
variable {s s1 u : State} {a : RAt} {port : Nat} {w : BitVec 512} {last : Bool}

/-- The state at the edge of a port's next word: FCTR may have counted, nothing else differs. -/
structure AtEdge (a : RAt) (port : Nat) (s s1 : State) : Prop where
  only   : DiesOnly s s1
  others : OtherDies s s1 a.die
  die    : ∃ fabrics, s1.die a.die = { s.die a.die with fabrics := fabrics }
  fabric : (s1.die a.die).fabric a.region =
    { (s.die a.die).fabric a.region with fctr := ((s.die a.die).fabric a.region).nextEdge port }

theorem State.tpEdge_atEdge (h : s.tpEdge a port = some s1) : AtEdge a port s s1 := by
  unfold State.tpEdge at h
  dsimp only at h
  split at h
  next passed =>
    split at h
    · cases h
      refine ⟨.modDie .., OtherDies.modDie s a.die _, ⟨_, State.die_modDie_same ..⟩, ?_⟩
      rw [State.fctrTick, State.die_modDie_same, Die.fabric_modFabric_same, Fabric.nextEdge, if_pos passed]
    · cases h
  next fresh =>
    cases h
    refine ⟨.refl s, OtherDies.refl s _, ⟨_, rfl⟩, ?_⟩
    rw [Fabric.nextEdge, if_neg fresh]

/-- A word passes at the edge that is due for its port. -/
theorem exec_tpWord (hd : a.die < s.dieCount) (hr : a.region < 8) (hp : port < 16) (hf : s.fclkOn a = true)
    (he : s.tpEdge a port = some s1) (step : s1.tpStep a port w last = some u) :
    exec (.tpWord a port w last) s = .next (u.modDie a.die fun x => x.stamp a.region port) := by
  have pass : s.tpPass a port w last = some (u.modDie a.die fun x => x.stamp a.region port) := by
    unfold State.tpPass
    rw [he]
    dsimp only
    rw [step]
    rfl
  have runs : exec (.tpWord a port w last) s = .next ((s.tpPass a port w last).getD s) :=
    event_next (by simp [hd, hr, hp]) (by simp [hf, pass])
  rw [runs, pass]
  rfl

section
variable (h : AtEdge a port s s1)
include h

theorem AtEdge.ports : ((s1.die a.die).fabric a.region).port = ((s.die a.die).fabric a.region).port := by
  rw [h.fabric]
  rfl

theorem AtEdge.binds : ((s1.die a.die).fabric a.region).binds = ((s.die a.die).fabric a.region).binds := by
  rw [h.fabric]

theorem AtEdge.rings : (s1.die a.die).rings = (s.die a.die).rings := by
  obtain ⟨_, eq⟩ := h.die
  rw [eq]

/-- What the rings of a die show reads its rings and registers only. -/
theorem AtEdge.ringReads (n : Nat) : (s1.die a.die).ringHeld n = (s.die a.die).ringHeld n ∧
    (s1.die a.die).ringFront n = (s.die a.die).ringFront n ∧ (s1.die a.die).ringLen n = (s.die a.die).ringLen n := by
  obtain ⟨_, eq⟩ := h.die
  rw [eq]
  exact ⟨rfl, rfl, rfl⟩

/-- The array behind a port, and what decides whether its words may pass. -/
theorem AtEdge.array (k : AAt) (hk : k.die = a.die) : s1.array k = s.array k ∧ s1.stagHere k = s.stagHere k ∧
    s1.outHere k = s.outHere k := by
  obtain ⟨_, eq⟩ := h.die
  simp only [State.array, State.stagHere, State.outHere, State.claimedAway, Die.mtile, Die.tileOcc, hk, eq, and_self]

end

/-! ### Ports of the arrays (R127, R129) -/

theorem State.tpStep_input (hp : port < 2) (habs : (((s.die a.die).fabric a.region).port port).absent = false)
    (room : (s.array (stagArr a port)).fifo.length < 64) (here : s.stagHere (stagArr a port) = true) :
    s.tpStep a port w last = some (s.modArray (stagArr a port) fun r => { r with fifo := r.fifo ++ [w] }) := by
  unfold State.tpStep
  dsimp only
  rw [habs, if_neg Bool.false_ne_true, if_pos hp, if_neg (by simp [here, room])]

theorem State.tpStep_output {c : BitVec 512} {rest : List (BitVec 512)} (hp : 2 ≤ port) (hp' : port < 4)
    (habs : (((s.die a.die).fabric a.region).port port).absent = false) (words : (s.array (stagArr a port)).cfifo = c :: rest)
    (here : s.outHere (stagArr a port) = true) : s.tpStep a port w last =
      some (((s.modArray (stagArr a port) fun r => { r with cfifo := rest }).settle (stagArr a port)).modDie a.die fun x =>
        x.tpOut a.region port c) := by
  unfold State.tpStep
  dsimp only
  rw [habs, if_neg Bool.false_ne_true, if_neg (by omega), if_pos hp', words]
  dsimp only
  rw [if_pos here]

/-! ### Ports of the device (R252, R253, R255) -/

section
variable {b : PortBind} (hp : 4 ≤ port) (habs : (((s.die a.die).fabric a.region).port port).absent = false)
  (hb : tfind ((s.die a.die).fabric a.region).binds port = some b)
include hp habs hb

theorem State.tpStep_call (kind : b.kind = 1) (ready : (((s.die a.die).fabric a.region).port port).callReady = true) :
    s.tpStep a port w last = some (s.tpCall a port b w last) := by
  have device : ¬ port < 2 ∧ ¬ port < 4 := by omega
  simp [State.tpStep, habs, device, hb, kind, ready]

theorem State.tpStep_return (kind : b.kind = 2) (held : (s.die a.die).ringHeld b.ring ≠ 0) :
    s.tpStep a port w last = some (s.modDie a.die fun x =>
      ((x.tpOut a.region port (x.ringFront b.ring)).ringPop b.ring).count tpWordsOut a.region 1) := by
  have device : ¬ port < 2 ∧ ¬ port < 4 := by omega
  simp [State.tpStep, habs, device, hb, kind, held]

theorem State.tpStep_write (kind : b.kind = 3) (room : (((s.die a.die).fabric a.region).port port).buf.length < 1024) :
    s.tpStep a port w last = some (s.modDie a.die fun x =>
      ((x.modFabric a.region fun f => f.modPort port fun p => { p with buf := p.buf ++ [w] }).count tpWordsIn
        a.region 1).testPanic a.region) := by
  have device : ¬ port < 2 ∧ ¬ port < 4 := by omega
  simp [State.tpStep, habs, device, hb, kind, room]

theorem State.tpStep_full (kind : b.kind = 3) (full : 1024 ≤ (((s.die a.die).fabric a.region).port port).buf.length) :
    s.tpStep a port w last = some (s.modDie a.die fun x => x.count rtpFullCycles a.region 1) := by
  have device : ¬ port < 2 ∧ ¬ port < 4 := by omega
  simp [State.tpStep, habs, device, hb, kind, full]

theorem State.tpStep_read (kind : b.kind = 4) {v : BitVec 512} {rest : List (BitVec 512)}
    (words : (((s.die a.die).fabric a.region).port port).buf = v :: rest) :
    s.tpStep a port w last = some (s.modDie a.die fun x =>
      (((x.tpOut a.region port v).modFabric a.region fun f => f.modPort port fun p => { p with buf := rest }).count
        tpWordsOut a.region 1).testPanic a.region) := by
  have device : ¬ port < 2 ∧ ¬ port < 4 := by omega
  simp [State.tpStep, habs, device, hb, kind, words]

theorem State.tpStep_empty (kind : b.kind = 4) (nothing : (((s.die a.die).fabric a.region).port port).buf = []) :
    s.tpStep a port w last = some (s.modDie a.die fun x => x.count rtpEmptyCycles a.region 1) := by
  have device : ¬ port < 2 ∧ ¬ port < 4 := by omega
  simp [State.tpStep, habs, device, hb, kind, nothing]

end

end

/-! ### What a word leaves of its port -/

theorem Port.callWord_begins {p : Port} (h : ∀ c, p.calls.getLast? = some c → c.isDone = true) (b : PortBind) (w : BitVec 512)
    (last : Bool) : (p.callWord b w last).1.calls = p.calls ++ [⟨[w], last, false, b⟩] := by
  unfold Port.callWord
  split
  next c l hc =>
    rw [if_pos (h c (by rw [← List.head?_reverse, hc]; rfl))]
  next hc =>
    rw [List.reverse_eq_nil_iff.mp hc]
    rfl

theorem Port.callWord_joins {p : Port} {l : List Call} {c : Call} (h : p.calls = l ++ [c]) (hc : c.isDone = false) (b : PortBind)
    (w : BitVec 512) (last : Bool) : (p.callWord b w last).1.calls =
      l ++ [{ c with words := c.words ++ [w], isDone := last || decide (64 ≤ c.words.length + 1) }] := by
  have reversed : p.calls.reverse = c :: l.reverse := by simp [h]
  unfold Port.callWord
  rw [reversed]
  dsimp only
  rw [hc, if_neg Bool.false_ne_true]
  cases last <;> simp

/-- The panic test of a region writes the panic of its ports, and no ring (R256). -/
theorem Die.testPanic_facts (x : Die) (r : Nat) : (x.testPanic r).rings = x.rings ∧
    ∀ n, ∃ panic, ((x.testPanic r).fabric r).port n = { (x.fabric r).port n with panic := panic } := by
  unfold Die.testPanic
  extract_lets was y
  have tested : y.rings = x.rings ∧ ∀ n, ∃ panic, (y.fabric r).port n = { (x.fabric r).port n with panic := panic } := by
    refine List.foldlRecOn (motive := fun (y : Die) => y.rings = x.rings ∧
      ∀ n, ∃ panic, (y.fabric r).port n = { (x.fabric r).port n with panic := panic }) _ _ ⟨rfl, fun n => ⟨_, rfl⟩⟩ ?_
    rintro z ⟨rings, ports⟩ m -
    split
    · refine ⟨rings, fun n => ?_⟩
      obtain ⟨panic, eq⟩ := ports n
      rw [Die.fabric_modFabric_same]
      by_cases hn : n = m
      · exact ⟨_, by rw [← hn, Fabric.port_modPort_same, eq]⟩
      · exact ⟨panic, by rw [Fabric.port_modPort_other _ _ hn, eq]⟩
    · exact ⟨rings, ports⟩
  clear_value y
  split
  · rw [Die.count_rings]
    simp only [Die.count_fabric]
    exact tested
  · exact tested

end Sys2Proof.Machine

namespace Sys2Proof.Machine

/-! ## Rings behind the ports (R159, R252, R255) -/

theorem Die.ringPop_other (x : Die) {n m : Nat} (h : m ≠ n) : (x.ringPop n).ring m = x.ring m := Die.ring_modRing_other _ _ h

theorem Die.ring_of_rings {x y : Die} (h : y.rings = x.rings) (n : Nat) : y.ring n = x.ring n := by rw [Die.ring, h, Die.ring]

/-- Words written to a ring from its write pointer on. -/
def Die.ringPushes (x : Die) (n : Nat) (l : List (BitVec 512)) : Die := l.foldl (fun x w => x.ringPush n w) x

@[simp] theorem Die.ringPush_len (x : Die) (n : Nat) (w : BitVec 512) : (x.ringPush n w).ringLen n = x.ringLen n := rfl

@[simp] theorem Die.ringPush_ring (x : Die) (n : Nat) (w : BitVec 512) : (x.ringPush n w).ring n =
    { x.ring n with data := tput (x.ring n).data (x.ring n).wr w, wr := ((x.ring n).wr + 1) % x.ringLen n } := by
  simp [Die.ringPush]

theorem Die.ringPushes_cons (x : Die) (n : Nat) (w : BitVec 512) (l : List (BitVec 512)) :
    x.ringPushes n (w :: l) = (x.ringPush n w).ringPushes n l := rfl

theorem Die.ringPushes_fabrics (n : Nat) (l : List (BitVec 512)) (x : Die) : (x.ringPushes n l).fabrics = x.fabrics := by
  induction l generalizing x with
  | nil => rfl
  | cons w l ih => exact ih _

theorem Die.ringPushes_other {n m : Nat} (h : m ≠ n) (l : List (BitVec 512)) (x : Die) : (x.ringPushes n l).ring m = x.ring m := by
  induction l generalizing x with
  | nil => rfl
  | cons w l ih => exact (ih _).trans (Die.ring_modRing_other _ _ h)

theorem Die.ringPushes_pointers (n : Nat) (l : List (BitVec 512)) {x : Die} (h : (x.ring n).wr < x.ringLen n) :
    ((x.ringPushes n l).ring n).wr = ((x.ring n).wr + l.length) % x.ringLen n ∧
      ((x.ringPushes n l).ring n).rd = (x.ring n).rd := by
  induction l generalizing x with
  | nil => exact ⟨(Nat.mod_eq_of_lt h).symm, rfl⟩
  | cons w l ih =>
    obtain ⟨wr, rd⟩ := ih (x := x.ringPush n w) (by simpa using Nat.mod_lt _ (by omega))
    rw [Die.ringPushes_cons, wr, rd, Die.ringPush_ring, Die.ringPush_len, Nat.mod_add_mod, List.length_cons]
    exact ⟨by rw [Nat.add_assoc, Nat.add_comm 1], rfl⟩

/-- A place that no word reaches is as it was. -/
theorem Die.ringPushes_untouched (n k : Nat) (l : List (BitVec 512)) {x : Die} (hw : (x.ring n).wr < x.ringLen n)
    (h : ∀ i < l.length, ((x.ring n).wr + i) % x.ringLen n ≠ k) :
    tget ((x.ringPushes n l).ring n).data k 0 = tget (x.ring n).data k 0 := by
  induction l generalizing x with
  | nil => rfl
  | cons w l ih =>
    have first : k ≠ (x.ring n).wr := by
      simpa [Nat.mod_eq_of_lt hw, eq_comm] using h 0 (by simp)
    rw [Die.ringPushes_cons, ih (x := x.ringPush n w) (by simpa using Nat.mod_lt _ (by omega)) fun i hi => ?_, Die.ringPush_ring]
    · exact tget_tput_other _ _ _ first
    · rw [Die.ringPush_ring, Die.ringPush_len, Nat.mod_add_mod, Nat.add_assoc, Nat.add_comm 1]
      exact h (i + 1) (by simpa using hi)

/-- Within one round of a ring no later place is the first. -/
theorem ringPlace_ne {wr i len : Nat} (hw : wr < len) (hi : i + 1 < len) : (wr + 1 + i) % len ≠ wr := by
  by_cases h : wr + 1 + i < len
  · rw [Nat.mod_eq_of_lt h]
    omega
  · rw [Nat.mod_eq_sub_mod (by omega), Nat.mod_eq_of_lt (by omega)]
    omega

/-- Words that fit one round of a ring stand in it in their order. -/
theorem Die.ringPushes_data (n : Nat) (l : List (BitVec 512)) {x : Die} (hw : (x.ring n).wr < x.ringLen n)
    (fits : l.length ≤ x.ringLen n) {i : Nat} {w : BitVec 512} (hi : l[i]? = some w) :
    tget ((x.ringPushes n l).ring n).data (((x.ring n).wr + i) % x.ringLen n) 0 = w := by
  induction l generalizing x i with
  | nil => cases hi
  | cons v l ih =>
    have next : ((x.ringPush n v).ring n).wr < (x.ringPush n v).ringLen n := by simpa using Nat.mod_lt _ (by omega)
    rw [List.length_cons] at fits
    rw [Die.ringPushes_cons]
    cases i with
    | zero =>
      obtain rfl : v = w := by simpa using hi
      rw [Nat.add_zero, Nat.mod_eq_of_lt hw, Die.ringPushes_untouched n _ l next fun i hi => ?_, Die.ringPush_ring]
      · exact tget_tput_same ..
      · rw [Die.ringPush_ring, Die.ringPush_len, Nat.mod_add_mod]
        exact ringPlace_ne hw (by omega)
    | succ i =>
      have place := ih next (by rw [Die.ringPush_len]; omega) (i := i) (by simpa using hi)
      rw [Die.ringPush_ring, Die.ringPush_len, Nat.mod_add_mod, Nat.add_assoc, Nat.add_comm 1] at place
      exact place

/-! ## Calls (R252) -/

section
variable {p : Call → Bool} {l1 l2 : List Call} {c : Call} (h1 : ∀ e ∈ l1, p e = false) (hc : p c = true)
include h1 hc

theorem find?_call : (l1 ++ c :: l2).find? p = some c := by
  rw [List.find?_append, List.find?_eq_none.mpr (by simpa using h1), List.find?_cons_of_pos hc]
  rfl

theorem markCall_append (g : Call → Call) : markCall p g (l1 ++ c :: l2) = l1 ++ g c :: l2 := by
  induction l1 with
  | nil => simp [markCall, hc]
  | cons e l ih => simp [markCall, h1 e, ih fun d hd => h1 d (List.mem_cons_of_mem e hd)]

theorem dropCall_append : dropCall p (l1 ++ c :: l2) = l1 ++ l2 := by
  induction l1 with
  | nil => simp [dropCall, hc]
  | cons e l ih => simp [dropCall, h1 e, ih fun d hd => h1 d (List.mem_cons_of_mem e hd)]

end

theorem State.dieCount_of_live {s : State} {d : Nat} (h : s.live d = true) : d < s.dieCount := by
  simp only [State.live, State.usable, Bool.and_eq_true, decide_eq_true_eq] at h
  exact h.1.2.1

section
variable {s : State} {a : RAt} {port : Nat} {l1 l2 : List Call} {c : Call}

/-- The die once a port's first unclaimed call `c` has taken its units of the ring (R252). -/
def Die.claimed (x : Die) (r port : Nat) (c : Call) : Die :=
  (x.ringPushes c.bind.ring c.words).modFabric r fun f => f.modPort port fun p =>
    { p with calls := markCall (fun c => !c.claimed) (fun c => { c with claimed := true }) p.calls }

theorem exec_callRingClaim (hl : s.live a.die = true) (hr : a.region < 8) (hp : 4 ≤ port) (hp' : port ≤ 11)
    (calls : (((s.die a.die).fabric a.region).port port).calls = l1 ++ c :: l2) (h1 : ∀ e ∈ l1, e.claimed = true)
    (hc : c.claimed = false) (complete : c.isDone = true) (room : c.words.length ≤ (s.die a.die).ringRoom c.bind.ring) :
    exec (.callRingClaim a port) s = .next (s.modDie a.die fun x => x.claimed a.region port c) := by
  have next : (((s.die a.die).fabric a.region).port port).nextCall = some c := by
    unfold Port.nextCall
    rw [calls, find?_call (by simpa using h1) (by simp [hc])]
    exact if_pos complete
  refine (event_next ?_ ?_).trans ?_
  · simp [State.dieCount_of_live hl, hr, hp, hp']
  · rw [next]
    simp [hl, room]
  · rw [next]
    rfl

theorem exec_callLanded (hl : s.live a.die = true) (hr : a.region < 8) (hp : 4 ≤ port) (hp' : port ≤ 11)
    (calls : (((s.die a.die).fabric a.region).port port).calls = l1 ++ c :: l2) (h1 : ∀ e ∈ l1, e.claimed = false)
    (hc : c.claimed = true) : exec (.callLanded a port) s = .next ((s.modDie a.die fun x =>
      (x.modFabric a.region fun f => f.modPort port fun p =>
        { p with calls := dropCall (fun c => c.claimed) p.calls }).count tpCalls a.region 1).sendAdd a.die c.bind.knot
          (BitVec.ofNat 64 c.bind.knInc)) := by
  have next : (((s.die a.die).fabric a.region).port port).calls.find? (fun c => c.claimed) = some c := by
    rw [calls, find?_call h1 hc]
  refine (event_next ?_ ?_).trans ?_
  · simp [State.dieCount_of_live hl, hr, hp, hp']
  · rw [next]
    simp [hl]
  · rw [next]

end

/-! ## Real-time channels (R255) -/

section
variable {s : State} {a : RAt} {ch : Nat}

/-- The state after the controller that a channel's unit is asked of has granted it. -/
def State.rtAsked (s : State) (a : RAt) (port : Nat) : State :=
  match s.rtAsk a.die a.region port with
  | none => s
  | some k => s.grantAsk a.die (chanMC k.req.chan)

theorem State.grantAsk_queues (s : State) (d m : Nat) : (s.grantAsk d m).queues = s.queues := by
  unfold State.grantAsk
  split <;> rfl

/-- The grant of a unit leaves rings, ports and registers. -/
theorem State.rtAsked_facts (s : State) (a : RAt) (port : Nat) : (s.rtAsked a port).queues = s.queues ∧
    OtherDies s (s.rtAsked a port) a.die ∧ ReachOnly (s.die a.die) ((s.rtAsked a port).die a.die) := by
  unfold State.rtAsked
  split
  · exact ⟨rfl, OtherDies.refl s _, _, _, _, _, _, rfl⟩
  next k _ => exact ⟨s.grantAsk_queues .., s.grantAsk_die ..⟩

/-- What a move between a real-time channel and its ring reads of a die. -/
theorem ReachOnly.rtpReads {x y : Die} (h : ReachOnly x y) : y.fabric = x.fabric ∧ y.ring = x.ring ∧ y.ringLen = x.ringLen ∧
    y.ringFront = x.ringFront ∧ y.ringHeld = x.ringHeld ∧ y.ringRoom = x.ringRoom := by
  obtain ⟨_, _, _, _, _, rfl⟩ := h
  exact ⟨rfl, rfl, rfl, rfl, rfl, rfl⟩

theorem Die.rtpMove_isSome {x : Die} {r port : Nat} (h : (x.rtpUnit r port).isSome = true) : (x.rtpMove r port).isSome = true := by
  obtain ⟨⟨n, u⟩, h⟩ := Option.isSome_iff_exists.mp h
  unfold Die.rtpMove
  rw [h]
  dsimp only
  split <;> rfl

/-- A real-time channel moves a unit that its controller grants. -/
theorem exec_rtpTransfer {y : Die} (hl : s.live a.die = true) (hr : a.region < 8) (hch : ch < 4)
    (granted : s.rtGranted a.die a.region (12 + ch) = true) (unit : ((s.die a.die).rtpUnit a.region (12 + ch)).isSome = true)
    (moved : ((s.rtAsked a (12 + ch)).die a.die).rtpMove a.region (12 + ch) = some y) :
    exec (.rtpTransfer a ch) s = .next ((s.rtAsked a (12 + ch)).setDie a.die y) := by
  refine (event_next ?_ ?_).trans (?_ : Host.Outcome.next (match ((s.rtAsked a (12 + ch)).die a.die).rtpMove a.region (12 + ch) with
    | some y => (s.rtAsked a (12 + ch)).setDie a.die y
    | none => s.rtAsked a (12 + ch)) = _)
  · simp [State.dieCount_of_live hl, hr, hch]
  · simp [hl, granted, Die.rtpMove_isSome unit]
  · rw [moved]

end

end Sys2Proof.Machine

namespace Sys2Proof.Machine

section
variable {x : Die} {r port n : Nat}

@[simp] theorem Die.testPanic_ring (x : Die) (r n : Nat) : (x.testPanic r).ring n = x.ring n :=
  Die.ring_of_rings (x.testPanic_facts r).1 n

@[simp] theorem Die.testPanic_buf (x : Die) (r m : Nat) : (((x.testPanic r).fabric r).port m).buf = ((x.fabric r).port m).buf := by
  obtain ⟨_, eq⟩ := (x.testPanic_facts r).2 m
  rw [eq]

@[simp] theorem Die.testPanic_out (x : Die) (r m : Nat) : (((x.testPanic r).fabric r).port m).out = ((x.fabric r).port m).out := by
  obtain ⟨_, eq⟩ := (x.testPanic_facts r).2 m
  rw [eq]

@[simp] theorem Die.testPanic_rings (x : Die) (r : Nat) : (x.testPanic r).rings = x.rings := (x.testPanic_facts r).1

@[simp] theorem Die.ring_modFabric (x : Die) (r : Nat) (f : Fabric → Fabric) (n : Nat) : (x.modFabric r f).ring n = x.ring n := rfl

@[simp] theorem Die.tpOut_port (x : Die) (r port : Nat) (w : BitVec 512) :
    ((x.tpOut r port w).fabric r).port port = { (x.fabric r).port port with out := w } := by simp [Die.tpOut]

theorem Die.claimed_calls (x : Die) (r port : Nat) (c : Call) : (((x.claimed r port c).fabric r).port port).calls =
    markCall (fun c => !c.claimed) (fun c => { c with claimed := true }) ((x.fabric r).port port).calls := by
  have fabric : (x.ringPushes c.bind.ring c.words).fabric r = x.fabric r := by
    rw [Die.fabric, Die.ringPushes_fabrics, Die.fabric]
  rw [Die.claimed, Die.fabric_modFabric_same, Fabric.port_modPort_same, fabric]

/-- A write channel's oldest unit goes to the write pointer of its ring. -/
theorem Die.rtpMove_writes {u : BitVec 512} {rest : List (BitVec 512)} (hp : port ≤ 13) (hn : ((x.fabric r).port port).ring = n)
    (buf : ((x.fabric r).port port).buf = u :: rest) (room : x.ringRoom n ≠ 0) :
    (x.rtpUnit r port).isSome = true ∧ ∃ y, x.rtpMove r port = some y ∧ ((y.fabric r).port port).buf = rest ∧
      tget (y.ring n).data (x.ring n).wr 0 = u ∧ (y.ring n).wr = ((x.ring n).wr + 1) % x.ringLen n := by
  have unit : x.rtpUnit r port = some (n, (x.ring n).wr) := by simp [Die.rtpUnit, hp, buf, room, hn]
  refine ⟨by rw [unit]; rfl, ?_⟩
  unfold Die.rtpMove
  rw [unit]
  dsimp only
  rw [if_pos hp]
  have metered : ReachOnly x (x.memAct 0 (x.ring n).payer 64) := ⟨_, _, _, _, _, rfl⟩
  obtain ⟨fabric, ring, len, -⟩ := metered.rtpReads
  refine ⟨_, rfl, ?_, ?_, ?_⟩
  · simp [Die.ringPush, fabric, buf]
  · simp [fabric, ring, buf]
  · simp [ring, len]

/-- A read channel takes the unit at the read pointer of its ring. -/
theorem Die.rtpMove_reads (hp : 14 ≤ port) (hn : ((x.fabric r).port port).ring = n) (habs : ((x.fabric r).port port).absent = false)
    (held : x.ringHeld n ≠ 0) (room : ((x.fabric r).port port).buf.length < 1024) :
    (x.rtpUnit r port).isSome = true ∧ ∃ y, x.rtpMove r port = some y ∧
      ((y.fabric r).port port).buf = ((x.fabric r).port port).buf ++ [x.ringFront n] ∧
      (y.ring n).rd = ((x.ring n).rd + 1) % x.ringLen n ∧ (y.ring n).data = (x.ring n).data := by
  have reads : ¬ port ≤ 13 := by omega
  have unit : x.rtpUnit r port = some (n, (x.ring n).rd) := by simp [Die.rtpUnit, reads, habs, held, room, hn]
  refine ⟨by rw [unit]; rfl, ?_⟩
  unfold Die.rtpMove
  rw [unit]
  dsimp only
  rw [if_neg reads]
  have metered : ReachOnly x (x.memAct 0 (x.ring n).payer 64) := ⟨_, _, _, _, _, rfl⟩
  obtain ⟨fabric, ring, len, front, -⟩ := metered.rtpReads
  refine ⟨_, rfl, ?_, ?_, ?_⟩
  · simp [Die.ringPop, fabric, front]
  · simp [Die.ringPop, ring, len]
  · simp [Die.ringPop, ring]

end

section
variable {s s1 u : State} {a : RAt} {port : Nat} {w : BitVec 512} {last : Bool}

/-- A word has passed a port whose step is `u`: of the dies, only that of the region differs. -/
theorem AtEdge.passes (h : AtEdge a port s s1) (hd : a.die < s.dieCount) (hr : a.region < 8) (hp : port < 16)
    (hf : s.fclkOn a = true) (he : s.tpEdge a port = some s1) (step : s1.tpStep a port w last = some u)
    (others : OtherDies s1 u a.die) (queues : u.queues = s1.queues) : ∃ t, exec (.tpWord a port w last) s = .next t ∧
      OtherDies s t a.die ∧ t.queues = s.queues ∧ t.die a.die = (u.die a.die).stamp a.region port :=
  ⟨_, exec_tpWord hd hr hp hf he step, (h.others.trans others).trans (OtherDies.modDie u a.die _), queues.trans h.only.queues,
    State.die_modDie_same ..⟩

/-- The same of a step that writes the region's die only. -/
theorem AtEdge.passes_modDie {f : Die → Die} (h : AtEdge a port s s1) (hd : a.die < s.dieCount) (hr : a.region < 8)
    (hp : port < 16) (hf : s.fclkOn a = true) (he : s.tpEdge a port = some s1)
    (step : s1.tpStep a port w last = some (s1.modDie a.die f)) : ∃ t, exec (.tpWord a port w last) s = .next t ∧
      OtherDies s t a.die ∧ t.queues = s.queues ∧ t.die a.die = (f (s1.die a.die)).stamp a.region port := by
  obtain ⟨t, runs, others, queues, die⟩ := h.passes hd hr hp hf he step (OtherDies.modDie s1 a.die f) rfl
  exact ⟨t, runs, others, queues, by rw [die, State.die_modDie_same]⟩

theorem TileWork.fabric {k : AAt} (h : TileWork k s1 u) (hk : k.die = a.die) :
    (u.die a.die).fabric a.region = (s1.die a.die).fabric a.region := by
  rw [← hk, Die.fabric, h.fabrics, Die.fabric]

/-- An array after a word has passed its port. -/
theorem State.array_of_stamp {t : State} (k : AAt) (hk : k.die = a.die) (die : t.die a.die = (u.die a.die).stamp a.region port) :
    t.array k = u.array k := by
  obtain ⟨array, -⟩ := State.array_of_mtiles (s := u) (t := t) (a := k) (by rw [hk, die]; rfl)
  exact array

theorem State.array_shown (u : State) (a : RAt) (port : Nat) (w : BitVec 512) (k : AAt) :
    (u.modDie a.die fun x => x.tpOut a.region port w).array k = u.array k := by
  obtain ⟨array, -⟩ := State.array_of_mtiles (s := u) (a := k)
    (State.die_modDie_congr Die.mtiles (f := fun x => x.tpOut a.region port w) (fun _ => rfl) u a.die k.die)
  exact array

end

/-- Settles O27: a word passes at the edge that is due for its port (`State.tpEdge_atEdge`), by the port's function; calls are written to
their ring word by word (`Die.ringPushes_data`). -/
theorem tilePortsAndRings : Obligations.TilePortsAndRings := by
  refine ⟨⟨?input, ?output, ?call⟩, ?device, ?claim, ?landed, ?transfer⟩
  case input =>
    intro s a port w last hd hr hp hf he habs room here
    obtain ⟨s1, he⟩ := Option.isSome_iff_exists.mp he
    have edge := State.tpEdge_atEdge he
    obtain ⟨array, here', -⟩ := edge.array (stagArr a port) rfl
    have step := State.tpStep_input (s := s1) (w := w) (last := last) hp (by rw [edge.ports, habs]) (by rw [array]; exact room)
      (here'.trans here)
    have work := TileWork.modArray (stagArr a port) s1 fun r => { r with fifo := r.fifo ++ [w] }
    obtain ⟨t, runs, others, queues, die⟩ := edge.passes hd hr (by omega) hf he step work.others work.only.queues
    have fabric := work.fabric (a := a) rfl
    have entered := State.array_of_stamp (stagArr a port) rfl die
    rw [State.array_modArray, array] at entered
    refine ⟨t, runs, others, queues, by rw [entered], by rw [entered], fun n hn => ?_, ?_, ?_⟩
    · rw [die, Die.stamp_port_other _ _ hn, fabric, edge.ports]
    · rw [die, Die.stamp_port, Die.stamp_fctr]
    · rw [die, Die.stamp_fctr, fabric, edge.fabric]
      rfl
  case output =>
    intro s a port w c rest last hd hr hp hp' hf he habs words here
    obtain ⟨s1, he⟩ := Option.isSome_iff_exists.mp he
    have edge := State.tpEdge_atEdge he
    obtain ⟨array, -, here'⟩ := edge.array (stagArr a port) rfl
    have step := State.tpStep_output (s := s1) (w := w) (last := last) hp hp' (by rw [edge.ports, habs]) (by rw [array, words])
      (here'.trans here)
    have taken := TileWork.modArray (stagArr a port) s1 fun r => { r with cfifo := rest }
    have frame := (s1.modArray (stagArr a port) fun r => { r with cfifo := rest }).settle_frame (stagArr a port)
    rw [State.array_modArray, array] at frame
    have work := taken.trans (State.settle_tileWork _ (stagArr a port))
    obtain ⟨t, runs, others, queues, die⟩ := edge.passes hd hr (by omega) hf he step
      (OtherDies.trans work.others (OtherDies.modDie _ a.die _)) work.only.queues
    have shown := State.array_of_stamp (stagArr a port) rfl die
    rw [State.array_shown] at shown
    obtain ⟨more, eq⟩ := frame.cfifo
    refine ⟨t, runs, others, queues, ?_, by rw [shown, frame.fifo], more, by rw [shown, ← eq]⟩
    rw [die, Die.stamp_port, State.die_modDie_same, Die.tpOut_port]
  case call =>
    intro s a port w last b p hd hr hp hp' hf he eq habs hb kind ready
    subst eq
    obtain ⟨s1, he⟩ := Option.isSome_iff_exists.mp he
    have edge := State.tpEdge_atEdge he
    have step := State.tpStep_call (s := s1) (w := w) (last := last) hp (by rw [edge.ports, habs]) (by rw [edge.binds, hb]) kind
      (by rw [edge.ports, ready])
    obtain ⟨t, runs, others, queues, die⟩ := edge.passes_modDie hd hr hp' hf he step
    have calls : (((t.die a.die).fabric a.region).port port).calls =
        ((((s.die a.die).fabric a.region).port port).callWord b w last).1.calls := by simp [die, edge.ports]
    exact ⟨t, runs, others, queues, fun h => calls.trans (Port.callWord_begins h b w last),
      fun l c h hc => calls.trans (Port.callWord_joins h hc b w last)⟩
  case device =>
    intro s a port w last b f hd hr hp hp' hf he eq habs hb
    subst eq
    obtain ⟨s1, he⟩ := Option.isSome_iff_exists.mp he
    have edge := State.tpEdge_atEdge he
    obtain ⟨held', front, len⟩ := edge.ringReads b.ring
    have ring (n : Nat) : (s1.die a.die).ring n = (s.die a.die).ring n := Die.ring_of_rings edge.rings n
    have habs' : (((s1.die a.die).fabric a.region).port port).absent = false := by rw [edge.ports, habs]
    have hb' : tfind ((s1.die a.die).fabric a.region).binds port = some b := by rw [edge.binds, hb]
    refine ⟨fun kind held => ?_, fun kind room => ?_, fun kind full => ?_, fun kind v rest words => ?_, fun kind nothing => ?_⟩
    · have step := State.tpStep_return (w := w) (last := last) hp habs' hb' kind (held' ▸ held)
      obtain ⟨t, runs, others, -, die⟩ := edge.passes_modDie hd hr hp' hf he step
      have rings : (t.die a.die).rings = ((s1.die a.die).ringPop b.ring).rings := by
        rw [die, Die.stamp_rings, Die.count_rings]
        rfl
      have own : (t.die a.die).ring b.ring =
          { (s.die a.die).ring b.ring with rd := (((s.die a.die).ring b.ring).rd + 1) % (s.die a.die).ringLen b.ring } := by
        rw [Die.ring_of_rings rings, Die.ringPop, Die.ring_modRing_same, ring, len]
      refine ⟨t, runs, others, ?_, by rw [own], by rw [own], fun n hn => ?_⟩
      · simp [die, Die.ringPop, front]
      · rw [Die.ring_of_rings rings, Die.ringPop_other _ hn, ring]
    · have step := State.tpStep_write (w := w) (last := last) hp habs' hb' kind (by rw [edge.ports]; exact room)
      obtain ⟨t, runs, others, -, die⟩ := edge.passes_modDie hd hr hp' hf he step
      exact ⟨t, runs, others, by simp [die, edge.ports], by simp [die, edge.rings]⟩
    · have step := State.tpStep_full (w := w) (last := last) hp habs' hb' kind (by rw [edge.ports]; exact full)
      obtain ⟨t, runs, others, -, die⟩ := edge.passes_modDie hd hr hp' hf he step
      exact ⟨t, runs, others, by simp [die, edge.ports], by simp [die, edge.rings]⟩
    · have step := State.tpStep_read (w := w) (last := last) hp habs' hb' kind (by rw [edge.ports]; exact words)
      obtain ⟨t, runs, others, -, die⟩ := edge.passes_modDie hd hr hp' hf he step
      exact ⟨t, runs, others, by simp [die], by simp [die]⟩
    · have step := State.tpStep_empty (w := w) (last := last) hp habs' hb' kind (by rw [edge.ports]; exact nothing)
      obtain ⟨t, runs, others, -, die⟩ := edge.passes_modDie hd hr hp' hf he step
      exact ⟨t, runs, others, by simp [die, edge.ports, nothing], by simp [die, edge.ports]⟩
  case claim =>
    intro s a port l1 l2 c hl hr hp hp' calls h1 hc complete room hw
    have own : (s.modDie a.die fun x => x.claimed a.region port c).die a.die = (s.die a.die).claimed a.region port c :=
      State.die_modDie_same ..
    have fits : c.words.length ≤ (s.die a.die).ringLen c.bind.ring := by
      unfold Die.ringRoom at room
      omega
    obtain ⟨wr, rd⟩ := Die.ringPushes_pointers c.bind.ring c.words hw
    refine ⟨_, exec_callRingClaim hl hr hp hp' calls h1 hc complete room, OtherDies.modDie s a.die _, rfl, ?_⟩
    rw [own]
    refine ⟨?_, wr, rd, fun i w hi => Die.ringPushes_data _ _ hw fits hi, fun n hn => Die.ringPushes_other hn _ _⟩
    rw [Die.claimed_calls, calls, markCall_append (by simpa using h1) (by simp [hc])]
  case landed =>
    intro s a port l1 l2 c hl hr hp hp' calls h1 hc
    refine ⟨_, exec_callLanded hl hr hp hp' calls h1 hc,
      OtherDies.trans (OtherDies.modDie s a.die _) (OtherDies.modDie _ a.die _), rfl, ?_⟩
    rw [State.sendAdd, State.die_modDie_same, State.die_modDie_same]
    refine ⟨Die.count_rings .., ?_, congrArg (· ++ _) ((MetersOnly.refl _).count ..).knotNet⟩
    refine (congrArg (fun f => (Fabric.port f port).calls) (Die.count_fabric ..)).trans ?_
    rw [Die.fabric_modFabric_same, Fabric.port_modPort_same]
    dsimp only
    rw [calls, dropCall_append h1 hc]
  case transfer =>
    intro s a ch p hl hr eq granted
    subst eq
    obtain ⟨queues, others, reach⟩ := s.rtAsked_facts a (12 + ch)
    obtain ⟨fabric, ring, len, front, held', room'⟩ := reach.rtpReads
    have others (y : Die) : OtherDies s ((s.rtAsked a (12 + ch)).setDie a.die y) a.die :=
      others.trans fun e he => State.die_setDie_other _ _ he
    refine ⟨fun u rest hch buf room => ?_, fun hch hch' habs held room => ?_⟩
    · obtain ⟨asked, -⟩ := Die.rtpMove_writes (r := a.region) (port := 12 + ch) (by omega) rfl buf room
      obtain ⟨-, y, moved, buf', data, wr⟩ := Die.rtpMove_writes (x := (s.rtAsked a (12 + ch)).die a.die) (r := a.region)
        (port := 12 + ch) (n := (((s.die a.die).fabric a.region).port (12 + ch)).ring) (by omega) (by rw [fabric])
        (by rw [fabric]; exact buf) (by rw [room']; exact room)
      refine ⟨_, exec_rtpTransfer hl hr (by omega) granted asked moved, others y, queues, ?_⟩
      rw [State.die_setDie_same, ← ring, ← len]
      exact ⟨buf', data, wr⟩
    · obtain ⟨asked, -⟩ := Die.rtpMove_reads (r := a.region) (port := 12 + ch) (by omega) rfl habs held room
      obtain ⟨-, y, moved, buf', rd, data⟩ := Die.rtpMove_reads (x := (s.rtAsked a (12 + ch)).die a.die) (r := a.region)
        (port := 12 + ch) (n := (((s.die a.die).fabric a.region).port (12 + ch)).ring) (by omega) (by rw [fabric])
        (by rw [fabric]; exact habs) (by rw [held']; exact held) (by rw [fabric]; exact room)
      refine ⟨_, exec_rtpTransfer hl hr (by omega) granted asked moved, others y, queues, ?_⟩
      rw [fabric] at buf'
      rw [State.die_setDie_same, ← ring, ← len, ← front]
      exact ⟨buf', rd, data⟩

end Sys2Proof.Machine

namespace Sys2Proof.Machine

/-! ## A knot wait that is met (R205)

The word goes on to the next, and adds its operations to the die's activities of the ledger period as every word does: KWAIT has
none (Table 15-7), which `addAct` enters as an activity of count 0 where the context has none of its row yet. -/

theorem MetersOnly.vcount {x y : Die} (h : MetersOnly x y) (t stall extra wraps : Nat) (ev : Ev) :
    MetersOnly x (y.vcount t stall extra wraps ev) :=
  ((((((h.count ..).count ..).count ..).count ..).count ..).count ..).count ..

theorem MetersOnly.vact {x y : Die} (h : MetersOnly x y) (t op : Nat) : MetersOnly x (y.vact t op) := by
  unfold Die.vact
  split
  · exact h.act ..
  · exact h

/-- Of its die a word writes its tile and the meters. -/
theorem State.vcommit_die (s : State) (op : Nat) (t : VAt) (w : VW) (f : VCore → VIn → VRes) (pre : VCore → VCore)
    (post : VCore → VCore × Nat) : ∃ v, MetersOnly ((s.die t.die).modVTile t.tile fun _ => v)
      ((s.vcommit op t w f pre post).die t.die) := by
  unfold State.vcommit
  rw [State.die_modDie_same]
  exact ⟨_, ((MetersOnly.refl _).vcount ..).vact ..⟩

theorem State.vcommit_knot (s : State) (op : Nat) (t : VAt) (w : VW) (f : VCore → VIn → VRes) (pre : VCore → VCore)
    (post : VCore → VCore × Nat) (k : Nat) : ((s.vcommit op t w f pre post).die t.die).knot k = (s.die t.die).knot k := by
  obtain ⟨v, _, _, _, own⟩ := s.vcommit_die op t w f pre post
  rw [own]
  rfl

/-- A wait whose target its knot has reached issues as a word without a result. -/
theorem WordRuns.kwait_met {s : State} {t : VAt} {w : VW} (h : WordRuns s 0x06 t w)
    (tied : ((s.die t.die).knot w.imm16.toNat).tied = true)
    (met : (s.vd64 t w).toNat ≤ ((s.die t.die).knot w.imm16.toNat).value.toNat) :
    exec (.kwait t w) s = .next (s.vcommit 0x06 t w (fun _ _ => VRes.nothing) id fun c => (c, 0)) := by
  obtain ⟨⟨hd, ht⟩, vector⟩ : (t.die < s.dieCount ∧ t.tile < 32) ∧ t.matrix = none := by simpa [State.vUnits] using h.units
  refine (event_next ?_ ?_).trans (congrArg Host.Outcome.next ?_)
  · simp [State.pUnits, vKind, vector, tileCount, hd, ht]
  · simpa [State.pReady, vector] using h.ready
  · rw [vector, h.vword]
    simp [State.kwaitNow, State.vcommit_knot, tied, met]

/-! ## A state in which KWAIT runs -/

/-- KWAIT on knot 4,048, the first of tenant 3, with the value of V0. -/
def kwaitWord : VW := { faddWord with imm16 := 4048 }

/-- `faddState` with KWAIT as the only word of the pattern, and the knot TIED at 0. -/
def kwaitState : State :=
  { faddState with
    models := [(0, { faddModel with
      bundle := faddModel.bundle.map fun b => { b with
        templates := b.templates.map fun e => { e with words := [vwordOf 0x06 kwaitWord] } } })]
    dies := [(0, { faddState.die 0 with knots := [(4048, { Knot.reset with tied := true })] })] }

theorem wordRuns_kwaitState : WordRuns kwaitState 0x06 faddTile kwaitWord where
  units := by decide
  ready := by decide
  clean := rfl
  legal y hy := by
    obtain rfl : faddCtx = y := Option.some.inj hy
    decide

/-- The wait is met at once, and its operations, none, are entered as the die's first activity of the period. -/
theorem kwaitState_charges : ∃ u, exec (.kwait faddTile kwaitWord) kwaitState = .next u ∧ (kwaitState.die 0).acts = [] ∧
    (u.die 0).acts = [{ who := { tenant := some 3, disp := none }, row := 3, count := 0 }] :=
  ⟨_, wordRuns_kwaitState.kwait_met (by decide) (by decide +kernel), rfl, State.vcommit_acts (t := faddTile) (y := faddCtx) rfl ..⟩

/-- Refutes O51: the KWAIT of `kwaitState`, which is met, goes on and enters its operations in the die's activities (R392, Table
15-7), and `TileOnly`, which the statement asks for, holds them unchanged. -/
theorem not_tileOutwardWords : ¬ Obligations.TileOutwardWords := by
  rintro ⟨words, -⟩
  obtain ⟨-, -, kwait, -⟩ := words kwaitState faddTile kwaitWord 0 faddCtx rfl
  obtain ⟨u, runs, only⟩ := (kwait wordRuns_kwaitState (by decide)).1 (by decide +kernel)
  obtain ⟨v, runs', before, after⟩ := kwaitState_charges
  obtain rfl : u = v := by simpa [runs] using runs'
  have kept : (u.die 0).acts = (kwaitState.die 0).acts := only.acts
  simp [before, after] at kept

end Sys2Proof.Machine

namespace Sys2Proof.Machine

/-! ## Blocks in the slots of a thread (R145, R146)

A block that its member has not loaded stands in its slot while members forward: `TSlot.Awaits` is kept by every step of the pump. -/

/-- The slot is to take the block of entry `t`, holds it, and its member has not loaded it; whether it has been forwarded, and who
fetched it, is left open. -/
structure TSlot.Awaits (q : TSlot) (t : TEntry) : Prop where
  attached : q.detached = false
  chain : q.attachFrom ≤ t.index
  fresh : q.taken ≤ t.index
  unloaded : t.loaded = false
  held : ∃ f o, { t with forwarded := f, own := o } ∈ q.entries

section
variable {q : TSlot} {t : TEntry}

/-- Entries that are forwarded stay. -/
theorem TSlot.Awaits.map (h : q.Awaits t) {g : TEntry → TEntry} (hg : ∀ u, ∃ f, g u = { u with forwarded := f }) :
    TSlot.Awaits { q with entries := q.entries.map g } t := by
  obtain ⟨f, o, mem⟩ := h.held
  obtain ⟨f', eq⟩ := hg { t with forwarded := f, own := o }
  exact ⟨h.attached, h.chain, h.fresh, h.unloaded, f', o, eq ▸ List.mem_map_of_mem mem⟩

/-- What its member is to load is not dropped. -/
theorem TSlot.Awaits.free (h : q.Awaits t) : q.free.Awaits t := by
  obtain ⟨f, o, mem⟩ := h.held
  refine ⟨h.attached, h.chain, h.fresh, h.unloaded, f, o, List.mem_filter.mpr ⟨List.mem_map.mpr ⟨_, mem, ?_⟩, ?_⟩⟩
  · simp [h.attached, Nat.not_lt.mpr h.chain, Nat.not_lt.mpr h.fresh]
  · simp [h.unloaded]

/-- A block put into a slot that is to take it. -/
theorem TSlot.awaits_append (f o : Bool) (ha : q.detached = false) (hc : q.attachFrom ≤ t.index) (hf : q.taken ≤ t.index)
    (hl : t.loaded = false) : TSlot.Awaits { q with entries := q.entries ++ [{ t with forwarded := f, own := o }] } t :=
  ⟨ha, hc, hf, hl, f, o, by simp⟩

end

/-- Block `t` stands in a slot of the die. -/
def Die.Stands (x : Die) (e : Nat × Nat) (t : TEntry) : Prop := ∃ q, x.tslot e.1 e.2 = some q ∧ q.Awaits t

theorem Die.Stands.of_mtiles {x y : Die} {e : Nat × Nat} {t : TEntry} (h : x.Stands e t) (hm : y.mtiles = x.mtiles) : y.Stands e t := by
  obtain ⟨q, hq, ha⟩ := h
  exact ⟨q, by rwa [Die.tslot, Die.mtile, hm], ha⟩

/-- A slot after a slot was replaced, the same or another. -/
theorem Die.tslot_setTSlot (x : Die) (m slot n k : Nat) (q : TSlot) : (x.setTSlot m slot q).tslot n k = some q ∧
      x.tslot n k = x.tslot m slot ∨ (x.setTSlot m slot q).tslot n k = x.tslot n k := by
  unfold Die.tslot Die.setTSlot
  by_cases ht : n / 2 = m / 2
  · rw [ht, Die.mtile_modMTile_same, tfind_tput]
    by_cases hk : n % 2 * 16 + k = m % 2 * 16 + slot
    · exact .inl ⟨if_pos hk, by rw [hk]⟩
    · exact .inr (if_neg hk)
  · exact .inr (by rw [Die.mtile_modMTile_other _ _ ht])

@[simp] theorem Die.tslot_setTSlot_same (x : Die) (m slot : Nat) (q : TSlot) : (x.setTSlot m slot q).tslot m slot = some q := by
  simp [Die.tslot, Die.setTSlot]

theorem Die.modTSlot_eq {x : Die} {m slot : Nat} {q : TSlot} (h : x.tslot m slot = some q) (f : TSlot → TSlot) :
    x.modTSlot m slot f = x.setTSlot m slot (f q) := by
  rw [Die.modTSlot, h]

theorem Die.modTSlot_threads (x : Die) (m slot : Nat) (f : TSlot → TSlot) : (x.modTSlot m slot f).threads = x.threads := by
  unfold Die.modTSlot
  split <;> rfl

theorem Die.modTSlot_slotsOnly (x : Die) (m slot : Nat) (f : TSlot → TSlot) : SlotsOnly x (x.modTSlot m slot f) := by
  unfold Die.modTSlot
  split
  · exact x.setTSlot_slotsOnly _ _ _
  · exact .refl x

/-- What a step makes of a slot keeps the block that it is to take: then the step keeps it standing. -/
theorem Die.Stands.setTSlot {x : Die} {e : Nat × Nat} {t : TEntry} (h : x.Stands e t) {m slot : Nat} {q z : TSlot}
    (hq : x.tslot m slot = some q) (hz : q.Awaits t → z.Awaits t) : (x.setTSlot m slot z).Stands e t := by
  obtain ⟨p, hp, ha⟩ := h
  obtain ⟨now, old⟩ | now := x.tslot_setTSlot m slot e.1 e.2 z
  · obtain rfl : p = q := Option.some.inj (by rw [← hp, old, hq])
    exact ⟨z, now, hz ha⟩
  · exact ⟨p, now.trans hp, ha⟩

/-! ### Forwarding -/

theorem Die.pumpOne_stands {x : Die} {e : Nat × Nat} {t : TEntry} (h : x.Stands e t) (th p : Nat) : (x.pumpOne th p).Stands e t := by
  unfold Die.pumpOne
  split
  · exact h
  split
  · exact h
  split
  · exact h
  next q hq =>
    split
    · exact h.setTSlot hq fun ha => (ha.map fun _ => ⟨true, rfl⟩).free
    · exact h.setTSlot hq TSlot.Awaits.free
    · split
      · refine (h.setTSlot hq fun ha => (ha.map fun u => ?_).free).of_mtiles
          (((MetersOnly.refl _).count ..).mtiles.trans (Die.putTransit_mtiles ..))
        split
        · exact ⟨true, rfl⟩
        · exact ⟨u.forwarded, rfl⟩
      · exact h.setTSlot hq TSlot.Awaits.free

/-- Of the thread, forwarding writes what is on its way only. -/
def Die.SameThread (x y : Die) (th : Nat) : Prop :=
  ∀ h, tfind x.threads th = some h → ∃ l, tfind y.threads th = some { h with transit := l }

theorem Die.SameThread.of_threads {x y : Die} (h : y.threads = x.threads) (th : Nat) : x.SameThread y th :=
  fun t ht => ⟨t.transit, h ▸ ht⟩

theorem Die.SameThread.trans {x y z : Die} {th : Nat} (h : x.SameThread y th) (g : y.SameThread z th) : x.SameThread z th := by
  intro t ht
  obtain ⟨l, hy⟩ := h t ht
  exact g { t with transit := l } hy

theorem MetersOnly.threads {x y : Die} (h : MetersOnly x y) : y.threads = x.threads := by
  obtain ⟨_, _, _, rfl⟩ := h
  rfl

theorem Die.putTransit_threads (x : Die) (th : Nat) (h : Thread) (p r : Nat) (t : TEntry) :
    (x.putTransit th h p r t).threads = tput x.threads th
      { h with transit := h.transit ++ [(p, { t with forwarded := false, loaded := false })] } := by
  unfold Die.putTransit
  dsimp only
  split
  · exact ((MetersOnly.refl _).countRT ..).threads
  · rfl

theorem Die.pumpOne_thread (x : Die) (th p : Nat) : x.SameThread (x.pumpOne th p) th := by
  intro h hth
  unfold Die.pumpOne
  rw [hth]
  dsimp only
  split
  · exact ⟨_, hth⟩
  split
  · exact ⟨_, hth⟩
  split
  · exact ⟨_, hth⟩
  · exact ⟨_, hth⟩
  · split
    · exact ⟨_, by rw [((MetersOnly.refl _).count ..).threads, Die.putTransit_threads, tfind_tput_same]⟩
    · exact ⟨_, hth⟩

/-- The pump of a thread: what stands, stands; tiles change in their slots only; of the thread what is on its way. -/
theorem Die.pump_facts (x : Die) (th : Nat) : (∀ e t, x.Stands e t → (x.pump th).Stands e t) ∧ SlotsOnly x (x.pump th) ∧
    x.SameThread (x.pump th) th := by
  unfold Die.pump
  refine ⟨fun e t h => ?_, .foldl (fun y p => y.pumpOne_slotsOnly th p) _ x, ?_⟩
  · exact List.foldlRecOn (motive := fun y : Die => y.Stands e t) _ _ h fun _ hy p _ => Die.pumpOne_stands hy th p
  · exact List.foldlRecOn (motive := fun y : Die => x.SameThread y th) _ _ (.of_threads rfl th)
      fun y hy p _ => hy.trans (y.pumpOne_thread th p)

/-- A block is put into a slot that is to take it, and the thread forwards what it can. -/
theorem Die.putBlock_facts {x : Die} {e : Nat × Nat} {q : TSlot} (hq : x.tslot e.1 e.2 = some q) (ha : q.detached = false)
    {t : TEntry} (hc : q.attachFrom ≤ t.index) (hf : q.taken ≤ t.index) (hl : t.loaded = false) (f o : Bool) (th : Nat) {y : Die}
    (hy : MetersOnly (x.modTSlot e.1 e.2 fun q => { q with entries := q.entries ++ [{ t with forwarded := f, own := o }] }) y) :
    (y.pump th).Stands e t ∧ SlotsOnly x (y.pump th) ∧ x.SameThread (y.pump th) th := by
  obtain ⟨stands, slots, thread⟩ := y.pump_facts th
  have put : (x.modTSlot e.1 e.2 fun q => { q with entries := q.entries ++ [{ t with forwarded := f, own := o }] }).Stands e t := by
    rw [Die.modTSlot_eq hq]
    exact ⟨_, Die.tslot_setTSlot_same .., TSlot.awaits_append f o ha hc hf hl⟩
  refine ⟨stands e t (put.of_mtiles hy.mtiles), ?_, ?_⟩
  · exact ((x.modTSlot_slotsOnly _ _ _).with_mtiles hy.mtiles).trans slots
  · exact (Die.SameThread.of_threads (hy.threads.trans (x.modTSlot_threads ..)) th).trans thread

theorem SlotsOnly.mem {x y : Die} (h : SlotsOnly x y) (t : Nat) : (y.mtile t).mem = (x.mtile t).mem := by
  obtain ⟨_, eq⟩ := h t
  rw [eq]

/-! ### Fetches of a thread (R144, R148) -/

section
variable {s : State} {d th : Nat} {h : Thread} {f : TFetch}

theorem exec_threadFetch (hl : s.live d = true) (hth : th < 128) (due : s.fetchDue d th = true) :
    exec (.threadFetch d th) s = .next (s.doThreadFetch d th) :=
  event_next (by simp [State.dieCount_of_live hl, hth]) (by simp [hl, due])

theorem Die.headFetch_eq_some {x : Die} (hf : x.headFetch h = some f) :
    h.members.head? = some f.slot ∧ f.block = h.next ∧ f.gap = false := by
  unfold Die.headFetch at hf
  split at hf
  next e he =>
    obtain ⟨-, hf⟩ := Option.ite_none_right_eq_some.mp hf
    obtain rfl := Option.some.inj hf
    exact ⟨he, rfl, rfl⟩
  · cases hf

theorem Die.gapFetch_eq_some {x : Die} (hf : x.gapFetch th h = some f) :
    ∃ q, x.tslot f.slot.1 f.slot.2 = some q ∧ f.block = q.gapNext ∧ f.gap = true := by
  obtain ⟨e, -, he⟩ := Option.bind_eq_some_iff.mp hf
  obtain ⟨q, hq, rfl⟩ := Option.map_eq_some_iff.mp he
  exact ⟨q, hq, rfl, rfl⟩

theorem State.doThreadFetch_head (ht : tfind (s.die d).threads th = some h) (hf : (s.die d).headFetch h = some f) :
    s.doThreadFetch d th = s.modDie d fun x =>
      { x with threads := tput x.threads th { h with fetch := h.fetch ++ [f], next := h.next + 1 } } := by
  unfold State.doThreadFetch
  simp [ht, hf, (Die.headFetch_eq_some hf).2.2]

theorem State.doThreadFetch_gap (ht : tfind (s.die d).threads th = some h) (none : (s.die d).headFetch h = none)
    (hf : (s.die d).gapFetch th h = some f) :
    s.doThreadFetch d th = s.modDie d fun x =>
      ({ x with threads := tput x.threads th { h with fetch := h.fetch ++ [f] } }).modTSlot f.slot.1 f.slot.2
        fun q => { q with gapNext := q.gapNext + 1 } := by
  obtain ⟨-, -, -, gap⟩ := Die.gapFetch_eq_some hf
  unfold State.doThreadFetch
  simp [ht, none, hf, gap]

end
end Sys2Proof.Machine

namespace Sys2Proof.Machine

/-! ## What stream engines write of a die (R152 to R157) -/

section
variable {x y : Die}

theorem ContextFields.threads (h : ContextFields x y) : y.threads = x.threads := by
  obtain ⟨_, _, _, _, _, _, _, _, rfl⟩ := h
  rfl

theorem ContextFields.vtiles (h : ContextFields x y) : y.vtiles = x.vtiles := by
  obtain ⟨_, _, _, _, _, _, _, _, rfl⟩ := h
  rfl

theorem ContextFields.dram (h : ContextFields x y) : y.dram = x.dram := by
  obtain ⟨_, _, _, _, _, _, _, _, rfl⟩ := h
  rfl

theorem ContextFields.tileMem (h : ContextFields x y) (k : TileKind) (t : Nat) : y.tileMem k t = x.tileMem k t := by
  unfold Die.tileMem Die.mtile Die.vtile
  rw [h.mtiles, h.vtiles]

theorem Die.tileMem_modTileMem_same (x : Die) (k : TileKind) (t : Nat) (f : Memory → Memory) :
    (x.modTileMem k t f).tileMem k t = f (x.tileMem k t) := by
  cases k <;> simp [Die.modTileMem, Die.tileMem]

theorem Die.modTileMem_dram (x : Die) (k : TileKind) (t : Nat) (f : Memory → Memory) : (x.modTileMem k t f).dram = x.dram := by
  cases k <;> rfl

theorem Die.streams_contextFields (x : Die) (l : Tbl Stream) : ContextFields x { x with streams := l } :=
  ⟨_, _, _, _, _, _, _, _, rfl⟩

theorem Die.stage_contextFields (x : Die) (n : Nat) (q : Stream) (kind bytes : Nat) : ContextFields x (x.stage n q kind bytes) := by
  unfold Die.stage
  split
  · exact x.streams_contextFields _
  · exact (x.streams_contextFields _).trans ((MetersOnly.refl _).count ..).contextFields

end

section
variable {s t : State} {d : Nat}

/-- The key of a tenant is no part of what streams and contexts write. -/
theorem ContextsOnly.hasKey (h : ContextsOnly d s t) (n : Nat) : t.hasKey d n = s.hasKey d n := by
  obtain ⟨-, _, _, _, _, _, _, _, _, own⟩ := h
  rw [State.hasKey, own]
  rfl

/-- What a grant holds reads the instances and the sealed memory of the die. -/
theorem ContextsOnly.grantRead (h : ContextsOnly d s t) (models : t.models = s.models) (tenant model : Nat) (g : Grant)
    (off units : Nat) : t.grantRead d tenant model g off units = s.grantRead d tenant model g off units := by
  obtain ⟨-, _, _, _, _, _, _, _, _, own⟩ := h
  unfold State.grantRead
  rw [models, own]
  rfl

/-- The reads of a grant are counted, and nothing else. -/
theorem State.grantCount_facts (s : State) (d : Nat) (y : Ctx) (g : Grant) (off units : Nat) :
    ContextsOnly d s (s.grantCount d y g off units) ∧ DiesOnly s (s.grantCount d y g off units) := by
  unfold State.grantCount
  split
  · exact ⟨.refl d s, .refl s⟩
  refine ⟨.foldl (fun u i => ?_) _ s, .foldl (fun u i => ?_) _ s⟩
  · split
    · exact .modDie fun x => ((MetersOnly.refl x).memAct ..).contextFields
    · exact .modDie fun x => (((MetersOnly.refl x).countMC ..).memAct ..).contextFields
  · split <;> exact DiesOnly.modDie ..

/-- A record written where the ring has room (R190). -/
theorem State.writeRec_die {c : Nat} {y : Ctx} (hy : tfind (s.die d).ctxs c = some y) (room : y.ring.length < 256) (r : CRec) :
    (s.writeRec d c r).die d = { s.die d with ctxs := tput (s.die d).ctxs c { y with ring := y.ring ++ [r] } } := by
  have ctx : (s.die d).ctx c = some y := hy
  rw [State.writeRec, State.modCtx, State.die_modDie_same, Die.modCtx, ctx]
  dsimp only
  rw [if_pos room]

theorem State.emit_models (s : State) (e : Event) : (s.emit e).models = s.models := by
  unfold State.emit
  split <;> rfl

/-- SEALING_FAULT raises its event (R332). -/
theorem State.sealFault_facts (s : State) (d node : Nat) : (∀ e, (s.sealFault d node).die e = s.die e) ∧
    (s.sealFault d node).models = s.models ∧ (s.sealFault d node).raised.length = s.raised.length + 1 :=
  ⟨fun _ => State.emit_die .., State.emit_models .., State.emit_raised_length ..⟩

end

/-! ### A granted burst (R152, R157) -/

/-- The state as the granted burst of stream `n` moves in it: the grant has its stamp, and the burst is staged (R157). -/
def State.staged (s : State) (d n : Nat) (r : SRun) : State :=
  s.tick.2.modDie d fun x => match tfind x.streams n with
    | some z => x.stage n z (dw r.desc 0 31 28) (64 * r.units)
    | none => x

theorem State.staged_facts (s : State) (d n : Nat) (r : SRun) : ContextsOnly d s (s.staged d n r) ∧
    (s.staged d n r).models = s.models ∧ (s.staged d n r).raised = s.raised := by
  refine ⟨ContextsOnly.after (t := s.tick.2) (.modDie fun x => ?_) (.of_die fun _ => rfl), rfl, rfl⟩
  split
  · exact x.stage_contextFields ..
  · exact .refl x

theorem Die.stage_ctxs (x : Die) (n : Nat) (q : Stream) (kind bytes : Nat) : (x.stage n q kind bytes).ctxs = x.ctxs := by
  unfold Die.stage
  split
  · rfl
  · obtain ⟨_, _, _, meters⟩ := (MetersOnly.refl { x with streams := tput x.streams n { q with flight := [(kind, bytes)] } }).count
      seReserveOnly (n / 64) 1
    rw [meters]

theorem State.staged_ctxs (s : State) (d n : Nat) (r : SRun) : ((s.staged d n r).die d).ctxs = (s.die d).ctxs := by
  rw [State.staged, State.die_modDie_same]
  split
  · exact Die.stage_ctxs ..
  · rfl

section
variable {s : State} {d e n : Nat} {q : Stream} {r : SRun}

theorem exec_streamBurst (hl : s.live d = true) (he : e < 16) (hi : s.mayIssue d = true)
    (hp : (s.die d).burstPick e = some (n, q)) (bad : Bool) : exec (.streamBurst d e bad) s = .next (s.doBurst d e bad) :=
  event_next (by simp [State.dieCount_of_live hl, he]) (by simp [hl, hi, hp])

/-- A burst of a thread's stream; `F` is the engine's count of its grants. -/
theorem State.doBurst_thread {th : Nat} (hp : (s.die d).burstPick e = some (n, q)) (hc : q.cur = some r)
    (hb : s.burstBehind d q = none) (ht : q.thread = some th) (bad : Bool) : ∃ F : Nat → Stream → Stream,
      s.doBurst d e bad = ((s.staged d n r).sourceBurst d e th r bad).modDie d fun x =>
        { x with streams := tmapv x.streams F } := by
  unfold State.doBurst
  simp only [hp, hc, hb, ht]
  exact ⟨_, rfl⟩

/-- A burst of a context's stream, and the position that it leaves to the stream. -/
theorem State.doBurst_ctx {y : Ctx} {tl : Nat} (hp : (s.die d).burstPick e = some (n, q)) (hc : q.cur = some r)
    (hb : s.burstBehind d q = none) (ht : q.thread = none) (hy : (s.die d).ctxTile q.ctx = some (y, tl)) (bad : Bool)
    {o : State × SRun} (ho : (s.staged d n r).ctxBurst d e y tl r bad = o) :
    ∃ l z, s.doBurst d e bad = o.1.setDie d { o.1.die d with streams := l } ∧ tfind l n = some z ∧ z.cur = some o.2 := by
  subst ho
  unfold State.doBurst
  simp only [hp, hc, hb, ht, hy, State.modDie_modDie]
  refine ⟨_, _, rfl, tfind_tmapv .. |>.trans (congrArg _ (tfind_tput_same ..)), ?_⟩
  dsimp only
  rw [if_pos rfl]
  rfl

end

/-! ### Bursts of thread sources (R143, R144, R151) -/

theorem Die.deliverBlock_facts {x : Die} {f : TFetch} {q : TSlot} (hq : x.tslot f.slot.1 f.slot.2 = some q) (ha : q.detached = false)
    {t : TEntry} (hc : q.attachFrom ≤ t.index) (hf : q.taken ≤ t.index) (hl : t.loaded = false) (th : Nat) :
    (x.deliverBlock th f t).Stands f.slot t ∧ SlotsOnly x (x.deliverBlock th f t) ∧ x.SameThread (x.deliverBlock th f t) th :=
  Die.putBlock_facts hq ha hc hf hl f.gap f.gap th (((MetersOnly.refl _).count ..).count ..)

/-- A record that is whole in the hub is delivered; a record of its source descriptor and a knot add may follow (R155). -/
theorem State.doneFetch_facts (s : State) (d th : Nat) (h : Thread) (f : TFetch) (k : BlkPos) (bytes : List Byte) (bad : Bool) :
    (s.doneFetch d th h f k bytes bad).models = s.models ∧ ∃ b, ContextsOnly d (s.modDie d fun x =>
      ({ x with threads := tput x.threads th { h with fetch := h.fetch.drop 1, part := [], bad := false, srcBad := b } }).deliverBlock
        th f (headEntry th f.block k bad bytes)) (s.doneFetch d th h f k bytes bad) := by
  unfold State.doneFetch
  extract_lets last anyBad s1 s2
  split
  · split
    · exact ⟨rfl, _, (State.sendAdd_contextsOnly ..).after (State.writeRec_contextsOnly ..)⟩
    · exact ⟨rfl, _, State.writeRec_contextsOnly ..⟩
  · exact ⟨rfl, _, .refl d _⟩

/-- The record stands in the slot it was fetched for; of the thread, its fetches and what is on its way have changed, and no tile's
memory. -/
theorem State.doneFetch_delivers {s : State} {d th : Nat} {h : Thread} {f : TFetch} {k : BlkPos} {bytes : List Byte} {bad : Bool}
    {q : TSlot} (hq : (s.die d).tslot f.slot.1 f.slot.2 = some q) (ha : q.detached = false) (hc : q.attachFrom ≤ f.block)
    (hf : q.taken ≤ f.block) {t : State} (ht : t = s.doneFetch d th h f k bytes bad) :
    OtherDies s t d ∧ (t.die d).Stands f.slot (headEntry th f.block k bad bytes) ∧ SlotsOnly (s.die d) (t.die d) ∧
      ∃ h', tfind (t.die d).threads th = some h' ∧ h'.fetch = h.fetch.drop 1 ∧ h'.part = [] ∧ h'.bad = false := by
  obtain ⟨-, b, others, fields⟩ := s.doneFetch_facts d th h f k bytes bad
  rw [← ht] at others fields
  rw [State.die_modDie_same] at fields
  obtain ⟨stands, slots, thread⟩ := Die.deliverBlock_facts (x := { s.die d with
      threads := tput (s.die d).threads th { h with fetch := h.fetch.drop 1, part := [], bad := false, srcBad := b } })
    (t := headEntry th f.block k bad bytes) hq ha hc hf rfl th
  obtain ⟨_, thread⟩ := thread _ (tfind_tput_same ..)
  exact ⟨(OtherDies.modDie _ _ _).trans others, stands.of_mtiles fields.mtiles, slots.with_mtiles fields.mtiles, _,
    fields.threads ▸ thread, rfl, rfl, rfl⟩

/-- The granted burst of a thread's stream is the last of the thread's oldest fetch, `f`: it brings what is left of block `k` from the
weights of instance `m`, whose tenant has its key. -/
structure LastBurst (s : State) (d th : Nat) (r : SRun) (h : Thread) (f : TFetch) (k : BlkPos) (y : Ctx) (g : Grant) (m : Model) :
    Prop where
  thread : tfind (s.die d).threads th = some h
  fetch : h.fetch.head? = some f
  block : h.block f.block = some k
  ctx : tfind (s.die d).ctxs h.ctx = some y
  grant : tfind y.grants (dw r.desc 0 7 0) = some g
  weights : g.area = none
  model : tfind s.models y.model = some m
  key : s.hasKey d y.tenant = true
  last : dw r.desc 4 15 0 ≤ r.col + r.units

section
variable {s : State} {d th : Nat} {r : SRun} {h : Thread} {f : TFetch} {k : BlkPos} {y : Ctx} {g : Grant} {m : Model}

theorem LastBurst.staged (b : LastBurst s d th r h f k y g m) (n : Nat) : LastBurst (s.staged d n r) d th r h f k y g m := by
  obtain ⟨only, models, -⟩ := s.staged_facts d n r
  exact { b with
    thread := only.2.threads ▸ b.thread
    ctx := State.staged_ctxs s d n r ▸ b.ctx
    model := models ▸ b.model
    key := (only.hasKey _).trans b.key }

/-- A burst of the instance's weights that fails costs no frame: weights have none of their own here (log entry 36). -/
theorem State.burstError_weights (hg : tfind y.grants (dw r.desc 0 7 0) = some g) (ha : g.area = none) :
    s.burstError d y r = s := by
  unfold State.burstError
  rw [hg]
  split
  next hg' =>
    obtain rfl := Option.some.inj hg'
    simp [Model.place, ha]
  · rfl

/-- The last burst of a fetch: the record is whole in the hub, and the instance is poisoned if the burst failed (R151). -/
theorem LastBurst.sourceBurst (b : LastBurst s d th r h f k y g m) (e : Nat) (bad : Bool) : ∃ v, ContextsOnly d s v ∧
      v.models = (if bad then tput s.models y.model { m with poisoned := true } else s.models) ∧
      s.sourceBurst d e th r bad = v.doneFetch d th h f k (h.part ++ s.grantRead d y.tenant y.model g r.memAt r.units)
        (h.bad || bad) := by
  have ctx : (s.die d).ctx h.ctx = some y := b.ctx
  have sealed : s.sealOut d y r = false := by simp [State.sealOut, b.key]
  have noFrame : s.burstError d y r = s := State.burstError_weights b.grant b.weights
  have counted (u : State) : ContextsOnly d u (u.modDie d fun x => x.count seBytes e (64 * r.units)) :=
    .modDie fun x => ((MetersOnly.refl x).count ..).contextFields
  unfold State.sourceBurst
  simp only [b.thread, b.fetch, ctx, b.block, b.grant, sealed, b.last, Bool.or_false, if_true]
  cases bad with
  | false =>
    obtain ⟨own, dies⟩ := s.grantCount_facts d y g r.memAt r.units
    exact ⟨_, (counted _).after own, dies.models, rfl⟩
  | true =>
    refine ⟨_, (counted _).after (.of_die fun d => ?_), ?_, rfl⟩
    · simp [noFrame, State.poisonModel, b.model, State.die]
    · simp [noFrame, State.poisonModel, b.model]

end

end Sys2Proof.Machine

namespace Sys2Proof.Machine

/-! ## Weight threads: what the commands do -/

section
variable {s : State} {d th : Nat} {h : Thread} {f : TFetch}

theorem threadFetch_head (hl : s.live d = true) (hth : th < 128) (hi : s.mayIssue d = true)
    (ht : tfind (s.die d).threads th = some h) (hf : (s.die d).headFetch h = some f) :
    Runs (.threadFetch d th) s fun t => OtherDies s t d ∧ t.queues = s.queues ∧ t.models = s.models ∧ f.block = h.next ∧
      h.members.head? = some f.slot ∧ (t.die d).mtiles = (s.die d).mtiles ∧
      tfind (t.die d).threads th = some { h with fetch := h.fetch ++ [f], next := h.next + 1 } := by
  obtain ⟨first, block, -⟩ := Die.headFetch_eq_some hf
  refine ⟨_, exec_threadFetch hl hth (by simp [State.fetchDue, ht, hf, hi]), ?_⟩
  dsimp only
  rw [State.doThreadFetch_head ht hf, State.die_modDie_same]
  exact ⟨OtherDies.modDie _ _ _, rfl, rfl, block, first, rfl, tfind_tput_same ..⟩

theorem threadFetch_gap (hl : s.live d = true) (hth : th < 128) (hi : s.mayIssue d = true)
    (ht : tfind (s.die d).threads th = some h) (none : (s.die d).headFetch h = none) (hf : (s.die d).gapFetch th h = some f) :
    Runs (.threadFetch d th) s fun t => OtherDies s t d ∧ t.queues = s.queues ∧ t.models = s.models ∧
      (∀ m, ((t.die d).mtile m).mem = ((s.die d).mtile m).mem) ∧
      tfind (t.die d).threads th = some { h with fetch := h.fetch ++ [f] } ∧
      ∃ q z, (s.die d).tslot f.slot.1 f.slot.2 = some q ∧ (t.die d).tslot f.slot.1 f.slot.2 = some z ∧
        f.block = q.gapNext ∧ z = { q with gapNext := q.gapNext + 1 } := by
  obtain ⟨q, hq, block, -⟩ := Die.gapFetch_eq_some hf
  have slot : ({ s.die d with threads := tput (s.die d).threads th { h with fetch := h.fetch ++ [f] } } : Die).tslot f.slot.1 f.slot.2 =
      some q := hq
  refine ⟨_, exec_threadFetch hl hth (by simp [State.fetchDue, ht, hf, hi]), ?_⟩
  dsimp only
  rw [State.doThreadFetch_gap ht none hf, State.die_modDie_same]
  refine ⟨OtherDies.modDie _ _ _, rfl, rfl, (Die.modTSlot_slotsOnly _ _ _ _).mem, ?_, q, _, hq, ?_, block, rfl⟩
  · rw [Die.modTSlot_threads, tfind_tput_same]
  · rw [Die.modTSlot_eq slot, Die.tslot_setTSlot_same]

/-- The last burst of a fetch puts the record, under the header of Table 6-2, in the slot that it was fetched for. -/
theorem LastBurst.delivers {e n : Nat} {bad : Bool} {q : Stream} {r : SRun} {k : BlkPos} {y : Ctx} {g : Grant} {m : Model}
    {z0 : TSlot} (b : LastBurst s d th r h f k y g m) (he : e < 16) (hl : s.live d = true) (hi : s.mayIssue d = true)
    (hp : (s.die d).burstPick e = some (n, q)) (ht : q.thread = some th) (hc : q.cur = some r) (hb : s.burstBehind d q = none)
    (hz : (s.die d).tslot f.slot.1 f.slot.2 = some z0) (ha : z0.detached = false) (hch : z0.attachFrom ≤ f.block)
    (hf : z0.taken ≤ f.block) :
    Runs (.streamBurst d e bad) s fun t =>
      (∃ z u, (t.die d).tslot f.slot.1 f.slot.2 = some z ∧ u ∈ z.entries ∧ u.index = f.block ∧ u.last = k.last ∧
        u.poison = (h.bad || bad) ∧ u.bytes = headRec th k (h.bad || bad)
          (h.part ++ s.grantRead d y.tenant y.model g r.memAt r.units)) ∧
      (∃ h', tfind (t.die d).threads th = some h' ∧ h'.fetch = h.fetch.drop 1 ∧ h'.part = [] ∧ h'.bad = false) ∧
      (∀ i, ((t.die d).mtile i).mem = ((s.die d).mtile i).mem) ∧ OtherDies s t d ∧ (bad = false → t.models = s.models) ∧
      (bad = true → tfind t.models y.model = some { m with poisoned := true }) := by
  obtain ⟨F, moved⟩ := State.doBurst_thread hp hc hb ht bad
  obtain ⟨staged, models, -⟩ := s.staged_facts d n r
  obtain ⟨v, charged, poisoned, burst⟩ := (b.staged n).sourceBurst e bad
  rw [staged.grantRead models] at burst
  rw [models, ← (v.doneFetch_facts d th h f k _ _).1, ← burst] at poisoned
  have before := charged.after staged
  have tiles : (v.die d).mtiles = (s.die d).mtiles := before.2.mtiles
  have slot : (v.die d).tslot f.slot.1 f.slot.2 = some z0 := by rwa [Die.tslot, Die.mtile, tiles]
  obtain ⟨others, ⟨z, here, awaits⟩, slots, thread⟩ := State.doneFetch_delivers slot ha hch hf burst
  obtain ⟨_, _, held⟩ := awaits.held
  refine ⟨_, exec_streamBurst hl he hi hp bad, ?_⟩
  dsimp only
  rw [moved, State.die_modDie_same, State.modDie_models, poisoned]
  refine ⟨⟨z, _, here, held, rfl, rfl, rfl, rfl⟩, thread, fun i => (slots.mem i).trans ((SlotsOnly.of_mtiles tiles).mem i),
    before.1.trans (others.trans (OtherDies.modDie _ _ _)), ?_, ?_⟩
  · rintro rfl
    rfl
  · rintro rfl
    exact tfind_tput_same ..

/-- A block that arrives at an attached member stands in its slot. -/
theorem threadBlockArrive_stands {pos : Nat} {x : Nat × TEntry} {e : Nat × Nat} {q : TSlot} (hl : s.live d = true) (hth : th < 128)
    (ht : tfind (s.die d).threads th = some h) (hx : h.transit.find? (fun x => x.1 == pos) = some x)
    (he : h.members[pos]? = some e) (up : ((s.die d).region (e.1 / 16)).closed = false)
    (hq : (s.die d).tslot e.1 e.2 = some q) (ha : q.detached = false) (hc : q.attachFrom ≤ x.2.index) (hf : q.taken ≤ x.2.index)
    (room : q.entries.length < 4) (fresh : x.2.loaded = false) :
    Runs (.threadBlockArrive d th pos) s fun t => OtherDies s t d ∧ t.models = s.models ∧
      (∃ h', tfind (t.die d).threads th = some h' ∧ h'.next = h.next) ∧
      (∃ z u, (t.die d).tslot e.1 e.2 = some z ∧ u ∈ z.entries ∧ u.index = x.2.index ∧ u.bytes = x.2.bytes) ∧
      ∀ m, ((t.die d).mtile m).mem = ((s.die d).mtile m).mem := by
  obtain ⟨stands, slots, thread⟩ := Die.putBlock_facts (x := { s.die d with
      threads := tput (s.die d).threads th { h with transit := h.transit.erase x } }) (e := e) hq ha hc hf fresh
    x.2.forwarded x.2.own th (.refl _)
  obtain ⟨_, thread⟩ := thread _ (tfind_tput_same ..)
  obtain ⟨z, slot, awaits⟩ := stands
  obtain ⟨_, _, held⟩ := awaits.held
  have eq : s.doBlockArrive d th pos = s.modDie d fun y =>
      (({ y with threads := tput y.threads th { h with transit := h.transit.erase x } }).modTSlot e.1 e.2 fun q =>
        { q with entries := q.entries ++ [x.2] }).pump th := by
    unfold State.doBlockArrive
    simp only [ht, hx, he]
  have due : (h.transit.any fun t => t.1 == pos) = true :=
    List.any_eq_true.mpr ⟨x, List.mem_of_find?_eq_some hx, List.find?_some (p := fun x : Nat × TEntry => x.1 == pos) hx⟩
  have runs : exec (.threadBlockArrive d th pos) s = .next (s.doBlockArrive d th pos) := by
    refine event_next ?_ ?_
    · simp [State.dieCount_of_live hl, hth]
    · simp [hl, ht, he, due, up, hq, room]
  refine ⟨_, runs, ?_⟩
  dsimp only
  rw [eq, State.die_modDie_same]
  exact ⟨OtherDies.modDie _ _ _, rfl, ⟨_, thread, rfl⟩, ⟨z, _, slot, held, rfl, rfl⟩, slots.mem⟩

end

/-! ## Streams: what the commands do -/

section
variable {s : State} {d : Nat}

theorem exec_streamIssue {c i addr : Nat} {y : Ctx} (hd : d < s.dieCount) (hi : i < 16) (hl : s.live d = true)
    (on : (s.die d).runsOn c .matrix = true) (hy : tfind (s.die d).ctxs c = some y) (aligned : addr % 64 = 0)
    (inside : addr + 64 ≤ y.declared) : exec (.streamIssue d c i addr) s = .next (s.issueStream d c i (s.descAt d c addr)) := by
  have ctx : (s.die d).ctx c = some y := hy
  refine (event_next ?_ ?_).trans (congrArg Host.Outcome.next (if_pos ⟨aligned, ?_⟩))
  · simp [hd, hi]
  · simp [hl, on]
  · simpa [ctx] using inside

section
variable {c i n : Nat} {y : Ctx} {q : Stream} {desc : BitVec 512}

/-- A descriptor that passes R154 starts on an idle stream. -/
theorem State.issueStream_starts (hy : tfind (s.die d).ctxs c = some y) (hn : y.streams[i]? = some n)
    (hq : tfind (s.die d).streams n = some q) (ok : (s.die d).streamOk y desc = true) (idle : q.cur = none) :
    s.issueStream d c i desc = s.modDie d fun x =>
      { x with streams := tput x.streams n { q with cur := some (SRun.start desc) } } := by
  have ctx : (s.die d).ctx c = some y := hy
  unfold State.issueStream
  simp only [ctx, hn, ok, hq, idle, if_true]

/-- One that finds another running waits in the shadow (R156). -/
theorem State.issueStream_waits {r : SRun} (hy : tfind (s.die d).ctxs c = some y) (hn : y.streams[i]? = some n)
    (hq : tfind (s.die d).streams n = some q) (ok : (s.die d).streamOk y desc = true) (busy : q.cur = some r)
    (free : q.shadow = none) :
    s.issueStream d c i desc = s.modDie d fun x => { x with streams := tput x.streams n { q with shadow := some desc } } := by
  have ctx : (s.die d).ctx c = some y := hy
  unfold State.issueStream
  simp only [ctx, hn, ok, hq, busy, free, if_true]

theorem State.issueStream_refused (hy : tfind (s.die d).ctxs c = some y) (hn : y.streams[i]? = some n)
    (bad : (s.die d).streamOk y desc = false) : s.issueStream d c i desc = s.writeRec d c (sdRec desc .badParam) := by
  have ctx : (s.die d).ctx c = some y := hy
  unfold State.issueStream
  simp only [ctx, hn, bad, Bool.false_eq_true, if_false]

end

section
variable {e n tl : Nat} {bad : Bool} {q : Stream} {r : SRun} {y : Ctx}

/-- A burst of kind 1 brings the bytes of the grant into the tile. -/
theorem State.ctxBurst_reads {g : Grant} (kind : dw r.desc 0 31 28 = 1) (hg : tfind y.grants (dw r.desc 0 7 0) = some g)
    (key : s.hasKey d y.tenant = true) : s.ctxBurst d e y tl r false =
      (((s.grantCount d y g r.memAt r.units).modDie d fun x => x.modTileMem y.kind tl fun m =>
        mwriteN m r.tileAt (s.grantRead d y.tenant y.model g r.memAt r.units)).modDie d fun x =>
          x.count seBytes e (64 * r.units), r.next) := by
  have sealed : s.sealOut d y r = false := by simp [State.sealOut, key]
  have opened : (s.die d).returnClosed r = false := by simp [Die.returnClosed, kind]
  unfold State.ctxBurst State.moveBurst
  simp [sealed, opened, kind, hg]

/-- A tenant without a key moves nothing, and its descriptor ends AUTH_FAIL (R332). -/
theorem State.ctxBurst_sealed (memory : sdRing r.desc = false) (key : s.hasKey d y.tenant = false) (bad : Bool) :
    s.ctxBurst d e y tl r bad = (s.sealFault d 26, { r with finished := true, status := .authFail }) := by
  have sealed : s.sealOut d y r = true := by simp [State.sealOut, key, memory]
  unfold State.ctxBurst
  rw [if_pos sealed]

section
variable (he : e < 16) (hl : s.live d = true) (hi : s.mayIssue d = true) (hp : (s.die d).burstPick e = some (n, q))
  (ht : q.thread = none) (hc : q.cur = some r) (hb : s.burstBehind d q = none)
  (hy : (s.die d).ctxTile q.ctx = some (y, tl))
include he hl hi hp ht hc hb hy

theorem streamBurst_reads {g : Grant} (kind : dw r.desc 0 31 28 = 1)
    (hg : tfind y.grants (dw r.desc 0 7 0) = some g) (key : s.hasKey d y.tenant = true) :
    Runs (.streamBurst d e false) s fun t => OtherDies s t d ∧ t.models = s.models ∧ (t.die d).dram = (s.die d).dram ∧
      (t.die d).tileMem y.kind tl = mwriteN ((s.die d).tileMem y.kind tl) r.tileAt
        (s.grantRead d y.tenant y.model g r.memAt r.units) ∧
      ∃ z, tfind (t.die d).streams n = some z ∧ z.cur = some r.next := by
  obtain ⟨staged, models, -⟩ := s.staged_facts d n r
  obtain ⟨l, z, moved, hz, cur⟩ := State.doBurst_ctx hp hc hb ht hy false
    (State.ctxBurst_reads kind hg ((staged.hasKey _).trans key))
  obtain ⟨counted, dies⟩ := (s.staged d n r).grantCount_facts d y g r.memAt r.units
  rw [staged.grantRead models] at moved
  have before := counted.after staged
  generalize (s.staged d n r).grantCount d y g r.memAt r.units = u at moved before dies
  refine ⟨_, exec_streamBurst hl he hi hp false, ?_⟩
  dsimp only
  rw [moved, State.modDie_modDie, State.die_setDie_same, State.die_modDie_same]
  have meters := (((MetersOnly.refl ((u.die d).modTileMem y.kind tl fun m => mwriteN m r.tileAt
    (s.grantRead d y.tenant y.model g r.memAt r.units))).count seBytes e (64 * r.units)).contextFields.trans
      (Die.streams_contextFields _ l))
  refine ⟨?_, ?_, ?_, ?_, z, hz, cur⟩
  · exact before.1.trans fun i hi => (State.die_setDie_other _ _ hi).trans (State.die_modDie_other _ _ hi)
  · exact dies.models.trans models
  · exact meters.dram.trans ((Die.modTileMem_dram ..).trans before.2.dram)
  · rw [meters.tileMem, Die.tileMem_modTileMem_same, before.2.tileMem]

theorem streamBurst_sealed (memory : sdRing r.desc = false) (key : s.hasKey d y.tenant = false) :
    Runs (.streamBurst d e bad) s fun t => OtherDies s t d ∧ t.models = s.models ∧ (t.die d).dram = (s.die d).dram ∧
      (t.die d).mtiles = (s.die d).mtiles ∧ (t.die d).vtiles = (s.die d).vtiles ∧ t.raised.length = s.raised.length + 1 ∧
      ∃ z, tfind (t.die d).streams n = some z ∧ z.cur = some { r with finished := true, status := .authFail } := by
  obtain ⟨staged, models, raised⟩ := s.staged_facts d n r
  obtain ⟨l, z, moved, hz, cur⟩ := State.doBurst_ctx hp hc hb ht hy bad
    (State.ctxBurst_sealed memory ((staged.hasKey _).trans key) bad)
  obtain ⟨dies, kept, one⟩ := (s.staged d n r).sealFault_facts d 26
  have fields := staged.2.trans (Die.streams_contextFields _ l)
  refine ⟨_, exec_streamBurst hl he hi hp bad, ?_⟩
  dsimp only
  rw [moved, State.die_setDie_same, dies]
  refine ⟨?_, kept.trans models, fields.dram, fields.mtiles, fields.vtiles, one.trans (by rw [raised]), z, hz, cur⟩
  exact staged.1.trans fun i hi => (State.die_setDie_other _ _ hi).trans (dies i)

end

/-- The end of a descriptor: its record, whatever its status, then its shadow starts (R155, R156). -/
theorem State.doStreamComplete_eq (hq : tfind (s.die d).streams n = some q) (hc : q.cur = some r)
    (hy : tfind (s.die d).ctxs q.ctx = some y) (room : y.ring.length < 256) : ∃ u, ContextsOnly d s u ∧
      tfind (u.die d).ctxs q.ctx = some { y with ring := y.ring ++ [sdRec r.desc r.status] } ∧
      s.doStreamComplete d n = u.modDie d fun x =>
        { x with streams := tput x.streams n { q with cur := q.shadow.map SRun.start, shadow := none, flight := [] } } := by
  unfold State.doStreamComplete
  simp -zeta only [hq, hc]
  extract_lets s1 s2 s3
  have written : tfind (s1.die d).ctxs q.ctx = some { y with ring := y.ring ++ [sdRec r.desc r.status] } := by
    rw [State.writeRec_die hy room]
    exact tfind_tput_same ..
  have served (e : Nat) : s2.die e = s1.die e := by
    unfold s2
    split
    · rfl
    · exact State.failServed_die ..
  have own : ContextsOnly d s s2 := (ContextsOnly.of_die served).after (s.writeRec_contextsOnly ..)
  refine ⟨s3, ?_, ?_, rfl⟩
  all_goals
    unfold s3
    split
  · exact (State.sendAdd_contextsOnly ..).after own
  · exact own
  · rw [State.sendAdd, State.die_modDie_same, served]
    exact written
  · rw [served]
    exact written

theorem streamComplete_records (hn : n < 1024) (hl : s.live d = true) (done : (s.die d).streamDone n = true)
    (hq : tfind (s.die d).streams n = some q) (hc : q.cur = some r) (hy : tfind (s.die d).ctxs q.ctx = some y) :
    Runs (.streamComplete d n) s fun t => OtherDies s t d ∧ (t.die d).mtiles = (s.die d).mtiles ∧
      (t.die d).vtiles = (s.die d).vtiles ∧ (t.die d).dram = (s.die d).dram ∧
      tfind (t.die d).streams n = some { q with cur := q.shadow.map SRun.start, shadow := none, flight := [] } ∧
      ∃ z, tfind (t.die d).ctxs q.ctx = some z ∧ z.ring = y.ring ++ [sdRec r.desc r.status] := by
  have ctx : (s.die d).ctx q.ctx = some y := hy
  have room : y.ring.length < 256 := by
    simp only [Die.streamDone, hq, hc, ctx, Bool.and_eq_true, decide_eq_true_eq] at done
    exact done.2
  have runs : exec (.streamComplete d n) s = .next (s.doStreamComplete d n) :=
    event_next (by simp [State.dieCount_of_live hl, hn]) (by simp [hl, done])
  obtain ⟨u, own, written, eq⟩ := State.doStreamComplete_eq hq hc hy room
  refine ⟨_, runs, ?_⟩
  dsimp only
  rw [eq, State.die_modDie_same]
  exact ⟨own.1.trans (OtherDies.modDie _ _ _), own.2.mtiles, own.2.vtiles, own.2.dram, tfind_tput_same .., _, written, rfl⟩

end

end

/-- Settles O25. Threads: a block that its member has not loaded stands in its slot whatever the members forward
(`Die.pump_facts`). Streams: a burst writes what its kind moves, and beyond that streams and meters only. -/
theorem threadsAndStreams : Obligations.ThreadsAndStreams := by
  refine ⟨⟨?_, ?_, ?_⟩, ?_, ?_, ?_⟩
  · intro s d th h f hl hth hi ht
    exact ⟨threadFetch_head hl hth hi ht, threadFetch_gap hl hth hi ht⟩
  · intro s d e n th bad q r h f k y g m z0 he hl hi hp hqt hc hb ht hf hk hy hg hga hm key last hz ha hch hfr
    exact LastBurst.delivers ⟨ht, hf, hk, hy, hg, hga, hm, key, last⟩ he hl hi hp hqt hc hb hz ha hch hfr
  · intro s d th pos h x e q hl hth ht hx he up hq ha hc hf room fresh
    exact threadBlockArrive_stands hl hth ht hx he up hq ha hc hf room fresh
  · intro s d c i addr n y q hd hi hl on hy hn hq aligned inside
    have runs := exec_streamIssue hd hi hl on hy aligned inside
    refine ⟨fun ok idle => ⟨_, runs, ?_⟩, fun r ok busy free => ⟨_, runs, ?_⟩, fun bad room => ⟨_, runs, ?_⟩⟩
    · dsimp only
      rw [State.issueStream_starts hy hn hq ok idle, State.die_modDie_same]
      exact ⟨OtherDies.modDie _ _ _, rfl, rfl, tfind_tput_same ..⟩
    · dsimp only
      rw [State.issueStream_waits hy hn hq ok busy free, State.die_modDie_same]
      exact ⟨OtherDies.modDie _ _ _, rfl, rfl, tfind_tput_same ..⟩
    · dsimp only
      rw [State.issueStream_refused hy hn bad, State.writeRec_die hy room]
      exact ⟨(s.writeRec_contextsOnly ..).1, rfl, rfl, tfind_tput_same ..⟩
  · intro s d e n tl bad q r y he hl hi hp _ ht hc hb hy
    exact ⟨fun g kind hg key => streamBurst_reads he hl hi hp ht hc hb hy kind hg key,
      fun memory key => streamBurst_sealed he hl hi hp ht hc hb hy memory key⟩
  · intro s d n q r y hn hl done hq hc hy
    exact streamComplete_records hn hl done hq hc hy

end Sys2Proof.Machine

namespace Sys2Proof.Machine

/-! ## Patterns that run (R166, R168, R392)

Every word that issues enters its operations in the die's activities, and `TileOnly`, which `WritesVd`, `WritesAcc` and `WritesCore`
ask for, holds those unchanged: in a period that has counted nothing yet no word is within that frame. -/

/-- `faddState` with another pattern, before its first word. -/
def patternState (words : List (BitVec 64)) : State :=
  { faddState with
    models := [(0, { faddModel with
      bundle := faddModel.bundle.map fun b => { b with
        templates := b.templates.map fun e => { e with words := words } } })] }

/-- The next word of the context is the first of its pattern. -/
theorem patternState_vReady (words : List (BitVec 64)) (op : Nat) (w : VW) :
    (patternState words).vReady op faddTile w = (words[0]? == some (vwordOf op w)) := by
  have live : (patternState words).live faddTile.die = true := (by decide : faddState.live 0 = true)
  have die : (patternState words).die faddTile.die = faddState.die 0 := rfl
  have first : ((patternState words).vcore faddTile).next = 0 := (by decide : (faddState.vcore faddTile).next = 0)
  have pattern : (patternState words).vpattern faddCtx = words := rfl
  have tile : ((faddState.die 0).tileOcc .vector 0).phase = .none ∧ (faddState.die 0).isFenced 3 0 = false := by decide
  have ctx : (faddState.die 0).resident .vector 0 = some (0, faddCtx) := by decide
  have running : faddCtx.st = .running ∧ faddCtx.kind = .vector := by decide
  rw [State.vReady, live, die, first]
  simp [faddTile, tile, ctx, running, pattern]

section
variable {op : Nat} {w : VW} {rest : List (BitVec 64)}

/-- A word that R168 permits and that makes no access runs as the first of its pattern. -/
theorem wordRuns_patternState (ok : vwordOk 3 op w = true) (slot0 : vacc0 op w = none) (slot1 : vacc1 op w = none) :
    WordRuns (patternState (vwordOf op w :: rest)) op faddTile w where
  units := rfl
  ready := by simp [patternState_vReady]
  clean := rfl
  legal y hy := by
    obtain rfl : faddCtx = y := Option.some.inj hy
    simp [VCore.stop, faddCtx, ok, slot0, slot1]

/-- The issue of a word enters an activity, whatever the word does. -/
theorem patternState_not_tileOnly (words : List (BitVec 64)) (op : Nat) (w : VW) (f : VCore → VIn → VRes) (pre : VCore → VCore)
    (post : VCore → VCore × Nat) : ¬ TileOnly (patternState words) ((patternState words).vcommit op faddTile w f pre post) faddTile := by
  intro only
  have entered := State.vcommit_acts (s := patternState words) (t := faddTile) (y := faddCtx) rfl op w f pre post
  have before : ((patternState words).die faddTile.die).acts = [] := rfl
  rw [only.acts, before] at entered
  cases entered

/-- A word that computes from registers runs, and is not within the frame of `WritesVd`. -/
theorem patternState_not_writesVd {i : Instr} {f : VIn → VRes} {P : BitVec 2048 → Prop} (ok : vwordOk 3 op w = true)
    (slot0 : vacc0 op w = none) (slot1 : vacc1 op w = none)
    (plain : ∀ s, exec i s = vans op faddTile w (s.vplain op faddTile w f) s) :
    ¬ (WordRuns (patternState [vwordOf op w]) op faddTile w → WritesVd i (patternState [vwordOf op w]) faddTile w P) := by
  intro writes
  have runs : WordRuns (patternState [vwordOf op w]) op faddTile w := wordRuns_patternState ok slot0 slot1
  obtain ⟨u, next, only, -⟩ := writes runs
  rw [plain, runs.vans_vplain, Host.Outcome.next.injEq] at next
  exact patternState_not_tileOnly [vwordOf op w] op w _ _ _ (next ▸ only)

end

/-- Refutes O46: VAND V0 ← V0 & V0 as the only word of a pattern charges 64 operations to its context (R392, Table 15-7), and
`WritesVd` holds the activities of the die unchanged. -/
theorem not_tileScalarWords : ¬ Obligations.TileScalarWords := by
  rintro ⟨-, elements⟩
  obtain ⟨-, -, -, -, vand, -⟩ := elements (patternState [vwordOf 0x29 faddWord]) faddTile faddWord
  exact patternState_not_writesVd (by decide) (by decide) (by decide) (fun _ => rfl) vand

/-- Refutes O47: VADD.H V0 ← V0 + V0 charges 128 operations to its context, which `WritesVd` does not let it. -/
theorem not_fixedPointWords : ¬ Obligations.FixedPointWords := by
  intro words
  obtain ⟨vadd, -⟩ := words (patternState [vwordOf 0x20 faddWord]) faddTile faddWord
  exact patternState_not_writesVd (by decide) (by decide) (by decide) (fun _ => rfl) vadd

/-- Refutes O48: VRND.H V0 ← ACC0 charges 128 operations to its context, which `WritesVd` does not let it. -/
theorem not_tileAccumulatorWords : ¬ Obligations.TileAccumulatorWords := by
  rintro ⟨accumulators, -⟩
  obtain ⟨-, -, -, -, -, -, vrnd, -⟩ := accumulators (patternState [vwordOf 0x36 faddWord]) faddTile faddWord
  exact patternState_not_writesVd (by decide) (by decide) (by decide) (fun _ => rfl) vrnd

/-! ## The loop that REP starts (R177, R184) -/

/-- REP at level 0: two passes. -/
def repWord : VW := { faddWord with imm16 := 2 }

/-- NOP, the only word of the body and its end at level 0. -/
def bodyWord : VW := { faddWord with lend := 1 }

/-- The pattern of the two words, before REP. -/
def repState : State := patternState [vwordOf 0x01 repWord, vwordOf 0x00 bodyWord]

theorem wordRuns_repState : WordRuns repState 0x01 faddTile repWord := wordRuns_patternState (by decide) (by decide) (by decide)

/-- The command of a word that runs answers the word's effect. -/
theorem WordRuns.vans_vword {s : State} {op : Nat} {t : VAt} {w : VW} (h : WordRuns s op t w) (go : State → State) :
    vans op t w (s.vword op t w go) s = .next (go s) := by
  rw [h.vword]
  exact event_next h.units h.ready

/-- The level holds word 1 as the end of the body (Table 7-11). -/
theorem repState_loop : ∃ u, exec (.rep faddTile repWord) repState = .next u ∧
    tfind (u.vcore faddTile).loops 0 = some { start := 1, left := 2, stop := 1 } :=
  ⟨_, wordRuns_repState.vans_vword _, by decide +kernel⟩

/-- Refutes O50: the loop that the statement gives REP leaves `stop` at its default 0, and the REP of `repState` keeps word 1, the
end word of its body, there (R184). `WritesCore` asks for `TileOnly` besides, which no word meets. -/
theorem not_tileControlWords : ¬ Obligations.TileControlWords := by
  rintro ⟨words, -⟩
  obtain ⟨-, -, rep, -⟩ := words repState faddTile repWord _ rfl
  obtain ⟨u, runs, -, -, -, -, -, stated, -⟩ := rep wordRuns_repState
  obtain ⟨v, runs', kept⟩ := repState_loop
  obtain rfl : u = v := by simpa [runs] using runs'
  have stops : (0 : Nat) = 1 := congrArg Loop.stop (Option.some.inj (stated.symm.trans kept))
  omega

end Sys2Proof.Machine

namespace Sys2Proof.Machine

/-! ## A rinse ends while a command waits (R196, R446; log entry 40)

RINSE_DONE has every waiting command looked at again, on whatever die it works. -/

/-- Vector tile 0 of die 0. -/
def rinsedTile : TAt := { kind := .vector, die := 0, tile := 0 }

/-- The tile, which no context occupies, is being rinsed; a TEST_RUN of wringer 0 of die 1 waits. -/
def rinsingState : State :=
  { faddState with
    waiting := [.testRunSelfTest
      { queue := 0, seq := 7, tag := 9, quiet := false, irq := false, tenant := 3, context := 0xFFFF } 1 4 0]
    dies := [(0, { faddState.die 0 with ctxs := [], occ := [(tileKey .vector 0, { Occ.reset with phase := .rinsing })] }),
      (1, { Die.reset .skz8 with running := true })] }

/-- The rinse is done, and with it the test begins. -/
theorem rinsingState_starts_test : ∃ u, exec (.rinseDone rinsedTile) rinsingState = .next u ∧
    (rinsingState.die 1).tests = [] ∧ thas (u.die 1).tests (unitKey 4 0) = true :=
  ⟨_, event_next (by decide) (by decide), rfl, by decide +kernel⟩

/-- Refutes O26: the RINSE_DONE of `rinsingState`, on die 0, starts the test that waits for die 1, and the statement has the other
dies as they were once the command, and what it resumes, is done (`Runs`, where SAVE_CHECKED has `RunsThen`). -/
theorem not_tileGrantsAndSwitches : ¬ Obligations.TileGrantsAndSwitches := by
  rintro ⟨-, -, -, -, rinse, -⟩
  obtain ⟨u, runs, others, -⟩ := rinse rinsingState rinsedTile (by decide) (by decide) (by decide) (by decide) (by decide)
  obtain ⟨v, runs', before, after⟩ := rinsingState_starts_test
  obtain rfl : u = v := by simpa [runs] using runs'
  rw [others 1 (by decide), before] at after
  cases after

end Sys2Proof.Machine

namespace Sys2Proof.Machine

/-! ## Which contexts a die has (R187, Table 8-3)

A context ends, and those that wait on its knots end with it (R207): each of these operations rewrites contexts and neither makes
nor removes one. One lemma `<operation>_hasCtx` for each, in the order they call one another. -/

/-- Die `d` has a context of number `c`. -/
def State.hasCtx (s : State) (d c : Nat) : Bool := thas (s.die d).ctxs c

theorem State.hasCtx_eq_false {s : State} {d c : Nat} : s.hasCtx d c = false ↔ tfind (s.die d).ctxs c = none := by
  simp [State.hasCtx, thas]

@[simp] theorem Die.modCtx_thas (x : Die) (e : Nat) (f : Ctx → Ctx) (c : Nat) : thas (x.modCtx e f).ctxs c = thas x.ctxs c := by
  unfold Die.modCtx Die.ctx
  cases h : tfind x.ctxs e with
  | none => rfl
  | some y =>
    by_cases hc : c = e
    · simp [hc, thas, h]
    · exact thas_tput_other _ _ hc

theorem Die.endStreams_ctxs (x : Die) (y : Ctx) : (x.endStreams y).ctxs = x.ctxs := rfl

theorem Die.count_ctxs (x : Die) (i : Ctr) (u n : Nat) : (x.count i u n).ctxs = x.ctxs := by
  obtain ⟨_, _, _, own⟩ := (MetersOnly.refl x).count i u n
  rw [own]

theorem State.hasCtx_of_die {s t : State} {d : Nat} (h : t.die d = s.die d) (c : Nat) : t.hasCtx d c = s.hasCtx d c := by
  rw [State.hasCtx, h, State.hasCtx]

section
variable (s : State) (d : Nat)

theorem State.modDie_hasCtx {f : Die → Die} (h : ∀ x, (f x).ctxs = x.ctxs) (c : Nat) : (s.modDie d f).hasCtx d c = s.hasCtx d c := by
  rw [State.hasCtx, State.die_modDie_same, h, State.hasCtx]

theorem State.foldl_hasCtx {α : Type} {g : State → α → State} {c : Nat} (h : ∀ s a, (g s a).hasCtx d c = s.hasCtx d c) (l : List α) :
    (l.foldl g s).hasCtx d c = s.hasCtx d c :=
  List.foldlRecOn (motive := fun t => t.hasCtx d c = s.hasCtx d c) l g rfl fun t ht a _ => (h t a).trans ht

@[simp] theorem State.finish_hasCtx (code : Nat) (p : Pkt) (st : Status) (det : Nat) (a b : List Byte) (c : Nat) :
    (s.finish code p st det a b).hasCtx d c = s.hasCtx d c :=
  State.hasCtx_of_die ((s.onlyReplies_finish code p st det a b).die d) c

@[simp] theorem State.modCtx_hasCtx (e : Nat) (f : Ctx → Ctx) (c : Nat) : (s.modCtx d e f).hasCtx d c = s.hasCtx d c := by
  simp [State.hasCtx, State.modCtx]

@[simp] theorem State.writeRec_hasCtx (e : Nat) (r : CRec) (c : Nat) : (s.writeRec d e r).hasCtx d c = s.hasCtx d c :=
  s.modCtx_hasCtx d e _ c

@[simp] theorem State.endCtx_hasCtx (e : Nat) (st : Status) (c : Nat) : (s.endCtx d e st).hasCtx d c = s.hasCtx d c := by
  unfold State.endCtx
  split
  · rfl
  next k _ =>
    have drained : (s.drained d e (k.ring ++ k.ringWait)).hasCtx d c = s.hasCtx d c := State.hasCtx_of_die (s.drained_die d e _ d) c
    rw [State.modCtx_hasCtx, ← drained]
    split
    · rfl
    · split <;> rfl

@[simp] theorem State.haltOn_hasCtx (k : TileKind) (t : Nat) (st : Status) (c : Nat) :
    (s.haltOn d k t st).hasCtx d c = s.hasCtx d c := by
  unfold State.haltOn
  split
  · rfl
  · rw [State.modCtx_hasCtx]
    exact s.modDie_hasCtx d (fun x => x.modOcc_ctxs k t _) c

@[simp] theorem State.orphan_hasCtx (e : Nat) (st : Status) (c : Nat) : (s.orphan d e st).hasCtx d c = s.hasCtx d c := by
  unfold State.orphan
  split
  · rfl
  · split
    · split
      · simp
      · rw [State.modDie_hasCtx _ _ fun x => x.endStreams_ctxs _]
        simp
    · simp
    all_goals rfl

@[simp] theorem State.untieOne_hasCtx (k c : Nat) : (s.untieOne d k).1.hasCtx d c = s.hasCtx d c :=
  ((State.foldl_hasCtx _ d (fun s (w : Nat × BitVec 64) => s.orphan_hasCtx d w.1 _ c) _).trans
    (State.foldl_hasCtx _ d (fun s (w : Pkt × BitVec 64) => s.finish_hasCtx d 0x0503 w.1 _ _ _ _ c) _)).trans
      (s.modDie_hasCtx d (fun x => (Die.count_ctxs ..).trans (x.modKnot_ctxs k _)) c)

end

theorem State.unwind_hasCtx (d c : Nat) : ∀ (n : Nat) (l : List Nat) (s : State), (State.unwind d n l s).hasCtx d c = s.hasCtx d c
  | 0, _, _ => by simp [State.unwind]
  | _ + 1, [], _ => by simp [State.unwind]
  | n + 1, e :: r, s => by
    have step (l : List Nat) (p : State × List Nat) : (l.foldl (fun (p : State × List Nat) k =>
        ((p.1.untieOne d k).1, p.2 ++ (p.1.untieOne d k).2)) p).1.hasCtx d c = p.1.hasCtx d c := by
      induction l generalizing p with
      | nil => rfl
      | cons k l ih => exact (ih _).trans (State.untieOne_hasCtx ..)
    unfold State.unwind
    exact (State.unwind_hasCtx d c n _ _).trans (step _ (s, []))

/-- A destroyed context is gone, and what unwinds after it (R207) does not bring it back. -/
theorem State.destroyCtx_hasCtx (s : State) (d c : Nat) (st : Status) : (s.destroyCtx d c st).hasCtx d c = false := by
  unfold State.destroyCtx
  cases h : (s.die d).ctx c with
  | none => exact State.hasCtx_eq_false.mpr h
  | some y =>
    refine (State.unwind_hasCtx ..).trans ?_
    simp [State.hasCtx]

end Sys2Proof.Machine

namespace Sys2Proof.Machine

/-! ## The context opcodes (R187, R188, R207, R229, R230) -/

/-- CTX_CREATE puts the new context under the free number, on the die as its scratch areas leave it. -/
theorem doCtxCreate_eq {s : State} {p : Pkt} {inst tmpl die c : Nat} {tp : Template} {x : Die} {m : Model}
    (ht : s.tmplOf p inst tmpl = some tp) (ha : s.areasFor p inst tmpl die = some (x, m)) (hc : (s.die die).newCtx = some c) :
    ∃ r pc, doCtxCreate p inst tmpl die s = (({ s with models := tput s.models inst m } : State).setDie die
      { x with ctxs := tput x.ctxs c (newCtx p.tenant inst tmpl r pc tp) }).finish 0x0010 p .ok 0 (padTo 4 (le 2 (ctxNo die c))) [] := by
  unfold doCtxCreate
  rw [ht, ha, hc]
  exact ⟨_, _, rfl⟩

/-- CTX_READ reads at once what is neither saved now nor about to be (R230). -/
theorem State.runCtxRead_eq {s : State} {p : Pkt} {off len : Nat} {y : Ctx} (ht : s.hasTenant p.tenant = true)
    (hy : s.ctxOf p = some y) (hcreated : y.st ≠ .created) (hfailed : y.st ≠ .failed) (hsaving : y.st ≠ .saving)
    (hwaiting : y.st = .waiting → y.tile = none) (hoff : off % 64 = 0) (hlen : len % 64 = 0) (hmax : len ≤ 262144)
    (hfit : off + len ≤ y.declared) :
    s.runCtxRead p off len = s.finish 0x0012 p .ok 0 [] (mreadN ((s.die (p.context / 4096)).ctxMem y) off len) := by
  have now : ¬(y.st = .saving ∨ (y.st = .waiting ∧ y.tile.isSome = true)) := by
    rintro (h | ⟨h, htile⟩)
    · exact hsaving h
    · simp [hwaiting h] at htile
  have passes : chkCtxRead p off len s = none := by
    have hstart : ¬ y.declared < off := by omega
    exact firstOf_eq_none.mpr (by simp [badHdr, badAt, ht, hy, hcreated, hfailed, hoff, hlen, hmax, hfit, hstart])
  unfold State.runCtxRead
  rw [hy]
  dsimp only
  rw [if_neg now, passes, State.decide1_none]

/-- Settles O2: CTX_CREATE writes one entry of the context table, CTX_DESTROY takes one out for good (`State.destroyCtx_hasCtx`),
and the two reads come down to their replies. -/
theorem contextCommandsComplete : Obligations.ContextCommandsComplete := by
  refine ⟨?create, ?destroy, ?read, ?status⟩
  case create =>
    intro s p inst tmpl die tp x m c hq hdue hperm hchk ht ha hc
    refine ⟨_, opcode_next hdue hperm hchk, ?_⟩
    obtain ⟨r, pc, created⟩ := doCtxCreate_eq ht ha hc
    rw [created]
    set u := ({ s with models := tput s.models inst m } : State).setDie die
      { x with ctxs := tput x.ctxs c (newCtx p.tenant inst tmpl r pc tp) }
    have kept := u.onlyReplies_finish 0x0010 p .ok 0 (padTo 4 (le 2 (ctxNo die c))) []
    refine ⟨hq.finish_of (u := u) rfl .., fun e he => ?_, newCtx p.tenant inst tmpl r pc tp, ?_, rfl, rfl, rfl, rfl, rfl, rfl⟩
    · exact (kept.die e).trans (State.die_setDie_other _ _ he)
    · rw [kept.die, State.die_setDie_same]
      exact tfind_tput_same ..
  case destroy =>
    intro s p y _ hdue hperm ht hy
    refine ⟨_, opcode_next hdue hperm (firstOf_eq_none.mpr (by simp [badHdr, ht, hy])), ?_⟩
    dsimp only
    rw [State.ok_die]
    exact State.hasCtx_eq_false.mp (s.destroyCtx_hasCtx ..)
  case read =>
    intro s p off len y hq hdue hperm ht hy hcreated hfailed hsaving hwaiting hoff hlen hmax hfit
    refine ⟨_, gate_next hdue hperm, ?_⟩
    rw [State.runCtxRead_eq ht hy hcreated hfailed hsaving hwaiting hoff hlen hmax hfit]
    exact ⟨s.onlyReplies_finish .., hq.finish ..⟩
  case status =>
    intro s p y hq hdue hperm ht hy hown
    refine ⟨_, opcode_next hdue hperm (firstOf_eq_none.mpr (by simp [badHdr, ht, hy, hown])), ?_⟩
    rw [doTelCtx, hy]
    exact ⟨s.onlyReplies_finish .., hq.finish ..⟩

end Sys2Proof.Machine

namespace Sys2Proof.Machine

/-! ## A waiter runs on while a command waits (R205, R446; log entry 40)

KNOT_WAKE, too, has every waiting command looked at again, on whatever die it works. -/

/-- The dies of `rinsingState` and its waiting TEST_RUN, which works on die 1; on die 0 context 0 waits on its tile, woken. -/
def wakingState : State :=
  { rinsingState with
    dies := [(0, { faddState.die 0 with ctxs := [(0, { faddCtx with st := .waiting, woken := true })] }), (1, rinsingState.die 1)] }

/-- The context runs on, and with it the test begins. -/
theorem wakingState_starts_test : ∃ u, exec (.knotWake 0 0) wakingState = .next u ∧
    (wakingState.die 1).tests = [] ∧ thas (u.die 1).tests (unitKey 4 0) = true :=
  ⟨_, event_next (by decide) (by decide), rfl, by decide +kernel⟩

/-- Refutes O11: the KNOT_WAKE of `wakingState`, on die 0, starts the test that waits for die 1, and the statement has the other
dies as they were once the command, and what it resumes, is done (`Runs` in place of `RunsThen`). -/
theorem not_knotCommands : ¬ Obligations.KnotCommands := by
  rintro ⟨-, -, -, -, -, wake⟩
  obtain ⟨u, runs, others, -⟩ := wake wakingState 0 0 0 (by decide) (by decide) (by decide)
  obtain ⟨v, runs', before, after⟩ := wakingState_starts_test
  obtain rfl : u = v := by simpa [runs] using runs'
  rw [others 1 (by decide), before] at after
  cases after

end Sys2Proof.Machine

namespace Sys2Proof.Machine

/-! ## The front of the queue, and the gate of the opcodes (R221, R224, R225, R229) -/

/-- Settles O52: `step` is a match on the waiting commands, and each statement is one of its branches. -/
theorem stepTakesFrontCommand : Obligations.StepTakesFrontCommand := by
  refine ⟨fun c s => rfl, fun s h => ?_⟩
  rw [step, h]

/-- Every opcode, those with checks of their own too, is the gate of its code and its queues before some effect (Table 9-13). -/
theorem exec_eq_gate {c : Instr} {code : Nat} {perm : Perm} {p : Pkt} (h : opcodeOf c = some (code, perm, p)) (s : State) :
    ∃ t, exec c s = gate code perm p t s := by
  cases c
  case tenantCreate | tenantDestroy | tenantSet | ctxCreate | ctxDestroy | ctxRead | modelCreate | modelWrite | modelCommit
      | modelDestroy | seqOpen | seqClose | seqSuspend | seqResume | seqTruncate | sheetHintPromote | sheetHintDemote
      | sheetHintPin | sheetHintUnpin | stateIdle | stateWake | seqQuery | execDispatch | fabricLoadPart | fabricLoadFlash
      | fabricLoadBind | fabricLoadAbandon | fabricCaptureFlipFlops | fabricCaptureHalt | fabricCaptureResume | fabricRead
      | fabricClockSetDivisor | fabricClockHalt | fabricClockRun | fabricClockReadFctr | knotTie | knotAdd | knotWait
      | knotUntie | knotRead | energyLimit | energyAllow | energyRead | telCounters | telReam | telCtx | telProbeSetFilter
      | telProbeStart | telProbeStop | telProbeReadCounts | telProbeReadTrace | telProbeClearTrace | testRunSelfTest
      | testRunCalibration | testRunLinkRetrain | queueCreate | queueDestroy | eventConfig | deviceInfo | keyLoadSealingKey
      | keyLoadImageKey | keyLoadIdentityRecord | keyRemove | fwUpdateWrite | fwUpdateActivate | fwUpdateRaiseFwMin
      | fwUpdateRaiseCfgMin | debugUnlockNonce | debugUnlockPresent | debugUnlockLock =>
    obtain ⟨rfl, rfl, rfl⟩ : _ ∧ _ ∧ _ := by simpa only [Prod.mk.injEq] using Option.some.inj h
    exact ⟨_, rfl⟩
  all_goals cases h

/-- Settles O58: an opcode is its gate (`exec_eq_gate`), whose three answers are those of the statement. -/
theorem opcodesNeedPermission : Obligations.OpcodesNeedPermission := by
  intro c code perm p s hc
  obtain ⟨t, ht⟩ := exec_eq_gate hc s
  refine ⟨⟨_, ht⟩, fun hd => ht.trans (gate_idle hd), fun hd hp => ?_⟩
  exact ⟨_, ht.trans (gate_refuse hd hp), s.onlyReplies_refuse code p .authFail 0, fun hq => hq.refuse code .authFail 0⟩

end Sys2Proof.Machine

namespace Sys2Proof.Machine

/-! ## Vectors raised and entries posted (R222, R235)

What an interrupt or an entry of a ring leaves alone: of the functions only BAR4, with the pending bits, changes. -/

/-- Nothing of the functions differs but their BAR4. -/
def Bar4Only (s t : State) : Prop := ∀ f, t.func f = { s.func f with bar4 := (t.func f).bar4 }

theorem Bar4Only.of_funcs {s t : State} (h : t.funcs = s.funcs) : Bar4Only s t := fun f => by simp [State.func, h]

theorem Bar4Only.trans {s t u : State} (h : Bar4Only s t) (g : Bar4Only t u) : Bar4Only s u := fun f => by
  rw [g f, h f]

section
variable {s t : State} (h : Bar4Only s t) (f : Nat)
include h

theorem Bar4Only.evNo : (t.func f).evNo = (s.func f).evNo := by rw [h f]
theorem Bar4Only.held : (t.func f).held = (s.func f).held := by rw [h f]

end

section
variable (s : State) (f v : Nat)

theorem State.raiseVec_queues : (s.raiseVec f v).queues = s.queues := by
  unfold State.raiseVec
  split_ifs <;> rfl

theorem State.raiseVec_raised : (s.raiseVec f v).raised = s.raised := by
  unfold State.raiseVec
  split_ifs <;> rfl

theorem State.raiseVec_bar4Only : Bar4Only s (s.raiseVec f v) := by
  unfold State.raiseVec
  split_ifs
  · exact .of_funcs rfl
  · intro g
    by_cases hg : g = f
    · rw [hg, State.func_modFunc_same]
      rfl
    · rw [State.func_modFunc_other _ _ hg]
  · exact .of_funcs rfl

/-- A vector that the function has, not masked, is a message. -/
theorem State.raiseVec_msix {s : State} {f v : Nat} (hv : v < vecCount f) (hm : (s.func f).masked v = false) :
    (s.raiseVec f v).msix = s.msix ++ [(f, v)] := by
  simp [State.raiseVec, Nat.not_le.mpr hv, hm]

end

/-- An entry leaves the count of coalesced replies and the vector to be raised: nothing else of its queue. -/
theorem State.signal_facts (s : State) (q : Nat) (force : Bool) :
    (∃ n, (s.signal q force).queue q = { s.queue q with coalDone := n }) ∧
      (∀ j, j ≠ q → (s.signal q force).queue j = s.queue j) ∧ (s.signal q force).raised = s.raised ∧
      Bar4Only s (s.signal q force) := by
  unfold State.signal
  dsimp only
  split_ifs
  · exact ⟨⟨_, rfl⟩, fun _ _ => rfl, rfl, .of_funcs rfl⟩
  · have hq (j : Nat) := congrArg (fun l => tget l j Queue.reset)
      (State.raiseVec_queues (s.modQueue q fun x => { x with coalDone := 0 }) (s.queue q).func (s.queue q).vector)
    refine ⟨⟨0, (hq q).trans (State.queue_modQueue_same ..)⟩, fun j hj => (hq j).trans (State.queue_modQueue_other _ _ hj),
      State.raiseVec_raised .., ?_⟩
    exact Bar4Only.trans (.of_funcs rfl) (State.raiseVec_bar4Only _ _ _)
  · exact ⟨⟨_, State.queue_modQueue_same ..⟩, fun j hj => State.queue_modQueue_other _ _ hj, rfl, .of_funcs rfl⟩

theorem State.post_facts (s : State) (q : Nat) (e : RingEntry) (force : Bool) :
    (∃ n, (s.post q e force).queue q = { (s.queue q).write e with coalDone := n }) ∧
      (∀ j, j ≠ q → (s.post q e force).queue j = s.queue j) ∧ (s.post q e force).raised = s.raised ∧
      Bar4Only s (s.post q e force) := by
  obtain ⟨⟨n, own⟩, others, raised, funcs⟩ := State.signal_facts
    ((s.modQueue q fun x => x.write e).modDie 0 fun x => x.count hpWritesOut 0 (entryWrites e.units)) q force
  refine ⟨⟨n, own.trans ?_⟩, fun j hj => (others j hj).trans ?_, raised,
    Bar4Only.trans (.of_funcs rfl) funcs⟩
  · rw [State.queue_modDie, State.queue_modQueue_same]
  · rw [State.queue_modDie, State.queue_modQueue_other _ _ hj]

theorem Queue.advance_posted (x : Queue) (n : Nat) : (x.advance n).posted = x.posted := by
  unfold Queue.advance
  split_ifs <;> rfl

theorem Queue.advance_held (x : Queue) (n : Nat) : (x.advance n).held = x.held := by
  unfold Queue.advance
  split_ifs <;> rfl

/-- An entry goes to the ring with the unit and the phase of its place, behind the PAD entry it may need. -/
theorem Queue.write_posted (x : Queue) (e : RingEntry) :
    ∃ l u ph, (x.write e).posted = x.posted ++ l ++ [{ e with unit := u, phase := ph }] := by
  unfold Queue.write
  dsimp only
  rw [Queue.advance_posted]
  split_ifs
  · exact ⟨[], _, _, by rw [List.append_nil]⟩
  · exact ⟨[x.padEntry (x.padUnits e.units)], _, _, by rw [Queue.advance_posted]⟩

theorem Queue.write_held (x : Queue) (e : RingEntry) : (x.write e).held = x.held := by
  unfold Queue.write
  dsimp only
  rw [Queue.advance_held]
  split_ifs
  · rfl
  · exact Queue.advance_held ..

/-! ## Events posted (R234, R440) -/

theorem State.postEvent_facts (s : State) (f : Nat) (n : BitVec 32) (e : Event) :
    (s.postEvent f n e).raised = s.raised ∧ Bar4Only s (s.postEvent f n e) := by
  unfold State.postEvent
  split
  · exact ⟨rfl, .of_funcs rfl⟩
  next q _ =>
    obtain ⟨-, -, raised, funcs⟩ := s.post_facts q (eventEntry n e) true
    exact ⟨raised, funcs⟩

/-- What an event that reaches function `f` does to the events that wait, to the number of `f` and to those of the others. -/
theorem State.routeEvent_facts (s : State) (e : Event) (f : Nat) :
    (s.routeEvent e f).raised = s.raised ∧ (∀ g, g ≠ f → ((s.routeEvent e f).func g).evNo = (s.func g).evNo) ∧
      ((s.routeEvent e f).func f).evNo =
        if (s.func f).mask.getLsbD e.kind = true ∧ (s.func f).evQueue ≠ none then (s.func f).evNo + 1 else (s.func f).evNo := by
  unfold State.routeEvent
  extract_lets g n s1
  have own : (s1.func f).evNo = (s.func f).evNo + 1 := by rw [State.func_modFunc_same]
  have others (k : Nat) (hk : k ≠ f) : (s1.func k).evNo = (s.func k).evNo := by rw [State.func_modFunc_other _ _ hk]
  have more (h : Func → Func) (hh : ∀ x, (h x).evNo = x.evNo) : (s1.modFunc f h).raised = s.raised ∧
      (∀ k, k ≠ f → ((s1.modFunc f h).func k).evNo = (s.func k).evNo) ∧
      ((s1.modFunc f h).func f).evNo = (s.func f).evNo + 1 := by
    refine ⟨rfl, fun k hk => ?_, ?_⟩
    · rw [State.func_modFunc_other _ _ hk, others k hk]
    · rw [State.func_modFunc_same, hh, own]
  by_cases routed : g.mask.getLsbD e.kind = true ∧ g.evQueue ≠ none
  · rw [if_neg (by simpa [Option.isNone_iff_eq_none] using routed), if_pos routed]
    split_ifs
    · obtain ⟨raised, funcs⟩ := s1.postEvent_facts f n e
      exact ⟨raised, fun k hk => (funcs.evNo k).trans (others k hk), (funcs.evNo f).trans own⟩
    · exact more _ fun _ => rfl
    · exact more _ fun _ => rfl
  · rw [if_pos (by simpa [Option.isNone_iff_eq_none, or_iff_not_imp_left] using routed), if_neg routed]
    exact ⟨rfl, fun _ _ => rfl, rfl⟩

/-- The functions an event goes to: function 0, once, and virtual ones. -/
theorem State.eventFuncs_eq (s : State) (e : Event) : ∃ l, s.eventFuncs e = 0 :: l ∧ 0 ∉ l := by
  refine ⟨_, rfl, ?_⟩
  split_ifs
  · simp
  · simp +contextual [List.mem_eraseDups]

/-- The oldest raised event leaves the wait, and takes a number of function 0 where it is routed there. -/
theorem State.routeAll_facts (s : State) (e : Event) :
    ((s.eventFuncs e).foldl (fun s f => s.routeEvent e f) s).raised = s.raised ∧
      (((s.eventFuncs e).foldl (fun s f => s.routeEvent e f) s).func 0).evNo =
        if (s.func 0).mask.getLsbD e.kind = true ∧ (s.func 0).evQueue ≠ none then (s.func 0).evNo + 1 else (s.func 0).evNo := by
  obtain ⟨l, hl, h0⟩ := s.eventFuncs_eq e
  obtain ⟨raised, -, own⟩ := s.routeEvent_facts e 0
  rw [hl, List.foldl_cons, ← own, ← raised]
  refine List.foldlRecOn (motive := fun t : State => t.raised = _ ∧ (t.func 0).evNo = _) l _ ⟨rfl, rfl⟩ fun t ht f hf => ?_
  obtain ⟨raised, others, -⟩ := t.routeEvent_facts e f
  exact ⟨raised.trans ht.1, (others 0 fun h => h0 (h ▸ hf)).trans ht.2⟩

/-- A held event is posted under the number it has. -/
theorem State.postHeld_facts {s : State} {f : Nat} {h : BitVec 32 × Event} {r : List (BitVec 32 × Event)}
    (hh : (s.func f).held = h :: r) :
    ((s.postHeld f).func f).held = r ∧ ((s.postHeld f).func f).evNo = (s.func f).evNo ∧ (s.postHeld f).raised = s.raised := by
  have he : s.postHeld f = (s.modFunc f fun g => { g with held := r }).postEvent f h.1 h.2 := by
    unfold State.postHeld
    dsimp only
    rw [hh]
  obtain ⟨raised, funcs⟩ := (s.modFunc f fun g => { g with held := r }).postEvent_facts f h.1 h.2
  rw [he, funcs.held, funcs.evNo, State.func_modFunc_same]
  exact ⟨rfl, rfl, raised⟩

theorem OnlyReplies.func {s t : State} (h : OnlyReplies s t) (f : Nat) : t.func f = s.func f := by
  rw [h]
  rfl

theorem le_length (n x : Nat) : (le n x).length = n := by
  induction n generalizing x with
  | zero => rfl
  | succ n ih => simp [le, ih]

/-- DEVICE_INFO answers the 160 bytes of Table 9-20. -/
theorem State.deviceInfo_length (s : State) : s.deviceInfo.length = 160 := by
  have dies : ((List.range 8).flatMap fun d => le 4 (s.dieMib d).1 ++ le 4 (s.dieMib d).2).length = 64 := by
    simp only [List.length_flatMap, List.length_append, le_length, List.map_const', List.length_range, List.sum_replicate]
    rfl
  unfold State.deviceInfo
  extract_lets p n usable
  simp only [List.length_append, le_length, zeros, List.length_replicate, dies]

/-- A reply that is due leaves the wait for the ring, or for nothing where the host port is down (R236). -/
theorem exec_replyPost {s : State} {q : Nat} {r : Reply} {rest : List Reply} (hq : q < 8192) (hh : (s.queue q).held = r :: rest)
    (due : s.hostUp = true → (s.func (s.queue q).func).d3 = false ∧ (s.queue q).room r.units = true) :
    exec (.replyPost q) s = .next (s.postReply q) := by
  refine event_next (by simpa using hq) ?_
  rw [State.replyDue, hh]
  cases hu : s.hostUp with
  | false => rfl
  | true => simp [due hu]

/-- Settles O16: replies and events go through `State.post_facts`, the events of a step through `State.routeAll_facts`. -/
theorem postingCommands : Obligations.PostingCommands := by
  refine ⟨?reply, ?config, ?info, ?timer, ?raised, ?held⟩
  case reply =>
    intro s q r rest hq hh due
    refine ⟨_, exec_replyPost hq hh due, ?_⟩
    set s1 := s.modQueue q fun x => { x with held := rest } with hs1
    have own : s1.queue q = { s.queue q with held := rest } := State.queue_modQueue_same ..
    have others (j : Nat) (hj : j ≠ q) : s1.queue j = s.queue j := State.queue_modQueue_other _ _ hj
    rw [State.postReply, hh]
    dsimp only
    cases hu : s.hostUp with
    | false =>
      rw [if_neg (by simp)]
      exact ⟨by rw [own], others, fun _ => by rw [own], nofun⟩
    | true =>
      rw [if_pos rfl]
      obtain ⟨⟨n, posted⟩, rest', -⟩ := s1.post_facts q ((s1.queue q).entryOf r) r.irq
      obtain ⟨l, u, ph, hw⟩ := (s1.queue q).write_posted ((s1.queue q).entryOf r)
      refine ⟨?_, fun j hj => (rest' j hj).trans (others j hj), nofun, fun _ => ?_⟩
      · rw [posted]
        exact (Queue.write_held ..).trans (by rw [own])
      · rw [posted]
        exact ⟨l, _, hw.trans (by rw [own]), rfl, rfl, rfl, rfl, rfl, rfl, rfl⟩
  case config =>
    intro s p f q mask hq hdue hperm hf hok
    have passes : firstOf [badAt (decide (63 < f)) 0, badAt (q != 0xFFFF && !(s.eventQueueOk f q)) 2] = none := by
      refine firstOf_eq_none.mpr ?_
      obtain rfl | hok := hok <;> simp [badAt, *] <;> omega
    refine ⟨_, opcode_next hdue hperm passes, hq.ok_of (by rfl) _, by simp, ?_, fun g hg => ?_⟩
    · rw [(State.onlyReplies_ok ..).func, State.func_modFunc_same]
    · rw [(State.onlyReplies_ok ..).func, State.func_modFunc_other _ _ hg]
  case info =>
    intro s p hq hdue hperm
    exact ⟨_, opcode_next hdue hperm rfl, s.onlyReplies_finish .., hq.finish .., s.deviceInfo_length⟩
  case timer =>
    intro s q hq ht
    refine ⟨_, event_next (by simpa using hq) ht, ?_, fun hv hm => State.raiseVec_msix hv hm⟩
    rw [State.queue, doIrqCoalesceTimer, State.raiseVec_queues]
    exact State.queue_modQueue_same ..
  case raised =>
    intro s e r hd hr
    refine ⟨_, event_next rfl (by simp [hr]), ?_⟩
    rw [doEventPost, hd, hr]
    exact State.routeAll_facts { s with raised := r } e
  case held =>
    intro s f h r hd hh
    refine ⟨_, event_next rfl (by simp [hd]), ?_⟩
    rw [doEventPost, hd]
    exact State.postHeld_facts hh

end Sys2Proof.Machine

namespace Sys2Proof.Machine

/-! ## What the end of a tenant does to queues (R222, R230)

The operations that end contexts, sequences, knots, regions and keys answer packets: they put replies behind those that a queue
holds, and no queue changes its state. -/

/-- The queue's state is as it was, and its held replies are still there, oldest first. -/
def Queue.Grows (x y : Queue) : Prop := y.st = x.st ∧ ∃ l, y.held = x.held ++ l

theorem Queue.Grows.refl (x : Queue) : x.Grows x := ⟨rfl, [], by simp⟩

theorem Queue.Grows.trans {x y z : Queue} (h : x.Grows y) (g : y.Grows z) : x.Grows z := by
  obtain ⟨hst, l, hl⟩ := h
  obtain ⟨gst, m, hm⟩ := g
  exact ⟨gst.trans hst, l ++ m, by rw [hm, hl, List.append_assoc]⟩

/-- Queues only gain replies, and the host link and the pins are as they were. -/
def Answered (s t : State) : Prop := t.hostUp = s.hostUp ∧ t.pins = s.pins ∧ ∀ q, (s.queue q).Grows (t.queue q)

section
variable {s t u : State}

theorem Answered.refl (s : State) : Answered s s := ⟨rfl, rfl, fun _ => .refl _⟩

theorem Answered.trans (h : Answered s t) (g : Answered t u) : Answered s u := by
  obtain ⟨hup, hpins, hq⟩ := h
  obtain ⟨gup, gpins, gq⟩ := g
  exact ⟨gup.trans hup, gpins.trans hpins, fun q => (hq q).trans (gq q)⟩

/-- The same, the later operation first: the order in which the operations nest. -/
theorem Answered.after (g : Answered t u) (h : Answered s t) : Answered s u := h.trans g

/-- What writes neither queues nor pins nor the link answers nothing. -/
theorem Answered.of_eq (h : (t.hostUp, t.pins, t.queues) = (s.hostUp, s.pins, s.queues)) : Answered s t := by
  simp only [Prod.mk.injEq] at h
  obtain ⟨hup, hpins, hq⟩ := h
  exact ⟨hup, hpins, fun q => by rw [State.queue, State.queue, hq]; exact .refl _⟩

theorem Answered.foldl {α : Type} {g : State → α → State} (h : ∀ s a, Answered s (g s a)) (l : List α) (s : State) :
    Answered s (l.foldl g s) :=
  List.foldlRecOn l g (Answered.refl s) fun t ht a _ => ht.trans (h t a)

theorem DiesOnly.answered (h : DiesOnly s t) : Answered s t := by
  rw [h]
  exact .of_eq rfl

end

theorem State.modQueue_answered (s : State) (q : Nat) {f : Queue → Queue} (h : (s.queue q).Grows (f (s.queue q))) :
    Answered s (s.modQueue q f) := by
  refine ⟨rfl, rfl, fun j => ?_⟩
  by_cases hj : j = q
  · rw [hj, State.queue_modQueue_same]
    exact h
  · rw [State.queue_modQueue_other _ _ hj]
    exact .refl _

theorem State.addReplies_answered (s : State) (q : Nat) (l : List Reply) : Answered s (s.addReplies q l) := by
  unfold State.addReplies
  split
  · exact .of_eq rfl
  · refine s.modQueue_answered q ?_
    split
    · exact .refl _
    · exact ⟨rfl, l, rfl⟩

theorem State.complete_answered (s : State) (p : Pkt) : Answered s (s.complete p) := by
  unfold State.complete
  split
  · exact .of_eq rfl
  · refine s.modQueue_answered _ ?_
    split
    · exact ⟨rfl, [], by simp⟩
    · exact ⟨rfl, [], by simp⟩

theorem State.finish_answered (s : State) (code : Nat) (p : Pkt) (st : Status) (det : Nat) (a b : List Byte) :
    Answered s (s.finish code p st det a b) := by
  unfold State.finish State.finishMany
  dsimp only
  split
  · exact s.complete_answered p
  · exact (s.complete_answered p).trans (State.addReplies_answered ..)

theorem State.ok_answered (s : State) (code : Nat) (p : Pkt) : Answered s (s.ok code p) := s.finish_answered ..

/-! ### Keys, contexts and knots -/

theorem State.settleKey_answered (s : State) (k : Pkt × Nat × List Nat) : Answered s (s.settleKey k) := by
  have cleared := (s.clearKeys_diesOnly k).answered
  obtain h | h | ⟨l, h⟩ := s.settleKey_cases k
  · rwa [h]
  · rw [h]
    exact cleared.trans (State.ok_answered ..)
  · rw [h]
    exact cleared.trans (.of_eq rfl)

theorem State.settleKeys_answered (s : State) : Answered s s.settleKeys :=
  Answered.after (.foldl (fun s k => s.settleKey_answered k) _ _) (.of_eq rfl)

theorem State.drained_answered (s : State) (d c : Nat) (l : List CRec) : Answered s (s.drained d c l) := by
  unfold State.drained
  split
  · exact .refl s
  · split
    · exact .refl s
    · exact .of_eq rfl

theorem State.endCtx_answered (s : State) (d c : Nat) (st : Status) : Answered s (s.endCtx d c st) := by
  unfold State.endCtx
  split
  · exact .refl s
  · refine Answered.after (.of_eq rfl) ?_
    dsimp only
    split
    · exact s.drained_answered ..
    · split
      · exact s.drained_answered ..
      · exact (s.drained_answered ..).trans (.of_eq rfl)

theorem State.haltOn_answered (s : State) (d : Nat) (k : TileKind) (t : Nat) (st : Status) :
    Answered s (s.haltOn d k t st) := by
  unfold State.haltOn
  split
  · exact .refl s
  · exact .of_eq rfl

theorem State.orphan_answered (s : State) (d c : Nat) (st : Status) : Answered s (s.orphan d c st) := by
  unfold State.orphan
  split
  · exact .refl s
  · split
    · split
      · exact (s.haltOn_answered ..).trans (.of_eq rfl)
      · refine Answered.after (.of_eq rfl) (Answered.after (.of_eq rfl) (Answered.after (State.endCtx_answered ..) ?_))
        exact .of_eq rfl
    · exact .of_eq rfl
    all_goals exact .refl s

theorem State.untieOne_answered (s : State) (d k : Nat) : Answered s (s.untieOne d k).1 := by
  refine Answered.after (.foldl (fun s (w : Nat × BitVec 64) => s.orphan_answered d w.1 _) _ _) ?_
  refine Answered.after (.foldl (fun s (w : Pkt × BitVec 64) => s.finish_answered 0x0503 w.1 _ _ _ _) _ _) ?_
  exact .of_eq rfl

theorem State.unwind_answered (d : Nat) : ∀ (n : Nat) (l : List Nat) (s : State), Answered s (State.unwind d n l s)
  | 0, _, s => by
    unfold State.unwind
    exact .refl s
  | _ + 1, [], s => by
    unfold State.unwind
    exact .refl s
  | n + 1, c :: r, s => by
    have step (l : List Nat) (p : State × List Nat) : Answered p.1 (l.foldl (fun (p : State × List Nat) k =>
        ((p.1.untieOne d k).1, p.2 ++ (p.1.untieOne d k).2)) p).1 := by
      induction l generalizing p with
      | nil => exact .refl _
      | cons k l ih => exact (State.untieOne_answered ..).trans (ih _)
    unfold State.unwind
    exact (step _ (s, [])).trans (State.unwind_answered d n _ _)

theorem State.destroyCtx_answered (s : State) (d c : Nat) (st : Status) : Answered s (s.destroyCtx d c st) := by
  unfold State.destroyCtx
  split
  · exact .refl s
  · refine Answered.after (State.unwind_answered ..) (Answered.after (.of_eq rfl) (s.endCtx_answered d c st))

theorem State.untie_answered (s : State) (d k : Nat) : Answered s (s.untie d k) :=
  (s.untieOne_answered d k).trans (State.unwind_answered ..)

/-! ### Regions, tenants, queues -/

theorem State.endActs_answered (s : State) (d r : Nat) : Answered s (s.endActs d r) :=
  Answered.after (.of_eq rfl) (.foldl (fun s (a : ClkAct) => s.finish_answered _ a.pkt _ _ _ _) _ _)

theorem State.endSession_answered (s : State) (d r : Nat) (st : Status) (det : Nat) (now : Option Pkt) :
    Answered s (s.endSession d r st det now) := by
  unfold State.endSession
  split
  · exact .refl s
  · dsimp only
    split
    · exact Answered.after (State.finish_answered ..) (.of_eq rfl)
    · split
      · exact Answered.after (State.finish_answered ..) (.of_eq rfl)
      · exact .of_eq rfl

theorem State.unconfigureRegion_answered (s : State) (d r : Nat) : Answered s (s.unconfigureRegion d r) := by
  unfold State.unconfigureRegion
  dsimp only
  split
  · split
    · exact (s.endActs_answered d r).trans (State.endSession_answered ..)
    · exact Answered.after (.of_eq rfl) ((s.endActs_answered d r).trans (State.endSession_answered ..))
  · exact Answered.after (.of_eq rfl) (s.endActs_answered d r)

theorem State.closeSeq_answered (s : State) (n : Nat) : Answered s (s.closeSeq n) := .of_eq rfl

theorem State.removeModel_answered (s : State) (i : Nat) : Answered s (s.removeModel i) := .of_eq rfl

theorem State.endTenant_answered (s : State) (t : Nat) : Answered s (s.endTenant t) := by
  unfold State.endTenant
  extract_lets ds s1 s2 s3 s4 s5 keyed pk
  have h1 : Answered s s1 := .foldl (fun s d => .foldl (fun s c => s.destroyCtx_answered d c .ownerLost) _ s) _ _
  have h2 : Answered s1 s2 := .foldl (fun s n => s.closeSeq_answered n) _ _
  have h3 : Answered s2 s3 := .foldl (fun s d => .foldl (fun s k => s.untie_answered d k) _ s) _ _
  have h4 : Answered s3 s4 := .foldl (fun s d => .foldl (fun s r => s.unconfigureRegion_answered d r) _ s) _ _
  have h5 : Answered s4 s5 := .foldl (fun s i => s.removeModel_answered i) _ _
  have h6 : Answered s5 { s5 with keyWaits := s5.keyWaits ++ [(pk, t, keyed)] } := .of_eq rfl
  exact h1.trans <| h2.trans <| h3.trans <| h4.trans <| h5.trans <| h6.trans (State.settleKeys_answered _)

theorem State.settleTenant_answered (s : State) (t : Nat) : Answered s (s.settleTenant t) := by
  unfold State.settleTenant
  split
  · exact .refl s
  · split
    · exact .refl s
    · split
      · exact Answered.after (State.ok_answered ..) (Answered.after (.of_eq rfl) (s.endTenant_answered t))
      · exact .refl s

/-- After a queue is DISABLED, what waited for it only answers packets. -/
theorem State.dropQueue_answered (s : State) (q : Nat) : Answered (s.setQueue q (s.queue q).disable) (s.dropQueue q) := by
  unfold State.dropQueue
  dsimp only
  refine Answered.after (State.settleTenant_answered ..) ?_
  split
  · exact State.ok_answered ..
  · exact .refl _

/-- Queue `q` is DISABLED, and so is every queue that was. -/
theorem State.dropQueue_disabled (s : State) (q j : Nat) (h : j = q ∨ (s.queue j).st = .disabled) :
    ((s.dropQueue q).queue j).st = .disabled := by
  obtain ⟨-, -, grows⟩ := s.dropQueue_answered q
  obtain ⟨hst, -⟩ := grows j
  rw [hst]
  by_cases hj : j = q
  · rw [hj, State.queue_setQueue_same]
    rfl
  · rw [State.queue_setQueue_other _ _ hj]
    exact h.resolve_left hj

end Sys2Proof.Machine

namespace Sys2Proof.Machine

/-! ## The control block as the host writes it (R214, R216 to R218, R222) -/

theorem bitAt_toNat {w : Nat} (v : BitVec w) (i : Nat) : bitAt v.toNat i = v.getLsbD i := by
  rw [BitVec.getLsbD, Nat.testBit_eq_decide_div_mod_eq]
  rfl

/-- A queue in ERROR has raised one event. -/
theorem State.queueError_facts (s : State) (q : Nat) (f : Queue → Queue) :
    (s.queueError q f).queue q = { f (s.queue q) with st := .error } ∧
      (∀ j, j ≠ q → (s.queueError q f).queue j = s.queue j) ∧
      (s.queueError q f).raised.length = s.raised.length + 1 := by
  unfold State.queueError
  extract_lets s1
  obtain ⟨-, -, hq, -⟩ := s1.emit_frame (queueErrorEvent q (s1.queue q).stat)
  refine ⟨?_, fun j hj => ?_, State.emit_raised_length ..⟩
  · rw [State.queue, hq]
    exact State.queue_modQueue_same ..
  · rw [State.queue, hq]
    exact State.queue_modQueue_other _ _ hj

theorem State.ringDoorbell_facts {s : State} {q : Nat} (hst : (s.queue q).st = .enabled) (v : Nat) :
    ((s.ringDoorbell q v).queue q).wr = v % 512 ∧ ((s.ringDoorbell q v).queue q).rd = (s.queue q).rd ∧
      (∀ j, j ≠ q → (s.ringDoorbell q v).queue j = s.queue j) ∧
      ((v % 512 + 512 - (s.queue q).rd) % 512 ≤ 256 →
        ((s.ringDoorbell q v).queue q).st = .enabled ∧ (s.ringDoorbell q v).raised = s.raised) ∧
      (256 < (v % 512 + 512 - (s.queue q).rd) % 512 →
        ((s.ringDoorbell q v).queue q).st = .error ∧ ((s.ringDoorbell q v).queue q).errWin = true) := by
  have held : ((s.modQueue q fun x => { x with wr := v % 512 }).queue q).winHeld =
      (v % 512 + 512 - (s.queue q).rd) % 512 := by
    rw [State.queue_modQueue_same]
    rfl
  unfold State.ringDoorbell
  dsimp only
  rw [if_pos hst, held]
  split_ifs with full
  · obtain ⟨own, others, -⟩ := State.queueError_facts (s.modQueue q fun x => { x with wr := v % 512 }) q
      fun x => { x with errWin := true }
    rw [own, State.queue_modQueue_same]
    exact ⟨rfl, rfl, fun j hj => (others j hj).trans (State.queue_modQueue_other _ _ hj), fun h => absurd full (by omega),
      fun _ => ⟨rfl, rfl⟩⟩
  · rw [State.queue_modQueue_same]
    exact ⟨rfl, rfl, fun j hj => State.queue_modQueue_other _ _ hj, fun _ => ⟨hst, rfl⟩, fun h => absurd h full⟩

/-- QRCTL of a DISABLED queue with `qenable`, without `qreset`, and a size of Table 9-6. -/
theorem Queue.writeCtl_enables {x : Queue} (hst : x.st = .disabled) {v : BitVec 32} (h9 : v.getLsbD 9 = false)
    (h8 : v.getLsbD 8 = true) (hlo : 19 ≤ v.toNat % 32) (hhi : v.toNat % 32 ≤ 26) :
    x.writeCtl v.toNat = { x with log2size := v.toNat % 32, st := .enabled, posted := [] } := by
  have size : bitsOf v.toNat 4 0 = v.toNat % 32 := by simp [bitsOf]
  simp only [Queue.writeCtl, bitAt_toNat, h9, h8, hst, size, hlo, hhi, Bool.false_eq_true, if_false, if_true, decide_true,
    Bool.and_self]

theorem Queue.writeCtl_resets (x : Queue) {v : BitVec 32} (h9 : v.getLsbD 9 = true) : x.writeCtl v.toNat = x.qreset := by
  simp only [Queue.writeCtl, bitAt_toNat, h9, if_true]

theorem queueOk_of {f q : Nat} (hf : f < 64) (hq : q < 8192) : queueOk f q = true := by simp [queueOk, hf, hq]

theorem State.hostUp_of_hostReaches {s : State} {f : Nat} (h : s.hostReaches f = true) : s.hostUp = true := by
  simp only [State.hostReaches, Bool.and_eq_true] at h
  exact h.1

/-- The word that a function writes of its own queue's control block, with the write counted. -/
theorem State.hostReg_eq {s : State} {f q : Nat} (hr : s.hostReaches f = true) (hf : (s.queue q).func = f) (o v : Nat) :
    s.hostReg f q o v = s.countIn.qcbWrite q o v := by
  simp [State.hostReg, hr, hf]

theorem State.queue_countIn (s : State) (q : Nat) : s.countIn.queue q = s.queue q := rfl

theorem State.qcbWrite_head (s : State) (q v : Nat) :
    s.qcbWrite q 0x18 v = s.setQueue q { s.queue q with head := bitsOf v 19 0 } := rfl

theorem State.qcbWrite_ctl (s : State) (v : Nat) : s.qcbWrite 0 0x14 v = s.setQueue 0 ((s.queue 0).writeCtl v) := rfl

theorem State.qcbWrite_doorbell (s : State) (q v : Nat) : s.qcbWrite q 0x00 v = s.ringDoorbell q v := rfl

/-! ## The window (R216, R376) -/

section
variable {s : State} {f q : Nat} (hf : (s.queue q).func = f) (hst : (s.queue q).st = .enabled)
include hf hst

theorem State.windowByte_eq {a : Nat} (ha : a < 16384) (b : Byte) :
    s.windowByte f (q * 16384 + a) b = s.modQueue q fun x => { x with window := mwrite x.window a b } := by
  have hq : (q * 16384 + a) / 16384 = q := by omega
  have ho : (q * 16384 + a) % 16384 = a := by omega
  simp [State.windowByte, hq, ho, hf, hst, State.modQueue]

/-- The bytes of a write into an ENABLED queue's window stand there, and nothing else of the queues changes. -/
theorem State.windowBytes_facts (data : List Byte) (o k : Nat) (fits : o + k + data.length ≤ 16384) :
    ((data.zipIdx k).foldl (fun s e => s.windowByte f (q * 16384 + o + e.2) e.1) s).queue q =
        { s.queue q with window := mwriteN (s.queue q).window (o + k) data } ∧
      ∀ j, j ≠ q → ((data.zipIdx k).foldl (fun s e => s.windowByte f (q * 16384 + o + e.2) e.1) s).queue j = s.queue j := by
  induction data generalizing s k with
  | nil => exact ⟨rfl, fun _ _ => rfl⟩
  | cons b r ih =>
    rw [List.length_cons] at fits
    have one : s.windowByte f (q * 16384 + o + k) b = s.modQueue q fun x => { x with window := mwrite x.window (o + k) b } := by
      rw [Nat.add_assoc]
      exact State.windowByte_eq hf hst (by omega) b
    have own : (s.windowByte f (q * 16384 + o + k) b).queue q =
        { s.queue q with window := mwrite (s.queue q).window (o + k) b } := by
      rw [one, State.queue_modQueue_same]
    obtain ⟨rest, others⟩ := ih (s := s.windowByte f (q * 16384 + o + k) b) (by rw [own]; exact hf) (by rw [own]; exact hst) (k + 1) (by omega)
    rw [List.zipIdx_cons, List.foldl_cons]
    refine ⟨rest.trans ?_, fun j hj => (others j hj).trans ?_⟩
    · rw [own]
      rfl
    · rw [one, State.queue_modQueue_other _ _ hj]

end

/-- A host write of BAR0 that fits in one queue's window. -/
theorem exec_hostBarWrite {s : State} {f q o : Nat} {data : List Byte} (hf : f < 64) (hq : q < 8192)
    (fits : o + data.length ≤ 16384) (hr : s.hostReaches f = true) (replays : Nat) :
    ∃ u, DiesOnly s u ∧ exec (.hostBarWrite f 0 (q * 16384 + o) data false replays) s =
      .next (data.zipIdx.foldl (fun s e => s.windowByte f (q * 16384 + o + e.2) e.1) u) := by
  refine ⟨(s.modDie 0 fun x => x.count hpReplays 0 replays).countIn, (DiesOnly.modDie ..).trans (DiesOnly.modDie ..), ?_⟩
  refine (event_next ?_ (State.hostUp_of_hostReaches hr)).trans ?_
  · simp [hf, barSize]
    omega
  · have reaches : (s.modDie 0 fun x => x.count hpReplays 0 replays).hostReaches f = true := hr
    simp [doHostBarWrite, reaches, State.barWrite]

/-! ## Resets of the host port (R236, R377) -/

/-- A queue that is not DISABLED is listed. -/
theorem State.queue_listed {s : State} {q : Nat} (h : (s.queue q).st ≠ .disabled) : (q, s.queue q) ∈ s.queues := by
  cases hf : tfind s.queues q with
  | none => exact absurd (by rw [State.queue, tget, hf]; rfl) h
  | some x =>
    rw [State.queue, tget, hf]
    exact mem_of_tfind hf

theorem State.dropQueue_frame (s : State) (q : Nat) : (s.dropQueue q).hostUp = s.hostUp ∧ (s.dropQueue q).pins = s.pins := by
  obtain ⟨hup, hpins, -⟩ := s.dropQueue_answered q
  exact ⟨hup, hpins⟩

/-- Queues dropped one after the other: all of them, and those that were, are DISABLED. -/
theorem State.dropQueues_facts (l : List Nat) (s : State) :
    (l.foldl (fun s q => s.dropQueue q) s).hostUp = s.hostUp ∧ (l.foldl (fun s q => s.dropQueue q) s).pins = s.pins ∧
      ∀ j, j ∈ l ∨ (s.queue j).st = .disabled → ((l.foldl (fun s q => s.dropQueue q) s).queue j).st = .disabled := by
  induction l generalizing s with
  | nil => exact ⟨rfl, rfl, fun j hj => by simpa using hj⟩
  | cons q l ih =>
    obtain ⟨hup, hpins⟩ := s.dropQueue_frame q
    obtain ⟨rup, rpins, rest⟩ := ih (s.dropQueue q)
    refine ⟨rup.trans hup, rpins.trans hpins, fun j hj => rest j ?_⟩
    rw [List.mem_cons, or_assoc] at hj
    obtain rfl | hj | hj := hj
    · exact .inr (s.dropQueue_disabled j j (.inl rfl))
    · exact .inl hj
    · exact .inr (s.dropQueue_disabled q j (.inr hj))

/-- A hot reset leaves every queue DISABLED, and the link and the pins as they were. -/
theorem State.flrAll_facts (s : State) :
    s.flrAll.hostUp = s.hostUp ∧ s.flrAll.pins = s.pins ∧ ∀ q, (s.flrAll.queue q).st = .disabled := by
  unfold State.flrAll
  extract_lets qs s1
  obtain ⟨hup, hpins, disabled⟩ := State.dropQueues_facts qs s
  refine ⟨hup, hpins, fun q => disabled q ?_⟩
  refine or_iff_not_imp_right.mpr fun h => List.mem_map.mpr ⟨_, List.mem_filter.mpr ⟨State.queue_listed h, ?_⟩, rfl⟩
  simp [h]

/-- The reset of a virtual function leaves its queues DISABLED and its events unrouted. -/
theorem State.flrOne_facts (s : State) {f : Nat} (h0 : 0 < f) :
    (∀ q, (s.queue q).func = f → ((s.flrOne f).queue q).st = .disabled) ∧ ((s.flrOne f).func f).held = [] ∧
      ((s.flrOne f).func f).evQueue = none ∧ ((s.flrOne f).func f).d3 = false := by
  have hf : f ≠ 0 := by omega
  unfold State.flrOne
  extract_lets qs
  obtain ⟨-, -, disabled⟩ := State.dropQueues_facts qs s
  rw [State.func_modFunc_same]
  refine ⟨fun q hq => ?_, ?_, ?_, rfl⟩
  · rw [State.queue_modFunc]
    refine disabled q (or_iff_not_imp_right.mpr fun h => ?_)
    exact List.mem_map.mpr ⟨_, List.mem_filter.mpr ⟨State.queue_listed h, by simp [h, hq]⟩, rfl⟩
  · simp [Func.flr, Func.portReset, Func.dropHeld, hf]
  · simp [Func.flr, Func.portReset, Func.dropHeld, Func.rerouted, Func.reset, hf]

/-- Settles O15: the writes of a control block are read off `State.qcbWrite`, those of a window off `State.windowBytes_facts`, and
the resets drop queues one by one (`State.dropQueues_facts`). -/
theorem hostPortCommands : Obligations.HostPortCommands := by
  refine ⟨⟨?doorbell, ?head, ?enable, ?reset, ?window⟩, ⟨?perstLow, ?perstHigh, ?hot, ?flr0, ?flr, ?d3in, ?d3out⟩⟩
  case doorbell =>
    intro s f q v hf hq hr hfn hst
    refine ⟨_, event_next (queueOk_of hf hq) (State.hostUp_of_hostReaches hr), ?_⟩
    rw [State.hostReg_eq hr hfn, State.qcbWrite_doorbell]
    exact State.ringDoorbell_facts (s := s.countIn) hst v.toNat
  case head =>
    intro s f q v hf hq hr hfn
    refine ⟨_, event_next (queueOk_of hf hq) (State.hostUp_of_hostReaches hr), ?_⟩
    rw [State.hostReg_eq hr hfn, State.qcbWrite_head, State.queue_countIn]
    refine ⟨(State.queue_setQueue_same ..).trans ?_, fun j hj => State.queue_setQueue_other _ _ hj⟩
    simp [bitsOf]
  case enable =>
    intro s f v hf hr hfn hst h9 h8 hlo hhi
    refine ⟨_, event_next (queueOk_of hf (by decide)) (State.hostUp_of_hostReaches hr), ?_⟩
    rw [State.hostReg_eq hr hfn, State.qcbWrite_ctl, State.queue_countIn, Queue.writeCtl_enables hst h9 h8 hlo hhi]
    beta_reduce
    rw [State.queue_setQueue_same]
    exact ⟨rfl, rfl, fun j hj => State.queue_setQueue_other _ _ hj⟩
  case reset =>
    intro s f v hf hr hfn h9
    refine ⟨_, event_next (queueOk_of hf (by decide)) (State.hostUp_of_hostReaches hr), ?_⟩
    rw [State.hostReg_eq hr hfn, State.qcbWrite_ctl, Queue.writeCtl_resets _ h9]
    beta_reduce
    rw [State.queue_setQueue_same]
    exact ⟨rfl, rfl, rfl, rfl, rfl, rfl, rfl, rfl, fun j hj => State.queue_setQueue_other _ _ hj⟩
  case window =>
    intro s f q o replays data hf hq fits hr hfn hst
    obtain ⟨u, hu, runs⟩ := exec_hostBarWrite hf hq fits hr replays
    have same (j : Nat) : u.queue j = s.queue j := by rw [State.queue, hu.queues, State.queue]
    obtain ⟨own, others⟩ := State.windowBytes_facts (s := u) (f := f) (q := q) (by rw [same]; exact hfn) (by rw [same]; exact hst)
      data o 0 (by omega)
    rw [same, Nat.add_zero] at own
    refine ⟨_, runs, ?_, fun a ha => ?_, by rw [own], fun j hj => (others j hj).trans (same j)⟩
    · rw [own]
      exact mreadN_mwriteN ..
    · rw [own]
      exact mread_mwriteN_outside _ _ _ _ ha
  case perstLow =>
    intro s
    refine ⟨_, event_next rfl rfl, ?_⟩
    obtain ⟨hup, hpins, disabled⟩ := State.flrAll_facts { s with pins := { s.pins with perstN := false }, hostUp := false }
    exact ⟨hup, congrArg Pins.perstN hpins, disabled⟩
  case perstHigh => exact fun s => ⟨_, event_next rfl rfl, rfl, rfl, rfl, rfl⟩
  case hot =>
    intro s hup
    obtain ⟨-, -, disabled⟩ := s.flrAll_facts
    exact ⟨_, event_next rfl hup, disabled⟩
  case flr0 =>
    intro s hup
    obtain ⟨-, -, disabled⟩ := s.flrAll_facts
    exact ⟨_, event_next (by decide) hup, disabled⟩
  case flr =>
    intro s f hup h0 hf
    refine ⟨_, event_next (by simpa using hf) hup, ?_⟩
    rw [if_neg (by omega)]
    exact s.flrOne_facts h0
  case d3in =>
    intro s f hup hf
    exact ⟨_, event_next (by simpa using hf) hup, State.func_modFunc_same .., fun g hg => State.func_modFunc_other _ _ hg, rfl, rfl⟩
  case d3out =>
    intro s f hup hf hd3
    exact ⟨_, event_next (by simpa using hf) (by simp [hup, hd3]), State.func_modFunc_same ..,
      fun g hg => State.func_modFunc_other _ _ hg, rfl, rfl⟩

end Sys2Proof.Machine

namespace Sys2Proof.Machine

/-! ## Replies beside other queues (R222) -/

/-- A packet whose queue stands as it did, after something else has changed. -/
theorem OnQueue.finish_beside {s u : State} {p : Pkt} (h : OnQueue s p) (hu : u.queue p.queue = s.queue p.queue) (code : Nat)
    (a b : List Byte) : Replies s (u.finish code p .ok 0 a b) code p a b := by
  have ho : u.orphaned p = false := by simpa [State.orphaned, hu] using h.started
  rw [Replies, ← hu]
  exact u.finish_held code p .ok 0 a b h.ring (by rw [hu]; exact h.opened) ho (by simp [h.loud])

theorem State.complete_queue_other (s : State) (p : Pkt) {j : Nat} (h : j ≠ p.queue) : (s.complete p).queue j = s.queue j := by
  unfold State.complete
  split
  · rfl
  · exact State.queue_modQueue_other _ _ h

theorem State.addReplies_queue_other (s : State) {q j : Nat} (l : List Reply) (h : j ≠ q) :
    (s.addReplies q l).queue j = s.queue j := by
  unfold State.addReplies
  split
  · rfl
  · exact State.queue_modQueue_other _ _ h

/-- The end of a packet touches its own queue only. -/
theorem State.finish_queue_other (s : State) (code : Nat) (p : Pkt) (st : Status) (det : Nat) (a b : List Byte) {j : Nat}
    (h : j ≠ p.queue) : (s.finish code p st det a b).queue j = s.queue j := by
  unfold State.finish State.finishMany
  dsimp only
  split
  · exact s.complete_queue_other p h
  · exact (State.addReplies_queue_other _ _ h).trans (s.complete_queue_other p h)

/-- Replies of an open queue are held behind those it holds. -/
theorem State.addReplies_eq {s : State} {q : Nat} (hq : q ≠ mboxQueue) (hst : (s.queue q).st ≠ .disabled) (l : List Reply) :
    s.addReplies q l = s.modQueue q fun x => { x with held := x.held ++ l } := by
  simp [State.addReplies, hq, State.modQueue, hst]

/-! ## QUEUE_CREATE, QUEUE_DESTROY and QUEUE_DRAINED (R212, R213, R215, R230) -/

theorem Queue.destroyable_iff (x : Queue) : x.destroyable = true ↔ x.st = .enabled ∨ x.st = .error := by
  simp [Queue.destroyable]

/-- An open queue drains, its KNOT_WAITs withdrawn. -/
theorem State.drainQueue_eq {s : State} {q : Nat} (h : (s.queue q).destroyable = true) :
    s.drainQueue q = (s.withdrawWaits q).modQueue q fun x => { x with st := .draining } := by
  obtain h | h := (Queue.destroyable_iff _).mp h <;> simp [State.drainQueue, h]

theorem tget_tmapv {α : Type} (t : Tbl α) (f : Nat → α → α) (k : Nat) {d : α} (hd : f k d = d) :
    tget (tmapv t f) k d = f k (tget t k d) := by
  rw [tget, tget, tfind_tmapv]
  cases tfind t k with
  | none => exact hd.symm
  | some x => rfl

theorem State.withdrawWaits_hosts (s : State) (q d k : Nat) :
    (((s.withdrawWaits q).die d).knot k).hosts = ((s.die d).knot k).hosts.filter fun w => w.1.queue != q := by
  have hdie : (s.withdrawWaits q).die d = { s.die d with
      knots := tmapv (s.die d).knots fun _ k => { k with hosts := k.hosts.filter fun w => w.1.queue != q } } :=
    tget_tmapv s.dies (fun _ x => { x with
      knots := tmapv x.knots fun _ k => { k with hosts := k.hosts.filter fun w => w.1.queue != q } }) d rfl
  rw [hdie]
  exact congrArg Knot.hosts (tget_tmapv (s.die d).knots
    (fun _ k => { k with hosts := k.hosts.filter fun w => w.1.queue != q }) k rfl)

theorem State.withdrawWaits_held (s : State) (q : Nat) : ((s.withdrawWaits q).queue q).held = (s.queue q).held := by
  rw [State.withdrawWaits, State.queue_modQueue_same]
  rfl

/-- A queue under QUEUE_DESTROY drains for the packet, which is done at once where it came on the queue itself (log entry 26). -/
theorem doQueueDestroy_facts {s : State} {q : Nat} (p : Pkt) (h : (s.queue q).destroyable = true) :
    ((doQueueDestroy p q s).queue q).st = .draining ∧ ((doQueueDestroy p q s).queue q).destroyer = some p ∧
      ((doQueueDestroy p q s).queue q).held = (s.queue q).held ∧
      ∀ d k, (((doQueueDestroy p q s).die d).knot k).hosts = ((s.die d).knot k).hosts.filter fun w => w.1.queue != q := by
  unfold doQueueDestroy
  rw [State.drainQueue_eq h]
  extract_lets u
  have own : u.queue q = { (s.withdrawWaits q).queue q with st := .draining, destroyer := some p } := by
    rw [State.queue_modQueue_same, State.queue_modQueue_same]
  have hosts (d k : Nat) : ((u.die d).knot k).hosts = ((s.die d).knot k).hosts.filter fun w => w.1.queue != q :=
    s.withdrawWaits_hosts q d k
  split
  next hq =>
    have completed : ∃ l o, (u.complete p).queue q = { u.queue q with started := l, old := o } := by
      unfold State.complete
      split
      · exact ⟨_, _, rfl⟩
      · rw [hq, State.queue_modQueue_same]
        split <;> exact ⟨_, _, rfl⟩
    obtain ⟨l, o, hc⟩ := completed
    rw [hc, own]
    exact ⟨rfl, rfl, s.withdrawWaits_held q, fun d k => by rw [(u.onlyReplies_complete p).die]; exact hosts d k⟩
  next =>
    rw [own]
    exact ⟨rfl, rfl, s.withdrawWaits_held q, hosts⟩

/-- The QUEUE_DESTROY that waited for a queue is the first to be answered once the queue is DISABLED. -/
theorem State.dropQueue_destroyer {s : State} {q : Nat} {p : Pkt} (hd : (s.queue q).destroyer = some p) (hne : p.queue ≠ q)
    (hq : OnQueue s p) :
    ∃ l, ((s.dropQueue q).queue p.queue).held = (s.queue p.queue).held ++ [mkReply 0x0E02 p .ok 0 [] [] false] ++ l := by
  have he : s.dropQueue q = ((s.setQueue q (s.queue q).disable).ok 0x0E02 p).settleTenant (s.queue q).tenant := by
    simp [State.dropQueue, hd]
  have replied : Replies s ((s.setQueue q (s.queue q).disable).ok 0x0E02 p) 0x0E02 p [] [] :=
    hq.finish_beside (State.queue_setQueue_other _ _ hne) ..
  obtain ⟨-, -, grows⟩ := State.settleTenant_answered ((s.setQueue q (s.queue q).disable).ok 0x0E02 p) (s.queue q).tenant
  obtain ⟨-, l, hl⟩ := grows p.queue
  exact ⟨l, by rw [he, hl, replied]⟩

/-! ## PACKET_TAKE and PACKET_START (R216, R219, R221, R225) -/

theorem State.takeDue_enabled {s : State} {q : Nat} (h : s.takeDue q = true) : (s.queue q).st = .enabled := by
  simp only [State.takeDue, Bool.and_eq_true, beq_iff_eq] at h
  obtain ⟨⟨⟨-, hst⟩, -⟩, -⟩ := h
  exact hst

/-- A header that cannot be framed, at the front of a packet. -/
theorem doPacketTake_bad {s : State} {q : Nat} (ha : (s.queue q).asm = []) (hb : frameBad (s.queue q).front = true) :
    doPacketTake q s = s.queueError q fun x => { x with errFrame := true } := by
  simp [doPacketTake, ha, hb]

section
variable {s : State} {q got n : Nat} (hframe : (s.queue q).asm = [] → frameBad (s.queue q).front = false)
  (hgot : got = (s.queue q).asm.length / 64) (hn : n = min (s.queue q).winHeld (needUnits (s.queue q).front - got))
include hframe hgot hn

/-- Units that do not fill the packet are kept. -/
theorem doPacketTake_part (h : got + n < needUnits (s.queue q).front) :
    doPacketTake q s = s.modQueue q fun x =>
      { x with rd := (x.rd + n) % 512, asm := (s.queue q).asm ++ (s.queue q).winUnits n } := by
  have good : ((s.queue q).asm.isEmpty && frameBad (s.queue q).front) = false := by simpa using hframe
  have short : ¬ needUnits (s.queue q).front ≤ got + n := by omega
  unfold doPacketTake
  simp only [good, ← hgot, ← hn, short, decide_false, Bool.false_eq_true, if_false]

/-- A packet that the units complete is checked. -/
theorem doPacketTake_whole (h : needUnits (s.queue q).front ≤ got + n) :
    doPacketTake q s = (s.modQueue q fun x => { x with rd := (x.rd + n) % 512, asm := [] }).checkPacket q
      ((s.queue q).asm ++ (s.queue q).winUnits n) := by
  have good : ((s.queue q).asm.isEmpty && frameBad (s.queue q).front) = false := by simpa using hframe
  unfold doPacketTake
  simp only [good, ← hgot, ← hn, h, decide_true, Bool.false_eq_true, if_false, if_true]

end

/-- A packet with the expected number that no check refuses waits to start. -/
theorem State.checkPacket_takes {s : State} {q : Nat} {l : List Byte} (hseq : (parsePacket l).seq = (s.queue q).expSeq)
    (hok : s.packetBad q l (parsePacket l) = none) :
    s.checkPacket q l = (s.modQueue q fun x => { x with expSeq := x.expSeq + 1 }).modQueue q
      fun x => { x with taken := x.taken ++ [parsePacket l] } := by
  simp [State.checkPacket, hseq, hok]

/-- One with another number is answered BAD_PARAM with SEQ_ERR. -/
theorem State.checkPacket_seqErr {s : State} {q : Nat} {l : List Byte} (hseq : (parsePacket l).seq ≠ (s.queue q).expSeq) :
    s.checkPacket q l = s.addReplies q [(parsePacket l).refusal .badParam (s.queue q).expSeq.toNat true] := by
  simp [State.checkPacket, hseq]

theorem exec_packetTake {s : State} {q : Nat} (hq : q < 8192) (hdue : s.takeDue q = true) :
    exec (.packetTake q) s = .next (doPacketTake q s) := event_next (by simpa using hq) hdue

/-- A packet that may start is one that waits. -/
theorem Queue.startable_mem {x : Queue} {n : BitVec 32} (h : x.startable n = true) : ∃ t ∈ x.taken, t.seq = n := by
  unfold Queue.startable at h
  dsimp only at h
  split at h
  · cases h
  next t ht => exact ⟨t, List.mem_of_find?_eq_some ht, by simpa using List.find?_some ht⟩

/-- Settles O14: a queue is created and drained by what `newQueue` and `Queue.disable` set (`State.dropQueue_answered`); the three
outcomes of PACKET_TAKE are `doPacketTake_bad`, `doPacketTake_part` and `doPacketTake_whole`. -/
theorem queuesAndPackets : Obligations.QueuesAndPackets := by
  refine ⟨⟨?create, ?destroy, ?drained⟩, ⟨?bad, ?part, ?whole, ?start⟩⟩
  case create =>
    intro s p q d cls tenant func vector base lg cc cu first hq hdue hperm hchk
    have closed : (s.queue q).st = .disabled := by
      have := firstOf_eq_none.mp hchk _ (List.mem_cons_self ..)
      simp only [badAt, Bool.or_eq_false_iff, bne_eq_false_iff_eq] at this
      exact this.2
    have hne : p.queue ≠ q := fun h => hq.opened (by rw [h, closed])
    refine ⟨_, opcode_next hdue hperm hchk, hq.finish_beside (State.queue_modQueue_other _ _ hne) .., ?_⟩
    rw [doQueueCreate, State.ok, State.finish_queue_other _ _ _ _ _ _ _ hne.symm, State.queue_modQueue_same]
    refine ⟨rfl, rfl, rfl, rfl, rfl, rfl, rfl, rfl, rfl, rfl, rfl, rfl, rfl, State.finish_dies .., fun r hr hrp => ?_⟩
    rw [State.finish_queue_other _ _ _ _ _ _ _ hrp, State.queue_modQueue_other _ _ hr]
  case destroy =>
    intro s p q hdue hperm h0 hq hd
    refine ⟨_, opcode_next hdue hperm (firstOf_eq_none.mpr ?_), doQueueDestroy_facts p hd⟩
    simp [badAt, hd]
    omega
  case drained =>
    intro s q hq hd
    exact ⟨_, event_next (by simpa using hq) hd, s.dropQueue_disabled q q (.inl rfl),
      fun p hp hne hon => State.dropQueue_destroyer hp hne hon⟩
  case bad =>
    intro s q hq hdue ha hb
    obtain ⟨own, -, raised⟩ := s.queueError_facts q fun x => { x with errFrame := true }
    refine ⟨_, exec_packetTake hq hdue, ?_⟩
    rw [doPacketTake_bad ha hb]
    beta_reduce
    rw [own]
    exact ⟨rfl, rfl, rfl, raised⟩
  case part =>
    intro s q got n hq hdue hframe hgot hn h
    refine ⟨_, exec_packetTake hq hdue, ?_⟩
    rw [doPacketTake_part hframe hgot hn h]
    exact State.queue_modQueue_same ..
  case whole =>
    intro s q got n l r hq hdue hframe hgot hn h hl hr
    subst hl hr
    set s1 := s.modQueue q fun x => { x with rd := (x.rd + n) % 512, asm := [] } with hs1
    have own : s1.queue q = { s.queue q with rd := ((s.queue q).rd + n) % 512, asm := [] } := State.queue_modQueue_same ..
    have others (j : Nat) (hj : j ≠ q) : s1.queue j = s.queue j := State.queue_modQueue_other _ _ hj
    refine ⟨fun hseq hok => ⟨_, exec_packetTake hq hdue, ?_⟩, fun hseq => ⟨_, exec_packetTake hq hdue, ?_⟩⟩
    · rw [doPacketTake_whole hframe hgot hn h, State.checkPacket_takes (by rw [own]; exact hseq) hok]
      beta_reduce
      rw [State.queue_modQueue_same, State.queue_modQueue_same, own]
      refine ⟨rfl, fun j hj => ?_⟩
      rw [State.queue_modQueue_other _ _ hj, State.queue_modQueue_other _ _ hj, others j hj]
    · have hbox : q ≠ mboxQueue := Nat.ne_of_lt hq
      have hst : (s1.queue q).st ≠ .disabled := by rw [own, State.takeDue_enabled hdue]; decide
      rw [doPacketTake_whole hframe hgot hn h, State.checkPacket_seqErr (by rw [own]; exact hseq), State.addReplies_eq hbox hst]
      beta_reduce
      rw [State.queue_modQueue_same, own]
      exact ⟨rfl, rfl, rfl⟩
  case start =>
    intro s q n hq hl hs
    obtain ⟨r, hr, hn⟩ := Queue.startable_mem hs
    refine ⟨_, event_next (by simpa using hq) (by simp [hl, hs]), rfl, fun j hj => State.queue_modQueue_other _ _ hj, ?_⟩
    rw [State.queue_modQueue_same]
    refine ⟨fun t ht => ?_, ⟨r, ?_, hn⟩, rfl⟩
    · simpa using (List.mem_filter.mp ht).2
    · exact List.mem_append_right _ (List.mem_filter.mpr ⟨hr, by simpa using hn⟩)

end Sys2Proof.Machine

namespace Sys2Proof.Machine

/-! ## Sheets at admission (R55)

Finding frames moves, drops and makes sheets; it neither makes nor removes a context, and no sequence goes. -/

/-- Nothing differs but dies, sequences and the events raised; the contexts are as they were, and the same sequences exist. -/
structure SheetsTaken (s t : State) : Prop where
  seqsOnly : SeqsOnly s t
  ctxs : ∀ d, (t.die d).ctxs = (s.die d).ctxs
  open_ : ∀ n, thas t.seqs n = thas s.seqs n

section
variable {s t u : State}

theorem SheetsTaken.refl (s : State) : SheetsTaken s s := ⟨.refl s, fun _ => rfl, fun _ => rfl⟩

theorem SheetsTaken.trans (h : SheetsTaken s t) (g : SheetsTaken t u) : SheetsTaken s u :=
  ⟨h.seqsOnly.trans g.seqsOnly, fun d => (g.ctxs d).trans (h.ctxs d), fun n => (g.open_ n).trans (h.open_ n)⟩

theorem SheetsTaken.foldl {α : Type} {g : State → α → State} (h : ∀ s a, SheetsTaken s (g s a)) (l : List α) (s : State) :
    SheetsTaken s (l.foldl g s) :=
  List.foldlRecOn l g (SheetsTaken.refl s) fun t ht a _ => ht.trans (h t a)

theorem SeqsOnly.disps (h : SeqsOnly s t) : t.disps = s.disps := by rw [h]

end

theorem State.setDie_sheetsTaken (s : State) (d : Nat) {x : Die} (h : x.ctxs = (s.die d).ctxs) : SheetsTaken s (s.setDie d x) := by
  refine ⟨rfl, fun e => ?_, fun _ => rfl⟩
  by_cases he : e = d
  · rw [he, State.die_setDie_same, h]
  · rw [State.die_setDie_other _ _ he]

theorem State.modSeq_sheetsTaken (s : State) (n : Nat) (f : Sequence → Sequence) : SheetsTaken s (s.modSeq n f) := by
  refine ⟨s.modSeq_seqsOnly n f, fun d => by rw [s.modSeq_die], fun j => ?_⟩
  rw [thas, thas, State.tfind_modSeq]
  split
  next hj => rw [hj, Option.isSome_map]
  next => rfl

theorem State.emit_sheetsTaken (s : State) (e : Event) : SheetsTaken s (s.emit e) := by
  obtain ⟨-, -, -, hseqs⟩ := s.emit_frame e
  exact ⟨s.emit_seqsOnly e, fun d => by rw [s.emit_die], fun n => by rw [hseqs]⟩

theorem State.loseSeq_sheetsTaken (s : State) (byIdle : Bool) (n : Nat) : SheetsTaken s (s.loseSeq byIdle n) := by
  unfold State.loseSeq
  split
  · exact .refl s
  · dsimp only
    split_ifs
    · exact .refl s
    · exact s.modSeq_sheetsTaken ..
    · exact (s.modSeq_sheetsTaken ..).trans (State.emit_sheetsTaken ..)

theorem SheetsOnly.ctxs {x y : Die} (h : SheetsOnly x y) : y.ctxs = x.ctxs := by
  obtain ⟨_, _, _, rfl⟩ := h
  rfl

theorem State.markGone_sheetsTaken (s : State) (d : Nat) (hs : List Nat) (st : SheetState) (byIdle : Bool) :
    SheetsTaken s (s.markGone d hs st byIdle) :=
  (s.setDie_sheetsTaken d ((s.die d).sheetsGone_sheetsOnly hs st).ctxs).trans
    (.foldl (fun s n => s.loseSeq_sheetsTaken byIdle n) _ _)

theorem State.moveSheet_sheetsTaken (s : State) (d h : Nat) (dst : Loc) : SheetsTaken s (s.moveSheet d h dst) := by
  refine s.setDie_sheetsTaken d ?_
  dsimp only
  split <;> rfl

theorem State.demoteOne_sheetsTaken {s t : State} {d : Nat} (h : s.demoteOne d = some t) : SheetsTaken s t := by
  obtain ⟨n, -, h⟩ := List.exists_of_findSome?_eq_some h
  obtain ⟨k, -, h⟩ := List.exists_of_findSome?_eq_some h
  obtain ⟨l, -, rfl⟩ := Option.map_eq_some_iff.mp h
  exact s.moveSheet_sheetsTaken d k l

theorem State.dropOne_sheetsTaken {s t : State} {d : Nat} (h : s.dropOne d = some t) : SheetsTaken s t := by
  unfold State.dropOne at h
  split at h
  · cases h
    exact s.markGone_sheetsTaken ..
  · cases h

theorem State.findFrame_sheetsTaken {d : Nat} {e : Ream} {fuel : Nat} {s t : State} {l : Loc}
    (h : State.findFrame d e fuel s = some (t, l)) : SheetsTaken s t := by
  induction fuel generalizing s with
  | zero => cases h
  | succ fuel ih =>
    unfold State.findFrame at h
    split at h
    · cases h
      exact .refl _
    · split at h
      next s1 h1 => exact (State.demoteOne_sheetsTaken h1).trans (ih h)
      next =>
        split at h
        · cases h
          exact .refl _
        · split at h
          next s1 h1 => exact (State.dropOne_sheetsTaken h1).trans (ih h)
          next => cases h

theorem State.takeSheet_sheetsTaken {s t : State} {q : Sequence} {m : Model} {n ly j h : Nat}
    (ht : s.takeSheet q m n ly j = some (t, h)) : SheetsTaken s t := by
  unfold State.takeSheet at ht
  dsimp only at ht
  split at ht
  · cases ht
  next s1 l found =>
    split at ht
    · cases ht
    next k _ =>
      cases ht
      refine (State.findFrame_sheetsTaken found).trans (SheetsTaken.trans ?_ (State.modSeq_sheetsTaken ..))
      exact s1.setDie_sheetsTaken _ rfl

theorem State.takeLayer_sheetsTaken {q : Sequence} {m : Model} {n ly : Nat} {js : List Nat}
    {p r : State × List (Nat × Nat × Bool)} (h : State.takeLayer q m n ly js p = some r) : SheetsTaken p.1 r.1 := by
  induction js generalizing p with
  | nil =>
    cases h
    exact .refl _
  | cons j js ih =>
    unfold State.takeLayer at h
    split at h
    · cases h
    next s1 k taken => exact (State.takeSheet_sheetsTaken taken).trans (ih h)

theorem State.takeLayers_sheetsTaken {q : Sequence} {m : Model} {n t : Nat} {ls : List Nat}
    {p r : State × List (Nat × Nat × Bool)} (h : State.takeLayers q m n t ls p = some r) : SheetsTaken p.1 r.1 := by
  induction ls generalizing p with
  | nil =>
    cases h
    exact .refl _
  | cons ly ls ih =>
    unfold State.takeLayers at h
    split at h
    · cases h
    next p1 taken =>
      have first := State.takeLayer_sheetsTaken taken
      exact SheetsTaken.trans first (ih h)

/-- Sheets taken for every entry that runs; the sequences of those entries exist. -/
theorem State.takeAll_facts {m : Model} {es es1 : List EntryRun} {s t : State} (h : State.takeAll m es s = some (t, es1)) :
    SheetsTaken s t ∧ ∀ n ∈ liveSeqs es1, thas s.seqs n = true := by
  induction es generalizing s es1 with
  | nil =>
    cases h
    exact ⟨.refl _, by simp [liveSeqs]⟩
  | cons e es ih =>
    unfold State.takeAll at h
    split at h
    next hst =>
      split at h
      · cases h
      next q hq =>
        split at h
        · cases h
        next s1 l taken =>
          obtain ⟨⟨t', rest⟩, hrest, hp⟩ := Option.map_eq_some_iff.mp h
          cases hp
          have first := State.takeLayers_sheetsTaken taken
          obtain ⟨others, live⟩ := ih hrest
          refine ⟨first.trans others, fun n hn => ?_⟩
          simp only [liveSeqs, hst, List.filter_cons, beq_self_eq_true, if_true, List.map_cons, List.mem_cons] at hn
          obtain rfl | hn := hn
          · rw [thas, show tfind s.seqs e.seq = some q from hq, Option.isSome_some]
          · rw [← first.open_ n]
            exact live n hn
    next hst =>
      obtain ⟨⟨t', rest⟩, hrest, hp⟩ := Option.map_eq_some_iff.mp h
      cases hp
      obtain ⟨others, live⟩ := ih hrest
      refine ⟨others, fun n hn => live n ?_⟩
      simpa [liveSeqs, hst] using hn

theorem State.resumeAll_sheetsTaken (s : State) (ns : List Nat) : SheetsTaken s (s.resumeAll ns) :=
  .foldl (fun s n => s.modSeq_sheetsTaken n _) ns s

end Sys2Proof.Machine

namespace Sys2Proof.Machine

/-! ## A dispatch holds its sequences (R226, R231) -/

/-- The sequences are held by dispatch `id`, and stepped now. -/
def State.holdAll (s : State) (id now : Nat) (ns : List Nat) : State :=
  ns.foldl (fun s n => s.modSeq n fun q => { q with heldBy := some id, stepped := now }) s

theorem State.holdAll_sheetsTaken (s : State) (id now : Nat) (ns : List Nat) : SheetsTaken s (s.holdAll id now ns) :=
  .foldl (fun s n => s.modSeq_sheetsTaken n _) ns s

/-- An open sequence of the list is held by the dispatch, as is one that was. -/
theorem State.holder_holdAll {id now n : Nat} {ns : List Nat} {s : State}
    (h : (n ∈ ns ∧ thas s.seqs n = true) ∨ s.holder n = some id) : (s.holdAll id now ns).holder n = some id := by
  induction ns generalizing s with
  | nil => exact h.resolve_left (by simp)
  | cons a ns ih =>
    refine ih (s := s.modSeq a fun q => { q with heldBy := some id, stepped := now }) ?_
    rw [(s.modSeq_sheetsTaken a _).open_, State.holder, State.tfind_modSeq]
    by_cases hn : n = a
    · subst hn
      have exists_ : thas s.seqs n = true := by
        obtain ⟨-, h⟩ | h := h
        · exact h
        · obtain ⟨q, hq, -⟩ := Option.bind_eq_some_iff.mp h
          rw [thas, hq, Option.isSome_some]
      obtain ⟨q, hq⟩ := Option.isSome_iff_exists.mp exists_
      exact .inr (by simp [hq])
    · rw [if_neg hn]
      obtain ⟨hmem, h⟩ | h := h
      · exact .inl ⟨(List.mem_cons.mp hmem).resolve_left hn, h⟩
      · exact .inr h

/-! ## A fresh number (R232) -/

theorem le_argmax {α : Type} (key : α → Nat) {l : List α} {a : α} (h : a ∈ l) : ∃ b, argmax key l = some b ∧ key a ≤ key b := by
  induction l with
  | nil => cases h
  | cons c l ih =>
    unfold argmax
    obtain rfl | h := List.mem_cons.mp h
    · cases argmax key l with
      | none => exact ⟨a, rfl, le_rfl⟩
      | some b =>
        dsimp only
        split_ifs with hb
        · exact ⟨a, rfl, le_rfl⟩
        · exact ⟨b, rfl, by omega⟩
    · obtain ⟨b, hb, hle⟩ := ih h
      rw [hb]
      dsimp only
      split_ifs with hc
      · exact ⟨c, rfl, by omega⟩
      · exact ⟨b, rfl, hle⟩

/-- No dispatch has the number that a new one gets. -/
theorem State.newDisp_fresh (s : State) : tfind s.disps s.newDisp = none := by
  refine Option.eq_none_iff_forall_ne_some.mpr fun x hx => ?_
  have listed := mem_of_tfind hx
  obtain ⟨b, hb, hle⟩ := le_argmax id (List.mem_map_of_mem (f := Prod.fst) listed)
  have some_ : 0 < s.disps.length := List.length_pos_of_mem listed
  have hnum : s.newDisp = s.disps.length + b := by
    rw [State.newDisp, tkeys, hb, Option.getD_some]
  simp only [id_eq] at hle
  omega

end Sys2Proof.Machine

namespace Sys2Proof.Machine

/-! ## A dispatch makes its contexts READY (R192, R232) -/

/-- The state of context `c` of die `d`, and the dispatch it runs for. -/
def State.standing (s : State) (d c : Nat) : Option (CtxState × Option Nat) :=
  (tfind (s.die d).ctxs c).map fun y => (y.st, y.disp)

/-- Nothing differs but dies and the count of stamps. -/
def StampsOnly (s t : State) : Prop := t = { s with dies := t.dies, stamp := t.stamp }

section
variable {s t u : State}

theorem StampsOnly.trans (h : StampsOnly s t) (g : StampsOnly t u) : StampsOnly s u := by
  unfold StampsOnly at *
  rw [g, h]

theorem StampsOnly.queues (h : StampsOnly s t) : t.queues = s.queues := by rw [h]
theorem StampsOnly.seqs (h : StampsOnly s t) : t.seqs = s.seqs := by rw [h]
theorem StampsOnly.disps (h : StampsOnly s t) : t.disps = s.disps := by rw [h]

theorem DiesOnly.stampsOnly (h : DiesOnly s t) : StampsOnly s t := by
  rw [h]
  rfl

end

section
variable (s : State) (d c : Nat)

theorem State.standing_of_ctxs {s t : State} {d : Nat} (h : (t.die d).ctxs = (s.die d).ctxs) (c : Nat) :
    t.standing d c = s.standing d c := by
  rw [State.standing, h, State.standing]

/-- What changes one die leaves the contexts of the others. -/
theorem State.standing_modDie_other {e : Nat} (f : Die → Die) (h : d ≠ e) : (s.modDie e f).standing d c = s.standing d c :=
  State.standing_of_ctxs (by rw [State.die_modDie_other _ _ h]) c

theorem State.standing_modDie {e : Nat} {f : Die → Die}
    (h : ∀ x : Die, (tfind (f x).ctxs c).map (fun y => (y.st, y.disp)) = (tfind x.ctxs c).map fun y => (y.st, y.disp)) :
    (s.modDie e f).standing d c = s.standing d c := by
  by_cases he : d = e
  · rw [he, State.standing, State.die_modDie_same, h, State.standing]
  · exact s.standing_modDie_other d c f he

end

theorem Die.tfind_modCtx (x : Die) (e : Nat) (f : Ctx → Ctx) (c : Nat) :
    tfind (x.modCtx e f).ctxs c = if c = e then (tfind x.ctxs e).map f else tfind x.ctxs c := by
  unfold Die.modCtx Die.ctx
  split
  next y hy =>
    rw [hy]
    exact tfind_tput ..
  next hy =>
    by_cases hc : c = e
    · simp [hc, hy]
    · simp [hc]

/-- Binding streams leaves every context where it stands. -/
theorem Die.bindStreams_standing (x : Die) (c n j : Nat) :
    (tfind (x.bindStreams c n).ctxs j).map (fun y => (y.st, y.disp)) = (tfind x.ctxs j).map fun y => (y.st, y.disp) := by
  unfold Die.bindStreams
  extract_lets x0 l
  have hx0 : x0.ctxs = x.ctxs := by
    unfold x0
    split <;> rfl
  rw [Die.tfind_modCtx]
  dsimp only
  rw [hx0]
  split
  next hj => rw [hj, Option.map_map]; rfl
  next => rfl

/-- A pre-emption counts a grant and leaves every context where it stands. -/
theorem State.preempt_standing (s : State) (e k d c : Nat) : (s.preempt e k).standing d c = s.standing d c := by
  unfold State.preempt
  dsimp only
  split
  · rfl
  · split_ifs
    · split
      · refine s.standing_modDie d c fun x => ?_
        rw [Die.count_ctxs, Die.countGrant]
        dsimp only
        rw [tfind_tmapv, Option.map_map]
        refine congrArg (Option.map · _) (funext fun y => ?_)
        simp only [Function.comp_apply]
        split_ifs <;> rfl
      · rfl
    · rfl

theorem State.preempt_stampsOnly (s : State) (e k : Nat) : StampsOnly s (s.preempt e k) := by
  unfold State.preempt
  dsimp only
  split
  · rfl
  · split_ifs
    · split <;> rfl
    · rfl

theorem State.tick_standing (s : State) (d c : Nat) : s.tick.2.standing d c = s.standing d c := rfl

/-- A context rewritten stands as `g` says, and the others where they stood. -/
theorem State.modCtx_standing (s : State) (e k : Nat) {f : Ctx → Ctx} (g : CtxState × Option Nat → CtxState × Option Nat)
    (h : ∀ y, ((f y).st, (f y).disp) = g (y.st, y.disp)) (d c : Nat) :
    (s.modCtx e k f).standing d c = if d = e ∧ c = k then (s.standing d c).map g else s.standing d c := by
  by_cases hd : d = e
  · subst hd
    rw [State.standing, State.modCtx, State.die_modDie_same, Die.tfind_modCtx, State.standing]
    by_cases hc : c = k
    · subst hc
      simp only [and_self, if_true, Option.map_map]
      exact congrArg (Option.map · _) (funext h)
    · simp only [hc, and_false, if_false]
  · rw [if_neg fun h => hd h.1]
    exact s.standing_modDie_other d c _ hd

/-- A context starts in three parts: its streams, its dispatch, its state. -/
theorem State.startCtx_eq (s : State) (id cls n k : Nat) : s.startCtx id cls n k =
    ((((s.modDie (k / 4096) fun x => x.bindStreams (k % 4096) n).modCtx (k / 4096) (k % 4096) fun y =>
      { y with cls := cls, disp := some id, image := .none, failSt := .ok, ring := [], ringWait := [], tile := none }).makeReady
        (k / 4096) (k % 4096))) := by
  rw [State.modCtx, State.modDie_modDie]
  rfl

theorem State.makeReady_stampsOnly (s : State) (d c : Nat) : StampsOnly s (s.makeReady d c) :=
  StampsOnly.trans (t := s.tick.2.modCtx d c _) rfl (State.preempt_stampsOnly ..)

theorem State.startCtx_stampsOnly (s : State) (id cls n k : Nat) : StampsOnly s (s.startCtx id cls n k) :=
  StampsOnly.trans (t := s.modDie (k / 4096) _) rfl (State.makeReady_stampsOnly ..)

theorem State.makeReady_standing (s : State) (e k d c : Nat) : (s.makeReady e k).standing d c =
    if d = e ∧ c = k then (s.standing d c).map fun y => (.ready, y.2) else s.standing d c :=
  (State.preempt_standing ..).trans (s.tick.2.modCtx_standing e k (fun y => (.ready, y.2)) (fun _ => rfl) d c)

/-- The context that starts is READY for its dispatch, and the others stand where they stood. -/
theorem State.startCtx_standing (s : State) (id cls n k d c : Nat) : (s.startCtx id cls n k).standing d c =
    if d = k / 4096 ∧ c = k % 4096 then (s.standing d c).map fun _ => (.ready, some id) else s.standing d c := by
  have bound : (s.modDie (k / 4096) fun x => x.bindStreams (k % 4096) n).standing d c = s.standing d c :=
    s.standing_modDie d c fun x => x.bindStreams_standing ..
  rw [State.startCtx_eq, State.makeReady_standing, State.modCtx_standing _ _ _ (fun y => (y.1, some id)) fun _ => rfl, bound]
  split
  · rw [Option.map_map]
    rfl
  · rfl

/-- Contexts started one by one, each with its number of streams. -/
def State.startAll (s : State) (id cls : Nat) (cs : List ((Nat × List Nat) × Nat)) : State :=
  cs.foldl (fun s c => s.startCtx id cls c.2 c.1.1) s

theorem State.startAll_stampsOnly (s : State) (id cls : Nat) (cs : List ((Nat × List Nat) × Nat)) :
    StampsOnly s (s.startAll id cls cs) :=
  List.foldlRecOn (motive := StampsOnly s) cs _ rfl fun t ht c _ => ht.trans (t.startCtx_stampsOnly id cls c.2 c.1.1)

/-- Every context of the list that exists is READY for the dispatch, and stays so while the others start. -/
theorem State.startAll_standing {id cls k : Nat} {cs : List ((Nat × List Nat) × Nat)} {s : State}
    (h : ((∃ c ∈ cs, c.1.1 = k) ∧ (s.standing (k / 4096) (k % 4096)).isSome = true) ∨
      s.standing (k / 4096) (k % 4096) = some (.ready, some id)) :
    (s.startAll id cls cs).standing (k / 4096) (k % 4096) = some (.ready, some id) := by
  induction cs generalizing s with
  | nil => exact h.resolve_left (by simp)
  | cons a cs ih =>
    refine ih (s := s.startCtx id cls a.2 a.1.1) ?_
    rw [State.startCtx_standing]
    by_cases ha : k / 4096 = a.1.1 / 4096 ∧ k % 4096 = a.1.1 % 4096
    · rw [if_pos ha]
      have exists_ : (s.standing (k / 4096) (k % 4096)).isSome = true := by
        obtain ⟨-, h⟩ | h := h
        · exact h
        · rw [h, Option.isSome_some]
      obtain ⟨y, hy⟩ := Option.isSome_iff_exists.mp exists_
      exact .inr (by rw [hy, Option.map_some])
    · rw [if_neg ha]
      obtain ⟨⟨c, hc, hk⟩, h⟩ | h := h
      · refine .inl ⟨⟨c, (List.mem_cons.mp hc).resolve_left ?_, hk⟩, h⟩
        rintro rfl
        exact ha ⟨by rw [hk], by rw [hk]⟩
      · exact .inr h

end Sys2Proof.Machine

namespace Sys2Proof.Machine

/-! ## EXEC_DISPATCH (R231, R232) -/

theorem Die.bindThread_ctxs (x : Die) (id c : Nat) (t : ThreadShape) : (x.bindThread id c t).ctxs = x.ctxs := by
  unfold Die.bindThread
  split
  · rfl
  · exact List.foldlRecOn (motive := fun y : Die => y.ctxs = x.ctxs) t.members _ rfl fun y hy e _ => hy

/-- The threads of a dispatch are bound and the knots of its list tied. -/
def State.bindAll (s : State) (id : Nat) (l : DList) (x : Dispatch) : State :=
  l.ties.foldl (fun s e => s.tieAt x.pkt.tenant ((x.ctxs.map (·.1)).getD e.2.1 0) e.1 e.2.2)
    (l.threads.foldl (fun s t => s.modDie t.die fun y => y.bindThread id ((((x.ctxs[t.ctx]?).map (·.1)).getD 0) % 4096) t) s)

theorem State.bindAll_facts (s : State) (id : Nat) (l : DList) (x : Dispatch) :
    DiesOnly s (s.bindAll id l x) ∧ ∀ d, ((s.bindAll id l x).die d).ctxs = (s.die d).ctxs := by
  have one {u : State} (hu : DiesOnly s u ∧ ∀ d, (u.die d).ctxs = (s.die d).ctxs) (e : Nat) {f : Die → Die}
      (hf : ∀ y, (f y).ctxs = y.ctxs) : DiesOnly s (u.modDie e f) ∧ ∀ d, ((u.modDie e f).die d).ctxs = (s.die d).ctxs := by
    obtain ⟨dies, ctxs⟩ := hu
    refine ⟨dies.trans (.modDie ..), fun d => ?_⟩
    by_cases hd : d = e
    · rw [hd, State.die_modDie_same, hf, ctxs]
    · rw [State.die_modDie_other _ _ hd, ctxs]
  refine List.foldlRecOn (motive := fun u => DiesOnly s u ∧ ∀ d, (State.die u d).ctxs = (s.die d).ctxs) l.ties _ ?_
    fun u hu e _ => one hu _ fun y => ?_
  · exact List.foldlRecOn (motive := fun u => DiesOnly s u ∧ ∀ d, (State.die u d).ctxs = (s.die d).ctxs) l.threads _
      ⟨.refl s, fun _ => rfl⟩ fun u hu t _ => one hu _ fun y => y.bindThread_ctxs ..
  · split <;> rfl

/-- The state in which dispatch `x` is admitted under its number, its sequences held and its threads and knots bound. -/
def State.begun (s : State) (l : DList) (x : Dispatch) : State :=
  (({ s.tick.2 with disps := tput s.disps s.newDisp x } : State).holdAll s.newDisp s.tick.1 (liveSeqs x.entries)).bindAll
    s.newDisp l x

/-- Step 6 in its parts; of a poisoned model the entries of the dispatch are fenced besides. -/
theorem State.runStep_eq (s : State) (inst : Nat) (l : DList) (b : Bundle) (x : Dispatch) :
    ∃ es, s.runStep inst l b x = (s.begun l x).startAll s.newDisp x.cls (x.ctxs.zip (streamsOf b l)) ∨
      s.runStep inst l b x = { (s.begun l x).startAll s.newDisp x.cls (x.ctxs.zip (streamsOf b l)) with
        disps := tput ((s.begun l x).startAll s.newDisp x.cls (x.ctxs.zip (streamsOf b l))).disps s.newDisp
          { x with entries := es } } := by
  unfold State.runStep State.tick
  dsimp -zeta only
  extract_lets id s1 s2 s3 s3' s4
  refine ⟨x.entries.map fun e => if e.status = .ok then { e with status := .unitFenced } else e, ?_⟩
  split
  · split_ifs
    · exact .inr rfl
    · exact .inl rfl
  · exact .inl rfl

/-- The dispatch stands under its number; its sequences are held, the rest of the state is as before it. -/
theorem State.begun_facts (s : State) (l : DList) (x : Dispatch) :
    (s.begun l x).queues = s.queues ∧ tfind (s.begun l x).disps s.newDisp = some x ∧
      (∀ d c, (s.begun l x).standing d c = s.standing d c) ∧
      ∀ n ∈ liveSeqs x.entries, thas s.seqs n = true → (s.begun l x).holder n = some s.newDisp := by
  unfold State.begun
  set u : State := { s.tick.2 with disps := tput s.disps s.newDisp x }
  set v := u.holdAll s.newDisp s.tick.1 (liveSeqs x.entries) with hv
  have held : SheetsTaken u v := State.holdAll_sheetsTaken ..
  obtain ⟨dies, ctxs⟩ := v.bindAll_facts s.newDisp l x
  refine ⟨dies.queues.trans held.seqsOnly.queues, ?_, fun d c => ?_, fun n hn hopen => ?_⟩
  · rw [dies.seqsOnly.disps, held.seqsOnly.disps]
    exact tfind_tput_same ..
  · exact State.standing_of_ctxs ((ctxs d).trans (held.ctxs d)) c
  · rw [State.holder_of_seqs dies.seqs]
    exact State.holder_holdAll (.inl ⟨hn, hopen⟩)

/-- A step that starts: its dispatch, its sequences and its contexts. -/
theorem State.runStep_facts (s : State) (inst : Nat) (l : DList) (b : Bundle) (x : Dispatch) :
    (s.runStep inst l b x).queues = s.queues ∧
      (∃ es, tfind (s.runStep inst l b x).disps s.newDisp = some { x with entries := es }) ∧
      (∀ n ∈ liveSeqs x.entries, thas s.seqs n = true → (s.runStep inst l b x).holder n = some s.newDisp) ∧
      ∀ k, (∃ c ∈ x.ctxs.zip (streamsOf b l), c.1.1 = k) → (s.standing (k / 4096) (k % 4096)).isSome = true →
        (s.runStep inst l b x).standing (k / 4096) (k % 4096) = some (.ready, some s.newDisp) := by
  obtain ⟨queues, disp, standing, held⟩ := s.begun_facts l x
  set v := (s.begun l x).startAll s.newDisp x.cls (x.ctxs.zip (streamsOf b l)) with hv
  have started : StampsOnly (s.begun l x) v := State.startAll_stampsOnly ..
  have holds (n : Nat) (hn : n ∈ liveSeqs x.entries) (hopen : thas s.seqs n = true) : v.holder n = some s.newDisp := by
    rw [State.holder_of_seqs started.seqs]
    exact held n hn hopen
  have ready (k : Nat) (hk : ∃ c ∈ x.ctxs.zip (streamsOf b l), c.1.1 = k)
      (hs : (s.standing (k / 4096) (k % 4096)).isSome = true) :
      v.standing (k / 4096) (k % 4096) = some (.ready, some s.newDisp) :=
    State.startAll_standing (.inl ⟨hk, by rwa [standing]⟩)
  obtain ⟨es, he | he⟩ := s.runStep_eq inst l b x
  · rw [he]
    exact ⟨started.queues.trans queues, ⟨x.entries, by rw [started.disps, disp]⟩, holds, ready⟩
  · rw [he]
    exact ⟨started.queues.trans queues, ⟨es, tfind_tput_same ..⟩, holds, ready⟩

/-- An EXEC_DISPATCH that every test admits runs. -/
theorem State.runExec_eq {s s1 : State} {p : Pkt} {inst list out : Nat} {es : List ExecEntry} {payload : List Byte} {m : Model}
    {b : Bundle} {l : DList} {cs : List (Nat × List Nat)} {es1 : List EntryRun}
    (hchk : firstOf (s.execChecks p inst list out es payload.length) = none) (hm : s.modelOf p inst = some m)
    (hb : s.bundleOf p inst = some b) (hl : s.dlist p inst list = some l)
    (hcs : s.dispatchCtxs p inst list es.length = some cs) (hwait : s.mustWait es b l cs = false)
    (hcap : s.capacityBad (liveSeqs (s.entryRuns es)) = none)
    (hen : s.energyDefers p.tenant (s.queue p.queue).cls l.periods (s.planOf inst list l (s.entryRuns es)) = none)
    (htake : State.takeAll m (s.entryRuns es) (s.resumeAll (liveSeqs (s.entryRuns es))) = some (s1, es1))
    (hlists : listsBad b l cs m.layers (s.entryRuns es) (s1.listsFor m.layers es1) = false) :
    s.runExec p inst list out es payload = s1.runStep inst l b (newDispatch p inst list (s.queue p.queue).cls out l.periods es1
      payload cs (s1.listsFor m.layers es1) (s.planOf inst list l (s.entryRuns es))) := by
  simp only [State.runExec, hchk, hm, hb, hl, hcs, hwait, Bool.false_eq_true, if_false, State.admission, htake, hlists, hcap, hen]

theorem eq_map_some_of_mapM {α : Type} {l : List (Option α)} {r : List α} (h : l.mapM id = some r) : l = r.map some := by
  induction l generalizing r with
  | nil =>
    cases h
    rfl
  | cons a l ih =>
    rw [List.mapM_cons] at h
    obtain ⟨y, hy, h⟩ := Option.bind_eq_some_iff.mp h
    obtain ⟨ys, hys, h⟩ := Option.bind_eq_some_iff.mp h
    cases h
    rw [ih hys, List.map_cons, ← hy]
    rfl

/-- The contexts of a dispatch are those of its list, one for each. -/
theorem State.dispatchCtxs_length {s : State} {p : Pkt} {inst list n : Nat} {l : DList} {cs : List (Nat × List Nat)}
    (hl : s.dlist p inst list = some l) (h : s.dispatchCtxs p inst list n = some cs) : cs.length = l.ctxs.length := by
  rw [State.dispatchCtxs, hl] at h
  simpa [State.listCtxs] using (congrArg List.length (eq_map_some_of_mapM h)).symm

/-- The checks of EXEC_DISPATCH find every context of the list idle. -/
theorem State.ctxIdle_of_execChecks {s : State} {p : Pkt} {inst list out payload : Nat} {es : List ExecEntry}
    {cs : List (Nat × List Nat)} (hchk : firstOf (s.execChecks p inst list out es payload) = none)
    (hcs : s.dispatchCtxs p inst list es.length = some cs) {c : Nat × List Nat} (hc : c ∈ cs) : s.ctxIdle c.1 = true := by
  have last := firstOf_eq_none.mp hchk _ (List.mem_append_right _ (List.mem_singleton_self _))
  rw [hcs] at last
  simp only [badAll, Bool.not_eq_false', List.all_eq_true] at last
  exact last c hc

theorem State.standing_of_ctxIdle {s : State} {k : Nat} (h : s.ctxIdle k = true) :
    (s.standing (k / 4096) (k % 4096)).isSome = true := by
  unfold State.ctxIdle at h
  split at h
  next y hy => rw [State.standing, show tfind (s.die (k / 4096)).ctxs (k % 4096) = some y from hy, Option.map_some, Option.isSome_some]
  next => cases h

/-- Settles O7: taking sheets leaves contexts and queues alone (`State.takeAll_facts`), and step 6 holds the sequences and starts the
contexts one by one (`State.runStep_facts`). -/
theorem dispatchStarts : Obligations.DispatchStarts := by
  intro s s1 p inst list out es payload m b l cs es1 hdue hperm hchk hm hb hl hcs hwait hcap hen htake hlists
  obtain ⟨taken, live⟩ := State.takeAll_facts htake
  have prepared : SheetsTaken s s1 := (s.resumeAll_sheetsTaken _).trans taken
  refine ⟨_, gate_next hdue hperm, ?_⟩
  rw [State.runExec_eq hchk hm hb hl hcs hwait hcap hen htake hlists]
  beta_reduce
  set x := newDispatch p inst list (s.queue p.queue).cls out l.periods es1 payload cs (s1.listsFor m.layers es1)
    (s.planOf inst list l (s.entryRuns es)) with hx
  obtain ⟨queues, ⟨es2, disp⟩, held, ready⟩ := s1.runStep_facts inst l b x
  refine ⟨queues.trans prepared.seqsOnly.queues, s1.newDisp, _, ?_, disp, rfl, rfl, fun n hn => ?_, fun c hc => ?_⟩
  · rw [← prepared.seqsOnly.disps]
    exact s1.newDisp_fresh
  · have hopen : thas s1.seqs n = true := (taken.open_ n).trans (live n hn)
    exact Option.bind_eq_some_iff.mp (held n hn hopen)
  · have hfst : c ∈ (cs.zip (streamsOf b l)).map Prod.fst := by
      rwa [List.map_fst_zip (by simp [streamsOf, State.dispatchCtxs_length hl hcs])]
    obtain ⟨e, he, rfl⟩ := List.mem_map.mp hfst
    have exists_ : (s1.standing (e.1.1 / 4096) (e.1.1 % 4096)).isSome = true := by
      rw [State.standing_of_ctxs (prepared.ctxs _)]
      exact State.standing_of_ctxIdle (State.ctxIdle_of_execChecks hchk hcs hc)
    obtain ⟨y, hy, hst⟩ := Option.map_eq_some_iff.mp (ready e.1.1 ⟨e, he, rfl⟩ exists_)
    exact ⟨y, hy, congrArg Prod.fst hst, congrArg Prod.snd hst⟩

end Sys2Proof.Machine

namespace Sys2Proof.Machine

/-! ## Clock and capture actions (R246, R262, R263) -/

theorem OnlyReplies.otherDies {s t u : State} {d : Nat} (h : OtherDies s t d) (g : OnlyReplies t u) : OtherDies s u d :=
  fun e he => (g.die e).trans (h e he)

/-- A die written leaves a packet's queue as it stands. -/
theorem OnQueue.modDie {s : State} {p : Pkt} (h : OnQueue s p) {d : Nat} {f : Die → Die} : OnQueue (s.modDie d f) p :=
  ⟨h.running, h.ring, h.opened, h.started, h.loud⟩

/-- The panic test of a region writes the ports of its fabric and nothing else of it (R256). -/
theorem Die.testPanic_fabric (x : Die) (r : Nat) : ∃ ports, (x.testPanic r).fabric r = { x.fabric r with ports := ports } := by
  unfold Die.testPanic
  extract_lets was y
  have tested : ∃ ports, y.fabric r = { x.fabric r with ports := ports } := by
    refine List.foldlRecOn (motive := fun (y : Die) => ∃ ports, y.fabric r = { x.fabric r with ports := ports }) _ _
      ⟨_, rfl⟩ ?_
    rintro z ⟨ports, eq⟩ n -
    split
    · exact ⟨_, by rw [Die.fabric_modFabric_same, eq, Fabric.modPort]⟩
    · exact ⟨ports, eq⟩
  clear_value y
  split
  · rw [Die.count_fabric]
    exact tested
  · exact tested

section
variable {s : State} {p : Pkt} {a : RAt} {f : Fabric} {k : ClkAct} {rest : List ClkAct}

/-- Edges counted up to now change no queue and, of the region, FCTR alone, which stands while the clock is halted. -/
theorem State.fclkRuns_facts (s : State) (a : RAt) : (s.fclkRuns a).queues = s.queues ∧
    ∃ n, ((s.fclkRuns a).die a.die).fabric a.region = { (s.die a.die).fabric a.region with fctr := n } ∧
      (((s.die a.die).fabric a.region).halted = true → n = ((s.die a.die).fabric a.region).fctr) := by
  unfold State.fclkRuns
  split
  next halted => exact ⟨rfl, _, rfl, fun _ => rfl⟩
  next running =>
    refine ⟨rfl, ?_⟩
    dsimp only
    rw [State.die_modDie_same, Die.fabric_modFabric_same]
    exact ⟨_, rfl, fun h => absurd h running⟩

/-- An edge that Table 10-3 lets an action name: the next, or one far enough ahead of a halted clock. -/
def Fabric.edgeNamed (f : Fabric) (edge : Nat) : Prop := edge = 0 ∨ (f.halted = true ∧ f.fctr + 256 ≤ edge)

theorem Fabric.edgeNamed.allowed {edge : Nat} (h : f.edgeNamed edge) {action n : Nat} (hrun : action = 2 → f.halted = true)
    (hn : f.halted = true → n = f.fctr) : ({ f with fctr := n } : Fabric).edgeBad action edge = false := by
  have far : edge ≠ 0 → n + 256 ≤ edge := fun hne => by
    obtain ⟨halted, far⟩ := h.resolve_left hne
    rw [hn halted]
    exact far
  have held : (decide (action = 2) && !f.halted) = false := by
    by_cases ha : action = 2
    · simp [hrun ha]
    · simp [ha]
  simp only [Fabric.edgeBad, held, Bool.false_and, Bool.or_false, Bool.and_eq_false_iff, decide_eq_false_iff_not]
  by_cases hne : edge = 0
  · exact Or.inl (not_not_intro hne)
  · exact Or.inr (by have := far hne; omega)

/-- An action that passes its checks in a region without others waits for its edge. -/
theorem State.runAct_waits (usable : s.usable a.die = true) (hr : a.region < 8) (hf : f = (s.die a.die).fabric a.region)
    (conf : f.st = .configured) (none : f.acts = []) {action divisor edge : Nat} (named : f.edgeNamed edge)
    (hrun : action = 2 → f.halted = true) {more : List (Bool × Status × Nat)} (hmore : ∀ c ∈ more, c.1 = false) (code : Nat)
    (t : State) (ht : t = s.runAct code p a action divisor edge more) :
    ((t.die a.die).fabric a.region).acts = [⟨p, action, divisor, edge⟩] ∧ t.queues = s.queues ∧
      ((t.die a.die).fabric a.region).halted = f.halted ∧ ((t.die a.die).fabric a.region).ff = f.ff := by
  obtain ⟨queues, n, fabric, fctr⟩ := s.fclkRuns_facts a
  rw [← hf] at fabric fctr
  have pass : firstOf (s.regionChecks a ++ more) = Option.none := by
    refine firstOf_eq_none.mpr fun c hc => ?_
    obtain hc | hc := List.mem_append.mp hc
    · simp only [State.regionChecks, badAt, usable, Bool.not_true, List.mem_cons, List.not_mem_nil, or_false] at hc
      obtain rfl | rfl := hc
      · rfl
      · exact decide_eq_false (by omega)
    · exact hmore c hc
  have stands : firstOf [(s.fclkRuns a).unconfigured a,
      ((((s.fclkRuns a).die a.die).fabric a.region).edgeBad action edge, .badParam, 8)] = Option.none := by
    rw [fabric, named.allowed hrun fctr]
    simp [State.unconfigured, refuseIf, firstOf, fabric, conf]
  subst ht
  unfold State.runAct
  rw [pass]
  dsimp only
  rw [stands, State.decide1_none, State.die_modDie_same, Die.fabric_modFabric_same, fabric]
  exact ⟨by rw [none, List.nil_append], queues, rfl, rfl⟩

/-- The region once the action `k` has had its edge: `rest` waits on (Table 10-3, R262). -/
def Fabric.acted (f : Fabric) (k : ClkAct) (rest : List ClkAct) : Fabric := { f with
  acts := rest, fctr := f.edgeOf k
  divisor := if k.action = 0 then k.divisor else f.divisor
  halted := if k.action = 1 ∨ 5 ≤ k.action then true else if k.action = 2 then false else f.halted
  shadowFf := if 4 ≤ k.action then f.ff else f.shadowFf
  copying := if 5 ≤ k.action then some { k with edge := f.edgeOf k } else f.copying }

/-- The die after it, its real-time channels tested where a clock action or a halt may have changed their levels. -/
def Die.acted (x : Die) (r : Nat) (k : ClkAct) (rest : List ClkAct) : Die :=
  let y := x.modFabric r fun f => f.acted k rest
  if k.action = 4 then y else y.testPanic r

theorem Die.acted_fabric (x : Die) (r : Nat) (k : ClkAct) (rest : List ClkAct) :
    ∃ ports, (x.acted r k rest).fabric r = { (x.fabric r).acted k rest with ports := ports } := by
  unfold Die.acted
  dsimp only
  split
  · exact ⟨_, Die.fabric_modFabric_same ..⟩
  · obtain ⟨ports, eq⟩ := (x.modFabric r fun f => f.acted k rest).testPanic_fabric r
    exact ⟨ports, by rw [eq, Die.fabric_modFabric_same]⟩

/-- An edge is due for the action that waits first. -/
theorem exec_fctrEdgeReached (hl : s.live a.die = true) (hr : a.region < 8) (hf : f = (s.die a.die).fabric a.region)
    (still : f.copying = none) (hk : f.acts = k :: rest) (comes : f.halted = false ∨ k.edge = 0) :
    exec (.fctrEdgeReached a) s = .next (s.doEdge a).resume := by
  subst hf
  refine event_next (by simp [State.regionOn, State.dieCount_of_live hl, hr]) ?_
  unfold State.edgeDue
  dsimp only
  rw [hl, still, hk]
  obtain comes | comes := comes <;> simp [comes]

/-- The reply of an action that has had its edge `e`: that of a capture with its halt comes once the copy is done. -/
def State.answerAct (s : State) (k : ClkAct) (e : Nat) : State :=
  if k.action < 4 then s.finish 0x0404 k.pkt .ok 0 (le 8 e) []
  else if k.action = 4 then s.finish 0x0402 k.pkt .ok 0 (captureReply e 0 0) []
  else s

theorem State.onlyReplies_answerAct (s : State) (k : ClkAct) (e : Nat) : OnlyReplies s (s.answerAct k e) := by
  unfold State.answerAct
  split_ifs
  · exact s.onlyReplies_finish ..
  · exact s.onlyReplies_finish ..
  · exact s.onlyReplies_refl

section
variable (hf : f = (s.die a.die).fabric a.region) (hk : f.acts = k :: rest)
include hf hk

/-- A run of a clock that runs already is refused (log entry 55). -/
theorem State.doEdge_refuses (hrun : k.action = 2) (runs : f.halted = false) : s.doEdge a =
    (s.modDie a.die fun x => x.modFabric a.region fun f => { f with acts := rest }).refuse 0x0404 k.pkt .badParam 8 := by
  subst hf
  unfold State.doEdge
  dsimp only
  rw [hk]
  dsimp only
  rw [if_pos ⟨hrun, runs⟩]
  rfl

/-- Any other action has its effect on the region, and its reply. -/
theorem State.doEdge_acts (hrun : k.action = 2 → f.halted = true) : s.doEdge a =
    (s.modDie a.die fun x => x.acted a.region k rest).answerAct k (f.edgeOf k) := by
  subst hf
  have done : ¬ (k.action = 2 ∧ ((s.die a.die).fabric a.region).halted = false) := fun h => by simp [hrun h.1] at h
  unfold State.doEdge State.answerAct
  dsimp only
  rw [hk]
  dsimp only
  rw [if_neg done]
  by_cases clock : k.action < 4
  · have other : k.action ≠ 4 ∧ ¬ 4 ≤ k.action ∧ ¬ 5 ≤ k.action := by omega
    rw [if_pos clock, if_pos clock, State.modDie_modDie]
    simp only [State.modDie, Die.acted, Die.modFabric, tmod, Fabric.acted, other, if_false, or_false]
    rfl
  rw [if_neg clock, if_neg clock]
  by_cases capture : k.action = 4
  · rw [if_pos capture, if_pos capture]
    simp only [State.modDie, Die.acted, Die.modFabric, tmod, Fabric.acted, capture]
    rfl
  · have other : k.action ≠ 0 ∧ k.action ≠ 4 ∧ 4 ≤ k.action ∧ 5 ≤ k.action := by omega
    rw [if_neg capture, if_neg capture, State.modDie_modDie]
    simp only [State.modDie, Die.acted, Die.modFabric, tmod, Fabric.acted, other, if_true, if_false, or_true]
    rfl

end

/-- The region once the copy of its memory blocks is done (R262): the clocks run again after a capture of mode 2. -/
def Fabric.copied (f : Fabric) (k : ClkAct) : Fabric := { f with
  copying := none, shadowFm := some (f.fm.map fun e => (e.1, e.2.words))
  halted := if k.action = 6 then false else f.halted }

theorem exec_captureCopyDone (hl : s.live a.die = true) (hr : a.region < 8) (hf : f = (s.die a.die).fabric a.region)
    (hk : f.copying = some k) : exec (.captureCopyDone a) s =
      .next ((s.modDie a.die fun x => (x.modFabric a.region fun f => f.copied k).testPanic a.region).finish 0x0402 k.pkt .ok 0
        (captureReply k.edge 320 f.laneBlocks) []).resume := by
  subst hf
  refine (event_next (by simp [State.regionOn, State.dieCount_of_live hl, hr]) (by simp [State.copyDue, hl, hk])).trans ?_
  unfold State.doCopyDone
  rw [hk]
  rfl

/-- FABRIC_READ whose checks pass, with no capture before it, returns its frames (R292). -/
theorem State.runFabricRead_eq {first count : Nat} (hchk : s.chkFabricRead a first count = none)
    (still : ((s.die a.die).fabric a.region).copying = none)
    (clocks : ∀ k ∈ ((s.die a.die).fabric a.region).acts, k.action < 4) :
    ∃ bytes : List Byte, bytes.length = 128 * count ∧ s.runFabricRead p a first count = s.finish 0x0403 p .ok 0 [] bytes := by
  have free : (((s.die a.die).fabric a.region).acts.any fun k => decide (4 ≤ k.action)) = false := by
    simpa using clocks
  refine ⟨(List.range count).flatMap fun i =>
    le 128 ((s.die a.die).readFrame a.die a.region (faType first) (frameIx first + i)).toNat, ?_, ?_⟩
  · simp [List.length_flatMap, le_length, Nat.mul_comm]
  · unfold State.runFabricRead
    rw [hchk]
    dsimp only
    rw [still, free]
    rfl

end

/-- Settles O10: an action waits through `State.runAct_waits`; at its edge the region becomes what `Fabric.acted` says, and after a
copy what `Fabric.copied` says, but for the ports' panic. -/
theorem clockActions : Obligations.ClockActions := by
  refine ⟨?_, ?_, ?_, ?_, ?_⟩
  · intro s p a edge hrun hperm usable hr conf none_ still named
    have waits {action divisor : Nat} (act : action = 2 → ((s.die a.die).fabric a.region).halted = true)
        {more : List (Bool × Status × Nat)} (hmore : ∀ c ∈ more, c.1 = false) (code : Nat) :=
      State.runAct_waits (p := p) (divisor := divisor) usable hr rfl conf none_ named act hmore code _ rfl
    refine ⟨fun due => ⟨?_, ?_, ?_⟩, fun due => ⟨fun n lo hi => ?_, ?_, fun halted => ?_, ?_⟩⟩
    · exact ⟨_, gate_next due hperm, waits (by simp) (by simp) _⟩
    · exact ⟨_, gate_next due hperm, waits (by simp) (by simp) _⟩
    · exact ⟨_, gate_next due hperm, waits (by simp) (by simp) _⟩
    · exact ⟨_, gate_next due hperm, waits (by simp) (by simp [divisorBad, badAt, lo, hi]) _⟩
    · exact ⟨_, gate_next due hperm, waits (by simp) (by simp) _⟩
    · exact ⟨_, gate_next due hperm, waits (fun _ => halted) (by simp) _⟩
    · exact ⟨_, gate_next due hperm, waits (by simp) (by simp) _⟩
  · intro s a k rest f hf hl hr still hk comes hrun
    have replies := (s.modDie a.die fun x => x.acted a.region k rest).onlyReplies_answerAct k (f.edgeOf k)
    obtain ⟨ports, fabric⟩ := (s.die a.die).acted_fabric a.region k rest
    refine ⟨_, exec_fctrEdgeReached hl hr hf still hk comes, ?_⟩
    rw [State.doEdge_acts hf hk hrun]
    refine ⟨replies.otherDies (OtherDies.modDie s _ _), _, rfl, ?_⟩
    rw [replies.die, State.die_modDie_same, fabric, ← hf]
    refine ⟨rfl, rfl, rfl, rfl, fun h => ?_, fun h => ?_, fun h => ?_, fun h => ?_, fun h => ?_, fun h => ?_, fun hq h => ?_,
      fun hq h => ?_⟩
    · simp [Fabric.acted, h]
    · simp [Fabric.acted, h]
    · simp [Fabric.acted, h]
    · simp [Fabric.acted, h]
    · simp [Fabric.acted, h]
    · have other : ¬ k.action < 4 ∧ k.action ≠ 4 := by omega
      simp [Fabric.acted, h, State.answerAct, other]
    · rw [State.answerAct, if_pos h]
      exact hq.finish_of (State.modDie_queues ..) ..
    · rw [State.answerAct, if_neg (by omega), if_pos h]
      exact hq.finish_of (State.modDie_queues ..) ..
  · intro s a k rest f hf hl hr still hk hrun runs hq
    refine ⟨_, exec_fctrEdgeReached hl hr hf still hk (.inl runs), ?_⟩
    rw [State.doEdge_refuses hf hk hrun runs]
    have replies := State.onlyReplies_refuse (s.modDie a.die fun x => x.modFabric a.region fun f => { f with acts := rest })
      0x0404 k.pkt .badParam 8
    refine ⟨replies.otherDies (OtherDies.modDie s _ _), ?_, ?_⟩
    · exact hq.modDie.refuse ..
    · rw [replies.die, State.die_modDie_same, Die.fabric_modFabric_same, hf]
  · intro s a k f hf hl hr hk hq
    refine ⟨_, exec_captureCopyDone hl hr hf hk, ?_⟩
    have replies := State.onlyReplies_finish (s.modDie a.die fun x => (x.modFabric a.region fun f => f.copied k).testPanic a.region)
      0x0402 k.pkt .ok 0 (captureReply k.edge 320 f.laneBlocks) []
    obtain ⟨ports, fabric⟩ := ((s.die a.die).modFabric a.region fun f => f.copied k).testPanic_fabric a.region
    refine ⟨replies.otherDies (OtherDies.modDie s _ _), hq.finish_of (State.modDie_queues ..) .., _, rfl, ?_⟩
    rw [replies.die, State.die_modDie_same, fabric, Die.fabric_modFabric_same, ← hf]
    exact ⟨rfl, rfl, rfl, rfl, rfl⟩
  · intro s p a first count hq due hperm hchk still clocks
    obtain ⟨bytes, length, eq⟩ := State.runFabricRead_eq (p := p) hchk still clocks
    refine ⟨_, gate_next due hperm, ?_⟩
    rw [eq]
    exact ⟨s.onlyReplies_finish .., bytes, hq.finish .., length⟩

end Sys2Proof.Machine

namespace Sys2Proof.Machine

/-! ## Words and ports of a fabric memory block (R247, R248) -/

/-- A merge replaces the bits of the place and no others. -/
theorem getLsbD_fmMerge (w : BitVec 64) (width lo : Nat) (v : BitVec 64) {i : Nat} (hi : i < 64) :
    (fmMerge w width lo v).getLsbD i = if lo ≤ i ∧ i < lo + width then v.getLsbD (i - lo) else w.getLsbD i := by
  have mask : ((2 ^ width - 1) * 2 ^ lo).testBit i = decide (lo ≤ i ∧ i < lo + width) := by
    rw [Nat.testBit_mul_two_pow, Nat.testBit_two_pow_sub_one, Bool.eq_iff_iff]
    simp only [Bool.and_eq_true, decide_eq_true_eq]
    omega
  have bits : (v.toNat % 2 ^ width * 2 ^ lo).testBit i = (decide (lo ≤ i ∧ i < lo + width) && v.getLsbD (i - lo)) := by
    rw [Nat.testBit_mul_two_pow, Nat.testBit_mod_two_pow, ← BitVec.getLsbD, ← Bool.and_assoc]
    congr 1
    rw [Bool.eq_iff_iff]
    simp only [Bool.and_eq_true, decide_eq_true_eq]
    omega
  rw [fmMerge, BitVec.getLsbD_or, BitVec.getLsbD_and, BitVec.getLsbD_not, BitVec.getLsbD_ofNat, BitVec.getLsbD_ofNat, mask, bits]
  by_cases place : lo ≤ i ∧ i < lo + width
  · simp [place, hi]
  · rw [if_neg place, decide_eq_false place]
    simp [hi]

theorem FmBlk.out_setOut (b : FmBlk) (port : Nat) (v : BitVec 64) (derr : Bool) :
    (b.setOut port v derr).out port = (v, derr) := by
  unfold FmBlk.setOut FmBlk.out
  split <;> rfl

theorem FmBlk.out_setOut_other (b : FmBlk) {port : Nat} (h : port < 2) (v : BitVec 64) (derr : Bool) :
    (b.setOut port v derr).out (1 - port) = b.out (1 - port) := by
  unfold FmBlk.setOut FmBlk.out
  obtain rfl | rfl : port = 0 ∨ port = 1 := by omega
  · rfl
  · rfl

@[simp] theorem FmBlk.setOut_words (b : FmBlk) (port : Nat) (v : BitVec 64) (derr : Bool) :
    (b.setOut port v derr).words = b.words := by
  unfold FmBlk.setOut
  split <;> rfl

theorem FmBlk.tget_store (b : FmBlk) (j i : Nat) (v : BitVec 64) :
    tget (b.store j v).words i 0 = if i = j then v else tget b.words i 0 := by
  unfold FmBlk.store
  dsimp only
  split
  next zero => rw [tget_tdel, zero]
  next => exact tget_tput ..

/-- The block after an access of `port` to the place of `width` bits from bit `lo` of word `j` on: the port shows the place as it is
in `base`, and what is written is merged with `base`, unless the word `stays` (R247, R248). -/
def FmBlk.accessed (b : FmBlk) (port width j lo : Nat) (write : Option (BitVec 64)) (base : BitVec 64) (stays : Bool) : FmBlk :=
  let shown : FmBlk := { b.setOut port (fmBits base width lo) false with last := some (port, j, tget b.words j 0, write.isSome) }
  match write with
  | some v => if stays then shown else shown.store j (fmMerge base width lo v)
  | none => shown

section
variable (b : FmBlk) {port : Nat} (width j lo : Nat) (write : Option (BitVec 64)) (base : BitVec 64) (stays : Bool)

theorem FmBlk.accessed_out (h : port < 2) :
    (b.accessed port width j lo write base stays).out port = (fmBits base width lo, false) ∧
      (b.accessed port width j lo write base stays).out (1 - port) = b.out (1 - port) := by
  have out : ∀ n, (b.accessed port width j lo write base stays).out n = (b.setOut port (fmBits base width lo) false).out n := by
    intro n
    unfold FmBlk.accessed
    dsimp only
    split
    · split <;> rfl
    · rfl
  rw [out, out]
  exact ⟨b.out_setOut .., b.out_setOut_other h ..⟩

theorem FmBlk.accessed_read : (b.accessed port width j lo none base stays).words = b.words := b.setOut_words ..

theorem FmBlk.accessed_stays (v : BitVec 64) : (b.accessed port width j lo (some v) base true).words = b.words := b.setOut_words ..

theorem FmBlk.accessed_write (v : BitVec 64) (i : Nat) : tget (b.accessed port width j lo (some v) base false).words i 0 =
    if i = j then fmMerge base width lo v else tget b.words i 0 := by
  refine (FmBlk.tget_store ..).trans ?_
  dsimp only
  rw [FmBlk.setOut_words]

end

/-! ## An access in the state (R247 to R249) -/

/-- Of the dies only that of region `a` differs, of the region's memory blocks only `blk`, which has become `b`; the queues are as
they were. -/
structure FmWritten (a : RAt) (blk : Nat) (b : FmBlk) (s t : State) : Prop where
  others : OtherDies s t a.die
  queues : t.queues = s.queues
  block  : tget ((t.die a.die).fabric a.region).fm blk FmBlk.reset = b
  rest   : ∀ c, c ≠ blk →
    tget ((t.die a.die).fabric a.region).fm c FmBlk.reset = tget ((s.die a.die).fabric a.region).fm c FmBlk.reset

/-- Nothing of the fabrics, the other dies or the queues differs. -/
structure FmKept (a : RAt) (s t : State) : Prop where
  others  : OtherDies s t a.die
  queues  : t.queues = s.queues
  fabrics : (t.die a.die).fabrics = (s.die a.die).fabrics

section
variable {s t u : State} {a : RAt} {blk : Nat} {b : FmBlk}

theorem FmKept.refl (s : State) (a : RAt) : FmKept a s s := ⟨OtherDies.refl s _, rfl, rfl⟩

theorem FmKept.trans (h : FmKept a s t) (g : FmKept a t u) : FmKept a s u :=
  ⟨h.others.trans g.others, g.queues.trans h.queues, g.fabrics.trans h.fabrics⟩

theorem FmKept.fabric (h : FmKept a s t) : (t.die a.die).fabric a.region = (s.die a.die).fabric a.region := by
  rw [Die.fabric, h.fabrics, Die.fabric]

theorem FmWritten.kept (h : FmWritten a blk b s t) (g : FmKept a t u) : FmWritten a blk b s u where
  others := h.others.trans g.others
  queues := g.queues.trans h.queues
  block := by rw [g.fabric, h.block]
  rest c hc := by rw [g.fabric, h.rest c hc]

theorem FmKept.written (h : FmKept a s t) (g : FmWritten a blk b t u) : FmWritten a blk b s u where
  others := h.others.trans g.others
  queues := g.queues.trans h.queues
  block := g.block
  rest c hc := by rw [g.rest c hc, h.fabric]

/-- A memory block replaced. -/
def State.putFm (s : State) (a : RAt) (blk : Nat) (b : FmBlk) : State :=
  s.modDie a.die fun x => x.modFabric a.region fun f => { f with fm := tput f.fm blk b }

theorem State.putFm_written (s : State) (a : RAt) (blk : Nat) (b : FmBlk) : FmWritten a blk b s (s.putFm a blk b) where
  others := OtherDies.modDie s _ _
  queues := rfl
  block := by simp [State.putFm]
  rest c hc := by simp [State.putFm, tget_tput_other _ _ _ hc]

theorem FmKept.freeNat (s : State) (a : RAt) : FmKept a s s.freeNat.2 := ⟨fun _ _ => rfl, rfl, rfl⟩

theorem FmKept.count (s : State) (a : RAt) (c : Ctr) (n m : Nat) : FmKept a s (s.modDie a.die fun x => x.count c n m) where
  others := OtherDies.modDie s _ _
  queues := rfl
  fabrics := by rw [State.die_modDie_same, ((MetersOnly.refl _).count c n m).fabrics]

theorem FmKept.emit (s : State) (a : RAt) (e : Event) : FmKept a s (s.emit e) :=
  ⟨fun _ _ => s.emit_die .., (s.emit_frame e).2.2.1, by rw [s.emit_die]⟩

theorem FmKept.corrected (s : State) (a : RAt) (kind unit n report : Nat) (region : Option Nat) :
    FmKept a s (s.corrected a.die kind unit n report none region) := by
  have counted : FmKept a s (s.modDie a.die fun x => x.addErr (unitKey kind unit) nclkHour n) :=
    ⟨OtherDies.modDie s _ _, rfl, by rw [State.die_modDie_same, Die.addErr_fabrics]⟩
  unfold State.corrected State.correctedIn
  dsimp only
  split
  · exact counted.trans (.emit ..)
  · exact counted

theorem FmKept.fence (s : State) (a : RAt) (kind unit cause : Nat) (region : Option Nat) :
    FmKept a s (s.fence a.die kind unit cause region) := by
  obtain ⟨others, fenced, die⟩ := s.fence_frame a.die kind unit cause region
  refine ⟨others, ?_, by rw [die]⟩
  unfold State.fence
  dsimp only
  split_ifs
  · rfl
  · rfl
  · exact (State.emit_frame ..).2.2.1

theorem FmKept.fmMeet (s : State) (a : RAt) (b : FmBlk) (common : Bool) (port j : Nat) (write meets : Bool) (w : BitVec 64) :
    FmKept a s (s.fmMeet b common port j write meets w).2.2 := by
  unfold State.fmMeet
  split
  · exact .refl ..
  · split
    · exact .refl ..
    · split
      · split
        · exact .refl ..
        · exact .refl ..
      · split
        · exact .refl ..
        · exact .freeNat ..

theorem FmKept.fmMeet_eq {common write meets : Bool} {port j : Nat} {w base : BitVec 64} {stays : Bool}
    (h : s.fmMeet b common port j write meets w = (base, stays, t)) : FmKept a s t := by
  have kept := FmKept.fmMeet s a b common port j write meets w
  rwa [h] at kept

end

/-! ## FM_ACCESS -/

section
variable {s : State} {a : RAt} {blk port line width addr bits : Nat} {write : Option (BitVec 64)} {meets : Bool} {f : Fabric}

/-- The port of a design that runs has an edge of its clock line, and the address lies in the block. -/
theorem exec_fmAccess (hd : a.die < s.dieCount) (hr : a.region < 8) (hblk : blk < 320) (hport : port < 2)
    (hf : f = (s.die a.die).fabric a.region) (hp : f.fmPort blk port = (line, width)) (haddr : addr * width < 32768)
    (runs : s.designRuns a = true) (edge : f.lineRuns line = true) :
    exec (.fmAccess a blk port addr write meets bits) s = .next (s.fmStep a blk port addr write meets bits) := by
  subst hf
  refine event_next (by simp [hd, hr, hblk, hport]) ?_
  rw [hp]
  simp [runs, edge, haddr]

/-- The two ports of a block have one clock line when the other port's is this one's. -/
theorem Fabric.common_lines (hport : port < 2) (hp : f.fmPort blk port = (line, width)) :
    decide ((f.fmPort blk 0).1 = (f.fmPort blk 1).1) = decide ((f.fmPort blk (1 - port)).1 = line) := by
  obtain rfl | rfl : port = 0 ∨ port = 1 := by omega
  · simp [hp, eq_comm]
  · simp [hp]

/-- What an access to a block finds where it does not meet another: the word as it stands. -/
theorem State.fmMeet_apart (s : State) (b : FmBlk) (common : Bool) (port j : Nat) (write : Bool) (w : BitVec 64) :
    s.fmMeet b common port j write false w = (w, false, s) := by
  unfold State.fmMeet
  split <;> rfl

section
variable {b : FmBlk} {j : Nat} {old : BitVec 64} (hport : port < 2) (hlast : b.last = some (1 - port, j, old, true))
  (w : BitVec 64)
include hport hlast

/-- On one clock line port B meets a write of port A: it reads the word before it, and writes nothing. -/
theorem State.fmMeet_common (hB : port = 1) (write : Bool) :
    s.fmMeet b true port j write true w = (if write then w else old, write, s) := by
  subst hB
  unfold State.fmMeet
  rw [hlast]
  cases write <;> simp

/-- On different lines a write meets a write: it is merged with the word before that. -/
theorem State.fmMeet_write : s.fmMeet b false port j true true w = (old, false, s) := by
  have other : ((1 - port) != port) = true := by rw [bne_iff_ne]; omega
  unfold State.fmMeet
  rw [hlast]
  simp [other]

/-- On different lines a read meets a write: it finds the word before it, or the word as it stands. -/
theorem State.fmMeet_read : ∃ u, (u = w ∨ u = old) ∧ s.fmMeet b false port j false true w = (u, false, s.freeNat.2) := by
  have other : ((1 - port) != port) = true := by rw [bne_iff_ne]; omega
  unfold State.fmMeet
  rw [hlast]
  refine ⟨if s.freeNat.1 % 2 = 0 then old else w, ?_, by simp [other]⟩
  split
  · exact .inr rfl
  · exact .inl rfl

end

section
variable {b : FmBlk} {base : BitVec 64} {stays : Bool} {s0 : State} (hf : f = (s.die a.die).fabric a.region)
  (hp : f.fmPort blk port = (line, width)) (hb : b = tget f.fm blk FmBlk.reset)
include hf hp hb

theorem State.fmStep_fenced (hfence : (s.die a.die).isFenced 11 (320 * a.region + blk) = true) :
    s.fmStep a blk port addr write meets bits = if write.isSome then s else s.putFm a blk (b.setOut port 0 true) := by
  subst hf hb
  unfold State.fmStep
  dsimp only [fmPlace]
  rw [if_pos hfence]
  cases write <;> rfl

variable (hfence : (s.die a.die).isFenced 11 (320 * a.region + blk) = false)
  {common : Bool} (lines : decide ((f.fmPort blk 0).1 = (f.fmPort blk 1).1) = common)
  (hm : s.fmMeet b common port (addr * width / 64) write.isSome meets (tget b.words (addr * width / 64) 0) = (base, stays, s0))
include hfence lines hm

/-- An access by what the check bits of its word show: nothing wrong, or a whole word written over; an error corrected; an error
that cannot be, after which the word is a free value (log entry 10). -/
theorem State.fmStep_eq : s.fmStep a blk port addr write meets bits =
    let j := addr * width / 64
    let lo := addr * width % 64
    let acc := b.accessed port width j lo write base stays
    let v := BitVec.ofNat 64 s0.freeNat.1
    if bits = 0 ∨ (write.isSome ∧ width = 64) then s0.putFm a blk acc
    else if bits = 1 then
      ((s0.putFm a blk (if write.isSome then acc else { acc with wback := some j })).modDie a.die fun x =>
        x.count fmCorrected a.region 1).corrected a.die 11 (320 * a.region + blk) 1 16 none (some a.region)
    else
      ((s0.freeNat.2.putFm a blk ((b.store j v).setOut port (fmBits v width lo) true)).modDie a.die fun x =>
        x.count fmUncorrected a.region 1).fence a.die 11 (320 * a.region + blk) 1 (some a.region) := by
  subst hf hb lines
  unfold State.fmStep
  dsimp only [fmPlace]
  rw [if_neg (by rw [hfence]; exact Bool.false_ne_true), hp, hm]
  rfl

/-- Without an error that cannot be corrected an access writes the block; a corrected word that is read waits to be written
back. -/
theorem State.fmStep_written (hbits : bits < 2) : ∃ g, FmWritten a blk g s (s.fmStep a blk port addr write meets bits) ∧
    g.words = (b.accessed port width (addr * width / 64) (addr * width % 64) write base stays).words ∧
    g.out = (b.accessed port width (addr * width / 64) (addr * width % 64) write base stays).out ∧
    (write = none → bits = 1 → g.wback = some (addr * width / 64)) := by
  have found : FmKept a s s0 := FmKept.fmMeet_eq hm
  have corrects (t : State) : FmKept a t ((t.modDie a.die fun x => x.count fmCorrected a.region 1).corrected a.die 11
      (320 * a.region + blk) 1 16 none (some a.region)) := (FmKept.count ..).trans (.corrected ..)
  rw [State.fmStep_eq hf hp hb hfence lines hm]
  dsimp only
  split_ifs with clean corrected written
  · refine ⟨_, found.written (s0.putFm_written a blk _), rfl, rfl, fun hw h1 => ?_⟩
    subst hw h1
    simp at clean
  · refine ⟨_, (found.written (s0.putFm_written a blk _)).kept (corrects _), rfl, rfl, fun hw => ?_⟩
    subst hw
    cases written
  · exact ⟨_, (found.written (s0.putFm_written a blk _)).kept (corrects _), rfl, rfl, fun _ _ => rfl⟩
  · omega

/-- An error that cannot be corrected shows at the port and fences the block. -/
theorem State.fmStep_uncorrectable (hbits : 2 ≤ bits) (reads : write = none ∨ width < 64) :
    ∃ g, FmWritten a blk g s (s.fmStep a blk port addr write meets bits) ∧ (g.out port).2 = true ∧
      ((s.fmStep a blk port addr write meets bits).die a.die).isFenced 11 (320 * a.region + blk) = true := by
  have found : FmKept a s s0 := FmKept.fmMeet_eq hm
  have merged : ¬ (bits = 0 ∨ (write.isSome = true ∧ width = 64)) := by
    rintro (none_ | ⟨written, whole⟩)
    · omega
    · obtain rfl | narrow := reads
      · cases written
      · omega
  rw [State.fmStep_eq hf hp hb hfence lines hm]
  dsimp only
  rw [if_neg merged, if_neg (by omega)]
  have written := (found.trans (.freeNat s0 a)).written (s0.freeNat.2.putFm_written a blk ((b.store (addr * width / 64)
    (.ofNat 64 s0.freeNat.1)).setOut port (fmBits (.ofNat 64 s0.freeNat.1) width (addr * width % 64)) true))
  refine ⟨_, written.kept ((FmKept.count ..).trans (.fence ..)), ?_, ?_⟩
  · rw [FmBlk.out_setOut]
  · simp [State.fence_isFenced]

end

end

/-- Settles O28: an access is that of `State.fmStep_eq`, and what it meets is one of `State.fmMeet_apart`, `State.fmMeet_common`,
`State.fmMeet_write` and `State.fmMeet_read`. -/
theorem fabricMemoryPorts : Obligations.FabricMemoryPorts := by
  refine ⟨?_, ?_, ?_, ?_, ?_⟩
  · intro s a blk port line width addr bits write f b w j lo hd hr hblk hport hf hp _ haddr runs edge hfence hb hj hlo hw hbits
    subst hj hlo hw
    obtain ⟨g, written, words, out, wback⟩ := State.fmStep_written hf hp hb hfence rfl (s.fmMeet_apart ..) hbits
    obtain ⟨shown, beside⟩ := b.accessed_out (port := port) width (addr * width / 64) (addr * width % 64) write
      (tget b.words (addr * width / 64) 0) false hport
    refine ⟨_, exec_fmAccess hd hr hblk hport hf hp haddr runs edge, written.others, written.queues, g, written.block.symm,
      ?_, ?_, fun i hi => ?_, fun hw => ?_, wback, fun v hv i hi => ?_, fun c hc => ?_⟩
    · rw [out, shown]
      rfl
    · rw [out, beside]
    · rw [words]
      cases write with
      | none => rw [FmBlk.accessed_read]
      | some v => rw [FmBlk.accessed_write, if_neg hi]
    · rw [words, hw, FmBlk.accessed_read]
    · rw [words, hv, FmBlk.accessed_write, if_pos rfl, getLsbD_fmMerge _ _ _ _ hi]
    · rw [written.rest c hc, hf]
  · intro s a blk port line width addr f b w old j lo hd hr hblk hport hf hp _ haddr runs edge hfence hb hj hlo hw hlast
    subst hj hlo hw
    have accesses (write : Option (BitVec 64)) := exec_fmAccess (write := write) (meets := true) (bits := 0) hd hr hblk hport hf hp
      haddr runs edge
    have lines := Fabric.common_lines hport hp
    refine ⟨fun common hB => ?_, fun differ => ?_⟩
    · rw [decide_eq_true common] at lines
      refine ⟨?_, fun v => ?_⟩
      · obtain ⟨g, written, words, out, -⟩ := State.fmStep_written (write := none) hf hp hb hfence lines
          (State.fmMeet_common hport hlast _ hB _) Nat.zero_lt_two
        refine ⟨_, accesses none, ?_, ?_⟩
        · rw [written.block, out, (b.accessed_out _ _ _ _ _ _ hport).1]
          rfl
        · rw [written.block, words, FmBlk.accessed_read]
      · obtain ⟨g, written, words, -⟩ := State.fmStep_written (write := some v) hf hp hb hfence lines
          (State.fmMeet_common hport hlast _ hB _) Nat.zero_lt_two
        exact ⟨_, accesses (some v), (congrArg FmBlk.words written.block).trans (words.trans (b.accessed_stays ..))⟩
    · rw [decide_eq_false differ] at lines
      refine ⟨?_, fun v => ?_⟩
      · obtain ⟨u, found, met⟩ := s.fmMeet_read hport hlast (tget b.words (addr * width / 64) 0)
        obtain ⟨g, written, words, out, -⟩ := State.fmStep_written (write := none) hf hp hb hfence lines met
          Nat.zero_lt_two
        refine ⟨_, accesses none, u, found, ?_, ?_⟩
        · rw [written.block, out, (b.accessed_out _ _ _ _ _ _ hport).1]
          rfl
        · rw [written.block, words, FmBlk.accessed_read]
      · obtain ⟨g, written, words, -⟩ := State.fmStep_written (write := some v) hf hp hb hfence lines
          (State.fmMeet_write hport hlast _) Nat.zero_lt_two
        refine ⟨_, accesses (some v), fun i hi => ?_⟩
        rw [written.block, words, FmBlk.accessed_write, if_pos rfl, getLsbD_fmMerge _ _ _ _ hi]
  · intro s a blk port line width addr bits meets write hd hr hblk hport hp haddr runs edge hfence hbits reads
    obtain ⟨g, written, derr, fenced⟩ := State.fmStep_uncorrectable (meets := meets) rfl hp rfl hfence rfl rfl hbits reads
    refine ⟨_, exec_fmAccess hd hr hblk hport rfl hp haddr runs edge, written.others, written.queues, fenced, ?_⟩
    rw [written.block, derr]
  · intro s a blk port line width addr bits meets write hd hr hblk hport hp haddr runs edge hfence
    refine ⟨_, exec_fmAccess hd hr hblk hport rfl hp haddr runs edge, ?_⟩
    rw [State.fmStep_fenced rfl hp rfl hfence]
    cases write with
    | some v => exact ⟨fun _ _ => rfl, rfl, rfl, by simp⟩
    | none =>
      have written := s.putFm_written a blk ((tget ((s.die a.die).fabric a.region).fm blk FmBlk.reset).setOut port 0 true)
      refine ⟨written.others, written.queues, ?_, fun _ => ?_⟩
      · rw [if_neg (by simp), written.block, FmBlk.setOut_words]
      · rw [if_neg (by simp), written.block, FmBlk.out_setOut]
  · intro s a blk f hd hr hblk runs hf edge waits
    subst hf
    refine ⟨_, event_next (by simp [hd, hr, hblk]) ?_, OtherDies.modDie s _ _, rfl, ?_⟩
    · simp [runs, waits, edge]
    · rw [State.die_modDie_same, Die.fabric_modFabric_same]
      simp

end Sys2Proof.Machine

namespace Sys2Proof.Machine

/-! ## Folds whose steps write apart -/

/-- What no step of a fold changes is as it was. -/
theorem foldl_keeps {σ ι β : Type} {step : σ → ι → σ} (read : σ → β) {l : List ι} (keeps : ∀ j ∈ l, ∀ s, read (step s j) = read s)
    (s : σ) : read (l.foldl step s) = read s :=
  List.foldlRecOn (motive := fun t => read t = read s) l step rfl fun t ht j hj => (keeps j hj t).trans ht

/-- What one element's step writes, and the steps of the others leave, stands after the fold. -/
theorem foldl_writes {σ ι β : Type} {step : σ → ι → σ} (read : σ → β) {l : List ι} {i : ι} {v : β} (hi : i ∈ l)
    (own : ∀ s, read (step s i) = v) (others : ∀ j ∈ l, j ≠ i → ∀ s, read (step s j) = read s) (s : σ) :
    read (l.foldl step s) = v := by
  obtain ⟨before, after, rfl⟩ := List.append_of_mem hi
  have kept : ∀ j ∈ after, ∀ s, read s = v → read (step s j) = v := by
    intro j hj s hs
    by_cases he : j = i
    · rw [he, own]
    · rw [others j (by simp [hj]) he, hs]
  rw [List.foldl_append, List.foldl_cons]
  exact List.foldlRecOn (motive := fun t => read t = v) after step (own _) fun t ht j hj => kept j hj t ht

theorem ne_of_tfind_none {α : Type} {t : Tbl α} {k : Nat} (h : tfind t k = none) : ∀ b ∈ t, b.1 ≠ k := by
  induction t with
  | nil => simp
  | cons b t ih =>
    rw [tfind] at h
    split at h
    · cases h
    next hb => exact List.forall_mem_cons.mpr ⟨hb, ih h⟩

/-! ## A logic block at an edge (R239 to R242) -/

theorem tget_setFlag (t : Tbl Bool) (n m : Nat) (v : Bool) : tget (setFlag t n v) m false = if m = n then v else tget t m false := by
  unfold setFlag
  cases v
  · exact tget_tdel ..
  · exact tget_tput ..

section
variable (x : Die) (d r line : Nat) (falling : Bool) (e : EdgeIn)

/-- The flip-flop `n` of cell `k` of a block after the edge (R241). -/
def Die.ffAfter (b : Nat × BlockCfg) (k : Nat) (c : FfCfg) (n : Nat) (side : Bool) : Bool :=
  let on := decide (b.2.line = line) && (x.fabric r).lineRuns line
  ffNext c (edgeInOf e b.1) (on && c.neg == falling) b.2.sync
    (tget (x.fabric r).ff n false)
    (ffD c ((x.cellOuts d r e b.1).getD k (false, false)) (blkCarry (x.cellOuts d r e b.1) (x.carryOf d r e b.1) k) side)

/-- The table of cell `k` of a block after the edge (R239). -/
def Die.tableAfter (b : Nat × BlockCfg) (k : Nat) (c : CellCfg) : BitVec 64 :=
  let on := decide (b.2.line = line) && (x.fabric r).lineRuns line
  shiftNext c (edgeInOf e b.1) (on && !falling)
    (if k = 0 then x.shiftOf d r e b.1 else ((x.cellOuts d r e b.1).getD (k - 1) (false, false)).2) (blkJk (edgeInOf e b.1) k).1
    (x.cellTable d r b.1 k)

/-- One cell of a block at the edge. -/
def Die.clockCell (b : Nat × BlockCfg) (f : Fabric) (q : Nat × CellCfg) : Fabric :=
  let n := 16 * b.1 + 2 * q.1
  { f with
    ff := setFlag (setFlag f.ff n (x.ffAfter d r line falling e b q.1 q.2.fa n (blkJk (edgeInOf e b.1) q.1).1)) (n + 1)
      (x.ffAfter d r line falling e b q.1 q.2.fb (n + 1) (blkJk (edgeInOf e b.1) q.1).2)
    shift := if q.2.mode = .shift then tput f.shift (8 * b.1 + q.1) (x.tableAfter d r line falling e b q.1 q.2) else f.shift }

theorem Die.clockBlock_eq (f : Fabric) (b : Nat × BlockCfg) : x.clockBlock d r line falling e f b =
    (b.2.cells.mapIdx fun k c => (k, c)).foldl (x.clockCell d r line falling e b) f := rfl

/-- The blocks of a design at the edge. -/
def Die.clockBlocks (f : Fabric) (l : List (Nat × BlockCfg)) : Fabric :=
  l.foldl (fun f b => x.clockBlock d r line falling e f b) f

end

/-- Of a fabric, nothing differs but flip-flops and shift tables. -/
def CellsOnly (f g : Fabric) : Prop := g = { f with ff := g.ff, shift := g.shift }

theorem CellsOnly.trans {f g h : Fabric} (a : CellsOnly f g) (b : CellsOnly g h) : CellsOnly f h := by
  unfold CellsOnly at *
  rw [b, a]

/-- A cell stands in the list of a block's cells under its number. -/
theorem mem_cells {l : List CellCfg} {q : Nat × CellCfg} : q ∈ l.mapIdx (fun k c => (k, c)) ↔ l[q.1]? = some q.2 := by
  rw [List.mem_mapIdx]
  constructor
  · rintro ⟨k, hk, rfl⟩
    exact List.getElem?_eq_getElem hk
  · intro h
    obtain ⟨hk, eq⟩ := List.getElem?_eq_some_iff.mp h
    exact ⟨q.1, hk, by rw [eq]⟩

theorem eq_of_mem_cells {l : List CellCfg} {k : Nat} {c : CellCfg} {q : Nat × CellCfg} (hc : l[k]? = some c)
    (hq : q ∈ l.mapIdx fun k c => (k, c)) (hk : q.1 = k) : q = (k, c) := by
  have hq := mem_cells.mp hq
  rw [hk, hc] at hq
  exact Prod.ext hk (Option.some.inj hq).symm

theorem eq_of_mem_tfind {α : Type} {t : Tbl α} {k : Nat} {v : α} {b : Nat × α} (nodup : (tkeys t).Nodup) (h : tfind t k = some v)
    (hb : b ∈ t) (hk : b.1 = k) : b = (k, v) :=
  List.inj_on_of_nodup_map nodup hb (mem_of_tfind h) hk

section
variable (x : Die) (d r line : Nat) (falling : Bool) (e : EdgeIn) (f : Fabric) (b : Nat × BlockCfg)

theorem Die.clockBlocks_cellsOnly (l : List (Nat × BlockCfg)) : CellsOnly f (x.clockBlocks d r line falling e f l) :=
  List.foldlRecOn (motive := CellsOnly f) l _ rfl fun _ hg b _ =>
    List.foldlRecOn (motive := CellsOnly f) _ (x.clockCell d r line falling e b) hg fun _ hg _ _ => hg.trans rfl

theorem Die.clockCell_ff_other {q : Nat × CellCfg} {n : Nat} (h : n ≠ 16 * b.1 + 2 * q.1) (h' : n ≠ 16 * b.1 + 2 * q.1 + 1) :
    tget (x.clockCell d r line falling e b f q).ff n false = tget f.ff n false := by
  simp only [Die.clockCell, tget_setFlag, if_neg h, if_neg h']

theorem Die.clockCell_shift_other {q : Nat × CellCfg} {n : Nat} (h : q.2.mode = .shift → n ≠ 8 * b.1 + q.1) :
    tfind (x.clockCell d r line falling e b f q).shift n = tfind f.shift n := by
  simp only [Die.clockCell]
  split
  next hm => exact tfind_tput_other _ _ (h hm)
  next => rfl

section
variable {b} (len : b.2.cells.length = 8)
include len

theorem lt_of_mem_cells {q : Nat × CellCfg} (hq : q ∈ b.2.cells.mapIdx fun k c => (k, c)) : q.1 < 8 := by
  have := (List.getElem?_eq_some_iff.mp (mem_cells.mp hq)).1
  omega

/-- A block writes its own 16 flip-flops. -/
theorem Die.clockBlock_ff_other {n : Nat} (h : n / 16 ≠ b.1) :
    tget (x.clockBlock d r line falling e f b).ff n false = tget f.ff n false := by
  rw [Die.clockBlock_eq]
  refine foldl_keeps (fun g : Fabric => tget g.ff n false) (fun q hq g => ?_) f
  have := lt_of_mem_cells len hq
  exact x.clockCell_ff_other _ _ _ _ _ _ _ (by omega) (by omega)

/-- A block writes its own eight tables. -/
theorem Die.clockBlock_shift_other {n : Nat} (h : n / 8 ≠ b.1) :
    tfind (x.clockBlock d r line falling e f b).shift n = tfind f.shift n := by
  rw [Die.clockBlock_eq]
  refine foldl_keeps (fun g : Fabric => tfind g.shift n) (fun q hq g => ?_) f
  have := lt_of_mem_cells len hq
  exact x.clockCell_shift_other _ _ _ _ _ _ _ fun _ => by omega

end

/-- What cell `k` of block `blk` writes, and the other cells and blocks of the design leave, stands after the edge. -/
theorem Die.clockBlocks_cell {β : Type} (read : Fabric → β) {v : β} {l : List (Nat × BlockCfg)} {blk k : Nat} {cfg : BlockCfg}
    {c : CellCfg} (nodup : (tkeys l).Nodup) (hb : tfind l blk = some cfg) (hc : cfg.cells[k]? = some c)
    (own : ∀ g, read (x.clockCell d r line falling e (blk, cfg) g (k, c)) = v)
    (cells : ∀ q : Nat × CellCfg, q.1 ≠ k → ∀ g, read (x.clockCell d r line falling e (blk, cfg) g q) = read g)
    (blocks : ∀ b ∈ l, b.1 ≠ blk → ∀ g, read (x.clockBlock d r line falling e g b) = read g) :
    read (x.clockBlocks d r line falling e f l) = v := by
  refine foldl_writes read (mem_of_tfind hb) (fun g => ?_)
    (fun b hb' hne => blocks b hb' fun he => hne (eq_of_mem_tfind nodup hb hb' he)) f
  rw [Die.clockBlock_eq]
  exact foldl_writes read (mem_cells.mpr hc) own (fun q hq hne => cells q fun he => hne (eq_of_mem_cells hc hq he)) g

section
variable {l : List (Nat × BlockCfg)} {blk k : Nat} {cfg : BlockCfg} {c : CellCfg} (nodup : (tkeys l).Nodup)
  (len : ∀ b ∈ l, b.2.cells.length = 8) (hb : tfind l blk = some cfg) (hc : cfg.cells[k]? = some c)
include nodup len hb hc

theorem Die.clockBlocks_fa : tget (x.clockBlocks d r line falling e f l).ff (16 * blk + 2 * k) false =
    x.ffAfter d r line falling e (blk, cfg) k c.fa (16 * blk + 2 * k) (blkJk (edgeInOf e blk) k).1 := by
  have hk := lt_of_mem_cells (q := (k, c)) (len _ (mem_of_tfind hb)) (mem_cells.mpr hc)
  refine x.clockBlocks_cell d r line falling e f (fun g => tget g.ff (16 * blk + 2 * k) false) nodup hb hc (fun g => ?_)
    (fun q hq g => ?_) (fun b hb' hne g => ?_)
  · simp [Die.clockCell, tget_setFlag]
  · exact x.clockCell_ff_other _ _ _ _ _ _ _ (by dsimp only; omega) (by dsimp only; omega)
  · exact x.clockBlock_ff_other _ _ _ _ _ _ (len b hb') (by omega)

theorem Die.clockBlocks_fb : tget (x.clockBlocks d r line falling e f l).ff (16 * blk + 2 * k + 1) false =
    x.ffAfter d r line falling e (blk, cfg) k c.fb (16 * blk + 2 * k + 1) (blkJk (edgeInOf e blk) k).2 := by
  have hk := lt_of_mem_cells (q := (k, c)) (len _ (mem_of_tfind hb)) (mem_cells.mpr hc)
  refine x.clockBlocks_cell d r line falling e f (fun g => tget g.ff (16 * blk + 2 * k + 1) false) nodup hb hc (fun g => ?_)
    (fun q hq g => ?_) (fun b hb' hne g => ?_)
  · simp [Die.clockCell, tget_setFlag]
  · exact x.clockCell_ff_other _ _ _ _ _ _ _ (by dsimp only; omega) (by dsimp only; omega)
  · exact x.clockBlock_ff_other _ _ _ _ _ _ (len b hb') (by omega)

theorem Die.clockBlocks_table (shift : c.mode = .shift) : tfind (x.clockBlocks d r line falling e f l).shift (8 * blk + k) =
    some (x.tableAfter d r line falling e (blk, cfg) k c) := by
  have hk := lt_of_mem_cells (q := (k, c)) (len _ (mem_of_tfind hb)) (mem_cells.mpr hc)
  refine x.clockBlocks_cell d r line falling e f (fun g => tfind g.shift (8 * blk + k)) nodup hb hc (fun g => ?_)
    (fun q hq g => ?_) (fun b hb' hne g => ?_)
  · simp [Die.clockCell, shift]
  · exact x.clockCell_shift_other _ _ _ _ _ _ _ fun _ => by dsimp only; omega
  · exact x.clockBlock_shift_other _ _ _ _ _ _ (len b hb') (by omega)

/-- A cell in another mode keeps what its table's place held. -/
theorem Die.clockBlocks_table_kept (other : c.mode ≠ .shift) :
    tfind (x.clockBlocks d r line falling e f l).shift (8 * blk + k) = tfind f.shift (8 * blk + k) := by
  have hk := lt_of_mem_cells (q := (k, c)) (len _ (mem_of_tfind hb)) (mem_cells.mpr hc)
  refine foldl_keeps (fun g : Fabric => tfind g.shift (8 * blk + k)) (fun b hb' g => ?_) f
  by_cases he : b.1 = blk
  · obtain rfl := eq_of_mem_tfind nodup hb hb' he
    rw [Die.clockBlock_eq]
    refine foldl_keeps (fun g : Fabric => tfind g.shift (8 * blk + k)) (fun q hq g => ?_) g
    refine x.clockCell_shift_other _ _ _ _ _ _ _ fun shift hkq => other ?_
    rwa [eq_of_mem_cells hc hq (by dsimp only at hkq; omega)] at shift
  · exact x.clockBlock_shift_other _ _ _ _ _ _ (len b hb') (by omega)

end

/-- No block writes a flip-flop of a block that the design has not. -/
theorem Die.clockBlocks_ff_other {l : List (Nat × BlockCfg)} (len : ∀ b ∈ l, b.2.cells.length = 8) {n : Nat}
    (hn : tfind l (n / 16) = none) : tget (x.clockBlocks d r line falling e f l).ff n false = tget f.ff n false :=
  foldl_keeps (fun g : Fabric => tget g.ff n false)
    (fun b hb g => x.clockBlock_ff_other _ _ _ _ _ g (len b hb) (ne_of_tfind_none hn b hb).symm) f

end

/-! ## What a block's neighbours bring (R239, R242) -/

/-- What a die's blocks read of it: its frames, and of the region's fabric the design and the shift tables. -/
structure SameCells (r : Nat) (x y : Die) : Prop where
  frames : y.frames = x.frames
  design : (y.fabric r).design = (x.fabric r).design
  shift  : (y.fabric r).shift = (x.fabric r).shift

section
variable {r : Nat} {x y : Die} (h : SameCells r x y) (d : Nat) (e : EdgeIn)
include h

theorem SameCells.cellTable : y.cellTable d r = x.cellTable d r := by
  funext blk k
  rw [Die.cellTable, h.shift, Die.frameWord, Die.frameBits, h.frames]
  rfl

theorem SameCells.cellOuts : y.cellOuts d r e = x.cellOuts d r e := by
  funext blk
  rw [Die.cellOuts, h.design, h.cellTable]
  rfl

theorem SameCells.carryOf : y.carryOf d r e = x.carryOf d r e := by
  funext blk
  rw [Die.carryOf, h.cellOuts, h.design]
  rfl

theorem SameCells.shiftOf : y.shiftOf d r e = x.shiftOf d r e := by
  funext blk
  rw [Die.shiftOf, h.cellOuts]
  rfl

theorem SameCells.blkShows : y.blkShows d r e = x.blkShows d r e := by
  funext blk
  rw [Die.blkShows, h.cellOuts, h.carryOf]
  rfl

end

/-! ## FABRIC_CLOCK_EDGE -/

theorem Fabric.clockLanes_lanes (f : Fabric) (line : Nat) (e : EdgeIn) :
    ∃ lanes, f.clockLanes line e = { f with lanes := lanes } := by
  unfold Fabric.clockLanes
  split
  · exact ⟨_, rfl⟩
  · split
    · exact ⟨_, rfl⟩
    · split <;> exact ⟨_, rfl⟩

/-- FCTR counts a rising edge of FCLKr that is not halted (R246). -/
theorem Fabric.fclkRises (f : Fabric) (line : Nat) (falling : Bool) :
    (f.lineRuns line && decide (line = 0) && !falling) = decide (line = 0 ∧ falling = false ∧ f.halted = false) := by
  by_cases h0 : line = 0
  · cases falling <;> simp [h0, Fabric.lineRuns]
  · simp [h0]

/-- The state once FCTR has counted the edge, where it is a rising one of FCLKr that is not halted. -/
def State.counted (s : State) (a : RAt) (line : Nat) (falling : Bool) : State :=
  if ((s.die a.die).fabric a.region).lineRuns line && decide (line = 0) && !falling then s.fctrTick a else s

theorem State.counted_facts (s : State) (a : RAt) (line : Nat) (falling : Bool) (f : Fabric)
    (hf : f = (s.die a.die).fabric a.region) :
    OtherDies s (s.counted a line falling) a.die ∧ (s.counted a line falling).queues = s.queues ∧
      ((s.counted a line falling).die a.die).frames = (s.die a.die).frames ∧
      ((s.counted a line falling).die a.die).fabric a.region = { f with
        fctr := if line = 0 ∧ falling = false ∧ f.halted = false then (f.fctr + 1) % 2 ^ 64 else f.fctr } := by
  unfold State.counted
  rw [← hf, Fabric.fclkRises]
  simp only [decide_eq_true_eq]
  split
  · refine ⟨OtherDies.modDie s _ _, rfl, ?_, ?_⟩
    · rw [State.fctrTick, State.die_modDie_same, Die.modFabric_frames]
    · rw [State.fctrTick, State.die_modDie_same, Die.fabric_modFabric_same, ← hf]
  · exact ⟨fun _ _ => rfl, rfl, rfl, hf.symm⟩

/-- The region's fabric after the edge: the blocks clocked, their outputs shown; the signals, pins and lanes are read by no block. -/
theorem State.fabricEdge_facts {s u : State} {a : RAt} {line : Nat} {falling : Bool} (e : EdgeIn) {f g : Fabric}
    (hu : u = s.counted a line falling) (hf : f = (u.die a.die).fabric a.region)
    (hg : g = (u.die a.die).clockBlocks a.die a.region line falling e f f.design.blocks) :
    OtherDies u (s.fabricEdge a line falling e) a.die ∧ (s.fabricEdge a line falling e).queues = u.queues ∧
      ((s.fabricEdge a line falling e).die a.die).frames = (u.die a.die).frames ∧
      ∃ sig pinRegs lanes, ((s.fabricEdge a line falling e).die a.die).fabric a.region = { g with
        outs := f.design.blocks.foldl (fun t b => tput t b.1 ((u.die a.die).blkShows a.die a.region e b.1)) g.outs
        sig := sig, pinRegs := pinRegs, lanes := lanes } := by
  subst hu hf hg
  refine ⟨OtherDies.modDie (s.counted a line falling) _ _, rfl, ?_, ?_⟩
  · unfold State.fabricEdge
    dsimp only
    rw [State.die_modDie_same, Die.modFabric_frames]
    rfl
  · unfold State.fabricEdge
    dsimp only
    rw [State.die_modDie_same, Die.fabric_modFabric_same]
    split
    · obtain ⟨lanes, eq⟩ := Fabric.clockLanes_lanes (Fabric.clockPins _ line falling e) line e
      exact ⟨_, _, lanes, eq⟩
    · exact ⟨_, _, _, rfl⟩

/-- What is put under each number of a list of different ones is found under it. -/
theorem tfind_shown {β γ : Type} {l : List (Nat × β)} (nodup : (tkeys l).Nodup) {blk : Nat} {cfg : β} (hb : tfind l blk = some cfg)
    (shown : Nat → γ) (t : Tbl γ) : tfind (l.foldl (fun t b => tput t b.1 (shown b.1)) t) blk = some (shown blk) :=
  foldl_writes (fun t : Tbl γ => tfind t blk) (mem_of_tfind hb) (fun _ => tfind_tput_same ..)
    (fun _ hb' hne _ => tfind_tput_other _ _ fun he => hne (eq_of_mem_tfind nodup hb hb' he.symm)) t

/-- Settles O29: the edge's effect on the region is `State.fabricEdge_facts`; what a cell writes is not written again by another
cell or block (`Die.clockBlocks_fa`, `Die.clockBlocks_fb`, `Die.clockBlocks_table`), and FCTR, which may have counted, is read by
no block (`SameCells`). -/
theorem logicBlockEdge : Obligations.LogicBlockEdge := by
  intro s a line falling e blk cfg x f i outs c0 on hd hr hl runs hx hf free nodup len hb hi houts hc0 hon
  subst hx hi houts hc0 hon
  obtain ⟨others, queues, frames, fabric⟩ := s.counted_facts a line falling f hf
  obtain ⟨others', queues', frames', sig, pinRegs, lanes, fabric'⟩ :=
    State.fabricEdge_facts (s := s) (a := a) (line := line) (falling := falling) e rfl rfl rfl
  generalize (s.counted a line falling).die a.die = y at *
  have same : SameCells a.region (s.die a.die) y := ⟨frames, by rw [fabric, hf], by rw [fabric, hf]⟩
  rw [fabric] at fabric'
  have cells := y.clockBlocks_cellsOnly a.die a.region line falling e { f with
    fctr := if line = 0 ∧ falling = false ∧ f.halted = false then (f.fctr + 1) % 2 ^ 64 else f.fctr } f.design.blocks
  have comes : (!(f.lineRuns line && decide (line = 0) && !falling && !f.edgeFree)) = true := by
    rw [Fabric.fclkRises]
    by_cases rising : line = 0 ∧ falling = false ∧ f.halted = false
    · obtain ⟨h0, hrise, hrun⟩ := rising
      simp [free h0 hrise hrun]
    · rw [decide_eq_false rising]
      rfl
  refine ⟨_, event_next (by simp [hd, hr, hl]) (by rw [← hf, runs, comes]; rfl), others.trans others', queues'.trans queues,
    frames'.trans frames, fun k c hc => ⟨?_, ?_, fun other => ?_, fun shift => ?_⟩, ?_, fun n hn => ?_, ?_⟩
  all_goals rw [fabric']
  · refine (y.clockBlocks_fa _ _ _ _ _ _ nodup len hb hc).trans ?_
    rw [Die.ffAfter, same.cellOuts, same.carryOf, fabric]
    rfl
  · refine (y.clockBlocks_fb _ _ _ _ _ _ nodup len hb hc).trans ?_
    rw [Die.ffAfter, same.cellOuts, same.carryOf, fabric]
    rfl
  · exact y.clockBlocks_table_kept _ _ _ _ _ _ nodup len hb hc other
  · refine (y.clockBlocks_table _ _ _ _ _ _ nodup len hb hc shift).trans ?_
    rw [Die.tableAfter, same.cellOuts, same.shiftOf, same.cellTable, fabric]
    rfl
  · rw [same.blkShows]
    exact tfind_shown nodup hb _ _
  · exact y.clockBlocks_ff_other _ _ _ _ _ _ len hn
  · dsimp only
    rw [cells]

end Sys2Proof.Machine

namespace Sys2Proof.Machine

/-! ## The checks after an image's last byte (R275, R277, R278) -/

/-- Once the padding that R275 asks for is in place, the checks are digest, tag and CRC, in this order. -/
theorem imgEnd_padded {h trailer img stored : List Byte} (key : Option (BitVec 256)) (tail : zeroAt trailer 16 44 = true)
    (tag : imgEncrypted h = true ∨ zeroAt trailer 0 16 = true) (hs : stored = (img.drop 7424).take (imgBodyLen h)) :
    imgEnd h trailer img key =
      if fieldAt h 52 48 ≠ (Config.sha384 stored).toNat then some .authFail
      else if (imgEncrypted h && !(tagOk h trailer stored key)) = true then some .authFail
      else if fieldAt trailer 60 4 ≠ (crc32c (img.take (img.length - 4))).toNat then some .imageCrc
      else none := by
  have padded : (!(zeroAt trailer 16 44) || (!(imgEncrypted h) && !(zeroAt trailer 0 16))) = false := by
    obtain tag | tag := tag <;> simp [tail, tag]
  subst hs
  unfold imgEnd
  dsimp only
  rw [padded]
  rfl

/-- The tag of an encrypted image verifies where its key is there and gives it. -/
theorem tagOk_iff {h trailer stored : List Byte} {key : Option (BitVec 256)} : tagOk h trailer stored key = true ↔
    ∃ k, key = some k ∧ fieldAt trailer 0 16 = (Config.gcmTag k (imgNonce h) (h.take 2048) stored).toNat := by
  cases key with
  | none => simp [tagOk]
  | some k => simp [tagOk]

/-! ## The end of a session (R285, R289) -/

/-- Frames written beside a change of a region's fabric. -/
theorem Die.fabric_modFabric_frames (x : Die) (r : Nat) (f : Fabric → Fabric) (t : Tbl (BitVec 1024)) :
    ({ x.modFabric r f with frames := t } : Die).fabric r = f (x.fabric r) := Die.fabric_modFabric_same ..

/-- R289 leaves a region UNCONFIGURED, without a session. -/
theorem Die.unconfigure_fabric (x : Die) (d r : Nat) :
    ((x.unconfigure d r).fabric r).session = none ∧ ((x.unconfigure d r).fabric r).st = .unconfigured := by
  unfold Die.unconfigure
  generalize x.closePorts r = y
  rw [Die.fabric_modFabric_frames]
  exact ⟨rfl, rfl⟩

/-- A session that has reached step 4 leaves its region UNCONFIGURED when it ends. -/
theorem State.endSession_unconfigures {s : State} {d r : Nat} {q : Session} (hq : ((s.die d).fabric r).session = some q)
    (opened : 4 ≤ q.step) (st : Status) (det : Nat) (now : Option Pkt) :
    (((s.endSession d r st det now).die d).fabric r).session = none ∧
      (((s.endSession d r st det now).die d).fabric r).st = .unconfigured := by
  have ended : (((s.modDie d fun x => (x.unconfigure d r).count cfAborts 0 1).die d).fabric r).session = none ∧
      (((s.modDie d fun x => (x.unconfigure d r).count cfAborts 0 1).die d).fabric r).st = .unconfigured := by
    rw [State.die_modDie_same, Die.count_fabric]
    exact (s.die d).unconfigure_fabric d r
  unfold State.endSession
  rw [hq]
  simp only [opened, if_true]
  split
  · rw [(State.onlyReplies_finish ..).die]
    exact ended
  · split
    · rw [(State.onlyReplies_finish ..).die]
      exact ended
    · exact ended

/-! ## The body of a load read on (R274, R288) -/

/-- The die once a session's body has been read on to `b` (Table 11-10 step 5). -/
def Die.bodyTo (x : Die) (r : Nat) (q : Session) (b : BodyAt) : Die :=
  { (x.modFabric r fun f => { f with session := some { q with used := b.used, run := b.run, step := 5 } }) with frames := b.frames }

/-- A part that leaves the body whole goes to the checks of R278 if it is the last. -/
theorem State.loadBody_last {s : State} {a : RAt} {q : Session} (p : Pkt) {chk : ImgChk}
    (hq : ((s.die a.die).fabric a.region).session = some q) (whole : (s.bodyHere a q q.bytes chk).ended = none) {st : Status}
    (fails : imgEnd (q.bytes.take 2048) (q.bytes.drop (7424 + imgBodyLen (q.bytes.take 2048))) q.bytes
      (s.imgKey (q.bytes.take 2048)) = some st) :
    ∃ st' det, s.loadBody a.die a.region p chk true = (s.modDie a.die fun x =>
      x.bodyTo a.region q (s.bodyHere a q q.bytes chk)).loadFails a.die a.region p (q.bytes.take 2048) st' det := by
  unfold State.loadBody
  rw [hq]
  dsimp -zeta only
  extract_lets h n body b s1
  have read : b = s.bodyHere a q q.bytes chk := rfl
  rw [read, whole]
  dsimp only
  rw [fails]
  simp only [Bool.not_true, Bool.false_eq_true, if_false]
  split
  · exact ⟨_, _, rfl⟩
  · exact ⟨_, _, rfl⟩

/-- The session of a body read on has opened (Table 11-10 step 5). -/
theorem Die.bodyTo_session (x : Die) (r : Nat) (q : Session) (b : BodyAt) :
    ((x.bodyTo r q b).fabric r).session = some { q with used := b.used, run := b.run, step := 5 } := by
  unfold Die.bodyTo
  rw [Die.fabric_modFabric_frames]

/-- A load whose body has opened leaves its region UNCONFIGURED when it fails. -/
theorem State.loadFails_unconfigures {s : State} {d r : Nat} {q : Session} (hq : ((s.die d).fabric r).session = some q)
    (opened : 4 ≤ q.step) (p : Pkt) (h : List Byte) (st : Status) (det : Nat) :
    (((s.loadFails d r p h st det).die d).fabric r).session = none ∧
      (((s.loadFails d r p h st det).die d).fabric r).st = .unconfigured :=
  State.endSession_unconfigures (by rwa [State.emit_die]) opened ..

/-- A part that passes the conditions of R285 is taken (R221, R282). -/
theorem exec_fabricLoadPart {s : State} {p : Pkt} {a : RAt} {tenant off len : Nat} {last : Bool} {data : List Byte}
    (chk : ImgChk) (due : s.due 0x0401 p = true) (perm : s.permitted .m p = true)
    (names : firstOf (s.loadNames a (some tenant)) = none) (now : s.loadWaits a.die a.region = false)
    (part : firstOf (partChecks ((s.die a.die).fabric a.region) p last off len data) = none) :
    exec (.fabricLoadPart p a tenant last off len data chk) s = .next (s.takePart p a tenant last len data chk) := by
  refine (gate_next due perm).trans (congrArg _ ?_)
  unfold State.runLoadPart
  rw [names]
  dsimp only
  rw [now, part]
  rfl

/-- Settles O59: the order of the checks is that of `imgEnd_padded`; a failure of any ends the session, which `State.loadBody_last`
has taken to step 5, and so leaves the region UNCONFIGURED. -/
theorem imageChecksInOrder : Obligations.ImageChecksInOrder := by
  refine ⟨fun h trailer img stored key tail tag hs => ?_, ?_⟩
  · rw [imgEnd_padded key tail tag hs]
    refine ⟨fun digest => if_pos digest, fun digest encrypted noTag => ?_, fun digest good => ?_⟩
    · have bad : tagOk h trailer stored key = false := by
        rw [← Bool.not_eq_true, tagOk_iff]
        rintro ⟨k, hk, tagged⟩
        exact noTag k hk tagged
      rw [if_neg (not_not_intro digest), if_pos (by rw [encrypted, bad]; rfl)]
    · have sealed : (imgEncrypted h && !(tagOk h trailer stored key)) = false := by
        obtain plain | tagged := good
        · rw [plain, Bool.false_and]
        · rw [tagOk_iff.mpr tagged, Bool.not_true, Bool.and_false]
      rw [if_neg (not_not_intro digest), sealed, if_neg Bool.false_ne_true]
      exact ite_not ..
  · rintro s p a tenant off len data chk q due perm names now hq part whole ⟨st, fails⟩
    refine ⟨_, exec_fabricLoadPart chk due perm names now part, ?_⟩
    unfold State.takePart
    rw [hq]
    dsimp only
    generalize hu : (s.modDie a.die fun x => x.modFabric a.region fun f => { f with
      session := some { q with bytes := q.bytes ++ data, next := q.next + data.length } }) = u
    have session : ((u.die a.die).fabric a.region).session =
        some { q with bytes := q.bytes ++ data, next := q.next + data.length } := by
      rw [← hu, State.die_modDie_same, Die.fabric_modFabric_same]
    have read : u.bodyHere a { q with bytes := q.bytes ++ data, next := q.next + data.length } (q.bytes ++ data) chk =
        s.bodyHere a q (q.bytes ++ data) chk := by
      unfold State.bodyHere
      rw [← hu, State.die_modDie_same]
      rfl
    obtain ⟨st', det, ends⟩ := State.loadBody_last p session (read ▸ whole) (by subst hu; exact fails)
    rw [ends]
    refine State.loadFails_unconfigures (by rw [State.die_modDie_same]; exact Die.bodyTo_session ..) ?_ ..
    exact Nat.le_succ 4

end Sys2Proof.Machine

namespace Sys2Proof.Machine

/-! ## A load abandoned past step 7 (R285, R289; Table 11-10)

`State.endSession` answers the packet of a session from step 7 on; Table 11-10 has steps 8 and 9, and a state may hold a session
there. -/

/-- A FABRIC_LOAD packet of queue 0. -/
def abandonPkt : Pkt :=
  { queue := 0, seq := 7, tag := 9, quiet := false, irq := false, tenant := 3, context := 0xFFFF }

/-- A session at step 8 whose packet has the queue and the sequence number of `abandonPkt`, and another tag. -/
def lateSession : Session :=
  { pkt := { abandonPkt with tag := 8 }, queue := 0, tenant := 0xFF, len := 7488, next := 7488, bytes := [], step := 8, used := 0
    run := none, digest := 0, newVolt := false }

/-- Queue 0 has `abandonPkt` among its started packets; region 1 of die 0 is LOADING with that session. -/
def abandonState : State :=
  { State.reset with
    psi := { Psiurn.reset with state := .running }
    queues := [(0, { Queue.reset with
      st := .enabled
      started := [{ barrier := false, quiet := false, irq := false, opcode := 0x0401, seq := 7, tenant := 3, context := 0xFFFF
                    tag := 9, params := [], payload := [] }] })]
    dies := [(0, ({ Die.reset .skz8 with running := true, sawDone := true } : Die).modFabric 1 fun f =>
      { f with st := .loading, session := some lateSession })] }

theorem abandonState_due : abandonState.due 0x0401 abandonPkt = true := by decide +kernel

theorem abandonState_permitted : abandonState.permitted .m abandonPkt = true := by decide +kernel

theorem abandonState_onQueue : OnQueue abandonState abandonPkt :=
  ⟨by decide, by decide, by decide, by decide, rfl⟩

/-- The session's packet completes first, and leaves none for the abandoning one to complete: its reply is the last. -/
theorem abandonState_answers : ∃ u, exec (.fabricLoadAbandon abandonPkt ⟨0, 1⟩) abandonState = .next u ∧
    (u.queue 0).held.getLast?.map Reply.status = some .regionUnconfigured :=
  ⟨_, gate_next abandonState_due abandonState_permitted, by decide +kernel⟩

/-- Refutes O9: the session that FABRIC_LOAD_ABANDON ends in `abandonState` has reached step 8, where the statement does not ask
its packet to be apart from the abandoning one; it completes in that one's place, which then has no reply. -/
theorem not_fabricLoads : ¬ Obligations.FabricLoads := by
  rintro ⟨-, ⟨-, -, abandon, -⟩, -⟩
  obtain ⟨u, runs, ⟨l, replies⟩, -⟩ := abandon abandonState abandonPkt ⟨0, 1⟩ lateSession abandonState_onQueue abandonState_due
    abandonState_permitted (by decide +kernel) (by decide +kernel) (by decide +kernel) (fun h => absurd h (by decide))
  obtain ⟨v, runs', last⟩ := abandonState_answers
  obtain rfl : u = v := by simpa [runs] using runs'
  rw [show u.queue 0 = u.queue abandonPkt.queue from rfl, replies, List.getLast?_append] at last
  simp [mkReply] at last

end Sys2Proof.Machine

namespace Sys2Proof.Machine

/-! ## The darner (R293 to R297) -/

/-- The place of a region's frame after the one under the darner: a round ends with the last frame (R293). -/
def Die.nextFrame (x : Die) (r : Nat) : Nat :=
  if tget x.darner.at_ r 0 + 1 < scanFrames then tget x.darner.at_ r 0 + 1 else 0

/-- One region goes on to its next frame; at the end of a round the round is counted. -/
def Die.advanceOne (x : Die) (r : Nat) : Die :=
  let y := { x with darner := { x.darner with at_ := tput x.darner.at_ r (x.nextFrame r) } }
  if tget x.darner.at_ r 0 + 1 < scanFrames then y else y.count dnRounds 0 1

theorem Die.advance_cons (x : Die) (r : Nat) (l : List Nat) : x.advance (r :: l) = (x.advanceOne r).advance l := rfl

theorem Die.advanceOne_darner (x : Die) (r : Nat) :
    (x.advanceOne r).darner = { x.darner with at_ := tput x.darner.at_ r (x.nextFrame r) } := by
  unfold Die.advanceOne
  dsimp only
  split <;> rfl

/-- The key of DN_UNCORRECTED (Table 18-7). -/
def uncorrectedKey : Nat := ctrKey dnUncorrected.kind 0 dnUncorrected.idx

/-- A counter of another place among its unit's leaves DN_UNCORRECTED as it is: a unit has at most 64 counters. -/
theorem Die.countAt_uncorrected (x : Die) {kind unit idx : Nat} (w32 : Bool) (n : Nat) (h : idx % 64 ≠ 10) :
    tget (x.countAt kind unit idx w32 n).ctrs uncorrectedKey 0 = tget x.ctrs uncorrectedKey 0 := by
  have other : uncorrectedKey ≠ ctrKey kind unit idx := by
    simp only [uncorrectedKey, ctrKey, dnUncorrected]
    omega
  unfold Die.countAt
  cases w32 <;> exact tget_tput_other _ _ _ other

theorem Die.count_uncorrected (x : Die) {c : Ctr} (h : c.idx % 64 ≠ 10) (unit n : Nat) :
    tget (x.count c unit n).ctrs uncorrectedKey 0 = tget x.ctrs uncorrectedKey 0 := x.countAt_uncorrected _ _ h

/-- What a die keeps while the darner goes on: all but the darner's places and the counter of its rounds. -/
structure Advanced (x y : Die) : Prop where
  rest        : ∃ at_ ctrs wraps, y = { x with darner := { x.darner with at_ := at_ }, ctrs := ctrs, wraps := wraps }
  uncorrected : tget y.ctrs uncorrectedKey 0 = tget x.ctrs uncorrectedKey 0

theorem Advanced.trans {x y z : Die} (h : Advanced x y) (g : Advanced y z) : Advanced x z := by
  refine ⟨?_, g.uncorrected.trans h.uncorrected⟩
  obtain ⟨_, _, _, rfl⟩ := h.rest
  obtain ⟨_, _, _, rfl⟩ := g.rest
  exact ⟨_, _, _, rfl⟩

theorem Die.advanceOne_advanced (x : Die) (r : Nat) : Advanced x (x.advanceOne r) := by
  unfold Die.advanceOne
  dsimp only
  split
  · exact ⟨⟨_, _, _, rfl⟩, rfl⟩
  · exact ⟨⟨_, _, _, rfl⟩, Die.count_uncorrected _ (by decide) 0 1⟩

theorem Die.advance_advanced (l : List Nat) (x : Die) : Advanced x (x.advance l) := by
  induction l generalizing x with
  | nil => exact ⟨⟨_, _, _, rfl⟩, rfl⟩
  | cons r l ih => exact (x.advanceOne_advanced r).trans (ih _)

/-- Each region that is scanned goes on by one frame, and no other. -/
theorem Die.advance_at {l : List Nat} (nodup : l.Nodup) (x : Die) (r : Nat) :
    tget (x.advance l).darner.at_ r 0 = if r ∈ l then x.nextFrame r else tget x.darner.at_ r 0 := by
  induction l generalizing x with
  | nil => rfl
  | cons k l ih =>
    obtain ⟨new, nodup⟩ := List.nodup_cons.mp nodup
    rw [Die.advance_cons, ih nodup]
    by_cases h : r = k
    · subst h
      rw [if_neg new, if_pos List.mem_cons_self, Die.advanceOne_darner, tget_tput_same]
    · have place : tget (x.advanceOne k).darner.at_ r 0 = tget x.darner.at_ r 0 := by
        rw [Die.advanceOne_darner, tget_tput_other _ _ _ h]
      simp only [Die.nextFrame, place, List.mem_cons, h, false_or]

/-- A round of the darner whose test frame passes, no correction of which fails: the words in error, then the next frames. -/
theorem exec_darnerScan {s : State} {d : Nat} {errs : List DarnErr} (hl : s.live d = true) (hs : (s.die d).scanning = true)
    (ok : (s.die d).errsOk d errs = true) (written : (errs.any fun e => !e.dbl && e.wbFail) = false) :
    exec (.darnerScan d true errs) s = .next ((errs.foldl (fun s e => s.darnWord d e) s).modDie d fun x =>
      x.advance ((s.die d).configured.filter fun r => (x.fabric r).st == .configured)) := by
  refine (event_next (by simp [State.dieCount_of_live hl]) (by simp [hl, hs, ok])).trans (congrArg _ ?_)
  unfold doDarnerScan
  dsimp only
  rw [Bool.not_true, Bool.and_false, if_neg Bool.false_ne_true, written, if_neg Bool.false_ne_true]

theorem Die.configured_of_errsOk {x : Die} {d : Nat} {e : DarnErr} (ok : x.errsOk d [e] = true) :
    (x.fabric e.region).st = .configured := by
  simp only [Die.errsOk, List.all_cons, List.all_nil, Bool.and_true, Bool.and_eq_true, decide_eq_true_eq, List.contains_iff_mem,
    Die.configured, List.mem_filter, beq_iff_eq] at ok
  obtain ⟨⟨-, -, configured⟩, -⟩ := ok
  exact configured

theorem Die.configured_nodup (x : Die) : x.configured.Nodup := List.nodup_range.filter _

/-- The die once a bit in error is corrected (R294). -/
def Die.corrected (x : Die) : Die := { x with darner := { x.darner with sglSeen := true } }.count dnCorrected 0 1

/-- A bit in error is corrected: it is noted and counted. -/
theorem State.darnWord_single {s : State} {d : Nat} {e : DarnErr} (conf : ((s.die d).fabric e.region).st = .configured)
    (one : e.dbl = false) : s.darnWord d e = s.modDie d Die.corrected := by
  unfold State.darnWord
  dsimp only
  rw [conf, one]
  rfl

/-- The die with an uncorrectable word in the frame at `a`, which keeps the value `v` (R295). -/
def Die.struck (x : Die) (a w : Nat) (v : BitVec 64) : Die :=
  ({ x with darner := { x.darner with dblSeen := true, frame := BitVec.ofNat 32 a } }.setFrameWord a w v).count dnUncorrected 0 1

theorem Die.struck_darner (x : Die) (a w : Nat) (v : BitVec 64) :
    (x.struck a w v).darner = { x.darner with dblSeen := true, frame := BitVec.ofNat 32 a } := rfl

theorem Die.struck_regions (x : Die) (a w : Nat) (v : BitVec 64) : (x.struck a w v).regions = x.regions := rfl

/-- The state once a word in error in the frame at `a` is reported. -/
def State.struck (s : State) (d a : Nat) (e : DarnErr) (v : BitVec 64) (isolates : Bool) : State :=
  (s.freeNat.2.modDie d fun x => x.struck a e.word v).emit (frameEvent d e.region a isolates)

/-- An uncorrectable word is reported, and isolates its region where `dbl_isolate` is set (R295). -/
theorem State.darnWord_double {s : State} {d a : Nat} {e : DarnErr} (conf : ((s.die d).fabric e.region).st = .configured)
    (two : e.dbl = true) (ha : a = scanAddr d e.region (tget (s.die d).darner.at_ e.region 0)) {isolates : Bool}
    (hi : bitAt ((s.die d).regv 0x3000) 2 = isolates) : ∃ v, s.darnWord d e =
      if isolates then (s.struck d a e v isolates).isolate d e.region 1 0 false else s.struck d a e v isolates := by
  subst ha hi
  refine ⟨BitVec.ofNat 64 s.freeNat.1, ?_⟩
  unfold State.darnWord
  dsimp only
  rw [conf, two]
  rfl

theorem State.struck_die (s : State) (d a : Nat) (e : DarnErr) (v : BitVec 64) (isolates : Bool) :
    (s.struck d a e v isolates).die d = (s.die d).struck a e.word v :=
  (State.emit_die ..).trans (State.die_modDie_same ..)

theorem State.struck_otherDies (s : State) (d a : Nat) (e : DarnErr) (v : BitVec 64) (isolates : Bool) :
    OtherDies s (s.struck d a e v isolates) d :=
  fun _ hn => (State.emit_die ..).trans (State.die_modDie_other _ _ hn)

/-- The event of a word in error carries the time of its die. -/
theorem State.struck_raised (s : State) {d : Nat} (hd : d < 8) (a : Nat) (e : DarnErr) (v : BitVec 64) (isolates : Bool) :
    ∃ time, (s.struck d a e v isolates).raised = s.raised ++ [{ frameEvent d e.region a isolates with time := time }] :=
  ⟨_, congrArg State.raised (if_pos hd)⟩

/-- What the self-check leaves (R296): it stops the darner when it fails; when it passes the darner runs, from the first frames if
it was stopped. -/
theorem State.selfCheck_facts (s : State) (d : Nat) (ok : Bool) :
    OtherDies s (s.selfCheck d ok) d ∧ (s.selfCheck d ok).queues = s.queues ∧
      ((s.selfCheck d ok).die d).frames = (s.die d).frames ∧ ((s.selfCheck d ok).die d).darner.stopped = !ok ∧
      (ok = false → ((s.selfCheck d ok).die d).darner.selfFail = true) ∧
      (ok = true → (s.die d).darner.stopped = true → ((s.selfCheck d ok).die d).darner.at_ = []) := by
  have emitted (f : Die → Die) (e : Event) : OtherDies s ((s.modDie d f).emit e) d ∧ ((s.modDie d f).emit e).queues = s.queues ∧
      ((s.modDie d f).emit e).die d = f (s.die d) := by
    obtain ⟨-, -, queues, -⟩ := (s.modDie d f).emit_frame e
    exact ⟨fun n hn => (State.emit_die ..).trans (State.die_modDie_other _ _ hn), queues,
      (State.emit_die ..).trans (State.die_modDie_same ..)⟩
  unfold State.selfCheck
  cases ok with
  | true =>
    cases stopped : (s.die d).darner.stopped with
    | true =>
      dsimp only
      obtain ⟨others, queues, die⟩ := emitted (fun x => { x with darner := { x.darner with stopped := false, at_ := [] } })
        (darnerEvent d 0x0034 .ok 0)
      rw [stopped, if_pos rfl, if_pos rfl]
      exact ⟨others, queues, by rw [die], by rw [die]; rfl, nofun, fun _ _ => by rw [die]⟩
    | false =>
      dsimp only
      rw [stopped]
      exact ⟨OtherDies.refl s d, rfl, rfl, stopped, nofun, nofun⟩
  | false =>
    set failed : Die → Die := fun x =>
      { x with darner := { x.darner with stopped := true, selfFail := true } }.count dnSelfcheckFail 0 1 with hf
    dsimp only
    rw [if_neg Bool.false_ne_true]
    split
    · rw [State.die_modDie_same]
      exact ⟨OtherDies.modDie s d _, rfl, rfl, rfl, fun _ => rfl, nofun⟩
    · obtain ⟨others, queues, die⟩ := emitted failed (darnerEvent d 0x0033 .unitFenced (regionMask (s.die d).configured))
      rw [die]
      exact ⟨others, queues, rfl, rfl, fun _ => rfl, nofun⟩

/-- Settles O30: the next frames are those of `Die.advance_at`, the self-check's outcomes those of `State.selfCheck_facts`; a word
in error writes no more than `State.darnWord_single` and `State.darnWord_double` say. -/
theorem darnerRounds : Obligations.DarnerRounds := by
  refine ⟨?clean, ?single, ?double, ?retry, ?now⟩
  case clean =>
    intro s d hl hs
    refine ⟨_, exec_darnerScan hl hs rfl rfl, OtherDies.modDie s d _, rfl, ?_⟩
    have all : ((s.die d).configured.filter fun r => ((s.die d).fabric r).st == .configured) = (s.die d).configured :=
      List.filter_eq_self.mpr fun r hr => (List.mem_filter.mp hr).2
    have running : (s.die d).darner.stopped = false := by
      simp only [Die.scanning, Bool.and_eq_true, Bool.not_eq_true'] at hs
      exact hs.1.2
    obtain ⟨at_, ctrs, wraps, eq⟩ := ((s.die d).advance_advanced (s.die d).configured).rest
    rw [List.foldl_nil, State.die_modDie_same, all]
    refine ⟨by rw [eq], by rw [eq], by rw [eq]; exact running, fun r hr => ?_⟩
    rw [Die.advance_at (Die.configured_nodup _), if_pos hr]
    rfl
  case single =>
    intro s d e hl hs ok one written
    refine ⟨_, exec_darnerScan hl hs ok (by simp [one, written]), ?_⟩
    rw [List.foldl_cons, List.foldl_nil, State.darnWord_single (Die.configured_of_errsOk ok) one, State.modDie_modDie]
    dsimp only
    rw [State.die_modDie_same]
    obtain ⟨at_, ctrs, wraps, eq⟩ := (Die.advance_advanced _ _).rest
    rw [eq]
    exact ⟨OtherDies.modDie s d _, rfl, rfl, rfl, rfl⟩
  case double =>
    intro s d e hd hl hs ok two keeps
    refine ⟨_, exec_darnerScan hl hs ok (by simp [two]), ?_⟩
    obtain ⟨v, struck⟩ := State.darnWord_double (Die.configured_of_errsOk ok) two rfl keeps
    rw [List.foldl_cons, List.foldl_nil, struck, if_neg Bool.false_ne_true, State.die_modDie_same]
    obtain ⟨at_, ctrs, wraps, eq⟩ := (Die.advance_advanced _ _).rest
    rw [eq, State.struck_die, State.modDie_raised, Die.struck_darner, Die.region, Die.struck_regions, Die.region]
    obtain ⟨time, raised⟩ := s.struck_raised hd (scanAddr d e.region (tget (s.die d).darner.at_ e.region 0)) e v false
    refine ⟨OtherDies.trans (s.struck_otherDies _ _ _ _ _) (OtherDies.modDie _ _ _), rfl, rfl, _, raised, rfl, rfl, rfl, rfl⟩
  case retry =>
    intro s d ok hl stopped
    obtain ⟨others, queues, frames, stops, -, restarts⟩ := s.selfCheck_facts d ok
    exact ⟨_, event_next (by simp [State.dieCount_of_live hl]) (by simp [hl, stopped]), others, queues, frames, stops,
      fun h => restarts h stopped⟩
  case now =>
    intro s d ok hl
    obtain ⟨others, queues, frames, stops, fails, -⟩ := s.selfCheck_facts d ok
    exact ⟨_, event_next (by simp [State.dieCount_of_live hl]) hl, others, queues, frames, stops, fails⟩

end Sys2Proof.Machine

namespace Sys2Proof.Machine

/-! ## Out of reset (R279, R422, R456; Table 17-2) -/

theorem DiesOnly.psi {s t : State} (h : DiesOnly s t) : t.psi = s.psi := by rw [h]
theorem DiesOnly.pins {s t : State} (h : DiesOnly s t) : t.pins = s.pins := by rw [h]
theorem DiesOnly.raised {s t : State} (h : DiesOnly s t) : t.raised = s.raised := by rw [h]

/-- Psiurn out of reset: the straps are sampled, the board's writes to the flash are in force. -/
def State.sampled (s : State) (f : BootFacts) : State :=
  ({ s.freeNat.2 with pins := { s.pins with pkgRstN := true, vinMv := 40000 + s.freeNat.1 % 20001 } } : State).modPsi fun y =>
    { y with
      state := .cold, cfgStep := 1, strapCfg := s.pins.cfgSrc, strapPull := s.pins.pullSel, tempC := f.psiTemp
      flash := f.flash.foldl (fun m w => mwriteN m w.1 w.2) y.flash }

/-- A cold sensor holds boot; of the dies no more than their temperatures are noted (R456). -/
theorem State.leaveReset_cold {s : State} {f : BootFacts} (cold : s.tooCold f = true) :
    DiesOnly ((s.sampled f).modPsi fun y => { y with coldBoot := some f }) (s.leaveReset f) := by
  unfold State.leaveReset
  dsimp only
  rw [cold, if_pos rfl]
  exact DiesOnly.foldl (fun s d => DiesOnly.modDie s d _) _ _

theorem State.leaveReset_warm {s : State} {f : BootFacts} (warm : s.tooCold f = false) :
    s.leaveReset f = (s.sampled f).boot f := by
  unfold State.leaveReset
  dsimp only
  rw [warm, if_neg Bool.false_ne_true]
  rfl

/-- The findings of boot once the sensors have reached the minimum. -/
def State.warmedFacts (s : State) (f : BootFacts) : BootFacts :=
  { f with
    temps := f.temps.map fun t => warmed s.part.tMin t s.freeNat.1, psiTemp := warmed s.part.tMin f.psiTemp s.freeNat.1 }

/-- The state in which boot then continues. -/
def State.sensed (s : State) (f : BootFacts) : State :=
  s.freeNat.2.modPsi fun y => { y with coldBoot := none, tempC := (s.warmedFacts f).psiTemp }

theorem exec_sensorMinimumReached {s : State} {f : BootFacts} (hs : s.psi.state = .cold) (hf : s.psi.coldBoot = some f) :
    exec .sensorMinimumReached s = .next ((s.sensed f).boot (s.warmedFacts f)) := by
  refine (event_next rfl (by simp [hs, hf])).trans (congrArg _ ?_)
  rw [hf]
  rfl

/-! ## Boot's checks (R420 to R423) -/

/-- The keys are there once the ROM has passed its check (Table 17-2 step 2). -/
def State.keyed (s : State) : State := s.modPsi fun y => { y with keys := some s.part.keys, certs := s.part.keys.chains }

/-- What the checks of a firmware image read (Table 17-2 steps 3 to 6). -/
def State.bootReads (s : State) := (s.psi.flash, s.psi.signing, s.psi.fwMin, s.part)

section
variable {s w : State} {f : BootFacts}

theorem State.fwDir_of_bootReads (h : w.bootReads = s.bootReads) :
    w.fwDir = s.fwDir ∧ (∀ a, w.fwDirAt a = s.fwDirAt a) ∧ ∀ a chk, w.fwCheck a chk = s.fwCheck a chk := by
  simp only [State.bootReads, Prod.mk.injEq] at h
  obtain ⟨flash, signing, least, part⟩ := h
  have at_ (a : Nat) : w.fwDirAt a = s.fwDirAt a := by rw [State.fwDirAt, flash, State.fwDirAt]
  refine ⟨?_, at_, fun a chk => ?_⟩
  · unfold State.fwDir
    rw [at_, at_]
  · unfold State.fwCheck
    rw [flash, signing, least, part]

/-- A ROM that fails its check is fatal (R422 step 1). -/
theorem State.boot_romFails (rom : f.romOk = false) (alive : s.psi.state ≠ .fatal) :
    (s.boot f).psi.state = .fatal ∧ (s.boot f).psi.cause = 3 := by
  unfold State.boot
  rw [rom, Bool.not_false, if_pos rfl, State.fatal_eq alive]
  exact ⟨rfl, rfl⟩

section
variable (rom : f.romOk = true) (reads : w.bootReads = s.bootReads)
include rom reads

/-- Without a firmware directory boot stops with IMAGE_CRC (R421, R423). -/
theorem State.boot_noFirmware (dir : w.fwDir = none) : s.boot f = s.keyed.bootStop .imageCrc := by
  have here : s.keyed.fwDir = none := (State.fwDir_of_bootReads (w := w) (s := s.keyed) reads).1.symm.trans dir
  unfold State.boot
  rw [rom, Bool.not_true, if_neg Bool.false_ne_true]
  change s.keyed.bootImage f = _
  unfold State.bootImage
  rw [here]

/-- With one, the outcome of the checks of its image decides (Table 17-2 steps 3 to 6). -/
theorem State.boot_firmware {a : Nat} (dir : w.fwDir = some a) :
    (∀ st, w.fwCheck (fwSlot (w.fwDirAt a) (fieldAt (w.fwDirAt a) 24 1)) f.chk = some st → s.boot f = s.keyed.bootStop st) ∧
      (w.fwCheck (fwSlot (w.fwDirAt a) (fieldAt (w.fwDirAt a) 24 1)) f.chk = none → ∃ h, s.boot f = s.keyed.bootDies f h) := by
  obtain ⟨dir', at_, check⟩ := State.fwDir_of_bootReads (w := w) (s := s.keyed) reads
  have booted : s.boot f = s.keyed.bootImage f := by
    unfold State.boot
    rw [rom, Bool.not_true, if_neg Bool.false_ne_true]
    rfl
  rw [booted]
  unfold State.bootImage
  rw [← dir', dir]
  dsimp only
  simp only [← at_, ← check]
  refine ⟨fun st fails => ?_, fun passes => ?_⟩
  · rw [fails]
  · rw [passes]
    exact ⟨_, rfl⟩

end

end

/-! ## The dies start (R340, R359; Table 17-2 steps 7 and 8) -/

theorem tfind_map_keys {α : Type} (g : Nat → α) (l : List Nat) (k : Nat) :
    tfind (l.map fun m => (m, g m)) k = if k ∈ l then some (g k) else none := by
  induction l with
  | nil => rfl
  | cons m l ih =>
    rw [List.map_cons, tfind, ih]
    by_cases h : m = k
    · simp [h]
    · simp [h, Ne.symm h]

/-- A die as boot leaves it: it runs, without frames, and its channels are active but for those that are absent (R340). -/
structure Booted (f : BootFacts) (d : Nat) (x : Die) : Prop where
  running : x.running = true
  present : x.lost = false
  trained : x.trained = true
  firmware : x.fwOk = true
  frames : x.frames = []
  channels : ∀ c, c < 80 → x.chanState c =
    if f.trainFail.contains (d, c) || (decide (64 ≤ c) && f.lpddrBad.contains d) then .absent else .active

theorem State.booted_bootedDie (s : State) (f : BootFacts) (d k : Nat) (tempC : Int) : Booted f d (s.bootedDie f d k tempC) where
  running := rfl
  present := rfl
  trained := rfl
  firmware := rfl
  frames := rfl
  channels c hc := by
    have controller : (s.bootedDie f d k tempC).mc (chanMC c) = bootMC f d (chanMC c) (mcFirst (chanMC c))
        (s.freeAt (k + 16 + 4 * chanMC c)) (s.freeAt (k + 17 + 4 * chanMC c)) (s.freeAt (k + 18 + 4 * chanMC c)) := by
      have inRange : chanMC c ∈ List.range 48 := List.mem_range.mpr (by unfold chanMC; split <;> omega)
      have found := tfind_map_keys (fun m => bootMC f d m (mcFirst m) (s.freeAt (k + 16 + 4 * m)) (s.freeAt (k + 17 + 4 * m))
        (s.freeAt (k + 18 + 4 * m))) (List.range 48) (chanMC c)
      rw [if_pos inRange] at found
      exact congrArg (·.getD MC.reset) found
    unfold Die.chanState
    rw [controller]
    dsimp only
    by_cases odd : c < 64 ∧ c % 2 = 1
    · have low : chanMC c < 32 := by unfold chanMC; rw [if_pos odd.1]; omega
      have place : mcFirst (chanMC c) + 1 = c := by unfold mcFirst; rw [if_pos low, chanMC, if_pos odd.1]; omega
      rw [if_pos odd, bootMC, if_pos low, place]
    · have place : mcFirst (chanMC c) = c := by unfold mcFirst chanMC; split <;> split <;> omega
      rw [if_neg odd, bootMC, place]

/-- What an operation of one die leaves of the rest: the other dies, Psiurn, the pins, the part. -/
structure OneDie (d : Nat) (s t : State) : Prop where
  others : OtherDies s t d
  psi : t.psi = s.psi
  pins : t.pins = s.pins
  part : t.part = s.part

theorem OneDie.refl (d : Nat) (s : State) : OneDie d s s := ⟨OtherDies.refl s d, rfl, rfl, rfl⟩

theorem OneDie.trans {d : Nat} {s t u : State} (h : OneDie d s t) (g : OneDie d t u) : OneDie d s u :=
  ⟨h.others.trans g.others, g.psi.trans h.psi, g.pins.trans h.pins, g.part.trans h.part⟩

theorem OneDie.modDie (d : Nat) (s : State) (f : Die → Die) : OneDie d s (s.modDie d f) := ⟨OtherDies.modDie s d f, rfl, rfl, rfl⟩

theorem State.emit_psi (s : State) (e : Event) : (s.emit e).psi = s.psi := by unfold State.emit; split <;> rfl

theorem State.emit_pins (s : State) (e : Event) : (s.emit e).pins = s.pins := by unfold State.emit; split <;> rfl

theorem OneDie.emit (d : Nat) (s : State) (e : Event) : OneDie d s (s.emit e) :=
  ⟨fun n _ => s.emit_die e n, s.emit_psi e, s.emit_pins e, (s.emit_frame e).1⟩

theorem Booted.felts {f : BootFacts} {d : Nat} {x : Die} (h : Booted f d x) (felts : Tbl Felt) :
    Booted f d { x with felts := felts } := ⟨h.running, h.present, h.trained, h.firmware, h.frames, h.channels⟩

theorem State.linkDetect_quiet (s : State) (d p : Nat) :
    s.linkDetect d p false = s.modDie d fun x => x.modFelt p Felt.goDetect := by
  unfold State.linkDetect
  exact if_neg Bool.false_ne_true

/-- A die whose controller passes its self-test starts. -/
theorem State.bootDie_facts (s : State) {f : BootFacts} (passes : f.dieFail = []) (d : Nat) :
    OneDie d s (s.bootDie f d) ∧ Booted f d ((s.bootDie f d).die d) := by
  unfold State.bootDie
  rw [passes]
  dsimp only
  rw [List.contains_nil, if_neg Bool.false_ne_true]
  generalize ht : ({ s.setDie d (s.bootedDie f d 0 (f.temps.getD d 25)) with freeCount := s.freeCount + 256 } : State) = t
  have started : OneDie d s t ∧ Booted f d (t.die d) := by
    subst ht
    refine ⟨⟨fun n hn => State.die_setDie_other _ _ hn, rfl, rfl, rfl⟩, ?_⟩
    change Booted f d ((s.setDie d _).die d)
    rw [State.die_setDie_same]
    exact s.booted_bootedDie f d 0 _
  have reported : OneDie d s ((BootFacts_absent f d).foldl (fun s e => s.emit (channelAbsent d e.1 e.2)) t) ∧
      Booted f d (((BootFacts_absent f d).foldl (fun s e => s.emit (channelAbsent d e.1 e.2)) t).die d) := by
    refine List.foldlRecOn (motive := fun u => OneDie d s u ∧ Booted f d (State.die u d)) _ _ started fun u ⟨one, booted⟩ e _ => ?_
    exact ⟨one.trans (.emit d u _), by rwa [State.emit_die]⟩
  refine List.foldlRecOn (motive := fun u => OneDie d s u ∧ Booted f d (State.die u d)) _ _ reported fun u ⟨one, booted⟩ p _ => ?_
  split
  · rw [State.linkDetect_quiet]
    refine ⟨one.trans (.modDie d u _), ?_⟩
    rw [State.die_modDie_same]
    exact booted.felts _
  · exact ⟨one, booted⟩

/-- Where no die fails and each is reached, every die starts, PWR_OK goes high, and start-up continues (Table 11-7). -/
theorem State.bootDies_facts (s : State) {f : BootFacts} (passes : f.dieFail = []) (reached : f.unreached = []) (h : List Byte) :
    (s.bootDies f h).psi.state = .running ∧ (s.bootDies f h).psi.coldBoot = s.psi.coldBoot ∧
      (s.bootDies f h).psi.cfgStep = (if s.psi.strapCfg then 7 else 3) ∧ (s.bootDies f h).pins.pwrOk = true ∧
      (s.bootDies f h).pins.cfgDone = s.psi.strapCfg ∧
      ∀ d, d < s.dieCount → Booted f d ((s.bootDies f h).die d) := by
  unfold State.bootDies
  rw [if_neg (by simp [passes]), if_neg (by simp [reached])]
  dsimp only
  generalize ht : s.freeNat.2.modPsi _ = t
  have psi : ((List.range t.dieCount).foldl (fun s d => s.bootDie f d) t).psi = t.psi :=
    foldl_keeps State.psi (fun d _ u => (u.bootDie_facts passes d).1.psi) t
  have part : ((List.range t.dieCount).foldl (fun s d => s.bootDie f d) t).part = t.part :=
    foldl_keeps State.part (fun d _ u => (u.bootDie_facts passes d).1.part) t
  obtain ⟨own, -⟩ := State.foldl_own (f := fun s d => s.bootDie f d) (fun u d => (u.bootDie_facts passes d).1.others)
    (List.nodup_range (n := t.dieCount)) t
  rw [psi]
  refine ⟨by rw [← ht]; rfl, by rw [← ht]; rfl, by rw [← ht]; rfl, rfl, by rw [← ht]; rfl, fun d hd => ?_⟩
  obtain ⟨u, -, die⟩ := own d (List.mem_range.mpr (by rw [← ht]; exact hd))
  change Booted f d (((List.range t.dieCount).foldl (fun s d => s.bootDie f d) t).die d)
  rw [die]
  exact (u.bootDie_facts passes d).2

/-! ## The start-up image (R281, R282; Table 11-7) -/

/-- A region that the image names waits for its release (Table 11-7 step 6); the other regions and the frames stay. -/
theorem Die.startRegion_facts (x : Die) (h : List Byte) (d r : Nat) (g : Design) :
    (x.startRegion h d r g).frames = x.frames ∧ (∀ q, q ≠ r → (x.startRegion h d r g).fabric q = x.fabric q) ∧
      (((x.startRegion h d r g).fabric r).st, ((x.startRegion h d r g).fabric r).tenant,
        ((x.startRegion h d r g).fabric r).halted, ((x.startRegion h d r g).fabric r).digest) =
          (FabState.loading, 0xFF, true, imgDigest h) := by
  unfold Die.startRegion Die.startDesign Die.initFabric
  dsimp only
  refine ⟨rfl, fun q hq => ?_, ?_⟩
  · rw [Die.fabric_modFabric_other _ _ hq, Die.fabric_modFabric_other _ _ hq, Die.fabric_modFabric_other _ _ hq]
  · rw [Die.fabric_modFabric_same, Die.fabric_modFabric_same, Die.fabric_modFabric_same]

/-- A die with its part of a full image in place. -/
def Die.startImage (x : Die) (d : Nat) (h : List Byte) (t : Tbl (BitVec 1024)) (chk : ImgChk) : Die :=
  ((List.range 8).filter (imgNames h d)).foldl (fun x r => x.startRegion h d r (chkDesign chk d r)) { x with frames := dieFrames t d }

theorem Die.startImage_frames (x : Die) (d : Nat) (h : List Byte) (t : Tbl (BitVec 1024)) (chk : ImgChk) :
    (x.startImage d h t chk).frames = dieFrames t d :=
  foldl_keeps Die.frames (fun r _ y => (y.startRegion_facts h d r _).1) _

theorem Die.startImage_named (x : Die) {d r : Nat} {h : List Byte} (t : Tbl (BitVec 1024)) (chk : ImgChk) (hr : r < 8)
    (named : imgNames h d r = true) : ((x.startImage d h t chk).fabric r).st = .loading ∧
      ((x.startImage d h t chk).fabric r).tenant = 0xFF ∧ ((x.startImage d h t chk).fabric r).halted = true ∧
      ((x.startImage d h t chk).fabric r).digest = imgDigest h := by
  have waits := foldl_writes (step := fun y r => y.startRegion h d r (chkDesign chk d r)) (fun y : Die => ((y.fabric r).st, (y.fabric r).tenant, (y.fabric r).halted, (y.fabric r).digest))
    (List.mem_filter.mpr ⟨List.mem_range.mpr hr, named⟩) (fun y => (y.startRegion_facts h d r (chkDesign chk d r)).2.2)
    (fun k _ hk y => by
      obtain ⟨-, others, -⟩ := y.startRegion_facts h d k (chkDesign chk d k)
      rw [others r (Ne.symm hk)]) { x with frames := dieFrames t d }
  simp only [Prod.mk.injEq] at waits
  exact waits

theorem Die.startImage_other (x : Die) {d r : Nat} {h : List Byte} (t : Tbl (BitVec 1024)) (chk : ImgChk)
    (other : imgNames h d r = false) : (x.startImage d h t chk).fabric r = x.fabric r :=
  foldl_keeps (fun y : Die => y.fabric r) (fun k hk y => (y.startRegion_facts h d k _).2.1 r fun he => by
    rw [List.mem_filter, ← he, other] at hk
    simp at hk) _

/-- Each usable die has its part of the image in place; nothing but dies has changed. -/
theorem State.startRegions_facts (s : State) (h : List Byte) (t : Tbl (BitVec 1024)) (chk : ImgChk) :
    DiesOnly s (s.startRegions h t chk) ∧
      ∀ d ∈ s.usableDies, (s.startRegions h t chk).die d = (s.die d).startImage d h t chk := by
  refine ⟨DiesOnly.foldl (fun s d => DiesOnly.modDie s d _) _ _, fun d hd => ?_⟩
  obtain ⟨own, -⟩ := State.foldl_own (f := fun s d => s.modDie d fun x => x.startImage d h t chk)
    (fun u d => OtherDies.modDie u d _) (List.nodup_range.filter s.usable) s
  obtain ⟨u, same, die⟩ := own d hd
  exact die.trans ((State.die_modDie_same ..).trans (congrArg (fun x : Die => x.startImage d h t chk) same))

theorem State.releaseCfgDone_die (s : State) (d : Nat) : s.releaseCfgDone.die d = s.die d := rfl

/-- A failure is reported; it loads nothing (R282). -/
theorem State.startFails_facts (s : State) (which a : Nat) (st : Status) (det : Nat) :
    (s.startFails which a st det).psi = { s.psi with status := st } ∧ (s.startFails which a st det).dies = s.dies :=
  ⟨State.emit_psi .., (State.emit_frame ..).2.1⟩

section
variable {s : State} {c1 : ImgChk} (c2 : ImgChk) (dir : cfgDirOk s.cfgDir = true)
include dir

/-- The primary image passes, and has no illegal select code. -/
theorem doStartUpImageLoad_passes {t : Tbl (BitVec 1024)} (passes : s.readFull (fieldAt s.cfgDir 8 8) c1 = .inr (t, [])) :
    doStartUpImageLoad c1 c2 s = (s.startRegions (mreadN s.psi.flash (fieldAt s.cfgDir 8 8) 2048) t c1).releaseCfgDone := by
  unfold doStartUpImageLoad
  dsimp only
  rw [dir, passes]
  rfl

/-- The primary image fails, and the directory names no fallback. -/
theorem doStartUpImageLoad_fails {st : Status} {det : Nat} (fails : s.readFull (fieldAt s.cfgDir 8 8) c1 = .inl (st, det))
    (alone : fieldAt s.cfgDir 16 8 = 0) :
    doStartUpImageLoad c1 c2 s = (s.startFails 0 (fieldAt s.cfgDir 8 8) st det).releaseCfgDone := by
  unfold doStartUpImageLoad
  dsimp only
  rw [dir, fails, alone]
  rfl

end

/-- Settles O45: out of reset boot goes as `State.boot_romFails`, `State.boot_noFirmware` and `State.boot_firmware` say, the dies
start as `State.bootDies_facts` says; the start-up image comes to each die by `State.startRegions_facts`. -/
theorem bootAndStartUp : Obligations.BootAndStartUp := by
  refine ⟨⟨?reset, ?cold⟩, ?image, ?done⟩
  case reset =>
    intro s w f hs hw
    have out : exec (.packageResetRelease f) s = .next (s.leaveReset f) := event_next rfl (by simp [hs])
    have reads : w.bootReads = (s.sampled f).bootReads := by rw [hw]; rfl
    refine ⟨fun cold => ?_, fun warm rom => ?_, fun warm rom dir => ?_, fun a st warm rom dir fails => ?_,
      fun a warm rom dir passes alive reached => ?_⟩
    · have held := State.leaveReset_cold cold
      refine ⟨_, out, ?_⟩
      dsimp only
      rw [held.psi, held.pins]
      exact ⟨rfl, rfl, rfl, rfl, rfl, rfl⟩
    · refine ⟨_, out, ?_⟩
      rw [State.leaveReset_warm warm]
      exact State.boot_romFails rom nofun
    · refine ⟨_, out, ?_⟩
      rw [State.leaveReset_warm warm, State.boot_noFirmware rom reads dir]
      exact ⟨rfl, rfl, rfl⟩
    · refine ⟨_, out, ?_⟩
      rw [State.leaveReset_warm warm, (State.boot_firmware rom reads dir).1 st fails]
      exact ⟨rfl, rfl⟩
    · obtain ⟨h, booted⟩ := (State.boot_firmware rom reads dir).2 passes
      obtain ⟨running, -, step, power, done, dies⟩ := (s.sampled f).keyed.bootDies_facts alive reached h
      refine ⟨_, out, ?_⟩
      rw [State.leaveReset_warm warm, booted]
      refine ⟨running, power, step, done, fun d hd => ?_⟩
      have die := dies d hd
      exact ⟨die.running, die.present, die.trained, die.firmware, die.frames, die.channels⟩
  case cold =>
    intro s f hs hf
    have sensed := exec_sensorMinimumReached hs hf
    have reads : s.bootReads = (s.sensed f).bootReads := rfl
    have alive : (s.sensed f).psi.state ≠ .fatal := by
      change s.psi.state ≠ .fatal
      rw [hs]
      nofun
    refine ⟨fun rom => ⟨_, sensed, State.boot_romFails (f := s.warmedFacts f) rom alive⟩, fun a rom dir passes whole reached =>
      ⟨_, sensed, ?_⟩⟩
    obtain ⟨h, booted⟩ := (State.boot_firmware (f := s.warmedFacts f) rom reads dir).2 passes
    obtain ⟨running, cold, -, power, -, dies⟩ := (s.sensed f).keyed.bootDies_facts (f := s.warmedFacts f) whole reached h
    rw [booted]
    exact ⟨running, cold, power, fun d hd => (dies d hd).running⟩
  case image =>
    intro s c1 c2 hs strap step dir
    have starts : exec (.startUpImageLoad c1 c2) s = .next (doStartUpImageLoad c1 c2 s) :=
      event_next rfl (by simp [hs, strap, step])
    refine ⟨fun frames passes => ⟨_, starts, ?_⟩, fun st det fails alone => ⟨_, starts, ?_⟩⟩
    · obtain ⟨only, dies⟩ := s.startRegions_facts (mreadN s.psi.flash (fieldAt s.cfgDir 8 8) 2048) frames c1
      rw [doStartUpImageLoad_passes c2 dir passes]
      refine ⟨rfl, rfl, only.raised, fun d hd => ?_⟩
      rw [State.releaseCfgDone_die, dies d hd]
      exact ⟨Die.startImage_frames .., fun r hr => ⟨Die.startImage_named _ _ _ hr, Die.startImage_other _ _ _⟩⟩
    · obtain ⟨psi, dies⟩ := s.startFails_facts 0 (fieldAt s.cfgDir 8 8) st det
      rw [doStartUpImageLoad_fails c2 dir fails alone]
      have fallback := congrArg Psiurn.fallback psi
      exact ⟨rfl, rfl, congrArg Psiurn.status psi, fallback, dies⟩
  case done =>
    intro s d hl high unseen
    refine ⟨_, event_next (by simp [State.dieCount_of_live hl]) (by simp [State.cfgDoneDue, hl, high, unseen]), fun e he => ?_,
      ?_, rfl⟩
    · exact (State.die_modPsi ..).trans (State.die_modDie_other _ _ he)
    · exact (State.die_modPsi ..).trans (State.die_modDie_same ..)

end Sys2Proof.Machine

namespace Sys2Proof.Machine

/-! ## What an isolation leaves of the darner's report

`Die.told` is what the report stands in, with the regions' isolation; `Die.noted` adds the fabrics. One lemma
`<operation>_noted` for each operation that an isolation goes through, `<operation>_told` for those that write a fabric, in the
order they call one another. -/

/-- Of a die: its darner, which of its regions are isolated, and DN_UNCORRECTED. -/
def Die.told (x : Die) := (x.darner, (fun r => (x.region r).isolated), tget x.ctrs uncorrectedKey 0)

/-- The same with the fabrics. -/
def Die.noted (x : Die) := (x.fabrics, x.told)

/-- Of the state: the events that wait, and `Die.told` of every die. -/
def State.told (s : State) := (s.raised, fun d => (s.die d).told)

/-- The same with the fabrics. -/
def State.noted (s : State) := (s.raised, fun d => (s.die d).noted)

theorem Die.told_of_noted {x y : Die} (h : y.noted = x.noted) : y.told = x.told := congrArg Prod.snd h

theorem Die.fabric_of_noted {x y : Die} (h : y.noted = x.noted) (r : Nat) : y.fabric r = x.fabric r := by
  have fabrics : y.fabrics = x.fabrics := congrArg Prod.fst h
  rw [Die.fabric, fabrics, Die.fabric]

section
variable {s t : State}

theorem State.die_noted (h : t.noted = s.noted) (d : Nat) : (t.die d).noted = (s.die d).noted := congrFun (congrArg Prod.snd h) d

theorem State.raised_of_noted (h : t.noted = s.noted) : t.raised = s.raised := congrArg Prod.fst h

theorem State.told_of_noted (h : t.noted = s.noted) : t.told = s.told :=
  Prod.ext (State.raised_of_noted h) (funext fun d => Die.told_of_noted (State.die_noted h d))

theorem State.noted_of_eq (raised : t.raised = s.raised) (die : ∀ d, t.die d = s.die d) : t.noted = s.noted := by
  simp only [State.noted, raised, die]

end

/-! ### Operations of a die -/

theorem Die.countAt_noted (x : Die) {kind unit idx : Nat} (w32 : Bool) (n : Nat) (h : idx % 64 ≠ 10) :
    (x.countAt kind unit idx w32 n).noted = x.noted := by
  refine Prod.ext ?_ (Prod.ext ?_ (Prod.ext ?_ (x.countAt_uncorrected w32 n h))) <;> cases w32 <;> rfl

theorem Die.count_noted (x : Die) {c : Ctr} (h : c.idx % 64 ≠ 10) (unit n : Nat) : (x.count c unit n).noted = x.noted :=
  x.countAt_noted _ _ h

theorem Die.modFabric_told (x : Die) (r : Nat) (f : Fabric → Fabric) : (x.modFabric r f).told = x.told := rfl

theorem Die.modCtx_noted (x : Die) (c : Nat) (f : Ctx → Ctx) : (x.modCtx c f).noted = x.noted := by
  unfold Die.modCtx
  split <;> rfl

theorem Die.cancelCopy_noted (x : Die) (h : Nat) : (x.cancelCopy h).noted = x.noted := by
  unfold Die.cancelCopy
  split <;> rfl

theorem Die.cancelRegion_noted (x : Die) (r : Nat) : (x.cancelRegion r).noted = x.noted :=
  foldl_keeps Die.noted (fun (c : Copy) _ x => x.cancelCopy_noted c.handle) x

theorem Die.answerFenced_noted (x : Die) (d w : Nat) : (x.answerFenced d w).noted = x.noted :=
  Die.count_noted _ (by decide) w _

theorem Die.flushPort_told (ring : Nat) : ∀ (n : Nat) (l : List (BitVec 512)) (x : Die), (x.flushPort ring n l).1.told = x.told
  | _, [], _ => by simp [Die.flushPort]
  | 0, _ :: _, _ => by simp [Die.flushPort]
  | n + 1, u :: l, x => by
    unfold Die.flushPort
    split
    · rfl
    · exact Die.flushPort_told ring n l (x.ringPush ring u)

theorem Die.closePorts_told (x : Die) (r : Nat) : (x.closePorts r).told = x.told := by
  unfold Die.closePorts
  extract_lets f cut readers x1 one x2
  have read : x1.told = x.told :=
    (foldl_keeps Die.told (fun (b : Nat × PortBind) _ y => (rfl : (y.modRing b.2.ring _).told = y.told)) _).trans (Die.told_of_noted (x.count_noted (c := tpCallDrop) (by decide) r cut))
  have written (n : Nat) (y : Die) : (one y n).told = y.told := Die.flushPort_told _ _ _ y
  calc (x2.modFabric r _).told = x2.told := x2.modFabric_told r _
    _ = (x1.staggerLost r).told := foldl_keeps Die.told (fun n _ => written n) _
    _ = x.told := read

theorem Die.unconfigure_told (x : Die) (d r : Nat) : (x.unconfigure d r).told = x.told := by
  rw [← x.closePorts_told r, Die.unconfigure]
  generalize x.closePorts r = y
  rfl

/-! ### Weight threads of a die -/

theorem Die.modTSlot_noted (x : Die) (m slot : Nat) (f : TSlot → TSlot) : (x.modTSlot m slot f).noted = x.noted := by
  unfold Die.modTSlot
  split <;> rfl

theorem Region.reach_isolated (g : Region) : g.reach.isolated = g.isolated := by
  unfold Region.reach Region.stay
  repeat' split
  all_goals rfl

theorem Die.modRegion_noted (x : Die) (r : Nat) {f : Region → Region} (h : ∀ g, (f g).isolated = g.isolated) :
    (x.modRegion r f).noted = x.noted := by
  refine Prod.ext rfl (Prod.ext rfl (Prod.ext (funext fun q => ?_) rfl))
  change ((x.modRegion r f).region q).isolated = (x.region q).isolated
  by_cases hq : q = r
  · rw [hq, Die.region_modRegion_same, h]
  · rw [Die.region_modRegion_other _ _ hq]

theorem Die.putTransit_noted (x : Die) (th : Nat) (h : Thread) (p r : Nat) (t : TEntry) :
    (x.putTransit th h p r t).noted = x.noted := by
  refine (Die.modRegion_noted _ r Region.reach_isolated).trans ?_
  split
  · unfold Die.countRT
    split <;> exact Die.countAt_noted _ _ _ (by decide)
  · rfl

theorem Die.pumpOne_noted (x : Die) (th p : Nat) : (x.pumpOne th p).noted = x.noted := by
  unfold Die.pumpOne
  repeat' split
  case isTrue => exact (Die.count_noted _ (by decide) _ _).trans (Die.putTransit_noted ..)
  all_goals rfl

theorem Die.pump_noted (x : Die) (th : Nat) : (x.pump th).noted = x.noted :=
  foldl_keeps Die.noted (fun p _ x => x.pumpOne_noted th p) x

theorem Die.gapSlot_noted (x : Die) (e : Nat × Nat) : (x.gapSlot e).noted = x.noted := by
  unfold Die.gapSlot
  split
  · rfl
  · split
    · rfl
    · exact Die.pump_noted ..

theorem Die.cutThread_noted (x : Die) (th : Nat) : (x.cutThread th).noted = x.noted := by
  unfold Die.cutThread
  split
  · rfl
  · extract_lets down atDown held lost x1
    have cut : x1.noted = x.noted := foldl_keeps Die.noted (fun e _ y => y.modTSlot_noted e.1 e.2 _) _
    split
    · exact (foldl_keeps Die.noted (fun e _ y => y.gapSlot_noted e) x1).trans cut
    · exact cut

theorem Die.cutThreads_noted (x : Die) : x.cutThreads.noted = x.noted :=
  foldl_keeps Die.noted (fun th _ x => x.cutThread_noted th) x

/-! ### Of the state -/

theorem State.setDie_noted (s : State) (d : Nat) (x : Die) (h : x.noted = (s.die d).noted) : (s.setDie d x).noted = s.noted := by
  refine Prod.ext rfl (funext fun e => ?_)
  change ((s.setDie d x).die e).noted = (s.die e).noted
  by_cases he : e = d
  · rw [he, State.die_setDie_same, h]
  · rw [State.die_setDie_other _ _ he]

theorem State.modDie_noted_of {s u : State} {d : Nat} {f : Die → Die} (hf : ∀ x, (f x).noted = x.noted)
    (hu : u.noted = s.noted) : (u.modDie d f).noted = s.noted := (u.setDie_noted d _ (hf _)).trans hu

theorem State.modDie_told_of {s u : State} {d : Nat} {f : Die → Die} (hf : ∀ x, (f x).told = x.told)
    (hu : u.told = s.told) : (u.modDie d f).told = s.told := by
  refine Eq.trans (b := u.told) (Prod.ext rfl (funext fun e => ?_)) hu
  change ((u.modDie d f).die e).told = (u.die e).told
  by_cases he : e = d
  · rw [he, State.die_modDie_same, hf]
  · rw [State.die_modDie_other _ _ he]

theorem OnlyReplies.noted {s t : State} (h : OnlyReplies s t) : t.noted = s.noted :=
  State.noted_of_eq (by rw [h]) h.die

theorem State.finish_noted (s : State) (code : Nat) (p : Pkt) (st : Status) (det : Nat) (a b : List Byte) :
    (s.finish code p st det a b).noted = s.noted := (s.onlyReplies_finish code p st det a b).noted

theorem State.modCtx_noted (s : State) (d c : Nat) (f : Ctx → Ctx) : (s.modCtx d c f).noted = s.noted :=
  State.modDie_noted_of (fun x => x.modCtx_noted c f) rfl

/-! ### Contexts, descriptors and knots -/

theorem State.writeRec_noted (s : State) (d c : Nat) (r : CRec) : (s.writeRec d c r).noted = s.noted := s.modCtx_noted d c _

theorem State.failServed_noted (s : State) (d c : Nat) (st : Status) (only : Option Nat) :
    (s.failServed d c st only).noted = s.noted := by
  unfold State.failServed
  split
  · rfl
  · split <;> rfl

theorem State.drained_noted (s : State) (d c : Nat) (l : List CRec) : (s.drained d c l).noted = s.noted := by
  unfold State.drained
  split
  · rfl
  · split <;> rfl

theorem State.endCtx_noted (s : State) (d c : Nat) (st : Status) : (s.endCtx d c st).noted = s.noted := by
  unfold State.endCtx
  split
  · rfl
  · dsimp only
    refine (State.modCtx_noted ..).trans ?_
    repeat' split
    all_goals exact State.drained_noted ..

theorem State.endDesc_noted (s : State) (d c : Nat) (desc : BitVec 512) (st : Status) (fp : Nat) (checked : Bool)
    (only : Option Nat) : (s.endDesc d c desc st fp checked only).noted = s.noted := by
  unfold State.endDesc
  extract_lets s1 s2 own
  have h1 : s1.noted = s.noted := State.writeRec_noted ..
  have h2 : s2.noted = s.noted := by
    unfold s2
    split
    · exact h1
    · exact (State.failServed_noted ..).trans h1
  split
  · exact State.modDie_noted_of (fun _ => rfl) h2
  · exact h2

theorem State.haltOn_noted (s : State) (d : Nat) (k : TileKind) (t : Nat) (st : Status) :
    (s.haltOn d k t st).noted = s.noted := by
  unfold State.haltOn
  split
  · rfl
  · exact (State.modCtx_noted ..).trans (State.modDie_noted_of (fun _ => rfl) rfl)

theorem State.orphan_noted (s : State) (d c : Nat) (st : Status) : (s.orphan d c st).noted = s.noted := by
  unfold State.orphan
  split
  · rfl
  · split
    · split
      · exact (State.writeRec_noted ..).trans (State.haltOn_noted ..)
      · refine State.modDie_noted_of (fun _ => rfl) ((State.modCtx_noted ..).trans ?_)
        exact (State.endCtx_noted ..).trans (State.writeRec_noted ..)
    · exact (State.writeRec_noted ..).trans (State.modCtx_noted ..)
    all_goals rfl

theorem State.untieOne_noted (s : State) (d k : Nat) : (s.untieOne d k).1.noted = s.noted := by
  refine (foldl_keeps State.noted (fun (w : Nat × BitVec 64) _ s => s.orphan_noted d w.1 _) _).trans ?_
  refine (foldl_keeps State.noted (fun (w : Pkt × BitVec 64) _ s => s.finish_noted 0x0503 w.1 _ _ _ _) _).trans ?_
  exact State.modDie_noted_of (fun x => Die.count_noted _ (c := knOwnerLost) (by decide) _ _) rfl

theorem State.unwind_noted (d : Nat) : ∀ (n : Nat) (l : List Nat) (s : State), (State.unwind d n l s).noted = s.noted
  | 0, _, _ => by simp [State.unwind]
  | _ + 1, [], _ => by simp [State.unwind]
  | n + 1, c :: r, s => by
    unfold State.unwind
    refine (State.unwind_noted d n _ _).trans (foldl_keeps (fun p : State × List Nat => p.1.noted) ?_ (s, []))
    exact fun k _ p => p.1.untieOne_noted d k

theorem State.failCtx_noted (s : State) (d c : Nat) (st : Status) : (s.failCtx d c st).noted = s.noted := by
  refine (State.unwind_noted ..).trans (State.modDie_noted_of (fun x => ?_) ?_)
  · split <;> rfl
  · exact (State.modCtx_noted ..).trans (State.endCtx_noted ..)

theorem State.failOn_noted (s : State) (d : Nat) (k : TileKind) (t : Nat) (st : Status) : (s.failOn d k t st).noted = s.noted := by
  unfold State.failOn
  split
  · rfl
  · exact (State.failCtx_noted ..).trans (State.modDie_noted_of (fun _ => rfl) rfl)

theorem State.destroyCtx_noted (s : State) (d c : Nat) (st : Status) : (s.destroyCtx d c st).noted = s.noted := by
  unfold State.destroyCtx
  split
  · rfl
  · refine (State.unwind_noted ..).trans (State.modDie_noted_of (fun x => ?_) (State.endCtx_noted ..))
    dsimp only
    split <;> rfl

theorem State.endArray_noted (s : State) (d t arr : Nat) (st : Status) : (s.endArray d t arr st).noted = s.noted := by
  unfold State.endArray
  refine State.modDie_noted_of (fun _ => rfl) ?_
  refine (foldl_keeps State.noted (fun (e : BitVec 512 × Nat) _ s => s.endDesc_noted d e.2 e.1 _ _ _ _) _).trans ?_
  refine (foldl_keeps State.noted (fun (u : Att) _ s => s.endDesc_noted d u.ctx u.desc _ _ _ _) _).trans ?_
  exact foldl_keeps State.noted (fun (u : Run) _ s => s.endDesc_noted d u.ctx u.desc _ _ _ _) s

/-! ### Regions -/

theorem State.evictRegion_noted (s : State) (d r : Nat) : (s.evictRegion d r).noted = s.noted := by
  unfold State.evictRegion
  extract_lets homed s0 s1 tiles
  have ended : s0.noted = s.noted :=
    foldl_keeps State.noted (fun i _ s => (State.endArray_noted ..).trans (s.endArray_noted d (8 * r + i) 0 _)) s
  have destroyed : s1.noted = s0.noted := foldl_keeps State.noted (fun c _ s => s.destroyCtx_noted d c _) s0
  refine (foldl_keeps State.noted (fun t _ s => ?_) s1).trans (destroyed.trans ended)
  exact State.modDie_noted_of (fun _ => rfl) (s.failOn_noted d t.1 t.2 _)

theorem State.suspendRegion_noted (s : State) (d r : Nat) : (s.suspendRegion d r).noted = s.noted := rfl

theorem State.endSession_told (s : State) (d r : Nat) (st : Status) (det : Nat) (now : Option Pkt) :
    (s.endSession d r st det now).told = s.told := by
  unfold State.endSession
  split
  · rfl
  next q _ =>
    extract_lets s1
    have ended : s1.told = s.told := State.modDie_told_of (fun x => by
      split
      · exact (Die.told_of_noted (Die.count_noted _ (by decide) 0 1)).trans (x.unconfigure_told d r)
      · rfl) rfl
    have replied (code : Nat) (p : Pkt) : (s1.finish code p st det [] []).told = s.told :=
      (State.told_of_noted (State.finish_noted ..)).trans ended
    repeat' split
    · exact replied ..
    · exact replied ..
    · exact ended

theorem State.endActs_told (s : State) (d r : Nat) : (s.endActs d r).told = s.told := by
  refine State.modDie_told_of (fun _ => rfl) (State.told_of_noted ?_)
  exact foldl_keeps State.noted (fun (a : ClkAct) _ s => s.finish_noted _ a.pkt _ _ _ _) s

theorem State.unconfigureRegion_told (s : State) (d r : Nat) : (s.unconfigureRegion d r).told = s.told := by
  unfold State.unconfigureRegion
  dsimp only
  split
  · split
    · exact (State.endSession_told ..).trans (s.endActs_told d r)
    · refine State.modDie_told_of (fun x => ?_) ((State.endSession_told ..).trans (s.endActs_told d r))
      split
      · exact x.unconfigure_told d r
      · rfl
  · refine State.modDie_told_of (fun x => ?_) (s.endActs_told d r)
    split
    · rfl
    · exact x.unconfigure_told d r

/-- The region's fabric once its waiting actions are answered. -/
theorem State.endActs_fabric (s : State) (d r : Nat) :
    ((s.endActs d r).die d).fabric r = { (s.die d).fabric r with acts := [], copying := none } := by
  refine (congrArg (Die.fabric · r) (State.die_modDie_same ..)).trans ((Die.fabric_modFabric_same ..).trans ?_)
  refine congrArg (fun f : Fabric => { f with acts := [], copying := none }) (Die.fabric_of_noted (State.die_noted ?_ d) r)
  exact foldl_keeps State.noted (fun (a : ClkAct) _ s => s.finish_noted _ a.pkt _ _ _ _) s

/-- A CONFIGURED region is left UNCONFIGURED, whatever step a load of it has reached. -/
theorem State.unconfigureRegion_configured {s : State} {d r : Nat} (conf : ((s.die d).fabric r).st = .configured) :
    (((s.unconfigureRegion d r).die d).fabric r).st = .unconfigured := by
  have acts : (((s.endActs d r).die d).fabric r).st = .configured := by
    rw [State.endActs_fabric]
    exact conf
  unfold State.unconfigureRegion
  dsimp only
  split
  next q hq =>
    split
    next opened => exact (State.endSession_unconfigures hq opened ..).2
    next early =>
      have still : ((((s.endActs d r).endSession d r .unitFenced 0 none).die d).fabric r).st = .configured := by
        unfold State.endSession
        rw [hq]
        dsimp only
        rw [if_neg (by omega), State.die_modDie_same, if_neg early, Die.fabric_modFabric_same]
        exact acts
      rw [State.die_modDie_same, still, if_pos (by decide)]
      exact (Die.unconfigure_fabric ..).2
  next =>
    rw [State.die_modDie_same, acts, if_neg (by decide)]
    exact (Die.unconfigure_fabric ..).2

/-- `t` holds the events of `s`, perhaps more, and its dies are noted as those of `s`. -/
structure OnlyEvents (s t : State) : Prop where
  dies   : ∀ d, (t.die d).noted = (s.die d).noted
  raised : s.raised ⊆ t.raised

section
variable {s t : State}

theorem OnlyEvents.of_noted (h : t.noted = s.noted) : OnlyEvents s t :=
  ⟨State.die_noted h, State.raised_of_noted h ▸ List.Subset.refl _⟩

/-- An event after what adds no more than events. -/
theorem OnlyEvents.emit (h : OnlyEvents s t) (e : Event) : OnlyEvents s (t.emit e) := by
  refine ⟨fun d => (congrArg Die.noted (State.emit_die ..)).trans (h.dies d), List.Subset.trans h.raised ?_⟩
  unfold State.emit
  split <;> exact List.subset_append_left ..

end

theorem State.linkDown_onlyEvents (s : State) (d p : Nat) : OnlyEvents s (s.linkDown d p) := by
  have down : (s.modDie d fun x => x.modFelt p Felt.goDown).noted = s.noted := State.modDie_noted_of (fun _ => rfl) rfl
  have departs (left : LState) : OnlyEvents s ((s.modDie d fun x => x.modFelt p Felt.goDown).depart d p left) := by
    refine (OnlyEvents.of_noted ?_).emit _
    exact State.modDie_noted_of (fun _ => Die.count_noted _ (c := flDeparts) (by decide) _ _) down
  unfold State.linkDown
  dsimp only
  repeat' split
  · exact .of_noted rfl
  · exact departs _
  · exact departs _
  · exact .of_noted down

/-- A region's boundary closes: the first of what an isolation does (R23, R26). -/
def Die.walled (x : Die) (d r : Nat) : Die :=
  let y := ((List.range 8).map (8 * r + ·) ++ [64 + 2 * r, 65 + 2 * r]).foldl (fun x w => x.answerFenced d w)
    ((x.cancelRegion r).unwake r)
  y.modRegion r fun g => { g with isolated := true, fencedBefore := y.fencedIn r }

theorem Die.walled_facts (x : Die) (d r : Nat) : (x.walled d r).fabrics = x.fabrics ∧ (x.walled d r).darner = x.darner ∧
    tget (x.walled d r).ctrs uncorrectedKey 0 = tget x.ctrs uncorrectedKey 0 ∧ ((x.walled d r).region r).isolated = true := by
  unfold Die.walled
  extract_lets y
  have answered : y.noted = x.noted :=
    (foldl_keeps Die.noted (fun w _ x => x.answerFenced_noted d w) _).trans (x.cancelRegion_noted r)
  refine ⟨congrArg (fun n => n.1) answered, congrArg (fun n => n.2.1) answered, congrArg (fun n => n.2.2.2) answered, ?_⟩
  rw [Die.region_modRegion_same]

/-- What follows the closed boundary, up to the event of the region. -/
def State.emptied (s : State) (d r : Nat) : State :=
  ((((s.evictRegion d r).suspendRegion d r).unconfigureRegion d r).linkDown d r).modDie d Die.cutThreads

theorem State.isolate_eq {s : State} {d r : Nat} (inside : ((s.die d).region r).isolated = false) (cause mask : Nat) :
    ∃ e, s.isolate d r cause mask false = ((s.modDie d fun x => x.walled d r).emptied d r).emit e := by
  unfold State.isolate
  rw [inside, if_neg Bool.false_ne_true]
  extract_lets ws s1 s2
  rw [if_neg Bool.false_ne_true]
  exact ⟨_, rfl⟩

/-- Every die tells what it told, events are only added, and the region's fabric, if it was CONFIGURED, is UNCONFIGURED. -/
theorem State.emptied_facts {s : State} {d r : Nat} (conf : ((s.die d).fabric r).st = .configured) :
    (∀ e, ((s.emptied d r).die e).told = (s.die e).told) ∧ s.raised ⊆ (s.emptied d r).raised ∧
      (((s.emptied d r).die d).fabric r).st = .unconfigured := by
  unfold State.emptied
  have evicted : ((s.evictRegion d r).suspendRegion d r).noted = s.noted :=
    (State.suspendRegion_noted ..).trans (s.evictRegion_noted d r)
  rw [← Die.fabric_of_noted (State.die_noted evicted d) r] at conf
  generalize (s.evictRegion d r).suspendRegion d r = u at evicted conf
  have stopped : (u.unconfigureRegion d r).told = s.told := (u.unconfigureRegion_told d r).trans (State.told_of_noted evicted)
  have unconfigured := State.unconfigureRegion_configured conf
  generalize u.unconfigureRegion d r = v at stopped unconfigured
  obtain ⟨dies, raised⟩ := v.linkDown_onlyEvents d r
  generalize v.linkDown d r = w at dies raised
  have cut : (w.modDie d Die.cutThreads).noted = w.noted := State.modDie_noted_of Die.cutThreads_noted rfl
  have dies (e : Nat) : ((w.modDie d Die.cutThreads).die e).noted = (v.die e).noted := (State.die_noted cut e).trans (dies e)
  refine ⟨fun e => (Die.told_of_noted (dies e)).trans (congrFun (congrArg Prod.snd stopped) e), ?_, ?_⟩
  · have same : v.raised = s.raised := congrArg Prod.fst stopped
    exact same ▸ raised
  · rw [Die.fabric_of_noted (dies d) r]
    exact unconfigured

/-- An isolation keeps the darner's report, and leaves the region isolated and its fabric, if it was CONFIGURED, UNCONFIGURED. -/
theorem State.isolate_reports {s t : State} {d r cause mask : Nat} (inside : ((s.die d).region r).isolated = false)
    (conf : ((s.die d).fabric r).st = .configured) (ht : t = s.isolate d r cause mask false) :
    (t.die d).darner = (s.die d).darner ∧
      tget (t.die d).ctrs uncorrectedKey 0 = tget (s.die d).ctrs uncorrectedKey 0 ∧
      ((t.die d).region r).isolated = true ∧ ((t.die d).fabric r).st = .unconfigured ∧ s.raised ⊆ t.raised := by
  obtain ⟨e, eq⟩ := State.isolate_eq inside cause mask
  obtain ⟨fabrics, darner, key, isolated⟩ := (s.die d).walled_facts d r
  have walled : (s.modDie d fun x => x.walled d r).die d = (s.die d).walled d r := State.die_modDie_same ..
  obtain ⟨told, raised, unconfigured⟩ := State.emptied_facts (s := s.modDie d fun x => x.walled d r) (d := d) (r := r)
    (by rw [walled, Die.fabric, fabrics]; exact conf)
  have told := (told d).trans (congrArg Die.told walled)
  generalize (s.modDie d fun x => x.walled d r).emptied d r = u at eq told raised unconfigured
  have emitted : OnlyEvents u (u.emit e) := (OnlyEvents.of_noted rfl).emit e
  rw [ht, eq, State.emit_die]
  exact ⟨(congrArg (fun n => n.1) told).trans darner, (congrArg (fun n => n.2.2) told).trans key,
    (congrArg (fun n => n.2.1 r) told).trans isolated, unconfigured, List.Subset.trans raised emitted.raised⟩

theorem Die.struck_uncorrected (x : Die) (a w : Nat) (v : BitVec 64) :
    tget (x.struck a w v).ctrs uncorrectedKey 0 = (tget x.ctrs uncorrectedKey 0 + 1) % 2 ^ 32 :=
  tget_tput_same ..

theorem Die.struck_fabrics (x : Die) (a w : Nat) (v : BitVec 64) : (x.struck a w v).fabrics = x.fabrics := rfl

/-- What a word with two bits in error leaves, whether or not its region is isolated for it: the darner's report stands, and the
event of the word waits (R295). -/
theorem State.darnWord_reports {s : State} {d a : Nat} {e : DarnErr} (hd : d < 8)
    (conf : ((s.die d).fabric e.region).st = .configured) (two : e.dbl = true)
    (inside : ((s.die d).region e.region).isolated = false)
    (ha : a = scanAddr d e.region (tget (s.die d).darner.at_ e.region 0)) :
    ((s.darnWord d e).die d).darner = { (s.die d).darner with dblSeen := true, frame := BitVec.ofNat 32 a } ∧
      tget ((s.darnWord d e).die d).ctrs uncorrectedKey 0 = (tget (s.die d).ctrs uncorrectedKey 0 + 1) % 2 ^ 32 ∧
      (∃ v, v ∈ (s.darnWord d e).raised ∧ v.code = 0x0032 ∧ v.die = d ∧ v.region = e.region ∧ v.arg0 = a) ∧
      (bitAt ((s.die d).regv 0x3000) 2 = true → (((s.darnWord d e).die d).region e.region).isolated = true ∧
        (((s.darnWord d e).die d).fabric e.region).st = .unconfigured) ∧
      (bitAt ((s.die d).regv 0x3000) 2 = false → ((s.darnWord d e).die d).region e.region = (s.die d).region e.region ∧
        ((s.darnWord d e).die d).fabric e.region = (s.die d).fabric e.region) := by
  cases isolates : bitAt ((s.die d).regv 0x3000) 2 with
  | false =>
    obtain ⟨v, struck⟩ := State.darnWord_double conf two ha isolates
    obtain ⟨time, raised⟩ := s.struck_raised hd a e v false
    rw [struck, if_neg Bool.false_ne_true, State.struck_die, Die.struck_uncorrected, Die.region, Die.fabric, Die.struck_regions,
      Die.struck_fabrics, raised]
    exact ⟨rfl, rfl, ⟨_, List.mem_append_right _ (List.mem_singleton_self _), rfl, rfl, rfl, rfl⟩, nofun, fun _ => ⟨rfl, rfl⟩⟩
  | true =>
    obtain ⟨v, struck⟩ := State.darnWord_double conf two ha isolates
    obtain ⟨time, raised⟩ := s.struck_raised hd a e v true
    have die := s.struck_die d a e v true
    rw [if_pos rfl] at struck
    obtain ⟨darner, key, isolated, unconfigured, waits⟩ := State.isolate_reports (by
      rw [die, Die.region, Die.struck_regions]; exact inside) (by rw [die, Die.fabric, Die.struck_fabrics]; exact conf) struck
    rw [darner, key, die, Die.struck_uncorrected]
    refine ⟨rfl, rfl, ⟨{ frameEvent d e.region a true with time := time }, waits ?_, rfl, rfl, rfl, rfl⟩, fun _ => ⟨isolated, unconfigured⟩, nofun⟩
    · rw [raised]
      exact List.mem_append_right _ (List.mem_singleton_self _)

/-- Settles O60: the round's last step, `Die.advance`, leaves what `State.darnWord_reports` says. -/
theorem uncorrectableWords : Obligations.UncorrectableWords := by
  refine ⟨by decide, fun s d a e hl hs ok two inside ha => ⟨_, exec_darnerScan hl hs ok (by simp [two]), ?_⟩⟩
  have hd : d < 8 := (State.dieCount_of_live hl).trans_le s.dieCount_le
  rw [List.foldl_cons, List.foldl_nil]
  obtain ⟨darner, key, event, isolating, running⟩ :=
    State.darnWord_reports hd (Die.configured_of_errsOk ok) two inside ha
  generalize s.darnWord d e = t at darner key event isolating running
  obtain ⟨⟨at_, ctrs, wraps, eq⟩, kept⟩ := Die.advance_advanced
    ((s.die d).configured.filter fun r => ((t.die d).fabric r).st == .configured) (t.die d)
  dsimp only
  rw [State.die_modDie_same, State.modDie_raised]
  refine ⟨?_, ?_, kept.trans key, event, ?_, ?_⟩ <;> rw [eq]
  · exact congrArg Darner.dblSeen darner
  · exact congrArg Darner.frame darner
  · exact isolating
  · exact running

end Sys2Proof.Machine

namespace Sys2Proof.Machine

/-! ## Psiurn's store: what a command makes of it (R390, R420, R421, R425, R427, R429) -/

/-- What a command makes of Psiurn's store where it answers from state `s`, by the commands that may write it. -/
inductive StoreWrite (s : State) : Instr → Psiurn → Prop
  | keeps (c : Instr) : StoreWrite s c s.psi
  | imageKey {p : Pkt} {n : Nat} {w : WrapBlk} (k : BitVec 256) (low : n < 16) (fresh : tfind s.psi.imageKeys n = none) :
      StoreWrite s (.keyLoadImageKey p n w) { s.psi with imageKeys := tput s.psi.imageKeys n k }
  | identity {p : Pkt} {l : List SignEntry} (fresh : ∀ e ∈ s.psi.signing, e.1 < 2) (fits : l.length ≤ 6) :
      StoreWrite s (.keyLoadIdentityRecord p l) { s.psi with
        signing := (l.mapIdx fun i e => (i, e)).foldl (fun t (e : Nat × SignEntry) => tput t (2 + e.1) e.2) s.psi.signing }
  | flash (c : Instr) {m : Memory} (wf : Memory.wf s.psi.flash = true → Memory.wf m = true) :
      StoreWrite s c { s.psi with flash := m }
  | fwMin {p : Pkt} {v : Nat} (up : s.psi.fwMin ≤ v) (top : v ≤ 63) :
      StoreWrite s (.fwUpdateRaiseFwMin p v) { s.psi with fwMin := v }
  | cfgMin {p : Pkt} {v : Nat} (up : s.psi.cfgMin ≤ v) (top : v ≤ 63) :
      StoreWrite s (.fwUpdateRaiseCfgMin p v) { s.psi with cfgMin := v }
  | limits (c : Instr) {pMw rMw : Nat} (low : s.part.variant.limitMw ≤ 4 * pMw) (top : pMw ≤ s.part.variant.limitMw)
      (reserve : 10 * rMw ≤ 3 * shareMw pMw s.part.variant.dies) :
      StoreWrite s c { s.psi with pMw := pMw, rMw := rMw }

/-- An opcode either passes its checks and answers its effect, or leaves the store as it is. -/
theorem opcode_passes_or_kept {code : Nat} {perm : Perm} {p : Pkt} {chk : Option (Status × Nat)} {t s r : State}
    (h : opcode code perm p chk t s = .next r) : chk = none ∧ r = t ∨ r.psi.kept = s.psi.kept := by
  have kept {x : State} (hx : x.kept = s.kept) : x.psi.kept = s.psi.kept := ((State.kept_eq_iff s x).mp hx).2.2
  obtain rfl | rfl | rfl := gate_eq_next h
  · match chk with
    | none => exact .inl ⟨rfl, rfl⟩
    | some (st, det) => exact .inr (kept (State.refuse_kept ..))
  · exact .inr (kept (State.refuse_kept ..))
  · exact .inr rfl

/-- An opcode that ends with the reply OK writes of the store what its effect wrote before the reply. -/
theorem opcode_ok_store {code : Nat} {perm : Perm} {p : Pkt} {chk : Option (Status × Nat)} {t s r : State} {c : Instr} {a b : List Byte}
    (h : opcode code perm p chk (t.finish code p .ok 0 a b) s = .next r) (w : chk = none → StoreWrite s c t.psi) :
    ∃ y, StoreWrite s c y ∧ r.psi.kept = y.kept := by
  obtain ⟨hc, rfl⟩ | hr := opcode_passes_or_kept h
  · exact ⟨_, w hc, ((State.kept_eq_iff ..).mp (State.finish_kept ..)).2.2⟩
  · exact ⟨_, .keeps c, hr⟩

/-- An opcode whose effect is nothing keeps the store. -/
theorem opcode_idle_store {code : Nat} {perm : Perm} {p : Pkt} {chk : Option (Status × Nat)} {s r : State} (c : Instr)
    (h : opcode code perm p chk s s = .next r) : ∃ y, StoreWrite s c y ∧ r.psi.kept = y.kept := by
  obtain ⟨-, rfl⟩ | kept := opcode_passes_or_kept h
  · exact ⟨_, .keeps c, rfl⟩
  · exact ⟨_, .keeps c, kept⟩

theorem Memory.wf_foldl_mwriteN (l : List (Nat × List Byte)) {m : Memory} (h : Memory.wf m = true) :
    Memory.wf (l.foldl (fun m w => mwriteN m w.1 w.2) m) = true := by
  induction l generalizing m with
  | nil => exact h
  | cons w r ih => exact ih (Memory.wf_mwriteN _ _ h)

/-- The limits after a package reset lie within R390's bounds. -/
theorem storeWrite_reset (s : State) (c : Instr) :
    StoreWrite s c { s.psi with pMw := s.part.variant.limitMw, rMw := Psiurn.reset.rMw } := by
  refine .limits c (by omega) (Nat.le_refl _) ?_
  cases s.part.variant <;> decide

/-- Every command makes of Psiurn's store what `StoreWrite` allows it. -/
theorem exec_storeWrite {c : Instr} {s t : State} (h : exec c s = .next t) : ∃ y, StoreWrite s c y ∧ t.psi.kept = y.kept := by
  cases hc : storeWriter c with
  | false => exact ⟨_, .keeps c, ((State.kept_eq_iff s t).mp (exec_kept hc s t h)).2.2⟩
  | true =>
    cases c
    case energyLimit p pMw rMw =>
      obtain ⟨ok, rfl⟩ | kept := opcode_passes_or_kept h
      · simp only [chkEnergyLimit, firstOf_eq_none, List.forall_mem_cons, badAt, Bool.or_eq_false_iff, decide_eq_false_iff_not,
          Nat.not_lt] at ok
        obtain ⟨⟨low, top⟩, reserve, -⟩ := ok
        exact ⟨_, .limits _ low top reserve, rfl⟩
      · exact ⟨_, .keeps _, kept⟩
    case keyLoadImageKey p n w =>
      simp only [exec, execKeyLoadImageKey] at h
      cases hk : unwrap 2 n 0 w with
      | none =>
        rw [hk] at h
        exact opcode_idle_store _ h
      | some k =>
        rw [hk] at h
        refine opcode_ok_store h fun ok => ?_
        simp only [firstOf_eq_none, List.forall_mem_cons, badAt, Bool.or_eq_false_iff, decide_eq_false_iff_not, thas,
          Option.isSome_eq_false_iff, Option.isNone_iff_eq_none] at ok
        exact .imageKey _ (by omega) ok.1.2
    case keyLoadIdentityRecord p l =>
      refine opcode_ok_store h fun ok => ?_
      simp only [firstOf_eq_none, List.forall_mem_cons, badAll, Bool.or_eq_false_iff, List.any_eq_false, decide_eq_true_eq,
        Nat.not_le, Bool.not_eq_false', Bool.and_eq_true] at ok
      obtain ⟨⟨-, fresh⟩, ⟨-, fits⟩, -⟩ := ok
      exact .identity fresh fits
    case fwUpdateWrite p off data =>
      refine opcode_ok_store h fun _ => .flash _ fun wf => ?_
      split
      · exact Memory.wf_mwriteN _ _ wf
      · exact wf
    case fwUpdateActivate p chk =>
      simp only [exec, execFwUpdateActivate] at h
      cases hd : s.fwDir with
      | none =>
        simp only [hd] at h
        exact opcode_idle_store _ h
      | some d =>
        cases ha : s.fwInactive with
        | none =>
          simp only [hd, ha] at h
          exact opcode_idle_store _ h
        | some a =>
          simp only [hd, ha] at h
          refine opcode_ok_store h fun _ => .flash _ fun wf => ?_
          exact Memory.wf_mwriteN _ _ wf
    case fwUpdateRaiseFwMin p v =>
      refine opcode_ok_store h fun ok => ?_
      simp only [firstOf_eq_none, List.forall_mem_cons, badAt, Bool.not_eq_false', Bool.and_eq_true, decide_eq_true_eq] at ok
      exact .fwMin ok.1.1 (by omega)
    case fwUpdateRaiseCfgMin p v =>
      refine opcode_ok_store h fun ok => ?_
      simp only [firstOf_eq_none, List.forall_mem_cons, badAt, Bool.not_eq_false', Bool.and_eq_true, decide_eq_true_eq] at ok
      exact .cfgMin ok.1.1 ok.1.2
    case packageReset =>
      cases h
      exact ⟨_, storeWrite_reset s _, rfl⟩
    case packageResetRelease f =>
      obtain ⟨-, -, rfl⟩ | rfl := event_eq_next h
      · exact ⟨_, .flash _ (Memory.wf_foldl_mwriteN f.flash), ((State.kept_eq_iff ..).mp (State.leaveReset_kept s f)).2.2⟩
      · exact ⟨_, .keeps _, rfl⟩
    case vinExcursion k =>
      obtain ⟨-, -, rfl⟩ | rfl := event_eq_next h
      · have kept := doVinExcursion_kept k s
        by_cases hk : k = .below36
        · rw [if_pos hk] at kept
          exact ⟨_, storeWrite_reset s _, ((State.kept_eq_iff ..).mp kept).2.2⟩
        · rw [if_neg hk] at kept
          exact ⟨_, .keeps _, ((State.kept_eq_iff ..).mp kept).2.2⟩
      · exact ⟨_, .keeps _, rfl⟩
    all_goals cases hc

/-- `Psiurn.Sound` speaks of the store only. -/
theorem Psiurn.Sound.of_kept {x y : Psiurn} {p : Part} (h : y.kept = x.kept) (hx : x.Sound p) : y.Sound p := by
  obtain ⟨hs, hi, hf, hc, hm, hp, hr⟩ := (Psiurn.kept_eq_iff x y).mp h
  exact ⟨hf ▸ hx.firmware, hc ▸ hx.config, hi ▸ hx.images, hs ▸ hx.signers, hm ▸ hx.flashed, hp ▸ hx.limitLow, hp ▸ hx.limitTop,
    hp ▸ hr ▸ hx.reserve⟩

theorem thas_tput {α : Type} (t : Tbl α) (k j : Nat) (v : α) : thas (tput t k v) j = (decide (j = k) || thas t j) := by
  rw [thas, tfind_tput]
  split <;> simp [thas, *]

/-- The entries that an identity record adds stand from 2 on, one for each of its lines. -/
theorem thas_foldl_identity (l : List (Nat × SignEntry)) (t : Tbl SignEntry) {n : Nat}
    (h : thas (l.foldl (fun t e => tput t (2 + e.1) e.2) t) n = true) : thas t n = true ∨ ∃ e ∈ l, n = 2 + e.1 := by
  induction l generalizing t with
  | nil => exact .inl h
  | cons e r ih =>
    obtain h | ⟨x, hx, rfl⟩ := ih _ h
    · rw [thas_tput, Bool.or_eq_true, decide_eq_true_eq] at h
      exact h.symm.imp id fun hn => ⟨e, List.mem_cons_self, hn⟩
    · exact .inr ⟨x, List.mem_cons_of_mem _ hx, rfl⟩

/-- What a command may write of the store keeps it sound. -/
theorem StoreWrite.sound {s : State} {c : Instr} {y : Psiurn} (h : StoreWrite s c y) (hs : s.psi.Sound s.part) :
    y.Sound s.part := by
  cases h with
  | keeps => exact hs
  | imageKey k low =>
    refine { hs with images := fun n hn => ?_ }
    rw [thas_tput, Bool.or_eq_true, decide_eq_true_eq] at hn
    exact hn.elim (fun e => e ▸ low) (hs.images n)
  | identity _ fits =>
    refine { hs with signers := fun n hn => ?_ }
    obtain hn | ⟨e, he, rfl⟩ := thas_foldl_identity _ _ hn
    · exact hs.signers n hn
    · obtain ⟨i, hi, rfl⟩ := List.mem_mapIdx.mp he
      dsimp only
      omega
  | flash _ wf => exact { hs with flashed := wf hs.flashed }
  | fwMin _ top => exact { hs with firmware := top }
  | cfgMin _ top => exact { hs with config := top }
  | limits _ low top reserve => exact { hs with limitLow := low, limitTop := top, reserve := reserve }

/-- Settles O53: the fields of `State.reset`, read off. -/
theorem resetFollowsSpec : Obligations.ResetFollowsSpec := by
  refine ⟨rfl, rfl, fun _ => rfl, ⟨rfl, rfl, rfl, rfl⟩, ⟨rfl, rfl, rfl⟩, fun d => ⟨rfl, fun _ => rfl, rfl, rfl, rfl, rfl⟩⟩

/-- Settles O54: the key store of a part that is not provisioned is empty, and the limits are those of the variant. -/
theorem psiurnIsSoundAtReset : Obligations.PsiurnIsSoundAtReset where
  firmware := by decide
  config := by decide
  images _ h := nomatch h
  signers _ h := nomatch h
  flashed := rfl
  limitLow := by decide
  limitTop := by decide
  reserve := by decide

/-- Settles O55: a step is a command, which keeps the part and writes the store as `StoreWrite` says. -/
theorem stepKeepsPsiurnSound : Obligations.StepKeepsPsiurnSound := by
  intro s t hs h
  unfold step at h
  split at h
  · cases h
    exact hs
  · obtain ⟨y, write, kept⟩ := exec_storeWrite h
    rw [(commandsKeepPartAndQueue _ _ _ h).1]
    exact .of_kept kept (write.sound hs)

/-- An identity record leaves the entries that are written: they stand below 2. -/
theorem tfind_foldl_identity (l : List (Nat × SignEntry)) (t : Tbl SignEntry) {n : Nat} (h : n < 2) :
    tfind (l.foldl (fun t e => tput t (2 + e.1) e.2) t) n = tfind t n := by
  induction l generalizing t with
  | nil => rfl
  | cons e r ih => rw [List.foldl_cons, ih, tfind_tput_other _ _ (by omega)]

/-- Settles O56: of the writes of `StoreWrite` those to keys are to free places, and those to minimums go up. -/
theorem writtenKeysStay : Obligations.WrittenKeysStay := by
  intro c s t h
  obtain ⟨y, write, kept⟩ := exec_storeWrite h
  obtain ⟨signing, images, fwMin, cfgMin, -⟩ := (Psiurn.kept_eq_iff y t.psi).mp kept
  rw [signing, images, fwMin, cfgMin]
  cases write with
  | keeps | flash | limits => simp
  | imageKey k _ fresh =>
    refine ⟨fun _ _ h => h, fun m v hm => ?_, Nat.le_refl _, Nat.le_refl _, fun _ => rfl, fun no => absurd rfl (no _ _ _),
      fun _ => rfl, fun _ => rfl⟩
    rw [tfind_tput_other _ _ (by rintro rfl; simp [fresh] at hm)]
    exact hm
  | identity fresh =>
    refine ⟨fun n e hn => ?_, fun _ _ h => h, Nat.le_refl _, Nat.le_refl _, fun no => absurd rfl (no _ _), fun _ => rfl,
      fun _ => rfl, fun _ => rfl⟩
    rw [tfind_foldl_identity _ _ (fresh _ (mem_of_tfind hn))]
    exact hn
  | fwMin up =>
    exact ⟨fun _ _ h => h, fun _ _ h => h, up, Nat.le_refl _, fun _ => rfl, fun _ => rfl, fun no => absurd rfl (no _ _), fun _ => rfl⟩
  | cfgMin up =>
    exact ⟨fun _ _ h => h, fun _ _ h => h, Nat.le_refl _, up, fun _ => rfl, fun _ => rfl, fun _ => rfl, fun no => absurd rfl (no _ _)⟩

end Sys2Proof.Machine

namespace Sys2Proof.Machine

/-! ## Keys on the dies (R429, R430) -/

/-- A reply writes of Psiurn the sideband only. -/
theorem OnlyReplies.psi {s t : State} (h : OnlyReplies s t) : t.psi = { s.psi with sideband := t.psi.sideband } := by
  rw [h]

theorem State.namesAbsent_eq_false {s : State} {m : BitVec 8} (h : ∀ d ∈ maskDies m, s.usable d = true) : s.namesAbsent m = false := by
  simpa [State.namesAbsent] using h

/-- The tenant's keys go into the lowest free slot of each named die, and no other die is written. -/
theorem State.loadSealing_die (s : State) (p : Pkt) (t : Nat) (m : BitVec 8) (k : BitVec 256 × BitVec 256) :
    (∀ d ∈ maskDies m, (s.loadSealing p t m k).die d =
      { s.die d with sealSlots := tput (s.die d).sealSlots (s.die d).freeSlot (k.1, k.2, t) }) ∧
    ∀ d, d ∉ maskDies m → (s.loadSealing p t m k).die d = s.die d := by
  obtain ⟨own, rest⟩ := State.foldl_own (f := fun s d => s.modDie d fun x =>
    { x with sealSlots := tput x.sealSlots x.freeSlot (k.1, k.2, t) }) (fun s d => OtherDies.modDie s d _) (maskDies_nodup m) s
  refine ⟨fun d hd => ?_, fun d hd => ?_⟩ <;> unfold State.loadSealing <;> rw [OnlyReplies.die (State.onlyReplies_finish ..)]
  · obtain ⟨u, hu, he⟩ := own d hd
    rw [he, State.die_modDie_same, hu]
  · exact rest d hd

theorem State.loadSealing_replies {s : State} {p : Pkt} (h : OnQueue s p) (t : Nat) (m : BitVec 8) (k : BitVec 256 × BitVec 256) :
    Replies s (s.loadSealing p t m k) 0x0E10 p
      ((List.range 8).flatMap fun d => le 1 (if m.getLsbD d then (s.die d).freeSlot else 0)) [] := by
  have loaded : DiesOnly s ((maskDies m).foldl (fun s d => s.modDie d fun x =>
      { x with sealSlots := tput x.sealSlots x.freeSlot (k.1, k.2, t) }) s) := DiesOnly.foldl (fun _ _ => DiesOnly.modDie ..) _ s
  have := h.finish_of loaded.queues 0x0E10 (((List.range 8).map fun d => if m.getLsbD d then (s.die d).freeSlot else 0).flatMap (le 1)) []
  rwa [List.flatMap_map] at this

/-- An identity record's line `i` is entry 2 + i. -/
theorem tfind_identity (l : List SignEntry) (i0 : Nat) (t : Tbl SignEntry) {i : Nat} (hi : i < l.length) :
    tfind ((l.mapIdx fun i e => (i0 + i, e)).foldl (fun t (e : Nat × SignEntry) => tput t (2 + e.1) e.2) t) (2 + (i0 + i)) = l[i]? := by
  induction l generalizing i0 t i with
  | nil => cases hi
  | cons e r ih =>
    have shift : (r.mapIdx fun i e => (i0 + (i + 1), e)) = r.mapIdx fun i e => (i0 + 1 + i, e) := by
      simp only [Nat.add_assoc, Nat.add_comm 1]
    rw [List.mapIdx_cons, List.foldl_cons, shift]
    cases i with
    | zero =>
      have above : ∀ (r : List SignEntry) (j : Nat) (t : Tbl SignEntry), i0 < j →
          tfind ((r.mapIdx fun i e => (j + i, e)).foldl (fun t (e : Nat × SignEntry) => tput t (2 + e.1) e.2) t) (2 + i0) =
            tfind t (2 + i0) := fun r j t hj => by
        refine List.foldlRecOn (motive := fun u => tfind u (2 + i0) = tfind t (2 + i0)) _ _ rfl fun u hu e he => ?_
        obtain ⟨k, _, rfl⟩ := List.mem_mapIdx.mp he
        rw [tfind_tput_other _ _ (by dsimp only; omega), hu]
      simp only [Nat.add_zero]
      rw [above _ _ _ (Nat.lt_succ_self _), tfind_tput_same, List.getElem?_cons_zero]
    | succ i =>
      rw [List.getElem?_cons_succ, ← ih (i0 + 1) _ (Nat.lt_of_succ_lt_succ hi)]
      congr 1
      omega

/-! ### KEY_REMOVE -/

/-- Sealing slots of which whole numbers were removed, none of them named: what key removals leave. -/
def KeysCleared (x y : Die) : Prop :=
  y.ream = x.ream ∧ ∃ q : Nat → Bool, (∀ k, q k = false → x.slotNamed k = false) ∧ y.sealSlots = x.sealSlots.filter fun e => q e.1

theorem KeysCleared.refl (x : Die) : KeysCleared x x := ⟨rfl, fun _ => true, nofun, (List.filter_eq_self.mpr fun _ _ => rfl).symm⟩

theorem KeysCleared.trans {x y z : Die} (h : KeysCleared x y) (g : KeysCleared y z) : KeysCleared x z := by
  obtain ⟨ream, q, unnamed, slots⟩ := h
  obtain ⟨ream', q', unnamed', slots'⟩ := g
  refine ⟨ream'.trans ream, fun k => q' k && q k, fun k hk => ?_, by rw [slots', slots, List.filter_filter]⟩
  cases hq : q k with
  | false => exact unnamed k hq
  | true =>
    rw [← unnamed' k (by simpa [hq] using hk), Die.slotNamed, Die.slotNamed, ream]

theorem Die.clearKey_cleared (x : Die) (t : Nat) : KeysCleared x (x.clearKey t) := by
  unfold Die.clearKey
  split
  case h_1 k _ =>
    split
    · exact .refl x
    · exact ⟨rfl, fun j => j != k, fun j hj => by simp_all, rfl⟩
  case h_2 => exact .refl x

theorem KeysCleared.slotNamed {x y : Die} (h : KeysCleared x y) (k : Nat) : y.slotNamed k = x.slotNamed k := by
  rw [Die.slotNamed, h.1, Die.slotNamed]

theorem thas_filter_keys {α : Type} (t : Tbl α) (q : Nat → Bool) (k : Nat) : thas (t.filter fun e => q e.1) k = (q k && thas t k) := by
  induction t with
  | nil => simp [thas]
  | cons e r ih =>
    obtain ⟨j, v⟩ := e
    unfold thas at ih ⊢
    rw [List.filter_cons]
    by_cases hj : j = k
    · subst hj
      cases hq : q j <;> simp_all [tfind]
    · cases hq : q j <;> simp_all [tfind]

/-- A slot that is still loaded is the one that it was its tenant's. -/
theorem KeysCleared.tenantSlot {x y : Die} (h : KeysCleared x y) {t k : Nat} (hk : x.tenantSlot t = some k)
    (left : y.slotLoaded k = true) : y.tenantSlot t = some k := by
  obtain ⟨-, q, -, slots⟩ := h
  rw [Die.slotLoaded, slots, thas_filter_keys, Bool.and_eq_true] at left
  unfold Die.tenantSlot at hk ⊢
  obtain ⟨e, he, rfl⟩ := Option.map_eq_some_iff.mp hk
  rw [slots, List.find?_filter]
  obtain ⟨hp, l1, l2, hl, before⟩ := List.find?_eq_some_iff_append.mp he
  refine Option.map_eq_some_iff.mpr ⟨e, List.find?_eq_some_iff_append.mpr ⟨?_, l1, l2, hl, fun a ha => ?_⟩, rfl⟩
  · simpa [left.1] using hp
  · have := before a ha
    simp_all

/-- The tenant's slot is loaded before a removal. -/
theorem Die.slotLoaded_of_tenantSlot {x : Die} {t k : Nat} (h : x.tenantSlot t = some k) : x.slotLoaded k = true := by
  obtain ⟨e, he, rfl⟩ := Option.map_eq_some_iff.mp h
  obtain ⟨v, hv⟩ : ∃ v, tfind x.sealSlots e.1 = some v := by
    have mem := List.mem_of_find?_eq_some he
    generalize x.sealSlots = l at mem
    induction l with
    | nil => cases mem
    | cons a r ih =>
      by_cases ha : a.1 = e.1
      · exact ⟨a.2, by simp [tfind, ha]⟩
      · obtain rfl | mem := List.mem_cons.mp mem
        · exact absurd rfl ha
        · obtain ⟨v, hv⟩ := ih mem
          exact ⟨v, by simp [tfind, ha, hv]⟩
  rw [Die.slotLoaded, thas, hv]
  rfl

/-- Removals that clear no named slot leave it loaded. -/
theorem KeysCleared.keeps_named {x y : Die} (h : KeysCleared x y) {k : Nat} (named : x.slotNamed k = true)
    (loaded : x.slotLoaded k = true) : y.slotLoaded k = true := by
  obtain ⟨-, q, unnamed, slots⟩ := h
  rw [Die.slotLoaded, slots, thas_filter_keys, Bool.and_eq_true]
  refine ⟨?_, loaded⟩
  cases hq : q k with
  | true => rfl
  | false => exact absurd (unnamed k hq) (by simp [named])

/-- After other removals, a tenant's slot is cleared by its own, unless an entry names it. -/
theorem KeysCleared.clearKey {x y : Die} (h : KeysCleared x y) {t k : Nat} (hk : x.tenantSlot t = some k) :
    (y.clearKey t).slotLoaded k = x.slotNamed k := by
  have all := h.trans (y.clearKey_cleared t)
  cases named : x.slotNamed k with
  | true => exact all.keeps_named named (Die.slotLoaded_of_tenantSlot hk)
  | false =>
    cases left : y.slotLoaded k with
    | true => simp [Die.clearKey, h.tenantSlot hk left, h.slotNamed, named, Die.slotLoaded]
    | false =>
      obtain ⟨-, q, -, slots⟩ := y.clearKey_cleared t
      rw [Die.slotLoaded, slots, thas_filter_keys, ← Die.slotLoaded, left, Bool.and_false]

theorem State.settleKey_die (s : State) (k : Pkt × Nat × List Nat) (d : Nat) : (s.settleKey k).die d = (s.clearKeys k).die d := by
  obtain h | h | ⟨l, h⟩ := s.settleKey_cases k <;> rw [h]
  · exact OnlyReplies.die (State.onlyReplies_ok ..) d
  · rfl

theorem State.clearKeys_cleared (s : State) (k : Pkt × Nat × List Nat) (d : Nat) : KeysCleared (s.die d) ((s.clearKeys k).die d) :=
  List.foldlRecOn (motive := fun t : State => KeysCleared (s.die d) (t.die d)) _ _ (.refl _) fun t ht e _ => by
    by_cases he : d = e
    · subst he
      rw [State.die_modDie_same]
      exact ht.trans (Die.clearKey_cleared ..)
    · rwa [State.die_modDie_other _ _ he]

/-- A new removal is looked at last, after those that waited. -/
theorem State.settleKeys_append (s : State) (k : Pkt × Nat × List Nat) :
    ∃ u : State, (∀ d, KeysCleared (s.die d) (u.die d)) ∧ ({ s with keyWaits := s.keyWaits ++ [k] }).settleKeys = u.settleKey k := by
  refine ⟨s.keyWaits.foldl (fun s k => s.settleKey k) { s with keyWaits := [] }, fun d => ?_, by simp [State.settleKeys]⟩
  refine List.foldlRecOn (motive := fun t : State => KeysCleared (s.die d) (t.die d)) _ _ (.refl _) fun t ht e _ => ?_
  rw [State.settleKey_die]
  exact ht.trans (t.clearKeys_cleared e d)

/-- Settles O17: a sealing key is written die by die (`State.loadSealing_die`), a removal by `KeysCleared.clearKey` after the others. -/
theorem keyCommands : Obligations.KeyCommands := by
  refine ⟨fun s p tenant m w hq hdue hperm ht htenant hm => ?sealing, fun s p n w k hq hdue hperm hn fresh hk => ?image,
    fun s p l hq hdue hperm hprov fresh hlo hhi usage => ?identity, fun s p tenant m hdue hperm ht hm => ?remove⟩
  case sealing =>
    have usable : s.namesAbsent m = false := State.namesAbsent_eq_false fun d hd => (hm d hd).1
    have free : ((maskDies m).any fun d => s.hasKey d tenant) = false := List.any_eq_false.mpr fun d hd => by simp [(hm d hd).2]
    refine ⟨fun hk => ?_, fun k hk => ?_⟩
    · refine ⟨s.refuse 0x0E10 p .authFail 0, ?_, State.onlyReplies_refuse .., hq.refuse ..⟩
      simp only [exec, execKeyLoadSealingKey, hk]
      simpa [firstOf, badAt, refuseIf, ht, htenant, usable, free] using opcode_refuse hdue hperm
    · refine ⟨s.loadSealing p tenant m (keyAt k 0, keyAt k 32), ?_, State.loadSealing_replies hq .., fun d hd => ?_, ?_⟩
      · simp only [exec, execKeyLoadSealingKey, hk]
        exact opcode_next hdue hperm (by simp [firstOf, badAt, refuseIf, ht, htenant, usable, free])
      · rw [(s.loadSealing_die ..).1 d hd]
        exact ⟨tfind_tput_same .., fun j hj => tfind_tput_other _ _ hj⟩
      · exact (s.loadSealing_die ..).2
  case image =>
    refine ⟨(s.modPsi fun y => { y with imageKeys := tput y.imageKeys n (keyAt k 0) }).ok 0x0E10 p, ?_, hq.ok_of (by rfl) _, by simp, ?_⟩
    · simp only [exec, execKeyLoadImageKey, hk]
      exact opcode_next hdue hperm (by simp [firstOf, badAt, refuseIf, hn, thas, fresh])
    · rw [(State.onlyReplies_ok ..).psi]
      exact ⟨tfind_tput_same .., fun j hj => tfind_tput_other _ _ hj, rfl, rfl, rfl⟩
  case identity =>
    refine ⟨_, opcode_next hdue hperm ?_, hq.ok_of (by rfl) _, by simp, ?_⟩
    · have old : (s.psi.signing.any fun e => decide (2 ≤ e.1)) = false := List.any_eq_false.mpr fun e he => by
        simpa using fresh e he
      have used : (l.any fun e => e.usage != 1 && e.usage != 2) = false := List.any_eq_false.mpr fun e he => by
        obtain h | h := usage e he <;> simp [h]
      simp [firstOf, badAll, hprov, old, used, hlo, hhi]
    · rw [(State.onlyReplies_ok ..).psi]
      refine ⟨fun i hi => ?_, fun j hj => tfind_foldl_identity _ _ hj⟩
      simpa using tfind_identity l 0 s.psi.signing hi
  case remove =>
    have usable : s.namesAbsent m = false := State.namesAbsent_eq_false fun d hd => (hm d hd).1
    have held : ((maskDies m).any fun d => !(s.hasKey d tenant)) = false := List.any_eq_false.mpr fun d hd => by simp [(hm d hd).2]
    refine ⟨_, opcode_next hdue hperm (by simp [firstOf, badAt, ht, usable, held]), fun d hd k hk => ?_⟩
    obtain ⟨u, others, eq⟩ := s.settleKeys_append (p, tenant, maskDies m)
    obtain ⟨own, -⟩ := State.foldl_own (f := fun s d => s.modDie d fun x => x.clearKey tenant)
      (fun s d => OtherDies.modDie s d _) (maskDies_nodup m) u
    obtain ⟨v, hv, he⟩ := own d hd
    rw [eq, State.settleKey_die, State.clearKeys, he, State.die_modDie_same, hv]
    exact (others d).clearKey hk

end Sys2Proof.Machine

namespace Sys2Proof.Machine

/-! ## Firmware update and debug unlock (R421, R425, R433, R434) -/

theorem State.fwDirAt_length (s : State) (a : Nat) : (s.fwDirAt a).length = 64 := by
  have length : ∀ n a, (mreadN s.psi.flash a n).length = n := fun n => by
    induction n with
    | zero => intro a; rfl
    | succ n ih => intro a; rw [mreadN, List.length_cons, ih]
  exact length 64 a

/-- A directory copy that follows another is as long as it. -/
theorem fwDirNext_length {l : List Byte} (h : l.length = 64) : (fwDirNext l).length = 64 := by
  simp [fwDirNext, le_length, zeros, h]

theorem exec_debugUnlockNonce {s : State} {p : Pkt} (hdue : s.due 0x0E13 p = true) (hperm : s.permitted .m p = true) :
    exec (.debugUnlockNonce p) s = .next ((s.freeNat.2.modDebug fun g => { g with nonce := some (BitVec.ofNat 128 s.freeNat.1) }).finish
      0x0E13 p .ok 0 (le 16 (BitVec.ofNat 128 s.freeNat.1).toNat) []) :=
  opcode_next hdue hperm rfl

/-- Settles O18: each action writes Psiurn and replies; a write of flash is read back by `mreadN_mwriteN`. -/
theorem firmwareAndDebugCommands : Obligations.FirmwareAndDebugCommands := by
  refine ⟨⟨fun s p off a data hq hdue hperm ha fits => ?write, fun s p chk d a hq hdue hperm hd ha ok => ?activate,
    fun s p v hq hdue hperm up top ran => ?fwMin, fun s p v hq hdue hperm up top => ?cfgMin⟩,
    fun s p hq hdue hperm => ⟨?nonce, fun k ok => ?token, fun k st bad => ?failed, ?lock⟩⟩
  case write =>
    refine ⟨_, opcode_next hdue hperm (by simpa [firstOf, badAll, badAt, ha] using fits), hq.ok_of (by rfl) _, by simp, ?_⟩
    rw [(State.onlyReplies_ok ..).psi]
    simp only [State.modPsi, ha]
    exact ⟨mreadN_mwriteN .., fun b hb => mread_mwriteN_outside _ _ _ _ hb⟩
  case activate =>
    refine ⟨(s.modPsi fun y => { y with flash := mwriteN y.flash (0x8000 - d) (fwDirNext (s.fwDirAt d)) }).finish 0x0E12 p .ok 0
      (le 48 (imgDigest (mreadN s.psi.flash a 2048)).toNat) [], ?_, hq.finish_of (by rfl) .., ?_⟩
    · simp only [exec, execFwUpdateActivate, hd, ha, ok]
      exact opcode_next hdue hperm rfl
    · rw [(State.onlyReplies_finish ..).psi]
      have back := mreadN_mwriteN (fwDirNext (s.fwDirAt d)) s.psi.flash (0x8000 - d)
      have outside := mread_mwriteN_outside (fwDirNext (s.fwDirAt d)) s.psi.flash (0x8000 - d)
      rw [fwDirNext_length (s.fwDirAt_length d)] at back outside
      exact ⟨back, outside⟩
  case fwMin =>
    refine ⟨_, opcode_next hdue hperm (by simp [firstOf, badAt, up, top, ran]), hq.ok_of (by rfl) _, ?_⟩
    rw [(State.onlyReplies_ok ..).psi]
    exact ⟨rfl, rfl, rfl, rfl⟩
  case cfgMin =>
    refine ⟨_, opcode_next hdue hperm (by simp [firstOf, badAt, up, top]), hq.ok_of (by rfl) _, ?_⟩
    rw [(State.onlyReplies_ok ..).psi]
    exact ⟨rfl, rfl, rfl, rfl⟩
  case nonce =>
    refine ⟨_, exec_debugUnlockNonce hdue hperm, by simp [State.modDebug, State.freeNat], ?_⟩
    rw [(State.onlyReplies_finish ..).psi]
    exact ⟨rfl, _, rfl, hq.finish_of (by rfl) ..⟩
  case token =>
    refine ⟨_, opcode_next hdue hperm rfl, ?_⟩
    simp only [State.present, ok]
    refine ⟨hq.ok_of (by rfl) _, ?_⟩
    rw [(State.onlyReplies_ok ..).psi]
    rfl
  case failed =>
    refine ⟨_, opcode_next hdue hperm rfl, ?_⟩
    simp only [State.present, bad]
    refine ⟨?_, ?_⟩
    · exact (s.modDebug fun g =>
        { g with nonce := none, failed := if 8 ≤ g.failed then g.failed else g.failed + 1 }).finish_held 0x0E13 p st 0 [] [] hq.ring
        hq.opened hq.started (by simp [hq.loud])
    · rw [(State.onlyReplies_refuse ..).psi]
      exact ⟨rfl, rfl, rfl, fun few => if_neg (Nat.not_le.mpr few)⟩
  case lock =>
    refine ⟨_, opcode_next hdue hperm rfl, hq.ok_of (by rfl) _, ?_⟩
    rw [(State.onlyReplies_ok ..).psi]
    exact ⟨rfl, rfl⟩

/-! ## SPDM, PKG_STATUS and the mailbox (R431, R435) -/

theorem State.pkgStatusBytes_length (s : State) : s.pkgStatusBytes.length = 6 := by
  simp [State.pkgStatusBytes, le_length]

/-- A reply to the mailbox stands in the mailbox, and moves neither its counter nor anything but the sideband. -/
theorem State.addReplies_mbox (s : State) (l : List Reply) :
    s.addReplies mboxQueue l = s.modSide fun b => { b with reply := some (l.flatMap fun r => r.bytes b.seq) } := by
  rw [State.addReplies, if_pos rfl]
  rfl

/-- MBOX_GO on a packet that can be framed: it is refused by its number, or takes the number and is refused, or goes on to run. -/
theorem doMboxGo_framed {s : State} {h l : List Byte} (hh : h = mreadN s.psi.sideband.mbox 0 64)
    (hl : l = mreadN s.psi.sideband.mbox 0 (64 * needUnits h)) (framed : frameBad h = false) (fits : 64 * needUnits h ≤ 8192) :
    doMboxGo s =
      let s1 := s.modSide fun b => { b with reply := none, pkt := none }
      if (parsePacket l).seq ≠ s.psi.sideband.seq then
        s1.addReplies mboxQueue [(parsePacket l).refusal .badParam s.psi.sideband.seq.toNat true]
      else
        let s2 := s1.modSide fun b => { b with seq := b.seq + 1 }
        match mboxBad l (parsePacket l) with
        | some (st, det) => s2.addReplies mboxQueue [(parsePacket l).refusal st det false]
        | none => s2.modSide fun b => { b with pkt := some (parsePacket l) } := by
  subst hl hh
  unfold doMboxGo
  exact (if_neg (by simp [framed, fits])).trans rfl

/-- Settles O19: each of the sideband's commands writes the sideband's part of Psiurn only. -/
theorem sidebandCommands : Obligations.SidebandCommands := by
  refine ⟨fun s r hrun hup => ?spdm, fun s hon => ?status, fun s off data hon hlen hfit => ?write, fun s h l hon hh hl framed fits => ?go,
    fun s off len hon hlen => ?read⟩
  case spdm =>
    refine ⟨_, event_next rfl (by rw [hrun, hup]; rfl), rfl, rfl, ?_, ?_, ?_, ?_, ?_⟩
    · rintro rfl; rfl
    · rintro h rfl; rfl
    · rintro i h rfl; rfl
    · rintro i h rfl; rfl
    · rintro rfl
      simp only [State.modPsi, State.spdmNext, and_self, if_true]
      cases s.psi.spdm.signed <;> rfl
  case status => exact ⟨_, event_next rfl hon, rfl, s.pkgStatusBytes_length⟩
  case write =>
    refine ⟨_, event_next (decide_eq_true hlen) hon, ?_⟩
    rw [List.take_of_length_le (by omega)]
    exact ⟨mreadN_mwriteN .., fun a ha => mread_mwriteN_outside _ _ _ _ ha, rfl, rfl, rfl⟩
  case go =>
    refine ⟨_, event_next rfl hon, ?_⟩
    rw [doMboxGo_framed hh hl framed fits]
    by_cases same : (parsePacket l).seq = s.psi.sideband.seq
    · cases bad : mboxBad l (parsePacket l) with
      | some e => simp [same, State.addReplies_mbox, State.modSide, State.modPsi]
      | none => simp [same, State.modSide, State.modPsi]
    · simp [same, State.addReplies_mbox, State.modSide, State.modPsi]
  case read =>
    refine ⟨_, event_next (decide_eq_true hlen) hon, ?_, rfl, fun i hi => ?_⟩
    · simp only [State.sideReply, State.modPsi, List.length_take, List.length_drop, List.length_append, zeros, List.length_replicate]
      omega
    · simp only [State.sideReply, State.modPsi, List.getD_eq_getElem?_getD, List.getElem?_take, hi, if_true, List.getElem?_drop]
      by_cases inside : off + i < s.psi.sideband.replyBytes.length
      · rw [List.getElem?_append_left inside]
      · rw [List.getElem?_append_right (by omega), List.getElem?_eq_none (l := s.psi.sideband.replyBytes) (by omega), zeros,
          List.getElem?_replicate]
        split <;> rfl

end Sys2Proof.Machine

namespace Sys2Proof.Machine

/-! ## Energy limits, allowances and readings (R390, R393, R397) -/

/-- Each die that an ENERGY_ALLOW names has the new allowance of the tenant, and nothing else is written. -/
theorem doEnergyAllow_die (p : Pkt) (tenant : Nat) (dies : BitVec 8) (window nj : Nat) (s : State) :
    (∀ d ∈ maskDies dies, (doEnergyAllow p tenant dies window nj s).die d =
      (s.die d).modAcct tenant fun a => { a with next := some (allowOf nj, window) }) ∧
    ∀ d, d ∉ maskDies dies → (doEnergyAllow p tenant dies window nj s).die d = s.die d := by
  obtain ⟨own, rest⟩ := State.foldl_own (f := fun s d => s.modDie d fun x => x.modAcct tenant fun a =>
    { a with next := some (allowOf nj, window) }) (fun s d => OtherDies.modDie s d _) (maskDies_nodup dies) s
  refine ⟨fun d hd => ?_, fun d hd => ?_⟩ <;> unfold doEnergyAllow <;> rw [State.ok_die]
  · obtain ⟨u, hu, he⟩ := own d hd
    rw [he, State.die_modDie_same, hu]
  · exact rest d hd

@[simp] theorem Die.acct_modAcct_same (x : Die) (t : Nat) (f : Acct → Acct) : (x.modAcct t f).acct t = f (x.acct t) := by
  simp [Die.acct, Die.modAcct, Die.modLed]

theorem Die.acct_modAcct_other (x : Die) {t u : Nat} (f : Acct → Acct) (h : u ≠ t) : (x.modAcct t f).acct u = x.acct u := by
  simp [Die.acct, Die.modAcct, Die.modLed, tget_tmod_other _ _ _ _ h]

/-! ## Telemetry reads (R106, R229, R323, R324) -/

/-- A read takes out the wrap bits of the counters below `n` of a unit. -/
theorem tget_foldl_tdel (key : Nat → Nat) (n : Nat) (t : Tbl Bool) {i : Nat} (hi : i < n) :
    tget ((List.range n).foldl (fun t i => tdel t (key i)) t) (key i) false = false := by
  induction n with
  | zero => cases hi
  | succ n ih =>
    rw [List.range_succ, List.foldl_append, List.foldl_cons, List.foldl_nil, tget_tdel]
    split
    · rfl
    · next h => exact ih (by rcases Nat.lt_succ_iff_lt_or_eq.mp hi with h' | rfl; exacts [h', absurd rfl h])

theorem Ream.bytes_length (e : Ream) : e.bytes.length = 16 := by simp [Ream.bytes, le_length]

theorem State.readEntry_facts (s : State) (d h : Nat) :
    (s.readEntry d h).1.length = 16 ∧ (s.readEntry d h).2.dies = s.dies ∧ (s.readEntry d h).2.part = s.part ∧
      (s.readEntry d h).2.queues = s.queues ∧ (h ∉ (s.die d).reamBad → (s.readEntry d h).1 = ((s.die d).entry h).bytes) := by
  unfold State.readEntry
  split
  next bad => exact ⟨le_length .., rfl, rfl, rfl, fun good => absurd (by simpa using bad) good⟩
  · exact ⟨Ream.bytes_length _, rfl, rfl, rfl, fun _ => rfl⟩

/-- The entries that a read has gathered, the last one first, and the state that it leaves. -/
def State.gathered (s : State) (d first count : Nat) : List (List Byte) × State :=
  (List.range count).foldl (fun (q : List (List Byte) × State) (i : Nat) =>
    ((q.2.readEntry d (first + i)).1 :: q.1, (q.2.readEntry d (first + i)).2)) ([], s)

theorem State.readEntries_eq (s : State) (d first count : Nat) :
    s.readEntries d first count = ((s.gathered d first count).1.reverse.flatten, (s.gathered d first count).2) := rfl

theorem State.gathered_facts (s : State) (d first count : Nat) :
    (s.gathered d first count).2.dies = s.dies ∧ (s.gathered d first count).2.part = s.part ∧
      (s.gathered d first count).2.queues = s.queues ∧
      (s.gathered d first count).1.reverse.length = count ∧ (∀ l ∈ (s.gathered d first count).1.reverse, l.length = 16) ∧
      ∀ i < count, first + i ∉ (s.die d).reamBad →
        (s.gathered d first count).1.reverse[i]? = some ((s.die d).entry (first + i)).bytes := by
  induction count with
  | zero => exact ⟨rfl, rfl, rfl, rfl, nofun, nofun⟩
  | succ n ih =>
    obtain ⟨dies, part, queues, length, each, good⟩ := ih
    have next : s.gathered d first (n + 1) = ((((s.gathered d first n).2.readEntry d (first + n)).1 :: (s.gathered d first n).1),
        ((s.gathered d first n).2.readEntry d (first + n)).2) := by
      rw [State.gathered, List.range_succ, List.foldl_append, List.foldl_cons, List.foldl_nil, ← State.gathered]
    have same := State.die_congr dies part d
    obtain ⟨len16, dies', part', queues', bytes⟩ := (s.gathered d first n).2.readEntry_facts d (first + n)
    rw [same] at bytes
    simp only [next, List.reverse_cons]
    refine ⟨dies'.trans dies, part'.trans part, queues'.trans queues, by rw [List.length_append, length, List.length_singleton],
      fun l hl => ?_, fun i hi hb => ?_⟩
    · obtain hl | hl := List.mem_append.mp hl
      · exact each l hl
      · rw [List.mem_singleton.mp hl, len16]
    · obtain hi | rfl := Nat.lt_succ_iff_lt_or_eq.mp hi
      · rw [List.getElem?_append_left (by omega), good i hi hb]
      · rw [List.getElem?_append_right (by omega), length, Nat.sub_self, List.getElem?_cons_zero, bytes hb]

/-- Of pieces of 16 bytes put together, each stands at its place. -/
theorem flatten_sixteens (l : List (List Byte)) (h : ∀ e ∈ l, e.length = 16) :
    l.flatten.length = 16 * l.length ∧ ∀ i e, l[i]? = some e → (l.flatten.drop (16 * i)).take 16 = e := by
  induction l with
  | nil => exact ⟨rfl, nofun⟩
  | cons a r ih =>
    have ha := h a List.mem_cons_self
    obtain ⟨length, places⟩ := ih fun e he => h e (List.mem_cons_of_mem _ he)
    refine ⟨by simp only [List.flatten_cons, List.length_append, List.length_cons, length, ha]; omega, fun i e he => ?_⟩
    cases i with
    | zero =>
      cases he
      rw [List.flatten_cons, Nat.mul_zero, List.drop_zero, List.take_append_of_le_length (by omega), List.take_of_length_le (by omega)]
    | succ i =>
      rw [List.flatten_cons, List.drop_append, List.drop_eq_nil_of_le (by omega), List.nil_append,
        show 16 * (i + 1) - a.length = 16 * i by omega]
      exact places i e he

/-- The checks that the actions on one probe share. -/
theorem probeChecks_pass {s : State} {sel : ProbeSel} (hu : s.usable sel.die = true) (hr : (probeRouter sel.router).isSome = true)
    (hp : sel.probe < 2) : firstOf (probeChecks sel s) = none := by
  have named : (probeRouter sel.router).isNone = false := by simpa [Option.isNone_eq_false_iff] using hr
  simp [probeChecks, firstOf, badAt, hu, named, hp]

@[simp] theorem Die.probe_modProbe_same (x : Die) (k : Nat) (f : Probe → Probe) : (x.modProbe k f).probe k = f (x.probe k) := by
  simp [Die.probe, Die.modProbe]

theorem Die.probe_modProbe_other (x : Die) {k j : Nat} (f : Probe → Probe) (h : j ≠ k) : (x.modProbe k f).probe j = x.probe j := by
  simp [Die.probe, Die.modProbe, tget_tmod_other _ _ _ _ h]

/-- A probe's change, with its reply. -/
theorem probeAction {s : State} {p : Pkt} {i : Instr} {sel : ProbeSel} {f : Probe → Probe} (hq : OnQueue s p)
    (he : exec i s = .next ((s.modDie sel.die fun x => x.modProbe (selKey sel) f).ok 0x0704 p)) :
    Runs i s fun t => Replies s t 0x0704 p [] [] ∧
      (t.die sel.die).probe (selKey sel) = f ((s.die sel.die).probe (selKey sel)) ∧
      ∀ j, j ≠ selKey sel → (t.die sel.die).probe j = (s.die sel.die).probe j := by
  refine ⟨_, he, hq.ok_of (by rfl) _, ?_, fun j hj => ?_⟩ <;> rw [State.ok_die, State.die_modDie_same]
  · exact Die.probe_modProbe_same ..
  · exact Die.probe_modProbe_other _ _ hj

/-- Settles O12: each opcode writes one part of one die (`State.die_modDie_same`), and a read of entries none
(`State.gathered_facts`). -/
theorem energyAndTelemetry : Obligations.EnergyAndTelemetry := by
  refine ⟨⟨fun s p pMw rMw hdue hperm low top reserve => ?limit, fun s p tenant dies window nj hq hdue hperm ht hm lo hi => ?allow,
    fun s p d tenant hq hdue hperm hu ht own => ?read⟩, fun s p d kind unit hq hdue hperm hu hk hon => ?counters,
    fun s p d first count hq hdue hperm hu pos hi fits => ?ream, fun s p sel hq hdue hperm hu hr hp => ?probe,
    fun s p d hdue hperm hu => ?trace⟩
  case limit =>
    refine ⟨_, opcode_next hdue hperm (firstOf_eq_none.mpr ?_), rfl, rfl, rfl, rfl, rfl⟩
    simp only [badAt, List.forall_mem_cons, Bool.or_eq_false_iff, decide_eq_false_iff_not, Nat.not_lt]
    exact ⟨⟨low, top⟩, reserve, nofun⟩
  case allow =>
    have absent : s.maskAbsent dies = false := List.any_eq_false.mpr fun d hd => by simpa using hm d hd
    obtain ⟨named, rest⟩ := doEnergyAllow_die p tenant dies window nj s
    refine ⟨_, opcode_next hdue hperm (by simp [chkEnergyAllow, firstOf, badAt, ht, absent, lo, hi]),
      hq.ok_of (DiesOnly.foldl (fun _ _ => DiesOnly.modDie ..) _ s).queues _, fun d hd => ?_, rest⟩
    rw [named d hd]
    exact ⟨Die.acct_modAcct_same .., fun u hu => Die.acct_modAcct_other _ _ hu⟩
  case read =>
    have hd : d ≠ 0xFF := by
      have := s.dieCount_le
      simp only [State.usable, Bool.and_eq_true, decide_eq_true_eq] at hu
      omega
    refine ⟨_, opcode_next hdue hperm ?_, ?_⟩
    · simp only [chkEnergyRead, firstOf, badAt, refuseIf, hu, ht]
      obtain h | h := own <;> simp [h, hd]
    · simp only [doEnergyRead, hd, if_false, List.foldl_cons, List.foldl_nil]
      refine ⟨hq.finish_of (by rfl) .., fun e he => ?_, ?_⟩ <;> rw [OnlyReplies.die (State.onlyReplies_finish ..)]
      · exact State.die_modDie_other _ _ he
      · exact State.die_modDie_same ..
  case counters =>
    have die (e : Nat) : (doTelCounters p d kind unit s).die e = (s.modDie d fun x => x.clearWraps kind unit).die e :=
      OnlyReplies.die (State.onlyReplies_finish ..) e
    refine ⟨_, opcode_next hdue hperm (by simp [chkTelCounters, firstOf, badAt, hu, hk, hon]), fun e he => ?_,
      hq.finish_of (by rfl) .., ?_⟩
    · exact (die e).trans (State.die_modDie_other _ _ he)
    · rw [die, State.die_modDie_same]
      exact ⟨rfl, fun i hi => tget_foldl_tdel _ _ _ hi⟩
  case ream =>
    obtain ⟨dies, -, queues, length, each, good⟩ := s.gathered_facts d first count
    obtain ⟨total, places⟩ := flatten_sixteens _ each
    refine ⟨_, opcode_next hdue hperm (firstOf_eq_none.mpr ?_), ?_⟩
    · simp [badAt, hu]
      omega
    rw [doTelReam, State.readEntries_eq]
    exact ⟨(State.finish_dies ..).trans dies, _, hq.finish_of queues .., total.trans (by rw [length]),
      fun i hi hb => places i _ (good i hi hb)⟩
  case probe =>
    have pass := probeChecks_pass hu hr hp
    refine ⟨fun f idle => probeAction (i := .telProbeSetFilter p sel f) (f := fun q => { q with filter := f }) hq
        (opcode_next hdue hperm ?_),
      probeAction (i := .telProbeStart p sel) (f := fun q => { q with running := true }) hq (opcode_next hdue hperm pass),
      probeAction (i := .telProbeStop p sel) (f := fun q => { q with running := false }) hq (opcode_next hdue hperm pass),
      _, opcode_next hdue hperm pass, State.onlyReplies_finish .., hq.finish ..⟩
    rw [firstOf_eq_none] at pass ⊢
    simpa [badAt, idle, or_imp, forall_and] using pass
  case trace =>
    have pass : firstOf [badAt (!(s.usable d)) 1] = none := by simp [firstOf, badAt, hu]
    refine ⟨⟨_, opcode_next hdue hperm pass, fun e he => ?_, ?_⟩, _, opcode_next hdue hperm pass, fun e he => ?_, ?_⟩
    · exact (OnlyReplies.die (State.onlyReplies_finishMany ..) e).trans (State.die_modDie_other _ _ he)
    · exact (OnlyReplies.die (State.onlyReplies_finishMany ..) d).trans (State.die_modDie_same ..)
    · exact (State.ok_die ..).trans (State.die_modDie_other _ _ he)
    · exact (State.ok_die ..).trans (State.die_modDie_same ..)

end Sys2Proof.Machine

namespace Sys2Proof.Machine

/-! ## The steps of a ledger (R384, R391, R396, R456) -/

/-- The ledger `l'` differs from `l` in its limits, its steps and the windows and notes that choose them. -/
def StepsOnly (l l' : Ledger) : Prop :=
  l' = { l with
    runLen := l'.runLen, runNj := l'.runNj, runBudget := l'.runBudget, own := l'.own, low := l'.low, thermal := l'.thermal, hot := l'.hot, cool := l'.cool,
    backstopStep := l'.backstopStep, step := l'.step, scStepped := l'.scStepped, sMw := l'.sMw, rMw := l'.rMw, whyHost := l'.whyHost }

theorem StepsOnly.trans {a b c : Ledger} (h : StepsOnly a b) (k : StepsOnly b c) : StepsOnly a c := by
  unfold StepsOnly at *
  rw [k, h]

/-- The comparison of a period decides the run of periods only. -/
theorem Ledger.compare_facts (l : Ledger) (b : Bool) (n st rt : Nat) :
    StepsOnly l (l.compare b n st rt).1 ∧ (l.compare b n st rt).1.thermal = l.thermal ∧ (l.compare b n st rt).1.hot = l.hot := by
  unfold Ledger.compare
  dsimp only
  split <;> exact ⟨rfl, rfl, rfl⟩

theorem Ledger.calm_facts (l : Ledger) (b : Bool) (n : Nat) (down : Bool) :
    StepsOnly l (l.calm b n down) ∧ (l.calm b n down).thermal = l.thermal ∧ (l.calm b n down).hot = l.hot := by
  unfold Ledger.calm
  dsimp only
  split_ifs <;> exact ⟨rfl, rfl, rfl⟩

theorem Ledger.stepsOnly_heat (l : Ledger) (tMax : Int) : StepsOnly l (l.heat tMax) := by
  unfold Ledger.heat
  split_ifs <;> rfl

/-- The first of the hot periods steps the thermal step down. -/
theorem Ledger.heat_thermal {l : Ledger} {tMax : Int} (ht : tMax - 5 ≤ l.tempC) (hh : l.hot = 0) : (l.heat tMax).thermal = min 3 (l.thermal + 1) := by
  simp [Ledger.heat, ht, hh]

theorem Ledger.back_facts (l : Ledger) :
    StepsOnly l l.back ∧ l.back.thermal = l.thermal ∧ (l.backstopOn = true → l.back.backstopStep = 3) := by
  unfold Ledger.back
  split
  case isTrue => exact ⟨rfl, rfl, fun _ => rfl⟩
  case isFalse hoff =>
    split <;> exact ⟨rfl, rfl, fun hon => absurd hon hoff⟩

/-- The ledger's step is the slowest of its three after a period, whatever the new limits are. -/
theorem Ledger.stepsOnly_force_limit (l : Ledger) (b : Bool) (sMw rMw n : Nat) : StepsOnly l (l.force.limit b sMw rMw n) := rfl

/-- A period's ledger after its meters and charges: what steps it, and the limits it applies. -/
def Ledger.period (l : Ledger) (b : Bool) (tMax : Int) (n st rt sMw rMw : Nat) : Ledger :=
  ((((l.compare b n st rt).1.calm b n (l.compare b n st rt).2).heat tMax).back.force).limit b sMw rMw n

theorem Ledger.stepsOnly_period (l : Ledger) (b : Bool) (tMax : Int) (n st rt sMw rMw : Nat) : StepsOnly l (l.period b tMax n st rt sMw rMw) :=
  (l.compare_facts b n st rt).1.trans <| (Ledger.calm_facts ..).1.trans <| (Ledger.stepsOnly_heat ..).trans <|
    (Ledger.back_facts _).1.trans <| Ledger.stepsOnly_force_limit ..

theorem Ledger.period_thermal {l : Ledger} {b : Bool} {tMax : Int} {n st rt sMw rMw : Nat} (ht : tMax - 5 ≤ l.tempC) (hh : l.hot = 0) :
    (l.period b tMax n st rt sMw rMw).thermal = min 3 (l.thermal + 1) := by
  obtain ⟨only1, th1, hot1⟩ := l.compare_facts b n st rt
  obtain ⟨only2, th2, hot2⟩ := Ledger.calm_facts (l.compare b n st rt).1 b n (l.compare b n st rt).2
  have temp := congrArg Ledger.tempC (only1.trans only2)
  show (Ledger.back _).thermal = _
  rw [(Ledger.back_facts _).2.1, Ledger.heat_thermal (by rw [temp]; exact ht) (by rw [hot2, hot1, hh]), th2, th1]

theorem Ledger.period_backstop {l : Ledger} {b : Bool} {tMax : Int} {n st rt sMw rMw : Nat} (h : l.backstopOn = true) :
    (l.period b tMax n st rt sMw rMw).backstopStep = 3 := by
  have on := congrArg Ledger.backstopOn <| (l.compare_facts b n st rt).1.trans <|
    (Ledger.calm_facts (l.compare b n st rt).1 b n (l.compare b n st rt).2).1.trans <| Ledger.stepsOnly_heat _ tMax
  exact (Ledger.back_facts _).2.2 (by rw [on]; exact h)

/-! ## The charges of a period (R392 to R394) -/

/-- The die `y` differs from `x` in its accounts, correction factors and tallies. -/
def ChargesOnly (x y : Die) : Prop :=
  y = { x with led := { x.led with accts := y.led.accts, devAcct := y.led.devAcct, fcorr := y.led.fcorr }, tallies := y.tallies }

theorem ChargesOnly.trans {x y z : Die} (h : ChargesOnly x y) (k : ChargesOnly y z) : ChargesOnly x z := by
  unfold ChargesOnly at *
  rw [k, h]

theorem ChargesOnly.foldl {α : Type} {f : Die → α → Die} (h : ∀ x a, ChargesOnly x (f x a)) (l : List α) (x : Die) :
    ChargesOnly x (l.foldl f x) := by
  induction l generalizing x with
  | nil => rfl
  | cons a l ih => exact (h x a).trans (ih _)

theorem ChargesOnly.modAcct (x : Die) (t : Nat) (f : Acct → Acct) : ChargesOnly x (x.modAcct t f) := rfl

/-- The tallies of a period keep every account. -/
theorem Die.tally_facts (x : Die) (acts : List Activity) (dyn : Nat) :
    ChargesOnly x (x.tally acts dyn) ∧ ∀ u, (x.tally acts dyn).acct u = x.acct u := by
  unfold Die.tally
  dsimp only
  generalize (acts.filterMap (fun a => a.who.disp) ++ tkeys x.tallies).eraseDups = ids
  induction ids generalizing x with
  | nil => exact ⟨rfl, fun _ => rfl⟩
  | cons id ids ih =>
    rw [List.foldl_cons]
    split
    case h_1 => exact ⟨ChargesOnly.trans (by rfl) (ih _).1, (ih _).2⟩
    case h_2 => exact ⟨ChargesOnly.trans (by rfl) (ih _).1, (ih _).2⟩

/-- Accounts written one after another: each tenant of the list once, and no other. -/
theorem Die.acct_foldl_modAcct (f : Nat → Acct → Acct) {ts : List Nat} (hn : ts.Nodup) (x : Die) {u : Nat} (hu : u ∈ ts) :
    (ts.foldl (fun y t => y.modAcct t (f t)) x).acct u = f u (x.acct u) := by
  have outside : ∀ (ts : List Nat) (y : Die), u ∉ ts → (ts.foldl (fun y t => y.modAcct t (f t)) y).acct u = y.acct u := by
    intro ts
    induction ts with
    | nil => exact fun _ _ => rfl
    | cons t ts ih =>
      intro y h
      obtain ⟨hne, h⟩ := not_or.mp (mt List.mem_cons.mpr h)
      exact (ih _ h).trans (Die.acct_modAcct_other _ _ hne)
  induction ts generalizing x with
  | nil => cases hu
  | cons t ts ih =>
    obtain ⟨hne, hn⟩ := List.nodup_cons.mp hn
    rw [List.foldl_cons]
    obtain rfl | hu := List.mem_cons.mp hu
    · rw [outside _ _ hne, Die.acct_modAcct_same]
    · rw [ih hn _ hu, Die.acct_modAcct_other _ _ (ne_of_mem_of_not_mem hu hne)]

theorem Die.charge_facts (x : Die) (ts : List Nat) (n : Nat) (fab : List Nat) (st : Nat) (acts : List Activity) :
    ChargesOnly x (x.charge ts n fab st acts) ∧ (ts.Nodup → ∀ u ∈ ts,
      (x.charge ts n fab st acts).acct u = (x.acct u).charge (x.chargeOf fab acts (n - fab.sum - st) u)) := by
  unfold Die.charge
  dsimp only
  rw [List.foldl_map]
  exact ⟨(ChargesOnly.foldl (fun y t => ChargesOnly.modAcct y t fun a => a.charge (x.chargeOf fab acts (n - fab.sum - st) t)) ts x).trans rfl,
    fun hn u hu => Die.acct_foldl_modAcct (fun t a => a.charge (x.chargeOf fab acts (n - fab.sum - st) t)) hn x hu⟩

@[simp] theorem Acct.step_charged (a : Acct) : a.step.charged = a.charged := by
  unfold Acct.step
  split
  · rfl
  · split <;> rfl

/-! ## What a period keeps of the other dies -/

theorem State.settleLimit_die (s : State) (k : Pkt × List Nat) (e : Nat) : (s.settleLimit k).die e = s.die e := by
  unfold State.settleLimit
  dsimp only
  split
  · exact State.ok_die ..
  · rfl

theorem State.settleLimits_die (s : State) (d e : Nat) : (s.settleLimits d).die e = s.die e := by
  unfold State.settleLimits
  generalize s.limits.map (fun k => (k.1, k.2.filter (· != d))) = l
  have kept : ∀ (l : List (Pkt × List Nat)) (u : State), (l.foldl (fun s k => s.settleLimit k) u).die e = u.die e := by
    intro l
    induction l with
    | nil => exact fun _ => rfl
    | cons k l ih => exact fun u => (ih _).trans (u.settleLimit_die k e)
  exact kept l _

/-- The die after a counter's addition differs in its counters. -/
theorem Die.count_only (x : Die) (c : Ctr) (u n : Nat) :
    x.count c u n = { x with ctrs := (x.count c u n).ctrs, wraps := (x.count c u n).wraps } := by
  unfold Die.count Die.countAt
  dsimp only
  split <;> rfl

@[simp] theorem Die.count_led (x : Die) (c : Ctr) (u n : Nat) : (x.count c u n).led = x.led := by
  rw [Die.count_only]

/-- The die `y` differs from `x` in what a ledger period writes. -/
def PeriodOnly (x y : Die) : Prop :=
  y = { x with led := y.led, ctrs := y.ctrs, wraps := y.wraps, tallies := y.tallies, acts := y.acts }

theorem PeriodOnly.trans {x y z : Die} (h : PeriodOnly x y) (k : PeriodOnly y z) : PeriodOnly x z := by
  unfold PeriodOnly at *
  rw [k, h]

theorem ChargesOnly.period {x y : Die} (h : ChargesOnly x y) : PeriodOnly x y := by
  unfold ChargesOnly PeriodOnly at *
  rw [h]

theorem PeriodOnly.count (x : Die) (c : Ctr) (u n : Nat) : PeriodOnly x (x.count c u n) := by
  unfold PeriodOnly
  rw [Die.count_only]

/-- The charges of a period on a metered die, and the step of the tenants' windows. -/
def Die.settled (x : Die) (ts : List Nat) (b : Bool) (nj : Nat) (fab : List Nat) (acts : List Activity) : Die :=
  ts.foldl (fun x t => x.modAcct t fun a => a.step)
    { (x.charge ts nj fab (x.led.staticNj b) acts).tally acts (nj - fab.sum - x.led.staticNj b) with acts := [] }

theorem Die.settled_facts (x : Die) (ts : List Nat) (b : Bool) (nj : Nat) (fab : List Nat) (acts : List Activity) :
    ChargesOnly { x with acts := [] } (x.settled ts b nj fab acts) ∧ (ts.Nodup → ∀ u ∈ ts, ((x.settled ts b nj fab acts).acct u).charged =
      (x.acct u).charged + BitVec.ofNat 64 (x.chargeOf fab acts (nj - fab.sum - x.led.staticNj b) u)) := by
  obtain ⟨paid, acct⟩ := x.charge_facts ts nj fab (x.led.staticNj b) acts
  obtain ⟨only, same⟩ := (x.charge ts nj fab (x.led.staticNj b) acts).tally_facts acts (nj - fab.sum - x.led.staticNj b)
  have spent : ChargesOnly { x with acts := [] }
      { (x.charge ts nj fab (x.led.staticNj b) acts).tally acts (nj - fab.sum - x.led.staticNj b) with acts := [] } := by
    have := paid.trans only
    unfold ChargesOnly at this ⊢
    rw [this]
  refine ⟨spent.trans (ChargesOnly.foldl (fun y t => ChargesOnly.modAcct y t _) ts _), fun hn u hu => ?_⟩
  unfold Die.settled
  rw [Die.acct_foldl_modAcct (fun _ a => a.step) hn _ hu, Acct.step_charged]
  exact congrArg Acct.charged ((same u).trans (acct hn u hu))

/-- The die that a ledger period leaves. -/
def Die.afterPeriod (x : Die) (s : State) (nj : Nat) (fab : List Nat) (nclk : Nat) (temp : Int) (acts : List Activity) : Die :=
  let b := s.part.gradeB
  let x1 := x.modLed fun l => l.meter nj fab nclk temp
  let st := x1.led.staticNj b
  let y := x1.settled (tkeys s.tenants) b nj fab acts
  let rt := s.rtNj acts (nj - fab.sum - st)
  ((y.modLed fun l => l.period b s.part.tMax nj st rt (shareMw s.psi.pMw s.dieCount) s.psi.rMw).count lgStepDowns 0
    (b2n (y.led.compare b nj st rt).2)).count lgSteppedPeriods 0 (b2n (x.led.step != 0))

/-- A ledger period writes its die only. -/
theorem doLedgerPeriod_die (d nj : Nat) (fab : List Nat) (nclk : Nat) (temp : Int) (moved : Nat × Nat) (s : State) (e : Nat) :
    (doLedgerPeriod d nj fab nclk temp moved s).die e = (s.setDie d
      ((((s.die d).act 4 .device moved.1).act 5 .device moved.2).afterPeriod s nj fab nclk temp
        (((s.die d).act 4 .device moved.1).act 5 .device moved.2).acts)).die e := by
  unfold doLedgerPeriod
  dsimp only
  rw [State.settleLimits_die]
  split
  · rfl
  · rw [State.emit_die]
    rfl

theorem Die.afterPeriod_facts (x : Die) (s : State) (nj : Nat) (fab : List Nat) (nclk : Nat) (temp : Int) (acts : List Activity) :
    PeriodOnly x (x.afterPeriod s nj fab nclk temp acts) ∧ (x.afterPeriod s nj fab nclk temp acts).acts = [] := by
  have only := ((x.modLed fun l => l.meter nj fab nclk temp).settled_facts (tkeys s.tenants) s.part.gradeB nj fab acts).1
  have spent := congrArg Die.acts only
  refine ⟨?_, by simpa [Die.afterPeriod] using spent⟩
  refine PeriodOnly.trans (y := (x.modLed fun l => l.meter nj fab nclk temp).settled (tkeys s.tenants) s.part.gradeB nj fab acts)
    (PeriodOnly.trans (by rfl) only.period) ?_
  exact PeriodOnly.trans (PeriodOnly.trans (by rfl) (PeriodOnly.count ..)) (PeriodOnly.count ..)

end Sys2Proof.Machine
namespace Sys2Proof.Machine

/-- The ledger that a period leaves steps from the one that was metered and charged. -/
theorem Die.afterPeriod_led (x : Die) (s : State) (nj : Nat) (fab : List Nat) (nclk : Nat) (temp : Int) (acts : List Activity) :
    ∃ st rt, (x.afterPeriod s nj fab nclk temp acts).led =
      ((x.modLed fun l => l.meter nj fab nclk temp).settled (tkeys s.tenants) s.part.gradeB nj fab acts).led.period s.part.gradeB s.part.tMax
        nj st rt (shareMw s.psi.pMw s.dieCount) s.psi.rMw := by
  unfold Die.afterPeriod
  dsimp only
  rw [Die.count_led, Die.count_led]
  exact ⟨_, _, rfl⟩

/-- The refreshes' activity and the meters of a period change no account. -/
theorem Die.acct_metered (x : Die) (a b : Nat) (nj : Nat) (fab : List Nat) (nclk : Nat) (temp : Int) (u : Nat) :
    (((x.act 4 .device a).act 5 .device b).modLed fun l => l.meter nj fab nclk temp).acct u = x.acct u := by
  unfold Die.acct Die.act Die.modLed Ledger.meter
  rfl

theorem Die.chargeOf_modLed_act (x : Die) (a b : Nat) (f : Ledger → Ledger) (fab : List Nat) (acts : List Activity) (dyn u : Nat) :
    (((x.act 4 .device a).act 5 .device b).modLed f).chargeOf fab acts dyn u = (x.modLed f).chargeOf fab acts dyn u := by
  unfold Die.chargeOf Die.fabric Die.act Die.modLed
  rfl

theorem Die.led_modLed_act (x : Die) (a b : Nat) (f : Ledger → Ledger) :
    (((x.act 4 .device a).act 5 .device b).modLed f).led = (x.modLed f).led := rfl

theorem PeriodOnly.act (x : Die) (a b : Nat) : PeriodOnly x ((x.act 4 .device a).act 5 .device b) := rfl

theorem PeriodOnly.of_spent {x y : Die} (h : PeriodOnly x y) (hy : y.acts = []) :
    y = { x with led := y.led, ctrs := y.ctrs, wraps := y.wraps, tallies := y.tallies, acts := [] } := by
  unfold PeriodOnly at h
  rwa [hy] at h

theorem ledgerPeriod (s : State) (d nj nclk : Nat) (fab : List Nat) (temp : Int) (moved : Nat × Nat) (acts : List Activity) (x : Die)
    (hd : s.live d = true) (hf : fab.length ≤ 8) (hx : x = (s.die d).modLed (fun l => l.meter nj fab nclk temp))
    (ha : acts = (((s.die d).act 4 .device moved.1).act 5 .device moved.2).acts) :
    Runs (.ledgerPeriod d nj fab nclk temp moved) s fun t => OtherDies s t d ∧
      (t.die d).led.cycA = (s.die d).led.cycA + 4096 ∧ (t.die d).led.cycN = (s.die d).led.cycN + BitVec.ofNat 64 nclk ∧
      (t.die d).led.dieNj = (s.die d).led.dieNj + BitVec.ofNat 64 nj ∧ (t.die d).led.tempC = temp ∧
      (t.die d).led.sMw = shareMw s.psi.pMw s.dieCount ∧ (t.die d).led.rMw = s.psi.rMw ∧
      (t.die d).led.step = max (t.die d).led.own (max (t.die d).led.thermal (t.die d).led.backstopStep) ∧
      (s.part.tMax - 5 ≤ temp → (s.die d).led.hot = 0 → (t.die d).led.thermal = min 3 ((s.die d).led.thermal + 1)) ∧
      ((s.die d).led.backstopOn = true → (t.die d).led.backstopStep = 3) ∧
      (∀ u, u ∈ tkeys s.tenants → (tkeys s.tenants).Nodup → ((t.die d).acct u).charged = ((s.die d).acct u).charged +
        BitVec.ofNat 64 (x.chargeOf fab acts (nj - fab.sum - x.led.staticNj s.part.gradeB) u)) ∧
      t.die d = { s.die d with
        led := (t.die d).led, ctrs := (t.die d).ctrs, wraps := (t.die d).wraps, tallies := (t.die d).tallies, acts := [] } := by
  subst hx ha
  have hlt : d < s.dieCount := ((s.live_iff d).mp hd).2.1
  refine ⟨_, event_next (by simp [hlt]) (by simp [hd, hf]), fun e he => ?_, ?_⟩
  · rw [doLedgerPeriod_die, State.die_setDie_other _ _ he]
  set x0 := ((s.die d).act 4 .device moved.1).act 5 .device moved.2
  have led0 : x0.led = (s.die d).led := rfl
  have own : (doLedgerPeriod d nj fab nclk temp moved s).die d = x0.afterPeriod s nj fab nclk temp x0.acts := by
    rw [doLedgerPeriod_die, State.die_setDie_same]
  obtain ⟨st, rt, led⟩ := x0.afterPeriod_led s nj fab nclk temp x0.acts
  obtain ⟨only, spent⟩ := x0.afterPeriod_facts s nj fab nclk temp x0.acts
  obtain ⟨paid, charged⟩ := (x0.modLed fun l => l.meter nj fab nclk temp).settled_facts (tkeys s.tenants) s.part.gradeB nj fab x0.acts
  set y := (x0.modLed fun l => l.meter nj fab nclk temp).settled (tkeys s.tenants) s.part.gradeB nj fab x0.acts
  have metered := congrArg Die.led paid
  have steps := y.led.stepsOnly_period s.part.gradeB s.part.tMax nj st rt (shareMw s.psi.pMw s.dieCount) s.psi.rMw
  rw [← led] at steps
  rw [own]
  refine ⟨?_, ?_, ?_, ?_, ?_, ?_, ?_, ?_, ?_, ?_, ?_⟩
  · rw [steps, metered]; rfl
  · rw [steps, metered]; rfl
  · rw [steps, metered]; rfl
  · rw [steps, metered]; rfl
  · rw [led]; rfl
  · rw [led]; rfl
  · rw [led]; rfl
  · intro ht hh
    rw [led, Ledger.period_thermal (by rw [metered]; exact ht) (by rw [metered]; exact hh), metered]
    rfl
  · intro hon
    rw [led, Ledger.period_backstop (by rw [metered]; exact hon)]
  · intro u hu hn
    have acct : (x0.afterPeriod s nj fab nclk temp x0.acts).acct u = y.acct u := by
      unfold Die.acct
      rw [congrArg Ledger.accts steps]
    rw [acct, charged hn u hu, Die.acct_metered, Die.chargeOf_modLed_act, Die.led_modLed_act]
  · exact (PeriodOnly.trans (PeriodOnly.act ..) only).of_spent spent

/-! ## The backstop and calibration (R391, R392) -/

/-- Entries written for the numbers of a list: each of them holds its own. -/
theorem tget_foldl_tput {α : Type} (g : Nat → α) (z : α) (l : List Nat) (t : Tbl α) {d : Nat} (hd : d ∈ l) :
    tget (l.foldl (fun t e => tput t e (g e)) t) d z = g d := by
  induction l using List.reverseRecOn generalizing t with
  | nil => cases hd
  | append_singleton l e ih =>
    rw [List.foldl_append, List.foldl_cons, List.foldl_nil, tget_tput]
    split
    case isTrue h => rw [h]
    case isFalse h =>
      rcases List.mem_append.mp hd with hd | hd
      · exact ih t hd
      · exact absurd (List.mem_singleton.mp hd) h

/-- What the backstop orders of a die. -/
def Die.backstop (x : Die) (high : Bool) : Die :=
  ({ x with ledSeen := some x.led }.modLed fun l => { l with backstopOn := high, scBackstop := l.scBackstop || high }).count lgBackstops 0 (b2n high)

theorem State.usableDies_nodup (s : State) : s.usableDies.Nodup := List.nodup_range.filter _

theorem backstopWindow (s : State) (nj sum : Nat) (hr : s.running = true) (hs : sum = s.sumDies s.sinceWindow + nj) :
    Runs (.backstopWindow nj) s fun t => t.psi.windowNj = sum ∧ t.queues = s.queues ∧
      (∀ d, d ∈ s.usableDies → (t.die d).led.backstopOn = decide (105 * s.psi.pMw * 1000 < 100 * sum) ∧
        (t.die d).led.step = (s.die d).led.step ∧ tget t.psi.lastNj d 0 = (s.die d).led.dieNj.toNat) ∧
      (105 * s.psi.pMw * 1000 < 100 * sum → ∃ e, t.raised = s.raised ++ [e] ∧ e.code = 0x0040 ∧ e.arg0 = sum / 1000000) ∧
      (100 * sum ≤ 105 * s.psi.pMw * 1000 → t.raised = s.raised) := by
  subst hs
  refine ⟨_, event_next rfl hr, ?_⟩
  unfold doBackstopWindow
  dsimp only
  set sum := s.sumDies s.sinceWindow + nj
  set s1 : State := { s with psi := { s.psi with
    windowNj := sum, lastNj := s.usableDies.foldl (fun t d => tput t d (s.die d).led.dieNj.toNat) s.psi.lastNj } } with h1
  generalize hh : decide (105 * s.psi.pMw * 1000 < 100 * sum) = high
  obtain ⟨own, rest⟩ := State.foldl_own (f := fun s d => s.modDie d fun x => x.backstop high) (fun s d => OtherDies.modDie s d _)
    s1.usableDies_nodup s1
  have only : DiesOnly s1 (s1.usableDies.foldl (fun s d => s.modDie d fun x => x.backstop high) s1) :=
    DiesOnly.foldl (fun _ _ => DiesOnly.modDie ..) _ _
  set s2 := s1.usableDies.foldl (fun s d => s.modDie d fun x => x.backstop high) s1
  have die (d : Nat) (hd : d ∈ s.usableDies) : (s2.die d).led.backstopOn = high ∧ (s2.die d).led.step = (s.die d).led.step := by
    obtain ⟨u, hu, he⟩ := own d hd
    rw [he, State.die_modDie_same, hu]
    unfold Die.backstop
    rw [Die.count_led]
    exact ⟨rfl, rfl⟩
  have last (d : Nat) (hd : d ∈ s.usableDies) : tget s2.psi.lastNj d 0 = (s.die d).led.dieNj.toNat := by
    rw [only.psi]
    exact tget_foldl_tput (fun d => (s.die d).led.dieNj.toNat) 0 _ _ hd
  have window : s2.psi.windowNj = sum := by rw [only.psi]
  cases high with
  | false =>
    have low := of_decide_eq_false hh
    exact ⟨window, only.queues, fun d hd => ⟨(die d hd).1, (die d hd).2, last d hd⟩, fun h => absurd h low, fun _ => only.raised⟩
  | true =>
    have above := of_decide_eq_true hh
    rw [if_pos rfl, State.emit_psi]
    refine ⟨window, (State.emit_frame ..).2.2.1.trans only.queues, fun d hd => ?_, fun _ => ?_, fun h => absurd h (by omega)⟩
    · rw [State.emit_die]
      exact ⟨(die d hd).1, (die d hd).2, last d hd⟩
    · exact ⟨_, congrArg (· ++ _) only.raised, rfl, rfl⟩

theorem staticCalibration (s : State) (d mw : Nat) (temp : Int) (hd : s.live d = true) (hq : (s.die d).quiet = true) :
    Runs (.staticCalibration d mw temp) s fun t => OtherDies s t d ∧ t.queues = s.queues ∧
      (t.die d).led.calOf (s.die d).led.step = (mw, temp) ∧
      ∀ k, k ≠ (s.die d).led.step → (t.die d).led.calOf k = (s.die d).led.calOf k := by
  refine ⟨_, event_next (by simp [((s.live_iff d).mp hd).2.1]) (by simp [hd, hq]), OtherDies.modDie s d _, rfl, ?_, fun k hk => ?_⟩ <;>
    rw [State.die_modDie_same] <;> unfold Ledger.calOf Die.modLed <;> rw [tget_tput]
  · exact if_pos rfl
  · exact if_neg hk

/-- Settles O43: a ledger period, a window of the backstop, and a calibration. -/
theorem ledgerAndBackstop : Obligations.LedgerAndBackstop :=
  ⟨ledgerPeriod, backstopWindow, staticCalibration⟩

end Sys2Proof.Machine

namespace Sys2Proof.Machine

/-! ## The bits of a register (R404, R406) -/

theorem bitAt_eq_testBit (x i : Nat) : bitAt x i = x.testBit i := by
  rw [Nat.testBit_eq_decide_div_mod_eq]
  rfl

theorem bitAt_land (x y i : Nat) : bitAt (Nat.land x y) i = (bitAt x i && bitAt y i) := by
  simp only [bitAt_eq_testBit]
  exact Nat.testBit_and x y i

theorem b2n_le (b : Bool) : b2n b ≤ 1 := by cases b <;> decide

theorem bitAt_eq_of_div {x i : Nat} {b : Bool} (h : x / 2 ^ i % 2 = b2n b) : bitAt x i = b := by
  unfold bitAt
  rw [h]
  cases b <;> rfl

/-- A read-clear bit that reads 1 is cleared by the read of it, and one that reads 0 is 0. -/
theorem keep_eq_false {x m i : Nat} {b : Bool} (hm : bitAt m i = true) (h : x / 2 ^ i % 2 = b2n b) :
    (b && !(bitAt (Nat.land x m) i)) = false := by
  rw [bitAt_land, hm, bitAt_eq_of_div h]
  cases b <;> rfl

/-- A number without its bits from `lo` to below `hi`. -/
def without (x hi lo : Nat) : Nat := x / 2 ^ hi * 2 ^ hi + x % 2 ^ lo

theorem bitAt_without {hi lo : Nat} (h : lo ≤ hi) (x i : Nat) : bitAt (without x hi lo) i = (bitAt x i && !(bitAt (2 ^ hi - 2 ^ lo) i)) := by
  have hlt : x % 2 ^ lo < 2 ^ hi := (Nat.mod_lt _ (Nat.two_pow_pos _)).trans_le (Nat.pow_le_pow_right (by decide) h)
  have mask : 2 ^ hi - 2 ^ lo = 2 ^ lo * (2 ^ (hi - lo) - 1) := by
    rw [Nat.mul_sub, ← Nat.pow_add, Nat.add_sub_cancel' h, Nat.mul_one]
  simp only [bitAt_eq_testBit, without]
  rw [mask, Nat.mul_comm, Nat.testBit_two_pow_mul_add _ hlt, Nat.testBit_two_pow_mul, Nat.testBit_two_pow_sub_one, Nat.testBit_mod_two_pow,
    Nat.testBit_div_two_pow]
  by_cases h1 : i < lo
  · simp [h1, h1.trans_le h]
  · by_cases h2 : i < hi
    · simp [h1, h2]; omega
    · have hi : i - hi + hi = i := by omega
      simp [h2, hi]; omega

/-! ## The words with read-clear bits (Tables 9-5, 10-9, 11-14, 12-12, 13-4, 14-12, 15-5, 16-3) -/

theorem isQcb_below {d off : Nat} (h : off < 0x80000) : isQcb d off = false := by
  simp [isQcb]
  omega

/-- Offsets above the words that stand alone. -/
theorem not_single_word {off : Nat} (h : 0x4000 ≤ off) : off ≠ 0 ∧ off ≠ 4 ∧ off ≠ 8 ∧ off ≠ 0xC ∧ off ≠ 0x28 ∧ off ≠ 0x1008 ∧
    off ≠ 0x2000 ∧ off ≠ 0x2008 ∧ off ≠ 0x3004 ∧ off ≠ 0x3008 := by omega

section
variable (s : State) (d : Nat) {off : Nat}

theorem State.wordAt_qstat (hq : isQcb d off = true) (hm : off % 64 = 4) : s.wordAt d off = (s.queue ((off - 0x80000) / 64)).stat := by
  simp [State.wordAt, State.qcbRead, hq, hm]

theorem State.wordAt_rtpStat (hb : off / 4096 = 4) (ho : off % 4096 < 0x80) (hm : off % 4096 % 16 = 4) :
    s.wordAt d off = (s.die d).rtpStat (off % 4096 / 16) := by
  have h4 : off % 4 = 0 := by omega
  simp [State.wordAt, isQcb_below (d := d) (show off < 0x80000 by omega), hb, ho, hm, h4, not_single_word (show 0x4000 ≤ off by omega)]

theorem State.wordAt_feltStat (hb : off / 4096 = 5) (hl : 0x100 ≤ off % 4096) (ho : off % 4096 < 0x200) (hm : off % 4096 % 32 = 4) :
    s.wordAt d off = ((s.die d).felt ((off % 4096 - 0x100) / 32)).stat := by
  have h4 : off % 4 = 0 := by omega
  simp [State.wordAt, isQcb_below (d := d) (show off < 0x80000 by omega), hb, hl, ho, hm, h4, not_single_word (show 0x4000 ≤ off by omega)]

theorem State.wordAt_ringStat (hb : off / 4096 = 6) (ho : off % 4096 < 0x800) (hm : off % 4096 % 32 = 12) :
    s.wordAt d off = (s.die d).ringStat (off % 4096 / 32) := by
  have h4 : off % 4 = 0 := by omega
  simp [State.wordAt, isQcb_below (d := d) (show off < 0x80000 by omega), hb, ho, hm, h4, not_single_word (show 0x4000 ≤ off by omega)]

theorem State.wordAt_mcStat (hb : off / 4096 = 8) (ho : off % 4096 < 0xC00) (hm : off % 4096 % 64 = 0) :
    s.wordAt d off = (s.die d).mcStat (off % 4096 / 64) := by
  have h4 : off % 4 = 0 := by omega
  simp [State.wordAt, isQcb_below (d := d) (show off < 0x80000 by omega), hb, ho, hm, h4, not_single_word (show 0x4000 ≤ off by omega)]

theorem State.wordAt_cfgCtl (hb : off / 4096 = 15) (ho : cfgBlocks.contains (off % 4096 / 16) = true) (hm : off % 4096 % 16 = 0) :
    s.wordAt d off = ((s.die d).cfg (off % 4096 / 16)).ctl := by
  have h4 : off % 4 = 0 := by omega
  simp only [List.contains_eq_mem, decide_eq_true_eq] at ho
  simp [State.wordAt, isQcb_below (d := d) (show off < 0x80000 by omega), hb, ho, hm, h4, not_single_word (show 0x4000 ≤ off by omega)]

end

/-! ## What a read clears (R406) -/

theorem b2n_false : b2n false = 0 := rfl

theorem Queue.room_errs (x : Queue) (e f w : Bool) (n : Nat) : Queue.room { x with errDie := e, errFrame := f, errWin := w } n = x.room n := rfl

/-- QSTAT by its three read-clear bits. -/
theorem Queue.stat_eq (x : Queue) : ∃ z, z % 2048 < 4 ∧ ∀ e f w,
    Queue.stat { x with errDie := e, errFrame := f, errWin := w } = z + 256 * b2n w + 512 * b2n f + 1024 * b2n e := by
  refine ⟨Queue.stat { x with errDie := false, errFrame := false, errWin := false }, ?_, fun e f w => ?_⟩
  · simp only [Queue.stat, Queue.room_errs, b2n_false]
    cases x.st <;> dsimp only <;> omega
  · simp only [Queue.stat, Queue.room_errs, b2n_false]
    omega

theorem Queue.stat_cleared (x : Queue) : ∀ m, m = Nat.land x.stat 0x700 →
    Queue.stat { x with errDie := x.errDie && !(bitAt m 10), errFrame := x.errFrame && !(bitAt m 9), errWin := x.errWin && !(bitAt m 8) } =
      without x.stat 11 8 := by
  rintro _ rfl
  obtain ⟨z, hz, eq⟩ := x.stat_eq
  have stat : x.stat = _ := eq x.errDie x.errFrame x.errWin
  have w := b2n_le x.errWin
  have f := b2n_le x.errFrame
  have e := b2n_le x.errDie
  rw [keep_eq_false (x := x.stat) (m := 0x700) (i := 10) (by decide) (by omega), keep_eq_false (m := 0x700) (i := 9) (by decide) (by omega),
    keep_eq_false (m := 0x700) (i := 8) (by decide) (by omega), eq, without]
  simp only [b2n_false]
  omega


theorem Ledger.stat_cleared (l : Ledger) : ∀ m, m = Nat.land l.stat 0xF →
    Ledger.stat { l with
      scBackstop := l.scBackstop && !(bitAt m 3), scStepped := l.scStepped && !(bitAt m 2), scDeferred := l.scDeferred && !(bitAt m 1)
      scWrap := l.scWrap && !(bitAt m 0) } = without l.stat 4 0 := by
  rintro _ rfl
  have h3 := b2n_le l.scBackstop
  have h2 := b2n_le l.scStepped
  have h1 := b2n_le l.scDeferred
  have h0 := b2n_le l.scWrap
  have stat : l.stat = 8 * b2n l.scBackstop + 4 * b2n l.scStepped + 2 * b2n l.scDeferred + b2n l.scWrap := rfl
  rw [keep_eq_false (i := 3) (by decide) (by omega), keep_eq_false (i := 2) (by decide) (by omega), keep_eq_false (i := 1) (by decide) (by omega),
    keep_eq_false (i := 0) (by decide) (by omega), without, stat, Ledger.stat]
  simp only [b2n_false]
  omega

theorem Felt.stat_cleared (f : Felt) : ∀ m, m = Nat.land f.stat 0x300 →
    Felt.stat { f with departed := f.departed && !(bitAt m 9), arrived := f.arrived && !(bitAt m 8) } = without f.stat 10 8 := by
  rintro _ rfl
  have h9 := b2n_le f.departed
  have h8 := b2n_le f.arrived
  have code : f.st.code < 256 := by cases f.st <;> decide
  have stat : f.stat = f.pPkg * 2 ^ 20 + f.pLink * 2 ^ 14 + f.rate * 2 ^ 10 + 512 * b2n f.departed + 256 * b2n f.arrived + f.st.code := rfl
  rw [keep_eq_false (i := 9) (by decide) (by omega), keep_eq_false (i := 8) (by decide) (by omega), without, stat, Felt.stat]
  simp only [b2n_false]
  omega

theorem Cfg.ctl_cleared (c : Cfg) : ∀ m, m = Nat.land c.ctl 0xC →
    Cfg.ctl { c with restored := c.restored && !(bitAt m 3), crcErr := c.crcErr && !(bitAt m 2) } = without c.ctl 4 2 := by
  rintro _ rfl
  have h3 := b2n_le c.restored
  have h2 := b2n_le c.crcErr
  have h0 := b2n_le c.chkEn
  have ctl : c.ctl = 8 * b2n c.restored + 4 * b2n c.crcErr + b2n c.chkEn := rfl
  rw [keep_eq_false (i := 3) (by decide) (by omega), keep_eq_false (i := 2) (by decide) (by omega), without, ctl, Cfg.ctl]
  simp only [b2n_false]
  omega

/-- RINGn_STAT after an operation that keeps the ring's pointers. -/
theorem Die.ringStat_modRing (x : Die) (n : Nat) {f : Ring → Ring} (hw : (f (x.ring n)).wr = (x.ring n).wr)
    (hr : (f (x.ring n)).rd = (x.ring n).rd) : (x.modRing n f).ringStat n =
      16 * x.isPend (0x6000 + 32 * n) + 8 * b2n (f (x.ring n)).wrapWr + 4 * b2n (f (x.ring n)).wrapRd +
        2 * b2n (decide (x.ringLen n ≠ 0) && decide (x.ringHeld n = x.ringLen n - 1)) + b2n (decide (x.ringHeld n = 0)) := by
  have len : (x.modRing n f).ringLen n = x.ringLen n := rfl
  have held : (x.modRing n f).ringHeld n = x.ringHeld n := by simp only [Die.ringHeld, len, Die.ring_modRing_same, hw, hr]
  rw [Die.ringStat, held, len, Die.ring_modRing_same]
  rfl

theorem Die.ringStat_cleared (x : Die) (n : Nat) : ∀ m, m = Nat.land (x.ringStat n) 0xC →
    (x.modRing n fun r => { r with wrapWr := r.wrapWr && !(bitAt m 3), wrapRd := r.wrapRd && !(bitAt m 2) }).ringStat n =
      without (x.ringStat n) 4 2 := by
  rintro _ rfl
  have h3 := b2n_le (x.ring n).wrapWr
  have h2 := b2n_le (x.ring n).wrapRd
  have h1 := b2n_le (decide (x.ringLen n ≠ 0) && decide (x.ringHeld n = x.ringLen n - 1))
  have h0 := b2n_le (decide (x.ringHeld n = 0))
  have stat : x.ringStat n = 16 * x.isPend (0x6000 + 32 * n) + 8 * b2n (x.ring n).wrapWr + 4 * b2n (x.ring n).wrapRd +
    2 * b2n (decide (x.ringLen n ≠ 0) && decide (x.ringHeld n = x.ringLen n - 1)) + b2n (decide (x.ringHeld n = 0)) := rfl
  rw [Die.ringStat_modRing _ _ rfl rfl]
  dsimp only
  rw [keep_eq_false (i := 3) (by decide) (by omega), keep_eq_false (i := 2) (by decide) (by omega), without]
  simp only [b2n_false]
  omega

theorem Die.mcStat_cleared (x : Die) (n : Nat) : ∀ m, m = Nat.land (x.mcStat n) 0x380 →
    (x.modMC n fun c => { c with
      rfmHold := c.rfmHold && !(bitAt m 9), ueSeen := c.ueSeen && !(bitAt m 8), ceSeen := c.ceSeen && !(bitAt m 7) }).mcStat n =
      without (x.mcStat n) 10 7 := by
  rintro _ rfl
  have h9 := b2n_le (x.mc n).rfmHold
  have h8 := b2n_le (x.mc n).ueSeen
  have h7 := b2n_le (x.mc n).ceSeen
  have code (c : ChState) : c.code < 4 := by cases c <;> decide
  have ch1 : (if n < 32 then (x.mc n).ch1.code else 2) < 4 := by
    split
    · exact code _
    · decide
  have ch0 := code (x.mc n).ch0
  have stat : x.mcStat n = 2048 * b2n (x.portPanic (mcRegion n)) + 1024 * b2n (x.mc n).pause + 512 * b2n (x.mc n).rfmHold +
    256 * b2n (x.mc n).ueSeen + 128 * b2n (x.mc n).ceSeen + 4 * (if n < 32 then (x.mc n).ch1.code else 2) + (x.mc n).ch0.code := rfl
  have panic (f : MC → MC) : (x.modMC n f).portPanic = x.portPanic := rfl
  generalize hw : x.mcStat n = w at *
  simp only [Die.mcStat, Die.mc_modMC_same, panic]
  rw [keep_eq_false (i := 9) (by decide) (by omega), keep_eq_false (i := 8) (by decide) (by omega), keep_eq_false (i := 7) (by decide) (by omega),
    without]
  simp only [b2n_false]
  omega

theorem Die.rtpStat_cleared (x : Die) (r : Nat) : ∀ m, m = Nat.land (x.rtpStat r) 4 →
    (x.modRegion r fun g => { g with panicSeen := g.panicSeen && !(bitAt m 2) }).rtpStat r = without (x.rtpStat r) 3 2 := by
  rintro _ rfl
  have h2 := b2n_le (x.region r).panicSeen
  have h1 : x.isPend (0x4000 + 16 * r) ≤ 1 := b2n_le _
  have h0 := b2n_le (x.portPanic r)
  have pend (f : Region → Region) (n : Nat) : (x.modRegion r f).isPend n = x.isPend n := rfl
  have panic (f : Region → Region) : (x.modRegion r f).portPanic r = x.portPanic r := rfl
  have port (f : Region → Region) : (x.modRegion r f).fabric r = x.fabric r := rfl
  generalize hw : x.rtpStat r = w at *
  simp only [Die.rtpStat, List.range, List.range.loop, List.foldl, Die.region_modRegion_same, pend, panic, port] at hw ⊢
  rw [keep_eq_false (i := 2) (by decide) (by omega), without]
  simp only [b2n_false]
  omega

theorem Die.dnStat_cleared (x : Die) : ∀ m, m = Nat.land x.dnStat 7 →
    Die.dnStat { x with darner := { x.darner with
      selfFail := x.darner.selfFail && !(bitAt m 2), dblSeen := x.darner.dblSeen && !(bitAt m 1), sglSeen := x.darner.sglSeen && !(bitAt m 0) } } =
      without x.dnStat 3 0 := by
  rintro _ rfl
  have h2 := b2n_le x.darner.selfFail
  have h1 := b2n_le x.darner.dblSeen
  have h0 := b2n_le x.darner.sglSeen
  have stat : x.dnStat = (if x.scanning then regionMask x.configured else 0) * 2 ^ 24 + 16 * x.isPend 0x3000 + 8 * b2n x.darner.stopped +
    4 * b2n x.darner.selfFail + 2 * b2n x.darner.dblSeen + b2n x.darner.sglSeen := rfl
  have eq (a b c : Bool) : Die.dnStat { x with darner := { x.darner with selfFail := a, dblSeen := b, sglSeen := c } } =
    (if x.scanning then regionMask x.configured else 0) * 2 ^ 24 + 16 * x.isPend 0x3000 + 8 * b2n x.darner.stopped +
      4 * b2n a + 2 * b2n b + b2n c := rfl
  rw [eq, keep_eq_false (i := 2) (by decide) (by omega), keep_eq_false (i := 1) (by decide) (by omega),
    keep_eq_false (i := 0) (by decide) (by omega), without]
  simp only [b2n_false]
  omega

end Sys2Proof.Machine
namespace Sys2Proof.Machine

/-- What the read of RGNPWR_STAT leaves of a region. -/
def Region.seenCleared (m r : Nat) (g : Region) : Region :=
  { g with wakeSeen := g.wakeSeen && !(bitAt m (16 + r)), cancelSeen := g.cancelSeen && !(bitAt m (24 + r)) }

theorem Die.clearRc_region (x : Die) (m : Nat) {r : Nat} (hr : r < 8) : (x.clearRc 0x2008 m).region r = (x.region r).seenCleared m r := by
  have step (x : Die) (e : Nat) : ((if bitAt m (16 + e) || bitAt m (24 + e) then x.modRegion e fun g => g.seenCleared m e else x).region r) =
      if r = e then (x.region r).seenCleared m r else x.region r := by
    split_ifs with hm he he
    · subst he; exact Die.region_modRegion_same ..
    · exact Die.region_modRegion_other _ _ he
    · subst he
      simp only [Bool.or_eq_true, not_or, Bool.not_eq_true] at hm
      simp [Region.seenCleared, hm]
    · rfl
  have all (n : Nat) : ((List.range n).foldl (fun (x : Die) e =>
      if bitAt m (16 + e) || bitAt m (24 + e) then x.modRegion e fun g => g.seenCleared m e else x) x).region r =
      if r < n then (x.region r).seenCleared m r else x.region r := by
    induction n with
    | zero => rfl
    | succ n ih =>
      rw [List.range_succ, List.foldl_append, List.foldl_cons, List.foldl_nil, step, ih]
      split_ifs <;> first | rfl | omega
  exact (all 8).trans (if_pos hr)

/-- The sum of a figure over the regions below `n`. -/
def regionSum (f : Nat → Nat) : Nat → Nat
  | 0 => 0
  | n + 1 => regionSum f n + f n

theorem regionSum_congr {f g : Nat → Nat} {n : Nat} (h : ∀ r < n, f r = g r) : regionSum f n = regionSum g n := by
  induction n with
  | zero => rfl
  | succ n ih => rw [regionSum, regionSum, ih fun r hr => h r (by omega), h n (by omega)]

/-- RGNPWR_STAT by its three fields. -/
theorem Die.rgnStat_eq (x : Die) : x.rgnStat = 2 ^ 16 * (2 ^ 8 * regionSum (fun r => b2n (x.region r).cancelSeen * 2 ^ r) 8 +
    regionSum (fun r => b2n (x.region r).wakeSeen * 2 ^ r) 8) + regionSum (fun r => (x.region r).power.code * 4 ^ r) 8 := by
  have all (n : Nat) : (List.range n).foldl (fun n r =>
        n + (x.region r).power.code * 4 ^ r + b2n (x.region r).wakeSeen * 2 ^ (16 + r) + b2n (x.region r).cancelSeen * 2 ^ (24 + r)) 0 =
      2 ^ 16 * (2 ^ 8 * regionSum (fun r => b2n (x.region r).cancelSeen * 2 ^ r) n +
        regionSum (fun r => b2n (x.region r).wakeSeen * 2 ^ r) n) + regionSum (fun r => (x.region r).power.code * 4 ^ r) n := by
    induction n with
    | zero => rfl
    | succ n ih =>
      rw [List.range_succ, List.foldl_append, List.foldl_cons, List.foldl_nil, ih]
      simp only [regionSum]
      ring
  exact all 8

theorem regionSum_bits_lt (f : Nat → Bool) (n : Nat) : regionSum (fun r => b2n (f r) * 2 ^ r) n < 2 ^ n := by
  induction n with
  | zero => exact Nat.one_pos
  | succ n ih =>
    have := Nat.mul_le_mul_right (2 ^ n) (b2n_le (f n))
    simp only [regionSum, Nat.pow_succ]
    omega

theorem bitAt_regionSum (f : Nat → Bool) {n r : Nat} (hr : r < n) : bitAt (regionSum (fun r => b2n (f r) * 2 ^ r) n) r = f r := by
  induction n with
  | zero => cases hr
  | succ n ih =>
    rw [regionSum, Nat.add_comm, bitAt_eq_testBit, Nat.mul_comm, Nat.testBit_two_pow_mul_add _ (regionSum_bits_lt f n)]
    by_cases h : r < n
    · rw [if_pos h, ← bitAt_eq_testBit, ih h]
    · obtain rfl : r = n := by omega
      rw [if_neg h, Nat.sub_self]
      cases f r <;> rfl

theorem Die.rgnStat_cleared (x : Die) : ∀ m, m = Nat.land x.rgnStat 0xFFFF0000 → (x.clearRc 0x2008 m).rgnStat = without x.rgnStat 32 16 := by
  rintro _ rfl
  have codes : regionSum (fun r => (x.region r).power.code * 4 ^ r) 8 < 2 ^ 16 := by
    have code (p : PState) : p.code < 4 := by cases p <;> decide
    have c0 := code (x.region 0).power
    have c1 := code (x.region 1).power
    have c2 := code (x.region 2).power
    have c3 := code (x.region 3).power
    have c4 := code (x.region 4).power
    have c5 := code (x.region 5).power
    have c6 := code (x.region 6).power
    have c7 := code (x.region 7).power
    simp only [regionSum]
    omega
  have wakes := regionSum_bits_lt (fun r => (x.region r).wakeSeen) 8
  have cancels := regionSum_bits_lt (fun r => (x.region r).cancelSeen) 8
  have low (i : Nat) : bitAt x.rgnStat (16 + i) = bitAt (2 ^ 8 * regionSum (fun r => b2n (x.region r).cancelSeen * 2 ^ r) 8 +
      regionSum (fun r => b2n (x.region r).wakeSeen * 2 ^ r) 8) i := by
    rw [x.rgnStat_eq, bitAt_eq_testBit, Nat.testBit_two_pow_mul_add _ codes, if_neg (by omega), Nat.add_sub_cancel_left, bitAt_eq_testBit]
  have cleared (r : Nat) (hr : r < 8) : ((x.clearRc 0x2008 (Nat.land x.rgnStat 0xFFFF0000)).region r) =
      { x.region r with wakeSeen := false, cancelSeen := false } := by
    have wake : bitAt x.rgnStat (16 + r) = (x.region r).wakeSeen := by
      rw [low, bitAt_eq_testBit, Nat.testBit_two_pow_mul_add _ wakes, if_pos hr, ← bitAt_eq_testBit, bitAt_regionSum _ hr]
    have cancel : bitAt x.rgnStat (24 + r) = (x.region r).cancelSeen := by
      rw [show 24 + r = 16 + (8 + r) by omega, low, bitAt_eq_testBit, Nat.testBit_two_pow_mul_add _ wakes, if_neg (by omega),
        Nat.add_sub_cancel_left, ← bitAt_eq_testBit, bitAt_regionSum _ hr]
    have mask : bitAt 0xFFFF0000 (16 + r) = true ∧ bitAt 0xFFFF0000 (24 + r) = true := by
      interval_cases r <;> decide
    rw [Die.clearRc_region _ _ hr, Region.seenCleared, bitAt_land, bitAt_land, wake, cancel, mask.1, mask.2]
    simp
  have none (n : Nat) : regionSum (fun r => b2n false * 2 ^ r) n = 0 := by
    induction n with
    | zero => rfl
    | succ n ih => rw [regionSum, ih, b2n_false, Nat.zero_mul]
  have power : regionSum (fun r => ((x.clearRc 0x2008 (Nat.land x.rgnStat 0xFFFF0000)).region r).power.code * 4 ^ r) 8 =
      regionSum (fun r => (x.region r).power.code * 4 ^ r) 8 := regionSum_congr fun r hr => by rw [cleared r hr]
  rw [Die.rgnStat_eq, power, regionSum_congr fun r hr => by rw [cleared r hr], none 8, regionSum_congr fun r hr => by rw [cleared r hr],
    none 8, without, x.rgnStat_eq]
  omega


theorem State.die_clearRc (s : State) (d m : Nat) {off : Nat} (h : off < 0x80000) : (s.clearRc d off m).die d = (s.die d).clearRc off m := by
  rw [State.clearRc, isQcb_below h, if_neg Bool.false_ne_true, State.die_modDie_same]

/-- The read-clear bits of a word are some of its adjacent bits, and once cleared they all read 0. -/
theorem State.wordAt_clearRc (s : State) (d : Nat) {off : Nat} (hm : rcMask d off ≠ 0) : ∃ hi lo, lo ≤ hi ∧ rcMask d off = 2 ^ hi - 2 ^ lo ∧
    (s.clearRc d off (Nat.land (s.wordAt d off) (rcMask d off))).wordAt d off = without (s.wordAt d off) hi lo := by
  have fixed {o : Nat} (g : Die → Nat) (h : ∀ s : State, s.wordAt d o = g (s.die d)) {m hi lo : Nat} (ho : o < 0x80000)
      (hc : g ((s.die d).clearRc o (Nat.land (g (s.die d)) m)) = without (g (s.die d)) hi lo) :
      (s.clearRc d o (Nat.land (s.wordAt d o) m)).wordAt d o = without (s.wordAt d o) hi lo := by
    rw [h, h, State.die_clearRc _ _ _ ho, hc]
  generalize hr : rcMask d off = mask at *
  unfold rcMask at hr
  dsimp only at hr
  split_ifs at hr with hq hm2 h1 h2 h3 h4 h5 h6 h7 h8 <;> subst hr
  · refine ⟨11, 8, by decide, rfl, ?_⟩
    rw [State.wordAt_qstat _ _ hq hm2, State.wordAt_qstat _ _ hq hm2, State.clearRc, if_pos hq, State.queue_modQueue_same]
    exact Queue.stat_cleared _ _ rfl
  · exact absurd rfl hm
  · subst h1
    exact ⟨4, 0, by decide, rfl, fixed (fun x => x.led.stat) (fun s => by simp [State.wordAt, isQcb]) (by decide) (Ledger.stat_cleared _ _ rfl)⟩
  · subst h2
    exact ⟨32, 16, by decide, rfl, fixed Die.rgnStat (fun s => by simp [State.wordAt, isQcb]) (by decide) (Die.rgnStat_cleared _ _ rfl)⟩
  · subst h3
    exact ⟨3, 0, by decide, rfl, fixed Die.dnStat (fun s => by simp [State.wordAt, isQcb]) (by decide) (Die.dnStat_cleared _ _ rfl)⟩
  · obtain ⟨hb, ho, hm⟩ := h4
    refine ⟨3, 2, by decide, rfl, fixed (fun x => x.rtpStat (off % 4096 / 16)) (fun s => s.wordAt_rtpStat d hb ho hm) (by omega) ?_⟩
    simp only [Die.clearRc, hb, not_single_word (show 0x4000 ≤ off by omega), if_false, if_true, Nat.reduceEqDiff]
    exact Die.rtpStat_cleared _ _ _ rfl
  · obtain ⟨hb, hl, ho, hm⟩ := h5
    refine ⟨10, 8, by decide, rfl, fixed (fun x => (x.felt ((off % 4096 - 0x100) / 32)).stat) (fun s => s.wordAt_feltStat d hb hl ho hm) (by omega) ?_⟩
    simp only [Die.clearRc, hb, not_single_word (show 0x4000 ≤ off by omega), if_false, if_true, Nat.reduceEqDiff]
    rw [Die.felt_modFelt_same]
    exact Felt.stat_cleared _ _ rfl
  · obtain ⟨hb, ho, hm⟩ := h6
    refine ⟨4, 2, by decide, rfl, fixed (fun x => x.ringStat (off % 4096 / 32)) (fun s => s.wordAt_ringStat d hb ho hm) (by omega) ?_⟩
    simp only [Die.clearRc, hb, not_single_word (show 0x4000 ≤ off by omega), if_false, if_true, Nat.reduceEqDiff]
    exact Die.ringStat_cleared _ _ _ rfl
  · obtain ⟨hb, ho, hm⟩ := h7
    refine ⟨10, 7, by decide, rfl, fixed (fun x => x.mcStat (off % 4096 / 64)) (fun s => s.wordAt_mcStat d hb ho hm) (by omega) ?_⟩
    simp only [Die.clearRc, hb, not_single_word (show 0x4000 ≤ off by omega), if_false, if_true, Nat.reduceEqDiff]
    exact Die.mcStat_cleared _ _ _ rfl
  · obtain ⟨hb, ho, hm⟩ := h8
    refine ⟨4, 2, by decide, rfl, fixed (fun x => (x.cfg (off % 4096 / 16)).ctl) (fun s => s.wordAt_cfgCtl d hb ho hm) (by omega) ?_⟩
    simp only [Die.clearRc, hb, not_single_word (show 0x4000 ≤ off by omega), if_false, Nat.reduceEqDiff]
    rw [Die.cfg_modCfg_same]
    exact Cfg.ctl_cleared _ _ rfl
  · exact absurd rfl hm

theorem bitAt_zero (i : Nat) : bitAt 0 i = false := by simp [bitAt]

/-- A read that clears leaves the word without its read-clear bits. -/
theorem State.bitAt_wordAt_clearRc (s : State) (d : Nat) {off : Nat} (hm : rcMask d off ≠ 0) (i : Nat) :
    bitAt ((if Nat.land (s.wordAt d off) (rcMask d off) ≠ 0 then s.clearRc d off (Nat.land (s.wordAt d off) (rcMask d off)) else s).wordAt d off) i =
      (bitAt (s.wordAt d off) i && !(bitAt (rcMask d off) i)) := by
  split_ifs with h
  · obtain ⟨hi, lo, hle, mask, word⟩ := s.wordAt_clearRc d hm
    rw [word, bitAt_without hle, ← mask]
  · have none := bitAt_land (s.wordAt d off) (rcMask d off) i
    rw [not_not.mp h, bitAt_zero] at none
    cases hb : bitAt (s.wordAt d off) i <;> simp_all

/-! ## Reads (R402, R404, R406, R410) -/

theorem aliasOf_below {off : Nat} (h : off < 0x2000000) : aliasOf off = none := if_neg (by omega)

/-- A read of an aligned word of a die whose controller runs. -/
theorem State.readOff_word {s : State} {path : RegPath} {d off : Nat} (hd : s.live d = true) (h4 : off % 4 = 0) (ho : off < 0x100000) :
    s.readOff path d off = s.readWord path d off := by
  obtain ⟨-, hlt, hlost, -⟩ := (s.live_iff d).mp hd
  have base : off / 4 * 4 = off := by omega
  have there : ¬ (s.dieCount ≤ d ∨ (s.die d).lost = true) := by
    simp [hlost, hlt]
  simp [State.readOff, there, State.ctlRuns, hd, base, aliasOf_below (show off < 0x2000000 by omega), ho, h4]

theorem State.readWord_word {s : State} {path : RegPath} {d off : Nat} (hm : s.mayRead path d off = true) (hp : pairOf off = none) :
    s.readWord path d off = (s.wordAt d off, if (s.clears path d && Nat.land (s.wordAt d off) (rcMask d off) != 0) = true then
      s.clearRc d off (Nat.land (s.wordAt d off) (rcMask d off)) else s) := by
  unfold State.readWord
  rw [hm, hp]
  rfl

theorem State.readWord_pair {s : State} {path : RegPath} {d off k : Nat} {hi : Bool} (hm : s.mayRead path d off = true)
    (hp : pairOf off = some (k, hi)) : s.readWord path d off = s.pairRead path d k hi := by
  unfold State.readWord
  rw [hm, hp]
  rfl

/-- The words with read-clear bits belong to no pair. -/
theorem pairOf_eq_none {d off : Nat} (h : rcMask d off ≠ 0) : pairOf off = none := by
  by_contra hp
  have low : off < 0x1050 ∧ off ≠ 0x1008 := by
    unfold pairOf at hp
    split_ifs at hp <;> first | omega | exact absurd rfl hp
  apply h
  rw [rcMask, isQcb_below (show off < 0x80000 by omega), if_neg Bool.false_ne_true, if_neg low.2, if_neg (by omega), if_neg (by omega),
    if_neg (by omega), if_neg (by omega), if_neg (by omega), if_neg (by omega), if_neg (by omega)]

theorem pairOf_lt {off : Nat} {e : Nat × Bool} (h : pairOf off = some e) : off < 0x1050 := by
  by_contra hlt
  rw [pairOf, if_neg (by omega), if_neg (by omega), if_neg (by omega), if_neg (by omega), if_neg (by omega), if_neg (by omega),
    if_neg (by omega)] at h
  cases h

end Sys2Proof.Machine
namespace Sys2Proof.Machine

/-- What a read leaves on the path that made it. -/
theorem State.putRead_firmware (v : Nat) (s : State) (core : Nat) :
    State.putRead (v, s) (.firmware core) = { s with regOut := BitVec.ofNat 32 v } := rfl

theorem State.wordAt_regOut (s : State) (v : BitVec 32) (d off : Nat) : State.wordAt { s with regOut := v } d off = s.wordAt d off := rfl

theorem regRead {s : State} {a : BitVec 32} {d off v : Nat} (hon : s.sideOn = true) (hd : d = a.toNat / 2 ^ 26) (ho : off = a.toNat % 2 ^ 26)
    (hr : s.readOff .sideband d off = (v, s)) :
    Runs (.regRead a) s fun t => t.regOut = BitVec.ofNat 32 v ∧ t.psi.sideband.resp = le 4 v ∧ t.dies = s.dies ∧ t.queues = s.queues := by
  refine ⟨_, event_next rfl hon, ?_⟩
  rw [← hd, ← ho, hr]
  exact ⟨rfl, rfl, rfl, rfl⟩

theorem sidebandRead (s : State) (a : BitVec 32) (d off : Nat) (hon : s.sideOn = true) (hd : d = a.toNat / 2 ^ 26) (ho : off = a.toNat % 2 ^ 26) :
    (s.live d = true → off % 4 = 0 → off < 0x100000 → pairOf off = none →
      (s.unlocked d = false ∨ Nat.land (s.wordAt d off) (rcMask d off) = 0) →
      Runs (.regRead a) s fun t => t.regOut = BitVec.ofNat 32 (s.wordAt d off) ∧
        t.psi.sideband.resp = le 4 (s.wordAt d off) ∧ t.dies = s.dies ∧ t.queues = s.queues) ∧
    ((s.dieCount ≤ d ∨ (s.die d).lost = true) →
      Runs (.regRead a) s fun t => t.regOut = 0 ∧ t.psi.sideband.resp = [0, 0, 0, 0] ∧ t.dies = s.dies ∧ t.queues = s.queues) ∧
    (d < s.dieCount → (s.die d).lost = false → s.live d = false → 12 ≤ off →
      Runs (.regRead a) s fun t => t.regOut = 0 ∧ t.dies = s.dies ∧ t.queues = s.queues) := by
  refine ⟨fun hl h4 hlt hp hrc => regRead hon hd ho ?_, fun hout => regRead hon hd ho ?_, fun hlt hlost hl hoff => ?_⟩
  · have keeps : (s.clears .sideband d && Nat.land (s.wordAt d off) (rcMask d off) != 0) = false := by
      rcases hrc with hu | hz
      · rw [State.clears, hu, Bool.false_and]
      · rw [hz, bne_self_eq_false, Bool.and_false]
    rw [State.readOff_word hl h4 hlt, State.readWord_word rfl hp, keeps]
    rfl
  · rw [State.readOff, if_pos hout]
  · have zero : s.readOff .sideband d off = (0, s) := by
      rw [State.readOff, if_neg (by simp [hlost, hlt]), State.ctlRuns, hl]
      exact (if_pos rfl).trans (if_neg (by omega))
    obtain ⟨t, ht, out, -, dies, queues⟩ := regRead hon hd ho zero
    exact ⟨t, ht, out, dies, queues⟩

theorem readClear (s : State) (core d : Nat) (off : BitVec 32) (hd : s.live d = true) (h4 : off.toNat % 4 = 0) (ho : off.toNat < 0x100000)
    (hm : rcMask d off.toNat ≠ 0) :
    Runs (.readClear (.firmware core) d off) s fun t => t.regOut = BitVec.ofNat 32 (s.wordAt d off.toNat) ∧
      ∀ i, bitAt (t.wordAt d off.toNat) i = (bitAt (s.wordAt d off.toNat) i && !(bitAt (rcMask d off.toNat) i)) := by
  have base : off.toNat / 4 * 4 = off.toNat := by omega
  have reg : regOf off.toNat = off.toNat := by rw [regOf, aliasOf_below (by omega)]
  have hlt := ((s.live_iff d).mp hd).2.1
  refine ⟨_, event_next (by simp [hlt, base, reg, hm]) hd, ?_⟩
  rw [State.readOff_word hd h4 ho, State.readWord_word rfl (pairOf_eq_none hm), State.putRead_firmware]
  refine ⟨rfl, fun i => ?_⟩
  have h := s.bitAt_wordAt_clearRc d hm i
  rw [State.wordAt_regOut]
  simpa [State.clears] using h

/-- The die whose pair `k` a reader with key base `b` has read: the low word takes the snapshots. -/
def Die.snapshot (x : Die) (b k : Nat) : Die :=
  if k = 0 then { x with snaps := tput (tput x.snaps (b + k) (x.pairVal k)) (b + 1) (x.pairVal 1) }
  else { x with snaps := tput x.snaps (b + k) (x.pairVal k) }

theorem State.pairRead_low (s : State) (path : RegPath) (d k : Nat) :
    s.pairRead path d k false = (((s.die d).pairVal k).toNat % 2 ^ 32, s.setDie d ((s.die d).snapshot (readerOf path * 16) k)) := by
  unfold State.pairRead Die.snapshot
  dsimp only
  rw [if_neg Bool.false_ne_true]

theorem Die.snapshot_taken (x : Die) (b k : Nat) : tget (x.snapshot b k).snaps (b + k) 0 = x.pairVal k := by
  unfold Die.snapshot
  split
  case isTrue hk => simp [hk, tget_tput]
  case isFalse => simp

theorem Die.pairVal_snapshot (x : Die) (b k n : Nat) : (x.snapshot b k).pairVal n = x.pairVal n := by
  unfold Die.snapshot
  split <;> rfl

theorem State.die_regOut (s : State) (v : BitVec 32) (d : Nat) : State.die { s with regOut := v } d = s.die d := rfl

theorem snapshotRead (s : State) (core d k : Nat) (off : BitVec 32) (hd : s.live d = true) (h4 : off.toNat % 4 = 0) :
    (pairOf off.toNat = some (k, false) →
      Runs (.snapshotRead (.firmware core) d off) s fun t => OtherDies s t d ∧ t.queues = s.queues ∧
        t.regOut = ((s.die d).pairVal k).extractLsb' 0 32 ∧
        tget (t.die d).snaps (16 * (core + 1) + k) 0 = (s.die d).pairVal k ∧ (t.die d).pairVal k = (s.die d).pairVal k) ∧
    (pairOf off.toNat = some (k, true) →
      Runs (.snapshotRead (.firmware core) d off) s fun t => t.dies = s.dies ∧ t.queues = s.queues ∧
        t.regOut = (tget (s.die d).snaps (16 * (core + 1) + k) ((s.die d).pairVal k)).extractLsb' 32 32) := by
  have base : off.toNat / 4 * 4 = off.toNat := by omega
  have hlt := ((s.live_iff d).mp hd).2.1
  have key : readerOf (.firmware core) * 16 + k = 16 * (core + 1) + k := by rw [readerOf, Nat.mul_comm]
  refine ⟨fun hp => ?_, fun hp => ?_⟩
  · refine ⟨_, event_next (by simp [hlt, base, hp]) hd, ?_⟩
    rw [State.readOff_word hd h4 ((pairOf_lt hp).trans (by decide)), State.readWord_pair rfl hp, State.pairRead_low, State.putRead_firmware, ← key]
    refine ⟨fun e he => State.die_setDie_other _ _ he, rfl, ?_, ?_, ?_⟩
    · apply BitVec.eq_of_toNat_eq
      simp
    · rw [State.die_regOut, State.die_setDie_same, Die.snapshot_taken]
    · rw [State.die_regOut, State.die_setDie_same, Die.pairVal_snapshot]
  · refine ⟨_, event_next (by simp [hlt, base, hp]) hd, ?_⟩
    rw [State.readOff_word hd h4 ((pairOf_lt hp).trans (by decide)), State.readWord_pair rfl hp, ← key]
    refine ⟨rfl, rfl, ?_⟩
    apply BitVec.eq_of_toNat_eq
    simp [State.pairRead, State.putRead, Nat.shiftRight_eq_div_pow]

/-- Settles O40: reads of the sideband, reads that clear, and reads of a pair. -/
theorem sidebandReadsAnswer : Obligations.SidebandReadsAnswer :=
  ⟨sidebandRead, readClear, snapshotRead⟩

end Sys2Proof.Machine

namespace Sys2Proof.Machine

/-! ## What leaves the configuration-class registers alone (R411, R414) -/

/-- Of a die: its registers with PW fields, and what its configuration checks hold. -/
def Die.confs (x : Die) := (x.pregs, x.cfgs)

/-- Of the dies, only `d` differs, and its configuration does not. -/
structure ConfsKept (s t : State) (d : Nat) : Prop where
  other : OtherDies s t d
  confs : (t.die d).confs = (s.die d).confs

theorem ConfsKept.trans {s t u : State} {d : Nat} (h : ConfsKept s t d) (k : ConfsKept t u d) : ConfsKept s u d :=
  ⟨h.other.trans k.other, k.confs.trans h.confs⟩

theorem ConfsKept.refl (s : State) (d : Nat) : ConfsKept s s d := ⟨OtherDies.refl s d, rfl⟩

theorem ConfsKept.modDie (s : State) (d : Nat) {f : Die → Die} (h : (f (s.die d)).confs = (s.die d).confs) : ConfsKept s (s.modDie d f) d :=
  ⟨OtherDies.modDie s d f, by rw [State.die_modDie_same, h]⟩

theorem ConfsKept.emit {s t : State} {d : Nat} (h : ConfsKept s t d) (e : Event) : ConfsKept s (t.emit e) d :=
  ⟨fun k hk => (State.emit_die ..).trans (h.other k hk), (congrArg Die.confs (State.emit_die ..)).trans h.confs⟩

theorem Die.count_confs (x : Die) (c : Ctr) (u n : Nat) : (x.count c u n).confs = x.confs := by
  rw [Die.count_only]
  rfl

theorem State.depart_confs (s : State) (d p : Nat) (left : LState) : ConfsKept s (s.depart d p left) d :=
  (ConfsKept.modDie s d (Die.count_confs ..)).emit _

theorem State.linkDown_confs (s : State) (d p : Nat) : ConfsKept s (s.linkDown d p) d := by
  have down : ConfsKept s (s.modDie d fun x => x.modFelt p Felt.goDown) d := ConfsKept.modDie s d rfl
  unfold State.linkDown
  dsimp only
  split
  · exact ConfsKept.refl s d
  · split
    · exact down.trans (State.depart_confs ..)
    · split
      · exact down.trans (State.depart_confs ..)
      · exact down

theorem State.linkDetect_confs (s : State) (d p : Nat) (departs : Bool) : ConfsKept s (s.linkDetect d p departs) d := by
  have detect : ConfsKept s (s.modDie d fun x => x.modFelt p Felt.goDetect) d := ConfsKept.modDie s d rfl
  unfold State.linkDetect
  dsimp only
  split
  · exact detect.trans (State.depart_confs ..)
  · exact detect

theorem State.feltPressed_confs (s : State) (d p : Nat) (was : Bool) : ConfsKept s (s.feltPressed d p was) d := by
  unfold State.feltPressed
  dsimp only
  split
  · exact s.linkDown_confs d p
  · split
    · exact s.linkDetect_confs d p false
    · exact ConfsKept.refl s d

theorem State.linkRetrain_confs (s : State) (d p : Nat) : ConfsKept s (s.linkRetrain d p) d := by
  unfold State.linkRetrain
  split
  · exact ConfsKept.refl s d
  · exact s.linkDetect_confs d p false

theorem Die.testPanic_confs (x : Die) (r : Nat) : (x.testPanic r).confs = x.confs := by
  unfold Die.testPanic
  extract_lets was y
  have tested : y.confs = x.confs := foldl_keeps Die.confs (fun n _ x => by split <;> rfl) x
  clear_value y
  split
  · rw [Die.count_confs]
    exact tested
  · exact tested

/-- Dealt frames are reserved, and the next deal goes on after them. -/
theorem Die.dealOn_only (x : Die) (on : List Nat) (owner : Nat) : ∀ {n : Nat} {y : Die} {l : List Nat},
    x.dealOn on owner n = some (y, l) → y = { x with reserved := y.reserved, dealNext := y.dealNext }
  | 0, y, l, h => by cases h; rfl
  | n + 1, y, l, h => by
    unfold Die.dealOn at h
    split at h
    · cases h
    next z k hz =>
      have before := x.dealOn_only on owner hz
      split at h
      · cases h
      · split at h
        · cases h
        · cases h
          rw [before]

/-- Frames given back, others dealt, and a ring that names them. -/
theorem Die.dealt_only {x z y : Die} (freed : z = { x with reserved := z.reserved })
    (dealt : y = { z with reserved := y.reserved, dealNext := y.dealNext }) (n : Nat) (f : Ring → Ring) :
    y.modRing n f = { x with reserved := (y.modRing n f).reserved, dealNext := (y.modRing n f).dealNext, rings := (y.modRing n f).rings } := by
  unfold Die.modRing
  rw [dealt, freed]

/-- What the place of a ring writes. As in `Die.retired_of_placeRing` the result is named before the definition is opened. -/
theorem Die.placeRing_only {place : Die → Nat → List Nat → Die} (hp : place = Die.placeRing) {x z : Die} {n : Nat} {on : List Nat}
    (hz : place x n on = z) : z = { x with reserved := z.reserved, dealNext := z.dealNext, rings := z.rings } := by
  delta Die.placeRing at hp
  subst hp
  dsimp only at hz
  have freed : x.unreserve (65536 + n) = { x with reserved := (x.unreserve (65536 + n)).reserved } := rfl
  split at hz
  next y l h =>
    have dealt := Die.dealOn_only _ _ _ h
    subst hz
    exact Die.dealt_only freed dealt ..
  · subst hz
    exact Die.dealt_only freed rfl ..

theorem Die.confs_of_placed {x z : Die} (h : z = { x with reserved := z.reserved, dealNext := z.dealNext, rings := z.rings }) :
    z.confs = x.confs := by
  rw [h]
  rfl

theorem Die.placeRing_confs (x : Die) (n : Nat) (on : List Nat) : (x.placeRing n on).confs = x.confs :=
  Die.confs_of_placed (Die.placeRing_only rfl rfl)

theorem Die.newLen_confs (x : Die) (n : Nat) : (x.newLen n).confs = x.confs := rfl

/-! ## A register pressed (R411, R412) -/

theorem Die.preg_setPreg_same (x : Die) (off : Nat) (r : PReg) : (x.setPreg off r).preg off = r := by
  simp [Die.preg, Die.setPreg]

theorem Die.preg_setPreg_other (x : Die) {off n : Nat} (r : PReg) (h : n ≠ off) : (x.setPreg off r).preg n = x.preg n := by
  simp [Die.preg, Die.setPreg, tget_tput, h]

theorem Die.preg_of_confs {x y : Die} (h : x.confs = y.confs) (n : Nat) : x.preg n = y.preg n := by
  have pregs : x.pregs = y.pregs := congrArg Prod.fst h
  rw [Die.preg, pregs, Die.preg]

/-- The value that a press leaves in force: the PW bits of `v`, the others as they stand. -/
def pressedValue (m old v : Nat) : Nat := old - Nat.land old m + Nat.land v m

/-- A press sets the register, and what hangs on it leaves the configuration alone. -/
theorem State.applyPw_sets (s : State) (d off v : Nat) : ∃ u : State, OtherDies s u d ∧
    u.die d = (s.die d).setPreg off
      { applied := BitVec.ofNat 32 (pressedValue ((pwMask off).getD 0) ((s.die d).regv off) v), pend := none } ∧
    ConfsKept u (s.applyPw d off v) d := by
  refine ⟨s.modDie d fun x => x.setPreg off
    { applied := BitVec.ofNat 32 (pressedValue ((pwMask off).getD 0) ((s.die d).regv off) v), pend := none },
    OtherDies.modDie s d _, State.die_modDie_same .., ?_⟩
  unfold State.applyPw
  dsimp only
  split
  · exact ConfsKept.modDie _ d ((Die.placeRing_confs ..).trans (Die.newLen_confs ..))
  · split
    · exact ConfsKept.modDie _ d rfl
    · split
      · exact ConfsKept.modDie _ d (Die.testPanic_confs ..)
      · split
        · exact State.feltPressed_confs ..
        · exact ConfsKept.refl _ d

/-- What a press does to the registers and checks of its die. -/
theorem State.applyPw_facts (s : State) (d off v : Nat) : OtherDies s (s.applyPw d off v) d ∧
    ((s.applyPw d off v).die d).preg off =
      { applied := BitVec.ofNat 32 (pressedValue ((pwMask off).getD 0) ((s.die d).regv off) v), pend := none } ∧
    (∀ n, n ≠ off → ((s.applyPw d off v).die d).preg n = (s.die d).preg n) ∧
    ((s.applyPw d off v).die d).cfgs = (s.die d).cfgs := by
  obtain ⟨u, other, set, kept⟩ := s.applyPw_sets d off v
  refine ⟨other.trans kept.other, ?_, fun n hn => ?_, ?_⟩
  · rw [Die.preg_of_confs kept.confs, set, Die.preg_setPreg_same]
  · rw [Die.preg_of_confs kept.confs, set, Die.preg_setPreg_other _ _ hn]
  · have cfgs : ((s.applyPw d off v).die d).cfgs = (u.die d).cfgs := congrArg Prod.snd kept.confs
    rw [cfgs, set]
    rfl

/-- Numbers without a bit in common add bit by bit. -/
theorem add_eq_or_of_land_eq_zero {a b : Nat} (h : a &&& b = 0) : a + b = a ||| b := by
  have lt : a + b < 2 ^ (a + b) := Nat.lt_two_pow_self
  have eq := congrArg BitVec.toNat (BitVec.add_eq_or_of_and_eq_zero (BitVec.ofNat (a + b) a) (BitVec.ofNat (a + b) b)
    (by rw [← BitVec.ofNat_and, h]))
  rw [← BitVec.ofNat_add, ← BitVec.ofNat_or, BitVec.toNat_ofNat, BitVec.toNat_ofNat, Nat.mod_eq_of_lt lt,
    Nat.mod_eq_of_lt (Nat.or_lt_two_pow (by omega) (by omega))] at eq
  exact eq

theorem testBit_sub_land (a m i : Nat) : (a - (a &&& m)).testBit i = (a.testBit i && !(m.testBit i)) := by
  have apart : (a ^^^ (a &&& m)) &&& (a &&& m) = 0 := Nat.eq_of_testBit_eq fun i => by
    cases ha : a.testBit i <;> cases hm : m.testBit i <;> simp [ha, hm]
  have whole : (a ^^^ (a &&& m)) + (a &&& m) = a := by
    rw [add_eq_or_of_land_eq_zero apart]
    exact Nat.eq_of_testBit_eq fun i => by cases ha : a.testBit i <;> cases hm : m.testBit i <;> simp [ha, hm]
  rw [show a - (a &&& m) = a ^^^ (a &&& m) by omega]
  cases ha : a.testBit i <;> cases hm : m.testBit i <;> simp [ha, hm]

/-- The bits of a pressed value: those of the mask from `v`, the others as they stood. -/
theorem bitAt_pressedValue (m old v i : Nat) : bitAt (pressedValue m old v) i = if bitAt m i then bitAt v i else bitAt old i := by
  have apart : (old - (old &&& m)) &&& (v &&& m) = 0 := Nat.eq_of_testBit_eq fun i => by
    cases hm : m.testBit i <;> simp [testBit_sub_land, hm]
  simp only [bitAt_eq_testBit]
  show ((old - (old &&& m)) + (v &&& m)).testBit i = _
  rw [add_eq_or_of_land_eq_zero apart, Nat.testBit_or, testBit_sub_land, Nat.testBit_and]
  cases m.testBit i <;> simp

/-- Where registers with PW fields stand. -/
theorem pwMask_off {off m : Nat} (h : pwMask off = some m) : off % 4 = 0 ∧ 0x2004 ≤ off ∧ off < 0x6800 := by
  unfold pwMask at h
  split at h
  · cases h
  · by_contra hout
    rw [if_neg (by omega), if_neg (by omega), if_neg (by omega), if_neg (by omega), if_neg (by omega), if_neg (by omega), if_neg (by omega),
      if_neg (by omega)] at h
    cases h

/-- A register whose pending value, if any, has been applied. -/
def PReg.pressed (r : PReg) (off : Nat) : PReg :=
  match r.pend with
  | some v => { applied := BitVec.ofNat 32 (pressedValue ((pwMask off).getD 0) r.applied.toNat v.toNat), pend := none }
  | none => r

theorem PReg.pressed_some {r : PReg} {v : BitVec 32} (h : r.pend = some v) (off : Nat) :
    r.pressed off = { applied := BitVec.ofNat 32 (pressedValue ((pwMask off).getD 0) r.applied.toNat v.toNat), pend := none } := by
  unfold PReg.pressed
  rw [h]

theorem PReg.pressed_none {r : PReg} (h : r.pend = none) (off : Nat) : r.pressed off = r := by
  unfold PReg.pressed
  rw [h]

theorem PReg.pend_pressed (r : PReg) (off : Nat) : (r.pressed off).pend = none := by
  cases h : r.pend with
  | none => rw [PReg.pressed_none h, h]
  | some v => rw [PReg.pressed_some h]

/-- The pending value of one register is applied. -/
def State.pressOne (d : Nat) (s : State) (off : Nat) : State :=
  match ((s.die d).preg off).pend with
  | some v => s.applyPw d off v.toNat
  | none => s

theorem State.pressOne_facts (s : State) (d off : Nat) : OtherDies s (State.pressOne d s off) d ∧
    ((State.pressOne d s off).die d).preg off = ((s.die d).preg off).pressed off ∧
    ∀ n, n ≠ off → ((State.pressOne d s off).die d).preg n = (s.die d).preg n := by
  unfold State.pressOne
  split
  · next v hv =>
    obtain ⟨other, own, rest, -⟩ := s.applyPw_facts d off v.toNat
    exact ⟨other, own.trans (PReg.pressed_some hv off).symm, rest⟩
  · next hn => exact ⟨OtherDies.refl s d, (PReg.pressed_none hn off).symm, fun _ _ => rfl⟩

/-- A press of registers: each of them has its pending value applied, and no other register changes. -/
theorem State.foldl_pressOne (d : Nat) (l : List Nat) (s : State) : OtherDies s (l.foldl (State.pressOne d) s) d ∧
    ∀ n, ((l.foldl (State.pressOne d) s).die d).preg n = if n ∈ l then ((s.die d).preg n).pressed n else (s.die d).preg n := by
  induction l using List.reverseRecOn with
  | nil => exact ⟨OtherDies.refl s d, fun _ => rfl⟩
  | append_singleton l off ih =>
    obtain ⟨other, regs⟩ := ih
    rw [List.foldl_append, List.foldl_cons, List.foldl_nil]
    obtain ⟨otherOne, own, rest⟩ := (l.foldl (State.pressOne d) s).pressOne_facts d off
    refine ⟨other.trans otherOne, fun n => ?_⟩
    by_cases hn : n = off
    · subst hn
      rw [own, regs, if_pos (List.mem_append_right l (List.mem_singleton_self n))]
      split
      · exact PReg.pressed_none (PReg.pend_pressed ..) n
      · rfl
    · rw [rest n hn, regs]
      simp [hn]

/-- The registers that a press reaches. -/
theorem Die.mem_pressed {x : Die} {g n : Nat} {v : BitVec 32} (hv : (x.preg n).pend = some v) (hg : bitAt g (x.grpOf n) = true) :
    n ∈ x.pressed g := by
  unfold Die.preg tget at hv
  cases hf : tfind x.pregs n with
  | none => rw [hf] at hv; cases hv
  | some r =>
    rw [hf] at hv
    have pend : r.pend = some v := hv
    exact List.mem_map.mpr ⟨(n, r), List.mem_filter.mpr ⟨mem_of_tfind hf, by simp [pend, hg]⟩, rfl⟩

theorem Die.grp_of_mem_pressed {x : Die} {g n : Nat} (h : n ∈ x.pressed g) : bitAt g (x.grpOf n) = true := by
  obtain ⟨e, he, rfl⟩ := List.mem_map.mp h
  exact (Bool.and_eq_true_iff.mp (List.mem_filter.mp he).2).2

/-! ## Writes of firmware (R403, R411 to R413) -/

/-- Firmware's write of an aligned word of a die whose controller runs. -/
theorem State.writeOff_firmware {s : State} {d : Nat} (core : Nat) {off : Nat} (v : Nat) (hd : s.live d = true) (h4 : off % 4 = 0)
    (ho : off < 0x100000) : s.writeOff (.firmware core) d off v = s.writeWord (.firmware core) d off v := by
  obtain ⟨-, hlt, hlost, -⟩ := (s.live_iff d).mp hd
  rw [State.writeOff, if_neg (by simp [hlost, hlt]), State.ctlRuns, hd, if_neg (by decide), if_neg (by omega), aliasOf_below (by omega)]
  exact (if_neg (by omega)).trans (if_pos rfl)

/-- A write to a register with PW fields: pending, with its press group at once. -/
theorem State.writeWord_pw {s : State} {path : RegPath} {d off m : Nat} (v : Nat) (hm : pwMask off = some m)
    (hf : (s.die d).blockFenced off = false) : ∃ u, OtherDies s u d ∧
      u.die d = (s.die d).setPreg off
        { applied := BitVec.ofNat 32 (((s.die d).preg off).applied.toNat % 2 ^ 28 + bitsOf v 31 28 * 2 ^ 28)
          pend := some (BitVec.ofNat 32 (Nat.land v m)) } ∧
      ConfsKept u (s.writeWord path d off v) d := by
  obtain ⟨h4, hlo, hhi⟩ := pwMask_off hm
  refine ⟨s.modDie d fun x => x.setPreg off
        { applied := BitVec.ofNat 32 ((x.preg off).applied.toNat % 2 ^ 28 + bitsOf v 31 28 * 2 ^ 28)
          pend := some (BitVec.ofNat 32 (Nat.land v m)) }, OtherDies.modDie s d _, State.die_modDie_same .., ?_⟩
  unfold State.writeWord
  dsimp only
  rw [isQcb_below (by omega), if_neg Bool.false_ne_true, hf, if_neg Bool.false_ne_true, if_neg (by omega), if_neg (by omega),
    if_neg (by omega), if_neg (by omega), hm]
  dsimp only
  split
  · exact State.linkRetrain_confs ..
  · exact ConfsKept.refl _ d

theorem pwWrite (s : State) (core d m : Nat) (off v : BitVec 32) (hd : s.live d = true) (hm : pwMask off.toNat = some m)
    (hf : (s.die d).blockFenced off.toNat = false) :
    Runs (.pwWrite (.firmware core) d off v) s fun t => OtherDies s t d ∧
      ((t.die d).preg off.toNat).pend = some (BitVec.ofNat 32 (Nat.land v.toNat m)) ∧
      ((t.die d).preg off.toNat).applied =
        v.extractLsb' 28 4 ++ ((s.die d).preg off.toNat).applied.extractLsb' 0 28 ∧
      ∀ n, n ≠ off.toNat → (t.die d).preg n = (s.die d).preg n := by
  obtain ⟨h4, hlo, hhi⟩ := pwMask_off hm
  have reg : regOf off.toNat = off.toNat := by rw [regOf, aliasOf_below (by omega)]
  refine ⟨_, event_next (by simp [((s.live_iff d).mp hd).2.1, reg, hm]) hd, ?_⟩
  rw [State.writeOff_firmware core _ hd h4 (by omega)]
  obtain ⟨u, other, set, kept⟩ := State.writeWord_pw (path := .firmware core) v.toNat hm hf
  refine ⟨other.trans kept.other, ?_, ?_, fun n hn => ?_⟩
  · rw [Die.preg_of_confs kept.confs, set, Die.preg_setPreg_same]
  · rw [Die.preg_of_confs kept.confs, set, Die.preg_setPreg_same]
    apply BitVec.eq_of_toNat_eq
    have := v.isLt
    simp only [BitVec.toNat_append, BitVec.extractLsb'_toNat, BitVec.toNat_ofNat, bitsOf, Nat.shiftRight_zero]
    rw [← Nat.shiftLeft_add_eq_or_of_lt (Nat.mod_lt _ (by decide)), Nat.shiftLeft_eq, Nat.shiftRight_eq_div_pow]
    omega
  · rw [Die.preg_of_confs kept.confs, set, Die.preg_setPreg_other _ _ hn]

end Sys2Proof.Machine
namespace Sys2Proof.Machine

theorem bitsOf_lt (x hi lo : Nat) : bitsOf x hi lo < 2 ^ (hi + 1 - lo) := Nat.mod_lt _ (Nat.two_pow_pos _)

theorem bitAt_mod (x n i : Nat) : bitAt (x % 2 ^ n) i = (decide (i < n) && bitAt x i) := by
  simp only [bitAt_eq_testBit, Nat.testBit_mod_two_pow]

theorem Die.grpOf_lt (x : Die) (n : Nat) : x.grpOf n < 16 := bitsOf_lt ..

/-- A group of a press, as the word names it. -/
theorem bitAt_groups (g : BitVec 32) {k : Nat} (hk : k < 16) : bitAt (g.toNat % 2 ^ 16) k = g.getLsbD k := by
  rw [bitAt_mod, decide_eq_true hk, Bool.true_and, bitAt_toNat]

theorem State.writeWord_press {s : State} (core : Nat) {d : Nat} (v : Nat) (hf : (s.die d).blockFenced 0x20 = false) :
    s.writeWord (.firmware core) d 0x20 v = s.press d (v % 2 ^ 16) := by
  unfold State.writeWord
  dsimp only
  rw [isQcb_below (by decide), if_neg Bool.false_ne_true, hf, if_neg Bool.false_ne_true, if_pos rfl]
  rfl

theorem State.writeWord_cancel {s : State} (core : Nat) {d : Nat} (v : Nat) (hf : (s.die d).blockFenced 0x24 = false) :
    s.writeWord (.firmware core) d 0x24 v = s.cancelPress d (v % 2 ^ 16) := by
  unfold State.writeWord
  dsimp only
  rw [isQcb_below (by decide), if_neg Bool.false_ne_true, hf, if_neg Bool.false_ne_true, if_neg (by decide), if_pos rfl]
  rfl

theorem State.press_eq (s : State) (d g : Nat) : s.press d g = ((s.die d).pressed g).foldl (State.pressOne d) s := rfl

theorem pressGo (s : State) (core d : Nat) (g : BitVec 32) (hd : s.live d = true) (hf : (s.die d).blockFenced 0x20 = false) :
    Runs (.pressGo (.firmware core) d g) s fun t => OtherDies s t d ∧ ∀ n,
      (∀ v, ((s.die d).preg n).pend = some v → g.getLsbD ((s.die d).grpOf n) = true → (s.die d).grpOf n < 16 →
        ((t.die d).preg n).pend = none ∧
        ∀ i, i < 32 → ((t.die d).preg n).applied.getLsbD i =
          if bitAt ((pwMask n).getD 0) i then v.getLsbD i else ((s.die d).preg n).applied.getLsbD i) ∧
      ((((s.die d).preg n).pend = none ∨ g.getLsbD ((s.die d).grpOf n) = false) → (t.die d).preg n = (s.die d).preg n) := by
  refine ⟨_, event_next (by simp [((s.live_iff d).mp hd).2.1]) hd, ?_⟩
  rw [State.writeOff_firmware core _ hd (by decide) (by decide), State.writeWord_press core _ hf, State.press_eq]
  obtain ⟨other, regs⟩ := State.foldl_pressOne d ((s.die d).pressed (g.toNat % 2 ^ 16)) s
  refine ⟨other, fun n => ⟨fun v hv hg hlt => ?_, fun hkeep => (regs n).trans ?_⟩⟩
  · have mem := Die.mem_pressed hv ((bitAt_groups g hlt).trans hg)
    have own := (regs n).trans (if_pos mem)
    rw [PReg.pressed_some hv] at own
    refine ⟨congrArg PReg.pend own, fun i hi => ?_⟩
    rw [congrArg PReg.applied own, BitVec.getLsbD_ofNat, decide_eq_true hi, Bool.true_and, ← bitAt_eq_testBit, bitAt_pressedValue,
      bitAt_toNat, bitAt_toNat]
  · split
    case isFalse => rfl
    case isTrue mem =>
      rcases hkeep with hnone | hg
      · exact PReg.pressed_none hnone n
      · have named := Die.grp_of_mem_pressed mem
        rw [bitAt_groups g (Die.grpOf_lt ..), hg] at named
        cases named

/-- A cancel of registers: each of them loses its pending value, and no other register changes. -/
theorem Die.foldl_cancel (x : Die) (l : List Nat) (n : Nat) :
    (l.foldl (fun (x : Die) off => x.setPreg off { x.preg off with pend := none }) x).preg n =
      if n ∈ l then { x.preg n with pend := none } else x.preg n := by
  induction l using List.reverseRecOn with
  | nil => rfl
  | append_singleton l off ih =>
    rw [List.foldl_append, List.foldl_cons, List.foldl_nil]
    by_cases hn : n = off
    · subst hn
      rw [Die.preg_setPreg_same, ih, if_pos (List.mem_append_right l (List.mem_singleton_self n))]
      split <;> rfl
    · rw [Die.preg_setPreg_other _ _ hn, ih]
      simp [hn]

theorem pressCancel (s : State) (core d : Nat) (g : BitVec 32) (hd : s.live d = true) (hf : (s.die d).blockFenced 0x24 = false) :
    Runs (.pressCancel (.firmware core) d g) s fun t => OtherDies s t d ∧ t.queues = s.queues ∧ ∀ n,
      ((t.die d).preg n).applied = ((s.die d).preg n).applied ∧
      (g.getLsbD ((s.die d).grpOf n) = true → ((t.die d).preg n).pend = none) ∧
      (g.getLsbD ((s.die d).grpOf n) = false → (t.die d).preg n = (s.die d).preg n) := by
  refine ⟨_, event_next (by simp [((s.live_iff d).mp hd).2.1]) hd, ?_⟩
  rw [State.writeOff_firmware core _ hd (by decide) (by decide), State.writeWord_cancel core _ hf, State.cancelPress]
  refine ⟨OtherDies.modDie s d _, rfl, fun n => ?_⟩
  rw [State.die_modDie_same, Die.foldl_cancel]
  refine ⟨by split <;> rfl, fun hg => ?_, fun hg => if_neg fun mem => ?_⟩
  · split
    case isTrue => rfl
    case isFalse mem =>
      cases hv : ((s.die d).preg n).pend with
      | none => rfl
      | some v => exact absurd (Die.mem_pressed hv ((bitAt_groups g (Die.grpOf_lt ..)).trans hg)) mem
  · have named := Die.grp_of_mem_pressed mem
    rw [bitAt_groups g (Die.grpOf_lt ..), hg] at named
    cases named

/-! ## The configuration check (R414, R415) -/

theorem mem_cfgBlocks {b : Nat} : b ∈ cfgBlocks ↔ 2 ≤ b ∧ b ≤ 6 := by
  simp only [cfgBlocks, List.mem_cons, List.not_mem_nil, or_false]
  omega

theorem aliasOf_commit {b : Nat} (hb : b ≤ 6) : aliasOf (0x2000000 + 32 * (0xF000 + 16 * b) + 4) = some (0xF000 + 16 * b, 1) := by
  rw [aliasOf, if_pos (by omega)]
  exact congrArg some (Prod.ext (show (0x2000000 + 32 * (0xF000 + 16 * b) + 4 - 0x2000000) / 128 * 4 = _ by omega)
    (show (0x2000000 + 32 * (0xF000 + 16 * b) + 4 - 0x2000000) % 128 / 4 = 1 by omega))

/-- CFG_CTL of a block written bit by bit. -/
theorem State.writeBit_cfgCtl (s : State) (d : Nat) {b : Nat} (hb : b ∈ cfgBlocks) (i v : Nat)
    (hf : (s.die d).blockFenced (0xF000 + 16 * b) = false) : s.writeBit d (0xF000 + 16 * b) i v =
      s.modDie d fun x => x.modCfg b fun c =>
        { c with chkEn := if i = 0 then v % 2 == 1 else c.chkEn, commitPend := c.commitPend || (i == 1 && v % 2 == 1) } := by
  obtain ⟨hlo, hhi⟩ := mem_cfgBlocks.mp hb
  have block : (0xF000 + 16 * b) / 4096 = 15 ∧ (0xF000 + 16 * b) % 4096 / 16 = b ∧ (0xF000 + 16 * b) % 4096 % 16 = 0 := by omega
  obtain ⟨h1, h2, h3⟩ := block
  unfold State.writeBit
  dsimp only
  rw [isQcb_below (by omega), if_neg Bool.false_ne_true, hf, if_neg Bool.false_ne_true, h1, h2, h3,
    if_pos ⟨rfl, by simpa using hb, rfl⟩]

theorem commit (s : State) (core d b : Nat) (hd : s.live d = true) (hb : b ∈ cfgBlocks) (hf : (s.die d).isFenced 17 15 = false) :
    Runs (.commit (.firmware core) d b) s fun t => OtherDies s t d ∧ t.queues = s.queues ∧
      (t.die d).cfg b = { (s.die d).cfg b with commitPend := true } ∧ (t.die d).pregs = (s.die d).pregs := by
  obtain ⟨-, hlt, hlost, -⟩ := (s.live_iff d).mp hd
  obtain ⟨hlo, hhi⟩ := mem_cfgBlocks.mp hb
  have out : (s.die d).blockFenced (0xF000 + 16 * b) = false := by
    rw [Die.blockFenced, show (0xF000 + 16 * b) / 4096 = 15 by omega, hf, Bool.and_false]
  have written : s.writeOff (.firmware core) d (0x2000000 + 32 * (0xF000 + 16 * b) + 4) 1 =
      s.modDie d fun x => x.modCfg b fun c => { c with commitPend := true } := by
    rw [State.writeOff, if_neg (by simp [hlost, hlt]), State.ctlRuns, hd, if_neg (by decide), if_neg (by omega), aliasOf_commit hhi]
    refine (if_pos rfl).trans ((State.writeBit_cfgCtl s d hb 1 1 out).trans ?_)
    simp
  refine ⟨_, event_next (by simp [hlt, hb]) hd, ?_⟩
  rw [written]
  exact ⟨OtherDies.modDie s d _, rfl, by rw [State.die_modDie_same, Die.cfg_modCfg_same], by rw [State.die_modDie_same, Die.modCfg_pregs]⟩

theorem tget_map_keys {α : Type} (g : Nat → α) {l : List Nat} {off : Nat} (h : off ∈ l) (z : α) : tget (l.map fun o => (o, g o)) off z = g off := by
  rw [tget, tfind_map_keys, if_pos h]
  rfl

theorem exec_cfgCrcPass {s : State} {d b : Nat} (hd : s.live d = true) (hb : b ∈ cfgBlocks) :
    exec (.cfgCrcPass d b) s = .next (doCfgCrcPass d b s) :=
  event_next (by simp [((s.live_iff d).mp hd).2.1, hb]) hd

theorem commitTaken (s : State) (d b : Nat) (hd : s.live d = true) (hb : b ∈ cfgBlocks) (hc : ((s.die d).cfg b).commitPend = true) :
    Runs (.cfgCrcPass d b) s fun t => OtherDies s t d ∧ t.raised = s.raised ∧ (t.die d).pregs = (s.die d).pregs ∧
      ((t.die d).cfg b).ref = (s.die d).blockCrc b ∧ ((t.die d).cfg b).crc = (s.die d).blockCrc b ∧
      ((t.die d).cfg b).chkEn = true ∧ ((t.die d).cfg b).commitPend = false ∧
      ∀ off ∈ pwOffsets b, tget ((t.die d).cfg b).copy off 0 = ((s.die d).preg off).applied := by
  refine ⟨_, exec_cfgCrcPass hd hb, ?_⟩
  unfold doCfgCrcPass
  dsimp only
  rw [if_pos hc]
  refine ⟨(OtherDies.modDie s d _).trans (OtherDies.modDie _ d _), rfl, ?_⟩
  rw [State.die_modDie_same, State.die_modDie_same, Die.cfg_modCfg_same, Die.cfg_modCfg_same]
  exact ⟨rfl, rfl, rfl, rfl, rfl, fun off hoff => tget_map_keys (fun o => ((s.die d).preg o).applied) hoff 0⟩

theorem passAgrees (s : State) (d b : Nat) (hd : s.live d = true) (hb : b ∈ cfgBlocks) (hc : ((s.die d).cfg b).commitPend = false)
    (hok : ((s.die d).cfg b).chkEn = false ∨ (s.die d).blockCrc b = ((s.die d).cfg b).ref) :
    Runs (.cfgCrcPass d b) s fun t => OtherDies s t d ∧ t.raised = s.raised ∧ (t.die d).pregs = (s.die d).pregs ∧
      (t.die d).cfg b = { (s.die d).cfg b with crc := (s.die d).blockCrc b } := by
  have agrees : (((s.die d).cfg b).chkEn && (s.die d).blockCrc b != ((s.die d).cfg b).ref) = false := by
    rcases hok with h | h
    · rw [h, Bool.false_and]
    · rw [h, bne_self_eq_false, Bool.and_false]
  refine ⟨_, exec_cfgCrcPass hd hb, ?_⟩
  unfold doCfgCrcPass
  dsimp only
  rw [hc, if_neg Bool.false_ne_true, agrees, if_neg Bool.false_ne_true]
  exact ⟨OtherDies.modDie s d _, rfl, by rw [State.die_modDie_same, Die.modCfg_pregs], by rw [State.die_modDie_same, Die.cfg_modCfg_same, ← hc]⟩

/-- A register rewritten from a copy. -/
def State.restoreOne (copy : Tbl (BitVec 32)) (d : Nat) (s : State) (off : Nat) : State :=
  let v := tget copy off (BitVec.ofNat 32 (pwReset off))
  (s.modDie d fun x => x.setPreg off { x.preg off with
    applied := BitVec.ofNat 32 ((x.preg off).applied.toNat % 2 ^ 28 + bitsOf v.toNat 31 28 * 2 ^ 28) }).applyPw d off v.toNat

/-- The register holds the PW bits of the copy, and nothing is pending there. -/
def PReg.restored (r : PReg) (copy : Tbl (BitVec 32)) (off : Nat) : Prop :=
  r.pend = none ∧ ∀ i, i < 28 → bitAt ((pwMask off).getD 0) i = true →
    r.applied.getLsbD i = (tget copy off (BitVec.ofNat 32 (pwReset off))).getLsbD i

theorem State.restoreOne_facts (copy : Tbl (BitVec 32)) (d : Nat) (s : State) (off : Nat) : OtherDies s (State.restoreOne copy d s off) d ∧
    (((State.restoreOne copy d s off).die d).preg off).restored copy off ∧
    (∀ n, n ≠ off → ((State.restoreOne copy d s off).die d).preg n = (s.die d).preg n) ∧
    ((State.restoreOne copy d s off).die d).cfgs = (s.die d).cfgs := by
  unfold State.restoreOne
  dsimp only
  obtain ⟨other, own, rest, cfgs⟩ := State.applyPw_facts (s.modDie d fun x => x.setPreg off { x.preg off with
    applied := BitVec.ofNat 32 ((x.preg off).applied.toNat % 2 ^ 28 +
      bitsOf (tget copy off (BitVec.ofNat 32 (pwReset off))).toNat 31 28 * 2 ^ 28) }) d off (tget copy off (BitVec.ofNat 32 (pwReset off))).toNat
  refine ⟨(OtherDies.modDie s d _).trans other, ⟨?_, fun i hi hm => ?_⟩, fun n hn => ?_, ?_⟩
  · rw [own]
  · rw [own, BitVec.getLsbD_ofNat, decide_eq_true (hi.trans (by decide)), Bool.true_and, ← bitAt_eq_testBit, bitAt_pressedValue, if_pos hm,
      bitAt_toNat]
  · rw [rest n hn, State.die_modDie_same, Die.preg_setPreg_other _ _ hn]
  · rw [cfgs, State.die_modDie_same]
    rfl

theorem State.foldl_restoreOne (copy : Tbl (BitVec 32)) (d : Nat) (l : List Nat) (s : State) :
    OtherDies s (l.foldl (State.restoreOne copy d) s) d ∧
    (∀ off ∈ l, (((l.foldl (State.restoreOne copy d) s).die d).preg off).restored copy off) ∧
    ((l.foldl (State.restoreOne copy d) s).die d).cfgs = (s.die d).cfgs := by
  induction l using List.reverseRecOn with
  | nil => exact ⟨OtherDies.refl s d, by simp, rfl⟩
  | append_singleton l e ih =>
    obtain ⟨other, regs, cfgs⟩ := ih
    rw [List.foldl_append, List.foldl_cons, List.foldl_nil]
    obtain ⟨otherOne, own, rest, cfgsOne⟩ := State.restoreOne_facts copy d (l.foldl (State.restoreOne copy d) s) e
    refine ⟨other.trans otherOne, fun off hoff => ?_, cfgsOne.trans cfgs⟩
    by_cases he : off = e
    · exact he ▸ own
    · have mem : off ∈ l := by simpa [he] using hoff
      rw [rest off he]
      exact regs off mem

theorem State.restoreBlock_eq (s : State) (d b : Nat) :
    s.restoreBlock d b = (pwOffsets b).foldl (State.restoreOne ((s.die d).cfg b).copy d) s := rfl

/-- The first mismatch within a second, of a block other than the darner's: the block is rewritten from the copy, and it is reported. -/
theorem State.mismatch_first {s : State} {d b : Nat} (h3 : b ≠ 3) (hr : ((s.die d).cfg b).recent = none) :
    s.mismatch d b = (((s.modDie d fun x => x.modCfg b fun c =>
        { c with crcErr := true, recent := some (s.die d).led.cycN.toNat }).restoreBlock d b).modDie d fun x => x.modCfg b fun c =>
        { c with restored := true, commitPend := true }).emit (restoredEvent d b) := by
  unfold State.mismatch
  dsimp only
  rw [hr]
  exact (if_neg Bool.false_ne_true).trans (if_neg h3)

/-- An event raised is the last of those that wait. -/
theorem State.raised_emit (s : State) (e : Event) : ∃ t, (s.emit e).raised = s.raised ++ [{ e with time := t }] := by
  unfold State.emit
  split
  · exact ⟨_, rfl⟩
  · exact ⟨_, rfl⟩

theorem passDiffers (s : State) (d b : Nat) (hd : s.live d = true) (hb : b ∈ cfgBlocks) (h3 : b ≠ 3)
    (hc : ((s.die d).cfg b).commitPend = false) (hen : ((s.die d).cfg b).chkEn = true)
    (hcrc : (s.die d).blockCrc b ≠ ((s.die d).cfg b).ref) (hr : ((s.die d).cfg b).recent = none) :
    Runs (.cfgCrcPass d b) s fun t => OtherDies s t d ∧ ((t.die d).cfg b).crcErr = true ∧ ((t.die d).cfg b).restored = true ∧
      (∃ l v, t.raised = l ++ [v] ∧ v.code = 0x0052 ∧ v.die = d ∧ v.unit = b) ∧
      ∀ off ∈ pwOffsets b, ((t.die d).preg off).pend = none ∧ ∀ i, i < 28 → bitAt ((pwMask off).getD 0) i = true →
        ((t.die d).preg off).applied.getLsbD i =
          (tget ((s.die d).cfg b).copy off (BitVec.ofNat 32 (pwReset off))).getLsbD i := by
  have differs : (((s.die d).cfg b).chkEn && (s.die d).blockCrc b != ((s.die d).cfg b).ref) = true := by simp [hen, hcrc]
  refine ⟨_, exec_cfgCrcPass hd hb, ?_⟩
  unfold doCfgCrcPass
  dsimp only
  rw [hc, if_neg Bool.false_ne_true, if_pos differs]
  have recent : (((s.modDie d fun x => x.modCfg b fun c => { c with crc := (s.die d).blockCrc b }).die d).cfg b).recent = none := by
    rw [State.die_modDie_same, Die.cfg_modCfg_same, hr]
  rw [State.mismatch_first h3 recent]
  set u := (s.modDie d fun x => x.modCfg b fun c => { c with crc := (s.die d).blockCrc b }).modDie d fun x => x.modCfg b fun c =>
    { c with
      crcErr := true
      recent := some ((s.modDie d fun x => x.modCfg b fun c => { c with crc := (s.die d).blockCrc b }).die d).led.cycN.toNat } with hu
  have before : OtherDies s u d := (OtherDies.modDie s d _).trans (OtherDies.modDie _ d _)
  have cfgU : ((u.die d).cfg b).crcErr = true ∧ ((u.die d).cfg b).copy = ((s.die d).cfg b).copy := by
    rw [hu, State.die_modDie_same, State.die_modDie_same, Die.cfg_modCfg_same, Die.cfg_modCfg_same]
    exact ⟨rfl, rfl⟩
  clear_value u
  rw [State.restoreBlock_eq, cfgU.2]
  obtain ⟨other, regs, cfgs⟩ := State.foldl_restoreOne ((s.die d).cfg b).copy d (pwOffsets b) u
  generalize (pwOffsets b).foldl (State.restoreOne ((s.die d).cfg b).copy d) u = w at *
  have crcErr : ((w.die d).cfg b).crcErr = true := by rw [Die.cfg, cfgs, ← Die.cfg, cfgU.1]
  obtain ⟨time, raised⟩ := State.raised_emit (w.modDie d fun x => x.modCfg b fun c => { c with restored := true, commitPend := true })
    (restoredEvent d b)
  refine ⟨fun e he => (State.emit_die ..).trans (((before.trans other).trans (OtherDies.modDie w d _)) e he), ?_, ?_, ⟨_, _, raised, rfl, rfl, rfl⟩,
    fun off hoff => ?_⟩
  · rw [State.emit_die, State.die_modDie_same, Die.cfg_modCfg_same]
    exact crcErr
  · rw [State.emit_die, State.die_modDie_same, Die.cfg_modCfg_same]
  · rw [State.emit_die, State.die_modDie_same]
    exact regs off hoff

/-- Settles O41: writes, presses and cancels by firmware, and the passes of the configuration check. -/
theorem pressedWritesAndCheck : Obligations.PressedWritesAndCheck :=
  ⟨⟨pwWrite, pressGo, pressCancel⟩, commit, commitTaken, passAgrees, passDiffers⟩

end Sys2Proof.Machine
namespace Sys2Proof.Machine

/-! ## Which path may write (R400 to R403, R433) -/

theorem State.writeWord_cfg {s : State} {path : RegPath} {d b : Nat} (hb : b ∈ cfgBlocks) (v : Nat) (hf : (s.die d).isFenced 17 15 = false) :
    s.writeWord path d (0xF000 + 16 * b + 4) v = (s.modDie d fun x => x.modCfg b fun c => { c with ref := BitVec.ofNat 32 v }) ∧
    s.writeWord path d (0xF000 + 16 * b) v = (s.modDie d fun x => x.modCfg b fun c =>
      { c with chkEn := bitAt v 0, commitPend := c.commitPend || bitAt v 1 }) := by
  obtain ⟨hlo, hhi⟩ := mem_cfgBlocks.mp hb
  have block : (0xF000 + 16 * b) / 4096 = 15 ∧ (0xF000 + 16 * b) % 4096 / 16 = b ∧ (0xF000 + 16 * b) % 4096 % 16 = 0 ∧
    (0xF000 + 16 * b + 4) / 4096 = 15 ∧ (0xF000 + 16 * b + 4) % 4096 / 16 = b ∧ (0xF000 + 16 * b + 4) % 4096 % 16 = 4 := by omega
  obtain ⟨h1, h2, h3, h4, h5, h6⟩ := block
  have contains : cfgBlocks.contains b = true := by simpa using hb
  refine ⟨?_, ?_⟩ <;> unfold State.writeWord Die.blockFenced <;> dsimp only <;>
    rw [isQcb_below (by omega), if_neg Bool.false_ne_true]
  · rw [h4, hf, Bool.and_false, if_neg Bool.false_ne_true, if_neg (by omega), if_neg (by omega), h5, h6, if_neg (by omega),
      if_pos ⟨rfl, contains, rfl⟩]
  · rw [h1, hf, Bool.and_false, if_neg Bool.false_ne_true, if_neg (by omega), if_neg (by omega), h2, h3, if_pos ⟨rfl, contains, rfl⟩]

/-- A write by firmware of the die that has its effect. -/
theorem exec_registerWrite {s : State} {core d : Nat} {off v : BitVec 32} (hd : s.live d = true) :
    exec (.registerWrite (.firmware core) d off v) s = .next (s.writeOff (.firmware core) d off.toNat v.toNat) :=
  event_next (by simp [((s.live_iff d).mp hd).2.1]) hd

theorem cfgWrites (s : State) (core d b : Nat) (v : BitVec 32) (hd : s.live d = true) (hb : b ∈ cfgBlocks) (hf : (s.die d).isFenced 17 15 = false) :
    (Runs (.registerWrite (.firmware core) d (BitVec.ofNat 32 (0xF000 + 16 * b + 4)) v) s fun t => OtherDies s t d ∧
      t.queues = s.queues ∧ (t.die d).cfg b = { (s.die d).cfg b with ref := v } ∧ (t.die d).pregs = (s.die d).pregs) ∧
    Runs (.registerWrite (.firmware core) d (BitVec.ofNat 32 (0xF000 + 16 * b)) v) s fun t => OtherDies s t d ∧
      ((t.die d).cfg b).chkEn = v.getLsbD 0 ∧
      ((t.die d).cfg b).commitPend = (((s.die d).cfg b).commitPend || v.getLsbD 1) ∧
      ((t.die d).cfg b).ref = ((s.die d).cfg b).ref := by
  obtain ⟨hlo, hhi⟩ := mem_cfgBlocks.mp hb
  obtain ⟨ref, ctl⟩ := State.writeWord_cfg (path := .firmware core) hb v.toNat hf
  have off (n : Nat) (hn : n < 0x100000) : (BitVec.ofNat 32 n).toNat = n := Nat.mod_eq_of_lt (hn.trans (by decide))
  refine ⟨⟨_, exec_registerWrite hd, ?_⟩, ⟨_, exec_registerWrite hd, ?_⟩⟩
  · rw [off _ (by omega), State.writeOff_firmware core _ hd (by omega) (by omega), ref]
    refine ⟨OtherDies.modDie s d _, rfl, ?_, ?_⟩
    · rw [State.die_modDie_same, Die.cfg_modCfg_same, BitVec.ofNat_toNat, BitVec.setWidth_eq]
    · rw [State.die_modDie_same, Die.modCfg_pregs]
  · rw [off _ (by omega), State.writeOff_firmware core _ hd (by omega) (by omega), ctl]
    refine ⟨OtherDies.modDie s d _, ?_⟩
    rw [State.die_modDie_same, Die.cfg_modCfg_same]
    exact ⟨bitAt_toNat v 0, congrArg (_ || ·) (bitAt_toNat v 1), rfl⟩

theorem misalignedWrite (s : State) (core d : Nat) (off v : BitVec 32) (hd : s.live d = true) (h4 : off.toNat % 4 ≠ 0) :
    Runs (.registerWrite (.firmware core) d off v) s fun t => t = s := by
  obtain ⟨-, hlt, hlost, -⟩ := (s.live_iff d).mp hd
  refine ⟨_, exec_registerWrite hd, ?_⟩
  rw [State.writeOff, if_neg (by simp [hlost, hlt]), State.ctlRuns, hd, if_neg (by decide), if_pos h4]
  rfl

/-- A write on the sideband of an aligned word of a die whose controller runs. -/
theorem State.writeOff_sideband {s : State} {d off : Nat} (v : Nat) (hd : s.live d = true) (h4 : off % 4 = 0) (ho : off < 0x100000) :
    s.writeOff .sideband d off v = if s.mayWrite .sideband d off v none then (s.writeWord .sideband d off v).sideReply [0] else s.sideReply [1] := by
  obtain ⟨-, hlt, hlost, -⟩ := (s.live_iff d).mp hd
  rw [State.writeOff, if_neg (by simp [hlost, hlt]), State.ctlRuns, hd, if_neg (by decide), if_neg (by omega), aliasOf_below (by omega)]
  exact if_neg (by omega)

theorem sidebandWrites (s : State) (a v : BitVec 32) (d off : Nat) (hda : d = a.toNat / 2 ^ 26) (hoa : off = a.toNat % 2 ^ 26)
    (hd : s.live d = true) (h4 : off % 4 = 0) (ho : off < 0x100000) (h20 : off ≠ 0x20) (h24 : off ≠ 0x24) (h50 : off ≠ 0xF050) :
    (s.unlocked d = false → sideFelt off v.toNat = false →
      Runs (.regWrite a v) s fun t => t.psi.sideband.resp = [1] ∧ t.dies = s.dies ∧ t.queues = s.queues) ∧
    (∀ m, (s.unlocked d = true ∨ sideFelt off v.toNat = true) → pwMask off = some m →
      (s.die d).blockFenced off = false →
      Runs (.regWrite a v) s fun t => t.psi.sideband.resp = [0] ∧
        ((t.die d).preg off).pend = some (BitVec.ofNat 32 (Nat.land v.toNat m))) := by
  have on : s.sideOn = true := by
    have run := ((s.live_iff d).mp hd).1
    simp only [State.running, beq_iff_eq] at run
    simp [State.sideOn, run]
  have written : exec (.regWrite a v) s = .next (s.writeOff .sideband d off v.toNat) := by
    rw [hda, hoa]
    exact event_next rfl on
  refine ⟨fun hu hf => ⟨_, written, ?_⟩, fun m hopen hm hf => ⟨_, written, ?_⟩⟩ <;> rw [State.writeOff_sideband _ hd h4 ho]
  · have refused : s.mayWrite .sideband d off v.toNat none = false := by simp [State.mayWrite, hu, hf, h20, h24, h50]
    rw [refused]
    exact ⟨rfl, rfl, rfl⟩
  · have done : s.mayWrite .sideband d off v.toNat none = true := by
      rcases hopen with hu | hs
      · simp [State.mayWrite, hu]
      · simp [State.mayWrite, hs]
    rw [done]
    obtain ⟨u, -, set, kept⟩ := State.writeWord_pw (path := .sideband) v.toNat hm hf
    refine ⟨rfl, ?_⟩
    have die : ((s.writeWord .sideband d off v.toNat).sideReply [0]).die d = (s.writeWord .sideband d off v.toNat).die d := rfl
    rw [if_pos rfl, die, Die.preg_of_confs kept.confs, set, Die.preg_setPreg_same]

theorem hostWrites (s : State) (f d : Nat) (off v : BitVec 32) (hr : s.running = true) (hh : s.hostReaches f = true) (hd : s.live d = true)
    (ho : off.toNat < 0x80000) : Runs (.registerWrite (.host f) d off v) s fun t => t = s := by
  obtain ⟨-, hlt, hlost, -⟩ := (s.live_iff d).mp hd
  have path : s.pathOn (.host f) d = true := by simp [State.pathOn, hr, hh]
  refine ⟨_, event_next (by simp [hlt]) path, ?_⟩
  rw [State.writeOff, if_neg (by simp [hlost, hlt]), State.ctlRuns, hd, if_neg (by decide), aliasOf_below (by omega)]
  split
  · rfl
  · refine (if_neg (by omega)).trans (if_neg ?_)
    simp [State.mayWrite, isQcb_below ho]

/-- Settles O42: firmware's, the sideband's and the host's writes. -/
theorem writesAndTheirPaths : Obligations.WritesAndTheirPaths :=
  ⟨cfgWrites, misalignedWrite, sidebandWrites, hostWrites⟩

end Sys2Proof.Machine

namespace Sys2Proof.Machine

/-! ## What fences, lost contexts and isolation leave alone (R23, R207, R446)

A unit that fails its test is fenced; with it contexts, channels or a region may be lost. `Beside` says what such an operation of one
die leaves: the other dies, the tests of its own, the units fenced before, and every packet that waits for something else. -/

/-- No packet that waits on a knot or in a region of the die can be confused with `p`. -/
structure Die.Clear (x : Die) (p : Pkt) : Prop where
  hosts    : ∀ k, ∀ w ∈ (x.knot k).hosts, Apart p w.1
  sessions : ∀ r q, (x.fabric r).session = some q → Apart p q.pkt
  acts     : ∀ r, ∀ k ∈ (x.fabric r).acts, Apart p k.pkt
  copies   : ∀ r k, (x.fabric r).copying = some k → Apart p k.pkt

theorem Alone.clear {s : State} {p : Pkt} (h : Alone s p) (d : Nat) : (s.die d).Clear p :=
  ⟨h.hosts d, h.sessions d, h.acts d, h.copies d⟩

theorem alone_of_clear {s : State} {p : Pkt} (h : ∀ d, (s.die d).Clear p) : Alone s p :=
  ⟨fun d => (h d).hosts, fun d => (h d).sessions, fun d => (h d).acts, fun d => (h d).copies⟩

/-! ### The state of a channel (R349) -/

/-- The state of a channel, of the two its controller has. -/
def MC.state (m : MC) (c : Nat) : ChState := if c < 64 ∧ c % 2 = 1 then m.ch1 else m.ch0

/-- A controller with the state of a channel set. -/
def MC.setState (m : MC) (c : Nat) (st : ChState) : MC := if c < 64 ∧ c % 2 = 1 then { m with ch1 := st } else { m with ch0 := st }

theorem MC.state_setState_same (m : MC) (c : Nat) (st : ChState) : (m.setState c st).state c = st := by
  by_cases h : c < 64 ∧ c % 2 = 1 <;> simp [MC.state, MC.setState, h]

theorem MC.state_setState_other (m : MC) {c e : Nat} (st : ChState) (hm : chanMC e = chanMC c) (h : e ≠ c) :
    (m.setState c st).state e = m.state e := by
  have parts : (e < 64 ∧ e % 2 = 1) ↔ ¬ (c < 64 ∧ c % 2 = 1) := by
    simp only [chanMC] at hm
    split at hm <;> split at hm <;> omega
  by_cases hc : c < 64 ∧ c % 2 = 1
  · have he := parts.not.mpr (not_not.mpr hc)
    simp only [MC.state, MC.setState, hc, he, if_true, if_false, and_self]
  · have he := parts.mpr hc
    simp only [MC.state, MC.setState, hc, he, if_true, if_false, and_self]

theorem Die.setChan_eq (x : Die) (c : Nat) (st : ChState) : x.setChan c st = x.modMC (chanMC c) fun m => m.setState c st := rfl

theorem Die.chanState_eq (x : Die) (c : Nat) : x.chanState c = (x.mc (chanMC c)).state c := rfl

@[simp] theorem Die.chanState_setChan_same (x : Die) (c : Nat) (st : ChState) : (x.setChan c st).chanState c = st := by
  rw [Die.setChan_eq, Die.chanState_eq, Die.mc_modMC_same, MC.state_setState_same]

theorem Die.chanState_setChan_other (x : Die) {c e : Nat} (st : ChState) (h : e ≠ c) : (x.setChan c st).chanState e = x.chanState e := by
  rw [Die.setChan_eq, Die.chanState_eq, Die.chanState_eq]
  by_cases hm : chanMC e = chanMC c
  · rw [hm, Die.mc_modMC_same, MC.state_setState_other _ _ hm h]
  · rw [Die.mc_modMC_other _ _ hm]

theorem Die.chanState_of_mcs {x y : Die} (h : y.mcs = x.mcs) (c : Nat) : y.chanState c = x.chanState c := by
  rw [Die.chanState_eq, Die.mc, h, Die.chanState_eq, Die.mc]

/-! ### What stays -/

/-- Of a die: its tests, the packets that wait on its knots, its fences, its fabrics, its part in an epoch switch and its memory
controllers. -/
def Die.seen (x : Die) := (x.tests, (fun k => (x.knot k).hosts), x.fenced, x.fabrics, (x.switching, x.epoch), x.mcs)

/-- What the operations of this section leave of their die. -/
structure Die.Stays (x y : Die) : Prop where
  tests  : y.tests = x.tests
  fenced : ∀ k u, x.isFenced k u = true → y.isFenced k u = true
  clear  : ∀ p, x.Clear p → y.Clear p
  epoch  : (y.switching, y.epoch) = (x.switching, x.epoch)
  lost   : ∀ c, x.chanState c = .lost → y.chanState c = .lost

theorem Die.Stays.refl (x : Die) : x.Stays x := ⟨rfl, fun _ _ h => h, fun _ h => h, rfl, fun _ h => h⟩

theorem Die.Stays.trans {x y z : Die} (h : x.Stays y) (g : y.Stays z) : x.Stays z :=
  ⟨g.tests.trans h.tests, fun k u hf => g.fenced k u (h.fenced k u hf), fun p hp => g.clear p (h.clear p hp),
    g.epoch.trans h.epoch, fun c hc => g.lost c (h.lost c hc)⟩

theorem Die.Stays.of_seen {x y : Die} (h : y.seen = x.seen) : x.Stays y := by
  have hosts (k : Nat) : (y.knot k).hosts = (x.knot k).hosts := congrFun (congrArg (fun n => n.2.1) h) k
  have fenced : y.fenced = x.fenced := congrArg (fun n => n.2.2.1) h
  have fabrics : y.fabrics = x.fabrics := congrArg (fun n => n.2.2.2.1) h
  have fabric (r : Nat) : y.fabric r = x.fabric r := by rw [Die.fabric, fabrics, Die.fabric]
  refine ⟨congrArg Prod.fst h, fun k u hf => by rwa [Die.isFenced, fenced], fun p hp => ⟨?_, ?_, ?_, ?_⟩,
    congrArg (fun n => n.2.2.2.2.1) h,
    fun c hc => (Die.chanState_of_mcs (congrArg (fun n => n.2.2.2.2.2) h) c).trans hc⟩
  · simpa only [hosts] using hp.hosts
  · simpa only [fabric] using hp.sessions
  · simpa only [fabric] using hp.acts
  · simpa only [fabric] using hp.copies

/-- What an operation of die `d` leaves that answers no packet but those that wait there. -/
structure Beside (d : Nat) (s t : State) : Prop where
  other  : OtherDies s t d
  die    : (s.die d).Stays (t.die d)
  stands : ∀ p l, Alone s p → (s.queue p.queue).Stands p l → (t.queue p.queue).Stands p l

section
variable {d : Nat} {s t u : State}

theorem Beside.alone (h : Beside d s t) {p : Pkt} (hp : Alone s p) : Alone t p :=
  alone_of_clear fun e => by
    by_cases he : e = d
    · exact he ▸ h.die.clear p (hp.clear d)
    · exact (h.other e he) ▸ hp.clear e

theorem Beside.refl (d : Nat) (s : State) : Beside d s s := ⟨OtherDies.refl s d, Die.Stays.refl _, fun _ _ _ h => h⟩

theorem Beside.trans (h : Beside d s t) (g : Beside d t u) : Beside d s u :=
  ⟨h.other.trans g.other, h.die.trans g.die, fun p l hp hs => g.stands p l (h.alone hp) (h.stands p l hp hs)⟩

theorem Beside.foldl {α : Type} {f : State → α → State} (h : ∀ s a, Beside d s (f s a)) (l : List α) (s : State) :
    Beside d s (l.foldl f s) :=
  List.foldlRecOn (motive := fun t => Beside d s t) l f (Beside.refl d s) fun t ht a _ => ht.trans (h t a)

/-- An operation that writes no queue. -/
theorem Beside.of_queues (other : OtherDies s t d) (die : (s.die d).Stays (t.die d)) (queues : t.queues = s.queues) : Beside d s t :=
  ⟨other, die, fun _ _ _ h => h.of_queues queues⟩

theorem Beside.of_dies (die : ∀ e, t.die e = s.die e) (queues : t.queues = s.queues) : Beside d s t :=
  .of_queues (fun e _ => die e) (die d ▸ Die.Stays.refl _) queues

theorem Beside.modDie (s : State) (d : Nat) {f : Die → Die} (h : (s.die d).Stays (f (s.die d))) : Beside d s (s.modDie d f) :=
  .of_queues (OtherDies.modDie s d f) (by rwa [State.die_modDie_same]) rfl

theorem Beside.modDie_seen (s : State) (d : Nat) {f : Die → Die} (h : ∀ x, (f x).seen = x.seen) : Beside d s (s.modDie d f) :=
  .modDie s d (.of_seen (h _))

theorem Beside.emit (s : State) (d : Nat) (e : Event) : Beside d s (s.emit e) :=
  .of_dies (State.emit_die s e) (s.emit_frame e).2.2.1

end

/-! ### Replies to packets that wait -/

theorem Queue.Stands.finish {s : State} {p k : Pkt} {l : List Reply} (h : (s.queue p.queue).Stands p l) (hk : Apart p k) (code : Nat)
    (st : Status) (det : Nat) (a b : List Byte) : ((s.finish code k st det a b).queue p.queue).Stands p l := by
  unfold State.finish State.finishMany
  dsimp only
  split
  · exact h.complete hk
  · exact (h.complete hk).addReplies ..

/-- Packets that wait are answered one after another. -/
theorem Queue.Stands.foldl {α : Type} {p : Pkt} {l : List Reply} {f : State → α → State} {as : List α}
    (h : ∀ s, ∀ a ∈ as, (State.queue s p.queue).Stands p l → ((f s a).queue p.queue).Stands p l) {s : State}
    (hs : (s.queue p.queue).Stands p l) : ((as.foldl f s).queue p.queue).Stands p l :=
  List.foldlRecOn (motive := fun t => (State.queue t p.queue).Stands p l) as f hs fun t ht a ha => h t a ha ht

/-! ### Operations of a die -/

theorem Die.count_seen (x : Die) (c : Ctr) (u n : Nat) : (x.count c u n).seen = x.seen := by
  rw [Die.count_only]
  rfl

theorem Die.countRT_seen (x : Die) (c : Ctr) (k n : Nat) : (x.countRT c k n).seen = x.seen := by
  unfold Die.countRT Die.countAt
  dsimp only
  split <;> split <;> rfl

theorem Die.modCtx_seen (x : Die) (c : Nat) (f : Ctx → Ctx) : (x.modCtx c f).seen = x.seen := by
  unfold Die.modCtx
  split <;> rfl

theorem Die.unwait_seen (x : Die) (c : Nat) : (x.unwait c).seen = x.seen := by
  have hosts (k : Nat) : ((x.unwait c).knot k).hosts = (x.knot k).hosts := by
    unfold Die.unwait Die.knot tget
    dsimp only
    rw [tfind_tmapv]
    cases tfind x.knots k <;> rfl
  unfold Die.seen
  simp only [hosts]
  rfl

theorem Die.cancelCopy_seen (x : Die) (h : Nat) : (x.cancelCopy h).seen = x.seen := by
  unfold Die.cancelCopy
  split <;> rfl

theorem Die.cancelRegion_seen (x : Die) (r : Nat) : (x.cancelRegion r).seen = x.seen :=
  foldl_keeps Die.seen (fun (c : Copy) _ x => x.cancelCopy_seen c.handle) x

theorem Die.cancelDst_seen (x : Die) (c : Nat) : (x.cancelDst c).seen = x.seen :=
  foldl_keeps Die.seen (fun (k : Copy) _ x => x.cancelCopy_seen k.handle) x

theorem Die.answerFenced_seen (x : Die) (d w : Nat) : (x.answerFenced d w).seen = x.seen := Die.count_seen ..

theorem Die.modTSlot_seen (x : Die) (m slot : Nat) (f : TSlot → TSlot) : (x.modTSlot m slot f).seen = x.seen := by
  unfold Die.modTSlot
  split <;> rfl

theorem Die.putTransit_seen (x : Die) (th : Nat) (h : Thread) (p r : Nat) (t : TEntry) : (x.putTransit th h p r t).seen = x.seen := by
  have held (y : Die) (r : Nat) : (y.modRegion r Region.reach).seen = y.seen := rfl
  unfold Die.putTransit
  dsimp only
  rw [held]
  split
  · exact Die.countRT_seen ..
  · rfl

theorem Die.pumpOne_seen (x : Die) (th p : Nat) : (x.pumpOne th p).seen = x.seen := by
  unfold Die.pumpOne
  repeat' split
  case isTrue => exact (Die.count_seen ..).trans (Die.putTransit_seen ..)
  all_goals rfl

theorem Die.pump_seen (x : Die) (th : Nat) : (x.pump th).seen = x.seen :=
  foldl_keeps Die.seen (fun p _ x => x.pumpOne_seen th p) x

theorem Die.gapSlot_seen (x : Die) (e : Nat × Nat) : (x.gapSlot e).seen = x.seen := by
  unfold Die.gapSlot
  split
  · rfl
  · split
    · rfl
    · exact Die.pump_seen ..

theorem Die.cutThread_seen (x : Die) (th : Nat) : (x.cutThread th).seen = x.seen := by
  unfold Die.cutThread
  split
  · rfl
  · extract_lets down atDown held lost x1
    have cut : x1.seen = x.seen := foldl_keeps Die.seen (fun e _ y => y.modTSlot_seen e.1 e.2 _) _
    split
    · exact (foldl_keeps Die.seen (fun e _ y => y.gapSlot_seen e) x1).trans cut
    · exact cut

theorem Die.cutThreads_seen (x : Die) : x.cutThreads.seen = x.seen :=
  foldl_keeps Die.seen (fun th _ x => x.cutThread_seen th) x

theorem Die.detachSlot_seen (x : Die) (m slot : Nat) : (x.detachSlot m slot).seen = x.seen := by
  unfold Die.detachSlot
  split
  · rfl
  · exact Die.pump_seen ..

theorem Die.detachArray_seen (x : Die) (m : Nat) : (x.detachArray m).seen = x.seen :=
  foldl_keeps Die.seen (fun k _ x => x.detachSlot_seen m k) x

end Sys2Proof.Machine
namespace Sys2Proof.Machine

/-! ### Fabrics that close (R254, R289) -/

/-- No packet waits in the fabric `g` that did not wait in `f`. -/
structure Fabric.Fewer (f g : Fabric) : Prop where
  session : g.session = none ∨ g.session = f.session
  acts    : g.acts ⊆ f.acts
  copying : g.copying = none ∨ g.copying = f.copying

theorem Fabric.Fewer.same {f g : Fabric} (hs : g.session = f.session) (ha : g.acts = f.acts) (hc : g.copying = f.copying) : f.Fewer g :=
  ⟨.inr hs, ha ▸ List.Subset.refl _, .inr hc⟩

theorem Die.Stays.modFabric (x : Die) (r : Nat) {f : Fabric → Fabric} (h : (x.fabric r).Fewer (f (x.fabric r))) : x.Stays (x.modFabric r f) := by
  have fewer (q : Nat) : (x.fabric q).Fewer ((x.modFabric r f).fabric q) := by
    by_cases hq : q = r
    · rw [hq, Die.fabric_modFabric_same]
      exact h
    · rw [Die.fabric_modFabric_other _ _ hq]
      exact .same rfl rfl rfl
  refine ⟨rfl, fun _ _ hf => hf, fun p hp => ⟨hp.hosts, fun q z hz => ?_, fun q k hk => hp.acts q k ((fewer q).acts hk), fun q k hk => ?_⟩,
    rfl, fun _ h => h⟩
  · rcases (fewer q).session with hn | hs
    · rw [hn] at hz
      cases hz
    · exact hp.sessions q z (hs ▸ hz)
  · rcases (fewer q).copying with hn | hs
    · rw [hn] at hk
      cases hk
    · exact hp.copies q k (hs ▸ hk)

theorem Die.flushPort_seen (ring : Nat) : ∀ (n : Nat) (l : List (BitVec 512)) (x : Die), (x.flushPort ring n l).1.seen = x.seen
  | _, [], _ => by simp [Die.flushPort]
  | 0, _ :: _, _ => by simp [Die.flushPort]
  | n + 1, u :: l, x => by
    unfold Die.flushPort
    split
    · rfl
    · exact Die.flushPort_seen ring n l (x.ringPush ring u)

theorem Die.Stays.foldl {α : Type} {f : Die → α → Die} (h : ∀ (x : Die) (a : α), x.Stays (f x a)) (l : List α) (x : Die) :
    x.Stays (l.foldl f x) :=
  List.foldlRecOn (motive := fun y => x.Stays y) l f (.refl x) fun y hy a _ => hy.trans (h y a)

theorem Die.stays_closePorts (x : Die) (r : Nat) : x.Stays (x.closePorts r) := by
  unfold Die.closePorts
  extract_lets f cut readers x1 one x2
  have read : x1.seen = x.seen :=
    (foldl_keeps Die.seen (fun (b : Nat × PortBind) _ y => (rfl : (y.modRing b.2.ring _).seen = y.seen)) _).trans (x.count_seen tpCallDrop r cut)
  have written (y : Die) (n : Nat) : y.Stays (one y n) :=
    (Die.Stays.of_seen (Die.flushPort_seen _ _ _ y)).trans (.modFabric _ r (.same rfl rfl rfl))
  have lost : (x1.staggerLost r).seen = x1.seen := rfl
  clear_value x1 one
  exact ((Die.Stays.of_seen (lost.trans read)).trans (.foldl written _ _)).trans (.modFabric x2 r (.same rfl rfl rfl))

theorem Die.stays_unconfigure (x : Die) (d r : Nat) : x.Stays (x.unconfigure d r) := by
  unfold Die.unconfigure
  refine (x.stays_closePorts r).trans ?_
  generalize x.closePorts r = y
  refine Die.Stays.trans (y := y.modFabric r fun f => { f.stop with
    st := .unconfigured, tenant := 0xFF, session := none, binds := [], noRead := false, digest := 0 }) ?_ (.of_seen rfl)
  exact .modFabric y r ⟨.inl rfl, List.nil_subset _, .inl rfl⟩

/-! ### Contexts, descriptors and knots -/

section
variable (s : State) (d : Nat)

theorem State.modCtx_beside (c : Nat) (f : Ctx → Ctx) : Beside d s (s.modCtx d c f) := .modDie_seen s d fun x => x.modCtx_seen c f

theorem State.writeRec_beside (c : Nat) (r : CRec) : Beside d s (s.writeRec d c r) := s.modCtx_beside d c _

theorem State.failServed_beside (c : Nat) (st : Status) (only : Option Nat) : Beside d s (s.failServed d c st only) := by
  unfold State.failServed
  split
  · exact .refl d s
  · split
    · exact .refl d s
    · exact .of_dies (fun _ => rfl) rfl

theorem State.drained_beside (c : Nat) (l : List CRec) : Beside d s (s.drained d c l) := by
  unfold State.drained
  split
  · exact .refl d s
  · split
    · exact .refl d s
    · exact .of_dies (fun _ => rfl) rfl

theorem State.endCtx_beside (c : Nat) (st : Status) : Beside d s (s.endCtx d c st) := by
  unfold State.endCtx
  split
  · exact .refl d s
  next k _ =>
    have drained := s.drained_beside d c (k.ring ++ k.ringWait)
    dsimp only
    refine Beside.trans ?_ (State.modCtx_beside _ d c _)
    split
    · exact drained
    · split
      · exact drained
      · exact drained.trans (.of_dies (fun _ => rfl) rfl)

theorem State.endDesc_beside (c : Nat) (desc : BitVec 512) (st : Status) (fp : Nat) (checked : Bool) (only : Option Nat) :
    Beside d s (s.endDesc d c desc st fp checked only) := by
  unfold State.endDesc
  extract_lets s1 s2 own
  have h1 : Beside d s s1 := s.writeRec_beside d c _
  have h2 : Beside d s s2 := by
    unfold s2
    split
    · exact h1
    · exact h1.trans (s1.failServed_beside d c st only)
  split
  · exact h2.trans (.modDie_seen _ d fun _ => rfl)
  · exact h2

theorem State.haltOn_beside (k : TileKind) (t : Nat) (st : Status) : Beside d s (s.haltOn d k t st) := by
  unfold State.haltOn
  split
  · exact .refl d s
  · refine Beside.trans ?_ (State.modCtx_beside ..)
    exact .modDie_seen s d fun _ => rfl

theorem State.orphan_beside (c : Nat) (st : Status) : Beside d s (s.orphan d c st) := by
  unfold State.orphan
  split
  · exact .refl d s
  · split
    · split
      · exact (s.haltOn_beside d _ _ st).trans (State.writeRec_beside ..)
      · exact ((s.writeRec_beside d c _).trans ((State.endCtx_beside ..).trans (State.modCtx_beside ..))).trans (.modDie_seen _ d fun _ => rfl)
    · exact (s.modCtx_beside d c _).trans (State.writeRec_beside ..)
    all_goals exact .refl d s

theorem OnlyReplies.foldl_finish {α : Type} (code : α → Nat) (k : α → Pkt) (st : Status) (det : Nat) (l : List α) (s : State) :
    OnlyReplies s (l.foldl (fun s a => s.finish (code a) (k a) st det [] []) s) :=
  List.foldlRecOn (motive := fun t => OnlyReplies s t) l _ (State.onlyReplies_refl s) fun _ ht _ _ =>
    State.onlyReplies_trans ht (State.onlyReplies_finish ..)

/-- The knot's waiters are answered; every other packet stands. -/
theorem State.untieOne_beside (k : Nat) : Beside d s (s.untieOne d k).1 := by
  unfold State.untieOne
  extract_lets kn s1 s2
  have replies : OnlyReplies s1 s2 := OnlyReplies.foldl_finish (fun _ => 0x0503) (fun w : Pkt × BitVec 64 => w.1) ..
  have die : s1.die d = ((s.die d).modKnot k fun kn => { kn with tied := false, waits := [], hosts := [] }).count knOwnerLost 0
      (kn.waits.length + kn.hosts.length) := State.die_modDie_same ..
  have untied : (s.die d).Stays ((s.die d).modKnot k fun kn => { kn with tied := false, waits := [], hosts := [] }) := by
    refine ⟨rfl, fun _ _ h => h, fun p hp => ⟨fun j w hw => ?_, hp.sessions, hp.acts, hp.copies⟩, rfl, fun _ h => h⟩
    by_cases hj : j = k
    · rw [hj, Die.knot_modKnot_same] at hw
      cases hw
    · rw [Die.knot_modKnot_other _ _ hj] at hw
      exact hp.hosts j w hw
  have answered : Beside d s s2 := by
    refine ⟨(OtherDies.modDie s d _).trans fun e _ => replies.die e, ?_, fun p l hp hs => ?_⟩
    · rw [replies.die, die]
      exact untied.trans (.of_seen (Die.count_seen ..))
    · exact Queue.Stands.foldl (fun u w hw hu => hu.finish (hp.hosts d k w hw) ..) (hs.of_queues (t := s1) rfl)
  exact answered.trans (.foldl (fun u (w : Nat × BitVec 64) => u.orphan_beside d w.1 .ownerLost) _ _)

end

theorem State.unwind_beside (d : Nat) : ∀ (n : Nat) (l : List Nat) (s : State), Beside d s (State.unwind d n l s)
  | 0, _, s => by simpa [State.unwind] using Beside.refl d s
  | _ + 1, [], s => by simpa [State.unwind] using Beside.refl d s
  | n + 1, c :: r, s => by
    unfold State.unwind
    refine Beside.trans ?_ (State.unwind_beside d n _ _)
    exact List.foldlRecOn (motive := fun p : State × List Nat => Beside d s p.1) _ _ (Beside.refl d s) fun p hp k _ =>
      hp.trans (p.1.untieOne_beside d k)

section
variable (s : State) (d : Nat)

theorem State.failCtx_beside (c : Nat) (st : Status) : Beside d s (s.failCtx d c st) := by
  refine Beside.trans ?_ (State.unwind_beside ..)
  refine ((s.endCtx_beside d c st).trans (State.modCtx_beside ..)).trans (.modDie_seen _ d fun x => ?_)
  split
  · exact Die.unwait_seen x c
  · rfl

theorem State.failOn_beside (k : TileKind) (t : Nat) (st : Status) : Beside d s (s.failOn d k t st) := by
  unfold State.failOn
  split
  · exact .refl d s
  · refine Beside.trans ?_ (State.failCtx_beside ..)
    exact .modDie_seen s d fun _ => rfl

theorem State.destroyCtx_beside (c : Nat) (st : Status) : Beside d s (s.destroyCtx d c st) := by
  unfold State.destroyCtx
  split
  · exact .refl d s
  · refine Beside.trans ?_ (State.unwind_beside ..)
    refine (s.endCtx_beside d c st).trans (.modDie_seen _ d fun x => ?_)
    dsimp only
    rw [← Die.unwait_seen x c]
    generalize x.unwait c = y
    split <;> rfl

theorem State.endArray_beside (t arr : Nat) (st : Status) : Beside d s (s.endArray d t arr st) := by
  unfold State.endArray
  refine Beside.trans ?_ (.modDie_seen _ d fun _ => rfl)
  exact ((Beside.foldl (fun u (r : Run) => u.endDesc_beside d r.ctx r.desc ..) _ s).trans
    (.foldl (fun u (a : Att) => u.endDesc_beside d a.ctx a.desc ..) _ _)).trans
    (.foldl (fun u (e : BitVec 512 × Nat) => u.endDesc_beside d e.2 e.1 ..) _ _)

/-! ### Fences -/

theorem State.fence_beside (kind unit cause : Nat) (region : Option Nat) : Beside d s (s.fence d kind unit cause region) := by
  obtain ⟨other, f, own⟩ := s.fence_frame d kind unit cause region
  refine ⟨other, ⟨by rw [own], fun k u hf => ?_, fun p hp => ?_, by rw [own], by rw [own]; exact fun _ h => h⟩, fun _ _ _ h => h.of_queues ?_⟩
  · rw [State.fence_isFenced, hf, Bool.true_or]
  · rw [own]
    exact ⟨hp.hosts, hp.sessions, hp.acts, hp.copies⟩
  · unfold State.fence
    dsimp only
    split
    · rfl
    · rw [apply_ite State.queues, (State.emit_frame ..).2.2.1]
      exact ite_self _

theorem State.fenceTile_beside (k : TileKind) (t cause : Nat) : Beside d s (s.fenceTile d k t cause) := by
  unfold State.fenceTile
  extract_lets s0 s1
  have h0 : Beside d s s0 := by
    unfold s0
    cases k with
    | vector => exact .refl d s
    | matrix => exact (s.endArray_beside d t 0 _).trans (State.endArray_beside ..)
  have h1 : Beside d s s1 := by
    refine h0.trans ((s0.fence_beside d (tileUnit k) t cause (some (tileRegion k t))).trans (Beside.trans ?_ (State.failOn_beside ..)))
    exact .modDie_seen _ d fun _ => rfl
  cases k with
  | vector => exact h1
  | matrix => exact h1.trans (.modDie_seen s1 d fun x => (Die.detachArray_seen ..).trans (x.detachArray_seen _))

theorem State.fenceArray_beside (a : AAt) (cause : Nat) : Beside a.die s (s.fenceArray a cause) := by
  unfold State.fenceArray
  extract_lets s1 s2
  have failed : Beside a.die s1 (s1.modArray a fun r => r.fail .unitFenced) := .modDie_seen s1 a.die fun _ => rfl
  have detached : Beside a.die (s1.modArray a fun r => r.fail .unitFenced) s2 := .modDie_seen _ a.die fun x => x.detachArray_seen _
  have h2 : Beside a.die s s2 := (s.fence_beside a.die 2 (arrNo a) cause _).trans (failed.trans detached)
  split
  · exact h2.trans (State.fenceTile_beside ..)
  · exact h2

theorem State.depart_beside (p : Nat) (left : LState) : Beside d s (s.depart d p left) := by
  refine Beside.trans ?_ (Beside.emit ..)
  exact .modDie_seen s d fun x => (Die.count_seen ..).trans rfl

theorem State.linkDown_beside (p : Nat) : Beside d s (s.linkDown d p) := by
  have down : Beside d s (s.modDie d fun x => x.modFelt p Felt.goDown) := .modDie_seen s d fun _ => rfl
  unfold State.linkDown
  dsimp only
  split
  · exact .refl d s
  · split
    · exact down.trans (State.depart_beside ..)
    · split
      · exact down.trans (State.depart_beside ..)
      · exact down

theorem State.linkDetect_beside (p : Nat) : Beside d s (s.linkDetect d p false) := by
  rw [State.linkDetect_quiet]
  exact .modDie_seen s d fun _ => rfl

end

end Sys2Proof.Machine
namespace Sys2Proof.Machine

/-! ### Regions and channels (R23, R289, R291, R348) -/

section
variable (s : State) (d : Nat)

theorem State.evictRegion_beside (r : Nat) : Beside d s (s.evictRegion d r) := by
  unfold State.evictRegion
  extract_lets homed s0 s1 tiles
  have ended : Beside d s s0 :=
    .foldl (fun s i => (s.endArray_beside d (8 * r + i) 0 .unitFenced).trans (State.endArray_beside ..)) _ s
  have destroyed : Beside d s0 s1 := .foldl (fun s c => s.destroyCtx_beside d c .unitFenced) _ s0
  refine (ended.trans destroyed).trans (.foldl (fun s t => ?_) _ s1)
  refine (s.failOn_beside d t.1 t.2 .unitFenced).trans ?_
  exact .modDie_seen _ d fun _ => rfl

theorem State.suspendRegion_beside (r : Nat) : Beside d s (s.suspendRegion d r) := .of_dies (fun _ => rfl) rfl

theorem State.endSession_beside (r : Nat) (st : Status) (det : Nat) : Beside d s (s.endSession d r st det none) := by
  unfold State.endSession
  split
  · exact .refl d s
  next q hq =>
    extract_lets s1
    have ended : Beside d s s1 := by
      refine .modDie s d ?_
      split
      · exact (Die.stays_unconfigure ..).trans (.of_seen (Die.count_seen ..))
      · exact .modFabric _ r ⟨.inl rfl, List.Subset.refl _, .inr rfl⟩
    dsimp only
    split
    · refine ⟨?_, ?_, fun p l hp hs => (ended.stands p l hp hs).finish (hp.sessions d r q hq) ..⟩
      · exact OnlyReplies.otherDies ended.other (State.onlyReplies_finish ..)
      · rw [OnlyReplies.die (State.onlyReplies_finish ..)]
        exact ended.die
    · exact ended

theorem State.endActs_beside (r : Nat) : Beside d s (s.endActs d r) := by
  unfold State.endActs
  extract_lets f l s1
  have replies : OnlyReplies s s1 := OnlyReplies.foldl_finish (fun a : ClkAct => if a.action < 4 then 0x0404 else 0x0402) (fun a => a.pkt) ..
  have answered : Beside d s s1 := by
    refine ⟨fun e _ => replies.die e, replies.die d ▸ .refl _, fun p l hp hs => Queue.Stands.foldl (fun u a ha hu => hu.finish ?_ ..) hs⟩
    rcases List.mem_append.mp ha with hact | hcopy
    · exact hp.acts d r a hact
    · exact hp.copies d r a (Option.mem_toList.mp hcopy)
  refine answered.trans (.modDie s1 d ?_)
  exact .modFabric _ r ⟨.inr rfl, List.nil_subset _, .inl rfl⟩

theorem State.unconfigureRegion_beside (r : Nat) : Beside d s (s.unconfigureRegion d r) := by
  unfold State.unconfigureRegion
  have acts := s.endActs_beside d r
  dsimp only
  split
  · split
    · exact acts.trans (State.endSession_beside ..)
    · refine (acts.trans (State.endSession_beside _ d r .unitFenced 0)).trans (.modDie _ d ?_)
      split
      · exact Die.stays_unconfigure ..
      · exact .refl _
  · refine acts.trans (.modDie _ d ?_)
    split
    · exact .modFabric _ r (.same rfl rfl rfl)
    · exact Die.stays_unconfigure ..

theorem Die.walled_seen (x : Die) (d r : Nat) : (x.walled d r).seen = x.seen :=
  (foldl_keeps Die.seen (fun w _ x => x.answerFenced_seen d w) _).trans (x.cancelRegion_seen r)

theorem State.emptied_beside (r : Nat) : Beside d s (s.emptied d r) := by
  unfold State.emptied
  refine Beside.trans ?_ (.modDie_seen _ d Die.cutThreads_seen)
  exact ((s.evictRegion_beside d r).trans (State.suspendRegion_beside ..)).trans
    ((State.unconfigureRegion_beside ..).trans (State.linkDown_beside ..))

theorem State.isolate_beside (r cause mask : Nat) : Beside d s (s.isolate d r cause mask false) := by
  cases inside : ((s.die d).region r).isolated with
  | true =>
    rw [State.isolate, inside, if_pos rfl]
    exact .refl d s
  | false =>
    obtain ⟨e, he⟩ := State.isolate_eq inside cause mask
    rw [he]
    exact ((Beside.modDie_seen s d fun x => x.walled_seen d r).trans (State.emptied_beside ..)).trans (Beside.emit ..)

theorem State.loseSeq_beside (byIdle : Bool) (n : Nat) : Beside d s (s.loseSeq byIdle n) := by
  unfold State.loseSeq
  split
  · exact .refl d s
  · split
    · exact .refl d s
    · extract_lets s1
      have lost : Beside d s s1 := .of_dies (fun _ => State.modSeq_die ..) (State.modSeq_queues ..)
      split
      · exact lost
      · exact lost.trans (Beside.emit ..)

theorem State.markGone_beside (hs : List Nat) (st : SheetState) (byIdle : Bool) : Beside d s (s.markGone d hs st byIdle) := by
  unfold State.markGone
  extract_lets x y seqs
  have one (h : Nat) (z : Die) : ((z.cancelCopy h).setEntry h { (z.cancelCopy h).entry h with st := st }).seen = z.seen := z.cancelCopy_seen h
  have gone : y.seen = x.seen := foldl_keeps Die.seen (fun h _ z => one h z) x
  have set : Beside d s (s.setDie d y) := .of_queues (fun e he => State.die_setDie_other _ _ he)
    (by rw [State.die_setDie_same]; exact .of_seen gone) rfl
  exact set.trans (.foldl (fun s n => s.loseSeq_beside d byIdle n) _ _)

theorem State.loseImages_beside (c : Nat) : Beside d s (s.loseImages d c) := by
  unfold State.loseImages
  extract_lets r on
  refine .foldl (fun s e => ?_) _ s
  extract_lets stored
  split
  · split
    · exact State.failOn_beside ..
    · exact State.failCtx_beside ..
  · split
    · exact State.modCtx_beside ..
    · exact .refl d s

theorem Die.seen_of_placed {x z : Die} (h : z = { x with reserved := z.reserved, dealNext := z.dealNext, rings := z.rings }) :
    z.seen = x.seen := by
  rw [h]
  rfl

theorem Die.placeRing_seen (x : Die) (n : Nat) (on : List Nat) : (x.placeRing n on).seen = x.seen :=
  Die.seen_of_placed (Die.placeRing_only rfl rfl)

theorem Die.loseRings_seen (x : Die) (c : Nat) : (x.loseRings c).seen = x.seen :=
  foldl_keeps Die.seen (fun e _ x => by rw [Die.placeRing_seen]; rfl) x

/-- A controller may change in anything but the states of its channels. -/
theorem Die.chanState_modMC (x : Die) (m : Nat) {f : MC → MC} (h : ∀ g, (f g).ch0 = g.ch0 ∧ (f g).ch1 = g.ch1) (c : Nat) :
    (x.modMC m f).chanState c = x.chanState c := by
  rw [Die.chanState_eq, Die.chanState_eq]
  by_cases hm : chanMC c = m
  · rw [hm, Die.mc_modMC_same, MC.state, (h _).1, (h _).2, MC.state]
  · rw [Die.mc_modMC_other _ _ hm]

theorem Die.stays_modMC (x : Die) (m : Nat) {f : MC → MC} (h : ∀ g, (f g).ch0 = g.ch0 ∧ (f g).ch1 = g.ch1) : x.Stays (x.modMC m f) :=
  ⟨rfl, fun _ _ h => h, fun _ hp => ⟨hp.hosts, hp.sessions, hp.acts, hp.copies⟩, rfl, fun c hc => (x.chanState_modMC m h c).trans hc⟩

/-- A channel that is lost, with what waited for it. -/
def Die.cutChan (x : Die) (c : Nat) : Die := ((x.setChan c .lost).modMC (chanMC c) fun m => m.endChan c).cancelDst c

theorem Die.chanState_cutChan (x : Die) (c e : Nat) : (x.cutChan c).chanState e = if e = c then .lost else x.chanState e := by
  have kept : (x.cutChan c).mcs = ((x.setChan c .lost).modMC (chanMC c) fun m => m.endChan c).mcs :=
    congrArg (fun n => n.2.2.2.2.2) (Die.cancelDst_seen ..)
  rw [Die.chanState_of_mcs kept, Die.chanState_modMC (f := fun m => m.endChan c) _ _ fun g => ⟨rfl, rfl⟩]
  by_cases h : e = c
  · rw [h, Die.chanState_setChan_same, if_pos rfl]
  · rw [Die.chanState_setChan_other _ _ h, if_neg h]

theorem Die.stays_cutChan (x : Die) (c : Nat) : x.Stays (x.cutChan c) := by
  have marked : x.Stays (x.setChan c .lost) := by
    refine ⟨rfl, fun _ _ h => h, fun p hp => ⟨hp.hosts, hp.sessions, hp.acts, hp.copies⟩, rfl, fun e he => ?_⟩
    by_cases h : e = c
    · rw [h, Die.chanState_setChan_same]
    · rw [Die.chanState_setChan_other _ _ h, he]
  exact (marked.trans (Die.stays_modMC (f := fun m => m.endChan c) _ _ fun g => ⟨rfl, rfl⟩)).trans (.of_seen (Die.cancelDst_seen ..))

theorem State.loseChannel_beside (c cause : Nat) : Beside d s (s.loseChannel d c cause) := by
  unfold State.loseChannel
  split
  · exact .refl d s
  · extract_lets u s1 s2 hs n
    have fenced : Beside d s s1 := State.fence_beside ..
    have cut : Beside d s1 s2 := .modDie s1 d (Die.stays_cutChan ..)
    refine Beside.trans ?_ (Beside.emit ..)
    refine Beside.trans ?_ (.modDie_seen _ d fun x => x.loseRings_seen c)
    exact (fenced.trans cut).trans ((State.markGone_beside ..).trans (State.loseImages_beside ..))

/-! ### A test that fails (R112, R447) -/

theorem State.arraysFail_beside (t : Nat) : Beside d s (s.arraysFail d t) := by
  unfold State.arraysFail
  have used : Beside d s s.freeNat.2 := .of_dies (fun _ => rfl) rfl
  have one (s : State) (a : Nat) : Beside d s (s.fenceArray { die := d, tile := t, arr := a, err := 0 } 2) :=
    s.fenceArray_beside { die := d, tile := t, arr := a, err := 0 } 2
  dsimp only
  split
  · exact used.trans (one ..)
  · split
    · exact used.trans (one ..)
    · exact (used.trans (one ..)).trans (one ..)

theorem State.gateError_beside (p : Spot) (cause : Nat) : Beside p.die s (s.gateError p cause) := by
  unfold State.gateError
  split
  · exact State.isolate_beside ..
  · exact .refl _ s

theorem spotOf_die (d k : Nat) : (spotOf d k).die = d := by
  unfold spotOf
  split <;> rfl

end

end Sys2Proof.Machine

namespace Sys2Proof.Machine

/-! ## Tests begin (R446, Table 18-8) -/

theorem State.linkRetrain_beside (s : State) (d p : Nat) : Beside d s (s.linkRetrain d p) := by
  unfold State.linkRetrain
  split
  · exact .refl d s
  · exact s.linkDetect_beside d p

theorem State.fenceForTest_beside (s : State) (d : Nat) (k : TileKind) (t : Nat) : Beside d s (s.fenceForTest d k t) := by
  unfold State.fenceForTest
  dsimp only
  split
  · exact State.fenceTile_beside ..
  · exact .refl d s

/-- The start of a test records it, and what follows keeps the record. -/
theorem State.startTest_facts (s : State) (p : Pkt) (d kind unit test : Nat) : OtherDies s (s.startTest p d kind unit test) d ∧
    tfind ((s.startTest p d kind unit test).die d).tests (unitKey kind (ctrUnit kind unit)) = some { pkt := p, test := test, passed := false } := by
  set s1 := s.modDie d fun x => { x with tests := tput x.tests (unitKey kind (ctrUnit kind unit)) { pkt := p, test := test, passed := false } } with h1
  have drains (k : TileKind) : Beside d s1 ((s1.modDie d fun x => x.modOcc k (ctrUnit kind unit) fun o => { o with drain := true }).fenceForTest d k
      (ctrUnit kind unit)) := by
    refine Beside.trans ?_ (State.fenceForTest_beside ..)
    exact .modDie_seen s1 d fun _ => rfl
  have begun : Beside d s1 (s.startTest p d kind unit test) := by
    unfold State.startTest
    dsimp only
    rw [← h1]
    split
    · exact drains .matrix
    · split
      · exact drains .vector
      · split
        · exact .modDie s1 d (Die.stays_modMC _ _ fun _ => ⟨rfl, rfl⟩)
        · split
          · split
            · exact State.linkRetrain_beside ..
            · exact State.linkDown_beside ..
          · exact .refl d s1
  refine ⟨(OtherDies.modDie s d _).trans begun.other, ?_⟩
  rw [begun.die.tests, h1, State.die_modDie_same]
  exact tfind_tput_same ..

theorem State.runTest_starts {s : State} {d kind unit test : Nat} (hc : s.chkTest d kind unit test = none)
    (hfree : tfind (s.die d).tests (unitKey kind (ctrUnit kind unit)) = none) (i : Instr) (p : Pkt) :
    s.runTest i p d kind unit test = s.startTest p d kind unit test := by
  unfold State.runTest
  rw [hc]
  exact if_neg (by simp [thas, hfree])

/-! ## Tests end (R446 to R448) -/

theorem exec_testDone {s : State} {d kind unit : Nat} {pass : Bool} (hu : unitOn d kind unit = true) (hd : s.testDue d kind unit pass = true) :
    exec (.testDone d kind unit pass) s = .next (doTestDone d kind unit pass s).resume := by
  have live : s.live d = true := by
    unfold State.testDue at hd
    exact (Bool.and_eq_true_iff.mp hd).1
  exact event_next (by simp [((s.live_iff d).mp live).2.1, hu]) hd

/-- A test without its record. -/
def State.testRemoved (s : State) (d kind unit : Nat) : State :=
  s.modDie d fun x => { x with tests := tdel x.tests (unitKey kind (ctrUnit kind unit)) }

/-- What the end of a test that passed returns to service, besides UCIe modules. -/
def State.testPassed (s : State) (d kind unit : Nat) (r : TestRec) : State :=
  if kind = 10 ∧ r.test = 0 then s.returnPort d (ctrUnit kind unit) else if kind = 16 then s.selfCheck d true else s

theorem State.testPassed_facts (s : State) (d kind unit : Nat) (r : TestRec) : OtherDies s (s.testPassed d kind unit r) d ∧
    (s.testPassed d kind unit r).queues = s.queues ∧ ((s.testPassed d kind unit r).die d).tests = (s.die d).tests := by
  unfold State.testPassed
  split
  · unfold State.returnPort
    split
    · rw [State.linkDetect_quiet]
      exact ⟨OtherDies.modDie s d _, rfl, by rw [State.die_modDie_same, Die.modFelt_tests]⟩
    · exact ⟨OtherDies.refl s d, rfl, rfl⟩
  · split
    · unfold State.selfCheck
      dsimp only
      rw [if_pos rfl]
      split
      · refine ⟨fun e he => (State.emit_die ..).trans (OtherDies.modDie s d _ e he), (State.emit_frame ..).2.2.1, ?_⟩
        rw [State.emit_die, State.die_modDie_same]
      · exact ⟨OtherDies.refl s d, rfl, rfl⟩
    · exact ⟨OtherDies.refl s d, rfl, rfl⟩

section
variable {s : State} {d kind unit : Nat} {r : TestRec}

/-- A fenced unit that passed waits for the switch that returns it. -/
theorem doTestDone_keeps (hr : tfind (s.die d).tests (unitKey kind (ctrUnit kind unit)) = some r)
    (hf : (s.die d).isFenced kind (ctrUnit kind unit) = true) :
    doTestDone d kind unit true s = s.modDie d fun x => { x with tests := tput x.tests (unitKey kind (ctrUnit kind unit)) { r with passed := true } } := by
  unfold doTestDone
  dsimp only
  rw [hr]
  exact if_pos (by simp [hf])

/-- Another unit that passed is in service at once. -/
theorem doTestDone_passes (hr : tfind (s.die d).tests (unitKey kind (ctrUnit kind unit)) = some r)
    (hf : (s.die d).isFenced kind (ctrUnit kind unit) = false) (hk : kind ≠ 13) : ∃ rate,
      doTestDone d kind unit true s = ((s.testRemoved d kind unit).testPassed d kind unit r).testReply r.pkt 0 rate := by
  unfold doTestDone
  dsimp only
  rw [hr]
  dsimp only
  rw [hf, Bool.and_false, if_neg Bool.false_ne_true, if_pos rfl, if_neg hk]
  exact ⟨_, rfl⟩

/-- What a failed test leaves of its unit: its tile takes contexts again once it is back. -/
def State.testFailed (s : State) (d kind unit : Nat) : State :=
  ((s.testRemoved d kind unit).testFails d kind (ctrUnit kind unit)).modDie d fun x =>
    if kind = 1 then x.modOcc .matrix (ctrUnit kind unit) fun o => { o with drain := false }
    else if kind = 3 then x.modOcc .vector (ctrUnit kind unit) fun o => { o with drain := false } else x

theorem doTestDone_fails (hr : tfind (s.die d).tests (unitKey kind (ctrUnit kind unit)) = some r) :
    doTestDone d kind unit false s = (s.testFailed d kind unit).testReply r.pkt 1 0 := by
  unfold doTestDone
  dsimp only
  rw [hr]
  rfl

end

/-- A unit that failed is fenced, or stays fenced (R447). -/
theorem State.testFails_facts (s : State) (d kind u : Nat) (h13 : kind ≠ 13) (h16 : kind ≠ 16) :
    Beside d s (s.testFails d kind u) ∧ ((s.testFails d kind u).die d).isFenced kind u = true := by
  unfold State.testFails
  dsimp only
  split
  case isTrue hf =>
    set s1 := (s.modDie d fun x => { x with fenced := tput x.fenced (unitKey kind u) 2 }).emit
      { fenceEvent d kind u 2 with region := (unitRegion kind u).getD 0xFF }
    have noted : Beside d s s1 := by
      refine Beside.trans (.modDie s d ⟨rfl, fun k v h => ?_, fun p hp => ⟨hp.hosts, hp.sessions, hp.acts, hp.copies⟩, rfl, fun _ h => h⟩) (Beside.emit ..)
      by_cases hk : unitKey k v = unitKey kind u
      · simp [Die.isFenced, hk]
      · simpa [Die.isFenced, thas_tput_other _ _ hk] using h
    suffices h : Beside d s1 _ from ⟨noted.trans h, (noted.trans h).die.fenced kind u hf⟩
    split
    · exact State.arraysFail_beside ..
    · split
      · exact (spotOf_die d u).subst (motive := fun e => Beside e s1 (s1.gateError (spotOf d u) 2)) (State.gateError_beside ..)
      · split
        · exact (spotOf_die d (128 + u)).subst (motive := fun e => Beside e s1 (s1.gateError (spotOf d (128 + u)) 2)) (State.gateError_beside ..)
        · exact .refl d s1
  case isFalse =>
    have fenced (s : State) (region : Option Nat) : ((s.fence d kind u 2 region).die d).isFenced kind u = true := by
      rw [State.fence_isFenced]
      simp
    have fence (s : State) (region : Option Nat) : Beside d s (s.fence d kind u 2 region) := State.fence_beside ..
    split
    · have lost : Beside d (s.fence d kind u 2 (unitRegion kind u)) ((mcChans (mcOf kind u)).foldl (fun s c => s.loseChannel d c 2)
          (s.fence d kind u 2 (unitRegion kind u))) := .foldl (fun s c => s.loseChannel_beside d c 2) _ _
      exact ⟨(fence ..).trans lost, lost.die.fenced _ _ (fenced ..)⟩
    · split
      · exact ⟨(s.linkDown_beside d u).trans (fence ..), fenced ..⟩
      · exact ⟨fence .., fenced ..⟩

theorem State.testFailed_facts (s : State) (d kind unit : Nat) (h13 : kind ≠ 13) (h16 : kind ≠ 16) :
    Beside d (s.testRemoved d kind unit) (s.testFailed d kind unit) ∧
      ((s.testFailed d kind unit).die d).isFenced kind (ctrUnit kind unit) = true := by
  obtain ⟨beside, fenced⟩ := (s.testRemoved d kind unit).testFails_facts d kind (ctrUnit kind unit) h13 h16
  have freed : Beside d ((s.testRemoved d kind unit).testFails d kind (ctrUnit kind unit)) (s.testFailed d kind unit) :=
    .modDie_seen _ d fun x => by split <;> [rfl; split <;> rfl]
  exact ⟨beside.trans freed, freed.die.fenced _ _ fenced⟩

theorem State.testRemoved_facts (s : State) (d kind unit : Nat) : OtherDies s (s.testRemoved d kind unit) d ∧
    (s.testRemoved d kind unit).queues = s.queues ∧
    ((s.testRemoved d kind unit).die d).tests = tdel (s.die d).tests (unitKey kind (ctrUnit kind unit)) ∧
    ∀ p, Alone s p → Alone (s.testRemoved d kind unit) p := by
  have own : (s.testRemoved d kind unit).die d = { s.die d with tests := tdel (s.die d).tests (unitKey kind (ctrUnit kind unit)) } :=
    State.die_modDie_same ..
  refine ⟨OtherDies.modDie s d _, rfl, by rw [own], fun p hp => alone_of_clear fun e => ?_⟩
  by_cases he : e = d
  · rw [he, own]
    obtain ⟨hosts, sessions, acts, copies⟩ := hp.clear d
    exact ⟨hosts, sessions, acts, copies⟩
  · have same : (s.testRemoved d kind unit).die e = s.die e := OtherDies.modDie s d _ e he
    rw [same]
    exact hp.clear e

theorem State.onlyReplies_testReply (s : State) (p : Pkt) (result rate : Nat) : OnlyReplies s (s.testReply p result rate) :=
  State.onlyReplies_finish ..

/-- The reply of a test whose packet stands. -/
theorem Queue.Stands.testReply_held {s : State} {p : Pkt} {l : List Reply} (h : (s.queue p.queue).Stands p l) (hring : p.queue ≠ mboxQueue)
    (hloud : p.quiet = false) (result rate : Nat) : ((s.testReply p result rate).queue p.queue).held =
      (s.queue p.queue).held ++ [mkReply 0x0710 p .ok 0 ([BitVec.ofNat 8 result] ++ le 1 rate ++ [0, 0]) [] false] :=
  State.finish_held s 0x0710 p .ok 0 _ [] hring h.1 h.orphaned (by simp [hloud])

/-- Settles O13: tests that begin, pass, and fail. -/
theorem testCommands : Obligations.TestCommands := by
  refine ⟨fun s p d kind unit due perm free => ⟨fun hc => ?_, fun hc => ?_, fun hc => ?_⟩, fun s d kind unit r hu hd hr hf => ?keeps,
    fun s d kind unit r hu hd hr hf hk hq => ?passes, fun s d kind unit r hu hd hr h13 h16 hq ha => ?fails⟩
  · exact ⟨_, gate_next due perm, State.runTest_starts hc free .. ▸ State.startTest_facts ..⟩
  · exact ⟨_, gate_next due perm, State.runTest_starts hc free .. ▸ State.startTest_facts ..⟩
  · exact ⟨_, gate_next due perm, State.runTest_starts hc free .. ▸ State.startTest_facts ..⟩
  case keeps =>
    refine ⟨_, exec_testDone hu hd, ?_⟩
    rw [doTestDone_keeps hr hf]
    exact ⟨OtherDies.modDie s d _, rfl, by rw [State.die_modDie_same]; exact tfind_tput_same ..⟩
  case passes =>
    obtain ⟨rate, done⟩ := doTestDone_passes hr hf hk
    obtain ⟨other, queues, tests⟩ := (s.testRemoved d kind unit).testPassed_facts d kind unit r
    obtain ⟨other1, queues1, tests1, -⟩ := s.testRemoved_facts d kind unit
    refine ⟨_, exec_testDone hu hd, ?_⟩
    rw [done]
    refine ⟨OnlyReplies.otherDies (other1.trans other) (State.onlyReplies_testReply ..), ?_, rate, ?_⟩
    · rw [OnlyReplies.die (State.onlyReplies_testReply ..), tests, tests1]
      exact tfind_tdel_same ..
    · have stands := hq.stands.of_queues (queues.trans queues1)
      rw [Replies, stands.testReply_held hq.ring hq.loud, State.queue, queues.trans queues1]
      rfl
  case fails =>
    obtain ⟨beside, fenced⟩ := s.testFailed_facts d kind unit h13 h16
    obtain ⟨other1, queues1, tests1, alone⟩ := s.testRemoved_facts d kind unit
    refine ⟨_, exec_testDone hu hd, ?_⟩
    rw [doTestDone_fails hr]
    refine ⟨OnlyReplies.otherDies (other1.trans beside.other) (State.onlyReplies_testReply ..), ?_, ?_, ?_⟩
    · rw [OnlyReplies.die (State.onlyReplies_testReply ..), beside.die.tests, tests1]
      exact tfind_tdel_same ..
    · rw [OnlyReplies.die (State.onlyReplies_testReply ..)]
      exact fenced
    · have stands := beside.stands r.pkt _ (alone r.pkt ha) (hq.stands.of_queues queues1)
      rw [RepliesLast, stands.testReply_held hq.ring hq.loud]
      obtain ⟨-, -, -, l, held⟩ := stands
      exact ⟨l, by rw [held]; rfl⟩

end Sys2Proof.Machine

namespace Sys2Proof.Machine

/-! ## O32: routers forward packets, die routers guard their regions (R305 to R321)

A router that deals with a received packet notes the grant and takes the packet off its input (`State.offInput`); what follows is one
of the outcomes of `State.routePacket`. -/

/-! ### Router numbers -/

theorem spotOf_tile (d k : Nat) : (spotOf d k).tile = decide (k < 128) := by
  by_cases h : k < 128 <;> simp [spotOf, h]

theorem spotOf_no (d k : Nat) : (spotOf d k).no = k := by
  by_cases h : k < 128
  · simp only [spotOf, h, if_true, Spot.no]
    omega
  · simp only [spotOf, h, if_false, Spot.no, Bool.false_eq_true]
    omega

theorem spotOf_dieRouter (d r : Nat) : spotOf d (128 + r) = { die := d, k := r, tile := false, x := 0, y := 0 } := by
  simp [spotOf, show ¬ 128 + r < 128 by omega]

/-! ### A packet leaves by a port -/

/-- Of a die: its routers, its interfaces, its regions, the requests on their way and its memory controllers. -/
def Die.nets (x : Die) := (x.routers, x.ifaces, x.regions, x.reqNet, x.mcs)

theorem Die.countRT_nets (x : Die) (c : Ctr) (k n : Nat) : (x.countRT c k n).nets = x.nets := by
  unfold Die.countRT Die.countAt
  dsimp only
  split <;> split <;> rfl

theorem Die.addTrace_nets (x : Die) (wrap : Bool) (t : TraceRec) : (x.addTrace wrap t).nets = x.nets := by
  unfold Die.addTrace
  split
  · rfl
  · split <;> rfl

theorem Die.probeSees_nets (x : Die) (rt n : Nat) (q : NetPkt) (port : Nat) : (x.probeSees rt n q port).nets = x.nets := by
  unfold Die.probeSees
  dsimp only
  split
  · split
    · exact Die.addTrace_nets ..
    · rfl
  · rfl

/-- The counters and probes of a router that a packet leaves write nothing of the networks. -/
theorem Die.leaves_nets (x : Die) (rt : Nat) (q : NetPkt) (port : Nat) : (x.leaves rt q port).nets = x.nets := by
  rw [Die.leaves, Die.probeSees_nets, Die.probeSees_nets, Die.countRT_nets]

section
variable {x y : Die}

theorem Die.router_of_nets (h : y.nets = x.nets) (k : Nat) : y.router k = x.router k := by
  have hr : y.routers = x.routers := congrArg Prod.fst h
  rw [Die.router, hr, Die.router]

theorem Die.ifaces_of_nets (h : y.nets = x.nets) : y.ifaces = x.ifaces := congrArg (fun n => n.2.1) h

theorem Die.region_of_nets (h : y.nets = x.nets) (r : Nat) : y.region r = x.region r := by
  have hr : y.regions = x.regions := congrArg (fun n => n.2.2.1) h
  rw [Die.region, hr, Die.region]

theorem Die.reqNet_of_nets (h : y.nets = x.nets) : y.reqNet = x.reqNet := congrArg (fun n => n.2.2.2.1) h

theorem Die.mcs_of_nets (h : y.nets = x.nets) : y.mcs = x.mcs := congrArg (fun n => n.2.2.2.2) h

theorem Die.modRouter_of_nets (h : y.nets = x.nets) (k : Nat) (f : Router → Router) : (y.modRouter k f).nets = (x.modRouter k f).nets := by
  have hr : y.routers = x.routers := congrArg Prod.fst h
  exact congrArg₂ Prod.mk (by rw [Die.modRouter, Die.modRouter, hr]) (congrArg Prod.snd h)

theorem Die.iface_of_nets (h : y.nets = x.nets) (n : Nat) : y.iface n = x.iface n := by
  rw [Die.iface, Die.ifaces_of_nets h, Die.iface]

end

theorem Die.router_modRouter_other (x : Die) {k n : Nat} (f : Router → Router) (h : n ≠ k) : (x.modRouter k f).router n = x.router n := by
  simp [Die.router, Die.modRouter, tget_tmod_other, h]

/-! ### The packet taken off its input -/

/-- The state once router `rt` has granted `k` and taken it off its input. -/
def State.offInput (s : State) (d rt : Nat) (k : NetPkt) : State := (s.noteGrant d rt k).takeIn d rt k

/-- Of a die: what no router's input holds. -/
def Die.aside (x : Die) := (x.ifaces, x.regions, x.fenced, x.ucieOut)

/-- That writes the routers of the die only, of them `rt` alone, and of it the input and what the output ports remember. -/
theorem State.offInput_eq (s : State) (d rt : Nat) (k : NetPkt) : ∃ f : Die → Die, s.offInput d rt k = s.modDie d f ∧
    (∀ x, (f x).aside = x.aside) ∧ (∀ n, n ≠ rt → (f (s.die d)).router n = (s.die d).router n) ∧
    ((f (s.die d)).router rt).inbox = ((s.die d).router rt).inbox.eraseP (fun e => e.2 == k) ∧
    ((f (s.die d)).router rt).wakeBuf = ((s.die d).router rt).wakeBuf ∧
    ((f (s.die d)).router rt).discards = ((s.die d).router rt).discards := by
  unfold State.offInput State.noteGrant State.takeIn
  split
  · rw [State.modDie_modDie]
    refine ⟨_, rfl, fun _ => rfl, fun n hn => ?_, ?_⟩
    · exact (Die.router_modRouter_other _ _ hn).trans (Die.router_modRouter_other _ _ hn)
    · rw [Die.router_modRouter_same, Die.router_modRouter_same]
      exact ⟨rfl, rfl, rfl⟩
  · refine ⟨_, rfl, fun _ => rfl, fun n hn => Die.router_modRouter_other _ _ hn, ?_⟩
    rw [Die.router_modRouter_same]
    exact ⟨rfl, rfl, rfl⟩

theorem State.hop_modDie (s : State) (d : Nat) {f : Die → Die} (h : ∀ x, (f x).ucieOut = x.ucieOut) (p : Spot) (port dst : Nat) :
    (s.modDie d f).hop p port dst = s.hop p port dst := by
  have out (e : Nat) : ((s.modDie d f).die e).ucieOut = (s.die e).ucieOut := State.die_modDie_congr Die.ucieOut h s d e
  have up (a b c e n : Nat) : (s.modDie d f).linkUp a b c e n = s.linkUp a b c e n := by
    simp only [State.linkUp, State.moduleUp, out]
  simp only [State.hop, up]
  rfl

/-- What `State.offInput` leaves: the other dies, and of its die all that is no router. -/
structure Off (s t : State) (d rt : Nat) (k : NetPkt) : Prop where
  other    : OtherDies s t d
  ifaces   : (t.die d).ifaces = (s.die d).ifaces
  region   : ∀ r, (t.die d).region r = (s.die d).region r
  fenced   : ∀ e, (t.die e).fenced = (s.die e).fenced
  routers  : ∀ n, n ≠ rt → (t.die d).router n = (s.die d).router n
  inbox    : ((t.die d).router rt).inbox = ((s.die d).router rt).inbox.eraseP fun e => e.2 == k
  wakeBuf  : ((t.die d).router rt).wakeBuf = ((s.die d).router rt).wakeBuf
  discards : ((t.die d).router rt).discards = ((s.die d).router rt).discards
  hop      : ∀ p port dst, t.hop p port dst = s.hop p port dst

theorem State.offInput_off (s : State) (d rt : Nat) (k : NetPkt) : Off s (s.offInput d rt k) d rt k := by
  obtain ⟨f, he, aside, others, inbox, wakeBuf, discards⟩ := s.offInput_eq d rt k
  have ifaces (x : Die) : (f x).ifaces = x.ifaces := congrArg (fun n => n.1) (aside x)
  have regions (x : Die) : (f x).regions = x.regions := congrArg (fun n => n.2.1) (aside x)
  have fenced (x : Die) : (f x).fenced = x.fenced := congrArg (fun n => n.2.2.1) (aside x)
  have out (x : Die) : (f x).ucieOut = x.ucieOut := congrArg (fun n => n.2.2.2) (aside x)
  rw [he]
  refine ⟨OtherDies.modDie s d f, ?_, fun r => ?_, State.die_modDie_congr Die.fenced fenced s d, fun n hn => ?_, ?_, ?_, ?_,
    State.hop_modDie s d out⟩
  · rw [State.die_modDie_same, ifaces]
  · rw [State.die_modDie_same, Die.region, regions, Die.region]
  · rw [State.die_modDie_same, others n hn]
  · rw [State.die_modDie_same, inbox]
  · rw [State.die_modDie_same, wakeBuf]
  · rw [State.die_modDie_same, discards]

section
variable {s t : State} {d rt : Nat} {k : NetPkt}

theorem Off.routerOk (h : Off s t d rt k) (p : Spot) : t.routerOk p = s.routerOk p := by
  simp only [State.routerOk, Die.isFenced, h.fenced]

theorem Off.iface (h : Off s t d rt k) (n : Nat) : (t.die d).iface n = (s.die d).iface n := by
  rw [Die.iface, h.ifaces, Die.iface]

/-! ### What becomes of the packet -/

theorem State.routePacket_fenced (h : s.routerOk (spotOf d rt) = false) : s.routePacket d rt k = s := by
  simp [State.routePacket, h]

theorem State.routePacket_bad (ok : s.routerOk (spotOf d rt) = true) (bad : k.hpar ≠ hparOf k ∨ k.ctlOk = false) :
    s.routePacket d rt k = s.parityDiscard (spotOf d rt) k := by
  simp only [State.routePacket, ok, Bool.not_true, Bool.false_eq_true, if_false]
  exact if_pos (by simpa using bad)

theorem State.routePacket_whole (ok : s.routerOk (spotOf d rt) = true) (par : k.hpar = hparOf k) (ctl : k.ctlOk = true) {h : Hop}
    (hop : s.hop (spotOf d rt) (turnAt k.turns k.ptr.toNat).1 k.dst.toNat = some h) :
    s.routePacket d rt k = s.sendOn (spotOf d rt) k h := by
  have whole : (k.hpar != hparOf k || !k.ctlOk) = false := by simp [← par, ctl]
  simp only [State.routePacket, ok, Bool.not_true, Bool.false_eq_true, if_false, whole, hop]

/-- A packet that a router takes off its input, with the state it is taken in. -/
theorem runs_received {P : State → Prop} (hs : s.live d = true) (hrt : routerOn rt = true)
    (hup : 128 ≤ rt ∨ s.tileNetUp d (rt / 16) = true) (hk : s.received d rt k = true) (room : s.routable d rt k = true)
    (turn : s.granted d rt k = true) (h : ∀ t, Off s t d rt k → P (t.routePacket d rt k)) : Runs (.routerForward d rt k) s P := by
  refine ⟨_, exec_routerForward hs hrt hup (.inl hk) (.inl ⟨room, turn⟩), ?_⟩
  rw [doRouterForward, if_pos hk]
  exact h _ (s.offInput_off d rt k)

theorem routable_of_fenced (h : s.routerOk (spotOf d rt) = false) : s.routable d rt k = true := by simp [State.routable, h]

/-- The two checks of a packet, as the model asks for them. -/
theorem whole_eq_false (bad : k.hpar ≠ hparOf k ∨ k.ctlOk = false) : (k.hpar == hparOf k && k.ctlOk) = false := by
  rcases bad with h | h
  · rw [beq_eq_false_iff_ne.mpr h, Bool.false_and]
  · rw [h, Bool.and_false]

theorem routable_of_bad (bad : k.hpar ≠ hparOf k ∨ k.ctlOk = false) : s.routable d rt k = true := by
  have failed : (k.hpar != hparOf k || !k.ctlOk) = true := by rw [bne, ← Bool.not_and, whole_eq_false bad, Bool.not_false]
  rw [State.routable]
  rw [Bool.or_assoc (!s.routerOk (spotOf d rt)), failed, Bool.or_true, Bool.true_or]

theorem routable_of_arrive {id : Nat}
    (hop : s.hop (spotOf d rt) (turnAt k.turns k.ptr.toNat).1 k.dst.toNat = some (.arrive id)) : s.routable d rt k = true := by
  simp [State.routable, hop, State.wakeFull, State.nextFull]

theorem granted_of_fenced (h : s.routerOk (spotOf d rt) = false) : s.granted d rt k = true := by
  simp [State.granted, State.arbitrated, h]

theorem granted_of_bad (bad : k.hpar ≠ hparOf k ∨ k.ctlOk = false) : s.granted d rt k = true := by
  rw [State.granted, State.arbitrated, Bool.and_assoc, whole_eq_false bad, Bool.and_false, Bool.not_false, Bool.true_or]

end

/-! ### Each outcome -/

/-- A packet that has reached its endpoint's interface. -/
theorem State.sendOn_arrive (s : State) (p : Spot) (k : NetPkt) (id : Nat) : OtherDies s (s.sendOn p k (.arrive id)) p.die ∧
    (∀ n, ((s.sendOn p k (.arrive id)).die p.die).router n = (s.die p.die).router n) ∧
    (((s.sendOn p k (.arrive id)).die p.die).iface (id % 256)).inbox = ((s.die p.die).iface (id % 256)).inbox ++ [sentOn k false] := by
  have nets := (s.die p.die).leaves_nets p.no (sentOn k false) (turnAt k.turns k.ptr.toNat).1
  simp only [State.sendOn, State.modDie_modDie]
  refine ⟨OtherDies.modDie s _ _, fun n => ?_, ?_⟩
  · rw [State.die_modDie_same]
    exact Die.router_of_nets (y := (s.die p.die).leaves ..) nets n
  · rw [State.die_modDie_same, Die.iface_modIface_same, Die.iface_of_nets nets]

/-- A packet that enters the next router, through no boundary of a region that forbids it. -/
theorem State.sendOn_go (s : State) (p q : Spot) (k : NetPkt) (level : p.tile = true ∨ q.tile = false)
    (inside : p.tile = true → q.tile = false → ((s.die p.die).region p.k).isolated = false) :
    s.sendOn p k (.go q) = (s.modDie p.die fun x => x.leaves p.no (sentOn k false) (turnAt k.turns k.ptr.toNat).1).enterRouter q
      (inPort (turnAt k.turns k.ptr.toNat).1) (sentOn k false) := by
  have down : (!p.tile && q.tile) = false := by rcases level with h | h <;> simp [h]
  have up : (p.tile && !q.tile && ((s.die p.die).region p.k).isolated) = false := by
    cases hp : p.tile
    · rfl
    · cases hq : q.tile
      · simp [inside hp hq]
      · rfl
  simp only [State.sendOn, down, up, Bool.false_eq_true, if_false]

theorem State.sendOn_down (s : State) (p q : Spot) (k : NetPkt) (hp : p.tile = false) (hq : q.tile = true) :
    s.sendOn p k (.go q) = s.goDown p q k := by
  simp [State.sendOn, hp, hq]

theorem State.enterRouter_other (s : State) (p : Spot) (i : Nat) (k : NetPkt) : OtherDies s (s.enterRouter p i k) p.die :=
  OtherDies.modDie s _ _

theorem State.enterRouter_inbox (s : State) (p : Spot) (i : Nat) (k : NetPkt) :
    (((s.enterRouter p i k).die p.die).router p.no).inbox = ((s.die p.die).router p.no).inbox ++ [(i, k)] := by
  rw [State.enterRouter, State.die_modDie_same, Die.router_modRouter_same]

/-- A packet that fails its checks is kept with the discarded ones of its router. -/
theorem State.parityDiscard_facts (s : State) (p : Spot) (k : NetPkt) : OtherDies s (s.parityDiscard p k) p.die ∧
    ((s.parityDiscard p k).die p.die).ifaces = (s.die p.die).ifaces ∧
    ((s.parityDiscard p k).die p.die).router p.no =
      { (s.die p.die).router p.no with discards := ((s.die p.die).router p.no).discards ++ [k] } := by
  unfold State.parityDiscard
  dsimp only
  generalize hx : (fun x : Die => (x.modRouter p.no fun r => { r with discards := r.discards ++ [k] }).countRT rtHdrParity p.no 1) = f
  have nets : (f (s.die p.die)).nets = ((s.die p.die).modRouter p.no fun r => { r with discards := r.discards ++ [k] }).nets :=
    hx ▸ Die.countRT_nets ..
  have dies : ∀ u report region, ∀ e, ((s.modDie p.die f).corrected p.die (routerUnit p.no).1 u 1 report none region).die e =
      ((s.modDie p.die f).modDie p.die fun x => x.addErr (unitKey (routerUnit p.no).1 u) nclkHour 1).die e := by
    intro u report region e
    unfold State.corrected State.correctedIn
    dsimp only
    split
    · exact State.emit_die ..
    · rfl
  refine ⟨fun e he => ?_, ?_, ?_⟩
  · rw [dies, State.die_modDie_other _ _ he, State.die_modDie_other _ _ he]
  · rw [dies, State.die_modDie_same, State.die_modDie_same]
    exact (Die.ifaces_of_nets (y := f (s.die p.die)) nets).trans rfl
  · rw [dies, State.die_modDie_same, State.die_modDie_same]
    exact (Die.router_of_nets (y := f (s.die p.die)) nets _).trans (Die.router_modRouter_same ..)

/-! ### At the boundary of a region -/

section
variable {s : State} {d r : Nat} {k : NetPkt}

/-- The tile router that a die router's down port leads to. -/
def gateSpot (d r : Nat) : Spot := { die := d, k := r, tile := true, x := 1, y := 1 }

theorem hop_down (s : State) (d r dst : Nat) : s.hop (spotOf d (128 + r)) 4 dst = some (.go (gateSpot d r)) := by
  rw [spotOf_dieRouter]
  rfl

/-- A region as a packet that reaches it through its open port leaves it. -/
def Die.entered (x : Die) (r : Nat) (k : NetPkt) : Die :=
  (x.modRegion r Region.stay).modRouter (16 * r + 5) fun q => { q with inbox := q.inbox ++ [(inPort 4, sentOn k true)] }

theorem goDown_awake (inside : ((s.die d).region r).isolated = false) (awake : ((s.die d).region r).power = .awake) :
    OtherDies s (s.goDown (spotOf d (128 + r)) (gateSpot d r) k) d ∧
    ((s.goDown (spotOf d (128 + r)) (gateSpot d r) k).die d).nets = ((s.die d).entered r k).nets := by
  have up : s.tileNetUp d r = true := by simp [State.tileNetUp, awake]
  rw [spotOf_dieRouter]
  simp only [State.goDown, inside, up, Bool.false_eq_true, if_false, Bool.not_true, State.enterRouter, gateSpot, State.modDie_modDie]
  refine ⟨OtherDies.modDie s d _, ?_⟩
  rw [State.die_modDie_same]
  exact Die.modRouter_of_nets (Die.leaves_nets ..) ..

theorem goDown_closed (inside : ((s.die d).region r).isolated = false)
    (closed : ((s.die d).region r).power = .asleep ∨ ((s.die d).region r).power = .waking) :
    OtherDies s (s.goDown (spotOf d (128 + r)) (gateSpot d r) k) d ∧
    (((s.goDown (spotOf d (128 + r)) (gateSpot d r) k).die d).router (128 + r)).wakeBuf =
      ((s.die d).router (128 + r)).wakeBuf ++ [k] ∧
    ∀ n, n ≠ 128 + r → ((s.goDown (spotOf d (128 + r)) (gateSpot d r) k).die d).router n = (s.die d).router n := by
  have up : s.tileNetUp d r = false := by rcases closed with h | h <;> simp [State.tileNetUp, h]
  rw [spotOf_dieRouter]
  simp only [State.goDown, inside, up, Bool.false_eq_true, if_false, Bool.not_false, if_true]
  have nets := ((s.die d).modRouter (128 + r) fun r => { r with wakeBuf := r.wakeBuf ++ [k] }).countRT_nets rtWakeHolds (128 + r) 1
  refine ⟨OtherDies.modDie s d _, ?_, fun n hn => ?_⟩
  · rw [State.die_modDie_same]
    exact congrArg Router.wakeBuf ((Die.router_of_nets nets _).trans (Die.router_modRouter_same ..))
  · rw [State.die_modDie_same]
    exact (Die.router_of_nets nets n).trans (Die.router_modRouter_other _ _ hn)

theorem goDown_nack (cut : ((s.die d).region r).isolated = true) (req : k.vc = 0) :
    s.goDown (spotOf d (128 + r)) (gateSpot d r) k = s.nack k := by
  rw [spotOf_dieRouter]
  simp only [State.goDown, cut, req, if_true]

theorem goDown_discard (cut : ((s.die d).region r).isolated = true) (other : k.vc ≠ 0) :
    s.goDown (spotOf d (128 + r)) (gateSpot d r) k = s.modDie d fun x => x.countRT rtIsoDiscards (128 + r) 1 := by
  rw [spotOf_dieRouter]
  simp only [State.goDown, cut, other, if_true, if_false]
  rfl

/-- The NACK that answers a request: from its destination, to its source. -/
theorem State.nack_answers (s : State) (k : NetPkt) : ∃ l n,
    (((s.nack k).die (k.src.toNat / 256)).iface (k.src.toNat % 256)).inbox = l ++ [n] ∧ n.opcode = 0x7F ∧ n.vc = 1 ∧
      n.txn = k.txn ∧ n.dst = k.src := by
  unfold State.nack
  rw [State.die_modDie_same, Die.iface_modIface_same]
  exact ⟨_, _, rfl, rfl, rfl, rfl, rfl⟩

theorem State.nack_other (s : State) (k : NetPkt) : OtherDies s (s.nack k) (k.src.toNat / 256) := OtherDies.modDie s _ _

end

/-! ### The obligation -/

section
variable {s : State} {d rt : Nat} {k : NetPkt}

/-- R307, R310: the packet reaches the interface of its endpoint. -/
theorem forward_arrives (hs : s.live d = true) (hrt : routerOn rt = true) (hup : 128 ≤ rt ∨ s.tileNetUp d (rt / 16) = true)
    (hk : s.received d rt k = true) (id : Nat) (ok : s.routerOk (spotOf d rt) = true) (par : k.hpar = hparOf k) (ctl : k.ctlOk = true)
    (turn : s.granted d rt k = true)
    (hop : s.hop (spotOf d rt) (turnAt k.turns k.ptr.toNat).1 k.dst.toNat = some (.arrive id)) :
    Runs (.routerForward d rt k) s fun t => OtherDies s t d ∧
      ((t.die d).router rt).inbox = ((s.die d).router rt).inbox.eraseP (fun e => e.2 == k) ∧
      ((t.die d).iface (id % 256)).inbox = ((s.die d).iface (id % 256)).inbox ++ [sentOn k false] := by
  refine runs_received hs hrt hup hk (routable_of_arrive hop) turn fun t off => ?_
  obtain ⟨others, router, arrived⟩ := t.sendOn_arrive (spotOf d rt) k id
  rw [spotOf_die] at others router arrived
  rw [State.routePacket_whole (off.routerOk _ ▸ ok) par ctl ((off.hop ..).trans hop)]
  exact ⟨off.other.trans others, (congrArg Router.inbox (router rt)).trans off.inbox, by rw [arrived, off.iface]⟩

/-- R307, R310: the packet enters the next router. -/
theorem forward_goes (hs : s.live d = true) (hrt : routerOn rt = true) (hup : 128 ≤ rt ∨ s.tileNetUp d (rt / 16) = true)
    (hk : s.received d rt k = true) (q : Spot) (ok : s.routerOk (spotOf d rt) = true) (par : k.hpar = hparOf k) (ctl : k.ctlOk = true)
    (turn : s.granted d rt k = true) (room : s.routable d rt k = true)
    (hop : s.hop (spotOf d rt) (turnAt k.turns k.ptr.toNat).1 k.dst.toNat = some (.go q)) (level : rt < 128 ∨ q.tile = false)
    (inside : rt < 128 → q.tile = false → ((s.die d).region (rt / 16)).isolated = false) :
    Runs (.routerForward d rt k) s fun t => (∀ e, e ≠ d → e ≠ q.die → t.die e = s.die e) ∧
      ∃ l, ((t.die q.die).router q.no).inbox = l ++ [(inPort (turnAt k.turns k.ptr.toNat).1, sentOn k false)] := by
  refine runs_received hs hrt hup hk room turn fun t off => ?_
  have tile := spotOf_tile d rt
  rw [State.routePacket_whole (off.routerOk _ ▸ ok) par ctl ((off.hop ..).trans hop), State.sendOn_go]
  · refine ⟨fun e hd hq => ?_, _, State.enterRouter_inbox ..⟩
    rw [State.enterRouter_other _ q _ _ e hq, State.die_modDie_other _ _ (by rwa [spotOf_die]), off.other e hd]
  · simpa [tile] using level
  · intro hp hq
    have hlt : rt < 128 := by simpa [tile] using hp
    rw [spotOf_die, off.region, show (spotOf d rt).k = rt / 16 by simp [spotOf, hlt]]
    exact inside hlt hq

/-- R307: a packet that fails its checks. -/
theorem forward_bad (hs : s.live d = true) (hrt : routerOn rt = true) (hup : 128 ≤ rt ∨ s.tileNetUp d (rt / 16) = true)
    (hk : s.received d rt k = true) (bad : k.hpar ≠ hparOf k ∨ k.ctlOk = false) (ok : s.routerOk (spotOf d rt) = true) :
    Runs (.routerForward d rt k) s fun t => OtherDies s t d ∧ (t.die d).ifaces = (s.die d).ifaces ∧
      ((t.die d).router rt).inbox = ((s.die d).router rt).inbox.eraseP (fun e => e.2 == k) ∧
      ((t.die d).router rt).discards = ((s.die d).router rt).discards ++ [k] := by
  refine runs_received hs hrt hup hk (routable_of_bad bad) (granted_of_bad bad) fun t off => ?_
  obtain ⟨others, ifaces, router⟩ := t.parityDiscard_facts (spotOf d rt) k
  rw [spotOf_die] at others ifaces router
  rw [spotOf_no] at router
  rw [State.routePacket_bad (off.routerOk _ ▸ ok) bad, router]
  exact ⟨off.other.trans others, ifaces.trans off.ifaces, off.inbox, congrArg (· ++ [k]) off.discards⟩

/-- R317: a fenced router takes the packet in and passes nothing on. -/
theorem forward_fenced (hs : s.live d = true) (hrt : routerOn rt = true) (hup : 128 ≤ rt ∨ s.tileNetUp d (rt / 16) = true)
    (hk : s.received d rt k = true) (ok : s.routerOk (spotOf d rt) = false) :
    Runs (.routerForward d rt k) s fun t => OtherDies s t d ∧ (t.die d).ifaces = (s.die d).ifaces ∧
      ((t.die d).router rt).inbox = ((s.die d).router rt).inbox.eraseP (fun e => e.2 == k) := by
  refine runs_received hs hrt hup hk (routable_of_fenced ok) (granted_of_fenced ok) fun t off => ?_
  rw [State.routePacket_fenced ((off.routerOk _).trans ok)]
  exact ⟨off.other, off.ifaces, off.inbox⟩

/-- A whole packet at a die router that is for the die router's region. -/
theorem runs_down {P : State → Prop} {r : Nat} (hs : s.live d = true) (hr : r < 8) (hk : s.received d (128 + r) k = true)
    (ok : s.routerOk (spotOf d (128 + r)) = true) (par : k.hpar = hparOf k) (ctl : k.ctlOk = true)
    (port : (turnAt k.turns k.ptr.toNat).1 = 4) (turn : s.granted d (128 + r) k = true) (room : s.routable d (128 + r) k = true)
    (h : ∀ t, Off s t d (128 + r) k → P (t.goDown (spotOf d (128 + r)) (gateSpot d r) k)) :
    Runs (.routerForward d (128 + r) k) s P := by
  have hrt : routerOn (128 + r) = true := by simp [routerOn]; omega
  refine runs_received hs hrt (.inl (by omega)) hk room turn fun t off => ?_
  have hop := port ▸ hop_down t d r k.dst.toNat
  rw [State.routePacket_whole (off.routerOk _ ▸ ok) par ctl hop, State.sendOn_down _ _ _ _ (by rw [spotOf_dieRouter]) rfl]
  exact h t off

end

/-- Settles O32: each clause is one outcome of `State.routePacket` for a packet taken off its input. -/
theorem routersAndRegions : Obligations.RoutersAndRegions := by
  unfold Obligations.RoutersAndRegions
  refine ⟨fun s d rt k hs hrt hup hk => ⟨forward_arrives hs hrt hup hk, forward_goes hs hrt hup hk, forward_bad hs hrt hup hk,
    forward_fenced hs hrt hup hk⟩, fun s d r k hs hr hk ok par ctl port turn room => ?_⟩
  have run {P : State → Prop} := runs_down (P := P) hs hr hk ok par ctl port turn room
  refine ⟨fun inside awake => run fun t off => ?_, fun inside closed _ => run fun t off => ?_, fun cut req => run fun t off => ?_,
    fun cut other => run fun t off => ?_⟩
  · obtain ⟨others, nets⟩ := goDown_awake (s := t) (k := k) (off.region r ▸ inside) (off.region r ▸ awake)
    refine ⟨off.other.trans others, ?_⟩
    rw [Die.router_of_nets nets, Die.entered, Die.router_modRouter_same, ← off.routers _ (by omega)]
    rfl
  · obtain ⟨others, buf, rest⟩ := goDown_closed (s := t) (k := k) (off.region r ▸ inside) (off.region r ▸ closed)
    exact ⟨off.other.trans others, by rw [buf, off.wakeBuf], by rw [rest _ (by omega), off.routers _ (by omega)]⟩
  · rw [goDown_nack (off.region r ▸ cut) req]
    exact ⟨fun e hd hq => (t.nack_other k e hq).trans (off.other e hd), t.nack_answers k⟩
  · rw [goDown_discard (off.region r ▸ cut) other]
    have nets := (t.die d).countRT_nets rtIsoDiscards (128 + r) 1
    refine ⟨off.other.trans (OtherDies.modDie t d _), ?_, ?_⟩
    · rw [State.die_modDie_same, Die.ifaces_of_nets nets, off.ifaces]
    · rw [State.die_modDie_same, Die.router_of_nets nets, off.routers _ (by omega)]

end Sys2Proof.Machine

namespace Sys2Proof.Machine

/-! ## O34: epoch switches and the retraining of modules (R311 to R316) -/

/-! ### The banks of a die (R313 step 2) -/

@[simp] theorem Iface.setRoute_active_same (f : Iface) (b : Bool) (dst : Nat) (t : BitVec 96) :
    (f.setRoute b dst t).active b = tput (f.active b) dst t := by
  cases b <;> rfl

/-- A route written into a bank leaves the other bank. -/
@[simp] theorem Iface.setRoute_active_other (f : Iface) (b : Bool) (dst : Nat) (t : BitVec 96) :
    (f.setRoute (!b) dst t).active b = f.active b := by
  cases b <;> rfl

/-- A route of a change written into the inactive bank of its interface. -/
def Die.writeRoute (e : Bool) (x : Die) (r : RouteWrite) : Die := x.modIface (r.iface % 256) fun f => f.setRoute (!e) r.dst r.turns

/-- A redirect of a change written into the inactive map. -/
def Die.writeRedirect (e : Bool) (x : Die) (r : Nat × Nat × Nat) : Die :=
  if e then { x with redir0 := tput x.redir0 (128 * r.1 + r.2.1) r.2.2 }
  else { x with redir1 := tput x.redir1 (128 * r.1 + r.2.1) r.2.2 }

/-- An interface's active bank copied into the inactive one. -/
def Iface.copyBank (e : Bool) (f : Iface) : Iface := if e then { f with bank0 := f.bank1 } else { f with bank1 := f.bank0 }

theorem Iface.copyBank_active (e : Bool) (f : Iface) : (f.copyBank e).active e = f.active e := by cases e <;> rfl

/-- The active banks copied into the inactive ones. -/
def Die.copyBanks (x : Die) : Die :=
  { x with
    ifaces := tmapv x.ifaces fun _ f => f.copyBank x.epoch
    redir0 := if x.epoch then x.redir1 else x.redir0
    redir1 := if x.epoch then x.redir1 else x.redir0, switching := true, flipped := false }

theorem Die.writeBanks_eq (x : Die) (d : Nat) (c : EpochChange) : x.writeBanks d c =
    c.redirects.foldl (Die.writeRedirect x.epoch) ((c.routes.filter fun r => r.iface / 256 == d).foldl (Die.writeRoute x.epoch) x.copyBanks) :=
  rfl

/-- Of a die: its interfaces and its part in a switch. -/
def Die.banks (x : Die) := (x.ifaces, x.switching, x.epoch)

theorem Die.writeRedirect_banks (e : Bool) (x : Die) (r : Nat × Nat × Nat) : (x.writeRedirect e r).banks = x.banks := by
  cases e <;> rfl

theorem Die.copyBanks_active (x : Die) (n : Nat) : (x.copyBanks.iface n).active x.epoch = (x.iface n).active x.epoch := by
  have copied : x.copyBanks.iface n = (x.iface n).copyBank x.epoch :=
    tget_tmapv x.ifaces (fun _ f => f.copyBank x.epoch) n (by cases x.epoch <;> rfl)
  rw [copied, Iface.copyBank_active]

theorem Die.writeRoute_active (e : Bool) (x : Die) (r : RouteWrite) (n : Nat) :
    ((x.writeRoute e r).iface n).active e = (x.iface n).active e := by
  by_cases h : n = r.iface % 256
  · rw [h, Die.writeRoute, Die.iface_modIface_same, Iface.setRoute_active_other]
  · rw [Die.writeRoute, Die.iface_modIface_other _ _ h]

/-- The route to a destination in the inactive bank of an interface. -/
def Die.newRoute (x : Die) (e : Bool) (n dst : Nat) : Option (BitVec 96) := tfind ((x.iface n).active (!e)) dst

theorem Die.writeRoute_newRoute_same (e : Bool) (x : Die) (r : RouteWrite) :
    (x.writeRoute e r).newRoute e (r.iface % 256) r.dst = some r.turns := by
  rw [Die.newRoute, Die.writeRoute, Die.iface_modIface_same, Iface.setRoute_active_same, tfind_tput_same]

theorem Die.writeRoute_newRoute_other (e : Bool) (x : Die) {r q : RouteWrite} {d : Nat} (hr : r.iface / 256 = d) (hq : q.iface / 256 = d)
    (h : (q.iface, q.dst) ≠ (r.iface, r.dst)) :
    (x.writeRoute e q).newRoute e (r.iface % 256) r.dst = x.newRoute e (r.iface % 256) r.dst := by
  rw [Die.newRoute, Die.writeRoute]
  by_cases hi : r.iface % 256 = q.iface % 256
  · have same : q.iface = r.iface := by omega
    have dst : r.dst ≠ q.dst := fun hd => h (by rw [same, hd])
    rw [hi, Die.iface_modIface_same, Iface.setRoute_active_same, tfind_tput_other _ _ dst, Die.newRoute]
  · rw [Die.iface_modIface_other _ _ hi, Die.newRoute]

/-- R313 step 2: the active banks stand, and every route of the change stands in the other bank of its interface. -/
theorem Die.writeBanks_facts (x : Die) (d : Nat) (c : EpochChange) :
    (x.writeBanks d c).switching = true ∧ (x.writeBanks d c).epoch = x.epoch ∧
    (∀ n, ((x.writeBanks d c).iface n).active x.epoch = (x.iface n).active x.epoch) ∧
    ((c.routes.map fun r => (r.iface, r.dst)).Nodup → ∀ r ∈ c.routes, r.iface / 256 = d →
      (x.writeBanks d c).newRoute x.epoch (r.iface % 256) r.dst = some r.turns) := by
  set y := (c.routes.filter fun r => r.iface / 256 == d).foldl (Die.writeRoute x.epoch) x.copyBanks with hy
  have banks : (x.writeBanks d c).banks = y.banks := by
    rw [Die.writeBanks_eq]
    exact foldl_keeps Die.banks (fun r _ x' => Die.writeRedirect_banks x.epoch x' r) y
  have iface (n : Nat) : (x.writeBanks d c).iface n = y.iface n := by
    have ifaces : (x.writeBanks d c).ifaces = y.ifaces := congrArg Prod.fst banks
    rw [Die.iface, ifaces, Die.iface]
  have part : (y.switching, y.epoch) = (true, x.epoch) :=
    foldl_keeps (step := Die.writeRoute x.epoch) (fun x' : Die => (x'.switching, x'.epoch)) (fun r _ x' => rfl) x.copyBanks
  refine ⟨(congrArg (fun n => n.2.1) banks).trans (congrArg Prod.fst part),
    (congrArg (fun n => n.2.2) banks).trans (congrArg Prod.snd part), fun n => ?_, fun nodup r hr hd => ?_⟩
  · rw [iface, ← Die.copyBanks_active]
    exact foldl_keeps (fun x' : Die => (x'.iface n).active x.epoch) (fun r _ x' => Die.writeRoute_active x.epoch x' r n) x.copyBanks
  · rw [Die.newRoute, iface]
    refine foldl_writes (fun x' : Die => x'.newRoute x.epoch (r.iface % 256) r.dst) (List.mem_filter.mpr ⟨hr, by simpa using hd⟩)
      (fun x' => Die.writeRoute_newRoute_same x.epoch x' r) (fun q hq hne x' => ?_) x.copyBanks
    obtain ⟨hq, hqd⟩ := List.mem_filter.mp hq
    refine Die.writeRoute_newRoute_other x.epoch x' hd (by simpa using hqd) fun same => hne ?_
    exact List.inj_on_of_nodup_map nodup hq hr same

/-! ### The switch -/

section
variable {s : State}

theorem exec_epochSwitch {m : BitVec 8} {c : EpochChange} (hr : s.running = true) (ho : s.epochOp = none) (hm : m ≠ 0)
    (hl : ∀ d ∈ maskDies m, d < s.dieCount ∧ s.live d = true) (ht : ∀ d ∈ touched c, d ∈ maskDies m) :
    exec (.epochSwitch m c) s = .next (doEpochSwitch m c s) := by
  have some_die : maskDies m ≠ [] := fun h => hm (BitVec.eq_of_getLsbD_eq fun i hi => by
    simpa [hi] using List.filter_eq_nil_iff.mp h i (List.mem_range.mpr hi))
  refine event_next (by simpa using fun d hd => (hl d hd).1) ?_
  simp only [hr, ho, Option.isNone_none, Bool.and_true, Bool.true_and, Bool.and_eq_true, List.all_eq_true, List.contains_iff_mem,
    Bool.not_eq_true', List.isEmpty_eq_false_iff]
  exact ⟨⟨some_die, fun d hd => (hl d hd).2⟩, ht⟩

theorem doEpochSwitch_bad {m : BitVec 8} {c : EpochChange} (h : s.changeOk c = false) : doEpochSwitch m c s = s := by
  simp [doEpochSwitch, h]

/-- R313 steps 1 and 2, of each die in the mask once. -/
theorem doEpochSwitch_die {m : BitVec 8} {c : EpochChange} (h : s.changeOk c = true) :
    (doEpochSwitch m c s).epochOp = some (m, c) ∧ (∀ d, d ∉ maskDies m → (doEpochSwitch m c s).die d = s.die d) ∧
    ∀ d ∈ maskDies m, (doEpochSwitch m c s).die d = (s.die d).writeBanks d c := by
  obtain ⟨own, others⟩ := State.foldl_own (f := fun s d => s.modDie d fun x => x.writeBanks d c) (fun s d => OtherDies.modDie s d _)
    (maskDies_nodup m) s
  rw [doEpochSwitch, if_pos h]
  refine ⟨rfl, others, fun d hd => ?_⟩
  obtain ⟨u, hu, he⟩ := own d hd
  exact he.trans ((State.die_modDie_same ..).trans (by rw [hu]))

/-- R313 step 3, of a die whose chains and units stay. -/
theorem doEpochFlip_eq {d : Nat} {m : BitVec 8} {c : EpochChange} (ho : s.epochOp = some (m, c)) (hc : c.chains = []) (hr : c.returns = []) :
    doEpochFlip d s = s.modDie d fun x => { x with epoch := !x.epoch, flipped := true, flips := x.flips + 1 } := by
  rw [doEpochFlip, ho]
  dsimp only
  rw [hc, hr]
  rfl

/-! ### The drain of old packets (R313 steps 4 and 5) -/

theorem State.fenceRouter_beside (s : State) (p : Spot) (cause : Nat) : Beside p.die s (s.fenceRouter p cause) := by
  refine (Beside.trans (State.fence_beside ..) (Beside.foldl (fun s v => ?_) _ _)).trans (State.gateError_beside ..)
  split
  · exact State.fenceTile_beside ..
  · split
    · exact State.fenceTile_beside ..
    · split
      · exact (State.fence_beside ..).trans (Beside.modDie_seen _ _ fun x => Die.answerFenced_seen x _ _)
      · exact State.fence_beside ..

/-- The routers of a die that are due are fenced. -/
def State.fenceDue (s : State) (d : Nat) : State :=
  (s.die d).routerSuspects.foldl (fun s k => match s.routerDue d k with
    | some c => s.fenceRouter (spotOf d k) c
    | none => s) s

theorem State.fenceDue_beside (s : State) (d : Nat) : Beside d s (s.fenceDue d) := by
  refine Beside.foldl (fun s k => ?_) _ _
  split
  · exact (spotOf_die d k).subst (motive := fun e => Beside e s _) (State.fenceRouter_beside ..)
  · exact Beside.refl ..

theorem doEpochDrainDone_eq (d : Nat) : doEpochDrainDone d s =
    if ((s.modDie d fun x => { x with switching := false }).fenceDue d).usableDies.any fun e =>
      ((s.modDie d fun x => { x with switching := false }).fenceDue d).inSwitch e &&
        (((s.modDie d fun x => { x with switching := false }).fenceDue d).die e).switching
    then (s.modDie d fun x => { x with switching := false }).fenceDue d
    else { (s.modDie d fun x => { x with switching := false }).fenceDue d with epochOp := none } := rfl

theorem doEpochDrainDone_facts (d : Nat) : ((doEpochDrainDone d s).die d).switching = false ∧
    ((doEpochDrainDone d s).die d).epoch = (s.die d).epoch ∧
    ((∀ e, e ≠ d → (s.die e).switching = false) → (doEpochDrainDone d s).epochOp = none) := by
  have beside := (s.modDie d fun x => { x with switching := false }).fenceDue_beside d
  rw [doEpochDrainDone_eq]
  set t := (s.modDie d fun x => { x with switching := false }).fenceDue d
  have own : ((t.die d).switching, (t.die d).epoch) = (false, (s.die d).epoch) := by
    rw [beside.die.epoch, State.die_modDie_same]
  have other (e : Nat) (he : e ≠ d) : t.die e = s.die e := (beside.other e he).trans (State.die_modDie_other _ _ he)
  have stopped : (t.die d).switching = false := congrArg Prod.fst own
  refine ⟨?_, ?_, fun others => ?_⟩
  · split
    · exact stopped
    · exact stopped
  · split
    · exact congrArg Prod.snd own
    · exact congrArg Prod.snd own
  · rw [if_neg]
    simp only [List.any_eq_true, Bool.and_eq_true, not_exists, not_and]
    intro e _ _
    by_cases he : e = d
    · rw [he, stopped]
      decide
    · rw [other e he, others e he]
      decide

/-! ### Modules (R316, R445) -/

/-- A module's replays counted. -/
def State.replayed (s : State) (d k m n : Nat) : State :=
  (s.modDie d fun x => x.countRT rtUcieReplays (128 + k) n).correctedIn nclkSecond d 13 (4 * k + m) n 1000 none none

/-- Of a die: its modules, its fences and whether it is in service. -/
def Die.links (x : Die) := (x.ucieOut, x.fenced, x.lost)

theorem Die.countRT_links (x : Die) (c : Ctr) (k n : Nat) : (x.countRT c k n).links = x.links := by
  unfold Die.countRT Die.countAt
  dsimp only
  split <;> split <;> rfl

theorem Die.countRT_errIn (x : Die) (c : Ctr) (k n key win : Nat) : (x.countRT c k n).errIn key win = x.errIn key win := by
  unfold Die.countRT Die.countAt
  dsimp only
  split <;> split <;> rfl

theorem Die.addErr_errIn (x : Die) (key win n : Nat) : (x.addErr key win n).errIn key win = x.errIn key win + n := by
  have now : tget (x.addErr key win n).errs key [] =
      ((tget x.errs key []).filter fun e => decide (x.led.cycN.toNat ≤ e.1 + win)) ++ [(x.led.cycN.toNat, n)] := by simp [Die.addErr]
  have time : (x.addErr key win n).led = x.led := rfl
  rw [Die.errIn, now, time, List.filter_append, List.filter_filter]
  simp [Die.errIn]

theorem State.replayed_die (d k m n e : Nat) : (s.replayed d k m n).die e =
    (s.modDie d fun x => (x.countRT rtUcieReplays (128 + k) n).addErr (unitKey 13 (4 * k + m)) nclkSecond n).die e := by
  unfold State.replayed State.correctedIn
  dsimp only
  split
  · exact (State.emit_die ..).trans (by rw [State.modDie_modDie])
  · exact by rw [State.modDie_modDie]

theorem State.replayed_frame (d k m n : Nat) : (s.replayed d k m n).psi = s.psi ∧ (s.replayed d k m n).queues = s.queues ∧
    (s.replayed d k m n).part = s.part := by
  unfold State.replayed State.correctedIn
  dsimp only
  split
  · exact ⟨State.emit_psi .., (State.emit_frame ..).2.2.1, (State.emit_frame ..).1⟩
  · exact ⟨rfl, rfl, rfl⟩

theorem State.replayed_other (d k m n : Nat) : OtherDies s (s.replayed d k m n) d := fun e he => by
  rw [State.replayed_die, State.die_modDie_other _ _ he]

theorem State.replayed_links (d k m n e : Nat) : ((s.replayed d k m n).die e).links = (s.die e).links := by
  rw [State.replayed_die]
  exact State.die_modDie_congr Die.links
    (f := fun x => (x.countRT rtUcieReplays (128 + k) n).addErr (unitKey 13 (4 * k + m)) nclkSecond n)
    (fun x => Eq.trans rfl (x.countRT_links rtUcieReplays (128 + k) n)) s d e

theorem State.replayed_errIn (d k m n : Nat) : ((s.replayed d k m n).die d).errIn (unitKey 13 (4 * k + m)) nclkSecond =
    (s.die d).errIn (unitKey 13 (4 * k + m)) nclkSecond + n := by
  rw [State.replayed_die, State.die_modDie_same, Die.addErr_errIn, Die.countRT_errIn]

/-- Module `j` of die `d` trained again, or out of service. -/
def State.retrained (s : State) (d j : Nat) (ok : Bool) : State :=
  s.modDie d fun x => { x with ucieOut := moduleList x.ucieOut j ok }

theorem exec_ucieRetrain {d k m : Nat} (hs : s.live d = true) (hk : k < 8) (hm : m < 4) (hmod : s.hasModule d k m = true) (n : Nat)
    (ok : Bool) : exec (.ucieRetrain d k m n ok) s = .next (doUcieReplays d k m n ok s) :=
  event_next (by simp [((s.live_iff d).mp hs).2.1, hk, hm, hmod]) hs

theorem doUcieReplays_eq (d k m n : Nat) (ok : Bool) : doUcieReplays d k m n ok s =
    if 10000 ≤ ((s.replayed d k m n).die d).errIn (unitKey 13 (4 * k + m)) nclkSecond then doUcieRetrain d k m ok (s.replayed d k m n)
    else s.replayed d k m n := rfl

theorem doUcieRetrain_eq (d k m : Nat) (ok : Bool) : doUcieRetrain d k m ok s =
    if (s.retrained d (4 * k + m) ok).usableDies.all (s.retrained d (4 * k + m) ok).reached then s.retrained d (4 * k + m) ok
    else (s.retrained d (4 * k + m) ok).fatal 6 := rfl

theorem doUcieReplays_few {d k m n : Nat} (ok : Bool) (few : (s.die d).errIn (unitKey 13 (4 * k + m)) nclkSecond + n < 10000) :
    doUcieReplays d k m n ok s = s.replayed d k m n := by
  rw [doUcieReplays_eq, State.replayed_errIn, if_neg (Nat.not_le.mpr few)]

theorem doUcieReplays_many {d k m n : Nat} (ok : Bool) (many : 10000 ≤ (s.die d).errIn (unitKey 13 (4 * k + m)) nclkSecond + n) :
    doUcieReplays d k m n ok s =
      if ((s.replayed d k m n).retrained d (4 * k + m) ok).usableDies.all ((s.replayed d k m n).retrained d (4 * k + m) ok).reached
      then (s.replayed d k m n).retrained d (4 * k + m) ok
      else ((s.replayed d k m n).retrained d (4 * k + m) ok).fatal 6 := by
  rw [doUcieReplays_eq, State.replayed_errIn, if_pos many, doUcieRetrain_eq]

/-- What routes reach depends on the part, the modules, the fences and the dies in service only. -/
theorem State.reached_congr {s t : State} (part : t.part = s.part) (links : ∀ e, (t.die e).links = (s.die e).links) :
    t.usableDies = s.usableDies ∧ t.reached = s.reached := by
  have count : t.dieCount = s.dieCount := by rw [State.dieCount, part, State.dieCount]
  have out (e : Nat) : (t.die e).ucieOut = (s.die e).ucieOut := congrArg (fun n => n.1) (links e)
  have fenced (e : Nat) : (t.die e).fenced = (s.die e).fenced := congrArg (fun n => n.2.1) (links e)
  have lost (e : Nat) : (t.die e).lost = (s.die e).lost := congrArg (fun n => n.2.2) (links e)
  have usable : t.usable = s.usable := by
    funext e
    rw [State.usable, count, lost, State.usable]
  have next : t.hubNext = s.hubNext := by
    funext e k dir
    simp only [State.hubNext, part, count]
  have up : t.linkUp = s.linkUp := by
    funext e k f j dir
    simp only [State.linkUp, State.moduleUp, out]
  have ok : t.routerOk = s.routerOk := by
    funext p
    simp only [State.routerOk, Die.isFenced, fenced]
  have spread : t.spread = s.spread := by
    funext dirs l
    simp only [State.spread, next, up, ok]
  have spreadN (dirs : List Nat) (n : Nat) : ∀ l, t.spreadN dirs n l = s.spreadN dirs n l := by
    induction n with
    | zero => exact fun _ => rfl
    | succ n ih => exact fun l => by rw [State.spreadN, spread, ih, State.spreadN]
  refine ⟨by rw [State.usableDies, count, usable, State.usableDies], ?_⟩
  funext e
  simp only [State.reached, ok, spreadN]

theorem contains_moduleList_same (l : List Nat) (j : Nat) (ok : Bool) : (moduleList l j ok).contains j = !ok := by
  cases ok
  · simp only [moduleList, Bool.false_eq_true, if_false]
    split
    next h => exact h
    next => simp
  · simp [moduleList]

theorem contains_moduleList_other (l : List Nat) {i j : Nat} (ok : Bool) (h : i ≠ j) : (moduleList l j ok).contains i = l.contains i := by
  cases ok
  · simp only [moduleList, Bool.false_eq_true, if_false]
    split
    · rfl
    · simp [h]
  · simp [moduleList, h]

end

/-! ### The obligation -/

/-- Settles O34: the banks by the order of the writes, the flip and the drain of one die, and the modules by their replays. -/
theorem epochsAndRetraining : Obligations.EpochsAndRetraining := by
  unfold Obligations.EpochsAndRetraining
  refine ⟨⟨fun s m c hr ho hm hl ht => ⟨fun ok => ?_, fun bad => ?_⟩, fun s d m c hs ho hm hsw hf hc hret => ?_, fun s d hs hin hsw hall hold => ?_⟩,
    fun s u d k m n ok hs hk hm hmod => ⟨fun _ few => ?_, fun many hu => ?_⟩⟩
  · obtain ⟨op, others, own⟩ := doEpochSwitch_die (s := s) (m := m) ok
    refine ⟨_, exec_epochSwitch hr ho hm hl ht, op, others, fun d hd => ?_⟩
    obtain ⟨switching, epoch, active, routes⟩ := (s.die d).writeBanks_facts d c
    rw [own d hd, epoch]
    exact ⟨switching, rfl, active, routes⟩
  · exact ⟨_, exec_epochSwitch hr ho hm hl ht, doEpochSwitch_bad bad⟩
  · have hd := ((s.live_iff d).mp hs).2.1
    refine ⟨_, event_next (by simp [hd]) (by simp [hs, State.inSwitch, ho, hm, hsw, hf]), ?_⟩
    rw [doEpochFlip_eq ho hc hret]
    exact ⟨OtherDies.modDie s d _, State.die_modDie_same .., rfl⟩
  · have hd := ((s.live_iff d).mp hs).2.1
    exact ⟨_, event_next (by simp [hd]) (by simp [hs, hin, hsw, hall, hold]), doEpochDrainDone_facts d⟩
  · obtain ⟨psi, queues, -⟩ := State.replayed_frame (s := s) d k m n
    refine ⟨_, exec_ucieRetrain hs hk hm hmod n ok, ?_⟩
    rw [doUcieReplays_few ok few]
    exact ⟨State.replayed_other d k m n, psi, queues, congrArg (fun n => n.1) (State.replayed_links ..)⟩
  · obtain ⟨psi, queues, part⟩ := State.replayed_frame (s := s) d k m n
    have links (e : Nat) : (((s.replayed d k m n).retrained d (4 * k + m) ok).die e).links = (u.die e).links := by
      have known := State.replayed_links (s := s) d k m n
      rw [hu]
      by_cases he : e = d
      · rw [he, State.retrained, State.die_modDie_same, State.die_modDie_same, Die.links, Die.links]
        have out : ((s.replayed d k m n).die d).ucieOut = (s.die d).ucieOut := congrArg (fun n => n.1) (known d)
        exact congrArg₂ Prod.mk (by rw [out]) (congrArg Prod.snd (known d))
      · rw [State.retrained, State.die_modDie_other _ _ he, State.die_modDie_other _ _ he, known]
    obtain ⟨usable, reached⟩ := State.reached_congr (t := (s.replayed d k m n).retrained d (4 * k + m) ok) (s := u)
      (part.trans (by rw [hu]; rfl)) links
    have run := exec_ucieRetrain hs hk hm hmod n ok
    rw [doUcieReplays_many ok many, usable, reached] at run
    refine ⟨fun all => ?_, fun e he cut => ?_⟩
    · have out : ((s.replayed d k m n).die d).ucieOut = (s.die d).ucieOut := congrArg (fun n => n.1) (State.replayed_links ..)
      rw [if_pos (List.all_eq_true.mpr all)] at run
      refine ⟨_, run, (State.replayed_other d k m n).trans (OtherDies.modDie _ d _), psi, queues, ?_, fun j hj => ?_⟩
      · rw [State.retrained, State.die_modDie_same]
        exact contains_moduleList_same ..
      · rw [State.retrained, State.die_modDie_same, ← out]
        exact contains_moduleList_other _ ok hj
    · have running : ((s.replayed d k m n).retrained d (4 * k + m) ok).psi.state ≠ .fatal := by
        have h : ((s.replayed d k m n).retrained d (4 * k + m) ok).psi = s.psi := psi
        rw [h]
        simp [s.running_iff.mp ((s.live_iff d).mp hs).1]
      have stop : ¬ u.usableDies.all u.reached = true := fun h => by
        rw [List.all_eq_true.mp h e he] at cut
        cases cut
      rw [if_neg stop, State.fatal_eq running] at run
      exact ⟨_, run, rfl, rfl, rfl, rfl, rfl⟩

end Sys2Proof.Machine

namespace Sys2Proof.Machine

/-! ## O35: the power cycle of a region (R319 to R322, R343) -/

/-- A fold whose step for `i` changes what is read of `i`, by `g`, and of no other, changes by `g` what is read of each element
of a list without repetition. -/
theorem foldl_each {σ ι β : Type} {step : σ → ι → σ} (read : σ → ι → β) (g : β → β) {l : List ι} (hl : l.Nodup)
    (own : ∀ s, ∀ i ∈ l, read (step s i) i = g (read s i))
    (other : ∀ s, ∀ i ∈ l, ∀ j ∈ l, j ≠ i → read (step s i) j = read s j) (s : σ) :
    ∀ i ∈ l, read (l.foldl step s) i = g (read s i) := by
  induction l generalizing s with
  | nil => simp
  | cons a l ih =>
    obtain ⟨ha, hl⟩ := List.nodup_cons.mp hl
    intro i hi
    rcases List.mem_cons.mp hi with rfl | hi
    · have kept := foldl_keeps (step := step) (fun t => read t i)
        (fun j hj t => other t j (List.mem_cons_of_mem _ hj) i (List.mem_cons_self ..) (fun h => ha (h ▸ hj))) (step s i)
      exact (kept.trans (own s i (List.mem_cons_self ..)))
    · have step_other := other s a (List.mem_cons_self ..) i (List.mem_cons_of_mem _ hi) (fun h => ha (h ▸ hi))
      rw [List.foldl_cons, ih hl (fun t j hj => own t j (List.mem_cons_of_mem _ hj))
        (fun t j hj k hk => other t j (List.mem_cons_of_mem _ hj) k (List.mem_cons_of_mem _ hk)) (step s a) i hi, step_other]

/-! ### Channels -/

theorem regionChans_nodup {r : Nat} (hr : r < 8) : (regionChans r).Nodup := by
  refine List.Nodup.append ?_ (by simp) ?_
  · exact List.nodup_range.map fun a b h => Nat.add_left_cancel h
  · intro c hc hd
    obtain ⟨i, hi, he⟩ := List.mem_map.mp hc
    have own : 8 * r + i = c := he
    have small := List.mem_range.mp hi
    rcases List.mem_cons.mp hd with h | h
    · omega
    · have h := List.mem_singleton.mp h
      omega

/-! ### Self-refresh (R343) -/

/-- Of a die: its routers, its interfaces, its regions and the requests on their way. -/
def Die.paths (x : Die) := (x.routers, x.ifaces, x.regions, x.reqNet)

theorem Die.sleepChans_paths (x : Die) (r : Nat) : (x.sleepChans r).paths = x.paths :=
  foldl_keeps Die.paths (fun c _ x => by split <;> rfl) x

theorem Die.sleepChans_chanState (x : Die) {r : Nat} (hr : r < 8) : ∀ c ∈ regionChans r, (x.sleepChans r).chanState c =
    if x.chanState c = .active then .selfRefresh else x.chanState c := by
  refine foldl_each Die.chanState (fun st => if st = .active then .selfRefresh else st) (regionChans_nodup hr) (fun x c _ => ?_)
    (fun x c _ e _ he => ?_) x
  · by_cases h : x.chanState c = .active <;> simp [h]
  · split
    · exact Die.chanState_setChan_other _ _ he
    · rfl

theorem Die.countMC_mcs (x : Die) (c : Ctr) (m n : Nat) : (x.countMC c m n).mcs = x.mcs ∧ (x.countMC c m n).paths = x.paths := by
  unfold Die.countMC Die.countAt
  dsimp only
  split <;> split <;> exact ⟨rfl, rfl⟩

section
variable {s : State} {d : Nat}

/-- A channel that wakes writes its own die: the channel's state, and two counters. -/
theorem State.wakeChan_facts (s : State) (d c : Nat) : OtherDies s (s.wakeChan d c) d ∧ ((s.wakeChan d c).die d).paths = (s.die d).paths ∧
    ((s.wakeChan d c).die d).chanState c = (if (s.die d).chanState c = .selfRefresh then .active else (s.die d).chanState c) ∧
    ∀ e, e ≠ c → ((s.wakeChan d c).die d).chanState e = (s.die d).chanState e := by
  unfold State.wakeChan
  by_cases h : (s.die d).chanState c = .selfRefresh
  · set n := s.freeNat.1
    obtain ⟨mcs1, paths1⟩ := ((s.die d).setChan c .active).countMC_mcs mcPauses (chanMC c) 1
    obtain ⟨mcs2, paths2⟩ := (((s.die d).setChan c .active).countMC mcPauses (chanMC c) 1).countMC_mcs mcPauseNclk (chanMC c) (n % 587)
    rw [if_pos (beq_iff_eq.mpr h), if_pos h]
    refine ⟨OtherDies.modDie s.freeNat.2 d _, ?_, ?_, fun e he => ?_⟩
    · exact (congrArg Die.paths (State.die_modDie_same ..)).trans (paths2.trans paths1)
    · refine (congrArg (fun x : Die => x.chanState c) (State.die_modDie_same ..)).trans ?_
      exact (Die.chanState_of_mcs (mcs2.trans mcs1) c).trans (Die.chanState_setChan_same ..)
    · refine (congrArg (fun x : Die => x.chanState e) (State.die_modDie_same ..)).trans ?_
      exact (Die.chanState_of_mcs (mcs2.trans mcs1) e).trans (Die.chanState_setChan_other _ _ he)
  · rw [if_neg (by simpa using h), if_neg h]
    exact ⟨OtherDies.refl s d, rfl, rfl, fun _ _ => rfl⟩

/-- The channels of a region that wakes. -/
def State.wakeChans (s : State) (d r : Nat) : State := (regionChans r).foldl (fun s c => s.wakeChan d c) s

theorem State.wakeChans_other (s : State) (d r : Nat) : OtherDies s (s.wakeChans d r) d :=
  OtherDies.foldl (fun s c => (s.wakeChan_facts d c).1) _ s

theorem State.wakeChans_paths (s : State) (d r : Nat) : ((s.wakeChans d r).die d).paths = (s.die d).paths :=
  foldl_keeps (fun t : State => (t.die d).paths) (fun c _ t => (t.wakeChan_facts d c).2.1) s

theorem State.wakeChans_chanState (s : State) (d : Nat) {r : Nat} (hr : r < 8) : ∀ c ∈ regionChans r, ((s.wakeChans d r).die d).chanState c =
    if (s.die d).chanState c = .selfRefresh then .active else (s.die d).chanState c :=
  foldl_each (fun (t : State) c => (t.die d).chanState c) (fun st => if st = .selfRefresh then .active else st) (regionChans_nodup hr)
    (fun t c _ => (t.wakeChan_facts d c).2.2.1) (fun t c _ e _ he => (t.wakeChan_facts d c).2.2.2 e he) s

/-! ### The packets that waited (R320 step 7) -/

/-- Packets that enter an open region one after another. -/
def State.enterAll (s : State) (d r : Nat) (l : List NetPkt) : State :=
  l.foldl (fun s q => s.goDown (spotOf d (128 + r)) (gateSpot d r) q) s

theorem Region.stay_awake {g : Region} (h : g.power = .awake) : g.stay = g := by simp [Region.stay, h]

theorem State.enterAll_facts {r : Nat} (hr : r < 8) (l : List NetPkt) : ∀ s : State, ((s.die d).region r).isolated = false →
    ((s.die d).region r).power = .awake → OtherDies s (s.enterAll d r l) d ∧
    ((s.enterAll d r l).die d).region r = (s.die d).region r ∧ ((s.enterAll d r l).die d).mcs = (s.die d).mcs ∧
    ((s.enterAll d r l).die d).reqNet = (s.die d).reqNet ∧
    ((s.enterAll d r l).die d).router (128 + r) = (s.die d).router (128 + r) ∧
    (((s.enterAll d r l).die d).router (16 * r + 5)).inbox =
      ((s.die d).router (16 * r + 5)).inbox ++ l.map fun k => (inPort 4, sentOn k true) := by
  induction l with
  | nil => exact fun s _ _ => ⟨OtherDies.refl s d, rfl, rfl, rfl, rfl, by simp [State.enterAll]⟩
  | cons k l ih =>
    intro s inside awake
    obtain ⟨others, nets⟩ := goDown_awake (k := k) inside awake
    set t := s.goDown (spotOf d (128 + r)) (gateSpot d r) k with ht
    have region : (t.die d).region r = (s.die d).region r := by
      rw [Die.region_of_nets nets]
      refine (Die.region_modRegion_same ..).trans (Region.stay_awake awake)
    have gate : ((t.die d).router (16 * r + 5)).inbox = ((s.die d).router (16 * r + 5)).inbox ++ [(inPort 4, sentOn k true)] := by
      rw [Die.router_of_nets nets, Die.entered, Die.router_modRouter_same]
      rfl
    have router : (t.die d).router (128 + r) = (s.die d).router (128 + r) := by
      rw [Die.router_of_nets nets, Die.entered, Die.router_modRouter_other _ _ (by omega)]
      rfl
    obtain ⟨others', region', mcs', reqNet', router', gate'⟩ := ih t (region ▸ inside) (region ▸ awake)
    refine ⟨others.trans others', region'.trans region, mcs'.trans ((Die.mcs_of_nets nets).trans rfl),
      reqNet'.trans ((Die.reqNet_of_nets nets).trans rfl), router'.trans router, ?_⟩
    exact gate'.trans (by rw [gate, List.append_assoc, List.map_cons, List.singleton_append])

/-- The region of a die whose rails stand again. -/
def Die.opened (x : Die) (r : Nat) : Die :=
  ({ x with reqNet := (x.router (128 + r)).wakeReq ++ x.reqNet }.modRegion r fun g =>
    { g with power := .awake, wakeSeen := true, gated := false, offDone := false }).modRouter (128 + r) fun q =>
    { q with wakeBuf := [], wakeReq := [] }

/-- A region as it stands when its rails are back. -/
def Region.opened (g : Region) : Region := { g with power := .awake, wakeSeen := true, gated := false, offDone := false }

theorem Die.opened_region (x : Die) (r : Nat) : (x.opened r).region r = (x.region r).opened := by
  rw [Die.opened, Die.region, Die.modRouter_regions, ← Die.region, Die.region_modRegion_same]
  rfl

theorem Die.opened_router_same (x : Die) (r : Nat) :
    (x.opened r).router (128 + r) = { x.router (128 + r) with wakeBuf := [], wakeReq := [] } := by
  rw [Die.opened, Die.router_modRouter_same]
  rfl

theorem Die.opened_router_other (x : Die) {r k : Nat} (h : k ≠ 128 + r) : (x.opened r).router k = x.router k := by
  rw [Die.opened, Die.router_modRouter_other _ _ h]
  rfl

theorem Die.opened_reqNet (x : Die) (r : Nat) : (x.opened r).reqNet = (x.router (128 + r)).wakeReq ++ x.reqNet := rfl

theorem Die.opened_mcs (x : Die) (r : Nat) : (x.opened r).mcs = x.mcs := rfl

theorem doWakeRailsReady_eq (d r : Nat) : doWakeRailsReady d r s =
    ((s.wakeChans d r).modDie d fun x => x.opened r).enterAll d r ((s.die d).router (128 + r)).wakeBuf := rfl

section
variable {x y : Die}

theorem Die.router_of_paths (h : y.paths = x.paths) (k : Nat) : y.router k = x.router k := by
  have hr : y.routers = x.routers := congrArg (fun n => n.1) h
  rw [Die.router, hr, Die.router]

theorem Die.region_of_paths (h : y.paths = x.paths) (r : Nat) : y.region r = x.region r := by
  have hr : y.regions = x.regions := congrArg (fun n => n.2.2.1) h
  rw [Die.region, hr, Die.region]

theorem Die.reqNet_of_paths (h : y.paths = x.paths) : y.reqNet = x.reqNet := congrArg (fun n => n.2.2.2) h

end

end

/-! ### The obligation -/

theorem State.rAt_of_live {s : State} {a : RAt} (hs : s.live a.die = true) (hr : a.region < 8) : s.rAt a = true := by
  simp [State.rAt, ((s.live_iff _).mp hs).2.1, hr]

/-- R320 steps 6 and 7: the region has its channels back, and what waited at its die router has entered. -/
theorem doWakeRailsReady_facts {s : State} {d r : Nat} (hr : r < 8) (inside : ((s.die d).region r).isolated = false) :
    OtherDies s (doWakeRailsReady d r s) d ∧ ((doWakeRailsReady d r s).die d).region r = ((s.die d).region r).opened ∧
    (((doWakeRailsReady d r s).die d).router (128 + r)).wakeBuf = [] ∧
    (((doWakeRailsReady d r s).die d).router (16 * r + 5)).inbox = ((s.die d).router (16 * r + 5)).inbox ++
      (((s.die d).router (128 + r)).wakeBuf.map fun k => (inPort 4, sentOn k true)) ∧
    ((doWakeRailsReady d r s).die d).reqNet = ((s.die d).router (128 + r)).wakeReq ++ (s.die d).reqNet ∧
    ∀ c ∈ regionChans r, ((doWakeRailsReady d r s).die d).chanState c =
      if (s.die d).chanState c = .selfRefresh then .active else (s.die d).chanState c := by
  have paths := s.wakeChans_paths d r
  have own := State.die_modDie_same (s.wakeChans d r) d fun x => x.opened r
  have region : (((s.wakeChans d r).modDie d fun x => x.opened r).die d).region r = ((s.die d).region r).opened := by
    rw [own, Die.opened_region, Die.region_of_paths paths]
  obtain ⟨others, region', mcs', reqNet', router', gate'⟩ := State.enterAll_facts (d := d) hr ((s.die d).router (128 + r)).wakeBuf
    ((s.wakeChans d r).modDie d fun x => x.opened r) (region ▸ inside) (region ▸ rfl)
  rw [doWakeRailsReady_eq]
  refine ⟨((s.wakeChans_other d r).trans (OtherDies.modDie _ d _)).trans others, region'.trans region, ?_, ?_, ?_, fun c hc => ?_⟩
  · rw [router', own, Die.opened_router_same]
  · rw [gate', own, Die.opened_router_other _ (by omega), Die.router_of_paths paths]
  · rw [reqNet', own, Die.opened_reqNet, Die.router_of_paths paths, Die.reqNet_of_paths paths]
  · rw [Die.chanState_of_mcs mcs', own, Die.chanState_of_mcs (Die.opened_mcs ..), s.wakeChans_chanState d hr c hc]

/-- Settles O35: one step of the cycle after the other; the last by the channels, then the packets in their order. -/
theorem regionPowerCycle : Obligations.RegionPowerCycle := by
  unfold Obligations.RegionPowerCycle
  rintro s ⟨d, r⟩ g hs hr rfl
  have units := State.rAt_of_live (a := ⟨d, r⟩) hs hr
  refine ⟨fun may => ?_, fun draining shut idle => ?_, fun gated on => ?_, fun gated off asked => ?_, fun waking off inside => ?_⟩
  · refine ⟨_, event_next units (by simp [hs, may]), OtherDies.modDie s d _, ?_⟩
    rw [State.die_modDie_same, Die.region_modRegion_same]
  · refine ⟨_, event_next units (by simp [hs, draining, shut, idle]), OtherDies.modDie s d _, ?_, ?_⟩
    · rw [State.die_modDie_same, Die.region_modRegion_same]
    · rw [State.die_modDie_same, Die.modRegion_mcs]
  · have own := Die.region_of_paths ((s.die d).sleepChans_paths r) r
    refine ⟨_, event_next units (by simp [hs, gated, on]), OtherDies.modDie s d _, ?_⟩
    rw [State.die_modDie_same, Die.region_modRegion_same, own]
    exact ⟨rfl, fun h => by simp [h], fun h => by simp [h], fun c hc =>
      (Die.chanState_of_mcs (Die.modRegion_mcs ..) c).trans ((s.die d).sleepChans_chanState hr c hc)⟩
  · refine ⟨_, event_next units (by rcases off with off | off <;> simp [hs, gated, off, asked]), OtherDies.modDie s d _, ?_⟩
    rw [State.die_modDie_same, Die.region_modRegion_same]
  · obtain ⟨others, region, buffer, gate, requests, chans⟩ := doWakeRailsReady_facts hr inside
    refine ⟨_, event_next units (by simp [hs, waking, off]), others, ?_⟩
    rw [region]
    exact ⟨rfl, rfl, rfl, buffer, gate, requests, chans⟩

end Sys2Proof.Machine

namespace Sys2Proof.Machine

/-! ## O36: the memory controllers (R331 to R351) -/

/-! ### What a request finds -/

theorem MetersOnly.mcs {x y : Die} (h : MetersOnly x y) : y.mcs = x.mcs := by
  obtain ⟨_, _, _, rfl⟩ := h
  rfl

theorem MetersOnly.mc {x y : Die} (h : MetersOnly x y) (m : Nat) : y.mc m = x.mc m := by
  rw [Die.mc, h.mcs, Die.mc]

theorem MetersOnly.seals {x y : Die} (h : MetersOnly x y) : y.seals = x.seals := by
  obtain ⟨_, _, _, rfl⟩ := h
  rfl

/-- Of a die: the bytes it stores and their seals, its key slots, the segments that hold no data. -/
def Die.store (x : Die) := (x.dram, x.seals, x.sealSlots, x.dropped)

theorem Die.chanUp_modMC (x : Die) (m : Nat) {f : MC → MC} (h : ∀ g, (f g).ch0 = g.ch0 ∧ (f g).ch1 = g.ch1) (c : Nat) :
    (x.modMC m f).chanUp c = x.chanUp c := by
  rw [Die.chanUp, x.chanState_modMC m h, Die.chanUp]

section
variable {s t : State} {d m : Nat}

/-- The remote reads that wait for a controller do not depend on its queue. -/
theorem State.remoteAsks_modMC (f : MC → MC) (hc : ∀ g, (f g).ch0 = g.ch0 ∧ (f g).ch1 = g.ch1) (ha : ∀ g, (f g).askWait = g.askWait) :
    (s.modMC d m f).remoteAsks d m = s.remoteAsks d m := by
  have die : (s.modMC d m f).die d = (s.die d).modMC m f := State.die_modDie_same ..
  have asked (c w : Nat) : tget (((s.die d).modMC m f).mc c).askWait w 0 = tget ((s.die d).mc c).askWait w 0 := by
    by_cases h : c = m
    · rw [h, Die.mc_modMC_same, ha]
    · rw [Die.mc_modMC_other _ _ h]
  have up := (s.die d).chanUp_modMC m hc
  have live (w : Nat) : (s.modMC d m f).wLive d w = s.wLive d w := by
    simp only [State.wLive, State.live, State.usable, State.wringerUp, State.tileNetUp, die]
    rfl
  have stop (w : Nat) (o : WOpen) (r : Resolved) : (s.modMC d m f).readStop d w o r = s.readStop d w o r := by
    simp only [State.readStop, die, up]
    rfl
  have remote (w : Nat) : (s.modMC d m f).remoteAsk d w = s.remoteAsk d w := by
    have next : ((s.die d).modMC m f).nextSheet w = (s.die d).nextSheet w := rfl
    simp only [State.remoteAsk, die, next, live, stop, asked]
  have rt (r port : Nat) : (s.modMC d m f).rtAsk d r port = s.rtAsk d r port := by
    have unit : ((s.die d).modMC m f).rtpUnit r port = (s.die d).rtpUnit r port := rfl
    simp only [State.rtAsk, die, unit]
    rfl
  simp only [State.remoteAsks, remote, rt, die]
  rfl

/-! ### The grant (R346, R347) -/

/-- Requests that have just arrived. -/
def fresh (l : List MReq) : List MWait := l.map fun q => { req := q, waited := 0 }

/-- The state with requests arrived at a controller. -/
def State.arrive (s : State) (d m : Nat) (l : List MReq) : State := s.modMC d m fun g => { g with queue := g.queue ++ fresh l }

theorem Die.mcGrant_one (x : Die) (m : Nat) (q : MReq) : x.mcGrant m (fresh [q]) = some (0, ⟨q, 0⟩) := by
  unfold Die.mcGrant fresh
  cases x.mcPanic m
  · simp [grantPick, argmin]
  · cases h : reqIsPort q <;> simp [grantPick, argmin, h]

/-- Of two requests that have not waited the one of the better class is granted. -/
theorem Die.mcGrant_two (x : Die) {m : Nat} {p q : MReq} (hp : x.mcPanic m = false) (h : q.cls < p.cls) :
    x.mcGrant m (fresh [p, q]) = some (1, ⟨q, 0⟩) := by
  have worse : ¬ p.cls ≤ q.cls := Nat.not_le.mpr h
  have differ : (p.cls == q.cls) = false := by simpa using fun he : p.cls = q.cls => worse (he ▸ Nat.le_refl _)
  simp [Die.mcGrant, hp, fresh, grantPick, argmin, worse, differ]

/-- What stands before a granted request is performed: the controller's queue is `rest`, and no data have moved. -/
structure Granted (s t : State) (d m : Nat) (rest : List MWait) : Prop where
  other  : OtherDies s t d
  queue  : ((t.die d).mc m).queue = rest
  done   : ((t.die d).mc m).done = ((s.die d).mc m).done
  store  : (t.die d).store = (s.die d).store
  up     : ∀ c, (t.die d).chanUp c = (s.die d).chanUp c
  raised : t.raised = s.raised

theorem Granted.metered {rest : List MWait} {f : Die → Die} (h : Granted s t d m rest) (meters : ∀ x, MetersOnly x (f x)) :
    Granted s (t.modDie d f) d m rest := by
  obtain ⟨other, queue, done, store, up, raised⟩ := h
  refine ⟨other.trans (OtherDies.modDie _ d _), ?_, ?_, ?_, fun c => ?_, raised⟩
  · rw [State.die_modDie_same, (meters _).mc, queue]
  · rw [State.die_modDie_same, (meters _).mc, done]
  · rw [State.die_modDie_same, ← store]
    obtain ⟨_, _, _, same⟩ := meters (t.die d)
    rw [same]
    rfl
  · rw [State.die_modDie_same, Die.chanUp, Die.chanState_of_mcs (meters _).mcs, ← Die.chanUp, up]

/-- The state in which a granted request is performed. -/
def State.grantTo (s : State) (d m i : Nat) (w : MWait) (act : Option Nat) : State :=
  let pan := (s.die d).mcPanic m && reqIsPort w.req
  let s2 := s.modMC d m fun g => (g.afterAccess (s.remoteAsks d m) i pan w).activate m act
  if pan then s2.modDie d fun x => x.countMC mcPanicGrants m 1 else s2

theorem State.arrive_die (d m : Nat) (l : List MReq) :
    (s.arrive d m l).die d = (s.die d).modMC m fun g => { g with queue := g.queue ++ fresh l } := State.die_modDie_same ..

theorem State.arrive_mc (d m : Nat) (l : List MReq) : ((s.arrive d m l).die d).mc m =
    { (s.die d).mc m with queue := ((s.die d).mc m).queue ++ fresh l } := by
  rw [State.arrive_die, Die.mc_modMC_same]

theorem State.arrive_queue {l : List MReq} (idle : ((s.die d).mc m).queue = []) :
    (((s.arrive d m l).die d).mc m).queue = fresh l := by
  rw [State.arrive_mc, idle, List.nil_append]

theorem State.arrive_asks (d m : Nat) (l : List MReq) : (s.arrive d m l).remoteAsks d m = s.remoteAsks d m :=
  State.remoteAsks_modMC (fun g => { g with queue := g.queue ++ fresh l }) (fun _ => ⟨rfl, rfl⟩) fun _ => rfl

theorem State.arrive_mcNext {l : List MReq} (idle : ((s.die d).mc m).queue = []) (alone : s.remoteAsks d m = []) :
    (s.arrive d m l).mcNext d m = ((s.arrive d m l).die d).mcGrant m (fresh l) := by
  rw [State.mcNext, State.arrive_queue idle, State.arrive_asks, alone, List.append_nil]

/-- A request of the queue is granted, one that activates no bank. -/
theorem doMemoryAccess_grant {l : List MReq} {i : Nat} {w : MWait} (idle : ((s.die d).mc m).queue = [])
    (next : (s.arrive d m l).mcNext d m = some (i, w)) (hi : i < l.length) (r : MemReport) :
    doMemoryAccess d m l none r s = ((s.arrive d m l).grantTo d m i w none).perform d m w.req r := by
  have inside : ¬ (((s.arrive d m l).die d).mc m).queue.length ≤ i := by
    rw [State.arrive_queue idle, fresh, List.length_map]
    exact Nat.not_le.mpr hi
  unfold doMemoryAccess
  dsimp only
  rw [← fresh, ← State.arrive, next]
  exact (if_neg inside).trans rfl

/-- A grant of a request in the queue, one that activates no bank. -/
theorem State.grantTo_granted (l : List MReq) (i : Nat) (w : MWait) (idle : ((s.die d).mc m).queue = []) :
    Granted s ((s.arrive d m l).grantTo d m i w none) d m (((fresh l).eraseIdx i).map fun k =>
      { k with waited := if (s.die d).mcPanic m && reqIsPort w.req then k.waited + 1 else waitCount k.req.cls w.req.cls k.waited }) := by
  have panic : ((s.arrive d m l).die d).mcPanic m = (s.die d).mcPanic m := by
    rw [State.arrive_die]
    rfl
  have queue := State.arrive_queue (l := l) idle
  have done : (((s.arrive d m l).die d).mc m).done = ((s.die d).mc m).done := by rw [State.arrive_die, Die.mc_modMC_same]
  unfold State.grantTo
  dsimp only
  rw [panic]
  generalize ((s.die d).mcPanic m && reqIsPort w.req) = pan
  generalize (s.arrive d m l).remoteAsks d m = asks
  have core : Granted s ((s.arrive d m l).modMC d m fun g => (g.afterAccess asks i pan w).activate m none) d m
      (((fresh l).eraseIdx i).map fun k => { k with waited := if pan then k.waited + 1 else waitCount k.req.cls w.req.cls k.waited }) := by
    have die : ((s.arrive d m l).modMC d m fun g => (g.afterAccess asks i pan w).activate m none).die d =
        ((s.arrive d m l).die d).modMC m fun g => (g.afterAccess asks i pan w).activate m none := State.die_modDie_same ..
    refine ⟨(OtherDies.modDie s d _).trans (OtherDies.modDie _ d _), ?_, ?_, ?_, fun c => ?_, rfl⟩
    · rw [die, Die.mc_modMC_same, ← queue]
      rfl
    · rw [die, Die.mc_modMC_same, ← done]
      rfl
    · rw [die, State.arrive_die]
      rfl
    · rw [die, State.arrive_die]
      exact (Die.chanUp_modMC _ m (f := fun g => (g.afterAccess asks i pan w).activate m none) (fun _ => ⟨rfl, rfl⟩) c).trans
        (Die.chanUp_modMC _ m (f := fun g => { g with queue := g.queue ++ fresh l }) (fun _ => ⟨rfl, rfl⟩) c)
  cases pan
  · exact core
  · exact core.metered fun x => (MetersOnly.refl x).countMC ..

theorem doMemoryAccess_one {q : MReq} (idle : ((s.die d).mc m).queue = []) (alone : s.remoteAsks d m = []) (r : MemReport) :
    ∃ t, doMemoryAccess d m [q] none r s = t.perform d m q r ∧ Granted s t d m [] := by
  have next : (s.arrive d m [q]).mcNext d m = some (0, ⟨q, 0⟩) := (State.arrive_mcNext idle alone).trans (Die.mcGrant_one ..)
  exact ⟨_, doMemoryAccess_grant idle next (Nat.lt_succ_self 0) r, State.grantTo_granted [q] 0 ⟨q, 0⟩ idle⟩

theorem doMemoryAccess_two {p q : MReq} (idle : ((s.die d).mc m).queue = []) (alone : s.remoteAsks d m = [])
    (calm : (s.die d).mcPanic m = false) (h : q.cls < p.cls) (r : MemReport) :
    ∃ t, doMemoryAccess d m [p, q] none r s = t.perform d m q r ∧ Granted s t d m [⟨p, 1⟩] := by
  have granted := State.grantTo_granted [p, q] 1 ⟨q, 0⟩ idle
  have rest : ((fresh [p, q]).eraseIdx 1).map (fun k => { k with waited :=
      if (false && reqIsPort q) = true then k.waited + 1 else waitCount k.req.cls q.cls k.waited }) = [⟨p, 1⟩] := by
    simp [fresh, waitCount, h]
  have calm' : ((s.arrive d m [p, q]).die d).mcPanic m = false := by
    rw [State.arrive_die]
    exact calm
  have next := (State.arrive_mcNext (l := [p, q]) idle alone).trans (Die.mcGrant_two _ calm' h)
  rw [calm] at granted
  exact ⟨_, doMemoryAccess_grant idle next (Nat.lt_succ_self 1) r, rest ▸ granted⟩

end

end Sys2Proof.Machine

namespace Sys2Proof.Machine

/-! ### The granted request (R331 to R333, R348) -/

/-- A report of a storage and a link without a fault. -/
def noFault : MemReport := ⟨0, 0⟩

section
variable {s t : State} {d m : Nat} {q : MReq} {rest : List MWait}

/-- A controller with one more outcome. -/
theorem State.mcDone_mc (s : State) (d m : Nat) (q : MReq) (st : Status) (data : List Byte) : ((s.mcDone d m q st data).die d).mc m =
    { (s.die d).mc m with done := ((s.die d).mc m).done ++ [⟨q.who, st, data⟩] } := by
  rw [State.mcDone, State.modMC, State.die_modDie_same, Die.mc_modMC_same]

theorem State.mcDone_other (s : State) (d m : Nat) (q : MReq) (st : Status) (data : List Byte) :
    OtherDies s (s.mcDone d m q st data) d := OtherDies.modDie s d _

/-- Of the die an outcome writes its controller only. -/
theorem State.mcDone_die (s : State) (d m : Nat) (q : MReq) (st : Status) (data : List Byte) : (s.mcDone d m q st data).die d =
    (s.die d).modMC m fun g => { g with done := g.done ++ [{ who := q.who, status := st, data := data }] } := State.die_modDie_same ..

theorem State.mcSealFault_facts (s : State) (d : Nat) (q : MReq) : (∀ e, (s.mcSealFault d q).die e = s.die e) ∧
    ∃ v, (s.mcSealFault d q).raised = s.raised ++ [v] ∧ v.code = 0x0014 := by
  have used (e : Event) (he : e.code = 0x0014) : (∀ k, (s.freeNat.2.emit e).die k = s.die k) ∧
      ∃ v, (s.freeNat.2.emit e).raised = s.raised ++ [v] ∧ v.code = 0x0014 := by
    obtain ⟨time, raised⟩ := s.freeNat.2.raised_emit e
    exact ⟨State.emit_die s.freeNat.2 e, _, raised, he⟩
  unfold State.mcSealFault
  split
  next w _ =>
    unfold State.wringSealFault
    obtain ⟨time, raised⟩ := s.raised_emit { Event.blank 0x0014 8 1 .authFail with
      die := d, region := chanRegion w, unitKind := 4, unit := w, arg0 := q.slot
      arg1 := d * 256 + chanRegion w * 32 + if w < 64 then 12 + w % 8 / 2 else 16 + w % 2 }
    exact ⟨State.emit_die s _, _, raised, rfl⟩
  next => exact used _ rfl

theorem perform_lost (h : (s.die d).chanUp q.chan = false) : s.perform d m q noFault = s.mcDone d m q .unitFenced [] := by
  unfold State.perform
  exact if_pos (by rw [h]; rfl)

/-- A request reaches the key slots when its channel is up and its segment holds data. -/
theorem perform_slot (up : (s.die d).chanUp q.chan = true)
    (held : 64 ≤ q.chan → (s.die d).dropped.getLsbD (q.off / 524288 / 2880) = false) (slotted : reqNoSlot q = false) :
    ((s.die d).slotLoaded q.slot = false → s.perform d m q noFault = (s.mcSealFault d q).mcDone d m q .authFail []) ∧
    ((s.die d).slotLoaded q.slot = true →
      (q.wdata = none → s.perform d m q noFault =
        (s.modDie d fun x => (x.countMC mcReadBytes m 64).memAct q.chan (x.reqPayer q) 64).mcDone d m q .ok
          ((s.die d).readSealed (q.chan * 2 ^ 36 + q.off) 64 ((s.die d).keyOf q.slot) (reqTweak q d))) ∧
      ∀ b, q.wdata = some b → s.perform d m q noFault =
        (s.modDie d fun x => ((x.writeSealed (q.chan * 2 ^ 36 + q.off) (x.keyOf q.slot) (reqTweak q d) b).countMC mcWriteBytes m 64).memAct
          q.chan (x.reqPayer q) 64).mcDone d m q .ok []) := by
  have holds : ¬ (64 ≤ q.chan ∧ (s.die d).dropped.getLsbD (q.off / 524288 / 2880) = true) := fun h => by
    rw [held h.1] at h
    exact Bool.false_ne_true h.2
  have quiet : s.mcReport d m q ⟨0, 0⟩ = (s, false) := by simp [State.mcReport]
  refine ⟨fun empty => ?_, fun loaded => ⟨fun read => ?_, fun b write => ?_⟩⟩
  · simp [State.perform, up, holds, slotted, empty]
  · simp [State.perform, up, holds, slotted, loaded, noFault, quiet, read]
  · simp [State.perform, up, holds, slotted, loaded, noFault, quiet, write]

/-- Whatever becomes of a request, the controller has one more outcome of it. -/
theorem perform_answers (s : State) (d m : Nat) (q : MReq) :
    ∃ (u : State) (st : Status) (data : List Byte), s.perform d m q noFault = u.mcDone d m q st data ∧
    (u.die d).mcs = (s.die d).mcs := by
  have quiet : s.mcReport d m q noFault = (s, false) := by simp [State.mcReport, noFault]
  unfold State.perform
  dsimp only
  rw [quiet]
  split
  · exact ⟨_, _, _, rfl, rfl⟩
  · split
    · exact ⟨_, _, _, rfl, rfl⟩
    · split
      · exact ⟨_, _, _, rfl, by rw [(s.mcSealFault_facts d q).1]⟩
      · rw [if_neg (by decide), if_neg (by decide), if_neg Bool.false_ne_true]
        split
        · refine ⟨_, _, _, rfl, ?_⟩
          rw [State.die_modDie_same]
          exact (((MetersOnly.refl _).countMC ..).memAct ..).mcs
        · refine ⟨_, _, _, rfl, ?_⟩
          rw [State.die_modDie_same]
          refine (((MetersOnly.refl _).countMC ..).memAct ..).mcs.trans ?_
          split <;> rfl

/-! ### MEMORY_ACCESS -/

theorem exec_memoryAccess {l : List MReq} (hs : s.live d = true) (hm : m < 48)
    (ready : s.mcServes d m = true ∨ ((s.die d).region (ctlRegion m)).closed = true) (some_req : l ≠ []) (mine : ∀ q ∈ l, reqOn m q = true)
    (room : s.inFlight d + l.length ≤ 16384) : exec (.memoryAccess d m l none noFault) s =
      .next (if s.mcServes d m then doMemoryAccess d m l none noFault s
        else s.modDie d fun x => (x.modMC m fun g => { g with queue := g.queue ++ fresh l }).modRegion (ctlRegion m) Region.reach) := by
  have asked : l.isEmpty = false := List.isEmpty_eq_false_iff.mpr some_req
  refine event_next (by simp [State.mOn, ((s.live_iff d).mp hs).2.1, hm]) ?_
  simp only [Bool.and_eq_true, Bool.or_eq_true, List.all_eq_true, decide_eq_true_eq, hs, asked, Bool.not_false, Bool.false_and,
    true_and, and_true]
  exact ⟨⟨ready, mine⟩, .inl room⟩

/-- A request alone at an idle controller is performed in a state that differs in the controller only. -/
theorem runs_performed {P : State → Prop} (hs : s.live d = true) (hm : m < 48) (serves : s.mcServes d m = true)
    (idle : ((s.die d).mc m).queue = []) (alone : s.remoteAsks d m = []) (room : s.inFlight d + 1 ≤ 16384) (mine : reqOn m q = true)
    (h : ∀ t, Granted s t d m [] → P (t.perform d m q noFault)) : Runs (.memoryAccess d m [q] none noFault) s P := by
  obtain ⟨t, performed, granted⟩ := doMemoryAccess_one (q := q) idle alone noFault
  refine ⟨_, exec_memoryAccess hs hm (.inl serves) (by simp) (by simpa using mine) room, ?_⟩
  rw [if_pos serves, performed]
  exact h t granted

section
variable (g : Granted s t d m rest)
include g

theorem Granted.dram : (t.die d).dram = (s.die d).dram := congrArg (fun n => n.1) g.store

theorem Granted.seals : (t.die d).seals = (s.die d).seals := congrArg (fun n => n.2.1) g.store

theorem Granted.slots : (t.die d).sealSlots = (s.die d).sealSlots := congrArg (fun n => n.2.2.1) g.store

theorem Granted.dropped : (t.die d).dropped = (s.die d).dropped := congrArg (fun n => n.2.2.2) g.store

theorem Granted.keyOf (slot : Nat) : (t.die d).keyOf slot = (s.die d).keyOf slot := by rw [Die.keyOf, g.slots, Die.keyOf]

theorem Granted.slotLoaded (slot : Nat) : (t.die d).slotLoaded slot = (s.die d).slotLoaded slot := by
  rw [Die.slotLoaded, g.slots, Die.slotLoaded]

theorem Granted.readSealed (a n key : Nat) (tweakOf : Nat → Nat) :
    (t.die d).readSealed a n key tweakOf = (s.die d).readSealed a n key tweakOf := by
  rw [Die.readSealed, g.dram, g.seals, Die.readSealed]

/-- The outcome of a request stands at the controller, in a state that changed no more of it than the grant did. -/
theorem Granted.answered {u : State} (mcs : (u.die d).mcs = (t.die d).mcs) (q : MReq) (st : Status) (data : List Byte) :
    (((u.mcDone d m q st data).die d).mc m).queue = rest ∧
    (((u.mcDone d m q st data).die d).mc m).done = ((s.die d).mc m).done ++ [⟨q.who, st, data⟩] := by
  have same : (u.die d).mc m = (t.die d).mc m := by rw [Die.mc, mcs, Die.mc]
  rw [State.mcDone_mc, same]
  exact ⟨g.queue, congrArg (· ++ [_]) g.done⟩

end

/-- R331: the bytes of a sealed write of whole units, their seals, and no others. -/
theorem Die.writeSealed_facts (x : Die) {a key : Nat} (tw : Nat → Nat) {b : List Byte} (ha : a % 16 = 0) (hb : b.length = 64) :
    (∀ i, i < 64 → mread (x.writeSealed a key tw b).dram (a + i) = b.getD i 0 ∧
      tfind (x.writeSealed a key tw b).seals ((a + i) / 16) = some ⟨key, tw (i / 16 * 16)⟩) ∧
    ∀ c, (c < a ∨ a + 64 ≤ c) → mread (x.writeSealed a key tw b).dram c = mread x.dram c := by
  refine ⟨fun i hi => ⟨?_, ?_⟩, fun c hc => mread_mwriteN_outside b x.dram a c (by omega)⟩
  · rw [List.getD_eq_getElem _ _ (by omega)]
    exact mread_mwriteN_inside b x.dram a i (by omega)
  · have unit : (a + i) / 16 = a / 16 + i / 16 := by omega
    have inside : i / 16 < ceilDiv b.length 16 := by unfold ceilDiv; omega
    rw [unit, Nat.mul_comm (i / 16)]
    exact tfind_foldl_tput (fun j => { key := key, tweak := tw (16 * j) }) (a / 16) x.seals inside

/-- What an accepted request is: whole units, and 64 bytes to write. -/
theorem reqOn_facts (h : reqOn m q = true) : (q.chan * 2 ^ 36 + q.off) % 16 = 0 ∧ ∀ b, q.wdata = some b → b.length = 64 := by
  simp only [reqOn, Bool.and_eq_true, beq_iff_eq] at h
  obtain ⟨⟨⟨-, aligned⟩, -⟩, data⟩ := h
  refine ⟨by omega, fun b hb => ?_⟩
  rw [hb] at data
  simpa using data

section
variable (hs : s.live d = true) (hm : m < 48) (serves : s.mcServes d m = true)
  (idle : ((s.die d).mc m).queue = []) (alone : s.remoteAsks d m = []) (room : s.inFlight d + 1 ≤ 16384) (mine : reqOn m q = true)
include hs hm serves idle alone room mine

theorem access_lost (lost : (s.die d).chanUp q.chan = false) :
    Runs (.memoryAccess d m [q] none noFault) s fun t => OtherDies s t d ∧ (t.die d).dram = (s.die d).dram ∧
      ((t.die d).mc m).done = ((s.die d).mc m).done ++ [⟨q.who, .unitFenced, []⟩] := by
  refine runs_performed hs hm serves idle alone room mine fun t g => ?_
  rw [perform_lost ((g.up _).trans lost)]
  refine ⟨g.other.trans (State.mcDone_other _ d m q _ _), ?_, (g.answered rfl ..).2⟩
  rw [State.mcDone_die]
  exact g.dram

variable (up : (s.die d).chanUp q.chan = true) (held : 64 ≤ q.chan → (s.die d).dropped.getLsbD (q.off / 524288 / 2880) = false)
  (slotted : reqNoSlot q = false)
include up held slotted

theorem access_empty (empty : (s.die d).slotLoaded q.slot = false) :
    Runs (.memoryAccess d m [q] none noFault) s fun t => OtherDies s t d ∧ (t.die d).dram = (s.die d).dram ∧
      ((t.die d).mc m).done = ((s.die d).mc m).done ++ [⟨q.who, .authFail, []⟩] ∧ ∃ v, t.raised = s.raised ++ [v] ∧ v.code = 0x0014 := by
  refine runs_performed hs hm serves idle alone room mine fun t g => ?_
  obtain ⟨dies, v, raised, code⟩ := t.mcSealFault_facts d q
  rw [(perform_slot ((g.up _).trans up) (by rwa [g.dropped]) slotted).1 ((g.slotLoaded _).trans empty)]
  refine ⟨(g.other.trans fun e _ => dies e).trans (State.mcDone_other _ d m q _ _), ?_, (g.answered (by rw [dies]) ..).2, v,
    raised.trans (by rw [g.raised]), code⟩
  rw [State.mcDone_die, dies]
  exact g.dram

theorem access_read (loaded : (s.die d).slotLoaded q.slot = true) (read : q.wdata = none) :
    Runs (.memoryAccess d m [q] none noFault) s fun t => OtherDies s t d ∧ (t.die d).dram = (s.die d).dram ∧
      (t.die d).seals = (s.die d).seals ∧ ((t.die d).mc m).queue = [] ∧
      ((t.die d).mc m).done = ((s.die d).mc m).done ++ [⟨q.who, .ok, (s.die d).readSealed (q.chan * 2 ^ 36 + q.off) 64
        ((s.die d).keyOf q.slot) (reqTweak q d)⟩] := by
  refine runs_performed hs hm serves idle alone room mine fun t g => ?_
  rw [((perform_slot ((g.up _).trans up) (by rwa [g.dropped]) slotted).2 ((g.slotLoaded _).trans loaded)).1 read, g.readSealed, g.keyOf]
  have meters (x : Die) : MetersOnly x ((x.countMC mcReadBytes m 64).memAct q.chan (x.reqPayer q) 64) :=
    ((MetersOnly.refl x).countMC ..).memAct ..
  obtain ⟨queue, done⟩ := g.answered (u := t.modDie d fun x => (x.countMC mcReadBytes m 64).memAct q.chan (x.reqPayer q) 64)
    (by rw [State.die_modDie_same, (meters _).mcs]) q .ok
    ((s.die d).readSealed (q.chan * 2 ^ 36 + q.off) 64 ((s.die d).keyOf q.slot) (reqTweak q d))
  refine ⟨(g.other.trans (OtherDies.modDie t d _)).trans (State.mcDone_other _ d m q _ _), ?_, ?_, queue, done⟩
  · rw [State.mcDone_die, Die.modMC_dram, State.die_modDie_same, (meters _).dram, g.dram]
  · rw [State.mcDone_die, Die.modMC_seals, State.die_modDie_same, (meters _).seals, g.seals]

theorem access_write (loaded : (s.die d).slotLoaded q.slot = true) (b : List Byte) (write : q.wdata = some b) :
    Runs (.memoryAccess d m [q] none noFault) s fun t => OtherDies s t d ∧ ((t.die d).mc m).queue = [] ∧
      ((t.die d).mc m).done = ((s.die d).mc m).done ++ [⟨q.who, .ok, []⟩] ∧
      (∀ i, i < 64 → mread (t.die d).dram (q.chan * 2 ^ 36 + q.off + i) = b.getD i 0 ∧
        tfind (t.die d).seals ((q.chan * 2 ^ 36 + q.off + i) / 16) =
          some ⟨(s.die d).keyOf q.slot, reqTweak q d (i / 16 * 16)⟩) ∧
      ∀ a, (a < q.chan * 2 ^ 36 + q.off ∨ q.chan * 2 ^ 36 + q.off + 64 ≤ a) → mread (t.die d).dram a = mread (s.die d).dram a := by
  obtain ⟨aligned, len⟩ := reqOn_facts mine
  refine runs_performed hs hm serves idle alone room mine fun t g => ?_
  rw [((perform_slot ((g.up _).trans up) (by rwa [g.dropped]) slotted).2 ((g.slotLoaded _).trans loaded)).2 b write]
  generalize hf : (fun x : Die => ((x.writeSealed (q.chan * 2 ^ 36 + q.off) (x.keyOf q.slot) (reqTweak q d) b).countMC mcWriteBytes m 64).memAct
    q.chan (x.reqPayer q) 64) = f
  have meters (x : Die) : MetersOnly (x.writeSealed (q.chan * 2 ^ 36 + q.off) (x.keyOf q.slot) (reqTweak q d) b) (f x) :=
    hf ▸ ((MetersOnly.refl _).countMC ..).memAct ..
  obtain ⟨queue, done⟩ := g.answered (u := t.modDie d f) (by rw [State.die_modDie_same, (meters _).mcs]; rfl) q .ok []
  obtain ⟨written, others⟩ := (t.die d).writeSealed_facts (key := (t.die d).keyOf q.slot) (reqTweak q d) aligned (len b write)
  rw [g.keyOf] at written others
  refine ⟨(g.other.trans (OtherDies.modDie t d _)).trans (State.mcDone_other _ d m q _ _), queue, done, ?_⟩
  rw [State.mcDone_die, Die.modMC_dram, Die.modMC_seals, State.die_modDie_same, (meters _).dram, (meters _).seals, g.keyOf]
  exact ⟨written, fun a ha => (others a ha).trans (by rw [g.dram])⟩

end

/-- R346: of two requests that arrive together the one of the better class goes first. -/
theorem access_two {p : MReq} (hs : s.live d = true) (hm : m < 48) (serves : s.mcServes d m = true) (idle : ((s.die d).mc m).queue = [])
    (alone : s.remoteAsks d m = []) (room : s.inFlight d + 2 ≤ 16384) (hp : reqOn m p = true) (hq : reqOn m q = true)
    (h : q.cls < p.cls) (calm : (s.die d).mcPanic m = false) :
    Runs (.memoryAccess d m [p, q] none noFault) s fun t => ((t.die d).mc m).queue = [⟨p, 1⟩] ∧
      ∃ st data, ((t.die d).mc m).done = ((s.die d).mc m).done ++ [⟨q.who, st, data⟩] := by
  obtain ⟨t, performed, granted⟩ := doMemoryAccess_two idle alone calm h noFault
  obtain ⟨u, st, data, answered, mcs⟩ := perform_answers t d m q
  obtain ⟨queue, done⟩ := granted.answered mcs q st data
  refine ⟨_, exec_memoryAccess hs hm (.inl serves) (by simp) (by simpa using ⟨hp, hq⟩) room, ?_⟩
  rw [if_pos serves, performed, answered]
  exact ⟨queue, st, data, done⟩

/-- A region whose port is closed has its network down. -/
theorem Region.closed_facts {g : Region} (h : g.closed = true) : g.reach = { g with asked := true } ∧
    (g.power = .awake → False) ∧ (g.power = .draining → g.gated = true) := by
  refine ⟨if_pos h, fun awake => ?_, fun draining => ?_⟩
  · simp [Region.closed, awake] at h
  · simp only [Region.closed, draining, Bool.and_eq_true] at h
    exact h.2

/-- R82, R320: the request waits, and the region's wake is asked for. -/
theorem access_waits (hs : s.live d = true) (hm : m < 48) (closed : ((s.die d).region (ctlRegion m)).closed = true)
    (room : s.inFlight d + 1 ≤ 16384) (mine : reqOn m q = true) :
    Runs (.memoryAccess d m [q] none noFault) s fun t => OtherDies s t d ∧ (t.die d).dram = (s.die d).dram ∧
      ((t.die d).mc m).queue = ((s.die d).mc m).queue ++ [⟨q, 0⟩] ∧ ((t.die d).mc m).done = ((s.die d).mc m).done ∧
      ((t.die d).region (ctlRegion m)).asked = true := by
  obtain ⟨reach, asleep, gated⟩ := Region.closed_facts closed
  have down : s.tileNetUp d (ctlRegion m) = false := by
    unfold State.tileNetUp
    dsimp only
    split
    next h => exact (asleep h).elim
    next h => rw [gated h]; rfl
    next => rfl
    next => rfl
  have idle : s.mcServes d m = false := by simp [State.mcServes, down]
  refine ⟨_, exec_memoryAccess hs hm (.inr closed) (by simp) (by simpa using mine) room, ?_⟩
  rw [if_neg (by simp [idle])]
  refine ⟨OtherDies.modDie s d _, ?_⟩
  have mc := (s.die d).mc_modMC_same m fun g => { g with queue := g.queue ++ fresh [q] }
  rw [State.die_modDie_same, Die.region_modRegion_same]
  refine ⟨rfl, (congrArg MC.queue mc).trans rfl, (congrArg MC.done mc).trans rfl, ?_⟩
  exact congrArg Region.asked reach

end

/-! ### Upkeep (R337 to R342) -/

section
variable {s : State} {d m : Nat}

theorem State.mOn_of_live (hs : s.live d = true) (hm : m < 48) : s.mOn d m = true := by
  simp [State.mOn, ((s.live_iff d).mp hs).2.1, hm]

theorem refresh_upkeep {bank : Nat} (n : Nat) (hs : s.live d = true) (hm : m < 48) (active : (s.die d).mcActive m = true) :
    (tget ((s.die d).mc m).postponed bank 0 < 4 →
      Runs (.refresh d m bank true n) s fun t => OtherDies s t d ∧
        tget ((t.die d).mc m).postponed bank 0 = tget ((s.die d).mc m).postponed bank 0 + 1 ∧
        ((t.die d).mc m).rfm = ((s.die d).mc m).rfm) ∧
    Runs (.refresh d m bank false n) s fun t => OtherDies s t d ∧ tget ((t.die d).mc m).postponed bank 0 = 0 ∧
      tget ((t.die d).mc m).rfm bank 0 = tget ((s.die d).mc m).rfm bank 0 - n ∧
      ∀ b, b ≠ bank → tget ((t.die d).mc m).rfm b 0 = tget ((s.die d).mc m).rfm b 0 := by
  refine ⟨fun few => ⟨_, event_next (State.mOn_of_live hs hm) (by simp [hs, active, few]), OtherDies.modDie s d _, ?_⟩,
    ⟨_, event_next (State.mOn_of_live hs hm) (by simp [hs, active]), OtherDies.modDie s d _, ?_⟩⟩
  · rw [State.modMC, State.die_modDie_same, Die.mc_modMC_same]
    exact ⟨tget_tmod_same .., rfl⟩
  · rw [State.modMC, State.die_modDie_same, Die.mc_modMC_same]
    have lowered : (((s.die d).mc m).refresh bank false n).rfm = tmod ((s.die d).mc m).rfm bank 0 (· - n) := rfl
    refine ⟨(tget_tdel ..).trans (if_pos rfl), ?_, fun b hb => ?_⟩
    · rw [lowered, tget_tmod_same]
    · rw [lowered, tget_tmod_other _ _ _ _ hb]

theorem rfmIssue_upkeep {bank : Nat} (n : Nat) (hs : s.live d = true) (hm : m < 48) (active : (s.die d).mcActive m = true)
    (wanted : 32 ≤ m ∨ ((s.die d).mc m).rfmReq = true) (reached : ((s.die d).mc m).rfmInit ≤ tget ((s.die d).mc m).rfm bank 0)
    (counted : 1 ≤ tget ((s.die d).mc m).rfm bank 0) :
    Runs (.rfmIssue d m bank n) s fun t => OtherDies s t d ∧
      tget ((t.die d).mc m).rfm bank 0 = tget ((s.die d).mc m).rfm bank 0 - n ∧
      ((t.die d).mc m).postponed = ((s.die d).mc m).postponed := by
  refine ⟨_, event_next (State.mOn_of_live hs hm) (by simp [hs, active, wanted, reached, counted]), OtherDies.modDie s d _, ?_⟩
  have meters (x : Die) : MetersOnly x (x.countMC mcRfm m 1) := (MetersOnly.refl x).countMC ..
  rw [State.die_modDie_same, (meters _).mc, Die.mc_modMC_same]
  exact ⟨tget_tmod_same ((s.die d).mc m).rfm bank 0 (· - n), rfl⟩

/-! ### The patrol (R337) -/

theorem exec_patrolScrub {lc b : Nat} (hs : s.live d = true) (hl : lc < 16) (active : (s.die d).chanState (64 + lc) = .active)
    (next : (s.die d).patrolNext lc = some b) (sev : Nat) : exec (.patrolScrub d lc sev) s = .next (doPatrolScrub d lc sev b s) := by
  change execPatrolScrub d lc sev s = _
  unfold execPatrolScrub
  rw [next]
  exact event_next (by simp [((s.live_iff d).mp hs).2.1, hl]) (by simp [hs, active])

/-- The patrol gone on to the block after `b`. -/
def State.patrolled (s : State) (d lc b : Nat) : State :=
  (s.modMC d (32 + lc) fun g => { g with scrub := (b + 1) % (8 * segBlocks) }).modDie d fun x => x.memAct (64 + lc) .device 1024

theorem State.patrolled_mc (s : State) (d lc b : Nat) : ((s.patrolled d lc b).die d).mc (32 + lc) =
    { (s.die d).mc (32 + lc) with scrub := (b + 1) % 12582912 } := by
  have meters (x : Die) : MetersOnly x (x.memAct (64 + lc) .device 1024) := (MetersOnly.refl x).memAct ..
  rw [State.patrolled, State.die_modDie_same, (meters _).mc, State.modMC, State.die_modDie_same, Die.mc_modMC_same]
  rfl

theorem State.patrolled_other (s : State) (d lc b : Nat) : OtherDies s (s.patrolled d lc b) d :=
  (OtherDies.modDie s d _).trans (OtherDies.modDie _ d _)

/-- A corrected error of a controller shows in `ce_seen`, and nothing else of the controller changes. -/
theorem State.mcCorrected_facts (s : State) (d m : Nat) (ctr : Ctr) (n : Nat) : OtherDies s (s.mcCorrected d m ctr n) d ∧
    ((s.mcCorrected d m ctr n).die d).mc m = { (s.die d).mc m with ceSeen := true } := by
  have meters (x : Die) : MetersOnly x (x.countMC ctr m n) := (MetersOnly.refl x).countMC ..
  have noted (t : State) (k u report : Nat) (region : Option Nat) : OtherDies t (t.corrected d k u n report none region) d ∧
      ((t.corrected d k u n report none region).die d).mc m = (t.die d).mc m := by
    have own : ((t.modDie d fun x => x.addErr (unitKey k u) nclkHour n).die d).mc m = (t.die d).mc m := by
      rw [State.die_modDie_same]
      rfl
    unfold State.corrected State.correctedIn
    dsimp only
    split
    · exact ⟨(OtherDies.modDie t d _).trans fun e _ => State.emit_die .., by rw [State.emit_die, own]⟩
    · exact ⟨OtherDies.modDie t d _, own⟩
  obtain ⟨other, same⟩ := noted (s.modDie d fun x => (x.modMC m fun g => { g with ceSeen := true }).countMC ctr m n) (mcUnit m).1
    (mcUnit m).2 64 (some (ctlRegion m))
  refine ⟨(OtherDies.modDie s d _).trans other, same.trans ?_⟩
  rw [State.die_modDie_same, (meters _).mc, Die.mc_modMC_same]

theorem patrol_upkeep {lc b : Nat} (hs : s.live d = true) (hl : lc < 16) (active : (s.die d).chanState (64 + lc) = .active)
    (next : (s.die d).patrolNext lc = some b) :
    (Runs (.patrolScrub d lc 0) s fun t => OtherDies s t d ∧ t.raised = s.raised ∧
      ((t.die d).mc (32 + lc)).scrub = (b + 1) % 12582912) ∧
    Runs (.patrolScrub d lc 1) s fun t => OtherDies s t d ∧ ((t.die d).mc (32 + lc)).scrub = (b + 1) % 12582912 ∧
      ((t.die d).mc (32 + lc)).ceSeen = true := by
  have clean : doPatrolScrub d lc 0 b s = s.patrolled d lc b := rfl
  have corrected : doPatrolScrub d lc 1 b s = (s.patrolled d lc b).mcCorrected d (32 + lc) mcScrubCorr 1 := rfl
  obtain ⟨other, mc⟩ := (s.patrolled d lc b).mcCorrected_facts d (32 + lc) mcScrubCorr 1
  refine ⟨⟨_, exec_patrolScrub hs hl active next 0, ?_⟩, ⟨_, exec_patrolScrub hs hl active next 1, ?_⟩⟩
  · rw [clean]
    exact ⟨s.patrolled_other d lc b, rfl, congrArg MC.scrub (s.patrolled_mc d lc b)⟩
  · rw [s.patrolled_mc] at mc
    rw [corrected]
    exact ⟨(s.patrolled_other d lc b).trans other, congrArg MC.scrub mc, congrArg MC.ceSeen mc⟩

theorem scrubPoll_upkeep (n : Nat) (hs : s.live d = true) (hm : m < 32) (active : (s.die d).mcActive m = true) :
    Runs (.hbmScrubPoll d m n) s fun t => OtherDies s t d ∧ (t.die d).mcs = (s.die d).mcs ∧
      tget (t.die d).ctrs (ctrKey 5 m mcScrubCorr.idx) 0 = (tget (s.die d).ctrs (ctrKey 5 m mcScrubCorr.idx) 0 + n) % 2 ^ 32 := by
  refine ⟨_, event_next (by simp [((s.live_iff d).mp hs).2.1, hm]) (by simp [hs, active]), OtherDies.modDie s d _, ?_⟩
  have meters (x : Die) : MetersOnly x (x.countMC mcScrubCorr m n) := (MetersOnly.refl x).countMC ..
  rw [State.die_modDie_same]
  refine ⟨(meters _).mcs, ?_⟩
  rw [Die.countMC, if_pos hm]
  exact tget_tput_same ..

/-! ### Training pauses (R341, R342, R348) -/

/-- A pause of a channel, with `fails` failures in succession. -/
def State.paused (s : State) (d c fails nclk : Nat) : State :=
  s.modDie d fun x => ((x.modMC (chanMC c) fun g =>
    { g with pauseFails := tput g.pauseFails c fails, extra := g.extra - 1 }).countMC mcPauses (chanMC c) 1).countMC mcPauseNclk (chanMC c) nclk

theorem exec_retrainPause {c n : Nat} (hs : s.live d = true) (hc : c < 80) (active : (s.die d).chanState c = .active) (hn : n ≤ 586)
    (ok : Bool) : exec (.retrainPause d c ok n) s = .next (doRetrainPause d c ok n s) :=
  event_next (by simp [((s.live_iff d).mp hs).2.1, hc]) (by simp [hs, active, hn])

theorem doRetrainPause_eq (d c : Nat) (ok : Bool) (n : Nat) (s : State) : doRetrainPause d c ok n s =
    if 3 ≤ (if ok then 0 else tget ((s.die d).mc (chanMC c)).pauseFails c 0 + 1) then
      (s.paused d c (if ok then 0 else tget ((s.die d).mc (chanMC c)).pauseFails c 0 + 1) n).loseChannel d c 1
    else s.paused d c (if ok then 0 else tget ((s.die d).mc (chanMC c)).pauseFails c 0 + 1) n := rfl

theorem State.paused_die (s : State) (d c fails n : Nat) : (∀ e, ((s.paused d c fails n).die d).chanState e = (s.die d).chanState e) ∧
    ((s.paused d c fails n).die d).mc (chanMC c) = { (s.die d).mc (chanMC c) with
      pauseFails := tput ((s.die d).mc (chanMC c)).pauseFails c fails, extra := ((s.die d).mc (chanMC c)).extra - 1 } := by
  have meters (x : Die) : MetersOnly x ((x.countMC mcPauses (chanMC c) 1).countMC mcPauseNclk (chanMC c) n) :=
    ((MetersOnly.refl x).countMC ..).countMC ..
  rw [State.paused, State.die_modDie_same, (meters _).mc, Die.mc_modMC_same]
  refine ⟨fun e => (Die.chanState_of_mcs (meters _).mcs e).trans ?_, rfl⟩
  exact Die.chanState_modMC (f := fun g => { g with pauseFails := tput g.pauseFails c fails, extra := g.extra - 1 }) _ _
    (fun _ => ⟨rfl, rfl⟩) e

/-- R348: a channel that is up and is lost stays LOST, and the event says so. -/
theorem State.loseChannel_lost {c : Nat} (cause : Nat) (hd : d < 8) (up : (s.die d).chanUp c = true) :
    ((s.loseChannel d c cause).die d).chanState c = .lost ∧
    ∃ e, e ∈ (s.loseChannel d c cause).raised ∧ e.code = 0x0012 ∧ e.die = d ∧ e.arg0 = frameArg c 0 := by
  unfold State.loseChannel
  rw [if_neg (by simp [up])]
  extract_lets u s1 s2 hs n
  have cut : (s2.die d).chanState c = .lost := by
    have own : s2.die d = (s1.die d).cutChan c := State.die_modDie_same ..
    rw [own, Die.chanState_cutChan, if_pos rfl]
  have rest : Beside d s2 (((s2.markGone d hs .lost false).loseImages d c).modDie d fun x => x.loseRings c) :=
    ((State.markGone_beside ..).trans (State.loseImages_beside ..)).trans (.modDie_seen _ d fun x => x.loseRings_seen c)
  refine ⟨?_, _, State.mem_raised_emit _ hd, rfl, rfl, rfl⟩
  rw [State.emit_die]
  exact rest.die.lost c cut

theorem retrain_upkeep {c n : Nat} (hs : s.live d = true) (hc : c < 80) (active : (s.die d).chanState c = .active) (hn : n ≤ 586) :
    (Runs (.retrainPause d c true n) s fun t => OtherDies s t d ∧ t.raised = s.raised ∧ (t.die d).chanState c = .active ∧
      tget ((t.die d).mc (chanMC c)).pauseFails c 0 = 0 ∧
      ((t.die d).mc (chanMC c)).extra = ((s.die d).mc (chanMC c)).extra - 1) ∧
    (tget ((s.die d).mc (chanMC c)).pauseFails c 0 < 2 →
      Runs (.retrainPause d c false n) s fun t => OtherDies s t d ∧ t.raised = s.raised ∧ (t.die d).chanState c = .active ∧
        tget ((t.die d).mc (chanMC c)).pauseFails c 0 = tget ((s.die d).mc (chanMC c)).pauseFails c 0 + 1) ∧
    (2 ≤ tget ((s.die d).mc (chanMC c)).pauseFails c 0 →
      Runs (.retrainPause d c false n) s fun t => (t.die d).chanState c = .lost ∧
        ∃ e, e ∈ t.raised ∧ e.code = 0x0012 ∧ e.die = d ∧ e.arg0 = frameArg c 0) := by
  have run (ok : Bool) := exec_retrainPause hs hc active hn ok
  refine ⟨⟨_, run true, ?_⟩, fun few => ⟨_, run false, ?_⟩, fun third => ⟨_, run false, ?_⟩⟩
  · obtain ⟨chan, mc⟩ := s.paused_die d c 0 n
    have passed : doRetrainPause d c true n s = s.paused d c 0 n := rfl
    rw [passed, mc, chan]
    exact ⟨OtherDies.modDie s d _, rfl, active, tget_tput_same .., rfl⟩
  · obtain ⟨chan, mc⟩ := s.paused_die d c (tget ((s.die d).mc (chanMC c)).pauseFails c 0 + 1) n
    rw [doRetrainPause_eq, if_neg Bool.false_ne_true, if_neg (by omega), mc, chan]
    exact ⟨OtherDies.modDie s d _, rfl, active, tget_tput_same ..⟩
  · obtain ⟨chan, -⟩ := s.paused_die d c (tget ((s.die d).mc (chanMC c)).pauseFails c 0 + 1) n
    rw [doRetrainPause_eq, if_neg Bool.false_ne_true, if_pos (by omega)]
    have hd : d < 8 := ((s.live_iff d).mp hs).2.1.trans_le s.dieCount_le
    exact State.loseChannel_lost 1 hd (by rw [Die.chanUp, chan, active])

end

/-! ### The obligation -/

/-- Settles O36: the requests by what an idle controller grants, the upkeep command by command. -/
theorem memoryControllers : Obligations.MemoryControllers := by
  unfold Obligations.MemoryControllers
  refine ⟨⟨fun s d m q hs hm serves idle alone room mine => ⟨fun up held slotted loaded => ⟨fun read => ?_, fun b write => ?_⟩,
      fun up held slotted empty => ?_, fun lost => ?_⟩,
    fun s d m p q hs hm serves idle alone room hp hq h calm => access_two hs hm serves idle alone room hp hq h calm,
    fun s d m q hs hm closed room mine => access_waits hs hm closed room mine⟩,
    fun s d m bank n hs hm active => ⟨(refresh_upkeep n hs hm active).1, (refresh_upkeep n hs hm active).2,
      rfmIssue_upkeep n hs hm active⟩,
    fun s d lc b hs hl active next => patrol_upkeep hs hl active next, fun s d m n hs hm active => scrubPoll_upkeep n hs hm active,
    fun s d c n hs hc active hn => retrain_upkeep hs hc active hn⟩
  · exact access_read hs hm serves idle alone room mine up held slotted loaded read
  · exact access_write hs hm serves idle alone room mine up held slotted loaded b write
  · exact access_empty hs hm serves idle alone room mine up held slotted empty
  · exact access_lost hs hm serves idle alone room mine lost

end Sys2Proof.Machine

namespace Sys2Proof.Machine

/-! ## O37: the training of Felt links (R357 to R362, R372) -/

/-! ### Frames on a line (R355, R356, R364)

Sending a frame writes what a link has queued, kept and put on its line (`Felt.quiet` is the rest of a link), and meters. -/

/-- A link without what it has queued, kept and sent. -/
def Felt.quiet (f : Felt) : Felt := { f with txq := [], txNext := 0, kept := [], line := [], sinceFill := 0 }

/-- Of a die: what a Felt link sends nothing of. -/
def Die.offLine (x : Die) := (x.rings, x.pregs, x.regions, x.lost)

/-- Where a frame is put: after it, or after it and a filler. -/
theorem Felt.put_line (f : Felt) (q : FFrame) : ∃ l, (f.put q).line = f.line ++ l ++ [q] ∧ (∀ z ∈ l, z.ftype = 0) ∧
    l.length = if 2047 ≤ f.sinceFill then 1 else 0 := by
  unfold Felt.put
  split
  · refine ⟨[{ FFrame.blank 0 with lack := f.rxLast, replay := f.rxReplay }], by simp, fun z hz => ?_, rfl⟩
    rw [List.mem_singleton.mp hz]
    rfl
  · exact ⟨[], by simp, nofun, rfl⟩

theorem Felt.put_quiet (f : Felt) (q : FFrame) : (f.put q).quiet = f.quiet ∧ (f.put q).kept = f.kept ∧ (f.put q).txq = f.txq := by
  unfold Felt.put
  split <;> exact ⟨rfl, rfl, rfl⟩

section
variable (x : Die) (p : Nat)

theorem Die.putLine_meters (q : FFrame) : MetersOnly (x.modFelt p fun f => f.put q) (x.putLine p q) := by
  unfold Die.putLine
  dsimp only
  split
  · exact ((MetersOnly.refl _).act ..).act ..
  · exact (MetersOnly.refl _).act ..

theorem MetersOnly.felt {x y : Die} (h : MetersOnly x y) (p : Nat) : y.felt p = x.felt p := by
  obtain ⟨_, _, _, rfl⟩ := h
  rfl

theorem MetersOnly.offLine {x y : Die} (h : MetersOnly x y) : y.offLine = x.offLine := by
  obtain ⟨_, _, _, rfl⟩ := h
  rfl

@[simp] theorem Die.putLine_felt (q : FFrame) : (x.putLine p q).felt p = (x.felt p).put q := by
  rw [(x.putLine_meters p q).felt, Die.felt_modFelt_same]

theorem Die.putLine_offLine (q : FFrame) : (x.putLine p q).offLine = x.offLine := (x.putLine_meters p q).offLine

/-- One queued frame sent: numbered, kept, and put on the line. -/
def Die.sendNext (q : FFrame) (r : List FFrame) : Die :=
  let f := x.felt p
  let q1 : FFrame := { q with lseq := f.txNext, lack := f.rxLast, replay := f.rxReplay }
  let x1 := (x.modFelt p fun f => { f with txq := r, txNext := (f.txNext + 1) % 4096, kept := f.kept ++ [q1] }).putLine p q1
  if q.ftype = 1 then x1.count flFramesTx p 1 else x1

theorem Die.sendNext_felt (q : FFrame) (r : List FFrame) : (x.sendNext p q r).felt p =
    ({ x.felt p with
      txq := r, txNext := ((x.felt p).txNext + 1) % 4096
      kept := (x.felt p).kept ++ [{ q with lseq := (x.felt p).txNext, lack := (x.felt p).rxLast, replay := (x.felt p).rxReplay }] } : Felt).put
      { q with lseq := (x.felt p).txNext, lack := (x.felt p).rxLast, replay := (x.felt p).rxReplay } := by
  unfold Die.sendNext
  dsimp only
  split
  · rw [((MetersOnly.refl _).count ..).felt, Die.putLine_felt, Die.felt_modFelt_same]
  · rw [Die.putLine_felt, Die.felt_modFelt_same]

theorem Die.sendNext_rest (q : FFrame) (r : List FFrame) :
    ((x.sendNext p q r).felt p).quiet = (x.felt p).quiet ∧ (x.sendNext p q r).offLine = x.offLine := by
  refine ⟨by rw [Die.sendNext_felt, (Felt.put_quiet ..).1]; rfl, ?_⟩
  unfold Die.sendNext
  dsimp only
  split
  · rw [((MetersOnly.refl _).count ..).offLine, Die.putLine_offLine]
    rfl
  · rw [Die.putLine_offLine]
    rfl

theorem Die.pumpLink_empty {x : Die} {p : Nat} (h : (x.felt p).txq = []) (n : Nat) : x.pumpLink p n = x := by
  cases n with
  | zero => rfl
  | succ n =>
    rw [Die.pumpLink]
    simp only [h]

/-- One turn of the transmitter. -/
theorem Die.pumpLink_succ {x : Die} {p : Nat} {q : FFrame} {r : List FFrame} (h : (x.felt p).txq = q :: r) (n : Nat) :
    x.pumpLink p (n + 1) = if (x.felt p).st == .active && decide ((x.felt p).kept.length < 256) then (x.sendNext p q r).pumpLink p n else x := by
  rw [Die.pumpLink]
  simp only [h]
  rfl

/-- Sending leaves the rest of the link and of the die. -/
theorem Die.pumpLink_rest (n : Nat) : ∀ x : Die, ((x.pumpLink p n).felt p).quiet = (x.felt p).quiet ∧ (x.pumpLink p n).offLine = x.offLine := by
  induction n with
  | zero => exact fun x => ⟨rfl, rfl⟩
  | succ n ih =>
    intro x
    cases h : (x.felt p).txq with
    | nil =>
      rw [Die.pumpLink_empty h]
      exact ⟨rfl, rfl⟩
    | cons q r =>
      rw [Die.pumpLink_succ h]
      split
      · obtain ⟨felt, rest⟩ := x.sendNext_rest p q r
        exact ⟨(ih _).1.trans felt, (ih _).2.trans rest⟩
      · exact ⟨rfl, rfl⟩

theorem Die.pumpAll_quiet : ((x.pumpAll p).felt p).quiet = (x.felt p).quiet := (Die.pumpLink_rest p 256 x).1

theorem Die.pumpAll_offLine : (x.pumpAll p).offLine = x.offLine := (Die.pumpLink_rest p 256 x).2

end

/-! ### Training frames (R357, R358, R361, R362) -/

section
variable {f : Felt} {own lane : Nat} {l : List Byte} {ok : Bool}

theorem getLsbD_or_lane (v : BitVec 4) (h : lane < 4) : (v ||| BitVec.ofNat 4 (2 ^ lane)).getLsbD lane = true := by
  rw [BitVec.getLsbD_or, BitVec.getLsbD_ofNat, Nat.testBit_two_pow_self]
  simp [h]

theorem getLsbD_without_lane (v : BitVec 4) (h : lane < 4) : (v &&& ~~~(BitVec.ofNat 4 (2 ^ lane))).getLsbD lane = false := by
  rw [BitVec.getLsbD_and, BitVec.getLsbD_not, BitVec.getLsbD_ofNat, Nat.testBit_two_pow_self]
  simp [h]

theorem Felt.train_invalid (h : trainOk l = false) (hi : trainOk (l.map fun b => ~~~b) = false) : f.train own lane l ok = f := by
  simp [Felt.train, trainIn, h, hi]

/-- A link that has seen a frame of a lane whose polarity is right. -/
def Felt.upright (f : Felt) (lane : Nat) : Felt := { f with flipped := f.flipped &&& ~~~(BitVec.ofNat 4 (2 ^ lane)) }

theorem Felt.train_valid (h : trainOk l = true) :
    f.train own lane l ok = (f.upright lane).trained own lane l ok := by
  simp [Felt.train, trainIn, h, Felt.upright]

/-- A link that has seen a frame of a lane whose polarity is inverted. -/
def Felt.turned (f : Felt) (lane : Nat) : Felt := { f with flipped := f.flipped ||| BitVec.ofNat 4 (2 ^ lane) }

theorem Felt.train_inverted (h : trainOk l = false) (hi : trainOk (l.map fun b => ~~~b) = true) : f.train own lane l ok =
    (f.turned lane).trained own lane (l.map fun b => ~~~b) ok := by
  simp [Felt.train, trainIn, h, hi, Felt.turned]

theorem Felt.trained_detect (h : f.st = .detect) : f.trained own lane l ok = f.inDetect lane l ok := by rw [Felt.trained, h]

theorem Felt.trained_discover (h : f.st = .discover) : f.trained own lane l ok = f.inDiscover own l := by rw [Felt.trained, h]

theorem Felt.trained_equalise (h : f.st = .equalise) : f.trained own lane l ok = f.inEqualise lane l ok := by rw [Felt.trained, h]

/-- In a state outside training a frame tells nothing. -/
theorem Felt.trained_settled (h : f.st = .down ∨ f.st = .align ∨ f.st = .active ∨ f.st = .idle ∨ f.st = .folded ∨ f.st = .waking) :
    f.trained own lane l ok = f := by
  rcases h with h | h | h | h | h | h <;> rw [Felt.trained, h]

theorem Felt.inDetect_flipped : (f.inDetect lane l ok).flipped = f.flipped := by
  unfold Felt.inDetect
  split
  · dsimp only
    split <;> rfl
  · rfl

theorem Felt.inDiscover_flipped : (f.inDiscover own l).flipped = f.flipped := by
  unfold Felt.inDiscover
  dsimp only
  split
  · split <;> rfl
  · split <;> rfl

/-- Training keeps the polarities. -/
theorem Felt.trained_flipped : (f.trained own lane l ok).flipped = f.flipped := by
  cases h : f.st with
  | detect => rw [Felt.trained_detect h, Felt.inDetect_flipped]
  | discover => rw [Felt.trained_discover h, Felt.inDiscover_flipped]
  | equalise =>
    rw [Felt.trained_equalise h]
    rfl
  | down => rw [Felt.trained, h]
  | align => rw [Felt.trained, h]
  | active => rw [Felt.trained, h]
  | idle => rw [Felt.trained, h]
  | folded => rw [Felt.trained, h]
  | waking => rw [Felt.trained, h]
  | claimed => rw [Felt.trained, h]

/-- R359: in DETECT a lane whose loop is locked counts, and four of them lead to DISCOVER. -/
theorem Felt.train_detect (h : trainOk l = true) (hst : f.st = .detect) :
    (ok = false → (f.train own lane l ok).st = .detect ∧
      (f.train own lane l ok).lanesOk = f.lanesOk &&& ~~~(BitVec.ofNat 4 (2 ^ lane))) ∧
    (ok = true → f.lanesOk ||| BitVec.ofNat 4 (2 ^ lane) = 15 → (f.train own lane l ok).st = .discover ∧
      (f.train own lane l ok).pPkg = fieldAt l 20 1 % 64 ∧ (f.train own lane l ok).pLink = fieldAt l 21 1 % 64 ∧
      (f.train own lane l ok).pRates = fieldAt l 10 1 % 8) ∧
    (ok = true → f.lanesOk ||| BitVec.ofNat 4 (2 ^ lane) ≠ 15 → (f.train own lane l ok).st = .detect ∧
      (f.train own lane l ok).lanesOk = f.lanesOk ||| BitVec.ofNat 4 (2 ^ lane)) := by
  rw [Felt.train_valid h, Felt.trained_detect (f := f.upright lane) hst]
  refine ⟨?_, ?_, ?_⟩
  · rintro rfl
    exact ⟨hst, rfl⟩
  · rintro rfl all
    have locked : (f.upright lane).inDetect lane l true = { (f.upright lane).learn l with
        lanesOk := f.lanesOk ||| BitVec.ofNat 4 (2 ^ lane), st := .discover, seen := 0, pRates := fieldAt l 10 1 % 8 } :=
      (if_pos rfl).trans (if_pos all)
    rw [locked]
    exact ⟨rfl, rfl, rfl, rfl⟩
  · rintro rfl some_left
    have counted : (f.upright lane).inDetect lane l true = { f.upright lane with lanesOk := f.lanesOk ||| BitVec.ofNat 4 (2 ^ lane) } :=
      (if_pos rfl).trans (if_neg some_left)
    rw [counted]
    exact ⟨hst, rfl⟩

/-- R361: in DISCOVER the partner's rates are seen three times unchanged, and the next frame leads to EQUALISE. -/
theorem Felt.train_discover (h : trainOk l = true) (hst : f.st = .discover) :
    (f.seen < 3 → (f.train own lane l ok).st = .discover ∧
      (f.train own lane l ok).seen = if fieldAt l 10 1 % 8 = f.pRates then f.seen + 1 else 1) ∧
    ∀ k, 3 ≤ f.seen → commonRate own f.pRates 3 = some k →
      (f.train own lane l ok).st = .equalise ∧ (f.train own lane l ok).rate = k := by
  rw [Felt.train_valid h, Felt.trained_discover (f := f.upright lane) hst]
  refine ⟨fun few => ?_, fun k enough common => ?_⟩
  · have early : ¬ 3 ≤ f.seen := Nat.not_le.mpr few
    by_cases same : fieldAt l 10 1 % 8 = f.pRates <;> simp [Felt.inDiscover, Felt.upright, early, same, Felt.learn, hst]
  · simp [Felt.inDiscover, Felt.upright, enough, common]

/-- R362: in EQUALISE the partner's request is answered, and both sides' readiness leads to ALIGN. -/
theorem Felt.train_equalise (hl : lane < 4) (h : trainOk l = true) (hst : f.st = .equalise) :
    (f.train own lane l ok).st =
      (if (f.train own lane l ok).pReady = 15 ∧ (f.train own lane l ok).myReady = 15 then .align else .equalise) ∧
    (f.train own lane l ok).myReady.getLsbD lane = ok ∧
    (f.train own lane l ok).pReady.getLsbD lane = bitAt (fieldAt l 9 1) 0 ∧
    (1 ≤ fieldAt l 8 1 → fieldAt l 8 1 ≤ 4 → tget (f.train own lane l ok).taps lane Taps.p1 = presetTaps (fieldAt l 8 1)) ∧
    ∀ j, j ≠ lane → tget (f.train own lane l ok).taps j Taps.p1 = tget f.taps j Taps.p1 := by
  rw [Felt.train_valid h, Felt.trained_equalise (f := f.upright lane) hst]
  refine ⟨rfl, ?_, ?_, fun low high => ?_, fun j hj => ?_⟩
  · cases ok
    · exact getLsbD_without_lane _ hl
    · exact getLsbD_or_lane _ hl
  · cases hp : bitAt (fieldAt l 9 1) 0
    · simp only [Felt.inEqualise, hp, Bool.false_eq_true, if_false]
      exact getLsbD_without_lane _ hl
    · simp only [Felt.inEqualise, hp, if_true]
      exact getLsbD_or_lane _ hl
  · simp [Felt.inEqualise, low, high]
  · exact tget_tput_other _ _ _ hj

end

/-! ### The commands -/

section
variable {s : State} {d p : Nat}

theorem runs_trainingFrame {P : State → Prop} {lane : Nat} {l : List Byte} {ok : Bool} (on : s.portOn d p = true) (hl : lane < 4)
    (live : s.portLive d p = true) (free : ((s.die d).felt p).st ≠ .claimed)
    (h : ∀ t, OtherDies s t d → (t.die d).felt p = ((s.die d).felt p).train ((s.die d).feltOffer p) lane l ok → P t) :
    Runs (.trainingFrame d p lane l ok) s P := by
  refine ⟨_, event_next (by simp [on, hl]) (by simp [live, State.linkSt, free]), h _ (OtherDies.modDie s d _) ?_⟩
  rw [State.die_modDie_same, Die.felt_modFelt_same]

/-- A link that goes to DETECT without a departure. -/
theorem State.linkDetect_facts (s : State) (d p : Nat) : OtherDies s (s.linkDetect d p false) d ∧
    ((s.linkDetect d p false).die d).felt p = ((s.die d).felt p).goDetect ∧ (s.linkDetect d p false).raised = s.raised := by
  rw [State.linkDetect_quiet]
  exact ⟨OtherDies.modDie s d _, by rw [State.die_modDie_same, Die.felt_modFelt_same], rfl⟩

/-- A departure is noted with the link, and reported. -/
theorem State.depart_facts (s : State) (d p : Nat) (left : LState) : OtherDies s (s.depart d p left) d ∧
    ((s.depart d p left).die d).felt p = { (s.die d).felt p with departed := true } ∧
    ∃ v, (s.depart d p left).raised = s.raised ++ [v] ∧ v.code = 0x0021 ∧ v.die = d ∧ v.unit = 8 * d + p := by
  unfold State.depart
  obtain ⟨time, raised⟩ := (s.modDie d fun x => (x.modFelt p fun f => { f with departed := true }).count flDeparts p 1).raised_emit
    (linkEvent 0x0021 d p ((s.die d).felt p) left)
  refine ⟨(OtherDies.modDie s d _).trans fun e _ => State.emit_die .., ?_, _, raised, rfl, rfl, rfl⟩
  rw [State.emit_die, State.die_modDie_same, ((MetersOnly.refl _).count ..).felt, Die.felt_modFelt_same]

/-- R359: a link that is not claimed goes DOWN. -/
theorem State.linkDown_facts (free : ((s.die d).felt p).st ≠ .claimed) : OtherDies s (s.linkDown d p) d ∧
    (((s.linkDown d p).die d).felt p).st = .down ∧ (((s.linkDown d p).die d).felt p).rate = 0 := by
  have own : ((s.modDie d fun x => x.modFelt p Felt.goDown).die d).felt p = ((s.die d).felt p).goDown := by
    rw [State.die_modDie_same, Die.felt_modFelt_same]
  have down := OtherDies.modDie s d fun x => x.modFelt p Felt.goDown
  have departed (left : LState) := (s.modDie d fun x => x.modFelt p Felt.goDown).depart_facts d p left
  unfold State.linkDown
  dsimp only
  rw [if_neg (by simpa using free)]
  split
  · obtain ⟨other, felt, -⟩ := departed ((s.die d).felt p).st
    rw [felt, own]
    exact ⟨down.trans other, rfl, rfl⟩
  · split
    · obtain ⟨other, felt, -⟩ := departed .waking
      rw [felt, own]
      exact ⟨down.trans other, rfl, rfl⟩
    · rw [own]
      exact ⟨down, rfl, rfl⟩

/-- The highest common rate at or below `top` is at or below `top`. -/
theorem commonRate_le {a b top k : Nat} (h : commonRate a b top = some k) : k ≤ top := by
  unfold commonRate at h
  split at h
  next c => exact Option.some.inj h ▸ c.1
  next =>
    split at h
    next c => exact Option.some.inj h ▸ c.1
    next =>
      split at h
      next c => exact Option.some.inj h ▸ c.1
      next => cases h

theorem State.trainFail_facts (free : ((s.die d).felt p).st ≠ .claimed) :
    (∀ k, 2 ≤ ((s.die d).felt p).rate →
      commonRate ((s.die d).feltOffer p) ((s.die d).felt p).pRates (((s.die d).felt p).rate - 1) = some k →
      OtherDies s (s.trainFail d p) d ∧ (((s.trainFail d p).die d).felt p).st = .equalise ∧
        (((s.trainFail d p).die d).felt p).rate = k ∧ k < ((s.die d).felt p).rate ∧ (s.trainFail d p).raised = s.raised) ∧
    (((s.die d).felt p).rate ≤ 1 → OtherDies s (s.trainFail d p) d ∧ (((s.trainFail d p).die d).felt p).st = .down) := by
  refine ⟨fun k fast common => ?_, fun slow => ?_⟩
  · have lower := commonRate_le common
    have retried : s.trainFail d p = s.modDie d fun x => x.modFelt p fun f =>
        { f with st := .equalise, rate := k, tryRate := k, taps := [], tapStat := [], pReady := 0, myReady := 0 } := by
      unfold State.trainFail
      dsimp only
      rw [if_neg (by omega), common]
    rw [retried, State.die_modDie_same, Die.felt_modFelt_same]
    exact ⟨OtherDies.modDie s d _, rfl, rfl, by omega, rfl⟩
  · have down : s.trainFail d p = s.linkDown d p := by
      unfold State.trainFail
      dsimp only
      rw [if_pos slow]
    obtain ⟨other, st, -⟩ := State.linkDown_facts free
    rw [down]
    exact ⟨other, st⟩

/-- R359, R372: the link is ACTIVE with an arrival, and keeps what training has found. -/
theorem State.linkUpNow_facts (s : State) (d p : Nat) : OtherDies s (s.linkUpNow d p) d ∧
    (((s.linkUpNow d p).die d).felt p).quiet = { ((s.die d).felt p).quiet with st := .active, arrived := true, wakeFailed := false } ∧
    ∃ v, (s.linkUpNow d p).raised = s.raised ++ [v] ∧ v.code = 0x0020 ∧ v.die = d ∧ v.unit = 8 * d + p := by
  unfold State.linkUpNow
  obtain ⟨time, raised⟩ := (s.modDie d fun x =>
    (x.modFelt p fun f => { f with st := .active, arrived := true, wakeFailed := false }).pumpAll p).raised_emit
    (linkEvent 0x0020 d p ((s.die d).felt p) .align)
  refine ⟨(OtherDies.modDie s d _).trans fun e _ => State.emit_die .., ?_, _, raised, rfl, rfl, rfl⟩
  rw [State.emit_die, State.die_modDie_same, Die.pumpAll_quiet, Die.felt_modFelt_same]
  rfl

/-- R359, R360: a DOWN link that is enabled enters DETECT on a signal, or when its retry is due. -/
theorem runs_detect {i : Instr} (i_is : i = .signalDetect d p ∨ i = .linkRetry d p) (on : s.portOn d p = true)
    (live : s.portLive d p = true) (down : ((s.die d).felt p).st = .down) (enabled : (s.die d).feltEnable p = true) :
    Runs i s fun t => OtherDies s t d ∧ ((t.die d).felt p).st = .detect ∧ ((t.die d).felt p).rate = 1 ∧ t.raised = s.raised := by
  obtain ⟨other, felt, raised⟩ := s.linkDetect_facts d p
  have st : s.linkSt d p = .down := down
  refine ⟨s.linkDetect d p false, ?_, other, by rw [felt]; rfl, by rw [felt]; rfl, raised⟩
  rcases i_is with rfl | rfl
  · exact (event_next on (by simp [live, st, enabled])).trans (congrArg Host.Outcome.next (if_pos st))
  · exact event_next on (by simp [live, st, enabled])

/-- R359: a signal wakes an IDLE link. -/
theorem runs_signal_idle (on : s.portOn d p = true) (live : s.portLive d p = true) (idle : ((s.die d).felt p).st = .idle) :
    Runs (.signalDetect d p) s fun t => OtherDies s t d ∧ ((t.die d).felt p).st = .active ∧ t.raised = s.raised := by
  have st : s.linkSt d p = .idle := idle
  refine ⟨_, (event_next on (by simp [live, st])).trans (congrArg Host.Outcome.next (if_neg (by simp [st]))), OtherDies.modDie s d _, ?_, rfl⟩
  rw [State.die_modDie_same]
  have quiet := (((s.die d).modFelt p fun f => { f with st := .active }).pumpAll_quiet p)
  rw [Die.felt_modFelt_same] at quiet
  exact congrArg Felt.st quiet

theorem exec_trainingTimeout (on : s.portOn d p = true) (live : s.portLive d p = true)
    (st : ((s.die d).felt p).st = .detect ∨ ((s.die d).felt p).st = .equalise ∨ ((s.die d).felt p).st = .align) :
    exec (.trainingTimeout d p) s = .next (if s.linkSt d p = .detect then s.linkDown d p else s.trainFail d p) :=
  event_next on (by simpa [live, State.linkSt, or_assoc] using st)

/-- R359: ten milliseconds in DETECT lead to DOWN. -/
theorem runs_timeout_detect (on : s.portOn d p = true) (live : s.portLive d p = true) (st : ((s.die d).felt p).st = .detect) :
    Runs (.trainingTimeout d p) s fun t => OtherDies s t d ∧ ((t.die d).felt p).st = .down ∧ ((t.die d).felt p).rate = 0 :=
  ⟨_, (exec_trainingTimeout on live (.inl st)).trans (congrArg Host.Outcome.next (if_pos st)), State.linkDown_facts (by rw [st]; nofun)⟩

/-- R359: ten milliseconds in training lead to the next lower common rate, or DOWN. -/
theorem runs_timeout_training (on : s.portOn d p = true) (live : s.portLive d p = true)
    (st : ((s.die d).felt p).st = .equalise ∨ ((s.die d).felt p).st = .align) :
    (∀ k, 2 ≤ ((s.die d).felt p).rate →
      commonRate ((s.die d).feltOffer p) ((s.die d).felt p).pRates (((s.die d).felt p).rate - 1) = some k →
      Runs (.trainingTimeout d p) s fun t => OtherDies s t d ∧ ((t.die d).felt p).st = .equalise ∧
        ((t.die d).felt p).rate = k ∧ k < ((s.die d).felt p).rate ∧ t.raised = s.raised) ∧
    (((s.die d).felt p).rate ≤ 1 →
      Runs (.trainingTimeout d p) s fun t => OtherDies s t d ∧ ((t.die d).felt p).st = .down) := by
  have later : ¬ s.linkSt d p = .detect := by rcases st with h | h <;> simp [State.linkSt, h]
  have run := (exec_trainingTimeout on live (.inr st)).trans (congrArg Host.Outcome.next (if_neg later))
  obtain ⟨retry, down⟩ := State.trainFail_facts (s := s) (d := d) (p := p) (by rcases st with h | h <;> simp [h])
  exact ⟨fun k fast common => ⟨_, run, retry k fast common⟩, fun slow => ⟨_, run, down slow⟩⟩

/-- R357, R359: a measurement in ALIGN makes the link ACTIVE, or fails. -/
theorem runs_alignMeasure (on : s.portOn d p = true) (live : s.portLive d p = true) (st : ((s.die d).felt p).st = .align)
    (lanes : List Nat) (skew err : Nat) :
    (lanesMapped lanes = true → skew ≤ 40 → err ≤ 100 →
      Runs (.alignMeasureDone d p lanes skew err) s fun t => OtherDies s t d ∧ ((t.die d).felt p).st = .active ∧
        ((t.die d).felt p).laneMap = lanes ∧ ((t.die d).felt p).arrived = true ∧ ((t.die d).felt p).rate = ((s.die d).felt p).rate ∧
        ∃ v, t.raised = s.raised ++ [v] ∧ v.code = 0x0020 ∧ v.die = d ∧ v.unit = 8 * d + p) ∧
    ((lanesMapped lanes = false ∨ 40 < skew ∨ 100 < err) → ((s.die d).felt p).rate ≤ 1 →
      Runs (.alignMeasureDone d p lanes skew err) s fun t => OtherDies s t d ∧ ((t.die d).felt p).st = .down) := by
  have aligned : s.linkSt d p = .align := st
  have run : exec (.alignMeasureDone d p lanes skew err) s = .next (if lanesMapped lanes = true ∧ skew ≤ 40 ∧ err ≤ 100 then
      (s.modDie d fun x => x.modFelt p fun f => { f with laneMap := lanes }).linkUpNow d p else s.trainFail d p) :=
    event_next on (by simp [live, aligned])
  refine ⟨fun mapped skewed errs => ?_, fun bad slow => ?_⟩
  · obtain ⟨other, quiet, raised⟩ := (s.modDie d fun x => x.modFelt p fun f => { f with laneMap := lanes }).linkUpNow_facts d p
    rw [State.die_modDie_same, Die.felt_modFelt_same] at quiet
    exact ⟨_, run.trans (congrArg Host.Outcome.next (if_pos ⟨mapped, skewed, errs⟩)), (OtherDies.modDie s d _).trans other, congrArg Felt.st quiet,
      congrArg Felt.laneMap quiet, congrArg Felt.arrived quiet, (congrArg Felt.rate quiet).trans rfl, raised⟩
  · have fails : ¬ (lanesMapped lanes = true ∧ skew ≤ 40 ∧ err ≤ 100) := by
      rintro ⟨mapped, skewed, errs⟩
      rcases bad with h | h | h
      · exact Bool.false_ne_true (h.symm.trans mapped)
      · omega
      · omega
    exact ⟨_, run.trans (congrArg Host.Outcome.next (if_neg fails)), (State.trainFail_facts (by rw [st]; nofun)).2 slow⟩

end

/-! ### The obligation -/

/-- Settles O37: a training frame by the state it finds, then the other steps of training. -/
theorem feltTraining : Obligations.FeltTraining := by
  unfold Obligations.FeltTraining
  constructor
  · rintro s d p lane l ok f on hl live rfl free
    have run {P : State → Prop} := runs_trainingFrame (P := P) (l := l) (ok := ok) on hl live free
    refine ⟨fun bad inverse => run fun t other felt => ?_, fun settled => run fun t other felt => ?_,
      fun bad inverse => run fun t other felt => ?_, fun valid detect => run fun t other felt => ?_,
      fun valid discover => run fun t other felt => ?_, fun valid equalise => run fun t other felt => ?_⟩
    · exact ⟨other, felt.trans (Felt.train_invalid bad inverse)⟩
    · refine ⟨other, ?_⟩
      rw [felt]
      cases valid : trainOk l
      · cases inverse : trainOk (l.map fun b => ~~~b)
        · rw [Felt.train_invalid valid inverse]
        · rw [Felt.train_inverted valid inverse, Felt.trained_settled (f := ((s.die d).felt p).turned lane) settled]
          rfl
      · rw [Felt.train_valid valid, Felt.trained_settled (f := ((s.die d).felt p).upright lane) settled]
        rfl
    · rw [felt, Felt.train_inverted bad inverse, Felt.trained_flipped]
      exact ⟨other, getLsbD_or_lane _ hl⟩
    · rw [felt]
      exact ⟨other, Felt.train_detect valid detect⟩
    · rw [felt]
      exact ⟨other, Felt.train_discover valid discover⟩
    · rw [felt]
      exact ⟨other, Felt.train_equalise hl valid equalise⟩
  · rintro s d p f on live rfl
    exact ⟨fun down enabled => ⟨runs_detect (.inl rfl) on live down enabled, runs_detect (.inr rfl) on live down enabled⟩,
      runs_signal_idle on live, runs_timeout_detect on live, runs_timeout_training on live, runs_alignMeasure on live⟩

end Sys2Proof.Machine

namespace Sys2Proof.Machine

/-! ## O38: links that depart, go idle, fold and wake (R357, R359, R360, R367, R371) -/

section
variable {s : State} {d p : Nat}

/-- R359: a link that leaves for DETECT with a departure. -/
theorem State.linkDetect_departs (s : State) (d p : Nat) : OtherDies s (s.linkDetect d p true) d ∧
    ((s.linkDetect d p true).die d).felt p = { ((s.die d).felt p).goDetect with departed := true } ∧
    ∃ v, (s.linkDetect d p true).raised = s.raised ++ [v] ∧ v.code = 0x0021 ∧ v.die = d ∧ v.unit = 8 * d + p := by
  have own : ((s.modDie d fun x => x.modFelt p Felt.goDetect).die d).felt p = ((s.die d).felt p).goDetect := by
    rw [State.die_modDie_same, Die.felt_modFelt_same]
  obtain ⟨other, felt, raised⟩ := (s.modDie d fun x => x.modFelt p Felt.goDetect).depart_facts d p ((s.die d).felt p).st
  have departs : s.linkDetect d p true = (s.modDie d fun x => x.modFelt p Felt.goDetect).depart d p ((s.die d).felt p).st := by
    unfold State.linkDetect
    exact if_pos rfl
  rw [departs, felt, own]
  exact ⟨(OtherDies.modDie s d _).trans other, rfl, raised⟩

theorem runs_loss {i : Instr} {n : Nat} (on : s.portOn d p = true) (live : s.portLive d p = true) (up : (s.linkSt d p).awake = true)
    (i_is : i = .heartbeatLoss d p ∨ i = .alignmentLoss d p ∨ (i = .uncorrectableCodewordRatio d p n ∧ 10 < n)) :
    Runs i s fun t => OtherDies s t d ∧ ((t.die d).felt p).st = .detect ∧ ((t.die d).felt p).departed = true ∧
      ((t.die d).felt p).txq = [] ∧ ((t.die d).felt p).kept = [] ∧
      ∃ v, t.raised = s.raised ++ [v] ∧ v.code = 0x0021 ∧ v.die = d ∧ v.unit = 8 * d + p := by
  have run : exec i s = .next (s.linkDetect d p true) := by
    rcases i_is with rfl | rfl | ⟨rfl, hn⟩
    · exact event_next on (by simp [live, up])
    · exact event_next on (by simp [live, up])
    · exact event_next on (by simp [live, up, hn])
  obtain ⟨other, felt, raised⟩ := s.linkDetect_departs d p
  refine ⟨_, run, other, ?_⟩
  rw [felt]
  exact ⟨rfl, rfl, rfl, rfl, raised⟩

/-- R371: `retrain` departs from nobody. -/
theorem runs_retrain (on : s.portOn d p = true) (live : s.portLive d p = true) (free : s.linkSt d p ≠ .claimed) :
    Runs (.retrain d p) s fun t => OtherDies s t d ∧ ((t.die d).felt p).st = .detect ∧ t.raised = s.raised ∧
      ((t.die d).felt p).departed = ((s.die d).felt p).departed := by
  obtain ⟨other, felt, raised⟩ := s.linkDetect_facts d p
  have run : exec (.retrain d p) s = .next (s.linkRetrain d p) := event_next on (by simp [live, free])
  refine ⟨_, run.trans (congrArg Host.Outcome.next (if_neg (by simp [live, free]))), other, ?_, raised, ?_⟩
  · rw [felt]
    rfl
  · rw [felt]
    rfl

/-! ### IDLE, FOLDED, WAKING -/

theorem runs_idle (on : s.portOn d p = true) (live : s.portLive d p = true) (active : ((s.die d).felt p).st = .active)
    (empty : ((s.die d).felt p).txq = []) (timed : (s.die d).feltIdleUs p ≠ 0) :
    Runs (.linkIdle d p) s fun t => OtherDies s t d ∧ (t.die d).felt p = { (s.die d).felt p with st := .idle } := by
  refine ⟨_, event_next on (by simp [live, State.linkSt, active, empty, timed]), OtherDies.modDie s d _, ?_⟩
  rw [State.die_modDie_same, Die.felt_modFelt_same]

/-- R356, R367: a heartbeat on the line, after a filler where one is due. -/
theorem runs_heartbeat (on : s.portOn d p = true) (live : s.portLive d p = true) (up : ((s.die d).felt p).st.awake = true) :
    Runs (.heartbeatSend d p) s fun t => OtherDies s t d ∧ ((t.die d).felt p).st = ((s.die d).felt p).st ∧
      ((t.die d).felt p).kept = ((s.die d).felt p).kept ∧ ∃ l q, ((t.die d).felt p).line = ((s.die d).felt p).line ++ l ++ [q] ∧
        q.ftype = 3 ∧ (∀ z ∈ l, z.ftype = 0) ∧ l.length = if 2047 ≤ ((s.die d).felt p).sinceFill then 1 else 0 := by
  refine ⟨_, event_next on (by simp [live, State.linkSt, up]), OtherDies.modDie s d _, ?_⟩
  rw [State.die_modDie_same, Die.putLine_felt]
  obtain ⟨quiet, kept, -⟩ := ((s.die d).felt p).put_quiet
    { s.heartbeat d p with lack := ((s.die d).felt p).rxLast, replay := ((s.die d).felt p).rxReplay }
  obtain ⟨l, line, fillers, count⟩ := ((s.die d).felt p).put_line
    { s.heartbeat d p with lack := ((s.die d).felt p).rxLast, replay := ((s.die d).felt p).rxReplay }
  exact ⟨(congrArg Felt.st quiet :), kept, l, _, line, rfl, fillers, count⟩

/-! ### The fold handshake (R367) -/

/-- An awake link as a frame for it leaves it. -/
def Felt.roused (f : Felt) : Felt := { f with st := if f.st == .idle then .active else f.st }

theorem Felt.roused_awake {f : Felt} (h : f.st.awake = true) : f.roused.st = .active := by
  cases hs : f.st <;> simp [hs, LState.awake, Felt.roused] at h ⊢

theorem Die.enqueue_offLine (x : Die) (p : Nat) (q : FFrame) : (x.enqueue p q).offLine = x.offLine := by
  rw [Die.enqueue, Die.pumpAll_offLine]
  rfl

/-- With nothing queued and room for unacknowledged frames a frame goes on the line at once. -/
theorem Die.enqueue_line {x : Die} {p : Nat} (q : FFrame) (empty : (x.felt p).txq = []) (up : (x.felt p).st.awake = true)
    (room : (x.felt p).kept.length < 256) : ∃ l q', ((x.enqueue p q).felt p).line = (x.felt p).line ++ l ++ [q'] ∧
      (∀ z ∈ l, z.ftype = 0) ∧ q'.ftype = q.ftype ∧ q'.payload = q.payload := by
  set y := x.modFelt p fun f => { f with txq := f.txq ++ [q], st := if f.st == .idle then .active else f.st } with hy
  have felt : y.felt p = { x.felt p with txq := [q], st := (x.felt p).roused.st } := by
    rw [hy, Die.felt_modFelt_same, empty]
    rfl
  have queued : (y.felt p).txq = q :: [] := by rw [felt]
  have goes : ((y.felt p).st == .active && decide ((y.felt p).kept.length < 256)) = true := by
    rw [felt]
    simp [Felt.roused_awake up, room]
  have sent := y.sendNext_felt p q []
  have done : ((y.sendNext p q []).felt p).txq = [] := by rw [sent, (Felt.put_quiet ..).2.2]
  have pumped : x.enqueue p q = y.sendNext p q [] := by
    refine (Die.pumpLink_succ queued 255).trans ?_
    rw [if_pos goes, Die.pumpLink_empty done]
  have line : (y.felt p).line = (x.felt p).line := by rw [felt]
  rw [pumped, sent, ← line]
  obtain ⟨l, hline, fillers, -⟩ := Felt.put_line { y.felt p with
      txq := [], txNext := ((y.felt p).txNext + 1) % 4096
      kept := (y.felt p).kept ++ [{ q with lseq := (y.felt p).txNext, lack := (y.felt p).rxLast, replay := (y.felt p).rxReplay }] }
    { q with lseq := (y.felt p).txNext, lack := (y.felt p).rxLast, replay := (y.felt p).rxReplay }
  exact ⟨l, _, hline, fillers, rfl, rfl⟩

theorem Die.sendFold_felt (x : Die) (p : Nat) :
    (x.sendFold p).felt p = { (x.enqueue p (controlFrame 1)).felt p with foldSent := true, ackSeen := false } := by
  rw [Die.sendFold, Die.felt_modFelt_same]

theorem Die.mayFold_facts {x : Die} {p : Nat} (h : x.mayFold p = true) : (x.felt p).txq = [] ∧ (x.felt p).st.awake = true := by
  simp only [Die.mayFold, Bool.and_eq_true, List.isEmpty_iff] at h
  exact ⟨h.1.2, h.2⟩

theorem runs_fold {i : Instr} (on : s.portOn d p = true) (live : s.portLive d p = true) (may : (s.die d).mayFold p = true)
    (i_is : (i = .fold d p ∧ ((s.die d).felt p).foldSent = false) ∨
      (i = .foldRetry d p ∧ ((s.die d).felt p).foldSent = true ∧ ((s.die d).felt p).ackSeen = false)) :
    Runs i s fun t => OtherDies s t d ∧ ((t.die d).felt p).foldSent = true ∧ ((t.die d).felt p).ackSeen = false ∧
      (((s.die d).felt p).kept.length < 256 → ∃ l q, ((t.die d).felt p).line = ((s.die d).felt p).line ++ l ++ [q] ∧
        (∀ z ∈ l, z.ftype = 0) ∧ q.ftype = 4 ∧ q.payload.headD 0 = 1) := by
  have run : exec i s = .next (s.modDie d fun x => x.sendFold p) := by
    rcases i_is with ⟨rfl, sent⟩ | ⟨rfl, sent, seen⟩
    · exact event_next on (by simp [live, may, sent])
    · exact event_next on (by simp [live, may, sent, seen])
  obtain ⟨empty, up⟩ := Die.mayFold_facts may
  refine ⟨_, run, OtherDies.modDie s d _, ?_⟩
  rw [State.die_modDie_same, Die.sendFold_felt]
  refine ⟨rfl, rfl, fun room => ?_⟩
  obtain ⟨l, q, line, fillers, ftype, payload⟩ := Die.enqueue_line (controlFrame 1) empty up room
  exact ⟨l, q, line, fillers, ftype, by rw [payload]; rfl⟩

theorem runs_foldAck (on : s.portOn d p = true) (live : s.portLive d p = true) (up : ((s.die d).felt p).st.awake = true)
    (agreed : (((s.die d).felt p).foldSent = true ∧ ((s.die d).felt p).ackSeen = true) ∨
      (((s.die d).felt p).foldSeen = true ∧ (s.die d).mayFold p = true)) :
    Runs (.foldAck d p) s fun t => OtherDies s t d ∧ ((t.die d).felt p).st = .folded ∧ ((t.die d).felt p).foldSent = false ∧
      ((t.die d).felt p).foldSeen = false := by
  have folded : ∃ f : Felt, ((s.die d).foldNow p).felt p = f.folded := by
    unfold Die.foldNow
    split
    · exact ⟨_, Die.felt_modFelt_same ..⟩
    · exact ⟨_, Die.felt_modFelt_same ..⟩
  obtain ⟨f, hf⟩ := folded
  refine ⟨_, event_next on (by simpa [live, up] using agreed), OtherDies.modDie s d _, ?_⟩
  rw [State.die_modDie_same, hf]
  exact ⟨rfl, rfl, rfl⟩

/-- R320, R367: the partner's tone wakes the link, and its region is reached for. -/
theorem runs_wake (on : s.portOn d p = true) (live : s.live d = true) (works : (s.die d).isFenced 10 p = false)
    (inside : ((s.die d).region p).isolated = false) (folded : ((s.die d).felt p).st = .folded) :
    Runs (.wake d p true) s fun t => OtherDies s t d ∧ ((t.die d).felt p).st = .waking ∧
      (t.die d).region p = ((s.die d).region p).reach ∧
      (((s.die d).region p).power = .asleep → ((t.die d).region p).asked = true) := by
  refine ⟨_, event_next on (by simp [live, works, inside, State.linkSt, folded]), OtherDies.modDie s d _, ?_⟩
  rw [doWake, State.die_modDie_same, Die.region_modRegion_same]
  refine ⟨congrArg Felt.st (Die.felt_modFelt_same (s.die d) p fun f => { f with st := .waking, wakeTone := !true }), rfl, fun asleep => ?_⟩
  have closed : ((s.die d).region p).closed = true := by simp [Region.closed, inside, asleep]
  exact congrArg Region.asked (Region.closed_facts closed).1

theorem runs_relocked (on : s.portOn d p = true) (live : s.portLive d p = true) (waking : ((s.die d).felt p).st = .waking) :
    Runs (.loopsRelocked d p) s fun t => OtherDies s t d ∧ ((t.die d).felt p).st = .active := by
  refine ⟨_, event_next on (by simp [live, State.linkSt, waking]), OtherDies.modDie s d _, ?_⟩
  rw [State.die_modDie_same]
  have quiet := ((s.die d).modFelt p fun f => { f with st := .active, wakeTone := false }).pumpAll_quiet p
  rw [Die.felt_modFelt_same] at quiet
  exact congrArg Felt.st quiet

/-- R360: a link that does not wake goes to DETECT, its departure due. -/
theorem runs_wakingTimeout (on : s.portOn d p = true) (live : s.portLive d p = true) (waking : ((s.die d).felt p).st = .waking) :
    Runs (.wakingTimeout d p) s fun t => OtherDies s t d ∧ ((t.die d).felt p).st = .detect ∧ ((t.die d).felt p).wakeFailed = true ∧
      t.raised = s.raised := by
  obtain ⟨other, felt, raised⟩ := s.linkDetect_facts d p
  refine ⟨_, event_next on (by simp [live, State.linkSt, waking]), other.trans (OtherDies.modDie _ d _), ?_⟩
  rw [State.die_modDie_same, Die.felt_modFelt_same, felt]
  exact ⟨rfl, rfl, raised⟩

end

/-- Settles O38: the losses by how a link goes to DETECT, the fold by what is sent of a queued frame. -/
theorem feltLinkLoss : Obligations.FeltLinkLoss := by
  unfold Obligations.FeltLinkLoss
  refine ⟨fun s d p n on live => ⟨fun up i hi => runs_loss on live up hi, runs_retrain on live⟩, ?_⟩
  rintro s d p f on rfl
  exact ⟨fun live active empty timed => runs_idle on live active empty timed, fun live up => runs_heartbeat on live up,
    fun live may i hi => runs_fold on live may hi, fun live up agreed => runs_foldAck on live up agreed,
    fun live works inside folded => runs_wake on live works inside folded,
    fun live waking => ⟨runs_relocked on live waking, runs_wakingTimeout on live waking⟩⟩

end Sys2Proof.Machine

namespace Sys2Proof.Machine

/-! ## O39: frames on their way to rings, and rings that send (R363 to R366) -/

/-! ### What the links leave of the rings -/

/-- Of a die: its rings, its registers and whether it is in service. -/
def Die.ringSide (x : Die) := (x.rings, x.pregs, x.lost)

theorem Die.ringSide_of_offLine {x y : Die} (h : y.offLine = x.offLine) : y.ringSide = x.ringSide :=
  congrArg (fun n => (n.1, n.2.1, n.2.2.2)) h

theorem MetersOnly.ringSide {x y : Die} (h : MetersOnly x y) : y.ringSide = x.ringSide := by
  obtain ⟨_, _, _, rfl⟩ := h
  rfl

theorem MetersOnly.ring {x y : Die} (h : MetersOnly x y) (n : Nat) : y.ring n = x.ring n := by rw [Die.ring, h.rings, Die.ring]

/-- The rings of every die are as they were, with the registers that bind them. -/
structure RingsKept (s t : State) : Prop where
  part : t.part = s.part
  die  : ∀ e, (t.die e).ringSide = (s.die e).ringSide

section
variable {s t u : State}

theorem RingsKept.refl (s : State) : RingsKept s s := ⟨rfl, fun _ => rfl⟩

theorem RingsKept.trans (h : RingsKept s t) (g : RingsKept t u) : RingsKept s u :=
  ⟨g.part.trans h.part, fun e => (g.die e).trans (h.die e)⟩

theorem RingsKept.modDie (s : State) (d : Nat) {f : Die → Die} (h : ∀ x, (f x).ringSide = x.ringSide) : RingsKept s (s.modDie d f) :=
  ⟨rfl, State.die_modDie_congr Die.ringSide h s d⟩

section
variable (h : RingsKept s t) (e : Nat)
include h

theorem RingsKept.rings : (t.die e).rings = (s.die e).rings := congrArg (fun n => n.1) (h.die e)

theorem RingsKept.ring (n : Nat) : (t.die e).ring n = (s.die e).ring n := by rw [Die.ring, h.rings, Die.ring]

theorem RingsKept.pregs : (t.die e).pregs = (s.die e).pregs := congrArg (fun n => n.2.1) (h.die e)

theorem RingsKept.regv (o : Nat) : (t.die e).regv o = (s.die e).regv o := by rw [Die.regv, Die.preg, h.pregs, Die.regv, Die.preg]

theorem RingsKept.feltPkg : (t.die e).feltPkg = (s.die e).feltPkg := by rw [Die.feltPkg, h.regv, Die.feltPkg]

theorem RingsKept.ringMode (n : Nat) : (t.die e).ringMode n = (s.die e).ringMode n := by rw [Die.ringMode, h.regv, Die.ringMode]

theorem RingsKept.ringPeer (n : Nat) : (t.die e).ringPeer n = (s.die e).ringPeer n := by rw [Die.ringPeer, h.regv, Die.ringPeer]

theorem RingsKept.ringLen (n : Nat) : (t.die e).ringLen n = (s.die e).ringLen n := by rw [Die.ringLen, h.regv, Die.ringLen]

theorem RingsKept.ringRoom (n : Nat) : (t.die e).ringRoom n = (s.die e).ringRoom n := by
  rw [Die.ringRoom, Die.ringHeld, h.ringLen, h.ring, Die.ringRoom, Die.ringHeld]

theorem RingsKept.usable : t.usable e = s.usable e := by
  have lost : (t.die e).lost = (s.die e).lost := congrArg (fun n => n.2.2) (h.die e)
  rw [State.usable, State.dieCount, h.part, lost, State.usable, State.dieCount]

end

end

/-! ### A frame received (R363, R364) -/

/-- Frames sent again write what sending writes. -/
theorem Die.replayLink_rest (x : Die) (p : Nat) :
    ((x.replayLink p).felt p).quiet = (x.felt p).quiet ∧ (x.replayLink p).offLine = x.offLine := by
  have again (f : Felt) (l : List FFrame) : ∀ y : Die,
      ((l.foldl (fun (x : Die) q => x.putLine p { q with lack := f.rxLast, replay := f.rxReplay }) y).felt p).quiet = (y.felt p).quiet ∧
        (l.foldl (fun (x : Die) q => x.putLine p { q with lack := f.rxLast, replay := f.rxReplay }) y).offLine = y.offLine := by
    induction l with
    | nil => exact fun y => ⟨rfl, rfl⟩
    | cons q l ih =>
      intro y
      obtain ⟨quiet, rest⟩ := ih (y.putLine p { q with lack := f.rxLast, replay := f.rxReplay })
      rw [Die.putLine_felt, (Felt.put_quiet ..).1] at quiet
      exact ⟨quiet, rest.trans (y.putLine_offLine p _)⟩
  unfold Die.replayLink
  dsimp only
  split
  · exact ⟨rfl, rfl⟩
  · have counted := (MetersOnly.refl ((x.felt p).kept.foldl (fun (y : Die) q =>
      y.putLine p { q with lack := (x.felt p).rxLast, replay := (x.felt p).rxReplay }) x)).count flReplays p 1
    rw [counted.felt, counted.offLine]
    exact again _ _ x

theorem Felt.acked_rxLast (f : Felt) (n : Nat) : (f.acked n).rxLast = f.rxLast := by
  unfold Felt.acked
  split <;> rfl

theorem Felt.rxLast_of_quiet {f g : Felt} (h : f.quiet = g.quiet) : f.rxLast = g.rxLast := (congrArg Felt.rxLast h :)

/-- What a valid frame does to the transmitter of its port. -/
def Die.heard (x : Die) (p : Nat) (q : FFrame) : Die :=
  let y := x.modFelt p fun f => { f.acked q.lack with st := if f.st == .idle && q.ftype != 3 then .active else f.st }
  (if q.replay then y.replayLink p else y).pumpAll p

/-- It acknowledges nothing of the receiver, and reaches no ring. -/
theorem Die.heard_facts (x : Die) (p : Nat) (q : FFrame) :
    ((x.heard p q).felt p).rxLast = (x.felt p).rxLast ∧ (x.heard p q).ringSide = x.ringSide := by
  have own : ((x.modFelt p fun f => { f.acked q.lack with st := if f.st == .idle && q.ftype != 3 then .active else f.st }).felt p).rxLast =
      (x.felt p).rxLast := by
    rw [Die.felt_modFelt_same]
    exact Felt.acked_rxLast ..
  unfold Die.heard
  dsimp only
  split
  · obtain ⟨quiet, rest⟩ := (x.modFelt p fun f =>
      { f.acked q.lack with st := if f.st == .idle && q.ftype != 3 then .active else f.st }).replayLink_rest p
    exact ⟨(Felt.rxLast_of_quiet ((Die.pumpAll_quiet ..).trans quiet)).trans own,
      Die.ringSide_of_offLine ((Die.pumpAll_offLine ..).trans rest)⟩
  · exact ⟨(Felt.rxLast_of_quiet (Die.pumpAll_quiet ..)).trans own, Die.ringSide_of_offLine (Die.pumpAll_offLine ..)⟩

/-- What codewords leave of the frame they brought: their counts, and a report of symbols corrected. -/
def State.rxCounted (s : State) (d p : Nat) (l : List Byte) (ce ue : Nat) : State :=
  (s.modDie d fun x =>
    ((x.count flFecCorr p ce).count flFecUncorr p ue).act 6 (s.framePayer d l) 2176).correctedIn nclkSecond d 10 p ce 1000000 none (some p)

theorem State.rxCounted_facts (s : State) (d p : Nat) (l : List Byte) (ce ue : Nat) : OtherDies s (s.rxCounted d p l ce ue) d ∧
    RingsKept s (s.rxCounted d p l ce ue) ∧ ((s.rxCounted d p l ce ue).die d).felts = (s.die d).felts := by
  have meters (x : Die) : MetersOnly x (((x.count flFecCorr p ce).count flFecUncorr p ue).act 6 (s.framePayer d l) 2176) :=
    (((MetersOnly.refl x).count ..).count ..).act ..
  have felts (x : Die) : (((x.count flFecCorr p ce).count flFecUncorr p ue).act 6 (s.framePayer d l) 2176).felts = x.felts := by
    obtain ⟨_, _, _, h⟩ := meters x
    rw [h]
  have counted := OtherDies.modDie s d fun x => ((x.count flFecCorr p ce).count flFecUncorr p ue).act 6 (s.framePayer d l) 2176
  set t := s.modDie d fun x => ((x.count flFecCorr p ce).count flFecUncorr p ue).act 6 (s.framePayer d l) 2176 with ht
  have kept : RingsKept s t := .modDie s d fun x => (meters x).ringSide
  have noted := OtherDies.modDie t d fun x => x.addErr (unitKey 10 p) nclkSecond ce
  have kept' : RingsKept t (t.modDie d fun x => x.addErr (unitKey 10 p) nclkSecond ce) := .modDie t d fun _ => rfl
  have felts' : ((t.modDie d fun x => x.addErr (unitKey 10 p) nclkSecond ce).die d).felts = (s.die d).felts := by
    rw [State.die_modDie_same, ht, State.die_modDie_same]
    exact felts _
  unfold State.rxCounted State.correctedIn
  rw [← ht]
  dsimp only
  split
  · refine ⟨(counted.trans noted).trans fun e _ => State.emit_die .., (kept.trans kept').trans ⟨(State.emit_frame ..).1, fun e => ?_⟩, ?_⟩
    · rw [State.emit_die]
    · rw [State.emit_die, felts']
  · exact ⟨counted.trans noted, kept.trans kept', felts'⟩

section
variable {s : State} {d p ce ue : Nat} {l : List Byte}

theorem exec_feltFrameRx_valid {q : FFrame} (on : s.portOn d p = true) (live : s.portLive d p = true) (up : (s.linkSt d p).awake = true)
    (parsed : parseFrame l = some q) :
    exec (.feltFrameRx d p l ce ue) s = .next ((s.rxCounted d p l ce ue).takeFrame d p q) := by
  refine (event_next on (by simp [live, up])).trans ?_
  rw [parsed]
  rfl

theorem exec_feltFrameRx_invalid (on : s.portOn d p = true) (live : s.portLive d p = true) (up : (s.linkSt d p).awake = true)
    (bad : parseFrame l = none) : exec (.feltFrameRx d p l ce ue) s =
      .next ((s.rxCounted d p l ce ue).modDie d fun x => (x.modFelt p Felt.askReplay).count flCrcErr p 1) := by
  refine (event_next on (by simp [live, up])).trans ?_
  rw [bad]
  rfl

theorem runs_invalidFrame (on : s.portOn d p = true) (live : s.portLive d p = true) (up : (s.linkSt d p).awake = true)
    (bad : parseFrame l = none) : Runs (.feltFrameRx d p l ce ue) s fun t => OtherDies s t d ∧ (t.die d).rings = (s.die d).rings ∧
      ((t.die d).felt p).rxReplay = true := by
  obtain ⟨other, kept, -⟩ := s.rxCounted_facts d p l ce ue
  refine ⟨_, exec_feltFrameRx_invalid on live up bad, other.trans (OtherDies.modDie _ d _), ?_, ?_⟩
  · rw [State.die_modDie_same, ((MetersOnly.refl _).count ..).rings, Die.modFelt_rings]
    exact kept.rings d
  · rw [State.die_modDie_same, ((MetersOnly.refl _).count ..).felt, Die.felt_modFelt_same]
    rfl

/-- How far a sequenced frame is from the one a link expects. -/
def Felt.gap (f : Felt) (q : FFrame) : Nat := (q.lseq + 4096 - (f.rxLast + 1) % 4096) % 4096

/-- A valid frame of the sequence, by its distance from the one expected. -/
theorem State.takeFrame_sequenced {q : FFrame} (sequenced : q.ftype = 1 ∨ q.ftype = 2 ∨ q.ftype = 4) : s.takeFrame d p q =
    if ((s.die d).felt p).gap q = 0 then (s.modDie d fun x => x.heard p q).takeInOrder d p q
    else if ((s.die d).felt p).gap q < 2048 then (s.modDie d fun x => x.heard p q).modDie d fun x => x.modFelt p Felt.askReplay
    else s.modDie d fun x => x.heard p q := by
  have last : (((s.modDie d fun x => x.heard p q).die d).felt p).gap q = ((s.die d).felt p).gap q := by
    rw [State.die_modDie_same, Felt.gap, (Die.heard_facts ..).1, Felt.gap]
  rw [← last]
  unfold State.takeFrame
  exact (if_neg (by omega)).trans (if_neg (by omega))

theorem State.rxCounted_gap (q : FFrame) : (((s.rxCounted d p l ce ue).die d).felt p).gap q = ((s.die d).felt p).gap q := by
  rw [Die.felt, (s.rxCounted_facts d p l ce ue).2.2, Die.felt]

theorem runs_unexpectedFrame {q : FFrame} (on : s.portOn d p = true) (live : s.portLive d p = true) (up : (s.linkSt d p).awake = true)
    (parsed : parseFrame l = some q) (sequenced : q.ftype = 1 ∨ q.ftype = 2 ∨ q.ftype = 4) (off : ((s.die d).felt p).gap q ≠ 0) :
    Runs (.feltFrameRx d p l ce ue) s fun t => OtherDies s t d ∧ (t.die d).rings = (s.die d).rings ∧
      ((t.die d).felt p).rxLast = ((s.die d).felt p).rxLast ∧
      (((s.die d).felt p).gap q < 2048 → ((t.die d).felt p).rxReplay = true) := by
  obtain ⟨other, kept, felts⟩ := s.rxCounted_facts d p l ce ue
  have gap := State.rxCounted_gap (s := s) (d := d) (p := p) (l := l) (ce := ce) (ue := ue) q
  refine ⟨_, exec_feltFrameRx_valid on live up parsed, ?_⟩
  have last : (((s.rxCounted d p l ce ue).die d).felt p).rxLast = ((s.die d).felt p).rxLast := by rw [Die.felt, felts, Die.felt]
  set u := s.rxCounted d p l ce ue
  have heard := Die.heard_facts (u.die d) p q
  have rings : ((u.die d).heard p q).rings = (s.die d).rings := (congrArg (fun n => n.1) heard.2).trans (kept.rings d)
  rw [State.takeFrame_sequenced sequenced, gap, if_neg off]
  split
  · refine ⟨(other.trans (OtherDies.modDie u d _)).trans (OtherDies.modDie _ d _), ?_⟩
    rw [State.die_modDie_same, State.die_modDie_same, Die.felt_modFelt_same]
    exact ⟨rings, heard.1.trans last, fun _ => rfl⟩
  · next far =>
    refine ⟨other.trans (OtherDies.modDie u d _), ?_⟩
    rw [State.die_modDie_same]
    exact ⟨rings, heard.1.trans last, fun near => absurd near far⟩

/-! ### A data frame for a ring of this package (R365, R366) -/

/-- The units of a data frame. -/
def FFrame.words (q : FFrame) : List (BitVec 512) := (List.range q.units).map fun i => BitVec.ofNat 512 (fieldAt q.payload (64 * i) 64)

/-- A die whose receive ring, its channel `c`, takes a data frame from port `p`. -/
def Die.takeUnits (x : Die) (p : Nat) (q : FFrame) (c : Chan) : Die :=
  ((x.ringPushes q.dRing q.words).modRing q.dRing fun r => { r with
    chan := { r.chan with expect := (c.expect + 1) % 2 ^ 24, toAck := c.toAck + 1, ackDue := true, port := p } }).memAct 0
      (x.ring q.dRing).payer (64 * q.units)

theorem Die.takeUnits_ring (x : Die) (p : Nat) (q : FFrame) (c : Chan) : (x.takeUnits p q c).ring q.dRing =
    { (x.ringPushes q.dRing q.words).ring q.dRing with
      chan := { ((x.ringPushes q.dRing q.words).ring q.dRing).chan with
        expect := (c.expect + 1) % 2 ^ 24, toAck := c.toAck + 1, ackDue := true, port := p } } := by
  rw [Die.takeUnits, ((MetersOnly.refl _).memAct ..).ring, Die.ring_modRing_same]

/-- A receive ring that has room takes the frame it expects. -/
theorem State.takeData_expected {q : FFrame} {r : Ring} (usable : s.usable q.dDie = true) (receives : (s.die q.dDie).ringMode q.dRing = 2)
    (peer : (s.die q.dDie).ringPeer q.dRing = (q.sPkg, q.sDie, q.sRing)) (hr : (s.die q.dDie).ring q.dRing = r) (plain : q.sync = false)
    (expected : q.cseq = r.chan.expect) (room : q.units ≤ (s.die q.dDie).ringRoom q.dRing) (few : r.chan.toAck < 15) :
    s.takeData p q = (s.modDie q.dDie fun x => x.takeUnits p q r.chan, []) := by
  subst hr
  unfold State.takeData
  dsimp only
  rw [if_neg (by simp [usable, receives, peer]), plain, if_neg Bool.false_ne_true, if_pos ⟨expected, room⟩, if_neg (by omega)]
  rfl

/-- A data frame in order, for a ring of this package. -/
theorem State.takeInOrder_data {q : FFrame} {pkg : Nat} (data : q.ftype = 1) (own : (s.die d).feltPkg = some pkg) (here : q.dPkg = pkg) :
    ∃ t, RingsKept s t ∧ s.takeInOrder d p q = (t.takeData p q).1.sendAll feltFuel (t.takeData p q).2 := by
  have seen : RingsKept s (s.modDie d fun x => x.modFelt p fun f => { f with rxLast := q.lseq, rxReplay := false }) := .modDie s d fun _ => rfl
  have kept := seen.trans (.modDie _ d fun x => ((MetersOnly.refl x).count flFramesRx p 1).ringSide)
  refine ⟨_, kept, ?_⟩
  unfold State.takeInOrder
  dsimp only
  rw [if_neg (by omega), if_pos data, State.routeFrame, kept.feltPkg, own]
  dsimp only
  rw [if_pos here, if_pos data]

theorem State.sendAll_nil (s : State) : ∀ n, s.sendAll n [] = s
  | 0 => rfl
  | _ + 1 => rfl

theorem runs_dataFrame {q : FFrame} {pkg : Nat} {r : Ring} (on : s.portOn d p = true) (live : s.portLive d p = true)
    (up : (s.linkSt d p).awake = true) (parsed : parseFrame l = some q) (data : q.ftype = 1) (next : ((s.die d).felt p).gap q = 0)
    (own : (s.die d).feltPkg = some pkg) (here : q.dPkg = pkg) (usable : s.usable q.dDie = true)
    (receives : (s.die q.dDie).ringMode q.dRing = 2) (peer : (s.die q.dDie).ringPeer q.dRing = (q.sPkg, q.sDie, q.sRing))
    (hr : r = (s.die q.dDie).ring q.dRing) (plain : q.sync = false) (expected : q.cseq = r.chan.expect)
    (room : q.units ≤ (s.die q.dDie).ringRoom q.dRing) (inside : r.wr < (s.die q.dDie).ringLen q.dRing) (few : r.chan.toAck < 15) :
    Runs (.feltFrameRx d p l ce ue) s fun t =>
      ((t.die q.dDie).ring q.dRing).wr = (r.wr + q.units) % (s.die q.dDie).ringLen q.dRing ∧
      ((t.die q.dDie).ring q.dRing).chan.expect = (q.cseq + 1) % 2 ^ 24 ∧
      (∀ i, i < q.units → tget ((t.die q.dDie).ring q.dRing).data ((r.wr + i) % (s.die q.dDie).ringLen q.dRing) 0 =
        BitVec.ofNat 512 (fieldAt q.payload (64 * i) 64)) := by
  subst hr
  have counted := (s.rxCounted_facts d p l ce ue).2.1
  have gap := State.rxCounted_gap (s := s) (d := d) (p := p) (l := l) (ce := ce) (ue := ue) q
  have run := exec_feltFrameRx_valid (ce := ce) (ue := ue) on live up parsed
  set u := s.rxCounted d p l ce ue
  have heard : RingsKept u (u.modDie d fun x => x.heard p q) := .modDie u d fun x => (x.heard_facts p q).2
  have reached := counted.trans heard
  obtain ⟨v, taken, order⟩ := State.takeInOrder_data (p := p) data ((reached.feltPkg d).trans own) here
  have kept := reached.trans taken
  have accepted := State.takeData_expected (p := p) ((kept.usable _).trans usable) ((kept.ringMode ..).trans receives)
    ((kept.ringPeer ..).trans peer) (kept.ring ..) plain expected ((kept.ringRoom ..).symm ▸ room) few
  rw [State.takeFrame_sequenced (.inl data), gap, if_pos next, order, accepted, State.sendAll_nil] at run
  refine ⟨_, run, ?_⟩
  have len := kept.ringLen q.dDie q.dRing
  have ring := kept.ring q.dDie q.dRing
  have inside' : ((v.die q.dDie).ring q.dRing).wr < (v.die q.dDie).ringLen q.dRing := by rw [ring, len]; exact inside
  have words : q.words.length = q.units := by simp [FFrame.words]
  have fits : q.words.length ≤ (v.die q.dDie).ringLen q.dRing := by
    rw [Die.ringRoom] at room
    omega
  obtain ⟨wr, -⟩ := Die.ringPushes_pointers q.dRing q.words inside'
  rw [words, ring, len] at wr
  dsimp only
  rw [State.die_modDie_same, Die.takeUnits_ring]
  refine ⟨wr, by rw [expected], fun i hi => ?_⟩
  have word : q.words[i]? = some (BitVec.ofNat 512 (fieldAt q.payload (64 * i) 64)) := by simp [FFrame.words, hi]
  have stored := Die.ringPushes_data q.dRing q.words inside' fits word
  rw [ring, len] at stored
  exact stored

end

/-! ### Frames for another package (R365, R366) -/

/-- A frame that goes out, or is dropped, leaves the rings. -/
theorem State.sendOut_rings (s : State) (d p : Nat) (q : FFrame) : RingsKept s (s.sendOut d p q) := by
  have dropped : RingsKept s (s.modDie d fun x => x.count flFwdDrops p 1) := .modDie s d fun x => ((MetersOnly.refl x).count ..).ringSide
  unfold State.sendOut
  split
  · exact dropped
  · split
    · exact dropped
    · exact .modDie s _ fun x => Die.ringSide_of_offLine (x.enqueue_offLine ..)

/-- Frames of die `d`, whose package is `pkg`, for other packages. -/
def Abroad (d pkg : Nat) (l : List Sent) : Prop := ∀ q ∈ l, q.die = d ∧ q.frame.dPkg ≠ pkg

theorem State.sendAll_rings {d pkg : Nat} : ∀ (n : Nat) (l : List Sent) (s : State), (s.die d).feltPkg = some pkg → Abroad d pkg l →
    RingsKept s (s.sendAll n l)
  | 0, _, s, _, _ => .refl s
  | _ + 1, [], s, _, _ => .refl s
  | n + 1, q :: r, s, own, abroad => by
    obtain ⟨die, other⟩ := abroad q List.mem_cons_self
    have out : s.sendOne q = (s.sendOut q.die q.port { q.frame with bill := ((s.die q.die).ring q.frame.sRing).payer.tenant }, []) := by
      unfold State.sendOne
      exact if_neg (by simpa [die, own] using Ne.symm other)
    have left := s.sendOut_rings q.die q.port { q.frame with bill := ((s.die q.die).ring q.frame.sRing).payer.tenant }
    rw [State.sendAll, out]
    dsimp only
    rw [List.append_nil]
    exact left.trans (State.sendAll_rings n r _ ((left.feltPkg d).trans own) fun q hq => abroad q (List.mem_cons_of_mem _ hq))

theorem Die.dataFrame_dPkg (x : Die) (d n pkg first count cseq : Nat) (sync : Bool) :
    (x.dataFrame d n pkg first count cseq sync).dPkg = (x.ringPeer n).1 := rfl

/-- The frames that are sent again are for the ring's peer. -/
theorem Die.unackedFrames_dPkg (x : Die) (d n pkg : Nat) : ∀ q ∈ x.unackedFrames d n pkg, q.dPkg = (x.ringPeer n).1 := by
  have built (l : List Nat) : ∀ a : Nat × Nat × List FFrame, (∀ q ∈ a.2.2, q.dPkg = (x.ringPeer n).1) →
      ∀ q ∈ (l.foldl (fun (a : Nat × Nat × List FFrame) (u : Nat) => (a.1 + u, a.2.1 + 1,
        x.dataFrame d n pkg a.1 u ((x.ring n).chan.acked + a.2.1) ((x.ring n).chan.sync && a.2.1 == 0) :: a.2.2)) a).2.2,
      q.dPkg = (x.ringPeer n).1 := by
    induction l with
    | nil => exact fun a h => h
    | cons u l ih =>
      refine fun a h => ih _ fun q hq => ?_
      rcases List.mem_cons.mp hq with rfl | hq
      · exact x.dataFrame_dPkg ..
      · exact h q hq
  exact fun q hq => built _ (0, 0, []) nofun q (List.mem_reverse.mp hq)

/-! ### Rings that send and acknowledge -/

/-- Of the rings of die `d` ring `n` alone is written, and is now `r`; the registers that bind the rings are as they were. -/
structure OneRing (s t : State) (d n : Nat) (r : Ring) : Prop where
  ring  : (t.die d).ring n = r
  other : ∀ m, m ≠ n → (t.die d).ring m = (s.die d).ring m
  pregs : (t.die d).pregs = (s.die d).pregs

section
variable {s : State} {d n pkg : Nat}

theorem OneRing.metered (s : State) (d : Nat) {n : Nat} {f : Ring → Ring} {g : Die → Die} (h : ∀ x, MetersOnly (x.modRing n f) (g x)) :
    OneRing s (s.modDie d g) d n (f ((s.die d).ring n)) := by
  refine ⟨?_, fun m hm => ?_, ?_⟩
  · rw [State.die_modDie_same, (h _).ring, Die.ring_modRing_same]
  · rw [State.die_modDie_same, (h _).ring, Die.ring_modRing_other _ _ hm]
  · rw [State.die_modDie_same]
    exact congrArg (fun n => n.2.1) (h _).ringSide

theorem OneRing.modRing (s : State) (d n : Nat) (f : Ring → Ring) :
    OneRing s (s.modDie d fun x => x.modRing n f) d n (f ((s.die d).ring n)) :=
  .metered s d fun _ => .refl _

theorem OneRing.kept {t u : State} {r : Ring} (h : OneRing s t d n r) (k : RingsKept t u) : OneRing s u d n r :=
  ⟨(k.ring d n).trans h.ring, fun m hm => (k.ring d m).trans (h.other m hm), (k.pregs d).trans h.pregs⟩

theorem OneRing.sendAll {t : State} {r : Ring} (h : OneRing s t d n r) (own : (s.die d).feltPkg = some pkg) {l : List Sent}
    (abroad : Abroad d pkg l) (k : Nat) : OneRing s (t.sendAll k l) d n r := by
  refine h.kept (State.sendAll_rings k l t ?_ abroad)
  rw [Die.feltPkg, Die.regv, Die.preg, h.pregs]
  exact own

theorem runs_feltSend {p : Nat} (live : s.live d = true) (hn : n < 64) (own : (s.die d).feltPkg = some pkg)
    (abroad : ((s.die d).ringPeer n).1 ≠ pkg) (hp : p < 8) (works : (s.die d).isFenced 10 p = false) (sends : (s.die d).ringMode n = 1)
    (has : 0 < (s.die d).unsent n) (few : ((s.die d).ring n).chan.frames.length < 256) :
    Runs (.feltSend d n p) s fun t =>
      ((t.die d).ring n).chan.frames = ((s.die d).ring n).chan.frames ++ [min 4 ((s.die d).unsent n)] ∧
        ((t.die d).ring n).chan.next = (((s.die d).ring n).chan.next + 1) % 2 ^ 24 ∧ ((t.die d).ring n).rd = ((s.die d).ring n).rd ∧
        ((t.die d).ring n).wr = ((s.die d).ring n).wr ∧ ∀ m, m ≠ n → (t.die d).ring m = (s.die d).ring m := by
  obtain ⟨-, present, -, -⟩ := (State.live_iff s d).mp live
  have work := (OneRing.modRing s d n fun r => { r with chan := { r.chan with
      next := (((s.die d).ring n).chan.next + 1) % 2 ^ 24, frames := ((s.die d).ring n).chan.frames ++ [min 4 ((s.die d).unsent n)]
      sync := false, port := p } }).kept
    (.modDie _ d fun x => ((MetersOnly.refl x).memAct 0 (x.ring n).payer (64 * min 4 ((s.die d).unsent n))).ringSide)
  refine ⟨_, event_next (by simp [State.portOn, present, hp, hn]) (by simp [live, works, sends, own, has, few]), ?_⟩
  unfold doFeltSend
  rw [own]
  dsimp only
  obtain ⟨ring, other, -⟩ := work.sendAll own (l := [{ die := d, port := p, frame := (s.die d).dataFrame d n pkg _ _ _ _ }])
    (fun q hq => List.mem_singleton.mp hq ▸ ⟨rfl, abroad⟩) feltFuel
  rw [ring]
  exact ⟨rfl, rfl, rfl, rfl, other⟩

/-- R365: the acknowledgement of a receive ring. -/
theorem runs_ackTimer (live : s.live d = true) (hn : n < 64) (own : (s.die d).feltPkg = some pkg)
    (abroad : ((s.die d).ringPeer n).1 ≠ pkg) (receives : (s.die d).ringMode n = 2) (due : ((s.die d).ring n).chan.ackDue = true) :
    Runs (.ackTimer d n) s fun t => ((t.die d).ring n).chan = { ((s.die d).ring n).chan with toAck := 0, ackDue := false } ∧
      ((t.die d).ring n).rd = ((s.die d).ring n).rd ∧ ∀ m, m ≠ n → (t.die d).ring m = (s.die d).ring m := by
  obtain ⟨-, present, -, -⟩ := (State.live_iff s d).mp live
  refine ⟨_, event_next (by simp [present, hn]) (by simp [live, receives, own, due]), ?_⟩
  unfold State.makeAck
  rw [own]
  dsimp only
  obtain ⟨ring, other, -⟩ := (OneRing.modRing s d n fun r => { r with chan := { r.chan with toAck := 0, ackDue := false } }).sendAll own
    (l := [{ die := d, port := _, frame := (s.die d).ackFrame d n pkg }]) (fun q hq => List.mem_singleton.mp hq ▸ ⟨rfl, abroad⟩) feltFuel
  rw [ring]
  exact ⟨rfl, rfl, other⟩

/-- R365: what is not acknowledged is sent again. -/
theorem runs_e2eRetransmit (live : s.live d = true) (hn : n < 64) (own : (s.die d).feltPkg = some pkg)
    (abroad : ((s.die d).ringPeer n).1 ≠ pkg) (sends : (s.die d).ringMode n = 1) (unacked : ((s.die d).ring n).chan.frames ≠ []) :
    Runs (.e2eRetransmit d n) s fun t => ((t.die d).ring n).chan.frames = ((s.die d).ring n).chan.frames ∧
      ((t.die d).ring n).rd = ((s.die d).ring n).rd ∧ ((t.die d).ring n).wr = ((s.die d).ring n).wr ∧
      ∀ m, m ≠ n → (t.die d).ring m = (s.die d).ring m := by
  obtain ⟨-, present, -, -⟩ := (State.live_iff s d).mp live
  refine ⟨_, event_next (by simp [present, hn]) (by simp [live, sends, own, unacked]), ?_⟩
  unfold State.resend
  rw [own]
  dsimp only
  have work := OneRing.metered s d fun x => (MetersOnly.refl (x.modRing n fun r => { r with
    chan := { r.chan with sync := r.chan.sync && ((s.die d).unackedFrames d n pkg).isEmpty } })).count flE2eRetx
      ((s.die d).ring n).chan.port 1
  have again : Abroad d pkg (((s.die d).unackedFrames d n pkg).map fun q => { die := d, port := ((s.die d).ring n).chan.port, frame := q }) := by
    intro q hq
    obtain ⟨z, hz, rfl⟩ := List.mem_map.mp hq
    exact ⟨rfl, (s.die d).unackedFrames_dPkg d n pkg z hz ▸ abroad⟩
  obtain ⟨ring, other, -⟩ := work.sendAll own again feltFuel
  rw [ring]
  exact ⟨rfl, rfl, rfl, other⟩

end

/-- Settles O39: a frame by its place in the sequence of its link; a ring that sends by what goes out for another package. -/
theorem feltFramesAndRings : Obligations.FeltFramesAndRings := by
  unfold Obligations.FeltFramesAndRings
  refine ⟨fun s d p ce ue l on live up => ⟨runs_invalidFrame on live up,
    fun q parsed sequenced => runs_unexpectedFrame on live up parsed sequenced,
    fun q pkg r parsed data next own here usable receives peer hr plain expected room inside few =>
      runs_dataFrame on live up parsed data next own here usable receives peer hr plain expected room inside few⟩, ?_⟩
  rintro s d n p pkg c live hn own abroad rfl
  exact ⟨runs_feltSend live hn own abroad, runs_ackTimer live hn own abroad, runs_e2eRetransmit live hn own abroad⟩

end Sys2Proof.Machine
